-- ==== Sys2Proof/Word.lean ====
section
/-!
DEFINITION. The word types of the NX and their plainest arithmetic (00_scope.md R5, R6).
-/

namespace Sys2Proof

/-- A scalar register, an address or a counter: 64 bits. -/
abbrev Word := BitVec 64

/-- One byte of memory. -/
abbrev Byte := BitVec 8

/-- An instruction word (R6, R44): 32 bits. -/
abbrev Insn := BitVec 32

/-- The low 32 bits of a word, sign-extended to 64 (R68). -/
abbrev sext32 (x : Word) : Word := (x.setWidth 32).signExtend 64

/-- A Bool as the word 1 or 0. -/
abbrev boolWord (b : Bool) : Word := if b then 1 else 0

end Sys2Proof
end

