-- ==== Sys2Proof/Config.lean ====
section
/-!
DEFINITION. What one build fixes and the spec leaves open: constants without a body (log 9), which no proof can see.
A free value that may differ from one draw to the next takes the draw counter `State.free` as an argument.
-/

namespace Sys2Proof.Config

/-- A word the spec leaves open, one for each draw (log 9). -/
opaque freeWord : Nat → Word
/-- A choice the spec leaves open, one for each draw (log 9). -/
opaque freeBool : Nat → Bool
/-- Output element `e` of the bodkin routine with an image, whatever its RATIO, on the codes of its input
(15_patterns_swatches_shuttle.md, R267, R268; log 9). -/
opaque bodkinOut : Nat → List Nat → Nat → Word
/-- Output element count that the scout pass of a routine with an image finds from the heads of the input's chunks (R268; log 9). -/
opaque bodkinCount : Nat → List Nat → Nat
/-- Words of 8 bytes of a routine's image behind its header (R267, R423; log 9). -/
opaque routineWords : BitVec 256 → Nat
/-- Byte at an address of host memory as a shuttle command or a KIND = 1 load reads it (R431; log 9). -/
opaque hostByte : Nat → Nat → Byte
/-- Contents of boot ROM and fuses: the first value of M0 (R437; log 9). -/
opaque bootMeasure : BitVec 256
/-- The fused SHA-256 digest of the firmware signing key (R435; log 9). -/
opaque keyDigest : BitVec 256
/-- The modulus of the identity key (R440; log 9). -/
opaque identityModulus : Nat
/-- The private exponent of the identity key (R440; log 9). -/
opaque identityExponent : Nat
/-- Length less 1 of a compressed frame, by the cycle of the cut, the frame's number and its bytes (R244, R451; log 39). -/
opaque packedLength : Word → Nat → Nat → BitVec 12
/-- Byte of a compressed frame (R244, R451; log 39). -/
opaque packedByte : Word → Nat → Nat → Nat → Byte
/-- A correctly rounded transcendental or level-index result whose last bit the model's interval arithmetic did not decide (R212-R219; log 10). -/
opaque undecidedAbove : Nat → Int → Int → Bool
/-- Packages in service in the pod at a seam-table generation (R329; log 9). -/
opaque podMembers : BitVec 16 → BitVec 32
/-- Whether every package of the pod is healthy at a seam-table generation (R329; log 9). -/
opaque podHealth : BitVec 16 → Bool
/-- Cost word `w` of a level of a part that is not healthy or not calibrated, at a seam-table generation (R329-R331; log 9). -/
opaque seamCost : BitVec 16 → Nat → Nat → Word

end Sys2Proof.Config
end

