-- ==== Sys2Proof/Machine/Formats.lean ====
section
/-!
DEFINITION. The 5-bit format codes and what each names (10_number_formats.md, R183-R193).
-/

namespace Sys2Proof.Machine

/-- A format code of R183. -/
abbrev Fmt := BitVec 5

namespace Fmts
/-- INT8. -/ abbrev int8 : Fmt := 0x00
/-- UINT8. -/ abbrev uint8 : Fmt := 0x01
/-- INT16. -/ abbrev int16 : Fmt := 0x02
/-- UINT16. -/ abbrev uint16 : Fmt := 0x03
/-- INT32. -/ abbrev int32 : Fmt := 0x04
/-- UINT32. -/ abbrev uint32 : Fmt := 0x05
/-- INT64. -/ abbrev int64 : Fmt := 0x06
/-- UINT64. -/ abbrev uint64 : Fmt := 0x07
/-- binary16. -/ abbrev fp16 : Fmt := 0x10
/-- binary32. -/ abbrev fp32 : Fmt := 0x11
/-- binary64. -/ abbrev fp64 : Fmt := 0x12
/-- e8m7. -/ abbrev e8m7 : Fmt := 0x13
/-- e8m10. -/ abbrev e8m10 : Fmt := 0x14
/-- e4m3. -/ abbrev e4m3 : Fmt := 0x15
/-- e2m1. -/ abbrev e2m1 : Fmt := 0x16
/-- dart4. -/ abbrev dart4 : Fmt := 0x17
/-- dart6. -/ abbrev dart6 : Fmt := 0x18
/-- dart8. -/ abbrev dart8 : Fmt := 0x19
/-- SLI16. -/ abbrev sli16 : Fmt := 0x1A
/-- SLI32. -/ abbrev sli32 : Fmt := 0x1B
/-- two e8m7. -/ abbrev e8m7x2 : Fmt := 0x1C
end Fmts

/-- The column "bits" of R183, the width of one code; 0 for the reserved codes 0x1D-0x1F. -/
def fmtBits (f : Fmt) : Nat :=
  match f.toNat with
  | 0x00 => 8 | 0x01 => 8 | 0x02 => 16 | 0x03 => 16 | 0x04 => 32 | 0x05 => 32 | 0x06 => 64 | 0x07 => 64
  | 0x08 => 1 | 0x09 => 2 | 0x0A => 2 | 0x0B => 3 | 0x0C => 4 | 0x0D => 4 | 0x0E => 5 | 0x0F => 6
  | 0x10 => 16 | 0x11 => 32 | 0x12 => 64 | 0x13 => 16 | 0x14 => 19 | 0x15 => 8 | 0x16 => 4
  | 0x17 => 4 | 0x18 => 6 | 0x19 => 8 | 0x1A => 16 | 0x1B => 32 | 0x1C => 32 | _ => 0

/-- The column "EW" of R183 in bits, the only element width at which `SETVL` accepts the code; 0 for the reserved codes. -/
def fmtEW (f : Fmt) : Nat :=
  match f.toNat with
  | 0x00 => 8 | 0x01 => 8 | 0x02 => 16 | 0x03 => 16 | 0x04 => 32 | 0x05 => 32 | 0x06 => 64 | 0x07 => 64
  | 0x08 => 8 | 0x09 => 8 | 0x0A => 8 | 0x0B => 8 | 0x0C => 8 | 0x0D => 8 | 0x0E => 8 | 0x0F => 8
  | 0x10 => 16 | 0x11 => 32 | 0x12 => 64 | 0x13 => 16 | 0x14 => 32 | 0x15 => 8 | 0x16 => 8
  | 0x17 => 8 | 0x18 => 8 | 0x19 => 8 | 0x1A => 16 | 0x1B => 32 | 0x1C => 32 | _ => 0

/-- The column "matrix" of R183. -/
def fmtMatrix (f : Fmt) : Bool :=
  match f.toNat with
  | 0x00 => true | 0x01 => true | 0x02 => true | 0x04 => false
  | 0x08 => true | 0x09 => true | 0x0A => true | 0x0B => true | 0x0C => true | 0x0D => true | 0x0E => true | 0x0F => true
  | 0x10 => true | 0x11 => true | 0x13 => true | 0x14 => true | 0x15 => true | 0x16 => true
  | 0x17 => true | 0x18 => true | 0x19 => true | _ => false

/-- The column "fibre value" of R183. -/
def fmtFibre (f : Fmt) : Bool :=
  f == Fmts.int32 || f == Fmts.fp32 || f == Fmts.sli32 || f == Fmts.e8m7x2

/-- The `int` formats of R185. -/
def fmtSigned (f : Fmt) : Bool :=
  match f.toNat with
  | 0x00 => true | 0x02 => true | 0x04 => true | 0x06 => true | 0x09 => true | 0x0B => true | 0x0C => true
  | 0x0E => true | 0x0F => true | _ => false

/-- The integer formats of R185, codes 0x00-0x0F. -/
def fmtInt (f : Fmt) : Bool := f.toNat < 0x10

/-- The binary floating-point formats of R186, codes 0x10-0x16. -/
def fmtBin (f : Fmt) : Bool := 0x10 ≤ f.toNat && f.toNat ≤ 0x16

/-- The dart formats of R188. -/
def fmtDart (f : Fmt) : Bool := 0x17 ≤ f.toNat && f.toNat ≤ 0x19

/-- The level-index formats of R191. -/
def fmtSli (f : Fmt) : Bool := f == Fmts.sli16 || f == Fmts.sli32

/-- A format that stage 2 does not offer (R439). -/
def unoffered (f : Fmt) : Bool := f == Fmts.fp64 || fmtSli f

/-- The element width in bits that an EW code names (R27). -/
def ewBits (e : BitVec 2) : Nat := 8 <<< e.toNat

/-- `SETVL` accepts a width and a format code only in the combinations of R183 (R27). -/
def pairLegal (e : BitVec 2) (f : Fmt) : Bool := fmtEW f == ewBits e

/-- The block length that a BLK code names, 0 for none (R27). -/
def blkLen (b : BitVec 3) : Nat :=
  match b.toNat with
  | 1 => 8 | 2 => 16 | 3 => 32 | 4 => 64 | _ => 0

/-- Column "Qmax" of R208: the quantisation bound of a code format, `none` where R208 does not list the format. -/
def quantMax (f : Fmt) : Option Nat :=
  match f.toNat with
  | 0x00 => some 127 | 0x01 => some 255 | 0x08 => some 1 | 0x09 => some 1 | 0x0A => some 3 | 0x0B => some 3 | 0x0C => some 7
  | 0x0D => some 15 | 0x0E => some 15 | 0x0F => some 31 | 0x15 => some 240 | 0x16 => some 6
  | 0x17 => some 1 | 0x18 => some 1 | 0x19 => some 1 | _ => none

end Sys2Proof.Machine
end

