-- ==== Sys2Proof/Machine/Flags.lean ====
section
/-!
DEFINITION. Exact values, rounding and the FCSR flags that rounding sets (10_number_formats.md, R184-R198).
Every finite value is an exact fraction; a result is rounded once.
-/

namespace Sys2Proof.Machine

/-- Sticky flags, laid out as FCSR (R34). -/
abbrev Flags := BitVec 14

namespace Flag
/-- Inexact. -/ abbrev nx : Flags := 1 <<< 3
/-- Underflow. -/ abbrev uf : Flags := 1 <<< 4
/-- Overflow. -/ abbrev of' : Flags := 1 <<< 5
/-- Division by zero. -/ abbrev dz : Flags := 1 <<< 6
/-- Invalid operation. -/ abbrev nv : Flags := 1 <<< 7
/-- SLI level above the larger operand level. -/ abbrev lxup : Flags := 1 <<< 8
/-- SLI level below the smaller operand level. -/ abbrev lxdn : Flags := 1 <<< 9
/-- SLI result clamped. -/ abbrev lxceil : Flags := 1 <<< 10
/-- A fibre not strictly ascending. -/ abbrev fsort : Flags := 1 <<< 11
/-- A fibre at capacity. -/ abbrev fovf : Flags := 1 <<< 12
/-- Signed overflow of an INT32 accumulator. -/ abbrev iovf : Flags := 1 <<< 13
end Flag

/-- Rounding modes (R194): 0 RNE, 1 RTZ, 2 RDN, 3 RUP, 4 RMM. -/
abbrev Mode := BitVec 3

/-- An exact value: a NaN, signalling or not; an infinity; or ± num / den with den > 0. -/
inductive Val where
  | nan (sig : Bool)
  | inf (neg : Bool)
  | fin (neg : Bool) (num den : Nat)
deriving DecidableEq, Repr

/-- The value zero of a sign. -/
abbrev Val.zero (neg : Bool) : Val := .fin neg 0 1

/-- Round num / den to an integer: the integer and whether it is inexact (R194). -/
def roundNat (mode : Mode) (neg : Bool) (num den : Nat) : Nat × Bool :=
  let q := num / den
  let r := num % den
  if r = 0 then (q, false)
  else
    let up := match mode.toNat with
      | 0 => decide (den < 2 * r) || (decide (2 * r = den) && decide (q % 2 = 1))
      | 1 => false
      | 2 => neg
      | 3 => !neg
      | _ => decide (den ≤ 2 * r)
    (if up then q + 1 else q, true)

/-- A binary layout of R186: exponent bits, fraction bits, bias; whether the top exponent is an ordinary one (e2m1);
whether its only infinity has a zero fraction and every NaN is quiet (e4m3). -/
structure Bin where
  e : Nat
  p : Nat
  bias : Nat
  full : Bool
  quiet : Bool
deriving DecidableEq, Repr

/-- The layout of a binary format's code (R186). -/
def binOf (f : Fmt) : Bin :=
  match f.toNat with
  | 0x10 => ⟨5, 10, 15, false, false⟩
  | 0x11 => ⟨8, 23, 127, false, false⟩
  | 0x12 => ⟨11, 52, 1023, false, false⟩
  | 0x13 => ⟨8, 7, 127, false, false⟩
  | 0x14 => ⟨8, 10, 127, false, false⟩
  | 0x15 => ⟨4, 3, 7, false, true⟩
  | _ => ⟨2, 1, 1, true, false⟩

/-- binary32. -/
abbrev bin32 : Bin := binOf Fmts.fp32
/-- binary16. -/
abbrev bin16 : Bin := binOf Fmts.fp16

/-- The sign bit's place. -/
def Bin.sbit (b : Bin) : Nat := b.e + b.p
/-- The largest exponent field of a finite value. -/
def Bin.emax (b : Bin) : Nat := if b.full then 2 ^ b.e - 1 else 2 ^ b.e - 2
/-- Code of +infinity. -/
def Bin.infCode (b : Bin) : Nat := (2 ^ b.e - 1) * 2 ^ b.p
/-- Code of the largest finite value. -/
def Bin.maxCode (b : Bin) : Nat := b.emax * 2 ^ b.p + (2 ^ b.p - 1)
/-- Canonical NaN: the top fraction bit set (R186). -/
def Bin.nanCode (b : Bin) : Nat := b.infCode + 2 ^ (b.p - 1)
/-- The code with a sign. -/
def Bin.signed (b : Bin) (neg : Bool) (c : Nat) : Nat := if neg then 2 ^ b.sbit + c else c

/-- m × 2^x as a fraction. -/
def scaled (m : Nat) (x : Int) : Nat × Nat := match x with
  | .ofNat n => (m * 2 ^ n, 1)
  | .negSucc n => (m, 2 ^ (n + 1))

/-- The value of a binary code (R186). -/
def binVal (b : Bin) (c : Nat) : Val :=
  let neg := c / 2 ^ b.sbit % 2 == 1
  let ex := c / 2 ^ b.p % 2 ^ b.e
  let m := c % 2 ^ b.p
  if ex = 2 ^ b.e - 1 ∧ !b.full then
    if m = 0 then .inf neg else .nan (!b.quiet && decide (m < 2 ^ (b.p - 1)))
  else
    let (n, d) := if ex = 0 then scaled m (1 - (b.bias : Int) - b.p) else scaled (2 ^ b.p + m) ((ex : Int) - b.bias - b.p)
    .fin neg n d

/-- floor(log2(num / den)) for num > 0. -/
def log2Frac (num den : Nat) : Int :=
  let x : Int := (Nat.log2 num : Int) - Nat.log2 den
  let (a, b) := match x with
    | .ofNat n => (num, den * 2 ^ n)
    | .negSucc n => (num * 2 ^ (n + 1), den)
  if a < b then x - 1 else x

/-- What an overflowing result becomes (R195). -/
def overflowCode (b : Bin) (mode : Mode) (neg : Bool) : Nat :=
  if b.full then b.signed neg b.maxCode
  else
    match mode.toNat with
    | 1 => b.signed neg b.maxCode
    | 2 => if neg then b.signed true b.infCode else b.maxCode
    | 3 => if neg then b.signed true b.maxCode else b.infCode
    | _ => b.signed neg b.infCode

/-- The least exponent of a normal value. -/
def Bin.emin (b : Bin) : Int := 1 - (b.bias : Int)

/-- The value num / den in units of 2^q. -/
def inUnits (num den : Nat) (q : Int) : Nat × Nat := match q with
  | .ofNat k => (num, den * 2 ^ k)
  | .negSucc k => (num * 2 ^ (k + 1), den)

/-- The nonzero result ± num / den is tiny after rounding (R76, R198): rounded to the format's precision as if the exponent were unbounded, it lies
below the least normal value (log 33). -/
def Bin.tiny (b : Bin) (mode : Mode) (neg : Bool) (num den : Nat) : Bool :=
  let e := log2Frac num den
  let (n, d) := inUnits num den (e - b.p)
  decide (e < b.emin) && (decide (e + 1 < b.emin) || decide ((roundNat mode neg n d).1 < 2 ^ (b.p + 1)))

/-- Round ± num / den to a binary format (R194, R195, R198): the code and the flags. -/
def binRound (b : Bin) (mode : Mode) (neg : Bool) (num den : Nat) : Nat × Flags :=
  if num = 0 then (b.signed neg 0, 0)
  else
    let x := max (log2Frac num den) b.emin
    let (n, d) := inUnits num den (x - b.p)
    let (m, inex) := roundNat mode neg n d
    let (m, x) := if 2 ^ (b.p + 1) ≤ m then (2 ^ b.p, x + 1) else (m, x)
    let ef := (x + b.bias).toNat
    if b.emax < ef then (overflowCode b mode neg, Flag.of' ||| Flag.nx)
    else
      let c := if m < 2 ^ b.p then m else ef * 2 ^ b.p + (m - 2 ^ b.p)
      (b.signed neg c, (if inex then Flag.nx else 0) ||| (if inex && b.tiny mode neg num den then Flag.uf else 0))

/-- Round an exact value to a binary format: NaN and infinities by R197, `.sat` by R196. -/
def binConvert (b : Bin) (mode : Mode) (sat : Bool) (v : Val) : Nat × Flags :=
  match v with
  | .nan sig => if b.full then (0, Flag.nv) else (b.nanCode, if sig then Flag.nv else 0)
  | .inf neg =>
    if b.full then (b.signed neg b.maxCode, if sat then 0 else Flag.of' ||| Flag.nx)
    else if sat then (b.signed neg b.maxCode, 0) else (b.signed neg b.infCode, 0)
  | .fin neg n d =>
    let (c, f) := binRound b mode neg n d
    if sat ∧ c = b.signed neg b.infCode ∧ !b.full then (b.signed neg b.maxCode, f) else (c, f)

/-! ## Dart -/

/-- Bits of a dart body. -/
def dartBody (f : Fmt) : Nat := fmtBits f - 1

/-- For marker position `m` of a body of `w` bits: exponents taken by the positions above it (R188). -/
def dartTaken (w m : Nat) : Nat → Nat
  | 0 => 0
  | n + 1 =>
    let pos := m + 1 + n
    (if pos < w then 2 ^ (min (w - pos) pos - 1) else 0) + dartTaken w m n

/-- The magnitude of a nonzero dart body of `w` bits (R188). -/
def dartMag (w body : Nat) : Nat × Nat :=
  let m := Nat.log2 body
  let ex := min (w - m) m
  let fr := m - ex
  let t := body / 2 ^ fr % 2 ^ ex
  let f := body % 2 ^ fr
  let taken := dartTaken w m w
  let h := 2 ^ (ex - 1)
  let sig := 2 ^ fr + 9 * f
  if ex = 0 then (sig, 2 ^ fr * 10 ^ (taken + 1))
  else if t < h then (sig, 2 ^ fr * 10 ^ (taken + h - t))
  else (sig * 10 ^ (taken + (t - h)), 2 ^ fr)

/-- The value of a dart code (R188); NaR is a quiet NaN here. -/
def dartVal (f : Fmt) (c : Nat) : Val :=
  let w := dartBody f
  let body := c % 2 ^ w
  let neg := c / 2 ^ w % 2 == 1
  if body = 0 then (if neg then .nan false else .zero false)
  else let (n, d) := dartMag w body; .fin neg n d

/-- a / b < c / d. -/
def ltFrac (a b : Nat × Nat) : Bool := a.1 * b.2 < b.1 * a.2

/-- The best body among 1 .. n by `better`, starting from `b`. -/
def dartBest (w : Nat) (ok : Nat × Nat → Bool) (better : Nat × Nat → Nat × Nat → Bool) : Nat → Nat
  | 0 => 0
  | n + 1 =>
    let b := dartBest w ok better n
    let c := n + 1
    if ok (dartMag w c) && (b = 0 || better (dartMag w c) (dartMag w b)) then c else b

/-- `dart_round` of R189 for a nonzero finite magnitude or an infinity. -/
def dartRound (f : Fmt) (mode : Mode) (neg : Bool) (mag : Option (Nat × Nat)) : Nat × Flags :=
  let w := dartBody f
  let all := 2 ^ w - 1
  let sg (c : Nat) : Nat := if neg then 2 ^ w + c else c
  let top := dartBest w (fun _ => true) (fun a b => ltFrac b a) all
  match mag with
  | none => (sg top, Flag.of' ||| Flag.nx)
  | some a =>
    let bot := dartBest w (fun _ => true) ltFrac all
    if ltFrac (dartMag w top) a then (sg top, Flag.of' ||| Flag.nx)
    else if ltFrac a (dartMag w bot) then (sg bot, Flag.uf ||| Flag.nx)
    else
      let lo := dartBest w (fun m => !ltFrac a m) (fun x y => ltFrac y x) all
      let ml := dartMag w lo
      if !ltFrac ml a then (sg lo, 0)
      else
        let hi := dartBest w (fun m => ltFrac a m) ltFrac all
        let mh := dartMag w hi
        -- a - lo against hi - a, cross-multiplied
        let l := (a.1 * ml.2 - ml.1 * a.2) * mh.2
        let u := (mh.1 * a.2 - a.1 * mh.2) * ml.2
        let c := match mode.toNat with
          | 0 => if l < u then lo else if u < l then hi else if lo % 2 = 0 then lo else hi
          | 1 => lo
          | 2 => if neg then hi else lo
          | 3 => if neg then lo else hi
          | _ => if l < u then lo else hi
        (sg c, Flag.nx)

/-- Convert an exact value to dart (R189, R197); with `.sat` an infinite operand sets no flag (R196). -/
def dartConvert (f : Fmt) (mode : Mode) (sat : Bool) (v : Val) : Nat × Flags :=
  match v with
  | .nan sig => (2 ^ dartBody f, if sig then Flag.nv else 0)
  | .inf neg => let r := dartRound f mode neg none; (r.1, if sat then 0 else r.2)
  | .fin neg n d => if n = 0 then (0, 0) else dartRound f mode neg (some (n, d))

/-! ## Integers -/

/-- The value of an integer code of `b` bits (R185). -/
def intVal (signed : Bool) (b c : Nat) : Val :=
  let c := c % 2 ^ b
  if signed ∧ 2 ^ (b - 1) ≤ c then .fin true (2 ^ b - c) 1 else .fin false c 1

/-- Convert an exact value to an integer of `b` bits (R79, R206): rounded by the mode; a NaN gives 0 with NV;
beyond the range the nearest end with NV; inexact in range NX. -/
def intConvert (signed : Bool) (b : Nat) (mode : Mode) (v : Val) : Nat × Flags :=
  let lo := if signed then 2 ^ (b - 1) else 0
  let hi := if signed then 2 ^ (b - 1) - 1 else 2 ^ b - 1
  match v with
  | .nan _ => (0, Flag.nv)
  | .inf neg => ((if neg then (2 ^ b - lo) % 2 ^ b else hi), Flag.nv)
  | .fin neg n d =>
    let (m, inex) := roundNat mode neg n d
    if neg then
      if lo < m then ((2 ^ b - lo) % 2 ^ b, Flag.nv) else ((2 ^ b - m) % 2 ^ b, if inex then Flag.nx else 0)
    else if hi < m then (hi, Flag.nv) else (m, if inex then Flag.nx else 0)

/-! ## Any format but SLI -/

/-- The value of a code (R184-R190): of e8m7x2 the low half. -/
def codeVal (f : Fmt) (c : Nat) : Val :=
  if fmtInt f then intVal (fmtSigned f) (fmtBits f) c
  else if fmtBin f then binVal (binOf f) (c % 2 ^ fmtBits f)
  else if fmtDart f then dartVal f (c % 2 ^ fmtBits f)
  else binVal (binOf Fmts.e8m7) (c % 65536)

/-- Round an exact value into a format that is not SLI (R189, R194-R197, R206): the code and the flags. -/
def codeOf (f : Fmt) (mode : Mode) (sat : Bool) (v : Val) : Nat × Flags :=
  if fmtInt f then intConvert (fmtSigned f) (fmtBits f) mode v
  else if fmtDart f then dartConvert f mode sat v
  else binConvert (binOf f) mode sat v

/-- The code that lies in an element or container: e8m10 lies in bits [31:13] (R184, R187). -/
def elemCode (f : Fmt) (x : Word) : Nat :=
  if f = Fmts.e8m10 then (x.toNat / 2 ^ 13) % 2 ^ 19 else x.toNat % 2 ^ fmtBits f

/-- The element or container that holds a code. -/
def codeElem (f : Fmt) (c : Nat) : Word :=
  if f = Fmts.e8m10 then BitVec.ofNat 64 (c * 2 ^ 13) else BitVec.ofNat 64 c

/-! ## Exact arithmetic on values -/

/-- Whether an operand is a signalling NaN, which sets NV (R198). -/
def Val.sig : Val → Bool
  | .nan s => s
  | _ => false

/-- Whether the value is a NaN. -/
def Val.isNan : Val → Bool
  | .nan _ => true
  | _ => false

/-- The sign of a value that is not a NaN. -/
def Val.neg : Val → Bool
  | .nan _ => false
  | .inf n => n
  | .fin n _ _ => n

/-- Minus a value. -/
def Val.negate : Val → Val
  | .nan s => .nan s
  | .inf n => .inf (!n)
  | .fin n a b => .fin (!n) a b

/-- NV for any signalling operand. -/
def nvIf (b : Bool) : Flags := if b then Flag.nv else 0

/-- The exact sum, and NV for ∞ − ∞ or a signalling operand. An exact sum of zero is +0, and −0 when rounding down; (−0) + (−0) is −0 in every mode (R78). -/
def Val.add (mode : Mode) (a b : Val) : Val × Flags :=
  match a, b with
  | .nan s, _ => (.nan false, nvIf (s || b.sig))
  | .inf _, .nan s => (.nan false, nvIf s)
  | .fin _ _ _, .nan s => (.nan false, nvIf s)
  | .inf n, .inf m => if n = m then (.inf n, 0) else (.nan false, Flag.nv)
  | .inf n, .fin _ _ _ => (.inf n, 0)
  | .fin _ _ _, .inf m => (.inf m, 0)
  | .fin n p q, .fin m r t =>
    let x := p * t
    let y := r * q
    if n = m then (.fin (n || (x + y == 0 && mode == 2)) (x + y) (q * t), 0)
    else if x = y then (.fin (mode == 2) 0 1, 0)
    else if x < y then (.fin m (y - x) (q * t), 0)
    else (.fin n (x - y) (q * t), 0)

/-- The exact product, and NV for 0 × ∞ or a signalling operand. -/
def Val.mul (a b : Val) : Val × Flags :=
  match a, b with
  | .nan s, _ => (.nan false, nvIf (s || b.sig))
  | .inf _, .nan s => (.nan false, nvIf s)
  | .fin _ _ _, .nan s => (.nan false, nvIf s)
  | .inf n, .inf m => (.inf (n != m), 0)
  | .inf n, .fin m p _ => if p = 0 then (.nan false, Flag.nv) else (.inf (n != m), 0)
  | .fin n p _, .inf m => if p = 0 then (.nan false, Flag.nv) else (.inf (n != m), 0)
  | .fin n p q, .fin m r t => (.fin (n != m) (p * r) (q * t), 0)

/-- The exact quotient: NV for 0/0 and ∞/∞, DZ for a finite nonzero value by zero (R198). -/
def Val.div (a b : Val) : Val × Flags :=
  match a, b with
  | .nan s, _ => (.nan false, nvIf (s || b.sig))
  | .inf _, .nan s => (.nan false, nvIf s)
  | .fin _ _ _, .nan s => (.nan false, nvIf s)
  | .inf _, .inf _ => (.nan false, Flag.nv)
  | .inf n, .fin m _ _ => (.inf (n != m), 0)
  | .fin n _ _, .inf m => (.zero (n != m), 0)
  | .fin n p q, .fin m r t =>
    if r = 0 then (if p = 0 then (.nan false, Flag.nv) else (.inf (n != m), Flag.dz))
    else (.fin (n != m) (p * t) (q * r), 0)

/-- floor(√n) for n < 4^k, by binary digits. -/
def isqrt (n : Nat) : Nat → Nat
  | 0 => 0
  | k + 1 =>
    let r := isqrt (n / 4) k
    if (2 * r + 1) * (2 * r + 1) ≤ n then 2 * r + 1 else 2 * r

/-- The square root of a positive fraction to more than `p` + 2 bits: exact when it is exact, else a point strictly between
the same two numbers of that precision as the root (so that it rounds as the root rounds). -/
def sqrtFrac (num den p : Nat) : Nat × Nat :=
  -- √(num/den) = √(num·den)/den; scale num·den by 4^k so that its root has more than p + 3 bits
  let k := p + 4 + Nat.log2 den
  let n := num * den * 4 ^ k
  let r := isqrt n (Nat.log2 n / 2 + 1)
  if r * r = n then (r, den * 2 ^ k) else (2 * r + 1, den * 2 ^ (k + 1))

/-- The square root for a format of `p` fraction bits (R104): NV for a negative operand. -/
def Val.sqrt (p : Nat) (a : Val) : Val × Flags :=
  match a with
  | .nan s => (.nan false, nvIf s)
  | .inf n => if n then (.nan false, Flag.nv) else (.inf false, 0)
  | .fin n x y =>
    if x = 0 then (.zero n, 0)
    else if n then (.nan false, Flag.nv)
    else let (u, v) := sqrtFrac x y p; (.fin false u v, 0)

/-- a < b on values that are not NaNs. -/
def Val.lt (a b : Val) : Bool :=
  match a, b with
  | .nan _, _ => false
  | _, .nan _ => false
  | .inf n, .inf m => n && !m
  | .inf n, .fin _ _ _ => n
  | .fin _ _ _, .inf m => !m
  | .fin n p q, .fin m r t =>
    let x := p * t
    let y := r * q
    if p = 0 ∧ r = 0 then false
    else if n then (if m then decide (y < x) else decide (p ≠ 0 ∨ r ≠ 0))
    else if m then false else decide (x < y)

/-- a = b on values that are not NaNs; the zeros are equal. -/
def Val.eq (a b : Val) : Bool := !a.isNan && !b.isNan && !a.lt b && !b.lt a

end Sys2Proof.Machine
end

