-- ==== Sys2Proof/Machine/Numerics.lean ====
section
/-!
DEFINITION. Bounds of e^x and ln x in fixed point, and results that are rounded once from such bounds
(11_conversion_sli_instructions.md R213, R216, R218-R220). A number at scale `p` stands for itself divided by 2^p.
`up` asks for an upper bound, else a lower one. Where 1024 bits do not decide a rounding, Config decides (log 10).
-/

namespace Sys2Proof.Machine

/-- n / d rounded down or up. -/
def divTo (up : Bool) (n d : Nat) : Nat := if up then (n + d - 1) / d else n / d

/-- A product at scale `p`. -/
def mulTo (up : Bool) (p a b : Nat) : Nat := divTo up (a * b) (2 ^ p)

/-- x × 2^k at the same scale. -/
def shiftTo (up : Bool) (x : Nat) (k : Int) : Nat :=
  match k with
  | .ofNat n => x * 2 ^ n
  | .negSucc n => if Nat.log2 x < n then (if up then 1 else 0) else divTo up x (2 ^ (n + 1))

/-- Σ z2^i / (2(j + i) + 1), `n` terms and a bound of the rest, for z2 ≤ 1/9. -/
def atanhSum (up : Bool) (p z2 : Nat) : Nat → Nat → Nat
  | 0, _ => if up then 2 * 2 ^ p else 0
  | n + 1, j => divTo up (2 ^ p) (2 * j + 1) + mulTo up p z2 (atanhSum up p z2 n (j + 1))

/-- 2 artanh z for 0 ≤ z ≤ 1/3. -/
def atanh2 (up : Bool) (p z : Nat) : Nat := 2 * mulTo up p z (atanhSum up p (mulTo up p z z) (p / 3 + 4) 0)

/-- ln 2. -/
def ln2 (up : Bool) (p : Nat) : Nat := atanh2 up p (divTo up (2 ^ p) 3)

/-- ln m for 1 ≤ m ≤ 2. -/
def lnMant (up : Bool) (p m : Nat) : Nat := atanh2 up p (divTo up ((m - 2 ^ p) * 2 ^ p) (m + 2 ^ p))

/-- ln (n / d) for n, d > 0. -/
def lnFrac (up : Bool) (p n d : Nat) : Int :=
  let k := log2Frac n d
  let (a, b) := match k with
    | .ofNat i => (n, d * 2 ^ i)
    | .negSucc i => (n * 2 ^ (i + 1), d)
  k * ln2 (if k < 0 then !up else up) p + lnMant up p (divTo up (a * 2 ^ p) b)

/-- 1 + r/j (1 + r/(j+1) (…)), `n` terms and a bound of the rest, for 0 ≤ r ≤ 3/2. -/
def expSum (up : Bool) (p r : Nat) : Nat → Nat → Nat
  | 0, _ => if up then 2 * 2 ^ p else 2 ^ p
  | n + 1, j => 2 ^ p + divTo up (mulTo up p r (expSum up p r n (j + 1))) j

/-- e^x = m × 2^k for a number at scale `p`: m at scale `p`, and k. -/
def expParts (up : Bool) (p : Nat) (x : Int) : Nat × Int :=
  let k := x / (ln2 false p : Int) - 1
  let r := x - k * ln2 (if 0 ≤ k then !up else up) p
  (expSum up p r.toNat (p / 3 + 16) 1, k)

/-- e^x at scale `p`. -/
def expTo (up : Bool) (p : Nat) (x : Int) : Nat := let (m, k) := expParts up p x; shiftTo up m k

/-- e^x as a fraction. -/
def expFrac (up : Bool) (p : Nat) (x : Int) : Nat × Nat :=
  let (m, k) := expParts up p x
  match k with
  | .ofNat n => (m * 2 ^ n, 2 ^ p)
  | .negSucc n => (m, 2 ^ (p + n + 1))

/-- The precisions tried in turn. -/
def precisions : List Nat := [128, 256, 512, 1024]

/-- Two roundings agree: one code, and the same flags but those that an exact bound lacks. -/
def agree (x y : Nat × Flags) : Bool := x.1 == y.1 && (x.2 ^^^ y.2) &&& ~~~(Flag.nx ||| Flag.uf) == 0

/-- Round a real that lies strictly between two bounds, by `r`, once the roundings of the bounds agree: the code, and the flags of either bound
(the real itself is inexact, so at least one bound shows that). -/
def roundBetween (bounds : Nat → (Nat × Nat) × (Nat × Nat)) (r : Nat × Nat → Nat × Flags) : List Nat → Nat × Flags
  | [] =>
    let (l, h) := bounds 1024
    let (x, y) := (r l, r h)
    ((if Config.undecidedAbove 1024 l.1 h.1 then y.1 else x.1), x.2 ||| y.2)
  | p :: t =>
    let (l, h) := bounds p
    let (x, y) := (r l, r h)
    if agree x y then (x.1, x.2 ||| y.2) else roundBetween bounds r t

/-! ## Level-index numbers (10_number_formats.md R191, R192) -/

/-- An SLI operand: a NaN, a zero, or ± a magnitude by z = (u - 1) × 2^F, an integer between -7 × 2^F and 7 × 2^F.
The natural logarithm of the magnitude is sgn z × φ(|z| / 2^F). -/
inductive Sli where
  | nan
  | zero (neg : Bool)
  | num (neg : Bool) (z : Int)
deriving DecidableEq, Repr

/-- Fraction bits F of an SLI format. -/
def sliF (f : Fmt) : Nat := if f = Fmts.sli16 then 11 else 27

/-- Read a code (R191). -/
def sliVal (f : Nat) (c : Nat) : Sli :=
  let neg := c / 2 ^ (f + 4) % 2 == 1
  let r := c / 2 ^ (f + 3) % 2
  let v := c % 2 ^ (f + 3)
  if v < 2 ^ f then (if r = 0 ∧ v = 0 then .zero neg else .nan)
  else .num neg (if r = 0 then (v : Int) - 2 ^ f else 2 ^ f - (v : Int))

/-- The largest |z|. -/
def sliTop (f : Nat) : Nat := 7 * 2 ^ f - 1

/-- Write a code (R191): the value 1 has r = 0; the canonical NaN has ℓ = 0, r = 0 and the top bit of f. -/
def sliCode (f : Nat) : Sli → Nat
  | .nan => 2 ^ (f - 1)
  | .zero neg => if neg then 2 ^ (f + 4) else 0
  | .num neg z =>
    (if neg then 2 ^ (f + 4) else 0) +
      (match z with
       | .ofNat n => 2 ^ f + n
       | .negSucc n => 2 ^ (f + 3) + 2 ^ f + (n + 1))

/-- Round n / d (d > 0) to an integer z by a mode, for a magnitude with a sign (R192); `exact` ties go to the even z. -/
def roundZ (mode : Mode) (neg : Bool) (n : Int) (d : Nat) : Int :=
  let q := n / (d : Int)
  let r := n % (d : Int)
  if r = 0 then q
  else
    match mode.toNat with
    | 0 => if 2 * r < d then q else if (d : Int) < 2 * r then q + 1 else if q % 2 = 0 then q else q + 1
    | 1 => q
    | 2 => if neg then q + 1 else q
    | 3 => if neg then q else q + 1
    | _ => if 2 * r < d then q else q + 1

/-- A rounded z as a code's z, and whether it was clamped (R192; under RTZ no inexact value inside the range is clamped, log 22). -/
def clampZ (f : Nat) (mode : Mode) (inside : Bool) (z : Int) : Int × Bool :=
  if (sliTop f : Int) < z then (sliTop f, true)
  else if z < -(sliTop f : Int) then (-(sliTop f : Int), !(inside && mode == 1))
  else (z, false)

/-- φ(w / 2^F) at scale `p`, none at or above e^45. -/
def phiTo (up : Bool) (p f : Nat) : Nat → Nat → Option Nat
  | 0, w => some (divTo up (w * 2 ^ p) (2 ^ f))
  | l + 1, w =>
    if w < 2 ^ f then some (divTo up (w * 2 ^ p) (2 ^ f))
    else
      match phiTo up p f l (w - 2 ^ f) with
      | none => none
      | some t => if 45 * 2 ^ p ≤ t then none else some (expTo up p t)

/-- φ of a grid index. -/
def phi (up : Bool) (p f w : Nat) : Option Nat := phiTo up p f 8 w

/-- ψ(s), the index of a number s ≥ 0 at scale `p`: s below 1, else 1 + ψ(ln s). -/
def psiTo (up : Bool) (p : Nat) : Nat → Nat → Nat
  | 0, s => s
  | l + 1, s => if s < 2 ^ p then s else 2 ^ p + psiTo up p l (lnFrac up p s (2 ^ p)).toNat

/-- sgn s × ψ(|s|) for a signed number at scale `p`. -/
def signedPsi (up : Bool) (p : Nat) (s : Int) : Int :=
  if 0 ≤ s then psiTo up p 8 s.toNat else -(psiTo (!up) p 8 (-s).toNat : Int)

/-- ln |x| = sgn z × φ(|z| / 2^F) at scale `p`; none where its size is at least e^45. -/
def lnSli (up : Bool) (p f : Nat) (z : Int) : Option Int :=
  if 0 ≤ z then (phi up p f z.toNat).map fun v => (v : Int) else (phi (!up) p f (-z).toNat).map fun v => -(v : Int)

/-- Bounds of a real index at scale `p`, rounded to z with its clamp once they agree (R192). -/
def roundIndex (f : Nat) (mode : Mode) (neg : Bool) (bounds : Nat → Int × Int) : List Nat → Int × Bool
  | [] =>
    let (l, h) := bounds 1024
    let r (x : Int) : Int × Bool := clampZ f mode (decide (-(7 * 2 ^ 1024 : Int) < h)) (roundZ mode neg (x * 2 ^ f) (2 ^ 1024))
    if Config.undecidedAbove 1024 l h then r h else r l
  | p :: t =>
    let (l, h) := bounds p
    let r (x : Int) : Int × Bool := clampZ f mode (decide (-(7 * 2 ^ p : Int) < h)) (roundZ mode neg (x * 2 ^ f) (2 ^ p))
    if r l = r h then r l else roundIndex f mode neg bounds t

/-- An SLI result and its flags (R192, R215): NX where inexact, LXCEIL for a clamp, and the level flags against the levels `lo` and `hi` of the operands. -/
def sliResult (f : Nat) (neg : Bool) (z : Int) (clamp inexact : Bool) (levels : Option (Int × Int)) : Sli × Flags :=
  let lv := (z + 2 ^ f) / 2 ^ f
  let g := match levels with
    | none => 0
    | some (a, b) => if clamp then 0 else if max a b < lv then Flag.lxup else if lv < min a b then Flag.lxdn else 0
  (.num neg z, g ||| (if clamp then Flag.lxceil else 0) ||| (if clamp || inexact then Flag.nx else 0))

/-- λ of a nonzero operand (R215). -/
def sliLevel (f : Nat) (z : Int) : Int := (z + 2 ^ f) / 2 ^ f

/-- Bounds of the index of exp(M) (1 ± exp(-D)), M ≥ m the logarithms of two magnitudes and D = M - m (R192, R216). None where M is beyond e^45. -/
def addBounds (f : Nat) (minus : Bool) (zM zm : Int) (p : Nat) : Option (Int × Int) :=
  match lnSli false p f zM, lnSli true p f zM with
  | some ml, some mh =>
    let e (up : Bool) : Nat :=
      match lnSli (!up) p f zM, lnSli up p f zm with
      | some a, some b => if b < a then expTo up p (b - a) else 2 ^ p
      | _, _ => if up then 1 else 0
    let part (up : Bool) : Int := lnFrac up p (if minus then 2 ^ p - e (!up) else 2 ^ p + e up) (2 ^ p)
    some (signedPsi false p (ml + part false), signedPsi true p (mh + part true))
  | _, _ => none

/-- The sum of two SLI values, rounded with RNE (R216, R217). -/
def sliAdd (f : Nat) (a b : Sli) : Sli × Flags :=
  match a, b with
  | .nan, _ => (.nan, 0)
  | _, .nan => (.nan, 0)
  | .zero m, .zero n => (.zero (m && n), 0)
  | .zero _, y => (y, 0)
  | x, .zero _ => (x, 0)
  | .num m y, .num n z =>
    if m ≠ n ∧ y = z then (.zero false, 0)
    else
      let neg := if z ≤ y then m else n
      let zM := max y z
      let zm := min y z
      let lv := some (sliLevel f y, sliLevel f z)
      match addBounds f (m != n) zM zm 128 with
      | none => sliResult f neg zM false true lv
      | some _ =>
        let (r, c) := roundIndex f 0 neg (fun p => (addBounds f (m != n) zM zm p).getD (0, 0)) precisions
        sliResult f neg r c true lv

/-- Minus an SLI value. -/
def Sli.negate : Sli → Sli
  | .nan => .nan
  | .zero n => .zero (!n)
  | .num n z => .num (!n) z

/-- Bounds of the index of exp(A + B) for the logarithms A, B of two magnitudes, both below e^45. -/
def mulBounds (f : Nat) (y z : Int) (p : Nat) : Option (Int × Int) :=
  match lnSli false p f y, lnSli true p f y, lnSli false p f z, lnSli true p f z with
  | some yl, some yh, some zl, some zh => some (signedPsi false p (yl + zl), signedPsi true p (yh + zh))
  | _, _, _, _ => none

/-- Logarithm of φ(w / 2^F) > 0 at scale `p`. -/
def lnPhi (up : Bool) (p f w : Nat) : Option Int :=
  if w < 2 ^ f then some (lnFrac up p w (2 ^ f)) else (phi up p f (w - 2 ^ f)).map fun v => (v : Int)

/-- Bounds of ψ(a ± b) for a = φ(w / 2^F) beyond e^45 and b = φ(v / 2^F) ≤ a: 1 + ψ(ln a + ln(1 ± b / a)). None where ln a is beyond e^45 too. -/
def hugeBounds (f : Nat) (minus : Bool) (w v : Nat) (p : Nat) : Option (Int × Int) :=
  match lnPhi false p f w, lnPhi true p f w with
  | some al, some ah =>
    let e (up : Bool) : Nat :=
      match lnPhi (!up) p f w, lnPhi up p f v with
      | some a, some b => if b < a then expTo up p (b - a) else 2 ^ p
      | _, _ => if up then 1 else 0
    let part (up : Bool) : Int := lnFrac up p (if minus then 2 ^ p - e (!up) else 2 ^ p + e up) (2 ^ p)
    some ((2 ^ p + psiTo false p 8 (al + part false).toNat : Nat), (2 ^ p + psiTo true p 8 (ah + part true).toNat : Nat))
  | _, _ => none

/-- z of a product from the z of its factors, rounded with RNE: z, clamp and inexact (R216). It is exact where a factor is 1, and where both
logarithms are rational and their sum is at most 1 in size. -/
def mulIndex (f : Nat) (y z : Int) : Int × Bool × Bool :=
  let one : Int := 2 ^ f
  if y = 0 then (z, false, false)
  else if z = 0 then (y, false, false)
  else if y + z = 0 then (0, false, false)
  else if y.natAbs ≤ one.natAbs ∧ z.natAbs ≤ one.natAbs ∧ (y + z).natAbs ≤ one.natAbs then (y + z, false, false)
  else
    match mulBounds f y z 128 with
    | some _ =>
      let (r, c) := roundIndex f 0 false (fun p => (mulBounds f y z p).getD (0, 0)) precisions
      (r, c, true)
    | none =>
      let (a, b) := if z.natAbs ≤ y.natAbs then (y, z) else (z, y)
      let minus := decide ((0 ≤ a) ≠ (0 ≤ b))
      match hugeBounds f minus a.natAbs b.natAbs 128 with
      | none => (a, false, true)
      | some _ =>
        let g (p : Nat) : Int × Int := (hugeBounds f minus a.natAbs b.natAbs p).getD (0, 0)
        let (r, c) := roundIndex f 0 false (fun p => if 0 ≤ a then g p else (-(g p).2, -(g p).1)) precisions
        (r, c, true)

/-- The product of two SLI values (R216, R217). -/
def sliMul (f : Nat) (a b : Sli) : Sli × Flags :=
  match a, b with
  | .nan, _ => (.nan, 0)
  | _, .nan => (.nan, 0)
  | .zero m, .zero n => (.zero (m != n), 0)
  | .zero m, .num n _ => (.zero (m != n), 0)
  | .num m _, .zero n => (.zero (m != n), 0)
  | .num m y, .num n z =>
    let (r, c, i) := mulIndex f y z
    sliResult f (m != n) r c i (some (sliLevel f y, sliLevel f z))

/-- The quotient of two SLI values (R216, R217): 1 / x has the index of x reflected. -/
def sliDiv (f : Nat) (a b : Sli) : Sli × Flags :=
  match a, b with
  | .nan, _ => (.nan, 0)
  | _, .nan => (.nan, 0)
  | .zero _, .zero _ => (.nan, Flag.nv)
  | .zero m, .num n _ => (.zero (m != n), 0)
  | .num m _, .zero n => (.num (m != n) (sliTop f), Flag.dz)
  | .num m y, .num n z =>
    let (r, c, i) := mulIndex f y (-z)
    sliResult f (m != n) r c i (some (sliLevel f y, sliLevel f z))

/-- The real value of a is below that of b, −0 below +0 (R133, R221). -/
def sliBelow (a b : Sli) : Bool :=
  match a, b with
  | .nan, _ => false
  | _, .nan => false
  | .zero m, .zero n => m && !n
  | .zero _, .num n _ => !n
  | .num m _, .zero _ => m
  | .num m y, .num n z => if m then (if n then decide (z < y) else true) else if n then false else decide (y < z)

/-- The smaller or larger operand; one NaN gives the other, two the canonical NaN (R78, R133). The value 1 is written with r = 0 (R191). -/
def sliPick (f : Nat) (larger : Bool) (x y : Nat) : Nat :=
  let a := sliVal f x
  let b := sliVal f y
  sliCode f (if a = .nan then b else if b = .nan then a else if sliBelow a b != larger then a else b)

/-- e^x (R218). -/
def sliExp (f : Nat) (a : Sli) : Sli × Flags :=
  let one : Int := 2 ^ f
  match a with
  | .nan => (.nan, 0)
  | .zero _ => (.num false 0, 0)
  | .num neg z =>
    let lv := some (sliLevel f z, sliLevel f z)
    if 0 ≤ z then
      if 6 * one ≤ z then sliResult f false (if neg then -(sliTop f : Int) else sliTop f) true true lv
      else sliResult f false (if neg then -(z + one) else z + one) false false lv
    else
      -- |x| < 1: the index of e^x is 1 ± |x|, and |x| = exp(-φ)
      let b (p : Nat) : Int × Int :=
        match phi true p f z.natAbs, phi false p f z.natAbs with
        | some h, some l => ((expTo false p (-(h : Int)) : Nat), (expTo true p (-(l : Int)) : Nat))
        | _, _ => (0, 1)
      let (r, c) := roundIndex f 0 false (fun p => if neg then (-(b p).2, -(b p).1) else b p) precisions
      sliResult f false r c true lv

/-- The index of a positive fraction, rounded by a mode: z and whether it is inexact (R192, R220). -/
def fracIndex (f : Nat) (mode : Mode) (neg : Bool) (n d : Nat) : Int × Bool × Bool :=
  if n = d then (0, false, false)
  else
    let (r, c) := roundIndex f mode neg (fun p => (signedPsi false p (lnFrac false p n d), signedPsi true p (lnFrac true p n d))) precisions
    (r, c, true)

/-- ln x (R219). -/
def sliLog (f : Nat) (a : Sli) : Sli × Flags :=
  let one : Int := 2 ^ f
  match a with
  | .nan => (.nan, 0)
  | .zero _ => (.num true (sliTop f), Flag.dz)
  | .num true _ => (.nan, Flag.nv)
  | .num false z =>
    let lv := some (sliLevel f z, sliLevel f z)
    if one ≤ z then sliResult f false (z - one) false false lv
    else if z ≤ -one then sliResult f true (-z - one) false false lv
    else if z = 0 then (.zero false, 0)
    else
      let (r, c, i) := fracIndex f 0 (decide (z < 0)) z.natAbs (2 ^ f)
      sliResult f (decide (z < 0)) r c i lv

/-- An exact value of another format as SLI (R192, R197, R220): no level flag is set. -/
def sliOfVal (f : Nat) (mode : Mode) (v : Val) : Sli × Flags :=
  match v with
  | .nan s => (.nan, nvIf s)
  | .inf neg => (.num neg (sliTop f), Flag.lxceil ||| Flag.nx)
  | .fin neg n d =>
    if n = 0 then (.zero neg, 0)
    else
      let (r, c, i) := fracIndex f mode neg n d
      sliResult f neg r c i none

/-- One SLI format into the other (R206, R215): the index is rounded exactly. -/
def sliOfSli (f g : Nat) (mode : Mode) (a : Sli) : Sli × Flags :=
  match a with
  | .nan => (.nan, 0)
  | .zero n => (.zero n, 0)
  | .num neg z =>
    let q := roundZ mode neg (z * 2 ^ g) (2 ^ f)
    let (r, c) := clampZ g mode true q
    sliResult g neg r c (decide (z * 2 ^ g ≠ r * 2 ^ f)) (some (sliLevel f z, sliLevel f z))

/-- An SLI value rounded into another format by `r` (R206): `r` takes a sign and a fraction. 1 is exact, every other magnitude is inexact. -/
def sliToFrac (f : Nat) (z : Int) (r : Nat × Nat → Nat × Flags) : Nat × Flags :=
  if z = 0 then r (1, 1)
  else
    match lnSli false 128 f z with
    | some a => if a < -(3000 * 2 ^ 128 : Int) then r (1, 2 ^ 4000)
                else if (3000 * 2 ^ 128 : Int) < a then r (2 ^ 4000, 1)
                else
                  roundBetween (fun p => (expFrac false p ((lnSli false p f z).getD 0), expFrac true p ((lnSli true p f z).getD 0))) r precisions
    | none => if 0 ≤ z then r (2 ^ 4000, 1) else r (1, 2 ^ 4000)

/-! ## VTRANS (R212-R214) -/

/-- The functions of `VTRANS`. -/
inductive TransFn where
  | exp | exp2 | log | log2 | rcp | rsqrt | tanh
deriving DecidableEq, Repr

/-- n / d at scale `p`, signed. -/
def fracAt (up : Bool) (p : Nat) (neg : Bool) (n d : Nat) : Int :=
  if neg then -(divTo (!up) (n * 2 ^ p) d : Int) else divTo up (n * 2 ^ p) d

/-- |n / d| of two integers at one scale as a fraction. -/
def sizeFrac (x : Int) (p : Nat) : Nat × Nat := (x.natAbs, 2 ^ p)

/-- Round a signed real between bounds at scale p to binary32, RNE, knowing its sign. -/
def roundSigned (neg : Bool) (bounds : Nat → Int × Int) : Nat × Flags :=
  roundBetween (fun p => let (l, h) := bounds p; (sizeFrac l p, sizeFrac h p)) (fun q => binRound bin32 0 neg q.1 q.2) precisions

/-- e^x for x = ± n / d ≠ 0, rounded to binary32 (R213). -/
def transExp (neg : Bool) (n d : Nat) : Nat × Flags :=
  if 200 * d < n then (if neg then binRound bin32 0 false 1 (2 ^ 400) else binRound bin32 0 false (2 ^ 400) 1)
  else roundBetween (fun p => (expFrac false p (fracAt false p neg n d), expFrac true p (fracAt true p neg n d)))
    (fun q => binRound bin32 0 false q.1 q.2) precisions

/-- 2^x for x = ± n / d. -/
def transExp2 (neg : Bool) (n d : Nat) : Nat × Flags :=
  if 400 * d < n then (if neg then binRound bin32 0 false 1 (2 ^ 400) else binRound bin32 0 false (2 ^ 400) 1)
  else
    let k : Int := (if neg then -(n : Int) else n) / (d : Int)
    let r : Nat := ((if neg then -(n : Int) else n) % (d : Int)).toNat
    if r = 0 then (let (a, b) := scaled 1 k; binRound bin32 0 false a b)
    else
      let part (up : Bool) (p : Nat) : Nat × Nat :=
        let x := mulTo up p (divTo up (r * 2 ^ p) d) (ln2 up p)
        let e := expSum up p x (p / 3 + 16) 1
        match k with
        | .ofNat i => (e * 2 ^ i, 2 ^ p)
        | .negSucc i => (e, 2 ^ (p + i + 1))
      roundBetween (fun p => (part false p, part true p)) (fun q => binRound bin32 0 false q.1 q.2) precisions

/-- ln (n / d), n ≠ d. -/
def transLog (n d : Nat) : Nat × Flags := roundSigned (decide (n < d)) fun p => (lnFrac false p n d, lnFrac true p n d)

/-- log2 (n / d). -/
def transLog2 (n d : Nat) : Nat × Flags :=
  let k := log2Frac n d
  let (a, b) := scaled 1 k
  if n * b = a * d then binRound bin32 0 (decide (k < 0)) k.natAbs 1
  else
    -- an outward quotient of signed bounds by ln 2 > 0
    let quot (up : Bool) (p : Nat) : Int :=
      let x := lnFrac up p n d
      let l := (ln2 (decide ((0 ≤ x) = (up = false))) p : Int)
      if up then -((-x * 2 ^ p) / l) else x * 2 ^ p / l
    roundSigned (decide (n < d)) fun p => (quot false p, quot true p)

/-- tanh (± n / d) for n ≠ 0. -/
def transTanh (neg : Bool) (n d : Nat) : Nat × Flags :=
  let r (q : Nat × Nat) : Nat × Flags := binRound bin32 0 neg q.1 q.2
  if n * 2 ^ 13 < d then roundBetween (fun _ => ((n * (3 * d * d - n * n), 3 * d * d * d), (n, d))) r precisions
  else if 20 * d < n then roundBetween (fun _ => ((2 ^ 50 - 1, 2 ^ 50), (1, 1))) r precisions
  else
    -- (E - 1) / (E + 1) with E = e^(2x), rising in E
    let part (up : Bool) (p : Nat) : Nat × Nat :=
      let e := expTo up p (fracAt up p false (2 * n) d)
      (e - 2 ^ p, e + 2 ^ p)
    roundBetween (fun p => (part false p, part true p)) r precisions

/-- One element of `VTRANS` (R213, R214): the binary32 code and the flags. -/
def transCode (fn : TransFn) (c : Nat) : Nat × Flags :=
  let b := bin32
  let nan : Nat × Flags := (b.nanCode, Flag.nv)
  match binVal b c with
  | .nan s => (b.nanCode, nvIf s)
  | .inf neg =>
    match fn with
    | .exp | .exp2 => if neg then (0, 0) else (b.infCode, 0)
    | .log | .log2 => if neg then nan else (b.infCode, 0)
    | .rcp => (b.signed neg 0, 0)
    | .rsqrt => if neg then nan else (0, 0)
    | .tanh => (b.signed neg 0x3F800000, 0)
  | .fin neg n d =>
    if n = 0 then
      match fn with
      | .exp | .exp2 => (0x3F800000, 0)
      | .log | .log2 => (b.signed true b.infCode, Flag.dz)
      | .rcp | .rsqrt => (b.signed neg b.infCode, Flag.dz)
      | .tanh => (b.signed neg 0, 0)
    else
      match fn with
      | .exp => transExp neg n d
      | .exp2 => transExp2 neg n d
      | .log => if neg then nan else if n = d then (0, 0) else transLog n d
      | .log2 => if neg then nan else transLog2 n d
      | .rcp => binRound b 0 neg d n
      | .rsqrt => if neg then nan else let (u, v) := sqrtFrac d n b.p; binRound b 0 false u v
      | .tanh => transTanh neg n d

end Sys2Proof.Machine
end

