-- ==== Sys2Proof/Syntax.lean ====
section
/-!
DEFINITION. The instructions of the NX: one constructor for every row of spec/opcode_table.json.
The 493 rows with an encoding carry the fields of their encoding (03_encoding_opcode_map_assembly.md, R44-R46), by the table's names
(its field `c` is `cv` here, its field `s` is `sf`).
The 78 rows without an encoding are the events of the machine (a queue that moves, a grant, a host write);
their arguments say which hart, core, channel or object the event is about and what an agent outside the model chose.
-/

namespace Sys2Proof


/-- One unit of a gang that the placer puts on a hart slot (28_work_hierarchy_scheduler.md, R400, R406):
the slot, the stack top, the handler address and the interval at which it arms the slot's timer (R423), which the runtime chooses. -/
structure PlacedUnit where
  slot : BitVec 11
  sp : Word
  tbase : Word
  timer : BitVec 32
deriving DecidableEq, Repr

/-- The placer's choices for one gang (R400, R402, R406, R461): the launch node, the gang, the offset of its reservation,
its units in unit order, and the LPART values it writes on cores that hold no unit. -/
structure Placement where
  node : BitVec 48
  gang : Nat
  resv : BitVec 20
  units : List PlacedUnit
  lparts : List (BitVec 8 × BitVec 5)
deriving DecidableEq, Repr


/-- Every row of the opcode table. -/
inductive Instr where
  /-- ADD, R66. -/
  | add (d : BitVec 6) (a : BitVec 6) (b : BitVec 6)
  /-- SUB, R66. -/
  | sub (d : BitVec 6) (a : BitVec 6) (b : BitVec 6)
  /-- AND, R66. -/
  | andR (d : BitVec 6) (a : BitVec 6) (b : BitVec 6)
  /-- OR, R66. -/
  | orR (d : BitVec 6) (a : BitVec 6) (b : BitVec 6)
  /-- XOR, R66. -/
  | xorR (d : BitVec 6) (a : BitVec 6) (b : BitVec 6)
  /-- SLL, R66. -/
  | sll (d : BitVec 6) (a : BitVec 6) (b : BitVec 6)
  /-- SRL, R66. -/
  | srl (d : BitVec 6) (a : BitVec 6) (b : BitVec 6)
  /-- SRA, R66. -/
  | sra (d : BitVec 6) (a : BitVec 6) (b : BitVec 6)
  /-- SLT, R66. -/
  | slt (d : BitVec 6) (a : BitVec 6) (b : BitVec 6)
  /-- SLTU, R66. -/
  | sltu (d : BitVec 6) (a : BitVec 6) (b : BitVec 6)
  /-- MIN, R66. -/
  | min (d : BitVec 6) (a : BitVec 6) (b : BitVec 6)
  /-- MAX, R66. -/
  | max (d : BitVec 6) (a : BitVec 6) (b : BitVec 6)
  /-- MINU, R66. -/
  | minu (d : BitVec 6) (a : BitVec 6) (b : BitVec 6)
  /-- MAXU, R66. -/
  | maxu (d : BitVec 6) (a : BitVec 6) (b : BitVec 6)
  /-- ANDN, R66. -/
  | andn (d : BitVec 6) (a : BitVec 6) (b : BitVec 6)
  /-- ABSD, R66. -/
  | absd (d : BitVec 6) (a : BitVec 6) (b : BitVec 6)
  /-- MUL, R66. -/
  | mul (d : BitVec 6) (a : BitVec 6) (b : BitVec 6)
  /-- HMUL, R66. -/
  | hmul (d : BitVec 6) (a : BitVec 6) (b : BitVec 6)
  /-- HMULU, R66. -/
  | hmulu (d : BitVec 6) (a : BitVec 6) (b : BitVec 6)
  /-- HMULSU, R66. -/
  | hmulsu (d : BitVec 6) (a : BitVec 6) (b : BitVec 6)
  /-- DIV, R67. -/
  | div (d : BitVec 6) (a : BitVec 6) (b : BitVec 6)
  /-- DIVU, R67. -/
  | divu (d : BitVec 6) (a : BitVec 6) (b : BitVec 6)
  /-- REM, R67. -/
  | rem (d : BitVec 6) (a : BitVec 6) (b : BitVec 6)
  /-- REMU, R67. -/
  | remu (d : BitVec 6) (a : BitVec 6) (b : BitVec 6)
  /-- CLZ, R66. -/
  | clz (d : BitVec 6) (a : BitVec 6)
  /-- CTZ, R66. -/
  | ctz (d : BitVec 6) (a : BitVec 6)
  /-- POPC, R66. -/
  | popc (d : BitVec 6) (a : BitVec 6)
  /-- BSWAP, R66. -/
  | bswap (d : BitVec 6) (a : BitVec 6)
  /-- ADDW, R68. -/
  | addw (d : BitVec 6) (a : BitVec 6) (b : BitVec 6)
  /-- SUBW, R68. -/
  | subw (d : BitVec 6) (a : BitVec 6) (b : BitVec 6)
  /-- SLLW, R68. -/
  | sllw (d : BitVec 6) (a : BitVec 6) (b : BitVec 6)
  /-- SRLW, R68. -/
  | srlw (d : BitVec 6) (a : BitVec 6) (b : BitVec 6)
  /-- SRAW, R68. -/
  | sraw (d : BitVec 6) (a : BitVec 6) (b : BitVec 6)
  /-- MULW, R68. -/
  | mulw (d : BitVec 6) (a : BitVec 6) (b : BitVec 6)
  /-- DIVW, R68. -/
  | divw (d : BitVec 6) (a : BitVec 6) (b : BitVec 6)
  /-- DIVUW, R68. -/
  | divuw (d : BitVec 6) (a : BitVec 6) (b : BitVec 6)
  /-- REMW, R68. -/
  | remw (d : BitVec 6) (a : BitVec 6) (b : BitVec 6)
  /-- REMUW, R68. -/
  | remuw (d : BitVec 6) (a : BitVec 6) (b : BitVec 6)
  /-- ADDI, R69. -/
  | addi (d : BitVec 6) (a : BitVec 6) (im : BitVec 12)
  /-- ADDIW, R69. -/
  | addiw (d : BitVec 6) (a : BitVec 6) (im : BitVec 12)
  /-- ANDI, R69. -/
  | andi (d : BitVec 6) (a : BitVec 6) (im : BitVec 12)
  /-- ORI, R69. -/
  | ori (d : BitVec 6) (a : BitVec 6) (im : BitVec 12)
  /-- XORI, R69. -/
  | xori (d : BitVec 6) (a : BitVec 6) (im : BitVec 12)
  /-- SLTI, R69. -/
  | slti (d : BitVec 6) (a : BitVec 6) (im : BitVec 12)
  /-- SLTIU, R69. -/
  | sltiu (d : BitVec 6) (a : BitVec 6) (im : BitVec 12)
  /-- SLLI, R70. -/
  | slli (d : BitVec 6) (a : BitVec 6) (sf : BitVec 6)
  /-- SRLI, R70. -/
  | srli (d : BitVec 6) (a : BitVec 6) (sf : BitVec 6)
  /-- SRAI, R70. -/
  | srai (d : BitVec 6) (a : BitVec 6) (sf : BitVec 6)
  /-- SLLIW, R70. -/
  | slliw (d : BitVec 6) (a : BitVec 6) (sf : BitVec 5)
  /-- SRLIW, R70. -/
  | srliw (d : BitVec 6) (a : BitVec 6) (sf : BitVec 5)
  /-- SRAIW, R70. -/
  | sraiw (d : BitVec 6) (a : BitVec 6) (sf : BitVec 5)
  /-- LUI, R71. -/
  | lui (d : BitVec 6) (im : BitVec 18)
  /-- AUIPC, R71. -/
  | auipc (d : BitVec 6) (im : BitVec 18)
  /-- LB, R72. -/
  | lb (d : BitVec 6) (a : BitVec 6) (im : BitVec 9)
  /-- LH, R72. -/
  | lh (d : BitVec 6) (a : BitVec 6) (im : BitVec 9)
  /-- LW, R72. -/
  | lw (d : BitVec 6) (a : BitVec 6) (im : BitVec 9)
  /-- LD, R72. -/
  | ld (d : BitVec 6) (a : BitVec 6) (im : BitVec 9)
  /-- LBU, R72. -/
  | lbu (d : BitVec 6) (a : BitVec 6) (im : BitVec 9)
  /-- LHU, R72. -/
  | lhu (d : BitVec 6) (a : BitVec 6) (im : BitVec 9)
  /-- LWU, R72. -/
  | lwu (d : BitVec 6) (a : BitVec 6) (im : BitVec 9)
  /-- SB, R72. -/
  | sb (b : BitVec 6) (a : BitVec 6) (im : BitVec 9)
  /-- SH, R72. -/
  | sh (b : BitVec 6) (a : BitVec 6) (im : BitVec 9)
  /-- SW, R72. -/
  | sw (b : BitVec 6) (a : BitVec 6) (im : BitVec 9)
  /-- SD, R72. -/
  | sd (b : BitVec 6) (a : BitVec 6) (im : BitVec 9)
  /-- FADD, R77. -/
  | fadd (d : BitVec 6) (a : BitVec 6) (b : BitVec 6) (p : BitVec 2)
  /-- FSUB, R77. -/
  | fsub (d : BitVec 6) (a : BitVec 6) (b : BitVec 6) (p : BitVec 2)
  /-- FMUL, R77. -/
  | fmul (d : BitVec 6) (a : BitVec 6) (b : BitVec 6) (p : BitVec 2)
  /-- FDIV, R77. -/
  | fdiv (d : BitVec 6) (a : BitVec 6) (b : BitVec 6) (p : BitVec 2)
  /-- FSQRT, R77. -/
  | fsqrt (d : BitVec 6) (a : BitVec 6) (p : BitVec 2)
  /-- FMIN, R78. -/
  | fmin (d : BitVec 6) (a : BitVec 6) (b : BitVec 6) (p : BitVec 2)
  /-- FMAX, R78. -/
  | fmax (d : BitVec 6) (a : BitVec 6) (b : BitVec 6) (p : BitVec 2)
  /-- FEQ, R77. -/
  | feq (d : BitVec 6) (a : BitVec 6) (b : BitVec 6) (p : BitVec 2)
  /-- FLT, R77. -/
  | flt (d : BitVec 6) (a : BitVec 6) (b : BitVec 6) (p : BitVec 2)
  /-- FLE, R77. -/
  | fle (d : BitVec 6) (a : BitVec 6) (b : BitVec 6) (p : BitVec 2)
  /-- FCLASS, R78. -/
  | fclass (d : BitVec 6) (a : BitVec 6) (p : BitVec 2)
  /-- FSGNJ, R77. -/
  | fsgnj (d : BitVec 6) (a : BitVec 6) (b : BitVec 6) (p : BitVec 2)
  /-- FSGNJN, R77. -/
  | fsgnjn (d : BitVec 6) (a : BitVec 6) (b : BitVec 6) (p : BitVec 2)
  /-- FSGNJX, R77. -/
  | fsgnjx (d : BitVec 6) (a : BitVec 6) (b : BitVec 6) (p : BitVec 2)
  /-- FCVTIF, R79. -/
  | fcvtif (d : BitVec 6) (a : BitVec 6) (r : BitVec 3) (t : BitVec 2) (p : BitVec 2)
  /-- FCVTFI, R79. -/
  | fcvtfi (d : BitVec 6) (a : BitVec 6) (r : BitVec 3) (t : BitVec 2) (p : BitVec 2)
  /-- FCVTFF, R79. -/
  | fcvtff (d : BitVec 6) (a : BitVec 6) (r : BitVec 3) (sf : BitVec 2) (p : BitVec 2)
  /-- FMADD, R80. -/
  | fmadd (d : BitVec 6) (a : BitVec 6) (b : BitVec 6) (p : BitVec 2)
  /-- FMSUB, R80. -/
  | fmsub (d : BitVec 6) (a : BitVec 6) (b : BitVec 6) (p : BitVec 2)
  /-- FNMADD, R80. -/
  | fnmadd (d : BitVec 6) (a : BitVec 6) (b : BitVec 6) (p : BitVec 2)
  /-- FNMSUB, R80. -/
  | fnmsub (d : BitVec 6) (a : BitVec 6) (b : BitVec 6) (p : BitVec 2)
  /-- BEQ, R81. -/
  | beq (a : BitVec 6) (b : BitVec 6) (o : BitVec 12)
  /-- BNE, R81. -/
  | bne (a : BitVec 6) (b : BitVec 6) (o : BitVec 12)
  /-- BLT, R81. -/
  | blt (a : BitVec 6) (b : BitVec 6) (o : BitVec 12)
  /-- BGE, R81. -/
  | bge (a : BitVec 6) (b : BitVec 6) (o : BitVec 12)
  /-- BLTU, R81. -/
  | bltu (a : BitVec 6) (b : BitVec 6) (o : BitVec 12)
  /-- BGEU, R81. -/
  | bgeu (a : BitVec 6) (b : BitVec 6) (o : BitVec 12)
  /-- JAL, R82. -/
  | jal (d : BitVec 6) (o : BitVec 18)
  /-- JALR, R82. -/
  | jalr (d : BitVec 6) (a : BitVec 6) (im : BitVec 12)
  /-- BRV_ANY, R85. -/
  | brvAny (m : BitVec 3) (o : BitVec 12)
  /-- BRV_NONE, R85. -/
  | brvNone (m : BitVec 3) (o : BitVec 12)
  /-- BRV_ALL, R85. -/
  | brvAll (m : BitVec 3) (o : BitVec 12)
  /-- BRV_RESOLVE, R86. -/
  | brvResolve (h : BitVec 11)
  /-- CSRRD, R87. -/
  | csrrd (d : BitVec 6) (n : BitVec 10)
  /-- CSRWR, R87. -/
  | csrwr (d : BitVec 6) (a : BitVec 6) (n : BitVec 10)
  /-- CSRBS, R87. -/
  | csrbs (d : BitVec 6) (a : BitVec 6) (n : BitVec 10)
  /-- CSRBC, R87. -/
  | csrbc (d : BitVec 6) (a : BitVec 6) (n : BitVec 10)
  /-- SVC, R91. -/
  | svc (cv : BitVec 12)
  /-- TRAP, R91. -/
  | trap (a : BitVec 6)
  /-- BREAK, R91. -/
  | breakC (cv : BitVec 12)
  /-- RETT, R92. -/
  | rett
  /-- WFI, R93. -/
  | wfi
  /-- HALT, R94. -/
  | halt
  /-- PAUSE, R93. -/
  | pause
  /-- PAUSE_EXPIRY, R93. -/
  | pauseExpiry (h : BitVec 11)
  /-- SETVL, R19. -/
  | setvl (d : BitVec 6) (a : BitVec 6) (z : BitVec 1) (t : BitVec 1) (l : BitVec 3) (f : BitVec 5) (e : BitVec 2)
  /-- SETVLX, R97. -/
  | setvlx (d : BitVec 6) (a : BitVec 6) (b : BitVec 6)
  /-- SETVLX_KEEP, R97. -/
  | setvlxKeep (d : BitVec 6) (a : BitVec 6)
  /-- SETVL_GRANT, R21. -/
  | setvlGrant (h : BitVec 11)
  /-- LPART_WRITE, R16. -/
  | lpartWrite (h : BitVec 11) (v : BitVec 64)
  /-- LPART_STALL_END, R16. -/
  | lpartStallEnd (h : BitVec 11)
  /-- SMM_WRITE, R36. -/
  | smmWrite (h : BitVec 11)
  /-- FOCC_WRITE, R33. -/
  | foccWrite (h : BitVec 11) (n : BitVec 4) (v : BitVec 64)
  /-- FCSR_WRITE, R34. -/
  | fcsrWrite (h : BitVec 11) (v : BitVec 64)
  /-- VDIRTY_WRITE, R32. -/
  | vdirtyWrite (h : BitVec 11) (v : BitVec 64)
  /-- REGISTER_WRITE, R88. -/
  | registerWrite (host : BitVec 1) (h : BitVec 11) (n : BitVec 64) (v : BitVec 64)
  /-- CONVOY_START, R121. -/
  | convoyStart (h : BitVec 11)
  /-- VADD_VV, R102. -/
  | vaddVv (cv : BitVec 1) (d : BitVec 5) (a : BitVec 5) (b : BitVec 5) (k : BitVec 3)
  /-- VSUB_VV, R102. -/
  | vsubVv (cv : BitVec 1) (d : BitVec 5) (a : BitVec 5) (b : BitVec 5) (k : BitVec 3)
  /-- VAND_VV, R102. -/
  | vandVv (cv : BitVec 1) (d : BitVec 5) (a : BitVec 5) (b : BitVec 5) (k : BitVec 3)
  /-- VOR_VV, R102. -/
  | vorVv (cv : BitVec 1) (d : BitVec 5) (a : BitVec 5) (b : BitVec 5) (k : BitVec 3)
  /-- VXOR_VV, R102. -/
  | vxorVv (cv : BitVec 1) (d : BitVec 5) (a : BitVec 5) (b : BitVec 5) (k : BitVec 3)
  /-- VSLL_VV, R102. -/
  | vsllVv (cv : BitVec 1) (d : BitVec 5) (a : BitVec 5) (b : BitVec 5) (k : BitVec 3)
  /-- VSRL_VV, R102. -/
  | vsrlVv (cv : BitVec 1) (d : BitVec 5) (a : BitVec 5) (b : BitVec 5) (k : BitVec 3)
  /-- VSRA_VV, R102. -/
  | vsraVv (cv : BitVec 1) (d : BitVec 5) (a : BitVec 5) (b : BitVec 5) (k : BitVec 3)
  /-- VMIN_VV, R102. -/
  | vminVv (cv : BitVec 1) (d : BitVec 5) (a : BitVec 5) (b : BitVec 5) (k : BitVec 3)
  /-- VMAX_VV, R102. -/
  | vmaxVv (cv : BitVec 1) (d : BitVec 5) (a : BitVec 5) (b : BitVec 5) (k : BitVec 3)
  /-- VMINU_VV, R102. -/
  | vminuVv (cv : BitVec 1) (d : BitVec 5) (a : BitVec 5) (b : BitVec 5) (k : BitVec 3)
  /-- VMAXU_VV, R102. -/
  | vmaxuVv (cv : BitVec 1) (d : BitVec 5) (a : BitVec 5) (b : BitVec 5) (k : BitVec 3)
  /-- VMUL_VV, R102. -/
  | vmulVv (cv : BitVec 1) (d : BitVec 5) (a : BitVec 5) (b : BitVec 5) (k : BitVec 3)
  /-- VHMUL_VV, R102. -/
  | vhmulVv (cv : BitVec 1) (d : BitVec 5) (a : BitVec 5) (b : BitVec 5) (k : BitVec 3)
  /-- VHMULU_VV, R102. -/
  | vhmuluVv (cv : BitVec 1) (d : BitVec 5) (a : BitVec 5) (b : BitVec 5) (k : BitVec 3)
  /-- VHMULSU_VV, R102. -/
  | vhmulsuVv (cv : BitVec 1) (d : BitVec 5) (a : BitVec 5) (b : BitVec 5) (k : BitVec 3)
  /-- VDIV_VV, R102. -/
  | vdivVv (cv : BitVec 1) (d : BitVec 5) (a : BitVec 5) (b : BitVec 5) (k : BitVec 3)
  /-- VDIVU_VV, R102. -/
  | vdivuVv (cv : BitVec 1) (d : BitVec 5) (a : BitVec 5) (b : BitVec 5) (k : BitVec 3)
  /-- VREM_VV, R102. -/
  | vremVv (cv : BitVec 1) (d : BitVec 5) (a : BitVec 5) (b : BitVec 5) (k : BitVec 3)
  /-- VREMU_VV, R102. -/
  | vremuVv (cv : BitVec 1) (d : BitVec 5) (a : BitVec 5) (b : BitVec 5) (k : BitVec 3)
  /-- VCLZ_VV, R102. -/
  | vclzVv (cv : BitVec 1) (d : BitVec 5) (a : BitVec 5) (k : BitVec 3)
  /-- VCTZ_VV, R102. -/
  | vctzVv (cv : BitVec 1) (d : BitVec 5) (a : BitVec 5) (k : BitVec 3)
  /-- VPOPC_VV, R102. -/
  | vpopcVv (cv : BitVec 1) (d : BitVec 5) (a : BitVec 5) (k : BitVec 3)
  /-- VADD_VX, R102. -/
  | vaddVx (cv : BitVec 1) (d : BitVec 5) (a : BitVec 5) (x : BitVec 6) (k : BitVec 3)
  /-- VSUB_VX, R102. -/
  | vsubVx (cv : BitVec 1) (d : BitVec 5) (a : BitVec 5) (x : BitVec 6) (k : BitVec 3)
  /-- VAND_VX, R102. -/
  | vandVx (cv : BitVec 1) (d : BitVec 5) (a : BitVec 5) (x : BitVec 6) (k : BitVec 3)
  /-- VOR_VX, R102. -/
  | vorVx (cv : BitVec 1) (d : BitVec 5) (a : BitVec 5) (x : BitVec 6) (k : BitVec 3)
  /-- VXOR_VX, R102. -/
  | vxorVx (cv : BitVec 1) (d : BitVec 5) (a : BitVec 5) (x : BitVec 6) (k : BitVec 3)
  /-- VSLL_VX, R102. -/
  | vsllVx (cv : BitVec 1) (d : BitVec 5) (a : BitVec 5) (x : BitVec 6) (k : BitVec 3)
  /-- VSRL_VX, R102. -/
  | vsrlVx (cv : BitVec 1) (d : BitVec 5) (a : BitVec 5) (x : BitVec 6) (k : BitVec 3)
  /-- VSRA_VX, R102. -/
  | vsraVx (cv : BitVec 1) (d : BitVec 5) (a : BitVec 5) (x : BitVec 6) (k : BitVec 3)
  /-- VMIN_VX, R102. -/
  | vminVx (cv : BitVec 1) (d : BitVec 5) (a : BitVec 5) (x : BitVec 6) (k : BitVec 3)
  /-- VMAX_VX, R102. -/
  | vmaxVx (cv : BitVec 1) (d : BitVec 5) (a : BitVec 5) (x : BitVec 6) (k : BitVec 3)
  /-- VMINU_VX, R102. -/
  | vminuVx (cv : BitVec 1) (d : BitVec 5) (a : BitVec 5) (x : BitVec 6) (k : BitVec 3)
  /-- VMAXU_VX, R102. -/
  | vmaxuVx (cv : BitVec 1) (d : BitVec 5) (a : BitVec 5) (x : BitVec 6) (k : BitVec 3)
  /-- VMUL_VX, R102. -/
  | vmulVx (cv : BitVec 1) (d : BitVec 5) (a : BitVec 5) (x : BitVec 6) (k : BitVec 3)
  /-- VHMUL_VX, R102. -/
  | vhmulVx (cv : BitVec 1) (d : BitVec 5) (a : BitVec 5) (x : BitVec 6) (k : BitVec 3)
  /-- VHMULU_VX, R102. -/
  | vhmuluVx (cv : BitVec 1) (d : BitVec 5) (a : BitVec 5) (x : BitVec 6) (k : BitVec 3)
  /-- VHMULSU_VX, R102. -/
  | vhmulsuVx (cv : BitVec 1) (d : BitVec 5) (a : BitVec 5) (x : BitVec 6) (k : BitVec 3)
  /-- VDIV_VX, R102. -/
  | vdivVx (cv : BitVec 1) (d : BitVec 5) (a : BitVec 5) (x : BitVec 6) (k : BitVec 3)
  /-- VDIVU_VX, R102. -/
  | vdivuVx (cv : BitVec 1) (d : BitVec 5) (a : BitVec 5) (x : BitVec 6) (k : BitVec 3)
  /-- VREM_VX, R102. -/
  | vremVx (cv : BitVec 1) (d : BitVec 5) (a : BitVec 5) (x : BitVec 6) (k : BitVec 3)
  /-- VREMU_VX, R102. -/
  | vremuVx (cv : BitVec 1) (d : BitVec 5) (a : BitVec 5) (x : BitVec 6) (k : BitVec 3)
  /-- VCLZ_VX, R102. -/
  | vclzVx (cv : BitVec 1) (d : BitVec 5) (a : BitVec 5) (k : BitVec 3)
  /-- VCTZ_VX, R102. -/
  | vctzVx (cv : BitVec 1) (d : BitVec 5) (a : BitVec 5) (k : BitVec 3)
  /-- VPOPC_VX, R102. -/
  | vpopcVx (cv : BitVec 1) (d : BitVec 5) (a : BitVec 5) (k : BitVec 3)
  /-- VRSUB_VX, R102. -/
  | vrsubVx (cv : BitVec 1) (d : BitVec 5) (a : BitVec 5) (x : BitVec 6) (k : BitVec 3)
  /-- VADD_VI, R102. -/
  | vaddVi (cv : BitVec 1) (d : BitVec 5) (a : BitVec 5) (im : BitVec 6) (k : BitVec 3)
  /-- VAND_VI, R102. -/
  | vandVi (cv : BitVec 1) (d : BitVec 5) (a : BitVec 5) (im : BitVec 6) (k : BitVec 3)
  /-- VOR_VI, R102. -/
  | vorVi (cv : BitVec 1) (d : BitVec 5) (a : BitVec 5) (im : BitVec 6) (k : BitVec 3)
  /-- VXOR_VI, R102. -/
  | vxorVi (cv : BitVec 1) (d : BitVec 5) (a : BitVec 5) (im : BitVec 6) (k : BitVec 3)
  /-- VSLL_VI, R102. -/
  | vsllVi (cv : BitVec 1) (d : BitVec 5) (a : BitVec 5) (im : BitVec 6) (k : BitVec 3)
  /-- VSRL_VI, R102. -/
  | vsrlVi (cv : BitVec 1) (d : BitVec 5) (a : BitVec 5) (im : BitVec 6) (k : BitVec 3)
  /-- VSRA_VI, R102. -/
  | vsraVi (cv : BitVec 1) (d : BitVec 5) (a : BitVec 5) (im : BitVec 6) (k : BitVec 3)
  /-- VMIN_VI, R102. -/
  | vminVi (cv : BitVec 1) (d : BitVec 5) (a : BitVec 5) (im : BitVec 6) (k : BitVec 3)
  /-- VMAX_VI, R102. -/
  | vmaxVi (cv : BitVec 1) (d : BitVec 5) (a : BitVec 5) (im : BitVec 6) (k : BitVec 3)
  /-- VMINU_VI, R102. -/
  | vminuVi (cv : BitVec 1) (d : BitVec 5) (a : BitVec 5) (im : BitVec 6) (k : BitVec 3)
  /-- VMAXU_VI, R102. -/
  | vmaxuVi (cv : BitVec 1) (d : BitVec 5) (a : BitVec 5) (im : BitVec 6) (k : BitVec 3)
  /-- VRSUB_VI, R102. -/
  | vrsubVi (cv : BitVec 1) (d : BitVec 5) (a : BitVec 5) (im : BitVec 6) (k : BitVec 3)
  /-- VSADD, R103. -/
  | vsadd (cv : BitVec 1) (d : BitVec 5) (a : BitVec 5) (b : BitVec 5) (k : BitVec 3)
  /-- VSADDU, R103. -/
  | vsaddu (cv : BitVec 1) (d : BitVec 5) (a : BitVec 5) (b : BitVec 5) (k : BitVec 3)
  /-- VSSUB, R103. -/
  | vssub (cv : BitVec 1) (d : BitVec 5) (a : BitVec 5) (b : BitVec 5) (k : BitVec 3)
  /-- VSSUBU, R103. -/
  | vssubu (cv : BitVec 1) (d : BitVec 5) (a : BitVec 5) (b : BitVec 5) (k : BitVec 3)
  /-- VSMUL, R103. -/
  | vsmul (cv : BitVec 1) (d : BitVec 5) (a : BitVec 5) (b : BitVec 5) (k : BitVec 3)
  /-- VAVG, R103. -/
  | vavg (cv : BitVec 1) (d : BitVec 5) (a : BitVec 5) (b : BitVec 5) (k : BitVec 3)
  /-- VAVGU, R103. -/
  | vavgu (cv : BitVec 1) (d : BitVec 5) (a : BitVec 5) (b : BitVec 5) (k : BitVec 3)
  /-- VFADD_VV, R104. -/
  | vfaddVv (cv : BitVec 1) (d : BitVec 5) (a : BitVec 5) (b : BitVec 5) (k : BitVec 3)
  /-- VFSUB_VV, R104. -/
  | vfsubVv (cv : BitVec 1) (d : BitVec 5) (a : BitVec 5) (b : BitVec 5) (k : BitVec 3)
  /-- VFMUL_VV, R104. -/
  | vfmulVv (cv : BitVec 1) (d : BitVec 5) (a : BitVec 5) (b : BitVec 5) (k : BitVec 3)
  /-- VFDIV_VV, R104. -/
  | vfdivVv (cv : BitVec 1) (d : BitVec 5) (a : BitVec 5) (b : BitVec 5) (k : BitVec 3)
  /-- VFSQRT_VV, R104. -/
  | vfsqrtVv (cv : BitVec 1) (d : BitVec 5) (a : BitVec 5) (k : BitVec 3)
  /-- VFMIN_VV, R104. -/
  | vfminVv (cv : BitVec 1) (d : BitVec 5) (a : BitVec 5) (b : BitVec 5) (k : BitVec 3)
  /-- VFMAX_VV, R104. -/
  | vfmaxVv (cv : BitVec 1) (d : BitVec 5) (a : BitVec 5) (b : BitVec 5) (k : BitVec 3)
  /-- VFSGNJ_VV, R104. -/
  | vfsgnjVv (cv : BitVec 1) (d : BitVec 5) (a : BitVec 5) (b : BitVec 5) (k : BitVec 3)
  /-- VFSGNJN_VV, R104. -/
  | vfsgnjnVv (cv : BitVec 1) (d : BitVec 5) (a : BitVec 5) (b : BitVec 5) (k : BitVec 3)
  /-- VFSGNJX_VV, R104. -/
  | vfsgnjxVv (cv : BitVec 1) (d : BitVec 5) (a : BitVec 5) (b : BitVec 5) (k : BitVec 3)
  /-- VFCLASS_VV, R104. -/
  | vfclassVv (cv : BitVec 1) (d : BitVec 5) (a : BitVec 5) (k : BitVec 3)
  /-- VFRSUB_VV, R104. -/
  | vfrsubVv (cv : BitVec 1) (d : BitVec 5) (a : BitVec 5) (b : BitVec 5) (k : BitVec 3)
  /-- VFRDIV_VV, R104. -/
  | vfrdivVv (cv : BitVec 1) (d : BitVec 5) (a : BitVec 5) (b : BitVec 5) (k : BitVec 3)
  /-- VFADD_VX, R104. -/
  | vfaddVx (cv : BitVec 1) (d : BitVec 5) (a : BitVec 5) (x : BitVec 6) (k : BitVec 3)
  /-- VFSUB_VX, R104. -/
  | vfsubVx (cv : BitVec 1) (d : BitVec 5) (a : BitVec 5) (x : BitVec 6) (k : BitVec 3)
  /-- VFMUL_VX, R104. -/
  | vfmulVx (cv : BitVec 1) (d : BitVec 5) (a : BitVec 5) (x : BitVec 6) (k : BitVec 3)
  /-- VFDIV_VX, R104. -/
  | vfdivVx (cv : BitVec 1) (d : BitVec 5) (a : BitVec 5) (x : BitVec 6) (k : BitVec 3)
  /-- VFSQRT_VX, R104. -/
  | vfsqrtVx (cv : BitVec 1) (d : BitVec 5) (a : BitVec 5) (k : BitVec 3)
  /-- VFMIN_VX, R104. -/
  | vfminVx (cv : BitVec 1) (d : BitVec 5) (a : BitVec 5) (x : BitVec 6) (k : BitVec 3)
  /-- VFMAX_VX, R104. -/
  | vfmaxVx (cv : BitVec 1) (d : BitVec 5) (a : BitVec 5) (x : BitVec 6) (k : BitVec 3)
  /-- VFSGNJ_VX, R104. -/
  | vfsgnjVx (cv : BitVec 1) (d : BitVec 5) (a : BitVec 5) (x : BitVec 6) (k : BitVec 3)
  /-- VFSGNJN_VX, R104. -/
  | vfsgnjnVx (cv : BitVec 1) (d : BitVec 5) (a : BitVec 5) (x : BitVec 6) (k : BitVec 3)
  /-- VFSGNJX_VX, R104. -/
  | vfsgnjxVx (cv : BitVec 1) (d : BitVec 5) (a : BitVec 5) (x : BitVec 6) (k : BitVec 3)
  /-- VFCLASS_VX, R104. -/
  | vfclassVx (cv : BitVec 1) (d : BitVec 5) (a : BitVec 5) (k : BitVec 3)
  /-- VFRSUB_VX, R104. -/
  | vfrsubVx (cv : BitVec 1) (d : BitVec 5) (a : BitVec 5) (x : BitVec 6) (k : BitVec 3)
  /-- VFRDIV_VX, R104. -/
  | vfrdivVx (cv : BitVec 1) (d : BitVec 5) (a : BitVec 5) (x : BitVec 6) (k : BitVec 3)
  /-- VFMADD, R105. -/
  | vfmadd (cv : BitVec 1) (d : BitVec 5) (a : BitVec 5) (b : BitVec 5) (k : BitVec 3)
  /-- VFMSUB, R105. -/
  | vfmsub (cv : BitVec 1) (d : BitVec 5) (a : BitVec 5) (b : BitVec 5) (k : BitVec 3)
  /-- VFNMADD, R105. -/
  | vfnmadd (cv : BitVec 1) (d : BitVec 5) (a : BitVec 5) (b : BitVec 5) (k : BitVec 3)
  /-- VFNMSUB, R105. -/
  | vfnmsub (cv : BitVec 1) (d : BitVec 5) (a : BitVec 5) (b : BitVec 5) (k : BitVec 3)
  /-- VMACC, R105. -/
  | vmacc (cv : BitVec 1) (d : BitVec 5) (a : BitVec 5) (b : BitVec 5) (k : BitVec 3)
  /-- VNMSAC, R105. -/
  | vnmsac (cv : BitVec 1) (d : BitVec 5) (a : BitVec 5) (b : BitVec 5) (k : BitVec 3)
  /-- VWMACC, R106. -/
  | vwmacc (cv : BitVec 1) (d : BitVec 5) (a : BitVec 5) (b : BitVec 5) (k : BitVec 3)
  /-- VWMACCU, R106. -/
  | vwmaccu (cv : BitVec 1) (d : BitVec 5) (a : BitVec 5) (b : BitVec 5) (k : BitVec 3)
  /-- VWMACCSU, R106. -/
  | vwmaccsu (cv : BitVec 1) (d : BitVec 5) (a : BitVec 5) (b : BitVec 5) (k : BitVec 3)
  /-- VFWMACC, R106. -/
  | vfwmacc (cv : BitVec 1) (d : BitVec 5) (a : BitVec 5) (b : BitVec 5) (k : BitVec 3)
  /-- VSEQ, R108. -/
  | vseq (cv : BitVec 1) (d : BitVec 3) (a : BitVec 5) (b : BitVec 5) (k : BitVec 3)
  /-- VSNE, R108. -/
  | vsne (cv : BitVec 1) (d : BitVec 3) (a : BitVec 5) (b : BitVec 5) (k : BitVec 3)
  /-- VSLT, R108. -/
  | vslt (cv : BitVec 1) (d : BitVec 3) (a : BitVec 5) (b : BitVec 5) (k : BitVec 3)
  /-- VSLTU, R108. -/
  | vsltu (cv : BitVec 1) (d : BitVec 3) (a : BitVec 5) (b : BitVec 5) (k : BitVec 3)
  /-- VSLE, R108. -/
  | vsle (cv : BitVec 1) (d : BitVec 3) (a : BitVec 5) (b : BitVec 5) (k : BitVec 3)
  /-- VSLEU, R108. -/
  | vsleu (cv : BitVec 1) (d : BitVec 3) (a : BitVec 5) (b : BitVec 5) (k : BitVec 3)
  /-- VFEQ, R108. -/
  | vfeq (cv : BitVec 1) (d : BitVec 3) (a : BitVec 5) (b : BitVec 5) (k : BitVec 3)
  /-- VFNE, R108. -/
  | vfne (cv : BitVec 1) (d : BitVec 3) (a : BitVec 5) (b : BitVec 5) (k : BitVec 3)
  /-- VFLT, R108. -/
  | vflt (cv : BitVec 1) (d : BitVec 3) (a : BitVec 5) (b : BitVec 5) (k : BitVec 3)
  /-- VFLE, R108. -/
  | vfle (cv : BitVec 1) (d : BitVec 3) (a : BitVec 5) (b : BitVec 5) (k : BitVec 3)
  /-- VFORD, R108. -/
  | vford (cv : BitVec 1) (d : BitVec 3) (a : BitVec 5) (b : BitVec 5) (k : BitVec 3)
  /-- KAND, R109. -/
  | kand (cv : BitVec 1) (d : BitVec 3) (a : BitVec 3) (b : BitVec 3)
  /-- KOR, R109. -/
  | kor (cv : BitVec 1) (d : BitVec 3) (a : BitVec 3) (b : BitVec 3)
  /-- KXOR, R109. -/
  | kxor (cv : BitVec 1) (d : BitVec 3) (a : BitVec 3) (b : BitVec 3)
  /-- KANDN, R109. -/
  | kandn (cv : BitVec 1) (d : BitVec 3) (a : BitVec 3) (b : BitVec 3)
  /-- KORN, R109. -/
  | korn (cv : BitVec 1) (d : BitVec 3) (a : BitVec 3) (b : BitVec 3)
  /-- KNOT, R109. -/
  | knot (cv : BitVec 1) (d : BitVec 3) (a : BitVec 3)
  /-- KMOV, R109. -/
  | kmov (cv : BitVec 1) (d : BitVec 3) (a : BitVec 3)
  /-- KFROMSMM, R109. -/
  | kfromsmm (cv : BitVec 1) (d : BitVec 3)
  /-- KTOSMM, R109. -/
  | ktosmm (cv : BitVec 1) (a : BitVec 3)
  /-- KFROMV, R109. -/
  | kfromv (cv : BitVec 1) (d : BitVec 3) (a : BitVec 5)
  /-- KTOV, R109. -/
  | ktov (cv : BitVec 1) (d : BitVec 5) (a : BitVec 3)
  /-- VREDSUM, R111. -/
  | vredsum (cv : BitVec 1) (d : BitVec 5) (a : BitVec 5) (b : BitVec 5) (k : BitVec 3)
  /-- VREDMIN, R111. -/
  | vredmin (cv : BitVec 1) (d : BitVec 5) (a : BitVec 5) (b : BitVec 5) (k : BitVec 3)
  /-- VREDMAX, R111. -/
  | vredmax (cv : BitVec 1) (d : BitVec 5) (a : BitVec 5) (b : BitVec 5) (k : BitVec 3)
  /-- VREDMINU, R111. -/
  | vredminu (cv : BitVec 1) (d : BitVec 5) (a : BitVec 5) (b : BitVec 5) (k : BitVec 3)
  /-- VREDMAXU, R111. -/
  | vredmaxu (cv : BitVec 1) (d : BitVec 5) (a : BitVec 5) (b : BitVec 5) (k : BitVec 3)
  /-- VREDAND, R111. -/
  | vredand (cv : BitVec 1) (d : BitVec 5) (a : BitVec 5) (b : BitVec 5) (k : BitVec 3)
  /-- VREDOR, R111. -/
  | vredor (cv : BitVec 1) (d : BitVec 5) (a : BitVec 5) (b : BitVec 5) (k : BitVec 3)
  /-- VREDXOR, R111. -/
  | vredxor (cv : BitVec 1) (d : BitVec 5) (a : BitVec 5) (b : BitVec 5) (k : BitVec 3)
  /-- VFREDSUM, R111. -/
  | vfredsum (cv : BitVec 1) (d : BitVec 5) (a : BitVec 5) (b : BitVec 5) (k : BitVec 3)
  /-- VFREDMIN, R111. -/
  | vfredmin (cv : BitVec 1) (d : BitVec 5) (a : BitVec 5) (b : BitVec 5) (k : BitVec 3)
  /-- VFREDMAX, R111. -/
  | vfredmax (cv : BitVec 1) (d : BitVec 5) (a : BitVec 5) (b : BitVec 5) (k : BitVec 3)
  /-- VREDO, R112. -/
  | vredo (cv : BitVec 1) (d : BitVec 5) (a : BitVec 5) (b : BitVec 5) (k : BitVec 3)
  /-- VSHUF, R113. -/
  | vshuf (cv : BitVec 1) (d : BitVec 5) (a : BitVec 5) (b : BitVec 5) (k : BitVec 3)
  /-- VPACK, R113. -/
  | vpack (cv : BitVec 1) (d : BitVec 5) (a : BitVec 5) (k : BitVec 3)
  /-- VRANK, R113. -/
  | vrank (cv : BitVec 1) (d : BitVec 5) (b : BitVec 3) (k : BitVec 3)
  /-- VRAMP, R113. -/
  | vramp (cv : BitVec 1) (d : BitVec 5) (k : BitVec 3)
  /-- VRAMP_S, R113. -/
  | vrampS (cv : BitVec 1) (d : BitVec 5) (a : BitVec 5) (k : BitVec 3)
  /-- VBCAST, R114. -/
  | vbcast (cv : BitVec 1) (d : BitVec 5) (x : BitVec 6) (k : BitVec 3)
  /-- VTOX, R114. -/
  | vtox (cv : BitVec 1) (n : BitVec 5) (a : BitVec 5) (x : BitVec 6)
  /-- XTOV, R114. -/
  | xtov (cv : BitVec 1) (d : BitVec 5) (n : BitVec 5) (x : BitVec 6)
  /-- VSHUP, R114. -/
  | vshup (cv : BitVec 1) (d : BitVec 5) (a : BitVec 5) (x : BitVec 6) (k : BitVec 3)
  /-- VSHDN, R114. -/
  | vshdn (cv : BitVec 1) (d : BitVec 5) (a : BitVec 5) (x : BitVec 6) (k : BitVec 3)
  /-- KCOUNT, R114. -/
  | kcount (cv : BitVec 1) (a : BitVec 3) (x : BitVec 6) (k : BitVec 3)
  /-- KLEAD, R114. -/
  | klead (cv : BitVec 1) (a : BitVec 3) (x : BitVec 6) (k : BitVec 3)
  /-- VLD, R116. -/
  | vld (cv : BitVec 1) (v : BitVec 5) (a : BitVec 6) (k : BitVec 3) (sf : BitVec 2)
  /-- VLD_STR, R116. -/
  | vldStr (cv : BitVec 1) (v : BitVec 5) (a : BitVec 6) (b : BitVec 6) (k : BitVec 3) (sf : BitVec 2)
  /-- VLD_M, R118. -/
  | vldM (cv : BitVec 1) (v : BitVec 3) (a : BitVec 6) (sf : BitVec 2)
  /-- VST, R116. -/
  | vst (cv : BitVec 1) (v : BitVec 5) (a : BitVec 6) (k : BitVec 3) (sf : BitVec 2)
  /-- VST_STR, R116. -/
  | vstStr (cv : BitVec 1) (v : BitVec 5) (a : BitVec 6) (b : BitVec 6) (k : BitVec 3) (sf : BitVec 2)
  /-- VST_M, R118. -/
  | vstM (cv : BitVec 1) (v : BitVec 3) (a : BitVec 6) (sf : BitVec 2)
  /-- VCVT, R205. -/
  | vcvt (cv : BitVec 1) (d : BitVec 5) (a : BitVec 5) (f : BitVec 5) (k : BitVec 3) (r : BitVec 3) (t : BitVec 1) (e : BitVec 2)
  /-- SLICVT, R205. -/
  | slicvt (cv : BitVec 1) (d : BitVec 5) (a : BitVec 5) (f : BitVec 5) (k : BitVec 3) (r : BitVec 3) (t : BitVec 1) (e : BitVec 2)
  /-- VQUANT, R209. -/
  | vquant (cv : BitVec 1) (d : BitVec 5) (a : BitVec 5) (f : BitVec 5) (k : BitVec 3) (r : BitVec 3)
  /-- VDEQ, R210. -/
  | vdeq (cv : BitVec 1) (d : BitVec 5) (a : BitVec 5) (f : BitVec 5) (k : BitVec 3) (r : BitVec 3)
  /-- SLIOP_ADD, R216. -/
  | sliopAdd (cv : BitVec 1) (d : BitVec 5) (a : BitVec 5) (b : BitVec 5) (k : BitVec 3)
  /-- SLIOP_SUB, R216. -/
  | sliopSub (cv : BitVec 1) (d : BitVec 5) (a : BitVec 5) (b : BitVec 5) (k : BitVec 3)
  /-- SLIOP_MUL, R216. -/
  | sliopMul (cv : BitVec 1) (d : BitVec 5) (a : BitVec 5) (b : BitVec 5) (k : BitVec 3)
  /-- SLIOP_DIV, R216. -/
  | sliopDiv (cv : BitVec 1) (d : BitVec 5) (a : BitVec 5) (b : BitVec 5) (k : BitVec 3)
  /-- SLIX_ADD, R216. -/
  | slixAdd (cv : BitVec 1) (d : BitVec 5) (a : BitVec 5) (x : BitVec 6) (k : BitVec 3)
  /-- SLIX_SUB, R216. -/
  | slixSub (cv : BitVec 1) (d : BitVec 5) (a : BitVec 5) (x : BitVec 6) (k : BitVec 3)
  /-- SLIX_MUL, R216. -/
  | slixMul (cv : BitVec 1) (d : BitVec 5) (a : BitVec 5) (x : BitVec 6) (k : BitVec 3)
  /-- SLIX_DIV, R216. -/
  | slixDiv (cv : BitVec 1) (d : BitVec 5) (a : BitVec 5) (x : BitVec 6) (k : BitVec 3)
  /-- SLIX_RSUB, R216. -/
  | slixRsub (cv : BitVec 1) (d : BitVec 5) (a : BitVec 5) (x : BitVec 6) (k : BitVec 3)
  /-- SLIX_RDIV, R216. -/
  | slixRdiv (cv : BitVec 1) (d : BitVec 5) (a : BitVec 5) (x : BitVec 6) (k : BitVec 3)
  /-- SLIFN_EXP, R218. -/
  | slifnExp (cv : BitVec 1) (d : BitVec 5) (a : BitVec 5) (k : BitVec 3)
  /-- SLIFN_LOG, R219. -/
  | slifnLog (cv : BitVec 1) (d : BitVec 5) (a : BitVec 5) (k : BitVec 3)
  /-- SLIRED_SUM, R221. -/
  | sliredSum (cv : BitVec 1) (d : BitVec 5) (a : BitVec 5) (b : BitVec 5) (k : BitVec 3)
  /-- SLIRED_MAX, R221. -/
  | sliredMax (cv : BitVec 1) (d : BitVec 5) (a : BitVec 5) (b : BitVec 5) (k : BitVec 3)
  /-- SLIRED_MIN, R221. -/
  | sliredMin (cv : BitVec 1) (d : BitVec 5) (a : BitVec 5) (b : BitVec 5) (k : BitVec 3)
  /-- VTRANS_EXP, R213. -/
  | vtransExp (cv : BitVec 1) (d : BitVec 5) (a : BitVec 5) (k : BitVec 3)
  /-- VTRANS_EXP2, R213. -/
  | vtransExp2 (cv : BitVec 1) (d : BitVec 5) (a : BitVec 5) (k : BitVec 3)
  /-- VTRANS_LOG, R213. -/
  | vtransLog (cv : BitVec 1) (d : BitVec 5) (a : BitVec 5) (k : BitVec 3)
  /-- VTRANS_LOG2, R213. -/
  | vtransLog2 (cv : BitVec 1) (d : BitVec 5) (a : BitVec 5) (k : BitVec 3)
  /-- VTRANS_RCP, R213. -/
  | vtransRcp (cv : BitVec 1) (d : BitVec 5) (a : BitVec 5) (k : BitVec 3)
  /-- VTRANS_RSQRT, R213. -/
  | vtransRsqrt (cv : BitVec 1) (d : BitVec 5) (a : BitVec 5) (k : BitVec 3)
  /-- VTRANS_TANH, R213. -/
  | vtransTanh (cv : BitVec 1) (d : BitVec 5) (a : BitVec 5) (k : BitVec 3)
  /-- FMATCH, R134. -/
  | fmatch (cv : BitVec 1) (m : BitVec 3) (a : BitVec 4) (b : BitVec 4) (x : BitVec 6)
  /-- FISECT_MUL, R135. -/
  | fisectMul (cv : BitVec 1) (d : BitVec 4) (a : BitVec 4) (b : BitVec 4)
  /-- FISECT_FIRST, R135. -/
  | fisectFirst (cv : BitVec 1) (d : BitVec 4) (a : BitVec 4) (b : BitVec 4)
  /-- FISECT_SECOND, R135. -/
  | fisectSecond (cv : BitVec 1) (d : BitVec 4) (a : BitVec 4) (b : BitVec 4)
  /-- FISECT_ADD, R135. -/
  | fisectAdd (cv : BitVec 1) (d : BitVec 4) (a : BitVec 4) (b : BitVec 4)
  /-- FISECT_MIN, R135. -/
  | fisectMin (cv : BitVec 1) (d : BitVec 4) (a : BitVec 4) (b : BitVec 4)
  /-- FISECT_MAX, R135. -/
  | fisectMax (cv : BitVec 1) (d : BitVec 4) (a : BitVec 4) (b : BitVec 4)
  /-- FUNION_FIRST, R136. -/
  | funionFirst (cv : BitVec 1) (d : BitVec 4) (a : BitVec 4) (b : BitVec 4)
  /-- FUNION_SECOND, R136. -/
  | funionSecond (cv : BitVec 1) (d : BitVec 4) (a : BitVec 4) (b : BitVec 4)
  /-- FUNION_ADD, R136. -/
  | funionAdd (cv : BitVec 1) (d : BitVec 4) (a : BitVec 4) (b : BitVec 4)
  /-- FUNION_MIN, R136. -/
  | funionMin (cv : BitVec 1) (d : BitVec 4) (a : BitVec 4) (b : BitVec 4)
  /-- FUNION_MAX, R136. -/
  | funionMax (cv : BitVec 1) (d : BitVec 4) (a : BitVec 4) (b : BitVec 4)
  /-- FMERGE_FIRST, R137. -/
  | fmergeFirst (cv : BitVec 1) (d : BitVec 4) (a : BitVec 4) (b : BitVec 4)
  /-- FMERGE_LAST, R137. -/
  | fmergeLast (cv : BitVec 1) (d : BitVec 4) (a : BitVec 4) (b : BitVec 4)
  /-- FMERGE_ADD, R137. -/
  | fmergeAdd (cv : BitVec 1) (d : BitVec 4) (a : BitVec 4) (b : BitVec 4)
  /-- FMERGE_MIN, R137. -/
  | fmergeMin (cv : BitVec 1) (d : BitVec 4) (a : BitVec 4) (b : BitVec 4)
  /-- FMERGE_MAX, R137. -/
  | fmergeMax (cv : BitVec 1) (d : BitVec 4) (a : BitVec 4) (b : BitVec 4)
  /-- FMERGE_SORT_FIRST, R138. -/
  | fmergeSortFirst (cv : BitVec 1) (d : BitVec 4) (a : BitVec 4)
  /-- FMERGE_SORT_LAST, R138. -/
  | fmergeSortLast (cv : BitVec 1) (d : BitVec 4) (a : BitVec 4)
  /-- FMERGE_SORT_ADD, R138. -/
  | fmergeSortAdd (cv : BitVec 1) (d : BitVec 4) (a : BitVec 4)
  /-- FMERGE_SORT_MIN, R138. -/
  | fmergeSortMin (cv : BitVec 1) (d : BitVec 4) (a : BitVec 4)
  /-- FMERGE_SORT_MAX, R138. -/
  | fmergeSortMax (cv : BitVec 1) (d : BitVec 4) (a : BitVec 4)
  /-- FCOMPACT, R140. -/
  | fcompact (cv : BitVec 1) (d : BitVec 4) (a : BitVec 4) (k : BitVec 3)
  /-- FEXPAND, R139. -/
  | fexpand (cv : BitVec 1) (d : BitVec 4) (a : BitVec 4) (b : BitVec 4)
  /-- FWALK_IDX, R145. -/
  | fwalkIdx (cv : BitVec 1) (v : BitVec 4) (a : BitVec 6) (b : BitVec 6)
  /-- FWALK_VALS, R145. -/
  | fwalkVals (cv : BitVec 1) (v : BitVec 4) (a : BitVec 6) (b : BitVec 6)
  /-- FDOT, R141. -/
  | fdot (cv : BitVec 1) (a : BitVec 4) (b : BitVec 4) (x : BitVec 6)
  /-- FDOT_ISECT, R141. -/
  | fdotIsect (cv : BitVec 1) (a : BitVec 4) (b : BitVec 4) (x : BitVec 6)
  /-- FMAP_MUL, R142. -/
  | fmapMul (cv : BitVec 1) (d : BitVec 4) (a : BitVec 4) (k : BitVec 3) (sf : BitVec 6)
  /-- FMAP_ADD, R142. -/
  | fmapAdd (cv : BitVec 1) (d : BitVec 4) (a : BitVec 4) (k : BitVec 3) (sf : BitVec 6)
  /-- FMAP_ABS, R142. -/
  | fmapAbs (cv : BitVec 1) (d : BitVec 4) (a : BitVec 4) (k : BitVec 3)
  /-- FMAP_NEG, R142. -/
  | fmapNeg (cv : BitVec 1) (d : BitVec 4) (a : BitVec 4) (k : BitVec 3)
  /-- FMAP_RELU, R142. -/
  | fmapRelu (cv : BitVec 1) (d : BitVec 4) (a : BitVec 4) (k : BitVec 3)
  /-- FMOV, R143. -/
  | fmov (cv : BitVec 1) (d : BitVec 4) (a : BitVec 4)
  /-- FTODENSE, R143. -/
  | ftodense (cv : BitVec 1) (a : BitVec 4) (v : BitVec 5)
  /-- FFROMDENSE, R143. -/
  | ffromdense (cv : BitVec 1) (d : BitVec 4) (k : BitVec 3) (v : BitVec 5)
  /-- FOCCR, R143. -/
  | foccr (cv : BitVec 1) (a : BitVec 4) (x : BitVec 6)
  /-- FOCCW, R143. -/
  | foccw (cv : BitVec 1) (d : BitVec 4) (x : BitVec 6)
  /-- FLDST_LD, R144. -/
  | fldstLd (cv : BitVec 1) (v : BitVec 4) (a : BitVec 6) (b : BitVec 6) (sf : BitVec 2)
  /-- FLDST_ST, R144. -/
  | fldstSt (cv : BitVec 1) (v : BitVec 4) (a : BitVec 6) (sf : BitVec 2)
  /-- VLDX, R271. -/
  | vldx (cv : BitVec 1) (v : BitVec 5) (a : BitVec 6) (b : BitVec 6) (k : BitVec 3) (sf : BitVec 2) (q : BitVec 2)
  /-- VSTX, R271. -/
  | vstx (cv : BitVec 1) (v : BitVec 5) (a : BitVec 6) (b : BitVec 6) (k : BitVec 3) (sf : BitVec 2) (q : BitVec 2)
  /-- VLDFF, R273. -/
  | vldff (cv : BitVec 1) (v : BitVec 5) (a : BitVec 6) (x : BitVec 6) (k : BitVec 3) (sf : BitVec 2)
  /-- VGATHB, R274. -/
  | vgathb (cv : BitVec 1) (v : BitVec 5) (a : BitVec 6) (b : BitVec 6) (k : BitVec 3) (q : BitVec 2)
  /-- VSCATB_ST, R275. -/
  | vscatbSt (cv : BitVec 1) (v : BitVec 5) (a : BitVec 6) (b : BitVec 6) (k : BitVec 3) (q : BitVec 2)
  /-- VSCATB_ADD, R275. -/
  | vscatbAdd (cv : BitVec 1) (v : BitVec 5) (a : BitVec 6) (b : BitVec 6) (k : BitVec 3) (q : BitVec 2)
  /-- VSCATB_FADD, R275. -/
  | vscatbFadd (cv : BitVec 1) (v : BitVec 5) (a : BitVec 6) (b : BitVec 6) (k : BitVec 3) (q : BitVec 2)
  /-- VSCATB_MAX, R275. -/
  | vscatbMax (cv : BitVec 1) (v : BitVec 5) (a : BitVec 6) (b : BitVec 6) (k : BitVec 3) (q : BitVec 2)
  /-- VLDS, R278. -/
  | vlds (cv : BitVec 1) (v : BitVec 5) (p : BitVec 3) (k : BitVec 3)
  /-- VSPAD_LD, R280. -/
  | vspadLd (cv : BitVec 1) (v : BitVec 5) (a : BitVec 6) (x : BitVec 6) (k : BitVec 3)
  /-- VSPAD_ST, R280. -/
  | vspadSt (cv : BitVec 1) (v : BitVec 5) (a : BitVec 6) (x : BitVec 6) (k : BitVec 3)
  /-- VAMO_ADD, R284. -/
  | vamoAdd (cv : BitVec 1) (v : BitVec 4) (a : BitVec 6) (sf : BitVec 3) (r : BitVec 1) (q : BitVec 2) (k : BitVec 3)
  /-- VAMO_AND, R284. -/
  | vamoAnd (cv : BitVec 1) (v : BitVec 4) (a : BitVec 6) (sf : BitVec 3) (r : BitVec 1) (q : BitVec 2) (k : BitVec 3)
  /-- VAMO_OR, R284. -/
  | vamoOr (cv : BitVec 1) (v : BitVec 4) (a : BitVec 6) (sf : BitVec 3) (r : BitVec 1) (q : BitVec 2) (k : BitVec 3)
  /-- VAMO_XOR, R284. -/
  | vamoXor (cv : BitVec 1) (v : BitVec 4) (a : BitVec 6) (sf : BitVec 3) (r : BitVec 1) (q : BitVec 2) (k : BitVec 3)
  /-- VAMO_SWAP, R284. -/
  | vamoSwap (cv : BitVec 1) (v : BitVec 4) (a : BitVec 6) (sf : BitVec 3) (r : BitVec 1) (q : BitVec 2) (k : BitVec 3)
  /-- VAMO_MIN, R284. -/
  | vamoMin (cv : BitVec 1) (v : BitVec 4) (a : BitVec 6) (sf : BitVec 3) (r : BitVec 1) (q : BitVec 2) (k : BitVec 3)
  /-- VAMO_MAX, R284. -/
  | vamoMax (cv : BitVec 1) (v : BitVec 4) (a : BitVec 6) (sf : BitVec 3) (r : BitVec 1) (q : BitVec 2) (k : BitVec 3)
  /-- VAMO_FADD32, R284. -/
  | vamoFadd32 (cv : BitVec 1) (v : BitVec 4) (a : BitVec 6) (sf : BitVec 3) (r : BitVec 1) (q : BitVec 2) (k : BitVec 3)
  /-- VAMO_UMIN, R284. -/
  | vamoUmin (cv : BitVec 1) (v : BitVec 4) (a : BitVec 6) (sf : BitVec 3) (r : BitVec 1) (q : BitVec 2) (k : BitVec 3)
  /-- VAMO_UMAX, R284. -/
  | vamoUmax (cv : BitVec 1) (v : BitVec 4) (a : BitVec 6) (sf : BitVec 3) (r : BitVec 1) (q : BitVec 2) (k : BitVec 3)
  /-- VAMO_INCB, R284. -/
  | vamoIncb (cv : BitVec 1) (v : BitVec 4) (a : BitVec 6) (sf : BitVec 3) (r : BitVec 1) (q : BitVec 2) (k : BitVec 3)
  /-- VAMO_FMIN32, R284. -/
  | vamoFmin32 (cv : BitVec 1) (v : BitVec 4) (a : BitVec 6) (sf : BitVec 3) (r : BitVec 1) (q : BitVec 2) (k : BitVec 3)
  /-- VAMO_FMAX32, R284. -/
  | vamoFmax32 (cv : BitVec 1) (v : BitVec 4) (a : BitVec 6) (sf : BitVec 3) (r : BitVec 1) (q : BitVec 2) (k : BitVec 3)
  /-- VAMO_ADD32W, R284. -/
  | vamoAdd32w (cv : BitVec 1) (v : BitVec 4) (a : BitVec 6) (sf : BitVec 3) (q : BitVec 2) (k : BitVec 3)
  /-- VAMO_FADD16X2, R284. -/
  | vamoFadd16x2 (cv : BitVec 1) (v : BitVec 4) (a : BitVec 6) (sf : BitVec 3) (r : BitVec 1) (q : BitVec 2) (k : BitVec 3)
  /-- VSEL_MAX, R375. -/
  | vselMax (cv : BitVec 1) (d : BitVec 5) (a : BitVec 5) (k : BitVec 3)
  /-- VSEL_MIN, R375. -/
  | vselMin (cv : BitVec 1) (d : BitVec 5) (a : BitVec 5) (k : BitVec 3)
  /-- VSEL_MAX_CLR, R375. -/
  | vselMaxClr (cv : BitVec 1) (d : BitVec 5) (a : BitVec 5) (k : BitVec 3)
  /-- VSEL_MIN_CLR, R375. -/
  | vselMinClr (cv : BitVec 1) (d : BitVec 5) (a : BitVec 5) (k : BitVec 3)
  /-- VEXIT_BEFORE, R376. -/
  | vexitBefore (cv : BitVec 1) (d : BitVec 3) (b : BitVec 3) (k : BitVec 3)
  /-- VEXIT_INCL, R376. -/
  | vexitIncl (cv : BitVec 1) (d : BitVec 3) (b : BitVec 3) (k : BitVec 3)
  /-- VEXIT_ONLY, R376. -/
  | vexitOnly (cv : BitVec 1) (d : BitVec 3) (b : BitVec 3) (k : BitVec 3)
  /-- VSCAN_IDX, R377. -/
  | vscanIdx (cv : BitVec 1) (d : BitVec 5) (k : BitVec 3)
  /-- VSCAN_ADD, R378. -/
  | vscanAdd (cv : BitVec 1) (d : BitVec 5) (a : BitVec 5) (b : BitVec 5) (k : BitVec 3)
  /-- VSCAN_ADDX, R378. -/
  | vscanAddx (cv : BitVec 1) (d : BitVec 5) (a : BitVec 5) (b : BitVec 5) (k : BitVec 3)
  /-- VSCAN_MAX, R378. -/
  | vscanMax (cv : BitVec 1) (d : BitVec 5) (a : BitVec 5) (b : BitVec 5) (k : BitVec 3)
  /-- VSCAN_MAXU, R378. -/
  | vscanMaxu (cv : BitVec 1) (d : BitVec 5) (a : BitVec 5) (b : BitVec 5) (k : BitVec 3)
  /-- LTSPLIT, R380. -/
  | ltsplit (m : BitVec 3)
  /-- LTJOIN, R383. -/
  | ltjoin
  /-- LTYIELD, R382. -/
  | ltyield
  /-- LTID, R381. -/
  | ltid (d : BitVec 6)
  /-- SPLIT_REGION_JOIN, R383. -/
  | splitRegionJoin (h : BitVec 11)
  /-- MSHAPE, R304. -/
  | mshape (cv : BitVec 1) (a : BitVec 6)
  /-- MMA_SET, R307. -/
  | mmaSet (cv : BitVec 1) (x : BitVec 3) (a : BitVec 8) (b : BitVec 8)
  /-- MMA_ACC, R307. -/
  | mmaAcc (cv : BitVec 1) (x : BitVec 3) (a : BitVec 8) (b : BitVec 8)
  /-- MMA_SET_SP, R308. -/
  | mmaSetSp (cv : BitVec 1) (x : BitVec 3) (a : BitVec 8) (b : BitVec 8)
  /-- MMA_ACC_SP, R308. -/
  | mmaAccSp (cv : BitVec 1) (x : BitVec 3) (a : BitVec 8) (b : BitVec 8)
  /-- MMA_SET_GRP, R312. -/
  | mmaSetGrp (cv : BitVec 1) (x : BitVec 3) (a : BitVec 8) (b : BitVec 8)
  /-- MMA_ACC_GRP, R312. -/
  | mmaAccGrp (cv : BitVec 1) (x : BitVec 3) (a : BitVec 8) (b : BitVec 8)
  /-- MMAG_SET, R311. -/
  | mmagSet (cv : BitVec 1) (x : BitVec 3) (a : BitVec 8) (b : BitVec 8)
  /-- MMAG_ACC, R311. -/
  | mmagAcc (cv : BitVec 1) (x : BitVec 3) (a : BitVec 8) (b : BitVec 8)
  /-- MMETA_META, R309. -/
  | mmetaMeta (cv : BitVec 1) (sf : BitVec 3) (v : BitVec 5)
  /-- MMETA_IDX, R309. -/
  | mmetaIdx (cv : BitVec 1) (v : BitVec 5)
  /-- MMETA_ROWS, R309. -/
  | mmetaRows (cv : BitVec 1) (v : BitVec 5)
  /-- MTILE_ZERO, R313. -/
  | mtileZero (cv : BitVec 1) (x : BitVec 3)
  /-- MTILE_LD, R313. -/
  | mtileLd (cv : BitVec 1) (x : BitVec 3) (p : BitVec 8)
  /-- MTILE_ST, R313. -/
  | mtileSt (cv : BitVec 1) (x : BitVec 3) (p : BitVec 8)
  /-- MDRAIN, R314. -/
  | mdrain (cv : BitVec 1) (x : BitVec 3) (v : BitVec 5) (r : BitVec 6)
  /-- MATRIX_CONVOY_START, R316. -/
  | matrixConvoyStart (h : BitVec 11)
  /-- PSET, R287. -/
  | pset (p : BitVec 8) (a : BitVec 6)
  /-- SWSET, R288. -/
  | swset (p : BitVec 8) (n : BitVec 6)
  /-- SWSET_CLR, R288. -/
  | swsetClr (n : BitVec 6)
  /-- SWSET_RESUME, R288. -/
  | swsetResume (h : BitVec 11)
  /-- SHSTAGE_SRC, R289. -/
  | shstageSrc (h : BitVec 4) (p : BitVec 8)
  /-- SHSTAGE_DST, R289. -/
  | shstageDst (h : BitVec 4) (p : BitVec 8)
  /-- SHSTAGE_IDX, R289. -/
  | shstageIdx (h : BitVec 4) (p : BitVec 8)
  /-- SHSTAGE_SBASE, R289. -/
  | shstageSbase (h : BitVec 4) (a : BitVec 6)
  /-- SHSTAGE_DBASE, R289. -/
  | shstageDbase (h : BitVec 4) (a : BitVec 6)
  /-- SHSTAGE_BAR, R289. -/
  | shstageBar (h : BitVec 4) (a : BitVec 6)
  /-- SHSTAGE_SW, R289. -/
  | shstageSw (h : BitVec 4) (n : BitVec 6)
  /-- SHSTAGE_PORT, R289. -/
  | shstagePort (h : BitVec 4) (p : BitVec 8)
  /-- SHSTAGE_RTN, R289. -/
  | shstageRtn (h : BitVec 4) (n : BitVec 5)
  /-- SHSTAGE_CLR, R289. -/
  | shstageClr (h : BitVec 4)
  /-- SHSTAGE_RSTAT, R289. -/
  | shstageRstat (h : BitVec 4)
  /-- SHGO_COPY, R291. -/
  | shgoCopy (h : BitVec 4) (d : BitVec 6) (r : BitVec 1)
  /-- SHGO_ROWS, R291. -/
  | shgoRows (h : BitVec 4) (d : BitVec 6) (r : BitVec 1)
  /-- SHGO_STREAM, R291. -/
  | shgoStream (h : BitVec 4) (d : BitVec 6) (r : BitVec 1)
  /-- SHGO_SEND, R291. -/
  | shgoSend (h : BitVec 4) (d : BitVec 6) (r : BitVec 1)
  /-- SHGO_BODKIN, R291. -/
  | shgoBodkin (h : BitVec 4) (d : BitVec 6) (r : BitVec 1)
  /-- SHGO_QUEUE_ROOM, R291. -/
  | shgoQueueRoom (h : BitVec 11)
  /-- SHSTAT_TL, R293. -/
  | shstatTl (h : BitVec 4) (d : BitVec 6)
  /-- SHSTAT_MISS, R293. -/
  | shstatMiss (h : BitVec 4) (d : BitVec 6)
  /-- SHSTAT_ERR, R293. -/
  | shstatErr (h : BitVec 4) (d : BitVec 6)
  /-- SHSTAT_ADDR, R293. -/
  | shstatAddr (h : BitVec 4) (d : BitVec 6)
  /-- SHSTAT_LANDED, R293. -/
  | shstatLanded (h : BitVec 4) (sf : BitVec 6) (d : BitVec 6)
  /-- SHSTAT_NEXT, R293. -/
  | shstatNext (h : BitVec 4) (d : BitVec 6)
  /-- SHSTAT_SW, R293. -/
  | shstatSw (n : BitVec 6) (d : BitVec 6)
  /-- SHSTAT_PV, R293. -/
  | shstatPv (p : BitVec 8) (d : BitVec 6)
  /-- SHPORT_STAT, R294. -/
  | shportStat (p : BitVec 8) (d : BitVec 6)
  /-- SHPORT_DISC, R294. -/
  | shportDisc (p : BitVec 8)
  /-- WAITTL, R295. -/
  | waittl (sf : BitVec 3) (a : BitVec 6) (b : BitVec 6)
  /-- SIGTL, R295. -/
  | sigtl (sf : BitVec 3) (a : BitVec 6) (b : BitVec 6)
  /-- RDTL, R295. -/
  | rdtl (d : BitVec 6) (a : BitVec 6)
  /-- TRYTL, R295. -/
  | trytl (sf : BitVec 3) (d : BitVec 6) (a : BitVec 6) (b : BitVec 6)
  /-- WAITTL_PASS, R295. -/
  | waittlPass (h : BitVec 11)
  /-- BINIT, R297. -/
  | binit (sf : BitVec 3) (a : BitVec 6) (b : BitVec 6)
  /-- BARRIVE, R297. -/
  | barrive (sf : BitVec 3) (d : BitVec 6) (a : BitVec 6) (b : BitVec 6)
  /-- BWAIT, R297. -/
  | bwait (sf : BitVec 3) (a : BitVec 6) (b : BitVec 6)
  /-- BTRY, R297. -/
  | btry (sf : BitVec 3) (d : BitVec 6) (a : BitVec 6) (b : BitVec 6)
  /-- BWAIT_PASS, R297. -/
  | bwaitPass (h : BitVec 11)
  /-- LOCK, R299. -/
  | lock (d : BitVec 6) (a : BitVec 6)
  /-- UNLOCK, R299. -/
  | unlock (d : BitVec 6) (a : BitVec 6)
  /-- SWATCH_WAIT_END, R254. -/
  | swatchWaitEnd (h : BitVec 11)
  /-- FENCE_REL, R355. -/
  | fenceRel (sf : BitVec 3)
  /-- FENCE_ACQ, R355. -/
  | fenceAcq (sf : BitVec 3)
  /-- FENCE_FULL, R355. -/
  | fenceFull (sf : BitVec 3)
  /-- AMO_ADD, R358. -/
  | amoAdd (sf : BitVec 3) (d : BitVec 6) (a : BitVec 6) (b : BitVec 6)
  /-- AMO_AND, R358. -/
  | amoAnd (sf : BitVec 3) (d : BitVec 6) (a : BitVec 6) (b : BitVec 6)
  /-- AMO_OR, R358. -/
  | amoOr (sf : BitVec 3) (d : BitVec 6) (a : BitVec 6) (b : BitVec 6)
  /-- AMO_XOR, R358. -/
  | amoXor (sf : BitVec 3) (d : BitVec 6) (a : BitVec 6) (b : BitVec 6)
  /-- AMO_SWAP, R358. -/
  | amoSwap (sf : BitVec 3) (d : BitVec 6) (a : BitVec 6) (b : BitVec 6)
  /-- AMO_MIN, R358. -/
  | amoMin (sf : BitVec 3) (d : BitVec 6) (a : BitVec 6) (b : BitVec 6)
  /-- AMO_MAX, R358. -/
  | amoMax (sf : BitVec 3) (d : BitVec 6) (a : BitVec 6) (b : BitVec 6)
  /-- AMO_FADD32, R358. -/
  | amoFadd32 (sf : BitVec 3) (d : BitVec 6) (a : BitVec 6) (b : BitVec 6)
  /-- AMO2_UMIN, R358. -/
  | amo2Umin (sf : BitVec 3) (d : BitVec 6) (a : BitVec 6) (b : BitVec 6)
  /-- AMO2_UMAX, R358. -/
  | amo2Umax (sf : BitVec 3) (d : BitVec 6) (a : BitVec 6) (b : BitVec 6)
  /-- AMO2_CAS, R358. -/
  | amo2Cas (sf : BitVec 3) (d : BitVec 6) (a : BitVec 6) (b : BitVec 6)
  /-- AMO2_INCB, R358. -/
  | amo2Incb (sf : BitVec 3) (d : BitVec 6) (a : BitVec 6) (b : BitVec 6)
  /-- AMO2_FMIN32, R358. -/
  | amo2Fmin32 (sf : BitVec 3) (d : BitVec 6) (a : BitVec 6) (b : BitVec 6)
  /-- AMO2_FMAX32, R358. -/
  | amo2Fmax32 (sf : BitVec 3) (d : BitVec 6) (a : BitVec 6) (b : BitVec 6)
  /-- AMO2_ADD32W, R358. -/
  | amo2Add32w (sf : BitVec 3) (d : BitVec 6) (a : BitVec 6) (b : BitVec 6)
  /-- AMO2_FADD16X2, R358. -/
  | amo2Fadd16x2 (sf : BitVec 3) (d : BitVec 6) (a : BitVec 6) (b : BitVec 6)
  /-- LDACQ, R362. -/
  | ldacq (sf : BitVec 3) (z : BitVec 2) (d : BitVec 6) (a : BitVec 6)
  /-- STREL, R362. -/
  | strel (sf : BitVec 3) (z : BitVec 2) (a : BitVec 6) (b : BitVec 6)
  /-- LAUNCH, R414. -/
  | launch (d : BitVec 6) (a : BitVec 6)
  /-- LAUNCH_ID, R414. -/
  | launchId (d : BitVec 6) (a : BitVec 6)
  /-- LAUNCH_GATE, R414. -/
  | launchGate (d : BitVec 6) (a : BitVec 6) (b : BitVec 6)
  /-- LAUNCH_GATE_ID, R414. -/
  | launchGateId (d : BitVec 6) (a : BitVec 6) (b : BitVec 6)
  /-- LWAIT, R415. -/
  | lwait (d : BitVec 6) (a : BitVec 6)
  /-- LTRY, R415. -/
  | ltry (d : BitVec 6) (a : BitVec 6)
  /-- LCANCEL, R416. -/
  | lcancel (d : BitVec 6) (a : BitVec 6)
  /-- LWAIT_COMPLETE, R415. -/
  | lwaitComplete (h : BitVec 11)
  /-- MSEND, R419. -/
  | msend (d : BitVec 6) (a : BitVec 6) (n : BitVec 4)
  /-- MSENDW, R419. -/
  | msendw (d : BitVec 6) (a : BitVec 6) (b : BitVec 6)
  /-- MAILBOX_ENTRY_GRANT, R419. -/
  | mailboxEntryGrant (h : BitVec 11) (g : BitVec 1)
  /-- MESSAGE_DELIVERY, R419. -/
  | messageDelivery (n : Nat)
  /-- MRECV, R420. -/
  | mrecv (d : BitVec 6) (n : BitVec 4)
  /-- MTRY, R420. -/
  | mtry (d : BitVec 6) (n : BitVec 4)
  /-- MRECV_TAKE, R420. -/
  | mrecvTake (h : BitVec 11)
  /-- MSIGTL, R421. -/
  | msigtl (a : BitVec 6) (b : BitVec 6)
  /-- MWAITTL, R421. -/
  | mwaittl (a : BitVec 6) (b : BitVec 6)
  /-- MTRYTL, R421. -/
  | mtrytl (d : BitVec 6) (a : BitVec 6) (b : BitVec 6)
  /-- MAMO_ADD, R422. -/
  | mamoAdd (d : BitVec 6) (a : BitVec 6) (b : BitVec 6)
  /-- MAMO_AND, R422. -/
  | mamoAnd (d : BitVec 6) (a : BitVec 6) (b : BitVec 6)
  /-- MAMO_OR, R422. -/
  | mamoOr (d : BitVec 6) (a : BitVec 6) (b : BitVec 6)
  /-- MAMO_XOR, R422. -/
  | mamoXor (d : BitVec 6) (a : BitVec 6) (b : BitVec 6)
  /-- MAMO_SWAP, R422. -/
  | mamoSwap (d : BitVec 6) (a : BitVec 6) (b : BitVec 6)
  /-- MAMO_MIN, R422. -/
  | mamoMin (d : BitVec 6) (a : BitVec 6) (b : BitVec 6)
  /-- MAMO_MAX, R422. -/
  | mamoMax (d : BitVec 6) (a : BitVec 6) (b : BitVec 6)
  /-- MAMO_FADD32, R422. -/
  | mamoFadd32 (d : BitVec 6) (a : BitVec 6) (b : BitVec 6)
  /-- MAMO2_UMIN, R422. -/
  | mamo2Umin (d : BitVec 6) (a : BitVec 6) (b : BitVec 6)
  /-- MAMO2_UMAX, R422. -/
  | mamo2Umax (d : BitVec 6) (a : BitVec 6) (b : BitVec 6)
  /-- MAMO2_CAS, R422. -/
  | mamo2Cas (d : BitVec 6) (a : BitVec 6) (b : BitVec 6)
  /-- MAMO2_INCB, R422. -/
  | mamo2Incb (d : BitVec 6) (a : BitVec 6) (b : BitVec 6)
  /-- MAMO2_FMIN32, R422. -/
  | mamo2Fmin32 (d : BitVec 6) (a : BitVec 6) (b : BitVec 6)
  /-- MAMO2_FMAX32, R422. -/
  | mamo2Fmax32 (d : BitVec 6) (a : BitVec 6) (b : BitVec 6)
  /-- MAMO2_ADD32W, R422. -/
  | mamo2Add32w (d : BitVec 6) (a : BitVec 6) (b : BitVec 6)
  /-- MAMO2_FADD16X2, R422. -/
  | mamo2Fadd16x2 (d : BitVec 6) (a : BitVec 6) (b : BitVec 6)
  /-- REMOTE_OPERATION, R422. -/
  | remoteOperation (src : BitVec 12) (asid : BitVec 14) (op : BitVec 5) (a : BitVec 64) (b : BitVec 64) (b2 : BitVec 64)
  /-- SUPV_CAREA, R423. -/
  | supvCarea (a : BitVec 6)
  /-- SUPV_CSAVE, R166. -/
  | supvCsave
  /-- SUPV_CREST, R167. -/
  | supvCrest
  /-- CREST_GRANT, R167. -/
  | crestGrant (h : BitVec 11)
  /-- SUPV_TACK, R423. -/
  | supvTack
  /-- SUPV_TSET, R423. -/
  | supvTset (a : BitVec 6)
  /-- SUPV_EACK, R423. -/
  | supvEack (a : BitVec 6)
  /-- SUPV_PACK, R423. -/
  | supvPack
  /-- SUPV_TLBINV, R424. -/
  | supvTlbinv (a : BitVec 6) (b : BitVec 6)
  /-- SUPV_QUIESCE, R161. -/
  | supvQuiesce (d : BitVec 6) (a : BitVec 6)
  /-- SUPV_RESUME, R423. -/
  | supvResume (a : BitVec 6)
  /-- SUPV_REPLAY, R423. -/
  | supvReplay (a : BitVec 6) (b : BitVec 6)
  /-- SUPV_RTN, R423. -/
  | supvRtn (d : BitVec 6) (a : BitVec 6) (b : BitVec 6)
  /-- SUPV_SVCH, R423. -/
  | supvSvch (a : BitVec 6) (b : BitVec 6)
  /-- SEAM_READ, R425. -/
  | seamRead (l : BitVec 3) (w : BitVec 2) (d : BitVec 6)
  /-- SEAM_HEALTH, R425. -/
  | seamHealth (d : BitVec 6)
  /-- TIMER_EXPIRY, R423. -/
  | timerExpiry (h : BitVec 11)
  /-- INTERRUPT_ENTRY, R154. -/
  | interruptEntry (h : BitVec 11) (n : Nat)
  /-- L1_EVICTION, R333. -/
  | l1Eviction (core : BitVec 8) (line : BitVec 52)
  /-- HOME_HOLD_RELEASE, R343. -/
  | homeHoldRelease (n : Nat)
  /-- COMMAND_START, R258. -/
  | commandStart (core : BitVec 8) (ch : BitVec 4)
  /-- LANDED_COUNT_RISE, R321: how many elements land in order, and which are accepted ahead of their turn. -/
  | landedCountRise (core : BitVec 8) (ch : BitVec 4) (id : BitVec 64) (n : Nat × List Nat)
  /-- SOURCE_READ_DONE, R253. -/
  | sourceReadDone (core : BitVec 8) (ch : BitVec 4) (id : BitVec 64)
  /-- TRANSFER_SUSPEND, R176. -/
  | transferSuspend (core : BitVec 8) (ch : BitVec 4) (id : BitVec 64)
  /-- TRANSFER_POISON, R177. -/
  | transferPoison (core : BitVec 8) (ch : BitVec 4) (id : BitVec 64)
  /-- BODKIN_FAULT, R262. -/
  | bodkinFault (core : BitVec 8) (ch : BitVec 4) (id : BitVec 64)
  /-- FABRIC_SEND_ARRIVAL, R434. -/
  | fabricSendArrival (core : BitVec 8) (ch : BitVec 4) (id : BitVec 64) (ok : BitVec 1)
  /-- LAUNCH_DISPATCH, R404. -/
  | launchDispatch (n : BitVec 48)
  /-- GATE_OPEN, R414. -/
  | gateOpen (n : BitVec 48)
  /-- PRIORITY_AGING, R403. -/
  | priorityAging (n : BitVec 48)
  /-- GANG_PLACEMENT, R406. -/
  | gangPlacement (p : Placement)
  /-- RESERVATION_PREEMPT, R410. -/
  | reservationPreempt (hs : List (BitVec 11))
  /-- GANG_RESTORE, R410. -/
  | gangRestore (p : Placement)
  /-- UNIT_CANCEL_STOP, R409. -/
  | unitCancelStop (h : BitVec 11)
  /-- CHANNEL_RESET, R401. -/
  | channelReset (core : BitVec 8) (ch : BitVec 4)
  /-- CLUSTER_MODE_CHANGE, R240. -/
  | clusterModeChange (clu : BitVec 6) (fused : BitVec 1)
  /-- RUNTIME_RETIRE, R462. -/
  | runtimeRetire (h : BitVec 11)
  /-- DEVICE_RESET, R435. -/
  | deviceReset
  /-- FUNCTION_LEVEL_RESET, R426. -/
  | functionLevelReset
  /-- HOST_BAR2_ACCESS, R426. -/
  | hostBar2Access (wr : BitVec 1) (off : BitVec 64) (size : BitVec 2) (v : BitVec 64)
  /-- BAR2BASE_WRITE, R428. -/
  | bar2baseWrite (v : BitVec 64)
  /-- GO, R429. -/
  | go (j : BitVec 8)
  /-- HOST_COUNTER_WRITE, R430. -/
  | hostCounterWrite (n : BitVec 16) (v : BitVec 64)
  /-- DOORBELL, R432. -/
  | doorbell (h : BitVec 11)
  /-- LOAD, R436. -/
  | load
  /-- FIRMWARE_VERIFY_DONE, R436. -/
  | firmwareVerifyDone
  /-- STAGE_2_ENTRY, R438. -/
  | stage2Entry
  /-- STAGE_3_ENTRY, R438. -/
  | stage3Entry
  /-- REQ, R441. -/
  | req
  /-- ATTESTATION_REPORT_READY, R440. -/
  | attestationReportReady
  /-- VALID_WRITE, R448. -/
  | validWrite (n : BitVec 10)
  /-- CCOUNT_WRITE, R448. -/
  | ccountWrite (n : BitVec 3)
  /-- CORRECTED_ERROR, R446. -/
  | correctedError (blk : BitVec 8) (core : BitVec 8) (a : BitVec 64)
  /-- UNCORRECTED_ERROR, R446. -/
  | uncorrectedError (blk : BitVec 8) (core : BitVec 8) (a : BitVec 64)
  /-- TELEMETRY_UPDATE, R444. -/
  | telemetryUpdate
  /-- THROTTLE_ALERT, R432. -/
  | throttleAlert (blk : BitVec 8)
  /-- TRIP_NEAR_WARNING, R432. -/
  | tripNearWarning
  /-- ELECTRICAL_TRIP, R445. -/
  | electricalTrip
  /-- PORT_STATE_CHANGE, R433. -/
  | portStateChange (port : BitVec 4) (up : BitVec 1)
  /-- BLOCK_LEAVE_SERVICE, R442. -/
  | blockLeaveService (kind : BitVec 2) (n : BitVec 5)
  /-- BLOCK_RETURN_SERVICE, R442. -/
  | blockReturnService (kind : BitVec 2) (n : BitVec 5)
  /-- ARM, R451. -/
  | arm
  /-- CHECKPOINT_CUT, R449. -/
  | checkpointCut
  /-- FRAME_STREAM, R450. -/
  | frameStream (n : BitVec 28)
  /-- ILLEGAL_INSN, R51. -/
  | illegalInsn (w : BitVec 32)
  /-- FETCH_FAULT, R52. -/
  | fetchFault (cause : BitVec 6) (a : BitVec 64)
  /-- WFI_EARLY_COMPLETION, R93. -/
  | wfiEarlyCompletion (h : BitVec 11)
  /-- REMOTE_ACKNOWLEDGEMENT, R422. -/
  | remoteAcknowledgement (h : BitVec 11) (own : BitVec 1) (v : BitVec 64) (st : BitVec 8)
  /-- RESIZABLE_BAR_SELECT, R428. -/
  | resizableBarSelect (size : BitVec 6)
  /-- FABRIC_SET_UP, R433. -/
  | fabricSetUp (x : BitVec 4) (y : BitVec 4) (z : BitVec 4)
deriving DecidableEq, Repr

end Sys2Proof
end

