-- ==== Sys2Proof/WellFormed.lean ====
section
/-!
DEFINITION. The well-formed instructions: terms that stand for a word each of whose selecting fields holds a value that its chapter lists (R51).
Conditions that need the machine (`VTYPE`, the grant, the privilege) or that compare two register fields (R113, R127, R204, R207)
are checked by the meanings; they raise the same `ILLEGAL_INSN`.
-/

namespace Sys2Proof

namespace WellFormed

/-- A float-format code of R75: 3 is reserved. -/
def isFloatFmt (p : BitVec 2) : Bool := p != 3
/-- A rounding-mode code (R79, R203): 5 and 6 are reserved. -/
def isRm (r : BitVec 3) : Bool := r != 5 && r != 6
/-- A BLK code (R96): 5 to 7 are reserved. -/
def isBlk (l : BitVec 3) : Bool := l.toNat ≤ 4
/-- An L1 side code (R115): 3 is reserved. -/
def isSide (t : BitVec 2) : Bool := t != 3
/-- A destination format of `VCVT` or `SLICVT` (R204): 0x1C to 0x1F are refused. -/
def isCvtDest (f : BitVec 5) : Bool := f.toNat < 0x1C
/-- A code format that R208 lists. -/
def isQuant (f : BitVec 5) : Bool := (Machine.quantMax f).isSome
/-- `FMATCH` writes an even-odd pair of masks (R126). -/
def isEvenMask (m : BitVec 3) : Bool := !m.getLsbD 0
/-- Timeline and barrier words refuse scope 7 (R295, R297). -/
def isCorePkgScope (t : BitVec 3) : Bool := t != 7
/-- A port that `SHSTAGE.port` accepts (R289). -/
def isStagePort (p : BitVec 8) : Bool := p.toNat ≤ 11
/-- A port of `SHPORT` (R294): a vector port 0-7 or a fabric port slot 16-27. -/
def isPort (p : BitVec 8) : Bool := p.toNat ≤ 7 || (16 ≤ p.toNat && p.toNat ≤ 27)
/-- A vector port of `SHPORT.disc` (R294). -/
def isVectorPort (p : BitVec 8) : Bool := p.toNat ≤ 7

end WellFormed

open WellFormed in
/-- The instruction is a word of the opcode map (not an event), and every selecting field of it holds a listed value (R51). -/
def Instr.wellFormed : Instr → Bool
  | .add _ _ _ => true
  | .sub _ _ _ => true
  | .andR _ _ _ => true
  | .orR _ _ _ => true
  | .xorR _ _ _ => true
  | .sll _ _ _ => true
  | .srl _ _ _ => true
  | .sra _ _ _ => true
  | .slt _ _ _ => true
  | .sltu _ _ _ => true
  | .min _ _ _ => true
  | .max _ _ _ => true
  | .minu _ _ _ => true
  | .maxu _ _ _ => true
  | .andn _ _ _ => true
  | .absd _ _ _ => true
  | .mul _ _ _ => true
  | .hmul _ _ _ => true
  | .hmulu _ _ _ => true
  | .hmulsu _ _ _ => true
  | .div _ _ _ => true
  | .divu _ _ _ => true
  | .rem _ _ _ => true
  | .remu _ _ _ => true
  | .clz _ _ => true
  | .ctz _ _ => true
  | .popc _ _ => true
  | .bswap _ _ => true
  | .addw _ _ _ => true
  | .subw _ _ _ => true
  | .sllw _ _ _ => true
  | .srlw _ _ _ => true
  | .sraw _ _ _ => true
  | .mulw _ _ _ => true
  | .divw _ _ _ => true
  | .divuw _ _ _ => true
  | .remw _ _ _ => true
  | .remuw _ _ _ => true
  | .addi _ _ _ => true
  | .addiw _ _ _ => true
  | .andi _ _ _ => true
  | .ori _ _ _ => true
  | .xori _ _ _ => true
  | .slti _ _ _ => true
  | .sltiu _ _ _ => true
  | .slli _ _ _ => true
  | .srli _ _ _ => true
  | .srai _ _ _ => true
  | .slliw _ _ _ => true
  | .srliw _ _ _ => true
  | .sraiw _ _ _ => true
  | .lui _ _ => true
  | .auipc _ _ => true
  | .lb _ _ _ => true
  | .lh _ _ _ => true
  | .lw _ _ _ => true
  | .ld _ _ _ => true
  | .lbu _ _ _ => true
  | .lhu _ _ _ => true
  | .lwu _ _ _ => true
  | .sb _ _ _ => true
  | .sh _ _ _ => true
  | .sw _ _ _ => true
  | .sd _ _ _ => true
  | .fadd _ _ _ p => isFloatFmt p
  | .fsub _ _ _ p => isFloatFmt p
  | .fmul _ _ _ p => isFloatFmt p
  | .fdiv _ _ _ p => isFloatFmt p
  | .fsqrt _ _ p => isFloatFmt p
  | .fmin _ _ _ p => isFloatFmt p
  | .fmax _ _ _ p => isFloatFmt p
  | .feq _ _ _ p => isFloatFmt p
  | .flt _ _ _ p => isFloatFmt p
  | .fle _ _ _ p => isFloatFmt p
  | .fclass _ _ p => isFloatFmt p
  | .fsgnj _ _ _ p => isFloatFmt p
  | .fsgnjn _ _ _ p => isFloatFmt p
  | .fsgnjx _ _ _ p => isFloatFmt p
  | .fcvtif _ _ r _ p => isFloatFmt p && isRm r
  | .fcvtfi _ _ r _ p => isFloatFmt p && isRm r
  | .fcvtff _ _ r sf p => isFloatFmt p && isRm r && isFloatFmt sf
  | .fmadd _ _ _ p => isFloatFmt p
  | .fmsub _ _ _ p => isFloatFmt p
  | .fnmadd _ _ _ p => isFloatFmt p
  | .fnmsub _ _ _ p => isFloatFmt p
  | .beq _ _ _ => true
  | .bne _ _ _ => true
  | .blt _ _ _ => true
  | .bge _ _ _ => true
  | .bltu _ _ _ => true
  | .bgeu _ _ _ => true
  | .jal _ _ => true
  | .jalr _ _ _ => true
  | .brvAny _ _ => true
  | .brvNone _ _ => true
  | .brvAll _ _ => true
  | .brvResolve _ => false
  | .csrrd _ _ => true
  | .csrwr _ _ _ => true
  | .csrbs _ _ _ => true
  | .csrbc _ _ _ => true
  | .svc _ => true
  | .trap _ => true
  | .breakC _ => true
  | .rett => true
  | .wfi => true
  | .halt => true
  | .pause => true
  | .pauseExpiry _ => false
  | .setvl _ _ _ _ l f e => isBlk l && Machine.pairLegal e f
  | .setvlx _ _ _ => true
  | .setvlxKeep _ _ => true
  | .setvlGrant _ => false
  | .lpartWrite _ _ => false
  | .lpartStallEnd _ => false
  | .smmWrite _ => false
  | .foccWrite _ _ _ => false
  | .fcsrWrite _ _ => false
  | .vdirtyWrite _ _ => false
  | .registerWrite _ _ _ _ => false
  | .convoyStart _ => false
  | .vaddVv _ _ _ _ _ => true
  | .vsubVv _ _ _ _ _ => true
  | .vandVv _ _ _ _ _ => true
  | .vorVv _ _ _ _ _ => true
  | .vxorVv _ _ _ _ _ => true
  | .vsllVv _ _ _ _ _ => true
  | .vsrlVv _ _ _ _ _ => true
  | .vsraVv _ _ _ _ _ => true
  | .vminVv _ _ _ _ _ => true
  | .vmaxVv _ _ _ _ _ => true
  | .vminuVv _ _ _ _ _ => true
  | .vmaxuVv _ _ _ _ _ => true
  | .vmulVv _ _ _ _ _ => true
  | .vhmulVv _ _ _ _ _ => true
  | .vhmuluVv _ _ _ _ _ => true
  | .vhmulsuVv _ _ _ _ _ => true
  | .vdivVv _ _ _ _ _ => true
  | .vdivuVv _ _ _ _ _ => true
  | .vremVv _ _ _ _ _ => true
  | .vremuVv _ _ _ _ _ => true
  | .vclzVv _ _ _ _ => true
  | .vctzVv _ _ _ _ => true
  | .vpopcVv _ _ _ _ => true
  | .vaddVx _ _ _ _ _ => true
  | .vsubVx _ _ _ _ _ => true
  | .vandVx _ _ _ _ _ => true
  | .vorVx _ _ _ _ _ => true
  | .vxorVx _ _ _ _ _ => true
  | .vsllVx _ _ _ _ _ => true
  | .vsrlVx _ _ _ _ _ => true
  | .vsraVx _ _ _ _ _ => true
  | .vminVx _ _ _ _ _ => true
  | .vmaxVx _ _ _ _ _ => true
  | .vminuVx _ _ _ _ _ => true
  | .vmaxuVx _ _ _ _ _ => true
  | .vmulVx _ _ _ _ _ => true
  | .vhmulVx _ _ _ _ _ => true
  | .vhmuluVx _ _ _ _ _ => true
  | .vhmulsuVx _ _ _ _ _ => true
  | .vdivVx _ _ _ _ _ => true
  | .vdivuVx _ _ _ _ _ => true
  | .vremVx _ _ _ _ _ => true
  | .vremuVx _ _ _ _ _ => true
  | .vclzVx _ _ _ _ => true
  | .vctzVx _ _ _ _ => true
  | .vpopcVx _ _ _ _ => true
  | .vrsubVx _ _ _ _ _ => true
  | .vaddVi _ _ _ _ _ => true
  | .vandVi _ _ _ _ _ => true
  | .vorVi _ _ _ _ _ => true
  | .vxorVi _ _ _ _ _ => true
  | .vsllVi _ _ _ _ _ => true
  | .vsrlVi _ _ _ _ _ => true
  | .vsraVi _ _ _ _ _ => true
  | .vminVi _ _ _ _ _ => true
  | .vmaxVi _ _ _ _ _ => true
  | .vminuVi _ _ _ _ _ => true
  | .vmaxuVi _ _ _ _ _ => true
  | .vrsubVi _ _ _ _ _ => true
  | .vsadd _ _ _ _ _ => true
  | .vsaddu _ _ _ _ _ => true
  | .vssub _ _ _ _ _ => true
  | .vssubu _ _ _ _ _ => true
  | .vsmul _ _ _ _ _ => true
  | .vavg _ _ _ _ _ => true
  | .vavgu _ _ _ _ _ => true
  | .vfaddVv _ _ _ _ _ => true
  | .vfsubVv _ _ _ _ _ => true
  | .vfmulVv _ _ _ _ _ => true
  | .vfdivVv _ _ _ _ _ => true
  | .vfsqrtVv _ _ _ _ => true
  | .vfminVv _ _ _ _ _ => true
  | .vfmaxVv _ _ _ _ _ => true
  | .vfsgnjVv _ _ _ _ _ => true
  | .vfsgnjnVv _ _ _ _ _ => true
  | .vfsgnjxVv _ _ _ _ _ => true
  | .vfclassVv _ _ _ _ => true
  | .vfrsubVv _ _ _ _ _ => true
  | .vfrdivVv _ _ _ _ _ => true
  | .vfaddVx _ _ _ _ _ => true
  | .vfsubVx _ _ _ _ _ => true
  | .vfmulVx _ _ _ _ _ => true
  | .vfdivVx _ _ _ _ _ => true
  | .vfsqrtVx _ _ _ _ => true
  | .vfminVx _ _ _ _ _ => true
  | .vfmaxVx _ _ _ _ _ => true
  | .vfsgnjVx _ _ _ _ _ => true
  | .vfsgnjnVx _ _ _ _ _ => true
  | .vfsgnjxVx _ _ _ _ _ => true
  | .vfclassVx _ _ _ _ => true
  | .vfrsubVx _ _ _ _ _ => true
  | .vfrdivVx _ _ _ _ _ => true
  | .vfmadd _ _ _ _ _ => true
  | .vfmsub _ _ _ _ _ => true
  | .vfnmadd _ _ _ _ _ => true
  | .vfnmsub _ _ _ _ _ => true
  | .vmacc _ _ _ _ _ => true
  | .vnmsac _ _ _ _ _ => true
  | .vwmacc _ _ _ _ _ => true
  | .vwmaccu _ _ _ _ _ => true
  | .vwmaccsu _ _ _ _ _ => true
  | .vfwmacc _ _ _ _ _ => true
  | .vseq _ _ _ _ _ => true
  | .vsne _ _ _ _ _ => true
  | .vslt _ _ _ _ _ => true
  | .vsltu _ _ _ _ _ => true
  | .vsle _ _ _ _ _ => true
  | .vsleu _ _ _ _ _ => true
  | .vfeq _ _ _ _ _ => true
  | .vfne _ _ _ _ _ => true
  | .vflt _ _ _ _ _ => true
  | .vfle _ _ _ _ _ => true
  | .vford _ _ _ _ _ => true
  | .kand _ _ _ _ => true
  | .kor _ _ _ _ => true
  | .kxor _ _ _ _ => true
  | .kandn _ _ _ _ => true
  | .korn _ _ _ _ => true
  | .knot _ _ _ => true
  | .kmov _ _ _ => true
  | .kfromsmm _ _ => true
  | .ktosmm _ _ => true
  | .kfromv _ _ _ => true
  | .ktov _ _ _ => true
  | .vredsum _ _ _ _ _ => true
  | .vredmin _ _ _ _ _ => true
  | .vredmax _ _ _ _ _ => true
  | .vredminu _ _ _ _ _ => true
  | .vredmaxu _ _ _ _ _ => true
  | .vredand _ _ _ _ _ => true
  | .vredor _ _ _ _ _ => true
  | .vredxor _ _ _ _ _ => true
  | .vfredsum _ _ _ _ _ => true
  | .vfredmin _ _ _ _ _ => true
  | .vfredmax _ _ _ _ _ => true
  | .vredo _ _ _ _ _ => true
  | .vshuf _ _ _ _ _ => true
  | .vpack _ _ _ _ => true
  | .vrank _ _ _ _ => true
  | .vramp _ _ _ => true
  | .vrampS _ _ _ _ => true
  | .vbcast _ _ _ _ => true
  | .vtox _ _ _ _ => true
  | .xtov _ _ _ _ => true
  | .vshup _ _ _ _ _ => true
  | .vshdn _ _ _ _ _ => true
  | .kcount _ _ _ _ => true
  | .klead _ _ _ _ => true
  | .vld _ _ _ _ sf => isSide sf
  | .vldStr _ _ _ _ _ sf => isSide sf
  | .vldM _ _ _ sf => isSide sf
  | .vst _ _ _ _ sf => isSide sf
  | .vstStr _ _ _ _ _ sf => isSide sf
  | .vstM _ _ _ sf => isSide sf
  | .vcvt _ _ _ f _ r _ _ => isRm r && isCvtDest f
  | .slicvt _ _ _ f _ r _ _ => isRm r && isCvtDest f
  | .vquant _ _ _ f _ r => isRm r && isQuant f
  | .vdeq _ _ _ f _ r => isRm r && isQuant f
  | .sliopAdd _ _ _ _ _ => true
  | .sliopSub _ _ _ _ _ => true
  | .sliopMul _ _ _ _ _ => true
  | .sliopDiv _ _ _ _ _ => true
  | .slixAdd _ _ _ _ _ => true
  | .slixSub _ _ _ _ _ => true
  | .slixMul _ _ _ _ _ => true
  | .slixDiv _ _ _ _ _ => true
  | .slixRsub _ _ _ _ _ => true
  | .slixRdiv _ _ _ _ _ => true
  | .slifnExp _ _ _ _ => true
  | .slifnLog _ _ _ _ => true
  | .sliredSum _ _ _ _ _ => true
  | .sliredMax _ _ _ _ _ => true
  | .sliredMin _ _ _ _ _ => true
  | .vtransExp _ _ _ _ => true
  | .vtransExp2 _ _ _ _ => true
  | .vtransLog _ _ _ _ => true
  | .vtransLog2 _ _ _ _ => true
  | .vtransRcp _ _ _ _ => true
  | .vtransRsqrt _ _ _ _ => true
  | .vtransTanh _ _ _ _ => true
  | .fmatch _ m _ _ _ => isEvenMask m
  | .fisectMul _ _ _ _ => true
  | .fisectFirst _ _ _ _ => true
  | .fisectSecond _ _ _ _ => true
  | .fisectAdd _ _ _ _ => true
  | .fisectMin _ _ _ _ => true
  | .fisectMax _ _ _ _ => true
  | .funionFirst _ _ _ _ => true
  | .funionSecond _ _ _ _ => true
  | .funionAdd _ _ _ _ => true
  | .funionMin _ _ _ _ => true
  | .funionMax _ _ _ _ => true
  | .fmergeFirst _ _ _ _ => true
  | .fmergeLast _ _ _ _ => true
  | .fmergeAdd _ _ _ _ => true
  | .fmergeMin _ _ _ _ => true
  | .fmergeMax _ _ _ _ => true
  | .fmergeSortFirst _ _ _ => true
  | .fmergeSortLast _ _ _ => true
  | .fmergeSortAdd _ _ _ => true
  | .fmergeSortMin _ _ _ => true
  | .fmergeSortMax _ _ _ => true
  | .fcompact _ _ _ _ => true
  | .fexpand _ _ _ _ => true
  | .fwalkIdx _ _ _ _ => true
  | .fwalkVals _ _ _ _ => true
  | .fdot _ _ _ _ => true
  | .fdotIsect _ _ _ _ => true
  | .fmapMul _ _ _ _ _ => true
  | .fmapAdd _ _ _ _ _ => true
  | .fmapAbs _ _ _ _ => true
  | .fmapNeg _ _ _ _ => true
  | .fmapRelu _ _ _ _ => true
  | .fmov _ _ _ => true
  | .ftodense _ _ _ => true
  | .ffromdense _ _ _ _ => true
  | .foccr _ _ _ => true
  | .foccw _ _ _ => true
  | .fldstLd _ _ _ _ sf => isSide sf
  | .fldstSt _ _ _ sf => isSide sf
  | .vldx _ _ _ _ _ sf _ => isSide sf
  | .vstx _ _ _ _ _ sf _ => isSide sf
  | .vldff _ _ _ _ _ sf => isSide sf
  | .vgathb _ _ _ _ _ _ => true
  | .vscatbSt _ _ _ _ _ _ => true
  | .vscatbAdd _ _ _ _ _ _ => true
  | .vscatbFadd _ _ _ _ _ _ => true
  | .vscatbMax _ _ _ _ _ _ => true
  | .vlds _ _ _ _ => true
  | .vspadLd _ _ _ _ _ => true
  | .vspadSt _ _ _ _ _ => true
  | .vamoAdd _ _ _ _ _ _ _ => true
  | .vamoAnd _ _ _ _ _ _ _ => true
  | .vamoOr _ _ _ _ _ _ _ => true
  | .vamoXor _ _ _ _ _ _ _ => true
  | .vamoSwap _ _ _ _ _ _ _ => true
  | .vamoMin _ _ _ _ _ _ _ => true
  | .vamoMax _ _ _ _ _ _ _ => true
  | .vamoFadd32 _ _ _ _ _ _ _ => true
  | .vamoUmin _ _ _ _ _ _ _ => true
  | .vamoUmax _ _ _ _ _ _ _ => true
  | .vamoIncb _ _ _ _ _ _ _ => true
  | .vamoFmin32 _ _ _ _ _ _ _ => true
  | .vamoFmax32 _ _ _ _ _ _ _ => true
  | .vamoAdd32w _ _ _ _ _ _ => true
  | .vamoFadd16x2 _ _ _ _ _ _ _ => true
  | .vselMax _ _ _ _ => true
  | .vselMin _ _ _ _ => true
  | .vselMaxClr _ _ _ _ => true
  | .vselMinClr _ _ _ _ => true
  | .vexitBefore _ _ _ _ => true
  | .vexitIncl _ _ _ _ => true
  | .vexitOnly _ _ _ _ => true
  | .vscanIdx _ _ _ => true
  | .vscanAdd _ _ _ _ _ => true
  | .vscanAddx _ _ _ _ _ => true
  | .vscanMax _ _ _ _ _ => true
  | .vscanMaxu _ _ _ _ _ => true
  | .ltsplit _ => true
  | .ltjoin => true
  | .ltyield => true
  | .ltid _ => true
  | .splitRegionJoin _ => false
  | .mshape _ _ => true
  | .mmaSet _ _ _ _ => true
  | .mmaAcc _ _ _ _ => true
  | .mmaSetSp _ _ _ _ => true
  | .mmaAccSp _ _ _ _ => true
  | .mmaSetGrp _ _ _ _ => true
  | .mmaAccGrp _ _ _ _ => true
  | .mmagSet _ _ _ _ => true
  | .mmagAcc _ _ _ _ => true
  | .mmetaMeta _ _ _ => true
  | .mmetaIdx _ _ => true
  | .mmetaRows _ _ => true
  | .mtileZero _ _ => true
  | .mtileLd _ _ _ => true
  | .mtileSt _ _ _ => true
  | .mdrain _ _ _ _ => true
  | .matrixConvoyStart _ => false
  | .pset _ _ => true
  | .swset _ _ => true
  | .swsetClr _ => true
  | .swsetResume _ => false
  | .shstageSrc _ _ => true
  | .shstageDst _ _ => true
  | .shstageIdx _ _ => true
  | .shstageSbase _ _ => true
  | .shstageDbase _ _ => true
  | .shstageBar _ _ => true
  | .shstageSw _ _ => true
  | .shstagePort _ p => isStagePort p
  | .shstageRtn _ _ => true
  | .shstageClr _ => true
  | .shstageRstat _ => true
  | .shgoCopy _ _ _ => true
  | .shgoRows _ _ _ => true
  | .shgoStream _ _ _ => true
  | .shgoSend _ _ _ => true
  | .shgoBodkin _ _ _ => true
  | .shgoQueueRoom _ => false
  | .shstatTl _ _ => true
  | .shstatMiss _ _ => true
  | .shstatErr _ _ => true
  | .shstatAddr _ _ => true
  | .shstatLanded _ _ _ => true
  | .shstatNext _ _ => true
  | .shstatSw _ _ => true
  | .shstatPv _ _ => true
  | .shportStat p _ => isPort p
  | .shportDisc p => isVectorPort p
  | .waittl sf _ _ => isCorePkgScope sf
  | .sigtl sf _ _ => isCorePkgScope sf
  | .rdtl _ _ => true
  | .trytl sf _ _ _ => isCorePkgScope sf
  | .waittlPass _ => false
  | .binit sf _ _ => isCorePkgScope sf
  | .barrive sf _ _ _ => isCorePkgScope sf
  | .bwait sf _ _ => isCorePkgScope sf
  | .btry sf _ _ _ => isCorePkgScope sf
  | .bwaitPass _ => false
  | .lock _ _ => true
  | .unlock _ _ => true
  | .swatchWaitEnd _ => false
  | .fenceRel _ => true
  | .fenceAcq _ => true
  | .fenceFull _ => true
  | .amoAdd _ _ _ _ => true
  | .amoAnd _ _ _ _ => true
  | .amoOr _ _ _ _ => true
  | .amoXor _ _ _ _ => true
  | .amoSwap _ _ _ _ => true
  | .amoMin _ _ _ _ => true
  | .amoMax _ _ _ _ => true
  | .amoFadd32 _ _ _ _ => true
  | .amo2Umin _ _ _ _ => true
  | .amo2Umax _ _ _ _ => true
  | .amo2Cas _ _ _ _ => true
  | .amo2Incb _ _ _ _ => true
  | .amo2Fmin32 _ _ _ _ => true
  | .amo2Fmax32 _ _ _ _ => true
  | .amo2Add32w _ _ _ _ => true
  | .amo2Fadd16x2 _ _ _ _ => true
  | .ldacq _ _ _ _ => true
  | .strel _ _ _ _ => true
  | .launch _ _ => true
  | .launchId _ _ => true
  | .launchGate _ _ _ => true
  | .launchGateId _ _ _ => true
  | .lwait _ _ => true
  | .ltry _ _ => true
  | .lcancel _ _ => true
  | .lwaitComplete _ => false
  | .msend _ _ _ => true
  | .msendw _ _ _ => true
  | .mailboxEntryGrant _ _ => false
  | .messageDelivery _ => false
  | .mrecv _ _ => true
  | .mtry _ _ => true
  | .mrecvTake _ => false
  | .msigtl _ _ => true
  | .mwaittl _ _ => true
  | .mtrytl _ _ _ => true
  | .mamoAdd _ _ _ => true
  | .mamoAnd _ _ _ => true
  | .mamoOr _ _ _ => true
  | .mamoXor _ _ _ => true
  | .mamoSwap _ _ _ => true
  | .mamoMin _ _ _ => true
  | .mamoMax _ _ _ => true
  | .mamoFadd32 _ _ _ => true
  | .mamo2Umin _ _ _ => true
  | .mamo2Umax _ _ _ => true
  | .mamo2Cas _ _ _ => true
  | .mamo2Incb _ _ _ => true
  | .mamo2Fmin32 _ _ _ => true
  | .mamo2Fmax32 _ _ _ => true
  | .mamo2Add32w _ _ _ => true
  | .mamo2Fadd16x2 _ _ _ => true
  | .remoteOperation _ _ _ _ _ _ => false
  | .supvCarea _ => true
  | .supvCsave => true
  | .supvCrest => true
  | .crestGrant _ => false
  | .supvTack => true
  | .supvTset _ => true
  | .supvEack _ => true
  | .supvPack => true
  | .supvTlbinv _ _ => true
  | .supvQuiesce _ _ => true
  | .supvResume _ => true
  | .supvReplay _ _ => true
  | .supvRtn _ _ _ => true
  | .supvSvch _ _ => true
  | .seamRead _ _ _ => true
  | .seamHealth _ => true
  | .timerExpiry _ => false
  | .interruptEntry _ _ => false
  | .l1Eviction _ _ => false
  | .homeHoldRelease _ => false
  | .commandStart _ _ => false
  | .landedCountRise _ _ _ _ => false
  | .sourceReadDone _ _ _ => false
  | .transferSuspend _ _ _ => false
  | .transferPoison _ _ _ => false
  | .bodkinFault _ _ _ => false
  | .fabricSendArrival _ _ _ _ => false
  | .launchDispatch _ => false
  | .gateOpen _ => false
  | .priorityAging _ => false
  | .gangPlacement _ => false
  | .reservationPreempt _ => false
  | .gangRestore _ => false
  | .unitCancelStop _ => false
  | .channelReset _ _ => false
  | .clusterModeChange _ _ => false
  | .runtimeRetire _ => false
  | .deviceReset => false
  | .functionLevelReset => false
  | .hostBar2Access _ _ _ _ => false
  | .bar2baseWrite _ => false
  | .go _ => false
  | .hostCounterWrite _ _ => false
  | .doorbell _ => false
  | .load => false
  | .firmwareVerifyDone => false
  | .stage2Entry => false
  | .stage3Entry => false
  | .req => false
  | .attestationReportReady => false
  | .validWrite _ => false
  | .ccountWrite _ => false
  | .correctedError _ _ _ => false
  | .uncorrectedError _ _ _ => false
  | .telemetryUpdate => false
  | .throttleAlert _ => false
  | .tripNearWarning => false
  | .electricalTrip => false
  | .portStateChange _ _ => false
  | .blockLeaveService _ _ => false
  | .blockReturnService _ _ => false
  | .arm => false
  | .checkpointCut => false
  | .frameStream _ => false
  | .illegalInsn _ => false
  | .fetchFault _ _ => false
  | .wfiEarlyCompletion _ => false
  | .remoteAcknowledgement _ _ _ _ => false
  | .resizableBarSelect _ => false
  | .fabricSetUp _ _ _ => false

/-- Whether the row has an encoding: every row but the events. -/
def Instr.isWord : Instr → Bool
  | .add _ _ _ => true
  | .sub _ _ _ => true
  | .andR _ _ _ => true
  | .orR _ _ _ => true
  | .xorR _ _ _ => true
  | .sll _ _ _ => true
  | .srl _ _ _ => true
  | .sra _ _ _ => true
  | .slt _ _ _ => true
  | .sltu _ _ _ => true
  | .min _ _ _ => true
  | .max _ _ _ => true
  | .minu _ _ _ => true
  | .maxu _ _ _ => true
  | .andn _ _ _ => true
  | .absd _ _ _ => true
  | .mul _ _ _ => true
  | .hmul _ _ _ => true
  | .hmulu _ _ _ => true
  | .hmulsu _ _ _ => true
  | .div _ _ _ => true
  | .divu _ _ _ => true
  | .rem _ _ _ => true
  | .remu _ _ _ => true
  | .clz _ _ => true
  | .ctz _ _ => true
  | .popc _ _ => true
  | .bswap _ _ => true
  | .addw _ _ _ => true
  | .subw _ _ _ => true
  | .sllw _ _ _ => true
  | .srlw _ _ _ => true
  | .sraw _ _ _ => true
  | .mulw _ _ _ => true
  | .divw _ _ _ => true
  | .divuw _ _ _ => true
  | .remw _ _ _ => true
  | .remuw _ _ _ => true
  | .addi _ _ _ => true
  | .addiw _ _ _ => true
  | .andi _ _ _ => true
  | .ori _ _ _ => true
  | .xori _ _ _ => true
  | .slti _ _ _ => true
  | .sltiu _ _ _ => true
  | .slli _ _ _ => true
  | .srli _ _ _ => true
  | .srai _ _ _ => true
  | .slliw _ _ _ => true
  | .srliw _ _ _ => true
  | .sraiw _ _ _ => true
  | .lui _ _ => true
  | .auipc _ _ => true
  | .lb _ _ _ => true
  | .lh _ _ _ => true
  | .lw _ _ _ => true
  | .ld _ _ _ => true
  | .lbu _ _ _ => true
  | .lhu _ _ _ => true
  | .lwu _ _ _ => true
  | .sb _ _ _ => true
  | .sh _ _ _ => true
  | .sw _ _ _ => true
  | .sd _ _ _ => true
  | .fadd _ _ _ _ => true
  | .fsub _ _ _ _ => true
  | .fmul _ _ _ _ => true
  | .fdiv _ _ _ _ => true
  | .fsqrt _ _ _ => true
  | .fmin _ _ _ _ => true
  | .fmax _ _ _ _ => true
  | .feq _ _ _ _ => true
  | .flt _ _ _ _ => true
  | .fle _ _ _ _ => true
  | .fclass _ _ _ => true
  | .fsgnj _ _ _ _ => true
  | .fsgnjn _ _ _ _ => true
  | .fsgnjx _ _ _ _ => true
  | .fcvtif _ _ _ _ _ => true
  | .fcvtfi _ _ _ _ _ => true
  | .fcvtff _ _ _ _ _ => true
  | .fmadd _ _ _ _ => true
  | .fmsub _ _ _ _ => true
  | .fnmadd _ _ _ _ => true
  | .fnmsub _ _ _ _ => true
  | .beq _ _ _ => true
  | .bne _ _ _ => true
  | .blt _ _ _ => true
  | .bge _ _ _ => true
  | .bltu _ _ _ => true
  | .bgeu _ _ _ => true
  | .jal _ _ => true
  | .jalr _ _ _ => true
  | .brvAny _ _ => true
  | .brvNone _ _ => true
  | .brvAll _ _ => true
  | .brvResolve _ => false
  | .csrrd _ _ => true
  | .csrwr _ _ _ => true
  | .csrbs _ _ _ => true
  | .csrbc _ _ _ => true
  | .svc _ => true
  | .trap _ => true
  | .breakC _ => true
  | .rett => true
  | .wfi => true
  | .halt => true
  | .pause => true
  | .pauseExpiry _ => false
  | .setvl _ _ _ _ _ _ _ => true
  | .setvlx _ _ _ => true
  | .setvlxKeep _ _ => true
  | .setvlGrant _ => false
  | .lpartWrite _ _ => false
  | .lpartStallEnd _ => false
  | .smmWrite _ => false
  | .foccWrite _ _ _ => false
  | .fcsrWrite _ _ => false
  | .vdirtyWrite _ _ => false
  | .registerWrite _ _ _ _ => false
  | .convoyStart _ => false
  | .vaddVv _ _ _ _ _ => true
  | .vsubVv _ _ _ _ _ => true
  | .vandVv _ _ _ _ _ => true
  | .vorVv _ _ _ _ _ => true
  | .vxorVv _ _ _ _ _ => true
  | .vsllVv _ _ _ _ _ => true
  | .vsrlVv _ _ _ _ _ => true
  | .vsraVv _ _ _ _ _ => true
  | .vminVv _ _ _ _ _ => true
  | .vmaxVv _ _ _ _ _ => true
  | .vminuVv _ _ _ _ _ => true
  | .vmaxuVv _ _ _ _ _ => true
  | .vmulVv _ _ _ _ _ => true
  | .vhmulVv _ _ _ _ _ => true
  | .vhmuluVv _ _ _ _ _ => true
  | .vhmulsuVv _ _ _ _ _ => true
  | .vdivVv _ _ _ _ _ => true
  | .vdivuVv _ _ _ _ _ => true
  | .vremVv _ _ _ _ _ => true
  | .vremuVv _ _ _ _ _ => true
  | .vclzVv _ _ _ _ => true
  | .vctzVv _ _ _ _ => true
  | .vpopcVv _ _ _ _ => true
  | .vaddVx _ _ _ _ _ => true
  | .vsubVx _ _ _ _ _ => true
  | .vandVx _ _ _ _ _ => true
  | .vorVx _ _ _ _ _ => true
  | .vxorVx _ _ _ _ _ => true
  | .vsllVx _ _ _ _ _ => true
  | .vsrlVx _ _ _ _ _ => true
  | .vsraVx _ _ _ _ _ => true
  | .vminVx _ _ _ _ _ => true
  | .vmaxVx _ _ _ _ _ => true
  | .vminuVx _ _ _ _ _ => true
  | .vmaxuVx _ _ _ _ _ => true
  | .vmulVx _ _ _ _ _ => true
  | .vhmulVx _ _ _ _ _ => true
  | .vhmuluVx _ _ _ _ _ => true
  | .vhmulsuVx _ _ _ _ _ => true
  | .vdivVx _ _ _ _ _ => true
  | .vdivuVx _ _ _ _ _ => true
  | .vremVx _ _ _ _ _ => true
  | .vremuVx _ _ _ _ _ => true
  | .vclzVx _ _ _ _ => true
  | .vctzVx _ _ _ _ => true
  | .vpopcVx _ _ _ _ => true
  | .vrsubVx _ _ _ _ _ => true
  | .vaddVi _ _ _ _ _ => true
  | .vandVi _ _ _ _ _ => true
  | .vorVi _ _ _ _ _ => true
  | .vxorVi _ _ _ _ _ => true
  | .vsllVi _ _ _ _ _ => true
  | .vsrlVi _ _ _ _ _ => true
  | .vsraVi _ _ _ _ _ => true
  | .vminVi _ _ _ _ _ => true
  | .vmaxVi _ _ _ _ _ => true
  | .vminuVi _ _ _ _ _ => true
  | .vmaxuVi _ _ _ _ _ => true
  | .vrsubVi _ _ _ _ _ => true
  | .vsadd _ _ _ _ _ => true
  | .vsaddu _ _ _ _ _ => true
  | .vssub _ _ _ _ _ => true
  | .vssubu _ _ _ _ _ => true
  | .vsmul _ _ _ _ _ => true
  | .vavg _ _ _ _ _ => true
  | .vavgu _ _ _ _ _ => true
  | .vfaddVv _ _ _ _ _ => true
  | .vfsubVv _ _ _ _ _ => true
  | .vfmulVv _ _ _ _ _ => true
  | .vfdivVv _ _ _ _ _ => true
  | .vfsqrtVv _ _ _ _ => true
  | .vfminVv _ _ _ _ _ => true
  | .vfmaxVv _ _ _ _ _ => true
  | .vfsgnjVv _ _ _ _ _ => true
  | .vfsgnjnVv _ _ _ _ _ => true
  | .vfsgnjxVv _ _ _ _ _ => true
  | .vfclassVv _ _ _ _ => true
  | .vfrsubVv _ _ _ _ _ => true
  | .vfrdivVv _ _ _ _ _ => true
  | .vfaddVx _ _ _ _ _ => true
  | .vfsubVx _ _ _ _ _ => true
  | .vfmulVx _ _ _ _ _ => true
  | .vfdivVx _ _ _ _ _ => true
  | .vfsqrtVx _ _ _ _ => true
  | .vfminVx _ _ _ _ _ => true
  | .vfmaxVx _ _ _ _ _ => true
  | .vfsgnjVx _ _ _ _ _ => true
  | .vfsgnjnVx _ _ _ _ _ => true
  | .vfsgnjxVx _ _ _ _ _ => true
  | .vfclassVx _ _ _ _ => true
  | .vfrsubVx _ _ _ _ _ => true
  | .vfrdivVx _ _ _ _ _ => true
  | .vfmadd _ _ _ _ _ => true
  | .vfmsub _ _ _ _ _ => true
  | .vfnmadd _ _ _ _ _ => true
  | .vfnmsub _ _ _ _ _ => true
  | .vmacc _ _ _ _ _ => true
  | .vnmsac _ _ _ _ _ => true
  | .vwmacc _ _ _ _ _ => true
  | .vwmaccu _ _ _ _ _ => true
  | .vwmaccsu _ _ _ _ _ => true
  | .vfwmacc _ _ _ _ _ => true
  | .vseq _ _ _ _ _ => true
  | .vsne _ _ _ _ _ => true
  | .vslt _ _ _ _ _ => true
  | .vsltu _ _ _ _ _ => true
  | .vsle _ _ _ _ _ => true
  | .vsleu _ _ _ _ _ => true
  | .vfeq _ _ _ _ _ => true
  | .vfne _ _ _ _ _ => true
  | .vflt _ _ _ _ _ => true
  | .vfle _ _ _ _ _ => true
  | .vford _ _ _ _ _ => true
  | .kand _ _ _ _ => true
  | .kor _ _ _ _ => true
  | .kxor _ _ _ _ => true
  | .kandn _ _ _ _ => true
  | .korn _ _ _ _ => true
  | .knot _ _ _ => true
  | .kmov _ _ _ => true
  | .kfromsmm _ _ => true
  | .ktosmm _ _ => true
  | .kfromv _ _ _ => true
  | .ktov _ _ _ => true
  | .vredsum _ _ _ _ _ => true
  | .vredmin _ _ _ _ _ => true
  | .vredmax _ _ _ _ _ => true
  | .vredminu _ _ _ _ _ => true
  | .vredmaxu _ _ _ _ _ => true
  | .vredand _ _ _ _ _ => true
  | .vredor _ _ _ _ _ => true
  | .vredxor _ _ _ _ _ => true
  | .vfredsum _ _ _ _ _ => true
  | .vfredmin _ _ _ _ _ => true
  | .vfredmax _ _ _ _ _ => true
  | .vredo _ _ _ _ _ => true
  | .vshuf _ _ _ _ _ => true
  | .vpack _ _ _ _ => true
  | .vrank _ _ _ _ => true
  | .vramp _ _ _ => true
  | .vrampS _ _ _ _ => true
  | .vbcast _ _ _ _ => true
  | .vtox _ _ _ _ => true
  | .xtov _ _ _ _ => true
  | .vshup _ _ _ _ _ => true
  | .vshdn _ _ _ _ _ => true
  | .kcount _ _ _ _ => true
  | .klead _ _ _ _ => true
  | .vld _ _ _ _ _ => true
  | .vldStr _ _ _ _ _ _ => true
  | .vldM _ _ _ _ => true
  | .vst _ _ _ _ _ => true
  | .vstStr _ _ _ _ _ _ => true
  | .vstM _ _ _ _ => true
  | .vcvt _ _ _ _ _ _ _ _ => true
  | .slicvt _ _ _ _ _ _ _ _ => true
  | .vquant _ _ _ _ _ _ => true
  | .vdeq _ _ _ _ _ _ => true
  | .sliopAdd _ _ _ _ _ => true
  | .sliopSub _ _ _ _ _ => true
  | .sliopMul _ _ _ _ _ => true
  | .sliopDiv _ _ _ _ _ => true
  | .slixAdd _ _ _ _ _ => true
  | .slixSub _ _ _ _ _ => true
  | .slixMul _ _ _ _ _ => true
  | .slixDiv _ _ _ _ _ => true
  | .slixRsub _ _ _ _ _ => true
  | .slixRdiv _ _ _ _ _ => true
  | .slifnExp _ _ _ _ => true
  | .slifnLog _ _ _ _ => true
  | .sliredSum _ _ _ _ _ => true
  | .sliredMax _ _ _ _ _ => true
  | .sliredMin _ _ _ _ _ => true
  | .vtransExp _ _ _ _ => true
  | .vtransExp2 _ _ _ _ => true
  | .vtransLog _ _ _ _ => true
  | .vtransLog2 _ _ _ _ => true
  | .vtransRcp _ _ _ _ => true
  | .vtransRsqrt _ _ _ _ => true
  | .vtransTanh _ _ _ _ => true
  | .fmatch _ _ _ _ _ => true
  | .fisectMul _ _ _ _ => true
  | .fisectFirst _ _ _ _ => true
  | .fisectSecond _ _ _ _ => true
  | .fisectAdd _ _ _ _ => true
  | .fisectMin _ _ _ _ => true
  | .fisectMax _ _ _ _ => true
  | .funionFirst _ _ _ _ => true
  | .funionSecond _ _ _ _ => true
  | .funionAdd _ _ _ _ => true
  | .funionMin _ _ _ _ => true
  | .funionMax _ _ _ _ => true
  | .fmergeFirst _ _ _ _ => true
  | .fmergeLast _ _ _ _ => true
  | .fmergeAdd _ _ _ _ => true
  | .fmergeMin _ _ _ _ => true
  | .fmergeMax _ _ _ _ => true
  | .fmergeSortFirst _ _ _ => true
  | .fmergeSortLast _ _ _ => true
  | .fmergeSortAdd _ _ _ => true
  | .fmergeSortMin _ _ _ => true
  | .fmergeSortMax _ _ _ => true
  | .fcompact _ _ _ _ => true
  | .fexpand _ _ _ _ => true
  | .fwalkIdx _ _ _ _ => true
  | .fwalkVals _ _ _ _ => true
  | .fdot _ _ _ _ => true
  | .fdotIsect _ _ _ _ => true
  | .fmapMul _ _ _ _ _ => true
  | .fmapAdd _ _ _ _ _ => true
  | .fmapAbs _ _ _ _ => true
  | .fmapNeg _ _ _ _ => true
  | .fmapRelu _ _ _ _ => true
  | .fmov _ _ _ => true
  | .ftodense _ _ _ => true
  | .ffromdense _ _ _ _ => true
  | .foccr _ _ _ => true
  | .foccw _ _ _ => true
  | .fldstLd _ _ _ _ _ => true
  | .fldstSt _ _ _ _ => true
  | .vldx _ _ _ _ _ _ _ => true
  | .vstx _ _ _ _ _ _ _ => true
  | .vldff _ _ _ _ _ _ => true
  | .vgathb _ _ _ _ _ _ => true
  | .vscatbSt _ _ _ _ _ _ => true
  | .vscatbAdd _ _ _ _ _ _ => true
  | .vscatbFadd _ _ _ _ _ _ => true
  | .vscatbMax _ _ _ _ _ _ => true
  | .vlds _ _ _ _ => true
  | .vspadLd _ _ _ _ _ => true
  | .vspadSt _ _ _ _ _ => true
  | .vamoAdd _ _ _ _ _ _ _ => true
  | .vamoAnd _ _ _ _ _ _ _ => true
  | .vamoOr _ _ _ _ _ _ _ => true
  | .vamoXor _ _ _ _ _ _ _ => true
  | .vamoSwap _ _ _ _ _ _ _ => true
  | .vamoMin _ _ _ _ _ _ _ => true
  | .vamoMax _ _ _ _ _ _ _ => true
  | .vamoFadd32 _ _ _ _ _ _ _ => true
  | .vamoUmin _ _ _ _ _ _ _ => true
  | .vamoUmax _ _ _ _ _ _ _ => true
  | .vamoIncb _ _ _ _ _ _ _ => true
  | .vamoFmin32 _ _ _ _ _ _ _ => true
  | .vamoFmax32 _ _ _ _ _ _ _ => true
  | .vamoAdd32w _ _ _ _ _ _ => true
  | .vamoFadd16x2 _ _ _ _ _ _ _ => true
  | .vselMax _ _ _ _ => true
  | .vselMin _ _ _ _ => true
  | .vselMaxClr _ _ _ _ => true
  | .vselMinClr _ _ _ _ => true
  | .vexitBefore _ _ _ _ => true
  | .vexitIncl _ _ _ _ => true
  | .vexitOnly _ _ _ _ => true
  | .vscanIdx _ _ _ => true
  | .vscanAdd _ _ _ _ _ => true
  | .vscanAddx _ _ _ _ _ => true
  | .vscanMax _ _ _ _ _ => true
  | .vscanMaxu _ _ _ _ _ => true
  | .ltsplit _ => true
  | .ltjoin => true
  | .ltyield => true
  | .ltid _ => true
  | .splitRegionJoin _ => false
  | .mshape _ _ => true
  | .mmaSet _ _ _ _ => true
  | .mmaAcc _ _ _ _ => true
  | .mmaSetSp _ _ _ _ => true
  | .mmaAccSp _ _ _ _ => true
  | .mmaSetGrp _ _ _ _ => true
  | .mmaAccGrp _ _ _ _ => true
  | .mmagSet _ _ _ _ => true
  | .mmagAcc _ _ _ _ => true
  | .mmetaMeta _ _ _ => true
  | .mmetaIdx _ _ => true
  | .mmetaRows _ _ => true
  | .mtileZero _ _ => true
  | .mtileLd _ _ _ => true
  | .mtileSt _ _ _ => true
  | .mdrain _ _ _ _ => true
  | .matrixConvoyStart _ => false
  | .pset _ _ => true
  | .swset _ _ => true
  | .swsetClr _ => true
  | .swsetResume _ => false
  | .shstageSrc _ _ => true
  | .shstageDst _ _ => true
  | .shstageIdx _ _ => true
  | .shstageSbase _ _ => true
  | .shstageDbase _ _ => true
  | .shstageBar _ _ => true
  | .shstageSw _ _ => true
  | .shstagePort _ _ => true
  | .shstageRtn _ _ => true
  | .shstageClr _ => true
  | .shstageRstat _ => true
  | .shgoCopy _ _ _ => true
  | .shgoRows _ _ _ => true
  | .shgoStream _ _ _ => true
  | .shgoSend _ _ _ => true
  | .shgoBodkin _ _ _ => true
  | .shgoQueueRoom _ => false
  | .shstatTl _ _ => true
  | .shstatMiss _ _ => true
  | .shstatErr _ _ => true
  | .shstatAddr _ _ => true
  | .shstatLanded _ _ _ => true
  | .shstatNext _ _ => true
  | .shstatSw _ _ => true
  | .shstatPv _ _ => true
  | .shportStat _ _ => true
  | .shportDisc _ => true
  | .waittl _ _ _ => true
  | .sigtl _ _ _ => true
  | .rdtl _ _ => true
  | .trytl _ _ _ _ => true
  | .waittlPass _ => false
  | .binit _ _ _ => true
  | .barrive _ _ _ _ => true
  | .bwait _ _ _ => true
  | .btry _ _ _ _ => true
  | .bwaitPass _ => false
  | .lock _ _ => true
  | .unlock _ _ => true
  | .swatchWaitEnd _ => false
  | .fenceRel _ => true
  | .fenceAcq _ => true
  | .fenceFull _ => true
  | .amoAdd _ _ _ _ => true
  | .amoAnd _ _ _ _ => true
  | .amoOr _ _ _ _ => true
  | .amoXor _ _ _ _ => true
  | .amoSwap _ _ _ _ => true
  | .amoMin _ _ _ _ => true
  | .amoMax _ _ _ _ => true
  | .amoFadd32 _ _ _ _ => true
  | .amo2Umin _ _ _ _ => true
  | .amo2Umax _ _ _ _ => true
  | .amo2Cas _ _ _ _ => true
  | .amo2Incb _ _ _ _ => true
  | .amo2Fmin32 _ _ _ _ => true
  | .amo2Fmax32 _ _ _ _ => true
  | .amo2Add32w _ _ _ _ => true
  | .amo2Fadd16x2 _ _ _ _ => true
  | .ldacq _ _ _ _ => true
  | .strel _ _ _ _ => true
  | .launch _ _ => true
  | .launchId _ _ => true
  | .launchGate _ _ _ => true
  | .launchGateId _ _ _ => true
  | .lwait _ _ => true
  | .ltry _ _ => true
  | .lcancel _ _ => true
  | .lwaitComplete _ => false
  | .msend _ _ _ => true
  | .msendw _ _ _ => true
  | .mailboxEntryGrant _ _ => false
  | .messageDelivery _ => false
  | .mrecv _ _ => true
  | .mtry _ _ => true
  | .mrecvTake _ => false
  | .msigtl _ _ => true
  | .mwaittl _ _ => true
  | .mtrytl _ _ _ => true
  | .mamoAdd _ _ _ => true
  | .mamoAnd _ _ _ => true
  | .mamoOr _ _ _ => true
  | .mamoXor _ _ _ => true
  | .mamoSwap _ _ _ => true
  | .mamoMin _ _ _ => true
  | .mamoMax _ _ _ => true
  | .mamoFadd32 _ _ _ => true
  | .mamo2Umin _ _ _ => true
  | .mamo2Umax _ _ _ => true
  | .mamo2Cas _ _ _ => true
  | .mamo2Incb _ _ _ => true
  | .mamo2Fmin32 _ _ _ => true
  | .mamo2Fmax32 _ _ _ => true
  | .mamo2Add32w _ _ _ => true
  | .mamo2Fadd16x2 _ _ _ => true
  | .remoteOperation _ _ _ _ _ _ => false
  | .supvCarea _ => true
  | .supvCsave => true
  | .supvCrest => true
  | .crestGrant _ => false
  | .supvTack => true
  | .supvTset _ => true
  | .supvEack _ => true
  | .supvPack => true
  | .supvTlbinv _ _ => true
  | .supvQuiesce _ _ => true
  | .supvResume _ => true
  | .supvReplay _ _ => true
  | .supvRtn _ _ _ => true
  | .supvSvch _ _ => true
  | .seamRead _ _ _ => true
  | .seamHealth _ => true
  | .timerExpiry _ => false
  | .interruptEntry _ _ => false
  | .l1Eviction _ _ => false
  | .homeHoldRelease _ => false
  | .commandStart _ _ => false
  | .landedCountRise _ _ _ _ => false
  | .sourceReadDone _ _ _ => false
  | .transferSuspend _ _ _ => false
  | .transferPoison _ _ _ => false
  | .bodkinFault _ _ _ => false
  | .fabricSendArrival _ _ _ _ => false
  | .launchDispatch _ => false
  | .gateOpen _ => false
  | .priorityAging _ => false
  | .gangPlacement _ => false
  | .reservationPreempt _ => false
  | .gangRestore _ => false
  | .unitCancelStop _ => false
  | .channelReset _ _ => false
  | .clusterModeChange _ _ => false
  | .runtimeRetire _ => false
  | .deviceReset => false
  | .functionLevelReset => false
  | .hostBar2Access _ _ _ _ => false
  | .bar2baseWrite _ => false
  | .go _ => false
  | .hostCounterWrite _ _ => false
  | .doorbell _ => false
  | .load => false
  | .firmwareVerifyDone => false
  | .stage2Entry => false
  | .stage3Entry => false
  | .req => false
  | .attestationReportReady => false
  | .validWrite _ => false
  | .ccountWrite _ => false
  | .correctedError _ _ _ => false
  | .uncorrectedError _ _ _ => false
  | .telemetryUpdate => false
  | .throttleAlert _ => false
  | .tripNearWarning => false
  | .electricalTrip => false
  | .portStateChange _ _ => false
  | .blockLeaveService _ _ => false
  | .blockReturnService _ _ => false
  | .arm => false
  | .checkpointCut => false
  | .frameStream _ => false
  | .illegalInsn _ => false
  | .fetchFault _ _ => false
  | .wfiEarlyCompletion _ => false
  | .remoteAcknowledgement _ _ _ _ => false
  | .resizableBarSelect _ => false
  | .fabricSetUp _ _ _ => false

end Sys2Proof
end

