-- ==== Sys2Proof/Decode.lean ====
section
/-!
DEFINITION. The decoder, from any 32 bits to an instruction or a named refusal, and after it the encoder,
both from the encoding tables of 03_encoding_opcode_map_assembly.md (R44-R52) and of the chapters it lists.
-/

namespace Sys2Proof

/-- Why a word is refused (R51): each refusal raises `ILLEGAL_INSN` with the word in `TVAL` (R52). -/
inductive DecodeError where
  /-- Bits [30:24] name one of the 32 unassigned majors. -/
  | unassignedMajor
  /-- A selecting field holds a value its chapter does not list, a reserved field is nonzero, or C = 1 on a scalar-side word. -/
  | unlistedForm
  /-- A rounding mode, block length, format, side, port, scope or width field holds a refused value. -/
  | refusedField
deriving DecidableEq, Repr

/-- Bits [lo + n - 1 : lo] of a word (R5). -/
abbrev seg (w : Insn) (lo n : Nat) : BitVec n := w.extractLsb' lo n


/-- Major 0x01. -/
noncomputable def decode01 (w : Insn) : Option Instr :=
  if seg w 0 6 = 0 ∧ seg w 31 1 = 0 then some (.add (seg w 18 6) (seg w 12 6) (seg w 6 6))
  else if seg w 0 6 = 1 ∧ seg w 31 1 = 0 then some (.sub (seg w 18 6) (seg w 12 6) (seg w 6 6))
  else if seg w 0 6 = 2 ∧ seg w 31 1 = 0 then some (.andR (seg w 18 6) (seg w 12 6) (seg w 6 6))
  else if seg w 0 6 = 3 ∧ seg w 31 1 = 0 then some (.orR (seg w 18 6) (seg w 12 6) (seg w 6 6))
  else if seg w 0 6 = 4 ∧ seg w 31 1 = 0 then some (.xorR (seg w 18 6) (seg w 12 6) (seg w 6 6))
  else if seg w 0 6 = 5 ∧ seg w 31 1 = 0 then some (.sll (seg w 18 6) (seg w 12 6) (seg w 6 6))
  else if seg w 0 6 = 6 ∧ seg w 31 1 = 0 then some (.srl (seg w 18 6) (seg w 12 6) (seg w 6 6))
  else if seg w 0 6 = 7 ∧ seg w 31 1 = 0 then some (.sra (seg w 18 6) (seg w 12 6) (seg w 6 6))
  else if seg w 0 6 = 8 ∧ seg w 31 1 = 0 then some (.slt (seg w 18 6) (seg w 12 6) (seg w 6 6))
  else if seg w 0 6 = 9 ∧ seg w 31 1 = 0 then some (.sltu (seg w 18 6) (seg w 12 6) (seg w 6 6))
  else if seg w 0 6 = 10 ∧ seg w 31 1 = 0 then some (.min (seg w 18 6) (seg w 12 6) (seg w 6 6))
  else if seg w 0 6 = 11 ∧ seg w 31 1 = 0 then some (.max (seg w 18 6) (seg w 12 6) (seg w 6 6))
  else if seg w 0 6 = 12 ∧ seg w 31 1 = 0 then some (.minu (seg w 18 6) (seg w 12 6) (seg w 6 6))
  else if seg w 0 6 = 13 ∧ seg w 31 1 = 0 then some (.maxu (seg w 18 6) (seg w 12 6) (seg w 6 6))
  else if seg w 0 6 = 14 ∧ seg w 31 1 = 0 then some (.andn (seg w 18 6) (seg w 12 6) (seg w 6 6))
  else if seg w 0 6 = 15 ∧ seg w 31 1 = 0 then some (.absd (seg w 18 6) (seg w 12 6) (seg w 6 6))
  else if seg w 0 6 = 16 ∧ seg w 31 1 = 0 then some (.mul (seg w 18 6) (seg w 12 6) (seg w 6 6))
  else if seg w 0 6 = 17 ∧ seg w 31 1 = 0 then some (.hmul (seg w 18 6) (seg w 12 6) (seg w 6 6))
  else if seg w 0 6 = 18 ∧ seg w 31 1 = 0 then some (.hmulu (seg w 18 6) (seg w 12 6) (seg w 6 6))
  else if seg w 0 6 = 19 ∧ seg w 31 1 = 0 then some (.hmulsu (seg w 18 6) (seg w 12 6) (seg w 6 6))
  else if seg w 0 6 = 20 ∧ seg w 31 1 = 0 then some (.div (seg w 18 6) (seg w 12 6) (seg w 6 6))
  else if seg w 0 6 = 21 ∧ seg w 31 1 = 0 then some (.divu (seg w 18 6) (seg w 12 6) (seg w 6 6))
  else if seg w 0 6 = 22 ∧ seg w 31 1 = 0 then some (.rem (seg w 18 6) (seg w 12 6) (seg w 6 6))
  else if seg w 0 6 = 23 ∧ seg w 31 1 = 0 then some (.remu (seg w 18 6) (seg w 12 6) (seg w 6 6))
  else if seg w 0 6 = 24 ∧ seg w 6 6 = 0 ∧ seg w 31 1 = 0 then some (.clz (seg w 18 6) (seg w 12 6))
  else if seg w 0 6 = 25 ∧ seg w 6 6 = 0 ∧ seg w 31 1 = 0 then some (.ctz (seg w 18 6) (seg w 12 6))
  else if seg w 0 6 = 26 ∧ seg w 6 6 = 0 ∧ seg w 31 1 = 0 then some (.popc (seg w 18 6) (seg w 12 6))
  else if seg w 0 6 = 27 ∧ seg w 6 6 = 0 ∧ seg w 31 1 = 0 then some (.bswap (seg w 18 6) (seg w 12 6))
  else none

/-- Major 0x02. -/
noncomputable def decode02 (w : Insn) : Option Instr :=
  if seg w 0 6 = 0 ∧ seg w 31 1 = 0 then some (.addw (seg w 18 6) (seg w 12 6) (seg w 6 6))
  else if seg w 0 6 = 1 ∧ seg w 31 1 = 0 then some (.subw (seg w 18 6) (seg w 12 6) (seg w 6 6))
  else if seg w 0 6 = 5 ∧ seg w 31 1 = 0 then some (.sllw (seg w 18 6) (seg w 12 6) (seg w 6 6))
  else if seg w 0 6 = 6 ∧ seg w 31 1 = 0 then some (.srlw (seg w 18 6) (seg w 12 6) (seg w 6 6))
  else if seg w 0 6 = 7 ∧ seg w 31 1 = 0 then some (.sraw (seg w 18 6) (seg w 12 6) (seg w 6 6))
  else if seg w 0 6 = 16 ∧ seg w 31 1 = 0 then some (.mulw (seg w 18 6) (seg w 12 6) (seg w 6 6))
  else if seg w 0 6 = 20 ∧ seg w 31 1 = 0 then some (.divw (seg w 18 6) (seg w 12 6) (seg w 6 6))
  else if seg w 0 6 = 21 ∧ seg w 31 1 = 0 then some (.divuw (seg w 18 6) (seg w 12 6) (seg w 6 6))
  else if seg w 0 6 = 22 ∧ seg w 31 1 = 0 then some (.remw (seg w 18 6) (seg w 12 6) (seg w 6 6))
  else if seg w 0 6 = 23 ∧ seg w 31 1 = 0 then some (.remuw (seg w 18 6) (seg w 12 6) (seg w 6 6))
  else none

/-- Major 0x03. -/
noncomputable def decode03 (w : Insn) : Option Instr :=
  if seg w 31 1 = 0 then some (.addi (seg w 18 6) (seg w 12 6) (seg w 0 12))
  else none

/-- Major 0x04. -/
noncomputable def decode04 (w : Insn) : Option Instr :=
  if seg w 31 1 = 0 then some (.addiw (seg w 18 6) (seg w 12 6) (seg w 0 12))
  else none

/-- Major 0x05. -/
noncomputable def decode05 (w : Insn) : Option Instr :=
  if seg w 31 1 = 0 then some (.andi (seg w 18 6) (seg w 12 6) (seg w 0 12))
  else none

/-- Major 0x06. -/
noncomputable def decode06 (w : Insn) : Option Instr :=
  if seg w 31 1 = 0 then some (.ori (seg w 18 6) (seg w 12 6) (seg w 0 12))
  else none

/-- Major 0x07. -/
noncomputable def decode07 (w : Insn) : Option Instr :=
  if seg w 31 1 = 0 then some (.xori (seg w 18 6) (seg w 12 6) (seg w 0 12))
  else none

/-- Major 0x09. -/
noncomputable def decode09 (w : Insn) : Option Instr :=
  if seg w 31 1 = 0 then some (.slti (seg w 18 6) (seg w 12 6) (seg w 0 12))
  else none

/-- Major 0x0A. -/
noncomputable def decode0A (w : Insn) : Option Instr :=
  if seg w 31 1 = 0 then some (.sltiu (seg w 18 6) (seg w 12 6) (seg w 0 12))
  else none

/-- Major 0x08. -/
noncomputable def decode08 (w : Insn) : Option Instr :=
  if seg w 6 6 = 0 ∧ seg w 31 1 = 0 then some (.slli (seg w 18 6) (seg w 12 6) (seg w 0 6))
  else if seg w 6 6 = 8 ∧ seg w 31 1 = 0 then some (.srli (seg w 18 6) (seg w 12 6) (seg w 0 6))
  else if seg w 6 6 = 16 ∧ seg w 31 1 = 0 then some (.srai (seg w 18 6) (seg w 12 6) (seg w 0 6))
  else if seg w 5 1 = 0 ∧ seg w 6 6 = 32 ∧ seg w 31 1 = 0 then some (.slliw (seg w 18 6) (seg w 12 6) (seg w 0 5))
  else if seg w 5 1 = 0 ∧ seg w 6 6 = 40 ∧ seg w 31 1 = 0 then some (.srliw (seg w 18 6) (seg w 12 6) (seg w 0 5))
  else if seg w 5 1 = 0 ∧ seg w 6 6 = 48 ∧ seg w 31 1 = 0 then some (.sraiw (seg w 18 6) (seg w 12 6) (seg w 0 5))
  else none

/-- Major 0x0B. -/
noncomputable def decode0B (w : Insn) : Option Instr :=
  if seg w 31 1 = 0 then some (.lui (seg w 18 6) (seg w 0 18))
  else none

/-- Major 0x0C. -/
noncomputable def decode0C (w : Insn) : Option Instr :=
  if seg w 31 1 = 0 then some (.auipc (seg w 18 6) (seg w 0 18))
  else none

/-- Major 0x0D. -/
noncomputable def decode0D (w : Insn) : Option Instr :=
  if seg w 9 3 = 0 ∧ seg w 31 1 = 0 then some (.lb (seg w 18 6) (seg w 12 6) (seg w 0 9))
  else if seg w 9 3 = 1 ∧ seg w 31 1 = 0 then some (.lh (seg w 18 6) (seg w 12 6) (seg w 0 9))
  else if seg w 9 3 = 2 ∧ seg w 31 1 = 0 then some (.lw (seg w 18 6) (seg w 12 6) (seg w 0 9))
  else if seg w 9 3 = 3 ∧ seg w 31 1 = 0 then some (.ld (seg w 18 6) (seg w 12 6) (seg w 0 9))
  else if seg w 9 3 = 4 ∧ seg w 31 1 = 0 then some (.lbu (seg w 18 6) (seg w 12 6) (seg w 0 9))
  else if seg w 9 3 = 5 ∧ seg w 31 1 = 0 then some (.lhu (seg w 18 6) (seg w 12 6) (seg w 0 9))
  else if seg w 9 3 = 6 ∧ seg w 31 1 = 0 then some (.lwu (seg w 18 6) (seg w 12 6) (seg w 0 9))
  else none

/-- Major 0x0E. -/
noncomputable def decode0E (w : Insn) : Option Instr :=
  if seg w 9 3 = 0 ∧ seg w 31 1 = 0 then some (.sb (seg w 18 6) (seg w 12 6) (seg w 0 9))
  else if seg w 9 3 = 1 ∧ seg w 31 1 = 0 then some (.sh (seg w 18 6) (seg w 12 6) (seg w 0 9))
  else if seg w 9 3 = 2 ∧ seg w 31 1 = 0 then some (.sw (seg w 18 6) (seg w 12 6) (seg w 0 9))
  else if seg w 9 3 = 3 ∧ seg w 31 1 = 0 then some (.sd (seg w 18 6) (seg w 12 6) (seg w 0 9))
  else none

/-- Major 0x0F. -/
noncomputable def decode0F (w : Insn) : Option Instr :=
  if seg w 0 4 = 0 ∧ seg w 31 1 = 0 then some (.fadd (seg w 18 6) (seg w 12 6) (seg w 6 6) (seg w 4 2))
  else if seg w 0 4 = 1 ∧ seg w 31 1 = 0 then some (.fsub (seg w 18 6) (seg w 12 6) (seg w 6 6) (seg w 4 2))
  else if seg w 0 4 = 2 ∧ seg w 31 1 = 0 then some (.fmul (seg w 18 6) (seg w 12 6) (seg w 6 6) (seg w 4 2))
  else if seg w 0 4 = 3 ∧ seg w 31 1 = 0 then some (.fdiv (seg w 18 6) (seg w 12 6) (seg w 6 6) (seg w 4 2))
  else if seg w 0 4 = 4 ∧ seg w 6 1 = 0 ∧ seg w 7 1 = 0 ∧ seg w 8 1 = 0 ∧ seg w 9 3 = 0 ∧ seg w 31 1 = 0 then some (.fsqrt (seg w 18 6) (seg w 12 6) (seg w 4 2))
  else if seg w 0 4 = 5 ∧ seg w 31 1 = 0 then some (.fmin (seg w 18 6) (seg w 12 6) (seg w 6 6) (seg w 4 2))
  else if seg w 0 4 = 6 ∧ seg w 31 1 = 0 then some (.fmax (seg w 18 6) (seg w 12 6) (seg w 6 6) (seg w 4 2))
  else if seg w 0 4 = 7 ∧ seg w 31 1 = 0 then some (.feq (seg w 18 6) (seg w 12 6) (seg w 6 6) (seg w 4 2))
  else if seg w 0 4 = 8 ∧ seg w 31 1 = 0 then some (.flt (seg w 18 6) (seg w 12 6) (seg w 6 6) (seg w 4 2))
  else if seg w 0 4 = 9 ∧ seg w 31 1 = 0 then some (.fle (seg w 18 6) (seg w 12 6) (seg w 6 6) (seg w 4 2))
  else if seg w 0 4 = 10 ∧ seg w 6 1 = 0 ∧ seg w 7 1 = 0 ∧ seg w 8 1 = 0 ∧ seg w 9 3 = 0 ∧ seg w 31 1 = 0 then some (.fclass (seg w 18 6) (seg w 12 6) (seg w 4 2))
  else if seg w 0 4 = 11 ∧ seg w 31 1 = 0 then some (.fsgnj (seg w 18 6) (seg w 12 6) (seg w 6 6) (seg w 4 2))
  else if seg w 0 4 = 12 ∧ seg w 31 1 = 0 then some (.fsgnjn (seg w 18 6) (seg w 12 6) (seg w 6 6) (seg w 4 2))
  else if seg w 0 4 = 13 ∧ seg w 31 1 = 0 then some (.fsgnjx (seg w 18 6) (seg w 12 6) (seg w 6 6) (seg w 4 2))
  else if seg w 0 4 = 14 ∧ seg w 8 1 = 0 ∧ seg w 31 1 = 0 then some (.fcvtif (seg w 18 6) (seg w 12 6) (seg w 9 3) (seg w 6 2) (seg w 4 2))
  else if seg w 0 4 = 14 ∧ seg w 8 1 = 1 ∧ seg w 31 1 = 0 then some (.fcvtfi (seg w 18 6) (seg w 12 6) (seg w 9 3) (seg w 6 2) (seg w 4 2))
  else if seg w 0 4 = 15 ∧ seg w 6 1 = 0 ∧ seg w 31 1 = 0 then some (.fcvtff (seg w 18 6) (seg w 12 6) (seg w 9 3) (seg w 7 2) (seg w 4 2))
  else none

/-- Major 0x10. -/
noncomputable def decode10 (w : Insn) : Option Instr :=
  if seg w 0 4 = 0 ∧ seg w 31 1 = 0 then some (.fmadd (seg w 18 6) (seg w 12 6) (seg w 6 6) (seg w 4 2))
  else if seg w 0 4 = 4 ∧ seg w 31 1 = 0 then some (.fmsub (seg w 18 6) (seg w 12 6) (seg w 6 6) (seg w 4 2))
  else if seg w 0 4 = 8 ∧ seg w 31 1 = 0 then some (.fnmadd (seg w 18 6) (seg w 12 6) (seg w 6 6) (seg w 4 2))
  else if seg w 0 4 = 12 ∧ seg w 31 1 = 0 then some (.fnmsub (seg w 18 6) (seg w 12 6) (seg w 6 6) (seg w 4 2))
  else none

/-- Major 0x11. -/
noncomputable def decode11 (w : Insn) : Option Instr :=
  if seg w 31 1 = 0 then some (.beq (seg w 18 6) (seg w 12 6) (seg w 0 12))
  else none

/-- Major 0x12. -/
noncomputable def decode12 (w : Insn) : Option Instr :=
  if seg w 31 1 = 0 then some (.bne (seg w 18 6) (seg w 12 6) (seg w 0 12))
  else none

/-- Major 0x13. -/
noncomputable def decode13 (w : Insn) : Option Instr :=
  if seg w 31 1 = 0 then some (.blt (seg w 18 6) (seg w 12 6) (seg w 0 12))
  else none

/-- Major 0x14. -/
noncomputable def decode14 (w : Insn) : Option Instr :=
  if seg w 31 1 = 0 then some (.bge (seg w 18 6) (seg w 12 6) (seg w 0 12))
  else none

/-- Major 0x15. -/
noncomputable def decode15 (w : Insn) : Option Instr :=
  if seg w 31 1 = 0 then some (.bltu (seg w 18 6) (seg w 12 6) (seg w 0 12))
  else none

/-- Major 0x16. -/
noncomputable def decode16 (w : Insn) : Option Instr :=
  if seg w 31 1 = 0 then some (.bgeu (seg w 18 6) (seg w 12 6) (seg w 0 12))
  else none

/-- Major 0x17. -/
noncomputable def decode17 (w : Insn) : Option Instr :=
  if seg w 31 1 = 0 then some (.jal (seg w 18 6) (seg w 0 18))
  else none

/-- Major 0x18. -/
noncomputable def decode18 (w : Insn) : Option Instr :=
  if seg w 31 1 = 0 then some (.jalr (seg w 18 6) (seg w 12 6) (seg w 0 12))
  else none

/-- Major 0x1B. -/
noncomputable def decode1B (w : Insn) : Option Instr :=
  if seg w 15 9 = 0 ∧ seg w 31 1 = 0 then some (.brvAny (seg w 12 3) (seg w 0 12))
  else if seg w 15 9 = 8 ∧ seg w 31 1 = 0 then some (.brvNone (seg w 12 3) (seg w 0 12))
  else if seg w 15 9 = 16 ∧ seg w 31 1 = 0 then some (.brvAll (seg w 12 3) (seg w 0 12))
  else none

/-- Major 0x19. -/
noncomputable def decode19 (w : Insn) : Option Instr :=
  if seg w 10 2 = 0 ∧ seg w 12 6 = 0 ∧ seg w 31 1 = 0 then some (.csrrd (seg w 18 6) (seg w 0 10))
  else if seg w 10 2 = 1 ∧ seg w 31 1 = 0 then some (.csrwr (seg w 18 6) (seg w 12 6) (seg w 0 10))
  else if seg w 10 2 = 2 ∧ seg w 31 1 = 0 then some (.csrbs (seg w 18 6) (seg w 12 6) (seg w 0 10))
  else if seg w 10 2 = 3 ∧ seg w 31 1 = 0 then some (.csrbc (seg w 18 6) (seg w 12 6) (seg w 0 10))
  else none

/-- Major 0x1A. -/
noncomputable def decode1A (w : Insn) : Option Instr :=
  if seg w 0 6 = 0 ∧ seg w 18 6 = 0 ∧ seg w 31 1 = 0 then some (.svc (seg w 6 12))
  else if seg w 0 6 = 1 ∧ seg w 6 6 = 0 ∧ seg w 18 6 = 0 ∧ seg w 31 1 = 0 then some (.trap (seg w 12 6))
  else if seg w 0 6 = 2 ∧ seg w 18 6 = 0 ∧ seg w 31 1 = 0 then some (.breakC (seg w 6 12))
  else if seg w 0 6 = 3 ∧ seg w 6 6 = 0 ∧ seg w 12 6 = 0 ∧ seg w 18 6 = 0 ∧ seg w 31 1 = 0 then some .rett
  else if seg w 0 6 = 4 ∧ seg w 6 6 = 0 ∧ seg w 12 6 = 0 ∧ seg w 18 6 = 0 ∧ seg w 31 1 = 0 then some .wfi
  else if seg w 0 6 = 5 ∧ seg w 6 6 = 0 ∧ seg w 12 6 = 0 ∧ seg w 18 6 = 0 ∧ seg w 31 1 = 0 then some .halt
  else if seg w 0 6 = 6 ∧ seg w 6 6 = 0 ∧ seg w 12 6 = 0 ∧ seg w 18 6 = 0 ∧ seg w 31 1 = 0 then some .pause
  else none

/-- Major 0x20. -/
noncomputable def decode20 (w : Insn) : Option Instr :=
  if seg w 31 1 = 0 then some (.setvl (seg w 18 6) (seg w 12 6) (seg w 11 1) (seg w 10 1) (seg w 7 3) (seg w 2 5) (seg w 0 2))
  else none

/-- Major 0x21. -/
noncomputable def decode21 (w : Insn) : Option Instr :=
  if seg w 0 6 = 0 ∧ seg w 31 1 = 0 then some (.setvlx (seg w 18 6) (seg w 12 6) (seg w 6 6))
  else if seg w 0 6 = 1 ∧ seg w 6 6 = 0 ∧ seg w 31 1 = 0 then some (.setvlxKeep (seg w 18 6) (seg w 12 6))
  else none

/-- Major 0x22. -/
noncomputable def decode22 (w : Insn) : Option Instr :=
  if seg w 0 6 = 0 then some (.vaddVv (seg w 31 1) (seg w 19 5) (seg w 14 5) (seg w 9 5) (seg w 6 3))
  else if seg w 0 6 = 1 then some (.vsubVv (seg w 31 1) (seg w 19 5) (seg w 14 5) (seg w 9 5) (seg w 6 3))
  else if seg w 0 6 = 2 then some (.vandVv (seg w 31 1) (seg w 19 5) (seg w 14 5) (seg w 9 5) (seg w 6 3))
  else if seg w 0 6 = 3 then some (.vorVv (seg w 31 1) (seg w 19 5) (seg w 14 5) (seg w 9 5) (seg w 6 3))
  else if seg w 0 6 = 4 then some (.vxorVv (seg w 31 1) (seg w 19 5) (seg w 14 5) (seg w 9 5) (seg w 6 3))
  else if seg w 0 6 = 5 then some (.vsllVv (seg w 31 1) (seg w 19 5) (seg w 14 5) (seg w 9 5) (seg w 6 3))
  else if seg w 0 6 = 6 then some (.vsrlVv (seg w 31 1) (seg w 19 5) (seg w 14 5) (seg w 9 5) (seg w 6 3))
  else if seg w 0 6 = 7 then some (.vsraVv (seg w 31 1) (seg w 19 5) (seg w 14 5) (seg w 9 5) (seg w 6 3))
  else if seg w 0 6 = 10 then some (.vminVv (seg w 31 1) (seg w 19 5) (seg w 14 5) (seg w 9 5) (seg w 6 3))
  else if seg w 0 6 = 11 then some (.vmaxVv (seg w 31 1) (seg w 19 5) (seg w 14 5) (seg w 9 5) (seg w 6 3))
  else if seg w 0 6 = 12 then some (.vminuVv (seg w 31 1) (seg w 19 5) (seg w 14 5) (seg w 9 5) (seg w 6 3))
  else if seg w 0 6 = 13 then some (.vmaxuVv (seg w 31 1) (seg w 19 5) (seg w 14 5) (seg w 9 5) (seg w 6 3))
  else if seg w 0 6 = 16 then some (.vmulVv (seg w 31 1) (seg w 19 5) (seg w 14 5) (seg w 9 5) (seg w 6 3))
  else if seg w 0 6 = 17 then some (.vhmulVv (seg w 31 1) (seg w 19 5) (seg w 14 5) (seg w 9 5) (seg w 6 3))
  else if seg w 0 6 = 18 then some (.vhmuluVv (seg w 31 1) (seg w 19 5) (seg w 14 5) (seg w 9 5) (seg w 6 3))
  else if seg w 0 6 = 19 then some (.vhmulsuVv (seg w 31 1) (seg w 19 5) (seg w 14 5) (seg w 9 5) (seg w 6 3))
  else if seg w 0 6 = 20 then some (.vdivVv (seg w 31 1) (seg w 19 5) (seg w 14 5) (seg w 9 5) (seg w 6 3))
  else if seg w 0 6 = 21 then some (.vdivuVv (seg w 31 1) (seg w 19 5) (seg w 14 5) (seg w 9 5) (seg w 6 3))
  else if seg w 0 6 = 22 then some (.vremVv (seg w 31 1) (seg w 19 5) (seg w 14 5) (seg w 9 5) (seg w 6 3))
  else if seg w 0 6 = 23 then some (.vremuVv (seg w 31 1) (seg w 19 5) (seg w 14 5) (seg w 9 5) (seg w 6 3))
  else if seg w 0 6 = 24 ∧ seg w 9 5 = 0 then some (.vclzVv (seg w 31 1) (seg w 19 5) (seg w 14 5) (seg w 6 3))
  else if seg w 0 6 = 25 ∧ seg w 9 5 = 0 then some (.vctzVv (seg w 31 1) (seg w 19 5) (seg w 14 5) (seg w 6 3))
  else if seg w 0 6 = 26 ∧ seg w 9 5 = 0 then some (.vpopcVv (seg w 31 1) (seg w 19 5) (seg w 14 5) (seg w 6 3))
  else none

/-- Major 0x23. -/
noncomputable def decode23 (w : Insn) : Option Instr :=
  if seg w 0 5 = 0 then some (.vaddVx (seg w 31 1) (seg w 19 5) (seg w 14 5) (seg w 8 6) (seg w 5 3))
  else if seg w 0 5 = 1 then some (.vsubVx (seg w 31 1) (seg w 19 5) (seg w 14 5) (seg w 8 6) (seg w 5 3))
  else if seg w 0 5 = 2 then some (.vandVx (seg w 31 1) (seg w 19 5) (seg w 14 5) (seg w 8 6) (seg w 5 3))
  else if seg w 0 5 = 3 then some (.vorVx (seg w 31 1) (seg w 19 5) (seg w 14 5) (seg w 8 6) (seg w 5 3))
  else if seg w 0 5 = 4 then some (.vxorVx (seg w 31 1) (seg w 19 5) (seg w 14 5) (seg w 8 6) (seg w 5 3))
  else if seg w 0 5 = 5 then some (.vsllVx (seg w 31 1) (seg w 19 5) (seg w 14 5) (seg w 8 6) (seg w 5 3))
  else if seg w 0 5 = 6 then some (.vsrlVx (seg w 31 1) (seg w 19 5) (seg w 14 5) (seg w 8 6) (seg w 5 3))
  else if seg w 0 5 = 7 then some (.vsraVx (seg w 31 1) (seg w 19 5) (seg w 14 5) (seg w 8 6) (seg w 5 3))
  else if seg w 0 5 = 10 then some (.vminVx (seg w 31 1) (seg w 19 5) (seg w 14 5) (seg w 8 6) (seg w 5 3))
  else if seg w 0 5 = 11 then some (.vmaxVx (seg w 31 1) (seg w 19 5) (seg w 14 5) (seg w 8 6) (seg w 5 3))
  else if seg w 0 5 = 12 then some (.vminuVx (seg w 31 1) (seg w 19 5) (seg w 14 5) (seg w 8 6) (seg w 5 3))
  else if seg w 0 5 = 13 then some (.vmaxuVx (seg w 31 1) (seg w 19 5) (seg w 14 5) (seg w 8 6) (seg w 5 3))
  else if seg w 0 5 = 16 then some (.vmulVx (seg w 31 1) (seg w 19 5) (seg w 14 5) (seg w 8 6) (seg w 5 3))
  else if seg w 0 5 = 17 then some (.vhmulVx (seg w 31 1) (seg w 19 5) (seg w 14 5) (seg w 8 6) (seg w 5 3))
  else if seg w 0 5 = 18 then some (.vhmuluVx (seg w 31 1) (seg w 19 5) (seg w 14 5) (seg w 8 6) (seg w 5 3))
  else if seg w 0 5 = 19 then some (.vhmulsuVx (seg w 31 1) (seg w 19 5) (seg w 14 5) (seg w 8 6) (seg w 5 3))
  else if seg w 0 5 = 20 then some (.vdivVx (seg w 31 1) (seg w 19 5) (seg w 14 5) (seg w 8 6) (seg w 5 3))
  else if seg w 0 5 = 21 then some (.vdivuVx (seg w 31 1) (seg w 19 5) (seg w 14 5) (seg w 8 6) (seg w 5 3))
  else if seg w 0 5 = 22 then some (.vremVx (seg w 31 1) (seg w 19 5) (seg w 14 5) (seg w 8 6) (seg w 5 3))
  else if seg w 0 5 = 23 then some (.vremuVx (seg w 31 1) (seg w 19 5) (seg w 14 5) (seg w 8 6) (seg w 5 3))
  else if seg w 0 5 = 24 ∧ seg w 8 6 = 0 then some (.vclzVx (seg w 31 1) (seg w 19 5) (seg w 14 5) (seg w 5 3))
  else if seg w 0 5 = 25 ∧ seg w 8 6 = 0 then some (.vctzVx (seg w 31 1) (seg w 19 5) (seg w 14 5) (seg w 5 3))
  else if seg w 0 5 = 26 ∧ seg w 8 6 = 0 then some (.vpopcVx (seg w 31 1) (seg w 19 5) (seg w 14 5) (seg w 5 3))
  else if seg w 0 5 = 27 then some (.vrsubVx (seg w 31 1) (seg w 19 5) (seg w 14 5) (seg w 8 6) (seg w 5 3))
  else none

/-- Major 0x24. -/
noncomputable def decode24 (w : Insn) : Option Instr :=
  if seg w 0 5 = 0 then some (.vaddVi (seg w 31 1) (seg w 19 5) (seg w 14 5) (seg w 8 6) (seg w 5 3))
  else if seg w 0 5 = 2 then some (.vandVi (seg w 31 1) (seg w 19 5) (seg w 14 5) (seg w 8 6) (seg w 5 3))
  else if seg w 0 5 = 3 then some (.vorVi (seg w 31 1) (seg w 19 5) (seg w 14 5) (seg w 8 6) (seg w 5 3))
  else if seg w 0 5 = 4 then some (.vxorVi (seg w 31 1) (seg w 19 5) (seg w 14 5) (seg w 8 6) (seg w 5 3))
  else if seg w 0 5 = 5 then some (.vsllVi (seg w 31 1) (seg w 19 5) (seg w 14 5) (seg w 8 6) (seg w 5 3))
  else if seg w 0 5 = 6 then some (.vsrlVi (seg w 31 1) (seg w 19 5) (seg w 14 5) (seg w 8 6) (seg w 5 3))
  else if seg w 0 5 = 7 then some (.vsraVi (seg w 31 1) (seg w 19 5) (seg w 14 5) (seg w 8 6) (seg w 5 3))
  else if seg w 0 5 = 10 then some (.vminVi (seg w 31 1) (seg w 19 5) (seg w 14 5) (seg w 8 6) (seg w 5 3))
  else if seg w 0 5 = 11 then some (.vmaxVi (seg w 31 1) (seg w 19 5) (seg w 14 5) (seg w 8 6) (seg w 5 3))
  else if seg w 0 5 = 12 then some (.vminuVi (seg w 31 1) (seg w 19 5) (seg w 14 5) (seg w 8 6) (seg w 5 3))
  else if seg w 0 5 = 13 then some (.vmaxuVi (seg w 31 1) (seg w 19 5) (seg w 14 5) (seg w 8 6) (seg w 5 3))
  else if seg w 0 5 = 27 then some (.vrsubVi (seg w 31 1) (seg w 19 5) (seg w 14 5) (seg w 8 6) (seg w 5 3))
  else none

/-- Major 0x3A. -/
noncomputable def decode3A (w : Insn) : Option Instr :=
  if seg w 0 6 = 0 then some (.vsadd (seg w 31 1) (seg w 19 5) (seg w 14 5) (seg w 9 5) (seg w 6 3))
  else if seg w 0 6 = 1 then some (.vsaddu (seg w 31 1) (seg w 19 5) (seg w 14 5) (seg w 9 5) (seg w 6 3))
  else if seg w 0 6 = 2 then some (.vssub (seg w 31 1) (seg w 19 5) (seg w 14 5) (seg w 9 5) (seg w 6 3))
  else if seg w 0 6 = 3 then some (.vssubu (seg w 31 1) (seg w 19 5) (seg w 14 5) (seg w 9 5) (seg w 6 3))
  else if seg w 0 6 = 4 then some (.vsmul (seg w 31 1) (seg w 19 5) (seg w 14 5) (seg w 9 5) (seg w 6 3))
  else if seg w 0 6 = 5 then some (.vavg (seg w 31 1) (seg w 19 5) (seg w 14 5) (seg w 9 5) (seg w 6 3))
  else if seg w 0 6 = 6 then some (.vavgu (seg w 31 1) (seg w 19 5) (seg w 14 5) (seg w 9 5) (seg w 6 3))
  else none

/-- Major 0x25. -/
noncomputable def decode25 (w : Insn) : Option Instr :=
  if seg w 0 6 = 0 then some (.vfaddVv (seg w 31 1) (seg w 19 5) (seg w 14 5) (seg w 9 5) (seg w 6 3))
  else if seg w 0 6 = 1 then some (.vfsubVv (seg w 31 1) (seg w 19 5) (seg w 14 5) (seg w 9 5) (seg w 6 3))
  else if seg w 0 6 = 2 then some (.vfmulVv (seg w 31 1) (seg w 19 5) (seg w 14 5) (seg w 9 5) (seg w 6 3))
  else if seg w 0 6 = 3 then some (.vfdivVv (seg w 31 1) (seg w 19 5) (seg w 14 5) (seg w 9 5) (seg w 6 3))
  else if seg w 0 6 = 4 ∧ seg w 9 5 = 0 then some (.vfsqrtVv (seg w 31 1) (seg w 19 5) (seg w 14 5) (seg w 6 3))
  else if seg w 0 6 = 5 then some (.vfminVv (seg w 31 1) (seg w 19 5) (seg w 14 5) (seg w 9 5) (seg w 6 3))
  else if seg w 0 6 = 6 then some (.vfmaxVv (seg w 31 1) (seg w 19 5) (seg w 14 5) (seg w 9 5) (seg w 6 3))
  else if seg w 0 6 = 7 then some (.vfsgnjVv (seg w 31 1) (seg w 19 5) (seg w 14 5) (seg w 9 5) (seg w 6 3))
  else if seg w 0 6 = 8 then some (.vfsgnjnVv (seg w 31 1) (seg w 19 5) (seg w 14 5) (seg w 9 5) (seg w 6 3))
  else if seg w 0 6 = 9 then some (.vfsgnjxVv (seg w 31 1) (seg w 19 5) (seg w 14 5) (seg w 9 5) (seg w 6 3))
  else if seg w 0 6 = 10 ∧ seg w 9 5 = 0 then some (.vfclassVv (seg w 31 1) (seg w 19 5) (seg w 14 5) (seg w 6 3))
  else if seg w 0 6 = 11 then some (.vfrsubVv (seg w 31 1) (seg w 19 5) (seg w 14 5) (seg w 9 5) (seg w 6 3))
  else if seg w 0 6 = 12 then some (.vfrdivVv (seg w 31 1) (seg w 19 5) (seg w 14 5) (seg w 9 5) (seg w 6 3))
  else none

/-- Major 0x26. -/
noncomputable def decode26 (w : Insn) : Option Instr :=
  if seg w 0 5 = 0 then some (.vfaddVx (seg w 31 1) (seg w 19 5) (seg w 14 5) (seg w 8 6) (seg w 5 3))
  else if seg w 0 5 = 1 then some (.vfsubVx (seg w 31 1) (seg w 19 5) (seg w 14 5) (seg w 8 6) (seg w 5 3))
  else if seg w 0 5 = 2 then some (.vfmulVx (seg w 31 1) (seg w 19 5) (seg w 14 5) (seg w 8 6) (seg w 5 3))
  else if seg w 0 5 = 3 then some (.vfdivVx (seg w 31 1) (seg w 19 5) (seg w 14 5) (seg w 8 6) (seg w 5 3))
  else if seg w 0 5 = 4 ∧ seg w 8 6 = 0 then some (.vfsqrtVx (seg w 31 1) (seg w 19 5) (seg w 14 5) (seg w 5 3))
  else if seg w 0 5 = 5 then some (.vfminVx (seg w 31 1) (seg w 19 5) (seg w 14 5) (seg w 8 6) (seg w 5 3))
  else if seg w 0 5 = 6 then some (.vfmaxVx (seg w 31 1) (seg w 19 5) (seg w 14 5) (seg w 8 6) (seg w 5 3))
  else if seg w 0 5 = 7 then some (.vfsgnjVx (seg w 31 1) (seg w 19 5) (seg w 14 5) (seg w 8 6) (seg w 5 3))
  else if seg w 0 5 = 8 then some (.vfsgnjnVx (seg w 31 1) (seg w 19 5) (seg w 14 5) (seg w 8 6) (seg w 5 3))
  else if seg w 0 5 = 9 then some (.vfsgnjxVx (seg w 31 1) (seg w 19 5) (seg w 14 5) (seg w 8 6) (seg w 5 3))
  else if seg w 0 5 = 10 ∧ seg w 8 6 = 0 then some (.vfclassVx (seg w 31 1) (seg w 19 5) (seg w 14 5) (seg w 5 3))
  else if seg w 0 5 = 11 then some (.vfrsubVx (seg w 31 1) (seg w 19 5) (seg w 14 5) (seg w 8 6) (seg w 5 3))
  else if seg w 0 5 = 12 then some (.vfrdivVx (seg w 31 1) (seg w 19 5) (seg w 14 5) (seg w 8 6) (seg w 5 3))
  else none

/-- Major 0x27. -/
noncomputable def decode27 (w : Insn) : Option Instr :=
  if seg w 0 6 = 0 then some (.vfmadd (seg w 31 1) (seg w 19 5) (seg w 14 5) (seg w 9 5) (seg w 6 3))
  else if seg w 0 6 = 1 then some (.vfmsub (seg w 31 1) (seg w 19 5) (seg w 14 5) (seg w 9 5) (seg w 6 3))
  else if seg w 0 6 = 2 then some (.vfnmadd (seg w 31 1) (seg w 19 5) (seg w 14 5) (seg w 9 5) (seg w 6 3))
  else if seg w 0 6 = 3 then some (.vfnmsub (seg w 31 1) (seg w 19 5) (seg w 14 5) (seg w 9 5) (seg w 6 3))
  else if seg w 0 6 = 4 then some (.vmacc (seg w 31 1) (seg w 19 5) (seg w 14 5) (seg w 9 5) (seg w 6 3))
  else if seg w 0 6 = 5 then some (.vnmsac (seg w 31 1) (seg w 19 5) (seg w 14 5) (seg w 9 5) (seg w 6 3))
  else none

/-- Major 0x28. -/
noncomputable def decode28 (w : Insn) : Option Instr :=
  if seg w 0 6 = 0 then some (.vwmacc (seg w 31 1) (seg w 19 5) (seg w 14 5) (seg w 9 5) (seg w 6 3))
  else if seg w 0 6 = 1 then some (.vwmaccu (seg w 31 1) (seg w 19 5) (seg w 14 5) (seg w 9 5) (seg w 6 3))
  else if seg w 0 6 = 2 then some (.vwmaccsu (seg w 31 1) (seg w 19 5) (seg w 14 5) (seg w 9 5) (seg w 6 3))
  else if seg w 0 6 = 3 then some (.vfwmacc (seg w 31 1) (seg w 19 5) (seg w 14 5) (seg w 9 5) (seg w 6 3))
  else none

/-- Major 0x29. -/
noncomputable def decode29 (w : Insn) : Option Instr :=
  if seg w 0 6 = 0 ∧ seg w 22 2 = 0 then some (.vseq (seg w 31 1) (seg w 19 3) (seg w 14 5) (seg w 9 5) (seg w 6 3))
  else if seg w 0 6 = 1 ∧ seg w 22 2 = 0 then some (.vsne (seg w 31 1) (seg w 19 3) (seg w 14 5) (seg w 9 5) (seg w 6 3))
  else if seg w 0 6 = 2 ∧ seg w 22 2 = 0 then some (.vslt (seg w 31 1) (seg w 19 3) (seg w 14 5) (seg w 9 5) (seg w 6 3))
  else if seg w 0 6 = 3 ∧ seg w 22 2 = 0 then some (.vsltu (seg w 31 1) (seg w 19 3) (seg w 14 5) (seg w 9 5) (seg w 6 3))
  else if seg w 0 6 = 4 ∧ seg w 22 2 = 0 then some (.vsle (seg w 31 1) (seg w 19 3) (seg w 14 5) (seg w 9 5) (seg w 6 3))
  else if seg w 0 6 = 5 ∧ seg w 22 2 = 0 then some (.vsleu (seg w 31 1) (seg w 19 3) (seg w 14 5) (seg w 9 5) (seg w 6 3))
  else if seg w 0 6 = 8 ∧ seg w 22 2 = 0 then some (.vfeq (seg w 31 1) (seg w 19 3) (seg w 14 5) (seg w 9 5) (seg w 6 3))
  else if seg w 0 6 = 9 ∧ seg w 22 2 = 0 then some (.vfne (seg w 31 1) (seg w 19 3) (seg w 14 5) (seg w 9 5) (seg w 6 3))
  else if seg w 0 6 = 10 ∧ seg w 22 2 = 0 then some (.vflt (seg w 31 1) (seg w 19 3) (seg w 14 5) (seg w 9 5) (seg w 6 3))
  else if seg w 0 6 = 11 ∧ seg w 22 2 = 0 then some (.vfle (seg w 31 1) (seg w 19 3) (seg w 14 5) (seg w 9 5) (seg w 6 3))
  else if seg w 0 6 = 12 ∧ seg w 22 2 = 0 then some (.vford (seg w 31 1) (seg w 19 3) (seg w 14 5) (seg w 9 5) (seg w 6 3))
  else none

/-- Major 0x2A. -/
noncomputable def decode2A (w : Insn) : Option Instr :=
  if seg w 0 9 = 0 ∧ seg w 12 2 = 0 ∧ seg w 17 2 = 0 ∧ seg w 22 2 = 0 then some (.kand (seg w 31 1) (seg w 19 3) (seg w 14 3) (seg w 9 3))
  else if seg w 0 9 = 1 ∧ seg w 12 2 = 0 ∧ seg w 17 2 = 0 ∧ seg w 22 2 = 0 then some (.kor (seg w 31 1) (seg w 19 3) (seg w 14 3) (seg w 9 3))
  else if seg w 0 9 = 2 ∧ seg w 12 2 = 0 ∧ seg w 17 2 = 0 ∧ seg w 22 2 = 0 then some (.kxor (seg w 31 1) (seg w 19 3) (seg w 14 3) (seg w 9 3))
  else if seg w 0 9 = 3 ∧ seg w 12 2 = 0 ∧ seg w 17 2 = 0 ∧ seg w 22 2 = 0 then some (.kandn (seg w 31 1) (seg w 19 3) (seg w 14 3) (seg w 9 3))
  else if seg w 0 9 = 4 ∧ seg w 12 2 = 0 ∧ seg w 17 2 = 0 ∧ seg w 22 2 = 0 then some (.korn (seg w 31 1) (seg w 19 3) (seg w 14 3) (seg w 9 3))
  else if seg w 0 9 = 5 ∧ seg w 9 3 = 0 ∧ seg w 12 2 = 0 ∧ seg w 17 2 = 0 ∧ seg w 22 2 = 0 then some (.knot (seg w 31 1) (seg w 19 3) (seg w 14 3))
  else if seg w 0 9 = 6 ∧ seg w 9 3 = 0 ∧ seg w 12 2 = 0 ∧ seg w 17 2 = 0 ∧ seg w 22 2 = 0 then some (.kmov (seg w 31 1) (seg w 19 3) (seg w 14 3))
  else if seg w 0 9 = 8 ∧ seg w 9 3 = 0 ∧ seg w 12 2 = 0 ∧ seg w 14 3 = 0 ∧ seg w 17 2 = 0 ∧ seg w 22 2 = 0 then some (.kfromsmm (seg w 31 1) (seg w 19 3))
  else if seg w 0 9 = 9 ∧ seg w 9 3 = 0 ∧ seg w 12 2 = 0 ∧ seg w 17 2 = 0 ∧ seg w 19 3 = 0 ∧ seg w 22 2 = 0 then some (.ktosmm (seg w 31 1) (seg w 14 3))
  else if seg w 0 9 = 10 ∧ seg w 9 3 = 0 ∧ seg w 12 2 = 0 ∧ seg w 22 2 = 0 then some (.kfromv (seg w 31 1) (seg w 19 3) (seg w 14 5))
  else if seg w 0 9 = 11 ∧ seg w 9 3 = 0 ∧ seg w 12 2 = 0 ∧ seg w 17 2 = 0 then some (.ktov (seg w 31 1) (seg w 19 5) (seg w 14 3))
  else none

/-- Major 0x2B. -/
noncomputable def decode2B (w : Insn) : Option Instr :=
  if seg w 0 6 = 0 then some (.vredsum (seg w 31 1) (seg w 19 5) (seg w 14 5) (seg w 9 5) (seg w 6 3))
  else if seg w 0 6 = 1 then some (.vredmin (seg w 31 1) (seg w 19 5) (seg w 14 5) (seg w 9 5) (seg w 6 3))
  else if seg w 0 6 = 2 then some (.vredmax (seg w 31 1) (seg w 19 5) (seg w 14 5) (seg w 9 5) (seg w 6 3))
  else if seg w 0 6 = 3 then some (.vredminu (seg w 31 1) (seg w 19 5) (seg w 14 5) (seg w 9 5) (seg w 6 3))
  else if seg w 0 6 = 4 then some (.vredmaxu (seg w 31 1) (seg w 19 5) (seg w 14 5) (seg w 9 5) (seg w 6 3))
  else if seg w 0 6 = 5 then some (.vredand (seg w 31 1) (seg w 19 5) (seg w 14 5) (seg w 9 5) (seg w 6 3))
  else if seg w 0 6 = 6 then some (.vredor (seg w 31 1) (seg w 19 5) (seg w 14 5) (seg w 9 5) (seg w 6 3))
  else if seg w 0 6 = 7 then some (.vredxor (seg w 31 1) (seg w 19 5) (seg w 14 5) (seg w 9 5) (seg w 6 3))
  else if seg w 0 6 = 8 then some (.vfredsum (seg w 31 1) (seg w 19 5) (seg w 14 5) (seg w 9 5) (seg w 6 3))
  else if seg w 0 6 = 9 then some (.vfredmin (seg w 31 1) (seg w 19 5) (seg w 14 5) (seg w 9 5) (seg w 6 3))
  else if seg w 0 6 = 10 then some (.vfredmax (seg w 31 1) (seg w 19 5) (seg w 14 5) (seg w 9 5) (seg w 6 3))
  else if seg w 0 6 = 16 then some (.vredo (seg w 31 1) (seg w 19 5) (seg w 14 5) (seg w 9 5) (seg w 6 3))
  else none

/-- Major 0x2C. -/
noncomputable def decode2C (w : Insn) : Option Instr :=
  if seg w 0 6 = 0 then some (.vshuf (seg w 31 1) (seg w 19 5) (seg w 14 5) (seg w 9 5) (seg w 6 3))
  else if seg w 0 6 = 1 ∧ seg w 9 3 = 0 ∧ seg w 12 2 = 0 then some (.vpack (seg w 31 1) (seg w 19 5) (seg w 14 5) (seg w 6 3))
  else if seg w 0 6 = 2 ∧ seg w 12 2 = 0 ∧ seg w 14 5 = 0 then some (.vrank (seg w 31 1) (seg w 19 5) (seg w 9 3) (seg w 6 3))
  else if seg w 0 6 = 3 ∧ seg w 9 3 = 0 ∧ seg w 12 2 = 0 ∧ seg w 14 5 = 0 then some (.vramp (seg w 31 1) (seg w 19 5) (seg w 6 3))
  else if seg w 0 6 = 4 ∧ seg w 9 3 = 0 ∧ seg w 12 2 = 0 then some (.vrampS (seg w 31 1) (seg w 19 5) (seg w 14 5) (seg w 6 3))
  else none

/-- Major 0x2F. -/
noncomputable def decode2F (w : Insn) : Option Instr :=
  if seg w 0 5 = 0 ∧ seg w 14 3 = 0 ∧ seg w 17 2 = 0 then some (.vbcast (seg w 31 1) (seg w 19 5) (seg w 8 6) (seg w 5 3))
  else if seg w 0 5 = 1 ∧ seg w 5 3 = 0 then some (.vtox (seg w 31 1) (seg w 19 5) (seg w 14 5) (seg w 8 6))
  else if seg w 0 5 = 2 ∧ seg w 5 3 = 0 then some (.xtov (seg w 31 1) (seg w 19 5) (seg w 14 5) (seg w 8 6))
  else if seg w 0 5 = 3 then some (.vshup (seg w 31 1) (seg w 19 5) (seg w 14 5) (seg w 8 6) (seg w 5 3))
  else if seg w 0 5 = 4 then some (.vshdn (seg w 31 1) (seg w 19 5) (seg w 14 5) (seg w 8 6) (seg w 5 3))
  else if seg w 0 5 = 5 ∧ seg w 17 2 = 0 ∧ seg w 19 5 = 0 then some (.kcount (seg w 31 1) (seg w 14 3) (seg w 8 6) (seg w 5 3))
  else if seg w 0 5 = 6 ∧ seg w 17 2 = 0 ∧ seg w 19 5 = 0 then some (.klead (seg w 31 1) (seg w 14 3) (seg w 8 6) (seg w 5 3))
  else none

/-- Major 0x30. -/
noncomputable def decode30 (w : Insn) : Option Instr :=
  if seg w 0 2 = 0 ∧ seg w 7 6 = 0 then some (.vld (seg w 31 1) (seg w 19 5) (seg w 13 6) (seg w 4 3) (seg w 2 2))
  else if seg w 0 2 = 1 then some (.vldStr (seg w 31 1) (seg w 19 5) (seg w 13 6) (seg w 7 6) (seg w 4 3) (seg w 2 2))
  else if seg w 0 2 = 2 ∧ seg w 4 3 = 0 ∧ seg w 7 6 = 0 ∧ seg w 22 2 = 0 then some (.vldM (seg w 31 1) (seg w 19 3) (seg w 13 6) (seg w 2 2))
  else none

/-- Major 0x31. -/
noncomputable def decode31 (w : Insn) : Option Instr :=
  if seg w 0 2 = 0 ∧ seg w 7 6 = 0 then some (.vst (seg w 31 1) (seg w 19 5) (seg w 13 6) (seg w 4 3) (seg w 2 2))
  else if seg w 0 2 = 1 then some (.vstStr (seg w 31 1) (seg w 19 5) (seg w 13 6) (seg w 7 6) (seg w 4 3) (seg w 2 2))
  else if seg w 0 2 = 2 ∧ seg w 4 3 = 0 ∧ seg w 7 6 = 0 ∧ seg w 22 2 = 0 then some (.vstM (seg w 31 1) (seg w 19 3) (seg w 13 6) (seg w 2 2))
  else none

/-- Major 0x2D. -/
noncomputable def decode2D (w : Insn) : Option Instr :=
  some (.vcvt (seg w 31 1) (seg w 19 5) (seg w 14 5) (seg w 9 5) (seg w 6 3) (seg w 3 3) (seg w 2 1) (seg w 0 2))

/-- Major 0x4C. -/
noncomputable def decode4C (w : Insn) : Option Instr :=
  some (.slicvt (seg w 31 1) (seg w 19 5) (seg w 14 5) (seg w 9 5) (seg w 6 3) (seg w 3 3) (seg w 2 1) (seg w 0 2))

/-- Major 0x2E. -/
noncomputable def decode2E (w : Insn) : Option Instr :=
  if seg w 0 3 = 0 then some (.vquant (seg w 31 1) (seg w 19 5) (seg w 14 5) (seg w 9 5) (seg w 6 3) (seg w 3 3))
  else if seg w 0 3 = 4 then some (.vdeq (seg w 31 1) (seg w 19 5) (seg w 14 5) (seg w 9 5) (seg w 6 3) (seg w 3 3))
  else none

/-- Major 0x4A. -/
noncomputable def decode4A (w : Insn) : Option Instr :=
  if seg w 0 6 = 0 then some (.sliopAdd (seg w 31 1) (seg w 19 5) (seg w 14 5) (seg w 9 5) (seg w 6 3))
  else if seg w 0 6 = 1 then some (.sliopSub (seg w 31 1) (seg w 19 5) (seg w 14 5) (seg w 9 5) (seg w 6 3))
  else if seg w 0 6 = 2 then some (.sliopMul (seg w 31 1) (seg w 19 5) (seg w 14 5) (seg w 9 5) (seg w 6 3))
  else if seg w 0 6 = 3 then some (.sliopDiv (seg w 31 1) (seg w 19 5) (seg w 14 5) (seg w 9 5) (seg w 6 3))
  else none

/-- Major 0x4F. -/
noncomputable def decode4F (w : Insn) : Option Instr :=
  if seg w 0 5 = 0 then some (.slixAdd (seg w 31 1) (seg w 19 5) (seg w 14 5) (seg w 8 6) (seg w 5 3))
  else if seg w 0 5 = 1 then some (.slixSub (seg w 31 1) (seg w 19 5) (seg w 14 5) (seg w 8 6) (seg w 5 3))
  else if seg w 0 5 = 2 then some (.slixMul (seg w 31 1) (seg w 19 5) (seg w 14 5) (seg w 8 6) (seg w 5 3))
  else if seg w 0 5 = 3 then some (.slixDiv (seg w 31 1) (seg w 19 5) (seg w 14 5) (seg w 8 6) (seg w 5 3))
  else if seg w 0 5 = 4 then some (.slixRsub (seg w 31 1) (seg w 19 5) (seg w 14 5) (seg w 8 6) (seg w 5 3))
  else if seg w 0 5 = 5 then some (.slixRdiv (seg w 31 1) (seg w 19 5) (seg w 14 5) (seg w 8 6) (seg w 5 3))
  else none

/-- Major 0x4B. -/
noncomputable def decode4B (w : Insn) : Option Instr :=
  if seg w 0 6 = 0 ∧ seg w 9 5 = 0 then some (.slifnExp (seg w 31 1) (seg w 19 5) (seg w 14 5) (seg w 6 3))
  else if seg w 0 6 = 1 ∧ seg w 9 5 = 0 then some (.slifnLog (seg w 31 1) (seg w 19 5) (seg w 14 5) (seg w 6 3))
  else none

/-- Major 0x4D. -/
noncomputable def decode4D (w : Insn) : Option Instr :=
  if seg w 0 6 = 0 then some (.sliredSum (seg w 31 1) (seg w 19 5) (seg w 14 5) (seg w 9 5) (seg w 6 3))
  else if seg w 0 6 = 1 then some (.sliredMax (seg w 31 1) (seg w 19 5) (seg w 14 5) (seg w 9 5) (seg w 6 3))
  else if seg w 0 6 = 2 then some (.sliredMin (seg w 31 1) (seg w 19 5) (seg w 14 5) (seg w 9 5) (seg w 6 3))
  else none

/-- Major 0x4E. -/
noncomputable def decode4E (w : Insn) : Option Instr :=
  if seg w 0 6 = 0 ∧ seg w 9 5 = 0 then some (.vtransExp (seg w 31 1) (seg w 19 5) (seg w 14 5) (seg w 6 3))
  else if seg w 0 6 = 1 ∧ seg w 9 5 = 0 then some (.vtransExp2 (seg w 31 1) (seg w 19 5) (seg w 14 5) (seg w 6 3))
  else if seg w 0 6 = 2 ∧ seg w 9 5 = 0 then some (.vtransLog (seg w 31 1) (seg w 19 5) (seg w 14 5) (seg w 6 3))
  else if seg w 0 6 = 3 ∧ seg w 9 5 = 0 then some (.vtransLog2 (seg w 31 1) (seg w 19 5) (seg w 14 5) (seg w 6 3))
  else if seg w 0 6 = 4 ∧ seg w 9 5 = 0 then some (.vtransRcp (seg w 31 1) (seg w 19 5) (seg w 14 5) (seg w 6 3))
  else if seg w 0 6 = 5 ∧ seg w 9 5 = 0 then some (.vtransRsqrt (seg w 31 1) (seg w 19 5) (seg w 14 5) (seg w 6 3))
  else if seg w 0 6 = 6 ∧ seg w 9 5 = 0 then some (.vtransTanh (seg w 31 1) (seg w 19 5) (seg w 14 5) (seg w 6 3))
  else none

/-- Major 0x40. -/
noncomputable def decode40 (w : Insn) : Option Instr :=
  if seg w 0 3 = 0 ∧ seg w 9 3 = 0 ∧ seg w 23 1 = 0 then some (.fmatch (seg w 31 1) (seg w 20 3) (seg w 16 4) (seg w 12 4) (seg w 3 6))
  else none

/-- Major 0x41. -/
noncomputable def decode41 (w : Insn) : Option Instr :=
  if seg w 0 12 = 0 then some (.fisectMul (seg w 31 1) (seg w 20 4) (seg w 16 4) (seg w 12 4))
  else if seg w 0 12 = 1 then some (.fisectFirst (seg w 31 1) (seg w 20 4) (seg w 16 4) (seg w 12 4))
  else if seg w 0 12 = 2 then some (.fisectSecond (seg w 31 1) (seg w 20 4) (seg w 16 4) (seg w 12 4))
  else if seg w 0 12 = 3 then some (.fisectAdd (seg w 31 1) (seg w 20 4) (seg w 16 4) (seg w 12 4))
  else if seg w 0 12 = 4 then some (.fisectMin (seg w 31 1) (seg w 20 4) (seg w 16 4) (seg w 12 4))
  else if seg w 0 12 = 5 then some (.fisectMax (seg w 31 1) (seg w 20 4) (seg w 16 4) (seg w 12 4))
  else none

/-- Major 0x42. -/
noncomputable def decode42 (w : Insn) : Option Instr :=
  if seg w 0 12 = 1 then some (.funionFirst (seg w 31 1) (seg w 20 4) (seg w 16 4) (seg w 12 4))
  else if seg w 0 12 = 2 then some (.funionSecond (seg w 31 1) (seg w 20 4) (seg w 16 4) (seg w 12 4))
  else if seg w 0 12 = 3 then some (.funionAdd (seg w 31 1) (seg w 20 4) (seg w 16 4) (seg w 12 4))
  else if seg w 0 12 = 4 then some (.funionMin (seg w 31 1) (seg w 20 4) (seg w 16 4) (seg w 12 4))
  else if seg w 0 12 = 5 then some (.funionMax (seg w 31 1) (seg w 20 4) (seg w 16 4) (seg w 12 4))
  else none

/-- Major 0x43. -/
noncomputable def decode43 (w : Insn) : Option Instr :=
  if seg w 0 12 = 1 then some (.fmergeFirst (seg w 31 1) (seg w 20 4) (seg w 16 4) (seg w 12 4))
  else if seg w 0 12 = 2 then some (.fmergeLast (seg w 31 1) (seg w 20 4) (seg w 16 4) (seg w 12 4))
  else if seg w 0 12 = 3 then some (.fmergeAdd (seg w 31 1) (seg w 20 4) (seg w 16 4) (seg w 12 4))
  else if seg w 0 12 = 4 then some (.fmergeMin (seg w 31 1) (seg w 20 4) (seg w 16 4) (seg w 12 4))
  else if seg w 0 12 = 5 then some (.fmergeMax (seg w 31 1) (seg w 20 4) (seg w 16 4) (seg w 12 4))
  else if seg w 0 12 = 9 ∧ seg w 12 4 = 0 then some (.fmergeSortFirst (seg w 31 1) (seg w 20 4) (seg w 16 4))
  else if seg w 0 12 = 10 ∧ seg w 12 4 = 0 then some (.fmergeSortLast (seg w 31 1) (seg w 20 4) (seg w 16 4))
  else if seg w 0 12 = 11 ∧ seg w 12 4 = 0 then some (.fmergeSortAdd (seg w 31 1) (seg w 20 4) (seg w 16 4))
  else if seg w 0 12 = 12 ∧ seg w 12 4 = 0 then some (.fmergeSortMin (seg w 31 1) (seg w 20 4) (seg w 16 4))
  else if seg w 0 12 = 13 ∧ seg w 12 4 = 0 then some (.fmergeSortMax (seg w 31 1) (seg w 20 4) (seg w 16 4))
  else none

/-- Major 0x44. -/
noncomputable def decode44 (w : Insn) : Option Instr :=
  if seg w 0 9 = 0 ∧ seg w 12 4 = 0 then some (.fcompact (seg w 31 1) (seg w 20 4) (seg w 16 4) (seg w 9 3))
  else if seg w 0 9 = 1 ∧ seg w 9 3 = 0 then some (.fexpand (seg w 31 1) (seg w 20 4) (seg w 16 4) (seg w 12 4))
  else none

/-- Major 0x45. -/
noncomputable def decode45 (w : Insn) : Option Instr :=
  if seg w 0 7 = 0 ∧ seg w 19 1 = 0 then some (.fwalkIdx (seg w 31 1) (seg w 20 4) (seg w 13 6) (seg w 7 6))
  else if seg w 0 7 = 1 ∧ seg w 19 1 = 0 then some (.fwalkVals (seg w 31 1) (seg w 20 4) (seg w 13 6) (seg w 7 6))
  else none

/-- Major 0x46. -/
noncomputable def decode46 (w : Insn) : Option Instr :=
  if seg w 0 3 = 0 ∧ seg w 9 3 = 0 ∧ seg w 20 4 = 0 then some (.fdot (seg w 31 1) (seg w 16 4) (seg w 12 4) (seg w 3 6))
  else if seg w 0 3 = 1 ∧ seg w 9 3 = 0 ∧ seg w 20 4 = 0 then some (.fdotIsect (seg w 31 1) (seg w 16 4) (seg w 12 4) (seg w 3 6))
  else none

/-- Major 0x47. -/
noncomputable def decode47 (w : Insn) : Option Instr :=
  if seg w 0 3 = 0 ∧ seg w 12 4 = 0 then some (.fmapMul (seg w 31 1) (seg w 20 4) (seg w 16 4) (seg w 9 3) (seg w 3 6))
  else if seg w 0 3 = 1 ∧ seg w 12 4 = 0 then some (.fmapAdd (seg w 31 1) (seg w 20 4) (seg w 16 4) (seg w 9 3) (seg w 3 6))
  else if seg w 0 3 = 2 ∧ seg w 3 6 = 0 ∧ seg w 12 4 = 0 then some (.fmapAbs (seg w 31 1) (seg w 20 4) (seg w 16 4) (seg w 9 3))
  else if seg w 0 3 = 3 ∧ seg w 3 6 = 0 ∧ seg w 12 4 = 0 then some (.fmapNeg (seg w 31 1) (seg w 20 4) (seg w 16 4) (seg w 9 3))
  else if seg w 0 3 = 4 ∧ seg w 3 6 = 0 ∧ seg w 12 4 = 0 then some (.fmapRelu (seg w 31 1) (seg w 20 4) (seg w 16 4) (seg w 9 3))
  else none

/-- Major 0x48. -/
noncomputable def decode48 (w : Insn) : Option Instr :=
  if seg w 0 3 = 0 ∧ seg w 3 1 = 0 ∧ seg w 4 5 = 0 ∧ seg w 9 3 = 0 ∧ seg w 12 4 = 0 then some (.fmov (seg w 31 1) (seg w 20 4) (seg w 16 4))
  else if seg w 0 3 = 1 ∧ seg w 3 1 = 0 ∧ seg w 9 3 = 0 ∧ seg w 12 4 = 0 ∧ seg w 20 4 = 0 then some (.ftodense (seg w 31 1) (seg w 16 4) (seg w 4 5))
  else if seg w 0 3 = 2 ∧ seg w 3 1 = 0 ∧ seg w 12 4 = 0 ∧ seg w 16 4 = 0 then some (.ffromdense (seg w 31 1) (seg w 20 4) (seg w 9 3) (seg w 4 5))
  else if seg w 0 3 = 3 ∧ seg w 9 3 = 0 ∧ seg w 12 4 = 0 ∧ seg w 20 4 = 0 then some (.foccr (seg w 31 1) (seg w 16 4) (seg w 3 6))
  else if seg w 0 3 = 4 ∧ seg w 9 3 = 0 ∧ seg w 12 4 = 0 ∧ seg w 16 4 = 0 then some (.foccw (seg w 31 1) (seg w 20 4) (seg w 3 6))
  else none

/-- Major 0x49. -/
noncomputable def decode49 (w : Insn) : Option Instr :=
  if seg w 0 2 = 0 ∧ seg w 4 3 = 0 ∧ seg w 19 1 = 0 then some (.fldstLd (seg w 31 1) (seg w 20 4) (seg w 13 6) (seg w 7 6) (seg w 2 2))
  else if seg w 0 2 = 1 ∧ seg w 4 3 = 0 ∧ seg w 7 6 = 0 ∧ seg w 19 1 = 0 then some (.fldstSt (seg w 31 1) (seg w 20 4) (seg w 13 6) (seg w 2 2))
  else none

/-- Major 0x32. -/
noncomputable def decode32 (w : Insn) : Option Instr :=
  some (.vldx (seg w 31 1) (seg w 19 5) (seg w 13 6) (seg w 7 6) (seg w 4 3) (seg w 2 2) (seg w 0 2))

/-- Major 0x33. -/
noncomputable def decode33 (w : Insn) : Option Instr :=
  some (.vstx (seg w 31 1) (seg w 19 5) (seg w 13 6) (seg w 7 6) (seg w 4 3) (seg w 2 2) (seg w 0 2))

/-- Major 0x34. -/
noncomputable def decode34 (w : Insn) : Option Instr :=
  if seg w 0 2 = 0 then some (.vldff (seg w 31 1) (seg w 19 5) (seg w 13 6) (seg w 7 6) (seg w 4 3) (seg w 2 2))
  else none

/-- Major 0x35. -/
noncomputable def decode35 (w : Insn) : Option Instr :=
  if seg w 2 2 = 0 then some (.vgathb (seg w 31 1) (seg w 19 5) (seg w 13 6) (seg w 7 6) (seg w 4 3) (seg w 0 2))
  else none

/-- Major 0x36. -/
noncomputable def decode36 (w : Insn) : Option Instr :=
  if seg w 2 2 = 0 then some (.vscatbSt (seg w 31 1) (seg w 19 5) (seg w 13 6) (seg w 7 6) (seg w 4 3) (seg w 0 2))
  else if seg w 2 2 = 1 then some (.vscatbAdd (seg w 31 1) (seg w 19 5) (seg w 13 6) (seg w 7 6) (seg w 4 3) (seg w 0 2))
  else if seg w 2 2 = 2 then some (.vscatbFadd (seg w 31 1) (seg w 19 5) (seg w 13 6) (seg w 7 6) (seg w 4 3) (seg w 0 2))
  else if seg w 2 2 = 3 then some (.vscatbMax (seg w 31 1) (seg w 19 5) (seg w 13 6) (seg w 7 6) (seg w 4 3) (seg w 0 2))
  else none

/-- Major 0x37. -/
noncomputable def decode37 (w : Insn) : Option Instr :=
  if seg w 0 4 = 0 ∧ seg w 7 6 = 0 ∧ seg w 16 3 = 0 then some (.vlds (seg w 31 1) (seg w 19 5) (seg w 13 3) (seg w 4 3))
  else none

/-- Major 0x38. -/
noncomputable def decode38 (w : Insn) : Option Instr :=
  if seg w 0 4 = 0 then some (.vspadLd (seg w 31 1) (seg w 19 5) (seg w 13 6) (seg w 7 6) (seg w 4 3))
  else if seg w 0 4 = 1 then some (.vspadSt (seg w 31 1) (seg w 19 5) (seg w 13 6) (seg w 7 6) (seg w 4 3))
  else none

/-- Major 0x39. -/
noncomputable def decode39 (w : Insn) : Option Instr :=
  if seg w 0 4 = 0 ∧ seg w 19 1 = 0 then some (.vamoAdd (seg w 31 1) (seg w 20 4) (seg w 13 6) (seg w 10 3) (seg w 9 1) (seg w 7 2) (seg w 4 3))
  else if seg w 0 4 = 1 ∧ seg w 19 1 = 0 then some (.vamoAnd (seg w 31 1) (seg w 20 4) (seg w 13 6) (seg w 10 3) (seg w 9 1) (seg w 7 2) (seg w 4 3))
  else if seg w 0 4 = 2 ∧ seg w 19 1 = 0 then some (.vamoOr (seg w 31 1) (seg w 20 4) (seg w 13 6) (seg w 10 3) (seg w 9 1) (seg w 7 2) (seg w 4 3))
  else if seg w 0 4 = 3 ∧ seg w 19 1 = 0 then some (.vamoXor (seg w 31 1) (seg w 20 4) (seg w 13 6) (seg w 10 3) (seg w 9 1) (seg w 7 2) (seg w 4 3))
  else if seg w 0 4 = 4 ∧ seg w 19 1 = 0 then some (.vamoSwap (seg w 31 1) (seg w 20 4) (seg w 13 6) (seg w 10 3) (seg w 9 1) (seg w 7 2) (seg w 4 3))
  else if seg w 0 4 = 5 ∧ seg w 19 1 = 0 then some (.vamoMin (seg w 31 1) (seg w 20 4) (seg w 13 6) (seg w 10 3) (seg w 9 1) (seg w 7 2) (seg w 4 3))
  else if seg w 0 4 = 6 ∧ seg w 19 1 = 0 then some (.vamoMax (seg w 31 1) (seg w 20 4) (seg w 13 6) (seg w 10 3) (seg w 9 1) (seg w 7 2) (seg w 4 3))
  else if seg w 0 4 = 7 ∧ seg w 19 1 = 0 then some (.vamoFadd32 (seg w 31 1) (seg w 20 4) (seg w 13 6) (seg w 10 3) (seg w 9 1) (seg w 7 2) (seg w 4 3))
  else if seg w 0 4 = 8 ∧ seg w 19 1 = 0 then some (.vamoUmin (seg w 31 1) (seg w 20 4) (seg w 13 6) (seg w 10 3) (seg w 9 1) (seg w 7 2) (seg w 4 3))
  else if seg w 0 4 = 9 ∧ seg w 19 1 = 0 then some (.vamoUmax (seg w 31 1) (seg w 20 4) (seg w 13 6) (seg w 10 3) (seg w 9 1) (seg w 7 2) (seg w 4 3))
  else if seg w 0 4 = 11 ∧ seg w 19 1 = 0 then some (.vamoIncb (seg w 31 1) (seg w 20 4) (seg w 13 6) (seg w 10 3) (seg w 9 1) (seg w 7 2) (seg w 4 3))
  else if seg w 0 4 = 12 ∧ seg w 19 1 = 0 then some (.vamoFmin32 (seg w 31 1) (seg w 20 4) (seg w 13 6) (seg w 10 3) (seg w 9 1) (seg w 7 2) (seg w 4 3))
  else if seg w 0 4 = 13 ∧ seg w 19 1 = 0 then some (.vamoFmax32 (seg w 31 1) (seg w 20 4) (seg w 13 6) (seg w 10 3) (seg w 9 1) (seg w 7 2) (seg w 4 3))
  else if seg w 0 4 = 14 ∧ seg w 9 1 = 0 ∧ seg w 19 1 = 0 then some (.vamoAdd32w (seg w 31 1) (seg w 20 4) (seg w 13 6) (seg w 10 3) (seg w 7 2) (seg w 4 3))
  else if seg w 0 4 = 15 ∧ seg w 19 1 = 0 then some (.vamoFadd16x2 (seg w 31 1) (seg w 20 4) (seg w 13 6) (seg w 10 3) (seg w 9 1) (seg w 7 2) (seg w 4 3))
  else none

/-- Major 0x68. -/
noncomputable def decode68 (w : Insn) : Option Instr :=
  if seg w 0 6 = 0 ∧ seg w 9 5 = 0 then some (.vselMax (seg w 31 1) (seg w 19 5) (seg w 14 5) (seg w 6 3))
  else if seg w 0 6 = 1 ∧ seg w 9 5 = 0 then some (.vselMin (seg w 31 1) (seg w 19 5) (seg w 14 5) (seg w 6 3))
  else if seg w 0 6 = 2 ∧ seg w 9 5 = 0 then some (.vselMaxClr (seg w 31 1) (seg w 19 5) (seg w 14 5) (seg w 6 3))
  else if seg w 0 6 = 3 ∧ seg w 9 5 = 0 then some (.vselMinClr (seg w 31 1) (seg w 19 5) (seg w 14 5) (seg w 6 3))
  else none

/-- Major 0x69. -/
noncomputable def decode69 (w : Insn) : Option Instr :=
  if seg w 0 6 = 0 ∧ seg w 9 5 = 0 ∧ seg w 17 2 = 0 ∧ seg w 22 2 = 0 then some (.vexitBefore (seg w 31 1) (seg w 19 3) (seg w 14 3) (seg w 6 3))
  else if seg w 0 6 = 1 ∧ seg w 9 5 = 0 ∧ seg w 17 2 = 0 ∧ seg w 22 2 = 0 then some (.vexitIncl (seg w 31 1) (seg w 19 3) (seg w 14 3) (seg w 6 3))
  else if seg w 0 6 = 2 ∧ seg w 9 5 = 0 ∧ seg w 17 2 = 0 ∧ seg w 22 2 = 0 then some (.vexitOnly (seg w 31 1) (seg w 19 3) (seg w 14 3) (seg w 6 3))
  else none

/-- Major 0x6B. -/
noncomputable def decode6B (w : Insn) : Option Instr :=
  if seg w 0 6 = 0 ∧ seg w 9 5 = 0 ∧ seg w 14 5 = 0 then some (.vscanIdx (seg w 31 1) (seg w 19 5) (seg w 6 3))
  else if seg w 0 6 = 1 then some (.vscanAdd (seg w 31 1) (seg w 19 5) (seg w 14 5) (seg w 9 5) (seg w 6 3))
  else if seg w 0 6 = 2 then some (.vscanAddx (seg w 31 1) (seg w 19 5) (seg w 14 5) (seg w 9 5) (seg w 6 3))
  else if seg w 0 6 = 3 then some (.vscanMax (seg w 31 1) (seg w 19 5) (seg w 14 5) (seg w 9 5) (seg w 6 3))
  else if seg w 0 6 = 4 then some (.vscanMaxu (seg w 31 1) (seg w 19 5) (seg w 14 5) (seg w 9 5) (seg w 6 3))
  else none

/-- Major 0x6A. -/
noncomputable def decode6A (w : Insn) : Option Instr :=
  if seg w 0 12 = 0 ∧ seg w 15 3 = 0 ∧ seg w 18 6 = 0 ∧ seg w 31 1 = 0 then some (.ltsplit (seg w 12 3))
  else if seg w 0 12 = 1 ∧ seg w 12 3 = 0 ∧ seg w 15 3 = 0 ∧ seg w 18 6 = 0 ∧ seg w 31 1 = 0 then some .ltjoin
  else if seg w 0 12 = 2 ∧ seg w 12 3 = 0 ∧ seg w 15 3 = 0 ∧ seg w 18 6 = 0 ∧ seg w 31 1 = 0 then some .ltyield
  else if seg w 0 12 = 3 ∧ seg w 12 3 = 0 ∧ seg w 15 3 = 0 ∧ seg w 31 1 = 0 then some (.ltid (seg w 18 6))
  else none

/-- Major 0x50. -/
noncomputable def decode50 (w : Insn) : Option Instr :=
  if seg w 0 12 = 0 ∧ seg w 18 6 = 0 then some (.mshape (seg w 31 1) (seg w 12 6))
  else none

/-- Major 0x51. -/
noncomputable def decode51 (w : Insn) : Option Instr :=
  if seg w 0 5 = 0 then some (.mmaSet (seg w 31 1) (seg w 21 3) (seg w 13 8) (seg w 5 8))
  else if seg w 0 5 = 1 then some (.mmaAcc (seg w 31 1) (seg w 21 3) (seg w 13 8) (seg w 5 8))
  else if seg w 0 5 = 2 then some (.mmaSetSp (seg w 31 1) (seg w 21 3) (seg w 13 8) (seg w 5 8))
  else if seg w 0 5 = 3 then some (.mmaAccSp (seg w 31 1) (seg w 21 3) (seg w 13 8) (seg w 5 8))
  else if seg w 0 5 = 4 then some (.mmaSetGrp (seg w 31 1) (seg w 21 3) (seg w 13 8) (seg w 5 8))
  else if seg w 0 5 = 5 then some (.mmaAccGrp (seg w 31 1) (seg w 21 3) (seg w 13 8) (seg w 5 8))
  else none

/-- Major 0x52. -/
noncomputable def decode52 (w : Insn) : Option Instr :=
  if seg w 0 5 = 0 then some (.mmagSet (seg w 31 1) (seg w 21 3) (seg w 13 8) (seg w 5 8))
  else if seg w 0 5 = 1 then some (.mmagAcc (seg w 31 1) (seg w 21 3) (seg w 13 8) (seg w 5 8))
  else none

/-- Major 0x53. -/
noncomputable def decode53 (w : Insn) : Option Instr :=
  if seg w 0 13 = 0 ∧ seg w 18 3 = 0 then some (.mmetaMeta (seg w 31 1) (seg w 21 3) (seg w 13 5))
  else if seg w 0 13 = 1 ∧ seg w 18 3 = 0 ∧ seg w 21 3 = 0 then some (.mmetaIdx (seg w 31 1) (seg w 13 5))
  else if seg w 0 13 = 2 ∧ seg w 18 3 = 0 ∧ seg w 21 3 = 0 then some (.mmetaRows (seg w 31 1) (seg w 13 5))
  else none

/-- Major 0x54. -/
noncomputable def decode54 (w : Insn) : Option Instr :=
  if seg w 0 13 = 0 ∧ seg w 13 8 = 0 then some (.mtileZero (seg w 31 1) (seg w 21 3))
  else if seg w 0 13 = 1 then some (.mtileLd (seg w 31 1) (seg w 21 3) (seg w 13 8))
  else if seg w 0 13 = 2 then some (.mtileSt (seg w 31 1) (seg w 21 3) (seg w 13 8))
  else none

/-- Major 0x55. -/
noncomputable def decode55 (w : Insn) : Option Instr :=
  if seg w 0 5 = 0 ∧ seg w 11 2 = 0 ∧ seg w 18 3 = 0 then some (.mdrain (seg w 31 1) (seg w 21 3) (seg w 13 5) (seg w 5 6))
  else none

/-- Major 0x58. -/
noncomputable def decode58 (w : Insn) : Option Instr :=
  if seg w 0 6 = 0 ∧ seg w 20 4 = 0 ∧ seg w 31 1 = 0 then some (.pset (seg w 12 8) (seg w 6 6))
  else none

/-- Major 0x59. -/
noncomputable def decode59 (w : Insn) : Option Instr :=
  if seg w 6 6 = 0 ∧ seg w 20 4 = 0 ∧ seg w 31 1 = 0 then some (.swset (seg w 12 8) (seg w 0 6))
  else if seg w 6 6 = 0 ∧ seg w 12 8 = 0 ∧ seg w 20 4 = 1 ∧ seg w 31 1 = 0 then some (.swsetClr (seg w 0 6))
  else none

/-- Major 0x5A. -/
noncomputable def decode5A (w : Insn) : Option Instr :=
  if seg w 0 6 = 0 ∧ seg w 6 6 = 0 ∧ seg w 31 1 = 0 then some (.shstageSrc (seg w 20 4) (seg w 12 8))
  else if seg w 0 6 = 1 ∧ seg w 6 6 = 0 ∧ seg w 31 1 = 0 then some (.shstageDst (seg w 20 4) (seg w 12 8))
  else if seg w 0 6 = 2 ∧ seg w 6 6 = 0 ∧ seg w 31 1 = 0 then some (.shstageIdx (seg w 20 4) (seg w 12 8))
  else if seg w 0 6 = 3 ∧ seg w 12 5 = 0 ∧ seg w 17 1 = 0 ∧ seg w 18 2 = 0 ∧ seg w 31 1 = 0 then some (.shstageSbase (seg w 20 4) (seg w 6 6))
  else if seg w 0 6 = 4 ∧ seg w 12 5 = 0 ∧ seg w 17 1 = 0 ∧ seg w 18 2 = 0 ∧ seg w 31 1 = 0 then some (.shstageDbase (seg w 20 4) (seg w 6 6))
  else if seg w 0 6 = 5 ∧ seg w 12 5 = 0 ∧ seg w 17 1 = 0 ∧ seg w 18 2 = 0 ∧ seg w 31 1 = 0 then some (.shstageBar (seg w 20 4) (seg w 6 6))
  else if seg w 0 6 = 6 ∧ seg w 6 6 = 0 ∧ seg w 18 2 = 0 ∧ seg w 31 1 = 0 then some (.shstageSw (seg w 20 4) (seg w 12 6))
  else if seg w 0 6 = 7 ∧ seg w 6 6 = 0 ∧ seg w 31 1 = 0 then some (.shstagePort (seg w 20 4) (seg w 12 8))
  else if seg w 0 6 = 8 ∧ seg w 6 6 = 0 ∧ seg w 17 1 = 0 ∧ seg w 18 2 = 0 ∧ seg w 31 1 = 0 then some (.shstageRtn (seg w 20 4) (seg w 12 5))
  else if seg w 0 6 = 9 ∧ seg w 6 6 = 0 ∧ seg w 12 5 = 0 ∧ seg w 17 1 = 0 ∧ seg w 18 2 = 0 ∧ seg w 31 1 = 0 then some (.shstageClr (seg w 20 4))
  else if seg w 0 6 = 10 ∧ seg w 6 6 = 0 ∧ seg w 12 5 = 0 ∧ seg w 17 1 = 0 ∧ seg w 18 2 = 0 ∧ seg w 31 1 = 0 then some (.shstageRstat (seg w 20 4))
  else none

/-- Major 0x5B. -/
noncomputable def decode5B (w : Insn) : Option Instr :=
  if seg w 0 3 = 0 ∧ seg w 4 2 = 0 ∧ seg w 12 8 = 0 ∧ seg w 31 1 = 0 then some (.shgoCopy (seg w 20 4) (seg w 6 6) (seg w 3 1))
  else if seg w 0 3 = 1 ∧ seg w 4 2 = 0 ∧ seg w 12 8 = 0 ∧ seg w 31 1 = 0 then some (.shgoRows (seg w 20 4) (seg w 6 6) (seg w 3 1))
  else if seg w 0 3 = 2 ∧ seg w 4 2 = 0 ∧ seg w 12 8 = 0 ∧ seg w 31 1 = 0 then some (.shgoStream (seg w 20 4) (seg w 6 6) (seg w 3 1))
  else if seg w 0 3 = 3 ∧ seg w 4 2 = 0 ∧ seg w 12 8 = 0 ∧ seg w 31 1 = 0 then some (.shgoSend (seg w 20 4) (seg w 6 6) (seg w 3 1))
  else if seg w 0 3 = 4 ∧ seg w 4 2 = 0 ∧ seg w 12 8 = 0 ∧ seg w 31 1 = 0 then some (.shgoBodkin (seg w 20 4) (seg w 6 6) (seg w 3 1))
  else none

/-- Major 0x5C. -/
noncomputable def decode5C (w : Insn) : Option Instr :=
  if seg w 0 6 = 0 ∧ seg w 12 6 = 0 ∧ seg w 18 2 = 0 ∧ seg w 31 1 = 0 then some (.shstatTl (seg w 20 4) (seg w 6 6))
  else if seg w 0 6 = 1 ∧ seg w 12 6 = 0 ∧ seg w 18 2 = 0 ∧ seg w 31 1 = 0 then some (.shstatMiss (seg w 20 4) (seg w 6 6))
  else if seg w 0 6 = 2 ∧ seg w 12 6 = 0 ∧ seg w 18 2 = 0 ∧ seg w 31 1 = 0 then some (.shstatErr (seg w 20 4) (seg w 6 6))
  else if seg w 0 6 = 3 ∧ seg w 12 6 = 0 ∧ seg w 18 2 = 0 ∧ seg w 31 1 = 0 then some (.shstatAddr (seg w 20 4) (seg w 6 6))
  else if seg w 0 6 = 4 ∧ seg w 18 2 = 0 ∧ seg w 31 1 = 0 then some (.shstatLanded (seg w 20 4) (seg w 12 6) (seg w 6 6))
  else if seg w 0 6 = 5 ∧ seg w 12 6 = 0 ∧ seg w 18 2 = 0 ∧ seg w 31 1 = 0 then some (.shstatNext (seg w 20 4) (seg w 6 6))
  else if seg w 0 6 = 6 ∧ seg w 18 2 = 0 ∧ seg w 20 4 = 0 ∧ seg w 31 1 = 0 then some (.shstatSw (seg w 12 6) (seg w 6 6))
  else if seg w 0 6 = 7 ∧ seg w 20 4 = 0 ∧ seg w 31 1 = 0 then some (.shstatPv (seg w 12 8) (seg w 6 6))
  else none

/-- Major 0x5D. -/
noncomputable def decode5D (w : Insn) : Option Instr :=
  if seg w 0 6 = 0 ∧ seg w 20 4 = 0 ∧ seg w 31 1 = 0 then some (.shportStat (seg w 12 8) (seg w 6 6))
  else if seg w 0 6 = 1 ∧ seg w 6 6 = 0 ∧ seg w 20 4 = 0 ∧ seg w 31 1 = 0 then some (.shportDisc (seg w 12 8))
  else none

/-- Major 0x64. -/
noncomputable def decode64 (w : Insn) : Option Instr :=
  if seg w 12 6 = 0 ∧ seg w 18 3 = 0 ∧ seg w 31 1 = 0 then some (.waittl (seg w 21 3) (seg w 6 6) (seg w 0 6))
  else if seg w 12 6 = 0 ∧ seg w 18 3 = 1 ∧ seg w 31 1 = 0 then some (.sigtl (seg w 21 3) (seg w 6 6) (seg w 0 6))
  else if seg w 0 6 = 0 ∧ seg w 18 3 = 2 ∧ seg w 21 3 = 0 ∧ seg w 31 1 = 0 then some (.rdtl (seg w 12 6) (seg w 6 6))
  else if seg w 18 3 = 3 ∧ seg w 31 1 = 0 then some (.trytl (seg w 21 3) (seg w 12 6) (seg w 6 6) (seg w 0 6))
  else none

/-- Major 0x65. -/
noncomputable def decode65 (w : Insn) : Option Instr :=
  if seg w 12 6 = 0 ∧ seg w 18 3 = 0 ∧ seg w 31 1 = 0 then some (.binit (seg w 21 3) (seg w 6 6) (seg w 0 6))
  else if seg w 18 3 = 1 ∧ seg w 31 1 = 0 then some (.barrive (seg w 21 3) (seg w 12 6) (seg w 6 6) (seg w 0 6))
  else if seg w 12 6 = 0 ∧ seg w 18 3 = 2 ∧ seg w 31 1 = 0 then some (.bwait (seg w 21 3) (seg w 6 6) (seg w 0 6))
  else if seg w 18 3 = 3 ∧ seg w 31 1 = 0 then some (.btry (seg w 21 3) (seg w 12 6) (seg w 6 6) (seg w 0 6))
  else if seg w 0 6 = 0 ∧ seg w 18 3 = 4 ∧ seg w 21 3 = 0 ∧ seg w 31 1 = 0 then some (.lock (seg w 12 6) (seg w 6 6))
  else if seg w 0 6 = 0 ∧ seg w 18 3 = 5 ∧ seg w 21 3 = 0 ∧ seg w 31 1 = 0 then some (.unlock (seg w 12 6) (seg w 6 6))
  else none

/-- Major 0x60. -/
noncomputable def decode60 (w : Insn) : Option Instr :=
  if seg w 0 21 = 0 ∧ seg w 31 1 = 0 then some (.fenceRel (seg w 21 3))
  else if seg w 0 21 = 262144 ∧ seg w 31 1 = 0 then some (.fenceAcq (seg w 21 3))
  else if seg w 0 21 = 524288 ∧ seg w 31 1 = 0 then some (.fenceFull (seg w 21 3))
  else none

/-- Major 0x61. -/
noncomputable def decode61 (w : Insn) : Option Instr :=
  if seg w 18 3 = 0 ∧ seg w 31 1 = 0 then some (.amoAdd (seg w 21 3) (seg w 12 6) (seg w 6 6) (seg w 0 6))
  else if seg w 18 3 = 1 ∧ seg w 31 1 = 0 then some (.amoAnd (seg w 21 3) (seg w 12 6) (seg w 6 6) (seg w 0 6))
  else if seg w 18 3 = 2 ∧ seg w 31 1 = 0 then some (.amoOr (seg w 21 3) (seg w 12 6) (seg w 6 6) (seg w 0 6))
  else if seg w 18 3 = 3 ∧ seg w 31 1 = 0 then some (.amoXor (seg w 21 3) (seg w 12 6) (seg w 6 6) (seg w 0 6))
  else if seg w 18 3 = 4 ∧ seg w 31 1 = 0 then some (.amoSwap (seg w 21 3) (seg w 12 6) (seg w 6 6) (seg w 0 6))
  else if seg w 18 3 = 5 ∧ seg w 31 1 = 0 then some (.amoMin (seg w 21 3) (seg w 12 6) (seg w 6 6) (seg w 0 6))
  else if seg w 18 3 = 6 ∧ seg w 31 1 = 0 then some (.amoMax (seg w 21 3) (seg w 12 6) (seg w 6 6) (seg w 0 6))
  else if seg w 18 3 = 7 ∧ seg w 31 1 = 0 then some (.amoFadd32 (seg w 21 3) (seg w 12 6) (seg w 6 6) (seg w 0 6))
  else none

/-- Major 0x62. -/
noncomputable def decode62 (w : Insn) : Option Instr :=
  if seg w 18 3 = 0 ∧ seg w 31 1 = 0 then some (.amo2Umin (seg w 21 3) (seg w 12 6) (seg w 6 6) (seg w 0 6))
  else if seg w 18 3 = 1 ∧ seg w 31 1 = 0 then some (.amo2Umax (seg w 21 3) (seg w 12 6) (seg w 6 6) (seg w 0 6))
  else if seg w 18 3 = 2 ∧ seg w 31 1 = 0 then some (.amo2Cas (seg w 21 3) (seg w 12 6) (seg w 6 6) (seg w 0 6))
  else if seg w 18 3 = 3 ∧ seg w 31 1 = 0 then some (.amo2Incb (seg w 21 3) (seg w 12 6) (seg w 6 6) (seg w 0 6))
  else if seg w 18 3 = 4 ∧ seg w 31 1 = 0 then some (.amo2Fmin32 (seg w 21 3) (seg w 12 6) (seg w 6 6) (seg w 0 6))
  else if seg w 18 3 = 5 ∧ seg w 31 1 = 0 then some (.amo2Fmax32 (seg w 21 3) (seg w 12 6) (seg w 6 6) (seg w 0 6))
  else if seg w 18 3 = 6 ∧ seg w 31 1 = 0 then some (.amo2Add32w (seg w 21 3) (seg w 12 6) (seg w 6 6) (seg w 0 6))
  else if seg w 18 3 = 7 ∧ seg w 31 1 = 0 then some (.amo2Fadd16x2 (seg w 21 3) (seg w 12 6) (seg w 6 6) (seg w 0 6))
  else none

/-- Major 0x63. -/
noncomputable def decode63 (w : Insn) : Option Instr :=
  if seg w 0 6 = 0 ∧ seg w 20 1 = 0 ∧ seg w 31 1 = 0 then some (.ldacq (seg w 21 3) (seg w 18 2) (seg w 12 6) (seg w 6 6))
  else if seg w 12 6 = 0 ∧ seg w 20 1 = 1 ∧ seg w 31 1 = 0 then some (.strel (seg w 21 3) (seg w 18 2) (seg w 6 6) (seg w 0 6))
  else none

/-- Major 0x70. -/
noncomputable def decode70 (w : Insn) : Option Instr :=
  if seg w 0 6 = 0 ∧ seg w 6 6 = 0 ∧ seg w 31 1 = 0 then some (.launch (seg w 18 6) (seg w 12 6))
  else if seg w 0 6 = 1 ∧ seg w 6 6 = 0 ∧ seg w 31 1 = 0 then some (.launchId (seg w 18 6) (seg w 12 6))
  else if seg w 0 6 = 2 ∧ seg w 31 1 = 0 then some (.launchGate (seg w 18 6) (seg w 12 6) (seg w 6 6))
  else if seg w 0 6 = 3 ∧ seg w 31 1 = 0 then some (.launchGateId (seg w 18 6) (seg w 12 6) (seg w 6 6))
  else if seg w 0 6 = 4 ∧ seg w 6 6 = 0 ∧ seg w 31 1 = 0 then some (.lwait (seg w 18 6) (seg w 12 6))
  else if seg w 0 6 = 5 ∧ seg w 6 6 = 0 ∧ seg w 31 1 = 0 then some (.ltry (seg w 18 6) (seg w 12 6))
  else if seg w 0 6 = 6 ∧ seg w 6 6 = 0 ∧ seg w 31 1 = 0 then some (.lcancel (seg w 18 6) (seg w 12 6))
  else none

/-- Major 0x71. -/
noncomputable def decode71 (w : Insn) : Option Instr :=
  if seg w 0 6 = 0 ∧ seg w 10 2 = 0 ∧ seg w 31 1 = 0 then some (.msend (seg w 18 6) (seg w 12 6) (seg w 6 4))
  else if seg w 0 6 = 1 ∧ seg w 31 1 = 0 then some (.msendw (seg w 18 6) (seg w 12 6) (seg w 6 6))
  else if seg w 0 6 = 2 ∧ seg w 10 2 = 0 ∧ seg w 12 6 = 0 ∧ seg w 31 1 = 0 then some (.mrecv (seg w 18 6) (seg w 6 4))
  else if seg w 0 6 = 3 ∧ seg w 10 2 = 0 ∧ seg w 12 6 = 0 ∧ seg w 31 1 = 0 then some (.mtry (seg w 18 6) (seg w 6 4))
  else if seg w 0 6 = 4 ∧ seg w 18 6 = 0 ∧ seg w 31 1 = 0 then some (.msigtl (seg w 12 6) (seg w 6 6))
  else if seg w 0 6 = 5 ∧ seg w 18 6 = 0 ∧ seg w 31 1 = 0 then some (.mwaittl (seg w 12 6) (seg w 6 6))
  else if seg w 0 6 = 6 ∧ seg w 31 1 = 0 then some (.mtrytl (seg w 18 6) (seg w 12 6) (seg w 6 6))
  else if seg w 0 6 = 16 ∧ seg w 31 1 = 0 then some (.mamoAdd (seg w 18 6) (seg w 12 6) (seg w 6 6))
  else if seg w 0 6 = 17 ∧ seg w 31 1 = 0 then some (.mamoAnd (seg w 18 6) (seg w 12 6) (seg w 6 6))
  else if seg w 0 6 = 18 ∧ seg w 31 1 = 0 then some (.mamoOr (seg w 18 6) (seg w 12 6) (seg w 6 6))
  else if seg w 0 6 = 19 ∧ seg w 31 1 = 0 then some (.mamoXor (seg w 18 6) (seg w 12 6) (seg w 6 6))
  else if seg w 0 6 = 20 ∧ seg w 31 1 = 0 then some (.mamoSwap (seg w 18 6) (seg w 12 6) (seg w 6 6))
  else if seg w 0 6 = 21 ∧ seg w 31 1 = 0 then some (.mamoMin (seg w 18 6) (seg w 12 6) (seg w 6 6))
  else if seg w 0 6 = 22 ∧ seg w 31 1 = 0 then some (.mamoMax (seg w 18 6) (seg w 12 6) (seg w 6 6))
  else if seg w 0 6 = 23 ∧ seg w 31 1 = 0 then some (.mamoFadd32 (seg w 18 6) (seg w 12 6) (seg w 6 6))
  else if seg w 0 6 = 24 ∧ seg w 31 1 = 0 then some (.mamo2Umin (seg w 18 6) (seg w 12 6) (seg w 6 6))
  else if seg w 0 6 = 25 ∧ seg w 31 1 = 0 then some (.mamo2Umax (seg w 18 6) (seg w 12 6) (seg w 6 6))
  else if seg w 0 6 = 26 ∧ seg w 31 1 = 0 then some (.mamo2Cas (seg w 18 6) (seg w 12 6) (seg w 6 6))
  else if seg w 0 6 = 27 ∧ seg w 31 1 = 0 then some (.mamo2Incb (seg w 18 6) (seg w 12 6) (seg w 6 6))
  else if seg w 0 6 = 28 ∧ seg w 31 1 = 0 then some (.mamo2Fmin32 (seg w 18 6) (seg w 12 6) (seg w 6 6))
  else if seg w 0 6 = 29 ∧ seg w 31 1 = 0 then some (.mamo2Fmax32 (seg w 18 6) (seg w 12 6) (seg w 6 6))
  else if seg w 0 6 = 30 ∧ seg w 31 1 = 0 then some (.mamo2Add32w (seg w 18 6) (seg w 12 6) (seg w 6 6))
  else if seg w 0 6 = 31 ∧ seg w 31 1 = 0 then some (.mamo2Fadd16x2 (seg w 18 6) (seg w 12 6) (seg w 6 6))
  else none

/-- Major 0x72. -/
noncomputable def decode72 (w : Insn) : Option Instr :=
  if seg w 0 6 = 0 ∧ seg w 6 6 = 0 ∧ seg w 18 6 = 0 ∧ seg w 31 1 = 0 then some (.supvCarea (seg w 12 6))
  else if seg w 0 6 = 1 ∧ seg w 6 6 = 0 ∧ seg w 12 6 = 0 ∧ seg w 18 6 = 0 ∧ seg w 31 1 = 0 then some .supvCsave
  else if seg w 0 6 = 2 ∧ seg w 6 6 = 0 ∧ seg w 12 6 = 0 ∧ seg w 18 6 = 0 ∧ seg w 31 1 = 0 then some .supvCrest
  else if seg w 0 6 = 3 ∧ seg w 6 6 = 0 ∧ seg w 12 6 = 0 ∧ seg w 18 6 = 0 ∧ seg w 31 1 = 0 then some .supvTack
  else if seg w 0 6 = 4 ∧ seg w 6 6 = 0 ∧ seg w 18 6 = 0 ∧ seg w 31 1 = 0 then some (.supvTset (seg w 12 6))
  else if seg w 0 6 = 5 ∧ seg w 6 6 = 0 ∧ seg w 18 6 = 0 ∧ seg w 31 1 = 0 then some (.supvEack (seg w 12 6))
  else if seg w 0 6 = 6 ∧ seg w 6 6 = 0 ∧ seg w 12 6 = 0 ∧ seg w 18 6 = 0 ∧ seg w 31 1 = 0 then some .supvPack
  else if seg w 0 6 = 7 ∧ seg w 18 6 = 0 ∧ seg w 31 1 = 0 then some (.supvTlbinv (seg w 12 6) (seg w 6 6))
  else if seg w 0 6 = 8 ∧ seg w 6 6 = 0 ∧ seg w 31 1 = 0 then some (.supvQuiesce (seg w 18 6) (seg w 12 6))
  else if seg w 0 6 = 9 ∧ seg w 6 6 = 0 ∧ seg w 18 6 = 0 ∧ seg w 31 1 = 0 then some (.supvResume (seg w 12 6))
  else if seg w 0 6 = 10 ∧ seg w 18 6 = 0 ∧ seg w 31 1 = 0 then some (.supvReplay (seg w 12 6) (seg w 6 6))
  else if seg w 0 6 = 11 ∧ seg w 31 1 = 0 then some (.supvRtn (seg w 18 6) (seg w 12 6) (seg w 6 6))
  else if seg w 0 6 = 12 ∧ seg w 18 6 = 0 ∧ seg w 31 1 = 0 then some (.supvSvch (seg w 12 6) (seg w 6 6))
  else none

/-- Major 0x73. -/
noncomputable def decode73 (w : Insn) : Option Instr :=
  if seg w 0 12 = 0 ∧ seg w 20 1 = 0 ∧ seg w 31 1 = 0 then some (.seamRead (seg w 21 3) (seg w 18 2) (seg w 12 6))
  else if seg w 0 12 = 0 ∧ seg w 18 2 = 0 ∧ seg w 20 1 = 1 ∧ seg w 21 3 = 0 ∧ seg w 31 1 = 0 then some (.seamHealth (seg w 12 6))
  else none

/-- The opcode map of R50: the form of a word, or the reason it has none. -/
noncomputable def decodeForm (w : Insn) : Except DecodeError Instr :=
  match (match (seg w 24 7).toNat with
    | 0x01 => some (decode01 w)
    | 0x02 => some (decode02 w)
    | 0x03 => some (decode03 w)
    | 0x04 => some (decode04 w)
    | 0x05 => some (decode05 w)
    | 0x06 => some (decode06 w)
    | 0x07 => some (decode07 w)
    | 0x09 => some (decode09 w)
    | 0x0A => some (decode0A w)
    | 0x08 => some (decode08 w)
    | 0x0B => some (decode0B w)
    | 0x0C => some (decode0C w)
    | 0x0D => some (decode0D w)
    | 0x0E => some (decode0E w)
    | 0x0F => some (decode0F w)
    | 0x10 => some (decode10 w)
    | 0x11 => some (decode11 w)
    | 0x12 => some (decode12 w)
    | 0x13 => some (decode13 w)
    | 0x14 => some (decode14 w)
    | 0x15 => some (decode15 w)
    | 0x16 => some (decode16 w)
    | 0x17 => some (decode17 w)
    | 0x18 => some (decode18 w)
    | 0x1B => some (decode1B w)
    | 0x19 => some (decode19 w)
    | 0x1A => some (decode1A w)
    | 0x20 => some (decode20 w)
    | 0x21 => some (decode21 w)
    | 0x22 => some (decode22 w)
    | 0x23 => some (decode23 w)
    | 0x24 => some (decode24 w)
    | 0x3A => some (decode3A w)
    | 0x25 => some (decode25 w)
    | 0x26 => some (decode26 w)
    | 0x27 => some (decode27 w)
    | 0x28 => some (decode28 w)
    | 0x29 => some (decode29 w)
    | 0x2A => some (decode2A w)
    | 0x2B => some (decode2B w)
    | 0x2C => some (decode2C w)
    | 0x2F => some (decode2F w)
    | 0x30 => some (decode30 w)
    | 0x31 => some (decode31 w)
    | 0x2D => some (decode2D w)
    | 0x4C => some (decode4C w)
    | 0x2E => some (decode2E w)
    | 0x4A => some (decode4A w)
    | 0x4F => some (decode4F w)
    | 0x4B => some (decode4B w)
    | 0x4D => some (decode4D w)
    | 0x4E => some (decode4E w)
    | 0x40 => some (decode40 w)
    | 0x41 => some (decode41 w)
    | 0x42 => some (decode42 w)
    | 0x43 => some (decode43 w)
    | 0x44 => some (decode44 w)
    | 0x45 => some (decode45 w)
    | 0x46 => some (decode46 w)
    | 0x47 => some (decode47 w)
    | 0x48 => some (decode48 w)
    | 0x49 => some (decode49 w)
    | 0x32 => some (decode32 w)
    | 0x33 => some (decode33 w)
    | 0x34 => some (decode34 w)
    | 0x35 => some (decode35 w)
    | 0x36 => some (decode36 w)
    | 0x37 => some (decode37 w)
    | 0x38 => some (decode38 w)
    | 0x39 => some (decode39 w)
    | 0x68 => some (decode68 w)
    | 0x69 => some (decode69 w)
    | 0x6B => some (decode6B w)
    | 0x6A => some (decode6A w)
    | 0x50 => some (decode50 w)
    | 0x51 => some (decode51 w)
    | 0x52 => some (decode52 w)
    | 0x53 => some (decode53 w)
    | 0x54 => some (decode54 w)
    | 0x55 => some (decode55 w)
    | 0x58 => some (decode58 w)
    | 0x59 => some (decode59 w)
    | 0x5A => some (decode5A w)
    | 0x5B => some (decode5B w)
    | 0x5C => some (decode5C w)
    | 0x5D => some (decode5D w)
    | 0x64 => some (decode64 w)
    | 0x65 => some (decode65 w)
    | 0x60 => some (decode60 w)
    | 0x61 => some (decode61 w)
    | 0x62 => some (decode62 w)
    | 0x63 => some (decode63 w)
    | 0x70 => some (decode70 w)
    | 0x71 => some (decode71 w)
    | 0x72 => some (decode72 w)
    | 0x73 => some (decode73 w)
    | _ => none) with
  | none => .error .unassignedMajor
  | some none => .error .unlistedForm
  | some (some i) => .ok i

/-- The decoder: the form of the word, whose selecting fields must hold listed values (R51). -/
noncomputable def decode (w : Insn) : Except DecodeError Instr :=
  match decodeForm w with
  | .error e => .error e
  | .ok i => if i.wellFormed then .ok i else .error .refusedField

/-- A field's value at its place in the word. -/
abbrev fld {n : Nat} (v : BitVec n) (lo : Nat) : Insn := v.setWidth 32 <<< lo

/-- The word of an instruction: the fixed bits of its form and its fields, from its encoding table. An event has no word; its arm is 0. -/
def encode : Instr → Insn
  | .add d a b => 0x01000000#32 ||| fld d 18 ||| fld a 12 ||| fld b 6
  | .sub d a b => 0x01000001#32 ||| fld d 18 ||| fld a 12 ||| fld b 6
  | .andR d a b => 0x01000002#32 ||| fld d 18 ||| fld a 12 ||| fld b 6
  | .orR d a b => 0x01000003#32 ||| fld d 18 ||| fld a 12 ||| fld b 6
  | .xorR d a b => 0x01000004#32 ||| fld d 18 ||| fld a 12 ||| fld b 6
  | .sll d a b => 0x01000005#32 ||| fld d 18 ||| fld a 12 ||| fld b 6
  | .srl d a b => 0x01000006#32 ||| fld d 18 ||| fld a 12 ||| fld b 6
  | .sra d a b => 0x01000007#32 ||| fld d 18 ||| fld a 12 ||| fld b 6
  | .slt d a b => 0x01000008#32 ||| fld d 18 ||| fld a 12 ||| fld b 6
  | .sltu d a b => 0x01000009#32 ||| fld d 18 ||| fld a 12 ||| fld b 6
  | .min d a b => 0x0100000A#32 ||| fld d 18 ||| fld a 12 ||| fld b 6
  | .max d a b => 0x0100000B#32 ||| fld d 18 ||| fld a 12 ||| fld b 6
  | .minu d a b => 0x0100000C#32 ||| fld d 18 ||| fld a 12 ||| fld b 6
  | .maxu d a b => 0x0100000D#32 ||| fld d 18 ||| fld a 12 ||| fld b 6
  | .andn d a b => 0x0100000E#32 ||| fld d 18 ||| fld a 12 ||| fld b 6
  | .absd d a b => 0x0100000F#32 ||| fld d 18 ||| fld a 12 ||| fld b 6
  | .mul d a b => 0x01000010#32 ||| fld d 18 ||| fld a 12 ||| fld b 6
  | .hmul d a b => 0x01000011#32 ||| fld d 18 ||| fld a 12 ||| fld b 6
  | .hmulu d a b => 0x01000012#32 ||| fld d 18 ||| fld a 12 ||| fld b 6
  | .hmulsu d a b => 0x01000013#32 ||| fld d 18 ||| fld a 12 ||| fld b 6
  | .div d a b => 0x01000014#32 ||| fld d 18 ||| fld a 12 ||| fld b 6
  | .divu d a b => 0x01000015#32 ||| fld d 18 ||| fld a 12 ||| fld b 6
  | .rem d a b => 0x01000016#32 ||| fld d 18 ||| fld a 12 ||| fld b 6
  | .remu d a b => 0x01000017#32 ||| fld d 18 ||| fld a 12 ||| fld b 6
  | .clz d a => 0x01000018#32 ||| fld d 18 ||| fld a 12
  | .ctz d a => 0x01000019#32 ||| fld d 18 ||| fld a 12
  | .popc d a => 0x0100001A#32 ||| fld d 18 ||| fld a 12
  | .bswap d a => 0x0100001B#32 ||| fld d 18 ||| fld a 12
  | .addw d a b => 0x02000000#32 ||| fld d 18 ||| fld a 12 ||| fld b 6
  | .subw d a b => 0x02000001#32 ||| fld d 18 ||| fld a 12 ||| fld b 6
  | .sllw d a b => 0x02000005#32 ||| fld d 18 ||| fld a 12 ||| fld b 6
  | .srlw d a b => 0x02000006#32 ||| fld d 18 ||| fld a 12 ||| fld b 6
  | .sraw d a b => 0x02000007#32 ||| fld d 18 ||| fld a 12 ||| fld b 6
  | .mulw d a b => 0x02000010#32 ||| fld d 18 ||| fld a 12 ||| fld b 6
  | .divw d a b => 0x02000014#32 ||| fld d 18 ||| fld a 12 ||| fld b 6
  | .divuw d a b => 0x02000015#32 ||| fld d 18 ||| fld a 12 ||| fld b 6
  | .remw d a b => 0x02000016#32 ||| fld d 18 ||| fld a 12 ||| fld b 6
  | .remuw d a b => 0x02000017#32 ||| fld d 18 ||| fld a 12 ||| fld b 6
  | .addi d a im => 0x03000000#32 ||| fld d 18 ||| fld a 12 ||| fld im 0
  | .addiw d a im => 0x04000000#32 ||| fld d 18 ||| fld a 12 ||| fld im 0
  | .andi d a im => 0x05000000#32 ||| fld d 18 ||| fld a 12 ||| fld im 0
  | .ori d a im => 0x06000000#32 ||| fld d 18 ||| fld a 12 ||| fld im 0
  | .xori d a im => 0x07000000#32 ||| fld d 18 ||| fld a 12 ||| fld im 0
  | .slti d a im => 0x09000000#32 ||| fld d 18 ||| fld a 12 ||| fld im 0
  | .sltiu d a im => 0x0A000000#32 ||| fld d 18 ||| fld a 12 ||| fld im 0
  | .slli d a sf => 0x08000000#32 ||| fld d 18 ||| fld a 12 ||| fld sf 0
  | .srli d a sf => 0x08000200#32 ||| fld d 18 ||| fld a 12 ||| fld sf 0
  | .srai d a sf => 0x08000400#32 ||| fld d 18 ||| fld a 12 ||| fld sf 0
  | .slliw d a sf => 0x08000800#32 ||| fld d 18 ||| fld a 12 ||| fld sf 0
  | .srliw d a sf => 0x08000A00#32 ||| fld d 18 ||| fld a 12 ||| fld sf 0
  | .sraiw d a sf => 0x08000C00#32 ||| fld d 18 ||| fld a 12 ||| fld sf 0
  | .lui d im => 0x0B000000#32 ||| fld d 18 ||| fld im 0
  | .auipc d im => 0x0C000000#32 ||| fld d 18 ||| fld im 0
  | .lb d a im => 0x0D000000#32 ||| fld d 18 ||| fld a 12 ||| fld im 0
  | .lh d a im => 0x0D000200#32 ||| fld d 18 ||| fld a 12 ||| fld im 0
  | .lw d a im => 0x0D000400#32 ||| fld d 18 ||| fld a 12 ||| fld im 0
  | .ld d a im => 0x0D000600#32 ||| fld d 18 ||| fld a 12 ||| fld im 0
  | .lbu d a im => 0x0D000800#32 ||| fld d 18 ||| fld a 12 ||| fld im 0
  | .lhu d a im => 0x0D000A00#32 ||| fld d 18 ||| fld a 12 ||| fld im 0
  | .lwu d a im => 0x0D000C00#32 ||| fld d 18 ||| fld a 12 ||| fld im 0
  | .sb b a im => 0x0E000000#32 ||| fld b 18 ||| fld a 12 ||| fld im 0
  | .sh b a im => 0x0E000200#32 ||| fld b 18 ||| fld a 12 ||| fld im 0
  | .sw b a im => 0x0E000400#32 ||| fld b 18 ||| fld a 12 ||| fld im 0
  | .sd b a im => 0x0E000600#32 ||| fld b 18 ||| fld a 12 ||| fld im 0
  | .fadd d a b p => 0x0F000000#32 ||| fld d 18 ||| fld a 12 ||| fld b 6 ||| fld p 4
  | .fsub d a b p => 0x0F000001#32 ||| fld d 18 ||| fld a 12 ||| fld b 6 ||| fld p 4
  | .fmul d a b p => 0x0F000002#32 ||| fld d 18 ||| fld a 12 ||| fld b 6 ||| fld p 4
  | .fdiv d a b p => 0x0F000003#32 ||| fld d 18 ||| fld a 12 ||| fld b 6 ||| fld p 4
  | .fsqrt d a p => 0x0F000004#32 ||| fld d 18 ||| fld a 12 ||| fld p 4
  | .fmin d a b p => 0x0F000005#32 ||| fld d 18 ||| fld a 12 ||| fld b 6 ||| fld p 4
  | .fmax d a b p => 0x0F000006#32 ||| fld d 18 ||| fld a 12 ||| fld b 6 ||| fld p 4
  | .feq d a b p => 0x0F000007#32 ||| fld d 18 ||| fld a 12 ||| fld b 6 ||| fld p 4
  | .flt d a b p => 0x0F000008#32 ||| fld d 18 ||| fld a 12 ||| fld b 6 ||| fld p 4
  | .fle d a b p => 0x0F000009#32 ||| fld d 18 ||| fld a 12 ||| fld b 6 ||| fld p 4
  | .fclass d a p => 0x0F00000A#32 ||| fld d 18 ||| fld a 12 ||| fld p 4
  | .fsgnj d a b p => 0x0F00000B#32 ||| fld d 18 ||| fld a 12 ||| fld b 6 ||| fld p 4
  | .fsgnjn d a b p => 0x0F00000C#32 ||| fld d 18 ||| fld a 12 ||| fld b 6 ||| fld p 4
  | .fsgnjx d a b p => 0x0F00000D#32 ||| fld d 18 ||| fld a 12 ||| fld b 6 ||| fld p 4
  | .fcvtif d a r t p => 0x0F00000E#32 ||| fld d 18 ||| fld a 12 ||| fld r 9 ||| fld t 6 ||| fld p 4
  | .fcvtfi d a r t p => 0x0F00010E#32 ||| fld d 18 ||| fld a 12 ||| fld r 9 ||| fld t 6 ||| fld p 4
  | .fcvtff d a r sf p => 0x0F00000F#32 ||| fld d 18 ||| fld a 12 ||| fld r 9 ||| fld sf 7 ||| fld p 4
  | .fmadd d a b p => 0x10000000#32 ||| fld d 18 ||| fld a 12 ||| fld b 6 ||| fld p 4
  | .fmsub d a b p => 0x10000004#32 ||| fld d 18 ||| fld a 12 ||| fld b 6 ||| fld p 4
  | .fnmadd d a b p => 0x10000008#32 ||| fld d 18 ||| fld a 12 ||| fld b 6 ||| fld p 4
  | .fnmsub d a b p => 0x1000000C#32 ||| fld d 18 ||| fld a 12 ||| fld b 6 ||| fld p 4
  | .beq a b o => 0x11000000#32 ||| fld a 18 ||| fld b 12 ||| fld o 0
  | .bne a b o => 0x12000000#32 ||| fld a 18 ||| fld b 12 ||| fld o 0
  | .blt a b o => 0x13000000#32 ||| fld a 18 ||| fld b 12 ||| fld o 0
  | .bge a b o => 0x14000000#32 ||| fld a 18 ||| fld b 12 ||| fld o 0
  | .bltu a b o => 0x15000000#32 ||| fld a 18 ||| fld b 12 ||| fld o 0
  | .bgeu a b o => 0x16000000#32 ||| fld a 18 ||| fld b 12 ||| fld o 0
  | .jal d o => 0x17000000#32 ||| fld d 18 ||| fld o 0
  | .jalr d a im => 0x18000000#32 ||| fld d 18 ||| fld a 12 ||| fld im 0
  | .brvAny m o => 0x1B000000#32 ||| fld m 12 ||| fld o 0
  | .brvNone m o => 0x1B040000#32 ||| fld m 12 ||| fld o 0
  | .brvAll m o => 0x1B080000#32 ||| fld m 12 ||| fld o 0
  | .brvResolve _ => 0#32
  | .csrrd d n => 0x19000000#32 ||| fld d 18 ||| fld n 0
  | .csrwr d a n => 0x19000400#32 ||| fld d 18 ||| fld a 12 ||| fld n 0
  | .csrbs d a n => 0x19000800#32 ||| fld d 18 ||| fld a 12 ||| fld n 0
  | .csrbc d a n => 0x19000C00#32 ||| fld d 18 ||| fld a 12 ||| fld n 0
  | .svc cv => 0x1A000000#32 ||| fld cv 6
  | .trap a => 0x1A000001#32 ||| fld a 12
  | .breakC cv => 0x1A000002#32 ||| fld cv 6
  | .rett => 0x1A000003#32
  | .wfi => 0x1A000004#32
  | .halt => 0x1A000005#32
  | .pause => 0x1A000006#32
  | .pauseExpiry _ => 0#32
  | .setvl d a z t l f e => 0x20000000#32 ||| fld d 18 ||| fld a 12 ||| fld z 11 ||| fld t 10 ||| fld l 7 ||| fld f 2 ||| fld e 0
  | .setvlx d a b => 0x21000000#32 ||| fld d 18 ||| fld a 12 ||| fld b 6
  | .setvlxKeep d a => 0x21000001#32 ||| fld d 18 ||| fld a 12
  | .setvlGrant _ => 0#32
  | .lpartWrite _ _ => 0#32
  | .lpartStallEnd _ => 0#32
  | .smmWrite _ => 0#32
  | .foccWrite _ _ _ => 0#32
  | .fcsrWrite _ _ => 0#32
  | .vdirtyWrite _ _ => 0#32
  | .registerWrite _ _ _ _ => 0#32
  | .convoyStart _ => 0#32
  | .vaddVv cv d a b k => 0x22000000#32 ||| fld cv 31 ||| fld d 19 ||| fld a 14 ||| fld b 9 ||| fld k 6
  | .vsubVv cv d a b k => 0x22000001#32 ||| fld cv 31 ||| fld d 19 ||| fld a 14 ||| fld b 9 ||| fld k 6
  | .vandVv cv d a b k => 0x22000002#32 ||| fld cv 31 ||| fld d 19 ||| fld a 14 ||| fld b 9 ||| fld k 6
  | .vorVv cv d a b k => 0x22000003#32 ||| fld cv 31 ||| fld d 19 ||| fld a 14 ||| fld b 9 ||| fld k 6
  | .vxorVv cv d a b k => 0x22000004#32 ||| fld cv 31 ||| fld d 19 ||| fld a 14 ||| fld b 9 ||| fld k 6
  | .vsllVv cv d a b k => 0x22000005#32 ||| fld cv 31 ||| fld d 19 ||| fld a 14 ||| fld b 9 ||| fld k 6
  | .vsrlVv cv d a b k => 0x22000006#32 ||| fld cv 31 ||| fld d 19 ||| fld a 14 ||| fld b 9 ||| fld k 6
  | .vsraVv cv d a b k => 0x22000007#32 ||| fld cv 31 ||| fld d 19 ||| fld a 14 ||| fld b 9 ||| fld k 6
  | .vminVv cv d a b k => 0x2200000A#32 ||| fld cv 31 ||| fld d 19 ||| fld a 14 ||| fld b 9 ||| fld k 6
  | .vmaxVv cv d a b k => 0x2200000B#32 ||| fld cv 31 ||| fld d 19 ||| fld a 14 ||| fld b 9 ||| fld k 6
  | .vminuVv cv d a b k => 0x2200000C#32 ||| fld cv 31 ||| fld d 19 ||| fld a 14 ||| fld b 9 ||| fld k 6
  | .vmaxuVv cv d a b k => 0x2200000D#32 ||| fld cv 31 ||| fld d 19 ||| fld a 14 ||| fld b 9 ||| fld k 6
  | .vmulVv cv d a b k => 0x22000010#32 ||| fld cv 31 ||| fld d 19 ||| fld a 14 ||| fld b 9 ||| fld k 6
  | .vhmulVv cv d a b k => 0x22000011#32 ||| fld cv 31 ||| fld d 19 ||| fld a 14 ||| fld b 9 ||| fld k 6
  | .vhmuluVv cv d a b k => 0x22000012#32 ||| fld cv 31 ||| fld d 19 ||| fld a 14 ||| fld b 9 ||| fld k 6
  | .vhmulsuVv cv d a b k => 0x22000013#32 ||| fld cv 31 ||| fld d 19 ||| fld a 14 ||| fld b 9 ||| fld k 6
  | .vdivVv cv d a b k => 0x22000014#32 ||| fld cv 31 ||| fld d 19 ||| fld a 14 ||| fld b 9 ||| fld k 6
  | .vdivuVv cv d a b k => 0x22000015#32 ||| fld cv 31 ||| fld d 19 ||| fld a 14 ||| fld b 9 ||| fld k 6
  | .vremVv cv d a b k => 0x22000016#32 ||| fld cv 31 ||| fld d 19 ||| fld a 14 ||| fld b 9 ||| fld k 6
  | .vremuVv cv d a b k => 0x22000017#32 ||| fld cv 31 ||| fld d 19 ||| fld a 14 ||| fld b 9 ||| fld k 6
  | .vclzVv cv d a k => 0x22000018#32 ||| fld cv 31 ||| fld d 19 ||| fld a 14 ||| fld k 6
  | .vctzVv cv d a k => 0x22000019#32 ||| fld cv 31 ||| fld d 19 ||| fld a 14 ||| fld k 6
  | .vpopcVv cv d a k => 0x2200001A#32 ||| fld cv 31 ||| fld d 19 ||| fld a 14 ||| fld k 6
  | .vaddVx cv d a x k => 0x23000000#32 ||| fld cv 31 ||| fld d 19 ||| fld a 14 ||| fld x 8 ||| fld k 5
  | .vsubVx cv d a x k => 0x23000001#32 ||| fld cv 31 ||| fld d 19 ||| fld a 14 ||| fld x 8 ||| fld k 5
  | .vandVx cv d a x k => 0x23000002#32 ||| fld cv 31 ||| fld d 19 ||| fld a 14 ||| fld x 8 ||| fld k 5
  | .vorVx cv d a x k => 0x23000003#32 ||| fld cv 31 ||| fld d 19 ||| fld a 14 ||| fld x 8 ||| fld k 5
  | .vxorVx cv d a x k => 0x23000004#32 ||| fld cv 31 ||| fld d 19 ||| fld a 14 ||| fld x 8 ||| fld k 5
  | .vsllVx cv d a x k => 0x23000005#32 ||| fld cv 31 ||| fld d 19 ||| fld a 14 ||| fld x 8 ||| fld k 5
  | .vsrlVx cv d a x k => 0x23000006#32 ||| fld cv 31 ||| fld d 19 ||| fld a 14 ||| fld x 8 ||| fld k 5
  | .vsraVx cv d a x k => 0x23000007#32 ||| fld cv 31 ||| fld d 19 ||| fld a 14 ||| fld x 8 ||| fld k 5
  | .vminVx cv d a x k => 0x2300000A#32 ||| fld cv 31 ||| fld d 19 ||| fld a 14 ||| fld x 8 ||| fld k 5
  | .vmaxVx cv d a x k => 0x2300000B#32 ||| fld cv 31 ||| fld d 19 ||| fld a 14 ||| fld x 8 ||| fld k 5
  | .vminuVx cv d a x k => 0x2300000C#32 ||| fld cv 31 ||| fld d 19 ||| fld a 14 ||| fld x 8 ||| fld k 5
  | .vmaxuVx cv d a x k => 0x2300000D#32 ||| fld cv 31 ||| fld d 19 ||| fld a 14 ||| fld x 8 ||| fld k 5
  | .vmulVx cv d a x k => 0x23000010#32 ||| fld cv 31 ||| fld d 19 ||| fld a 14 ||| fld x 8 ||| fld k 5
  | .vhmulVx cv d a x k => 0x23000011#32 ||| fld cv 31 ||| fld d 19 ||| fld a 14 ||| fld x 8 ||| fld k 5
  | .vhmuluVx cv d a x k => 0x23000012#32 ||| fld cv 31 ||| fld d 19 ||| fld a 14 ||| fld x 8 ||| fld k 5
  | .vhmulsuVx cv d a x k => 0x23000013#32 ||| fld cv 31 ||| fld d 19 ||| fld a 14 ||| fld x 8 ||| fld k 5
  | .vdivVx cv d a x k => 0x23000014#32 ||| fld cv 31 ||| fld d 19 ||| fld a 14 ||| fld x 8 ||| fld k 5
  | .vdivuVx cv d a x k => 0x23000015#32 ||| fld cv 31 ||| fld d 19 ||| fld a 14 ||| fld x 8 ||| fld k 5
  | .vremVx cv d a x k => 0x23000016#32 ||| fld cv 31 ||| fld d 19 ||| fld a 14 ||| fld x 8 ||| fld k 5
  | .vremuVx cv d a x k => 0x23000017#32 ||| fld cv 31 ||| fld d 19 ||| fld a 14 ||| fld x 8 ||| fld k 5
  | .vclzVx cv d a k => 0x23000018#32 ||| fld cv 31 ||| fld d 19 ||| fld a 14 ||| fld k 5
  | .vctzVx cv d a k => 0x23000019#32 ||| fld cv 31 ||| fld d 19 ||| fld a 14 ||| fld k 5
  | .vpopcVx cv d a k => 0x2300001A#32 ||| fld cv 31 ||| fld d 19 ||| fld a 14 ||| fld k 5
  | .vrsubVx cv d a x k => 0x2300001B#32 ||| fld cv 31 ||| fld d 19 ||| fld a 14 ||| fld x 8 ||| fld k 5
  | .vaddVi cv d a im k => 0x24000000#32 ||| fld cv 31 ||| fld d 19 ||| fld a 14 ||| fld im 8 ||| fld k 5
  | .vandVi cv d a im k => 0x24000002#32 ||| fld cv 31 ||| fld d 19 ||| fld a 14 ||| fld im 8 ||| fld k 5
  | .vorVi cv d a im k => 0x24000003#32 ||| fld cv 31 ||| fld d 19 ||| fld a 14 ||| fld im 8 ||| fld k 5
  | .vxorVi cv d a im k => 0x24000004#32 ||| fld cv 31 ||| fld d 19 ||| fld a 14 ||| fld im 8 ||| fld k 5
  | .vsllVi cv d a im k => 0x24000005#32 ||| fld cv 31 ||| fld d 19 ||| fld a 14 ||| fld im 8 ||| fld k 5
  | .vsrlVi cv d a im k => 0x24000006#32 ||| fld cv 31 ||| fld d 19 ||| fld a 14 ||| fld im 8 ||| fld k 5
  | .vsraVi cv d a im k => 0x24000007#32 ||| fld cv 31 ||| fld d 19 ||| fld a 14 ||| fld im 8 ||| fld k 5
  | .vminVi cv d a im k => 0x2400000A#32 ||| fld cv 31 ||| fld d 19 ||| fld a 14 ||| fld im 8 ||| fld k 5
  | .vmaxVi cv d a im k => 0x2400000B#32 ||| fld cv 31 ||| fld d 19 ||| fld a 14 ||| fld im 8 ||| fld k 5
  | .vminuVi cv d a im k => 0x2400000C#32 ||| fld cv 31 ||| fld d 19 ||| fld a 14 ||| fld im 8 ||| fld k 5
  | .vmaxuVi cv d a im k => 0x2400000D#32 ||| fld cv 31 ||| fld d 19 ||| fld a 14 ||| fld im 8 ||| fld k 5
  | .vrsubVi cv d a im k => 0x2400001B#32 ||| fld cv 31 ||| fld d 19 ||| fld a 14 ||| fld im 8 ||| fld k 5
  | .vsadd cv d a b k => 0x3A000000#32 ||| fld cv 31 ||| fld d 19 ||| fld a 14 ||| fld b 9 ||| fld k 6
  | .vsaddu cv d a b k => 0x3A000001#32 ||| fld cv 31 ||| fld d 19 ||| fld a 14 ||| fld b 9 ||| fld k 6
  | .vssub cv d a b k => 0x3A000002#32 ||| fld cv 31 ||| fld d 19 ||| fld a 14 ||| fld b 9 ||| fld k 6
  | .vssubu cv d a b k => 0x3A000003#32 ||| fld cv 31 ||| fld d 19 ||| fld a 14 ||| fld b 9 ||| fld k 6
  | .vsmul cv d a b k => 0x3A000004#32 ||| fld cv 31 ||| fld d 19 ||| fld a 14 ||| fld b 9 ||| fld k 6
  | .vavg cv d a b k => 0x3A000005#32 ||| fld cv 31 ||| fld d 19 ||| fld a 14 ||| fld b 9 ||| fld k 6
  | .vavgu cv d a b k => 0x3A000006#32 ||| fld cv 31 ||| fld d 19 ||| fld a 14 ||| fld b 9 ||| fld k 6
  | .vfaddVv cv d a b k => 0x25000000#32 ||| fld cv 31 ||| fld d 19 ||| fld a 14 ||| fld b 9 ||| fld k 6
  | .vfsubVv cv d a b k => 0x25000001#32 ||| fld cv 31 ||| fld d 19 ||| fld a 14 ||| fld b 9 ||| fld k 6
  | .vfmulVv cv d a b k => 0x25000002#32 ||| fld cv 31 ||| fld d 19 ||| fld a 14 ||| fld b 9 ||| fld k 6
  | .vfdivVv cv d a b k => 0x25000003#32 ||| fld cv 31 ||| fld d 19 ||| fld a 14 ||| fld b 9 ||| fld k 6
  | .vfsqrtVv cv d a k => 0x25000004#32 ||| fld cv 31 ||| fld d 19 ||| fld a 14 ||| fld k 6
  | .vfminVv cv d a b k => 0x25000005#32 ||| fld cv 31 ||| fld d 19 ||| fld a 14 ||| fld b 9 ||| fld k 6
  | .vfmaxVv cv d a b k => 0x25000006#32 ||| fld cv 31 ||| fld d 19 ||| fld a 14 ||| fld b 9 ||| fld k 6
  | .vfsgnjVv cv d a b k => 0x25000007#32 ||| fld cv 31 ||| fld d 19 ||| fld a 14 ||| fld b 9 ||| fld k 6
  | .vfsgnjnVv cv d a b k => 0x25000008#32 ||| fld cv 31 ||| fld d 19 ||| fld a 14 ||| fld b 9 ||| fld k 6
  | .vfsgnjxVv cv d a b k => 0x25000009#32 ||| fld cv 31 ||| fld d 19 ||| fld a 14 ||| fld b 9 ||| fld k 6
  | .vfclassVv cv d a k => 0x2500000A#32 ||| fld cv 31 ||| fld d 19 ||| fld a 14 ||| fld k 6
  | .vfrsubVv cv d a b k => 0x2500000B#32 ||| fld cv 31 ||| fld d 19 ||| fld a 14 ||| fld b 9 ||| fld k 6
  | .vfrdivVv cv d a b k => 0x2500000C#32 ||| fld cv 31 ||| fld d 19 ||| fld a 14 ||| fld b 9 ||| fld k 6
  | .vfaddVx cv d a x k => 0x26000000#32 ||| fld cv 31 ||| fld d 19 ||| fld a 14 ||| fld x 8 ||| fld k 5
  | .vfsubVx cv d a x k => 0x26000001#32 ||| fld cv 31 ||| fld d 19 ||| fld a 14 ||| fld x 8 ||| fld k 5
  | .vfmulVx cv d a x k => 0x26000002#32 ||| fld cv 31 ||| fld d 19 ||| fld a 14 ||| fld x 8 ||| fld k 5
  | .vfdivVx cv d a x k => 0x26000003#32 ||| fld cv 31 ||| fld d 19 ||| fld a 14 ||| fld x 8 ||| fld k 5
  | .vfsqrtVx cv d a k => 0x26000004#32 ||| fld cv 31 ||| fld d 19 ||| fld a 14 ||| fld k 5
  | .vfminVx cv d a x k => 0x26000005#32 ||| fld cv 31 ||| fld d 19 ||| fld a 14 ||| fld x 8 ||| fld k 5
  | .vfmaxVx cv d a x k => 0x26000006#32 ||| fld cv 31 ||| fld d 19 ||| fld a 14 ||| fld x 8 ||| fld k 5
  | .vfsgnjVx cv d a x k => 0x26000007#32 ||| fld cv 31 ||| fld d 19 ||| fld a 14 ||| fld x 8 ||| fld k 5
  | .vfsgnjnVx cv d a x k => 0x26000008#32 ||| fld cv 31 ||| fld d 19 ||| fld a 14 ||| fld x 8 ||| fld k 5
  | .vfsgnjxVx cv d a x k => 0x26000009#32 ||| fld cv 31 ||| fld d 19 ||| fld a 14 ||| fld x 8 ||| fld k 5
  | .vfclassVx cv d a k => 0x2600000A#32 ||| fld cv 31 ||| fld d 19 ||| fld a 14 ||| fld k 5
  | .vfrsubVx cv d a x k => 0x2600000B#32 ||| fld cv 31 ||| fld d 19 ||| fld a 14 ||| fld x 8 ||| fld k 5
  | .vfrdivVx cv d a x k => 0x2600000C#32 ||| fld cv 31 ||| fld d 19 ||| fld a 14 ||| fld x 8 ||| fld k 5
  | .vfmadd cv d a b k => 0x27000000#32 ||| fld cv 31 ||| fld d 19 ||| fld a 14 ||| fld b 9 ||| fld k 6
  | .vfmsub cv d a b k => 0x27000001#32 ||| fld cv 31 ||| fld d 19 ||| fld a 14 ||| fld b 9 ||| fld k 6
  | .vfnmadd cv d a b k => 0x27000002#32 ||| fld cv 31 ||| fld d 19 ||| fld a 14 ||| fld b 9 ||| fld k 6
  | .vfnmsub cv d a b k => 0x27000003#32 ||| fld cv 31 ||| fld d 19 ||| fld a 14 ||| fld b 9 ||| fld k 6
  | .vmacc cv d a b k => 0x27000004#32 ||| fld cv 31 ||| fld d 19 ||| fld a 14 ||| fld b 9 ||| fld k 6
  | .vnmsac cv d a b k => 0x27000005#32 ||| fld cv 31 ||| fld d 19 ||| fld a 14 ||| fld b 9 ||| fld k 6
  | .vwmacc cv d a b k => 0x28000000#32 ||| fld cv 31 ||| fld d 19 ||| fld a 14 ||| fld b 9 ||| fld k 6
  | .vwmaccu cv d a b k => 0x28000001#32 ||| fld cv 31 ||| fld d 19 ||| fld a 14 ||| fld b 9 ||| fld k 6
  | .vwmaccsu cv d a b k => 0x28000002#32 ||| fld cv 31 ||| fld d 19 ||| fld a 14 ||| fld b 9 ||| fld k 6
  | .vfwmacc cv d a b k => 0x28000003#32 ||| fld cv 31 ||| fld d 19 ||| fld a 14 ||| fld b 9 ||| fld k 6
  | .vseq cv d a b k => 0x29000000#32 ||| fld cv 31 ||| fld d 19 ||| fld a 14 ||| fld b 9 ||| fld k 6
  | .vsne cv d a b k => 0x29000001#32 ||| fld cv 31 ||| fld d 19 ||| fld a 14 ||| fld b 9 ||| fld k 6
  | .vslt cv d a b k => 0x29000002#32 ||| fld cv 31 ||| fld d 19 ||| fld a 14 ||| fld b 9 ||| fld k 6
  | .vsltu cv d a b k => 0x29000003#32 ||| fld cv 31 ||| fld d 19 ||| fld a 14 ||| fld b 9 ||| fld k 6
  | .vsle cv d a b k => 0x29000004#32 ||| fld cv 31 ||| fld d 19 ||| fld a 14 ||| fld b 9 ||| fld k 6
  | .vsleu cv d a b k => 0x29000005#32 ||| fld cv 31 ||| fld d 19 ||| fld a 14 ||| fld b 9 ||| fld k 6
  | .vfeq cv d a b k => 0x29000008#32 ||| fld cv 31 ||| fld d 19 ||| fld a 14 ||| fld b 9 ||| fld k 6
  | .vfne cv d a b k => 0x29000009#32 ||| fld cv 31 ||| fld d 19 ||| fld a 14 ||| fld b 9 ||| fld k 6
  | .vflt cv d a b k => 0x2900000A#32 ||| fld cv 31 ||| fld d 19 ||| fld a 14 ||| fld b 9 ||| fld k 6
  | .vfle cv d a b k => 0x2900000B#32 ||| fld cv 31 ||| fld d 19 ||| fld a 14 ||| fld b 9 ||| fld k 6
  | .vford cv d a b k => 0x2900000C#32 ||| fld cv 31 ||| fld d 19 ||| fld a 14 ||| fld b 9 ||| fld k 6
  | .kand cv d a b => 0x2A000000#32 ||| fld cv 31 ||| fld d 19 ||| fld a 14 ||| fld b 9
  | .kor cv d a b => 0x2A000001#32 ||| fld cv 31 ||| fld d 19 ||| fld a 14 ||| fld b 9
  | .kxor cv d a b => 0x2A000002#32 ||| fld cv 31 ||| fld d 19 ||| fld a 14 ||| fld b 9
  | .kandn cv d a b => 0x2A000003#32 ||| fld cv 31 ||| fld d 19 ||| fld a 14 ||| fld b 9
  | .korn cv d a b => 0x2A000004#32 ||| fld cv 31 ||| fld d 19 ||| fld a 14 ||| fld b 9
  | .knot cv d a => 0x2A000005#32 ||| fld cv 31 ||| fld d 19 ||| fld a 14
  | .kmov cv d a => 0x2A000006#32 ||| fld cv 31 ||| fld d 19 ||| fld a 14
  | .kfromsmm cv d => 0x2A000008#32 ||| fld cv 31 ||| fld d 19
  | .ktosmm cv a => 0x2A000009#32 ||| fld cv 31 ||| fld a 14
  | .kfromv cv d a => 0x2A00000A#32 ||| fld cv 31 ||| fld d 19 ||| fld a 14
  | .ktov cv d a => 0x2A00000B#32 ||| fld cv 31 ||| fld d 19 ||| fld a 14
  | .vredsum cv d a b k => 0x2B000000#32 ||| fld cv 31 ||| fld d 19 ||| fld a 14 ||| fld b 9 ||| fld k 6
  | .vredmin cv d a b k => 0x2B000001#32 ||| fld cv 31 ||| fld d 19 ||| fld a 14 ||| fld b 9 ||| fld k 6
  | .vredmax cv d a b k => 0x2B000002#32 ||| fld cv 31 ||| fld d 19 ||| fld a 14 ||| fld b 9 ||| fld k 6
  | .vredminu cv d a b k => 0x2B000003#32 ||| fld cv 31 ||| fld d 19 ||| fld a 14 ||| fld b 9 ||| fld k 6
  | .vredmaxu cv d a b k => 0x2B000004#32 ||| fld cv 31 ||| fld d 19 ||| fld a 14 ||| fld b 9 ||| fld k 6
  | .vredand cv d a b k => 0x2B000005#32 ||| fld cv 31 ||| fld d 19 ||| fld a 14 ||| fld b 9 ||| fld k 6
  | .vredor cv d a b k => 0x2B000006#32 ||| fld cv 31 ||| fld d 19 ||| fld a 14 ||| fld b 9 ||| fld k 6
  | .vredxor cv d a b k => 0x2B000007#32 ||| fld cv 31 ||| fld d 19 ||| fld a 14 ||| fld b 9 ||| fld k 6
  | .vfredsum cv d a b k => 0x2B000008#32 ||| fld cv 31 ||| fld d 19 ||| fld a 14 ||| fld b 9 ||| fld k 6
  | .vfredmin cv d a b k => 0x2B000009#32 ||| fld cv 31 ||| fld d 19 ||| fld a 14 ||| fld b 9 ||| fld k 6
  | .vfredmax cv d a b k => 0x2B00000A#32 ||| fld cv 31 ||| fld d 19 ||| fld a 14 ||| fld b 9 ||| fld k 6
  | .vredo cv d a b k => 0x2B000010#32 ||| fld cv 31 ||| fld d 19 ||| fld a 14 ||| fld b 9 ||| fld k 6
  | .vshuf cv d a b k => 0x2C000000#32 ||| fld cv 31 ||| fld d 19 ||| fld a 14 ||| fld b 9 ||| fld k 6
  | .vpack cv d a k => 0x2C000001#32 ||| fld cv 31 ||| fld d 19 ||| fld a 14 ||| fld k 6
  | .vrank cv d b k => 0x2C000002#32 ||| fld cv 31 ||| fld d 19 ||| fld b 9 ||| fld k 6
  | .vramp cv d k => 0x2C000003#32 ||| fld cv 31 ||| fld d 19 ||| fld k 6
  | .vrampS cv d a k => 0x2C000004#32 ||| fld cv 31 ||| fld d 19 ||| fld a 14 ||| fld k 6
  | .vbcast cv d x k => 0x2F000000#32 ||| fld cv 31 ||| fld d 19 ||| fld x 8 ||| fld k 5
  | .vtox cv n a x => 0x2F000001#32 ||| fld cv 31 ||| fld n 19 ||| fld a 14 ||| fld x 8
  | .xtov cv d n x => 0x2F000002#32 ||| fld cv 31 ||| fld d 19 ||| fld n 14 ||| fld x 8
  | .vshup cv d a x k => 0x2F000003#32 ||| fld cv 31 ||| fld d 19 ||| fld a 14 ||| fld x 8 ||| fld k 5
  | .vshdn cv d a x k => 0x2F000004#32 ||| fld cv 31 ||| fld d 19 ||| fld a 14 ||| fld x 8 ||| fld k 5
  | .kcount cv a x k => 0x2F000005#32 ||| fld cv 31 ||| fld a 14 ||| fld x 8 ||| fld k 5
  | .klead cv a x k => 0x2F000006#32 ||| fld cv 31 ||| fld a 14 ||| fld x 8 ||| fld k 5
  | .vld cv v a k sf => 0x30000000#32 ||| fld cv 31 ||| fld v 19 ||| fld a 13 ||| fld k 4 ||| fld sf 2
  | .vldStr cv v a b k sf => 0x30000001#32 ||| fld cv 31 ||| fld v 19 ||| fld a 13 ||| fld b 7 ||| fld k 4 ||| fld sf 2
  | .vldM cv v a sf => 0x30000002#32 ||| fld cv 31 ||| fld v 19 ||| fld a 13 ||| fld sf 2
  | .vst cv v a k sf => 0x31000000#32 ||| fld cv 31 ||| fld v 19 ||| fld a 13 ||| fld k 4 ||| fld sf 2
  | .vstStr cv v a b k sf => 0x31000001#32 ||| fld cv 31 ||| fld v 19 ||| fld a 13 ||| fld b 7 ||| fld k 4 ||| fld sf 2
  | .vstM cv v a sf => 0x31000002#32 ||| fld cv 31 ||| fld v 19 ||| fld a 13 ||| fld sf 2
  | .vcvt cv d a f k r t e => 0x2D000000#32 ||| fld cv 31 ||| fld d 19 ||| fld a 14 ||| fld f 9 ||| fld k 6 ||| fld r 3 ||| fld t 2 ||| fld e 0
  | .slicvt cv d a f k r t e => 0x4C000000#32 ||| fld cv 31 ||| fld d 19 ||| fld a 14 ||| fld f 9 ||| fld k 6 ||| fld r 3 ||| fld t 2 ||| fld e 0
  | .vquant cv d a f k r => 0x2E000000#32 ||| fld cv 31 ||| fld d 19 ||| fld a 14 ||| fld f 9 ||| fld k 6 ||| fld r 3
  | .vdeq cv d a f k r => 0x2E000004#32 ||| fld cv 31 ||| fld d 19 ||| fld a 14 ||| fld f 9 ||| fld k 6 ||| fld r 3
  | .sliopAdd cv d a b k => 0x4A000000#32 ||| fld cv 31 ||| fld d 19 ||| fld a 14 ||| fld b 9 ||| fld k 6
  | .sliopSub cv d a b k => 0x4A000001#32 ||| fld cv 31 ||| fld d 19 ||| fld a 14 ||| fld b 9 ||| fld k 6
  | .sliopMul cv d a b k => 0x4A000002#32 ||| fld cv 31 ||| fld d 19 ||| fld a 14 ||| fld b 9 ||| fld k 6
  | .sliopDiv cv d a b k => 0x4A000003#32 ||| fld cv 31 ||| fld d 19 ||| fld a 14 ||| fld b 9 ||| fld k 6
  | .slixAdd cv d a x k => 0x4F000000#32 ||| fld cv 31 ||| fld d 19 ||| fld a 14 ||| fld x 8 ||| fld k 5
  | .slixSub cv d a x k => 0x4F000001#32 ||| fld cv 31 ||| fld d 19 ||| fld a 14 ||| fld x 8 ||| fld k 5
  | .slixMul cv d a x k => 0x4F000002#32 ||| fld cv 31 ||| fld d 19 ||| fld a 14 ||| fld x 8 ||| fld k 5
  | .slixDiv cv d a x k => 0x4F000003#32 ||| fld cv 31 ||| fld d 19 ||| fld a 14 ||| fld x 8 ||| fld k 5
  | .slixRsub cv d a x k => 0x4F000004#32 ||| fld cv 31 ||| fld d 19 ||| fld a 14 ||| fld x 8 ||| fld k 5
  | .slixRdiv cv d a x k => 0x4F000005#32 ||| fld cv 31 ||| fld d 19 ||| fld a 14 ||| fld x 8 ||| fld k 5
  | .slifnExp cv d a k => 0x4B000000#32 ||| fld cv 31 ||| fld d 19 ||| fld a 14 ||| fld k 6
  | .slifnLog cv d a k => 0x4B000001#32 ||| fld cv 31 ||| fld d 19 ||| fld a 14 ||| fld k 6
  | .sliredSum cv d a b k => 0x4D000000#32 ||| fld cv 31 ||| fld d 19 ||| fld a 14 ||| fld b 9 ||| fld k 6
  | .sliredMax cv d a b k => 0x4D000001#32 ||| fld cv 31 ||| fld d 19 ||| fld a 14 ||| fld b 9 ||| fld k 6
  | .sliredMin cv d a b k => 0x4D000002#32 ||| fld cv 31 ||| fld d 19 ||| fld a 14 ||| fld b 9 ||| fld k 6
  | .vtransExp cv d a k => 0x4E000000#32 ||| fld cv 31 ||| fld d 19 ||| fld a 14 ||| fld k 6
  | .vtransExp2 cv d a k => 0x4E000001#32 ||| fld cv 31 ||| fld d 19 ||| fld a 14 ||| fld k 6
  | .vtransLog cv d a k => 0x4E000002#32 ||| fld cv 31 ||| fld d 19 ||| fld a 14 ||| fld k 6
  | .vtransLog2 cv d a k => 0x4E000003#32 ||| fld cv 31 ||| fld d 19 ||| fld a 14 ||| fld k 6
  | .vtransRcp cv d a k => 0x4E000004#32 ||| fld cv 31 ||| fld d 19 ||| fld a 14 ||| fld k 6
  | .vtransRsqrt cv d a k => 0x4E000005#32 ||| fld cv 31 ||| fld d 19 ||| fld a 14 ||| fld k 6
  | .vtransTanh cv d a k => 0x4E000006#32 ||| fld cv 31 ||| fld d 19 ||| fld a 14 ||| fld k 6
  | .fmatch cv m a b x => 0x40000000#32 ||| fld cv 31 ||| fld m 20 ||| fld a 16 ||| fld b 12 ||| fld x 3
  | .fisectMul cv d a b => 0x41000000#32 ||| fld cv 31 ||| fld d 20 ||| fld a 16 ||| fld b 12
  | .fisectFirst cv d a b => 0x41000001#32 ||| fld cv 31 ||| fld d 20 ||| fld a 16 ||| fld b 12
  | .fisectSecond cv d a b => 0x41000002#32 ||| fld cv 31 ||| fld d 20 ||| fld a 16 ||| fld b 12
  | .fisectAdd cv d a b => 0x41000003#32 ||| fld cv 31 ||| fld d 20 ||| fld a 16 ||| fld b 12
  | .fisectMin cv d a b => 0x41000004#32 ||| fld cv 31 ||| fld d 20 ||| fld a 16 ||| fld b 12
  | .fisectMax cv d a b => 0x41000005#32 ||| fld cv 31 ||| fld d 20 ||| fld a 16 ||| fld b 12
  | .funionFirst cv d a b => 0x42000001#32 ||| fld cv 31 ||| fld d 20 ||| fld a 16 ||| fld b 12
  | .funionSecond cv d a b => 0x42000002#32 ||| fld cv 31 ||| fld d 20 ||| fld a 16 ||| fld b 12
  | .funionAdd cv d a b => 0x42000003#32 ||| fld cv 31 ||| fld d 20 ||| fld a 16 ||| fld b 12
  | .funionMin cv d a b => 0x42000004#32 ||| fld cv 31 ||| fld d 20 ||| fld a 16 ||| fld b 12
  | .funionMax cv d a b => 0x42000005#32 ||| fld cv 31 ||| fld d 20 ||| fld a 16 ||| fld b 12
  | .fmergeFirst cv d a b => 0x43000001#32 ||| fld cv 31 ||| fld d 20 ||| fld a 16 ||| fld b 12
  | .fmergeLast cv d a b => 0x43000002#32 ||| fld cv 31 ||| fld d 20 ||| fld a 16 ||| fld b 12
  | .fmergeAdd cv d a b => 0x43000003#32 ||| fld cv 31 ||| fld d 20 ||| fld a 16 ||| fld b 12
  | .fmergeMin cv d a b => 0x43000004#32 ||| fld cv 31 ||| fld d 20 ||| fld a 16 ||| fld b 12
  | .fmergeMax cv d a b => 0x43000005#32 ||| fld cv 31 ||| fld d 20 ||| fld a 16 ||| fld b 12
  | .fmergeSortFirst cv d a => 0x43000009#32 ||| fld cv 31 ||| fld d 20 ||| fld a 16
  | .fmergeSortLast cv d a => 0x4300000A#32 ||| fld cv 31 ||| fld d 20 ||| fld a 16
  | .fmergeSortAdd cv d a => 0x4300000B#32 ||| fld cv 31 ||| fld d 20 ||| fld a 16
  | .fmergeSortMin cv d a => 0x4300000C#32 ||| fld cv 31 ||| fld d 20 ||| fld a 16
  | .fmergeSortMax cv d a => 0x4300000D#32 ||| fld cv 31 ||| fld d 20 ||| fld a 16
  | .fcompact cv d a k => 0x44000000#32 ||| fld cv 31 ||| fld d 20 ||| fld a 16 ||| fld k 9
  | .fexpand cv d a b => 0x44000001#32 ||| fld cv 31 ||| fld d 20 ||| fld a 16 ||| fld b 12
  | .fwalkIdx cv v a b => 0x45000000#32 ||| fld cv 31 ||| fld v 20 ||| fld a 13 ||| fld b 7
  | .fwalkVals cv v a b => 0x45000001#32 ||| fld cv 31 ||| fld v 20 ||| fld a 13 ||| fld b 7
  | .fdot cv a b x => 0x46000000#32 ||| fld cv 31 ||| fld a 16 ||| fld b 12 ||| fld x 3
  | .fdotIsect cv a b x => 0x46000001#32 ||| fld cv 31 ||| fld a 16 ||| fld b 12 ||| fld x 3
  | .fmapMul cv d a k sf => 0x47000000#32 ||| fld cv 31 ||| fld d 20 ||| fld a 16 ||| fld k 9 ||| fld sf 3
  | .fmapAdd cv d a k sf => 0x47000001#32 ||| fld cv 31 ||| fld d 20 ||| fld a 16 ||| fld k 9 ||| fld sf 3
  | .fmapAbs cv d a k => 0x47000002#32 ||| fld cv 31 ||| fld d 20 ||| fld a 16 ||| fld k 9
  | .fmapNeg cv d a k => 0x47000003#32 ||| fld cv 31 ||| fld d 20 ||| fld a 16 ||| fld k 9
  | .fmapRelu cv d a k => 0x47000004#32 ||| fld cv 31 ||| fld d 20 ||| fld a 16 ||| fld k 9
  | .fmov cv d a => 0x48000000#32 ||| fld cv 31 ||| fld d 20 ||| fld a 16
  | .ftodense cv a v => 0x48000001#32 ||| fld cv 31 ||| fld a 16 ||| fld v 4
  | .ffromdense cv d k v => 0x48000002#32 ||| fld cv 31 ||| fld d 20 ||| fld k 9 ||| fld v 4
  | .foccr cv a x => 0x48000003#32 ||| fld cv 31 ||| fld a 16 ||| fld x 3
  | .foccw cv d x => 0x48000004#32 ||| fld cv 31 ||| fld d 20 ||| fld x 3
  | .fldstLd cv v a b sf => 0x49000000#32 ||| fld cv 31 ||| fld v 20 ||| fld a 13 ||| fld b 7 ||| fld sf 2
  | .fldstSt cv v a sf => 0x49000001#32 ||| fld cv 31 ||| fld v 20 ||| fld a 13 ||| fld sf 2
  | .vldx cv v a b k sf q => 0x32000000#32 ||| fld cv 31 ||| fld v 19 ||| fld a 13 ||| fld b 7 ||| fld k 4 ||| fld sf 2 ||| fld q 0
  | .vstx cv v a b k sf q => 0x33000000#32 ||| fld cv 31 ||| fld v 19 ||| fld a 13 ||| fld b 7 ||| fld k 4 ||| fld sf 2 ||| fld q 0
  | .vldff cv v a x k sf => 0x34000000#32 ||| fld cv 31 ||| fld v 19 ||| fld a 13 ||| fld x 7 ||| fld k 4 ||| fld sf 2
  | .vgathb cv v a b k q => 0x35000000#32 ||| fld cv 31 ||| fld v 19 ||| fld a 13 ||| fld b 7 ||| fld k 4 ||| fld q 0
  | .vscatbSt cv v a b k q => 0x36000000#32 ||| fld cv 31 ||| fld v 19 ||| fld a 13 ||| fld b 7 ||| fld k 4 ||| fld q 0
  | .vscatbAdd cv v a b k q => 0x36000004#32 ||| fld cv 31 ||| fld v 19 ||| fld a 13 ||| fld b 7 ||| fld k 4 ||| fld q 0
  | .vscatbFadd cv v a b k q => 0x36000008#32 ||| fld cv 31 ||| fld v 19 ||| fld a 13 ||| fld b 7 ||| fld k 4 ||| fld q 0
  | .vscatbMax cv v a b k q => 0x3600000C#32 ||| fld cv 31 ||| fld v 19 ||| fld a 13 ||| fld b 7 ||| fld k 4 ||| fld q 0
  | .vlds cv v p k => 0x37000000#32 ||| fld cv 31 ||| fld v 19 ||| fld p 13 ||| fld k 4
  | .vspadLd cv v a x k => 0x38000000#32 ||| fld cv 31 ||| fld v 19 ||| fld a 13 ||| fld x 7 ||| fld k 4
  | .vspadSt cv v a x k => 0x38000001#32 ||| fld cv 31 ||| fld v 19 ||| fld a 13 ||| fld x 7 ||| fld k 4
  | .vamoAdd cv v a sf r q k => 0x39000000#32 ||| fld cv 31 ||| fld v 20 ||| fld a 13 ||| fld sf 10 ||| fld r 9 ||| fld q 7 ||| fld k 4
  | .vamoAnd cv v a sf r q k => 0x39000001#32 ||| fld cv 31 ||| fld v 20 ||| fld a 13 ||| fld sf 10 ||| fld r 9 ||| fld q 7 ||| fld k 4
  | .vamoOr cv v a sf r q k => 0x39000002#32 ||| fld cv 31 ||| fld v 20 ||| fld a 13 ||| fld sf 10 ||| fld r 9 ||| fld q 7 ||| fld k 4
  | .vamoXor cv v a sf r q k => 0x39000003#32 ||| fld cv 31 ||| fld v 20 ||| fld a 13 ||| fld sf 10 ||| fld r 9 ||| fld q 7 ||| fld k 4
  | .vamoSwap cv v a sf r q k => 0x39000004#32 ||| fld cv 31 ||| fld v 20 ||| fld a 13 ||| fld sf 10 ||| fld r 9 ||| fld q 7 ||| fld k 4
  | .vamoMin cv v a sf r q k => 0x39000005#32 ||| fld cv 31 ||| fld v 20 ||| fld a 13 ||| fld sf 10 ||| fld r 9 ||| fld q 7 ||| fld k 4
  | .vamoMax cv v a sf r q k => 0x39000006#32 ||| fld cv 31 ||| fld v 20 ||| fld a 13 ||| fld sf 10 ||| fld r 9 ||| fld q 7 ||| fld k 4
  | .vamoFadd32 cv v a sf r q k => 0x39000007#32 ||| fld cv 31 ||| fld v 20 ||| fld a 13 ||| fld sf 10 ||| fld r 9 ||| fld q 7 ||| fld k 4
  | .vamoUmin cv v a sf r q k => 0x39000008#32 ||| fld cv 31 ||| fld v 20 ||| fld a 13 ||| fld sf 10 ||| fld r 9 ||| fld q 7 ||| fld k 4
  | .vamoUmax cv v a sf r q k => 0x39000009#32 ||| fld cv 31 ||| fld v 20 ||| fld a 13 ||| fld sf 10 ||| fld r 9 ||| fld q 7 ||| fld k 4
  | .vamoIncb cv v a sf r q k => 0x3900000B#32 ||| fld cv 31 ||| fld v 20 ||| fld a 13 ||| fld sf 10 ||| fld r 9 ||| fld q 7 ||| fld k 4
  | .vamoFmin32 cv v a sf r q k => 0x3900000C#32 ||| fld cv 31 ||| fld v 20 ||| fld a 13 ||| fld sf 10 ||| fld r 9 ||| fld q 7 ||| fld k 4
  | .vamoFmax32 cv v a sf r q k => 0x3900000D#32 ||| fld cv 31 ||| fld v 20 ||| fld a 13 ||| fld sf 10 ||| fld r 9 ||| fld q 7 ||| fld k 4
  | .vamoAdd32w cv v a sf q k => 0x3900000E#32 ||| fld cv 31 ||| fld v 20 ||| fld a 13 ||| fld sf 10 ||| fld q 7 ||| fld k 4
  | .vamoFadd16x2 cv v a sf r q k => 0x3900000F#32 ||| fld cv 31 ||| fld v 20 ||| fld a 13 ||| fld sf 10 ||| fld r 9 ||| fld q 7 ||| fld k 4
  | .vselMax cv d a k => 0x68000000#32 ||| fld cv 31 ||| fld d 19 ||| fld a 14 ||| fld k 6
  | .vselMin cv d a k => 0x68000001#32 ||| fld cv 31 ||| fld d 19 ||| fld a 14 ||| fld k 6
  | .vselMaxClr cv d a k => 0x68000002#32 ||| fld cv 31 ||| fld d 19 ||| fld a 14 ||| fld k 6
  | .vselMinClr cv d a k => 0x68000003#32 ||| fld cv 31 ||| fld d 19 ||| fld a 14 ||| fld k 6
  | .vexitBefore cv d b k => 0x69000000#32 ||| fld cv 31 ||| fld d 19 ||| fld b 14 ||| fld k 6
  | .vexitIncl cv d b k => 0x69000001#32 ||| fld cv 31 ||| fld d 19 ||| fld b 14 ||| fld k 6
  | .vexitOnly cv d b k => 0x69000002#32 ||| fld cv 31 ||| fld d 19 ||| fld b 14 ||| fld k 6
  | .vscanIdx cv d k => 0x6B000000#32 ||| fld cv 31 ||| fld d 19 ||| fld k 6
  | .vscanAdd cv d a b k => 0x6B000001#32 ||| fld cv 31 ||| fld d 19 ||| fld a 14 ||| fld b 9 ||| fld k 6
  | .vscanAddx cv d a b k => 0x6B000002#32 ||| fld cv 31 ||| fld d 19 ||| fld a 14 ||| fld b 9 ||| fld k 6
  | .vscanMax cv d a b k => 0x6B000003#32 ||| fld cv 31 ||| fld d 19 ||| fld a 14 ||| fld b 9 ||| fld k 6
  | .vscanMaxu cv d a b k => 0x6B000004#32 ||| fld cv 31 ||| fld d 19 ||| fld a 14 ||| fld b 9 ||| fld k 6
  | .ltsplit m => 0x6A000000#32 ||| fld m 12
  | .ltjoin => 0x6A000001#32
  | .ltyield => 0x6A000002#32
  | .ltid d => 0x6A000003#32 ||| fld d 18
  | .splitRegionJoin _ => 0#32
  | .mshape cv a => 0x50000000#32 ||| fld cv 31 ||| fld a 12
  | .mmaSet cv x a b => 0x51000000#32 ||| fld cv 31 ||| fld x 21 ||| fld a 13 ||| fld b 5
  | .mmaAcc cv x a b => 0x51000001#32 ||| fld cv 31 ||| fld x 21 ||| fld a 13 ||| fld b 5
  | .mmaSetSp cv x a b => 0x51000002#32 ||| fld cv 31 ||| fld x 21 ||| fld a 13 ||| fld b 5
  | .mmaAccSp cv x a b => 0x51000003#32 ||| fld cv 31 ||| fld x 21 ||| fld a 13 ||| fld b 5
  | .mmaSetGrp cv x a b => 0x51000004#32 ||| fld cv 31 ||| fld x 21 ||| fld a 13 ||| fld b 5
  | .mmaAccGrp cv x a b => 0x51000005#32 ||| fld cv 31 ||| fld x 21 ||| fld a 13 ||| fld b 5
  | .mmagSet cv x a b => 0x52000000#32 ||| fld cv 31 ||| fld x 21 ||| fld a 13 ||| fld b 5
  | .mmagAcc cv x a b => 0x52000001#32 ||| fld cv 31 ||| fld x 21 ||| fld a 13 ||| fld b 5
  | .mmetaMeta cv sf v => 0x53000000#32 ||| fld cv 31 ||| fld sf 21 ||| fld v 13
  | .mmetaIdx cv v => 0x53000001#32 ||| fld cv 31 ||| fld v 13
  | .mmetaRows cv v => 0x53000002#32 ||| fld cv 31 ||| fld v 13
  | .mtileZero cv x => 0x54000000#32 ||| fld cv 31 ||| fld x 21
  | .mtileLd cv x p => 0x54000001#32 ||| fld cv 31 ||| fld x 21 ||| fld p 13
  | .mtileSt cv x p => 0x54000002#32 ||| fld cv 31 ||| fld x 21 ||| fld p 13
  | .mdrain cv x v r => 0x55000000#32 ||| fld cv 31 ||| fld x 21 ||| fld v 13 ||| fld r 5
  | .matrixConvoyStart _ => 0#32
  | .pset p a => 0x58000000#32 ||| fld p 12 ||| fld a 6
  | .swset p n => 0x59000000#32 ||| fld p 12 ||| fld n 0
  | .swsetClr n => 0x59100000#32 ||| fld n 0
  | .swsetResume _ => 0#32
  | .shstageSrc h p => 0x5A000000#32 ||| fld h 20 ||| fld p 12
  | .shstageDst h p => 0x5A000001#32 ||| fld h 20 ||| fld p 12
  | .shstageIdx h p => 0x5A000002#32 ||| fld h 20 ||| fld p 12
  | .shstageSbase h a => 0x5A000003#32 ||| fld h 20 ||| fld a 6
  | .shstageDbase h a => 0x5A000004#32 ||| fld h 20 ||| fld a 6
  | .shstageBar h a => 0x5A000005#32 ||| fld h 20 ||| fld a 6
  | .shstageSw h n => 0x5A000006#32 ||| fld h 20 ||| fld n 12
  | .shstagePort h p => 0x5A000007#32 ||| fld h 20 ||| fld p 12
  | .shstageRtn h n => 0x5A000008#32 ||| fld h 20 ||| fld n 12
  | .shstageClr h => 0x5A000009#32 ||| fld h 20
  | .shstageRstat h => 0x5A00000A#32 ||| fld h 20
  | .shgoCopy h d r => 0x5B000000#32 ||| fld h 20 ||| fld d 6 ||| fld r 3
  | .shgoRows h d r => 0x5B000001#32 ||| fld h 20 ||| fld d 6 ||| fld r 3
  | .shgoStream h d r => 0x5B000002#32 ||| fld h 20 ||| fld d 6 ||| fld r 3
  | .shgoSend h d r => 0x5B000003#32 ||| fld h 20 ||| fld d 6 ||| fld r 3
  | .shgoBodkin h d r => 0x5B000004#32 ||| fld h 20 ||| fld d 6 ||| fld r 3
  | .shgoQueueRoom _ => 0#32
  | .shstatTl h d => 0x5C000000#32 ||| fld h 20 ||| fld d 6
  | .shstatMiss h d => 0x5C000001#32 ||| fld h 20 ||| fld d 6
  | .shstatErr h d => 0x5C000002#32 ||| fld h 20 ||| fld d 6
  | .shstatAddr h d => 0x5C000003#32 ||| fld h 20 ||| fld d 6
  | .shstatLanded h sf d => 0x5C000004#32 ||| fld h 20 ||| fld sf 12 ||| fld d 6
  | .shstatNext h d => 0x5C000005#32 ||| fld h 20 ||| fld d 6
  | .shstatSw n d => 0x5C000006#32 ||| fld n 12 ||| fld d 6
  | .shstatPv p d => 0x5C000007#32 ||| fld p 12 ||| fld d 6
  | .shportStat p d => 0x5D000000#32 ||| fld p 12 ||| fld d 6
  | .shportDisc p => 0x5D000001#32 ||| fld p 12
  | .waittl sf a b => 0x64000000#32 ||| fld sf 21 ||| fld a 6 ||| fld b 0
  | .sigtl sf a b => 0x64040000#32 ||| fld sf 21 ||| fld a 6 ||| fld b 0
  | .rdtl d a => 0x64080000#32 ||| fld d 12 ||| fld a 6
  | .trytl sf d a b => 0x640C0000#32 ||| fld sf 21 ||| fld d 12 ||| fld a 6 ||| fld b 0
  | .waittlPass _ => 0#32
  | .binit sf a b => 0x65000000#32 ||| fld sf 21 ||| fld a 6 ||| fld b 0
  | .barrive sf d a b => 0x65040000#32 ||| fld sf 21 ||| fld d 12 ||| fld a 6 ||| fld b 0
  | .bwait sf a b => 0x65080000#32 ||| fld sf 21 ||| fld a 6 ||| fld b 0
  | .btry sf d a b => 0x650C0000#32 ||| fld sf 21 ||| fld d 12 ||| fld a 6 ||| fld b 0
  | .bwaitPass _ => 0#32
  | .lock d a => 0x65100000#32 ||| fld d 12 ||| fld a 6
  | .unlock d a => 0x65140000#32 ||| fld d 12 ||| fld a 6
  | .swatchWaitEnd _ => 0#32
  | .fenceRel sf => 0x60000000#32 ||| fld sf 21
  | .fenceAcq sf => 0x60040000#32 ||| fld sf 21
  | .fenceFull sf => 0x60080000#32 ||| fld sf 21
  | .amoAdd sf d a b => 0x61000000#32 ||| fld sf 21 ||| fld d 12 ||| fld a 6 ||| fld b 0
  | .amoAnd sf d a b => 0x61040000#32 ||| fld sf 21 ||| fld d 12 ||| fld a 6 ||| fld b 0
  | .amoOr sf d a b => 0x61080000#32 ||| fld sf 21 ||| fld d 12 ||| fld a 6 ||| fld b 0
  | .amoXor sf d a b => 0x610C0000#32 ||| fld sf 21 ||| fld d 12 ||| fld a 6 ||| fld b 0
  | .amoSwap sf d a b => 0x61100000#32 ||| fld sf 21 ||| fld d 12 ||| fld a 6 ||| fld b 0
  | .amoMin sf d a b => 0x61140000#32 ||| fld sf 21 ||| fld d 12 ||| fld a 6 ||| fld b 0
  | .amoMax sf d a b => 0x61180000#32 ||| fld sf 21 ||| fld d 12 ||| fld a 6 ||| fld b 0
  | .amoFadd32 sf d a b => 0x611C0000#32 ||| fld sf 21 ||| fld d 12 ||| fld a 6 ||| fld b 0
  | .amo2Umin sf d a b => 0x62000000#32 ||| fld sf 21 ||| fld d 12 ||| fld a 6 ||| fld b 0
  | .amo2Umax sf d a b => 0x62040000#32 ||| fld sf 21 ||| fld d 12 ||| fld a 6 ||| fld b 0
  | .amo2Cas sf d a b => 0x62080000#32 ||| fld sf 21 ||| fld d 12 ||| fld a 6 ||| fld b 0
  | .amo2Incb sf d a b => 0x620C0000#32 ||| fld sf 21 ||| fld d 12 ||| fld a 6 ||| fld b 0
  | .amo2Fmin32 sf d a b => 0x62100000#32 ||| fld sf 21 ||| fld d 12 ||| fld a 6 ||| fld b 0
  | .amo2Fmax32 sf d a b => 0x62140000#32 ||| fld sf 21 ||| fld d 12 ||| fld a 6 ||| fld b 0
  | .amo2Add32w sf d a b => 0x62180000#32 ||| fld sf 21 ||| fld d 12 ||| fld a 6 ||| fld b 0
  | .amo2Fadd16x2 sf d a b => 0x621C0000#32 ||| fld sf 21 ||| fld d 12 ||| fld a 6 ||| fld b 0
  | .ldacq sf z d a => 0x63000000#32 ||| fld sf 21 ||| fld z 18 ||| fld d 12 ||| fld a 6
  | .strel sf z a b => 0x63100000#32 ||| fld sf 21 ||| fld z 18 ||| fld a 6 ||| fld b 0
  | .launch d a => 0x70000000#32 ||| fld d 18 ||| fld a 12
  | .launchId d a => 0x70000001#32 ||| fld d 18 ||| fld a 12
  | .launchGate d a b => 0x70000002#32 ||| fld d 18 ||| fld a 12 ||| fld b 6
  | .launchGateId d a b => 0x70000003#32 ||| fld d 18 ||| fld a 12 ||| fld b 6
  | .lwait d a => 0x70000004#32 ||| fld d 18 ||| fld a 12
  | .ltry d a => 0x70000005#32 ||| fld d 18 ||| fld a 12
  | .lcancel d a => 0x70000006#32 ||| fld d 18 ||| fld a 12
  | .lwaitComplete _ => 0#32
  | .msend d a n => 0x71000000#32 ||| fld d 18 ||| fld a 12 ||| fld n 6
  | .msendw d a b => 0x71000001#32 ||| fld d 18 ||| fld a 12 ||| fld b 6
  | .mailboxEntryGrant _ _ => 0#32
  | .messageDelivery _ => 0#32
  | .mrecv d n => 0x71000002#32 ||| fld d 18 ||| fld n 6
  | .mtry d n => 0x71000003#32 ||| fld d 18 ||| fld n 6
  | .mrecvTake _ => 0#32
  | .msigtl a b => 0x71000004#32 ||| fld a 12 ||| fld b 6
  | .mwaittl a b => 0x71000005#32 ||| fld a 12 ||| fld b 6
  | .mtrytl d a b => 0x71000006#32 ||| fld d 18 ||| fld a 12 ||| fld b 6
  | .mamoAdd d a b => 0x71000010#32 ||| fld d 18 ||| fld a 12 ||| fld b 6
  | .mamoAnd d a b => 0x71000011#32 ||| fld d 18 ||| fld a 12 ||| fld b 6
  | .mamoOr d a b => 0x71000012#32 ||| fld d 18 ||| fld a 12 ||| fld b 6
  | .mamoXor d a b => 0x71000013#32 ||| fld d 18 ||| fld a 12 ||| fld b 6
  | .mamoSwap d a b => 0x71000014#32 ||| fld d 18 ||| fld a 12 ||| fld b 6
  | .mamoMin d a b => 0x71000015#32 ||| fld d 18 ||| fld a 12 ||| fld b 6
  | .mamoMax d a b => 0x71000016#32 ||| fld d 18 ||| fld a 12 ||| fld b 6
  | .mamoFadd32 d a b => 0x71000017#32 ||| fld d 18 ||| fld a 12 ||| fld b 6
  | .mamo2Umin d a b => 0x71000018#32 ||| fld d 18 ||| fld a 12 ||| fld b 6
  | .mamo2Umax d a b => 0x71000019#32 ||| fld d 18 ||| fld a 12 ||| fld b 6
  | .mamo2Cas d a b => 0x7100001A#32 ||| fld d 18 ||| fld a 12 ||| fld b 6
  | .mamo2Incb d a b => 0x7100001B#32 ||| fld d 18 ||| fld a 12 ||| fld b 6
  | .mamo2Fmin32 d a b => 0x7100001C#32 ||| fld d 18 ||| fld a 12 ||| fld b 6
  | .mamo2Fmax32 d a b => 0x7100001D#32 ||| fld d 18 ||| fld a 12 ||| fld b 6
  | .mamo2Add32w d a b => 0x7100001E#32 ||| fld d 18 ||| fld a 12 ||| fld b 6
  | .mamo2Fadd16x2 d a b => 0x7100001F#32 ||| fld d 18 ||| fld a 12 ||| fld b 6
  | .remoteOperation _ _ _ _ _ _ => 0#32
  | .supvCarea a => 0x72000000#32 ||| fld a 12
  | .supvCsave => 0x72000001#32
  | .supvCrest => 0x72000002#32
  | .crestGrant _ => 0#32
  | .supvTack => 0x72000003#32
  | .supvTset a => 0x72000004#32 ||| fld a 12
  | .supvEack a => 0x72000005#32 ||| fld a 12
  | .supvPack => 0x72000006#32
  | .supvTlbinv a b => 0x72000007#32 ||| fld a 12 ||| fld b 6
  | .supvQuiesce d a => 0x72000008#32 ||| fld d 18 ||| fld a 12
  | .supvResume a => 0x72000009#32 ||| fld a 12
  | .supvReplay a b => 0x7200000A#32 ||| fld a 12 ||| fld b 6
  | .supvRtn d a b => 0x7200000B#32 ||| fld d 18 ||| fld a 12 ||| fld b 6
  | .supvSvch a b => 0x7200000C#32 ||| fld a 12 ||| fld b 6
  | .seamRead l w d => 0x73000000#32 ||| fld l 21 ||| fld w 18 ||| fld d 12
  | .seamHealth d => 0x73100000#32 ||| fld d 12
  | .timerExpiry _ => 0#32
  | .interruptEntry _ _ => 0#32
  | .l1Eviction _ _ => 0#32
  | .homeHoldRelease _ => 0#32
  | .commandStart _ _ => 0#32
  | .landedCountRise _ _ _ _ => 0#32
  | .sourceReadDone _ _ _ => 0#32
  | .transferSuspend _ _ _ => 0#32
  | .transferPoison _ _ _ => 0#32
  | .bodkinFault _ _ _ => 0#32
  | .fabricSendArrival _ _ _ _ => 0#32
  | .launchDispatch _ => 0#32
  | .gateOpen _ => 0#32
  | .priorityAging _ => 0#32
  | .gangPlacement _ => 0#32
  | .reservationPreempt _ => 0#32
  | .gangRestore _ => 0#32
  | .unitCancelStop _ => 0#32
  | .channelReset _ _ => 0#32
  | .clusterModeChange _ _ => 0#32
  | .runtimeRetire _ => 0#32
  | .deviceReset => 0#32
  | .functionLevelReset => 0#32
  | .hostBar2Access _ _ _ _ => 0#32
  | .bar2baseWrite _ => 0#32
  | .go _ => 0#32
  | .hostCounterWrite _ _ => 0#32
  | .doorbell _ => 0#32
  | .load => 0#32
  | .firmwareVerifyDone => 0#32
  | .stage2Entry => 0#32
  | .stage3Entry => 0#32
  | .req => 0#32
  | .attestationReportReady => 0#32
  | .validWrite _ => 0#32
  | .ccountWrite _ => 0#32
  | .correctedError _ _ _ => 0#32
  | .uncorrectedError _ _ _ => 0#32
  | .telemetryUpdate => 0#32
  | .throttleAlert _ => 0#32
  | .tripNearWarning => 0#32
  | .electricalTrip => 0#32
  | .portStateChange _ _ => 0#32
  | .blockLeaveService _ _ => 0#32
  | .blockReturnService _ _ => 0#32
  | .arm => 0#32
  | .checkpointCut => 0#32
  | .frameStream _ => 0#32
  | .illegalInsn _ => 0#32
  | .fetchFault _ _ => 0#32
  | .wfiEarlyCompletion _ => 0#32
  | .remoteAcknowledgement _ _ _ _ => 0#32
  | .resizableBarSelect _ => 0#32
  | .fabricSetUp _ _ _ => 0#32

/-- The instruction that the decoder reads from bits numbered as spec/opcode_table.json numbers them: every instruction of the NX
is one 32-bit word (R44), so bits at and above `nbits` are zero. -/
noncomputable def decodeTableWord (nbits w : Nat) : Option Instr :=
  match decode (BitVec.ofNat 32 (w % 2 ^ nbits)) with
  | .ok i => some i
  | .error _ => none

end Sys2Proof
end

