-- ==== Sys2Proof/Machine/State.lean ====
section
/-!
DEFINITION. The state of an LF-NX1: the hart whose turn it is and its core, the parked harts and cores, the device,
and the schedule. Every field is plain data. The comments name the rule that gives each field.
Registers and objects for which the spec gives no reset value hold the values of log 8.
-/

namespace Sys2Proof.Machine

/-- Why the machine stops. -/
inductive Fault where
  /-- The electrical trip has stopped every clock (R445): nothing runs until DEVICE_RESET. Raised by `step`. Safe: R445 gives no effect. -/
  | clockStopped
deriving DecidableEq, Repr

/-- Why an instruction is refused. -/
inductive Refusal where
  /-- No meaning is written for the instruction yet. Raised by arms of `exec` only. Safe. -/
  | notModelled (mnemonic : String)
deriving DecidableEq, Repr

/-- A list of keyed values in one canonical form: keys strictly rising, no entry equal to the default of its kind. -/
abbrev Sparse (α : Type) := List (Nat × α)

/-- What the word at the pc of a waiting hart waits for (R159 and the entry of each waiting word). -/
inductive Wait where
  /-- `SETVL` waits for lgmin (R21). -/
  | lgmin
  /-- A stalled `LPART` write (R16). -/
  | lpart
  /-- A word waits on a filling or draining swatch (R254, R288). -/
  | swatch
  /-- `SHGO` waits for queue room (R291). -/
  | queue
  /-- `SHPORT.disc` or `VLDS` waits on a port or a landing (R278, R294). -/
  | port
  /-- `WAITTL` or `MWAITTL` (R295, R421). -/
  | timeline
  /-- `WAITTL` for the gather-and-scatter counter of unit `u` of launch `l` to reach `n`; `passed` once the unit ended with its counter there (R295). -/
  | unitCounter (l : BitVec 48) (u : BitVec 32) (n : Word) (passed : Bool)
  /-- `BWAIT` on the object at `off` with phase `p`; `passed` once a value with another phase stood there (R297). -/
  | barrier (off : Nat) (p : Bool) (passed : Bool)
  /-- A send waits for a mailbox entry; the answer once there is one (R419). -/
  | mailbox (answer : Option Bool)
  /-- `MRECV` waits for a message (R420). -/
  | message
  /-- `LWAIT` waits for a node (R415). -/
  | node
  /-- `SUPV.crest` waits for `n` more lane groups, ahead of every hart in the FIFO (R167). -/
  | crest (n : Nat)
  /-- `WFI` (R93). -/
  | wfi
  /-- `PAUSE` (R93). -/
  | pause
  /-- A remote operation was sent; whether an interrupt waits for its answer (it changes memory), and the answer once it is there:
  the value and 0 for success (R421, R422). -/
  | remote (held : Bool) (reply : Option (Word × BitVec 8))
  /-- A pod-scope release waits for acknowledgements (R335, R356). -/
  | acks
  /-- `SUPV.rtn` waits for commands that use the routine (R423). -/
  | routine
  /-- An access to a channel of an HBM stack under repair (R442). -/
  | memory
  /-- `SUPV.tlbinv` waits for accesses that were translated through the entry (R174). -/
  | invalidation
  /-- A vector memory word behind an open matrix convoy has not started: the word that closes the convoy cannot be reached yet (R43; log 24). -/
  | convoy
deriving DecidableEq, Repr

/-- A split region (R380-R384): the copied words, the join offset, the threads that yielded with the offsets
still to be issued before they are ready, and for each logical lane group the offset after which its round robin goes on. -/
structure Region where
  base : Word
  words : List Insn
  join : Nat
  yielded : List (Nat × List Nat)
  last : List (Nat × Nat)
deriving DecidableEq, Repr

/-- A message (R417-R420): its sender's mailbox id, its pairs (coordinate, value), and whether its release was at pod scope. -/
structure Message where
  sender : Word
  pairs : List (BitVec 32 × BitVec 32)
  pod : Bool
deriving DecidableEq, Repr

/-- Where an access lands. -/
inductive Place where
  /-- A scratchpad offset (R233). -/
  | spad (off : Nat)
  /-- An HBM address on a KIND = 0 page with its leaf (R242). -/
  | mem (pa : Nat) (leaf : Word)
  /-- An address on a KIND = 1 page with its leaf (R237, R431). -/
  | dev (pa : Nat) (leaf : Word)
deriving DecidableEq, Repr

/-- A scalar store that the run-ahead window holds (R41): its address, its place, its width in bytes and its value. -/
structure PendingStore where
  va : Word
  place : Place
  n : Nat
  v : Word
deriving DecidableEq, Repr

/-- The matrix words a convoy is written to hold, and what an open convoy of `MMETA` words staged (R309, R310). `chain` holds the kinds of
the `MMETA` words that a matrix word with C = 1 is written to join: a window 0 to 7, 8 for `.idx`, 9 for `.rows`; it is empty after any other
matrix word, and none before the hart's first (R49). `count` words are held, the first at `first`. While the convoy is open the hart's
run-ahead window has run `window` scalar words, and holds `stores`, oldest first (R41). -/
structure MStage where
  chain : Option (List Nat)
  isOpen : Bool
  count : Nat
  first : Word
  metaBits : Sparse (BitVec 65536)
  idx : Option (BitVec 65536)
  rows : Option (BitVec 65536)
  stores : List PendingStore
  window : Nat
deriving DecidableEq, Repr

/-- The classes of vector-side words (R119); arithmetic words run in either pipe, only in pipe B, or take both. -/
inductive WordClass where
  | memory | arith | arithB | arithBoth | fibre | select
deriving DecidableEq, Repr

/-- What R119, R120 and R131 ask of a word in a convoy: its class, whether it uses VPR, its VL and EW, the vector and mask
registers it reads and writes, and the mask that no younger member may read either (R375). -/
structure Member where
  cls : WordClass
  vpr : Bool
  vl : BitVec 12
  ew : BitVec 2
  vr : BitVec 32
  vw : BitVec 32
  kr : BitVec 8
  kw : BitVec 8
  kx : BitVec 8
deriving DecidableEq, Repr

/-- A word that a hart has fetched before the words older than it have completed (R460): its address, what translated it, and the word. -/
structure EarlyWord where
  addr : Word
  ptroot : Word
  asid : BitVec 14
  prv : Bool
  word : Insn
deriving DecidableEq, Repr

/-- One hart slot and the unit on it. -/
structure Hart where
  /-- A unit is placed on the slot (R12, R400). -/
  live : Bool
  /-- The program counter (R13). -/
  pc : Word
  /-- x0-x63; x0 is never written (R28). -/
  x : Vector Word 64
  /-- v0-v31, 4096 bits for each lane group (R26, R28). -/
  v : Vector (BitVec 65536) 32
  /-- k0-k7 (R28). -/
  k : Vector (BitVec 2048) 8
  /-- mx0-mx7: row r, column c at bits 32 * (64 * r + c) up (R28). -/
  mx : Vector (BitVec 131072) 8
  /-- SMM (R36). -/
  smm : BitVec 2048
  /-- FOCC[0..15] (R33). -/
  focc : Vector (BitVec 12) 16
  /-- VL (R27). -/
  vl : BitVec 12
  /-- VTYPE (R27). -/
  vtype : BitVec 12
  /-- VSTART (R30). -/
  vstart : BitVec 11
  /-- VPR (R31). -/
  vpr : Word
  /-- VDIRTY (R32). -/
  vdirty : BitVec 40
  /-- FCSR (R34). -/
  fcsr : BitVec 14
  /-- MSHAPE (R35); bits 15 and 7 stay zero. -/
  mshape : BitVec 44
  /-- LAT.GMAP (R23). -/
  gmap : BitVec 16
  /-- LAT.LGMIN (R23). -/
  lgmin : BitVec 5
  /-- LAT.LGMAX (R23). -/
  lgmax : BitVec 5
  /-- STATUS.IE (R149). -/
  ie : Bool
  /-- STATUS.PIE. -/
  pie : Bool
  /-- STATUS.PPRV. -/
  pprv : Bool
  /-- STATUS.PRV: true is supervisor. -/
  prv : Bool
  /-- STATUS.TEN. -/
  ten : Bool
  /-- STATUS.EEN. -/
  een : Bool
  /-- STATUS.PEN. -/
  pen : Bool
  /-- STATUS.TPEND. -/
  tpend : Bool
  /-- STATUS.PPEND. -/
  ppend : Bool
  /-- Pending EXTERNAL sources in ascending order; EPEND is set while there is one (R154). -/
  ext : List Nat
  /-- EPC (R150); bits [1:0] stay zero. -/
  epc : Word
  /-- CAUSE.CODE (R150). -/
  cause : BitVec 6
  /-- TVAL (R150). -/
  tval : Word
  /-- TBASE (R150); bits [5:0] stay zero. -/
  tbase : Word
  /-- ASID (R150). -/
  asid : BitVec 14
  /-- PTROOT (R150); bits outside [51:16] stay zero. -/
  ptroot : Word
  /-- INSTRET (R37). -/
  instret : Word
  /-- UNITID (R395). -/
  unit : BitVec 32
  /-- LAUNCHID: GEN and SLOT (R395). -/
  node : BitVec 48
  /-- The gang of the unit within its launch (R406). -/
  gang : Nat
  /-- The hart slot's timer interval (R423). -/
  timerInt : BitVec 32
  /-- The cycle at which a running timer expires (R423). -/
  timerAt : Option Nat
  /-- The hart slot's save-area address (R164, R423). -/
  carea : Word
  /-- The basting journal's word address (R162). -/
  jaddr : Word
  /-- The basting journal's bits (R162). -/
  jbits : BitVec 2048
  /-- The unit's gather-and-scatter counter, kind 0x03 (R263). -/
  gs : Word
  /-- The unit's mailbox, oldest first (R417). -/
  mbox : List Message
  /-- The words that a vector-side word with C = 1 is written to join, oldest first (R120). -/
  vconvoy : List Member
  /-- The matrix stage (R309, R310). -/
  mstage : MStage
  /-- Words fetched early since the last fence or acquire of core scope or wider, but those at the target of a taken branch, a jump or a `RETT`
  (R83, R92, R460; log 45). -/
  early : List EarlyWord
  /-- What the word at the pc waits for. -/
  wait : Option Wait
  /-- Stop points that remain before a pending interrupt is taken inside the running word (R43; the model's own). -/
  stop : Option Nat
  /-- The element at which the running word stops because its convoy does (R122; the model's own, none between steps). -/
  upTo : Option Nat
  /-- A handler fault stopped the hart (R459). -/
  halted : Bool
  /-- A cancellation covers the unit (R409). -/
  cancelled : Bool
  /-- The split region that runs, if any (R380). -/
  region : Option Region
  /-- The lane thread whose word is running, and the trap it raised (R381, R384; the model's own, none between steps). -/
  lane : Option (Nat × Option (BitVec 6 × Word))
  /-- Lock quota of the unit (R241, R398). -/
  lockq : BitVec 32
  /-- Remote operations not yet acknowledged (R335, R422). -/
  remote : Nat
  /-- The cycle at which the unit's gang was placed (R410). -/
  placedAt : Nat
  /-- The handler that runs has saved the user context with `SUPV.csave` (R166, R410). -/
  csaved : Bool
  /-- An interrupt has stopped a `WFI` of the unit, which completes when it runs again (R93, R159; the model's own, log 28). -/
  woken : Bool
  /-- The vector-side word at the pc, or the next one, resumes at VSTART after a `RETT` (R122; the model's own). -/
  resumed : Bool
  /-- The element-wise words behind the pc that have stopped with their convoy, in the order in which they run again, and the element at which each
  starts (R122; the model's own). -/
  owed : List (Word × BitVec 11)
deriving DecidableEq, Repr

/-- A pattern-table entry (R61, R248): the 64-byte record, byte 0 in bits [7:0], and its valid bit. -/
structure Pat where
  valid : Bool
  record : BitVec 512
deriving DecidableEq, Repr

/-- A channel's staging area (R289). -/
structure Staging where
  src : Option (BitVec 8)
  dst : Option (BitVec 8)
  idx : Option (BitVec 8)
  sbase : Option Word
  dbase : Option Word
  bar : Option (BitVec 20)
  sw : Option (BitVec 6)
  port : Option (BitVec 8)
  rtn : Option (BitVec 5)
deriving DecidableEq, Repr

/-- The command kinds of R257. -/
inductive CmdKind where
  | copy | rows | stream | send | bodkin
deriving DecidableEq, Repr

/-- Where a command stands (R256, R176, R177). -/
inductive CmdState where
  /-- Fired, not started. -/
  | queued
  /-- In flight. -/
  | flying
  /-- In flight, stopped at a fault until it is replayed. -/
  | suspended
deriving DecidableEq, Repr

/-- A bodkin routine as `SUPV.rtn` loaded it (R267, R423): its header, and its whole image, header first, byte 0 lowest. -/
structure Routine where
  header : BitVec 256
  image : Nat
deriving DecidableEq, Repr

/-- A command that has been fired and has not completed: what `SHGO` captured (R256) and how far it has come. -/
structure Cmd where
  id : Nat
  kind : CmdKind
  hart : BitVec 11
  src : BitVec 512
  dst : BitVec 512
  idx : BitVec 512
  sw : Option (BitVec 6)
  bar : Option (BitVec 20)
  port : Option (BitVec 8)
  /-- The routine's number, and the routine (R267). -/
  rtn : BitVec 5 × Routine
  asid : BitVec 14
  ptroot : Word
  prv : Bool
  vl : Nat
  at' : CmdState
  landed : Nat
  expected : Nat
  /-- Elements from `landed` on read ahead of their landing, each its misses and its codes: of an overlap-safe move, of a routine's output, or of a source
  read to its end (R253, R261, R267). -/
  snap : Option (List (Nat × List Nat))
  /-- Elements above `landed` that have been accepted already (R259). -/
  ahead : List Nat
  /-- The index codes of a `rows` command that have been read, in list order (R257). -/
  codes : List Nat
  /-- Rows not yet accepted and their positions that have landed: before the transfer was suspended (R176) or as it was quiesced (R161). -/
  part : List (Nat × Nat)
  /-- The scout pass of a routine with RATIO 0 is still to come (R268). -/
  scout : Bool
  /-- A lease has started on the core since the command was fired (R401). -/
  stale : Bool
deriving DecidableEq, Repr

/-- A shuttle channel (R256, R262, R289, R293). -/
structure Chan where
  stg : Staging
  next : Nat
  cmds : List Cmd
  statId : Nat
  stat : BitVec 8
  faultAddr : Word
  miss : BitVec 32
  /-- A lease has started and the channel is reset once it holds no command (R401). -/
  resetDue : Bool
deriving DecidableEq, Repr

/-- A vector port (R278, R294): its occupant (channel and id), the unit whose `VLDS` claims it, by launch node and unit number (R279), whether that
`VLDS` has completed, and the landed words. -/
structure VPort where
  occ : Option (Nat × Nat)
  claim : Option (BitVec 48 × BitVec 32)
  read : Bool
  buf : List (BitVec 32)
deriving DecidableEq, Repr

/-- One core (R12, R15, R248, R252, R256). -/
structure Core where
  /-- LPART.NA (R15). -/
  na : BitVec 5
  /-- The stalled LPART writes, oldest first: the hart and the value (R16). -/
  lpstall : List (BitVec 11 × BitVec 5)
  /-- Harts that wait for lgmin on bobbin A, oldest first (R21). -/
  fifoA : List (BitVec 11)
  /-- Harts that wait for lgmin on bobbin B, oldest first (R21). -/
  fifoB : List (BitVec 11)
  /-- Scratchpad bytes by offset (R233). -/
  spad : List Host.Cell
  /-- Poisoned scratchpad rows (offset / 64) with the bits that the running step has written (R236; log 34). -/
  spoison : Sparse (BitVec 512)
  /-- The pattern table (R248). -/
  pats : Sparse Pat
  /-- The swatch table, in the layout of R252. -/
  sws : Vector Word 64
  /-- The 16 shuttle channels (R256). -/
  chans : Vector Chan 16
  /-- The 8 vector ports (R278). -/
  vports : Vector VPort 8
  /-- The 12 fabric-port slots' occupants (R258). -/
  fports : Vector (Option (Nat × Nat)) 12
  /-- The bodkin core's occupant (R258). -/
  bodkin : Option (Nat × Nat)
  /-- The loaded bodkin routines (R267). -/
  rtns : Sparse Routine
  /-- Matrix-queue counter of bobbin A, kind 0x02 (R263, R318). -/
  mqA : Word
  /-- Matrix-queue counter of bobbin B. -/
  mqB : Word
  /-- The gang that holds the core's lease: launch node and gang (R401). -/
  lease : Option (BitVec 48 × Nat)
deriving DecidableEq, Repr

/-- An L1 line (R237-R241): PA / 128, its bytes, dirty sectors, side, the harts whose contexts lock it,
whether it holds data, its poisoned sectors with the bits that the running step has written (R446; log 34), and the cores of the cluster whose
cluster-scope operations its dirty sectors hold (R344; log 27). -/
structure Line where
  tag : Nat
  data : BitVec 1024
  dirty : BitVec 4
  ptr : Bool
  locks : List Nat
  valid : Bool
  poison : Sparse (BitVec 256)
  atom : BitVec 4
deriving DecidableEq, Repr

/-- A write-back past its die layer's ordering point and not yet applied at its home (R237, R335, R343): the line (PA / 128), its dirty sectors and
its image. -/
structure Held where
  layer : Nat
  line : Nat
  dirty : BitVec 4
  data : BitVec 1024
  poison : Sparse (BitVec 256)
  clock : Vector Nat 16
deriving DecidableEq, Repr

/-- A cached translation (R174): the ASID (none for a G leaf), the virtual base, the page size, the leaf entry. -/
structure TlbEntry where
  asid : Option (BitVec 14)
  va : Nat
  size : Nat
  leaf : Word
deriving DecidableEq, Repr

/-- Node kinds of R393 that have a table slot. -/
inductive NodeKind where
  | job | phase | graph | launch
deriving DecidableEq, Repr

/-- Launch states of R396; job, phase and graph nodes are `running` until complete. -/
inductive NodeState where
  | gated | queued | placing | running | draining | complete | freed
deriving DecidableEq, Repr

/-- A reservation (R405): the launch node, its gang, the instance's number at its seam, and the cycle at which it was made. -/
structure Resv where
  node : BitVec 48
  gang : Nat
  inst : Nat
  since : Nat
deriving DecidableEq, Repr

/-- A node-table slot that has been used (R393-R398, R414, R415); `clock` is what its creator and its gate knew (R339, R343, R400; log 43). -/
structure Node where
  gen : BitVec 32
  kind : NodeKind
  state : NodeState
  parent : Option (BitVec 48)
  job : BitVec 48
  record : BitVec 512
  asid : BitVec 14
  ptroot : Word
  timeline : Word
  counter : Nat
  accepted : Nat
  limit : Nat
  status : Nat
  cancelled : Bool
  gate : Option (Word × Word)
  gateUnit : Option (BitVec 48 × BitVec 32)
  creator : Nat
  queuedAt : Nat
  aged : Nat
  nextGang : Nat
  gateLast : Option Word
  jobReg : Option (BitVec 8)
  freedAt : Nat
  clock : Vector Nat 16
deriving DecidableEq, Repr

/-- A job-start register set (R429). -/
structure JobReg where
  record : Word
  ptroot : Word
  asid : BitVec 14
  jobtl : Word
  irqen : Bool
  status : BitVec 8
  live : Bool
  jobid : Word
  /-- A start waits for its record, which lies in an HBM stack under repair (R442). -/
  starting : Bool
deriving DecidableEq, Repr

/-- The checkpoint block and engine (R449-R451). -/
structure Ckpt where
  job : Word
  phase : Word
  dst : Word
  dlen : Word
  ctr : Word
  cstat : BitVec 8
  stream : Bool
  armed : Bool
  bytes : Word
  cutcyc : Word
  donecyc : Word
  streamed : List Nat
  /-- Bytes of the copy, by frame address and offset in the frame's slot. -/
  sink : List Host.Cell
  /-- The table of lengths: 4096 for a frame written whole, less for a compressed one, 0 for a frame of zeros (R451). -/
  lens : Sparse Nat
deriving DecidableEq, Repr

/-- An operation sent to another package and not yet answered (R421, R422): the issuing hart, the form (0 to 15 the atomics of R357,
16 signal, 17 wait, 18 message), its address or counter or mailbox, its operands, and for a message its sender and payload (R419). -/
structure Outgoing where
  hart : BitVec 11
  op : BitVec 5
  addr : Word
  b : Word
  b2 : Word
  msg : Option Message
deriving DecidableEq, Repr

/-- The device outside its cores. -/
structure Device where
  /-- HBM at the homes, by physical address (R242, R243). -/
  mem : List Host.Cell
  /-- Poisoned 32-byte sectors at the homes with the bits that the running step has written (R446; log 34). -/
  poison : Sparse (BitVec 256)
  /-- L1 sets by core * 128 + set, most recent line first (R237, R239). -/
  l1 : Sparse (List Line)
  /-- Fused clusters (R240). -/
  fused : BitVec 64
  /-- Writes past an ordering point, oldest first (R343). -/
  held : List Held
  /-- Layer clocks (R343). -/
  lclock : Vector (Vector Nat 16) 16
  /-- Clocks applied at the homes (R343). -/
  hclock : Vector (Vector Nat 16) 16
  /-- Cached translations (R174). -/
  tlb : List TlbEntry
  /-- General counters 1-65535 (R263). -/
  ctrs : Sparse Word
  /-- Clocks that the signals of a general counter carried (R339, R340, R343; log 43). -/
  cclock : Sparse (Vector Nat 16)
  /-- The node table by slot (R394). -/
  nodes : Sparse Node
  /-- The reservations, oldest first (R405; log 16). -/
  resv : List Resv
  /-- Units of pre-empted gangs that have left their slots: the core each was saved on, and the unit as it was saved (R410). -/
  saved : List (Nat × Hart)
  /-- CYCLE (R37). -/
  cycle : Word
  /-- STAGE (R427, R438). -/
  stage : BitVec 3
  /-- TRIP (R427, R445). -/
  trip : Bool
  /-- REV (R427). -/
  rev : BitVec 8
  /-- SERIAL1 and SERIAL0 (R428). -/
  serial : BitVec 96
  /-- BAR2BASE (R428). -/
  bar2base : Word
  /-- Size of the BAR2 window as a power of two (R426, R428). -/
  bar2log : Nat
  /-- Fabric ports in service (R428, R433). -/
  ports : BitVec 12
  /-- Die layers out of service for repair (R442). -/
  layersOut : BitVec 16
  /-- Die layers that are being emptied before they leave (R442). -/
  leaving : BitVec 16
  /-- HBM stacks under repair (R442). -/
  stacksOut : BitVec 12
  /-- Job-start register sets (R429). -/
  jobs : Sparse JobReg
  /-- LADDR (R436). -/
  laddr : Word
  /-- LLEN (R436). -/
  llen : BitVec 32
  /-- LSTAT (R436). -/
  lstat : BitVec 8
  /-- BUSY of the load block (R436). -/
  lbusy : Bool
  /-- M0-M7 (R437), each as its 32 digest bytes, byte 0 in bits [7:0]. -/
  meas : Vector (BitVec 256) 8
  /-- NONCE (R441). -/
  nonce : BitVec 256
  /-- The captured nonce (R441). -/
  anonce : BitVec 256
  /-- ASTAT (R441). -/
  astat : BitVec 8
  /-- DONE (R441). -/
  adone : Bool
  /-- BUSY of the attestation block (R441). -/
  abusy : Bool
  /-- The last report of R440, byte 0 in bits [7:0]. -/
  report : BitVec 5632
  /-- CLEN (R441). -/
  clen : BitVec 16
  /-- CERT (R441), byte 0 in bits [7:0]. -/
  cert : BitVec 32768
  /-- SEQ (R444). -/
  seq : Word
  /-- Telemetry entries by offset (R444). -/
  tele : Sparse Word
  /-- The error-log ring (R447). -/
  log : Sparse (Word × Word)
  /-- HEAD (R448). -/
  logHead : Word
  /-- LOST (R448). -/
  logLost : Word
  /-- CCOUNT of blocks 0-4 (R448). -/
  ccount : Vector (BitVec 32) 5
  /-- CTHRESH of blocks 0-4 (R448). -/
  cthresh : Vector (BitVec 32) 5
  /-- EXTERNAL routing registers of sources 1-8 (R432). -/
  route : Vector Word 8
  /-- Service hart of each ASID (R423). -/
  svc : Sparse (BitVec 11)
  /-- Quiesced address spaces (R161, R423). -/
  quiet : List Nat
  /-- Pages that have been reached under a leaf with CMP = 1, which their base dies store compressed: base and size (R170, R244; log 39). -/
  cmp : List (Nat × Nat)
  /-- The value that the last host read through BAR2 returned (R426, R428). -/
  hostRead : Word
  /-- The checkpoint engine (R449-R451). -/
  ckpt : Ckpt
  /-- SEAMLOC.GEN (R328). -/
  gen : BitVec 16
  /-- The device is in a pod (R433). -/
  inPod : Bool
  /-- SEAMLOC.PKG (R328, R433). -/
  pkg : BitVec 12
  /-- Messages handed to the package network and not yet delivered: the launch node of the unit that granted an entry, its mailbox, the message (R419). -/
  flight : List (BitVec 48 × Word × Message)
  /-- Pairs of messages of other packages that have not come whole: mailbox, sender, pair (R419; log 18). -/
  podin : List (Word × Word × BitVec 32 × BitVec 32)
  /-- Mailbox entries granted to senders of other packages whose message has not come: the launch node of the unit that granted it, its mailbox, the
  sender's mailbox (R419; log 18). -/
  podgrant : List (BitVec 48 × Word × Word)
  /-- Operations sent to other packages and not yet answered (R421, R422). -/
  podout : List Outgoing
  /-- MSI-X vectors fired, oldest first (R426, R429, R432). -/
  msix : List Nat
deriving DecidableEq, Repr

/-- One entry of the schedule (log 2): the cycles that pass, and the hart that runs next, an event, or a word that a hart fetches early (R460). -/
inductive Turn where
  | run (h : BitVec 11) (dt : Nat)
  | event (i : Instr) (dt : Nat)
  | early (h : BitVec 11) (va : Word) (dt : Nat)
deriving DecidableEq, Repr

/-- The whole machine. -/
structure State where
  /-- The hart whose turn it is. -/
  h : Hart
  /-- Its HARTID (R14). -/
  hid : BitVec 11
  /-- The other harts that have ever been touched, by HARTID. -/
  parked : Sparse Hart
  /-- The core of the hart whose turn it is. -/
  c : Core
  /-- The other cores that have ever been touched, by core number. -/
  cores : Sparse Core
  /-- The device. -/
  d : Device
  /-- The schedule (log 2); when it is empty the same hart runs, one cycle a turn. -/
  turns : List Turn
  /-- Free values drawn so far (log 9). -/
  free : Nat
  /-- Each hart with an open matrix convoy, by HARTID, as it stood at the convoy's first word (R43, R310; log 24). -/
  undo : Sparse Hart
  /-- The rank of the last turn of the running cycle (R243, R409; log 2). -/
  lastRank : Nat
  /-- The core of the last ranked turn and that turn's place in the order of a bank (R235; log 2). -/
  lastBank : Nat × Nat
deriving DecidableEq, Repr

/-- A matrix stage that holds nothing. -/
def MStage.empty : MStage :=
  { chain := none, isOpen := false, count := 0, first := 0, metaBits := [], idx := none, rows := none,
    stores := [], window := 0 }

/-- A hart slot with no unit: every field at the reset value of its map (R29, R149, R150) or of log 8. -/
def Hart.reset : Hart :=
  { live := false, pc := 0, x := Vector.replicate 64 0, v := Vector.replicate 32 0, k := Vector.replicate 8 0,
    mx := Vector.replicate 8 0, smm := 0, focc := Vector.replicate 16 0, vl := 0, vtype := 0, vstart := 0, vpr := 0,
    vdirty := 0, fcsr := 0, mshape := 0, gmap := 0, lgmin := 0, lgmax := 0, ie := false, pie := false, pprv := false,
    prv := false, ten := true, een := true, pen := true, tpend := false, ppend := false, ext := [], epc := 0, cause := 0,
    tval := 0, tbase := 0, asid := 0, ptroot := 0, instret := 0, unit := 0, node := 0, gang := 0, timerInt := 0,
    timerAt := none, carea := 0, jaddr := 0, jbits := 0, gs := 0, mbox := [], vconvoy := [], mstage := MStage.empty,
    early := [], wait := none, stop := none, upTo := none, halted := false, cancelled := false, region := none, lane := none, lockq := 0, remote := 0, placedAt := 0,
    csaved := false, woken := false, resumed := false, owed := [] }

/-- A staging area with every slot none (R289). -/
def Staging.empty : Staging :=
  { src := none, dst := none, idx := none, sbase := none, dbase := none, bar := none, sw := none, port := none, rtn := none }

/-- A channel after reset: the first id is 1 (R256). -/
def Chan.reset : Chan :=
  { stg := Staging.empty, next := 1, cmds := [], statId := 0, stat := 0, faultAddr := 0, miss := 0, resetDue := false }

/-- A free vector port. -/
def VPort.reset : VPort := { occ := none, claim := none, read := false, buf := [] }

/-- A core after reset (R15, R248, R252, R256). -/
def Core.reset : Core :=
  { na := 8, lpstall := [], fifoA := [], fifoB := [], spad := [], spoison := [], pats := [], sws := Vector.replicate 64 0,
    chans := Vector.replicate 16 Chan.reset, vports := Vector.replicate 8 VPort.reset, fports := Vector.replicate 12 none,
    bodkin := none, rtns := [], mqA := 0, mqB := 0, lease := none }

/-- A job-start register set after reset (R429, log 8). -/
def JobReg.reset : JobReg :=
  { record := 0, ptroot := 0, asid := 0, jobtl := 0, irqen := false, status := 0, live := false, jobid := 0, starting := false }

/-- The checkpoint block after reset (R451). -/
def Ckpt.reset : Ckpt :=
  { job := 0, phase := 0, dst := 0, dlen := 0, ctr := 0, cstat := 0, stream := false, armed := false, bytes := 0,
    cutcyc := 0, donecyc := 0, streamed := [], sink := [], lens := [] }

/-- The device after power-on or reset: stage 0 (R435, R438). M0 has been extended with the boot ROM (R437). -/
def Device.reset : Device :=
  { mem := [], poison := [], l1 := [], fused := 0, held := [], lclock := Vector.replicate 16 (Vector.replicate 16 0),
    hclock := Vector.replicate 16 (Vector.replicate 16 0), tlb := [], ctrs := [], cclock := [], nodes := [], resv := [], saved := [], cycle := 0,
    stage := 0, trip := false, rev := 0, serial := 0, bar2base := 0, bar2log := 30, ports := 0xFFF, layersOut := 0, leaving := 0,
    stacksOut := 0, jobs := [], laddr := 0, llen := 0, lstat := 0, lbusy := false,
    meas := (Vector.replicate 8 0).set 0 Config.bootMeasure, nonce := 0, anonce := 0, astat := 0, adone := false,
    abusy := false, report := 0, clen := 0, cert := 0, seq := 0, tele := [], log := [], logHead := 0, logLost := 0,
    ccount := Vector.replicate 5 0, cthresh := Vector.replicate 5 0, route := Vector.replicate 8 0, svc := [], quiet := [],
    cmp := [], hostRead := 0, ckpt := Ckpt.reset, gen := 0, inPod := false, pkg := 0, flight := [], podin := [], podgrant := [], podout := [], msix := [] }

/-- The machine right after reset (R435): stage 0, no unit placed, nothing listed in memory. -/
def State.reset : State :=
  { h := Hart.reset, hid := 0, parked := [], c := Core.reset, cores := [], d := Device.reset, turns := [], free := 0,
    undo := [], lastRank := 0, lastBank := (0, 0) }

end Sys2Proof.Machine
end

