-- ==== Sys2Proof/Machine/Ops.lean ====
section
/-!
DEFINITION. The named operations over memory, caches, translation, registers, lane grants and traps that the meanings share.
-/

namespace Sys2Proof.Machine

/-! ## Keyed lists -/

/-- The value at a key, `d` where nothing is listed. -/
def sget {α : Type} (m : Sparse α) (k : Nat) (d : α) : α :=
  match m with
  | [] => d
  | (k', v) :: t => if k = k' then v else if k < k' then d else sget t k d

/-- The entry at a key, if one is listed. -/
def sfind {α : Type} (m : Sparse α) (k : Nat) : Option α :=
  match m with
  | [] => none
  | (k', v) :: t => if k = k' then some v else if k < k' then none else sfind t k

/-- List `v` at a key. -/
def sput {α : Type} (m : Sparse α) (k : Nat) (v : α) : Sparse α :=
  match m with
  | [] => [(k, v)]
  | (k', v') :: t => if k = k' then (k, v) :: t else if k < k' then (k, v) :: (k', v') :: t else (k', v') :: sput t k v

/-- List nothing at a key. -/
def sdel {α : Type} (m : Sparse α) (k : Nat) : Sparse α :=
  match m with
  | [] => []
  | (k', v') :: t => if k = k' then t else if k < k' then (k', v') :: t else (k', v') :: sdel t k

/-- Write a value; writing the default removes the entry. -/
def sset {α : Type} [DecidableEq α] (m : Sparse α) (k : Nat) (v d : α) : Sparse α :=
  if v = d then sdel m k else sput m k v

/-- Every key listed is above `k`. -/
def sabove {α : Type} (k : Nat) : Sparse α → Bool
  | [] => true
  | (k', _) :: t => k < k' && sabove k t

/-- The canonical form: keys strictly rising, no entry equal to the default. -/
def Sparse.wf {α : Type} [DecidableEq α] (d : α) : Sparse α → Bool
  | [] => true
  | (k, v) :: t => sabove k t && (v != d) && Sparse.wf d t

/-! ## Bytes -/

/-- Memory by address; an unlisted byte reads as 0 (log 3). -/
abbrev Memory := List Host.Cell

/-- The canonical form of a memory. -/
abbrev Memory.wf (m : Memory) : Bool := Sparse.wf (0 : Byte) m

/-- The byte at an address. -/
def Memory.get (m : Memory) (a : Nat) : Byte := sget m a 0

/-- Write one byte. -/
def Memory.set (m : Memory) (a : Nat) (v : Byte) : Memory := sset m a v 0

/-- `n` bytes from `a` up as a number, little-endian (R6). -/
def Memory.read (m : Memory) (a : Nat) : Nat → Nat
  | 0 => 0
  | n + 1 => (m.get a).toNat + 256 * Memory.read m (a + 1) n

/-- Write the low `n` bytes of a number from `a` up, little-endian (R6). -/
def Memory.write (m : Memory) (a : Nat) : Nat → Nat → Memory
  | 0, _ => m
  | n + 1, v => Memory.write (m.set a (BitVec.ofNat 8 v)) (a + 1) n (v / 256)

/-- Bits [hi:lo] of a word as a number (R5). -/
abbrev bits {n : Nat} (w : BitVec n) (hi lo : Nat) : Nat := (w.extractLsb' lo (hi + 1 - lo)).toNat

/-- Bit `i` of a word. -/
abbrev bit {n : Nat} (w : BitVec n) (i : Nat) : Bool := w.getLsbD i

/-- Replace `l` bits of `w` from `lo` up. -/
def putBits {n l : Nat} (w : BitVec n) (lo : Nat) (v : BitVec l) : BitVec n :=
  (w &&& ~~~(((BitVec.allOnes l).setWidth n) <<< lo)) ||| ((v.setWidth n) <<< lo)

/-! ## Harts and cores -/

/-- The core number of a hart, HARTID[10:3] (R14). -/
def coreOf (hid : BitVec 11) : Nat := bits hid 10 3
/-- The die layer of a hart (R14). -/
def layerOf (hid : BitVec 11) : Nat := bits hid 10 7
/-- The die layer of a core. -/
def coreLayer (core : Nat) : Nat := core / 16
/-- The cluster of the package that a core lies in, 0-63. -/
def coreCluster (core : Nat) : Nat := core / 4
/-- Whether the hart is on bobbin B (R14). -/
def onB (hid : BitVec 11) : Bool := bit hid 2

/-- The hart slot `hid`. -/
def State.hart (s : State) (hid : BitVec 11) : Hart :=
  if hid = s.hid then s.h else (sfind s.parked hid.toNat).getD Hart.reset

/-- Write the hart slot `hid`. -/
def State.setHart (s : State) (hid : BitVec 11) (h : Hart) : State :=
  if hid = s.hid then { s with h := h } else { s with parked := sput s.parked hid.toNat h }

/-- The core `n`. -/
def State.core (s : State) (n : Nat) : Core :=
  if n = coreOf s.hid then s.c else (sfind s.cores n).getD Core.reset

/-- Write the core `n`. -/
def State.setCore (s : State) (n : Nat) (c : Core) : State :=
  if n = coreOf s.hid then { s with c := c } else { s with cores := sput s.cores n c }

/-- Give the turn to hart `hid`. -/
def focus (s : State) (hid : BitVec 11) : State :=
  if hid = s.hid then s
  else
    let h := s.hart hid
    let c := s.core (coreOf hid)
    let parked := sdel (sput s.parked s.hid.toNat s.h) hid.toNat
    let cores := if coreOf hid = coreOf s.hid then s.cores else sdel (sput s.cores (coreOf s.hid) s.c) (coreOf hid)
    { s with h := h, hid := hid, parked := parked, c := c, cores := cores }

/-- Run `f` with hart `hid` in focus and give the turn back. -/
def onHart (s : State) (hid : BitVec 11) (f : State → State) : State :=
  focus (f (focus s hid)) s.hid

/-- Change a field of the hart in focus. -/
abbrev State.updH (s : State) (f : Hart → Hart) : State := { s with h := f s.h }
/-- Change the core in focus. -/
abbrev State.updC (s : State) (f : Core → Core) : State := { s with c := f s.c }
/-- Change the device. -/
abbrev State.updD (s : State) (f : Device → Device) : State := { s with d := f s.d }

/-- The eight HARTIDs of a core. -/
def coreHarts (core : Nat) : List (BitVec 11) := (List.range 8).map fun i => BitVec.ofNat 11 (core * 8 + i)

/-- The HARTIDs of the harts that hold a unit, in ascending order. -/
def State.liveHarts (s : State) : List (BitVec 11) :=
  let p := (s.parked.filter fun e => e.2.live && decide (e.1 ≠ s.hid.toNat)).map fun e => BitVec.ofNat 11 e.1
  if s.h.live then (p.filter fun i => i.toNat < s.hid.toNat) ++ s.hid :: (p.filter fun i => s.hid.toNat < i.toNat) else p

/-- Draw a free value: the number of the draw, and the state with the next one (log 9). -/
def State.draw (s : State) : Nat × State := (s.free, { s with free := s.free + 1 })

/-! ## Registers -/

/-- Element width in bits of the hart's VTYPE (R27). -/
def Hart.ew (h : Hart) : Nat := ewBits (h.vtype.extractLsb' 0 2)
/-- VTYPE.FMT. -/
def Hart.fmt (h : Hart) : Fmt := h.vtype.extractLsb' 2 5
/-- VTYPE.BLK as a block length, 0 for none. -/
def Hart.blk (h : Hart) : Nat := blkLen (h.vtype.extractLsb' 7 3)
/-- VTYPE.TZ. -/
def Hart.tz (h : Hart) : Bool := bit h.vtype 10
/-- VTYPE.MZ. -/
def Hart.mz (h : Hart) : Bool := bit h.vtype 11

/-- The number of set bits among the low `n`. -/
def popCount {w : Nat} (b : BitVec w) : Nat → Nat
  | 0 => 0
  | n + 1 => (if b.getLsbD n then 1 else 0) + popCount b n

/-- The grant g: lane groups granted (R23). -/
def Hart.g (h : Hart) : Nat := popCount h.gmap 16

/-- VLMAX(W, g) (R24). -/
def vlmax (w g : Nat) : Nat := min 2048 (4096 / w * g)

/-- The bit at which element `e` of width `w` starts in a vector register under grant `g` (R26). -/
def elemPos (w g e : Nat) : Nat :=
  let n := 512 / w
  let j := e / n
  4096 * (j % g) + 512 * (j / g) + w * (e % n)

/-- Element `e` of width `w` of vector register `r` (R26). -/
def Hart.elem (h : Hart) (w : Nat) (r : BitVec 5) (e : Nat) : Word :=
  ((h.v[r.toNat]).extractLsb' (elemPos w h.g e) w).setWidth 64

/-- Write the low `w` bits of `x` into element `e` of register `r`, marking it dirty (R26, R32). -/
def Hart.setElem (h : Hart) (w : Nat) (r : BitVec 5) (e : Nat) (x : Word) : Hart :=
  { h with v := h.v.set r.toNat (putBits h.v[r.toNat] (elemPos w h.g e) (x.setWidth w)),
           vdirty := h.vdirty ||| (1#40 <<< r.toNat) }

/-- Bit `e` of mask register `m`, whatever `m` is. -/
def Hart.kbit (h : Hart) (m : BitVec 3) (e : Nat) : Bool := (h.k[m.toNat]).getLsbD e

/-- Whether element `e` is active under the mask field `m`: 0 is unmasked (R28). -/
def Hart.active (h : Hart) (m : BitVec 3) (e : Nat) : Bool := m == 0 || h.kbit m e

/-- Write mask register `m`. -/
def Hart.setK (h : Hart) (m : BitVec 3) (b : BitVec 2048) : Hart := { h with k := h.k.set m.toNat b }

/-- Read an x register: x0 is zero (R28); in a lane thread 0-31 are its elements (R381). -/
def rx (s : State) (r : BitVec 6) : Word :=
  match s.h.lane with
  | none => if r = 0 then 0 else s.h.x[r.toNat]
  | some (t, _) =>
    if r.toNat < 32 then
      if s.h.ew = 32 then sext32 (s.h.elem 32 (r.setWidth 5) t) else s.h.elem 64 (r.setWidth 5) t
    else s.h.x[r.toNat]

/-- Write an x register: a write to x0 is discarded (R28); in a lane thread 0-31 are its elements (R381). -/
def wx (s : State) (r : BitVec 6) (v : Word) : State :=
  match s.h.lane with
  | none => if r = 0 then s else { s with h := { s.h with x := s.h.x.set r.toNat v } }
  | some (t, _) => if r.toNat < 32 then { s with h := s.h.setElem s.h.ew (r.setWidth 5) t v } else s

/-- OR flags into FCSR (R34). -/
def State.flags (s : State) (f : BitVec 14) : State := { s with h := { s.h with fcsr := s.h.fcsr ||| f } }

/-- FCSR.RM (R34). -/
def Hart.rm (h : Hart) : BitVec 3 := h.fcsr.extractLsb' 0 3

/-- STATUS (R149). -/
def Hart.status (h : Hart) : Word :=
  let b (x : Bool) (i : Nat) : Word := if x then 1#64 <<< i else 0
  b h.ie 0 ||| b h.pie 1 ||| b h.pprv 2 ||| b h.prv 3 ||| b h.ten 8 ||| b h.een 9 ||| b h.pen 10 |||
    b h.tpend 16 ||| b (!h.ext.isEmpty) 17 ||| b h.ppend 18

/-! ## Stops -/

/-- An outcome of this machine. -/
abbrev Out := Host.Outcome State Fault Refusal

/-- Why a word does not complete at its place: it traps (R151), or it waits (R159). -/
inductive Stop where
  | trap (cause : BitVec 6) (tval : Word)
  | wait (w : Wait)
deriving DecidableEq, Repr

namespace Cause
/-- R151. -/ abbrev illegal : BitVec 6 := 0x00
/-- R151. -/ abbrev convoy : BitVec 6 := 0x01
/-- R151. -/ abbrev misaligned : BitVec 6 := 0x02
/-- R151. -/ abbrev fetchPage : BitVec 6 := 0x03
/-- R151. -/ abbrev loadPage : BitVec 6 := 0x04
/-- R151. -/ abbrev storePage : BitVec 6 := 0x05
/-- R151. -/ abbrev access : BitVec 6 := 0x06
/-- R151. -/ abbrev scopeMiss : BitVec 6 := 0x07
/-- R151. -/ abbrev matrixBounds : BitVec 6 := 0x08
/-- R151. -/ abbrev patternInvalid : BitVec 6 := 0x09
/-- R151. -/ abbrev swatchState : BitVec 6 := 0x0A
/-- R151. -/ abbrev laneBuffer : BitVec 6 := 0x0B
/-- R151. -/ abbrev svc : BitVec 6 := 0x0C
/-- R151. -/ abbrev breakpoint : BitVec 6 := 0x0D
/-- R151. -/ abbrev timer : BitVec 6 := 0x10
/-- R151. -/ abbrev external : BitVec 6 := 0x11
/-- R151. -/ abbrev preempt : BitVec 6 := 0x12
end Cause

/-! ## Homes -/

/-- The address lies in HBM (R242). -/
def inHbm (pa : Nat) : Bool := pa < 0x9000000000
/-- The address lies in the management window (R431). -/
def inMgmt (pa : Nat) : Bool := 0xF000000000 ≤ pa && pa ≤ 0xF000FFFFFF
/-- The address lies in the host window (R431). -/
def inHostMem (pa : Nat) : Bool := 0x8000000000000 ≤ pa && pa ≤ 0xFFFFFFFFFFFFF

/-- The first layer of the list in service, for homes that moved (R442). -/
def firstInService (out : BitVec 16) (n : Nat) : List Nat → Nat
  | [] => n
  | k :: t => if out.getLsbD (n ^^^ k) then firstInService out n t else n ^^^ k

/-- The home die layer of an HBM address (R242, R442). -/
def homeLayer (d : Device) (pa : Nat) : Nat :=
  firstInService d.layersOut (pa / 4096 % 384 / 24) (List.range 16)

/-- Some 32-byte sector of the range is poisoned at its home (R446). -/
def homePoisoned (d : Device) (pa n : Nat) : Bool :=
  (List.range ((pa + n - 1) / 32 - pa / 32 + 1)).any fun i => (sfind d.poison (pa / 32 + i)).isSome

/-- A granule's record of written bits after a write of `n` bits at `off` in it; none once all are written (R236, R446).
The record lasts one step: `freshMarks` clears it. -/
def maskWrite {w : Nat} (m : BitVec w) (off n : Nat) : Option (BitVec w) :=
  let m' := m ||| ((BitVec.allOnes w >>> (w - n)) <<< off)
  if m' = BitVec.allOnes w then none else some m'

/-- A record of poison in which no bit has been written. -/
def freshPoison {w : Nat} (p : Sparse (BitVec w)) : Sparse (BitVec w) := p.map fun e => (e.1, 0)

/-- Mark `n` bits from bit `a` up written in every poisoned granule of `w` bits that they touch (R236, R446). -/
def poisonBits {w : Nat} (p : Sparse (BitVec w)) (a n : Nat) : Sparse (BitVec w) :=
  p.filterMap fun e =>
    let lo := e.1 * w
    let from' := max a lo
    let to' := min (a + n) (lo + w)
    if from' < to' then (maskWrite e.2 (from' - lo) (to' - from')).map fun m => (e.1, m) else some e

/-- Mark `n` bytes from byte `a` up written. -/
def poisonWrite {w : Nat} (p : Sparse (BitVec w)) (a n : Nat) : Sparse (BitVec w) := poisonBits p (8 * a) (8 * n)

/-- Frame `k` lies in a page that its base die stores compressed (R170, R244). -/
def compressed (d : Device) (k : Nat) : Bool := d.cmp.any fun p => decide (p.1 ≤ 4096 * k) && decide (4096 * k < p.1 + p.2)

/-- The length that the table of lengths gives a frame with some contents (R451): 0 for zeros, 4096 for a frame written whole, and its compressed
length, which the spec leaves open (log 39). -/
def frameLength (d : Device) (k v : Nat) : Nat :=
  if v = 0 then 0 else if compressed d k then (Config.packedLength d.ckpt.cutcyc k v).toNat + 1 else 4096

/-- Byte `i` of what is written to a frame's slot (R451). -/
def frameByte (d : Device) (k v i : Nat) : Byte :=
  if frameLength d k v = 4096 then BitVec.ofNat 8 (v / 256 ^ i) else Config.packedByte d.ckpt.cutcyc k v i

/-- The copy with `n` bytes written to the slot of frame `k` (R451). -/
def copyFrame (sink : Memory) (k n : Nat) (byte : Nat → Byte) : Memory :=
  (List.range n).foldl (fun m i => Memory.set m (4096 * k + i) (byte i)) sink

/-- The checkpoint engine streams a frame as it stands (R450): its bytes, whole or compressed, join the copy, and its length the table (R451). -/
def streamFrame (d : Device) (k : Nat) : Device :=
  if d.ckpt.stream && !d.ckpt.streamed.contains k then
    let v := Memory.read d.mem (4096 * k) 4096
    let n := frameLength d k v
    { d with ckpt := { d.ckpt with streamed := k :: d.ckpt.streamed, lens := sset d.ckpt.lens k n 0, bytes := d.ckpt.bytes + BitVec.ofNat 64 n,
                                   sink := copyFrame d.ckpt.sink k n (frameByte d k v) } }
  else d

/-- Write `n` bytes at their home (R243): an unstreamed frame is streamed first, of whatever job it is (R450; log 39), and poison is cleared once all of a sector is written (R446). -/
def homeWrite (d : Device) (pa n v : Nat) : Device :=
  let d := streamFrame d (pa / 4096)
  { d with mem := Memory.write d.mem pa n v, poison := poisonWrite d.poison pa n }

/-- Entry-wise maximum of two clocks (R343). -/
def clockMerge (a b : Vector Nat 16) : Vector Nat 16 := Vector.ofFn fun i => max a[i] b[i]

/-- The place in a list of 16 of a layer number. -/
def lay (n : Nat) : Fin 16 := Fin.ofNat 16 n

/-- The home layer of a held write. -/
def Held.home (d : Device) (w : Held) : Nat := homeLayer d (w.line * 128)

/-- Apply sector `i` of a held write at its home: its bytes and its poison. -/
def applySector (d : Device) (w : Held) (i : Nat) : Device :=
  let d := homeWrite d (w.line * 128 + 32 * i) 32 (w.data.extractLsb' (256 * i) 256).toNat
  let k := w.line * 4 + i
  { d with poison := match sfind w.poison i with
      | none => sdel d.poison k
      | some m => sput d.poison k m }

/-- The clock that the home of `pa` has applied takes in another (R343). -/
def noteClock (d : Device) (pa : Nat) (clock : Vector Nat 16) : Device :=
  let k := lay (homeLayer d pa)
  { d with hclock := d.hclock.set k (clockMerge d.hclock[k] clock) }

/-- Apply one held write, every dirty sector of its line, at its home (R237, R343). -/
def applyOne (d : Device) (w : Held) : Device :=
  noteClock ((List.range 4).foldl (fun d i => if w.dirty.getLsbD i then applySector d w i else d) d) (w.line * 128) w.clock

/-- Whether a request that carries `clock` covers a held write (R343). -/
def covers (clock : Vector Nat 16) (w : Held) : Bool := w.clock[lay w.layer] ≤ clock[lay w.layer]

/-- Apply, oldest first, the held writes that `p` picks. -/
def applyHeld (d : Device) (p : Held → Bool) : Device :=
  (d.held.filter p).foldl applyOne { d with held := d.held.filter fun w => !p w }

/-- A request of a layer reaches the home of `pa`: the home first applies every write to itself that the layer's clock covers,
and the reply's clock joins the layer's (R343). -/
def request (d : Device) (layer pa : Nat) : Device :=
  let k := homeLayer d pa
  let d := applyHeld d fun w => w.home d == k && covers d.lclock[lay layer] w
  { d with lclock := d.lclock.set (lay layer) (clockMerge d.lclock[lay layer] d.hclock[lay k]) }

/-- Read `n` bytes at the home, by an agent of `layer`: the value and whether it is poisoned. -/
def homeLoad (d : Device) (layer pa n : Nat) : Nat × Bool × Device :=
  let d := request d layer pa
  (Memory.read d.mem pa n, homePoisoned d pa n, d)

/-- Write `n` bytes at the home, by an agent of `layer`: the write carries the layer's clock (R343). -/
def homeStore (d : Device) (layer pa n v : Nat) : Device :=
  let d := request d layer pa
  homeWrite (noteClock d pa d.lclock[lay layer]) pa n v

/-! ## L1 -/

/-- The cluster's L1s are fused (R240). -/
def fusedAt (d : Device) (core : Nat) : Bool := d.fused.getLsbD (coreCluster core)

/-- The core whose L1 holds the line in this core's domain (R240, R333). -/
def domainCore (d : Device) (core pa : Nat) : Nat :=
  if fusedAt d core then core / 4 * 4 + pa / 128 % 4 else core

/-- The key of the set that holds the line in the L1 of `q`: PA[13:7], or PA[15:9] in a slice of a fused cluster (R237, R240). -/
def setKey (d : Device) (q pa : Nat) : Nat :=
  q * 128 + (if fusedAt d q then pa / 512 % 128 else pa / 128 % 128)

/-- A line of a set by its tag. -/
def lineOf (ls : List Line) (tag : Nat) : Option Line := ls.find? fun l => l.tag == tag

/-- Sector `i` of a line as bits. -/
def Line.sector (l : Line) (i : Nat) : BitVec 256 := l.data.extractLsb' (256 * i) 256

/-- A line's dirty sectors leave the layer of core `q` as one write-back, stamped with the layer's clock (R237, R343). -/
def writeBack (d : Device) (q : Nat) (l : Line) : Device :=
  if l.dirty = 0 then d
  else
    let k := lay (coreLayer q)
    let ck := d.lclock[k].set k (d.lclock[k][k] + 1)
    { d with lclock := d.lclock.set k ck,
             held := d.held ++ [{ layer := coreLayer q, line := l.tag, dirty := l.dirty, data := l.data, poison := l.poison, clock := ck }] }

/-- Put a line at the head of its set (most recent), in place of the line of its tag. -/
def putLine (d : Device) (key : Nat) (l : Line) : Device :=
  { d with l1 := sput d.l1 key (l :: (sget d.l1 key []).filter fun x => x.tag != l.tag) }

/-- Change a line in place, keeping its recency. -/
def editLine (d : Device) (key tag : Nat) (f : Line → Line) : Device :=
  { d with l1 := sput d.l1 key ((sget d.l1 key []).map fun x => if x.tag == tag then f x else x) }

/-- The least recently used line that `p` picks. -/
def lruOf (ls : List Line) (p : Line → Bool) : Option Line := (ls.filter p).getLast?

/-- The victim of a miss in a full set (R239). -/
def victim (ls : List Line) (ptr : Bool) : Option Line :=
  let free (l : Line) := l.locks.isEmpty
  if ptr && (ls.filter fun l => l.ptr && free l).length < 6 then
    (lruOf ls fun l => !l.ptr && free l).orElse fun _ => lruOf ls fun l => l.ptr && free l
  else lruOf ls fun l => l.ptr == ptr && free l

/-- A line's image filled from its home, with the sectors that are poisoned there. -/
def fillFrom (d : Device) (layer tag : Nat) : BitVec 1024 × Sparse (BitVec 256) × Device :=
  let d := request d layer (tag * 128)
  (BitVec.ofNat 1024 (Memory.read d.mem (tag * 128) 128),
   (List.range 4).filterMap (fun i => (sfind d.poison (tag * 4 + i)).map fun m => (i, m)), d)

/-- The line as it stands once its dirty sectors have been written back. -/
def Line.clean (l : Line) : Line := { l with dirty := 0, atom := 0 }

/-- Cluster-scope operations of core `q`, of a private cluster, that stand dirty in the slice of another core of its cluster leave for the home:
the core's own accesses find them there (R40, R344; log 27). -/
def sendAway (d : Device) (q pa : Nat) : Device :=
  let r := q / 4 * 4 + pa / 128 % 4
  if fusedAt d q || r == q then d
  else
    match lineOf (sget d.l1 (setKey d r pa) []) (pa / 128) with
    | some l => if l.valid && l.atom.getLsbD (q % 4) then editLine (writeBack d r l) (setKey d r pa) (pa / 128) Line.clean else d
    | none => d

/-- The domain's copy of a line for an access, made most recent; it is allocated and filled if absent (R237-R241).
None if no way can take it (R239). -/
def obtain (d : Device) (q pa : Nat) (ptr : Bool) : Option Line × Device :=
  let d := sendAway d q pa
  let key := setKey d q pa
  let tag := pa / 128
  let ls := sget d.l1 key []
  match lineOf ls tag with
  | some l =>
    if l.valid then (some l, putLine d key l)
    else
      let (data, p, d) := fillFrom d (coreLayer q) tag
      let l := { l with data := data, poison := p, valid := true, dirty := 0, atom := 0 }
      (some l, putLine d key l)
  | none =>
    let full := ls.length ≥ 8
    match (if full then (victim ls ptr).map some else some none) with
    | none => (none, d)
    | some v =>
      let d := match v with
        | none => d
        | some l => { writeBack d q l with l1 := sput d.l1 key (ls.filter fun x => x.tag != l.tag) }
      let (data, p, d) := fillFrom d (coreLayer q) tag
      let l : Line := { tag := tag, data := data, dirty := 0, ptr := ptr, locks := [], valid := true, poison := p, atom := 0 }
      (some l, putLine d key l)

/-- Some sector of the range is poisoned in the line. -/
def linePoisoned (l : Line) (pa n : Nat) : Bool :=
  l.poison.any fun e => let lo := l.tag * 128 + 32 * e.1; lo < pa + n && pa < lo + 32

/-- A plain load of `n` bytes inside one line through the L1 domain of core `q` (R333): the value, and whether it is poisoned. -/
def l1Load (d : Device) (core pa n : Nat) (ptr : Bool) : Nat × Bool × Device :=
  let q := domainCore d core pa
  match obtain d q pa ptr with
  | (some l, d) => ((l.data >>> (8 * (pa % 128))).toNat % 2 ^ (8 * n), linePoisoned l pa n, d)
  | (none, d) => homeLoad d (coreLayer core) pa n

/-- A line with `n` bytes written at `pa`: its sectors become dirty. -/
def Line.store (l : Line) (pa n v : Nat) : Line :=
  let o := pa % 128
  { l with data := putBits l.data (8 * o) (BitVec.ofNat (8 * n) v),
           dirty := l.dirty ||| (List.range 4).foldl (fun m i => if 32 * i < o + n && o < 32 * i + 32 then m ||| (1#4 <<< i) else m) 0,
           poison := poisonWrite l.poison o n }

/-- A plain store of `n` bytes inside one line (R333): the domain's copy is written, allocated if absent (R237). -/
def l1Store (d : Device) (core pa n v : Nat) (ptr : Bool) : Device :=
  let q := domainCore d core pa
  match obtain d q pa ptr with
  | (some l, d) => putLine d (setKey d q pa) (l.store pa n v)
  | (none, d) => homeStore d (coreLayer core) pa n v

/-- The cores whose L1s form the domain of `core` (R333). -/
def domainCores (d : Device) (core : Nat) : List Nat :=
  if fusedAt d core then (List.range 4).map fun i => core / 4 * 4 + i else [core]

/-- The set belongs to the L1 of one of the cores. -/
def ofCores (cs : List Nat) (key : Nat) : Bool := cs.contains (key / 128)

/-- Every dirty line that `p` picks, by its core, is written back (R335). -/
def cleanLines (d : Device) (p : Nat → Line → Bool) : Device :=
  let e := d.l1.foldl (init := d) fun d e => e.2.foldl (init := d) fun d l => if p (e.1 / 128) l then writeBack d (e.1 / 128) l else d
  { e with l1 := d.l1.map fun e => (e.1, e.2.map fun l => if p (e.1 / 128) l then l.clean else l) }

/-- What a release of cluster scope or wider by a hart of `core` writes back (R335): the lines of its L1 domain, and what its cluster-scope operations
left in another slice of its cluster (R344; log 27). -/
def releases (d : Device) (core q : Nat) (l : Line) : Bool :=
  (domainCores d core).contains q || (q / 4 == core / 4 && l.atom.getLsbD (core % 4))

/-- Drop every clean line of the cores' L1s; a locked one keeps its way without data (R241, R336). -/
def dropClean (d : Device) (cs : List Nat) : Device :=
  { d with l1 := d.l1.map fun e =>
      if ofCores cs e.1 then
        (e.1, e.2.filterMap fun l =>
          if l.dirty != 0 then some l else if l.locks.isEmpty then none else some { l with valid := false })
      else e }

/-- The home layer lies in the instance of scope `sc` that holds `layer` (R2, R327). -/
def layerInScope (sc layer home : Nat) : Bool :=
  if sc ≤ 3 then home == layer else if sc = 4 then home / 2 == layer / 2 else if sc = 5 then home / 8 == layer / 8 else true

/-- A release at scope `sc` by a hart of `core` (R335): core scope and narrower find every access performed already. -/
def release (d : Device) (core sc : Nat) : Device :=
  if sc < 2 then d
  else
    let d := cleanLines d (releases d core)
    if sc < 3 then d
    else
      let l := coreLayer core
      applyHeld d fun w => layerInScope sc l (w.home d) && covers d.lclock[lay l] w

/-- An acquire at scope `sc` (R336). -/
def acquire (d : Device) (core sc : Nat) : Device :=
  if sc < 2 then d else dropClean d (domainCores d core)

/-- A full barrier at scope `sc` (R337). -/
def fullBarrier (d : Device) (core sc : Nat) : Device :=
  let d := release d core sc
  let d := if sc < 2 then d else applyHeld d fun w => covers d.lclock[lay (coreLayer core)] w
  acquire d core sc

/-- Release at `sc` by the hart in focus. -/
def State.release (s : State) (sc : Nat) : State := { s with d := Machine.release s.d (coreOf s.hid) sc }
/-- Acquire at `sc` by the hart in focus; words younger than one of core scope or wider are fetched after it, as its loads are made after it (R460). -/
def State.acquire (s : State) (sc : Nat) : State :=
  { s with h := if 1 ≤ sc then { s.h with early := [] } else s.h, d := Machine.acquire s.d (coreOf s.hid) sc }

/-! ## Translation -/

/-- What an access does (R172). -/
inductive Acc where
  | fetch | load | store | atomic
deriving DecidableEq, Repr

/-- The page-fault cause of an access kind (R171). -/
def Acc.page : Acc → BitVec 6
  | .fetch => Cause.fetchPage
  | .load => Cause.loadPage
  | .store => Cause.storePage
  | .atomic => Cause.storePage

/-- The address belongs to a channel of an HBM stack under repair (R442). -/
def underRepair (d : Device) (pa : Nat) : Bool := inHbm pa && d.stacksOut.getLsbD (pa / 4096 % 384 / 32)

/-- How a walk ends (R171, R177, R442). -/
inductive Walk where
  | leaf (e : Word) (size : Nat)
  | invalid
  | poisoned
  /-- A table lies in an HBM stack under repair (R442). -/
  | waits
deriving DecidableEq, Repr

/-- A leaf entry at a level that maps `size` bytes is valid (R170, R171). -/
def leafValid (e : Word) (level size : Nat) : Bool :=
  level != 3 && bits e 63 52 == 0 && bits e 6 5 == 0 && bits e 9 8 ≤ 1 && !(bit e 2 && !bit e 1) && (bits e 51 16 * 65536) % size == 0

/-- A table entry is valid at a level (R170, R171). -/
def tableValid (e : Word) (level : Nat) : Bool :=
  level != 0 && bits e 63 52 == 0 && bits e 7 4 == 0 && inHbm (bits e 51 8 * 256)

/-- Index of `va` at a level and the size a leaf there maps (R169). -/
def levelIndex (va level : Nat) : Nat × Nat :=
  match level with
  | 3 => (va / 2 ^ 43 % 8192, 2 ^ 43)
  | 2 => (va / 2 ^ 30 % 8192, 2 ^ 30)
  | 1 => (va / 2 ^ 21 % 512, 2 ^ 21)
  | _ => (va / 2 ^ 16 % 32, 2 ^ 16)

/-- A leaf with CMP = 1 says that its page is stored compressed (R170, R244; log 39). -/
def noteLeaf (d : Device) (e : Word) (size : Nat) : Device :=
  let p := (bits e 51 16 * 65536, size)
  if bit e 10 && !d.cmp.contains p then { d with cmp := p :: d.cmp } else d

/-- Walk the tables down from `table` (R169-R171): entries are read at their homes by an agent of `layer`. -/
def walkFrom (d : Device) (layer va table : Nat) : Nat → Walk × Device
  | 0 => (.invalid, d)
  | n + 1 =>
    let level := n
    let (i, size) := levelIndex va level
    if underRepair d (table + 8 * i) then (.waits, d) else
    let (e, bad, d) := homeLoad d layer (table + 8 * i) 8
    let e := BitVec.ofNat 64 e
    if bad then (.poisoned, d)
    else if !bit e 0 then (.invalid, d)
    else if bits e 3 1 != 0 then
      if leafValid e level size then (.leaf e size, noteLeaf d e size) else (.invalid, d)
    else if tableValid e level then walkFrom d layer va (bits e 51 8 * 256) n
    else (.invalid, d)

/-- Walk the four levels under a `PTROOT` (R171). -/
def walk (d : Device) (layer : Nat) (ptroot : Word) (va : Nat) : Walk × Device :=
  let root := bits ptroot 51 16 * 65536
  if inHbm root then walkFrom d layer va root 4 else (.invalid, d)

/-- A cached translation covers the address under the ASID (R174). -/
def TlbEntry.hits (e : TlbEntry) (asid : BitVec 14) (va : Nat) : Bool :=
  (e.asid.isNone || e.asid == some asid) && e.va ≤ va && va < e.va + e.size

/-- Translate: a cached entry or a walk; where the two differ, an access may use either (R174, log 9). -/
def translate (s : State) (layer : Nat) (asid : BitVec 14) (ptroot : Word) (va : Nat) : Walk × State :=
  let (w, d) := walk s.d layer ptroot va
  let s := { s with d := d }
  match s.d.tlb.find? (fun e => e.hits asid va) with
  | some e =>
    if w = .leaf e.leaf e.size then (w, s)
    else
      let (n, s) := s.draw
      if Config.freeBool n then (.leaf e.leaf e.size, s) else (w, s)
  | none =>
    match w with
    | .leaf l size =>
      let t : TlbEntry := { asid := if bit l 7 then none else some asid, va := va / size * size, size := size, leaf := l }
      (w, { s with d := { s.d with tlb := t :: s.d.tlb } })
    | w => (w, s)

/-- The leaf allows the access at the privilege (R172). -/
def permitted (a : Acc) (sup : Bool) (e : Word) : Bool :=
  let u := bit e 4
  match a with
  | .fetch => bit e 3 && (if sup then !u else u)
  | .load => bit e 1 && (sup || u)
  | .store => bit e 2 && (sup || u)
  | .atomic => bit e 1 && bit e 2 && (sup || u)

/-- Bits [63:56] all equal bit 55 (R73). -/
def canonical (va : Word) : Bool := let t := bits va 63 55; t == 0 || t == 511

/-- The address lies in the scratchpad window (R233). -/
def inWindow (va : Word) : Bool := 0xFFFFFFFFFFF00000 ≤ va.toNat

/-- The checks of R73 and R155 up to permission, under an ASID, a root and a privilege: canonical form, alignment, translation, permission.
An access to an HBM stack under repair waits (R442). -/
def placeUnder (s : State) (asid : BitVec 14) (ptroot : Word) (sup : Bool) (a : Acc) (va : Word) (align : Nat) :
    Except Stop (Place × State) :=
  if !canonical va then .error (.trap Cause.access va)
  else if va.toNat % align != 0 then .error (.trap Cause.misaligned va)
  else if inWindow va then
    if a = .fetch ∨ bits va 19 0 ≥ 0xC0000 then .error (.trap Cause.access va) else .ok (.spad (bits va 19 0), s)
  else
    match translate s (layerOf s.hid) asid ptroot (bits va 55 0) with
    | (.invalid, _) => .error (.trap a.page va)
    | (.poisoned, _) => .error (.trap Cause.access va)
    | (.waits, _) => .error (.wait .memory)
    | (.leaf e size, s) =>
      let pa := bits e 51 16 * 65536 + bits va 55 0 % size
      if !permitted a sup e then .error (.trap Cause.access va)
      else if underRepair s.d pa then .error (.wait .memory)
      else if bits e 9 8 = 0 then
        if inHbm pa then .ok (.mem pa e, s) else .error (.trap Cause.access va)
      else if inHbm pa || inMgmt pa || inHostMem pa then .ok (.dev pa e, s)
      else .error (.trap Cause.access va)

/-- The checks for an access of the hart in focus. -/
def place (s : State) (a : Acc) (va : Word) (align : Nat) : Except Stop (Place × State) :=
  placeUnder s s.h.asid s.h.ptroot s.h.prv a va align

/-! ## Scratchpad -/

/-- The barrier object's PHASE bit at an offset (R265). -/
def phaseAt (c : Core) (off : Nat) : Bool := (Memory.read c.spad off 8) / 2 ^ 63 % 2 == 1

/-- A waiting `BWAIT` notes a value of its object with another phase (R297). -/
def noteBarrier (c : Core) (h : Hart) : Hart :=
  match h.wait with
  | some (.barrier off p false) => if phaseAt c off != p then { h with wait := some (.barrier off p true) } else h
  | _ => h

/-- Every hart of the core in focus that waits at a barrier looks at its object (R297). -/
def noteBarriers (s : State) : State :=
  { s with h := noteBarrier s.c s.h,
           parked := s.parked.map fun e => if e.1 / 8 = coreOf s.hid then (e.1, noteBarrier s.c e.2) else e }

/-- Write `n` scratchpad bytes of the core in focus at their bank (R234, R235): poison clears once a row is written whole (R236). -/
def spadWrite (s : State) (off n v : Nat) : State :=
  noteBarriers { s with c := { s.c with spad := Memory.write s.c.spad off n v, spoison := poisonWrite s.c.spoison off n } }

/-- Some row of the range is poisoned (R236). -/
def spadPoisoned (c : Core) (off n : Nat) : Bool :=
  (List.range ((off + n - 1) / 64 - off / 64 + 1)).any fun i => (sfind c.spoison (off / 64 + i)).isSome

/-- STATE of a swatch entry (R252). -/
def swState (w : Word) : Nat := bits w 49 48
/-- LEN of a swatch entry (R252). -/
def swLen (w : Word) : Nat := bits w 39 20
/-- OFFSET of a swatch entry (R252). -/
def swOff (w : Word) : Nat := bits w 19 0
/-- The region of the swatch touches bytes lo to hi - 1; an entry with LEN 0 governs nothing (R252). -/
def swTouches (w : Word) (lo hi : Nat) : Bool := swLen w != 0 && lo < swOff w + swLen w && swOff w < hi

/-- The write must wait: its bytes touch a swatch that is filling or draining (R254). -/
def swBusy (c : Core) (lo n : Nat) : Bool :=
  c.sws.toList.any fun w => (swState w == 1 || swState w == 3) && swTouches w lo (lo + n)

/-! ## Traps and completion -/

/-- A word that stops waiting leaves the FIFO of R21 or gives up its stalled `LPART` write (R16, R159). -/
def leaveQueues (c : Core) (hid : BitVec 11) : Core :=
  { c with fifoA := c.fifoA.filter (· != hid), fifoB := c.fifoB.filter (· != hid),
           lpstall := c.lpstall.filter fun e => e.1 != hid }

/-- Add to the matrix-queue counter of the bobbin of the hart in focus (R318). -/
def countMatrix (s : State) (n : Nat) : State :=
  { s with c := if onB s.hid then { s.c with mqB := s.c.mqB + BitVec.ofNat 64 n } else { s.c with mqA := s.c.mqA + BitVec.ofNat 64 n } }

/-- The hart stages nothing any more; the words its next matrix word is written to join stay known. -/
def dropStage (s : State) : State :=
  { s with h := { s.h with mstage := { MStage.empty with chain := s.h.mstage.chain } }, undo := sdel s.undo s.hid.toNat }

/-- The writes up to here clear no poison together with those that follow: poison goes with one write of a whole granule (R236, R446; log 34). -/
def freshMarks (s : State) : State :=
  let core (c : Core) : Core := { c with spoison := freshPoison c.spoison }
  { s with
    c := core s.c
    cores := s.cores.map fun e => (e.1, core e.2)
    d := { s.d with
      poison := freshPoison s.d.poison
      held := s.d.held.map fun w => { w with poison := freshPoison w.poison }
      l1 := s.d.l1.map fun e => (e.1, e.2.map fun l => { l with poison := freshPoison l.poison }) } }

/-- Perform a store that the window held, at its place (R41): a write of its own (R236). -/
def perform (s : State) (p : PendingStore) : State :=
  freshMarks <|
    match p.place with
    | .spad off => spadWrite s off p.n p.v.toNat
    | .mem pa leaf => { s with d := l1Store s.d (coreOf s.hid) pa p.n (p.v.toNat % 2 ^ (8 * p.n)) (bit leaf 11) }
    | .dev _ _ => s

/-- A store that the window holds waits for a busy swatch (R254). -/
def storesBlocked (s : State) : Bool :=
  s.h.mstage.stores.any fun p =>
    match p.place with
    | .spad off => swBusy s.c off p.n
    | _ => false

/-- The stores that the hart's window holds are performed, oldest first (R41). -/
def performStores (s : State) : State :=
  s.h.mstage.stores.foldl perform { s with h := { s.h with mstage := { s.h.mstage with stores := [] } } }

/-- Count words of the hart as completed (R37). -/
def countWords (s : State) (n : Nat) : State := { s with h := { s.h with instret := s.h.instret + BitVec.ofNat 64 n } }

/-- An open convoy of `MMETA` words closes and completes with no effect: its words are counted, and the window's stores are performed
(R37, R41, R310, R318). -/
def closeStage (s : State) : State :=
  if s.h.mstage.isOpen then dropStage (countWords (countMatrix (performStores s) s.h.mstage.count) s.h.mstage.count) else s

/-- P is the first word of the open matrix convoy: it and everything younger are undone (R43, R310): the register results are reverted and
the stores that the window holds are discarded, and broadcast words keep no number (R277; log 24). -/
def undoConvoy (s : State) : State :=
  match (if s.h.mstage.isOpen then sfind s.undo s.hid.toNat else none) with
  | none => s
  | some u =>
    dropStage { s with h := { s.h with
      pc := u.pc, x := u.x, v := u.v, k := u.k, mx := u.mx, smm := u.smm, focc := u.focc, vl := u.vl, vtype := u.vtype,
      vstart := u.vstart, vpr := u.vpr, vdirty := u.vdirty, fcsr := u.fcsr, mshape := u.mshape, instret := u.instret,
      vconvoy := u.vconvoy, resumed := u.resumed, owed := u.owed, gs := u.gs, mstage := { s.h.mstage with chain := u.mstage.chain } } }

/-- Where the next word of a stopped convoy starts; 0 where none is left (R122). -/
def owedStart (h : Hart) : BitVec 11 := (h.owed.head?.map (·.2)).getD 0

/-- Trap entry (R152) at the word at the pc: the saved registers, the status and the new pc. What waited or was queued is undone (R43), and
what is left of a stopped convoy resumes where its next word stands (R122). An older open matrix convoy has completed (`closeStage`). -/
def enterTrapHere (s : State) (cause : BitVec 6) (tval : Word) : State :=
  { s with c := leaveQueues s.c s.hid,
           h := { s.h with vstart := if s.h.vstart = 0 then owedStart s.h else s.h.vstart, owed := [], resumed := false, pprv := s.h.prv, pie := s.h.ie, ie := false, prv := true,
                           epc := s.h.pc &&& ~~~3#64, cause := cause, tval := tval, pc := s.h.tbase,
                           wait := none, stop := none, upTo := none, csaved := false } }

/-- Trap entry at the word at the pc, after the convoy of `MMETA` words that stands before it has closed and completed (R41, R310). -/
def enterTrap (s : State) (cause : BitVec 6) (tval : Word) : State := enterTrapHere (closeStage s) cause tval

/-- A synchronous trap of the running word: trap entry, or in a lane thread the trap that the region then takes (R384). -/
def trap (s : State) (cause : BitVec 6) (tval : Word) : State :=
  match s.h.lane with
  | none => enterTrap s cause tval
  | some (t, _) => { s with h := { s.h with lane := some (t, some (cause, tval)) } }

/-- `ILLEGAL_INSN` at the word `w` (R52). -/
def illegal (s : State) (w : Insn) : State := trap s Cause.illegal (w.setWidth 64)

/-- The word waits at its place, with no effect (R159). -/
def await (s : State) (w : Wait) : State :=
  match s.h.lane with
  | none => { s with h := { s.h with wait := some w } }
  | some _ => s

/-- The running word has sent an operation that changes memory on another package: no interrupt is taken before it completes (R421, R422). -/
def heldByRemote (h : Hart) : Bool :=
  match h.wait with
  | some (.remote held _) => held
  | _ => false

/-- The word completes: the pc moves to the next word and the word is counted (R13, R37). -/
def done (s : State) : State :=
  { s with h := { s.h with pc := s.h.pc + 4, instret := s.h.instret + 1, wait := none } }

/-- The word is posted and not yet complete: the pc moves on, and it is counted when it completes (R37, R310). -/
def posted (s : State) : State := { s with h := { s.h with pc := s.h.pc + 4, wait := none } }

/-- The word at `va` is fetched anew: what was fetched early stands for it no more (R83, R92). -/
def refetch (h : Hart) (va : Word) : List EarlyWord := h.early.filter fun e => e.addr != va

/-- The word completes with a jump to `target`, which is fetched after it (R83). -/
def doneAt (s : State) (target : Word) : State :=
  { s with h := { s.h with pc := target, instret := s.h.instret + 1, wait := none, early := refetch s.h target } }

/-- The word completes from the state it reached, or stops at `s` as it started. -/
def settle (s : State) (r : Except Stop State) : Out :=
  match r with
  | .ok t => .next (done t)
  | .error (.trap c v) => .next (trap s c v)
  | .error (.wait w) => .next (await s w)

/-- `RETT` (R92, R153): the word at EPC, fetched anew, resumes at VSTART (R122). -/
def trapReturn (s : State) : State :=
  { s with h := { s.h with prv := s.h.pprv, ie := s.h.pie, pie := false, pc := s.h.epc, instret := s.h.instret + 1, wait := none, csaved := false,
                           resumed := s.h.vstart != 0, early := refetch s.h s.h.epc } }

end Sys2Proof.Machine
end

