-- ==== Sys2Proof/Machine/Grants.lean ====
section
/-!
DEFINITION. The lane allocation table: owned, free and withheld lane groups, the FIFO of waiting harts,
and what a change of grant does (02_harts_lanes_registers.md, R15-R22).
-/

namespace Sys2Proof.Machine

/-- `LPART.NA` gives lane group `i` to the bobbin (R15). -/
def owns (na : Nat) (b : Bool) (i : Nat) : Bool := if b then na ≤ i else i < na

/-- The lane groups that some hart of the core holds. -/
def grantedMap (s : State) (core : Nat) : BitVec 16 :=
  (coreHarts core).foldl (fun m i => m ||| (s.hart i).gmap) 0

/-- A change of NA moves lane group `i` (R16). -/
def moves (na na' i : Nat) : Bool := min na na' ≤ i && i < max na na'

/-- Lane group `i` is withheld by a stalled `LPART` write (R16): the bobbin that loses it gets it no more. -/
def withheld (c : Core) (i : Nat) : Bool := c.lpstall.any fun e => moves c.na.toNat e.2.toNat i

/-- The lane groups that a hart of bobbin `b` of the core may be given, in ascending order. -/
def freeGroups (s : State) (core : Nat) (b : Bool) : List Nat :=
  let m := grantedMap s core
  let c := s.core core
  (List.range 16).filter fun i => owns c.na.toNat b i && !m.getLsbD i && !withheld c i

/-- The FIFO of a bobbin (R21). -/
def fifoOf (c : Core) (b : Bool) : List (BitVec 11) := if b then c.fifoB else c.fifoA

/-- Lane groups that waiting harts still need for their minimum (R21). -/
def needOf (s : State) (hs : List (BitVec 11)) : Nat :=
  (hs.map fun i => let h := s.hart i; h.lgmin.toNat - h.g).sum

/-- Lane groups that harts of the bobbin other than the one in focus wait for in `SUPV.crest`, ahead of the FIFO (R167). -/
def crestNeed (s : State) : Nat :=
  ((coreHarts (coreOf s.hid)).map fun i =>
    if i = s.hid ∨ onB i ≠ onB s.hid then 0
    else match (s.hart i).wait with
      | some (.crest n) => n
      | _ => 0).sum

/-- Lane groups the hart in focus may take to reach its minimum, and beyond it (R21): older waiting harts come first,
and growth beyond the minimum leaves what any waiting hart needs. -/
def available (s : State) : Nat × Nat :=
  let b := onB s.hid
  let free := (freeGroups s (coreOf s.hid) b).length - crestNeed s
  let q := fifoOf s.c b
  let older := q.takeWhile (· != s.hid)
  let others := q.filter (· != s.hid)
  (free - needOf s older, free - needOf s others)

/-- The hart in focus joins its bobbin's FIFO, once (R21). -/
def joinFifo (s : State) : State :=
  if onB s.hid then
    if s.c.fifoB.contains s.hid then s else { s with c := { s.c with fifoB := s.c.fifoB ++ [s.hid] } }
  else
    if s.c.fifoA.contains s.hid then s else { s with c := { s.c with fifoA := s.c.fifoA ++ [s.hid] } }

/-- A grant without its `n` highest-numbered groups (R19). -/
def dropHighest (m : BitVec 16) (n : Nat) : BitVec 16 :=
  ((((List.range 16).filter fun i => m.getLsbD i).reverse.take n).foldl (fun m i => m &&& ~~~(1#16 <<< i)) m)

/-- A grant with `n` more groups, the lowest-numbered of the free ones (R19; log 11). -/
def addLowest (m : BitVec 16) (free : List Nat) (n : Nat) : BitVec 16 :=
  (free.take n).foldl (fun m i => m ||| (1#16 <<< i)) m

/-- `clear_lane_state()` (R20). -/
def clearLanes (h : Hart) : Hart :=
  { h with v := Vector.replicate 32 0, k := Vector.replicate 8 0, smm := 0, mx := Vector.replicate 8 0,
           focc := Vector.replicate 16 0, vpr := 0, vstart := 0, vdirty := 0 }

/-- The result of `negotiate` for the hart in focus: `none` while it must wait for lgmin (R19). A hart that had to wait for lgmin and gets it grows
beyond it only by groups that no other waiting hart needs, as R21 says of a hart at its lgmin: for one below it R19 and R21 leave that open (log 11). -/
def negotiate (s : State) (want : Nat) : Option State :=
  let h := s.h
  let g := h.g
  let b := onB s.hid
  let leave (s : State) : State := { s with c := { leaveQueues s.c s.hid with lpstall := s.c.lpstall } }
  if want < g then
    some (leave { s with h := { clearLanes h with gmap := dropHighest h.gmap (g - want) } })
  else if g < want then
    let (forMin, forGrow) := available s
    if g + forMin < h.lgmin.toNat then none
    else
      let newg := min want (max (max g h.lgmin.toNat) (g + forGrow))
      if newg = g then some (leave s)
      else some (leave { s with h := { clearLanes h with gmap := addLowest h.gmap (freeGroups s (coreOf s.hid) b) (newg - g) } })
  else some (leave s)

/-- Some lane group that the change of NA moves is granted to a hart (R16). -/
def lpartBlocked (s : State) (na' : Nat) : Bool :=
  (List.range 16).any fun i => moves s.c.na.toNat na' i && (grantedMap s (coreOf s.hid)).getLsbD i

/-- A write of `LPART` by the hart in focus (R15, R16): values above 16 store 16; it stalls while a moved lane group is granted. -/
def writeLpart (s : State) (v : Word) : Except Stop State :=
  let na' : BitVec 5 := if bits v 4 0 ≤ 16 then v.setWidth 5 else 16
  if lpartBlocked s na'.toNat then .error (.wait .lpart)
  else .ok { s with c := { s.c with na := na', lpstall := s.c.lpstall.filter fun e => e.1 != s.hid } }

/-- A stalled `LPART` write withholds the groups it moves from now on (R16); each hart stalls at one write. -/
def stallLpart (s : State) (v : Word) : State :=
  let na' : BitVec 5 := if bits v 4 0 ≤ 16 then v.setWidth 5 else 16
  { s with c := { s.c with lpstall := (s.c.lpstall.filter fun e => e.1 != s.hid) ++ [(s.hid, na')] } }

end Sys2Proof.Machine
end

