-- ==== Sys2Proof/Machine/Sha.lean ====
section
/-!
DEFINITION. SHA-256, which 30_host_fabric_bringup.md names (R435-R440), as the Secure Hash Standard FIPS 180-4 defines it (PRESUMED; log 44).
-/

namespace Sys2Proof.Machine

/-- A word of SHA-256. -/
abbrev ShaWord := BitVec 32

/-- The greatest r below 2^n with r^k at most x, from a start to which bits are added. -/
def floorRoot (k x : Nat) : Nat → Nat → Nat
  | 0, r => r
  | n + 1, r => floorRoot k x n (if (r + 2 ^ n) ^ k ≤ x then r + 2 ^ n else r)

/-- `n` is a prime above 1. -/
def isPrime (n : Nat) : Bool := 1 < n && (List.range n).all fun d => d < 2 || n % d != 0

/-- The primes up to 311, of which there are 64. -/
def shaPrimes : List Nat := (List.range 312).filter isPrime

/-- The first 32 bits of the fraction of the k-th root of a number. -/
def rootFraction (k x : Nat) : ShaWord := BitVec.ofNat 32 (floorRoot k (x * 2 ^ (32 * k)) 40 0)

/-- The constants of the rounds, in order. -/
def shaRounds : List ShaWord := shaPrimes.map (rootFraction 3)

/-- The hash value before the first block. -/
def shaStart : List ShaWord := (shaPrimes.take 8).map (rootFraction 2)

/-- The exclusive or of two rotations of a word to the right, and of a third or of a shift. -/
def shaMix (x : ShaWord) (a b c : Nat) (shift : Bool) : ShaWord :=
  x.rotateRight a ^^^ x.rotateRight b ^^^ (if shift then x >>> c else x.rotateRight c)

/-- The message schedule, latest word first: `n` words more. -/
def shaSchedule : Nat → List ShaWord → List ShaWord
  | 0, w => w
  | n + 1, w =>
    let at' (i : Nat) : ShaWord := w.getD (i - 1) 0
    shaSchedule n ((shaMix (at' 2) 17 19 10 true + at' 7 + shaMix (at' 15) 7 18 3 true + at' 16) :: w)

/-- One round on the eight working words, with its constant and its schedule word. -/
def shaRound (v : List ShaWord) (kw : ShaWord × ShaWord) : List ShaWord :=
  match v with
  | [a, b, c, d, e, f, g, h] =>
    let t := h + shaMix e 6 11 25 false + ((e &&& f) ^^^ (~~~e &&& g)) + kw.1 + kw.2
    let u := shaMix a 2 13 22 false + ((a &&& b) ^^^ (a &&& c) ^^^ (b &&& c))
    [t + u, a, b, c, d + t, e, f, g]
  | v => v

/-- One block of 16 words. -/
def shaBlock (v block : List ShaWord) : List ShaWord :=
  let w := (shaSchedule 48 block.reverse).reverse
  List.zipWith (· + ·) v ((shaRounds.zip w).foldl shaRound v)

/-- Byte `i` of the padded message of `len` bytes of `m`, byte 0 lowest in `m`; the message has `total` bytes with its padding. -/
def shaByte (m len total i : Nat) : Nat :=
  if i < len then m / 256 ^ i % 256
  else if i = len then 128
  else if total ≤ i + 8 then 8 * len / 256 ^ (total - 1 - i) % 256
  else 0

/-- Word `j` of the padded message. -/
def shaMessageWord (m len total j : Nat) : ShaWord :=
  BitVec.ofNat 32 ((List.range 4).foldl (fun n i => n * 256 + shaByte m len total (4 * j + i)) 0)

/-- SHA-256 of a string of `len` bytes, byte 0 in the lowest bits of `m`; byte 0 of the digest is in bits [7:0]. -/
def sha256 (m len : Nat) : BitVec 256 :=
  let blocks := (len + 72) / 64
  let v := (List.range blocks).foldl (init := shaStart) fun v b =>
    shaBlock v ((List.range 16).map fun j => shaMessageWord m len (64 * blocks) (16 * b + j))
  BitVec.ofNat 256 (v.zipIdx.foldl (fun n e =>
    (List.range 4).foldl (fun n i => n + (e.1.toNat / 256 ^ (3 - i) % 256) * 256 ^ (4 * e.2 + i)) n) 0)

end Sys2Proof.Machine
end

