-- ==== Sys2Proof/Machine/Nodes.lean ====
section
/-!
DEFINITION. Completion counters and the node table: launch records, their checks, allocation, completion and cancellation,
and the retirement of a unit (15_patterns_swatches_shuttle.md R263, R264; 28_work_hierarchy_scheduler.md R393-R409; 29 R414-R416).
-/

namespace Sys2Proof.Machine

/-! ## Timeline counters -/

/-- A channel's timeline counter: the largest id with every command up to it complete (R259). -/
def chanTimeline (ch : Chan) : Nat :=
  ch.cmds.foldl (fun m c => min m (c.id - 1)) (ch.next - 1)

/-- General counter `i` (R263). -/
def Device.ctr (d : Device) (i : Nat) : Word := sget d.ctrs i 0

/-- The clock that the signals of counter `i` carried (R343; log 43). -/
def Device.ctrClock (d : Device) (i : Nat) : Vector Nat 16 := sget d.cclock i (Vector.replicate 16 0)

/-- A signal by an agent of `layer` carries the layer's clock to the counter (R339, R343; log 43). -/
def Device.sendClock (d : Device) (layer i : Nat) : Device :=
  { d with cclock := sput d.cclock i (clockMerge (d.ctrClock i) d.lclock[lay layer]) }

/-- An agent of `layer` that has read counter `i` knows what its signals carried (R339, R343; log 43). -/
def Device.takeClock (d : Device) (layer i : Nat) : Device :=
  { d with lclock := d.lclock.set (lay layer) (clockMerge d.lclock[lay layer] (d.ctrClock i)) }

/-- A signal: the counter takes the maximum (R264). -/
def Device.signal (d : Device) (i : Nat) (n : Word) : Device :=
  { d with ctrs := sset d.ctrs i (if (d.ctr i).toNat < n.toNat then n else d.ctr i) 0 }

/-- A timeline id names a general counter: kind 0x00, bits [55:16] zero, index not 0 (R263). -/
def generalId (id : Word) : Bool := bits id 63 16 == 0 && bits id 15 0 != 0

/-- The hart that holds unit `u` of launch node `n`. -/
def unitHart (s : State) (n : BitVec 48) (u : BitVec 32) : Option (BitVec 11) :=
  s.liveHarts.find? fun i => (s.hart i).node == n && (s.hart i).unit == u

/-- The gather-and-scatter counter of unit `u` of launch `n`, while the unit is placed or saved (R295). -/
def unitGs (s : State) (n : BitVec 48) (u : BitVec 32) : Option Word :=
  match unitHart s n u with
  | some i => some (s.hart i).gs
  | none => (s.d.saved.find? fun e => e.2.node == n && e.2.unit == u).map (·.2.gs)

/-- The value of the counter an id names for a unit of launch `n`; none if it names no live counter (R263, R295). -/
def counterOf (s : State) (n : BitVec 48) (id : Word) : Option Word :=
  match bits id 63 56 with
  | 0 => if generalId id then some (s.d.ctr (bits id 15 0)) else none
  | 1 => if bits id 55 12 = 0 then
           some (BitVec.ofNat 64 (chanTimeline (s.core (bits id 11 4)).chans[lay (bits id 3 0)])) else none
  | 2 => if bits id 55 12 = 0 ∧ bits id 3 1 = 0 then
           some (if bit id 0 then (s.core (bits id 11 4)).mqB else (s.core (bits id 11 4)).mqA) else none
  | 3 => if bits id 55 32 = 0 then unitGs s n (id.setWidth 32) else none
  | _ => none

/-! ## Launch records (R62, R398) -/

namespace Rec
/-- Entry address. -/ def entry (r : BitVec 512) : Word := r.extractLsb' 0 64
/-- Argument base. -/ def args (r : BitVec 512) : Word := r.extractLsb' 64 64
/-- Unit count. -/ def count (r : BitVec 512) : Nat := bits r 159 128
/-- CW. -/ def cw (r : BitVec 512) : Bool := bit r 160
/-- KIND. -/ def kind (r : BitVec 512) : Nat := bits r 162 161
/-- Gang size. -/ def gang (r : BitVec 512) : Nat := bits r 191 176
/-- Count-word address. -/ def countw (r : BitVec 512) : Word := r.extractLsb' 192 64
/-- Gang seam. -/ def seam (r : BitVec 512) : Nat := bits r 258 256
/-- Base priority. -/ def prio (r : BitVec 512) : Nat := bits r 265 264
/-- lgmin. -/ def lgmin (r : BitVec 512) : Nat := bits r 276 272
/-- lgmax. -/ def lgmax (r : BitVec 512) : Nat := bits r 284 280
/-- fuse. -/ def fuse (r : BitVec 512) : Bool := bit r 288
/-- Scratchpad bytes per unit. -/ def spad (r : BitVec 512) : Nat := bits r 351 320
/-- Lock quota. -/ def lockq (r : BitVec 512) : BitVec 32 := r.extractLsb' 352 32
/-- Completion timeline. -/ def timeline (r : BitVec 512) : Word := r.extractLsb' 384 64
/-- Parent node id, or 0. -/ def parent (r : BitVec 512) : Word := r.extractLsb' 448 64
/-- Reserved bits and bytes are zero. -/
def clear (r : BitVec 512) : Bool :=
  bits r 175 163 == 0 && bits r 263 259 == 0 && bits r 271 266 == 0 && bits r 279 277 == 0 && bits r 287 285 == 0 &&
    bits r 295 289 == 0 && bits r 319 296 == 0
/-- BAD_RECORD of R399. -/
def bad (r : BitVec 512) : Bool :=
  !clear r || kind r == 3 || (cw r && kind r != 0) || gang r == 0 || (seam r == 0 && decide (1 < gang r)) ||
    decide (16 < lgmin r) || decide (lgmax r < lgmin r) || decide (16 < lgmax r) || (kind r == 0 && bits (entry r) 1 0 != 0)
end Rec

/-- `n` rounded up to a multiple of 4096. -/
def roundPage (n : Nat) : Nat := (n + 4095) / 4096 * 4096

/-- c(m): the most units one empty core can hold (R407). -/
def coreCapacity (m : Nat) : Nat :=
  if m = 0 then 8 else (List.range 17).foldl (fun b na => max b (min 4 (na / m) + min 4 ((16 - na) / m))) 0

/-- The core is in service: its layer is in the stage and not out for repair (R438, R442). -/
def coreInService (d : Device) (core : Nat) : Bool :=
  (if d.stage.toNat ≥ 3 then true else decide (d.stage.toNat = 2) && decide (core < 128)) && !d.layersOut.getLsbD (coreLayer core)

/-- The number of the instance of seam `sc` that holds a core, in HARTID order (R2, R405); seam 0 means core, seam 7 package (R398). -/
def instanceOf (sc core : Nat) : Nat :=
  if sc ≤ 1 then core else if sc = 2 then core / 4 else if sc = 3 then core / 16 else if sc = 4 then core / 32
  else if sc = 5 then core / 128 else 0

/-- The cores of an instance that are in service. -/
def instanceCores (d : Device) (sc n : Nat) : List Nat :=
  (List.range 256).filter fun k => instanceOf sc k == n && coreInService d k

/-- How many instances a seam has. -/
def instanceCount (sc : Nat) : Nat := if sc ≤ 1 then 256 else if sc = 2 then 64 else if sc = 3 then 16 else if sc = 4 then 8 else if sc = 5 then 2 else 1

/-- The most cores in service of one instance of a seam. -/
def bestInstance (d : Device) (sc : Nat) : Nat :=
  (List.range (instanceCount sc)).foldl (fun b n => max b (instanceCores d sc n).length) 0

/-! ## Measurement (R437) -/

/-- Extend measurement register `i` with an item of a given digest (R437). -/
def extendMeasure (d : Device) (i : Fin 8) (digest : BitVec 256) : Device :=
  { d with meas := d.meas.set i (sha256 (d.meas[i].toNat + 2 ^ 256 * digest.toNat) 64) }

/-- A digest of an item that the model does not hold: open (log 9). -/
def freeDigest (s : State) : BitVec 256 × State :=
  let w (i : Nat) := Config.freeWord (s.free + i)
  (w 0 ++ w 1 ++ w 2 ++ w 3, { s with free := s.free + 4 })

/-- Extend a measurement register with `n` items whose digests are open (R437; log 9). -/
def extendFree (s : State) (i : Fin 8) : Nat → State
  | 0 => s
  | n + 1 =>
    let (g, s) := freeDigest s
    extendFree { s with d := extendMeasure s.d i g } i n

/-! ## The node table -/

/-- The node that an id names: its slot holds the generation (R394). -/
def nodeAt (d : Device) (id : BitVec 48) : Option Node :=
  match sfind d.nodes (bits id 15 0) with
  | some n => if n.gen = id.extractLsb' 16 32 ∧ bits id 15 0 ≠ 0 then some n else none
  | none => none

/-- The node is neither complete nor freed. -/
def Node.live (n : Node) : Bool := n.state != .complete && n.state != .freed

/-- A live node. -/
def liveNode (d : Device) (id : BitVec 48) : Option Node := (nodeAt d id).filter Node.live

/-- Change a node in place. -/
def editNode (d : Device) (id : BitVec 48) (f : Node → Node) : Device :=
  match nodeAt d id with
  | some n => { d with nodes := sput d.nodes (bits id 15 0) (f n) }
  | none => d

/-- Rank of R393, highest 0. -/
def NodeKind.rank : NodeKind → Nat
  | .job => 0 | .phase => 1 | .graph => 2 | .launch => 3

/-- The kind a record asks for. -/
def recKind (r : BitVec 512) : NodeKind := if Rec.kind r = 1 then .graph else if Rec.kind r = 2 then .phase else .launch

/-- A slot that was never used: the lowest that is not listed (R415). -/
def firstUnused (ns : Sparse Node) : Nat → Option Nat
  | k =>
    match ns with
    | [] => if k ≤ 65535 then some k else none
    | (k', _) :: t => if k < k' then some k else firstUnused t (k' + 1)

/-- The slot freed longest ago (R415). -/
def oldestFreed (ns : Sparse Node) : Option Nat :=
  (ns.foldl (init := (none : Option (Nat × Nat))) fun b e =>
    if e.2.state != .freed then b
    else match b with
      | none => some (e.1, e.2.freedAt)
      | some (k, t) => if e.2.freedAt < t then some (e.1, e.2.freedAt) else some (k, t)).map (·.1)

/-- The slot the table allocates next (R415). -/
def freeSlot (d : Device) : Option Nat := (firstUnused d.nodes 1).orElse fun _ => oldestFreed d.nodes

/-- The id that a slot's next node gets: a generation the slot has not carried (R394; log 12). -/
def nextId (d : Device) (slot : Nat) : BitVec 48 :=
  let gen : BitVec 32 := match sfind d.nodes slot with
    | some n => n.gen + 1
    | none => 0
  gen ++ BitVec.ofNat 16 slot

/-- The parent a record names, for a unit or start of job `job` (R394). -/
def recParent (r : BitVec 512) (job : BitVec 48) : Option (BitVec 48) :=
  if Rec.parent r = 0 then some job
  else if bits (Rec.parent r) 63 48 = 0 then some ((Rec.parent r).setWidth 48) else none

/-- BAD_PARENT of R399, and a cancelled parent (R409). -/
def badParent (d : Device) (r : BitVec 512) (job : BitVec 48) : Bool :=
  match recParent r job with
  | none => true
  | some p =>
    match liveNode d p with
    | none => true
    | some n => n.cancelled || (recKind r).rank ≤ n.kind.rank ||
        ((n.kind == .phase || n.kind == .graph) && decide (n.limit ≤ n.accepted))

/-- The checks of R399 in order: 0, or the first refusal. -/
def checkRecord (d : Device) (r : BitVec 512) (job : BitVec 48) : Nat :=
  if Rec.bad r then 1
  else if badParent d r job then 2
  else if Rec.timeline r ≠ 0 ∧ !generalId (Rec.timeline r) then 3
  else if 0 < Rec.spad r ∧ (786432 < roundPage (Rec.gang r * Rec.spad r) ∨ coreCapacity (Rec.lgmin r) < Rec.gang r) then 4
  else if bestInstance d (Rec.seam r) * coreCapacity (Rec.lgmin r) < Rec.gang r then 5
  else if (freeSlot d).isNone then 6
  else 0

/-- A child of the node is not yet freed. -/
def hasUnfreedChild (d : Device) (id : BitVec 48) : Bool :=
  d.nodes.any fun e => e.2.parent == some id && e.2.state != .freed

/-- Free a complete node with no unfreed child, then its parent if that can go too (R394). -/
def tryFree (d : Device) (id : BitVec 48) : Nat → Device
  | 0 => d
  | n + 1 =>
    match nodeAt d id with
    | none => d
    | some nd =>
      if nd.state = .complete ∧ !hasUnfreedChild d id then
        let d := editNode d id fun x => { x with state := .freed, freedAt := d.cycle.toNat }
        match nd.parent with
        | none => d
        | some p => tryFree d p n
      else d

/-- A node's counter has reached 0 (R397): its timeline rises by 1, its status stands, its parent's counter falls by 1,
which may complete the parent in turn. A job's completion clears LIVE and may fire its vector (R429). -/
def completeNode (d : Device) (id : BitVec 48) : Nat → Device
  | 0 => d
  | n + 1 =>
    match liveNode d id with
    | none => d
    | some nd =>
      let d := if nd.timeline ≠ 0 then
          let i := bits nd.timeline 15 0
          { d with ctrs := sset d.ctrs i (d.ctr i + 1) 0 } else d
      let d := editNode d id fun x => { x with state := .complete, counter := 0 }
      let d := match nd.jobReg with
        | none => d
        | some j =>
          let r := sget d.jobs j.toNat JobReg.reset
          { d with jobs := sput d.jobs j.toNat { r with live := false }, msix := if r.irqen then d.msix ++ [j.toNat] else d.msix }
      match nd.parent with
      | none => tryFree d id 4
      | some p =>
        let d := editNode d p fun x => { x with counter := x.counter - 1 }
        let d := match liveNode d p with
          | some x => if x.counter = 0 then completeNode d p n else d
          | none => d
        tryFree d id 4

/-- What a creator knows: its layer's clock, as a release and a `LAUNCH` behind it carry it (R339, R343, R400; log 43); nothing for the host. -/
def clockOf (d : Device) (creator : Nat) : Vector Nat 16 :=
  if creator < 2048 then d.lclock[lay (creator / 128)] else Vector.replicate 16 0

/-- Create a node for an accepted record and charge its parent (R393, R414). A phase or graph with N = 0 completes at once. -/
def createNode (d : Device) (r : BitVec 512) (job : BitVec 48) (asid : BitVec 14) (ptroot : Word) (creator : Nat)
    (gate : Option (Word × Word)) (gateUnit : Option (BitVec 48 × BitVec 32)) : BitVec 48 × Device :=
  match freeSlot d, recParent r job with
  | some slot, some p =>
    let id := nextId d slot
    let k := recKind r
    let launch := k == .launch
    let pj := match nodeAt d p with
      | some n => if n.kind = .job then p else n.job
      | none => p
    let n : Node :=
      { gen := id.extractLsb' 16 32, kind := k,
        state := if launch then (if gate.isSome then .gated else .queued) else .running,
        parent := some p, job := pj, record := r, asid := asid, ptroot := ptroot, timeline := Rec.timeline r,
        counter := if launch then 0 else Rec.count r, accepted := 0, limit := if launch then 0 else Rec.count r, status := 0,
        cancelled := false, gate := gate, gateUnit := gateUnit, creator := creator, queuedAt := d.cycle.toNat, aged := 0,
        nextGang := 0, gateLast := none, jobReg := none, freedAt := 0, clock := clockOf d creator }
    let d := { d with nodes := sput d.nodes slot n }
    let d := editNode d p fun x => { x with accepted := x.accepted + 1, counter := if x.kind = .job then x.counter + 1 else x.counter }
    (id, if launch ∨ Rec.count r ≠ 0 then d else completeNode d id 5)
  | _, _ => (0, d)

/-- The node `id` is `a` or lies below it (R409). -/
def below (d : Device) (a id : BitVec 48) : Nat → Bool
  | 0 => id == a
  | n + 1 =>
    id == a ||
      match nodeAt d id with
      | some x => match x.parent with
        | some p => below d a p n
        | none => false
      | none => false

/-- The live children of a node. -/
def liveChildren (d : Device) (id : BitVec 48) : Nat :=
  (d.nodes.filter fun e => e.2.parent == some id && e.2.live).length

/-- The units of a launch that are placed on hart slots. -/
def placedUnits (s : State) (id : BitVec 48) : List (BitVec 11) := s.liveHarts.filter fun i => (s.hart i).node == id

/-- The gather-and-scatter counter of a unit that is no more keeps its last value for the gates bound to it (R414). -/
def noteGates (d : Device) (h : Hart) : Device :=
  { d with nodes := d.nodes.map fun e => if e.2.gateUnit = some (h.node, h.unit) then (e.1, { e.2 with gateLast := some h.gs }) else e }

/-- Unlock every line locked under one number (R94, R241); a reserved way without data goes free. -/
def unlockKey (d : Device) (key : Nat) : Device :=
  { d with l1 := d.l1.map fun e => (e.1, e.2.filterMap fun l =>
      let l' := { l with locks := l.locks.filter (· != key) }
      if !l'.valid && l'.locks.isEmpty then none else some l') }

/-- Under which number a saved unit's locks stand: above every HARTID (R241, log 41). -/
def savedKey (h : Hart) : Nat := 2 ^ 80 + h.node.toNat * 2 ^ 32 + h.unit.toNat

/-- The commands that a unit's `VLDS` claimed are claimed by nobody's `VLDS` any more, and their ports go free once they have completed (R278, R401). -/
def dropClaims (c : Core) (node : BitVec 48) (unit : BitVec 32) : Core :=
  { c with vports := c.vports.map fun v =>
      if v.claim = some (node, unit) then
        (if v.occ.any fun o => c.chans[lay o.1].cmds.any fun k => k.id == o.2 then { v with read := true } else VPort.reset)
      else v }

/-- A hart that waits for the counter of a unit that ends now passes if the counter has reached its value (R295). -/
def noteWaiter (gone : Hart) (h : Hart) : Hart :=
  match h.wait with
  | some (.unitCounter l u n false) =>
    if l = gone.node ∧ u = gone.unit ∧ n.toNat ≤ gone.gs.toNat then { h with wait := some (.unitCounter l u n true) } else h
  | _ => h

/-- Every hart that waits for the counter of a unit that ends looks at it (R295). -/
def noteWaiters (s : State) (gone : Hart) : State :=
  { s with h := noteWaiter gone s.h, parked := s.parked.map fun e => (e.1, noteWaiter gone e.2) }

/-- A saved unit is dropped: its locks and claims go, and the gates and waits bound to its counter keep its last value (R241, R278, R295, R414). -/
def dropSaved (s : State) (e : Nat × Hart) : State :=
  let s := noteWaiters (s.setCore e.1 (dropClaims (s.core e.1) e.2.node e.2.unit)) e.2
  { s with d := noteGates (unlockKey s.d (savedKey e.2)) e.2 }

/-- A launch places nothing more (R396, R405, R409): its units that have left their slots are dropped, and it completes once it has none placed. -/
def stopPlacing (s : State) (id : BitVec 48) (st : Nat) : State :=
  let s := (s.d.saved.filter fun e => e.2.node == id).foldl dropSaved s
  let n := (placedUnits s id).length
  let d := { s.d with saved := s.d.saved.filter fun e => e.2.node != id }
  let d := editNode d id fun x => { x with counter := n, status := st, state := .draining }
  { s with d := if n = 0 then completeNode d id 5 else d }

/-- Cancel one launch, graph, phase or job that is already marked (R409). -/
def settleCancelled (s : State) (id : BitVec 48) : State :=
  match liveNode s.d id with
  | none => s
  | some nd =>
    match nd.kind with
    | .launch => stopPlacing s id 1
    | .job => if nd.counter = 0 then { s with d := completeNode s.d id 5 } else s
    | _ =>
      let n := liveChildren s.d id
      let s := { s with d := editNode s.d id fun x => { x with counter := n } }
      if n = 0 then { s with d := completeNode s.d id 5 } else s

/-- Cancel a node and every node below it (R409): the nodes are marked with status 1, placed units are marked to stop at their next boundary,
and what holds no unit completes, launches first. -/
def cancelNode (s : State) (id : BitVec 48) : State :=
  let hit := (s.d.nodes.filter fun e => e.2.live && below s.d id (e.2.gen ++ BitVec.ofNat 16 e.1) 4).map fun e => (e.2.gen ++ BitVec.ofNat 16 e.1, e.2.kind.rank)
  let s := hit.foldl (fun s i => { s with d := editNode s.d i.1 fun x => { x with cancelled := true, status := 1 } }) s
  let s := (s.liveHarts.filter fun i => hit.any fun e => e.1 == (s.hart i).node).foldl
    (fun s i => s.setHart i { s.hart i with cancelled := true }) s
  [3, 2, 1, 0].foldl (fun s k => (hit.filter fun e => e.2 == k).foldl (fun s e => settleCancelled s e.1) s) s

/-! ## Units -/

/-- Unlock every line that a hart's context holds (R94, R241). -/
def unlockAll (d : Device) (hid : BitVec 11) : Device := unlockKey d hid.toNat

/-- Lines that a hart's context has locked (R241). -/
def lockedBy (d : Device) (hid : BitVec 11) : Nat :=
  (d.l1.map fun e => (e.2.filter fun l => l.locks.contains hid.toNat).length).sum

/-- The slot that a unit leaves: its grant is free and nothing of it is waiting, staged or pending for it, nor do its words count as words of the
hart before the next unit's first (R49; log 8); every register keeps its value until the next unit starts, as R94 clears none and R400 sets them then. -/
def emptySlot (h : Hart) : Hart :=
  { h with live := false, gmap := 0, ppend := false, lockq := 0, gs := 0, mbox := [], vconvoy := [], mstage := MStage.empty,
           early := [], wait := none, stop := none, upTo := none, halted := false, cancelled := false, region := none, lane := none, remote := 0,
           csaved := false, woken := false, resumed := false, owed := [] }

/-- The unit in focus retires (R94, R397, R409, R462): its grant, quota and slot are freed, its mailbox is discarded, its gang's lease ends
with its last unit, and it is counted at its launch with status `st` where the launch has none yet. -/
def retireUnit (s : State) (st : Nat) : State :=
  let h := s.h
  let s := noteWaiters s h
  let d := noteGates (unlockAll s.d s.hid) h
  let d := { d with podout := d.podout.filter fun o => o.hart != s.hid }
  let s := { s with d := d, c := dropClaims (leaveQueues s.c s.hid) h.node h.unit, h := emptySlot h, undo := sdel s.undo s.hid.toNat }
  let lastOfGang := !(s.liveHarts.any fun i => (s.hart i).node == h.node && (s.hart i).gang == h.gang)
  let s := if lastOfGang ∧ s.c.lease = some (h.node, h.gang) then { s with c := { s.c with lease := none } } else s
  let d := editNode s.d h.node fun x =>
    { x with counter := x.counter - 1, status := if x.status = 0 then st else x.status }
  let d := match liveNode d h.node with
    | some x => if x.counter = 0 then completeNode d h.node 5 else d
    | none => d
  { s with d := d }

end Sys2Proof.Machine
end

