-- ==== Sys2Proof/Machine/Window.lean ====
section
/-!
DEFINITION. The management window (BAR0): its registers field by field and the actions that writes of them start
(30_host_fabric_bringup.md, R426-R451), and the EXTERNAL sources and the error log that device events raise (R432, R447).
-/

namespace Sys2Proof.Machine

/-! ## Sources and the error log -/

/-- Insert a pending source, ascending, once (R154). -/
def insertSource (l : List Nat) (n : Nat) : List Nat :=
  match l with
  | [] => [n]
  | m :: t => if n = m then m :: t else if n < m then n :: m :: t else m :: insertSource t n

/-- An EXTERNAL source becomes pending at a hart (R154). -/
def raiseAt (s : State) (hid : BitVec 11) (n : Nat) : State :=
  s.setHart hid { s.hart hid with ext := insertSource (s.hart hid).ext n }

/-- The routing register of a source 1 to 8 (R432). -/
def routeOf (s : State) (n : Nat) : Word := s.d.route.toList.getD (n - 1) 0

/-- A source fires at the host too where its routing register says so (R432). -/
def raiseHost (s : State) (n : Nat) : State :=
  if bit (routeOf s n) 63 then { s with d := { s.d with msix := s.d.msix ++ [255 + n] } } else s

/-- One of the sources 1 to 8 fires: the hart of its routing register, and the host where the register says so (R432). -/
def raiseSource (s : State) (n : Nat) : State := raiseHost (raiseAt s ((routeOf s n).setWidth 11) n) n

/-- A doorbell write: source 1 on the hart that it names (R432). -/
def doorbell (s : State) (h : BitVec 11) : State := raiseHost (raiseAt s h 1) 1

/-- Write an error-log entry (R447, R448). -/
def logEvent (d : Device) (addr : Word) (core blk kind : Nat) : Device :=
  let i := d.logHead.toNat % 1024
  let lost := match sfind d.log i with
    | some e => bit e.2 0
    | none => false
  let w1 : Word := BitVec.ofNat 64 (core % 65536 * 2 ^ 32 + blk % 16 * 16 + kind % 8 * 2 + 1)
  { d with log := sput d.log i (addr, w1), logHead := d.logHead + 1, logLost := if lost then d.logLost + 1 else d.logLost }

/-- The seam table changed (R331): GEN rises and source 4 fires (R432). -/
def seamChanged (s : State) : State := raiseSource { s with d := { s.d with gen := s.d.gen + 1 } } 4

/-! ## Reads -/

/-- Word `i` of a wide field, 64 bits each. -/
def wordOf {n : Nat} (v : BitVec n) (i : Nat) : Word := v.extractLsb' (64 * i) 64

/-- Cores in service (R428). -/
def coresInService (d : Device) : Nat := ((List.range 256).filter fun k => coreInService d k).length
/-- HBM stacks in service (R428); a stack under repair keeps its contents (R442). -/
def stacksInService (d : Device) : Nat := 12 - popCount d.stacksOut 12

/-- The word of R427. -/
def identity (d : Device) : Word :=
  BitVec.ofNat 64 (0x0001 * 2 ^ 48 + d.rev.toNat * 2 ^ 40 + (if d.trip then 8 else 0) + d.stage.toNat)

/-- A job-start register set's word (R429). -/
def readJob (r : JobReg) (o : Nat) : Word :=
  match o with
  | 0x00 => r.record
  | 0x08 => r.ptroot
  | 0x10 => r.asid.setWidth 64
  | 0x18 => r.jobtl
  | 0x20 => BitVec.ofNat 64 (r.status.toNat * 256 + (if r.irqen then 4 else 0) + (if r.live then 2 else 0))
  | 0x28 => r.jobid
  | _ => 0

/-- The checkpoint block's word (R451). -/
def readCkpt (k : Ckpt) (o : Nat) : Word :=
  match o with
  | 0x00 => k.job
  | 0x08 => k.phase
  | 0x10 => k.dst
  | 0x18 => k.dlen
  | 0x20 => k.ctr
  | 0x28 => BitVec.ofNat 64 (k.cstat.toNat * 256 + (if k.stream then 4 else 0) + (if k.armed then 2 else 0))
  | 0x30 => k.bytes
  | 0x38 => k.cutcyc
  | 0x40 => k.donecyc
  | _ => 0

/-- The 8-byte word of the window at an offset that is a multiple of 8; an unlisted offset reads as 0 (R426). -/
def readWindow (d : Device) (o : Nat) : Word :=
  match o / 0x10000 with
  | 0x00 =>
    match o with
    | 0x00 => identity d
    | 0x08 => d.bar2base
    | 0x10 => wordOf d.serial 0
    | 0x18 => wordOf d.serial 1
    | 0x20 => BitVec.ofNat 64 (d.ports.toNat * 2 ^ 32 + stacksInService d * 65536 + coresInService d)
    | _ => 0
  | 0x01 =>
    match o - 0x10000 with
    | 0x00 => d.laddr
    | 0x08 => d.llen.setWidth 64
    | 0x10 => BitVec.ofNat 64 (d.lstat.toNat * 256 + (if d.lbusy then 2 else 0))
    | p => if 0x100 ≤ p ∧ p < 0x200 then wordOf (d.meas.toList.getD ((p - 0x100) / 32) 0) ((p - 0x100) % 32 / 8) else 0
  | 0x02 =>
    match o - 0x20000 with
    | 0x20 => BitVec.ofNat 64 (d.astat.toNat * 256 + (if d.adone then 4 else 0) + (if d.abusy then 2 else 0))
    | 0x28 => d.clen.setWidth 64
    | p => if p < 0x20 then wordOf d.nonce (p / 8)
           else if 0x100 ≤ p ∧ p < 0x100 + 704 then wordOf d.report ((p - 0x100) / 8)
           else if 0x1000 ≤ p ∧ p < 0x2000 then wordOf d.cert ((p - 0x1000) / 8) else 0
  | 0x10 => if o - 0x100000 < 256 * 64 then readJob (sget d.jobs ((o - 0x100000) / 64) JobReg.reset) ((o - 0x100000) % 64) else 0
  | 0x30 => sget d.tele (o - 0x300000) (if o = 0x300000 then d.seq else 0)
  | 0x40 =>
    match o - 0x400000 with
    | 0x00 => d.logHead
    | 0x08 => d.logLost
    | p => if 0x10 ≤ p ∧ p < 0x38 then (d.ccount.toList.getD ((p - 0x10) / 8) 0).setWidth 64
           else if 0x40 ≤ p ∧ p < 0x68 then (d.cthresh.toList.getD ((p - 0x40) / 8) 0).setWidth 64
           else if 0x1000 ≤ p ∧ p < 0x5000 then
             let e := sget d.log ((p - 0x1000) / 16) (0, 0)
             if p % 16 = 0 then e.1 else e.2
           else 0
  | 0x50 => readCkpt d.ckpt (o - 0x500000)
  | 0x60 => if 0x600008 ≤ o ∧ o ≤ 0x600040 then d.route.toList.getD ((o - 0x600000) / 8 - 1) 0 else 0
  | _ => if 0x200008 ≤ o ∧ o < 0x280000 then d.ctr ((o - 0x200000) / 8) else 0

/-! ## Actions -/

/-- A write with GO = 1 to job-start register set `j` (R429); a start whose record lies in a stack under repair waits for it (R442). -/
def goJob (s : State) (j : BitVec 8) : State :=
  let d := s.d
  let r := sget d.jobs j.toNat JobReg.reset
  let put (d : Device) (r : JobReg) : Device := { d with jobs := sput d.jobs j.toNat r }
  let fail (st : Nat) : State := { s with d := put d { r with status := BitVec.ofNat 8 st, starting := false } }
  if r.live then fail 7
  else if d.stage.toNat < 2 then fail 8
  else if r.record.toNat % 64 ≠ 0 ∨ !inHbm r.record.toNat ∨ (r.jobtl ≠ 0 ∧ !generalId r.jobtl) then fail 9
  else if underRepair d r.record.toNat then { s with d := put d { r with starting := true } }
  else
    match freeSlot d with
    | none => fail 6
    | some slot =>
      let r := { r with starting := false }
      let id := nextId d slot
      let n : Node :=
        { gen := id.extractLsb' 16 32, kind := .job, state := .running, parent := none, job := id, record := 0,
          asid := r.asid, ptroot := r.ptroot, timeline := r.jobtl, counter := 0, accepted := 0, limit := 0, status := 0,
          cancelled := false, gate := none, gateUnit := none, creator := 2048, queuedAt := d.cycle.toNat, aged := 0, nextGang := 0,
          gateLast := none, jobReg := some j, freedAt := 0, clock := clockOf d 2048 }
      let d := { d with nodes := sput d.nodes slot n }
      let record := BitVec.ofNat 512 (Memory.read d.mem r.record.toNat 64)
      let st := checkRecord d record id
      if st ≠ 0 then
        let d := { d with nodes := sput d.nodes slot { n with state := .freed, freedAt := d.cycle.toNat } }
        { s with d := put d { r with jobid := id.setWidth 64, status := BitVec.ofNat 8 st } }
      else
        let d := put d { r with jobid := id.setWidth 64, status := 0, live := true }
        { s with d := (createNode d record id r.asid r.ptroot 2048 none none).2 }

/-- A write of LOAD (R436): verification of the image at LADDR starts, or is refused. LSTAT stands until the verification ends (log 46). -/
def startLoad (d : Device) : Device :=
  if d.lbusy then d
  else if d.stage ≠ 0 then { d with lstat := 5 }
  else if d.laddr.toNat % 4096 ≠ 0 ∨ d.llen.toNat % 4096 ≠ 0 ∨ 0x10000000 < d.llen.toNat ∨ 0x40000000 ≤ d.laddr.toNat ∨
      0x40000000 < d.laddr.toNat + d.llen.toNat then
    { d with lstat := 4 }
  else { d with lbusy := true }

/-- A write of REQ (R441): NONCE is captured and a report is started; stage 0 refuses it. -/
def startReport (d : Device) : Device :=
  if d.abusy then d
  else if d.stage = 0 then { d with astat := 2, adone := false }
  else { d with anonce := d.nonce, abusy := true, adone := false }

/-- JOB names a live job and PHASE a live phase below it (R451). -/
def ckptNodes (d : Device) : Bool :=
  let k := d.ckpt
  match liveNode d (k.job.setWidth 48), liveNode d (k.phase.setWidth 48) with
  | some j, some p => bits k.job 63 48 == 0 && bits k.phase 63 48 == 0 && j.kind == .job && p.kind == .phase && p.job == k.job.setWidth 48
  | _, _ => false

/-- A write of ARM (R451): the engine is armed, or the checkpoint fails at once, which raises source 6 (R432). -/
def armCkpt (s : State) : State :=
  let k := s.d.ckpt
  let fail (st : BitVec 8) : State := raiseSource { s with d := { s.d with ckpt := { k with cstat := st } } } 6
  if k.armed ∨ k.stream then s
  else if k.dlen.toNat < 0x9024000000 then fail 3
  else if ckptNodes s.d then { s with d := { s.d with ckpt := { k with armed := true, cstat := 0 } } }
  else fail 4

/-- A host write of a counter (R430); one to a counter that is not the host's is logged with the counter's address in the window (R431, R447). -/
def hostCounter (d : Device) (i : Nat) (n : Word) : Device :=
  if 0xF000 ≤ i ∧ i ≤ 0xFFFF then d.signal i n
  else logEvent d (BitVec.ofNat 64 (0xF000200000 + 8 * i)) 0xFFFF 5 2

/-- A write of BAR2BASE (R428): ignored unless it is a multiple of the window size. -/
def writeBar2 (d : Device) (v : Word) : Device :=
  if v.toNat % 2 ^ d.bar2log = 0 then { d with bar2base := v } else d

/-- Writing 1 to VALID of log entry `i` frees it (R448). -/
def freeLogEntry (d : Device) (i : Nat) : Device :=
  match sfind d.log i with
  | some e => { d with log := sput d.log i (e.1, e.2 &&& ~~~1#64) }
  | none => d

/-- Replace word `i` of a wide field. -/
def putWord {n : Nat} (v : BitVec n) (i : Nat) (w : Word) : BitVec n := putBits v (64 * i) w

/-- A write of a job-start register set's word (R429): CTRL takes IRQEN, and GO starts a job. -/
def writeJob (s : State) (j : BitVec 8) (o : Nat) (v : Word) : State :=
  let put (f : JobReg → JobReg) : State :=
    { s with d := { s.d with jobs := sput s.d.jobs j.toNat (f (sget s.d.jobs j.toNat JobReg.reset)) } }
  match o with
  | 0x00 => put fun r => { r with record := v }
  | 0x08 => put fun r => { r with ptroot := BitVec.ofNat 64 (bits v 51 16 * 65536) }
  | 0x10 => put fun r => { r with asid := v.setWidth 14 }
  | 0x18 => put fun r => { r with jobtl := v }
  | 0x20 =>
    let s := put fun r => { r with irqen := bit v 2 }
    if bit v 0 then goJob s j else s
  | _ => s

/-- A write of the checkpoint block's word (R451): fields, and ARM. The engine looks at the fields as they stand when it uses them (log 39). -/
def writeCkpt (s : State) (o : Nat) (v : Word) : State :=
  let put (f : Ckpt → Ckpt) : State := { s with d := { s.d with ckpt := f s.d.ckpt } }
  match o with
  | 0x00 => put fun k => { k with job := v }
  | 0x08 => put fun k => { k with phase := v }
  | 0x10 => put fun k => { k with dst := v }
  | 0x18 => put fun k => { k with dlen := v }
  | 0x20 => put fun k => { k with ctr := v }
  | 0x28 => if bit v 0 then armCkpt s else s
  | _ => s

/-- A write of the 8-byte word of the window at an offset that is a multiple of 8 (R426-R451); one to an unlisted offset has no effect. -/
def writeWindow (s : State) (o : Nat) (v : Word) : State :=
  let d := s.d
  match o / 0x10000 with
  | 0x00 => if o = 0x08 then { s with d := writeBar2 d v } else s
  | 0x01 =>
    match o - 0x10000 with
    | 0x00 => { s with d := { d with laddr := v } }
    | 0x08 => { s with d := { d with llen := v.setWidth 32 } }
    | 0x10 => if bit v 0 then { s with d := startLoad d } else s
    | _ => s
  | 0x02 =>
    match o - 0x20000 with
    | 0x20 => if bit v 0 then { s with d := startReport d } else s
    | p => if p < 0x20 then { s with d := { d with nonce := putWord d.nonce (p / 8) v } } else s
  | 0x10 => if o - 0x100000 < 256 * 64 then writeJob s (BitVec.ofNat 8 ((o - 0x100000) / 64)) ((o - 0x100000) % 64) v else s
  | 0x40 =>
    let p := o - 0x400000
    if 0x10 ≤ p ∧ p < 0x38 then { s with d := { d with ccount := d.ccount.setIfInBounds ((p - 0x10) / 8) 0 } }
    else if 0x40 ≤ p ∧ p < 0x68 then { s with d := { d with cthresh := d.cthresh.setIfInBounds ((p - 0x40) / 8) (v.setWidth 32) } }
    else if 0x1000 ≤ p ∧ p < 0x5000 ∧ p % 16 = 8 ∧ bit v 0 then { s with d := freeLogEntry d ((p - 0x1000) / 16) }
    else s
  | 0x50 => writeCkpt s (o - 0x500000) v
  | 0x60 =>
    if 0x600008 ≤ o ∧ o ≤ 0x600040 then
      { s with d := { d with route := d.route.setIfInBounds ((o - 0x600000) / 8 - 1) (v &&& 0x80000000000007FF) } }
    else if 0x601000 ≤ o ∧ o < 0x601000 + 8 * 2048 then doorbell s (BitVec.ofNat 11 ((o - 0x601000) / 8))
    else s
  | _ => if 0x200008 ≤ o ∧ o < 0x280000 then { s with d := hostCounter d ((o - 0x200000) / 8) v } else s

/-- The block of the window at an offset is in service (R438): in stage 0 the identity, firmware and attestation blocks and the job-start
registers only, of which the last two refuse (R429, R441; log 13). -/
def served (d : Device) (o : Nat) : Bool := d.stage != 0 || decide (o < 0x30000) || o / 0x10000 == 0x10

/-- The word at an offset holds a bit that is cleared by writing 1 (R447). -/
def clearsByOne (o : Nat) : Bool := decide (0x401000 ≤ o) && decide (o < 0x405000) && o % 16 == 8

/-- A read of `n` bytes of the window (log 13); a block that is not in service reads as 0 (R438). -/
def windowLoad (d : Device) (pa n : Nat) : Word :=
  let o := pa - 0xF000000000
  if served d o then (readWindow d (o / 8 * 8) >>> (8 * (o % 8))) &&& BitVec.ofNat 64 (2 ^ (8 * n) - 1) else 0

/-- A write of `n` bytes of the window: the other bytes of its 8-byte word keep what they read as, and clear nothing (R7; log 13). One to a block
that is not in service has no effect (R438). -/
def windowStore (s : State) (pa n : Nat) (v : Word) : State :=
  let o := pa - 0xF000000000
  let old := if clearsByOne (o / 8 * 8) then 0 else readWindow s.d (o / 8 * 8)
  let sh := 8 * (o % 8)
  let m : Word := BitVec.ofNat 64 (2 ^ (8 * n) - 1) <<< sh
  if served s.d o then writeWindow s (o / 8 * 8) ((old &&& ~~~m) ||| ((v <<< sh) &&& m)) else s

end Sys2Proof.Machine
end

