-- ==== Sys2Proof/Machine/Access.lean ====
section
/-!
DEFINITION. Loads, stores, fetches and atomics of a hart at any address: the checks of R73 and R155, then the place of R332
(14_memory_hierarchy.md, 21_seams_consistency.md, 22_sync_instructions.md R358-R363).
-/

namespace Sys2Proof.Machine

/-- The side a missing line is allocated on (R238): the word's side field, else the page's PTRS. -/
def lineSide (side : Nat) (leaf : Word) : Bool := if side = 0 then bit leaf 11 else side == 2

/-- Read `n` bytes of host memory: the host's, open to the model (R431, log 9). -/
def hostBytes (draw pa : Nat) : Nat → Nat
  | 0 => 0
  | n + 1 => (Config.hostByte draw pa).toNat + 256 * hostBytes draw (pa + 1) n

/-- Read `n` bytes, up to 8, at a place already checked: the value, or `ACCESS` for poison (R73 step 4, R177).
A `KIND = 1` access to HBM bypasses L2 (R237); the model holds no L2 apart from HBM, so it reads what the home last took (log 6). -/
def readPlace (s : State) (pl : Place) (va : Word) (n side : Nat) : Except Stop (Word × State) :=
  match pl with
  | .spad off =>
    if spadPoisoned s.c off n then .error (.trap Cause.access va)
    else .ok (BitVec.ofNat 64 (Memory.read s.c.spad off n), s)
  | .mem pa leaf =>
    let (v, bad, d) := l1Load s.d (coreOf s.hid) pa n (lineSide side leaf)
    if bad then .error (.trap Cause.access va) else .ok (BitVec.ofNat 64 v, { s with d := d })
  | .dev pa _ =>
    if inMgmt pa then .ok (windowLoad s.d pa n, s)
    else if inHbm pa then
      let (v, bad, d) := homeLoad s.d (layerOf s.hid) pa n
      if bad then .error (.trap Cause.access va) else .ok (BitVec.ofNat 64 v, { s with d := d })
    else
      let (k, s) := s.draw
      .ok (BitVec.ofNat 64 (hostBytes k pa n), s)

/-- Whether two places share a byte, and how far the second starts above the first. -/
def placeOffset (a b : Place) : Option Int :=
  match a, b with
  | .spad x, .spad y => some ((y : Int) - x)
  | .mem x _, .mem y _ => some ((y : Int) - x)
  | _, _ => none

/-- The bytes of a load at `pl`, with those that the window's stores have written over them, newest last (R40, R41). -/
def forward (l : List PendingStore) (pl : Place) (n : Nat) (v : Word) : Word :=
  l.foldl (init := v) fun v p =>
    match placeOffset pl p.place with
    | none => v
    | some o => (List.range p.n).foldl (init := v) fun v (i : Nat) =>
        if 0 ≤ o + (i : Int) ∧ o + (i : Int) < n then putBits v (8 * (o + (i : Int)).toNat) (p.v.extractLsb' (8 * i) 8) else v

/-- A plain store of the hart, performed now, is younger than the stores that its window holds: they carry its bytes on when they are performed (R40, R41). -/
def patchHeld (s : State) (pl : Place) (n : Nat) (v : Word) : State :=
  { s with h := { s.h with mstage := { s.h.mstage with
      stores := s.h.mstage.stores.map fun p => { p with v := forward [{ va := p.va, place := pl, n := n, v := v }] p.place p.n p.v } } } }

/-- Write the low `n` bytes of `v`, up to 8, at a place already checked; a busy swatch makes the write wait (R254). -/
def writePlace (s : State) (pl : Place) (n : Nat) (v : Word) (side : Nat) : Except Stop State :=
  let s := patchHeld s pl n v
  match pl with
  | .spad off => if swBusy s.c off n then .error (.wait .swatch) else .ok (spadWrite s off n v.toNat)
  | .mem pa leaf => .ok { s with d := l1Store s.d (coreOf s.hid) pa n (v.toNat % 2 ^ (8 * n)) (lineSide side leaf) }
  | .dev pa _ =>
    if inMgmt pa then .ok (windowStore s pa n v)
    else if inHbm pa then .ok { s with d := homeStore s.d (layerOf s.hid) pa n v.toNat }
    else .ok s

/-- Read at a place for a plain load of the hart, which finds the stores that its window still holds (R40, R41). -/
def readOwn (s : State) (pl : Place) (va : Word) (n side : Nat) : Except Stop (Word × State) :=
  (readPlace s pl va n side).map fun r => (forward s.h.mstage.stores pl n r.1, r.2)

/-- Load `n` bytes at `va` (R73), zero-extended. -/
def load (s : State) (va : Word) (n side : Nat) : Except Stop (Word × State) :=
  match place s .load va n with
  | .error e => .error e
  | .ok (pl, s) => readOwn s pl va n side

/-- Store `n` bytes at `va` (R73). -/
def store (s : State) (va : Word) (n : Nat) (v : Word) (side : Nat) : Except Stop State :=
  match place s .store va n with
  | .error e => .error e
  | .ok (pl, s) => writePlace s pl n v side

/-- A scalar store (R73): while a convoy of `MMETA` words is open, the hart's window holds it, up to 32 of them; one more must wait for the older
matrix words, and so closes the convoy (R41, R310; log 24). -/
def scalarStore (s : State) (va : Word) (n : Nat) (v : Word) : Except Stop State :=
  match place s .store va n with
  | .error e => .error e
  | .ok (pl, s) =>
    if s.h.mstage.isOpen then
      match pl with
      | .dev _ _ => writePlace s pl n v 0
      | .spad off =>
        if swBusy s.c off n then .error (.wait .swatch)
        else if s.h.mstage.stores.length < 32 then .ok (hold s pl) else writePlace (closeStage s) pl n v 0
      | .mem _ _ => if s.h.mstage.stores.length < 32 then .ok (hold s pl) else writePlace (closeStage s) pl n v 0
    else writePlace s pl n v 0
where
  /-- The store joins the window. -/
  hold (s : State) (pl : Place) : State :=
    { s with h := { s.h with mstage := { s.h.mstage with stores := s.h.mstage.stores ++ [{ va := va, place := pl, n := n, v := v }] } } }

/-- Fetch the word at `va` now (R155 check 1). -/
def fetchNow (s : State) (va : Word) : Except Stop (Insn × State) :=
  match place s .fetch va 4 with
  | .error e => .error e
  | .ok (pl, s) =>
    match readPlace s pl va 4 0 with
    | .error e => .error e
    | .ok (w, s) => .ok (w.setWidth 32, s)

/-- The hart has fetched the word at `va` early, under the translation that holds now (R460). -/
def EarlyWord.serves (e : EarlyWord) (h : Hart) (va : Word) : Bool :=
  e.addr == va && e.ptroot == h.ptroot && e.asid == h.asid && e.prv == h.prv

/-- The word at `va`, fetched early or now (R460). -/
def fetch (s : State) (va : Word) : Except Stop (Insn × State) :=
  match s.h.early.find? fun e => e.serves s.h va with
  | some e => .ok (e.word, s)
  | none => fetchNow s va

/-- The hart fetches the word at `va` before the words older than it complete (R460); a fetch that fails is made again in its turn. -/
def fetchEarly (va : Word) (s : State) : State :=
  if !s.h.live || s.h.halted then s
  else
    match fetchNow s va with
    | .error _ => s
    | .ok (w, t) =>
      let e : EarlyWord := { addr := va, ptroot := s.h.ptroot, asid := s.h.asid, prv := s.h.prv, word := w }
      { t with h := { t.h with early := e :: t.h.early.filter fun x => !x.serves t.h va } }

/-- Read `k` words of 8 bytes from `va` up through one checked place each, as one record: word i in bits [64 i + 63 : 64 i]. -/
def loadWords (s : State) (va : Word) (side : Nat) : Nat → Except Stop (Nat × State)
  | 0 => .ok (0, s)
  | n + 1 =>
    match load s va 8 side with
    | .error e => .error e
    | .ok (w, s) =>
      match loadWords s (va + 8) side n with
      | .error e => .error e
      | .ok (r, s) => .ok (w.toNat + 2 ^ 64 * r, s)

/-- Read a record of `n` 8-byte words as one access aligned to its size (R287): a failure reports the record's address. -/
def loadRecord (s : State) (va : Word) (n : Nat) : Except Stop (Nat × State) :=
  match place s .load va (8 * n) with
  | .error e => .error e
  | .ok _ =>
    match loadWords s va 0 n with
    | .error (.trap c _) => .error (.trap c va)
    | .error e => .error e
    | .ok r => .ok r

/-! ## Atomics and synchronising accesses -/

/-- A SYNC page refuses the scope (R346, R363). -/
def scopeRefused (leaf : Word) (sc : Nat) : Bool := bit leaf 12 && decide (sc < bits leaf 15 13)

/-- The domain's copy of a line leaves for another place: the line if it is there, and the state without it; a locked way stays without data (R360, R241). -/
def giveUp (d : Device) (q pa : Nat) : Option Line × Device :=
  let key := setKey d q pa
  match lineOf (sget d.l1 key []) (pa / 128) with
  | none => (none, d)
  | some l =>
    let ls := (sget d.l1 key []).filterMap fun x =>
      if x.tag != l.tag then some x else if x.locks.isEmpty then none else some { x.clean with valid := false }
    (if l.valid then some l else none, { d with l1 := sput d.l1 key ls })

/-- Dirty sectors of `o` written over `l` (R360). -/
def mergeDirty (l o : Line) : Line :=
  (List.range 4).foldl (init := l) fun l i =>
    if o.dirty.getLsbD i then
      { l with data := putBits l.data (256 * i) (o.sector i), dirty := l.dirty ||| (1#4 <<< i),
               poison := match sfind o.poison i with
                 | some m => sput l.poison i m
                 | none => sdel l.poison i }
    else l

/-- Drop the L1 domain's copy of a line, writing its dirty sectors back first (R274, R333). -/
def dropLine (d : Device) (core pa : Nat) : Device :=
  let q := domainCore d core pa
  match giveUp d q pa with
  | (some l, d) => writeBack d q l
  | (none, d) => d

/-- Where an atomic or synchronising access of scope `sc` to device memory executes (R283, R360). -/
inductive AtomPlace where
  /-- The L1 of this core holds the line. -/
  | slice (q : Nat)
  /-- The home, or the base die of a compressed page. -/
  | home
deriving DecidableEq, Repr

/-- The place, with the line brought there from the hart's own domain, and to the home also from the slice where the core's cluster-scope operations
left it. A slice outside the own domain takes the line anew from its home, which has what the hart released before (R40, R333, R360; log 27). -/
def atomPlace (d : Device) (core pa sc : Nat) (ptr : Bool) : AtomPlace × Device :=
  let own := domainCore d core pa
  if sc ≤ 1 then
    match obtain d own pa ptr with
    | (some _, d) => (.slice own, d)
    | (none, d) => (.home, d)
  else
    let q := core / 4 * 4 + pa / 128 % 4
    if sc = 2 ∧ own = q then
      match obtain d own pa ptr with
      | (some _, d) => (.slice own, d)
      | (none, d) => (.home, d)
    else
      let (o, d) := giveUp (if sc = 2 then d else sendAway d own pa) own pa
      if sc = 2 then
        match obtain (dropLine d q pa) q pa ptr with
        | (some l, d) =>
          match o with
          | some o => (.slice q, putLine d (setKey d q pa) (mergeDirty l o))
          | none => (.slice q, d)
        | (none, d) =>
          match o with
          | some o => (.home, request (writeBack d own o) (coreLayer core) pa)
          | none => (.home, d)
      else
        match o with
        | some o => (.home, request (writeBack d own o) (coreLayer core) pa)
        | none => (.home, d)

/-- An operation at a slice outside the hart's own domain leaves its line dirty there (R344), marked for the core's later accesses and releases (log 27). -/
def markAway (d : Device) (core q pa : Nat) : Device :=
  if domainCore d core pa = q then d
  else editLine d (setKey d q pa) (pa / 128) fun l => if l.dirty = 0 then l else { l with atom := l.atom ||| (1#4 <<< (core % 4)) }

/-- Read `n` bytes, then write what `f` gives, indivisibly at the place of scope `sc` (R358, R360): the old value, or `ACCESS` for poison. -/
def atomicMem (s : State) (va : Word) (pa n sc : Nat) (leaf : Word) (f : Nat → Option Nat) : Except Stop (Nat × State) :=
  let core := coreOf s.hid
  let (p, d) := atomPlace s.d core pa sc (lineSide 0 leaf)
  match p with
  | .slice q =>
    match obtain d q pa (lineSide 0 leaf) with
    | (some l, d) =>
      if linePoisoned l pa n then .error (.trap Cause.access va)
      else
        let m := (l.data >>> (8 * (pa % 128))).toNat % 2 ^ (8 * n)
        match f m with
        | some v => .ok (m, { s with d := markAway (putLine d (setKey d q pa) (l.store pa n v)) core q pa })
        | none => .ok (m, { s with d := markAway d core q pa })
    | (none, _) => .error (.trap Cause.access va)
  | .home =>
    let (m, bad, d) := homeLoad d (coreLayer core) pa n
    if bad then .error (.trap Cause.access va)
    else
      match f m with
      | some v => .ok (m, { s with d := homeStore d (coreLayer core) pa n v })
      | none => .ok (m, { s with d := d })

/-- How an access of too narrow a scope stops (R155, R363): `ACCESS` for poison comes first. -/
def refusal (s : State) (va : Word) (pa n sc : Nat) (leaf : Word) : Stop :=
  match atomicMem s va pa n sc leaf fun _ => none with
  | .error e => e
  | .ok _ => .trap Cause.scopeMiss va

/-- The same on scratchpad, in the bank's ALU (R235); a write to a busy swatch waits (R254). -/
def atomicSpad (s : State) (va : Word) (off n : Nat) (f : Nat → Option Nat) : Except Stop (Nat × State) :=
  if spadPoisoned s.c off n then .error (.trap Cause.access va)
  else
    let m := Memory.read s.c.spad off n
    match f m with
    | some v => if swBusy s.c off n then .error (.wait .swatch) else .ok (m, spadWrite s off n v)
    | none => .ok (m, s)

/-- An `AMO` or `AMO2` of scope `sc` on `n` bytes (R358): checks with alignment `n`, KIND = 1 refused, scope refused, then the update. -/
def atomic (s : State) (va : Word) (n sc : Nat) (f : Nat → Option Nat) : Except Stop (Nat × State) :=
  match place s .atomic va n with
  | .error e => .error e
  | .ok (.spad off, s) => atomicSpad s va off n f
  | .ok (.dev _ _, _) => .error (.trap Cause.access va)
  | .ok (.mem pa leaf, s) => if scopeRefused leaf sc then .error (refusal s va pa n sc leaf) else atomicMem s va pa n sc leaf f

/-- A `LDACQ` read at its place (R362). -/
def syncLoad (s : State) (va : Word) (n sc : Nat) : Except Stop (Nat × State) :=
  match place s .load va n with
  | .error e => .error e
  | .ok (.spad off, s) => atomicSpad s va off n fun _ => none
  | .ok (.dev pa leaf, s) =>
    if scopeRefused leaf sc then .error (if inHbm pa && homePoisoned s.d pa n then .trap Cause.access va else .trap Cause.scopeMiss va)
    else
      match readPlace s (.dev pa leaf) va n 0 with
      | .error e => .error e
      | .ok (v, t) => .ok (v.toNat, t)
  | .ok (.mem pa leaf, s) =>
    if scopeRefused leaf sc then .error (refusal s va pa n sc leaf) else atomicMem s va pa n sc leaf fun _ => none

/-- The store of a `STREL` at its place, after its release (R362); the line's other bytes are the place's. -/
def syncStore (s : State) (va : Word) (n sc : Nat) (v : Word) : Except Stop State :=
  match place s .store va n with
  | .error e => .error e
  | .ok (.spad off, s) => writePlace (s.release sc) (.spad off) n v 0
  | .ok (.dev pa leaf, s) =>
    if scopeRefused leaf sc then .error (.trap Cause.scopeMiss va)
    else writePlace (s.release sc) (.dev pa leaf) n v 0
  | .ok (.mem pa leaf, s) =>
    if scopeRefused leaf sc then .error (.trap Cause.scopeMiss va)
    else
      let s := s.release sc
      let core := coreOf s.hid
      let w := v.toNat % 2 ^ (8 * n)
      let (p, d) := atomPlace s.d core pa sc (lineSide 0 leaf)
      match p with
      | .slice q =>
        match obtain d q pa (lineSide 0 leaf) with
        | (some l, d) => .ok { s with d := markAway (putLine d (setKey d q pa) (l.store pa n w)) core q pa }
        | (none, d) => .ok { s with d := homeStore d (coreLayer core) pa n w }
      | .home => .ok { s with d := homeStore d (coreLayer core) pa n w }

end Sys2Proof.Machine
end

