-- ==== Sys2Proof/Machine/Scalar.lean ====
section
/-!
DEFINITION. Scalar instructions: integer, immediate, load and store, floating point, branches and jumps
(04_scalar_instructions.md, R66-R86).
-/

namespace Sys2Proof.Machine

/-- x[d] := `v`, and the word completes. -/
def put (d : BitVec 6) (v : Word) (s : State) : Out := .next (done (wx s d v))

/-- x[d] := f(x[a], x[b]) (R66). -/
def alu (f : Word → Word → Word) (d a b : BitVec 6) (s : State) : Out := put d (f (rx s a) (rx s b)) s

/-- x[d] := the 32-bit result of f on the low halves, sign-extended (R68). -/
def aluW (f : BitVec 32 → BitVec 32 → BitVec 32) (d a b : BitVec 6) (s : State) : Out :=
  put d ((f ((rx s a).setWidth 32) ((rx s b).setWidth 32)).signExtend 64) s

/-- Signed quotient: a zero divisor saturates towards the sign of the dividend (R67). -/
def divS {w : Nat} (a b : BitVec w) : BitVec w :=
  if b = 0 then (if a = 0 then 0 else if a.msb then BitVec.intMin w else BitVec.intMax w) else a.sdiv b

/-- Unsigned quotient: a zero divisor saturates (R67). -/
def divU {w : Nat} (a b : BitVec w) : BitVec w :=
  if b = 0 then (if a = 0 then 0 else BitVec.allOnes w) else a / b

/-- Signed remainder: the dividend for a zero divisor (R67). -/
def remS {w : Nat} (a b : BitVec w) : BitVec w := if b = 0 then a else a.srem b

/-- Unsigned remainder: the dividend for a zero divisor (R67). -/
def remU {w : Nat} (a b : BitVec w) : BitVec w := if b = 0 then a else a % b

/-- Leading zeros among the low `n` bits. -/
def leadZeros {w : Nat} (x : BitVec w) : Nat → Nat
  | 0 => 0
  | n + 1 => if x.getLsbD n then 0 else leadZeros x n + 1

/-- Trailing zeros among bits k .. k + n - 1. -/
def trailZeros {w : Nat} (x : BitVec w) (k : Nat) : Nat → Nat
  | 0 => 0
  | n + 1 => if x.getLsbD k then 0 else trailZeros x (k + 1) n + 1

/-- The eight bytes in reverse order. -/
def byteSwap (x : Word) : Word :=
  (List.range 8).foldl (fun r i => r ||| (((x.extractLsb' (8 * i) 8).setWidth 64) <<< (8 * (7 - i)))) 0

/-- Bits [127:64] of a product of integers. -/
def highMul (a b : Int) : Word := BitVec.ofInt 64 (a * b / 2 ^ 64)


/-- `ADD` (R66). -/
def execAdd (d a b : BitVec 6) (s : State) : Out := alu (fun x y => x + y) d a b s

/-- `SUB` (R66). -/
def execSub (d a b : BitVec 6) (s : State) : Out := alu (fun x y => x - y) d a b s

/-- `AND` (R66). -/
def execAndR (d a b : BitVec 6) (s : State) : Out := alu (fun x y => x &&& y) d a b s

/-- `OR` (R66). -/
def execOrR (d a b : BitVec 6) (s : State) : Out := alu (fun x y => x ||| y) d a b s

/-- `XOR` (R66). -/
def execXorR (d a b : BitVec 6) (s : State) : Out := alu (fun x y => x ^^^ y) d a b s

/-- `SLL` (R66). -/
def execSll (d a b : BitVec 6) (s : State) : Out := alu (fun x y => x <<< (y.toNat % 64)) d a b s

/-- `SRL` (R66). -/
def execSrl (d a b : BitVec 6) (s : State) : Out := alu (fun x y => x >>> (y.toNat % 64)) d a b s

/-- `SRA` (R66). -/
def execSra (d a b : BitVec 6) (s : State) : Out := alu (fun x y => x.sshiftRight (y.toNat % 64)) d a b s

/-- `SLT` (R66). -/
def execSlt (d a b : BitVec 6) (s : State) : Out := alu (fun x y => boolWord (x.slt y)) d a b s

/-- `SLTU` (R66). -/
def execSltu (d a b : BitVec 6) (s : State) : Out := alu (fun x y => boolWord (x.ult y)) d a b s

/-- `MIN` (R66). -/
def execMin (d a b : BitVec 6) (s : State) : Out := alu (fun x y => if y.slt x then y else x) d a b s

/-- `MAX` (R66). -/
def execMax (d a b : BitVec 6) (s : State) : Out := alu (fun x y => if x.slt y then y else x) d a b s

/-- `MINU` (R66). -/
def execMinu (d a b : BitVec 6) (s : State) : Out := alu (fun x y => if y.ult x then y else x) d a b s

/-- `MAXU` (R66). -/
def execMaxu (d a b : BitVec 6) (s : State) : Out := alu (fun x y => if x.ult y then y else x) d a b s

/-- `ANDN` (R66). -/
def execAndn (d a b : BitVec 6) (s : State) : Out := alu (fun x y => x &&& ~~~y) d a b s

/-- `ABSD` (R66). -/
def execAbsd (d a b : BitVec 6) (s : State) : Out := alu (fun x y => if x.slt y then y - x else x - y) d a b s

/-- `MUL` (R66). -/
def execMul (d a b : BitVec 6) (s : State) : Out := alu (fun x y => x * y) d a b s

/-- `HMUL` (R66). -/
def execHmul (d a b : BitVec 6) (s : State) : Out := alu (fun x y => highMul x.toInt y.toInt) d a b s

/-- `HMULU` (R66). -/
def execHmulu (d a b : BitVec 6) (s : State) : Out := alu (fun x y => highMul x.toNat y.toNat) d a b s

/-- `HMULSU` (R66). -/
def execHmulsu (d a b : BitVec 6) (s : State) : Out := alu (fun x y => highMul x.toInt y.toNat) d a b s

/-- `DIV` (R67). -/
def execDiv (d a b : BitVec 6) (s : State) : Out := alu (fun x y => divS x y) d a b s

/-- `DIVU` (R67). -/
def execDivu (d a b : BitVec 6) (s : State) : Out := alu (fun x y => divU x y) d a b s

/-- `REM` (R67). -/
def execRem (d a b : BitVec 6) (s : State) : Out := alu (fun x y => remS x y) d a b s

/-- `REMU` (R67). -/
def execRemu (d a b : BitVec 6) (s : State) : Out := alu (fun x y => remU x y) d a b s

/-- `CLZ` (R66). -/
def execClz (d a : BitVec 6) (s : State) : Out := put d (BitVec.ofNat 64 (leadZeros (rx s a) 64)) s

/-- `CTZ` (R66). -/
def execCtz (d a : BitVec 6) (s : State) : Out := put d (BitVec.ofNat 64 (trailZeros (rx s a) 0 64)) s

/-- `POPC` (R66). -/
def execPopc (d a : BitVec 6) (s : State) : Out := put d (BitVec.ofNat 64 (popCount (rx s a) 64)) s

/-- `BSWAP` (R66). -/
def execBswap (d a : BitVec 6) (s : State) : Out := put d (byteSwap (rx s a)) s

/-- `ADDW` (R68). -/
def execAddw (d a b : BitVec 6) (s : State) : Out := aluW (fun x y => x + y) d a b s

/-- `SUBW` (R68). -/
def execSubw (d a b : BitVec 6) (s : State) : Out := aluW (fun x y => x - y) d a b s

/-- `SLLW` (R68). -/
def execSllw (d a b : BitVec 6) (s : State) : Out := aluW (fun x y => x <<< (y.toNat % 32)) d a b s

/-- `SRLW` (R68). -/
def execSrlw (d a b : BitVec 6) (s : State) : Out := aluW (fun x y => x >>> (y.toNat % 32)) d a b s

/-- `SRAW` (R68). -/
def execSraw (d a b : BitVec 6) (s : State) : Out := aluW (fun x y => x.sshiftRight (y.toNat % 32)) d a b s

/-- `MULW` (R68). -/
def execMulw (d a b : BitVec 6) (s : State) : Out := aluW (fun x y => x * y) d a b s

/-- `DIVW` (R68). -/
def execDivw (d a b : BitVec 6) (s : State) : Out := aluW (fun x y => divS x y) d a b s

/-- `DIVUW` (R68). -/
def execDivuw (d a b : BitVec 6) (s : State) : Out := aluW (fun x y => divU x y) d a b s

/-- `REMW` (R68). -/
def execRemw (d a b : BitVec 6) (s : State) : Out := aluW (fun x y => remS x y) d a b s

/-- `REMUW` (R68). -/
def execRemuw (d a b : BitVec 6) (s : State) : Out := aluW (fun x y => remU x y) d a b s

/-! ## Immediates -/

/-- `ADDI` (R69). -/
def execAddi (d a : BitVec 6) (im : BitVec 12) (s : State) : Out := put d (rx s a + im.signExtend 64) s

/-- `ADDIW` (R69). -/
def execAddiw (d a : BitVec 6) (im : BitVec 12) (s : State) : Out := put d (sext32 (rx s a + im.signExtend 64)) s

/-- `ANDI` (R69). -/
def execAndi (d a : BitVec 6) (im : BitVec 12) (s : State) : Out := put d (rx s a &&& im.signExtend 64) s

/-- `ORI` (R69). -/
def execOri (d a : BitVec 6) (im : BitVec 12) (s : State) : Out := put d (rx s a ||| im.signExtend 64) s

/-- `XORI` (R69). -/
def execXori (d a : BitVec 6) (im : BitVec 12) (s : State) : Out := put d (rx s a ^^^ im.signExtend 64) s

/-- `SLTI` (R69). -/
def execSlti (d a : BitVec 6) (im : BitVec 12) (s : State) : Out := put d (boolWord ((rx s a).slt (im.signExtend 64))) s

/-- `SLTIU` (R69). -/
def execSltiu (d a : BitVec 6) (im : BitVec 12) (s : State) : Out := put d (boolWord ((rx s a).ult (im.signExtend 64))) s

/-- `SLLI` (R70). -/
def execSlli (d a sf : BitVec 6) (s : State) : Out := put d (rx s a <<< sf.toNat) s

/-- `SRLI` (R70). -/
def execSrli (d a sf : BitVec 6) (s : State) : Out := put d (rx s a >>> sf.toNat) s

/-- `SRAI` (R70). -/
def execSrai (d a sf : BitVec 6) (s : State) : Out := put d ((rx s a).sshiftRight sf.toNat) s

/-- `SLLIW` (R70). -/
def execSlliw (d a : BitVec 6) (sf : BitVec 5) (s : State) : Out := put d (((rx s a).setWidth 32 <<< sf.toNat).signExtend 64) s

/-- `SRLIW` (R70). -/
def execSrliw (d a : BitVec 6) (sf : BitVec 5) (s : State) : Out := put d (((rx s a).setWidth 32 >>> sf.toNat).signExtend 64) s

/-- `SRAIW` (R70). -/
def execSraiw (d a : BitVec 6) (sf : BitVec 5) (s : State) : Out := put d ((((rx s a).setWidth 32).sshiftRight sf.toNat).signExtend 64) s

/-- The value that R47 builds from imm18. -/
def upper (im : BitVec 18) : Word := (im ++ 0#12).signExtend 64

/-- `LUI` (R71). -/
def execLui (d : BitVec 6) (im : BitVec 18) (s : State) : Out := put d (upper im) s

/-- `AUIPC` (R71). -/
def execAuipc (d : BitVec 6) (im : BitVec 18) (s : State) : Out := put d (s.h.pc + upper im) s

/-! ## Loads and stores -/

/-- A scalar load word of `n` bytes, extended by `ext` (R72, R73): nothing changes if it stops. -/
def loadWord (n : Nat) (ext : Word → Word) (d a : BitVec 6) (im : BitVec 9) (s : State) : Out :=
  settle s <|
    match load s (rx s a + im.signExtend 64) n 0 with
    | .error e => .error e
    | .ok (v, t) => .ok (wx t d (ext v))

/-- A scalar store word of the low `n` bytes of x[b] (R72, R73). -/
def storeWord (n : Nat) (b a : BitVec 6) (im : BitVec 9) (s : State) : Out :=
  settle s (scalarStore s (rx s a + im.signExtend 64) n (rx s b))

/-- `LB` (R72). -/
def execLb (d a : BitVec 6) (im : BitVec 9) (s : State) : Out := loadWord 1 (fun v => (v.setWidth 8).signExtend 64) d a im s

/-- `LH` (R72). -/
def execLh (d a : BitVec 6) (im : BitVec 9) (s : State) : Out := loadWord 2 (fun v => (v.setWidth 16).signExtend 64) d a im s

/-- `LW` (R72). -/
def execLw (d a : BitVec 6) (im : BitVec 9) (s : State) : Out := loadWord 4 sext32 d a im s

/-- `LD` (R72). -/
def execLd (d a : BitVec 6) (im : BitVec 9) (s : State) : Out := loadWord 8 id d a im s

/-- `LBU` (R72). -/
def execLbu (d a : BitVec 6) (im : BitVec 9) (s : State) : Out := loadWord 1 id d a im s

/-- `LHU` (R72). -/
def execLhu (d a : BitVec 6) (im : BitVec 9) (s : State) : Out := loadWord 2 id d a im s

/-- `LWU` (R72). -/
def execLwu (d a : BitVec 6) (im : BitVec 9) (s : State) : Out := loadWord 4 id d a im s

/-- `SB` (R72). -/
def execSb (b a : BitVec 6) (im : BitVec 9) (s : State) : Out := storeWord 1 b a im s

/-- `SH` (R72). -/
def execSh (b a : BitVec 6) (im : BitVec 9) (s : State) : Out := storeWord 2 b a im s

/-- `SW` (R72). -/
def execSw (b a : BitVec 6) (im : BitVec 9) (s : State) : Out := storeWord 4 b a im s

/-- `SD` (R72). -/
def execSd (b a : BitVec 6) (im : BitVec 9) (s : State) : Out := storeWord 8 b a im s

/-! ## Floating point -/

/-- The format code that F names (R75). -/
def floatFmt (p : BitVec 2) : Fmt := if p = 0 then Fmts.fp32 else if p = 1 then Fmts.fp64 else Fmts.fp16

/-- The value that an x register holds in format F (R75). -/
def floatVal (p : BitVec 2) (x : Word) : Val := codeVal (floatFmt p) x.toNat

/-- Round by FCSR.RM into format F, set the flags, write x[d], and complete (R75, R76). -/
def putFloat (p : BitVec 2) (mode : Mode) (d : BitVec 6) (r : Val × Flags) (s : State) : Out :=
  let (c, f) := binConvert (binOf (floatFmt p)) mode false r.1
  .next (done (wx (s.flags (r.2 ||| f)) d (BitVec.ofNat 64 c)))

/-- A floating-point operation on two values (R77). -/
def fpu (f : Val → Val → Val × Flags) (d a b : BitVec 6) (p : BitVec 2) (s : State) : Out :=
  putFloat p s.h.rm d (f (floatVal p (rx s a)) (floatVal p (rx s b))) s

/-- The code of the smaller (or larger) operand of FMIN and FMAX (R78): −0 lies below +0; one NaN gives the other operand. -/
def pickCode (b : Bin) (larger : Bool) (x y : Nat) : Nat × Flags :=
  let u := binVal b x
  let v := binVal b y
  let f := nvIf (u.sig || v.sig)
  if u.isNan && v.isNan then (b.nanCode, f)
  else if u.isNan then (y, f)
  else if v.isNan then (x, f)
  else
    let xBelow := u.lt v || (u.eq v && u.neg && !v.neg)
    ((if xBelow != larger then x else y), f)

/-- A comparison (R77, R78): 0 for any NaN; `quiet` comparisons set NV on signalling NaNs only. -/
def fcmp (quiet : Bool) (f : Val → Val → Bool) (d a b : BitVec 6) (p : BitVec 2) (s : State) : Out :=
  let u := floatVal p (rx s a)
  let v := floatVal p (rx s b)
  let nan := u.isNan || v.isNan
  .next (done (wx (s.flags (nvIf (if quiet then u.sig || v.sig else nan))) d (boolWord (!nan && f u v))))

/-- The class code of R78. -/
def classCode (b : Bin) (c : Nat) : Nat :=
  let neg := if c / 2 ^ b.sbit % 2 = 1 then 8 else 0
  match binVal b c with
  | .nan s => neg + (if s then 5 else 4)
  | .inf _ => neg + 3
  | .fin _ n d =>
    let kind := if n = 0 then 0 else if c / 2 ^ b.p % 2 ^ b.e = 0 then 1 else 2
    neg + kind + (if n % d = 0 then 16 else 0)

/-- Sign injection (R78): the magnitude of a with a sign. -/
def fsgn (f : Bool → Bool → Bool) (d a b : BitVec 6) (p : BitVec 2) (s : State) : Out :=
  let l := binOf (floatFmt p)
  let x := (rx s a).toNat % 2 ^ (l.sbit + 1)
  let y := (rx s b).toNat
  put d (BitVec.ofNat 64 (l.signed (f (x.testBit l.sbit) (y.testBit l.sbit)) (x % 2 ^ l.sbit))) s

/-- The rounding mode of a static field: 7 is FCSR.RM (R79, R203). -/
def modeOf (r : BitVec 3) (h : Hart) : Mode := if r = 7 then h.rm else r

/-- FMIN and FMAX. -/
def fpick (larger : Bool) (d a b : BitVec 6) (p : BitVec 2) (s : State) : Out :=
  let l := binOf (floatFmt p)
  let (c, f) := pickCode l larger ((rx s a).toNat % 2 ^ (l.sbit + 1)) ((rx s b).toNat % 2 ^ (l.sbit + 1))
  .next (done (wx (s.flags f) d (BitVec.ofNat 64 c)))

/-- ±(a × b) ± d, computed exactly and rounded once (R80). -/
def fma (np nd : Bool) (d a b : BitVec 6) (p : BitVec 2) (s : State) : Out :=
  let (x, f) := (floatVal p (rx s a)).mul (floatVal p (rx s b))
  let z := floatVal p (rx s d)
  let (y, g) := Val.add s.h.rm (if np then x.negate else x) (if nd then z.negate else z)
  putFloat p s.h.rm d (y, f ||| g) s

/-- The integer type T of R79: signed, and its width. -/
def intType (t : BitVec 2) : Bool × Nat := (!bit t 0, if bit t 1 then 64 else 32)

/-- `FADD` (R77). -/
def execFadd (d a b : BitVec 6) (p : BitVec 2) (s : State) : Out := fpu (fun x y => Val.add s.h.rm x y) d a b p s

/-- `FSUB` (R77). -/
def execFsub (d a b : BitVec 6) (p : BitVec 2) (s : State) : Out := fpu (fun x y => Val.add s.h.rm x y.negate) d a b p s

/-- `FMUL` (R77). -/
def execFmul (d a b : BitVec 6) (p : BitVec 2) (s : State) : Out := fpu Val.mul d a b p s

/-- `FDIV` (R77). -/
def execFdiv (d a b : BitVec 6) (p : BitVec 2) (s : State) : Out := fpu Val.div d a b p s

/-- `FSQRT` (R77). -/
def execFsqrt (d a : BitVec 6) (p : BitVec 2) (s : State) : Out := putFloat p s.h.rm d (Val.sqrt (binOf (floatFmt p)).p (floatVal p (rx s a))) s

/-- `FMIN` (R78). -/
def execFmin (d a b : BitVec 6) (p : BitVec 2) (s : State) : Out := fpick false d a b p s

/-- `FMAX` (R78). -/
def execFmax (d a b : BitVec 6) (p : BitVec 2) (s : State) : Out := fpick true d a b p s

/-- `FEQ` (R77). -/
def execFeq (d a b : BitVec 6) (p : BitVec 2) (s : State) : Out := fcmp true Val.eq d a b p s

/-- `FLT` (R77). -/
def execFlt (d a b : BitVec 6) (p : BitVec 2) (s : State) : Out := fcmp false Val.lt d a b p s

/-- `FLE` (R77). -/
def execFle (d a b : BitVec 6) (p : BitVec 2) (s : State) : Out := fcmp false (fun u v => !v.lt u) d a b p s

/-- `FCLASS` (R78). -/
def execFclass (d a : BitVec 6) (p : BitVec 2) (s : State) : Out :=
  put d (BitVec.ofNat 64 (classCode (binOf (floatFmt p)) ((rx s a).toNat % 2 ^ fmtBits (floatFmt p)))) s

/-- `FSGNJ` (R77). -/
def execFsgnj (d a b : BitVec 6) (p : BitVec 2) (s : State) : Out := fsgn (fun _ y => y) d a b p s

/-- `FSGNJN` (R77). -/
def execFsgnjn (d a b : BitVec 6) (p : BitVec 2) (s : State) : Out := fsgn (fun _ y => !y) d a b p s

/-- `FSGNJX` (R77). -/
def execFsgnjx (d a b : BitVec 6) (p : BitVec 2) (s : State) : Out := fsgn (fun x y => x != y) d a b p s

/-- `FCVTIF` (R79). -/
def execFcvtif (d a : BitVec 6) (r : BitVec 3) (t p : BitVec 2) (s : State) : Out :=
  let (sg, n) := intType t
  let (c, f) := intConvert sg n (modeOf r s.h) (floatVal p (rx s a))
  let v : Word := BitVec.ofNat 64 c
  .next (done (wx (s.flags f) d (if t = 0 then sext32 v else v)))

/-- `FCVTFI` (R79). -/
def execFcvtfi (d a : BitVec 6) (r : BitVec 3) (t p : BitVec 2) (s : State) : Out :=
  let (sg, n) := intType t
  putFloat p (modeOf r s.h) d (intVal sg n (rx s a).toNat, 0) s

/-- `FCVTFF` (R79). -/
def execFcvtff (d a : BitVec 6) (r : BitVec 3) (sf p : BitVec 2) (s : State) : Out :=
  if sf = p then .next (illegal s (0x0F00000F#32 ||| fld d 18 ||| fld a 12 ||| fld r 9 ||| fld sf 7 ||| fld p 4))
  else
    let v := floatVal sf (rx s a)
    putFloat p (modeOf r s.h) d (v, 0) s

/-- `FMADD` (R80). -/
def execFmadd (d a b : BitVec 6) (p : BitVec 2) (s : State) : Out := fma false false d a b p s

/-- `FMSUB` (R80). -/
def execFmsub (d a b : BitVec 6) (p : BitVec 2) (s : State) : Out := fma false true d a b p s

/-- `FNMADD` (R80). -/
def execFnmadd (d a b : BitVec 6) (p : BitVec 2) (s : State) : Out := fma true true d a b p s

/-- `FNMSUB` (R80). -/
def execFnmsub (d a b : BitVec 6) (p : BitVec 2) (s : State) : Out := fma true false d a b p s

/-! ## Branches and jumps -/

/-- The address `off` words from the word at the pc (R47). -/
def target {n : Nat} (s : State) (o : BitVec n) : Word := s.h.pc + 4 * o.signExtend 64

/-- A conditional branch (R81). -/
def branch (c : Word → Word → Bool) (a b : BitVec 6) (o : BitVec 12) (s : State) : Out :=
  .next (if c (rx s a) (rx s b) then doneAt s (target s o) else done s)

/-- The number of set bits among bits 0 to VL - 1 of k[m] (R85). -/
def maskCount (h : Hart) (m : BitVec 3) : Nat := popCount h.k[m.toNat] h.vl.toNat

/-- A branch on a mask register (R85). -/
def branchMask (taken : Nat → Bool) (m : BitVec 3) (o : BitVec 12) (s : State) : Out :=
  .next (if taken (maskCount s.h m) then doneAt s (target s o) else done s)

/-- `BEQ` (R81). -/
def execBeq (a b : BitVec 6) (o : BitVec 12) (s : State) : Out := branch (fun x y => x == y) a b o s

/-- `BNE` (R81). -/
def execBne (a b : BitVec 6) (o : BitVec 12) (s : State) : Out := branch (fun x y => x != y) a b o s

/-- `BLT` (R81). -/
def execBlt (a b : BitVec 6) (o : BitVec 12) (s : State) : Out := branch (fun x y => x.slt y) a b o s

/-- `BGE` (R81). -/
def execBge (a b : BitVec 6) (o : BitVec 12) (s : State) : Out := branch (fun x y => !x.slt y) a b o s

/-- `BLTU` (R81). -/
def execBltu (a b : BitVec 6) (o : BitVec 12) (s : State) : Out := branch (fun x y => x.ult y) a b o s

/-- `BGEU` (R81). -/
def execBgeu (a b : BitVec 6) (o : BitVec 12) (s : State) : Out := branch (fun x y => !x.ult y) a b o s

/-- `JAL` (R82). -/
def execJal (d : BitVec 6) (o : BitVec 18) (s : State) : Out := .next (doneAt (wx s d (s.h.pc + 4)) (target s o))

/-- `JALR` (R82). -/
def execJalr (d a : BitVec 6) (im : BitVec 12) (s : State) : Out :=
  let t := rx s a + im.signExtend 64
  if t.toNat % 4 ≠ 0 then .next (trap s Cause.misaligned t) else .next (doneAt (wx s d (s.h.pc + 4)) t)

/-- `BRV_ANY` (R85). -/
def execBrvAny (m : BitVec 3) (o : BitVec 12) (s : State) : Out := branchMask (fun n => 0 < n) m o s

/-- `BRV_NONE` (R85). -/
def execBrvNone (m : BitVec 3) (o : BitVec 12) (s : State) : Out := branchMask (fun n => n == 0) m o s

/-- `BRV_ALL` (R85). -/
def execBrvAll (m : BitVec 3) (o : BitVec 12) (s : State) : Out := branchMask (fun n => n == s.h.vl.toNat) m o s

end Sys2Proof.Machine
end

