-- ==== Sys2Proof/Machine/Operands.lean ====
section
/-!
DEFINITION. What the vector-side words share: the checks before they start, convoy membership, the element loops with their stop points,
inactive and tail elements, and the traps in the middle of a word (05_vector_instructions.md R99, R100, R116, R119-R122; 02 R22, R30, R43).
-/

namespace Sys2Proof.Machine

/-! ## Convoys -/

/-- The vector registers of a list as a set. -/
def regSet (l : List (BitVec 5)) : BitVec 32 := l.foldl (fun m r => m ||| (1#32 <<< r.toNat)) 0

/-- The mask registers of a list as a set. -/
def maskSet (l : List (BitVec 3)) : BitVec 8 := l.foldl (fun m r => m ||| (1#8 <<< r.toNat)) 0

/-- The governing mask as a register that is read: none for 0 (R28). -/
def gov (k : BitVec 3) : List (BitVec 3) := if k = 0 then [] else [k]

/-- A word as a convoy member: its class, the vector and mask registers it reads, and those it writes. -/
def Hart.member (h : Hart) (c : WordClass) (vr : List (BitVec 5)) (kr : List (BitVec 3)) (vw : List (BitVec 5)) (kw : List (BitVec 3)) : Member :=
  { cls := c, vpr := false, vl := h.vl, ew := h.vtype.setWidth 2, vr := regSet vr, vw := regSet vw, kr := maskSet kr, kw := maskSet kw, kx := 0 }

/-- Some arithmetic class. -/
def WordClass.isArith (c : WordClass) : Bool := c == .arith || c == .arithB || c == .arithBoth

/-- How many members have a class. -/
def countClass (l : List Member) (p : WordClass → Bool) : Nat := (l.filter fun m => p m.cls).length

/-- Adding the word to those it is written to join breaks R119, R120, R131 or R375. -/
def convoyBad (l : List Member) (m : Member) : Bool :=
  let g := l ++ [m]
  let arith := countClass g WordClass.isArith
  decide (1 < countClass g (· == .memory)) || decide (1 < countClass g (· == .fibre)) || decide (1 < countClass g (· == .select)) ||
    decide (2 < arith) || decide (1 < countClass g (· == .arithB)) ||
    (decide (0 < countClass g (· == .arithBoth)) && decide (1 < arith)) || decide (1 < (g.filter (·.vpr)).length) ||
    (match l with
     | [] => false
     | f :: _ => f.vl != m.vl || f.ew != m.ew) ||
    l.any fun o => m.vw &&& (o.vr ||| o.vw) != 0 || m.kw &&& (o.kr ||| o.kw) != 0 || m.kr &&& o.kx != 0

/-! ## One vector-side word -/

/-- How the body of a vector-side word ends: complete; at a stop point because an interrupt is being taken (R43); or stopped. -/
inductive VRes where
  | ok (t : State)
  | pause (t : State)
  | stop (t : State) (r : Stop)

/-- The word has completed: its successors with C = 1 are written to join it (R120). -/
def joined (cv : BitVec 1) (m : Member) (s : State) : State :=
  { s with h := { s.h with vconvoy := if cv = 1 then s.h.vconvoy ++ [m] else [m] } }

/-- The outcome of a vector-side word. One that goes up to its convoy's position is a member of it for the words after it (R122). -/
def vsettle (cv : BitVec 1) (m : Member) : VRes → Out
  | .ok t => .next (done (joined cv m t))
  | .pause t => .next (if t.h.upTo.isSome then joined cv m t else t)
  | .stop t (.trap c v) => .next (trap t c v)
  | .stop t (.wait x) => .next (await t x)

/-- A vector-side word `w`: `ILLEGAL_INSN` where `bad` or with no grant (R22, R51), then `ILLEGAL_CONVOY` (R120), then its body. -/
def vword (w : Insn) (cv : BitVec 1) (m : Member) (bad : Bool) (body : State → VRes) (s : State) : Out :=
  if s.h.g = 0 ∨ bad then .next (illegal s w)
  else if cv = 1 ∧ convoyBad s.h.vconvoy m then .next (trap s Cause.convoy (w.setWidth 64))
  else vsettle cv m (body s)

/-- A result of a checked operation as the end of a word that does everything or nothing. -/
def vwhole (s : State) : Except Stop State → VRes
  | .ok t => .ok t
  | .error e => .stop s e

/-! ## Element-wise words -/

/-- Elements in one element group at width `w` (R26). -/
def groupLen (w : Nat) : Nat := 512 / w

/-- One past the last element that a word with stop points at multiples of `e` processes before a pending interrupt is taken (R43);
a member of a convoy that stops goes up to the convoy's position (R122). -/
def elemLimit (h : Hart) (e : Nat) : Nat :=
  match h.upTo, h.stop with
  | some n, _ => min h.vl.toNat (max h.vstart.toNat n)
  | none, none => h.vl.toNat
  | none, some n => min h.vl.toNat (max h.vstart.toNat ((h.vstart.toNat / e + n) * e))

/-- VSTART := n (R30). -/
def setStart (s : State) (n : Nat) : State := { s with h := { s.h with vstart := BitVec.ofNat 11 n } }

/-- The element indices from `a` up to `b` - 1. -/
def span (a b : Nat) : List Nat := List.range' a (b - a)

/-- Zero the tail of vector register `r` at width `w` where TZ asks for it (R99). -/
def zeroTail (w : Nat) (r : BitVec 5) (h : Hart) : Hart :=
  if h.tz then (span h.vl.toNat (vlmax w h.g)).foldl (fun h e => h.setElem w r e 0) h else h

/-- Process the elements of a list: active ones by `f`, inactive ones by MZ (R99). -/
def eachElem (w : Nat) (vd : BitVec 5) (k : BitVec 3) (f : Hart → Nat → Word × Flags) (l : List Nat) (h : Hart) : Hart :=
  l.foldl (init := h) fun h e =>
    if h.active k e then
      let (x, g) := f h e
      { h.setElem w vd e x with fcsr := h.fcsr ||| g }
    else if h.mz then h.setElem w vd e 0 else h

/-- The body of an element-wise word: nothing at all when VSTART is at or above VL (R30), else elements up to the stop point,
and after the last one the tail, `fin`, and VSTART := 0. -/
def elementwise (e : Nat) (step : List Nat → Hart → Hart) (fin : Hart → Hart) (s : State) : VRes :=
  let a := s.h.vstart.toNat
  if s.h.vl.toNat ≤ a then .ok (setStart s 0)
  else
    let b := elemLimit s.h e
    let t : State := { s with h := step (span a b) s.h }
    if b < s.h.vl.toNat then .pause (setStart t b) else .ok (setStart { t with h := fin t.h } 0)

/-- An element-wise word at width VTYPE.EW with a vector destination (R99). -/
def vmap (vd : BitVec 5) (k : BitVec 3) (f : Hart → Nat → Word × Flags) (s : State) : VRes :=
  elementwise (groupLen s.h.ew) (eachElem s.h.ew vd k f) (zeroTail s.h.ew vd) s

/-! ## Mask results -/

/-- Bits lo to hi - 1. -/
def bitRange (lo hi : Nat) : BitVec 2048 := (BitVec.allOnes 2048 <<< lo) &&& ~~~(BitVec.allOnes 2048 <<< hi)

/-- Clear bits VL to 2047 of mask register `m` where TZ asks for it (R108, R109). -/
def zeroMaskTail (m : BitVec 3) (h : Hart) : Hart :=
  if h.tz then h.setK m (h.k[m.toNat] &&& bitRange 0 h.vl.toNat) else h

/-- Bit `e` of mask register `m` := `b`. -/
def setKBit (h : Hart) (m : BitVec 3) (e : Nat) (b : Bool) : Hart :=
  h.setK m (putBits h.k[m.toNat] e (BitVec.ofBool b))

/-- Process the bits of a list: active ones by `f`, inactive ones by MZ (R108). -/
def eachBit (kd k : BitVec 3) (f : Hart → Nat → Bool × Flags) (l : List Nat) (h : Hart) : Hart :=
  l.foldl (init := h) fun h e =>
    if h.active k e then
      let (x, g) := f h e
      { setKBit h kd e x with fcsr := h.fcsr ||| g }
    else if h.mz then setKBit h kd e false else h

/-- An element-wise word with a mask destination (R108). -/
def vmapMask (kd k : BitVec 3) (f : Hart → Nat → Bool × Flags) (s : State) : VRes :=
  elementwise (groupLen s.h.ew) (eachBit kd k f) (zeroMaskTail kd) s

/-! ## Words whose elements can stop -/

/-- Run `f` on the elements of a list in order. A trap at element e leaves VSTART = e with the elements before it performed (R116);
a wait leaves the state and the position at the start of the element group it falls in (R43), kept in `gs`. -/
def tryElems (grp : Nat) (f : State → Nat → Except Stop State) (gs s : State) : List Nat → VRes
  | [] => .ok s
  | e :: l =>
    let gs := if e % grp = 0 then setStart s e else gs
    match f s e with
    | .ok t => tryElems grp f gs t l
    | .error (.trap c v) => .stop (setStart s e) (.trap c v)
    | .error (.wait x) => .stop gs (.wait x)

/-- The body of an element-wise word whose elements can fail (R116): as `elementwise`. -/
def tryElementwise (grp : Nat) (f : State → Nat → Except Stop State) (fin : State → State) (s : State) : VRes :=
  let a := s.h.vstart.toNat
  if s.h.vl.toNat ≤ a then .ok (setStart s 0)
  else
    let b := elemLimit s.h grp
    match tryElems grp f s s (span a b) with
    | .ok t => if b < s.h.vl.toNat then .pause (setStart t b) else .ok (setStart (fin t) 0)
    | r => r

/-! ## Operand readers -/

/-- The low W bits of x[b], as a vector word's scalar operand (R101). -/
def scalarOperand (h : Hart) (x : Word) : Word := x &&& BitVec.ofNat 64 (2 ^ h.ew - 1)

/-- A binary operation on the bit patterns of width W of element e of two registers. -/
def bvOp (f : (n : Nat) → BitVec n → BitVec n → BitVec n) (w : Nat) (x y : Word) : Word :=
  (f w (x.setWidth w) (y.setWidth w)).setWidth 64

/-- R100: the format is a floating-point format of the element width. -/
def floatType (h : Hart) : Bool :=
  h.fmt == Fmts.fp16 || h.fmt == Fmts.e8m7 || h.fmt == Fmts.fp32 || h.fmt == Fmts.fp64

/-- The layout of the vector's floating-point format. -/
def Hart.bin (h : Hart) : Bin := binOf h.fmt

/-- An operation on two values, rounded once into a layout (R76, R104): the code and the flags. -/
def roundOp (b : Bin) (mode : Mode) (r : Val × Flags) : Nat × Flags :=
  let (c, g) := binConvert b mode false r.1
  (c, r.2 ||| g)

end Sys2Proof.Machine
end

