-- ==== Sys2Proof/Machine/VecFp.lean ====
section
/-!
DEFINITION. Floating-point vector arithmetic and compares (05_vector_instructions.md R104, R105, R108).
-/

namespace Sys2Proof.Machine

/-- An operation on two codes of the vector's format: the code and the flags. -/
abbrev CodeOp := Bin → Mode → Nat → Nat → Nat × Flags

/-- A rounded operation on two values (R104). -/
def arith2 (f : Mode → Val → Val → Val × Flags) : CodeOp := fun b r x y => roundOp b r (f r (binVal b x) (binVal b y))

/-- a + b. -/ def opAdd : CodeOp := arith2 Val.add
/-- a - b. -/ def opSub : CodeOp := arith2 fun r x y => Val.add r x y.negate
/-- b - a. -/ def opRsub : CodeOp := arith2 fun r x y => Val.add r y x.negate
/-- a × b. -/ def opMul : CodeOp := arith2 fun _ x y => x.mul y
/-- a / b. -/ def opDiv : CodeOp := arith2 fun _ x y => x.div y
/-- b / a. -/ def opRdiv : CodeOp := arith2 fun _ x y => y.div x
/-- Smaller operand (R78). -/ def opMin : CodeOp := fun b _ x y => pickCode b false x y
/-- Larger operand (R78). -/ def opMax : CodeOp := fun b _ x y => pickCode b true x y
/-- The magnitude of a with a sign made of both (R78). -/
def opSign (f : Bool → Bool → Bool) : CodeOp := fun b _ x y => (b.signed (f (x.testBit b.sbit) (y.testBit b.sbit)) (x % 2 ^ b.sbit), 0)

/-- An element-wise floating-point word on two registers (R100, R104). -/
def vfp2 (w : Insn) (f : CodeOp) (cv : BitVec 1) (d a b : BitVec 5) (k : BitVec 3) (s : State) : Out :=
  vword w cv (s.h.member .arith [a, b] (gov k) [d] []) (!floatType s.h)
    (vmap d k fun h e =>
      let (c, g) := f h.bin h.rm (h.elem h.ew a e).toNat (h.elem h.ew b e).toNat
      (BitVec.ofNat 64 c, g)) s

/-- The same with a scalar second operand (R101). -/
def vfpx (w : Insn) (f : CodeOp) (cv : BitVec 1) (d a : BitVec 5) (x : BitVec 6) (k : BitVec 3) (s : State) : Out :=
  let y := (scalarOperand s.h (rx s x)).toNat
  vword w cv (s.h.member .arith [a] (gov k) [d] []) (!floatType s.h)
    (vmap d k fun h e =>
      let (c, g) := f h.bin h.rm (h.elem h.ew a e).toNat y
      (BitVec.ofNat 64 c, g)) s

/-- The same on one register. -/
def vfp1 (w : Insn) (f : Bin → Mode → Nat → Nat × Flags) (cv : BitVec 1) (d a : BitVec 5) (k : BitVec 3) (s : State) : Out :=
  vword w cv (s.h.member .arith [a] (gov k) [d] []) (!floatType s.h)
    (vmap d k fun h e =>
      let (c, g) := f h.bin h.rm (h.elem h.ew a e).toNat
      (BitVec.ofNat 64 c, g)) s

/-- √a (R104). -/
def opSqrt (b : Bin) (r : Mode) (x : Nat) : Nat × Flags := roundOp b r (Val.sqrt b.p (binVal b x))

/-- `VFADD_VV` (R104). -/
def execVfaddVv (cv : BitVec 1) (d a b : BitVec 5) (k : BitVec 3) (s : State) : Out :=
  vfp2 (0x25000000#32 ||| fld cv 31 ||| fld d 19 ||| fld a 14 ||| fld b 9 ||| fld k 6) opAdd cv d a b k s

/-- `VFSUB_VV` (R104). -/
def execVfsubVv (cv : BitVec 1) (d a b : BitVec 5) (k : BitVec 3) (s : State) : Out :=
  vfp2 (0x25000001#32 ||| fld cv 31 ||| fld d 19 ||| fld a 14 ||| fld b 9 ||| fld k 6) opSub cv d a b k s

/-- `VFMUL_VV` (R104). -/
def execVfmulVv (cv : BitVec 1) (d a b : BitVec 5) (k : BitVec 3) (s : State) : Out :=
  vfp2 (0x25000002#32 ||| fld cv 31 ||| fld d 19 ||| fld a 14 ||| fld b 9 ||| fld k 6) opMul cv d a b k s

/-- `VFDIV_VV` (R104). -/
def execVfdivVv (cv : BitVec 1) (d a b : BitVec 5) (k : BitVec 3) (s : State) : Out :=
  vfp2 (0x25000003#32 ||| fld cv 31 ||| fld d 19 ||| fld a 14 ||| fld b 9 ||| fld k 6) opDiv cv d a b k s

/-- `VFMIN_VV` (R104). -/
def execVfminVv (cv : BitVec 1) (d a b : BitVec 5) (k : BitVec 3) (s : State) : Out :=
  vfp2 (0x25000005#32 ||| fld cv 31 ||| fld d 19 ||| fld a 14 ||| fld b 9 ||| fld k 6) opMin cv d a b k s

/-- `VFMAX_VV` (R104). -/
def execVfmaxVv (cv : BitVec 1) (d a b : BitVec 5) (k : BitVec 3) (s : State) : Out :=
  vfp2 (0x25000006#32 ||| fld cv 31 ||| fld d 19 ||| fld a 14 ||| fld b 9 ||| fld k 6) opMax cv d a b k s

/-- `VFSGNJ_VV` (R104). -/
def execVfsgnjVv (cv : BitVec 1) (d a b : BitVec 5) (k : BitVec 3) (s : State) : Out :=
  vfp2 (0x25000007#32 ||| fld cv 31 ||| fld d 19 ||| fld a 14 ||| fld b 9 ||| fld k 6) (opSign fun _ y => y) cv d a b k s

/-- `VFSGNJN_VV` (R104). -/
def execVfsgnjnVv (cv : BitVec 1) (d a b : BitVec 5) (k : BitVec 3) (s : State) : Out :=
  vfp2 (0x25000008#32 ||| fld cv 31 ||| fld d 19 ||| fld a 14 ||| fld b 9 ||| fld k 6) (opSign fun _ y => !y) cv d a b k s

/-- `VFSGNJX_VV` (R104). -/
def execVfsgnjxVv (cv : BitVec 1) (d a b : BitVec 5) (k : BitVec 3) (s : State) : Out :=
  vfp2 (0x25000009#32 ||| fld cv 31 ||| fld d 19 ||| fld a 14 ||| fld b 9 ||| fld k 6) (opSign fun x y => x != y) cv d a b k s

/-- `VFRSUB_VV` (R104). -/
def execVfrsubVv (cv : BitVec 1) (d a b : BitVec 5) (k : BitVec 3) (s : State) : Out :=
  vfp2 (0x2500000B#32 ||| fld cv 31 ||| fld d 19 ||| fld a 14 ||| fld b 9 ||| fld k 6) opRsub cv d a b k s

/-- `VFRDIV_VV` (R104). -/
def execVfrdivVv (cv : BitVec 1) (d a b : BitVec 5) (k : BitVec 3) (s : State) : Out :=
  vfp2 (0x2500000C#32 ||| fld cv 31 ||| fld d 19 ||| fld a 14 ||| fld b 9 ||| fld k 6) opRdiv cv d a b k s

/-- `VFADD_VX` (R104). -/
def execVfaddVx (cv : BitVec 1) (d a : BitVec 5) (x : BitVec 6) (k : BitVec 3) (s : State) : Out :=
  vfpx (0x26000000#32 ||| fld cv 31 ||| fld d 19 ||| fld a 14 ||| fld x 8 ||| fld k 5) opAdd cv d a x k s

/-- `VFSUB_VX` (R104). -/
def execVfsubVx (cv : BitVec 1) (d a : BitVec 5) (x : BitVec 6) (k : BitVec 3) (s : State) : Out :=
  vfpx (0x26000001#32 ||| fld cv 31 ||| fld d 19 ||| fld a 14 ||| fld x 8 ||| fld k 5) opSub cv d a x k s

/-- `VFMUL_VX` (R104). -/
def execVfmulVx (cv : BitVec 1) (d a : BitVec 5) (x : BitVec 6) (k : BitVec 3) (s : State) : Out :=
  vfpx (0x26000002#32 ||| fld cv 31 ||| fld d 19 ||| fld a 14 ||| fld x 8 ||| fld k 5) opMul cv d a x k s

/-- `VFDIV_VX` (R104). -/
def execVfdivVx (cv : BitVec 1) (d a : BitVec 5) (x : BitVec 6) (k : BitVec 3) (s : State) : Out :=
  vfpx (0x26000003#32 ||| fld cv 31 ||| fld d 19 ||| fld a 14 ||| fld x 8 ||| fld k 5) opDiv cv d a x k s

/-- `VFMIN_VX` (R104). -/
def execVfminVx (cv : BitVec 1) (d a : BitVec 5) (x : BitVec 6) (k : BitVec 3) (s : State) : Out :=
  vfpx (0x26000005#32 ||| fld cv 31 ||| fld d 19 ||| fld a 14 ||| fld x 8 ||| fld k 5) opMin cv d a x k s

/-- `VFMAX_VX` (R104). -/
def execVfmaxVx (cv : BitVec 1) (d a : BitVec 5) (x : BitVec 6) (k : BitVec 3) (s : State) : Out :=
  vfpx (0x26000006#32 ||| fld cv 31 ||| fld d 19 ||| fld a 14 ||| fld x 8 ||| fld k 5) opMax cv d a x k s

/-- `VFSGNJ_VX` (R104). -/
def execVfsgnjVx (cv : BitVec 1) (d a : BitVec 5) (x : BitVec 6) (k : BitVec 3) (s : State) : Out :=
  vfpx (0x26000007#32 ||| fld cv 31 ||| fld d 19 ||| fld a 14 ||| fld x 8 ||| fld k 5) (opSign fun _ y => y) cv d a x k s

/-- `VFSGNJN_VX` (R104). -/
def execVfsgnjnVx (cv : BitVec 1) (d a : BitVec 5) (x : BitVec 6) (k : BitVec 3) (s : State) : Out :=
  vfpx (0x26000008#32 ||| fld cv 31 ||| fld d 19 ||| fld a 14 ||| fld x 8 ||| fld k 5) (opSign fun _ y => !y) cv d a x k s

/-- `VFSGNJX_VX` (R104). -/
def execVfsgnjxVx (cv : BitVec 1) (d a : BitVec 5) (x : BitVec 6) (k : BitVec 3) (s : State) : Out :=
  vfpx (0x26000009#32 ||| fld cv 31 ||| fld d 19 ||| fld a 14 ||| fld x 8 ||| fld k 5) (opSign fun x y => x != y) cv d a x k s

/-- `VFRSUB_VX` (R104). -/
def execVfrsubVx (cv : BitVec 1) (d a : BitVec 5) (x : BitVec 6) (k : BitVec 3) (s : State) : Out :=
  vfpx (0x2600000B#32 ||| fld cv 31 ||| fld d 19 ||| fld a 14 ||| fld x 8 ||| fld k 5) opRsub cv d a x k s

/-- `VFRDIV_VX` (R104). -/
def execVfrdivVx (cv : BitVec 1) (d a : BitVec 5) (x : BitVec 6) (k : BitVec 3) (s : State) : Out :=
  vfpx (0x2600000C#32 ||| fld cv 31 ||| fld d 19 ||| fld a 14 ||| fld x 8 ||| fld k 5) opRdiv cv d a x k s

/-- `VFSQRT_VV` (R104). -/
def execVfsqrtVv (cv : BitVec 1) (d a : BitVec 5) (k : BitVec 3) (s : State) : Out :=
  vfp1 (0x25000004#32 ||| fld cv 31 ||| fld d 19 ||| fld a 14 ||| fld k 6) opSqrt cv d a k s

/-- `VFCLASS_VV` (R104). -/
def execVfclassVv (cv : BitVec 1) (d a : BitVec 5) (k : BitVec 3) (s : State) : Out :=
  vfp1 (0x2500000A#32 ||| fld cv 31 ||| fld d 19 ||| fld a 14 ||| fld k 6) (fun b _ x => (classCode b x, 0)) cv d a k s

/-- `VFSQRT_VX` (R104). -/
def execVfsqrtVx (cv : BitVec 1) (d a : BitVec 5) (k : BitVec 3) (s : State) : Out :=
  vfp1 (0x26000004#32 ||| fld cv 31 ||| fld d 19 ||| fld a 14 ||| fld k 5) opSqrt cv d a k s

/-- `VFCLASS_VX` (R104). -/
def execVfclassVx (cv : BitVec 1) (d a : BitVec 5) (k : BitVec 3) (s : State) : Out :=
  vfp1 (0x2600000A#32 ||| fld cv 31 ||| fld d 19 ||| fld a 14 ||| fld k 5) (fun b _ x => (classCode b x, 0)) cv d a k s

/-- ±(a × b) ± d, rounded once (R105). -/
def vfma (w : Insn) (np nd : Bool) (cv : BitVec 1) (d a b : BitVec 5) (k : BitVec 3) (s : State) : Out :=
  vword w cv (s.h.member .arith [a, b, d] (gov k) [d] []) (!floatType s.h)
    (vmap d k fun h e =>
      let v (r : BitVec 5) : Val := binVal h.bin (h.elem h.ew r e).toNat
      let (p, f) := (v a).mul (v b)
      let (q, g) := Val.add h.rm (if np then p.negate else p) (if nd then (v d).negate else v d)
      let (c, i) := binConvert h.bin h.rm false q
      (BitVec.ofNat 64 c, f ||| g ||| i)) s

/-- `VFMADD` (R105). -/
def execVfmadd (cv : BitVec 1) (d a b : BitVec 5) (k : BitVec 3) (s : State) : Out :=
  vfma (0x27000000#32 ||| fld cv 31 ||| fld d 19 ||| fld a 14 ||| fld b 9 ||| fld k 6) false false cv d a b k s

/-- `VFMSUB` (R105). -/
def execVfmsub (cv : BitVec 1) (d a b : BitVec 5) (k : BitVec 3) (s : State) : Out :=
  vfma (0x27000001#32 ||| fld cv 31 ||| fld d 19 ||| fld a 14 ||| fld b 9 ||| fld k 6) false true cv d a b k s

/-- `VFNMADD` (R105). -/
def execVfnmadd (cv : BitVec 1) (d a b : BitVec 5) (k : BitVec 3) (s : State) : Out :=
  vfma (0x27000002#32 ||| fld cv 31 ||| fld d 19 ||| fld a 14 ||| fld b 9 ||| fld k 6) true true cv d a b k s

/-- `VFNMSUB` (R105). -/
def execVfnmsub (cv : BitVec 1) (d a b : BitVec 5) (k : BitVec 3) (s : State) : Out :=
  vfma (0x27000003#32 ||| fld cv 31 ||| fld d 19 ||| fld a 14 ||| fld b 9 ||| fld k 6) true false cv d a b k s

/-! ## Compares -/

/-- An integer compare into a mask (R108). -/
def vcmpInt (w : Insn) (f : (n : Nat) → BitVec n → BitVec n → Bool) (cv : BitVec 1) (d : BitVec 3) (a b : BitVec 5) (k : BitVec 3) (s : State) : Out :=
  vword w cv (s.h.member .arith [a, b] (gov k) [] [d]) false
    (vmapMask d k fun h e => (f h.ew ((h.elem h.ew a e).setWidth h.ew) ((h.elem h.ew b e).setWidth h.ew), 0)) s

/-- A floating-point compare into a mask (R108): `nan` is its result with a NaN; a quiet one sets NV on signalling NaNs only. -/
def vcmpFp (w : Insn) (quiet nan : Bool) (f : Val → Val → Bool) (cv : BitVec 1) (d : BitVec 3) (a b : BitVec 5) (k : BitVec 3) (s : State) : Out :=
  vword w cv (s.h.member .arith [a, b] (gov k) [] [d]) (!floatType s.h)
    (vmapMask d k fun h e =>
      let u := binVal h.bin (h.elem h.ew a e).toNat
      let v := binVal h.bin (h.elem h.ew b e).toNat
      let n := u.isNan || v.isNan
      (if n then nan else f u v, nvIf (if quiet then u.sig || v.sig else n))) s

/-- `VSEQ` (R108). -/
def execVseq (cv : BitVec 1) (d : BitVec 3) (a b : BitVec 5) (k : BitVec 3) (s : State) : Out :=
  vcmpInt (0x29000000#32 ||| fld cv 31 ||| fld d 19 ||| fld a 14 ||| fld b 9 ||| fld k 6) (fun _ x y => x == y) cv d a b k s

/-- `VSNE` (R108). -/
def execVsne (cv : BitVec 1) (d : BitVec 3) (a b : BitVec 5) (k : BitVec 3) (s : State) : Out :=
  vcmpInt (0x29000001#32 ||| fld cv 31 ||| fld d 19 ||| fld a 14 ||| fld b 9 ||| fld k 6) (fun _ x y => x != y) cv d a b k s

/-- `VSLT` (R108). -/
def execVslt (cv : BitVec 1) (d : BitVec 3) (a b : BitVec 5) (k : BitVec 3) (s : State) : Out :=
  vcmpInt (0x29000002#32 ||| fld cv 31 ||| fld d 19 ||| fld a 14 ||| fld b 9 ||| fld k 6) (fun _ x y => x.slt y) cv d a b k s

/-- `VSLTU` (R108). -/
def execVsltu (cv : BitVec 1) (d : BitVec 3) (a b : BitVec 5) (k : BitVec 3) (s : State) : Out :=
  vcmpInt (0x29000003#32 ||| fld cv 31 ||| fld d 19 ||| fld a 14 ||| fld b 9 ||| fld k 6) (fun _ x y => x.ult y) cv d a b k s

/-- `VSLE` (R108). -/
def execVsle (cv : BitVec 1) (d : BitVec 3) (a b : BitVec 5) (k : BitVec 3) (s : State) : Out :=
  vcmpInt (0x29000004#32 ||| fld cv 31 ||| fld d 19 ||| fld a 14 ||| fld b 9 ||| fld k 6) (fun _ x y => x.sle y) cv d a b k s

/-- `VSLEU` (R108). -/
def execVsleu (cv : BitVec 1) (d : BitVec 3) (a b : BitVec 5) (k : BitVec 3) (s : State) : Out :=
  vcmpInt (0x29000005#32 ||| fld cv 31 ||| fld d 19 ||| fld a 14 ||| fld b 9 ||| fld k 6) (fun _ x y => x.ule y) cv d a b k s

/-- `VFEQ` (R108). -/
def execVfeq (cv : BitVec 1) (d : BitVec 3) (a b : BitVec 5) (k : BitVec 3) (s : State) : Out :=
  vcmpFp (0x29000008#32 ||| fld cv 31 ||| fld d 19 ||| fld a 14 ||| fld b 9 ||| fld k 6) true false Val.eq cv d a b k s

/-- `VFNE` (R108). -/
def execVfne (cv : BitVec 1) (d : BitVec 3) (a b : BitVec 5) (k : BitVec 3) (s : State) : Out :=
  vcmpFp (0x29000009#32 ||| fld cv 31 ||| fld d 19 ||| fld a 14 ||| fld b 9 ||| fld k 6) true true (fun u v => !u.eq v) cv d a b k s

/-- `VFLT` (R108). -/
def execVflt (cv : BitVec 1) (d : BitVec 3) (a b : BitVec 5) (k : BitVec 3) (s : State) : Out :=
  vcmpFp (0x2900000A#32 ||| fld cv 31 ||| fld d 19 ||| fld a 14 ||| fld b 9 ||| fld k 6) false false Val.lt cv d a b k s

/-- `VFLE` (R108). -/
def execVfle (cv : BitVec 1) (d : BitVec 3) (a b : BitVec 5) (k : BitVec 3) (s : State) : Out :=
  vcmpFp (0x2900000B#32 ||| fld cv 31 ||| fld d 19 ||| fld a 14 ||| fld b 9 ||| fld k 6) false false (fun u v => !v.lt u) cv d a b k s

/-- `VFORD` (R108). -/
def execVford (cv : BitVec 1) (d : BitVec 3) (a b : BitVec 5) (k : BitVec 3) (s : State) : Out :=
  vcmpFp (0x2900000C#32 ||| fld cv 31 ||| fld d 19 ||| fld a 14 ||| fld b 9 ||| fld k 6) true false (fun _ _ => true) cv d a b k s

end Sys2Proof.Machine
end

