-- ==== Sys2Proof/Machine/VecMask.lean ====
section
/-!
DEFINITION. Mask words, reductions, permutes and moves between x registers and vectors (05_vector_instructions.md R109-R114).
-/

namespace Sys2Proof.Machine

/-! ## Masks -/

/-- The body of a mask word whose result bits VSTART to the limit are those of `r` (R109). It has no inner stop point of its own (R389): it stops inside
only as a member of a convoy that does (R122). -/
def maskBody (d : BitVec 3) (r : Hart → BitVec 2048) (s : State) : VRes :=
  let v := r s.h
  elementwise (vlmax 8 16)
    (fun l h =>
      let m := bitRange (l.headD 0) (l.headD 0 + l.length)
      h.setK d ((h.k[d.toNat] &&& ~~~m) ||| (v &&& m)))
    (zeroMaskTail d) s

/-- A logical word on masks (R109). -/
def kop (w : Insn) (f : BitVec 2048 → BitVec 2048 → BitVec 2048) (cv : BitVec 1) (d a b : BitVec 3) (s : State) : Out :=
  vword w cv (s.h.member .arith [] [a, b] [] [d]) false (maskBody d fun h => f h.k[a.toNat] h.k[b.toNat]) s

/-- `KNOT` and `KMOV` (R109). -/
def kop1 (w : Insn) (f : BitVec 2048 → BitVec 2048) (cv : BitVec 1) (d a : BitVec 3) (s : State) : Out :=
  vword w cv (s.h.member .arith [] [a] [] [d]) false (maskBody d fun h => f h.k[a.toNat]) s

/-- `KAND` (R109). -/
def execKand (cv : BitVec 1) (d a b : BitVec 3) (s : State) : Out :=
  kop (0x2A000000#32 ||| fld cv 31 ||| fld d 19 ||| fld a 14 ||| fld b 9) (fun x y => x &&& y) cv d a b s

/-- `KOR` (R109). -/
def execKor (cv : BitVec 1) (d a b : BitVec 3) (s : State) : Out :=
  kop (0x2A000001#32 ||| fld cv 31 ||| fld d 19 ||| fld a 14 ||| fld b 9) (fun x y => x ||| y) cv d a b s

/-- `KXOR` (R109). -/
def execKxor (cv : BitVec 1) (d a b : BitVec 3) (s : State) : Out :=
  kop (0x2A000002#32 ||| fld cv 31 ||| fld d 19 ||| fld a 14 ||| fld b 9) (fun x y => x ^^^ y) cv d a b s

/-- `KANDN` (R109). -/
def execKandn (cv : BitVec 1) (d a b : BitVec 3) (s : State) : Out :=
  kop (0x2A000003#32 ||| fld cv 31 ||| fld d 19 ||| fld a 14 ||| fld b 9) (fun x y => x &&& ~~~y) cv d a b s

/-- `KORN` (R109). -/
def execKorn (cv : BitVec 1) (d a b : BitVec 3) (s : State) : Out :=
  kop (0x2A000004#32 ||| fld cv 31 ||| fld d 19 ||| fld a 14 ||| fld b 9) (fun x y => x ||| ~~~y) cv d a b s

/-- `KNOT` (R109). -/
def execKnot (cv : BitVec 1) (d a : BitVec 3) (s : State) : Out :=
  kop1 (0x2A000005#32 ||| fld cv 31 ||| fld d 19 ||| fld a 14) (fun x => ~~~x) cv d a s

/-- `KMOV` (R109). -/
def execKmov (cv : BitVec 1) (d a : BitVec 3) (s : State) : Out := kop1 (0x2A000006#32 ||| fld cv 31 ||| fld d 19 ||| fld a 14) id cv d a s

/-- `KFROMSMM` (R109). -/
def execKfromsmm (cv : BitVec 1) (d : BitVec 3) (s : State) : Out :=
  vword (0x2A000008#32 ||| fld cv 31 ||| fld d 19) cv (s.h.member .arith [] [] [] [d]) false
    (fun s => .ok (setStart { s with h := s.h.setK d s.h.smm } 0)) s

/-- `KTOSMM` (R109). -/
def execKtosmm (cv : BitVec 1) (a : BitVec 3) (s : State) : Out :=
  vword (0x2A000009#32 ||| fld cv 31 ||| fld a 14) cv (s.h.member .arith [] [a] [] []) false
    (fun s => .ok (setStart { s with h := { s.h with smm := s.h.k[a.toNat] } } 0)) s

/-- `KFROMV` (R109). -/
def execKfromv (cv : BitVec 1) (d : BitVec 3) (a : BitVec 5) (s : State) : Out :=
  vword (0x2A00000A#32 ||| fld cv 31 ||| fld d 19 ||| fld a 14) cv (s.h.member .arith [a] [] [] [d]) false
    (vmapMask d 0 fun h e => (h.elem h.ew a e != 0, 0)) s

/-- `KTOV` (R109). -/
def execKtov (cv : BitVec 1) (d : BitVec 5) (a : BitVec 3) (s : State) : Out :=
  vword (0x2A00000B#32 ||| fld cv 31 ||| fld d 19 ||| fld a 14) cv (s.h.member .arith [] [a] [d] []) false
    (vmap d 0 fun h e => (boolWord (h.kbit a e), 0)) s

/-! ## Reductions -/

/-- An operation of a reduction on W-bit patterns: the result and its flags. -/
abbrev RedOp := Word → Word → Word × Flags

/-- The least power of two that is at least `n`, given it is at most 2^k. -/
def treeSize (n : Nat) : Nat → Nat
  | 0 => 1
  | k + 1 => let p := treeSize n k; if p < n then 2 * p else p

/-- One level of the tree of R111: adjacent pairs. -/
def treeLevel (op : RedOp) : List Word → List Word × Flags
  | x :: y :: t =>
    let (z, f) := op x y
    let (r, g) := treeLevel op t
    (z :: r, f ||| g)
  | l => (l, 0)

/-- The tree of R111, `n` levels. -/
def treeReduce (op : RedOp) (l : List Word) : Nat → Word × Flags
  | 0 => (l.headD 0, 0)
  | n + 1 =>
    match l with
    | [x] => (x, 0)
    | _ =>
      let (l, f) := treeLevel op l
      let (r, g) := treeReduce op l n
      (r, f ||| g)

/-- The leaves of the tree: active elements, and the identity elsewhere (R111). -/
def treeLeaves (h : Hart) (a : BitVec 5) (k : BitVec 3) (ident : Word) : List Word :=
  (List.range (treeSize h.vl.toNat 11)).map fun i =>
    if h.vstart.toNat ≤ i ∧ i < h.vl.toNat ∧ h.active k i then h.elem h.ew a i else ident

/-- Zero elements 1 to VLMAX - 1 of a reduction's destination where TZ asks for it (R111). -/
def zeroRest (w : Nat) (r : BitVec 5) (h : Hart) : Hart :=
  if h.tz then (span 1 (vlmax w h.g)).foldl (fun h e => h.setElem w r e 0) h else h

/-- Write element 0 of a reduction, its tail and its flags; VSTART := 0 (R111). -/
def putScalarElem (d : BitVec 5) (x : Word) (g : Flags) (s : State) : State :=
  let h := zeroRest s.h.ew d (s.h.setElem s.h.ew d 0 x)
  setStart { s with h := { h with fcsr := h.fcsr ||| g } } 0

/-- The body of a tree reduction (R111): one start value, the leaves, then the tree. -/
def treeBody (op : Hart → RedOp) (ident : Hart → Word) (d a b : BitVec 5) (k : BitVec 3) (s : State) : VRes :=
  let h := s.h
  let (t, f) := treeReduce (op h) (treeLeaves h a k (ident h)) 11
  let (r, g) := op h (h.elem h.ew b 0) t
  .ok (putScalarElem d r (f ||| g) s)

/-- An integer reduction (R110). -/
def vredInt (w : Insn) (f : (n : Nat) → BitVec n → BitVec n → BitVec n) (ident : Nat → Word) (cv : BitVec 1) (d a b : BitVec 5) (k : BitVec 3)
    (s : State) : Out :=
  vword w cv (s.h.member .select [a, b] (gov k) [d] []) false
    (treeBody (fun h x y => (bvOp f h.ew x y, 0)) (fun h => ident h.ew) d a b k) s

/-- A floating-point reduction (R110). -/
def vredFp (w : Insn) (f : CodeOp) (ident : Bin → Nat) (cv : BitVec 1) (d a b : BitVec 5) (k : BitVec 3) (s : State) : Out :=
  vword w cv (s.h.member .select [a, b] (gov k) [d] []) (!floatType s.h)
    (treeBody (fun h x y => let (c, g) := f h.bin h.rm x.toNat y.toNat; (BitVec.ofNat 64 c, g))
      (fun h => BitVec.ofNat 64 (ident h.bin)) d a b k) s

/-- `VREDSUM` (R111). -/
def execVredsum (cv : BitVec 1) (d a b : BitVec 5) (k : BitVec 3) (s : State) : Out :=
  vredInt (0x2B000000#32 ||| fld cv 31 ||| fld d 19 ||| fld a 14 ||| fld b 9 ||| fld k 6) (fun _ x y => x + y) (fun _ => 0) cv d a b k s

/-- `VREDMIN` (R111). -/
def execVredmin (cv : BitVec 1) (d a b : BitVec 5) (k : BitVec 3) (s : State) : Out :=
  vredInt (0x2B000001#32 ||| fld cv 31 ||| fld d 19 ||| fld a 14 ||| fld b 9 ||| fld k 6) (fun _ x y => if y.slt x then y else x) (fun w => BitVec.ofNat 64 (2 ^ (w - 1) - 1)) cv d a b k s

/-- `VREDMAX` (R111). -/
def execVredmax (cv : BitVec 1) (d a b : BitVec 5) (k : BitVec 3) (s : State) : Out :=
  vredInt (0x2B000002#32 ||| fld cv 31 ||| fld d 19 ||| fld a 14 ||| fld b 9 ||| fld k 6) (fun _ x y => if x.slt y then y else x) (fun w => BitVec.ofNat 64 (2 ^ (w - 1))) cv d a b k s

/-- `VREDMINU` (R111). -/
def execVredminu (cv : BitVec 1) (d a b : BitVec 5) (k : BitVec 3) (s : State) : Out :=
  vredInt (0x2B000003#32 ||| fld cv 31 ||| fld d 19 ||| fld a 14 ||| fld b 9 ||| fld k 6) (fun _ x y => if y.ult x then y else x) (fun w => BitVec.ofNat 64 (2 ^ w - 1)) cv d a b k s

/-- `VREDMAXU` (R111). -/
def execVredmaxu (cv : BitVec 1) (d a b : BitVec 5) (k : BitVec 3) (s : State) : Out :=
  vredInt (0x2B000004#32 ||| fld cv 31 ||| fld d 19 ||| fld a 14 ||| fld b 9 ||| fld k 6) (fun _ x y => if x.ult y then y else x) (fun _ => 0) cv d a b k s

/-- `VREDAND` (R111). -/
def execVredand (cv : BitVec 1) (d a b : BitVec 5) (k : BitVec 3) (s : State) : Out :=
  vredInt (0x2B000005#32 ||| fld cv 31 ||| fld d 19 ||| fld a 14 ||| fld b 9 ||| fld k 6) (fun _ x y => x &&& y) (fun w => BitVec.ofNat 64 (2 ^ w - 1)) cv d a b k s

/-- `VREDOR` (R111). -/
def execVredor (cv : BitVec 1) (d a b : BitVec 5) (k : BitVec 3) (s : State) : Out :=
  vredInt (0x2B000006#32 ||| fld cv 31 ||| fld d 19 ||| fld a 14 ||| fld b 9 ||| fld k 6) (fun _ x y => x ||| y) (fun _ => 0) cv d a b k s

/-- `VREDXOR` (R111). -/
def execVredxor (cv : BitVec 1) (d a b : BitVec 5) (k : BitVec 3) (s : State) : Out :=
  vredInt (0x2B000007#32 ||| fld cv 31 ||| fld d 19 ||| fld a 14 ||| fld b 9 ||| fld k 6) (fun _ x y => x ^^^ y) (fun _ => 0) cv d a b k s

/-- `VFREDSUM` (R111). -/
def execVfredsum (cv : BitVec 1) (d a b : BitVec 5) (k : BitVec 3) (s : State) : Out :=
  vredFp (0x2B000008#32 ||| fld cv 31 ||| fld d 19 ||| fld a 14 ||| fld b 9 ||| fld k 6) opAdd (fun b => b.signed true 0) cv d a b k s

/-- `VFREDMIN` (R111). -/
def execVfredmin (cv : BitVec 1) (d a b : BitVec 5) (k : BitVec 3) (s : State) : Out :=
  vredFp (0x2B000009#32 ||| fld cv 31 ||| fld d 19 ||| fld a 14 ||| fld b 9 ||| fld k 6) opMin (fun b => b.infCode) cv d a b k s

/-- `VFREDMAX` (R111). -/
def execVfredmax (cv : BitVec 1) (d a b : BitVec 5) (k : BitVec 3) (s : State) : Out :=
  vredFp (0x2B00000A#32 ||| fld cv 31 ||| fld d 19 ||| fld a 14 ||| fld b 9 ||| fld k 6) opMax (fun b => b.signed true b.infCode) cv d a b k s

/-- The body of `VREDO` (R112): one rounding per active element, in order; a stop point leaves the partial sum in element 0 of vd. -/
def orderedSum (d a b : BitVec 5) (k : BitVec 3) (s : State) : VRes :=
  let h := s.h
  let start := h.elem h.ew (if h.vstart = 0 then b else d) 0
  let lim := elemLimit h (groupLen h.ew)
  let (acc, f) := (span h.vstart.toNat lim).foldl (init := (start, (0 : Flags))) fun (acc, f) e =>
    if h.active k e then
      let (c, g) := opAdd h.bin h.rm acc.toNat (h.elem h.ew a e).toNat
      (BitVec.ofNat 64 c, f ||| g)
    else (acc, f)
  if h.vstart.toNat < lim ∧ lim < h.vl.toNat then
    let t := h.setElem h.ew d 0 acc
    .pause (setStart { s with h := { t with fcsr := t.fcsr ||| f } } lim)
  else if lim < h.vl.toNat then .pause s
  else .ok (putScalarElem d acc f s)

/-- `VREDO` (R112). -/
def execVredo (cv : BitVec 1) (d a b : BitVec 5) (k : BitVec 3) (s : State) : Out :=
    vword (0x2B000010#32 ||| fld cv 31 ||| fld d 19 ||| fld a 14 ||| fld b 9 ||| fld k 6) cv (s.h.member .select [a, b] (gov k) [d] []) (!floatType s.h) (orderedSum d a b k) s

/-! ## Permutes -/

/-- The body of a whole word whose output positions are those of R99: every active position, MZ elsewhere, the tail, and VSTART := 0 (R113). -/
def permute (d : BitVec 5) (k : BitVec 3) (f : Hart → Nat → Option Word) (s : State) : VRes :=
  let old := s.h
  let w := old.ew
  let h := (span old.vstart.toNat old.vl.toNat).foldl (init := old) fun h e =>
    match (if old.active k e then f old e else none) with
    | some x => h.setElem w d e x
    | none => if h.mz then h.setElem w d e 0 else h
  .ok (setStart { s with h := zeroTail w d h } 0)

/-- `VSHUF` (R113). -/
def execVshuf (cv : BitVec 1) (d a b : BitVec 5) (k : BitVec 3) (s : State) : Out :=
  vword (0x2C000000#32 ||| fld cv 31 ||| fld d 19 ||| fld a 14 ||| fld b 9 ||| fld k 6) cv (s.h.member .fibre [a, b] (gov k) [d] []) (d == a || d == b)
    (permute d k fun h e =>
      let i := (h.elem h.ew b e).toNat
      if i < h.vl.toNat then some (h.elem h.ew a i) else none) s

/-- The body of `VPACK` (R113): active elements in order from VSTART, then zeros to VL - 1, then the tail. -/
def pack (d a : BitVec 5) (k : BitVec 3) (s : State) : VRes :=
  let h := s.h
  let w := h.ew
  let es := span h.vstart.toNat h.vl.toNat
  let xs := (es.filter fun e => h.active k e).map fun e => h.elem w a e
  let h' := (es.zip (xs ++ List.replicate (es.length - xs.length) 0)).foldl (fun t p => t.setElem w d p.1 p.2) h
  .ok (setStart { s with h := zeroTail w d h' } 0)

/-- Set bits of a mask among positions a to b - 1. -/
def countBits (m : BitVec 2048) (a b : Nat) : Nat := ((span a b).filter fun i => m.getLsbD i).length

/-- `VPACK` (R113). -/
def execVpack (cv : BitVec 1) (d a : BitVec 5) (k : BitVec 3) (s : State) : Out :=
  vword (0x2C000001#32 ||| fld cv 31 ||| fld d 19 ||| fld a 14 ||| fld k 6) cv (s.h.member .fibre [a] (gov k) [d] []) (d == a) (pack d a k) s

/-- `VRANK` (R113). A count that does not fit the element keeps its low bits (log 20). -/
def execVrank (cv : BitVec 1) (d : BitVec 5) (b k : BitVec 3) (s : State) : Out :=
  vword (0x2C000002#32 ||| fld cv 31 ||| fld d 19 ||| fld b 9 ||| fld k 6) cv (s.h.member .fibre [] (b :: gov k) [d] []) false
    (permute d k fun h e => some (BitVec.ofNat 64 (countBits h.k[b.toNat] h.vstart.toNat (e + 1)))) s

/-- `VRAMP` (R113). An index that does not fit the element keeps its low bits (log 20). -/
def execVramp (cv : BitVec 1) (d : BitVec 5) (k : BitVec 3) (s : State) : Out :=
  vword (0x2C000003#32 ||| fld cv 31 ||| fld d 19 ||| fld k 6) cv (s.h.member .fibre [] (gov k) [d] []) false (permute d k fun _ e => some (BitVec.ofNat 64 e)) s

/-- `VRAMP_S` (R113). -/
def execVrampS (cv : BitVec 1) (d a : BitVec 5) (k : BitVec 3) (s : State) : Out :=
  vword (0x2C000004#32 ||| fld cv 31 ||| fld d 19 ||| fld a 14 ||| fld k 6) cv (s.h.member .fibre [a] (gov k) [d] []) false
    (permute d k fun h e => some (h.elem h.ew a 0 + BitVec.ofNat 64 e * h.elem h.ew a 1)) s

/-! ## Moves -/

/-- `VBCAST` (R114). -/
def execVbcast (cv : BitVec 1) (d : BitVec 5) (x : BitVec 6) (k : BitVec 3) (s : State) : Out :=
  let y := scalarOperand s.h (rx s x)
  vword (0x2F000000#32 ||| fld cv 31 ||| fld d 19 ||| fld x 8 ||| fld k 5) cv (s.h.member .fibre [] (gov k) [d] []) false (vmap d k fun _ _ => (y, 0)) s

/-- `VTOX` (R114). -/
def execVtox (cv : BitVec 1) (n a : BitVec 5) (x : BitVec 6) (s : State) : Out :=
  vword (0x2F000001#32 ||| fld cv 31 ||| fld n 19 ||| fld a 14 ||| fld x 8) cv (s.h.member .fibre [a] [] [] []) false
    (fun s =>
      let h := s.h
      let v := h.elem h.ew a n.toNat
      let v := if h.vl.toNat ≤ n.toNat then 0 else if fmtSigned h.fmt then BitVec.ofInt 64 (v.setWidth h.ew).toInt else v
      .ok (setStart (wx s x v) 0)) s

/-- `XTOV` (R114). -/
def execXtov (cv : BitVec 1) (d n : BitVec 5) (x : BitVec 6) (s : State) : Out :=
  let y := scalarOperand s.h (rx s x)
  vword (0x2F000002#32 ||| fld cv 31 ||| fld d 19 ||| fld n 14 ||| fld x 8) cv (s.h.member .fibre [] [] [d] []) false (vmap d 0 fun _ e => (if e = n.toNat then y else 0, 0)) s

/-- `VSHUP` (R114). -/
def execVshup (cv : BitVec 1) (d a : BitVec 5) (x : BitVec 6) (k : BitVec 3) (s : State) : Out :=
  let y := (rx s x).toNat
  vword (0x2F000003#32 ||| fld cv 31 ||| fld d 19 ||| fld a 14 ||| fld x 8 ||| fld k 5) cv (s.h.member .fibre [a] (gov k) [d] []) (d == a)
    (permute d k fun h e => some (if y ≤ e then h.elem h.ew a (e - y) else 0)) s

/-- `VSHDN` (R114). -/
def execVshdn (cv : BitVec 1) (d a : BitVec 5) (x : BitVec 6) (k : BitVec 3) (s : State) : Out :=
  let y := (rx s x).toNat
  vword (0x2F000004#32 ||| fld cv 31 ||| fld d 19 ||| fld a 14 ||| fld x 8 ||| fld k 5) cv (s.h.member .fibre [a] (gov k) [d] []) (d == a)
    (permute d k fun h e => some (if e + y < h.vl.toNat then h.elem h.ew a (e + y) else 0)) s

/-- The set bits of ka below VL that are active under km (R114). -/
def activeBits (h : Hart) (a k : BitVec 3) : List Nat := (List.range h.vl.toNat).filter fun e => h.kbit a e && h.active k e

/-- `KCOUNT` (R114). -/
def execKcount (cv : BitVec 1) (a : BitVec 3) (x : BitVec 6) (k : BitVec 3) (s : State) : Out :=
  vword (0x2F000005#32 ||| fld cv 31 ||| fld a 14 ||| fld x 8 ||| fld k 5) cv (s.h.member .fibre [] (a :: gov k) [] []) false
    (fun s => .ok (setStart (wx s x (BitVec.ofNat 64 (activeBits s.h a k).length)) 0)) s

/-- `KLEAD` (R114). -/
def execKlead (cv : BitVec 1) (a : BitVec 3) (x : BitVec 6) (k : BitVec 3) (s : State) : Out :=
  vword (0x2F000006#32 ||| fld cv 31 ||| fld a 14 ||| fld x 8 ||| fld k 5) cv (s.h.member .fibre [] (a :: gov k) [] []) false
    (fun s => .ok (setStart (wx s x (BitVec.ofNat 64 ((activeBits s.h a k).headD s.h.vl.toNat))) 0)) s

/-- `CONVOY_START` (R121): every older word of the hart has completed before a word runs (log 1), so a convoy starts in the step that runs its word and this event finds none waiting. -/
def execConvoyStart (_h : BitVec 11) (s : State) : Out := .next s

end Sys2Proof.Machine
end

