-- ==== Sys2Proof/Machine/Convert.lean ====
section
/-!
DEFINITION. Conversions, quantisation, level-index words and `VTRANS` (11_conversion_sli_instructions.md, R203-R221).
-/

namespace Sys2Proof.Machine

/-! ## Values of any format -/

/-- Round an exact value into any format (R189, R192, R194-R197, R206). -/
def putValue (f : Fmt) (mode : Mode) (sat : Bool) (v : Val) : Nat × Flags :=
  if fmtSli f then
    let (r, g) := sliOfVal (sliF f) mode v
    (sliCode (sliF f) r, match v with
      | .inf _ => if sat then 0 else g
      | _ => g)
  else codeOf f mode sat v

/-- An integer code of another integer format: wrapped, or clamped with `.sat`, with no flag (R206). -/
def intToInt (f : Fmt) (sat : Bool) (v : Val) : Nat :=
  match v with
  | .fin neg n _ =>
    if sat then (intConvert (fmtSigned f) (fmtBits f) 1 v).1
    else if neg then (2 ^ fmtBits f - n % 2 ^ fmtBits f) % 2 ^ fmtBits f else n % 2 ^ fmtBits f
  | _ => 0

/-- `convert(value(x, g), f, mode, sat)` of R205 and R206 on codes. -/
def convertCode (g f : Fmt) (mode : Mode) (sat : Bool) (c : Nat) : Nat × Flags :=
  if fmtSli g then
    match sliVal (sliF g) c with
    | .nan => putValue f mode sat (.nan false)
    | .zero n => putValue f mode sat (.zero n)
    | .num n z =>
      if fmtSli f then
        let (r, w) := sliOfSli (sliF g) (sliF f) mode (.num n z)
        (sliCode (sliF f) r, w)
      else sliToFrac (sliF g) z fun q => codeOf f mode sat (.fin n q.1 q.2)
  else if fmtInt g && fmtInt f then (intToInt f sat (codeVal g c), 0)
  else putValue f mode sat (codeVal g c)

/-! ## VCVT and SLICVT (R203-R206) -/

/-- Element-wise work from width VTYPE.EW to width `wd` (R205). -/
def vmapTo (wd : Nat) (vd : BitVec 5) (k : BitVec 3) (f : Hart → Nat → Word × Flags) (s : State) : VRes :=
  elementwise (groupLen s.h.ew) (eachElem wd vd k f) (zeroTail wd vd) s

/-- The refusals of R204. -/
def cvtBad (h : Hart) (sli : Bool) (d a : BitVec 5) (f : Fmt) (e : BitVec 2) : Bool :=
  e != h.vtype.setWidth 2 || 0x1C ≤ f.toNat || h.fmt == Fmts.e8m7x2 || f == h.fmt || (fmtSli f || fmtSli h.fmt) != sli ||
    (fmtEW f != h.ew && d == a) || decide (vlmax (fmtEW f) h.g < h.vl.toNat)

/-- `VCVT` and `SLICVT`. -/
def vcvt (w : Insn) (sli : Bool) (cv : BitVec 1) (d a f : BitVec 5) (k r : BitVec 3) (t : BitVec 1) (e : BitVec 2) (s : State) : Out :=
  vword w cv (s.h.member (if sli then .arithB else .arith) [a] (gov k) [d] []) (cvtBad s.h sli d a f e)
    (vmapTo (fmtEW f) d k fun h i =>
      let (c, g) := convertCode h.fmt f (modeOf r h) (t == 1) (elemCode h.fmt (h.elem h.ew a i))
      (codeElem f c, g)) s

/-- `VCVT` (R205). -/
def execVcvt (cv : BitVec 1) (d a f : BitVec 5) (k r : BitVec 3) (t : BitVec 1) (e : BitVec 2) (s : State) : Out :=
  vcvt ((0x2D000000#32 ||| fld cv 31 ||| fld d 19 ||| fld a 14 ||| fld f 9 ||| fld k 6 ||| fld r 3 ||| fld t 2 ||| fld e 0)) false cv d a f k r t e s

/-- `SLICVT` (R205). -/
def execSlicvt (cv : BitVec 1) (d a f : BitVec 5) (k r : BitVec 3) (t : BitVec 1) (e : BitVec 2) (s : State) : Out :=
  vcvt ((0x4C000000#32 ||| fld cv 31 ||| fld d 19 ||| fld a 14 ||| fld f 9 ||| fld k 6 ||| fld r 3 ||| fld t 2 ||| fld e 0)) true cv d a f k r t e s

/-! ## VQUANT and VDEQ (R207-R211) -/

/-- The type of R207: blocks, and values at binary16, e8m7 or binary32. -/
def quantType (h : Hart) : Bool := h.blk != 0 && (h.fmt == Fmts.fp16 || h.fmt == Fmts.e8m7 || h.fmt == Fmts.fp32)

/-- `qround` of R209 for x / s; an integer beyond ±Qmax saturates there (R208, log 23). -/
def qround (f : Fmt) (mode : Mode) (x sc : Val) : Nat × Flags :=
  let q := (x.div sc).1
  if fmtInt f then
    match q with
    | .fin neg n d =>
      if neg && !fmtSigned f then (0, if n = 0 then 0 else Flag.nx)
      else
        let (m, inex) := roundNat mode neg n d
        let top := (quantMax f).getD 0
        let m' := min m top
        ((if neg then (2 ^ fmtBits f - m') % 2 ^ fmtBits f else m'),
          if top < m then Flag.of' ||| Flag.nx else if inex then Flag.nx else 0)
    | _ => (0, 0)
  else codeOf f mode true q

/-- The larger of two magnitudes. -/
def maxFrac (a b : Nat × Nat) : Nat × Nat := if ltFrac a b then b else a

/-- The scale of a block from its active values (R209): the code, whether it is forced to NaN, and NV for that. -/
def blockScale (f : Fmt) (xs : List Val) : Nat × Bool :=
  if xs.any fun v => match v with
    | .fin _ _ _ => false
    | _ => true
  then (0x7FC0, true)
  else
    let amax := xs.foldl (fun m v => match v with
      | .fin _ n d => maxFrac m (n, d)
      | _ => m) (0, 1)
    (min (binRound (binOf Fmts.e8m7) 3 false amax.1 (amax.2 * (quantMax f).getD 1)).1 0x7F7F, false)

/-- One block of `VQUANT` (R209). -/
def quantBlock (f : Fmt) (mode : Mode) (d a : BitVec 5) (k : BitVec 3) (h : Hart) (b : Nat) : Hart :=
  let l := h.blk
  let vl := h.vl.toNat
  let es := List.range' (b * l) l
  let val (e : Nat) : Val := binVal h.bin (h.elem h.ew a e).toNat
  let act (e : Nat) : Bool := decide (e < vl) && h.active k e
  let (sc, forced) := blockScale f ((es.filter act).map val)
  let h := { h.setElem 16 (d + 1) b (BitVec.ofNat 64 sc) with fcsr := h.fcsr ||| nvIf forced }
  es.foldl (init := h) fun h e =>
    if vl ≤ e then h.setElem 8 d e 0
    else if !act e then (if h.mz then h.setElem 8 d e 0 else h)
    else if forced || sc == 0 then h.setElem 8 d e 0
    else
      let (c, g) := qround f mode (val e) (binVal (binOf Fmts.e8m7) sc)
      { h.setElem 8 d e (BitVec.ofNat 64 c) with fcsr := h.fcsr ||| g }

/-- The tail of `VQUANT`: codes past the last block at 8 bits, scales past the block count at 16 (R209). -/
def quantTail (d : BitVec 5) (h : Hart) : Hart :=
  if h.tz then
    let nb := (h.vl.toNat + h.blk - 1) / h.blk
    let h' := (span (nb * h.blk) (vlmax 8 h.g)).foldl (fun h e => h.setElem 8 d e 0) h
    (span nb (vlmax 16 h.g)).foldl (fun h e => h.setElem 16 (d + 1) e 0) h'
  else h

/-- `VQUANT` on elements of a list (R209): the blocks that start among them. One whose last element group is not among them is not written, unless the list
reaches VL (R211). -/
def quantBlocks (f : Fmt) (mode : Mode) (d a : BitVec 5) (k : BitVec 3) (l : List Nat) (h : Hart) : Hart :=
  match l with
  | [] => h
  | e :: _ =>
    let n := l.getLastD 0 + 1
    (span ((e + h.blk - 1) / h.blk) (if n < h.vl.toNat then n / h.blk else (n - 1) / h.blk + 1)).foldl (quantBlock f mode d a k) h

/-- `VQUANT` (R209, R211). -/
def execVquant (cv : BitVec 1) (d a f : BitVec 5) (k r : BitVec 3) (s : State) : Out :=
  vword ((0x2E000000#32 ||| fld cv 31 ||| fld d 19 ||| fld a 14 ||| fld f 9 ||| fld k 6 ||| fld r 3)) cv (s.h.member .arith [a] (gov k) [d, d + 1] []) (!quantType s.h || d == 31 || a == d || a == d + 1)
    (fun s => elementwise (max s.h.blk (groupLen s.h.ew))
      (fun l h => quantBlocks f (modeOf r h) d a k l h) (quantTail d) s) s

/-- `VDEQ` (R210). -/
def execVdeq (cv : BitVec 1) (d a f : BitVec 5) (k r : BitVec 3) (s : State) : Out :=
  vword ((0x2E000004#32 ||| fld cv 31 ||| fld d 19 ||| fld a 14 ||| fld f 9 ||| fld k 6 ||| fld r 3)) cv (s.h.member .arith [a, a + 1] (gov k) [d] []) (!quantType s.h || a == 31 || d == a || d == a + 1)
    (vmap d k fun h e =>
      let sc := binVal (binOf Fmts.e8m7) (h.elem 16 (a + 1) (e / h.blk)).toNat
      let (c, g) := roundOp h.bin (modeOf r h) ((codeVal f (elemCode f (h.elem 8 a e))).mul sc)
      (BitVec.ofNat 64 c, g)) s

/-! ## Level-index words (R215-R221) -/

/-- The vector's format is an SLI format. -/
def sliType (h : Hart) : Bool := fmtSli h.fmt

/-- An operation of R216 on codes. -/
def sliOp2 (f : Nat → Sli → Sli → Sli × Flags) (h : Hart) (x y : Word) : Word × Flags :=
  let n := sliF h.fmt
  let (r, g) := f n (sliVal n x.toNat) (sliVal n y.toNat)
  (BitVec.ofNat 64 (sliCode n r), g)

/-- a − b (R216). -/
def sliSub (f : Nat) (a b : Sli) : Sli × Flags := sliAdd f a b.negate

/-- `SLIOP` (R216). -/
def sliop (w : Insn) (f : Nat → Sli → Sli → Sli × Flags) (cv : BitVec 1) (d a b : BitVec 5) (k : BitVec 3) (s : State) : Out :=
  vword w cv (s.h.member .arithB [a, b] (gov k) [d] []) (!sliType s.h)
    (vmap d k fun h e => sliOp2 f h (h.elem h.ew a e) (h.elem h.ew b e)) s

/-- `SLIX` (R216). -/
def slix (w : Insn) (f : Nat → Sli → Sli → Sli × Flags) (cv : BitVec 1) (d a : BitVec 5) (x : BitVec 6) (k : BitVec 3) (s : State) : Out :=
  let y := scalarOperand s.h (rx s x)
  vword w cv (s.h.member .arithB [a] (gov k) [d] []) (!sliType s.h)
    (vmap d k fun h e => sliOp2 f h (h.elem h.ew a e) y) s

/-- `SLIFN` (R218, R219). -/
def slifn (w : Insn) (f : Nat → Sli → Sli × Flags) (cv : BitVec 1) (d a : BitVec 5) (k : BitVec 3) (s : State) : Out :=
  vword w cv (s.h.member .arithB [a] (gov k) [d] []) (!sliType s.h)
    (vmap d k fun h e =>
      let n := sliF h.fmt
      let (r, g) := f n (sliVal n (h.elem h.ew a e).toNat)
      (BitVec.ofNat 64 (sliCode n r), g)) s

/-- `SLIRED` (R221): the tree of R111. -/
def slired (w : Insn) (op : Hart → RedOp) (ident : Nat → Nat) (cv : BitVec 1) (d a b : BitVec 5) (k : BitVec 3) (s : State) : Out :=
  vword w cv (s.h.member .select [a, b] (gov k) [d] []) (!sliType s.h)
    (treeBody op (fun h => BitVec.ofNat 64 (ident (sliF h.fmt))) d a b k) s

/-- Larger or smaller of two codes (R221). -/
def sliPickOp (larger : Bool) (h : Hart) : RedOp := fun x y => (BitVec.ofNat 64 (sliPick (sliF h.fmt) larger x.toNat y.toNat), 0)

/-- `SLIOP_ADD` (R216). -/
def execSliopAdd (cv : BitVec 1) (d a b : BitVec 5) (k : BitVec 3) (s : State) : Out :=
  sliop ((0x4A000000#32 ||| fld cv 31 ||| fld d 19 ||| fld a 14 ||| fld b 9 ||| fld k 6)) sliAdd cv d a b k s

/-- `SLIOP_SUB` (R216). -/
def execSliopSub (cv : BitVec 1) (d a b : BitVec 5) (k : BitVec 3) (s : State) : Out :=
  sliop ((0x4A000001#32 ||| fld cv 31 ||| fld d 19 ||| fld a 14 ||| fld b 9 ||| fld k 6)) sliSub cv d a b k s

/-- `SLIOP_MUL` (R216). -/
def execSliopMul (cv : BitVec 1) (d a b : BitVec 5) (k : BitVec 3) (s : State) : Out :=
  sliop ((0x4A000002#32 ||| fld cv 31 ||| fld d 19 ||| fld a 14 ||| fld b 9 ||| fld k 6)) sliMul cv d a b k s

/-- `SLIOP_DIV` (R216). -/
def execSliopDiv (cv : BitVec 1) (d a b : BitVec 5) (k : BitVec 3) (s : State) : Out :=
  sliop ((0x4A000003#32 ||| fld cv 31 ||| fld d 19 ||| fld a 14 ||| fld b 9 ||| fld k 6)) sliDiv cv d a b k s

/-- `SLIX_ADD` (R216). -/
def execSlixAdd (cv : BitVec 1) (d a : BitVec 5) (x : BitVec 6) (k : BitVec 3) (s : State) : Out :=
  slix ((0x4F000000#32 ||| fld cv 31 ||| fld d 19 ||| fld a 14 ||| fld x 8 ||| fld k 5)) sliAdd cv d a x k s

/-- `SLIX_SUB` (R216). -/
def execSlixSub (cv : BitVec 1) (d a : BitVec 5) (x : BitVec 6) (k : BitVec 3) (s : State) : Out :=
  slix ((0x4F000001#32 ||| fld cv 31 ||| fld d 19 ||| fld a 14 ||| fld x 8 ||| fld k 5)) sliSub cv d a x k s

/-- `SLIX_MUL` (R216). -/
def execSlixMul (cv : BitVec 1) (d a : BitVec 5) (x : BitVec 6) (k : BitVec 3) (s : State) : Out :=
  slix ((0x4F000002#32 ||| fld cv 31 ||| fld d 19 ||| fld a 14 ||| fld x 8 ||| fld k 5)) sliMul cv d a x k s

/-- `SLIX_DIV` (R216). -/
def execSlixDiv (cv : BitVec 1) (d a : BitVec 5) (x : BitVec 6) (k : BitVec 3) (s : State) : Out :=
  slix ((0x4F000003#32 ||| fld cv 31 ||| fld d 19 ||| fld a 14 ||| fld x 8 ||| fld k 5)) sliDiv cv d a x k s

/-- `SLIX_RSUB` (R216). -/
def execSlixRsub (cv : BitVec 1) (d a : BitVec 5) (x : BitVec 6) (k : BitVec 3) (s : State) : Out :=
  slix ((0x4F000004#32 ||| fld cv 31 ||| fld d 19 ||| fld a 14 ||| fld x 8 ||| fld k 5)) (fun n x y => sliSub n y x) cv d a x k s

/-- `SLIX_RDIV` (R216). -/
def execSlixRdiv (cv : BitVec 1) (d a : BitVec 5) (x : BitVec 6) (k : BitVec 3) (s : State) : Out :=
  slix ((0x4F000005#32 ||| fld cv 31 ||| fld d 19 ||| fld a 14 ||| fld x 8 ||| fld k 5)) (fun n x y => sliDiv n y x) cv d a x k s

/-- `SLIFN_EXP` (R218). -/
def execSlifnExp (cv : BitVec 1) (d a : BitVec 5) (k : BitVec 3) (s : State) : Out :=
  slifn ((0x4B000000#32 ||| fld cv 31 ||| fld d 19 ||| fld a 14 ||| fld k 6)) sliExp cv d a k s

/-- `SLIFN_LOG` (R219). -/
def execSlifnLog (cv : BitVec 1) (d a : BitVec 5) (k : BitVec 3) (s : State) : Out :=
  slifn ((0x4B000001#32 ||| fld cv 31 ||| fld d 19 ||| fld a 14 ||| fld k 6)) sliLog cv d a k s

/-- `SLIRED_SUM` (R221). -/
def execSliredSum (cv : BitVec 1) (d a b : BitVec 5) (k : BitVec 3) (s : State) : Out :=
  slired ((0x4D000000#32 ||| fld cv 31 ||| fld d 19 ||| fld a 14 ||| fld b 9 ||| fld k 6)) (sliOp2 sliAdd) (fun _ => 0) cv d a b k s

/-- `SLIRED_MAX` (R221). -/
def execSliredMax (cv : BitVec 1) (d a b : BitVec 5) (k : BitVec 3) (s : State) : Out :=
  slired ((0x4D000001#32 ||| fld cv 31 ||| fld d 19 ||| fld a 14 ||| fld b 9 ||| fld k 6)) (sliPickOp true) (fun f => sliCode f (.num true (sliTop f))) cv d a b k s

/-- `SLIRED_MIN` (R221). -/
def execSliredMin (cv : BitVec 1) (d a b : BitVec 5) (k : BitVec 3) (s : State) : Out :=
  slired ((0x4D000002#32 ||| fld cv 31 ||| fld d 19 ||| fld a 14 ||| fld b 9 ||| fld k 6)) (sliPickOp false) (fun f => sliCode f (.num false (sliTop f))) cv d a b k s

/-! ## VTRANS (R212-R214) -/

/-- `VTRANS`. -/
def vtrans (w : Insn) (fn : TransFn) (cv : BitVec 1) (d a : BitVec 5) (k : BitVec 3) (s : State) : Out :=
  vword w cv (s.h.member .arithB [a] (gov k) [d] []) (s.h.fmt != Fmts.fp32)
    (vmap d k fun h e =>
      let (c, g) := transCode fn (h.elem 32 a e).toNat
      (BitVec.ofNat 64 c, g)) s

/-- `VTRANS_EXP` (R213). -/
def execVtransExp (cv : BitVec 1) (d a : BitVec 5) (k : BitVec 3) (s : State) : Out :=
  vtrans ((0x4E000000#32 ||| fld cv 31 ||| fld d 19 ||| fld a 14 ||| fld k 6)) .exp cv d a k s

/-- `VTRANS_EXP2` (R213). -/
def execVtransExp2 (cv : BitVec 1) (d a : BitVec 5) (k : BitVec 3) (s : State) : Out :=
  vtrans ((0x4E000001#32 ||| fld cv 31 ||| fld d 19 ||| fld a 14 ||| fld k 6)) .exp2 cv d a k s

/-- `VTRANS_LOG` (R213). -/
def execVtransLog (cv : BitVec 1) (d a : BitVec 5) (k : BitVec 3) (s : State) : Out :=
  vtrans ((0x4E000002#32 ||| fld cv 31 ||| fld d 19 ||| fld a 14 ||| fld k 6)) .log cv d a k s

/-- `VTRANS_LOG2` (R213). -/
def execVtransLog2 (cv : BitVec 1) (d a : BitVec 5) (k : BitVec 3) (s : State) : Out :=
  vtrans ((0x4E000003#32 ||| fld cv 31 ||| fld d 19 ||| fld a 14 ||| fld k 6)) .log2 cv d a k s

/-- `VTRANS_RCP` (R213). -/
def execVtransRcp (cv : BitVec 1) (d a : BitVec 5) (k : BitVec 3) (s : State) : Out :=
  vtrans ((0x4E000004#32 ||| fld cv 31 ||| fld d 19 ||| fld a 14 ||| fld k 6)) .rcp cv d a k s

/-- `VTRANS_RSQRT` (R213). -/
def execVtransRsqrt (cv : BitVec 1) (d a : BitVec 5) (k : BitVec 3) (s : State) : Out :=
  vtrans ((0x4E000005#32 ||| fld cv 31 ||| fld d 19 ||| fld a 14 ||| fld k 6)) .rsqrt cv d a k s

/-- `VTRANS_TANH` (R213). -/
def execVtransTanh (cv : BitVec 1) (d a : BitVec 5) (k : BitVec 3) (s : State) : Out :=
  vtrans ((0x4E000006#32 ||| fld cv 31 ||| fld d 19 ||| fld a 14 ||| fld k 6)) .tanh cv d a k s

end Sys2Proof.Machine
end

