-- ==== Sys2Proof/Machine/Csr.lean ====
section
/-!
DEFINITION. Control and status registers, and the `SYS` words (02 R29-R37; 04 R87-R94; 07 R149-R154; 21 R328; 28 R395).
-/

namespace Sys2Proof.Machine

/-- SEAMLOC (R328). -/
def seamloc (s : State) : Word :=
  let l := layerOf s.hid
  BitVec.ofNat 64 (s.d.gen.toNat * 2 ^ 48 + s.d.pkg.toNat * 2 ^ 36 + (if fusedAt s.d (coreOf s.hid) then 2 ^ 16 else 0) +
    l / 8 * 2 ^ 15 + l / 2 * 2 ^ 12 + l * 2 ^ 8 + bits s.hid 6 5 * 2 ^ 6 + bits s.hid 4 3 * 2 ^ 4)

/-- LAT (R23). -/
def latWord (h : Hart) : Word :=
  BitVec.ofNat 64 (h.gmap.toNat * 2 ^ 32 + h.g * 2 ^ 16 + h.lgmax.toNat * 2 ^ 8 + h.lgmin.toNat)

/-- The register that a CSR number names, for the hart in focus; none where R29 lists no such number. -/
def csrRead (s : State) (n : BitVec 10) : Option Word :=
  let h := s.h
  match n.toNat with
  | 0x000 => some (h.vl.setWidth 64)
  | 0x001 => some (h.vtype.setWidth 64)
  | 0x002 => some (h.vstart.setWidth 64)
  | 0x003 => some h.vpr
  | 0x004 => some (h.vdirty.setWidth 64)
  | 0x005 => some (h.fcsr.setWidth 64)
  | 0x006 => some (h.mshape.setWidth 64)
  | 0x007 => some (BitVec.ofNat 64 (popCount h.smm 2048))
  | 0x020 => some (latWord h)
  | 0x021 => some (s.c.na.setWidth 64)
  | 0x030 => some (s.hid.setWidth 64)
  | 0x031 => some (h.unit.setWidth 64)
  | 0x032 => some (h.node.setWidth 64)
  | 0x033 => some (seamloc s)
  | 0x040 => some s.d.cycle
  | 0x041 => some h.instret
  | 0x100 => some h.status
  | 0x101 => some h.epc
  | 0x102 => some (h.cause.setWidth 64)
  | 0x103 => some h.tval
  | 0x104 => some h.tbase
  | 0x105 => some (h.asid.setWidth 64)
  | 0x106 => some h.ptroot
  | k => if 0x010 ≤ k ∧ k ≤ 0x01F then some (h.focc[lay (k - 0x010)].setWidth 64) else none

/-- A write of FOCC[i] (R33): above the capacity it stores the capacity and sets FOVF. -/
def writeFocc (h : Hart) (i : Fin 16) (v : Word) : Hart :=
  let cap := vlmax 32 h.g
  let n := bits v 11 0
  if cap < n then { h with focc := h.focc.set i (BitVec.ofNat 12 cap), fcsr := h.fcsr ||| Flag.fovf }
  else { h with focc := h.focc.set i (BitVec.ofNat 12 n) }

/-- A write of FCSR (R34): RM keeps its value for 5, 6 and 7. -/
def writeFcsr (h : Hart) (v : Word) : Hart :=
  let n : BitVec 14 := v.setWidth 14
  { h with fcsr := if 5 ≤ bits v 2 0 then putBits n 0 h.rm else n }

/-- A write of STATUS (R149): IE, PIE, PPRV and the three enables. -/
def writeStatus (h : Hart) (v : Word) : Hart :=
  { h with ie := bit v 0, pie := bit v 1, pprv := bit v 2, ten := bit v 8, een := bit v 9, pen := bit v 10 }

/-- A write of a register by the hart in focus, field by field (R88); of a register that is read-only at the privilege it has no effect. -/
def csrWrite (s : State) (n : BitVec 10) (v : Word) : Except Stop State :=
  let h := s.h
  match n.toNat with
  | 0x002 => .ok { s with h := { h with vstart := v.setWidth 11, resumed := false, owed := [] } }
  | 0x003 => .ok { s with h := { h with vpr := v } }
  | 0x004 => .ok (if h.prv then { s with h := { h with vdirty := h.vdirty &&& ~~~(v.setWidth 40) } } else s)
  | 0x005 => .ok { s with h := writeFcsr h v }
  | 0x006 => .ok { s with h := { h with mshape := v.setWidth 44 &&& 0xFFFFFFF7F7F#44 } }
  | 0x007 => .ok { s with h := { h with smm := 0 } }
  | 0x021 => if h.prv then writeLpart s v else .ok s
  | 0x100 => .ok { s with h := writeStatus h v }
  | 0x101 => .ok { s with h := { h with epc := v &&& ~~~3#64 } }
  | 0x102 => .ok { s with h := { h with cause := v.setWidth 6 } }
  | 0x103 => .ok { s with h := { h with tval := v } }
  | 0x104 => .ok { s with h := { h with tbase := v &&& ~~~63#64 } }
  | 0x105 => .ok { s with h := { h with asid := v.setWidth 14 } }
  | 0x106 => .ok { s with h := { h with ptroot := v &&& 0x000FFFFFFFFF0000#64 } }
  | k => .ok (if 0x010 ≤ k ∧ k ≤ 0x01F then { s with h := writeFocc h (lay (k - 0x010)) v } else s)

/-- The register exists and may be named at the hart's privilege (R29, R88). -/
def csrAllowed (s : State) (n : BitVec 10) : Bool := (csrRead s n).isSome && (s.h.prv || n.toNat < 0x100)

/-- A CSR word (R87, R88) that writes `f old`, or nothing: `w` is the word itself. -/
def csrOp (w : Insn) (d : BitVec 6) (n : BitVec 10) (f : Option (Word → Word)) (s : State) : Out :=
  match csrRead s n with
  | none => .next (illegal s w)
  | some old =>
    if !s.h.prv ∧ 0x100 ≤ n.toNat then .next (illegal s w)
    else
      match f with
      | none => .next (done (wx s d old))
      | some f =>
        match csrWrite s n (f old) with
        | .ok t => .next (done (wx t d old))
        | .error (.wait x) => .next (await (stallLpart s (f old)) x)
        | .error (.trap c v) => .next (trap s c v)


/-- `CSRRD` (R87). -/
def execCsrrd (d : BitVec 6) (n : BitVec 10) (s : State) : Out := csrOp (0x19000000#32 ||| fld d 18 ||| fld n 0) d n none s

/-- `CSRWR` (R87). -/
def execCsrwr (d a : BitVec 6) (n : BitVec 10) (s : State) : Out :=
  csrOp (0x19000400#32 ||| fld d 18 ||| fld a 12 ||| fld n 0) d n (some fun _ => rx s a) s

/-- `CSRBS` (R87). -/
def execCsrbs (d a : BitVec 6) (n : BitVec 10) (s : State) : Out :=
  csrOp (0x19000800#32 ||| fld d 18 ||| fld a 12 ||| fld n 0) d n (some fun o => o ||| rx s a) s

/-- `CSRBC` (R87). -/
def execCsrbc (d a : BitVec 6) (n : BitVec 10) (s : State) : Out :=
  csrOp (0x19000C00#32 ||| fld d 18 ||| fld a 12 ||| fld n 0) d n (some fun o => o &&& ~~~rx s a) s

/-- A register write as an event at hart `h` (R88): the same effect as a CSR word's write part, with no word completing. -/
def csrEvent (h : BitVec 11) (n : BitVec 10) (v : Word) (s : State) : State :=
  onHart s h fun s =>
    match csrWrite s n v with
    | .ok t => t
    | .error (.wait _) => stallLpart s v
    | .error (.trap _ _) => s

/-- `LPART_WRITE` (R16). -/
def execLpartWrite (h : BitVec 11) (v : BitVec 64) (s : State) : Out := .next (csrEvent h 0x021 v s)

/-- `SMM_WRITE` (R36). -/
def execSmmWrite (h : BitVec 11) (s : State) : Out := .next (csrEvent h 0x007 0 s)

/-- `FOCC_WRITE` (R33). -/
def execFoccWrite (h : BitVec 11) (n : BitVec 4) (v : BitVec 64) (s : State) : Out := .next (csrEvent h (0x010 + n.setWidth 10) v s)

/-- `FCSR_WRITE` (R34). -/
def execFcsrWrite (h : BitVec 11) (v : BitVec 64) (s : State) : Out := .next (csrEvent h 0x005 v s)

/-- `VDIRTY_WRITE` (R32). -/
def execVdirtyWrite (h : BitVec 11) (v : BitVec 64) (s : State) : Out := .next (csrEvent h 0x004 v s)

/-- `REGISTER_WRITE` (R88, R426, R438): of a hart's register by its number, or by the host of the window word at address `n`, where the stage serves it. -/
def execRegisterWrite (host : BitVec 1) (h : BitVec 11) (n v : BitVec 64) (s : State) : Out :=
.next <|
    if host = 1 then (if inMgmt n.toNat ∧ n.toNat % 8 = 0 ∧ served s.d (n.toNat - 0xF000000000) then writeWindow s (n.toNat - 0xF000000000) v else s)
    else csrEvent h (n.setWidth 10) v s

/-! ## System words -/

/-- An interrupt is pending, enabled or not (R93, R154). -/
def pending (h : Hart) : Bool := h.tpend || !h.ext.isEmpty || h.ppend

/-- `SVC` (R91). -/
def execSvc (cv : BitVec 12) (s : State) : Out := .next (trap s Cause.svc (cv.setWidth 64))

/-- `TRAP` (R91). -/
def execTrap (a : BitVec 6) (s : State) : Out := .next (if rx s a = 0 then done s else trap s Cause.svc (rx s a))

/-- `BREAK` (R91). -/
def execBreakC (cv : BitVec 12) (s : State) : Out := .next (trap s Cause.breakpoint (cv.setWidth 64))

/-- `RETT` (R92). -/
def execRett (s : State) : Out := .next (if s.h.prv then trapReturn s else illegal s (0x1A000003#32))

/-- `WFI` (R93): it waits for a pending interrupt, and ends when it runs again after one has stopped it, as R93 lets it end early (log 28). -/
def execWfi (s : State) : Out :=
  .next (if pending s.h ∨ s.h.woken then done { s with h := { s.h with woken := false } } else await s .wfi)

/-- `WFI_EARLY_COMPLETION` (R93). -/
def execWfiEarlyCompletion (h : BitVec 11) (s : State) : Out := .next (onHart s h fun s => if s.h.wait = some .wfi then done s else s)

/-- `PAUSE` (R93): it gives up the hart's turn, and completes when the hart takes its next one, or at once with an interrupt pending. -/
def execPause (s : State) : Out := .next (if pending s.h ∨ s.h.wait = some .pause then done s else await s .pause)

/-- `PAUSE_EXPIRY` (R93). -/
def execPauseExpiry (h : BitVec 11) (s : State) : Out := .next (onHart s h fun s => if s.h.wait = some .pause then done s else s)

/-- `HALT` (R94): a release at package scope, then the unit retires. -/
def execHalt (s : State) : Out := .next (retireUnit (s.release 6) 0)

/-- `BRV_RESOLVE` (R86): the `BRV` at the pc of hart `h` resolves; every older word has completed (log 1), so it completes as R85 says. -/
def execBrvResolve (h : BitVec 11) (s : State) : Out :=
  .next <| onHart s h fun s =>
    match fetch s s.h.pc with
    | .error _ => s
    | .ok (w, t) =>
      if seg w 24 8 ≠ 0x1B ∨ !s.h.live ∨ s.h.halted ∨ s.h.region.isSome then s
      else
        let n := maskCount t.h (seg w 12 3)
        let taken := if seg w 18 2 = 0 then 0 < n else if seg w 18 2 = 1 then n = 0 else n = t.h.vl.toNat
        if seg w 18 2 = 3 ∨ seg w 20 4 ≠ 0 ∨ seg w 15 3 ≠ 0 then s
        else if taken then doneAt t (target t (seg w 0 12)) else done t

/-- `ILLEGAL_INSN` at the word `w` as the decoder refuses it (R51, R52). -/
def execIllegalInsn (w : BitVec 32) (s : State) : Out := .next (illegal s w)

/-- A fetch that fails takes its cause at the word, with the fetch address in `TVAL` (R52, R155). -/
def execFetchFault (cause : BitVec 6) (a : BitVec 64) (s : State) : Out := .next (trap s cause a)

end Sys2Proof.Machine
end

