-- ==== Sys2Proof/Machine/Atomics.lean ====
section
/-!
DEFINITION. The operations of the atomics, by the code of `AMO` (0 to 7) and `AMO2` (8 to 15): the width of the word in memory
and the value written (03 R50, 16 R282, 22 R357).
-/

namespace Sys2Proof.Machine

namespace Amo
/-- add. -/ abbrev add : Nat := 0
/-- and. -/ abbrev and' : Nat := 1
/-- or. -/ abbrev or' : Nat := 2
/-- xor. -/ abbrev xor' : Nat := 3
/-- swap. -/ abbrev swap : Nat := 4
/-- min. -/ abbrev min' : Nat := 5
/-- max. -/ abbrev max' : Nat := 6
/-- fadd32. -/ abbrev fadd32 : Nat := 7
/-- umin. -/ abbrev umin : Nat := 8
/-- umax. -/ abbrev umax : Nat := 9
/-- cas. -/ abbrev cas : Nat := 10
/-- incb. -/ abbrev incb : Nat := 11
/-- fmin32. -/ abbrev fmin32 : Nat := 12
/-- fmax32. -/ abbrev fmax32 : Nat := 13
/-- add32w. -/ abbrev add32w : Nat := 14
/-- fadd16x2. -/ abbrev fadd16x2 : Nat := 15
end Amo

/-- round(m + b) in a layout, RNE, with a canonical NaN and no flag (R357). -/
def amoFadd (l : Bin) (m b : Nat) : Nat := (opAdd l 0 (m % 2 ^ (l.sbit + 1)) (b % 2 ^ (l.sbit + 1))).1

/-- The sum of two pairs of binary16 halves (R357). -/
def amoFadd16 (m b : Nat) : Nat := amoFadd bin16 m b + 2 ^ 16 * amoFadd bin16 (m / 2 ^ 16) (b / 2 ^ 16)

/-- Minimum or maximum of binary32 codes (R78, R357). -/
def amoPick (larger : Bool) (m b : Nat) : Nat := (pickCode bin32 larger (m % 2 ^ 32) (b % 2 ^ 32)).1

/-- What operation `op` writes over the word `m` of `w` bits with operand `b`, none where it writes nothing; `x` is the comparand of cas (R282, R357). -/
def amoNew (op w : Nat) (m b x : Nat) : Option Nat :=
  let u : BitVec w := BitVec.ofNat w m
  let v : BitVec w := BitVec.ofNat w b
  match op with
  | 0 => some (u + v).toNat
  | 1 => some (u &&& v).toNat
  | 2 => some (u ||| v).toNat
  | 3 => some (u ^^^ v).toNat
  | 4 => some v.toNat
  | 5 => some (if v.slt u then v else u).toNat
  | 6 => some (if u.slt v then v else u).toNat
  | 7 => some (amoFadd bin32 m b)
  | 8 => some (if v.ult u then v else u).toNat
  | 9 => some (if u.ult v then v else u).toNat
  | 10 => if m = x then some v.toNat else none
  | 11 => if u.ult v then some (u + 1).toNat else none
  | 12 => some (amoPick false m b)
  | 13 => some (amoPick true m b)
  | 14 => some (u + ((BitVec.ofNat 32 b).signExtend w)).toNat
  | _ => some (amoFadd16 m b)

/-- Bytes of the memory word of a scalar atomic (R357). -/
def amoBytes (op : Nat) : Nat := if op = Amo.fadd32 ∨ op = Amo.fmin32 ∨ op = Amo.fmax32 ∨ op = Amo.fadd16x2 then 4 else 8

end Sys2Proof.Machine
end

