-- ==== Sys2Proof/Machine/Patterns.lean ====
section
/-!
DEFINITION. Pattern records: their fields, validity, the bytes of each element, the byte span, and reading and writing elements through them
(03 R61; 15_patterns_swatches_shuttle.md R248-R252).
-/

namespace Sys2Proof.Machine

namespace PRec
/-- BASE. -/ def base (r : BitVec 512) : Word := r.extractLsb' 0 64
/-- FMT. -/ def fmt (r : BitVec 512) : Fmt := r.extractLsb' 64 5
/-- RANK. -/ def rank (r : BitVec 512) : Nat := bits r 74 72
/-- LAYOUT: 0 row, 1 column, 2 plane. -/ def layout (r : BitVec 512) : Nat := bits r 76 75
/-- SPACE: true is scratchpad. -/ def space (r : BitVec 512) : Bool := bit r 77
/-- BLK as a block length, 0 for none. -/ def blk (r : BitVec 512) : Nat := blkLen (r.extractLsb' 80 3)
/-- FILL. -/ def fill (r : BitVec 512) : Nat := bits r 127 96
/-- EXTd. -/ def ext (r : BitVec 512) (d : Nat) : Nat := (r.extractLsb' (128 + 32 * d) 32).toNat
/-- STRIDEd. -/ def stride (r : BitVec 512) (d : Nat) : Int := (r.extractLsb' (256 + 32 * d) 32).toInt
/-- SCALE. -/ def scale (r : BitVec 512) : Word := r.extractLsb' 384 64
/-- SSTRIDE. -/ def sstride (r : BitVec 512) : Int := (r.extractLsb' 448 32).toInt
end PRec

/-- The container size c of a format in bytes (R250); 0 for codes narrower than 8 bits. -/
def container (f : Fmt) : Nat :=
  match fmtBits f with
  | 8 => 1 | 16 => 2 | 19 => 4 | 32 => 4 | 64 => 8 | _ => 0

/-- The record is valid (R249). -/
def patValid (r : BitVec 512) : Bool :=
  let f := PRec.fmt r
  let c := container f
  let k := PRec.rank r
  let rz := bits r 71 69 == 0 && bits r 79 78 == 0 && bits r 87 83 == 0 && bits r 95 88 == 0 && bits r 511 480 == 0
  f.toNat ≤ 0x1C && rz && PRec.layout r != 3 && 1 ≤ k && k ≤ 4 &&
    ((List.range 4).all fun d => d < k || (PRec.ext r d == 1 && PRec.stride r d == 0)) &&
    bits r 82 80 ≤ 4 && (PRec.blk r == 0 || (fmtMatrix f && (PRec.scale r).toNat % 2 == 0)) &&
    (PRec.layout r == 2 || c == 0 ||
      ((PRec.base r).toNat % c == 0 && (List.range 4).all fun d => k ≤ d || PRec.stride r d % (c : Int) == 0))

/-- The pattern's BASE as an exact integer: BASE[19:0] in scratchpad (R249, R252). -/
def patBase (r : BitVec 512) : Int :=
  if PRec.space r then (bits (PRec.base r) 19 0 : Int) else ((PRec.base r).toNat : Int)

/-- Whether every bit of an element is found by the container rule (codes of 8 bits or more, row or column layout). -/
def patWhole (r : BitVec 512) : Bool := PRec.layout r != 2 && container (PRec.fmt r) != 0

/-- Index and stride of the dimensions `d` that an element's address sums over (R250). -/
def patOffset (r : BitVec 512) (ix : Nat → Nat) (used : Nat → Bool) : Int :=
  (List.range 4).foldl (fun a d => if used d then a + (ix d : Int) * PRec.stride r d else a) 0

/-- The dimension whose stride R250 leaves unused, if any: the packed one. -/
def packedDim (r : BitVec 512) : Option Nat :=
  if PRec.layout r = 2 then some 0
  else if container (PRec.fmt r) != 0 then none
  else if PRec.layout r = 0 then some 0 else some 1

/-- Where bit `q` of an element's code lies: byte address before any reduction, and bit in it (R250). -/
def patBit (r : BitVec 512) (ix : Nat → Nat) (q : Nat) : Int × Nat :=
  let b := fmtBits (PRec.fmt r)
  match packedDim r with
  | none =>
    let q := if PRec.fmt r = Fmts.e8m10 then q + 13 else q
    (patBase r + patOffset r ix (fun _ => true) + (q / 8 : Nat), q % 8)
  | some p =>
    let run := patBase r + patOffset r ix (· != p)
    if PRec.layout r = 2 then (run + ((q * ((PRec.ext r 0 + 7) / 8) + ix 0 / 8 : Nat) : Int), ix 0 % 8)
    else
      let n := b * ix p + q
      (run + (n / 8 : Nat), n % 8)

/-- The element lies inside the extents (R250). -/
def patIn (r : BitVec 512) (ix : Nat → Nat) : Bool := (List.range 4).all fun d => ix d < PRec.ext r d

/-- How many elements the box has. -/
def patCount (r : BitVec 512) : Nat := PRec.ext r 0 * PRec.ext r 1 * PRec.ext r 2 * PRec.ext r 3

/-- The indices of element `n` of a box in index order, dimension 0 fastest. -/
def patIx (r : BitVec 512) (n : Nat) : Nat → Nat
  | 0 => n % PRec.ext r 0
  | 1 => n / PRec.ext r 0 % PRec.ext r 1
  | 2 => n / (PRec.ext r 0 * PRec.ext r 1) % PRec.ext r 2
  | _ => n / (PRec.ext r 0 * PRec.ext r 1 * PRec.ext r 2)

/-- The byte span on exact addresses: first byte, and one past the last; none when no element is in bounds (R252). -/
def patSpan (r : BitVec 512) : Option (Int × Int) :=
  if patCount r = 0 then none
  else
    let used (d : Nat) : Bool := packedDim r != some d
    let far (d : Nat) : Int := ((PRec.ext r d : Int) - 1) * PRec.stride r d
    let lo := (List.range 4).foldl (fun a d => if used d then a + min 0 (far d) else a) (patBase r)
    let hi := (List.range 4).foldl (fun a d => if used d then a + max 0 (far d) else a) (patBase r)
    let b := fmtBits (PRec.fmt r)
    let size : Nat := match packedDim r with
      | none => container (PRec.fmt r)
      | some p => if PRec.layout r = 2 then b * ((PRec.ext r 0 + 7) / 8) else (b * PRec.ext r p + 7) / 8
    some (lo, hi + size)

/-- The span lies in scratchpad offsets lo to hi - 1 (R252): never by wrapping. -/
def spanWithin (sp : Option (Int × Int)) (lo hi : Nat) : Bool :=
  match sp with
  | none => true
  | some (a, b) => (lo : Int) ≤ a && b ≤ (hi : Int)

/-- The span touches the swatch's region. -/
def spanTouches (sp : Option (Int × Int)) (w : Word) : Bool :=
  match sp with
  | none => false
  | some (a, b) => swLen w != 0 && a < ((swOff w + swLen w : Nat) : Int) && (swOff w : Int) < b

/-- The byte address of a scratchpad pattern modulo 2^20, of a memory pattern modulo 2^64 (R250). -/
def wrapAddr (space : Bool) (a : Int) : Nat := if space then (a % 2 ^ 20).toNat else (a % 2 ^ 64).toNat

/-- How a pattern's accesses are made: ASID, root and privilege of their translation (R169, R256), and whether what they write to scratchpad is dropped,
since a later lease owns it (R402; log 16). -/
structure Trans where
  asid : BitVec 14
  ptroot : Word
  prv : Bool
  stale : Bool
deriving DecidableEq, Repr

/-- The code a read outside the extents takes (R251). -/
def patFill (r : BitVec 512) : Nat := PRec.fill r % 2 ^ fmtBits (PRec.fmt r)

/-- One byte through a pattern, read by an engine: at its bank or at its home, no L1 (R237). -/
def engineByte (s : State) (t : Trans) (space : Bool) (a : Nat) : Except Stop (Nat × State) :=
  if space then
    let va : Word := BitVec.ofNat 64 (0xFFFFFFFFFFF00000 + a)
    if a ≥ 0xC0000 then .error (.trap Cause.access va)
    else if spadPoisoned s.c a 1 then .error (.trap Cause.access va)
    else .ok ((Memory.get s.c.spad a).toNat, s)
  else
    let va : Word := BitVec.ofNat 64 a
    match placeUnder s t.asid t.ptroot t.prv .load va 1 with
    | .error e => .error e
    | .ok (.spad off, s) => if spadPoisoned s.c off 1 then .error (.trap Cause.access va) else .ok ((Memory.get s.c.spad off).toNat, s)
    | .ok (.mem pa _, s) =>
      let (v, bad, d) := homeLoad s.d (layerOf s.hid) pa 1
      if bad then .error (.trap Cause.access va) else .ok (v, { s with d := d })
    | .ok (.dev pa _, s) =>
      if inMgmt pa then .ok ((windowLoad s.d pa 1).toNat, s)
      else if inHbm pa then
        let (v, bad, d) := homeLoad s.d (layerOf s.hid) pa 1
        if bad then .error (.trap Cause.access va) else .ok (v, { s with d := d })
      else
        let (k, s) := s.draw
        .ok ((Config.hostByte k pa).toNat, s)

/-- Where an engine's write of one byte lands. -/
def enginePlace (s : State) (t : Trans) (space : Bool) (a : Nat) : Except Stop (Place × State) :=
  if space then
    if a ≥ 0xC0000 then .error (.trap Cause.access (BitVec.ofNat 64 (0xFFFFFFFFFFF00000 + a))) else .ok (.spad a, s)
  else placeUnder s t.asid t.ptroot t.prv .store (BitVec.ofNat 64 a) 1

/-- Write one byte of an engine at its place. -/
def engineWrite (s : State) (t : Trans) (pl : Place) (v : Nat) : State :=
  match pl with
  | .spad off => if t.stale then s else spadWrite s off 1 v
  | .mem pa _ => { s with d := homeStore s.d (layerOf s.hid) pa 1 v }
  | .dev pa _ =>
    if inMgmt pa then windowStore s pa 1 (BitVec.ofNat 64 v)
    else if inHbm pa then { s with d := homeStore s.d (layerOf s.hid) pa 1 v }
    else s

/-- Read the bits q, q-1, …, 0 of an element's code (R250). -/
def patReadBits (s : State) (t : Trans) (r : BitVec 512) (ix : Nat → Nat) : Nat → Except Stop (Nat × State)
  | 0 => .ok (0, s)
  | n + 1 =>
    let (a, j) := patBit r ix n
    match engineByte s t (PRec.space r) (wrapAddr (PRec.space r) a) with
    | .error e => .error e
    | .ok (v, s) =>
      match patReadBits s t r ix n with
      | .error e => .error e
      | .ok (w, s) => .ok (v / 2 ^ j % 2 * 2 ^ n + w, s)

/-- Read `n` bytes from an address up, for whole containers. -/
def patReadBytes (s : State) (t : Trans) (space : Bool) (a : Int) : Nat → Except Stop (Nat × State)
  | 0 => .ok (0, s)
  | n + 1 =>
    match engineByte s t space (wrapAddr space a) with
    | .error e => .error e
    | .ok (v, s) =>
      match patReadBytes s t space (a + 1) n with
      | .error e => .error e
      | .ok (w, s) => .ok (v + 256 * w, s)

/-- Read an element's code through a pattern; outside the extents it is FILL and nothing is accessed (R251). -/
def patRead (s : State) (t : Trans) (r : BitVec 512) (ix : Nat → Nat) : Except Stop (Nat × State) :=
  if !patIn r ix then .ok (patFill r, s)
  else if patWhole r then
    match patReadBytes s t (PRec.space r) (patBase r + patOffset r ix fun _ => true) (container (PRec.fmt r)) with
    | .error e => .error e
    | .ok (v, s) => .ok (elemCode (PRec.fmt r) (BitVec.ofNat 64 v), s)
  else patReadBits s t r ix (fmtBits (PRec.fmt r))

/-- The places of the bytes that hold an element's code, in rising bit order: place, first bit of the code there, and bit in the byte, one entry a bit. -/
def patPlaces (s : State) (t : Trans) (r : BitVec 512) (ix : Nat → Nat) : Nat → Except Stop (List (Place × Nat × Nat) × State)
  | 0 => .ok ([], s)
  | n + 1 =>
    let (a, j) := patBit r ix n
    match enginePlace s t (PRec.space r) (wrapAddr (PRec.space r) a) with
    | .error e => .error e
    | .ok (pl, s) =>
      match patPlaces s t r ix n with
      | .error e => .error e
      | .ok (l, s) => .ok ((pl, n, j) :: l, s)

/-- The byte at a place lies in a poisoned granule: a read-modify-write of it consumes the poison (R177, R236, R281). -/
def placePoisoned (s : State) (pl : Place) : Bool :=
  match pl with
  | .spad off => spadPoisoned s.c off 1
  | .mem pa _ => homePoisoned s.d pa 1
  | .dev pa _ => inHbm pa && homePoisoned s.d pa 1

/-- The home of a place has taken the hart's layer's request (R343). -/
def atPlace (s : State) (pl : Place) : State :=
  match pl with
  | .spad _ => s
  | .mem pa _ => { s with d := request s.d (layerOf s.hid) pa }
  | .dev pa _ => if inHbm pa then { s with d := request s.d (layerOf s.hid) pa } else s

/-- Of the poison at a place only bit `j` of the byte has been written: a granule loses its poison with a write of the whole of it (R236, R446). -/
def markBit (old s : State) (t : Trans) (pl : Place) (j : Nat) : State :=
  match pl with
  | .spad off => if t.stale then s else { s with c := { s.c with spoison := poisonBits old.c.spoison (8 * off + j) 1 } }
  | .mem pa _ => { s with d := { s.d with poison := poisonBits old.d.poison (8 * pa + j) 1 } }
  | .dev pa _ => if inHbm pa then { s with d := { s.d with poison := poisonBits old.d.poison (8 * pa + j) 1 } } else s

/-- Read-modify-write of the bit `j` of the byte at a place (R281). -/
def putBitAt (s : State) (t : Trans) (pl : Place) (j : Nat) (v : Bool) : State :=
  let s := atPlace s pl
  let old := match pl with
    | .spad off => (Memory.get s.c.spad off).toNat
    | .mem pa _ => Memory.read s.d.mem pa 1
    | .dev pa _ => if inMgmt pa then (windowLoad s.d pa 1).toNat else Memory.read s.d.mem pa 1
  let w : Byte := BitVec.ofNat 8 old
  let w := if v then w ||| (1#8 <<< j) else w &&& ~~~(1#8 <<< j)
  markBit s (engineWrite s t pl w.toNat) t pl j

/-- The places of `n` consecutive bytes. -/
def bytePlaces (s : State) (t : Trans) (space : Bool) (a : Int) : Nat → Except Stop (List Place × State)
  | 0 => .ok ([], s)
  | n + 1 =>
    match enginePlace s t space (wrapAddr space a) with
    | .error e => .error e
    | .ok (pl, s) =>
      match bytePlaces s t space (a + 1) n with
      | .error e => .error e
      | .ok (l, s) => .ok (pl :: l, s)

/-- Write bytes at their places, lowest first. -/
def writeBytesAt (s : State) (t : Trans) (l : List Place) (v : Nat) : State :=
  match l with
  | [] => s
  | pl :: l => writeBytesAt (engineWrite s t pl v) t l (v / 256)

/-- A place that a write must wait for: scratchpad bytes of a busy swatch other than the bound one (R254). -/
def placeBusy (c : Core) (own : Option (BitVec 6)) (pl : Place) : Bool :=
  match pl with
  | .spad off => (List.range 64).any fun i =>
      let w := c.sws.toList.getD i 0
      own.map (·.toNat) != some i && (swState w == 1 || swState w == 3) && swTouches w off (off + 1)
  | _ => false

/-- Write an element's code through a pattern; outside the extents the write is dropped (R251). Packed codes are written bit by bit
(R281); whether that consumes poison is the caller's (log 34). -/
def patWrite (s : State) (t : Trans) (own : Option (BitVec 6)) (r : BitVec 512) (ix : Nat → Nat) (code : Nat) : Except Stop State :=
  if !patIn r ix then .ok s
  else if patWhole r then
    match bytePlaces s t (PRec.space r) (patBase r + patOffset r ix fun _ => true) (container (PRec.fmt r)) with
    | .error e => .error e
    | .ok (l, s) =>
      if l.any (placeBusy s.c own) then .error (.wait .swatch)
      else .ok (writeBytesAt s t l (codeElem (PRec.fmt r) code).toNat)
  else
    match patPlaces s t r ix (fmtBits (PRec.fmt r)) with
    | .error e => .error e
    | .ok (l, s) =>
      if l.any fun e => placeBusy s.c own e.1 then .error (.wait .swatch)
      else .ok (l.foldl (fun s e => putBitAt s t e.1 e.2.2 (code.testBit e.2.1)) s)

end Sys2Proof.Machine
end

