-- ==== Sys2Proof/Machine/VecMem.lean ====
section
/-!
DEFINITION. Vector memory words: unit-stride, strided, mask, indexed, first-fault, broadcast, stream, scratchpad and atomic
(05_vector_instructions.md R115-R118; 16_vector_memory_instructions.md R269-R284; 07 R162, R175).
-/

namespace Sys2Proof.Machine

/-! ## Loads and stores of one element after another -/

/-- The bytes of one element. -/
def Hart.bytes (h : Hart) : Nat := h.ew / 8

/-- A word that loads active elements from `addr`, one after another (R116, R271): inactive ones by MZ, then the tail. -/
def vload (w : Insn) (cv : BitVec 1) (m : Member) (bad : Bool) (d : BitVec 5) (k : BitVec 3) (side : Nat) (addr : Hart → Nat → Word) (s : State) : Out :=
  vword w cv m bad
    (tryElementwise (groupLen s.h.ew)
      (fun s e =>
        if s.h.active k e then
          match load s (addr s.h e) s.h.bytes side with
          | .error r => .error r
          | .ok (x, t) => .ok { t with h := t.h.setElem t.h.ew d e x }
        else .ok (if s.h.mz then { s with h := s.h.setElem s.h.ew d e 0 } else s))
      (fun s => { s with h := zeroTail s.h.ew d s.h })) s

/-- A word that stores active elements to `addr`, one after another (R116, R271). -/
def vstore (w : Insn) (cv : BitVec 1) (m : Member) (bad : Bool) (v : BitVec 5) (k : BitVec 3) (side : Nat) (addr : Hart → Nat → Word) (s : State) : Out :=
  vword w cv m bad
    (tryElementwise (groupLen s.h.ew)
      (fun s e => if s.h.active k e then store s (addr s.h e) s.h.bytes (s.h.elem s.h.ew v e) side else .ok s) id) s

/-- Address of element `e` at a stride (R115). -/
def strided (base stride : Word) (e : Nat) : Word := base + BitVec.ofNat 64 e * stride

/-- Address of element `e` by an index register scaled by 2^q (R270). The index register stands in bits [11:7] of the word; bit 12,
which no entry uses, is reserved (R45, R46; log 21). -/
def indexed (base : Word) (b : BitVec 5) (q : BitVec 2) (h : Hart) (e : Nat) : Word := base + (h.elem h.ew b e <<< q.toNat)


/-- `VLD` (R116). -/
def execVld (cv : BitVec 1) (v : BitVec 5) (a : BitVec 6) (k : BitVec 3) (sf : BitVec 2) (s : State) : Out :=
  vload (0x30000000#32 ||| fld cv 31 ||| fld v 19 ||| fld a 13 ||| fld k 4 ||| fld sf 2) cv (s.h.member .memory [] (gov k) [v] []) false v k sf.toNat (fun h e => strided (rx s a) (BitVec.ofNat 64 h.bytes) e) s

/-- `VLD_STR` (R116). -/
def execVldStr (cv : BitVec 1) (v : BitVec 5) (a b : BitVec 6) (k : BitVec 3) (sf : BitVec 2) (s : State) : Out :=
  vload (0x30000001#32 ||| fld cv 31 ||| fld v 19 ||| fld a 13 ||| fld b 7 ||| fld k 4 ||| fld sf 2) cv (s.h.member .memory [] (gov k) [v] []) false v k sf.toNat (fun _ e => strided (rx s a) (rx s b) e) s

/-- `VST` (R116). -/
def execVst (cv : BitVec 1) (v : BitVec 5) (a : BitVec 6) (k : BitVec 3) (sf : BitVec 2) (s : State) : Out :=
  vstore (0x31000000#32 ||| fld cv 31 ||| fld v 19 ||| fld a 13 ||| fld k 4 ||| fld sf 2) cv (s.h.member .memory [v] (gov k) [] []) false v k sf.toNat (fun h e => strided (rx s a) (BitVec.ofNat 64 h.bytes) e) s

/-- `VST_STR` (R116). -/
def execVstStr (cv : BitVec 1) (v : BitVec 5) (a b : BitVec 6) (k : BitVec 3) (sf : BitVec 2) (s : State) : Out :=
  vstore (0x31000001#32 ||| fld cv 31 ||| fld v 19 ||| fld a 13 ||| fld b 7 ||| fld k 4 ||| fld sf 2) cv (s.h.member .memory [v] (gov k) [] []) false v k sf.toNat (fun _ e => strided (rx s a) (rx s b) e) s

/-! ## Masks -/

/-- Read `n` bytes from `va` up, each checked (R118): the lowest failing byte traps. -/
def loadBytes (s : State) (va : Word) (side : Nat) : Nat → Except Stop (Nat × State)
  | 0 => .ok (0, s)
  | n + 1 =>
    match load s va 1 side with
    | .error e => .error e
    | .ok (x, s) =>
      match loadBytes s (va + 1) side n with
      | .error e => .error e
      | .ok (y, s) => .ok (x.toNat + 256 * y, s)

/-- The places of `n` bytes from `va` up for a store, each checked. -/
def storePlaces (s : State) (va : Word) : Nat → Except Stop (List Place × State)
  | 0 => .ok ([], s)
  | n + 1 =>
    match place s .store va 1 with
    | .error e => .error e
    | .ok (p, s) =>
      match storePlaces s (va + 1) n with
      | .error e => .error e
      | .ok (l, s) => .ok (p :: l, s)

/-- Write the bytes of `v` at their places, lowest first. -/
def storeBytes (s : State) (l : List Place) (v side : Nat) : Except Stop State :=
  match l with
  | [] => .ok s
  | p :: t =>
    match writePlace s p 1 (BitVec.ofNat 64 (v % 256)) side with
    | .error e => .error e
    | .ok s => storeBytes s t (v / 256) side

/-- Bytes that hold `VL` mask bits (R118). -/
def maskBytes (h : Hart) : Nat := (h.vl.toNat + 7) / 8

/-- `VLD_M` (R118). -/
def execVldM (cv : BitVec 1) (v : BitVec 3) (a : BitVec 6) (sf : BitVec 2) (s : State) : Out :=
  vword (0x30000002#32 ||| fld cv 31 ||| fld v 19 ||| fld a 13 ||| fld sf 2) cv (s.h.member .memory [] [] [] [v]) false
    (fun s =>
      match loadBytes s (rx s a) sf.toNat (maskBytes s.h) with
      | .error e => .stop s e
      | .ok (x, t) =>
        let m := bitRange 0 t.h.vl.toNat
        let h := t.h.setK v ((t.h.k[v.toNat] &&& ~~~m) ||| (BitVec.ofNat 2048 x &&& m))
        .ok (setStart { t with h := zeroMaskTail v h } 0)) s

/-- `VST_M` (R118). -/
def execVstM (cv : BitVec 1) (v : BitVec 3) (a : BitVec 6) (sf : BitVec 2) (s : State) : Out :=
  vword (0x31000002#32 ||| fld cv 31 ||| fld v 19 ||| fld a 13 ||| fld sf 2) cv (s.h.member .memory [] [v] [] []) false
    (fun s =>
      match storePlaces s (rx s a) (maskBytes s.h) with
      | .error e => .stop s e
      | .ok (l, t) =>
        match storeBytes t l (t.h.k[v.toNat] &&& bitRange 0 t.h.vl.toNat).toNat sf.toNat with
        | .error e => .stop s e
        | .ok t => .ok (setStart t 0)) s

/-! ## Indexed -/

/-- `VLDX` (R271). -/
def execVldx (cv : BitVec 1) (v : BitVec 5) (a b : BitVec 6) (k : BitVec 3) (sf q : BitVec 2) (s : State) : Out :=
  vload (0x32000000#32 ||| fld cv 31 ||| fld v 19 ||| fld a 13 ||| fld b 7 ||| fld k 4 ||| fld sf 2 ||| fld q 0) cv (s.h.member .memory [b.setWidth 5] (gov k) [v] []) (bit b 5) v k sf.toNat (fun h e => indexed (rx s a) (b.setWidth 5) q h e) s

/-- `VSTX` (R271). -/
def execVstx (cv : BitVec 1) (v : BitVec 5) (a b : BitVec 6) (k : BitVec 3) (sf q : BitVec 2) (s : State) : Out :=
  vstore (0x33000000#32 ||| fld cv 31 ||| fld v 19 ||| fld a 13 ||| fld b 7 ||| fld k 4 ||| fld sf 2 ||| fld q 0) cv (s.h.member .memory [v, b.setWidth 5] (gov k) [] []) (bit b 5) v k sf.toNat (fun h e => indexed (rx s a) (b.setWidth 5) q h e) s

/-! ## First-fault loads -/

/-- An element of `VLDFF` past the first (R273): its value, or nothing where any check fails or the page is a device window. -/
def softLoad (s : State) (va : Word) (n side : Nat) : Except Stop (Option (Word × State)) :=
  match place s .load va n with
  | .error (.wait x) => .error (.wait x)
  | .error _ => .ok none
  | .ok (.dev _ _, _) => .ok none
  | .ok (p, s) =>
    match readOwn s p va n side with
    | .error _ => .ok none
    | .ok r => .ok (some r)

/-- Elements of `VLDFF` in order: the state and where it truncated, or the trap of the first element `f`. -/
def ffLoop (d : BitVec 5) (k : BitVec 3) (base : Word) (side f : Nat) (s : State) : List Nat → Except (State × Stop) (State × Option Nat)
  | [] => .ok (s, none)
  | e :: l =>
    let h := s.h
    if h.active k e then
      let va := strided base (BitVec.ofNat 64 h.bytes) e
      if e = f then
        match load s va h.bytes side with
        | .error r => .error (setStart s e, r)
        | .ok (x, t) => ffLoop d k base side f { t with h := t.h.setElem t.h.ew d e x } l
      else
        match softLoad s va h.bytes side with
        | .error r => .error (setStart s e, r)
        | .ok none => .ok (s, some e)
        | .ok (some (x, t)) => ffLoop d k base side f { t with h := t.h.setElem t.h.ew d e x } l
    else ffLoop d k base side f (if h.mz then { s with h := h.setElem h.ew d e 0 } else s) l

/-- The body of `VLDFF` (R273). -/
def firstFault (d : BitVec 5) (k : BitVec 3) (base : Word) (side : Nat) (x : BitVec 6) (s : State) : VRes :=
  let vl := s.h.vl.toNat
  let a := s.h.vstart.toNat
  let count (t : State) (n : Nat) : VRes := .ok (setStart (wx t x (BitVec.ofNat 64 n)) 0)
  if vl ≤ a then count s vl
  else
    let f := ((List.range vl).find? fun e => s.h.active k e).getD vl
    let b := elemLimit s.h (groupLen s.h.ew)
    match ffLoop d k base side f s (span a b) with
    | .error (t, r) => .stop t r
    | .ok (t, some e) => count { t with h := zeroTail t.h.ew d t.h } e
    | .ok (t, none) => if b < vl then .pause (setStart t b) else count { t with h := zeroTail t.h.ew d t.h } vl

/-- `VLDFF` (R273). -/
def execVldff (cv : BitVec 1) (v : BitVec 5) (a x : BitVec 6) (k : BitVec 3) (sf : BitVec 2) (s : State) : Out :=
  vword (0x34000000#32 ||| fld cv 31 ||| fld v 19 ||| fld a 13 ||| fld x 7 ||| fld k 4 ||| fld sf 2) cv (s.h.member .memory [] (gov k) [v] []) false (firstFault v k (rx s a) sf.toNat x) s

/-! ## Broadcast gather and scatter -/

/-- Clear the SMM bits that the word writes anew: all of them, or those from VSTART up of a resumed word (R36). -/
def startSmm (s : State) : State := { s with h := { s.h with smm := s.h.smm &&& bitRange 0 s.h.vstart.toNat } }

/-- Set SMM[e] (R36). -/
def missed (s : State) (e : Nat) : State := { s with h := { s.h with smm := s.h.smm ||| (1#2048 <<< e) } }

/-- A broadcast access of `n` bytes must reach ordinary device memory (R274): the address and the leaf. -/
def broadcastPlace (s : State) (a : Acc) (va : Word) (n : Nat) : Except Stop (Nat × Word × State) :=
  match place s a va n with
  | .error e => .error e
  | .ok (.mem pa leaf, s) => .ok (pa, leaf, s)
  | .ok (_, _) => .error (.trap Cause.access va)

/-- The word counts on the unit's gather-and-scatter timeline (R277). -/
def countBroadcast (s : State) : State := { s with h := { s.h with gs := s.h.gs + 1 } }

/-- One element of `VGATHB` (R175, R246, R274, R346). -/
def gatherElem (d : BitVec 5) (k : BitVec 3) (addr : Hart → Nat → Word) (s : State) (e : Nat) : Except Stop State :=
  let h := s.h
  if h.active k e then
    let va := addr h e
    match broadcastPlace s .load va h.bytes with
    | .error r => .error r
    | .ok (pa, leaf, s) =>
      if scopeRefused leaf 6 then .ok (missed s e)
      else
        let (x, bad, dv) := homeLoad s.d (layerOf s.hid) pa h.bytes
        if bad then .error (.trap Cause.access va)
        else .ok { s with d := dv, h := s.h.setElem h.ew d e (BitVec.ofNat 64 x) }
  else .ok (if h.mz then { s with h := h.setElem h.ew d e 0 } else s)

/-- Width and format rule of the broadcast words (R274). -/
def broadcastWidth (h : Hart) : Bool := h.ew == 32 || h.ew == 64

/-- `VGATHB` (R274). -/
def execVgathb (cv : BitVec 1) (v : BitVec 5) (a b : BitVec 6) (k : BitVec 3) (q : BitVec 2) (s : State) : Out :=
  vword (0x35000000#32 ||| fld cv 31 ||| fld v 19 ||| fld a 13 ||| fld b 7 ||| fld k 4 ||| fld q 0) cv (s.h.member .memory [b.setWidth 5] (gov k) [v] []) (bit b 5 || !broadcastWidth s.h)
    (fun s =>
      match tryElementwise (groupLen s.h.ew) (gatherElem v k fun h e => indexed (rx s a) (b.setWidth 5) q h e)
          (fun s => { s with h := zeroTail s.h.ew v s.h }) (startSmm (s.release 2)) with
      | .ok t => .ok (countBroadcast t)
      | r => r) s

/-- Translate the elements that a scatter has still to apply, before any is applied (R175): element, address, place and leaf. -/
def scatterPlaces (n : Nat) (addr : Nat → Word) (s : State) : List Nat → Except Stop (List (Nat × Word × Nat × Word) × State)
  | [] => .ok ([], s)
  | e :: l =>
    match broadcastPlace s .store (addr e) n with
    | .error r => .error r
    | .ok (pa, leaf, s) =>
      match scatterPlaces n addr s l with
      | .error r => .error r
      | .ok (t, s) => .ok ((e, addr e, pa, leaf) :: t, s)

/-- The channel controller that owns an address (R242). -/
def controllerOf (pa : Nat) : Nat := pa / 4096 % 384

/-- How the apply phase of a scatter stands: the state, the controllers that met poison and the address of the first poisoned element,
the lines written, and the elements applied. -/
structure Scatter where
  s : State
  dead : List Nat
  bad : Option Word
  lines : List Nat
  n : Nat

/-- Apply one element of a scatter (R175, R275, R346): a refused one sets its SMM bit; a poisoned target stops its controller. -/
def scatterElem (op : Option Nat) (v : BitVec 5) (x : Scatter) (p : Nat × Word × Nat × Word) : Scatter :=
  let (e, va, pa, leaf) := p
  let s := x.s
  let h := s.h
  if scopeRefused leaf 6 then { x with s := missed s e }
  else if x.dead.contains (controllerOf pa) then x
  else
    let b := (h.elem h.ew v e).toNat
    let applied (d : Device) : Scatter :=
      { x with s := { s with d := d, h := { h with jbits := h.jbits ||| (1#2048 <<< e) } }, lines := pa :: x.lines, n := x.n + 1 }
    match op with
    | none => applied (homeStore s.d (layerOf s.hid) pa h.bytes b)
    | some o =>
      let (m, bad, d) := homeLoad s.d (layerOf s.hid) pa h.bytes
      if bad then { x with dead := controllerOf pa :: x.dead, bad := x.bad.orElse fun _ => some va }
      else applied (homeStore d (layerOf s.hid) pa h.bytes ((amoNew o h.ew m b 0).getD m))

/-- The apply phase, up to the point at which an interrupt that is being taken stops it (R162): after `lim` elements, in ascending order over all
controllers (log 31); once an element has met poison every controller completes its own (R175). -/
def scatterApply (op : Option Nat) (v : BitVec 5) (lim : Option Nat) (x : Scatter) : List (Nat × Word × Nat × Word) → Scatter × Bool
  | [] => (x, false)
  | p :: l => if x.bad.isNone && lim.any (· ≤ x.n) then (x, true) else scatterApply op v lim (scatterElem op v x p) l

/-- The body of `VSCATB` (R162, R175, R274-R277): `op` is none for a plain store. Every active element is translated; those whose bits the word's own
journal holds have been applied already, and their lines are dropped with the rest when the word completes. A fault while it translates leaves the
journal as it stands, another word's bits and address too (log 20). -/
def scatter (op : Option Nat) (v : BitVec 5) (k : BitVec 3) (addr : Hart → Nat → Word) (s : State) : VRes :=
  let h := s.h
  let mine := h.jaddr == h.pc && h.jaddr != 0
  let old (e : Nat) : Bool := mine && h.jbits.getLsbD e
  let es := (span h.vstart.toNat h.vl.toNat).filter fun e => h.active k e
  match scatterPlaces h.bytes (addr h) s es with
  | .error r => .stop (setStart s 0) r
  | .ok (ps, s) =>
    let s := startSmm (s.release 2)
    let s : State := { s with h := { s.h with jbits := if mine then s.h.jbits else 0, jaddr := s.h.pc } }
    let (x, paused) := scatterApply op v h.stop { s := s, dead := [], bad := none, lines := (ps.filter fun p => old p.1).map fun p => p.2.2.1, n := 0 }
      (ps.filter fun p => !old p.1)
    let t : State := { x.s with d := x.lines.foldl (fun d pa => dropLine d (coreOf s.hid) pa) x.s.d }
    match x.bad with
    | some va => .stop (setStart t 0) (.trap Cause.access va)
    | none =>
      if paused then .pause (setStart t 0)
      else .ok (countBroadcast (setStart { t with h := { t.h with jbits := 0, jaddr := 0 } } 0))

/-- `VSCATB_ST` (R275). -/
def execVscatbSt (cv : BitVec 1) (v : BitVec 5) (a b : BitVec 6) (k : BitVec 3) (q : BitVec 2) (s : State) : Out :=
  vword (0x36000000#32 ||| fld cv 31 ||| fld v 19 ||| fld a 13 ||| fld b 7 ||| fld k 4 ||| fld q 0) cv (s.h.member .memory [v, b.setWidth 5] (gov k) [] []) (bit b 5 || !broadcastWidth s.h)
    (scatter none v k fun h e => indexed (rx s a) (b.setWidth 5) q h e) s

/-- `VSCATB_ADD` (R275). -/
def execVscatbAdd (cv : BitVec 1) (v : BitVec 5) (a b : BitVec 6) (k : BitVec 3) (q : BitVec 2) (s : State) : Out :=
  vword (0x36000004#32 ||| fld cv 31 ||| fld v 19 ||| fld a 13 ||| fld b 7 ||| fld k 4 ||| fld q 0) cv (s.h.member .memory [v, b.setWidth 5] (gov k) [] []) (bit b 5 || !broadcastWidth s.h)
    (scatter (some Amo.add) v k fun h e => indexed (rx s a) (b.setWidth 5) q h e) s

/-- `VSCATB_FADD` (R275). -/
def execVscatbFadd (cv : BitVec 1) (v : BitVec 5) (a b : BitVec 6) (k : BitVec 3) (q : BitVec 2) (s : State) : Out :=
  vword (0x36000008#32 ||| fld cv 31 ||| fld v 19 ||| fld a 13 ||| fld b 7 ||| fld k 4 ||| fld q 0) cv (s.h.member .memory [v, b.setWidth 5] (gov k) [] []) (bit b 5 || !(s.h.ew == 32 && s.h.fmt == Fmts.fp32))
    (scatter (some Amo.fadd32) v k fun h e => indexed (rx s a) (b.setWidth 5) q h e) s

/-- `VSCATB_MAX` (R275). -/
def execVscatbMax (cv : BitVec 1) (v : BitVec 5) (a b : BitVec 6) (k : BitVec 3) (q : BitVec 2) (s : State) : Out :=
  vword (0x3600000C#32 ||| fld cv 31 ||| fld v 19 ||| fld a 13 ||| fld b 7 ||| fld k 4 ||| fld q 0) cv (s.h.member .memory [v, b.setWidth 5] (gov k) [] []) (bit b 5 || !broadcastWidth s.h)
    (scatter (some Amo.max') v k fun h e => indexed (rx s a) (b.setWidth 5) q h e) s

/-! ## Streams -/

/-- A command of a channel that has not completed. -/
def findCmd (c : Core) (ch id : Nat) : Option Cmd := (c.chans[lay ch]).cmds.find? fun x => x.id == id

/-- Vector port `p`. -/
def vport (c : Core) (p : Fin 8) : VPort := c.vports[p]

/-- Write vector port `p`. -/
def setVport (c : Core) (p : Fin 8) (v : VPort) : Core := { c with vports := c.vports.set p v }

/-- The port falls free once its command has completed and its `VLDS` has (R278). -/
def settlePort (c : Core) (p : Fin 8) : Core :=
  let v := vport c p
  match v.occ with
  | none => c
  | some (ch, id) => if v.read && (findCmd c ch id).isNone then setVport c p VPort.reset else c

/-- Claim the command on a port for the unit (R278, R279): one that another unit's `VLDS` has not claimed. -/
def claimPort (s : State) (p : Fin 8) : Option State :=
  let v := vport s.c p
  if v.occ.isNone ∨ v.read then none
  else
    match v.claim with
    | none => some { s with c := setVport s.c p { v with claim := some (s.h.node, s.h.unit) } }
    | some u => if u = (s.h.node, s.h.unit) then some s else none

/-- One element of a claimed `VLDS` (R278): it waits until its word has landed; past the expected count it is 0. -/
def streamElem (d : BitVec 5) (k : BitVec 3) (p : Fin 8) (s : State) (e : Nat) : Except Stop State :=
  let v := vport s.c p
  let put (x : Word) : Except Stop State := .ok { s with h := s.h.setElem 32 d e x }
  if s.h.active k e then
    match v.buf[e]? with
    | some x => put (x.setWidth 64)
    | none =>
      match v.occ.bind fun o => findCmd s.c o.1 o.2 with
      | some c => if c.expected ≤ e then put 0 else .error (.wait .port)
      | none => put 0
  else if s.h.mz then put 0 else .ok s

/-- `VLDS` is over: its port falls free with its command (R278). -/
def endStream (p : Fin 8) (s : State) : State :=
  { s with c := settlePort (setVport s.c p { vport s.c p with read := true }) p }

/-- `VLDS` (R278; log 20 on VSTART at or above VL). -/
def execVlds (cv : BitVec 1) (v : BitVec 5) (p k : BitVec 3) (s : State) : Out :=
  vword (0x37000000#32 ||| fld cv 31 ||| fld v 19 ||| fld p 13 ||| fld k 4) cv (s.h.member .memory [] (gov k) [v] []) (s.h.ew != 32)
    (fun s =>
      match claimPort s p.toFin with
      | none => .stop s (.wait .port)
      | some t =>
        if t.h.vl.toNat ≤ t.h.vstart.toNat then .ok (setStart (endStream p.toFin t) 0)
        else tryElementwise (groupLen 32) (streamElem v k p.toFin) (fun s => endStream p.toFin { s with h := zeroTail 32 v s.h }) t) s

/-! ## Scratchpad through a pattern -/

/-- Indices of vector element `e` in a pattern's box (R280). -/
def boxIx (r : BitVec 512) (e : Nat) : Nat → Nat := patIx r e

/-- The exact first byte of an element of a pattern and one past its last (R250). -/
def elemSpan (r : BitVec 512) (ix : Nat → Nat) : Int × Int :=
  if patWhole r then
    let a := patBase r + patOffset r ix fun _ => true
    (a, a + (container (PRec.fmt r) : Nat))
  else ((patBit r ix 0).1, (patBit r ix (fmtBits (PRec.fmt r) - 1)).1 + 1)

/-- The byte span of vector elements VSTART to VL - 1 that lie in the box (R281). -/
def boxSpan (h : Hart) (r : BitVec 512) : Option (Int × Int) :=
  ((span h.vstart.toNat h.vl.toNat).filter fun e => e < patCount r).foldl (init := none) fun b e =>
    let (lo, hi) := elemSpan r (boxIx r e)
    match b with
    | none => some (lo, hi)
    | some (l, u) => some (min l lo, max u hi)

/-- The swatches of the core in ascending number with their entries. -/
def swatches (c : Core) : List (Nat × Word) := (List.range 64).map fun i => (i, c.sws.toList.getD i 0)

/-- The start check of R254 on a span that is read: the lowest swatch it touches that is empty or filling stops the word. -/
def swatchCheck (c : Core) (sp : Option (Int × Int)) : Option Stop :=
  ((swatches c).find? fun e => spanTouches sp e.2 && (swState e.2 == 0 || swState e.2 == 1)).map fun e =>
    if swState e.2 = 0 then .trap Cause.swatchState (BitVec.ofNat 64 e.1) else .wait .swatch

/-- A span that is written touches a swatch that is filling or draining (R254, R281). -/
def swatchBlocked (c : Core) (sp : Option (Int × Int)) : Bool :=
  (swatches c).any fun e => spanTouches sp e.2 && (swState e.2 == 1 || swState e.2 == 3)

/-- Pattern-table entry `n` (R248). -/
def patAt (c : Core) (n : Nat) : Pat := sget c.pats n { valid := false, record := 0 }

/-- The pattern of a `VSPAD` word with its base replaced by one of any alignment, or `PATTERN_INVALID` (R280; log 20). -/
def spadPattern (s : State) (a x : BitVec 6) : Except Stop (BitVec 512) :=
  let i := bits (rx s x) 7 0
  let p := patAt s.c i
  if !p.valid || !PRec.space p.record || PRec.fmt p.record != s.h.fmt then .error (.trap Cause.patternInvalid (BitVec.ofNat 64 i))
  else .ok (putBits p.record 0 (BitVec.ofNat 64 (bits (rx s a) 19 0)))

/-- Engine accesses on behalf of the hart in focus use its own translation. -/
def hartTrans (h : Hart) : Trans := { asid := h.asid, ptroot := h.ptroot, prv := h.prv, stale := false }

/-- A fault of an element of a pattern reports the address of the element, its first byte (R271, R280). -/
def atElement {α : Type} (r : BitVec 512) (ix : Nat → Nat) : Except Stop α → Except Stop α
  | .error (.trap c _) => .error (elementFault r ix c)
  | x => x
where
  /-- The trap at the element's address. -/
  elementFault (r : BitVec 512) (ix : Nat → Nat) (c : BitVec 6) : Stop :=
    .trap c (BitVec.ofNat 64 (0xFFFFFFFFFFF00000 + wrapAddr true (elemSpan r ix).1))

/-- A store of packed or plane-layout codes reads the bytes that it changes, and so consumes their poison (R177, R281). -/
def packedPoison (s : State) (r : BitVec 512) (ix : Nat → Nat) : Bool :=
  !patWhole r &&
    match patPlaces s (hartTrans s.h) r ix (fmtBits (PRec.fmt r)) with
    | .ok (l, t) => l.any fun e => placePoisoned t e.1
    | .error _ => false

/-- One element of `VSPAD.ld` (R280). -/
def spadLoadElem (d : BitVec 5) (k : BitVec 3) (r : BitVec 512) (s : State) (e : Nat) : Except Stop State :=
  let h := s.h
  if h.active k e then
    match (if e < patCount r then atElement r (boxIx r e) (patRead s (hartTrans h) r (boxIx r e)) else .ok (patFill r, s)) with
    | .error x => .error x
    | .ok (c, t) => .ok { t with h := t.h.setElem h.ew d e (codeElem h.fmt c) }
  else .ok (if h.mz then { s with h := h.setElem h.ew d e 0 } else s)

/-- One element of `VSPAD.st` (R280). -/
def spadStoreElem (v : BitVec 5) (k : BitVec 3) (r : BitVec 512) (s : State) (e : Nat) : Except Stop State :=
  if s.h.active k e && decide (e < patCount r) then
    atElement r (boxIx r e) <|
      match patWrite s (hartTrans s.h) none r (boxIx r e) (elemCode s.h.fmt (s.h.elem s.h.ew v e)) with
      | .ok t => if packedPoison s r (boxIx r e) then .error (.trap Cause.access 0) else .ok t
      | e => e
  else .ok s

/-- `VSPAD_LD` (R280). -/
def execVspadLd (cv : BitVec 1) (v : BitVec 5) (a x : BitVec 6) (k : BitVec 3) (s : State) : Out :=
  vword (0x38000000#32 ||| fld cv 31 ||| fld v 19 ||| fld a 13 ||| fld x 7 ||| fld k 4) cv (s.h.member .memory [] (gov k) [v] []) false
    (fun s =>
      match spadPattern s a x with
      | .error e => .stop s e
      | .ok r =>
        match swatchCheck s.c (boxSpan s.h r) with
        | some e => .stop s e
        | none => tryElementwise (groupLen s.h.ew) (spadLoadElem v k r) (fun s => { s with h := zeroTail s.h.ew v s.h }) s) s

/-- `VSPAD_ST` (R280). -/
def execVspadSt (cv : BitVec 1) (v : BitVec 5) (a x : BitVec 6) (k : BitVec 3) (s : State) : Out :=
  vword (0x38000001#32 ||| fld cv 31 ||| fld v 19 ||| fld a 13 ||| fld x 7 ||| fld k 4) cv (s.h.member .memory [v] (gov k) [] []) false
    (fun s =>
      match spadPattern s a x with
      | .error e => .stop s e
      | .ok r =>
        if swatchBlocked s.c (boxSpan s.h r) then .stop s (.wait .swatch)
        else tryElementwise (groupLen s.h.ew) (spadStoreElem v k r) id s) s

/-! ## Vector atomics -/

/-- Bytes of the memory word of a vector atomic (R282). -/
def vamoBytes (op : Nat) (h : Hart) : Nat := if op = Amo.add32w then 8 else h.bytes

/-- One active element of `VAMO` at its place (R282-R284): the old value, or none where its scope was too narrow. -/
def vamoAt (op : Nat) (sc : Nat) (va : Word) (b : Nat) (s : State) : Except Stop (Option Nat × State) :=
  let n := vamoBytes op s.h
  let f (m : Nat) : Option Nat := amoNew op (8 * n) m b 0
  match place s .atomic va n with
  | .error e => .error e
  | .ok (.spad off, s) => (atomicSpad s va off n f).map fun r => (some r.1, r.2)
  | .ok (.dev _ _, _) => .error (.trap Cause.access va)
  | .ok (.mem pa leaf, s) =>
    if scopeRefused leaf sc then
      match refusal s va pa n sc leaf with
      | .trap c v => if c = Cause.scopeMiss then .ok (none, s) else .error (.trap c v)
      | e => .error e
    else (atomicMem s va pa n sc leaf f).map fun r => (some r.1, r.2)

/-- One element of `VAMO` (R284). -/
def vamoElem (op : Nat) (ret : Bool) (sc : Nat) (v : BitVec 5) (k : BitVec 3) (addr : Hart → Nat → Word) (s : State) (e : Nat) : Except Stop State :=
  let h := s.h
  if h.active k e then
    match vamoAt op sc (addr h e) (h.elem h.ew v e).toNat s with
    | .error r => .error r
    | .ok (none, t) => .ok (missed t e)
    | .ok (some m, t) => .ok (if ret then { t with h := t.h.setElem h.ew v e (BitVec.ofNat 64 m) } else t)
  else .ok (if ret && h.mz then { s with h := h.setElem h.ew v e 0 } else s)

/-- The widths that an operation takes (R282). -/
def vamoWidth (op : Nat) (h : Hart) : Bool :=
  h.ew == 32 || (h.ew == 64 && !(op == Amo.fadd32 || op == Amo.fmin32 || op == Amo.fmax32 || op == Amo.add32w || op == Amo.fadd16x2))

/-- A `VAMO` word (R282-R284): the register number of `v` is 2·v, with the indices in the next register. -/
def vamo (w : Insn) (op : Nat) (cv : BitVec 1) (v : BitVec 4) (a : BitVec 6) (sc : BitVec 3) (ret : Bool) (q : BitVec 2) (k : BitVec 3) (s : State) : Out :=
  let d : BitVec 5 := v ++ 0#1
  let i : BitVec 5 := v ++ 1#1
  vword w cv (s.h.member .memory [d, i] (gov k) (if ret then [d] else []) []) (!vamoWidth op s.h)
    (fun s =>
      tryElementwise (groupLen s.h.ew) (vamoElem op ret sc.toNat d k fun h e => indexed (rx s a) i q h e)
        (fun s => if ret then { s with h := zeroTail s.h.ew d s.h } else s) (startSmm s)) s

/-- `VAMO_ADD` (R284). -/
def execVamoAdd (cv : BitVec 1) (v : BitVec 4) (a : BitVec 6) (sf : BitVec 3) (r : BitVec 1) (q : BitVec 2) (k : BitVec 3) (s : State) : Out :=
  vamo (0x39000000#32 ||| fld cv 31 ||| fld v 20 ||| fld a 13 ||| fld sf 10 ||| fld r 9 ||| fld q 7 ||| fld k 4) Amo.add cv v a sf (r == 1) q k s

/-- `VAMO_AND` (R284). -/
def execVamoAnd (cv : BitVec 1) (v : BitVec 4) (a : BitVec 6) (sf : BitVec 3) (r : BitVec 1) (q : BitVec 2) (k : BitVec 3) (s : State) : Out :=
  vamo (0x39000001#32 ||| fld cv 31 ||| fld v 20 ||| fld a 13 ||| fld sf 10 ||| fld r 9 ||| fld q 7 ||| fld k 4) Amo.and' cv v a sf (r == 1) q k s

/-- `VAMO_OR` (R284). -/
def execVamoOr (cv : BitVec 1) (v : BitVec 4) (a : BitVec 6) (sf : BitVec 3) (r : BitVec 1) (q : BitVec 2) (k : BitVec 3) (s : State) : Out :=
  vamo (0x39000002#32 ||| fld cv 31 ||| fld v 20 ||| fld a 13 ||| fld sf 10 ||| fld r 9 ||| fld q 7 ||| fld k 4) Amo.or' cv v a sf (r == 1) q k s

/-- `VAMO_XOR` (R284). -/
def execVamoXor (cv : BitVec 1) (v : BitVec 4) (a : BitVec 6) (sf : BitVec 3) (r : BitVec 1) (q : BitVec 2) (k : BitVec 3) (s : State) : Out :=
  vamo (0x39000003#32 ||| fld cv 31 ||| fld v 20 ||| fld a 13 ||| fld sf 10 ||| fld r 9 ||| fld q 7 ||| fld k 4) Amo.xor' cv v a sf (r == 1) q k s

/-- `VAMO_SWAP` (R284). -/
def execVamoSwap (cv : BitVec 1) (v : BitVec 4) (a : BitVec 6) (sf : BitVec 3) (r : BitVec 1) (q : BitVec 2) (k : BitVec 3) (s : State) : Out :=
  vamo (0x39000004#32 ||| fld cv 31 ||| fld v 20 ||| fld a 13 ||| fld sf 10 ||| fld r 9 ||| fld q 7 ||| fld k 4) Amo.swap cv v a sf (r == 1) q k s

/-- `VAMO_MIN` (R284). -/
def execVamoMin (cv : BitVec 1) (v : BitVec 4) (a : BitVec 6) (sf : BitVec 3) (r : BitVec 1) (q : BitVec 2) (k : BitVec 3) (s : State) : Out :=
  vamo (0x39000005#32 ||| fld cv 31 ||| fld v 20 ||| fld a 13 ||| fld sf 10 ||| fld r 9 ||| fld q 7 ||| fld k 4) Amo.min' cv v a sf (r == 1) q k s

/-- `VAMO_MAX` (R284). -/
def execVamoMax (cv : BitVec 1) (v : BitVec 4) (a : BitVec 6) (sf : BitVec 3) (r : BitVec 1) (q : BitVec 2) (k : BitVec 3) (s : State) : Out :=
  vamo (0x39000006#32 ||| fld cv 31 ||| fld v 20 ||| fld a 13 ||| fld sf 10 ||| fld r 9 ||| fld q 7 ||| fld k 4) Amo.max' cv v a sf (r == 1) q k s

/-- `VAMO_FADD32` (R284). -/
def execVamoFadd32 (cv : BitVec 1) (v : BitVec 4) (a : BitVec 6) (sf : BitVec 3) (r : BitVec 1) (q : BitVec 2) (k : BitVec 3) (s : State) : Out :=
  vamo (0x39000007#32 ||| fld cv 31 ||| fld v 20 ||| fld a 13 ||| fld sf 10 ||| fld r 9 ||| fld q 7 ||| fld k 4) Amo.fadd32 cv v a sf (r == 1) q k s

/-- `VAMO_UMIN` (R284). -/
def execVamoUmin (cv : BitVec 1) (v : BitVec 4) (a : BitVec 6) (sf : BitVec 3) (r : BitVec 1) (q : BitVec 2) (k : BitVec 3) (s : State) : Out :=
  vamo (0x39000008#32 ||| fld cv 31 ||| fld v 20 ||| fld a 13 ||| fld sf 10 ||| fld r 9 ||| fld q 7 ||| fld k 4) Amo.umin cv v a sf (r == 1) q k s

/-- `VAMO_UMAX` (R284). -/
def execVamoUmax (cv : BitVec 1) (v : BitVec 4) (a : BitVec 6) (sf : BitVec 3) (r : BitVec 1) (q : BitVec 2) (k : BitVec 3) (s : State) : Out :=
  vamo (0x39000009#32 ||| fld cv 31 ||| fld v 20 ||| fld a 13 ||| fld sf 10 ||| fld r 9 ||| fld q 7 ||| fld k 4) Amo.umax cv v a sf (r == 1) q k s

/-- `VAMO_INCB` (R284). -/
def execVamoIncb (cv : BitVec 1) (v : BitVec 4) (a : BitVec 6) (sf : BitVec 3) (r : BitVec 1) (q : BitVec 2) (k : BitVec 3) (s : State) : Out :=
  vamo (0x3900000B#32 ||| fld cv 31 ||| fld v 20 ||| fld a 13 ||| fld sf 10 ||| fld r 9 ||| fld q 7 ||| fld k 4) Amo.incb cv v a sf (r == 1) q k s

/-- `VAMO_FMIN32` (R284). -/
def execVamoFmin32 (cv : BitVec 1) (v : BitVec 4) (a : BitVec 6) (sf : BitVec 3) (r : BitVec 1) (q : BitVec 2) (k : BitVec 3) (s : State) : Out :=
  vamo (0x3900000C#32 ||| fld cv 31 ||| fld v 20 ||| fld a 13 ||| fld sf 10 ||| fld r 9 ||| fld q 7 ||| fld k 4) Amo.fmin32 cv v a sf (r == 1) q k s

/-- `VAMO_FMAX32` (R284). -/
def execVamoFmax32 (cv : BitVec 1) (v : BitVec 4) (a : BitVec 6) (sf : BitVec 3) (r : BitVec 1) (q : BitVec 2) (k : BitVec 3) (s : State) : Out :=
  vamo (0x3900000D#32 ||| fld cv 31 ||| fld v 20 ||| fld a 13 ||| fld sf 10 ||| fld r 9 ||| fld q 7 ||| fld k 4) Amo.fmax32 cv v a sf (r == 1) q k s

/-- `VAMO_ADD32W` (R284). -/
def execVamoAdd32w (cv : BitVec 1) (v : BitVec 4) (a : BitVec 6) (sf : BitVec 3) (q : BitVec 2) (k : BitVec 3) (s : State) : Out :=
  vamo (0x3900000E#32 ||| fld cv 31 ||| fld v 20 ||| fld a 13 ||| fld sf 10 ||| fld q 7 ||| fld k 4) Amo.add32w cv v a sf false q k s

/-- `VAMO_FADD16X2` (R284). -/
def execVamoFadd16x2 (cv : BitVec 1) (v : BitVec 4) (a : BitVec 6) (sf : BitVec 3) (r : BitVec 1) (q : BitVec 2) (k : BitVec 3) (s : State) : Out :=
  vamo (0x3900000F#32 ||| fld cv 31 ||| fld v 20 ||| fld a 13 ||| fld sf 10 ||| fld r 9 ||| fld q 7 ||| fld k 4) Amo.fadd16x2 cv v a sf (r == 1) q k s

end Sys2Proof.Machine
end

