-- ==== Sys2Proof/Machine/Fibre.lean ====
section
/-!
DEFINITION. The fibre words (06_fibre_instructions.md, R124-R146).
-/

namespace Sys2Proof.Machine

/-! ## Fibres -/

/-- The coordinate register of fbN (R124). -/
abbrev fcReg (n : BitVec 4) : BitVec 5 := n ++ 0#1
/-- The value register of fbN (R124). -/
abbrev fvReg (n : BitVec 4) : BitVec 5 := n ++ 1#1
/-- Both registers of fibres. -/
def fibRegs (l : List (BitVec 4)) : List (BitVec 5) := l.flatMap fun n => [fcReg n, fvReg n]
/-- `FOCC[N]` (R33). -/
def Hart.occ (h : Hart) (n : BitVec 4) : Nat := (h.focc[n.toNat]).toNat
/-- Write `FOCC[N]`. -/
def Hart.setOcc (h : Hart) (n : BitVec 4) (o : Nat) : Hart := { h with focc := h.focc.set n.toNat (BitVec.ofNat 12 o) }
/-- Coordinate p of fbN. -/
def Hart.coord (h : Hart) (n : BitVec 4) (p : Nat) : Nat := (h.elem 32 (fcReg n) p).toNat
/-- Value p of fbN. -/
def Hart.fval (h : Hart) (n : BitVec 4) (p : Nat) : Nat := (h.elem 32 (fvReg n) p).toNat
/-- Write value p of fbN. -/
def Hart.setVal (h : Hart) (n : BitVec 4) (p v : Nat) : Hart := h.setElem 32 (fvReg n) p (BitVec.ofNat 64 v)
/-- Write pair p of fbN. -/
def Hart.setPair (h : Hart) (n : BitVec 4) (p c v : Nat) : Hart := (h.setElem 32 (fcReg n) p (BitVec.ofNat 64 c)).setVal n p v
/-- The fibre capacity C (R124). -/
def Hart.cap (h : Hart) : Nat := vlmax 32 h.g
/-- The type that fibre words require (R124). -/
def fibreBad (h : Hart) : Bool := h.ew != 32 || !fmtFibre h.fmt

/-- `VPR` of a stop (R128). -/
def vprWord (cap : Bool) (i j o : Nat) : Word :=
  BitVec.ofNat 64 (2 ^ 63 + (if cap then 2 ^ 62 else 0) + o % 65536 * 2 ^ 32 + j % 65536 * 2 ^ 16 + i % 65536)

/-- `VPR.valid`. -/ def vprOn (h : Hart) : Bool := bit h.vpr 63
/-- `VPR.posA`. -/ def vprA (h : Hart) : Nat := bits h.vpr 15 0
/-- `VPR.posB`. -/ def vprB (h : Hart) : Nat := bits h.vpr 31 16
/-- Output position of a resume (R128, R130). -/ def vprOut (h : Hart) : Nat := if bit h.vpr 62 then 0 else min (bits h.vpr 47 32) h.cap

/-- Write `VPR` and zero `VSTART` (R128). -/
def setVpr (s : State) (v : Word) : State := { s with h := { s.h with vpr := v, vstart := 0 } }

/-- A stop at capacity (R130): the word completes. -/
def capStop (s : State) (n : BitVec 4) (i j : Nat) : State :=
  let h := s.h.setOcc n s.h.cap
  setVpr { s with h := { h with fcsr := h.fcsr ||| Flag.fovf } } (vprWord true i j h.cap)

/-! ## Values (R133, R141, R142) -/

/-- The low half of an e8m7 pair, and the high half. -/
def halves (f : Nat → Nat → Nat × Flags) (a b : Nat) : Nat × Flags :=
  let (l, g) := f (a % 65536) (b % 65536)
  let (u, i) := f (a / 65536) (b / 65536)
  (l + 65536 * u, g ||| i)

/-- `combine(op, a, b)` (R133). -/
def combine (h : Hart) (op a b : Nat) : Nat × Flags :=
  let fp (f : CodeOp) : Nat × Flags :=
    if h.fmt = Fmts.fp32 then f bin32 h.rm a b else halves (f (binOf Fmts.e8m7) h.rm) a b
  let sli (f : Nat → Sli → Sli → Sli × Flags) : Nat × Flags :=
    let (r, g) := f 27 (sliVal 27 a) (sliVal 27 b)
    (sliCode 27 r, g)
  let x : BitVec 32 := BitVec.ofNat 32 a
  let y : BitVec 32 := BitVec.ofNat 32 b
  let int := h.fmt == Fmts.int32
  let lv := h.fmt == Fmts.sli32
  match op with
  | 0 => if int then ((x * y).toNat, 0) else if lv then sli sliMul else fp opMul
  | 1 => (a, 0)
  | 2 => (b, 0)
  | 3 => if int then ((x + y).toNat, 0) else if lv then sli sliAdd else fp opAdd
  | 4 => if int then ((if y.slt x then y else x).toNat, 0) else if lv then (sliPick 27 false a b, 0) else fp opMin
  | _ => if int then ((if x.slt y then y else x).toNat, 0) else if lv then (sliPick 27 true a b, 0) else fp opMax

/-- `dotstep` (R141). -/
def dotStep (h : Hart) (acc a b : Nat) : Nat × Flags :=
  if h.fmt = Fmts.int32 then ((acc + a * b) % 2 ^ 32, 0)
  else if h.fmt = Fmts.sli32 then
    let (p, f) := sliMul 27 (sliVal 27 a) (sliVal 27 b)
    let (r, g) := sliAdd 27 (sliVal 27 acc) p
    (sliCode 27 r, f ||| g)
  else
    let add (x y : Val × Flags) : Val × Flags := let (v, g) := Val.add h.rm x.1 y.1; (v, x.2 ||| y.2 ||| g)
    let z : Val × Flags := (binVal bin32 acc, 0)
    let prod (b : Bin) (x y : Nat) : Val × Flags := (binVal b x).mul (binVal b y)
    if h.fmt = Fmts.fp32 then roundOp bin32 h.rm (add (prod bin32 a b) z)
    else
      let l := binOf Fmts.e8m7
      roundOp bin32 h.rm (add (add z (prod l (a % 65536) (b % 65536))) (prod l (a / 65536) (b / 65536)))

/-- An accumulator as x[d] (R141). -/
def accWord (h : Hart) (acc : Nat) : Word := if h.fmt = Fmts.int32 then sext32 (BitVec.ofNat 64 acc) else BitVec.ofNat 64 acc

/-- The value `FMAP.f` gives an active position (R142): 0 mul, 1 add, 2 abs, 3 neg, 4 relu. -/
def mapValue (h : Hart) (f v x : Nat) : Nat × Flags :=
  let int := h.fmt == Fmts.int32
  let w : BitVec 32 := BitVec.ofNat 32 v
  let sign : BitVec 32 := if h.fmt = Fmts.e8m7x2 then 0x80008000 else 0x80000000
  match f with
  | 0 => combine h 0 v x
  | 1 => combine h 3 v x
  | 2 => ((if int then (if w.msb then -w else w) else w &&& ~~~sign).toNat, 0)
  | 3 => ((if int then -w else w ^^^ sign).toNat, 0)
  | _ => combine h 5 v 0

/-! ## The merge loop (R132) -/

/-- A merge-walking word: its destination fibre or masks, and its operation. -/
inductive MergeKind where
  | marks (kd : BitVec 3)
  | isect (d : BitVec 4) (op : Nat)
  | union (d : BitVec 4) (op : Nat)
  | merge (d : BitVec 4) (op : Nat)
  | expand (d : BitVec 4)
  | dot
deriving DecidableEq, Repr

/-- Where the loop stands. -/
structure Merge where
  h : Hart
  i : Nat
  j : Nat
  o : Nat
  acc : Nat

/-- The word is `FMERGE`. -/
def MergeKind.merging : MergeKind → Bool
  | .merge _ _ => true
  | _ => false

/-- `finished(i, j)` (R134-R139). -/
def MergeKind.finished (k : MergeKind) (na nb i j : Nat) : Bool :=
  match k with
  | .union _ _ | .merge _ _ => na ≤ i && nb ≤ j
  | .expand _ => nb ≤ j
  | _ => na ≤ i || nb ≤ j

/-- `emit(c, v)` (R132) for a value that `v` computes with its flags; none at capacity. -/
def Merge.emit (m : Merge) (k : MergeKind) (d : BitVec 4) (c : Nat) (v : Nat × Flags) : Option Merge :=
  let same := match k with
    | .merge _ _ => decide (0 < m.o) && m.h.coord d (m.o - 1) == c
    | _ => false
  if same then
    let op := match k with
      | .merge _ op => op
      | _ => 0
    let (x, g) := combine m.h op (m.h.fval d (m.o - 1)) v.1
    let h := m.h.setVal d (m.o - 1) x
    some { m with h := { h with fcsr := h.fcsr ||| g } }
  else if m.o = m.h.cap then none
  else
    let h := m.h.setPair d m.o c v.1
    some { m with h := { h with fcsr := h.fcsr ||| v.2 }, o := m.o + 1 }

/-- `stepA(i)`. -/
def Merge.stepA (m : Merge) (k : MergeKind) (a : BitVec 4) : Option Merge :=
  match k with
  | .union d _ | .merge d _ => m.emit k d (m.h.coord a m.i) (m.h.fval a m.i, 0)
  | _ => some m

/-- `stepB(j)`. -/
def Merge.stepB (m : Merge) (k : MergeKind) (b : BitVec 4) : Option Merge :=
  match k with
  | .union d _ | .merge d _ => m.emit k d (m.h.coord b m.j) (m.h.fval b m.j, 0)
  | .expand d => m.emit k d (m.h.coord b m.j) (0, 0)
  | _ => some m

/-- `stepAB(i, j)`. -/
def Merge.stepAB (m : Merge) (k : MergeKind) (a b : BitVec 4) : Option Merge :=
  let u := m.h.fval a m.i
  let v := m.h.fval b m.j
  match k with
  | .marks kd => some { m with h := setKBit (setKBit m.h kd m.i true) (kd + 1) m.j true, o := m.o + 1 }
  | .isect d op | .union d op => m.emit k d (m.h.coord a m.i) (combine m.h op u v)
  | .merge _ _ => some m
  | .expand d => m.emit k d (m.h.coord b m.j) (u, 0)
  | .dot =>
    let (r, g) := dotStep m.h m.acc u v
    some { m with h := { m.h with fcsr := m.h.fcsr ||| g }, acc := r }

/-- Adjacent coordinates p and p + 1 of a fibre, as they stand when p is advanced over, set FSORT where they are not in order (R132). -/
def sortFlag (h : Hart) (k : MergeKind) (x : BitVec 4) (p n : Nat) : Flags :=
  if p + 1 < n ∧ (if k.merging then h.coord x (p + 1) < h.coord x p else h.coord x (p + 1) ≤ h.coord x p) then Flag.fsort else 0

/-- How the loop ends. -/
inductive MergeEnd where
  | finished (m : Merge)
  | capacity (m : Merge)
  | stopped (m : Merge)

/-- At most `fuel` steps of the loop. -/
def mergeLoop (k : MergeKind) (a b : BitVec 4) (na nb : Nat) : Nat → Merge → MergeEnd
  | 0, m => if k.finished na nb m.i m.j then .finished m else .stopped m
  | n + 1, m =>
    if k.finished na nb m.i m.j then .finished m
    else
      let ca := m.h.coord a m.i
      let cb := m.h.coord b m.j
      let takeA := decide (nb ≤ m.j) || (decide (m.i < na) && (if k.merging then decide (ca ≤ cb) else decide (ca < cb)))
      let takeB := decide (na ≤ m.i) || decide (cb < ca)
      let advA (t : Merge) : Merge := { t with h := { t.h with fcsr := t.h.fcsr ||| sortFlag t.h k a m.i na }, i := m.i + 1 }
      let advB (t : Merge) : Merge := { t with h := { t.h with fcsr := t.h.fcsr ||| sortFlag t.h k b m.j nb }, j := m.j + 1 }
      match (if takeA then (m.stepA k a).map advA else if takeB then (m.stepB k b).map advB
             else (m.stepAB k a b).map fun t => advB (advA t)) with
      | none => .capacity m
      | some t => mergeLoop k a b na nb n t

/-- The destination fibre of a stop at capacity. -/
def MergeKind.dest : MergeKind → BitVec 4
  | .isect d _ | .union d _ | .merge d _ | .expand d => d
  | _ => 0

/-- `finish()`. -/
def mergeFinish (k : MergeKind) (x : BitVec 6) (s : State) (m : Merge) : State :=
  let t : State := { s with h := m.h }
  let t := match k with
    | .marks _ => wx t x (BitVec.ofNat 64 m.o)
    | .dot => wx t x (accWord m.h m.acc)
    | _ => { t with h := t.h.setOcc k.dest m.o }
  setVpr t 0

/-- The body of a merge-walking word (R128-R132); `x` is its x register. Its first stop point is before its first step: there it has started, and stops
with its first positions (R129). -/
def mergeBody (k : MergeKind) (a b : BitVec 4) (x : BitVec 6) (s : State) : VRes :=
  let h := s.h
  let na := h.occ a
  let nb := h.occ b
  let start : Merge :=
    if vprOn h then { h := h, i := min (vprA h) na, j := min (vprB h) nb, o := vprOut h, acc := (rx s x).toNat % 2 ^ 32 }
    else
      { h := match k with
          | .marks kd => (h.setK kd 0).setK (kd + 1) 0
          | _ => h,
        i := 0, j := 0, o := 0, acc := 0 }
  let fuel := match h.stop with
    | none => na + nb
    | some n => min (4 * n) (na + nb)
  match mergeLoop k a b na nb fuel start with
  | .finished m => .ok (mergeFinish k x s m)
  | .capacity m => .ok (capStop { s with h := m.h } k.dest m.i m.j)
  | .stopped m =>
    let t := setVpr { s with h := m.h } (vprWord false m.i m.j m.o)
    .pause (match k with
      | .dot => wx t x (accWord m.h m.acc)
      | _ => t)

/-- A fibre word of the merge-walking group. -/
def fmerge (w : Insn) (k : MergeKind) (bad : Bool) (kw : List (BitVec 3)) (dst : List (BitVec 4)) (cv : BitVec 1) (a b : BitVec 4) (x : BitVec 6)
    (s : State) : Out :=
  vword w cv { s.h.member .fibre (fibRegs [a, b]) [] (fibRegs dst) kw with vpr := true } (fibreBad s.h || bad) (mergeBody k a b x) s

/-- `FMATCH` (R134). -/
def execFmatch (cv : BitVec 1) (m : BitVec 3) (a b : BitVec 4) (x : BitVec 6) (s : State) : Out :=
  fmerge ((0x40000000#32 ||| fld cv 31 ||| fld m 20 ||| fld a 16 ||| fld b 12 ||| fld x 3)) (.marks m) (m.getLsbD 0) [m, m + 1] [] cv a b x s

/-- `FISECT_MUL` (R135). -/
def execFisectMul (cv : BitVec 1) (d a b : BitVec 4) (s : State) : Out :=
  fmerge ((0x41000000#32 ||| fld cv 31 ||| fld d 20 ||| fld a 16 ||| fld b 12)) (.isect d 0) false [] [d] cv a b 0 s

/-- `FISECT_FIRST` (R135). -/
def execFisectFirst (cv : BitVec 1) (d a b : BitVec 4) (s : State) : Out :=
  fmerge ((0x41000001#32 ||| fld cv 31 ||| fld d 20 ||| fld a 16 ||| fld b 12)) (.isect d 1) false [] [d] cv a b 0 s

/-- `FISECT_SECOND` (R135). -/
def execFisectSecond (cv : BitVec 1) (d a b : BitVec 4) (s : State) : Out :=
  fmerge ((0x41000002#32 ||| fld cv 31 ||| fld d 20 ||| fld a 16 ||| fld b 12)) (.isect d 2) false [] [d] cv a b 0 s

/-- `FISECT_ADD` (R135). -/
def execFisectAdd (cv : BitVec 1) (d a b : BitVec 4) (s : State) : Out :=
  fmerge ((0x41000003#32 ||| fld cv 31 ||| fld d 20 ||| fld a 16 ||| fld b 12)) (.isect d 3) false [] [d] cv a b 0 s

/-- `FISECT_MIN` (R135). -/
def execFisectMin (cv : BitVec 1) (d a b : BitVec 4) (s : State) : Out :=
  fmerge ((0x41000004#32 ||| fld cv 31 ||| fld d 20 ||| fld a 16 ||| fld b 12)) (.isect d 4) false [] [d] cv a b 0 s

/-- `FISECT_MAX` (R135). -/
def execFisectMax (cv : BitVec 1) (d a b : BitVec 4) (s : State) : Out :=
  fmerge ((0x41000005#32 ||| fld cv 31 ||| fld d 20 ||| fld a 16 ||| fld b 12)) (.isect d 5) false [] [d] cv a b 0 s

/-- `FUNION_FIRST` (R136). -/
def execFunionFirst (cv : BitVec 1) (d a b : BitVec 4) (s : State) : Out :=
  fmerge ((0x42000001#32 ||| fld cv 31 ||| fld d 20 ||| fld a 16 ||| fld b 12)) (.union d 1) (d == a || d == b) [] [d] cv a b 0 s

/-- `FUNION_SECOND` (R136). -/
def execFunionSecond (cv : BitVec 1) (d a b : BitVec 4) (s : State) : Out :=
  fmerge ((0x42000002#32 ||| fld cv 31 ||| fld d 20 ||| fld a 16 ||| fld b 12)) (.union d 2) (d == a || d == b) [] [d] cv a b 0 s

/-- `FUNION_ADD` (R136). -/
def execFunionAdd (cv : BitVec 1) (d a b : BitVec 4) (s : State) : Out :=
  fmerge ((0x42000003#32 ||| fld cv 31 ||| fld d 20 ||| fld a 16 ||| fld b 12)) (.union d 3) (d == a || d == b) [] [d] cv a b 0 s

/-- `FUNION_MIN` (R136). -/
def execFunionMin (cv : BitVec 1) (d a b : BitVec 4) (s : State) : Out :=
  fmerge ((0x42000004#32 ||| fld cv 31 ||| fld d 20 ||| fld a 16 ||| fld b 12)) (.union d 4) (d == a || d == b) [] [d] cv a b 0 s

/-- `FUNION_MAX` (R136). -/
def execFunionMax (cv : BitVec 1) (d a b : BitVec 4) (s : State) : Out :=
  fmerge ((0x42000005#32 ||| fld cv 31 ||| fld d 20 ||| fld a 16 ||| fld b 12)) (.union d 5) (d == a || d == b) [] [d] cv a b 0 s

/-- `FMERGE_FIRST` (R137). -/
def execFmergeFirst (cv : BitVec 1) (d a b : BitVec 4) (s : State) : Out :=
  fmerge ((0x43000001#32 ||| fld cv 31 ||| fld d 20 ||| fld a 16 ||| fld b 12)) (.merge d 1) (d == a || d == b) [] [d] cv a b 0 s

/-- `FMERGE_LAST` (R137). -/
def execFmergeLast (cv : BitVec 1) (d a b : BitVec 4) (s : State) : Out :=
  fmerge ((0x43000002#32 ||| fld cv 31 ||| fld d 20 ||| fld a 16 ||| fld b 12)) (.merge d 2) (d == a || d == b) [] [d] cv a b 0 s

/-- `FMERGE_ADD` (R137). -/
def execFmergeAdd (cv : BitVec 1) (d a b : BitVec 4) (s : State) : Out :=
  fmerge ((0x43000003#32 ||| fld cv 31 ||| fld d 20 ||| fld a 16 ||| fld b 12)) (.merge d 3) (d == a || d == b) [] [d] cv a b 0 s

/-- `FMERGE_MIN` (R137). -/
def execFmergeMin (cv : BitVec 1) (d a b : BitVec 4) (s : State) : Out :=
  fmerge ((0x43000004#32 ||| fld cv 31 ||| fld d 20 ||| fld a 16 ||| fld b 12)) (.merge d 4) (d == a || d == b) [] [d] cv a b 0 s

/-- `FMERGE_MAX` (R137). -/
def execFmergeMax (cv : BitVec 1) (d a b : BitVec 4) (s : State) : Out :=
  fmerge ((0x43000005#32 ||| fld cv 31 ||| fld d 20 ||| fld a 16 ||| fld b 12)) (.merge d 5) (d == a || d == b) [] [d] cv a b 0 s

/-- `FEXPAND` (R139). -/
def execFexpand (cv : BitVec 1) (d a b : BitVec 4) (s : State) : Out :=
  fmerge ((0x44000001#32 ||| fld cv 31 ||| fld d 20 ||| fld a 16 ||| fld b 12)) (.expand d) (d == a) [] [d] cv a b 0 s

/-- `FDOT_ISECT` (R141). -/
def execFdotIsect (cv : BitVec 1) (a b : BitVec 4) (x : BitVec 6) (s : State) : Out :=
  fmerge ((0x46000001#32 ||| fld cv 31 ||| fld a 16 ||| fld b 12 ||| fld x 3)) .dot false [] [] cv a b x s

/-! ## FMERGE.sort, FCOMPACT, FDOT (R138, R140, R141) -/

/-- A fibre word without stop points that does not use `VPR`; it sets `VSTART` to zero (R30). -/
def fwhole (w : Insn) (cv : BitVec 1) (m : Member) (bad : Bool) (f : State → State) (s : State) : Out :=
  vword w cv m (fibreBad s.h || bad) (fun s => .ok (setStart (f s) 0)) s

/-- Insert a pair behind every pair whose coordinate is not above its own: a stable order (R138). -/
def insertPair (p : Nat × Nat) : List (Nat × Nat) → List (Nat × Nat)
  | [] => [p]
  | q :: l => if p.1 < q.1 then p :: q :: l else q :: insertPair p l

/-- The pairs of a fibre. -/
def Hart.pairs (h : Hart) (n : BitVec 4) : List (Nat × Nat) := (List.range (h.occ n)).map fun p => (h.coord n p, h.fval n p)

/-- Collapse runs of equal coordinates from left to right (R137): the pairs so far, last first, and the flags. -/
def collapse (h : Hart) (op : Nat) (l : List (Nat × Nat)) : List (Nat × Nat) × Flags :=
  l.foldl (init := ([], 0)) fun (r, f) p =>
    match r with
    | q :: t => if q.1 = p.1 then let (v, g) := combine h op q.2 p.2; ((q.1, v) :: t, f ||| g) else (p :: r, f)
    | [] => ([p], f)

/-- Write a list of pairs from position 0 up and the occupancy. -/
def putPairs (h : Hart) (n : BitVec 4) (l : List (Nat × Nat)) : Hart :=
  ((l.zipIdx).foldl (fun h e => h.setPair n e.2 e.1.1 e.1.2) h).setOcc n l.length

/-- The work of `FMERGE.sort` (R138). -/
def sortFibre (op : Nat) (d a : BitVec 4) (s : State) : State :=
  let (r, f) := collapse s.h op ((s.h.pairs a).foldl (fun l p => insertPair p l) [])
  let h := putPairs s.h d r.reverse
  { s with h := { h with fcsr := h.fcsr ||| f } }

/-- `FMERGE.sort` (R138). -/
def fsort (w : Insn) (op : Nat) (cv : BitVec 1) (d a : BitVec 4) (s : State) : Out :=
  fwhole w cv (s.h.member .fibre (fibRegs [a]) [] (fibRegs [d]) []) false (sortFibre op d a) s

/-- `FMERGE_SORT_FIRST` (R138). -/
def execFmergeSortFirst (cv : BitVec 1) (d a : BitVec 4) (s : State) : Out :=
  fsort ((0x43000009#32 ||| fld cv 31 ||| fld d 20 ||| fld a 16)) 1 cv d a s

/-- `FMERGE_SORT_LAST` (R138). -/
def execFmergeSortLast (cv : BitVec 1) (d a : BitVec 4) (s : State) : Out :=
  fsort ((0x4300000A#32 ||| fld cv 31 ||| fld d 20 ||| fld a 16)) 2 cv d a s

/-- `FMERGE_SORT_ADD` (R138). -/
def execFmergeSortAdd (cv : BitVec 1) (d a : BitVec 4) (s : State) : Out := fsort ((0x4300000B#32 ||| fld cv 31 ||| fld d 20 ||| fld a 16)) 3 cv d a s

/-- `FMERGE_SORT_MIN` (R138). -/
def execFmergeSortMin (cv : BitVec 1) (d a : BitVec 4) (s : State) : Out := fsort ((0x4300000C#32 ||| fld cv 31 ||| fld d 20 ||| fld a 16)) 4 cv d a s

/-- `FMERGE_SORT_MAX` (R138). -/
def execFmergeSortMax (cv : BitVec 1) (d a : BitVec 4) (s : State) : Out := fsort ((0x4300000D#32 ||| fld cv 31 ||| fld d 20 ||| fld a 16)) 5 cv d a s

/-- `FCOMPACT` (R140). -/
def execFcompact (cv : BitVec 1) (d a : BitVec 4) (k : BitVec 3) (s : State) : Out :=
  fwhole ((0x44000000#32 ||| fld cv 31 ||| fld d 20 ||| fld a 16 ||| fld k 9)) cv (s.h.member .fibre (fibRegs [a]) (gov k) (fibRegs [d]) []) false
    (fun s => { s with h := putPairs s.h d (((s.h.pairs a).zipIdx.filter fun e => s.h.active k e.2).map (·.1)) }) s

/-- The body of `FDOT` (R141): stop point `k` comes after 16 (k + 1) positions, counted from where this execution started (R129; log 31). -/
def dotBody (a b : BitVec 4) (x : BitVec 6) (s : State) : VRes :=
  let h := s.h
  let n := min (h.occ a) (h.occ b)
  let p0 := if vprOn h then min (vprA h) n else 0
  let acc := if vprOn h then (rx s x).toNat % 2 ^ 32 else 0
  let lim := match h.stop with
    | none => n
    | some k => min n (p0 + 16 * (k + 1))
  let (acc, f) := (span p0 lim).foldl (init := (acc, (0 : Flags))) fun (acc, f) p =>
    let (r, g) := dotStep h acc (h.fval a p) (h.fval b p)
    (r, f ||| g)
  let t := wx (s.flags f) x (accWord h acc)
  if lim < n then .pause (setVpr t (vprWord false lim lim 0)) else .ok (setVpr t 0)

/-- `FDOT` (R141). -/
def execFdot (cv : BitVec 1) (a b : BitVec 4) (x : BitVec 6) (s : State) : Out :=
    vword ((0x46000000#32 ||| fld cv 31 ||| fld a 16 ||| fld b 12 ||| fld x 3)) cv { s.h.member .fibre (fibRegs [a, b]) [] [] [] with vpr := true } (fibreBad s.h) (dotBody a b x) s

/-! ## FMAP and the FMOV forms (R142, R143) -/

/-- `FMAP` (R142). -/
def fmapWord (w : Insn) (f : Nat) (cv : BitVec 1) (d a : BitVec 4) (k : BitVec 3) (y : Word) (s : State) : Out :=
  fwhole w cv (s.h.member .fibre (fibRegs [a]) (gov k) (fibRegs [d]) []) false
    (fun s =>
      let h := s.h
      let (l, g) := ((h.pairs a).zipIdx).foldl (init := (([] : List (Nat × Nat)), (0 : Flags))) fun (l, g) e =>
        if h.active k e.2 then
          let (v, i) := mapValue h f e.1.2 (y.toNat % 2 ^ 32)
          ((e.1.1, v) :: l, g ||| i)
        else (e.1 :: l, g)
      let t := putPairs h d l.reverse
      { s with h := { t with fcsr := t.fcsr ||| g } }) s

/-- `FMAP_MUL` (R142). -/
def execFmapMul (cv : BitVec 1) (d a : BitVec 4) (k : BitVec 3) (sf : BitVec 6) (s : State) : Out :=
  fmapWord ((0x47000000#32 ||| fld cv 31 ||| fld d 20 ||| fld a 16 ||| fld k 9 ||| fld sf 3)) 0 cv d a k (rx s sf) s

/-- `FMAP_ADD` (R142). -/
def execFmapAdd (cv : BitVec 1) (d a : BitVec 4) (k : BitVec 3) (sf : BitVec 6) (s : State) : Out :=
  fmapWord ((0x47000001#32 ||| fld cv 31 ||| fld d 20 ||| fld a 16 ||| fld k 9 ||| fld sf 3)) 1 cv d a k (rx s sf) s

/-- `FMAP_ABS` (R142). -/
def execFmapAbs (cv : BitVec 1) (d a : BitVec 4) (k : BitVec 3) (s : State) : Out :=
  fmapWord ((0x47000002#32 ||| fld cv 31 ||| fld d 20 ||| fld a 16 ||| fld k 9)) 2 cv d a k 0 s

/-- `FMAP_NEG` (R142). -/
def execFmapNeg (cv : BitVec 1) (d a : BitVec 4) (k : BitVec 3) (s : State) : Out :=
  fmapWord ((0x47000003#32 ||| fld cv 31 ||| fld d 20 ||| fld a 16 ||| fld k 9)) 3 cv d a k 0 s

/-- `FMAP_RELU` (R142). -/
def execFmapRelu (cv : BitVec 1) (d a : BitVec 4) (k : BitVec 3) (s : State) : Out :=
  fmapWord ((0x47000004#32 ||| fld cv 31 ||| fld d 20 ||| fld a 16 ||| fld k 9)) 4 cv d a k 0 s

/-- `FMOV` (R143). -/
def execFmov (cv : BitVec 1) (d a : BitVec 4) (s : State) : Out :=
  fwhole ((0x48000000#32 ||| fld cv 31 ||| fld d 20 ||| fld a 16)) cv (s.h.member .fibre (fibRegs [a]) [] (fibRegs [d]) []) false (fun s => { s with h := putPairs s.h d (s.h.pairs a) }) s

/-- The work of `FTODENSE` (R143). -/
def toDense (v : BitVec 5) (a : BitVec 4) (h : Hart) : Hart :=
  let h := zeroTail 32 v ((List.range h.vl.toNat).foldl (fun h e => h.setElem 32 v e 0) h)
  (h.pairs a).foldl (fun t p => if p.1 < h.vl.toNat then t.setElem 32 v p.1 (BitVec.ofNat 64 p.2) else t) h

/-- `FTODENSE` (R143). -/
def execFtodense (cv : BitVec 1) (a : BitVec 4) (v : BitVec 5) (s : State) : Out :=
  fwhole ((0x48000001#32 ||| fld cv 31 ||| fld a 16 ||| fld v 4)) cv (s.h.member .fibre (fibRegs [a]) [] [v] []) (v == fcReg a || v == fvReg a)
    (fun s => { s with h := toDense v a s.h }) s

/-- `FFROMDENSE` (R143). -/
def execFfromdense (cv : BitVec 1) (d : BitVec 4) (k : BitVec 3) (v : BitVec 5) (s : State) : Out :=
  fwhole ((0x48000002#32 ||| fld cv 31 ||| fld d 20 ||| fld k 9 ||| fld v 4)) cv (s.h.member .fibre [v] (gov k) (fibRegs [d]) []) false
    (fun s =>
      let h := s.h
      { s with h := putPairs h d (((List.range h.vl.toNat).filter fun e => h.active k e).map fun e => (e, (h.elem 32 v e).toNat)) }) s

/-- `FOCCR` (R143). -/
def execFoccr (cv : BitVec 1) (a : BitVec 4) (x : BitVec 6) (s : State) : Out :=
    fwhole ((0x48000003#32 ||| fld cv 31 ||| fld a 16 ||| fld x 3)) cv (s.h.member .fibre [] [] [] []) false (fun s => wx s x (BitVec.ofNat 64 (s.h.occ a))) s

/-- `FOCCW` (R143). -/
def execFoccw (cv : BitVec 1) (d : BitVec 4) (x : BitVec 6) (s : State) : Out :=
  let y := (rx s x).toNat
  fwhole ((0x48000004#32 ||| fld cv 31 ||| fld d 20 ||| fld x 3)) cv (s.h.member .fibre [] [] [] []) false
    (fun s =>
      let h := s.h.setOcc d (min y s.h.cap)
      { s with h := { h with fcsr := h.fcsr ||| (if s.h.cap < y then Flag.fovf else 0) } }) s

/-! ## FLDST (R144) -/

/-- Pairs `VSTART` to n - 1 one after another, with stop points at multiples of 16 (R129, R144), then `fin`. -/
def fibrePairs (n : Nat) (f : State → Nat → Except Stop State) (fin : State → State) (s : State) : VRes :=
  let a := s.h.vstart.toNat
  let lim := match s.h.stop with
    | none => n
    | some k => min n (max a ((a / 16 + k) * 16))
  match tryElems 16 f s s (span a lim) with
  | .ok t => if lim < n ∧ a < n then .pause (setStart t lim) else .ok (setStart (fin t) 0)
  | r => r

/-- `FLDST_LD` (R144). -/
def execFldstLd (cv : BitVec 1) (v : BitVec 4) (a b : BitVec 6) (sf : BitVec 2) (s : State) : Out :=
  let u := (rx s b).toNat
  let base := rx s a
  vword ((0x49000000#32 ||| fld cv 31 ||| fld v 20 ||| fld a 13 ||| fld b 7 ||| fld sf 2)) cv (s.h.member .memory [] [] (fibRegs [v]) []) (fibreBad s.h)
    (fun s => fibrePairs (min u s.h.cap)
      (fun s p =>
        match load s (base + BitVec.ofNat 64 (8 * p)) 8 sf.toNat with
        | .error e => .error e
        | .ok (x, t) => .ok { t with h := t.h.setPair v p (bits x 31 0) (bits x 63 32) })
      (fun s =>
        let h := s.h.setOcc v (min u s.h.cap)
        { s with h := { h with fcsr := h.fcsr ||| (if s.h.cap < u then Flag.fovf else 0) } }) s) s

/-- `FLDST_ST` (R144). -/
def execFldstSt (cv : BitVec 1) (v : BitVec 4) (a : BitVec 6) (sf : BitVec 2) (s : State) : Out :=
  let base := rx s a
  vword ((0x49000001#32 ||| fld cv 31 ||| fld v 20 ||| fld a 13 ||| fld sf 2)) cv (s.h.member .memory (fibRegs [v]) [] [] []) (fibreBad s.h)
    (fun s => fibrePairs (s.h.occ v)
      (fun s p => store s (base + BitVec.ofNat 64 (8 * p)) 8 (BitVec.ofNat 64 (s.h.coord v p + 2 ^ 32 * s.h.fval v p)) sf.toNat)
      id s) s

/-! ## FWALK (R145) -/

/-- A level descriptor. -/
structure Level where
  crd : Word
  val : Word
  lo : Nat
  count : Nat

/-- Copy pairs from q on: at most `fuel` of them, the last of which is a stop point (R129, R145). A fault stops the walk at its pair; a wait leaves it at
its last stop point, which `gs` keeps, and the walk started at pair `q0`. -/
def walkLoop (vals : Bool) (v : BitVec 4) (l : Level) (q0 : Nat) : Nat → Nat → Nat → State → State → VRes
  | 0, q, o, _, s => if l.count ≤ q then .ok (setVpr { s with h := s.h.setOcc v o } 0) else .pause (setVpr s (vprWord false q 0 o))
  | fuel + 1, q, o, gs, s =>
    if l.count ≤ q then .ok (setVpr { s with h := s.h.setOcc v o } 0)
    else
      let gs := if q ≠ q0 ∧ (q - q0) % 16 = 0 then setVpr s (vprWord false q 0 o) else gs
      let stopped (flag : Flags) (e : Stop) : VRes :=
        match e with
        | .wait w => .stop gs (.wait w)
        | e => .stop (setVpr (s.flags flag) (vprWord false q 0 o)) e
      let entry (base : Word) (i : Nat) : Word := base + BitVec.ofNat 64 (4 * (l.lo + i))
      match load s (entry l.crd q) 4 1 with
      | .error e => stopped 0 e
      | .ok (c, t) =>
        match (if q = 0 then .ok (none, t) else (load t (entry l.crd (q - 1)) 4 1).map fun r => (some r.1, r.2)) with
        | .error e => stopped 0 e
        | .ok (b, t) =>
          let unsorted := match b with
            | none => false
            | some b => !(b.ult c)
          let flag : Flags := if unsorted then Flag.fsort else 0
          match (if vals then load t (entry l.val q) 4 1 else .ok (BitVec.ofNat 64 ((l.lo + q) % 2 ^ 32), t)) with
          | .error e => stopped flag e
          | .ok (x, t) =>
            let t := t.flags flag
            if o = t.h.cap then .ok (capStop t v q 0)
            else walkLoop vals v l q0 fuel (q + 1) (o + 1) gs { t with h := t.h.setPair v o c.toNat x.toNat }

/-- The body of `FWALK` for the descriptor at `a` and parent `p` (R145); `VSTART` is zero at every stop (R128). Stop point
`n` comes after 16 (n + 1) pairs, counted from where this execution started (R129; log 31). -/
def walkBody (vals : Bool) (v : BitVec 4) (a p : Word) (s : State) : VRes :=
  let empty (t : State) : VRes := .ok (setVpr { t with h := t.h.setOcc v 0 } 0)
  let s := setStart s 0
  match loadWords s a 0 4 with
  | .error e => .stop s e
  | .ok (r, t) =>
    let ptr : Word := BitVec.ofNat 64 r
    if r / 2 ^ 224 ≠ 0 then .stop s (.trap Cause.access (a + 0x1C))
    else if r / 2 ^ 192 % 2 ^ 32 ≤ p.toNat + 1 then empty t
    else
      match load t (ptr + 4 * p) 4 2 with
      | .error e => .stop s e
      | .ok (lo, t) =>
        match load t (ptr + 4 * (p + 1)) 4 2 with
        | .error e => .stop s e
        | .ok (hi, t) =>
          if hi.ult lo then empty (t.flags Flag.fsort)
          else
            let l : Level := { crd := BitVec.ofNat 64 (r / 2 ^ 64), val := BitVec.ofNat 64 (r / 2 ^ 128), lo := lo.toNat,
                               count := hi.toNat - lo.toNat }
            let q := if vprOn t.h then min (vprA t.h) l.count else 0
            let o := if vprOn t.h then vprOut t.h else 0
            match t.h.stop with
            | none => walkLoop vals v l q (t.h.cap + 2) q o s t
            | some n => walkLoop vals v l q (min (16 * (n + 1)) (t.h.cap + 2)) q o s t

/-- `FWALK` (R145). -/
def fwalk (w : Insn) (vals : Bool) (cv : BitVec 1) (v : BitVec 4) (a b : BitVec 6) (s : State) : Out :=
  let x := rx s a
  let p := rx s b
  vword w cv { s.h.member .memory [] [] (fibRegs [v]) [] with vpr := true } (fibreBad s.h) (walkBody vals v x p) s

/-- `FWALK_IDX` (R145). -/
def execFwalkIdx (cv : BitVec 1) (v : BitVec 4) (a b : BitVec 6) (s : State) : Out :=
  fwalk ((0x45000000#32 ||| fld cv 31 ||| fld v 20 ||| fld a 13 ||| fld b 7)) false cv v a b s

/-- `FWALK_VALS` (R145). -/
def execFwalkVals (cv : BitVec 1) (v : BitVec 4) (a b : BitVec 6) (s : State) : Out :=
  fwalk ((0x45000001#32 ||| fld cv 31 ||| fld v 20 ||| fld a 13 ||| fld b 7)) true cv v a b s

end Sys2Proof.Machine
end

