-- ==== Sys2Proof/Machine/Lane.lean ====
section
/-!
DEFINITION. Split regions: lane threads, their words and their traps (25_data_dependent_work.md, R379-R384),
and the taking of interrupts (07 R154, R159; 02 R43).
-/

namespace Sys2Proof.Machine

/-! ## Positions -/

/-- Offset of thread `e`, held in k0-k7 (R384). -/
def threadAt (h : Hart) (e : Nat) : Nat := (List.range 8).foldl (fun n j => n + if h.k[lane8 j].getLsbD e then 2 ^ j else 0) 0
where
  /-- The mask register of bit `j`. -/
  lane8 (j : Nat) : Fin 8 := Fin.ofNat 8 j

/-- Set the offset of thread `e`. -/
def setThread (h : Hart) (e o : Nat) : Hart :=
  (List.range 8).foldl (fun h j =>
    let k : Fin 8 := Fin.ofNat 8 j
    { h with k := h.k.set k (putBits h.k[k] e (BitVec.ofBool (o.testBit j))) }) h

/-- The threads that have not arrived (R382). -/
def running (h : Hart) (join : Nat) : List Nat := (List.range h.vl.toNat).filter fun e => decide (threadAt h e < join)

/-- Logical lane group of thread `e` (R26). -/
def threadGroup (h : Hart) (e : Nat) : Nat := e / (512 / h.ew) % h.g

/-! ## LTSPLIT (R380) -/

/-- The words after the split up to the first `LTJOIN` among `n` words. -/
def copyRegion (s : State) (va : Word) : Nat → Except Stop (Option (List Insn) × State)
  | 0 => .ok (none, s)
  | n + 1 =>
    match fetch s va with
    | .error e => .error e
    | .ok (w, s) =>
      if w = 0x6A000001#32 then .ok (some [w], s)
      else (copyRegion s (va + 4) n).map fun r => (r.1.map fun l => w :: l, r.2)

/-- The positions that a fresh split gives the elements below VL (R380, R384). -/
def splitThreads (h : Hart) (m : BitVec 3) (join : Nat) : Hart :=
  (List.range h.vl.toNat).foldl (fun acc e => setThread acc e (if decide (h.vstart.toNat ≤ e) && h.active m e then 0 else join))
    { h with k := Vector.replicate 8 0 }

/-- Every thread has arrived (R383): k0-k7 and VPR become zero and the hart goes on after the `LTJOIN`; the split and the join are counted. -/
def joinRegion (s : State) (r : Region) : State :=
  { s with h := { s.h with k := Vector.replicate 8 0, vpr := 0, pc := r.base + BitVec.ofNat 64 (4 * r.join + 8), instret := s.h.instret + 2,
                           region := none, lane := none, wait := none } }

/-- `LTSPLIT` (R380). For a split with no thread the spec does not say whether the masks and `VPR` are cleared as by a join: that is open. -/
def execLtsplit (m : BitVec 3) (s : State) : Out :=
  let w : Insn := 0x6A000000#32 ||| fld m 12
  if s.h.lane.isSome ∨ s.h.ew < 32 ∨ s.h.g = 0 then .next (illegal s w)
  else
    match copyRegion s (s.h.pc + 4) 256 with
    | .error e => settle s (.error e)
    | .ok (none, s) => .next (trap s Cause.laneBuffer s.h.pc)
    | .ok (some l, s) =>
      let join := l.length - 1
      let r : Region := { base := s.h.pc, words := l, join := join, yielded := [], last := [] }
      let resumed := bit s.h.vpr 63
      let h := if resumed then s.h else splitThreads s.h m join
      if resumed || !(running h join).isEmpty then .next { s with h := { h with region := some r, wait := none } }
      else
        let (n, s) := s.draw
        let s := if Config.freeBool n then { s with h := { s.h with k := Vector.replicate 8 0, vpr := 0 } } else s
        .next (doneAt s (s.h.pc + BitVec.ofNat 64 (4 * join + 8)))

/-- `LTJOIN` (R382, R383): a thread that reaches it has arrived and stays there. -/
def execLtjoin (s : State) : Out := .next (if s.h.lane.isSome then s else illegal s 0x6A000001#32)

/-- `LTYIELD` (R382): the thread moves on; the region's issue then passes it over. -/
def execLtyield (s : State) : Out := .next (if s.h.lane.isSome then done s else illegal s 0x6A000002#32)

/-- `LTID` (R381). -/
def execLtid (d : BitVec 6) (s : State) : Out :=
  .next <|
    match s.h.lane with
    | some (t, _) => if d.toNat < 32 then done (wx s d (BitVec.ofNat 64 t)) else illegal s (0x6A000003#32 ||| fld d 18)
    | none => illegal s (0x6A000003#32 ||| fld d 18)

/-- `SPLIT_REGION_JOIN` (R383): the region of hart `h` ends if every thread has arrived. -/
def execSplitRegionJoin (h : BitVec 11) (s : State) : Out :=
  .next <| onHart s h fun s =>
    match s.h.region with
    | some r => if (running s.h r.join).isEmpty then joinRegion s r else s
    | none => s

/-! ## Traps and interrupts -/

/-- A trap in a region is taken at its `LTSPLIT`, with the place of the thread in `VPR` (R384). -/
def regionTrap (s : State) (r : Region) (posB posA : Nat) (cause : BitVec 6) (tval : Word) : State :=
  let v : Word := BitVec.ofNat 64 (2 ^ 63 + r.join * 2 ^ 32 + posB * 2 ^ 16 + posA)
  enterTrap { s with h := { s.h with vpr := v, vstart := 0, owed := [], region := none, lane := none } } cause tval

/-- The interrupt that the hart takes next (R154): PREEMPT, then the lowest EXTERNAL source, then TIMER; none while none is takeable. -/
def nextInterrupt (h : Hart) : Option (BitVec 6 × Word) :=
  if (h.prv && !h.ie) || heldByRemote h then none
  else if h.ppend && h.pen then some (Cause.preempt, 0)
  else if !h.ext.isEmpty && h.een then some (Cause.external, BitVec.ofNat 64 (h.ext.headD 0))
  else if h.tpend && h.ten then some (Cause.timer, 0)
  else none

/-- The hart in focus takes its interrupt (R43, R152, R154, R384): in a region at its `LTSPLIT`, in an open matrix convoy at its first word, else at the pc. -/
def takeInterrupt (s : State) : State :=
  match nextInterrupt s.h with
  | none => s
  | some (c, v) =>
    let s := if s.h.wait = some .wfi then { s with h := { s.h with woken := true } } else s
    match s.h.region with
    | some r => regionTrap s r 0 0xFFFF c v
    | none => enterTrap (undoConvoy s) c v

/-- `INTERRUPT_ENTRY` (R43, R154): a takeable interrupt enters the handler of hart `h` at once, or at the `n`-th stop point of the word that it finds in
progress: the first is at its start (R129). A unit
that a cancellation covers is stopped there as for an interrupt (R409). -/
def execInterruptEntry (h : BitVec 11) (n : Nat) (s : State) : Out :=
  .next <| onHart s h fun s =>
    if !s.h.live ∨ s.h.halted then s
    else if s.h.cancelled then { s with h := { s.h with stop := if n = 0 then none else some (n - 1) } }
    else if (nextInterrupt s.h).isNone then s
    else if n = 0 then takeInterrupt s else { s with h := { s.h with stop := some (n - 1) } }

/-! ## The issue of a lane group (R381, R382) -/

/-- Majors that a thread may execute (R381). -/
def laneMajor (w : Insn) : Bool :=
  let m := bits w 31 24
  (1 ≤ m && m ≤ 0x18) || w == 0x6A000001#32 || w == 0x6A000002#32 || (m == 0x6A && bits w 17 0 == 3)

/-- The word writes one of x32-x63, as a thread may not (R381). -/
def laneWrites (w : Insn) : Bool :=
  let m := bits w 31 24
  bit w 23 && ((1 ≤ m && m ≤ 0x0D) || m == 0x0F || m == 0x10 || m == 0x17 || m == 0x18)

/-- How a thread's word ends: with the thread at an offset, or with its trap. -/
inductive LaneRes where
  | moved (s : State) (offset : Nat)
  | trapped (cause : BitVec 6) (tval : Word)

/-- A `JALR` whose target is misaligned and lies outside the region: `LANE_BUFFER` comes first (R155, R381). -/
def leavesMisaligned (w : Insn) (r : Region) (c : BitVec 6) (v : Word) : Bool :=
  bits w 31 24 == 0x18 && c == Cause.misaligned && decide (4 * (r.join + 1) ≤ (v - r.base - 4).toNat)

/-- Thread `t` executes the word at its offset (R381); `run` is the meaning of a word. -/
def laneWord (run : Insn → State → Out) (r : Region) (s : State) (t o : Nat) : LaneRes :=
  let w := r.words.getD o 0
  let start := { s with h := { s.h with pc := r.base + BitVec.ofNat 64 (4 + 4 * o), lane := some (t, none) } }
  if !laneMajor w || laneWrites w then .trapped Cause.illegal (w.setWidth 64)
  else
    match run w start with
    | .next u =>
      match u.h.lane with
      | some (_, some (c, v)) => if leavesMisaligned w r c v then .trapped Cause.laneBuffer r.base else .trapped c v
      | _ =>
        let rel := (u.h.pc - r.base - 4).toNat
        if rel % 4 = 0 ∧ rel / 4 ≤ r.join then
          .moved { u with h := { u.h with pc := r.base, lane := none, instret := s.h.instret, wait := none } } (rel / 4)
        else .trapped Cause.laneBuffer r.base
    | _ => .trapped Cause.illegal (w.setWidth 64)

/-- The threads of a list execute the word at offset `o`, lowest first, an order that R383 leaves open (log 5); the traps met, by thread. -/
def laneThreads (run : Insn → State → Out) (r : Region) (o : Nat) : List Nat → State → State × List (Nat × BitVec 6 × Word)
  | [], s => (s, [])
  | t :: l, s =>
    match laneWord run r s t o with
    | .moved u o' => laneThreads run r o l { u with h := setThread u.h t o' }
    | .trapped c v => let (u, ts) := laneThreads run r o l s; (u, (t, c, v) :: ts)

/-- A thread that yielded and is not ready yet. -/
def Region.held (r : Region) (t : Nat) : Bool := r.yielded.any fun y => y.1 == t

/-- The next offset of the round robin after `last`, ascending, among those that hold a ready thread (R382). -/
def nextOffset (os : List Nat) (last : Option Nat) : Option Nat :=
  let least (l : List Nat) : Option Nat := l.foldl (fun b o => some (match b with
    | none => o
    | some x => min x o)) none
  match last with
  | none => least os
  | some p => (least (os.filter fun o => decide (p < o))).orElse fun _ => least os

/-- The threads of lane group `j` that are ready. -/
def readyThreads (h : Hart) (r : Region) (j : Nat) : List Nat :=
  (running h r.join).filter fun t => !r.held t && threadGroup h t == j

/-- After an issue of group `j` at offset `o` by threads `ts`: who yielded waits for the group's other offsets, and who waited for this one no more does. -/
def noteIssue (h : Hart) (r : Region) (j o : Nat) (ts : List Nat) : Region :=
  let ys := r.yielded.map fun y => if threadGroup h y.1 = j then (y.1, y.2.filter (· != o)) else y
  let r := { r with yielded := ys.filter fun y => !y.2.isEmpty, last := sput r.last j o }
  if r.words.getD o 0 = 0x6A000002#32 then
    let others (t : Nat) : List Nat :=
      (((running h r.join).filter fun u => !r.held u && threadGroup h u == j && !ts.contains u).map (threadAt h)).filter (· != threadAt h t)
    { r with yielded := r.yielded ++ (ts.map fun t => (t, others t)).filter fun y => !y.2.isEmpty }
  else r

/-- One issue of lane group `j`: one word, for up to 8 of its ready threads, and the traps they met with their offset. Where every thread of the group
has yielded, they are ready again (R382). -/
def groupStep (run : Insn → State → Out) (j : Nat) (r : Region) (s : State) : Region × State × List (Nat × Nat × BitVec 6 × Word) :=
  let r := if (readyThreads s.h r j).isEmpty then { r with yielded := r.yielded.filter fun y => threadGroup s.h y.1 != j } else r
  let ready := readyThreads s.h r j
  match nextOffset (ready.map (threadAt s.h)) (sfind r.last j) with
  | none => (r, s, [])
  | some o =>
    let ts := (ready.filter fun t => threadAt s.h t == o).take 8
    let (u, traps) := laneThreads run r o ts s
    (noteIssue u.h r j o ts, u, traps.map fun t => (t.1, o, t.2))

/-- The entry of the lowest thread. -/
def lowestTrap (l : List (Nat × Nat × BitVec 6 × Word)) : Option (Nat × Nat × BitVec 6 × Word) :=
  l.foldl (init := none) fun b e =>
    match b with
    | none => some e
    | some x => some (if e.1 < x.1 then e else x)

/-- One cycle of the region of the hart in focus: every lane group issues one word, then comes the trap of the lowest-numbered thread that met one, or
the join (R382-R384). -/
def laneStep (run : Insn → State → Out) (r : Region) (s : State) : State :=
  if (running s.h r.join).isEmpty then joinRegion s r
  else
    let (r', u, traps) := (List.range s.h.g).foldl (init := (r, s, ([] : List (Nat × Nat × BitVec 6 × Word)))) fun (q, s, l) j =>
      let (q, s, m) := groupStep run j q s
      (q, s, l ++ m)
    match lowestTrap traps with
    | some (t, o, c, v) => regionTrap u r o t c v
    | none => { u with h := { u.h with region := some r' } }

end Sys2Proof.Machine
end

