-- ==== Sys2Proof/Machine/VecInt.lean ====
section
/-!
DEFINITION. `SETVL`, `SETVLX` and the integer vector words (05_vector_instructions.md R96-R98, R102, R103, R105-R107; 02 R19-R25).
-/

namespace Sys2Proof.Machine

/-! ## Setting the vector length -/

/-- `vl_from_request` (R25). -/
def vlFromRequest (n vmax blk : Nat) : Nat :=
  let m := min n vmax
  if blk = 0 ∨ m < blk then m else m / blk * blk

/-- The grant that a request of `n` elements of width `w` asks for (R19). -/
def wantGroups (h : Hart) (n w : Nat) : Nat := max h.lgmin.toNat (min ((n * w + 4095) / 4096) h.lgmax.toNat)

/-- `SETVL` at a type (R19-R25, R98): it waits in the FIFO while its minimum cannot be met (R21). -/
def setvl (d : BitVec 6) (n : Word) (vt : BitVec 12) (s : State) : Out :=
  let w := ewBits (vt.extractLsb' 0 2)
  match negotiate s (wantGroups s.h n.toNat w) with
  | none => .next (await (joinFifo s) .lgmin)
  | some t =>
    let vl := vlFromRequest n.toNat (vlmax w t.h.g) (blkLen (vt.extractLsb' 7 3))
    let t : State := { t with h := { t.h with vl := BitVec.ofNat 12 vl, vtype := vt } }
    .next (done (wx t d (BitVec.ofNat 64 vl)))

/-- A type is legal (R96, R183): its block length is listed and its width and format go together. -/
def typeLegal (vt : BitVec 12) : Bool := bits vt 9 7 ≤ 4 && pairLegal (vt.extractLsb' 0 2) (vt.extractLsb' 2 5)

/-- `SETVLX` with its type in a register (R97); in stage 2 binary64 and SLI are not offered (R439). -/
def setvlx (d a b : BitVec 6) (s : State) : Out :=
  let v := rx s b
  if bits v 63 12 ≠ 0 ∨ !typeLegal (v.setWidth 12) ∨ (s.d.stage = 2 ∧ unoffered (v.extractLsb' 2 5)) then .next (trap s Cause.illegal v)
  else setvl d (rx s a) (v.setWidth 12) s

/-- `SETVL` (R19). -/
def execSetvl (d a : BitVec 6) (z t : BitVec 1) (l : BitVec 3) (f : BitVec 5) (e : BitVec 2) (s : State) : Out :=
  setvl d (rx s a) (z ++ t ++ l ++ f ++ e) s

/-- `SETVLX` (R97). -/
def execSetvlx (d a b : BitVec 6) (s : State) : Out := setvlx d a b s

/-- `SETVLX_KEEP` (R97). -/
def execSetvlxKeep (d a : BitVec 6) (s : State) : Out := setvl d (rx s a) s.h.vtype s

/-- The next state of an outcome, or the state it started from. -/
def nextOr (s : State) : Out → State
  | .next t => t
  | _ => s

/-- Run again the waiting word of hart `h`, of a kind that `run` names, at its place (R159): where its wait is over it completes. -/
def retryWord (s : State) (h : BitVec 11) (run : Insn → State → Option Out) : State :=
  onHart s h fun s =>
    if s.h.wait.isNone then s
    else
      match fetch s s.h.pc with
      | .error _ => s
      | .ok (w, t) =>
        match run w t with
        | some o => nextOr s o
        | none => s

/-- Run again a waiting word that its older matrix words come before: one that they still hold back has not come to its own wait (R41, R310). -/
def retryAlone (s : State) (h : BitVec 11) (run : Insn → State → Option Out) : State :=
  retryWord s h fun w t => if t.h.mstage.isOpen then none else run w t

/-- `SETVL_GRANT` (R21): the `SETVL` or `SETVLX` of hart `h` that waits for lgmin proceeds, if its turn in the FIFO has come and its minimum can be met. -/
def execSetvlGrant (h : BitVec 11) (s : State) : Out :=
  .next <| retryAlone s h fun w t =>
    if seg w 24 8 = 0x20 then some (setvl (seg w 18 6) (rx t (seg w 12 6)) (seg w 0 12) t)
    else if seg w 24 8 = 0x21 then
      some (if seg w 0 6 = 0 then setvlx (seg w 18 6) (seg w 12 6) (seg w 6 6) t else setvl (seg w 18 6) (rx t (seg w 12 6)) t.h.vtype t)
    else none

/-! ## Integer arithmetic -/

/-- An element-wise integer word on two vector registers (R102, R103). -/
def vint2 (w : Insn) (f : (n : Nat) → BitVec n → BitVec n → BitVec n) (cv : BitVec 1) (d a b : BitVec 5) (k : BitVec 3) (s : State) : Out :=
  vword w cv (s.h.member .arith [a, b] (gov k) [d] []) false
    (vmap d k fun h e => (bvOp f h.ew (h.elem h.ew a e) (h.elem h.ew b e), 0)) s

/-- An element-wise integer word with a scalar second operand `y` (R101, R102). -/
def vintx (w : Insn) (f : (n : Nat) → BitVec n → BitVec n → BitVec n) (cv : BitVec 1) (d a : BitVec 5) (k : BitVec 3) (y : Word) (bad : Bool)
    (s : State) : Out :=
  vword w cv (s.h.member .arith [a] (gov k) [d] []) bad
    (vmap d k fun h e => (bvOp f h.ew (h.elem h.ew a e) y, 0)) s

/-- An element-wise integer word on one vector register. -/
def vint1 (w : Insn) (f : (n : Nat) → BitVec n → BitVec n) (cv : BitVec 1) (d a : BitVec 5) (k : BitVec 3) (s : State) : Out :=
  vword w cv (s.h.member .arith [a] (gov k) [d] []) false
    (vmap d k fun h e => (bvOp (fun n x _ => f n x) h.ew (h.elem h.ew a e) 0, 0)) s

/-- The high half of a product of integers at width `n`. -/
def highHalf (n : Nat) (p : Int) : BitVec n := BitVec.ofInt n (p / 2 ^ n)

/-- The nearest representable signed value of width `n` (R103). -/
def clampS (n : Nat) (x : Int) : BitVec n := BitVec.ofInt n (max (-(2 ^ (n - 1))) (min x (2 ^ (n - 1) - 1)))

/-- The nearest integer to x / 2^k, ties to even (R103). -/
def rneShift (x : Int) (k : Nat) : Int :=
  let q := x / 2 ^ k
  let r := x % 2 ^ k
  if 2 ^ k < 2 * r ∨ (2 * r = 2 ^ k ∧ q % 2 = 1) then q + 1 else q

/-- `VADD_VV` (R102). -/
def execVaddVv (cv : BitVec 1) (d a b : BitVec 5) (k : BitVec 3) (s : State) : Out :=
  vint2 (0x22000000#32 ||| fld cv 31 ||| fld d 19 ||| fld a 14 ||| fld b 9 ||| fld k 6) (fun _ x y => x + y) cv d a b k s

/-- `VSUB_VV` (R102). -/
def execVsubVv (cv : BitVec 1) (d a b : BitVec 5) (k : BitVec 3) (s : State) : Out :=
  vint2 (0x22000001#32 ||| fld cv 31 ||| fld d 19 ||| fld a 14 ||| fld b 9 ||| fld k 6) (fun _ x y => x - y) cv d a b k s

/-- `VAND_VV` (R102). -/
def execVandVv (cv : BitVec 1) (d a b : BitVec 5) (k : BitVec 3) (s : State) : Out :=
  vint2 (0x22000002#32 ||| fld cv 31 ||| fld d 19 ||| fld a 14 ||| fld b 9 ||| fld k 6) (fun _ x y => x &&& y) cv d a b k s

/-- `VOR_VV` (R102). -/
def execVorVv (cv : BitVec 1) (d a b : BitVec 5) (k : BitVec 3) (s : State) : Out :=
  vint2 (0x22000003#32 ||| fld cv 31 ||| fld d 19 ||| fld a 14 ||| fld b 9 ||| fld k 6) (fun _ x y => x ||| y) cv d a b k s

/-- `VXOR_VV` (R102). -/
def execVxorVv (cv : BitVec 1) (d a b : BitVec 5) (k : BitVec 3) (s : State) : Out :=
  vint2 (0x22000004#32 ||| fld cv 31 ||| fld d 19 ||| fld a 14 ||| fld b 9 ||| fld k 6) (fun _ x y => x ^^^ y) cv d a b k s

/-- `VSLL_VV` (R102). -/
def execVsllVv (cv : BitVec 1) (d a b : BitVec 5) (k : BitVec 3) (s : State) : Out :=
  vint2 (0x22000005#32 ||| fld cv 31 ||| fld d 19 ||| fld a 14 ||| fld b 9 ||| fld k 6) (fun n x y => x <<< (y.toNat % n)) cv d a b k s

/-- `VSRL_VV` (R102). -/
def execVsrlVv (cv : BitVec 1) (d a b : BitVec 5) (k : BitVec 3) (s : State) : Out :=
  vint2 (0x22000006#32 ||| fld cv 31 ||| fld d 19 ||| fld a 14 ||| fld b 9 ||| fld k 6) (fun n x y => x >>> (y.toNat % n)) cv d a b k s

/-- `VSRA_VV` (R102). -/
def execVsraVv (cv : BitVec 1) (d a b : BitVec 5) (k : BitVec 3) (s : State) : Out :=
  vint2 (0x22000007#32 ||| fld cv 31 ||| fld d 19 ||| fld a 14 ||| fld b 9 ||| fld k 6) (fun n x y => x.sshiftRight (y.toNat % n)) cv d a b k s

/-- `VMIN_VV` (R102). -/
def execVminVv (cv : BitVec 1) (d a b : BitVec 5) (k : BitVec 3) (s : State) : Out :=
  vint2 (0x2200000A#32 ||| fld cv 31 ||| fld d 19 ||| fld a 14 ||| fld b 9 ||| fld k 6) (fun _ x y => if y.slt x then y else x) cv d a b k s

/-- `VMAX_VV` (R102). -/
def execVmaxVv (cv : BitVec 1) (d a b : BitVec 5) (k : BitVec 3) (s : State) : Out :=
  vint2 (0x2200000B#32 ||| fld cv 31 ||| fld d 19 ||| fld a 14 ||| fld b 9 ||| fld k 6) (fun _ x y => if x.slt y then y else x) cv d a b k s

/-- `VMINU_VV` (R102). -/
def execVminuVv (cv : BitVec 1) (d a b : BitVec 5) (k : BitVec 3) (s : State) : Out :=
  vint2 (0x2200000C#32 ||| fld cv 31 ||| fld d 19 ||| fld a 14 ||| fld b 9 ||| fld k 6) (fun _ x y => if y.ult x then y else x) cv d a b k s

/-- `VMAXU_VV` (R102). -/
def execVmaxuVv (cv : BitVec 1) (d a b : BitVec 5) (k : BitVec 3) (s : State) : Out :=
  vint2 (0x2200000D#32 ||| fld cv 31 ||| fld d 19 ||| fld a 14 ||| fld b 9 ||| fld k 6) (fun _ x y => if x.ult y then y else x) cv d a b k s

/-- `VMUL_VV` (R102). -/
def execVmulVv (cv : BitVec 1) (d a b : BitVec 5) (k : BitVec 3) (s : State) : Out :=
  vint2 (0x22000010#32 ||| fld cv 31 ||| fld d 19 ||| fld a 14 ||| fld b 9 ||| fld k 6) (fun _ x y => x * y) cv d a b k s

/-- `VHMUL_VV` (R102). -/
def execVhmulVv (cv : BitVec 1) (d a b : BitVec 5) (k : BitVec 3) (s : State) : Out :=
  vint2 (0x22000011#32 ||| fld cv 31 ||| fld d 19 ||| fld a 14 ||| fld b 9 ||| fld k 6) (fun n x y => highHalf n (x.toInt * y.toInt)) cv d a b k s

/-- `VHMULU_VV` (R102). -/
def execVhmuluVv (cv : BitVec 1) (d a b : BitVec 5) (k : BitVec 3) (s : State) : Out :=
  vint2 (0x22000012#32 ||| fld cv 31 ||| fld d 19 ||| fld a 14 ||| fld b 9 ||| fld k 6) (fun n x y => highHalf n (x.toNat * y.toNat)) cv d a b k s

/-- `VHMULSU_VV` (R102). -/
def execVhmulsuVv (cv : BitVec 1) (d a b : BitVec 5) (k : BitVec 3) (s : State) : Out :=
  vint2 (0x22000013#32 ||| fld cv 31 ||| fld d 19 ||| fld a 14 ||| fld b 9 ||| fld k 6) (fun n x y => highHalf n (x.toInt * y.toNat)) cv d a b k s

/-- `VDIV_VV` (R102). -/
def execVdivVv (cv : BitVec 1) (d a b : BitVec 5) (k : BitVec 3) (s : State) : Out :=
  vint2 (0x22000014#32 ||| fld cv 31 ||| fld d 19 ||| fld a 14 ||| fld b 9 ||| fld k 6) (fun _ x y => divS x y) cv d a b k s

/-- `VDIVU_VV` (R102). -/
def execVdivuVv (cv : BitVec 1) (d a b : BitVec 5) (k : BitVec 3) (s : State) : Out :=
  vint2 (0x22000015#32 ||| fld cv 31 ||| fld d 19 ||| fld a 14 ||| fld b 9 ||| fld k 6) (fun _ x y => divU x y) cv d a b k s

/-- `VREM_VV` (R102). -/
def execVremVv (cv : BitVec 1) (d a b : BitVec 5) (k : BitVec 3) (s : State) : Out :=
  vint2 (0x22000016#32 ||| fld cv 31 ||| fld d 19 ||| fld a 14 ||| fld b 9 ||| fld k 6) (fun _ x y => remS x y) cv d a b k s

/-- `VREMU_VV` (R102). -/
def execVremuVv (cv : BitVec 1) (d a b : BitVec 5) (k : BitVec 3) (s : State) : Out :=
  vint2 (0x22000017#32 ||| fld cv 31 ||| fld d 19 ||| fld a 14 ||| fld b 9 ||| fld k 6) (fun _ x y => remU x y) cv d a b k s

/-- `VCLZ_VV` (R102). -/
def execVclzVv (cv : BitVec 1) (d a : BitVec 5) (k : BitVec 3) (s : State) : Out :=
  vint1 (0x22000018#32 ||| fld cv 31 ||| fld d 19 ||| fld a 14 ||| fld k 6) (fun n x => BitVec.ofNat n (leadZeros x n)) cv d a k s

/-- `VCTZ_VV` (R102). -/
def execVctzVv (cv : BitVec 1) (d a : BitVec 5) (k : BitVec 3) (s : State) : Out :=
  vint1 (0x22000019#32 ||| fld cv 31 ||| fld d 19 ||| fld a 14 ||| fld k 6) (fun n x => BitVec.ofNat n (trailZeros x 0 n)) cv d a k s

/-- `VPOPC_VV` (R102). -/
def execVpopcVv (cv : BitVec 1) (d a : BitVec 5) (k : BitVec 3) (s : State) : Out :=
  vint1 (0x2200001A#32 ||| fld cv 31 ||| fld d 19 ||| fld a 14 ||| fld k 6) (fun n x => BitVec.ofNat n (popCount x n)) cv d a k s

/-- `VADD_VX` (R102). -/
def execVaddVx (cv : BitVec 1) (d a : BitVec 5) (x : BitVec 6) (k : BitVec 3) (s : State) : Out :=
  vintx (0x23000000#32 ||| fld cv 31 ||| fld d 19 ||| fld a 14 ||| fld x 8 ||| fld k 5) (fun _ x y => x + y) cv d a k (rx s x) false s

/-- `VSUB_VX` (R102). -/
def execVsubVx (cv : BitVec 1) (d a : BitVec 5) (x : BitVec 6) (k : BitVec 3) (s : State) : Out :=
  vintx (0x23000001#32 ||| fld cv 31 ||| fld d 19 ||| fld a 14 ||| fld x 8 ||| fld k 5) (fun _ x y => x - y) cv d a k (rx s x) false s

/-- `VAND_VX` (R102). -/
def execVandVx (cv : BitVec 1) (d a : BitVec 5) (x : BitVec 6) (k : BitVec 3) (s : State) : Out :=
  vintx (0x23000002#32 ||| fld cv 31 ||| fld d 19 ||| fld a 14 ||| fld x 8 ||| fld k 5) (fun _ x y => x &&& y) cv d a k (rx s x) false s

/-- `VOR_VX` (R102). -/
def execVorVx (cv : BitVec 1) (d a : BitVec 5) (x : BitVec 6) (k : BitVec 3) (s : State) : Out :=
  vintx (0x23000003#32 ||| fld cv 31 ||| fld d 19 ||| fld a 14 ||| fld x 8 ||| fld k 5) (fun _ x y => x ||| y) cv d a k (rx s x) false s

/-- `VXOR_VX` (R102). -/
def execVxorVx (cv : BitVec 1) (d a : BitVec 5) (x : BitVec 6) (k : BitVec 3) (s : State) : Out :=
  vintx (0x23000004#32 ||| fld cv 31 ||| fld d 19 ||| fld a 14 ||| fld x 8 ||| fld k 5) (fun _ x y => x ^^^ y) cv d a k (rx s x) false s

/-- `VSLL_VX` (R102). -/
def execVsllVx (cv : BitVec 1) (d a : BitVec 5) (x : BitVec 6) (k : BitVec 3) (s : State) : Out :=
  vintx (0x23000005#32 ||| fld cv 31 ||| fld d 19 ||| fld a 14 ||| fld x 8 ||| fld k 5) (fun n x y => x <<< (y.toNat % n)) cv d a k (rx s x) false s

/-- `VSRL_VX` (R102). -/
def execVsrlVx (cv : BitVec 1) (d a : BitVec 5) (x : BitVec 6) (k : BitVec 3) (s : State) : Out :=
  vintx (0x23000006#32 ||| fld cv 31 ||| fld d 19 ||| fld a 14 ||| fld x 8 ||| fld k 5) (fun n x y => x >>> (y.toNat % n)) cv d a k (rx s x) false s

/-- `VSRA_VX` (R102). -/
def execVsraVx (cv : BitVec 1) (d a : BitVec 5) (x : BitVec 6) (k : BitVec 3) (s : State) : Out :=
  vintx (0x23000007#32 ||| fld cv 31 ||| fld d 19 ||| fld a 14 ||| fld x 8 ||| fld k 5) (fun n x y => x.sshiftRight (y.toNat % n)) cv d a k (rx s x) false s

/-- `VMIN_VX` (R102). -/
def execVminVx (cv : BitVec 1) (d a : BitVec 5) (x : BitVec 6) (k : BitVec 3) (s : State) : Out :=
  vintx (0x2300000A#32 ||| fld cv 31 ||| fld d 19 ||| fld a 14 ||| fld x 8 ||| fld k 5) (fun _ x y => if y.slt x then y else x) cv d a k (rx s x) false s

/-- `VMAX_VX` (R102). -/
def execVmaxVx (cv : BitVec 1) (d a : BitVec 5) (x : BitVec 6) (k : BitVec 3) (s : State) : Out :=
  vintx (0x2300000B#32 ||| fld cv 31 ||| fld d 19 ||| fld a 14 ||| fld x 8 ||| fld k 5) (fun _ x y => if x.slt y then y else x) cv d a k (rx s x) false s

/-- `VMINU_VX` (R102). -/
def execVminuVx (cv : BitVec 1) (d a : BitVec 5) (x : BitVec 6) (k : BitVec 3) (s : State) : Out :=
  vintx (0x2300000C#32 ||| fld cv 31 ||| fld d 19 ||| fld a 14 ||| fld x 8 ||| fld k 5) (fun _ x y => if y.ult x then y else x) cv d a k (rx s x) false s

/-- `VMAXU_VX` (R102). -/
def execVmaxuVx (cv : BitVec 1) (d a : BitVec 5) (x : BitVec 6) (k : BitVec 3) (s : State) : Out :=
  vintx (0x2300000D#32 ||| fld cv 31 ||| fld d 19 ||| fld a 14 ||| fld x 8 ||| fld k 5) (fun _ x y => if x.ult y then y else x) cv d a k (rx s x) false s

/-- `VMUL_VX` (R102). -/
def execVmulVx (cv : BitVec 1) (d a : BitVec 5) (x : BitVec 6) (k : BitVec 3) (s : State) : Out :=
  vintx (0x23000010#32 ||| fld cv 31 ||| fld d 19 ||| fld a 14 ||| fld x 8 ||| fld k 5) (fun _ x y => x * y) cv d a k (rx s x) false s

/-- `VHMUL_VX` (R102). -/
def execVhmulVx (cv : BitVec 1) (d a : BitVec 5) (x : BitVec 6) (k : BitVec 3) (s : State) : Out :=
  vintx (0x23000011#32 ||| fld cv 31 ||| fld d 19 ||| fld a 14 ||| fld x 8 ||| fld k 5) (fun n x y => highHalf n (x.toInt * y.toInt)) cv d a k (rx s x) false s

/-- `VHMULU_VX` (R102). -/
def execVhmuluVx (cv : BitVec 1) (d a : BitVec 5) (x : BitVec 6) (k : BitVec 3) (s : State) : Out :=
  vintx (0x23000012#32 ||| fld cv 31 ||| fld d 19 ||| fld a 14 ||| fld x 8 ||| fld k 5) (fun n x y => highHalf n (x.toNat * y.toNat)) cv d a k (rx s x) false s

/-- `VHMULSU_VX` (R102). -/
def execVhmulsuVx (cv : BitVec 1) (d a : BitVec 5) (x : BitVec 6) (k : BitVec 3) (s : State) : Out :=
  vintx (0x23000013#32 ||| fld cv 31 ||| fld d 19 ||| fld a 14 ||| fld x 8 ||| fld k 5) (fun n x y => highHalf n (x.toInt * y.toNat)) cv d a k (rx s x) false s

/-- `VDIV_VX` (R102). -/
def execVdivVx (cv : BitVec 1) (d a : BitVec 5) (x : BitVec 6) (k : BitVec 3) (s : State) : Out :=
  vintx (0x23000014#32 ||| fld cv 31 ||| fld d 19 ||| fld a 14 ||| fld x 8 ||| fld k 5) (fun _ x y => divS x y) cv d a k (rx s x) false s

/-- `VDIVU_VX` (R102). -/
def execVdivuVx (cv : BitVec 1) (d a : BitVec 5) (x : BitVec 6) (k : BitVec 3) (s : State) : Out :=
  vintx (0x23000015#32 ||| fld cv 31 ||| fld d 19 ||| fld a 14 ||| fld x 8 ||| fld k 5) (fun _ x y => divU x y) cv d a k (rx s x) false s

/-- `VREM_VX` (R102). -/
def execVremVx (cv : BitVec 1) (d a : BitVec 5) (x : BitVec 6) (k : BitVec 3) (s : State) : Out :=
  vintx (0x23000016#32 ||| fld cv 31 ||| fld d 19 ||| fld a 14 ||| fld x 8 ||| fld k 5) (fun _ x y => remS x y) cv d a k (rx s x) false s

/-- `VREMU_VX` (R102). -/
def execVremuVx (cv : BitVec 1) (d a : BitVec 5) (x : BitVec 6) (k : BitVec 3) (s : State) : Out :=
  vintx (0x23000017#32 ||| fld cv 31 ||| fld d 19 ||| fld a 14 ||| fld x 8 ||| fld k 5) (fun _ x y => remU x y) cv d a k (rx s x) false s

/-- `VRSUB_VX` (R102). -/
def execVrsubVx (cv : BitVec 1) (d a : BitVec 5) (x : BitVec 6) (k : BitVec 3) (s : State) : Out :=
  vintx (0x2300001B#32 ||| fld cv 31 ||| fld d 19 ||| fld a 14 ||| fld x 8 ||| fld k 5) (fun _ x y => y - x) cv d a k (rx s x) false s

/-- `VCLZ_VX` (R102). -/
def execVclzVx (cv : BitVec 1) (d a : BitVec 5) (k : BitVec 3) (s : State) : Out :=
  vint1 (0x23000018#32 ||| fld cv 31 ||| fld d 19 ||| fld a 14 ||| fld k 5) (fun n x => BitVec.ofNat n (leadZeros x n)) cv d a k s

/-- `VCTZ_VX` (R102). -/
def execVctzVx (cv : BitVec 1) (d a : BitVec 5) (k : BitVec 3) (s : State) : Out :=
  vint1 (0x23000019#32 ||| fld cv 31 ||| fld d 19 ||| fld a 14 ||| fld k 5) (fun n x => BitVec.ofNat n (trailZeros x 0 n)) cv d a k s

/-- `VPOPC_VX` (R102). -/
def execVpopcVx (cv : BitVec 1) (d a : BitVec 5) (k : BitVec 3) (s : State) : Out :=
  vint1 (0x2300001A#32 ||| fld cv 31 ||| fld d 19 ||| fld a 14 ||| fld k 5) (fun n x => BitVec.ofNat n (popCount x n)) cv d a k s

/-- `VADD_VI` (R102). -/
def execVaddVi (cv : BitVec 1) (d a : BitVec 5) (im : BitVec 6) (k : BitVec 3) (s : State) : Out :=
  vintx (0x24000000#32 ||| fld cv 31 ||| fld d 19 ||| fld a 14 ||| fld im 8 ||| fld k 5) (fun _ x y => x + y) cv d a k (im.signExtend 64) false s

/-- `VAND_VI` (R102). -/
def execVandVi (cv : BitVec 1) (d a : BitVec 5) (im : BitVec 6) (k : BitVec 3) (s : State) : Out :=
  vintx (0x24000002#32 ||| fld cv 31 ||| fld d 19 ||| fld a 14 ||| fld im 8 ||| fld k 5) (fun _ x y => x &&& y) cv d a k (im.signExtend 64) false s

/-- `VOR_VI` (R102). -/
def execVorVi (cv : BitVec 1) (d a : BitVec 5) (im : BitVec 6) (k : BitVec 3) (s : State) : Out :=
  vintx (0x24000003#32 ||| fld cv 31 ||| fld d 19 ||| fld a 14 ||| fld im 8 ||| fld k 5) (fun _ x y => x ||| y) cv d a k (im.signExtend 64) false s

/-- `VXOR_VI` (R102). -/
def execVxorVi (cv : BitVec 1) (d a : BitVec 5) (im : BitVec 6) (k : BitVec 3) (s : State) : Out :=
  vintx (0x24000004#32 ||| fld cv 31 ||| fld d 19 ||| fld a 14 ||| fld im 8 ||| fld k 5) (fun _ x y => x ^^^ y) cv d a k (im.signExtend 64) false s

/-- `VSLL_VI` (R102). -/
def execVsllVi (cv : BitVec 1) (d a : BitVec 5) (im : BitVec 6) (k : BitVec 3) (s : State) : Out :=
  vintx (0x24000005#32 ||| fld cv 31 ||| fld d 19 ||| fld a 14 ||| fld im 8 ||| fld k 5) (fun n x y => x <<< (y.toNat % n)) cv d a k (im.setWidth 64) (decide (s.h.ew ≤ im.toNat)) s

/-- `VSRL_VI` (R102). -/
def execVsrlVi (cv : BitVec 1) (d a : BitVec 5) (im : BitVec 6) (k : BitVec 3) (s : State) : Out :=
  vintx (0x24000006#32 ||| fld cv 31 ||| fld d 19 ||| fld a 14 ||| fld im 8 ||| fld k 5) (fun n x y => x >>> (y.toNat % n)) cv d a k (im.setWidth 64) (decide (s.h.ew ≤ im.toNat)) s

/-- `VSRA_VI` (R102). -/
def execVsraVi (cv : BitVec 1) (d a : BitVec 5) (im : BitVec 6) (k : BitVec 3) (s : State) : Out :=
  vintx (0x24000007#32 ||| fld cv 31 ||| fld d 19 ||| fld a 14 ||| fld im 8 ||| fld k 5) (fun n x y => x.sshiftRight (y.toNat % n)) cv d a k (im.setWidth 64) (decide (s.h.ew ≤ im.toNat)) s

/-- `VMIN_VI` (R102). -/
def execVminVi (cv : BitVec 1) (d a : BitVec 5) (im : BitVec 6) (k : BitVec 3) (s : State) : Out :=
  vintx (0x2400000A#32 ||| fld cv 31 ||| fld d 19 ||| fld a 14 ||| fld im 8 ||| fld k 5) (fun _ x y => if y.slt x then y else x) cv d a k (im.signExtend 64) false s

/-- `VMAX_VI` (R102). -/
def execVmaxVi (cv : BitVec 1) (d a : BitVec 5) (im : BitVec 6) (k : BitVec 3) (s : State) : Out :=
  vintx (0x2400000B#32 ||| fld cv 31 ||| fld d 19 ||| fld a 14 ||| fld im 8 ||| fld k 5) (fun _ x y => if x.slt y then y else x) cv d a k (im.signExtend 64) false s

/-- `VMINU_VI` (R102). -/
def execVminuVi (cv : BitVec 1) (d a : BitVec 5) (im : BitVec 6) (k : BitVec 3) (s : State) : Out :=
  vintx (0x2400000C#32 ||| fld cv 31 ||| fld d 19 ||| fld a 14 ||| fld im 8 ||| fld k 5) (fun _ x y => if y.ult x then y else x) cv d a k (im.signExtend 64) false s

/-- `VMAXU_VI` (R102). -/
def execVmaxuVi (cv : BitVec 1) (d a : BitVec 5) (im : BitVec 6) (k : BitVec 3) (s : State) : Out :=
  vintx (0x2400000D#32 ||| fld cv 31 ||| fld d 19 ||| fld a 14 ||| fld im 8 ||| fld k 5) (fun _ x y => if x.ult y then y else x) cv d a k (im.signExtend 64) false s

/-- `VRSUB_VI` (R102). -/
def execVrsubVi (cv : BitVec 1) (d a : BitVec 5) (im : BitVec 6) (k : BitVec 3) (s : State) : Out :=
  vintx (0x2400001B#32 ||| fld cv 31 ||| fld d 19 ||| fld a 14 ||| fld im 8 ||| fld k 5) (fun _ x y => y - x) cv d a k (im.signExtend 64) false s

/-- `VSADD` (R103). -/
def execVsadd (cv : BitVec 1) (d a b : BitVec 5) (k : BitVec 3) (s : State) : Out :=
  vint2 (0x3A000000#32 ||| fld cv 31 ||| fld d 19 ||| fld a 14 ||| fld b 9 ||| fld k 6) (fun n x y => clampS n (x.toInt + y.toInt)) cv d a b k s

/-- `VSADDU` (R103). -/
def execVsaddu (cv : BitVec 1) (d a b : BitVec 5) (k : BitVec 3) (s : State) : Out :=
  vint2 (0x3A000001#32 ||| fld cv 31 ||| fld d 19 ||| fld a 14 ||| fld b 9 ||| fld k 6) (fun n x y => BitVec.ofNat n (min (x.toNat + y.toNat) (2 ^ n - 1))) cv d a b k s

/-- `VSSUB` (R103). -/
def execVssub (cv : BitVec 1) (d a b : BitVec 5) (k : BitVec 3) (s : State) : Out :=
  vint2 (0x3A000002#32 ||| fld cv 31 ||| fld d 19 ||| fld a 14 ||| fld b 9 ||| fld k 6) (fun n x y => clampS n (x.toInt - y.toInt)) cv d a b k s

/-- `VSSUBU` (R103). -/
def execVssubu (cv : BitVec 1) (d a b : BitVec 5) (k : BitVec 3) (s : State) : Out :=
  vint2 (0x3A000003#32 ||| fld cv 31 ||| fld d 19 ||| fld a 14 ||| fld b 9 ||| fld k 6) (fun n x y => BitVec.ofNat n (x.toNat - y.toNat)) cv d a b k s

/-- `VSMUL` (R103). -/
def execVsmul (cv : BitVec 1) (d a b : BitVec 5) (k : BitVec 3) (s : State) : Out :=
  vint2 (0x3A000004#32 ||| fld cv 31 ||| fld d 19 ||| fld a 14 ||| fld b 9 ||| fld k 6) (fun n x y => clampS n (rneShift (x.toInt * y.toInt) (n - 1))) cv d a b k s

/-- `VAVG` (R103). -/
def execVavg (cv : BitVec 1) (d a b : BitVec 5) (k : BitVec 3) (s : State) : Out :=
  vint2 (0x3A000005#32 ||| fld cv 31 ||| fld d 19 ||| fld a 14 ||| fld b 9 ||| fld k 6) (fun n x y => BitVec.ofInt n ((x.toInt + y.toInt + 1) / 2)) cv d a b k s

/-- `VAVGU` (R103). -/
def execVavgu (cv : BitVec 1) (d a b : BitVec 5) (k : BitVec 3) (s : State) : Out :=
  vint2 (0x3A000006#32 ||| fld cv 31 ||| fld d 19 ||| fld a 14 ||| fld b 9 ||| fld k 6) (fun n x y => BitVec.ofNat n ((x.toNat + y.toNat + 1) / 2)) cv d a b k s

/-- An accumulating integer word (R105): V[vd][e] := f(d, a, b). -/
def vmac (w : Insn) (f : Word → Word → Word → Word) (cv : BitVec 1) (d a b : BitVec 5) (k : BitVec 3) (s : State) : Out :=
  vword w cv (s.h.member .arith [a, b, d] (gov k) [d] []) false
    (vmap d k fun h e => (f (h.elem h.ew d e) (h.elem h.ew a e) (h.elem h.ew b e), 0)) s

/-- `VMACC` (R105). -/
def execVmacc (cv : BitVec 1) (d a b : BitVec 5) (k : BitVec 3) (s : State) : Out :=
  vmac (0x27000004#32 ||| fld cv 31 ||| fld d 19 ||| fld a 14 ||| fld b 9 ||| fld k 6) (fun z x y => z + x * y) cv d a b k s

/-- `VNMSAC` (R105). -/
def execVnmsac (cv : BitVec 1) (d a b : BitVec 5) (k : BitVec 3) (s : State) : Out :=
  vmac (0x27000005#32 ||| fld cv 31 ||| fld d 19 ||| fld a 14 ||| fld b 9 ||| fld k 6) (fun z x y => z - x * y) cv d a b k s

/-! ## Widening multiply-accumulate -/

/-- Register and index of wide element `e` in the pair at `d` (R107). -/
def widePlace (h : Hart) (d : BitVec 5) (e : Nat) : BitVec 5 × Nat :=
  let l := vlmax (2 * h.ew) h.g
  (d + BitVec.ofNat 5 (e / l), e % l)

/-- Wide element `e`. -/
def wideElem (h : Hart) (d : BitVec 5) (e : Nat) : Word :=
  let (r, i) := widePlace h d e
  h.elem (2 * h.ew) r i

/-- Write wide element `e`. -/
def setWide (h : Hart) (d : BitVec 5) (e : Nat) (x : Word) : Hart :=
  let (r, i) := widePlace h d e
  h.setElem (2 * h.ew) r i x

/-- Process wide elements of a list (R99, R107). -/
def eachWide (d : BitVec 5) (k : BitVec 3) (f : Hart → Nat → Word × Flags) (l : List Nat) (h : Hart) : Hart :=
  l.foldl (init := h) fun h e =>
    if h.active k e then
      let (x, g) := f h e
      { setWide h d e x with fcsr := h.fcsr ||| g }
    else if h.mz then setWide h d e 0 else h

/-- Zero the wide tail of the pair where TZ asks for it (R107). -/
def zeroWideTail (d : BitVec 5) (h : Hart) : Hart :=
  if h.tz then (span h.vl.toNat (2 * vlmax (2 * h.ew) h.g)).foldl (fun h e => setWide h d e 0) h else h

/-- A `VWMAC` word (R106, R107). -/
def vwmac (w : Insn) (bad : Bool) (f : Hart → Word → Word → Word → Word × Flags) (cv : BitVec 1) (d a b : BitVec 5) (k : BitVec 3) (s : State) : Out :=
  let clash := bit d 0 || s.h.ew == 64 || (a >>> 1) == (d >>> 1) || (b >>> 1) == (d >>> 1)
  vword w cv (s.h.member .arithBoth [a, b, d, d + 1] (gov k) [d, d + 1] []) (bad || clash)
    (elementwise (groupLen s.h.ew) (eachWide d k fun h e => f h (wideElem h d e) (h.elem h.ew a e) (h.elem h.ew b e)) (zeroWideTail d)) s

/-- A W-bit pattern sign-extended to 64 bits. -/
def sextW (w : Nat) (x : Word) : Word := BitVec.ofInt 64 (x.setWidth w).toInt

/-- `VWMACC` (R106). -/
def execVwmacc (cv : BitVec 1) (d a b : BitVec 5) (k : BitVec 3) (s : State) : Out :=
  vwmac (0x28000000#32 ||| fld cv 31 ||| fld d 19 ||| fld a 14 ||| fld b 9 ||| fld k 6) false (fun h z x y => (z + sextW h.ew x * sextW h.ew y, 0)) cv d a b k s

/-- `VWMACCU` (R106). -/
def execVwmaccu (cv : BitVec 1) (d a b : BitVec 5) (k : BitVec 3) (s : State) : Out :=
  vwmac (0x28000001#32 ||| fld cv 31 ||| fld d 19 ||| fld a 14 ||| fld b 9 ||| fld k 6) false (fun _ z x y => (z + x * y, 0)) cv d a b k s

/-- `VWMACCSU` (R106). -/
def execVwmaccsu (cv : BitVec 1) (d a b : BitVec 5) (k : BitVec 3) (s : State) : Out :=
  vwmac (0x28000002#32 ||| fld cv 31 ||| fld d 19 ||| fld a 14 ||| fld b 9 ||| fld k 6) false (fun h z x y => (z + sextW h.ew x * y, 0)) cv d a b k s

/-- The wide layout of `VFWMACC` (R106). -/
def wideBin (h : Hart) : Bin := if h.fmt = Fmts.fp32 then binOf Fmts.fp64 else bin32

/-- `VFWMACC` (R106). -/
def execVfwmacc (cv : BitVec 1) (d a b : BitVec 5) (k : BitVec 3) (s : State) : Out :=
  vwmac (0x28000003#32 ||| fld cv 31 ||| fld d 19 ||| fld a 14 ||| fld b 9 ||| fld k 6) (!(s.h.fmt == Fmts.fp16 || s.h.fmt == Fmts.e8m7 || s.h.fmt == Fmts.fp32))
    (fun h z x y =>
      let (p, f) := (binVal h.bin x.toNat).mul (binVal h.bin y.toNat)
      let (q, g) := Val.add h.rm p (binVal (wideBin h) z.toNat)
      let (c, i) := binConvert (wideBin h) h.rm false q
      (BitVec.ofNat 64 c, f ||| g ||| i)) cv d a b k s

end Sys2Proof.Machine
end

