-- ==== Sys2Proof/Machine/Matrix.lean ====
section
/-!
DEFINITION. The matrix engine: convoys of `MMETA` words, the checks at start, and the words (18_matrix_engine.md, R300-R319; 10 R200-R202).
A matrix word starts and completes in one step (log 1).
-/

namespace Sys2Proof.Machine

/-! ## Tiles and shape -/

/-- Tile x, row r, column c (R28). -/
def Hart.tile (h : Hart) (x : BitVec 3) (r c : Nat) : Nat := ((h.mx[x.toNat]).extractLsb' (32 * (64 * r + c)) 32).toNat
/-- Write an element of a tile register, marking it dirty (R32). -/
def Hart.setTile (h : Hart) (x : BitVec 3) (r c v : Nat) : Hart :=
  { h with mx := h.mx.set x.toNat (putBits h.mx[x.toNat] (32 * (64 * r + c)) (BitVec.ofNat 32 v)),
           vdirty := h.vdirty ||| (1#40 <<< (32 + x.toNat)) }
/-- MSHAPE.M (R35). -/ def Hart.sm (h : Hart) : Nat := bits h.mshape 6 0
/-- MSHAPE.N. -/ def Hart.sn (h : Hart) : Nat := bits h.mshape 14 8
/-- MSHAPE.K. -/ def Hart.sk (h : Hart) : Nat := bits h.mshape 39 16
/-- The number of groups G. -/ def Hart.sg (h : Hart) : Nat := bits h.mshape 43 40 + 1
/-- 1 ≤ M ≤ 4g and 1 ≤ N ≤ 64 (R305). -/
def shapeOk (h : Hart) : Bool := 1 ≤ h.sm && h.sm ≤ 4 * h.g && 1 ≤ h.sn && h.sn ≤ 64

/-! ## Convoys (R310) -/

/-- What a matrix word is to a convoy. -/
inductive MRole where
  /-- `MMETA`: a window 0 to 7, 8 for `.idx`, 9 for `.rows`. -/
  | stage (key : Nat)
  /-- A multiplying word. -/
  | last
  /-- Any other word. -/
  | alone
deriving DecidableEq, Repr

/-- The word with C = 1 breaks the convoy it is written to join (R310). -/
def matrixBad (st : MStage) (r : MRole) : Bool :=
  r == .alone ||
    match st.chain with
    | none => false
    | some ks =>
      ks.isEmpty ||
        match r with
        | .stage k => ks.contains k
        | _ => false

/-- The chain after the word. -/
def nextChain (st : MStage) (cv : BitVec 1) (r : MRole) : Option (List Nat) :=
  match r with
  | .stage k => some (if cv = 1 then st.chain.getD [] ++ [k] else [k])
  | _ => some []

/-- A word that is not an `MMETA` has completed (R318): it and the words of its convoy are counted. -/
def matrixDone (joinedIt : Bool) (cv : BitVec 1) (r : MRole) (s : State) : State :=
  let ch := nextChain s.h.mstage cv r
  let n := if joinedIt then s.h.mstage.count else 0
  let t := dropStage (countWords (countMatrix s (n + 1)) n)
  done { t with h := { t.h with mstage := { t.h.mstage with chain := ch } } }

/-- A matrix word other than `MMETA` (R22, R305, R310): its checks and its effect are `body`, given what its convoy staged, after the stores that
the window held for it (R41, R316), which a busy swatch makes the word wait for (R254). A check that fails is taken at the convoy's first word, and the
stores are discarded. -/
def mword (w : Insn) (cv : BitVec 1) (r : MRole) (bad : Bool) (body : MStage → State → Except Stop State) (s : State) : Out :=
  if s.h.g = 0 ∨ bad then .next (illegal s w)
  else if cv = 1 ∧ matrixBad s.h.mstage r then .next (trap s Cause.convoy (w.setWidth 64))
  else if storesBlocked s then .next (await s .swatch)
  else
    let j := cv = 1 ∧ s.h.mstage.isOpen = true ∧ r = .last
    let s := if j then s else closeStage s
    match body (if j then s.h.mstage else MStage.empty) (if j then performStores s else s) with
    | .ok t => .next (matrixDone (decide j) cv r t)
    | .error (.trap c v) => .next (if j then trap (undoConvoy s) c v else trap s c v)
    | .error (.wait x) => .next (await s x)

/-- `MMETA` (R309, R310): it joins the open convoy or opens one; `put` stages its register. It is complete, and counted, when its convoy is (R37). -/
def mmeta (w : Insn) (key : Nat) (cv : BitVec 1) (put : MStage → MStage) (s : State) : Out :=
  if s.h.g = 0 then .next (illegal s w)
  else if cv = 1 ∧ matrixBad s.h.mstage (.stage key) then .next (trap s Cause.convoy (w.setWidth 64))
  else
    let ch := nextChain s.h.mstage cv (.stage key)
    if cv = 1 ∧ s.h.mstage.isOpen = true then
      let st := put s.h.mstage
      .next (posted { s with h := { s.h with mstage := { st with chain := ch, count := st.count + 1 } } })
    else
      let t := closeStage s
      let st := put MStage.empty
      .next (posted { t with
        undo := sput t.undo t.hid.toNat t.h,
        h := { t.h with mstage := { st with chain := ch, isOpen := true, count := 1, first := t.h.pc } } })

/-- `MMETA_META` (R309). -/
def execMmetaMeta (cv : BitVec 1) (sf : BitVec 3) (v : BitVec 5) (s : State) : Out :=
    mmeta ((0x53000000#32 ||| fld cv 31 ||| fld sf 21 ||| fld v 13)) sf.toNat cv (fun st => { st with metaBits := sput st.metaBits sf.toNat s.h.v[v.toNat] }) s

/-- `MMETA_IDX` (R309). -/
def execMmetaIdx (cv : BitVec 1) (v : BitVec 5) (s : State) : Out :=
    mmeta ((0x53000001#32 ||| fld cv 31 ||| fld v 13)) 8 cv (fun st => { st with idx := some s.h.v[v.toNat] }) s

/-- `MMETA_ROWS` (R309). -/
def execMmetaRows (cv : BitVec 1) (v : BitVec 5) (s : State) : Out :=
    mmeta ((0x53000002#32 ||| fld cv 31 ||| fld v 13)) 9 cv (fun st => { st with rows := some s.h.v[v.toNat] }) s

/-- `MSHAPE` (R304). -/
def execMshape (cv : BitVec 1) (a : BitVec 6) (s : State) : Out :=
    mword ((0x50000000#32 ||| fld cv 31 ||| fld a 12)) cv .alone false (fun _ t => .ok { t with h := { t.h with mshape := (rx s a).setWidth 44 &&& 0xFFFFFFF7F7F#44 } }) s

/-! ## Exact sums (R202) -/

/-- An exact operand or sum: a NaN, an infinity, or an integer multiple of a power of two that its use fixes. -/
inductive MVal where
  | nan
  | inf (neg : Bool)
  | fin (n : Int)
deriving DecidableEq, Repr

/-- A sum; opposite infinities and NaNs give a NaN. -/
def MVal.add (a b : MVal) : MVal :=
  match a, b with
  | .nan, _ => .nan
  | _, .nan => .nan
  | .inf x, .inf y => if x = y then .inf x else .nan
  | .inf x, .fin _ => .inf x
  | .fin _, .inf y => .inf y
  | .fin x, .fin y => .fin (x + y)

/-- A product; zero times infinity gives a NaN. -/
def MVal.mul (a b : MVal) : MVal :=
  match a, b with
  | .nan, _ => .nan
  | _, .nan => .nan
  | .inf x, .inf y => .inf (x != y)
  | .inf x, .fin n => if n = 0 then .nan else .inf (x != decide (n < 0))
  | .fin n, .inf y => if n = 0 then .nan else .inf (y != decide (n < 0))
  | .fin x, .fin y => .fin (x * y)

/-- An exact value as a multiple of 2^-149, which every matrix format's values are (R186, R190). -/
def mvalOf (v : Val) : MVal :=
  match v with
  | .nan _ => .nan
  | .inf n => .inf n
  | .fin neg n d => let m : Int := ((n * 2 ^ 149 / d : Nat) : Int); .fin (if neg then -m else m)

/-- An operand code's value: itself for an integer accumulation, else a multiple of 2^-149; dart is decoded to binary32 (R187, R190, R201). -/
def matrixVal (int : Bool) (f : Fmt) (c : Nat) : MVal :=
  if int then
    match codeVal f c with
    | .fin neg n _ => .fin (if neg then -(n : Int) else n)
    | _ => .nan
  else if fmtDart f then mvalOf (binVal bin32 (binConvert bin32 0 false (dartVal f c)).1)
  else mvalOf (codeVal f c)

/-- `round(s × scaleA × scaleB)` for s a multiple of 2^-298 (R202): a sum that is a NaN sets NV; a quiet NaN scale sets none (R198; log 25). -/
def scaledTerm (x : MVal) (sa sb : Val) : Nat × Flags :=
  match x with
  | .nan => (bin32.nanCode, Flag.nv)
  | .inf n =>
    let (p, f) := (Val.inf n).mul sa
    let (q, g) := p.mul sb
    let (c, i) := binConvert bin32 0 false q
    (c, f ||| g ||| i)
  | .fin n =>
    let (p, f) := (Val.fin (decide (n < 0)) n.natAbs (2 ^ 298)).mul sa
    let (q, g) := p.mul sb
    match q with
    | .fin neg a b => let (c, i) := binRound bin32 0 (neg && a != 0) a b; (c, f ||| g ||| i)
    | v => let (c, i) := binConvert bin32 0 false v; (c, f ||| g ||| i)

/-- One chunk (R202): the accumulator's bits after it, and its flags. -/
def addChunk (int : Bool) (acc : Nat) (x : MVal) (sa sb : Val) : Nat × Flags :=
  if int then
    match x with
    | .fin n =>
      let t := (BitVec.ofNat 32 acc).toInt + n
      ((BitVec.ofInt 32 t).toNat, if t < -(2 ^ 31) ∨ 2 ^ 31 ≤ t then Flag.iovf else 0)
    | _ => (acc, 0)
  else
    let (t, f) := scaledTerm x sa sb
    let (r, g) := opAdd bin32 0 acc t
    (r, f ||| g)

/-! ## Operands -/

/-- The code of element (i0, i1) of a scratchpad pattern, read at its banks (R250, R302). A pattern with EXT2 or EXT3 = 0 has no span and is read at
index 0 of that dimension (log 19). -/
def spadCode (c : Core) (r : BitVec 512) (i0 i1 : Nat) : Nat :=
  let ix (d : Nat) : Nat := if d = 0 then i0 else if d = 1 then i1 else 0
  (List.range (fmtBits (PRec.fmt r))).foldl (init := 0) fun v q =>
    let (a, j) := patBit r ix q
    if (Memory.get c.spad (wrapAddr true a)).getLsbD j then v + 2 ^ q else v

/-- A pattern that a matrix word names, or `PATTERN_INVALID` (R302). -/
def matrixPat (c : Core) (n : Nat) (ok : BitVec 512 → Bool) : Except Stop (BitVec 512) :=
  let p := patAt c n
  if p.valid && PRec.space p.record && ok p.record then .ok p.record else .error (.trap Cause.patternInvalid (BitVec.ofNat 64 n))

/-- In stage 2 the engine takes operand formats of at most 8 bits (R439). -/
def offeredAt (stage : BitVec 3) (r : BitVec 512) : Bool := stage != 2 || decide (fmtBits (PRec.fmt r) ≤ 8)
/-- R302 for A. -/ def patA (r : BitVec 512) : Bool := PRec.layout r == 2 && fmtMatrix (PRec.fmt r)
/-- R302 for B. -/ def patB (r : BitVec 512) : Bool := PRec.layout r != 2 && fmtMatrix (PRec.fmt r)
/-- R302 for a tile pattern. -/
def patT (r : BitVec 512) : Bool := PRec.layout r != 2 && (PRec.fmt r == Fmts.int32 || PRec.fmt r == Fmts.fp32)

/-- The byte span of the scales of some rows or columns for `n` chunks (R303): of those that the word reads, and no others of the pattern (log 19). -/
def scaleSpan (r : BitVec 512) (rows : List Nat) (n : Nat) : Option (Int × Int) :=
  if PRec.blk r = 0 ∨ n = 0 then none
  else
    let b : Int := (bits (PRec.scale r) 19 0 : Nat)
    rows.foldl (init := none) fun u (i : Nat) =>
      let a := b + (i : Int) * PRec.sstride r
      match u with
      | none => some (a, a + 2 * (n : Int))
      | some (lo, hi) => some (min lo a, max hi (a + 2 * (n : Int)))

/-- The scale of chunk `k` for row or column `i` (R303); 1 where there are none (R202). -/
def scaleAt (c : Core) (r : BitVec 512) (i k : Nat) : Val :=
  if PRec.blk r = 0 then .fin false 1 1
  else
    let a := wrapAddr true ((bits (PRec.scale r) 19 0 : Nat) + (i : Int) * PRec.sstride r + 2 * (k : Int))
    binVal (binOf Fmts.e8m7) (Memory.read c.spad a 2)

/-- The swatch checks of several spans (R254): the lowest swatch that is empty or filling stops the word. -/
def spansCheck (c : Core) (sp : List (Option (Int × Int))) : Option Stop :=
  ((swatches c).find? fun e => sp.any (spanTouches · e.2) && (swState e.2 == 0 || swState e.2 == 1)).map fun e =>
    if swState e.2 = 0 then .trap Cause.swatchState (BitVec.ofNat 64 e.1) else .wait .swatch

/-- The lowest poisoned row of several spans inside the scratchpad (R319). -/
def spansPoison (c : Core) (sp : List (Option (Int × Int))) : Option Stop :=
  (c.spoison.find? fun e => sp.any fun u =>
      match u with
      | none => false
      | some (lo, hi) => lo < ((64 * e.1 + 64 : Nat) : Int) && ((64 * e.1 : Nat) : Int) < hi).map fun e =>
    .trap Cause.access (BitVec.ofNat 64 (0xFFFFFFFFFFF00000 + 64 * e.1))

/-- ⌈a / b⌉. -/
def ceilDiv (a b : Nat) : Nat := (a + b - 1) / b

/-! ## The multiplying words (R305-R312) -/

/-- Which multiplying word it is. -/
structure Mul where
  x : BitVec 3
  a : Nat
  b : Nat
  acc : Bool
  sp : Bool
  grp : Bool
  gather : Bool

/-- Element `e` of a staged register at 32 bits (R309). -/
def stagedElem (g : Nat) (v : BitVec 65536) (e : Nat) : Nat := (v.extractLsb' (elemPos 32 g e) 32).toNat

/-- The groups of rows: B's pattern, first row, rows (R312); one group without `.grp`, none where the counts are missing. -/
def rowGroups (u : Mul) (st : MStage) (h : Hart) : List (Nat × Nat × Nat) :=
  if u.grp then
    match st.rows with
    | none => []
    | some v =>
      ((List.range h.sg).foldl (init := (([] : List (Nat × Nat × Nat)), 0)) fun (l, r) q =>
        let n := stagedElem h.g v q
        (if n = 0 then l else l ++ [(u.b + q, r, n)], r + n)).1
  else [(u.b, 0, h.sm)]

/-- The patterns of B of the groups, in ascending order (R302, R312); a block length other than A's is refused (R200). An index above 255 fails R305. -/
def groupPats (c : Core) (stage : BitVec 3) (la : Nat) : List (Nat × Nat × Nat) → Except Stop (List (BitVec 512))
  | [] => .ok []
  | (n, _, _) :: l =>
    if 255 < n then groupPats c stage la l
    else
      match matrixPat c n fun r => patB r && offeredAt stage r && (la == 0 || PRec.blk r == 0 || PRec.blk r == la) with
      | .error e => .error e
      | .ok r => (groupPats c stage la l).map (r :: ·)

/-- A's row for tile row `i` (R311). -/
def rowOfA (u : Mul) (st : MStage) (h : Hart) (i : Nat) : Nat :=
  if u.gather then
    match st.idx with
    | some v => stagedElem h.g v i
    | none => 0
  else i

/-- Chunk length of a pair of patterns (R200). -/
def chunkLen (ra rb : BitVec 512) : Nat :=
  if PRec.blk ra ≠ 0 then PRec.blk ra else if PRec.blk rb ≠ 0 then PRec.blk rb else 128 / fmtBits (PRec.fmt ra)

/-- Passes of one group (R320). -/
def passesOf (u : Mul) (k : Nat) (ra rb : BitVec 512) : Nat :=
  let s := if u.sp then 2 else 1
  let ks := 128 / fmtBits (PRec.fmt ra)
  if PRec.blk ra = 0 ∧ PRec.blk rb = 0 then ceilDiv k (s * ks) else ceilDiv k (chunkLen ra rb) * ceilDiv (chunkLen ra rb) (s * ks)

/-- The bounds of R305, but for the spans. -/
def boundsOk (u : Mul) (st : MStage) (h : Hart) (gs : List (Nat × Nat × Nat)) (ra : BitVec 512) (bs : List (BitVec 512)) : Bool :=
  let k := h.sk
  shapeOk h &&
    (if u.gather then st.idx.isSome && (List.range h.sm).all fun i => rowOfA u st h i < PRec.ext ra 1 else decide (h.sm ≤ PRec.ext ra 1)) &&
    decide ((if u.sp then k / 2 else k) ≤ PRec.ext ra 0) &&
    (!u.sp || (k % 4 == 0 && (List.range (ceilDiv k 1024)).all fun w => (sfind st.metaBits w).isSome)) &&
    (!u.grp || (st.rows.isSome && decide (u.b + h.sg - 1 ≤ 255) && decide ((gs.map fun e => e.2.2).sum ≤ h.sm))) &&
    (gs.length == bs.length) &&
    (bs.all fun rb =>
      let (ke, ce) := if PRec.layout rb = 0 then (PRec.ext rb 1, PRec.ext rb 0) else (PRec.ext rb 0, PRec.ext rb 1)
      decide (k ≤ ke) && decide (h.sn ≤ ce)) &&
    decide ((bs.map fun rb => passesOf u k ra rb).sum ≤ 4064)

/-- The terms of a row of A at its dense positions along K, in order (R307): of a sparse row the kept values at their places, both where the two indices
are equal, and zero at every other place (R308). -/
def rowValues (u : Mul) (st : MStage) (c : Core) (k : Nat) (int : Bool) (ra : BitVec 512) (i ar : Nat) : List (Nat × MVal) :=
  let val (p : Nat) : MVal := matrixVal int (PRec.fmt ra) (spadCode c ra p ar)
  if u.sp then
    (List.range (k / 4)).flatMap fun q =>
      let win := sget st.metaBits (q / 256) 0
      let nib := bits (win.extractLsb' (4096 * (i / 4) + 1024 * (i % 4) + 4 * (q % 256)) 4) 3 0
      (List.range 4).flatMap fun j =>
        let kept := (if nib % 4 = j then [val (2 * q)] else []) ++ (if nib / 4 = j then [val (2 * q + 1)] else [])
        (if kept.isEmpty then [.fin 0] else kept).map fun x => (4 * q + j, x)
  else (List.range k).map fun p => (p, val p)

/-- The exact sum of the products at positions lo to hi - 1. -/
def chunkSum (a : List (Nat × MVal)) (b : List MVal) (lo hi : Nat) : MVal :=
  (a.filter fun e => lo ≤ e.1 && e.1 < hi).foldl (fun s e => s.add (e.2.mul (b.getD e.1 (.fin 0)))) (.fin 0)

/-- One tile element over its chunks in order (R202). -/
def tileElem (k : Nat) (int : Bool) (l : Nat) (a : List (Nat × MVal)) (b : List MVal) (sa sb : Nat → Val) (acc : Nat) : Nat × Flags :=
  (List.range (ceilDiv k l)).foldl (init := (acc, 0)) fun (r, f) n =>
    let (r, g) := addChunk int r (chunkSum a b (n * l) (min k ((n + 1) * l))) (sa n) (sb n)
    (r, f ||| g)

/-- The rows of one group (R307, R312): the tile is written row by row; with K = 0 an accumulating word changes nothing (R305). -/
def mulGroup (u : Mul) (st : MStage) (c : Core) (ra : BitVec 512) (h : Hart) (g : (Nat × Nat × Nat) × BitVec 512) : Hart :=
  let rb := g.2
  let k := h.sk
  let int := fmtInt (PRec.fmt ra) && fmtInt (PRec.fmt rb) && PRec.blk ra == 0 && PRec.blk rb == 0
  let cols : List (Nat × List MVal) := (List.range h.sn).map fun j =>
    (j, (List.range k).map fun p => matrixVal int (PRec.fmt rb) (if PRec.layout rb = 0 then spadCode c rb j p else spadCode c rb p j))
  if u.acc ∧ k = 0 then h
  else (List.range' g.1.2.1 g.1.2.2).foldl (init := h) fun h i =>
    let ar := rowOfA u st h i
    let av := rowValues u st c k int ra i ar
    cols.foldl (init := h) fun h e =>
      let (v, f) := tileElem k int (chunkLen ra rb) av e.2 (scaleAt c ra ar) (scaleAt c rb e.1) (if u.acc then h.tile u.x i e.1 else 0)
      let t := h.setTile u.x i e.1 v
      { t with fcsr := t.fcsr ||| f }

/-- A multiplying word (R155, R302-R312, R319): patterns, swatches, bounds, poison, then the product. With K = 0 it reads nothing (R305), and
touches no swatch and no row. -/
def mulBody (w : Insn) (u : Mul) (st : MStage) (s : State) : Except Stop State :=
  let h := s.h
  let gs := rowGroups u st h
  match matrixPat s.c u.a fun r => patA r && offeredAt s.d.stage r with
  | .error e => .error e
  | .ok ra =>
    match groupPats s.c s.d.stage (PRec.blk ra) gs with
    | .error e => .error e
    | .ok bs =>
      let n := fun rb => ceilDiv h.sk (chunkLen ra rb)
      let rows := if u.gather ∧ st.idx = none then [] else (List.range h.sm).map (rowOfA u st h)
      let spans := patSpan ra :: (if PRec.blk ra = 0 then none else scaleSpan ra rows (ceilDiv h.sk (PRec.blk ra))) ::
        (bs.flatMap fun rb => [patSpan rb, scaleSpan rb (List.range h.sn) (n rb)])
      let touched := if h.sk = 0 then [] else spans
      match spansCheck s.c touched with
      | some e => .error e
      | none =>
        if !boundsOk u st h gs ra bs || !(spans.all fun sp => spanWithin sp 0 0xC0000) then .error (.trap Cause.matrixBounds (w.setWidth 64))
        else
          match spansPoison s.c touched with
          | some e => .error e
          | none => .ok { s with h := (gs.zip bs).foldl (mulGroup u st s.c ra) h }

/-- `MMA_SET` (R307). -/
def execMmaSet (cv : BitVec 1) (x : BitVec 3) (a b : BitVec 8) (s : State) : Out :=
    mword ((0x51000000#32 ||| fld cv 31 ||| fld x 21 ||| fld a 13 ||| fld b 5)) cv .last false (mulBody ((0x51000000#32 ||| fld cv 31 ||| fld x 21 ||| fld a 13 ||| fld b 5)) { x := x, a := a.toNat, b := b.toNat, acc := false, sp := false, grp := false, gather := false }) s

/-- `MMA_ACC` (R307). -/
def execMmaAcc (cv : BitVec 1) (x : BitVec 3) (a b : BitVec 8) (s : State) : Out :=
    mword ((0x51000001#32 ||| fld cv 31 ||| fld x 21 ||| fld a 13 ||| fld b 5)) cv .last false (mulBody ((0x51000001#32 ||| fld cv 31 ||| fld x 21 ||| fld a 13 ||| fld b 5)) { x := x, a := a.toNat, b := b.toNat, acc := true, sp := false, grp := false, gather := false }) s

/-- `MMA_SET_SP` (R308). -/
def execMmaSetSp (cv : BitVec 1) (x : BitVec 3) (a b : BitVec 8) (s : State) : Out :=
    mword ((0x51000002#32 ||| fld cv 31 ||| fld x 21 ||| fld a 13 ||| fld b 5)) cv .last false (mulBody ((0x51000002#32 ||| fld cv 31 ||| fld x 21 ||| fld a 13 ||| fld b 5)) { x := x, a := a.toNat, b := b.toNat, acc := false, sp := true, grp := false, gather := false }) s

/-- `MMA_ACC_SP` (R308). -/
def execMmaAccSp (cv : BitVec 1) (x : BitVec 3) (a b : BitVec 8) (s : State) : Out :=
    mword ((0x51000003#32 ||| fld cv 31 ||| fld x 21 ||| fld a 13 ||| fld b 5)) cv .last false (mulBody ((0x51000003#32 ||| fld cv 31 ||| fld x 21 ||| fld a 13 ||| fld b 5)) { x := x, a := a.toNat, b := b.toNat, acc := true, sp := true, grp := false, gather := false }) s

/-- `MMA_SET_GRP` (R312). -/
def execMmaSetGrp (cv : BitVec 1) (x : BitVec 3) (a b : BitVec 8) (s : State) : Out :=
    mword ((0x51000004#32 ||| fld cv 31 ||| fld x 21 ||| fld a 13 ||| fld b 5)) cv .last false (mulBody ((0x51000004#32 ||| fld cv 31 ||| fld x 21 ||| fld a 13 ||| fld b 5)) { x := x, a := a.toNat, b := b.toNat, acc := false, sp := false, grp := true, gather := false }) s

/-- `MMA_ACC_GRP` (R312). -/
def execMmaAccGrp (cv : BitVec 1) (x : BitVec 3) (a b : BitVec 8) (s : State) : Out :=
    mword ((0x51000005#32 ||| fld cv 31 ||| fld x 21 ||| fld a 13 ||| fld b 5)) cv .last false (mulBody ((0x51000005#32 ||| fld cv 31 ||| fld x 21 ||| fld a 13 ||| fld b 5)) { x := x, a := a.toNat, b := b.toNat, acc := true, sp := false, grp := true, gather := false }) s

/-- `MMAG_SET` (R311). -/
def execMmagSet (cv : BitVec 1) (x : BitVec 3) (a b : BitVec 8) (s : State) : Out :=
    mword ((0x52000000#32 ||| fld cv 31 ||| fld x 21 ||| fld a 13 ||| fld b 5)) cv .last false (mulBody ((0x52000000#32 ||| fld cv 31 ||| fld x 21 ||| fld a 13 ||| fld b 5)) { x := x, a := a.toNat, b := b.toNat, acc := false, sp := false, grp := false, gather := true }) s

/-- `MMAG_ACC` (R311). -/
def execMmagAcc (cv : BitVec 1) (x : BitVec 3) (a b : BitVec 8) (s : State) : Out :=
    mword ((0x52000001#32 ||| fld cv 31 ||| fld x 21 ||| fld a 13 ||| fld b 5)) cv .last false (mulBody ((0x52000001#32 ||| fld cv 31 ||| fld x 21 ||| fld a 13 ||| fld b 5)) { x := x, a := a.toNat, b := b.toNat, acc := true, sp := false, grp := false, gather := true }) s

/-! ## MTILE and MDRAIN (R313, R314) -/


/-- `MTILE_ZERO` (R313). -/
def execMtileZero (cv : BitVec 1) (x : BitVec 3) (s : State) : Out :=
  mword ((0x54000000#32 ||| fld cv 31 ||| fld x 21)) cv .alone false
    (fun _ t => .ok { t with h := { t.h with mx := t.h.mx.set x.toNat 0, vdirty := t.h.vdirty ||| (1#40 <<< (32 + x.toNat)) } }) s

/-- The checks of `MTILE.ld` and `MTILE.st` (R155, R302, R313): the pattern, its swatches by `chk`, then the bounds. -/
def tilePattern (w : Insn) (p : Nat) (chk : Option (Int × Int) → Option Stop) (s : State) : Except Stop (BitVec 512) :=
  match matrixPat s.c p patT with
  | .error e => .error e
  | .ok r =>
    match chk (patSpan r) with
    | some e => .error e
    | none =>
      if shapeOk s.h && decide (s.h.sn ≤ PRec.ext r 0) && decide (s.h.sm ≤ PRec.ext r 1) && spanWithin (patSpan r) 0 0xC0000 then .ok r
      else .error (.trap Cause.matrixBounds (w.setWidth 64))

/-- Rows and columns of the tile that `MSHAPE` names, row by row. -/
def shapeCells (h : Hart) : List (Nat × Nat) := (List.range h.sm).flatMap fun r => (List.range h.sn).map fun c => (r, c)

/-- The body of `MTILE.ld` (R313). -/
def tileLoad (w : Insn) (x : BitVec 3) (p : Nat) (s : State) : Except Stop State :=
  match tilePattern w p (fun sp => spansCheck s.c [sp]) s with
  | .error e => .error e
  | .ok r =>
    match spansPoison s.c [patSpan r] with
    | some e => .error e
    | none => .ok { s with h := (shapeCells s.h).foldl (fun h e => h.setTile x e.1 e.2 (spadCode s.c r e.2 e.1)) s.h }

/-- The offset of the pattern element of tile cell (r, c) (R302). -/
def cellOffset (r : BitVec 512) (e : Nat × Nat) : Nat :=
  wrapAddr true (patBit r (fun d => if d = 0 then e.2 else if d = 1 then e.1 else 0) 0).1

/-- The body of `MTILE.st` (R254, R313): it waits on the busy swatches whose bytes it writes. R317 leaves its accesses unordered; of two cells at one
offset the last, row by row, stands (log 19). -/
def tileStore (w : Insn) (x : BitVec 3) (p : Nat) (s : State) : Except Stop State :=
  match tilePattern w p (fun _ => none) s with
  | .error e => .error e
  | .ok r =>
    if (shapeCells s.h).any fun e => swBusy s.c (cellOffset r e) 4 then .error (.wait .swatch)
    else .ok ((shapeCells s.h).foldl (fun t e => spadWrite t (cellOffset r e) 4 (s.h.tile x e.1 e.2)) s)

/-- `MTILE_LD` (R313). -/
def execMtileLd (cv : BitVec 1) (x : BitVec 3) (p : BitVec 8) (s : State) : Out :=
    mword ((0x54000001#32 ||| fld cv 31 ||| fld x 21 ||| fld p 13)) cv .alone false (fun _ t => tileLoad ((0x54000001#32 ||| fld cv 31 ||| fld x 21 ||| fld p 13)) x p.toNat t) s

/-- `MTILE_ST` (R313). -/
def execMtileSt (cv : BitVec 1) (x : BitVec 3) (p : BitVec 8) (s : State) : Out :=
    mword ((0x54000002#32 ||| fld cv 31 ||| fld x 21 ||| fld p 13)) cv .alone false (fun _ t => tileStore ((0x54000002#32 ||| fld cv 31 ||| fld x 21 ||| fld p 13)) x p.toNat t) s

/-- The body of `MDRAIN` (R314). -/
def drain (w : Insn) (x : BitVec 3) (v : BitVec 5) (row0 : Nat) (s : State) : Except Stop State :=
  let h := s.h
  let n := h.sn
  let vl := h.vl.toNat
  if n = 0 ∨ 64 < n ∨ (0 < vl ∧ 4 * h.g ≤ row0 + (vl - 1) / n) then .error (.trap Cause.matrixBounds (w.setWidth 64))
  else
    let t := (span h.vstart.toNat vl).foldl (fun t e => t.setElem 32 v e (BitVec.ofNat 64 (h.tile x (row0 + e / n) (e % n)))) h
    .ok (setStart { s with h := zeroTail 32 v t } 0)

/-- `MDRAIN` (R314). -/
def execMdrain (cv : BitVec 1) (x : BitVec 3) (v : BitVec 5) (r : BitVec 6) (s : State) : Out :=
  mword ((0x55000000#32 ||| fld cv 31 ||| fld x 21 ||| fld v 13 ||| fld r 5)) cv .alone (s.h.ew != 32 || !(s.h.fmt == Fmts.fp32 || s.h.fmt == Fmts.int32))
    (fun _ t => drain ((0x55000000#32 ||| fld cv 31 ||| fld x 21 ||| fld v 13 ||| fld r 5)) x v r.toNat t) s

/-- The matrix word that the raw word `w` encodes, among those that can wait at their start for a swatch (R254). -/
def matrixWord (w : Insn) (s : State) : Option Out :=
  let cv := seg w 31 1
  let x := seg w 21 3
  let a := seg w 13 8
  let b := seg w 5 8
  match (seg w 24 7).toNat, (seg w 0 5).toNat with
  | 0x51, 0 => some (execMmaSet cv x a b s)
  | 0x51, 1 => some (execMmaAcc cv x a b s)
  | 0x51, 2 => some (execMmaSetSp cv x a b s)
  | 0x51, 3 => some (execMmaAccSp cv x a b s)
  | 0x51, 4 => some (execMmaSetGrp cv x a b s)
  | 0x51, 5 => some (execMmaAccGrp cv x a b s)
  | 0x52, 0 => some (execMmagSet cv x a b s)
  | 0x52, 1 => some (execMmagAcc cv x a b s)
  | 0x54, 1 => some (execMtileLd cv x a s)
  | 0x54, 2 => some (execMtileSt cv x a s)
  | _, _ => none

/-- `MATRIX_CONVOY_START` (R254, R316): the matrix word of hart `h` that waits for its swatches starts if they have left filling. -/
def execMatrixConvoyStart (h : BitVec 11) (s : State) : Out := .next (retryWord s h matrixWord)

end Sys2Proof.Machine
end

