-- ==== Sys2Proof/Machine/Shuttle.lean ====
section
/-!
DEFINITION. The shuttle engine: commands from their start to their completion, swatches, barrier events, ports, routines,
and the events of the engine (15_patterns_swatches_shuttle.md, R253-R268; 07 R161, R176, R177; 30 R434).
-/

namespace Sys2Proof.Machine

/-! ## Channels, commands and swatches -/

/-- Channel `ch` of a core. -/
def chanOf (c : Core) (ch : Nat) : Chan := c.chans[lay ch]

/-- Change channel `ch`. -/
def editChan (c : Core) (ch : Nat) (f : Chan → Chan) : Core := { c with chans := c.chans.set (lay ch) (f (chanOf c ch)) }

/-- Change a command in place. -/
def editCmd (c : Core) (ch id : Nat) (f : Cmd → Cmd) : Core :=
  editChan c ch fun k => { k with cmds := k.cmds.map fun x => if x.id = id then f x else x }

/-- The command is in flight and its address space runs (R161). -/
def Cmd.runs (d : Device) (k : Cmd) : Bool := k.at' == .flying && !d.quiet.contains k.asid.toNat

/-- Commands of the core in flight (R256). -/
def inFlight (c : Core) : Nat := (c.chans.toList.map fun k => (k.cmds.filter fun x => x.at' != .queued).length).sum

/-- Entry `n` of the swatch table. -/
def swAt (c : Core) (n : Nat) : Word := c.sws.toList.getD n 0

/-- STATE of swatch `n` := `st` (R253). -/
def setSwState (c : Core) (n : BitVec 6) (st : Nat) : Core :=
  { c with sws := c.sws.set n.toNat (putBits c.sws[n.toNat] 48 (BitVec.ofNat 2 st)) }

/-- A problem of command `id` (R262): its code, and the fault address where there is one. -/
def recordStatus (c : Core) (ch id st : Nat) (addr : Option Word) : Core :=
  editChan c ch fun k => { k with statId := id, stat := BitVec.ofNat 8 st, faultAddr := addr.getD k.faultAddr }

/-- Add to a channel's bound-miss count, which saturates (R251). -/
def addMisses (c : Core) (ch n : Nat) : Core :=
  editChan c ch fun k => { k with miss := BitVec.ofNat 32 (min (k.miss.toNat + n) (2 ^ 32 - 1)) }

/-! ## Barrier objects (R265, R266) -/

/-- REM of a barrier word (R265). -/
def barRem (w : Word) : BitVec 20 := w.extractLsb' 20 20
/-- EXP of a barrier word. -/
def barExp (w : Word) : BitVec 20 := w.extractLsb' 0 20
/-- PEND of a barrier word. -/
def barPend (w : Word) : BitVec 23 := w.extractLsb' 40 23

/-- After each event a phase may end (R266). -/
def barEnd (w : Word) : Word :=
  if barRem w = 0 ∧ barPend w = 0 then putBits (w ^^^ (1#64 <<< 63)) 20 (barExp w) else w

/-- An arrival with `e` elements (R266): one that finds REM = 0 changes nothing. -/
def barArrive (w : Word) (e : Nat) : Word :=
  if barRem w = 0 then w
  else barEnd (putBits (putBits w 20 (barRem w - 1)) 40 (barPend w + BitVec.ofNat 23 e))

/-- A transfer's event of `n` elements (R266); the last one of a transfer ends a phase where EXP = 0. -/
def barLand (w : Word) (n : Nat) (last : Bool) : Word :=
  let p := barPend w - BitVec.ofNat 23 n
  barEnd (putBits w 40 (if last && barExp w == 0 && barRem w == 0 then 0 else p))

/-- An event of command `id` on its barrier object: on a poisoned word it is not applied, and the channel records that (R297). -/
def barEvent (s : State) (ch id : Nat) (bar : Option (BitVec 20)) (n : Nat) (last : Bool) : State :=
  match bar with
  | none => s
  | some b =>
    let o := b.toNat
    if o % 8 ≠ 0 ∨ 0xC0000 ≤ o then s
    else if spadPoisoned s.c o 8 then
      { s with c := recordStatus s.c ch id 3 (some (BitVec.ofNat 64 (0xFFFFFFFFFFF00000 + o))) }
    else spadWrite s o 8 (barLand (BitVec.ofNat 64 (Memory.read s.c.spad o 8)) n last).toNat

/-! ## The end of a command -/

/-- The channel is reset where a lease asks for it and it holds no command (R289, R401); its ids and timeline go on. -/
def resetChan (k : Chan) : Chan :=
  if k.resetDue && k.cmds.isEmpty then { Chan.reset with next := k.next } else k

/-- The command leaves its channel, and its port falls free (R258, R278). -/
def removeCmd (c : Core) (ch : Nat) (k : Cmd) : Core :=
  let c := editChan c ch fun x => resetChan { x with cmds := x.cmds.filter fun y => y.id != k.id }
  let me : Option (Nat × Nat) := some (ch, k.id)
  { settlePort c (Fin.ofNat 8 (k.port.getD 0).toNat) with
    fports := c.fports.map fun p => if p = me then none else p, bodkin := if c.bodkin = me then none else c.bodkin }

/-- The command completes (R255): its swatch becomes ready, its barrier receives the event of its last `n` elements, its channel's timeline moves on. -/
def finishCmd (s : State) (ch : Nat) (k : Cmd) (n : Nat) : State :=
  let s := match k.sw with
    | some w => { s with c := setSwState s.c w 2 }
    | none => s
  let s := barEvent s ch k.id k.bar n true
  { s with c := removeCmd s.c ch k }

/-- The command fails with a status (R262, R434): its swatch becomes empty, a draining one too (log 14), what it has not landed leaves its barrier
(log 15), and it completes. -/
def failCmd (s : State) (ch : Nat) (k : Cmd) (st : Nat) : State :=
  let c := recordStatus s.c ch k.id st none
  let s := { s with c := match k.sw with
    | some w => setSwState c w 0
    | none => c }
  let s := barEvent s ch k.id k.bar (k.expected - k.landed) true
  { s with c := removeCmd s.c ch k }

/-! ## The start of a command (R258) -/

/-- The command's port is free. -/
def portReady (c : Core) (k : Cmd) : Bool :=
  let p := (k.port.getD 0).toNat
  match k.kind with
  | .stream => (vport c (Fin.ofNat 8 p)).occ.isNone
  | .send => (c.fports.toList.getD p none).isNone
  | .bodkin => c.bodkin.isNone
  | _ => true

/-- The command takes its port; a stream that was fired before the core's lease began is discarded (R401). -/
def takePort (c : Core) (ch : Nat) (k : Cmd) : Core :=
  let p := (k.port.getD 0).toNat
  let me : Option (Nat × Nat) := some (ch, k.id)
  match k.kind with
  | .stream => setVport c (Fin.ofNat 8 p) { occ := me, claim := none, read := k.stale, buf := [] }
  | .send => { c with fports := c.fports.setIfInBounds p me }
  | .bodkin => { c with bodkin := me }
  | _ => c

/-- The oldest command of the channel that has not started. -/
def nextQueued (c : Core) (ch : Nat) : Option Cmd := (chanOf c ch).cmds.find? fun k => k.at' == .queued

/-- The command sends over a fabric port that is out of service (R434). -/
def Cmd.cutOff (d : Device) (k : Cmd) : Bool := k.kind == .send && !d.ports.getLsbD (k.port.getD 0).toNat

/-- The stream dispatcher starts the channel's oldest queued command where R258 lets it; with nothing to land it completes at once (R262), and one
whose fabric port is out of service fails (R434). -/
def startCmd (s : State) (ch : Nat) : State :=
  match nextQueued s.c ch with
  | none => s
  | some k =>
    if portReady s.c k && decide (inFlight s.c < 64) && !s.d.quiet.contains k.asid.toNat then
      let s := { s with c := editCmd (takePort s.c ch k) ch k.id fun x => { x with at' := .flying } }
      if k.cutOff s.d then failCmd s ch k 5 else if k.expected = 0 ∧ k.scout = false then finishCmd s ch k 0 else s
    else s

/-! ## Elements -/

/-- The translation that `SHGO` captured (R256); a command of an earlier lease writes no scratchpad (R402; log 16). -/
def Cmd.trans (k : Cmd) : Trans := { asid := k.asid, ptroot := k.ptroot, prv := k.prv, stale := k.stale }

/-- A code in the destination's format (R290): a `copy` or `send` converts with RNE and no flag; where the spec states no conversion the code is free. -/
def recode (k : Cmd) (code : Nat) (s : State) : Nat × State :=
  let g := PRec.fmt k.src
  let f := PRec.fmt k.dst
  if k.kind = .stream ∨ g = f then (code, s)
  else if k.kind = .rows ∨ g = Fmts.e8m7x2 ∨ f = Fmts.e8m7x2 then
    let (n, s) := s.draw
    ((Config.freeWord n).toNat % 2 ^ fmtBits f, s)
  else ((convertCode g f 0 false code).1, s)

/-- Read the source at each index of a list and convert. -/
def readCodes (k : Cmd) (s : State) : List (Nat → Nat) → Except Stop (List Nat × State)
  | [] => .ok ([], s)
  | ix :: l =>
    match patRead s k.trans k.src ix with
    | .error e => .error e
    | .ok (c, s) =>
      let (c, s) := recode k c s
      match readCodes k s l with
      | .error e => .error e
      | .ok (cs, s) => .ok (c :: cs, s)

/-- The index (i0, i1, i2, i3). -/
def ix4 (a b c d : Nat) : Nat → Nat
  | 0 => a
  | 1 => b
  | 2 => c
  | _ => d

/-- Positions of a row of a pattern. -/
def rowLen (p : BitVec 512) : Nat := PRec.ext p 0 * PRec.ext p 2 * PRec.ext p 3

/-- Position `i` of row `r`, dimension 0 fastest, in the extents of `p`. -/
def rowPosition (p : BitVec 512) (r i : Nat) : Nat → Nat :=
  let e := PRec.ext p
  ix4 (i % e 0) r (i / e 0 % e 2) (i / (e 0 * e 2))

/-- The positions of row `n` of a `rows` command that have not landed (R161, R176). -/
def rowRest (k : Cmd) (n : Nat) : List Nat := (List.range (rowLen k.dst)).filter fun i => !k.part.contains (n, i)

/-- The source row that an index code names, none for one that is negative (R251). -/
def rowIndex (f : Fmt) (c : Nat) : Option Nat :=
  if fmtSigned f && decide (2 ^ (fmtBits f - 1) ≤ c) then none else some c

/-- The 32-byte sector of index `m` of a `rows` command (R257). -/
def indexSector (k : Cmd) (m : Nat) : Int := (patBit k.idx (ix4 m 0 0 0) 0).1 / 32

/-- One past the last index of the batch that index `m` starts: those in its 32-byte sector (R257). -/
def batchEnd (k : Cmd) (m : Nat) : Nat :=
  let n := PRec.ext k.idx 0
  ((List.range' (m + 1) (n - (m + 1))).find? fun j => indexSector k j != indexSector k m).getD (max n (m + 1))

/-- Read the index codes of a list of positions. -/
def readIndices (s : State) (k : Cmd) : List Nat → Except Stop (List Nat × State)
  | [] => .ok ([], s)
  | m :: l =>
    match patRead s k.trans k.idx (ix4 m 0 0 0) with
    | .error e => .error e
    | .ok (c, s) => (readIndices s k l).map fun r => (c :: r.1, r.2)

/-- Request batches of indices in list order until index `n` has been read (R257). -/
def requestBatches (s : State) (k : Cmd) (n : Nat) : Nat → Except Stop (Cmd × State)
  | 0 => .ok (k, s)
  | f + 1 =>
    if n < k.codes.length then .ok (k, s)
    else
      let m := k.codes.length
      match readIndices s k (List.range' m (batchEnd k m - m)) with
      | .error e => .error e
      | .ok (l, s) => requestBatches s { k with codes := k.codes ++ l } n f

/-- The source row of row `n` of a `rows` command, whose index has been read; past the source's rows where it names none (R251). -/
def sourceRow (k : Cmd) (n : Nat) : Nat := (rowIndex (PRec.fmt k.idx) (k.codes.getD n 0)).getD (PRec.ext k.src 1)

/-- Row `n` of a `rows` command: its misses and the codes of the positions that have not landed (R161, R176, R251; log 15). -/
def readRow (s : State) (k : Cmd) (n : Nat) : Except Stop ((Nat × List Nat) × State) :=
  let good := decide (sourceRow k n < PRec.ext k.src 1)
  let e0 := PRec.ext k.src 0
  let f0 := PRec.ext k.dst 0
  let outside := (max e0 f0 - min e0 f0) * PRec.ext k.dst 2 * PRec.ext k.dst 3
  if PRec.ext k.dst 1 ≤ n then .ok ((1, []), s)
  else
    (readCodes k s ((rowRest k n).map (rowPosition k.dst (sourceRow k n)))).map fun r =>
      (((if good then 0 else 1) + outside, r.1), r.2)

/-- Element `n` of a command as read and converted: its misses and its codes, and the command with the indices it has read (R251, R257, R290). -/
def readElement (s : State) (k : Cmd) (n : Nat) : Except Stop ((Nat × List Nat) × Cmd × State) :=
  match k.kind with
  | .copy =>
    let ix := patIx k.dst n
    (readCodes k s [ix]).map fun r => ((if patIn k.src ix then 0 else 1, r.1), k, r.2)
  | .stream =>
    let ix := patIx k.src n
    (readCodes k s [ix]).map fun r => ((if patIn k.src ix then 0 else 1, r.1), k, r.2)
  | .send =>
    let ix := patIx k.src n
    (readCodes k s [ix]).map fun r => ((if patIn k.dst ix then 0 else 1, r.1), k, r.2)
  | .rows =>
    match requestBatches s k n (n + 1) with
    | .error e => .error e
    | .ok (k, s) => (readRow s k n).map fun r => (r.1, k, r.2)
  | .bodkin => .ok ((0, []), k, s)

/-- Write codes at the destination's positions. -/
def writeCodes (k : Cmd) (s : State) : List ((Nat → Nat) × Nat) → Except Stop State
  | [] => .ok s
  | (ix, c) :: l =>
    match patWrite s k.trans k.sw k.dst ix c with
    | .error e => .error e
    | .ok s => writeCodes k s l

/-- Element `n` is accepted at its destination (R257, R259). -/
def landElement (s : State) (k : Cmd) (n : Nat) (cs : List Nat) : Except Stop State :=
  match k.kind with
  | .rows => writeCodes k s (((rowRest k n).map (rowPosition k.dst n)).zip cs)
  | .send => .ok s
  | .stream =>
    let p : Fin 8 := Fin.ofNat 8 (k.port.getD 0).toNat
    let v := vport s.c p
    let w : BitVec 32 := (codeElem (PRec.fmt k.src) (cs.headD 0)).setWidth 32
    .ok { s with c := setVport s.c p { v with buf := v.buf ++ [w] } }
  | _ => writeCodes k s ((patIx k.dst n, cs.headD 0) :: [])

/-- Read the elements of a list ahead. -/
def readAhead (s : State) (k : Cmd) : List Nat → Except Stop (List (Nat × List Nat) × Cmd × State)
  | [] => .ok ([], k, s)
  | n :: l =>
    match readElement s k n with
    | .error e => .error e
    | .ok (x, k, s) => (readAhead s k l).map fun r => (x :: r.1, r.2)

/-- Read the codes of source elements that a routine takes as its input (R267). -/
def readInput (s : State) (k : Cmd) : List Nat → Except Stop (List Nat × State)
  | [] => .ok ([], s)
  | n :: l =>
    match patRead s k.trans k.src (patIx k.src n) with
    | .error e => .error e
    | .ok (c, s) => (readInput s k l).map fun r => (c :: r.1, r.2)

/-! ## Routines (R267, R268) -/

/-- CHUNK of a routine header. -/
def rtnChunk (h : BitVec 256) : Nat := bits h 95 64
/-- HDR of a routine header. -/
def rtnHdr (h : BitVec 256) : Nat := bits h 127 96
/-- RATIO of a routine header. -/
def rtnRatio (h : BitVec 256) : Nat := bits h 159 128

/-- A routine's image with its RATIO field zero: what its output rests on (R268). -/
def Routine.code (r : Routine) : Nat := r.image - 2 ^ 128 * rtnRatio r.header

/-- Bits of chunk `c` of a command's input: its first, and one past its last (R267). -/
def chunkBits (k : Cmd) (c : Nat) : Nat × Nat := let n := 8 * rtnChunk k.rtn.2.header; (c * n, (c + 1) * n)

/-- Input elements of which some bit lies from bit `lo` up to bit `hi` - 1 of the input. -/
def elementsIn (k : Cmd) (lo hi : Nat) : List Nat :=
  let b := fmtBits (PRec.fmt k.src)
  (List.range (patCount k.src)).filter fun n => decide (n * b < hi) && decide (lo < (n + 1) * b)

/-- What a scout reads of chunk `c`: its first HDR bytes (R268). -/
def headOf (k : Cmd) (c : Nat) : List Nat :=
  let (lo, hi) := chunkBits k c
  elementsIn k lo (min hi (lo + 8 * rtnHdr k.rtn.2.header))

/-- What the data pass reads of chunk `c`: the elements that end in it (R267). -/
def dataOf (k : Cmd) (c : Nat) : List Nat :=
  let (lo, hi) := chunkBits k c
  let b := fmtBits (PRec.fmt k.src)
  (List.range (patCount k.src)).filter fun n => decide (lo < (n + 1) * b) && decide ((n + 1) * b ≤ hi)

/-- The chunks of a command's input; the last may be part full (R267; log 15). -/
def chunkCount (k : Cmd) : Nat :=
  let n := 8 * rtnChunk k.rtn.2.header
  (patCount k.src * fmtBits (PRec.fmt k.src) + n - 1) / n

/-- The reads of a routine with RATIO 0, in order: the scout's of each chunk's head, marked, and 8 chunks behind it those of the data pass (R268). -/
def passReads (k : Cmd) : List (Bool × Nat) :=
  (List.range (chunkCount k + 8)).flatMap fun c =>
    (headOf k c).map (fun n => (true, n)) ++ if 8 ≤ c then (dataOf k (c - 8)).map fun n => (false, n) else []

/-- A routine whose first word, at the entry offset of its image, is none of the words that a routine may run, or lies outside the image, ends with
status BODKIN (R267). -/
def Routine.starts (r : Routine) : Bool :=
  let e := bits r.header 63 0
  let b := r.image / 2 ^ (8 * e + 24) % 256
  decide (e + 4 ≤ 32 + 8 * Config.routineWords r.header) && decide (e % 4 = 0) && ((1 ≤ b && b ≤ 0x18) || (0x22 ≤ b % 128 && b % 128 ≤ 0x2E))

/-- The command's routine ends with status BODKIN before it gives anything (R267). -/
def Cmd.refused (k : Cmd) : Bool := k.kind == .bodkin && !k.rtn.2.starts

/-- The output of a command's routine on the input's codes (R267). -/
def routineOutput (k : Cmd) (input : List Nat) : List (Nat × List Nat) :=
  (List.range' k.landed (k.expected - k.landed)).map fun n =>
    (if patIn k.dst (patIx k.dst n) then 0 else 1, [(Config.bodkinOut k.rtn.2.code input n).toNat % 2 ^ fmtBits (PRec.fmt k.dst)])

/-- Strides of a pattern in row layout that leave no gap (R261; log 14). -/
def denseRows (p : BitVec 512) : Bool :=
  let c := container (PRec.fmt p)
  let row := if c = 0 then (PRec.ext p 0 * fmtBits (PRec.fmt p) + 7) / 8 else PRec.ext p 0 * c
  PRec.layout p == 0 && (c == 0 || PRec.stride p 0 == (c : Int)) &&
    (PRec.ext p 1 == 1 || PRec.stride p 1 == (row : Int)) &&
    (PRec.ext p 2 == 1 || PRec.stride p 2 == ((row * PRec.ext p 1 : Nat) : Int)) &&
    (PRec.ext p 3 == 1 || PRec.stride p 3 == ((row * PRec.ext p 1 * PRec.ext p 2 : Nat) : Int))

/-- A `copy` that ends as if its whole source had been read first (R261). -/
def Cmd.safeMove (k : Cmd) : Bool := k.kind == .copy && PRec.fmt k.src == PRec.fmt k.dst && denseRows k.src && denseRows k.dst

/-- How one more element goes: landed, or it must wait for a swatch, or it faults at an address, with poison or without. -/
inductive Advance where
  | landed (s : State)
  | waits
  | fault (a : Word) (poison : Bool)

/-- An access of the engine that failed at its read: poison where the address translates and may be read (R176, R177). -/
def readFault (s : State) (k : Cmd) (c : BitVec 6) (a : Word) : Advance :=
  if c ≠ Cause.access then .fault a false
  else if inWindow a then .fault a (decide (bits a 19 0 < 0xC0000))
  else
    match placeUnder s k.asid k.ptroot k.prv .load a 1 with
    | .ok _ => .fault a true
    | .error (.wait _) => .waits
    | .error (.trap _ _) => .fault a false

/-- Two byte spans share a byte. -/
def spansMeet (a b : Option (Int × Int)) : Bool :=
  match a, b with
  | some (l, h), some (l', h') => decide (l < h') && decide (l' < h)
  | _, _ => false

/-- The two sides of the command share a byte of one space (R261). -/
def Cmd.meets (k : Cmd) : Bool := PRec.space k.src == PRec.space k.dst && spansMeet (patSpan k.src) (patSpan k.dst)

/-- The command with what it reads before it lands anything: the whole source of an overlapping move, and the whole input of a routine (R261, R267). -/
def prepared (s : State) (k : Cmd) : Except Stop (Cmd × State) :=
  if k.snap.isSome then .ok (k, s)
  else if k.kind = .bodkin then
    (readInput s k (List.range (patCount k.src))).map fun r => ({ k with snap := some (routineOutput k r.1) }, r.2)
  else if k.safeMove && k.meets then
    (readAhead s k (List.range' k.landed (k.expected - k.landed))).map fun r => ({ r.2.1 with snap := some r.1 }, r.2.2)
  else .ok (k, s)

/-- Element `n` of a command, at or above its landed count: read ahead already, or read now. -/
def elementOf (s : State) (k : Cmd) (n : Nat) : Except Stop ((Nat × List Nat) × Cmd × State) :=
  match prepared s k with
  | .error e => .error e
  | .ok (k, s) =>
    match k.snap with
    | some l => .ok (l.getD (n - k.landed) (0, []), k, s)
    | none => readElement s k n

/-- The count covers element `landed` and every element after it that has been accepted already (R259); `n` bounds their number. -/
def countUp (k : Cmd) : Nat → Cmd
  | 0 => k
  | n + 1 =>
    let k : Cmd := { k with landed := k.landed + 1, part := k.part.filter fun e => decide (k.landed < e.1), snap := k.snap.map (List.drop 1) }
    if k.ahead.contains k.landed then countUp { k with ahead := k.ahead.filter (· != k.landed) } n else k

/-- Accept element `n` of a command at its destination (R257, R259): its misses are counted before the landed count covers it (R292). -/
def accept (s : State) (ch : Nat) (k : Cmd) (n : Nat) (f : Cmd → Cmd) : Advance :=
  match elementOf s k n with
  | .error (.wait _) => .waits
  | .error (.trap c a) => readFault s k c a
  | .ok (x, k, s) =>
    match landElement s k n x.2 with
    | .error (.wait _) => .waits
    | .error (.trap _ a) => .fault a false
    | .ok s => .landed { s with c := editCmd (addMisses s.c ch x.1) ch k.id fun _ => f k }

/-- The scout pass of a routine with RATIO 0 and the data pass behind it (R268): the scout sets the expected count from the heads of the input's chunks,
before the data pass lands anything. -/
def scoutPass (s : State) (ch : Nat) (k : Cmd) : Except Stop State :=
  if k.scout then
    (readInput s k ((passReads k).map (·.2))).map fun r =>
      let l := (passReads k).zip r.1
      let pick (head : Bool) : List Nat := (l.filter fun e => e.1.1 == head).map (·.2)
      let k := { k with scout := false, expected := Config.bodkinCount k.rtn.2.code (pick true) }
      { r.2 with c := editCmd r.2.c ch k.id fun _ => { k with snap := some (routineOutput k (pick false)) } }
  else .ok s

/-- Land the next element of command `id` (R259). -/
def advance (s : State) (ch id : Nat) : Advance :=
  match findCmd s.c ch id with
  | none => .waits
  | some k =>
    if !k.runs s.d || k.cutOff s.d || k.refused then .waits
    else
      match scoutPass s ch k with
      | .error (.wait _) => .waits
      | .error (.trap c a) => readFault s k c a
      | .ok s =>
        match findCmd s.c ch id with
        | none => .waits
        | some k => if k.expected ≤ k.landed then .waits else accept s ch k k.landed fun k => countUp k (k.ahead.length + 1)

/-- Land `n` more elements in order, none unless all of them land. -/
def advanceMany (s : State) (ch id : Nat) : Nat → Option State
  | 0 => some s
  | n + 1 =>
    match advance s ch id with
    | .landed s => advanceMany s ch id n
    | _ => none

/-- Elements of a list that lie above the landed count are accepted before those below them, each that can be (R257, R259); those of a stream
come to their port in order. -/
def acceptAhead (s : State) (ch id : Nat) : List Nat → State
  | [] => s
  | n :: l =>
    match findCmd s.c ch id with
    | none => s
    | some k =>
      if k.kind = .stream ∨ !k.runs s.d ∨ n ≤ k.landed ∨ k.expected ≤ n ∨ k.ahead.contains n then acceptAhead s ch id l
      else
        match accept s ch k n fun k => { k with ahead := n :: k.ahead } with
        | .landed s => acceptAhead s ch id l
        | _ => acceptAhead s ch id l

/-- The landed count of a command may have risen from `m` (R321): one barrier event for the rise; at the expected count the command completes (R255). -/
def noteRise (s : State) (ch id m : Nat) : State :=
  match findCmd s.c ch id with
  | none => s
  | some k =>
    if k.scout then s
    else if k.landed = k.expected then finishCmd s ch k (k.landed - m)
    else if k.landed = m then s
    else barEvent s ch id k.bar (k.landed - m) false

/-- Command `id` lands its next `n` elements, none unless all of them land, and accepts those of `more` ahead of the ones below them (R257, R259);
a send over a port out of service fails (R434), and so does a routine that cannot start (R267). -/
def riseBy (s : State) (ch id n : Nat) (more : List Nat) : State :=
  match findCmd s.c ch id with
  | none => s
  | some k =>
    if !k.runs s.d then s
    else if k.cutOff s.d then failCmd s ch k 5
    else if k.refused then failCmd s ch k 4
    else
      match scoutPass s ch k with
      | .error _ => s
      | .ok t =>
        match advanceMany (acceptAhead t ch id more) ch id n with
        | none => noteRise t ch id k.landed
        | some t => noteRise t ch id k.landed

/-- A transfer is suspended (R176, R177): its channel records why, and its address space's service hart gets the channel's source (R432). -/
def suspend (s : State) (ch id st : Nat) (a : Word) : State :=
  match findCmd s.c ch id with
  | none => s
  | some k =>
    let c := editCmd (recordStatus s.c ch id st (some a)) ch id fun x => { x with at' := .suspended }
    raiseAt { s with c := c } (sget s.d.svc k.asid.toNat 0) (0x1000 + 16 * coreOf s.hid + ch)

/-- The rest of the source is read (R253): a swatch that drains becomes ready and is bound no more. -/
def readDone (s : State) (ch id : Nat) : State :=
  match findCmd s.c ch id with
  | none => s
  | some k =>
    if !k.runs s.d || k.scout || k.refused then s
    else
      let l : Except Stop (List (Nat × List Nat) × Cmd × State) :=
        match prepared s k with
        | .error e => .error e
        | .ok (k, s) =>
          match k.snap with
          | some l => .ok (l, k, s)
          | none => readAhead s k (List.range' k.landed (k.expected - k.landed))
      match l with
      | .error _ => s
      | .ok (l, k, s) =>
        let drains := k.sw.filter fun n => swState (swAt s.c n.toNat) == 3
        let c := editCmd s.c ch id fun _ => { k with snap := some l, sw := if drains.isSome then none else k.sw }
        { s with c := match drains with
          | some n => setSwState c n 2
          | none => c }

/-- The code of position `i` of row `n` of a `rows` command, out of what has been read ahead or read now. -/
def takeCode (s : State) (k : Cmd) (n i : Nat) : Except Stop (Nat × Cmd × State) :=
  match k.snap with
  | some l =>
    let x := l.getD (n - k.landed) (0, [])
    let j := (rowRest k n).idxOf i
    .ok (x.2.getD j 0, { k with snap := some (l.set (n - k.landed) (x.1, x.2.eraseIdx j)) }, s)
  | none =>
    match requestBatches s k n (n + 1) with
    | .error e => .error e
    | .ok (k, s) => (readCodes k s [rowPosition k.dst (sourceRow k n) i]).map fun r => (r.1.headD 0, k, r.2)

/-- Position `i` of row `n` of a `rows` command lands alone, if it can. -/
def landPosition (s : State) (ch id n i : Nat) : Option State :=
  match findCmd s.c ch id with
  | none => none
  | some k =>
    if k.kind ≠ .rows ∨ PRec.ext k.dst 1 ≤ n then none
    else
      match takeCode s k n i with
      | .error _ => none
      | .ok (c, k, s) =>
        match writeCodes k s [(rowPosition k.dst n i, c)] with
        | .error _ => none
        | .ok s => some { s with c := editCmd s.c ch id fun _ => { k with part := (n, i) :: k.part } }

/-- Positions of row `n` land in order, up to the first that cannot. -/
def landUpTo (s : State) (ch id n : Nat) : List Nat → State
  | [] => s
  | i :: l =>
    match landPosition s ch id n i with
    | some t => landUpTo t ch id n l
    | none => s

/-- What of its next row a `rows` command can land before the sector that faults lands (R176): it goes on at that sector after its replay. -/
def landPart (s : State) (ch id : Nat) : State :=
  match findCmd s.c ch id with
  | none => s
  | some k => landUpTo s ch id k.landed (rowRest k k.landed)

/-! ## Quiescing (R161) -/

/-- The 32-byte sector at which element `n` of a command starts, position `i` of row `n` of a `rows` command: of its destination, or of its source where
it goes to a port. -/
def sectorOf (k : Cmd) (n i : Nat) : Int :=
  match k.kind with
  | .stream | .send => (patBit k.src (patIx k.src n) 0).1 / 32
  | .rows => (patBit k.dst (rowPosition k.dst n i) 0).1 / 32
  | _ => (patBit k.dst (patIx k.dst n) 0).1 / 32

/-- What a command is to land, in order: its elements, or the positions of its rows. -/
def pieces (k : Cmd) : List (Nat × Nat) :=
  (List.range k.expected).flatMap fun n => if k.kind = .rows then (List.range (rowLen k.dst)).map fun i => (n, i) else [(n, 0)]

/-- The piece has landed. -/
def hasLanded (k : Cmd) (p : Nat × Nat) : Bool := decide (p.1 < k.landed) || k.ahead.contains p.1 || k.part.contains p

/-- What a transfer that is being quiesced lands still: the rest of each sector of which it has landed something, so that it stops at sector
boundaries (R161; log 14). -/
def toBoundary (k : Cmd) : List (Nat × Nat) :=
  (pieces k).filter fun p => !hasLanded k p && (pieces k).any fun q => hasLanded k q && sectorOf k q.1 q.2 == sectorOf k p.1 p.2

/-- Element `n` lands, or is accepted ahead of those below it, if it can. -/
def landOne (ch id : Nat) (s : State) (n : Nat) : State :=
  match findCmd s.c ch id with
  | none => s
  | some k =>
    if n ≠ k.landed then acceptAhead s ch id [n]
    else
      match advance s ch id with
      | .landed t => t
      | _ => s

/-- A transfer goes on to sector boundaries (R161): each piece that it lands still and that can land lands; a row is accepted with its last position. -/
def settleCmd (ch : Nat) (s : State) (k : Cmd) : State :=
  if !k.runs s.d || k.cutOff s.d || k.refused || k.scout then s
  else
    let l := toBoundary k
    let t :=
      if k.kind = .rows then
        let u := l.foldl (fun u p => (landPosition u ch k.id p.1 p.2).getD u) s
        (l.map (·.1)).foldl (fun u n =>
          if (findCmd u.c ch k.id).any fun k => (rowRest k n).isEmpty then landOne ch k.id u n else u) u
      else l.foldl (fun u p => landOne ch k.id u p.1) s
    noteRise t ch k.id k.landed

/-- Every transfer of an address space that is in flight on the core in focus goes on to sector boundaries (R161). -/
def settleSectors (s : State) (asid : Nat) : State :=
  (List.range 16).foldl (init := s) fun s ch =>
    ((chanOf s.c ch).cmds.filter fun k => k.at' == .flying && k.asid.toNat == asid).foldl (settleCmd ch) s

/-! ## Events of the engine -/

/-- An engine of a core acts as its hart 0 (R243). -/
def onCore (s : State) (core : BitVec 8) (f : State → State) : State := onHart s (core ++ 0#3) f

/-- `COMMAND_START` (R258). -/
def execCommandStart (core : BitVec 8) (ch : BitVec 4) (s : State) : Out := .next (onCore s core fun s => startCmd s ch.toNat)

/-- `CHANNEL_RESET` (R401): the channel is reset if a lease asks for it and its commands have completed. -/
def execChannelReset (core : BitVec 8) (ch : BitVec 4) (s : State) : Out :=
  .next <| onCore s core fun s => { s with c := editChan s.c ch.toNat resetChan }

/-- `LANDED_COUNT_RISE` (R259, R321): the elements of `n.2` are accepted ahead, then `n.1` more in order. -/
def execLandedCountRise (core : BitVec 8) (ch : BitVec 4) (id : BitVec 64) (n : Nat × List Nat) (s : State) : Out :=
  .next (onCore s core fun s => riseBy s ch.toNat id.toNat n.1 n.2)

/-- `SOURCE_READ_DONE` (R253). -/
def execSourceReadDone (core : BitVec 8) (ch : BitVec 4) (id : BitVec 64) (s : State) : Out :=
  .next (onCore s core fun s => readDone s ch.toNat id.toNat)

/-- `TRANSFER_SUSPEND` (R176): the next element meets a translation fault; what of a row comes before it lands. -/
def execTransferSuspend (core : BitVec 8) (ch : BitVec 4) (id : BitVec 64) (s : State) : Out :=
  .next <| onCore s core fun s =>
    match advance s ch.toNat id.toNat with
    | .fault a false => suspend (landPart s ch.toNat id.toNat) ch.toNat id.toNat 2 a
    | _ => s

/-- `TRANSFER_POISON` (R177): the next element reads poison. -/
def execTransferPoison (core : BitVec 8) (ch : BitVec 4) (id : BitVec 64) (s : State) : Out :=
  .next <| onCore s core fun s =>
    match advance s ch.toNat id.toNat with
    | .fault a true => suspend (landPart s ch.toNat id.toNat) ch.toNat id.toNat 3 a
    | _ => s

/-- `BODKIN_FAULT` (R262, R267): the routine of a command ends with a fault; what has landed stays. -/
def execBodkinFault (core : BitVec 8) (ch : BitVec 4) (id : BitVec 64) (s : State) : Out :=
  .next <| onCore s core fun s =>
    match findCmd s.c ch.toNat id.toNat with
    | some k => if k.kind = .bodkin ∧ k.runs s.d then failCmd s ch.toNat k 4 else s
    | none => s

/-- `FABRIC_SEND_ARRIVAL` (R434): the far device accepts what is left of a `send`, or the command fails with status 5; with its port out of service it fails. -/
def execFabricSendArrival (core : BitVec 8) (ch : BitVec 4) (id : BitVec 64) (ok : BitVec 1) (s : State) : Out :=
  .next <| onCore s core fun s =>
    match findCmd s.c ch.toNat id.toNat with
    | some k =>
      if k.kind ≠ .send ∨ !k.runs s.d then s
      else if ok = 0 ∨ !s.d.ports.getLsbD (k.port.getD 0).toNat then failCmd s ch.toNat k 5
      else riseBy s ch.toNat id.toNat (k.expected - k.landed - k.ahead.length) []
    | none => s

end Sys2Proof.Machine
end

