-- ==== Sys2Proof/Machine/Supv.lean ====
section
/-!
DEFINITION. Context save and restore, and the other `SUPV` words (07_traps_preemption_translation.md, R161-R168, R174;
29_launch_message_system_instructions.md, R423, R424).
-/

namespace Sys2Proof.Machine

/-- A `SUPV` word: `ILLEGAL_INSN` in user mode (R412, R423). -/
def supv (w : Insn) (s : State) (run : Out) : Out := if s.h.prv then run else .next (illegal s w)

/-! ## csave (R165, R166) -/

/-- Words of 8 bytes of a wide value from an offset up. -/
def layWords {n : Nat} (off : Nat) (v : BitVec n) (k : Nat) : List (Nat × Word) :=
  (List.range k).map fun i => (off + 8 * i, v.extractLsb' (64 * i) 64)

/-- Words from an offset up. -/
def layList (off : Nat) (l : List Word) : List (Nat × Word) := l.zipIdx.map fun e => (off + 8 * e.2, e.1)

/-- The fixed part of the save area, offsets 0x0_0000-0x0_0FFF (R165). -/
def fixedPart (h : Hart) : List (Nat × Word) :=
  layList 0 (h.x.set 0 0).toList ++
  layList 0x200 [h.epc, h.cause.setWidth 64, h.tval, h.status] ++
  layList 0x220 [h.vl.setWidth 64, h.vtype.setWidth 64, h.vstart.setWidth 64, h.vpr, h.vdirty.setWidth 64, h.fcsr.setWidth 64,
    h.mshape.setWidth 64, latWord h] ++
  layList 0x260 (h.focc.toList.map fun o => o.setWidth 64) ++
  layList 0x2E0 [h.jaddr, 0, 0, 0] ++
  (List.range 8).flatMap (fun i => layWords (0x300 + 256 * i) (h.k.toList.getD i 0) 32) ++
  layWords 0xB00 h.smm 32 ++ layWords 0xC00 h.jbits 32 ++ layList 0xD00 (List.replicate 96 0)

/-- The slots of the dirty registers (R166): of v0-v31 the slices of the `g` groups held, of mx0-mx7 their 4 g rows. -/
def dirtyPart (h : Hart) : List (Nat × Word) :=
  (List.range 32).flatMap (fun i =>
    if h.vdirty.getLsbD i then layWords (0x1000 + 8192 * i) (h.v.toList.getD i 0) (64 * h.g) else []) ++
  (List.range 8).flatMap fun i =>
    if h.vdirty.getLsbD (32 + i) then layWords (0x41000 + 16384 * i) (h.mx.toList.getD i 0) (32 * (4 * h.g)) else []

/-- Store words at offsets of an area, in order; the stop met, and the state it was met in. -/
def storeAll (base : Word) (s : State) : List (Nat × Word) → State × Option Stop
  | [] => (s, none)
  | (o, v) :: l =>
    match store s (base + BitVec.ofNat 64 o) 8 v 0 with
    | .error e => (s, some e)
    | .ok s => storeAll base s l

/-- `SUPV.csave` (R166, R423): the fixed part, the dirty registers, and a package-scope release. -/
def csave (s : State) : Out :=
  match storeAll s.h.carea s (fixedPart s.h ++ dirtyPart s.h) with
  | (t, some (.trap c v)) => .next (trap t c v)
  | (t, some (.wait w)) => .next (await t w)
  | (t, none) =>
    let t := t.release 6
    .next (done { t with h := { t.h with csaved := true } })

/-! ## crest (R167) -/

/-- Load `n` words of 8 bytes from an offset of the area up, as one number. -/
def areaRead (s : State) (base : Word) (off n : Nat) : Except Stop (Nat × State) := loadWords s (base + BitVec.ofNat 64 off) 0 n

/-- A bit vector of `n` words of the area. -/
def areaBits (w : Nat) (s : State) (base : Word) (off n : Nat) : Except Stop (BitVec w × State) :=
  (areaRead s base off n).map fun r => (BitVec.ofNat w r.1, r.2)

/-- Restore registers `i` up from their slots: where the saved dirty bit is clear they are zero (R167). -/
def areaRegs (w : Nat) (s : State) (base : Word) (off size n : Nat) (dirty : Nat → Bool) : List Nat → Except Stop (List (BitVec w) × State)
  | [] => .ok ([], s)
  | i :: l =>
    match (if dirty i then areaBits w s base (off + size * i) n else .ok (0, s)) with
    | .error e => .error e
    | .ok (v, s) =>
      match areaRegs w s base off size n dirty l with
      | .error e => .error e
      | .ok (vs, s) => .ok (v :: vs, s)

/-- A list as a vector of `n` entries. -/
def vecOf {α : Type} (n : Nat) (d : α) (l : List α) : Vector α n := Vector.ofFn fun i => l.getD i d

/-- The grant that a restored context takes (R167), or the number of lane groups that it still lacks. -/
def crestGrant (s : State) (want : Nat) : Except Nat (BitVec 16) :=
  let h := s.h
  if want ≤ h.g then .ok (dropHighest h.gmap (h.g - want))
  else
    let free := freeGroups s (coreOf s.hid) (onB s.hid)
    if free.length < want - h.g then .error (want - h.g) else .ok (addLowest h.gmap free (want - h.g))

/-- The hart with the fixed part of a save area, given as a number of 8-byte words (R165, R167): of `STATUS` only PPRV and PIE. A saved RM of 5, 6 or 7
leaves RM unchanged, as a write of `FCSR` does, so that RM always names a mode (R34; log 37). -/
def restoreFixed (h : Hart) (a : BitVec 32768) : Hart :=
  let w (o : Nat) : Word := a.extractLsb' (8 * o) 64
  let st := w 0x218
  let lat := w 0x258
  { h with
    x := (Vector.ofFn fun i : Fin 64 => w (8 * i.val)).set 0 0, epc := w 0x200 &&& ~~~3#64, cause := (w 0x208).setWidth 6, tval := w 0x210,
    pprv := bit st 2, pie := bit st 1, vl := (w 0x220).setWidth 12, vtype := (w 0x228).setWidth 12, vstart := (w 0x230).setWidth 11,
    vpr := w 0x238, vdirty := (w 0x240).setWidth 40, fcsr := (writeFcsr h (w 0x248)).fcsr, mshape := (w 0x250).setWidth 44 &&& 0xFFFFFFF7F7F#44,
    lgmin := lat.extractLsb' 0 5, lgmax := lat.extractLsb' 8 5, focc := Vector.ofFn fun i : Fin 16 => (w (0x260 + 8 * i.val)).setWidth 12,
    jaddr := w 0x2E0, k := Vector.ofFn fun i : Fin 8 => a.extractLsb' (8 * (0x300 + 256 * i.val)) 2048, smm := a.extractLsb' (8 * 0xB00) 2048,
    jbits := a.extractLsb' (8 * 0xC00) 2048 }

/-- The saved `LAT.G` of the area of the hart in focus (R167). -/
def savedGrant (s : State) : Except Stop (Nat × State) := (areaBits 64 s s.h.carea 0x258 1).map fun r => (bits r.1 20 16, r.2)

/-- Every field of the area, then each register, by its saved dirty bit, for a context of `want` lane groups (R165, R167). -/
def restoreContext (s : State) (want : Nat) : Except Stop State :=
  let base := s.h.carea
  match areaBits 32768 s base 0 512 with
  | .error e => .error e
  | .ok (a, s) =>
    let h := restoreFixed s.h a
    match areaRegs 65536 s base 0x1000 8192 (64 * want) (fun i => h.vdirty.getLsbD i) (List.range 32) with
    | .error e => .error e
    | .ok (vs, s) =>
      match areaRegs 131072 s base 0x41000 16384 (128 * want) (fun i => h.vdirty.getLsbD (32 + i)) (List.range 8) with
      | .error e => .error e
      | .ok (ms, s) => .ok { s with h := { h with v := vecOf 32 0 vs, mx := vecOf 8 0 ms, csaved := false } }

/-- `SUPV.crest` (R167): an acquire, the grant, every field, then the registers. -/
def crest (s : State) : Out :=
  let s := s.acquire 6
  settle s <|
    match savedGrant s with
    | .error e => .error e
    | .ok (want, s) =>
      match crestGrant s want with
      | .error n => .error (.wait (.crest n))
      | .ok m => restoreContext { s with h := { s.h with gmap := m } } want

/-! ## The words -/

/-- `SUPV_CAREA` (R423). -/
def execSupvCarea (a : BitVec 6) (s : State) : Out :=
  let v := rx s a
  supv (0x72000000#32 ||| fld a 12) s <| .next (if bits v 11 0 ≠ 0 then trap s Cause.misaligned v else done { s with h := { s.h with carea := v } })

/-- `SUPV_CSAVE` (R166). -/
def execSupvCsave (s : State) : Out := supv (0x72000001#32) s (csave s)

/-- `SUPV_CREST` (R167). -/
def execSupvCrest (s : State) : Out := supv (0x72000002#32) s (crest s)

/-- `CREST_GRANT` (R167): a waiting `SUPV.crest` goes on if enough lane groups are free. -/
def execCrestGrant (h : BitVec 11) (s : State) : Out :=
  .next <| onHart s h fun s =>
    match s.h.wait with
    | some (.crest _) =>
      match crest s with
      | .next t => t
      | _ => s
    | _ => s

/-- A timer that runs from now with interval `n` (R423); 0 stops it. -/
def timerFrom (s : State) (n : BitVec 32) : Option Nat := if n = 0 then none else some (s.d.cycle.toNat + n.toNat)

/-- `SUPV_TACK` (R423). -/
def execSupvTack (s : State) : Out :=
  supv (0x72000003#32) s <| .next (done { s with h := { s.h with tpend := false, timerAt := timerFrom s s.h.timerInt } })

/-- `SUPV_TSET` (R423). -/
def execSupvTset (a : BitVec 6) (s : State) : Out :=
  let n : BitVec 32 := (rx s a).setWidth 32
  supv (0x72000004#32 ||| fld a 12) s <| .next (done { s with h := { s.h with timerInt := n, timerAt := timerFrom s n, tpend := s.h.tpend && n != 0 } })

/-- `SUPV_EACK` (R423). -/
def execSupvEack (a : BitVec 6) (s : State) : Out :=
  supv (0x72000005#32 ||| fld a 12) s <| .next (done { s with h := { s.h with ext := s.h.ext.filter fun n => n != (rx s a).toNat } })

/-- `SUPV_PACK` (R423). -/
def execSupvPack (s : State) : Out := supv (0x72000006#32) s <| .next (done { s with h := { s.h with ppend := false } })

/-- The cached translation is dropped by `SUPV.tlbinv` (R424). -/
def invalidates (a b : Word) (e : TlbEntry) : Bool :=
  bit a 63 || (e.asid == some (a.setWidth 14) && (bit b 0 || (decide (e.va ≤ bits b 55 0) && decide (bits b 55 0 < e.va + e.size))))

/-- A store in the window of hart `h` was translated through an entry that the word drops (R41, R174). -/
def holdsStale (s : State) (a b : Word) (h : Hart) : Bool :=
  h.mstage.stores.any fun p =>
    match p.place with
    | .mem _ _ => s.d.tlb.any fun e => invalidates a b e && e.hits h.asid (bits p.va 55 0)
    | _ => false

/-- `SUPV_TLBINV` (R174, R424): it completes once every access already translated through a dropped entry has. -/
def execSupvTlbinv (a b : BitVec 6) (s : State) : Out :=
  let x := rx s a
  supv (0x72000007#32 ||| fld a 12 ||| fld b 6) s <| .next <|
    if bits x 62 14 ≠ 0 then illegal s (0x72000007#32 ||| fld a 12 ||| fld b 6)
    else if holdsStale s x (rx s b) s.h || s.parked.any fun e => holdsStale s x (rx s b) e.2 then await s .invalidation
    else done { s with d := { s.d with tlb := s.d.tlb.filter fun e => !invalidates x (rx s b) e } }

/-- Commands of an address space in flight on a core. -/
def flyingOf (c : Core) (asid : Nat) : Nat :=
  (c.chans.toList.map fun k => (k.cmds.filter fun x => x.at' != .queued && x.asid.toNat == asid).length).sum

/-- `SUPV_QUIESCE` (R161, R423): every transfer of the address space that is still in flight stops at sector boundaries, and x[d] counts those. -/
def execSupvQuiesce (d a : BitVec 6) (s : State) : Out :=
  let n := bits (rx s a) 13 0
  supv (0x72000008#32 ||| fld d 18 ||| fld a 12) s <| .next <|
    let t := ((List.range 256).filter fun k => k == coreOf s.hid || (sfind s.cores k).isSome).foldl
      (fun s k => onCore s (BitVec.ofNat 8 k) fun s => settleSectors s n) s
    let count := flyingOf t.c n + (t.cores.map fun e => flyingOf e.2 n).sum
    done (wx { t with d := { t.d with quiet := insertSource t.d.quiet n } } d (BitVec.ofNat 64 count))

/-- `SUPV_RESUME` (R423). -/
def execSupvResume (a : BitVec 6) (s : State) : Out :=
    supv (0x72000009#32 ||| fld a 12) s <| .next (done { s with d := { s.d with quiet := s.d.quiet.filter fun n => n != bits (rx s a) 13 0 } })

/-- `SUPV_REPLAY` (R423). -/
def execSupvReplay (a b : BitVec 6) (s : State) : Out :=
  let id := rx s a
  let x := rx s b
  let core := bits id 11 4
  let ch := bits id 3 0
  supv (0x7200000A#32 ||| fld a 12 ||| fld b 6) s <| .next <|
    match (if bits id 63 12 = 2 ^ 44 then findCmd (s.core core) ch x.toNat else none) with
    | none => trap s Cause.access x
    | some k =>
      if k.at' = .suspended then
        done (s.setCore core (editCmd (s.core core) ch k.id fun y => { y with at' := .flying }))
      else trap s Cause.access x

/-- A routine header keeps the limits of R267. -/
def headerGood (h : BitVec 256) : Bool :=
  decide (256 ≤ bits h 95 64) && decide (bits h 95 64 ≤ 16384) && decide (bits h 127 96 ≤ 256) && bits h 255 160 == 0

/-- The image of a routine whose header has been read (R423): as many words behind it as the header says, which is open (log 15). -/
def readImage (s : State) (a : Word) (h : BitVec 256) : Except Stop (Routine × State) :=
  match loadWords s (a + 32) 0 (Config.routineWords h) with
  | .error (.trap c _) => .error (.trap c a)
  | .error e => .error e
  | .ok (v, s) => .ok ({ header := h, image := h.toNat + 2 ^ 256 * v }, s)

/-- `SUPV_RTN` (R423): the image is read as one access, and an accepted routine extends M3 (R437). -/
def execSupvRtn (d a b : BitVec 6) (s : State) : Out :=
  let n : BitVec 5 := (rx s b).setWidth 5
  let busy := s.c.chans.toList.any fun k => k.cmds.any fun x => x.kind == .bodkin && x.at' != .queued && x.rtn.1 == n
  supv (0x7200000B#32 ||| fld d 18 ||| fld a 12 ||| fld b 6) s <|
    if busy then .next (await s .routine)
    else
      let img : Except Stop (Routine × State) := match loadRecord s (rx s a) 4 with
        | .error e => .error e
        | .ok (r, s) => readImage s (rx s a) (BitVec.ofNat 256 r)
      settle s <| img.map fun r =>
        let t := r.2
        if headerGood r.1.header then
          let c := { t.c with rtns := sput t.c.rtns n.toNat r.1 }
          wx { t with c := c, d := extendMeasure t.d 3 (sha256 r.1.image (32 + 8 * Config.routineWords r.1.header)) } d 0
        else wx t d 1

/-- `SUPV_SVCH` (R423). -/
def execSupvSvch (a b : BitVec 6) (s : State) : Out :=
    supv (0x7200000C#32 ||| fld a 12 ||| fld b 6) s <| .next (done { s with d := { s.d with svc := sset s.d.svc (bits (rx s a) 13 0) ((rx s b).setWidth 11) 0 } })

/-- `TIMER_EXPIRY` (R423): a timer that has reached zero sets TPEND and stops. -/
def execTimerExpiry (h : BitVec 11) (s : State) : Out :=
  .next <| onHart s h fun s =>
    match s.h.timerAt with
    | some n => if n ≤ s.d.cycle.toNat then { s with h := { s.h with timerAt := none, tpend := true } } else s
    | none => s

end Sys2Proof.Machine
end

