-- ==== Sys2Proof/Machine/Placer.lean ====
section
/-!
DEFINITION. The scheduler: dispatch order, count words, the placing, pre-empting and restoring of gangs, and the retirement of units
(28_work_hierarchy_scheduler.md, R396-R411; 02 R18; 32 R461, R462).
-/

namespace Sys2Proof.Machine

/-! ## The dispatch order (R403) -/

/-- The id of the node in a slot. -/
def idAt (slot : Nat) (n : Node) : BitVec 48 := n.gen ++ BitVec.ofNat 16 slot

/-- Effective priority (R403): `aged` is the count of whole spans of 2^20 cycles in the queue, fixed once a gang is placed. -/
def peff (n : Node) : Nat := min 3 (Rec.prio n.record + n.aged)

/-- Spans of 2^20 cycles that a queued launch has waited. -/
def spans (d : Device) (n : Node) : Nat := min 3 ((d.cycle.toNat - n.queuedAt) / 2 ^ 20)

/-- Every queued launch is as old as it is (R403). -/
def ageAll (d : Device) : Device :=
  { d with nodes := d.nodes.map fun e =>
      if e.2.kind = .launch ∧ e.2.state = .queued then (e.1, { e.2 with aged := max e.2.aged (spans d e.2) }) else e }

/-- Launch `a` stands before launch `b` in the dispatch order. -/
def ahead (a b : Nat × Node) : Bool :=
  if peff a.2 ≠ peff b.2 then decide (peff b.2 < peff a.2)
  else if a.2.queuedAt ≠ b.2.queuedAt then decide (a.2.queuedAt < b.2.queuedAt)
  else if a.2.creator ≠ b.2.creator then decide (a.2.creator < b.2.creator) else decide (a.1 < b.1)

/-- Gangs of a launch whose count is fixed. -/
def gangCount (n : Node) : Nat := (n.limit + Rec.gang n.record - 1) / Rec.gang n.record

/-- Units of gang `j` (R406). -/
def gangSize (n : Node) (j : Nat) : Nat := min (Rec.gang n.record) (n.limit - j * Rec.gang n.record)

/-- The saved units of a launch's lowest pre-empted gang (R410). -/
def savedGang (d : Device) (id : BitVec 48) : List (Nat × Hart) :=
  let l := d.saved.filter fun e => e.2.node == id
  match l.map (·.2.gang) with
  | [] => []
  | g :: t => let m := t.foldl min g; l.filter fun e => e.2.gang == m

/-- The checkpoint engine waits for the cut: no further unit of its job is placed; a pre-empted gang, whose units are live, returns and ends (R449). -/
def heldForCut (d : Device) (n : Node) : Bool :=
  d.ckpt.armed && n.job == d.ckpt.job.setWidth 48 && (liveNode d (d.ckpt.phase.setWidth 48)).isNone

/-- The launch is in the dispatch order: queued or placing with a gang to place, or with a gang to restore. -/
def inOrder (d : Device) (slot : Nat) (n : Node) : Bool :=
  n.kind == .launch && n.live && !n.cancelled && n.state != .gated &&
    (((n.state == .queued || n.state == .placing) && !heldForCut d n) || !(savedGang d (idAt slot n)).isEmpty)

/-- The count word of the launch has been taken (R404). -/
def dispatched (n : Node) : Bool := n.counter != 0

/-! ## Room (R18, R401, R407, R408) -/

/-- Harts of a core that hold a unit. -/
def unitsOn (s : State) (core : Nat) : List (BitVec 11) := (coreHarts core).filter fun i => (s.hart i).live

/-- No line of the cores' L1s is locked. -/
def unlocked (d : Device) (cs : List Nat) : Bool := !(d.l1.any fun e => ofCores cs e.1 && e.2.any fun l => !l.locks.isEmpty)

/-- The cores of a cluster. -/
def clusterCores (clu : Nat) : List Nat := (List.range 4).map fun i => clu * 4 + i

/-- The cluster can change its mode (R240, R408). -/
def clusterFree (s : State) (clu : Nat) : Bool := (clusterCores clu).all (fun k => (unitsOn s k).isEmpty) && unlocked s.d (clusterCores clu)

/-- More units of minimum `m` that a bobbin takes (R18). -/
def bobbinRoom (s : State) (core : Nat) (b : Bool) (m : Nat) : Nat :=
  let na := (s.core core).na.toNat
  let on := (unitsOn s core).filter fun i => onB i == b
  let used := (on.map fun i => (s.hart i).lgmin.toNat).sum
  let own := if b then 16 - na else na
  if m = 0 then 4 - on.length else min (4 - on.length) ((own - used) / m)

/-- Units may be placed on the core: it is in service and not about to leave (R442). -/
def placeable (d : Device) (core : Nat) : Bool := coreInService d core && !d.leaving.getLsbD (coreLayer core)

/-- More units of a record that a core takes (R401, R407, R408). -/
def coreRoom (s : State) (r : BitVec 512) (core : Nat) : Nat :=
  let empty := (unitsOn s core).isEmpty
  if !placeable s.d core || (s.core core).lease.isSome then 0
  else if fusedAt s.d core != Rec.fuse r && !clusterFree s (coreCluster core) then 0
  else if empty then coreCapacity (Rec.lgmin r)
  else if Rec.spad r ≠ 0 then 0
  else bobbinRoom s core false (Rec.lgmin r) + bobbinRoom s core true (Rec.lgmin r)

/-- More units of a record that an instance of its seam takes, on the cores that `ok` allows; a gang with a lease lies on one core. -/
def instanceRoom (s : State) (r : BitVec 512) (ok : Nat → Bool) (n : Nat) : Nat :=
  let l := ((instanceCores s.d (Rec.seam r) n).filter ok).map (coreRoom s r)
  if Rec.spad r ≠ 0 then l.foldl max 0 else l.sum

/-- The number of the gang of a launch that comes next: a saved one, or the next to place (R410). -/
def nextGangNo (d : Device) (id : BitVec 48) (n : Node) : Nat :=
  match savedGang d id with
  | [] => n.nextGang
  | e :: _ => e.2.gang

/-- A gang of a live launch is still to be placed, or to be restored (R405, R410). -/
def gangToCome (d : Device) (id : BitVec 48) (n : Node) (j : Nat) : Bool :=
  n.kind == .launch && !n.cancelled &&
    (((n.state == .queued || n.state == .placing) && decide (n.nextGang ≤ j)) || d.saved.any fun e => e.2.node == id && e.2.gang == j)

/-- The launch of a reservation, as long as it still has the reserving gang to place (R405). -/
def Resv.launch (r : Resv) (d : Device) : Option Node := (liveNode d r.node).filter fun n => gangToCome d r.node n r.gang

/-- The reservations that stand, each with its launch (R405): the instance is in service. -/
def standing (d : Device) : List (Resv × Node) :=
  d.resv.filterMap fun r => ((r.launch d).filter fun n => !(instanceCores d (Rec.seam n.record) r.inst).isEmpty).map fun n => (r, n)

/-- The core lies in the reserved instance (R405). -/
def reservedCore (r : Resv × Node) (core : Nat) : Bool := instanceOf (Rec.seam r.2.record) core == r.1.inst

/-- A launch may use the core: it is not reserved for one before it (R405). The reserving launch itself may use any (log 16). -/
def mayUse (d : Device) (e : Nat × Node) (core : Nat) : Bool :=
  (standing d).all fun r => r.1.node == idAt e.1 e.2 || !ahead (bits r.1.node 15 0, r.2) e || !reservedCore r core

/-- Size of the gang that comes next: a saved one, or the next to place. -/
def nextSize (d : Device) (e : Nat × Node) : Nat :=
  let l := savedGang d (idAt e.1 e.2)
  if l.isEmpty then gangSize e.2 e.2.nextGang else l.length

/-- The next gang of a launch fits some instance of its seam (R405, R407). -/
def fits (s : State) (e : Nat × Node) : Bool :=
  (List.range (instanceCount (Rec.seam e.2.record))).any fun n =>
    decide (nextSize s.d e ≤ instanceRoom s e.2.record (mayUse s.d e) n)

/-- The placer, working down the order, has reached the launch (R405): each one before it has its count and no next gang that fits. -/
def reached (s : State) (e : Nat × Node) : Bool :=
  s.d.nodes.all fun f => !(inOrder s.d f.1 f.2 && ahead f e) || (dispatched f.2 && !fits s f)

/-- Free hart slots of an instance. -/
def freeSlots (s : State) (sc n : Nat) : Nat := ((instanceCores s.d sc n).map fun k => 8 - (unitsOn s k).length).sum

/-- The instance in service with the most free slots, the lowest-numbered of equals (R405). -/
def instanceToReserve (s : State) (sc : Nat) : Option Nat :=
  let ns := (List.range (instanceCount sc)).filter fun n => !(instanceCores s.d sc n).isEmpty
  ns.foldl (fun b n => match b with
    | none => some n
    | some m => if freeSlots s sc m < freeSlots s sc n then some n else some m) none

/-- The first launch of the order, among those with their count, whose next gang does not fit. -/
def firstStuck (s : State) : Option (Nat × Node) :=
  (s.d.nodes.filter fun e => inOrder s.d e.1 e.2 && dispatched e.2 && !fits s e).foldl (fun b e => match b with
    | none => some e
    | some f => if ahead e f then some e else some f) none

/-- A launch reserves an instance for its next gang now, where its seam has one in service (R405). -/
def reserve (s : State) (e : Nat × Node) : List Resv :=
  (instanceToReserve s (Rec.seam e.2.record)).toList.map fun n =>
    { node := idAt e.1 e.2, gang := nextGangNo s.d (idAt e.1 e.2) e.2, inst := n, since := s.d.cycle.toNat }

/-- The placer brings its reservations up to date (R405): those that stand stay, one whose instance has left service moves, and the first launch
of the order whose next gang does not fit has one. -/
def updateResv (s : State) : State :=
  let l := s.d.resv.flatMap fun r =>
    match r.launch s.d with
    | none => []
    | some n => if (instanceCores s.d (Rec.seam n.record) r.inst).isEmpty then reserve s (bits r.node 15 0, n) else [r]
  let s := { s with d := { s.d with resv := l } }
  match firstStuck s with
  | none => s
  | some e => if l.any fun r => r.node == idAt e.1 e.2 then s else { s with d := { s.d with resv := l ++ reserve s e } }

/-! ## Dispatch, gates and ageing -/

/-- The size of the largest gang of a launch that is still to be placed or restored; before a count word is taken it may be a whole gang (R404, R406). -/
def largestGang (d : Device) (id : BitVec 48) (n : Node) : Nat :=
  let count := if dispatched n then n.limit else if Rec.cw n.record then n.nextGang * Rec.gang n.record + Rec.gang n.record else Rec.count n.record
  let next := if n.state = .running then 0 else gangSize { n with limit := count } n.nextGang
  ((d.saved.filter fun e => e.2.node == id).map fun e => gangSize n e.2.gang).foldl max next

/-- Some instance can still hold every gang that the launch has still to place (R405). -/
def gangFits (d : Device) (id : BitVec 48) (n : Node) : Bool :=
  decide (largestGang d id n ≤ bestInstance d (Rec.seam n.record) * coreCapacity (Rec.lgmin n.record))

/-- Queued and placing launches, and those with a gang to restore, whose gangs no instance can hold any more stop placing, with status 2 (R405; log 16). -/
def dropUnplaceable (s : State) : State :=
  s.d.nodes.foldl (fun s e =>
    let n := e.2
    let id := idAt e.1 n
    if n.kind = .launch ∧ (n.state = .queued ∨ n.state = .placing ∨ !(savedGang s.d id).isEmpty) ∧
        !gangFits s.d id n then
      (match liveNode s.d id with
       | some _ => stopPlacing s id 2
       | none => s)
    else s) s

/-- The unit count of a launch (R404), read as a package-scope load-acquire, which a page that asks for a wider scope refuses (R362, R363): none where the
count word cannot be read; no answer while its HBM stack is under repair (R442). -/
def takeCount (s : State) (n : Node) : Option (Option Nat × State) :=
  if !Rec.cw n.record then some (some (Rec.count n.record), s)
  else
    match placeUnder s n.asid n.ptroot false .load (Rec.countw n.record) 4 with
    | .ok (.mem pa leaf, t) => some (if homePoisoned t.d pa 4 || scopeRefused leaf 6 then none else some (Memory.read t.d.mem pa 4), t)
    | .error (.wait _) => none
    | _ => some (none, s)

/-- `LAUNCH_DISPATCH` (R404): the launch heads the order and its count is taken. -/
def execLaunchDispatch (n : BitVec 48) (s : State) : Out :=
  .next <|
    match liveNode s.d n with
    | none => s
    | some nd =>
      if nd.kind = .launch ∧ nd.state = .queued ∧ !dispatched nd ∧ !nd.cancelled ∧ reached (updateResv s) (bits n 15 0, nd) then
        match takeCount s nd with
        | none => s
        | some (none, t) => stopPlacing t n 3
        | some (some 0, t) => { t with d := completeNode t.d n 5 }
        | some (some c, t) => updateResv { t with d := editNode t.d n fun x => { x with counter := c, limit := c } }
      else s

/-- The value of a launch's gate counter (R414). -/
def gateValue (s : State) (n : Node) (id : Word) : Word :=
  match n.gateLast, n.gateUnit with
  | some v, _ => v
  | none, some (l, u) => (unitGs s l u).getD 0
  | none, none => (counterOf s 0 id).getD 0

/-- What the signals of a gate's counter carried (R339, R343; log 43). -/
def gateClock (d : Device) (id : Word) : Vector Nat 16 := if generalId id then d.ctrClock (bits id 15 0) else Vector.replicate 16 0

/-- `GATE_OPEN` (R403, R414): a gated launch whose counter has reached its value is queued; one whose gangs no instance can hold any more then stops, with
status 2 (R405). -/
def execGateOpen (n : BitVec 48) (s : State) : Out :=
  .next <|
    match liveNode s.d n with
    | none => s
    | some nd =>
      match nd.gate with
      | none => s
      | some (id, v) =>
        if nd.state = .gated ∧ v.toNat ≤ (gateValue s nd id).toNat then
          let t := { s with d := editNode s.d n fun x =>
            { x with state := .queued, queuedAt := s.d.cycle.toNat, clock := clockMerge x.clock (gateClock s.d id) } }
          if !gangFits t.d n nd then stopPlacing t n 2 else t
        else s

/-- `PRIORITY_AGING` (R403). -/
def execPriorityAging (n : BitVec 48) (s : State) : Out :=
  .next { s with d := editNode s.d n fun x => if x.kind = .launch ∧ x.state = .queued then { x with aged := max x.aged (spans s.d x) } else x }

/-! ## Placement (R400-R402, R406) -/

/-- No entry twice. -/
def distinct (l : List (BitVec 11)) : Bool :=
  match l with
  | [] => true
  | a :: t => !t.contains a && distinct t

/-- LPART of empty cores as the placer sets it (R407, R461). -/
def setLparts (s : State) (l : List (BitVec 8 × BitVec 5)) : State :=
  l.foldl (fun s e =>
    if (unitsOn s e.1.toNat).isEmpty ∧ e.2.toNat ≤ 16 then s.setCore e.1.toNat { s.core e.1.toNat with na := e.2 } else s) s

/-- The slots can take units of minimum `m` (R18, R401, R406, R408): free, in service, in one instance of the seam, one core for a lease,
in clusters of the right mode, and with lane groups for every minimum on each bobbin. -/
def slotsFit (s : State) (e : Nat × Node) (l : List (BitVec 11)) : Bool :=
  let r := e.2.record
  let m := Rec.lgmin r
  let core0 := coreOf (l.headD 0)
  distinct l &&
    l.all fun i =>
      let k := coreOf i
      let b := onB i
      let mine := (l.filter fun j => coreOf j == k && onB j == b).length
      !(s.hart i).live && !(s.hart i).halted && placeable s.d k && (s.core k).lease.isNone &&
        instanceOf (Rec.seam r) k == instanceOf (Rec.seam r) core0 && (Rec.spad r == 0 || (k == core0 && (unitsOn s k).isEmpty)) &&
        fusedAt s.d k == Rec.fuse r && mayUse s.d e k && decide (mine * m + (((unitsOn s k).filter fun j => onB j == b).map fun j =>
          (s.hart j).lgmin.toNat).sum ≤ (if b then 16 - (s.core k).na.toNat else (s.core k).na.toNat))

/-- The start of a lease on the core (R401, R402): tables empty, channels reset once they hold no command, ports free, the reservation zeroed. What the
commands of the previous holder still do touches no swatch, no barrier object, no port and no scratchpad of the new one's: their streams are discarded,
and what they would land in scratchpad is dropped (log 16). -/
def startLease (c : Core) (owner : BitVec 48 × Nat) (off size : Nat) : Core :=
  let c := { c with
    lease := some owner, pats := [], sws := Vector.replicate 64 0,
    chans := c.chans.map fun k => resetChan { k with resetDue := true, cmds := k.cmds.map fun x => { x with sw := none, bar := none, stale := true } },
    spad := c.spad.filter fun e => !(decide (off ≤ e.1) && decide (e.1 < off + size)),
    spoison := c.spoison.filter fun e => !(decide (off / 64 ≤ e.1) && decide (e.1 < (off + size) / 64)) }
  (List.range 8).foldl (fun c p =>
    let p : Fin 8 := Fin.ofNat 8 p
    let v := vport c p
    if v.occ.isNone then setVport c p VPort.reset else settlePort (setVport c p { v with claim := none, read := true }) p) c

/-- The layer of a core learns a clock (R343). -/
def learn (d : Device) (core : Nat) (clock : Vector Nat 16) : Device :=
  let k := lay (coreLayer core)
  { d with lclock := d.lclock.set k (clockMerge d.lclock[k] clock) }

/-- A unit starts on a hart slot (R400): its registers, each other one at the reset value of its map (R29, R149), the slot's save area as it is (R164), its
timer armed by the runtime at the interval that it chose (R423), then a package-scope acquire, behind what its `LAUNCH` followed (R339, R340; log 43). -/
def startUnit (s : State) (n : Node) (id : BitVec 48) (gang : Nat) (resv : Word) (u : Nat) (p : PlacedUnit) : State :=
  let r := n.record
  let old := s.hart p.slot
  let x := (((Vector.replicate 64 (0 : Word)).set 2 p.sp).set 3 (Rec.args r)).set 4 resv
  let h : Hart := { Hart.reset with
    timerInt := p.timer, timerAt := some (s.d.cycle.toNat + p.timer.toNat), carea := old.carea, live := true, pc := Rec.entry r, x := x, tbase := p.tbase &&& ~~~63#64, lgmin := BitVec.ofNat 5 (Rec.lgmin r), lgmax := BitVec.ofNat 5 (Rec.lgmax r),
    asid := n.asid, ptroot := n.ptroot, unit := BitVec.ofNat 32 u, node := id, gang := gang, lockq := Rec.lockq r,
    placedAt := s.d.cycle.toNat }
  let s := s.setHart p.slot h
  { s with d := acquire (learn s.d (coreOf p.slot) n.clock) (coreOf p.slot) 6 }

/-- The units of a list start, from unit `u` up. -/
def startUnits (n : Node) (id : BitVec 48) (gang : Nat) (resv : Word) : Nat → List PlacedUnit → State → State
  | _, [], s => s
  | u, p :: l, s => startUnits n id gang resv (u + 1) l (startUnit s n id gang resv u p)

/-- Units of the gang of a hart. -/
def gangOf (s : State) (h : Hart) : List (BitVec 11) := s.liveHarts.filter fun i => (s.hart i).node == h.node && (s.hart i).gang == h.gang

/-- The handler of PREEMPT that runs on the hart has saved the context (R410); a hart that a handler fault stopped keeps its slot (R459). -/
def preempted (h : Hart) : Bool := !h.halted && h.prv && h.cause == Cause.preempt && h.csaved && h.region.isNone && h.remote == 0

/-- Locks held under one number stand under another. -/
def moveLocks (d : Device) (a b : Nat) : Device :=
  { d with l1 := d.l1.map fun e => (e.1, e.2.map fun l => { l with locks := l.locks.map fun i => if i = a then b else i }) }

/-- The context of the unit on a slot as `SUPV.crest` will restore it from the slot's save area (R165, R167): the lane groups it held are numbered from 0.
None where the area cannot be read. -/
def contextOf (s : State) (i : BitVec 11) : Option Hart :=
  let t := focus s i
  match savedGrant t with
  | .error _ => none
  | .ok (want, t) =>
    match restoreContext t want with
    | .error _ => none
    | .ok t => some { t.h with gmap := BitVec.ofNat 16 (2 ^ want - 1) }

/-- A pre-empted gang leaves its slots once each of its units is saved (R166, R410). -/
def leaveSlots (s : State) : State :=
  (s.liveHarts.filter fun i => (gangOf s (s.hart i)).all fun j => preempted (s.hart j) && (contextOf s j).isSome).foldl (fun s i =>
    let h := s.hart i
    let c := s.core (coreOf i)
    let u := (contextOf s i).getD h
    let s := s.setCore (coreOf i) (leaveQueues c i)
    let s := s.setHart i (emptySlot h)
    { s with d := { moveLocks s.d i.toNat (savedKey h) with saved := s.d.saved ++ [(coreOf i, u)] } }) s

/-- The page of an address is mapped with R, W and U in a launch's address space. -/
def stackPage (s : State) (n : Node) (va : Word) : Bool :=
  match walk s.d 0 n.ptroot (bits va 55 0) with
  | (.leaf e _, _) => canonical va && bit e 1 && bit e 2 && bit e 4
  | _ => false

/-- The stack that ends at `sp` (R400): a multiple of 16 at the top of 64 KiB that lie on pages mapped with R, W and U. -/
def stackOk (s : State) (n : Node) (sp : Word) : Bool :=
  sp.toNat % 16 == 0 && stackPage s n (sp - 65536) && stackPage s n (sp - 1)

/-- `GANG_PLACEMENT` (R400-R402, R405, R406): the next gang of a launch is placed whole, on the slots that the placer chose (R461). -/
def execGangPlacement (p : Placement) (s : State) : Out :=
  .next <|
    match liveNode s.d p.node with
    | none => s
    | some nd =>
      let e := (bits p.node 15 0, nd)
      let r := nd.record
      let t := updateResv (setLparts (leaveSlots s) p.lparts)
      let size := roundPage (Rec.gang r * Rec.spad r)
      if inOrder t.d e.1 nd && dispatched nd && (nd.state == .queued || nd.state == .placing) && (savedGang t.d p.node).isEmpty &&
          p.gang == nd.nextGang && p.units.length == gangSize nd p.gang && (p.units.all fun u => stackOk s nd u.sp && u.timer != 0) &&
          reached t e && slotsFit t e (p.units.map (·.slot)) &&
          (size == 0 || (p.resv.toNat % 4096 == 0 && decide (p.resv.toNat + size ≤ 0xC0000))) then
        let core := coreOf ((p.units.map (·.slot)).headD 0)
        let t := if size = 0 then t else t.setCore core (startLease (t.core core) (p.node, p.gang) p.resv.toNat size)
        let resv : Word := if size = 0 then 0 else p.resv.setWidth 64
        let t := startUnits nd p.node p.gang resv (p.gang * Rec.gang r) p.units t
        let d := editNode t.d p.node fun x =>
          { x with nextGang := x.nextGang + 1,
                   state := if x.nextGang + 1 = gangCount x then .running else .placing }
        updateResv { t with d := d }
      else s

/-! ## Pre-emption (R410) -/

/-- A gang's rank for pre-emption: base priority, then the cycle it was placed. -/
def preemptBefore (s : State) (a b : BitVec 11) : Bool :=
  let prio (i : BitVec 11) : Nat := match nodeAt s.d (s.hart i).node with
    | some n => Rec.prio n.record
    | none => 0
  decide (prio a < prio b) || (prio a == prio b && decide ((s.hart b).placedAt ≤ (s.hart a).placedAt))

/-- The hart's gang may be pre-empted for a reservation: base priority below the reserving launch's effective one, no lease, with a unit in the reserved
instance. -/
def preemptable (s : State) (r : Resv × Node) (i : BitVec 11) : Bool :=
  ((gangOf s (s.hart i)).any fun j => reservedCore r (coreOf j)) && (s.core (coreOf i)).lease.isNone &&
    match nodeAt s.d (s.hart i).node with
    | some n => decide (Rec.prio n.record < peff r.2)
    | none => false

/-- The state once some harts have left their slots. -/
def without (s : State) (hs : List (BitVec 11)) : State := hs.foldl (fun s i => s.setHart i { s.hart i with live := false }) s

/-- The reserving gang fits the reserved instance (R407, R410). -/
def reservedRoom (s : State) (r : Resv × Node) : Bool := decide (gangSize r.2 r.1.gang ≤ instanceRoom s r.2.record (fun _ => true) r.1.inst)

/-- The harts are the gangs that are chosen for a reservation that has stood for 2^20 cycles (R410): lowest base priority first, most recently placed first,
and no more than the reserving gang needs. -/
def chosenFor (s : State) (hs : List (BitVec 11)) (r : Resv × Node) : Bool :=
  let cands := s.liveHarts.filter (preemptable s r)
  let but := match hs.find? fun i => hs.all fun j => preemptBefore s j i with
    | some i => hs.filter fun j => !(gangOf s (s.hart i)).contains j
    | none => []
  decide (r.1.since + 2 ^ 20 ≤ s.d.cycle.toNat) && !reservedRoom s r && distinct hs &&
    (hs.all fun i => cands.contains i && (gangOf s (s.hart i)).all fun j => hs.contains j) &&
    (hs.all fun i => cands.all fun j => hs.contains j || preemptBefore s i j) && reservedRoom (without s hs) r && !reservedRoom (without s but) r

/-- `RESERVATION_PREEMPT` (R405, R410): the placer brings its reservations up to date, and PREEMPT is raised on the units of the gangs that are chosen
for one. -/
def execReservationPreempt (hs : List (BitVec 11)) (s : State) : Out :=
  .next <|
    let s := updateResv s
    if (standing s.d).any (chosenFor s hs) then hs.foldl (fun s i => s.setHart i { s.hart i with ppend := true }) s else s

/-- A saved unit goes on in a slot (R167, R410): its context, with as many lane groups as it held, and the handler left. The slot keeps its timer, its
save area, its pending interrupts and the enables of `STATUS`, as `SUPV.crest` restores none of them. -/
def restoreUnit (s : State) (e : Nat × Hart) (p : PlacedUnit) : State :=
  let h := e.2
  let old := s.hart p.slot
  let core := coreOf p.slot
  let free := freeGroups s core (onB p.slot)
  let h' : Hart := { h with
    gmap := addLowest 0 free h.g, tbase := p.tbase &&& ~~~63#64, timerInt := old.timerInt, timerAt := old.timerAt, carea := old.carea, ext := old.ext, tpend := old.tpend,
    ten := old.ten, een := old.een, pen := old.pen, live := true, lane := none, region := none, stop := none, upTo := none,
    prv := h.pprv, ie := h.pie, pie := false, pc := h.epc, ppend := false, csaved := false, wait := none, resumed := h.vstart != 0,
    early := [], placedAt := s.d.cycle.toNat }
  let s := s.setHart p.slot h'
  let d := if e.1 = core then moveLocks s.d (savedKey h) p.slot.toNat else unlockKey s.d (savedKey h)
  { s with d := acquire d core 6 }

/-- The unit's `VLDS` claims a command of the core it was saved on (R279). -/
def claims (s : State) (e : Nat × Hart) : Bool := (s.core e.1).vports.toList.any fun v => v.claim == some (e.2.node, e.2.unit)

/-- Each slot has the lane groups its unit held, and a unit that claims a command returns to its own core (R167, R279). -/
def groupsFree (s : State) : List ((Nat × Hart) × PlacedUnit) → Bool
  | [] => true
  | (h, p) :: l => decide (h.2.g ≤ (freeGroups s (coreOf p.slot) (onB p.slot)).length) && (!claims s h || coreOf p.slot == h.1) &&
      groupsFree (restoreUnit s h p) l

/-- `GANG_RESTORE` (R410): a pre-empted gang is restored whole, ahead of every other gang of its launch, on the slots that the placer chose. -/
def execGangRestore (p : Placement) (s : State) : Out :=
  .next <|
    match liveNode s.d p.node with
    | none => s
    | some nd =>
      let s1 := leaveSlots s
      let hs := savedGang s1.d p.node
      let t := updateResv (setLparts s1 p.lparts)
      let e := (bits p.node 15 0, nd)
      let l := hs.zip p.units
      if !hs.isEmpty && hs.length == p.units.length && (hs.all fun h => h.2.gang == p.gang) && inOrder t.d e.1 nd && reached t e &&
          slotsFit t e (p.units.map (·.slot)) && groupsFree t l then
        let t := l.foldl (fun t u => restoreUnit t u.1 u.2) t
        updateResv { t with d := { t.d with saved := t.d.saved.filter fun e => !(e.2.node == p.node && e.2.gang == p.gang) } }
      else s

/-! ## Units that end, and cluster modes -/

/-- `UNIT_CANCEL_STOP` (R409): a cancelled unit stops at its boundary and retires unsaved. -/
def execUnitCancelStop (h : BitVec 11) (s : State) : Out :=
  .next <| onHart s h fun s => if s.h.live && s.h.cancelled && !heldByRemote s.h then retireUnit s 1 else s

/-- `RUNTIME_RETIRE` (R462): the runtime retires a unit whose synchronous trap it cannot resume, after a package-scope release on its behalf; a hart
stopped by a handler fault runs no handler, and its unit stays placed (R459). -/
def execRuntimeRetire (h : BitVec 11) (s : State) : Out :=
  .next <| onHart s h fun s => if s.h.live && !s.h.halted && s.h.prv && decide (s.h.cause.toNat < 0x10) then retireUnit (s.release 6) 4 else s

/-- `CLUSTER_MODE_CHANGE` (R240, R408): an empty cluster without locked lines writes back and drops every line. -/
def execClusterModeChange (clu : BitVec 6) (fused : BitVec 1) (s : State) : Out :=
  .next <|
    if clusterFree s clu.toNat ∧ s.d.fused.getLsbD clu.toNat ≠ (fused == 1) then
      let d := cleanLines s.d fun q _ => (clusterCores clu.toNat).contains q
      let d := { d with l1 := d.l1.filter fun e => !ofCores (clusterCores clu.toNat) e.1 }
      { s with d := { d with fused := putBits d.fused clu.toNat fused } }
    else s

end Sys2Proof.Machine
end

