-- ==== Sys2Proof/Machine/Health.lean ====
section
/-!
DEFINITION. What the device does on its own: evictions, held writes, errors, telemetry, power, blocks that leave and return, and reset
(21_seams_consistency.md R333, R343; 30_host_fabric_bringup.md R442-R448; 02 R16).
-/

namespace Sys2Proof.Machine

/-! ## Lines and held writes -/

/-- `L1_EVICTION` (R239, R333): an unlocked line of the L1 of `core` leaves, its dirty sectors written back. -/
def execL1Eviction (core : BitVec 8) (line : BitVec 52) (s : State) : Out :=
  .next <|
    let q := core.toNat
    let key := setKey s.d q (line.toNat * 128)
    match lineOf (sget s.d.l1 key []) line.toNat with
    | none => s
    | some l =>
      if l.locks.isEmpty then
        let d := writeBack s.d q l
        { s with d := { d with l1 := sput d.l1 key ((sget d.l1 key []).filter fun x => x.tag != l.tag) } }
      else s

/-- `HOME_HOLD_RELEASE` (R237, R343): a home applies a write-back that it holds, whole, once it has applied every write to itself that the write's clock covers. -/
def execHomeHoldRelease (n : Nat) (s : State) : Out :=
  .next <|
    match s.d.held[n]? with
    | none => s
    | some w =>
      let rest := s.d.held.eraseIdx n
      if rest.any fun o => o.home s.d == w.home s.d && covers w.clock o then s
      else { s with d := applyOne { s.d with held := rest } w }

/-- `LPART_STALL_END` (R16): a stalled `LPART` write takes effect once no lane group that it moves is granted. -/
def execLpartStallEnd (h : BitVec 11) (s : State) : Out :=
  .next <| onHart s h fun s =>
    match s.c.lpstall.find? fun e => e.1 == s.hid with
    | none => s
    | some (_, na) =>
      if lpartBlocked s na.toNat then s
      else if s.h.wait = some .lpart then
        match fetch s s.h.pc with
        | .error _ => s
        | .ok (w, t) =>
          let f : Option (Word → Word) := match bits w 11 10 with
            | 1 => some fun _ => rx t (seg w 12 6)
            | 2 => some fun o => o ||| rx t (seg w 12 6)
            | 3 => some fun o => o &&& ~~~rx t (seg w 12 6)
            | _ => none
          if seg w 24 8 ≠ 0x19 then s
          else match csrOp w (seg w 18 6) (seg w 0 10) f t with
            | .next u => u
            | _ => s
      else { s with c := { s.c with na := na, lpstall := s.c.lpstall.filter fun e => e.1 != s.hid } }

/-! ## Errors (R446-R448) -/

/-- CORE of a log entry: none for L2 and HBM (R447). -/
def logCore (blk core : Nat) : Nat := if blk = 2 ∨ blk = 3 then 0xFFFF else core

/-- ADDR of a log entry: a scratchpad offset has bit 63 set (R447). -/
def logAddr (blk : Nat) (a : Word) : Word := if blk = 0 then a ||| (1#64 <<< 63) else a

/-- `CORRECTED_ERROR` (R446). -/
def execCorrectedError (blk core : BitVec 8) (a : BitVec 64) (s : State) : Out :=
  .next <|
    if 5 ≤ blk.toNat then s
    else
      let i := blk.toNat
      let n := (s.d.ccount.toList.getD i 0).toNat
      let n' := min (n + 1) (2 ^ 32 - 1)
      let th := (s.d.cthresh.toList.getD i 0).toNat
      let d := logEvent { s.d with ccount := s.d.ccount.setIfInBounds i (BitVec.ofNat 32 n') } (logAddr i a) (logCore i core.toNat) i 0
      let s := { s with d := d }
      if th ≠ 0 ∧ n' = th ∧ n ≠ n' then raiseSource s 2 else s

/-- An uncorrected error in a hart's registers or queue entries: `ACCESS` at P with all ones in `TVAL` (R446). -/
def registerError (s : State) : State :=
  if !s.h.live || s.h.halted then s
  else
    match s.h.region with
    | some r => regionTrap s r 0 0xFFFF Cause.access (BitVec.allOnes 64)
    | none => enterTrap (undoConvoy s) Cause.access (BitVec.allOnes 64)

/-- Poison a sector of a line that an L1 holds (R446). -/
def poisonLine (d : Device) (core pa : Nat) : Device :=
  editLine d (setKey d core pa) (pa / 128) fun l => { l with poison := sput l.poison (pa % 128 / 32) 0 }

/-- The hart in focus is about to start a matrix word that reads scratchpad row `n` (R319): the word. -/
def readsRow (s : State) (n : Nat) : Option Insn :=
  if !s.h.live || s.h.halted || s.h.region.isSome || (nextInterrupt s.h).isSome then none
  else
    match fetch s s.h.pc with
    | .error _ => none
    | .ok (w, t) =>
      match matrixWord w t with
      | some (.next u) =>
        let bad := { t with c := { t.c with spoison := sput t.c.spoison n 0 } }
        if u.h.pc == t.h.pc + 4 && (match matrixWord w bad with
          | some (.next v) => v.h.cause == Cause.access && v.h.tval == BitVec.ofNat 64 (0xFFFFFFFFFFF00000 + 64 * n) && v.h.pc == v.h.tbase
          | _ => false) then some w else none
      | _ => none

/-- The error arises while the hart's matrix word reads the row (R319): the word completes with its flags and with its tile writes discarded (R307),
and the hart raises `ACCESS` after it. -/
def hurtMatrix (w : Insn) (s : State) : State :=
  match matrixWord w s with
  | some (.next u) => registerError { u with h := { u.h with mx := s.h.mx, vdirty := s.h.vdirty } }
  | _ => s

/-- Each hart of a core whose next word is a matrix word that reads row `n` may have started it when the row becomes poisoned: whether it had is open (R319, log 9). -/
def hurtReaders (s : State) (core n : Nat) : State :=
  (coreHarts core).foldl (init := s) fun s i =>
    onHart s i fun s =>
      match readsRow s n with
      | none => s
      | some w =>
        let (k, s) := s.draw
        if Config.freeBool k then hurtMatrix w s else s

/-- What an uncorrected error of block `blk` damages at address `a` (R446): a scratchpad row, a sector in an L1 or at its home, or the registers of hart `a`. -/
def damage (s : State) (blk : Nat) (core : BitVec 8) (a : Word) : State :=
  let n := a.toNat
  match blk with
  | 0 =>
    if n < 0xC0000 then
      let s := hurtReaders s core.toNat (n / 64)
      let c := s.core core.toNat
      s.setCore core.toNat { c with spoison := sput c.spoison (n / 64) 0 }
    else s
  | 1 => { s with d := poisonLine s.d core.toNat n }
  | 4 => onHart s (core ++ (a.setWidth 3 : BitVec 3)) registerError
  | _ => if inHbm n then { s with d := { s.d with poison := sput s.d.poison (n / 32) 0 } } else s

/-- `UNCORRECTED_ERROR` (R446). -/
def execUncorrectedError (blk core : BitVec 8) (a : BitVec 64) (s : State) : Out :=
  .next <|
    if 5 ≤ blk.toNat then s
    else
      let i := blk.toNat
      let s := damage s i core a
      raiseSource { s with d := logEvent s.d (logAddr i a) (logCore i core.toNat) i 1 } 3

/-- `VALID_WRITE` (R448); stage 0 does not serve it (R438). -/
def execValidWrite (n : BitVec 10) (s : State) : Out := .next (if s.d.stage = 0 then s else { s with d := freeLogEntry s.d n.toNat })

/-- `CCOUNT_WRITE` (R448); stage 0 does not serve it (R438). -/
def execCcountWrite (n : BitVec 3) (s : State) : Out :=
  .next (if n.toNat < 5 ∧ s.d.stage ≠ 0 then { s with d := { s.d with ccount := s.d.ccount.setIfInBounds n.toNat 0 } } else s)

/-! ## Power (R432, R443-R445) -/

/-- Telemetry entries of blocks, by offset, with whether the block is in service (R444). -/
def teleEntries (d : Device) : List (Nat × Bool) :=
  (List.range 16).map (fun n => (0x100 + 8 * n, !d.layersOut.getLsbD n && (decide (3 ≤ d.stage.toNat) || decide (n < 8)))) ++
    (List.range 12).map (fun n => (0x200 + 8 * n, !d.stacksOut.getLsbD n)) ++ [(0x300, true)]

/-- A measured value of an entry, open here; a block out of service reports 0 (R444; log 9). -/
def measure (s : State) (e : Nat × Bool) : State :=
  let (n, s) := s.draw
  let v := if e.2 then Config.freeWord n &&& 0xFFFFFFFF0000FFFF#64 else 0
  { s with d := { s.d with tele := sset s.d.tele e.1 v 0 } }

/-- TEMP of the telemetry entry at an offset (R444). -/
def tempOf (d : Device) (o : Nat) : BitVec 16 := (sget d.tele o 0).extractLsb' 0 16

/-- The highest temperature of all blocks in service (R444). -/
def hottest (d : Device) : BitVec 16 :=
  ((teleEntries d).filter fun e => e.2).foldl (fun m e => if m.slt (tempOf d e.1) then tempOf d e.1 else m) (tempOf d 0x300)

/-- `TELEMETRY_UPDATE` (R444): every entry takes a measured value, the package's its input power and the highest temperature of all blocks, and SEQ
rises. -/
def execTelemetryUpdate (s : State) : Out :=
  .next <|
    let s := measure ((teleEntries s.d).foldl measure s) (0x008, true)
    let v := putBits (sget s.d.tele 0x008 0) 0 (hottest s.d)
    { s with d := { s.d with tele := sset s.d.tele 0x008 v 0, seq := s.d.seq + 1 } }

/-- `THROTTLE_ALERT` (R432): block `blk` has been throttled for 2^20 cycles; throttling changes no result (R443). -/
def execThrottleAlert (_blk : BitVec 8) (s : State) : Out := .next (raiseSource s 5)

/-- `TRIP_NEAR_WARNING` (R432). -/
def execTripNearWarning (s : State) : Out := .next (raiseSource s 8)

/-- The device after a reset (R435): what is fused stays, and so do the schedule and the draw counter of the model. -/
def resetKeeping (s : State) : State :=
  { State.reset with
    turns := s.turns, free := s.free,
    d := { Device.reset with rev := s.d.rev, serial := s.d.serial, cert := s.d.cert, clen := s.d.clen } }

/-- `ELECTRICAL_TRIP` (R445): device memory and all running work are lost, and no clock runs until the device is reset. -/
def execElectricalTrip (s : State) : Out :=
  .next <|
    let t := resetKeeping s
    { t with d := { t.d with trip := true, stage := s.d.stage } }

/-- `DEVICE_RESET` (R435). -/
def execDeviceReset (s : State) : Out := .next (resetKeeping s)

/-! ## Blocks (R442) -/

/-- The die layers of a block: a chiplet (0) or a die layer (1). -/
def blockLayers (kind n : Nat) : List Nat :=
  if kind = 0 ∧ n < 8 then [2 * n, 2 * n + 1] else if kind = 1 ∧ n < 16 then [n] else []

/-- No unit is placed on the layers. -/
def layersEmpty (s : State) (ls : List Nat) : Bool := s.liveHarts.all fun i => !ls.contains (layerOf i)

/-- The homes of a layer are served by `k` from now on: what had been applied there has been applied here (R442). -/
def carryHome (d : Device) (n k : Nat) : Device :=
  { d with hclock := d.hclock.set (lay k) (clockMerge d.hclock[lay k] d.hclock[lay n]) }

/-- The layer that serves the homes of layer `n` (R442). -/
def servedBy (out : BitVec 16) (n : Nat) : Nat := firstInService out n (List.range 16)

/-- Before layers leave (R442): nothing more is placed there, and the gangs there that hold no lease are pre-empted. -/
def drainLayers (s : State) (ls : List Nat) : State :=
  let s := { s with d := { s.d with leaving := ls.foldl (fun m l => m ||| (1#16 <<< l)) s.d.leaving } }
  (s.liveHarts.filter fun i => (s.core (coreOf i)).lease.isNone && (gangOf s (s.hart i)).any fun j => ls.contains (layerOf j)).foldl
    (fun s i => s.setHart i { s.hart i with ppend := true }) s

/-- `BLOCK_LEAVE_SERVICE` (R442): an HBM stack (2) goes under repair; a chiplet (0) or die layer (1) is emptied, and leaves once it holds no unit. -/
def execBlockLeaveService (kind : BitVec 2) (n : BitVec 5) (s : State) : Out :=
  .next <|
    if kind = 2 then
      (if n.toNat < 12 then { s with d := { s.d with stacksOut := s.d.stacksOut ||| (1#12 <<< n.toNat) } } else s)
    else
      let ls := blockLayers kind.toNat n.toNat
      let out := ls.foldl (fun m l => m ||| (1#16 <<< l)) s.d.layersOut
      if ls.isEmpty ∨ out = s.d.layersOut ∨ out = BitVec.allOnes 16 then s
      else if !layersEmpty s ls then drainLayers s ls
      else
        let cs := (List.range 256).filter fun k => ls.contains (coreLayer k)
        let d := cleanLines s.d fun q _ => cs.contains q
        let d := { d with l1 := d.l1.filter fun e => !ofCores cs e.1 }
        let d := (List.range 16).foldl (fun d l =>
          if servedBy d.layersOut l ≠ servedBy out l then carryHome d (servedBy d.layersOut l) (servedBy out l) else d) d
        updateResv (dropUnplaceable (seamChanged { s with d := { d with layersOut := out, leaving := d.leaving &&& ~~~out } }))

/-- The job starts that waited for their records go on, in the order of their register sets (R429, R442). -/
def goJobs (s : State) : State :=
  (s.d.jobs.filter fun e => e.2.starting).foldl (fun s e => goJob s (BitVec.ofNat 8 e.1)) s

/-- `BLOCK_RETURN_SERVICE` (R442): a stack, chiplet or die layer is in service again. -/
def execBlockReturnService (kind : BitVec 2) (n : BitVec 5) (s : State) : Out :=
  .next <|
    if kind = 2 then
      (if n.toNat < 12 then goJobs { s with d := { s.d with stacksOut := s.d.stacksOut &&& ~~~(1#12 <<< n.toNat) } } else s)
    else
      let ls := blockLayers kind.toNat n.toNat
      let out := ls.foldl (fun m l => m &&& ~~~(1#16 <<< l)) s.d.layersOut
      let back := ls.foldl (fun m l => m &&& ~~~(1#16 <<< l)) s.d.leaving
      if out = s.d.layersOut then { s with d := { s.d with leaving := back } }
      else
        let d := (List.range 16).foldl (fun d l =>
          if servedBy d.layersOut l ≠ servedBy out l then carryHome d (servedBy d.layersOut l) (servedBy out l) else d) s.d
        seamChanged { s with d := { d with layersOut := out, leaving := back } }

end Sys2Proof.Machine
end

