-- ==== Sys2Proof/Machine/Sync.lean ====
section
/-!
DEFINITION. Fences, scalar atomics, and the synchronising loads and stores (22_sync_instructions.md, R354-R363).
-/

namespace Sys2Proof.Machine

/-! ## Fences (R355, R356) -/

/-- A pod-scope release or acquire waits while a remote operation of the hart has no acknowledgement (R335, R347, R356). -/
def podBusy (s : State) (sc : Nat) : Bool := sc == 7 && decide (0 < s.h.remote)

/-- A fence of any kind completes (R355): no word younger than one of core scope or wider has been fetched before it (R460). -/
def fenced (sf : BitVec 3) (s : State) : State := done (if sf = 0 then s else { s with h := { s.h with early := [] } })

/-- `FENCE_REL` (R355). -/
def execFenceRel (sf : BitVec 3) (s : State) : Out := .next (if podBusy s sf.toNat then await s .acks else fenced sf (s.release sf.toNat))

/-- `FENCE_ACQ` (R355). -/
def execFenceAcq (sf : BitVec 3) (s : State) : Out := .next (if podBusy s sf.toNat then await s .acks else fenced sf (s.acquire sf.toNat))

/-- `FENCE_FULL` (R355). -/
def execFenceFull (sf : BitVec 3) (s : State) : Out :=
    .next (if podBusy s sf.toNat then await s .acks else fenced sf { s with d := fullBarrier s.d (coreOf s.hid) sf.toNat })

/-! ## AMO and AMO2 (R357, R358) -/

/-- Operation `op` at x[a] with operand x[b] and comparand x[d]: the old value, zero-extended, goes to x[d]. -/
def amo (op : Nat) (sf : BitVec 3) (d a b : BitVec 6) (s : State) : Out :=
  let n := amoBytes op
  settle s <| (atomic s (rx s a) n sf.toNat fun m => amoNew op (8 * n) m (rx s b).toNat (rx s d).toNat).map fun r =>
    wx r.2 d (BitVec.ofNat 64 r.1)

/-- `AMO_ADD` (R358). -/
def execAmoAdd (sf : BitVec 3) (d a b : BitVec 6) (s : State) : Out := amo Amo.add sf d a b s

/-- `AMO_AND` (R358). -/
def execAmoAnd (sf : BitVec 3) (d a b : BitVec 6) (s : State) : Out := amo Amo.and' sf d a b s

/-- `AMO_OR` (R358). -/
def execAmoOr (sf : BitVec 3) (d a b : BitVec 6) (s : State) : Out := amo Amo.or' sf d a b s

/-- `AMO_XOR` (R358). -/
def execAmoXor (sf : BitVec 3) (d a b : BitVec 6) (s : State) : Out := amo Amo.xor' sf d a b s

/-- `AMO_SWAP` (R358). -/
def execAmoSwap (sf : BitVec 3) (d a b : BitVec 6) (s : State) : Out := amo Amo.swap sf d a b s

/-- `AMO_MIN` (R358). -/
def execAmoMin (sf : BitVec 3) (d a b : BitVec 6) (s : State) : Out := amo Amo.min' sf d a b s

/-- `AMO_MAX` (R358). -/
def execAmoMax (sf : BitVec 3) (d a b : BitVec 6) (s : State) : Out := amo Amo.max' sf d a b s

/-- `AMO_FADD32` (R358). -/
def execAmoFadd32 (sf : BitVec 3) (d a b : BitVec 6) (s : State) : Out := amo Amo.fadd32 sf d a b s

/-- `AMO2_UMIN` (R358). -/
def execAmo2Umin (sf : BitVec 3) (d a b : BitVec 6) (s : State) : Out := amo Amo.umin sf d a b s

/-- `AMO2_UMAX` (R358). -/
def execAmo2Umax (sf : BitVec 3) (d a b : BitVec 6) (s : State) : Out := amo Amo.umax sf d a b s

/-- `AMO2_CAS` (R358). -/
def execAmo2Cas (sf : BitVec 3) (d a b : BitVec 6) (s : State) : Out := amo Amo.cas sf d a b s

/-- `AMO2_INCB` (R358). -/
def execAmo2Incb (sf : BitVec 3) (d a b : BitVec 6) (s : State) : Out := amo Amo.incb sf d a b s

/-- `AMO2_FMIN32` (R358). -/
def execAmo2Fmin32 (sf : BitVec 3) (d a b : BitVec 6) (s : State) : Out := amo Amo.fmin32 sf d a b s

/-- `AMO2_FMAX32` (R358). -/
def execAmo2Fmax32 (sf : BitVec 3) (d a b : BitVec 6) (s : State) : Out := amo Amo.fmax32 sf d a b s

/-- `AMO2_ADD32W` (R358). -/
def execAmo2Add32w (sf : BitVec 3) (d a b : BitVec 6) (s : State) : Out := amo Amo.add32w sf d a b s

/-- `AMO2_FADD16X2` (R358). -/
def execAmo2Fadd16x2 (sf : BitVec 3) (d a b : BitVec 6) (s : State) : Out := amo Amo.fadd16x2 sf d a b s

/-! ## SYLS (R361, R362) -/

/-- `LDACQ` (R362). -/
def execLdacq (sf : BitVec 3) (z : BitVec 2) (d a : BitVec 6) (s : State) : Out :=
  match syncLoad s (rx s a) (2 ^ z.toNat) sf.toNat with
  | .error e => settle s (.error e)
  | .ok (v, t) => .next (if podBusy s sf.toNat then await s .acks else done (wx (t.acquire sf.toNat) d (BitVec.ofNat 64 v)))

/-- `STREL` (R362). -/
def execStrel (sf : BitVec 3) (z : BitVec 2) (a b : BitVec 6) (s : State) : Out :=
  match syncStore s (rx s a) (2 ^ z.toNat) sf.toNat (rx s b) with
  | .error e => settle s (.error e)
  | .ok t => .next (if podBusy s sf.toNat then await s .acks else done t)

end Sys2Proof.Machine
end

