-- ==== Sys2Proof/Machine/Msg.lean ====
section
/-!
DEFINITION. Messages, counters and atomics across packages (29_launch_message_system_instructions.md, R417-R422; 30 R433).
-/

namespace Sys2Proof.Machine

/-! ## Packages in reach (R433) -/

/-- Coordinates of a package index: x + 16 y + 256 z. -/
def coordsOf (pkg : BitVec 12) : List Nat := [bits pkg 3 0, bits pkg 7 4, bits pkg 11 8]

/-- The torus direction of the first hop from coordinates to others: in the first dimension in which they differ, the shorter way round a ring of 16,
ties going positive (R433; log 18). -/
def direction (dim : Nat) : List (Nat × Nat) → Option Nat
  | [] => none
  | (a, b) :: t => if a = b then direction (dim + 1) t else some (if (b + 16 - a) % 16 ≤ 8 then 2 * dim else 2 * dim + 1)

/-- The port on which the traffic of a core to another package leaves (R433). -/
def routePort (d : Device) (core : Nat) (pkg : BitVec 12) : Option Nat :=
  (direction 0 ((coordsOf d.pkg).zip (coordsOf pkg))).map fun r => 2 * r + core % 2

/-- A package other than this one is in reach of a core: the device is in a pod, and the port toward it is in service. -/
def reachable (d : Device) (core : Nat) (pkg : BitVec 12) : Bool :=
  d.inPod && (routePort d core pkg).any fun p => d.ports.getLsbD p

/-- The package is in service for the hart in focus. -/
def inService (s : State) (pkg : BitVec 12) : Bool := pkg == s.d.pkg || reachable s.d (coreOf s.hid) pkg

/-- What leaves for another package is outstanding until its answer (R422). -/
def leave (s : State) (o : Outgoing) : State :=
  { s with h := { s.h with remote := s.h.remote + 1 }, d := { s.d with podout := s.d.podout ++ [o] } }

/-- An operation leaves for another package (R421, R422). -/
def sendOut (s : State) (op : Nat) (a b b2 : Word) : State :=
  leave s { hart := s.hid, op := BitVec.ofNat 5 op, addr := a, b := b, b2 := b2, msg := none }

/-! ## Mailboxes (R417-R420) -/

/-- The unit's own mailbox id (R417). -/
def ownMailbox (s : State) : Word :=
  BitVec.ofNat 64 (s.d.pkg.toNat * 2 ^ 52 + bits s.h.node 15 0 * 2 ^ 32 + s.h.unit.toNat)

/-- The unit is the one a mailbox id names by slot and index. -/
def owns' (id : Word) (h : Hart) : Bool := bits h.node 15 0 == bits id 47 32 && h.unit == (id.setWidth 32 : BitVec 32)

/-- A mailbox id of this package with no reserved bit, and with a slot. -/
def mailboxId (id : Word) : Bool := bits id 51 48 == 0 && bits id 47 32 != 0

/-- The live unit, placed or saved, that has a mailbox (R417); none where no such unit lives. -/
def holderOf (s : State) (id : Word) : Option Hart :=
  if !mailboxId id then none
  else
    match s.liveHarts.find? fun i => owns' id (s.hart i) with
    | some i => some (s.hart i)
    | none => (s.d.saved.find? fun e => owns' id e.2).map (·.2)

/-- Put a message into the mailbox of the unit of launch node `node`; it is discarded where the unit is no more (R419). -/
def deliver (s : State) (node : BitVec 48) (id : Word) (m : Message) : State :=
  let its (h : Hart) : Bool := owns' id h && h.node == node
  if !mailboxId id then s
  else
    match s.liveHarts.find? fun i => its (s.hart i) with
    | some i => s.setHart i { s.hart i with mbox := (s.hart i).mbox ++ [m] }
    | none => { s with d := { s.d with saved := s.d.saved.map fun e => if its e.2 then (e.1, { e.2 with mbox := e.2.mbox ++ [m] }) else e } }

/-- Entries of a unit's mailbox in use or granted to messages on their way, from this package and from others. -/
def entriesUsed (s : State) (id : Word) (h : Hart) : Nat :=
  h.mbox.length + (s.d.flight.filter fun e => e.1 == h.node && e.2.1 == id).length +
    (s.d.podgrant.filter fun e => e.1 == h.node && e.2.1 == id).length

/-- A mailbox holds at most 16 entries, those granted included (R417, R419). -/
def hasRoom (s : State) (id : Word) (h : Hart) : Bool := entriesUsed s id h < 16

/-- A send to mailbox `id` of the pairs that the hart holds now (R419). -/
def msend (d : BitVec 6) (id : Word) (pairs : Hart → List (BitVec 32 × BitVec 32)) (s : State) : Out :=
  let pkg : BitVec 12 := id.extractLsb' 52 12
  let st (n : Nat) : Out := .next (done (wx s d (BitVec.ofNat 64 n)))
  if bits id 47 32 = 0 ∨ bits id 51 48 ≠ 0 then st 1
  else if pkg = s.d.pkg then
    match holderOf s id with
    | none => st 1
    | some r =>
      if hasRoom s id r then
        let m : Message := { sender := ownMailbox s, pairs := pairs s.h, pod := false }
        let t := s.release 6
        .next (done (wx { t with d := { t.d with flight := t.d.flight ++ [(r.node, id, m)] } } d 0))
      else .next (await s (.mailbox none))
  else if !reachable s.d (coreOf s.hid) pkg then st 2
  else
    match s.h.wait with
    | some (.mailbox (some true)) =>
      if podBusy s 7 then .next s
      else
        let m : Message := { sender := ownMailbox s, pairs := pairs s.h, pod := true }
        .next (done (wx (leave (s.release 7) { hart := s.hid, op := 18, addr := id, b := 0, b2 := 0, msg := some m }) d 0))
    | some (.mailbox (some false)) => st 1
    | _ => .next (await s (.mailbox none))

/-- The pairs of fibre register `n` (R419). -/
def heldPairs (n : BitVec 4) (h : Hart) : List (BitVec 32 × BitVec 32) :=
  (List.range (h.occ n)).map fun p => (BitVec.ofNat 32 (h.coord n p), BitVec.ofNat 32 (h.fval n p))

/-- The refusals of R22 and R124 on a message word. -/
def fibreRefused (h : Hart) : Bool := h.g == 0 || fibreBad h

/-- The oldest message is taken into fibre register `n` (R420). -/
def takeMessage (d : BitVec 6) (n : BitVec 4) (m : Message) (rest : List Message) (s : State) : State :=
  let s := s.acquire (if m.pod then 7 else 6)
  let c := s.h.cap
  let k := min m.pairs.length c
  let h := ((m.pairs.take k).zipIdx).foldl (fun h e => h.setPair n e.2 e.1.1.toNat e.1.2.toNat) s.h
  let h := { h.setOcc n k with mbox := rest, fcsr := if c < m.pairs.length then h.fcsr ||| Flag.fovf else h.fcsr }
  wx { s with h := h } d m.sender

/-- The message is taken; its acquire at pod scope waits for earlier remote operations (R347, R420). -/
def received (d : BitVec 6) (n : BitVec 4) (m : Message) (l : List Message) (s : State) : State :=
  if m.pod && podBusy s 7 then await s .acks else done (takeMessage d n m l s)

/-- `MRECV` (R420). -/
def mrecv (w : Insn) (d : BitVec 6) (n : BitVec 4) (s : State) : Out :=
  .next <|
    if fibreRefused s.h then illegal s w
    else
      match s.h.mbox with
      | [] => await s .message
      | m :: l => received d n m l s

/-- `MSEND` (R419). -/
def execMsend (d a : BitVec 6) (n : BitVec 4) (s : State) : Out :=
  if fibreRefused s.h then .next (illegal s (0x71000000#32 ||| fld d 18 ||| fld a 12 ||| fld n 6)) else msend d (rx s a) (heldPairs n) s

/-- `MSENDW` (R419). -/
def execMsendw (d a b : BitVec 6) (s : State) : Out :=
  let p := rx s b
  msend d (rx s a) (fun _ => [(p.extractLsb' 32 32, p.setWidth 32)]) s

/-- `MRECV` (R420). -/
def execMrecv (d : BitVec 6) (n : BitVec 4) (s : State) : Out := mrecv (0x71000002#32 ||| fld d 18 ||| fld n 6) d n s

/-- `MTRY` (R420). -/
def execMtry (d : BitVec 6) (n : BitVec 4) (s : State) : Out :=
  .next <|
    if fibreRefused s.h then illegal s (0x71000003#32 ||| fld d 18 ||| fld n 6)
    else
      match s.h.mbox with
      | [] => done (wx s d 0)
      | m :: l => received d n m l s

/-- `MAILBOX_ENTRY_GRANT` (R419): another package answers a waiting send, or a send to this package finds an entry free. -/
def execMailboxEntryGrant (h : BitVec 11) (g : BitVec 1) (s : State) : Out :=
  .next <| onHart s h fun s =>
    match s.h.wait with
    | some (.mailbox none) =>
      match fetch s s.h.pc with
      | .error _ => s
      | .ok (w, t) =>
        let id := rx t (seg w 12 6)
        let d : BitVec 6 := seg w 18 6
        let t := if id.extractLsb' 52 12 = t.d.pkg then t else { t with h := { t.h with wait := some (.mailbox (some (g == 1))) } }
        if seg w 24 8 ≠ 0x71 then s
        else if seg w 0 6 = 0 then nextOr s (msend d id (heldPairs (seg w 6 4)) t)
        else if seg w 0 6 = 1 then
          let p := rx t (seg w 6 6)
          nextOr s (msend d id (fun _ => [(p.extractLsb' 32 32, p.setWidth 32)]) t)
        else s
    | _ => s

/-- `MESSAGE_DELIVERY` (R419): a message on its way arrives, those of one sender to one mailbox in order. -/
def execMessageDelivery (n : Nat) (s : State) : Out :=
  .next <|
    match s.d.flight[n]? with
    | none => s
    | some (node, id, m) =>
      if (s.d.flight.take n).any fun e => e.1 == node && e.2.1 == id && e.2.2.sender == m.sender then s
      else deliver { s with d := { s.d with flight := s.d.flight.eraseIdx n } } node id m

/-- `MRECV_TAKE` (R420): a waiting `MRECV` takes a message that has come. -/
def execMrecvTake (h : BitVec 11) (s : State) : Out :=
  .next <| retryAlone s h fun w t =>
    if seg w 24 8 ≠ 0x71 ∨ seg w 0 6 ≠ 2 then none else some (mrecv w (seg w 18 6) (seg w 6 4) t)

/-! ## Counters of the pod (R421) -/

/-- What a pod counter id names for the hart in focus: nothing to do, `ACCESS`, a counter here, or one of another package. -/
inductive PodCounter where
  | nothing
  | bad
  | here (i : Nat)
  | there

/-- Read a pod counter id (R421). -/
def podCounter (s : State) (id : Word) : PodCounter :=
  if bits id 63 44 ≠ 0 ∨ bits id 31 16 ≠ 0 then .bad
  else if bits id 15 0 = 0 then .nothing
  else
    let pkg : BitVec 12 := id.extractLsb' 32 12
    if pkg = s.d.pkg then .here (bits id 15 0) else if reachable s.d (coreOf s.hid) pkg then .there else .bad

/-- An operation on another package: sent once, and over when its answer is there (R421, R422); one that then performs an acquire at pod scope
waits for the hart's other remote operations (R347). -/
def remoteWord (held : Bool) (op : Nat) (a b b2 : Word) (acq : Word → Bool) (fin : Word → State → State) (s : State) : Out :=
  .next <|
    match s.h.wait with
    | some (.remote _ (some (v, st))) => if st = 0 then (if acq v && podBusy s 7 then s else done (fin v s)) else trap { s with h := { s.h with wait := none } } Cause.access a
    | some (.remote _ none) => s
    | _ => await (sendOut s op a b b2) (.remote held none)

/-- `MSIGTL` (R421). -/
def execMsigtl (a b : BitVec 6) (s : State) : Out :=
  let id := rx s a
  .next <|
    match podCounter s id with
    | .nothing => done s
    | .bad => trap s Cause.access id
    | .here i =>
      if podBusy s 7 then await s .acks
      else let t := s.release 7; done { t with d := t.d.signal i (rx s b) }
    | .there => if podBusy s 7 then await s .acks else done (sendOut (s.release 7) 16 id (rx s b) 0)

/-- A wait for general counter `i` at pod scope has passed: the acquire, behind what the counter's signals followed (R339, R421; log 43). -/
def podPass (s : State) (i : Nat) : State := State.acquire { s with d := s.d.takeClock (layerOf s.hid) i } 7

/-- `MWAITTL` (R421). -/
def execMwaittl (a b : BitVec 6) (s : State) : Out :=
  let id := rx s a
  match podCounter s id with
  | .nothing => .next (done s)
  | .bad => .next (trap s Cause.access id)
  | .here i => .next (if (s.d.ctr i).toNat < (rx s b).toNat then await s .timeline else if podBusy s 7 then await s .acks else done (podPass s i))
  | .there => remoteWord false 17 id (rx s b) 1 (fun _ => true) (fun _ s => s.acquire 7) s

/-- `MTRYTL` (R421). -/
def execMtrytl (d a b : BitVec 6) (s : State) : Out :=
  let id := rx s a
  match podCounter s id with
  | .nothing => .next (done (wx s d 1))
  | .bad => .next (trap s Cause.access id)
  | .here i =>
    .next (if (s.d.ctr i).toNat < (rx s b).toNat then done (wx s d 0) else if podBusy s 7 then await s .acks else done (wx (podPass s i) d 1))
  | .there => remoteWord false 17 id (rx s b) 0 (· != 0) (fun v s => if v = 0 then wx s d 0 else wx (s.acquire 7) d 1) s

/-! ## Remote atomics (R422) -/

/-- The virtual address of a pod address on its home device: bit 51 copied into [55:52], and sign-extended from bit 55. -/
def podVa (a : Word) : Word := (a.setWidth 52).signExtend 64

/-- An atomic of another package executes at its home, after what is applied there; the pod has no causal stamping (R347, R422). -/
def atHome (s : State) (pa n : Nat) (f : Nat → Option Nat) : Option (Nat × State) :=
  if homePoisoned s.d pa n then none
  else
    let m := Memory.read s.d.mem pa n
    match f m with
    | some v => some (m, { s with d := homeWrite s.d pa n v })
    | none => some (m, s)

/-- An atomic at its home on this device (R422), by the hart in focus or, with `remote`, for another package: under an address space and a privilege;
never refused for scope. A failed check or poison is `ACCESS` at the pod address; an access to a stack under repair waits (R442). The walk for another package
tells this device's layers nothing (R347; log 18). -/
def podAtomic (remote : Bool) (s : State) (asid : BitVec 14) (ptroot : Word) (sup : Bool) (op : Nat) (a b x : Word) : Except Stop (Nat × State) :=
  let n := amoBytes op
  let va := podVa a
  let f (m : Nat) : Option Nat := amoNew op (8 * n) m b.toNat x.toNat
  match placeUnder s asid ptroot sup .atomic va n with
  | .ok (.mem pa leaf, t) =>
    let r := if remote then atHome { t with d := { t.d with lclock := s.d.lclock } } pa n f else (atomicMem t va pa n 7 leaf f).toOption
    match r with
    | some r => .ok r
    | none => .error (.trap Cause.access a)
  | .error (.wait w) => .error (.wait w)
  | _ => .error (.trap Cause.access a)

/-- `MAMO` and `MAMO2` (R422). -/
def mamo (op : Nat) (d a b : BitVec 6) (s : State) : Out :=
  let va := rx s a
  let pkg : BitVec 12 := va.extractLsb' 52 12
  let n := amoBytes op
  if va.toNat % n ≠ 0 then .next (trap s Cause.misaligned va)
  else if pkg = s.d.pkg then
    settle s <| (podAtomic false s s.h.asid s.h.ptroot s.h.prv op va (rx s b) (rx s d)).map fun r => wx r.2 d (BitVec.ofNat 64 r.1)
  else if !reachable s.d (coreOf s.hid) pkg then .next (trap s Cause.access va)
  else remoteWord true op va (rx s b) (rx s d) (fun _ => false) (fun v s => wx s d (v &&& BitVec.ofNat 64 (2 ^ (8 * n) - 1))) s

/-- `MAMO_ADD` (R422). -/
def execMamoAdd (d a b : BitVec 6) (s : State) : Out := mamo Amo.add d a b s

/-- `MAMO_AND` (R422). -/
def execMamoAnd (d a b : BitVec 6) (s : State) : Out := mamo Amo.and' d a b s

/-- `MAMO_OR` (R422). -/
def execMamoOr (d a b : BitVec 6) (s : State) : Out := mamo Amo.or' d a b s

/-- `MAMO_XOR` (R422). -/
def execMamoXor (d a b : BitVec 6) (s : State) : Out := mamo Amo.xor' d a b s

/-- `MAMO_SWAP` (R422). -/
def execMamoSwap (d a b : BitVec 6) (s : State) : Out := mamo Amo.swap d a b s

/-- `MAMO_MIN` (R422). -/
def execMamoMin (d a b : BitVec 6) (s : State) : Out := mamo Amo.min' d a b s

/-- `MAMO_MAX` (R422). -/
def execMamoMax (d a b : BitVec 6) (s : State) : Out := mamo Amo.max' d a b s

/-- `MAMO_FADD32` (R422). -/
def execMamoFadd32 (d a b : BitVec 6) (s : State) : Out := mamo Amo.fadd32 d a b s

/-- `MAMO2_UMIN` (R422). -/
def execMamo2Umin (d a b : BitVec 6) (s : State) : Out := mamo Amo.umin d a b s

/-- `MAMO2_UMAX` (R422). -/
def execMamo2Umax (d a b : BitVec 6) (s : State) : Out := mamo Amo.umax d a b s

/-- `MAMO2_CAS` (R422). -/
def execMamo2Cas (d a b : BitVec 6) (s : State) : Out := mamo Amo.cas d a b s

/-- `MAMO2_INCB` (R422). -/
def execMamo2Incb (d a b : BitVec 6) (s : State) : Out := mamo Amo.incb d a b s

/-- `MAMO2_FMIN32` (R422). -/
def execMamo2Fmin32 (d a b : BitVec 6) (s : State) : Out := mamo Amo.fmin32 d a b s

/-- `MAMO2_FMAX32` (R422). -/
def execMamo2Fmax32 (d a b : BitVec 6) (s : State) : Out := mamo Amo.fmax32 d a b s

/-- `MAMO2_ADD32W` (R422). -/
def execMamo2Add32w (d a b : BitVec 6) (s : State) : Out := mamo Amo.add32w d a b s

/-- `MAMO2_FADD16X2` (R422). -/
def execMamo2Fadd16x2 (d a b : BitVec 6) (s : State) : Out := mamo Amo.fadd16x2 d a b s

/-- The page-table root that an address space has on this device: that of a job or node of the same number (R422). -/
def rootOf (d : Device) (asid : BitVec 14) : Option Word := (d.nodes.find? fun e => e.2.live && e.2.asid == asid).map (·.2.ptroot)

/-- A pair as a payload word: its coordinate above its value (R419). -/
def pairOf (w : Word) : BitVec 32 × BitVec 32 := (w.extractLsb' 32 32, w.setWidth 32)

/-- A sender of another package is granted an entry of mailbox `a` once one is free, and so where no unit holds the mailbox nothing is (R419). -/
def grantRemote (s : State) (a b : Word) : State :=
  match holderOf s a with
  | none => s
  | some r => if hasRoom s a r then { s with d := { s.d with podgrant := s.d.podgrant ++ [(r.node, a, b)] } } else s

/-- The message whose entry of mailbox `a` sender `b` holds has come whole, with the pairs `last` behind those that came before: it is for the unit that
granted the entry, and is discarded where that unit is no more (R163, R419). -/
def remoteMessage (s : State) (a b : Word) (last : List (BitVec 32 × BitVec 32)) : State :=
  let mine (e : Word × Word × BitVec 32 × BitVec 32) : Bool := e.1 == a && e.2.1 == b
  match s.d.podgrant.findIdx? fun e => e.2.1 == a && e.2.2 == b with
  | none => s
  | some i =>
    let node := ((s.d.podgrant[i]?).map (·.1)).getD 0
    let m : Message := { sender := b, pairs := ((s.d.podin.filter mine).map fun e => e.2.2) ++ last, pod := true }
    deliver { s with d := { s.d with podin := s.d.podin.filter fun e => !mine e, podgrant := s.d.podgrant.eraseIdx i } } node a m

/-- `REMOTE_OPERATION` (R419, R421, R422): an operation of package `src` arrives here: an atomic (0 to 15), a signal (16), a read of a counter (17), or, for
mailbox `a` from sender `b`, the request for an entry (21) and then the message: a pair of it (19), its last pair (18), or its end where it has none or no more
(20) (log 18). -/
def execRemoteOperation (src : BitVec 12) (asid : BitVec 14) (op : BitVec 5) (a b b2 : BitVec 64) (s : State) : Out :=
  .next <|
    if !s.d.inPod ∨ src = s.d.pkg then s
    else if op.toNat < 16 then
      match rootOf s.d asid with
      | none => s
      | some r =>
        match podAtomic true s asid r false op.toNat a b b2 with
        | .ok (_, t) => t
        | .error _ => s
    else if op = 16 then (if bits a 15 0 ≠ 0 then { s with d := s.d.signal (bits a 15 0) b } else s)
    else if op = 19 then { s with d := { s.d with podin := s.d.podin ++ [(a, b, pairOf b2)] } }
    else if op = 21 then grantRemote s a b
    else if op = 18 then remoteMessage s a b [pairOf b2]
    else if op = 20 then remoteMessage s a b []
    else s

/-- `REMOTE_ACKNOWLEDGEMENT` (R335, R422): an answer comes back to hart `h`: with `own` = 1 to the operation its word waits for, else to the oldest other one. -/
def execRemoteAcknowledgement (h : BitVec 11) (own : BitVec 1) (v : BitVec 64) (st : BitVec 8) (s : State) : Out :=
  .next <| onHart s h fun s =>
    let mine := (s.d.podout.zipIdx).filter fun e => e.1.hart == s.hid
    let drop (i : Nat) (s : State) : State :=
      { s with h := { s.h with remote := s.h.remote - 1 }, d := { s.d with podout := s.d.podout.eraseIdx i } }
    match s.h.wait, own with
    | some (.remote k none), 1 =>
      match mine.getLast? with
      | some e => let t := drop e.2 s; { t with h := { t.h with wait := some (.remote k (some (v, st))) } }
      | none => s
    | some (.remote _ none), _ =>
      match mine.dropLast with
      | e :: _ => drop e.2 s
      | [] => s
    | _, _ =>
      match mine with
      | e :: _ => drop e.2 s
      | [] => s

end Sys2Proof.Machine
end

