-- ==== Sys2Proof/Machine/Host.lean ====
section
/-!
DEFINITION. What the host, the firmware and the fabric do: BAR2, job starts, counters, firmware load, stages, attestation, checkpoints
(30_host_fabric_bringup.md, R426-R441, R449-R452).
-/

namespace Sys2Proof.Machine

/-! ## Host accesses -/

/-- The byte of physical memory is behind BAR2 (R428, R438): in HBM, and in stage 0 in its first GiB. -/
def behindBar2 (d : Device) (a : Nat) : Bool := inHbm a && (d.stage != 0 || decide (a < 2 ^ 30))

/-- A host write through BAR2 (R426, R428), byte by byte at the homes. -/
def bar2Write (d : Device) (off : Nat) : Nat → Nat → Device
  | 0, _ => d
  | n + 1, v =>
    let a := d.bar2base.toNat + off
    let d := if behindBar2 d a && decide (off < 2 ^ d.bar2log) then homeWrite d a 1 (v % 256) else d
    bar2Write d (off + 1) n (v / 256)

/-- A host read through BAR2 (R426, R428), byte by byte at the homes: 0 where nothing is behind the window. -/
def bar2Read (d : Device) (off : Nat) : Nat → Nat
  | 0 => 0
  | n + 1 =>
    let a := d.bar2base.toNat + off
    (if behindBar2 d a && decide (off < 2 ^ d.bar2log) then (Memory.get d.mem a).toNat else 0) + 256 * bar2Read d (off + 1) n

/-- A byte of a host access lies in an HBM stack under repair: the access waits (R442). -/
def bar2Waits (d : Device) (off n : Nat) : Bool :=
  (List.range n).any fun i => decide (off + i < 2 ^ d.bar2log) && underRepair d (d.bar2base.toNat + off + i)

/-- `HOST_BAR2_ACCESS` (R426, R428): a host write at a window offset reaches its home, and a read returns what stands there. -/
def execHostBar2Access (wr : BitVec 1) (off : BitVec 64) (size : BitVec 2) (v : BitVec 64) (s : State) : Out :=
  .next <|
    let n := 2 ^ size.toNat
    if bar2Waits s.d off.toNat n then s
    else if wr = 1 then { s with d := bar2Write s.d off.toNat n v.toNat }
    else { s with d := { s.d with hostRead := BitVec.ofNat 64 (bar2Read s.d off.toNat n) } }

/-- `BAR2BASE_WRITE` (R428). -/
def execBar2baseWrite (v : BitVec 64) (s : State) : Out := .next { s with d := writeBar2 s.d v }

/-- `RESIZABLE_BAR_SELECT` (R428). -/
def execResizableBarSelect (size : BitVec 6) (s : State) : Out :=
  .next (if 30 ≤ size.toNat ∧ size.toNat ≤ 40 then { s with d := { s.d with bar2log := size.toNat } } else s)

/-- `GO` (R429). -/
def execGo (j : BitVec 8) (s : State) : Out := .next (goJob s j)

/-- `HOST_COUNTER_WRITE` (R430); stage 0 does not serve it (R438). -/
def execHostCounterWrite (n : BitVec 16) (v : BitVec 64) (s : State) : Out :=
  .next (if n = 0 ∨ s.d.stage = 0 then s else { s with d := hostCounter s.d n.toNat v })

/-- `DOORBELL` (R432); stage 0 does not serve it (R438). -/
def execDoorbell (h : BitVec 11) (s : State) : Out := .next (if s.d.stage = 0 then s else doorbell s h)

/-- `FUNCTION_LEVEL_RESET` (R426): of the PCI Express function; no rule gives it an effect on the device's own state. -/
def execFunctionLevelReset (s : State) : Out := .next s

/-! ## Firmware (R435-R438) -/

/-- `b ^ e` modulo `m`, by the bits of `e` from bit `n` - 1 down. -/
def powMod (b e m : Nat) : Nat → Nat
  | 0 => 1 % m
  | n + 1 =>
    let r := powMod b (e / 2) m n
    let r := r * r % m
    if e % 2 = 1 then r * b % m else r

/-- `n` bytes of HBM from `a` up as a big-endian number. -/
def bigEndian (m : Memory) (a : Nat) : Nat → Nat
  | 0 => 0
  | n + 1 => bigEndian m a n * 256 + (m.get (a + n)).toNat

/-- EMSA-PKCS1-v1_5 of a SHA-256 digest, 384 bytes (R435). -/
def pkcs1 (digest : Nat) : Nat :=
  2 ^ 3056 * 1 + 2 ^ 416 * (2 ^ 2640 - 1) + 2 ^ 256 * 0x3031300d060960864801650304020105000420 + digest

/-- A digest's bytes in order as a big-endian number. -/
def digestNumber (h : BitVec 256) : Nat := (List.range 32).foldl (fun n i => n * 256 + bits h (8 * i + 7) (8 * i)) 0

/-- What verification of the image finds (R435, R436): 2 bad format, 1 bad signature, 3 accepted. An entry offset of any alignment is taken (log 46). -/
def verifyImage (d : Device) : Nat :=
  let a := d.laddr.toNat
  let rd (o n : Nat) : Nat := Memory.read d.mem (a + o) n
  let b := rd 0x008 8
  if rd 0 4 ≠ 0x46574E58 ∨ rd 4 4 ≠ 1 ∨ rd 0x018 40 ≠ 0 ∨ rd 0x1C4 60 ≠ 0 ∨ b ≤ rd 0x010 8 ∨ d.llen.toNat < 0x200 + b + 384 then 2
  else if sha256 (rd 0x040 388) 388 ≠ Config.keyDigest then 1
  else
    let m := bigEndian d.mem (a + 0x040) 384
    let sg := bigEndian d.mem (a + 0x200 + b) 384
    let digest := sha256 (rd 0 (0x200 + b)) (0x200 + b)
    if sg < m ∧ powMod sg (rd 0x1C0 4) m 32 = pkcs1 (digestNumber digest) then 3 else 1

/-- `LOAD` (R436). -/
def execLoad (s : State) : Out := .next { s with d := startLoad s.d }

/-- `FIRMWARE_VERIFY_DONE` (R436): LADDR and LLEN as they stand now say which image it was (log 46). -/
def execFirmwareVerifyDone (s : State) : Out :=
  .next <|
    if !s.d.lbusy then s
    else
      let st := verifyImage s.d
      let d := { s.d with lbusy := false, lstat := BitVec.ofNat 8 st }
      if st ≠ 3 then { s with d := d }
      else
        let len := 0x200 + Memory.read d.mem (d.laddr.toNat + 8) 8 + 384
        { s with d := { extendMeasure d 1 (sha256 (Memory.read d.mem d.laddr.toNat len) len) with stage := 1 } }

/-- Extend a measurement register with at least `least` open items, and with how many is open too (R437; log 9). -/
def measureSome (s : State) (i : Fin 8) (least : Nat) : State :=
  let (n, s) := s.draw
  extendFree s i (least + (Config.freeWord n).toNat)

/-- `STAGE_2_ENTRY` (R438): M2 takes each runtime image that firmware has started, at least one (R437). -/
def execStage2Entry (s : State) : Out :=
  .next <|
    if s.d.stage ≠ 1 then s
    else
      let s := measureSome s 2 1
      seamChanged { s with d := { s.d with stage := 2 } }

/-- `STAGE_3_ENTRY` (R438): M4 takes each calibration table that was applied in stage 2 (R437). -/
def execStage3Entry (s : State) : Out :=
  .next <|
    if s.d.stage ≠ 2 then s
    else
      let s := measureSome s 4 0
      seamChanged { s with d := { s.d with stage := 3 } }

/-! ## Attestation (R440, R441) -/

/-- Bytes +0x000 to +0x13F of a report. -/
def reportBody (d : Device) : Nat :=
  let m := (d.meas.toList.zipIdx.map fun e => e.1.toNat * 2 ^ (256 * e.2)).sum
  let part := 1 + d.rev.toNat * 2 ^ 16 + d.serial.toNat * 2 ^ 32
  1 + d.stage.toNat * 2 ^ 32 + part * 2 ^ 64 + d.anonce.toNat * 2 ^ 192 + m * 2 ^ 448 + d.cycle.toNat * 2 ^ 2496

/-- A number below 2^3072 as an octet string of 384 bytes, highest byte first (R440, RFC 8017), byte 0 in bits [7:0]. -/
def octets (n : Nat) : Nat := (List.range 384).foldl (fun r i => r * 256 + n / 256 ^ i % 256) 0

/-- The signature over a report's body (R440): RSASSA-PKCS1-v1_5 over SHA-256 under the identity key, which is the device's own (log 9). -/
def reportSignature (body : Nat) : Nat :=
  octets (powMod (pkcs1 (digestNumber (sha256 body 320))) Config.identityExponent Config.identityModulus 3072)

/-- `REQ` (R441). -/
def execReq (s : State) : Out := .next { s with d := startReport s.d }

/-- `ATTESTATION_REPORT_READY` (R440). -/
def execAttestationReportReady (s : State) : Out :=
  .next <|
    if !s.d.abusy then s
    else
      let b := reportBody s.d
      let r : BitVec 5632 := BitVec.ofNat 5632 (b + reportSignature b * 2 ^ 2560)
      { s with d := { s.d with report := r, abusy := false, adone := true, astat := 1 } }

/-! ## Checkpoints (R449-R452) -/

/-- The destination package can be reached (R450, R452): the device is in a pod, a port of its own is in service, and DPKG is another package; nothing
beyond its ports is looked at (log 39). -/
def destinationReached (d : Device) : Bool :=
  d.inPod && d.ports != 0 && (d.ckpt.dst.extractLsb' 52 12 : BitVec 12) != d.pkg

/-- A unit of the job is live, placed or saved. -/
def jobHasUnit (s : State) (job : BitVec 48) : Bool :=
  let of (h : Hart) : Bool := match nodeAt s.d h.node with
    | some n => n.job == job
    | none => false
  (s.liveHarts.any fun i => of (s.hart i)) || s.d.saved.any fun e => of e.2

/-- The checkpoint ends with a status (R449-R451); a complete one signals its counter. -/
def endCkpt (s : State) (st : Nat) : State :=
  let k := s.d.ckpt
  let d := { s.d with ckpt := { k with stream := false, armed := false, cstat := BitVec.ofNat 8 st, donecyc := if st = 1 then s.d.cycle else k.donecyc,
                                       bytes := if st = 1 then k.bytes + 603979776 else k.bytes } }
  let d := if st = 1 ∧ generalId k.ctr then let i := bits k.ctr 15 0; { d with ctrs := sset d.ctrs i (d.ctr i + 1) 0 } else d
  raiseSource { s with d := d } 6

/-- `ARM` (R451); stage 0 does not serve it (R438). -/
def execArm (s : State) : Out := .next (if s.d.stage = 0 then s else armCkpt s)

/-- `CHECKPOINT_CUT` (R449). -/
def execCheckpointCut (s : State) : Out :=
  .next <|
    let k := s.d.ckpt
    let job : BitVec 48 := k.job.setWidth 48
    if !k.armed then s
    else if (liveNode s.d (k.phase.setWidth 48)).isSome then (if (liveNode s.d job).isNone then endCkpt s 5 else s)
    else if jobHasUnit s job then s
    else { s with d := { s.d with ckpt := { k with armed := false, stream := true, streamed := [], sink := [], lens := [], bytes := 0, cutcyc := s.d.cycle } } }

/-- `FRAME_STREAM` (R450): frame `n` is streamed, once its HBM stack is not under repair (R442); the checkpoint completes once every frame that holds anything has been, and fails where the destination cannot be reached. -/
def execFrameStream (n : BitVec 28) (s : State) : Out :=
  .next <|
    if !s.d.ckpt.stream then s
    else if !destinationReached s.d then endCkpt s 2
    else if 150994944 ≤ n.toNat ∨ underRepair s.d (4096 * n.toNat) then s
    else
      let s := { s with d := streamFrame s.d n.toNat }
      if s.d.mem.all fun e => s.d.ckpt.streamed.contains (e.1 / 4096) then endCkpt s 1 else s

/-! ## The fabric (R433) -/

/-- `PORT_STATE_CHANGE` (R433). -/
def execPortStateChange (port : BitVec 4) (up : BitVec 1) (s : State) : Out :=
  .next <|
    if 12 ≤ port.toNat ∨ s.d.ports.getLsbD port.toNat = (up == 1) then s
    else raiseSource { s with d := { s.d with ports := putBits s.d.ports port.toNat up } } 7

/-- `FABRIC_SET_UP` (R433): while a unit is live it waits, since `SEAMLOC.PKG` is fixed for a unit's life (R328; log 38). -/
def execFabricSetUp (x y z : BitVec 4) (s : State) : Out :=
  .next (if s.liveHarts.isEmpty ∧ s.d.saved.isEmpty then seamChanged { s with d := { s.d with inPod := true, pkg := z ++ y ++ x } } else s)

end Sys2Proof.Machine
end

