-- ==== Sys2Proof/Machine/Launch.lean ====
section
/-!
DEFINITION. `LAUNCH`, `LWAIT`, `LTRY` and `LCANCEL` (29_launch_message_system_instructions.md, R413-R416; 28 R393-R399).
-/

namespace Sys2Proof.Machine

/-- The job of the unit in focus (R394). -/
def jobOf (s : State) : BitVec 48 :=
  match nodeAt s.d s.h.node with
  | some n => n.job
  | none => 0

/-- BAD_GATE of R414: the id names no counter, or one of kind 0x03 that is not live. -/
def badGate (s : State) (id : Word) : Bool := id == 0 || (counterOf s s.h.node id).isNone

/-- The answer of a creating form: a status, or with `.id` the node id or the status negated (R414). -/
def launchAnswer (withId : Bool) (st : Nat) (id : BitVec 48) : Word :=
  if st = 0 then (if withId then id.setWidth 64 else 0) else if withId then BitVec.ofInt 64 (-(st : Int)) else BitVec.ofNat 64 st

/-- A creating form on record `r` with a gate, if any (R399, R414). -/
def createFrom (withId : Bool) (d : BitVec 6) (r : BitVec 512) (gate : Option (Word × Word)) (s : State) : State :=
  let job := jobOf s
  let st := checkRecord s.d r job
  let st := if st = 0 ∧ (gate.any fun g => badGate s g.1) then 7 else st
  if st ≠ 0 then wx s d (launchAnswer withId st 0)
  else
    let unit := gate.bind fun g => if bits g.1 63 56 = 3 then some (s.h.node, (g.1.setWidth 32 : BitVec 32)) else none
    let (id, dev) := createNode s.d r job s.h.asid s.h.ptroot s.hid.toNat gate unit
    wx { s with d := dev } d (launchAnswer withId 0 id)

/-- A creating form (R414): the record at x[a], and the gate at x[b]. -/
def launchWord (withId : Bool) (d a : BitVec 6) (b : Option (BitVec 6)) (s : State) : Out :=
  settle s <|
    match loadRecord s (rx s a) 8 with
    | .error e => .error e
    | .ok (r, t) =>
      match b with
      | none => .ok (createFrom withId d (BitVec.ofNat 512 r) none t)
      | some b =>
        match loadRecord t (rx s b) 2 with
        | .error e => .error e
        | .ok (g, u) => .ok (createFrom withId d (BitVec.ofNat 512 r) (some (BitVec.ofNat 64 g, BitVec.ofNat 64 (g / 2 ^ 64))) u)

/-- What `LWAIT` and `LTRY` find at node `id` (R415): its status once it is complete, −1 where it names no node, none while it is live. -/
def nodeStatus (d : Device) (id : Word) : Option (Option Nat) :=
  if bits id 63 48 ≠ 0 then some none
  else
    match nodeAt d (id.setWidth 48) with
    | none => some none
    | some n => if n.live then none else some (some n.status)

/-- `LWAIT` on node `id` (R415). -/
def lwait (d : BitVec 6) (id : Word) (s : State) : Out :=
  .next <|
    match nodeStatus s.d id with
    | none => await s .node
    | some none => done (wx s d (BitVec.allOnes 64))
    | some (some st) => done (wx (s.acquire 6) d (BitVec.ofNat 64 st))

/-- `LAUNCH` (R414). -/
def execLaunch (d a : BitVec 6) (s : State) : Out := launchWord false d a none s

/-- `LAUNCH_ID` (R414). -/
def execLaunchId (d a : BitVec 6) (s : State) : Out := launchWord true d a none s

/-- `LAUNCH_GATE` (R414). -/
def execLaunchGate (d a b : BitVec 6) (s : State) : Out := launchWord false d a (some b) s

/-- `LAUNCH_GATE_ID` (R414). -/
def execLaunchGateId (d a b : BitVec 6) (s : State) : Out := launchWord true d a (some b) s

/-- `LWAIT` (R415). -/
def execLwait (d a : BitVec 6) (s : State) : Out := lwait d (rx s a) s

/-- `LTRY` (R415). -/
def execLtry (d a : BitVec 6) (s : State) : Out :=
  .next <| done <|
    match nodeStatus s.d (rx s a) with
    | none => wx s d (BitVec.ofInt 64 (-2))
    | some none => wx s d (BitVec.allOnes 64)
    | some (some st) => wx (s.acquire 6) d (BitVec.ofNat 64 st)

/-- `LCANCEL` (R416). -/
def execLcancel (d a : BitVec 6) (s : State) : Out :=
  let id := rx s a
  .next <|
    if bits id 63 48 ≠ 0 ∨ (liveNode s.d (id.setWidth 48)).isNone then done (wx s d (BitVec.allOnes 64))
    else cancelNode (done (wx s d 0)) (id.setWidth 48)

/-- `LWAIT_COMPLETE` (R415): a waiting `LWAIT` completes if its node has. -/
def execLwaitComplete (h : BitVec 11) (s : State) : Out :=
  .next <| retryAlone s h fun w t =>
    if seg w 24 8 ≠ 0x70 ∨ seg w 0 6 ≠ 4 then none else some (lwait (seg w 18 6) (rx t (seg w 12 6)) t)

end Sys2Proof.Machine
end

