-- ==== Sys2Proof/Machine/Seam.lean ====
section
/-!
DEFINITION. The seam table and the `SEAM` words (21_seams_consistency.md, R329-R331; 29 R425).
-/

namespace Sys2Proof.Machine

/-- Every block of the package is in service and calibrated (R330, R438). -/
def partHealthy (d : Device) : Bool := d.stage == 3 && d.layersOut == 0

/-- Some core of a list is in service. -/
def anyInService (d : Device) (l : List Nat) : Bool := l.any (coreInService d)

/-- The cores of instance `n` of level `l`, in service or not. -/
def levelCores (l n : Nat) : List Nat := (List.range 256).filter fun k => instanceOf l k == n

/-- MEMBERS of a level for a hart of `core` (R329). -/
def seamMembers (d : Device) (l core : Nat) : Nat :=
  match l with
  | 0 => 8
  | 1 => 16
  | 7 => if d.inPod then (Config.podMembers d.gen).toNat else 1
  | l =>
    let n := instanceOf l core
    ((List.range (instanceCount (l - 1))).filter fun m =>
      let cs := levelCores (l - 1) m
      cs.any (fun k => instanceOf l k == n) && anyInService d cs).length

/-- The costs of a level lie within their calibrated maxima (R329): those of a healthy part do (R330), and of another part the typical cost of a
release and of an acquire is held against its maximum (log 9). -/
def costsGood (d : Device) (l : Nat) : Bool :=
  let within (w : Word) := decide (bits w 31 0 ≤ bits w 63 32)
  partHealthy d || (within (Config.seamCost d.gen l 1) && within (Config.seamCost d.gen l 2))

/-- HEALTH of a level (R329). -/
def seamHealth (d : Device) (l core : Nat) : Bool :=
  let own (l : Nat) := (levelCores l (instanceOf l core)).all (coreInService d)
  costsGood d l && if l = 7 then own 6 && (!d.inPod || Config.podHealth d.gen) else own l

/-- OWNIDX of a level (R329). -/
def seamOwn (s : State) (l : Nat) : Nat :=
  let layer := layerOf s.hid
  match l with
  | 0 => ((List.range 16).find? fun i => s.h.gmap.getLsbD i).getD 0xFFFF
  | 1 => bits s.hid 4 3
  | 2 => bits s.hid 6 5
  | 3 => layer % 2
  | 4 => layer / 2 % 4
  | 5 => layer / 8
  | _ => s.d.pkg.toNat

/-- The costs of a healthy part (R330): RELTYP, RELMAX, ACQTYP, ACQMAX, ATOMTYP, BWCORE. -/
def healthyCosts (l : Nat) : List Nat :=
  match l with
  | 0 => [0, 0, 0, 0, 4, 3850000]
  | 1 => [4, 16, 2, 8, 4, 3850000]
  | 2 => [24, 1100, 16, 40, 14, 481000]
  | 3 => [90, 1200, 16, 40, 40, 240000]
  | 4 => [160, 1300, 16, 40, 52, 180000]
  | 5 => [320, 1500, 16, 40, 64, 150000]
  | 6 => [700, 2000, 16, 40, 70, 144000]
  | _ => [6000, 40000, 16, 40, 6000, 10500]

/-- Word `w` of a level's entry (R329). -/
def seamWord (s : State) (l w : Nat) : Word :=
  let c (i : Nat) : Nat := (healthyCosts l).getD i 0
  let pair (hi lo : Nat) : Word := BitVec.ofNat 64 (hi * 2 ^ 32 + lo)
  if w = 0 then
    BitVec.ofNat 64 ((if seamHealth s.d l (coreOf s.hid) then 2 ^ 63 else 0) + seamOwn s l % 65536 * 2 ^ 32 + seamMembers s.d l (coreOf s.hid) % 2 ^ 32)
  else if !partHealthy s.d then Config.seamCost s.d.gen l w
  else if w = 1 then pair (c 1) (c 0) else if w = 2 then pair (c 3) (c 2) else pair (c 5) (c 4)

/-- `SEAM_READ` (R425). -/
def execSeamRead (l : BitVec 3) (w : BitVec 2) (d : BitVec 6) (s : State) : Out := .next (done (wx s d (seamWord s l.toNat w.toNat)))

/-- `SEAM_HEALTH` (R425). -/
def execSeamHealth (d : BitVec 6) (s : State) : Out :=
  let m := (List.range 8).foldl (fun n l => if seamHealth s.d l (coreOf s.hid) then n + 2 ^ l else n) 0
  .next (done (wx s d (BitVec.ofNat 64 (s.d.gen.toNat * 2 ^ 48 + m))))

end Sys2Proof.Machine
end

