-- ==== Sys2Proof/Machine/Select.lean ====
section
/-!
DEFINITION. `VSEL`, `VEXIT` and `VSCAN` (24_selection_lanethread.md, R374-R378).
-/

namespace Sys2Proof.Machine

/-! ## VSEL (R375) -/

/-- a < b on the real line, the zeros equal (R375). -/
def sliLess (a b : Sli) : Bool :=
  match a, b with
  | .zero _, .zero _ => false
  | a, b => sliBelow a b

/-- The formats that `VSEL` orders: 16 bits or wider, without the packed pair. -/
def selType (h : Hart) : Bool := h.ew != 8 && h.fmt != Fmts.e8m7x2

/-- The element is a NaN of the vector's format. -/
def selNan (h : Hart) (x : Word) : Bool :=
  if fmtSli h.fmt then sliVal (sliF h.fmt) x.toNat == .nan
  else fmtBin h.fmt && (binVal h.bin (elemCode h.fmt x)).isNan

/-- x < y in the order of the vector's format (R375). -/
def selLess (h : Hart) (x y : Word) : Bool :=
  if fmtSli h.fmt then sliLess (sliVal (sliF h.fmt) x.toNat) (sliVal (sliF h.fmt) y.toNat)
  else (codeVal h.fmt (elemCode h.fmt x)).lt (codeVal h.fmt (elemCode h.fmt y))

/-- The best candidate: its index and its bits (R375). A tie keeps the lower index. -/
def selBest (smallest : Bool) (a : BitVec 5) (k : BitVec 3) (h : Hart) : Option (Nat × Word) :=
  (span h.vstart.toNat h.vl.toNat).foldl (init := none) fun b e =>
    let x := h.elem h.ew a e
    if h.active k e && !selNan h x then
      match b with
      | none => some (e, x)
      | some (i, y) => if (if smallest then selLess h x y else selLess h y x) then some (e, x) else some (i, y)
    else b

/-- The body of `VSEL` (R375). -/
def selBody (smallest clr : Bool) (d a : BitVec 5) (k : BitVec 3) (s : State) : VRes :=
  let h := s.h
  let w := h.ew
  let h' := match selBest smallest a k h with
    | none => (h.setElem w d 0 (BitVec.ofNat 64 (2 ^ w - 1))).setElem w d 1 0
    | some (i, x) =>
      let t := (h.setElem w d 0 (BitVec.ofNat 64 i)).setElem w d 1 x
      if clr then setKBit t k i false else t
  let h' := if h.tz then (span 2 (vlmax w h.g)).foldl (fun t e => t.setElem w d e 0) h' else h'
  .ok (setStart { s with h := h' } 0)

/-- `VSEL` (R375). -/
def vsel (w : Insn) (smallest clr : Bool) (cv : BitVec 1) (d a : BitVec 5) (k : BitVec 3) (s : State) : Out :=
  vword w cv { s.h.member .select [a] (gov k) [d] (if clr then [k] else []) with kx := if clr then maskSet [k] else 0 } (!selType s.h || (clr && k == 0)) (selBody smallest clr d a k) s

/-- `VSEL_MAX` (R375). -/
def execVselMax (cv : BitVec 1) (d a : BitVec 5) (k : BitVec 3) (s : State) : Out :=
  vsel ((0x68000000#32 ||| fld cv 31 ||| fld d 19 ||| fld a 14 ||| fld k 6)) false false cv d a k s

/-- `VSEL_MIN` (R375). -/
def execVselMin (cv : BitVec 1) (d a : BitVec 5) (k : BitVec 3) (s : State) : Out :=
  vsel ((0x68000001#32 ||| fld cv 31 ||| fld d 19 ||| fld a 14 ||| fld k 6)) true false cv d a k s

/-- `VSEL_MAX_CLR` (R375). -/
def execVselMaxClr (cv : BitVec 1) (d a : BitVec 5) (k : BitVec 3) (s : State) : Out :=
  vsel ((0x68000002#32 ||| fld cv 31 ||| fld d 19 ||| fld a 14 ||| fld k 6)) false true cv d a k s

/-- `VSEL_MIN_CLR` (R375). -/
def execVselMinClr (cv : BitVec 1) (d a : BitVec 5) (k : BitVec 3) (s : State) : Out :=
  vsel ((0x68000003#32 ||| fld cv 31 ||| fld d 19 ||| fld a 14 ||| fld k 6)) true true cv d a k s

/-! ## VEXIT (R376) -/

/-- The body of `VEXIT`: `f seen hit` is the bit of an active element. -/
def exitBody (f : Bool → Bool → Bool) (d b k : BitVec 3) (s : State) : VRes :=
  let old := s.h
  let (h, _) := (span old.vstart.toNat old.vl.toNat).foldl (init := (old, false)) fun (h, seen) e =>
    if old.active k e then
      let hit := old.kbit b e
      (setKBit h d e (f seen hit), seen || hit)
    else (if old.mz then setKBit h d e false else h, seen)
  .ok (setStart { s with h := zeroMaskTail d h } 0)

/-- `VEXIT` (R376). -/
def vexit (w : Insn) (f : Bool → Bool → Bool) (cv : BitVec 1) (d b k : BitVec 3) (s : State) : Out :=
  vword w cv (s.h.member .select [] (b :: gov k) [] [d]) false (exitBody f d b k) s

/-- `VEXIT_BEFORE` (R376). -/
def execVexitBefore (cv : BitVec 1) (d b k : BitVec 3) (s : State) : Out :=
  vexit ((0x69000000#32 ||| fld cv 31 ||| fld d 19 ||| fld b 14 ||| fld k 6)) (fun seen hit => !seen && !hit) cv d b k s

/-- `VEXIT_INCL` (R376). -/
def execVexitIncl (cv : BitVec 1) (d b k : BitVec 3) (s : State) : Out :=
  vexit ((0x69000001#32 ||| fld cv 31 ||| fld d 19 ||| fld b 14 ||| fld k 6)) (fun seen _ => !seen) cv d b k s

/-- `VEXIT_ONLY` (R376). -/
def execVexitOnly (cv : BitVec 1) (d b k : BitVec 3) (s : State) : Out :=
  vexit ((0x69000002#32 ||| fld cv 31 ||| fld d 19 ||| fld b 14 ||| fld k 6)) (fun seen hit => hit && !seen) cv d b k s

/-! ## VSCAN (R377, R378) -/

/-- The body of `VSCAN.idx` (R377). -/
def idxBody (d : BitVec 5) (k : BitVec 3) (s : State) : VRes :=
  let h := s.h
  let w := h.ew
  let a := h.vstart.toNat
  let es := (span a h.vl.toNat).filter fun e => h.active k e
  let h' := (es.zipIdx).foldl (fun t e => t.setElem w d (a + e.2) (BitVec.ofNat 64 e.1)) h
  let h' := if h.tz then (span (a + es.length) (vlmax w h.g)).foldl (fun t p => t.setElem w d p 0) h' else h'
  .ok (setStart { s with h := h' } 0)

/-- The body of a running form (R378): `f` combines at width W; `.addx` writes the sum before it. -/
def scanBody (f : (n : Nat) → BitVec n → BitVec n → BitVec n) (before : Bool) (d a b : BitVec 5) (k : BitVec 3) (s : State) : VRes :=
  let old := s.h
  let w := old.ew
  let (h, _) := (span old.vstart.toNat old.vl.toNat).foldl (init := (old, old.elem w b 0)) fun (h, x) e =>
    if old.active k e then
      let y := bvOp f w x (old.elem w a e)
      (h.setElem w d e (if before then x else y), y)
    else (if old.mz then h.setElem w d e 0 else h, x)
  .ok (setStart { s with h := zeroTail w d h } 0)

/-- A running form of `VSCAN`. -/
def vscan (w : Insn) (f : (n : Nat) → BitVec n → BitVec n → BitVec n) (before : Bool) (cv : BitVec 1) (d a b : BitVec 5) (k : BitVec 3) (s : State) : Out :=
  vword w cv (s.h.member .select [a, b] (gov k) [d] []) false (scanBody f before d a b k) s

/-- `VSCAN_IDX` (R377). -/
def execVscanIdx (cv : BitVec 1) (d : BitVec 5) (k : BitVec 3) (s : State) : Out :=
  vword ((0x6B000000#32 ||| fld cv 31 ||| fld d 19 ||| fld k 6)) cv (s.h.member .select [] (gov k) [d] []) (s.h.ew == 8) (idxBody d k) s

/-- `VSCAN_ADD` (R378). -/
def execVscanAdd (cv : BitVec 1) (d a b : BitVec 5) (k : BitVec 3) (s : State) : Out :=
  vscan ((0x6B000001#32 ||| fld cv 31 ||| fld d 19 ||| fld a 14 ||| fld b 9 ||| fld k 6)) (fun _ x y => x + y) false cv d a b k s

/-- `VSCAN_ADDX` (R378). -/
def execVscanAddx (cv : BitVec 1) (d a b : BitVec 5) (k : BitVec 3) (s : State) : Out :=
  vscan ((0x6B000002#32 ||| fld cv 31 ||| fld d 19 ||| fld a 14 ||| fld b 9 ||| fld k 6)) (fun _ x y => x + y) true cv d a b k s

/-- `VSCAN_MAX` (R378). -/
def execVscanMax (cv : BitVec 1) (d a b : BitVec 5) (k : BitVec 3) (s : State) : Out :=
  vscan ((0x6B000003#32 ||| fld cv 31 ||| fld d 19 ||| fld a 14 ||| fld b 9 ||| fld k 6)) (fun _ x y => if x.slt y then y else x) false cv d a b k s

/-- `VSCAN_MAXU` (R378). -/
def execVscanMaxu (cv : BitVec 1) (d a b : BitVec 5) (k : BitVec 3) (s : State) : Out :=
  vscan ((0x6B000004#32 ||| fld cv 31 ||| fld d 19 ||| fld a 14 ||| fld b 9 ||| fld k 6)) (fun _ x y => if x.ult y then y else x) false cv d a b k s

end Sys2Proof.Machine
end

