-- ==== Sys2Proof/Machine/ShuttleWords.lean ====
section
/-!
DEFINITION. The words of patterns, swatches, the shuttle and its ports (17_shuttle_completion_instructions.md, R286-R294).
-/

namespace Sys2Proof.Machine

/-! ## PSET and SWSET -/

/-- Load pattern-table entry `n` (R249, R287). -/
def putPat (c : Core) (n : Nat) (r : BitVec 512) : Core :=
  { c with pats := sset c.pats n { valid := patValid r, record := r } { valid := false, record := 0 } }

/-- `PSET` (R287). -/
def execPset (p : BitVec 8) (a : BitVec 6) (s : State) : Out :=
    settle s <| (loadRecord s (rx s a) 8).map fun r => { r.2 with c := putPat r.2.c p.toNat (BitVec.ofNat 512 r.1) }

/-- A swatch entry in the layout of R252, empty and with channel 0. -/
def swEntry (hid : BitVec 11) (off len : Nat) : Word :=
  BitVec.ofNat 64 (bits hid 2 0 * 2 ^ 40 + len % 2 ^ 20 * 2 ^ 20 + off % 2 ^ 20)

/-- A span cut to the scratchpad (R288): its first offset and its length. -/
def cutSpan (sp : Option (Int × Int)) : Nat × Nat :=
  match sp with
  | none => (0, 0)
  | some (a, b) => let lo := max a 0; let hi := min b 0xC0000; (lo.toNat, (hi - lo).toNat)

/-- Write swatch entry `n` once it is neither filling nor draining (R253, R288). -/
def writeSwatch (s : State) (n : BitVec 6) (w : Word) : Except Stop State :=
  if swState (swAt s.c n.toNat) = 1 ∨ swState (swAt s.c n.toNat) = 3 then .error (.wait .swatch)
  else .ok { s with c := { s.c with sws := s.c.sws.set n.toNat w } }

/-- `SWSET` of entry `n` from pattern `p` (R288); the offset of a span with no byte in the scratchpad is open. -/
def swset (p : BitVec 8) (n : BitVec 6) (s : State) : Out :=
  let e := patAt s.c p.toNat
  if !e.valid || !PRec.space e.record then .next (trap s Cause.patternInvalid (p.setWidth 64))
  else
    let (off, len) := cutSpan (patSpan e.record)
    let (off, t) := if len = 0 then let (k, t) := s.draw; ((Config.freeWord k).toNat, t) else (off, s)
    settle s (writeSwatch t n (swEntry s.hid off len))

/-- `SWSET.clr` of entry `n` (R288). -/
def swsetClr (n : BitVec 6) (s : State) : Out := settle s (writeSwatch s n (swEntry s.hid 0 0))

/-- `SWSET` (R288). -/
def execSwset (p : BitVec 8) (n : BitVec 6) (s : State) : Out := swset p n s

/-- `SWSET_CLR` (R288). -/
def execSwsetClr (n : BitVec 6) (s : State) : Out := swsetClr n s

/-- `SWSET_RESUME` (R288): a waiting `SWSET` proceeds if its entry has left the state. -/
def execSwsetResume (h : BitVec 11) (s : State) : Out :=
  .next <| retryAlone s h fun w t =>
    if seg w 24 8 ≠ 0x59 then none else if seg w 20 4 = 0 then some (swset (seg w 12 8) (seg w 0 6) t) else some (swsetClr (seg w 0 6) t)

/-! ## SHSTAGE -/

/-- Write a slot of a channel's staging area (R289). -/
def stage (s : State) (ch : BitVec 4) (f : Staging → Staging) : Out :=
  .next (done { s with c := editChan s.c ch.toNat fun k => { k with stg := f k.stg } })

/-- A base or barrier operand: register 0 means none (R289). -/
def stagedReg (s : State) (a : BitVec 6) : Option Word := if a = 0 then none else some (rx s a)

/-- `SHSTAGE_SRC` (R289). -/
def execShstageSrc (h : BitVec 4) (p : BitVec 8) (s : State) : Out := stage s h fun g => { g with src := some p }

/-- `SHSTAGE_DST` (R289). -/
def execShstageDst (h : BitVec 4) (p : BitVec 8) (s : State) : Out := stage s h fun g => { g with dst := some p }

/-- `SHSTAGE_IDX` (R289). -/
def execShstageIdx (h : BitVec 4) (p : BitVec 8) (s : State) : Out := stage s h fun g => { g with idx := some p }

/-- `SHSTAGE_SBASE` (R289). -/
def execShstageSbase (h : BitVec 4) (a : BitVec 6) (s : State) : Out := stage s h fun g => { g with sbase := stagedReg s a }

/-- `SHSTAGE_DBASE` (R289). -/
def execShstageDbase (h : BitVec 4) (a : BitVec 6) (s : State) : Out := stage s h fun g => { g with dbase := stagedReg s a }

/-- `SHSTAGE_BAR` (R289). -/
def execShstageBar (h : BitVec 4) (a : BitVec 6) (s : State) : Out := stage s h fun g => { g with bar := (stagedReg s a).map fun x => x.setWidth 20 }

/-- `SHSTAGE_SW` (R289). -/
def execShstageSw (h : BitVec 4) (n : BitVec 6) (s : State) : Out := stage s h fun g => { g with sw := some n }

/-- `SHSTAGE_PORT` (R289). -/
def execShstagePort (h : BitVec 4) (p : BitVec 8) (s : State) : Out := stage s h fun g => { g with port := some p }

/-- `SHSTAGE_RTN` (R289). -/
def execShstageRtn (h : BitVec 4) (n : BitVec 5) (s : State) : Out := stage s h fun g => { g with rtn := some n }

/-- `SHSTAGE_CLR` (R289). -/
def execShstageClr (h : BitVec 4) (s : State) : Out := stage s h fun _ => Staging.empty

/-- `SHSTAGE_RSTAT` (R289). -/
def execShstageRstat (h : BitVec 4) (s : State) : Out :=
    .next (done { s with c := editChan s.c h.toNat fun k => { k with statId := 0, stat := 0, faultAddr := 0, miss := 0 } })

/-! ## SHGO -/

/-- The source, index and destination entries that a kind requires are staged, and its port and routine (R290). -/
def slotsStaged (k : CmdKind) (g : Staging) : Bool :=
  match k with
  | .copy => g.src.isSome && g.dst.isSome
  | .rows => g.src.isSome && g.idx.isSome && g.dst.isSome
  | .stream => g.src.isSome && g.port.isSome
  | .send => g.src.isSome && g.dst.isSome && g.port.isSome
  | .bodkin => g.src.isSome && g.dst.isSome && g.rtn.isSome

/-- The demands of R290 on a source or destination entry. -/
def boxDemand (k : CmdKind) (r : BitVec 512) : Bool :=
  match k with
  | .rows => decide (2 ≤ PRec.rank r)
  | .stream => container (PRec.fmt r) == 4
  | _ => true

/-- The demands of R290 on an index entry. -/
def indexDemand (r : BitVec 512) : Bool :=
  let f := PRec.fmt r
  PRec.rank r == 1 && (f == Fmts.int32 || f == Fmts.uint32 || f == Fmts.int64 || f == Fmts.uint64)

/-- The first entry of a list that is invalid or fails its demand (R291). -/
def firstBad (c : Core) : List (BitVec 8 × (BitVec 512 → Bool)) → Option (BitVec 8)
  | [] => none
  | (n, f) :: l => let e := patAt c n.toNat; if e.valid && f e.record then firstBad c l else some n

/-- The entries that a kind reads, in the order src, idx, dst (R291). -/
def entriesOf (k : CmdKind) (g : Staging) : List (BitVec 8 × (BitVec 512 → Bool)) :=
  let src := (g.src.getD 0, boxDemand k)
  let dst := (g.dst.getD 0, boxDemand k)
  match k with
  | .rows => [src, (g.idx.getD 0, indexDemand), dst]
  | .stream => [src]
  | _ => [src, dst]

/-- A record with its BASE replaced by a staged base (R289). -/
def withBase (r : BitVec 512) (b : Option Word) : BitVec 512 :=
  match b with
  | none => r
  | some b => putBits r 0 b

/-- A kind has a destination pattern on this device (R257). -/
def CmdKind.writesHere : CmdKind → Bool
  | .copy => true | .rows => true | .bodkin => true | _ => false

/-- What a command's bound swatch becomes (R291), or its refusal. -/
def bindSwatch (s : State) (k : CmdKind) (w : Word) (src dst : BitVec 512) : Except Int Nat :=
  let within (p : BitVec 512) : Bool := PRec.space p && spanWithin (patSpan p) (swOff w) (swOff w + swLen w)
  if bits w 42 40 ≠ bits s.hid 2 0 then .error (-5)
  else if k.writesHere && within dst then (if swState w = 0 ∨ swState w = 2 then .ok 1 else .error (-1))
  else if within src then (if swState w = 2 then .ok 3 else .error (-1))
  else .error (-2)

/-- Dimension order of a pattern (R261). -/
def dimOrder (r : BitVec 512) : List Nat :=
  let ds := (List.range 4).filter fun d => decide (d < PRec.rank r) && decide (1 < PRec.ext r d)
  let first := ds.filter fun d => packedDim r == some d
  let rest := ds.filter fun d => packedDim r != some d
  let insert (d : Nat) (l : List Nat) : List Nat :=
    l.takeWhile (fun e => decide ((PRec.stride r e).natAbs ≤ (PRec.stride r d).natAbs)) ++
      d :: l.dropWhile (fun e => decide ((PRec.stride r e).natAbs ≤ (PRec.stride r d).natAbs))
  first ++ rest.foldl (fun l d => insert d l) []

/-- The overlap check of R261 fails. -/
def overlaps (k : CmdKind) (src dst : BitVec 512) : Bool :=
  let reshapes := PRec.layout src != PRec.layout dst || dimOrder src != dimOrder dst || PRec.fmt src != PRec.fmt dst
  (k == .bodkin || (k == .copy && reshapes)) && PRec.space src == PRec.space dst && spansMeet (patSpan src) (patSpan dst)

/-- Input bytes of a routine's source, its codes packed end to end (R267; log 15). -/
def inputBytes (r : BitVec 512) : Nat := (patCount r * fmtBits (PRec.fmt r) + 7) / 8

/-- The expected count of a command (R257, R267); that of a routine with RATIO 0 is 0 until its scout pass sets it (R268;
log 15). -/
def expectedCount (h : Hart) (k : CmdKind) (src dst idx : BitVec 512) (hdr : BitVec 256) : Nat :=
  match k with
  | .copy => patCount dst
  | .rows => PRec.ext idx 0
  | .stream => h.vl.toNat
  | .send => patCount src
  | .bodkin => rtnRatio hdr * ((inputBytes src + rtnChunk hdr - 1) / rtnChunk hdr)

/-- Commands of a channel that have been fired and not started (R256). -/
def queuedCount (k : Chan) : Nat := (k.cmds.filter fun x => x.at' == .queued).length

/-- The command gets its id, its swatch is bound, and it is queued, or fails its overlap check (R291). -/
def fire (s : State) (ch : Nat) (k : Cmd) (st : Option Nat) : State :=
  let s := match k.sw, st with
    | some n, some st => { s with c := setSwState { s.c with sws := s.c.sws.set n.toNat (putBits s.c.sws[n.toNat] 44 (BitVec.ofNat 4 ch)) } n st }
    | _, _ => s
  let s := { s with c := editChan s.c ch fun x => { x with next := x.next + 1 } }
  if overlaps k.kind k.src k.dst then failCmd s ch k 1
  else
    let s := { s with c := editChan s.c ch fun x => { x with cmds := x.cmds ++ [k] } }
    if k.expected = 0 ∧ k.scout = false ∧ (nextQueued s.c ch).map (·.id) = some k.id then startCmd s ch else s

/-- `SHGO` of a kind on channel `ch` (R291). A `stream` to a port above 7 is not accepted, with an answer that is open. -/
def shgo (k : CmdKind) (ch : BitVec 4) (d : BitVec 6) (rel : Bool) (s : State) : Out :=
  let c := chanOf s.c ch.toNat
  let g := c.stg
  let answer (n : Int) : Out := .next (done (wx s d (BitVec.ofInt 64 n)))
  if 16 ≤ queuedCount c then .next (await s .queue)
  else if !slotsStaged k g then answer (-3)
  else
    match firstBad s.c (entriesOf k g) with
    | some n => .next (trap s Cause.patternInvalid (n.setWidth 64))
    | none =>
      let rec' (n : Option (BitVec 8)) : BitVec 512 := (patAt s.c (n.getD 0).toNat).record
      let src := withBase (rec' g.src) g.sbase
      let dst := withBase (rec' g.dst) g.dbase
      let idx := rec' g.idx
      let rtn := sfind s.c.rtns (g.rtn.getD 0).toNat
      if k = .stream ∧ 8 ≤ (g.port.getD 0).toNat then
        let (n, s) := s.draw
        .next (done (wx s d (Config.freeWord n)))
      else if k = .bodkin ∧ rtn.isNone then answer (-6)
      else
        match (match g.sw with
          | some n => (bindSwatch s k s.c.sws[n.toNat] src dst).map some
          | none => .ok none) with
        | .error n => answer n
        | .ok st =>
          let s := if rel then s.release 2 else s
          let r := rtn.getD { header := 0, image := 0 }
          let cmd : Cmd :=
            { id := c.next, kind := k, hart := s.hid, src := src, dst := dst, idx := idx, sw := g.sw, bar := g.bar, port := g.port,
              rtn := (g.rtn.getD 0, r), asid := s.h.asid, ptroot := s.h.ptroot, prv := s.h.prv, vl := s.h.vl.toNat,
              at' := .queued, landed := 0, expected := expectedCount s.h k src dst idx r.header, snap := none, ahead := [], codes := [], part := [],
              scout := k == .bodkin && rtnRatio r.header == 0, stale := false }
          .next (done (wx (fire s ch.toNat cmd st) d (BitVec.ofNat 64 c.next)))

/-- `SHGO_COPY` (R291). -/
def execShgoCopy (h : BitVec 4) (d : BitVec 6) (r : BitVec 1) (s : State) : Out := shgo .copy h d (r == 1) s

/-- `SHGO_ROWS` (R291). -/
def execShgoRows (h : BitVec 4) (d : BitVec 6) (r : BitVec 1) (s : State) : Out := shgo .rows h d (r == 1) s

/-- `SHGO_STREAM` (R291). -/
def execShgoStream (h : BitVec 4) (d : BitVec 6) (r : BitVec 1) (s : State) : Out := shgo .stream h d (r == 1) s

/-- `SHGO_SEND` (R291). -/
def execShgoSend (h : BitVec 4) (d : BitVec 6) (r : BitVec 1) (s : State) : Out := shgo .send h d (r == 1) s

/-- `SHGO_BODKIN` (R291). -/
def execShgoBodkin (h : BitVec 4) (d : BitVec 6) (r : BitVec 1) (s : State) : Out := shgo .bodkin h d (r == 1) s

/-- The kind of a `SHGO` by its code (R290). -/
def kindOf (n : Nat) : Option CmdKind :=
  match n with
  | 0 => some .copy | 1 => some .rows | 2 => some .stream | 3 => some .send | 4 => some .bodkin | _ => none

/-- `SHGO_QUEUE_ROOM` (R291): a waiting `SHGO` proceeds if its channel's queue has room. -/
def execShgoQueueRoom (h : BitVec 11) (s : State) : Out :=
  .next <| retryAlone s h fun w t =>
    if seg w 24 8 ≠ 0x5B then none else (kindOf (bits w 2 0)).map fun k => shgo k (seg w 20 4) (seg w 6 6) (bit w 3) t

/-- `SWATCH_WAIT_END` (R254): the word of hart `h` stops waiting, and makes its check again when it next runs. -/
def execSwatchWaitEnd (h : BitVec 11) (s : State) : Out :=
  .next (onHart s h fun s => if s.h.wait = some .swatch then { s with h := { s.h with wait := none } } else s)

/-! ## SHSTAT and SHPORT -/

/-- An `SHSTAT` reads `v` (R293). -/
def shstat (d : BitVec 6) (v : Word) (s : State) : Out := .next (done (wx s d v))

/-- SHSTAT.landed of an id (R293). -/
def landedOf (k : Chan) (id : Nat) : Word :=
  match k.cmds.find? fun x => x.id == id with
  | some x => BitVec.ofNat 64 x.landed
  | none => if id = 0 ∨ k.next ≤ id then 0 else BitVec.allOnes 64

/-- `SHSTAT_TL` (R293). -/
def execShstatTl (h : BitVec 4) (d : BitVec 6) (s : State) : Out := shstat d (BitVec.ofNat 64 (chanTimeline (chanOf s.c h.toNat))) s

/-- `SHSTAT_MISS` (R293). -/
def execShstatMiss (h : BitVec 4) (d : BitVec 6) (s : State) : Out := shstat d ((chanOf s.c h.toNat).miss.setWidth 64) s

/-- `SHSTAT_ERR` (R293). -/
def execShstatErr (h : BitVec 4) (d : BitVec 6) (s : State) : Out :=
  let k := chanOf s.c h.toNat
  shstat d (BitVec.ofNat 64 (k.statId * 256 + k.stat.toNat)) s

/-- `SHSTAT_ADDR` (R293). -/
def execShstatAddr (h : BitVec 4) (d : BitVec 6) (s : State) : Out := shstat d (chanOf s.c h.toNat).faultAddr s

/-- `SHSTAT_LANDED` (R293). -/
def execShstatLanded (h : BitVec 4) (sf d : BitVec 6) (s : State) : Out := shstat d (landedOf (chanOf s.c h.toNat) (rx s sf).toNat) s

/-- `SHSTAT_NEXT` (R293). -/
def execShstatNext (h : BitVec 4) (d : BitVec 6) (s : State) : Out := shstat d (BitVec.ofNat 64 (chanOf s.c h.toNat).next) s

/-- `SHSTAT_SW` (R293). -/
def execShstatSw (n d : BitVec 6) (s : State) : Out := shstat d (swAt s.c n.toNat) s

/-- `SHSTAT_PV` (R293). -/
def execShstatPv (p : BitVec 8) (d : BitVec 6) (s : State) : Out := shstat d (boolWord (patAt s.c p.toNat).valid) s

/-- A port's occupant (R294): vector ports 0-7, this core's slots of fabric ports 0-11 at 16-27. -/
def portOcc (c : Core) (p : Nat) : Option (Nat × Nat) :=
  if p < 8 then (vport c (Fin.ofNat 8 p)).occ else c.fports.toList.getD (p - 16) none

/-- The oldest queued command of some channel waits for the port (R258, R294). -/
def portWanted (c : Core) (p : Nat) : Bool :=
  (List.range 16).any fun ch =>
    match nextQueued c ch with
    | none => false
    | some k => !portReady c k && ((k.kind == .stream && decide (p < 8) && k.port == some (BitVec.ofNat 8 p)) ||
        (k.kind == .send && decide (16 ≤ p) && k.port == some (BitVec.ofNat 8 (p - 16))))

/-- SHPORT.stat of a port (R294). -/
def portWord (c : Core) (p : Nat) : Word :=
  let occ := portOcc c p
  let claimed := decide (p < 8) && (vport c (Fin.ofNat 8 p)).claim.isSome
  BitVec.ofNat 64 ((occ.map (·.2)).getD 0 * 256 + (occ.map (·.1)).getD 0 * 16 + (if portWanted c p then 4 else 0) +
    (if claimed then 2 else 0) + (if occ.isSome then 1 else 0))

/-- `SHPORT_STAT` (R294). -/
def execShportStat (p : BitVec 8) (d : BitVec 6) (s : State) : Out := .next (done (wx s d (portWord s.c p.toNat)))

/-- `SHPORT_DISC` (R294). -/
def execShportDisc (p : BitVec 8) (s : State) : Out :=
  let n : Fin 8 := Fin.ofNat 8 p.toNat
  match (vport s.c n).occ with
  | none => .next (done s)
  | some (ch, id) =>
    if (vport s.c n).claim.isSome then .next (done s)
    else if (findCmd s.c ch id).isSome then .next (await s .port)
    else .next (done { s with c := setVport s.c n VPort.reset })

end Sys2Proof.Machine
end

