-- ==== Sys2Proof/Machine/Timeline.lean ====
section
/-!
DEFINITION. Timeline and barrier words, and the locking of cache lines (17_shuttle_completion_instructions.md, R295-R299; 14 R241).
-/

namespace Sys2Proof.Machine

/-! ## Timelines (R295) -/

/-- The counter that an id names is not there: `ACCESS` with the id (R295). -/
def noCounter (s : State) (id : Word) : Out := .next (trap s Cause.access id)

/-- The acquire of a wait that has passed (R295): from chiplet scope up it orders the hart's layer behind what the counter's signals followed
(R339, R340; log 43). -/
def passCounter (s : State) (sc : Nat) (id : Word) : State :=
  State.acquire (if 4 ≤ sc ∧ generalId id then { s with d := s.d.takeClock (layerOf s.hid) (bits id 15 0) } else s) sc

/-- A signal of a general counter after its release (R295), which carries the layer's clock from chiplet scope up (R339, R340; log 43). -/
def signalCounter (s : State) (sc : Nat) (id n : Word) : State :=
  let t := s.release sc
  let d := if 4 ≤ sc then t.d.sendClock (layerOf s.hid) (bits id 15 0) else t.d
  { t with d := d.signal (bits id 15 0) n }

/-- What a `WAITTL` for counter `id` to reach `n` waits for. -/
def counterWait (h : Hart) (id n : Word) : Wait := if bits id 63 56 = 3 then .unitCounter h.node (id.setWidth 32) n false else .timeline

/-- `WAITTL` for counter `id` to reach `n`, and the acquire that follows; a counter that reached `n` and then ended with its unit has satisfied it. -/
def waittl (sc : Nat) (id n : Word) (s : State) : Out :=
  if id = 0 then .next (done s)
  else
    match s.h.wait with
    | some (.unitCounter _ _ _ true) => .next (done (passCounter s sc id))
    | _ =>
      match counterOf s s.h.node id with
      | none => noCounter s id
      | some v => if n.toNat ≤ v.toNat then .next (done (passCounter s sc id)) else .next (await s (counterWait s.h id n))

/-- `WAITTL` (R295). -/
def execWaittl (sf : BitVec 3) (a b : BitVec 6) (s : State) : Out := waittl sf.toNat (rx s a) (rx s b) s

/-- `WAITTL_PASS` (R295): a waiting `WAITTL` passes if its counter has reached its value. -/
def execWaittlPass (h : BitVec 11) (s : State) : Out :=
  .next <| retryAlone s h fun w t =>
    if seg w 24 8 ≠ 0x64 ∨ seg w 18 3 ≠ 0 then none else some (waittl (bits w 23 21) (rx t (seg w 6 6)) (rx t (seg w 0 6)) t)

/-- `SIGTL` (R295). -/
def execSigtl (sf : BitVec 3) (a b : BitVec 6) (s : State) : Out :=
  let id := rx s a
  if id = 0 then .next (done s)
  else if !generalId id then noCounter s id
  else .next (done (signalCounter s sf.toNat id (rx s b)))

/-- `RDTL` (R295). -/
def execRdtl (d a : BitVec 6) (s : State) : Out :=
  let id := rx s a
  if id = 0 then .next (done (wx s d 0))
  else
    match counterOf s s.h.node id with
    | none => noCounter s id
    | some v => .next (done (wx s d v))

/-- `TRYTL` (R295). -/
def execTrytl (sf : BitVec 3) (d a b : BitVec 6) (s : State) : Out :=
  let id := rx s a
  if id = 0 then .next (done (wx s d 1))
  else
    match counterOf s s.h.node id with
    | none => noCounter s id
    | some v =>
      if (rx s b).toNat ≤ v.toNat then .next (done (wx (passCounter s sf.toNat id) d 1)) else .next (done (wx s d 0))

/-! ## Barriers (R297) -/

/-- The barrier object that x[a] names: its offset, or the trap of R297. -/
def barObject (x : Word) : Except Stop Nat :=
  let o := bits x 19 0
  if o % 8 ≠ 0 then .error (.trap Cause.misaligned x) else if 0xC0000 ≤ o then .error (.trap Cause.access x) else .ok o

/-- The object as a word that is read: poison raises `ACCESS` (R297). -/
def barRead (s : State) (x : Word) : Except Stop (Nat × Word) :=
  match barObject x with
  | .error e => .error e
  | .ok o => if spadPoisoned s.c o 8 then .error (.trap Cause.access x) else .ok (o, BitVec.ofNat 64 (Memory.read s.c.spad o 8))

/-- `BINIT` (R297). -/
def execBinit (sf : BitVec 3) (a b : BitVec 6) (s : State) : Out :=
  settle s <| (barObject (rx s a)).map fun o =>
    let x : BitVec 20 := BitVec.ofNat 20 (min (rx s b).toNat 1048575)
    spadWrite (s.release sf.toNat) o 8 (x.toNat * 2 ^ 20 + x.toNat)

/-- `BARRIVE` (R297). -/
def execBarrive (sf : BitVec 3) (d a b : BitVec 6) (s : State) : Out :=
  settle s <| (barRead s (rx s a)).map fun r =>
    let w := r.2
    let t := spadWrite (s.release sf.toNat) r.1 8 (barArrive w (min (rx s b).toNat (2 ^ 22 - 1))).toNat
    wx t d (boolWord (bit w 63) + (if barRem w = 0 then 2 else 0))

/-- `BWAIT` on the object that x[a] names for phase `p`: it passes once it has seen another phase (R297). -/
def bwait (sc : Nat) (x : Word) (p : Bool) (s : State) : Out :=
  match s.h.wait with
  | some (.barrier _ _ true) => .next (done (s.acquire sc))
  | _ =>
    match barRead s x with
    | .error e => settle s (.error e)
    | .ok (o, w) => if bit w 63 ≠ p then .next (done (s.acquire sc)) else .next (await s (.barrier o p false))

/-- `BWAIT` (R297). -/
def execBwait (sf : BitVec 3) (a b : BitVec 6) (s : State) : Out := bwait sf.toNat (rx s a) (bit (rx s b) 0) s

/-- `BTRY` (R297). -/
def execBtry (sf : BitVec 3) (d a b : BitVec 6) (s : State) : Out :=
  settle s <| (barRead s (rx s a)).map fun r =>
    if bit r.2 63 ≠ bit (rx s b) 0 then wx (s.acquire sf.toNat) d 1 else wx s d 0

/-- `BWAIT_PASS` (R297): a waiting `BWAIT` passes if its object has shown another phase. -/
def execBwaitPass (h : BitVec 11) (s : State) : Out :=
  .next <| retryAlone s h fun w t =>
    if seg w 24 8 ≠ 0x65 ∨ seg w 18 3 ≠ 2 then none else some (bwait (bits w 23 21) (rx t (seg w 6 6)) (bit (rx t (seg w 0 6)) 0) t)

/-! ## Locks (R241, R299) -/

/-- Locked lines of the L1 of core `q`. -/
def lockedLines (d : Device) (q : Nat) : Nat :=
  (d.l1.map fun e => if e.1 / 128 = q then (e.2.filter fun l => !l.locks.isEmpty).length else 0).sum

/-- Lock the line at `pa` for the hart in focus: the device with the line locked, none where R241 refuses, or where no way can take the line (R239; log 41). -/
def lockLine (s : State) (pa : Nat) (leaf : Word) : Option Device :=
  let d := s.d
  let me := s.hid.toNat
  let q := domainCore d (coreOf s.hid) pa
  let key := setKey d q pa
  let held := lineOf (sget d.l1 key []) (pa / 128)
  if held.any fun l => l.locks.contains me then some d
  else
    let others := held.any fun l => !l.locks.isEmpty
    if s.h.lockq.toNat ≤ lockedBy d s.hid ∨ (!others ∧ (512 ≤ lockedLines d q ∨ 6 ≤ ((sget d.l1 key []).filter fun l => !l.locks.isEmpty).length)) then none
    else
      match obtain d q pa (lineSide 0 leaf) with
      | (none, _) => none
      | (some l, d) => some (putLine d key { l with locks := me :: l.locks })

/-- Unlock the line at `pa`, none where the hart in focus has not locked it; a way kept without data goes free. -/
def unlockLine (s : State) (pa : Nat) : Option Device :=
  let d := s.d
  let me := s.hid.toNat
  let key := setKey d (domainCore d (coreOf s.hid) pa) pa
  let ls := sget d.l1 key []
  if (lineOf ls (pa / 128)).any fun l => l.locks.contains me then
    some { d with l1 := sput d.l1 key (ls.filterMap fun l =>
      if l.tag ≠ pa / 128 then some l
      else
        let l := { l with locks := l.locks.filter (· != me) }
        if !l.valid && l.locks.isEmpty then none else some l) }
  else none

/-- Whether the byte that a load would read is poisoned, in the domain's copy or else at the home, which first applies what a load's request covers
(R73, R343). -/
def bytePoisoned (s : State) (pl : Place) : Bool × State :=
  match pl with
  | .spad off => (spadPoisoned s.c off 1, s)
  | .mem pa _ =>
    let q := domainCore s.d (coreOf s.hid) pa
    let d := sendAway s.d q pa
    match (lineOf (sget d.l1 (setKey d q pa) []) (pa / 128)).filter (·.valid) with
    | some l => (linePoisoned l pa 1, { s with d := d })
    | none => atHome { s with d := d } pa
  | .dev pa _ => if inHbm pa then atHome s pa else (false, s)
where
  /-- The byte at its home, as a request of the hart's layer finds it. -/
  atHome (s : State) (pa : Nat) : Bool × State :=
    let r := homeLoad s.d (layerOf s.hid) pa 1
    (r.2.1, { s with d := r.2.2 })

/-- A lock word: 0 where it takes effect, 1 where it does not; the address is checked as a load of a byte is, poison included (R73, R299). -/
def lockWord (d : BitVec 6) (va : Word) (f : State → Nat → Word → Option Device) (s : State) : Out :=
  match place s .load va 1 with
  | .error e => settle s (.error e)
  | .ok (pl, t) =>
    match bytePoisoned t pl with
    | (true, _) => .next (trap s Cause.access va)
    | (false, t) =>
      match pl with
      | .mem pa leaf =>
        match f t pa leaf with
        | some v => .next (done (wx { t with d := v } d 0))
        | none => .next (done (wx t d 1))
      | _ => .next (done (wx t d 1))

/-- `LOCK` (R299). -/
def execLock (d a : BitVec 6) (s : State) : Out := lockWord d (rx s a) lockLine s

/-- `UNLOCK` (R299). -/
def execUnlock (d a : BitVec 6) (s : State) : Out := lockWord d (rx s a) (fun s pa _ => unlockLine s pa) s

end Sys2Proof.Machine
end

