-- ==== Sys2Proof/Machine/Dispatch.lean ====
section
/-!
DEFINITION. One arm per instruction: the meaning it has.
-/

namespace Sys2Proof.Machine

def exec (i : Instr) (s : State) : Host.Outcome State Fault Refusal :=
  match i with
  | .add d a b => Sys2Proof.Machine.execAdd d a b s
  | .sub d a b => Sys2Proof.Machine.execSub d a b s
  | .andR d a b => Sys2Proof.Machine.execAndR d a b s
  | .orR d a b => Sys2Proof.Machine.execOrR d a b s
  | .xorR d a b => Sys2Proof.Machine.execXorR d a b s
  | .sll d a b => Sys2Proof.Machine.execSll d a b s
  | .srl d a b => Sys2Proof.Machine.execSrl d a b s
  | .sra d a b => Sys2Proof.Machine.execSra d a b s
  | .slt d a b => Sys2Proof.Machine.execSlt d a b s
  | .sltu d a b => Sys2Proof.Machine.execSltu d a b s
  | .min d a b => Sys2Proof.Machine.execMin d a b s
  | .max d a b => Sys2Proof.Machine.execMax d a b s
  | .minu d a b => Sys2Proof.Machine.execMinu d a b s
  | .maxu d a b => Sys2Proof.Machine.execMaxu d a b s
  | .andn d a b => Sys2Proof.Machine.execAndn d a b s
  | .absd d a b => Sys2Proof.Machine.execAbsd d a b s
  | .mul d a b => Sys2Proof.Machine.execMul d a b s
  | .hmul d a b => Sys2Proof.Machine.execHmul d a b s
  | .hmulu d a b => Sys2Proof.Machine.execHmulu d a b s
  | .hmulsu d a b => Sys2Proof.Machine.execHmulsu d a b s
  | .div d a b => Sys2Proof.Machine.execDiv d a b s
  | .divu d a b => Sys2Proof.Machine.execDivu d a b s
  | .rem d a b => Sys2Proof.Machine.execRem d a b s
  | .remu d a b => Sys2Proof.Machine.execRemu d a b s
  | .clz d a => Sys2Proof.Machine.execClz d a s
  | .ctz d a => Sys2Proof.Machine.execCtz d a s
  | .popc d a => Sys2Proof.Machine.execPopc d a s
  | .bswap d a => Sys2Proof.Machine.execBswap d a s
  | .addw d a b => Sys2Proof.Machine.execAddw d a b s
  | .subw d a b => Sys2Proof.Machine.execSubw d a b s
  | .sllw d a b => Sys2Proof.Machine.execSllw d a b s
  | .srlw d a b => Sys2Proof.Machine.execSrlw d a b s
  | .sraw d a b => Sys2Proof.Machine.execSraw d a b s
  | .mulw d a b => Sys2Proof.Machine.execMulw d a b s
  | .divw d a b => Sys2Proof.Machine.execDivw d a b s
  | .divuw d a b => Sys2Proof.Machine.execDivuw d a b s
  | .remw d a b => Sys2Proof.Machine.execRemw d a b s
  | .remuw d a b => Sys2Proof.Machine.execRemuw d a b s
  | .addi d a im => Sys2Proof.Machine.execAddi d a im s
  | .addiw d a im => Sys2Proof.Machine.execAddiw d a im s
  | .andi d a im => Sys2Proof.Machine.execAndi d a im s
  | .ori d a im => Sys2Proof.Machine.execOri d a im s
  | .xori d a im => Sys2Proof.Machine.execXori d a im s
  | .slti d a im => Sys2Proof.Machine.execSlti d a im s
  | .sltiu d a im => Sys2Proof.Machine.execSltiu d a im s
  | .slli d a sf => Sys2Proof.Machine.execSlli d a sf s
  | .srli d a sf => Sys2Proof.Machine.execSrli d a sf s
  | .srai d a sf => Sys2Proof.Machine.execSrai d a sf s
  | .slliw d a sf => Sys2Proof.Machine.execSlliw d a sf s
  | .srliw d a sf => Sys2Proof.Machine.execSrliw d a sf s
  | .sraiw d a sf => Sys2Proof.Machine.execSraiw d a sf s
  | .lui d im => Sys2Proof.Machine.execLui d im s
  | .auipc d im => Sys2Proof.Machine.execAuipc d im s
  | .lb d a im => Sys2Proof.Machine.execLb d a im s
  | .lh d a im => Sys2Proof.Machine.execLh d a im s
  | .lw d a im => Sys2Proof.Machine.execLw d a im s
  | .ld d a im => Sys2Proof.Machine.execLd d a im s
  | .lbu d a im => Sys2Proof.Machine.execLbu d a im s
  | .lhu d a im => Sys2Proof.Machine.execLhu d a im s
  | .lwu d a im => Sys2Proof.Machine.execLwu d a im s
  | .sb b a im => Sys2Proof.Machine.execSb b a im s
  | .sh b a im => Sys2Proof.Machine.execSh b a im s
  | .sw b a im => Sys2Proof.Machine.execSw b a im s
  | .sd b a im => Sys2Proof.Machine.execSd b a im s
  | .fadd d a b p => Sys2Proof.Machine.execFadd d a b p s
  | .fsub d a b p => Sys2Proof.Machine.execFsub d a b p s
  | .fmul d a b p => Sys2Proof.Machine.execFmul d a b p s
  | .fdiv d a b p => Sys2Proof.Machine.execFdiv d a b p s
  | .fsqrt d a p => Sys2Proof.Machine.execFsqrt d a p s
  | .fmin d a b p => Sys2Proof.Machine.execFmin d a b p s
  | .fmax d a b p => Sys2Proof.Machine.execFmax d a b p s
  | .feq d a b p => Sys2Proof.Machine.execFeq d a b p s
  | .flt d a b p => Sys2Proof.Machine.execFlt d a b p s
  | .fle d a b p => Sys2Proof.Machine.execFle d a b p s
  | .fclass d a p => Sys2Proof.Machine.execFclass d a p s
  | .fsgnj d a b p => Sys2Proof.Machine.execFsgnj d a b p s
  | .fsgnjn d a b p => Sys2Proof.Machine.execFsgnjn d a b p s
  | .fsgnjx d a b p => Sys2Proof.Machine.execFsgnjx d a b p s
  | .fcvtif d a r t p => Sys2Proof.Machine.execFcvtif d a r t p s
  | .fcvtfi d a r t p => Sys2Proof.Machine.execFcvtfi d a r t p s
  | .fcvtff d a r sf p => Sys2Proof.Machine.execFcvtff d a r sf p s
  | .fmadd d a b p => Sys2Proof.Machine.execFmadd d a b p s
  | .fmsub d a b p => Sys2Proof.Machine.execFmsub d a b p s
  | .fnmadd d a b p => Sys2Proof.Machine.execFnmadd d a b p s
  | .fnmsub d a b p => Sys2Proof.Machine.execFnmsub d a b p s
  | .beq a b o => Sys2Proof.Machine.execBeq a b o s
  | .bne a b o => Sys2Proof.Machine.execBne a b o s
  | .blt a b o => Sys2Proof.Machine.execBlt a b o s
  | .bge a b o => Sys2Proof.Machine.execBge a b o s
  | .bltu a b o => Sys2Proof.Machine.execBltu a b o s
  | .bgeu a b o => Sys2Proof.Machine.execBgeu a b o s
  | .jal d o => Sys2Proof.Machine.execJal d o s
  | .jalr d a im => Sys2Proof.Machine.execJalr d a im s
  | .brvAny m o => Sys2Proof.Machine.execBrvAny m o s
  | .brvNone m o => Sys2Proof.Machine.execBrvNone m o s
  | .brvAll m o => Sys2Proof.Machine.execBrvAll m o s
  | .brvResolve h => Sys2Proof.Machine.execBrvResolve h s
  | .csrrd d n => Sys2Proof.Machine.execCsrrd d n s
  | .csrwr d a n => Sys2Proof.Machine.execCsrwr d a n s
  | .csrbs d a n => Sys2Proof.Machine.execCsrbs d a n s
  | .csrbc d a n => Sys2Proof.Machine.execCsrbc d a n s
  | .svc cv => Sys2Proof.Machine.execSvc cv s
  | .trap a => Sys2Proof.Machine.execTrap a s
  | .breakC cv => Sys2Proof.Machine.execBreakC cv s
  | .rett => Sys2Proof.Machine.execRett s
  | .wfi => Sys2Proof.Machine.execWfi s
  | .halt => Sys2Proof.Machine.execHalt s
  | .pause => Sys2Proof.Machine.execPause s
  | .pauseExpiry h => Sys2Proof.Machine.execPauseExpiry h s
  | .setvl d a z t l f e => Sys2Proof.Machine.execSetvl d a z t l f e s
  | .setvlx d a b => Sys2Proof.Machine.execSetvlx d a b s
  | .setvlxKeep d a => Sys2Proof.Machine.execSetvlxKeep d a s
  | .setvlGrant h => Sys2Proof.Machine.execSetvlGrant h s
  | .lpartWrite h v => Sys2Proof.Machine.execLpartWrite h v s
  | .lpartStallEnd h => Sys2Proof.Machine.execLpartStallEnd h s
  | .smmWrite h => Sys2Proof.Machine.execSmmWrite h s
  | .foccWrite h n v => Sys2Proof.Machine.execFoccWrite h n v s
  | .fcsrWrite h v => Sys2Proof.Machine.execFcsrWrite h v s
  | .vdirtyWrite h v => Sys2Proof.Machine.execVdirtyWrite h v s
  | .registerWrite host h n v => Sys2Proof.Machine.execRegisterWrite host h n v s
  | .convoyStart h => Sys2Proof.Machine.execConvoyStart h s
  | .vaddVv cv d a b k => Sys2Proof.Machine.execVaddVv cv d a b k s
  | .vsubVv cv d a b k => Sys2Proof.Machine.execVsubVv cv d a b k s
  | .vandVv cv d a b k => Sys2Proof.Machine.execVandVv cv d a b k s
  | .vorVv cv d a b k => Sys2Proof.Machine.execVorVv cv d a b k s
  | .vxorVv cv d a b k => Sys2Proof.Machine.execVxorVv cv d a b k s
  | .vsllVv cv d a b k => Sys2Proof.Machine.execVsllVv cv d a b k s
  | .vsrlVv cv d a b k => Sys2Proof.Machine.execVsrlVv cv d a b k s
  | .vsraVv cv d a b k => Sys2Proof.Machine.execVsraVv cv d a b k s
  | .vminVv cv d a b k => Sys2Proof.Machine.execVminVv cv d a b k s
  | .vmaxVv cv d a b k => Sys2Proof.Machine.execVmaxVv cv d a b k s
  | .vminuVv cv d a b k => Sys2Proof.Machine.execVminuVv cv d a b k s
  | .vmaxuVv cv d a b k => Sys2Proof.Machine.execVmaxuVv cv d a b k s
  | .vmulVv cv d a b k => Sys2Proof.Machine.execVmulVv cv d a b k s
  | .vhmulVv cv d a b k => Sys2Proof.Machine.execVhmulVv cv d a b k s
  | .vhmuluVv cv d a b k => Sys2Proof.Machine.execVhmuluVv cv d a b k s
  | .vhmulsuVv cv d a b k => Sys2Proof.Machine.execVhmulsuVv cv d a b k s
  | .vdivVv cv d a b k => Sys2Proof.Machine.execVdivVv cv d a b k s
  | .vdivuVv cv d a b k => Sys2Proof.Machine.execVdivuVv cv d a b k s
  | .vremVv cv d a b k => Sys2Proof.Machine.execVremVv cv d a b k s
  | .vremuVv cv d a b k => Sys2Proof.Machine.execVremuVv cv d a b k s
  | .vclzVv cv d a k => Sys2Proof.Machine.execVclzVv cv d a k s
  | .vctzVv cv d a k => Sys2Proof.Machine.execVctzVv cv d a k s
  | .vpopcVv cv d a k => Sys2Proof.Machine.execVpopcVv cv d a k s
  | .vaddVx cv d a x k => Sys2Proof.Machine.execVaddVx cv d a x k s
  | .vsubVx cv d a x k => Sys2Proof.Machine.execVsubVx cv d a x k s
  | .vandVx cv d a x k => Sys2Proof.Machine.execVandVx cv d a x k s
  | .vorVx cv d a x k => Sys2Proof.Machine.execVorVx cv d a x k s
  | .vxorVx cv d a x k => Sys2Proof.Machine.execVxorVx cv d a x k s
  | .vsllVx cv d a x k => Sys2Proof.Machine.execVsllVx cv d a x k s
  | .vsrlVx cv d a x k => Sys2Proof.Machine.execVsrlVx cv d a x k s
  | .vsraVx cv d a x k => Sys2Proof.Machine.execVsraVx cv d a x k s
  | .vminVx cv d a x k => Sys2Proof.Machine.execVminVx cv d a x k s
  | .vmaxVx cv d a x k => Sys2Proof.Machine.execVmaxVx cv d a x k s
  | .vminuVx cv d a x k => Sys2Proof.Machine.execVminuVx cv d a x k s
  | .vmaxuVx cv d a x k => Sys2Proof.Machine.execVmaxuVx cv d a x k s
  | .vmulVx cv d a x k => Sys2Proof.Machine.execVmulVx cv d a x k s
  | .vhmulVx cv d a x k => Sys2Proof.Machine.execVhmulVx cv d a x k s
  | .vhmuluVx cv d a x k => Sys2Proof.Machine.execVhmuluVx cv d a x k s
  | .vhmulsuVx cv d a x k => Sys2Proof.Machine.execVhmulsuVx cv d a x k s
  | .vdivVx cv d a x k => Sys2Proof.Machine.execVdivVx cv d a x k s
  | .vdivuVx cv d a x k => Sys2Proof.Machine.execVdivuVx cv d a x k s
  | .vremVx cv d a x k => Sys2Proof.Machine.execVremVx cv d a x k s
  | .vremuVx cv d a x k => Sys2Proof.Machine.execVremuVx cv d a x k s
  | .vclzVx cv d a k => Sys2Proof.Machine.execVclzVx cv d a k s
  | .vctzVx cv d a k => Sys2Proof.Machine.execVctzVx cv d a k s
  | .vpopcVx cv d a k => Sys2Proof.Machine.execVpopcVx cv d a k s
  | .vrsubVx cv d a x k => Sys2Proof.Machine.execVrsubVx cv d a x k s
  | .vaddVi cv d a im k => Sys2Proof.Machine.execVaddVi cv d a im k s
  | .vandVi cv d a im k => Sys2Proof.Machine.execVandVi cv d a im k s
  | .vorVi cv d a im k => Sys2Proof.Machine.execVorVi cv d a im k s
  | .vxorVi cv d a im k => Sys2Proof.Machine.execVxorVi cv d a im k s
  | .vsllVi cv d a im k => Sys2Proof.Machine.execVsllVi cv d a im k s
  | .vsrlVi cv d a im k => Sys2Proof.Machine.execVsrlVi cv d a im k s
  | .vsraVi cv d a im k => Sys2Proof.Machine.execVsraVi cv d a im k s
  | .vminVi cv d a im k => Sys2Proof.Machine.execVminVi cv d a im k s
  | .vmaxVi cv d a im k => Sys2Proof.Machine.execVmaxVi cv d a im k s
  | .vminuVi cv d a im k => Sys2Proof.Machine.execVminuVi cv d a im k s
  | .vmaxuVi cv d a im k => Sys2Proof.Machine.execVmaxuVi cv d a im k s
  | .vrsubVi cv d a im k => Sys2Proof.Machine.execVrsubVi cv d a im k s
  | .vsadd cv d a b k => Sys2Proof.Machine.execVsadd cv d a b k s
  | .vsaddu cv d a b k => Sys2Proof.Machine.execVsaddu cv d a b k s
  | .vssub cv d a b k => Sys2Proof.Machine.execVssub cv d a b k s
  | .vssubu cv d a b k => Sys2Proof.Machine.execVssubu cv d a b k s
  | .vsmul cv d a b k => Sys2Proof.Machine.execVsmul cv d a b k s
  | .vavg cv d a b k => Sys2Proof.Machine.execVavg cv d a b k s
  | .vavgu cv d a b k => Sys2Proof.Machine.execVavgu cv d a b k s
  | .vfaddVv cv d a b k => Sys2Proof.Machine.execVfaddVv cv d a b k s
  | .vfsubVv cv d a b k => Sys2Proof.Machine.execVfsubVv cv d a b k s
  | .vfmulVv cv d a b k => Sys2Proof.Machine.execVfmulVv cv d a b k s
  | .vfdivVv cv d a b k => Sys2Proof.Machine.execVfdivVv cv d a b k s
  | .vfsqrtVv cv d a k => Sys2Proof.Machine.execVfsqrtVv cv d a k s
  | .vfminVv cv d a b k => Sys2Proof.Machine.execVfminVv cv d a b k s
  | .vfmaxVv cv d a b k => Sys2Proof.Machine.execVfmaxVv cv d a b k s
  | .vfsgnjVv cv d a b k => Sys2Proof.Machine.execVfsgnjVv cv d a b k s
  | .vfsgnjnVv cv d a b k => Sys2Proof.Machine.execVfsgnjnVv cv d a b k s
  | .vfsgnjxVv cv d a b k => Sys2Proof.Machine.execVfsgnjxVv cv d a b k s
  | .vfclassVv cv d a k => Sys2Proof.Machine.execVfclassVv cv d a k s
  | .vfrsubVv cv d a b k => Sys2Proof.Machine.execVfrsubVv cv d a b k s
  | .vfrdivVv cv d a b k => Sys2Proof.Machine.execVfrdivVv cv d a b k s
  | .vfaddVx cv d a x k => Sys2Proof.Machine.execVfaddVx cv d a x k s
  | .vfsubVx cv d a x k => Sys2Proof.Machine.execVfsubVx cv d a x k s
  | .vfmulVx cv d a x k => Sys2Proof.Machine.execVfmulVx cv d a x k s
  | .vfdivVx cv d a x k => Sys2Proof.Machine.execVfdivVx cv d a x k s
  | .vfsqrtVx cv d a k => Sys2Proof.Machine.execVfsqrtVx cv d a k s
  | .vfminVx cv d a x k => Sys2Proof.Machine.execVfminVx cv d a x k s
  | .vfmaxVx cv d a x k => Sys2Proof.Machine.execVfmaxVx cv d a x k s
  | .vfsgnjVx cv d a x k => Sys2Proof.Machine.execVfsgnjVx cv d a x k s
  | .vfsgnjnVx cv d a x k => Sys2Proof.Machine.execVfsgnjnVx cv d a x k s
  | .vfsgnjxVx cv d a x k => Sys2Proof.Machine.execVfsgnjxVx cv d a x k s
  | .vfclassVx cv d a k => Sys2Proof.Machine.execVfclassVx cv d a k s
  | .vfrsubVx cv d a x k => Sys2Proof.Machine.execVfrsubVx cv d a x k s
  | .vfrdivVx cv d a x k => Sys2Proof.Machine.execVfrdivVx cv d a x k s
  | .vfmadd cv d a b k => Sys2Proof.Machine.execVfmadd cv d a b k s
  | .vfmsub cv d a b k => Sys2Proof.Machine.execVfmsub cv d a b k s
  | .vfnmadd cv d a b k => Sys2Proof.Machine.execVfnmadd cv d a b k s
  | .vfnmsub cv d a b k => Sys2Proof.Machine.execVfnmsub cv d a b k s
  | .vmacc cv d a b k => Sys2Proof.Machine.execVmacc cv d a b k s
  | .vnmsac cv d a b k => Sys2Proof.Machine.execVnmsac cv d a b k s
  | .vwmacc cv d a b k => Sys2Proof.Machine.execVwmacc cv d a b k s
  | .vwmaccu cv d a b k => Sys2Proof.Machine.execVwmaccu cv d a b k s
  | .vwmaccsu cv d a b k => Sys2Proof.Machine.execVwmaccsu cv d a b k s
  | .vfwmacc cv d a b k => Sys2Proof.Machine.execVfwmacc cv d a b k s
  | .vseq cv d a b k => Sys2Proof.Machine.execVseq cv d a b k s
  | .vsne cv d a b k => Sys2Proof.Machine.execVsne cv d a b k s
  | .vslt cv d a b k => Sys2Proof.Machine.execVslt cv d a b k s
  | .vsltu cv d a b k => Sys2Proof.Machine.execVsltu cv d a b k s
  | .vsle cv d a b k => Sys2Proof.Machine.execVsle cv d a b k s
  | .vsleu cv d a b k => Sys2Proof.Machine.execVsleu cv d a b k s
  | .vfeq cv d a b k => Sys2Proof.Machine.execVfeq cv d a b k s
  | .vfne cv d a b k => Sys2Proof.Machine.execVfne cv d a b k s
  | .vflt cv d a b k => Sys2Proof.Machine.execVflt cv d a b k s
  | .vfle cv d a b k => Sys2Proof.Machine.execVfle cv d a b k s
  | .vford cv d a b k => Sys2Proof.Machine.execVford cv d a b k s
  | .kand cv d a b => Sys2Proof.Machine.execKand cv d a b s
  | .kor cv d a b => Sys2Proof.Machine.execKor cv d a b s
  | .kxor cv d a b => Sys2Proof.Machine.execKxor cv d a b s
  | .kandn cv d a b => Sys2Proof.Machine.execKandn cv d a b s
  | .korn cv d a b => Sys2Proof.Machine.execKorn cv d a b s
  | .knot cv d a => Sys2Proof.Machine.execKnot cv d a s
  | .kmov cv d a => Sys2Proof.Machine.execKmov cv d a s
  | .kfromsmm cv d => Sys2Proof.Machine.execKfromsmm cv d s
  | .ktosmm cv a => Sys2Proof.Machine.execKtosmm cv a s
  | .kfromv cv d a => Sys2Proof.Machine.execKfromv cv d a s
  | .ktov cv d a => Sys2Proof.Machine.execKtov cv d a s
  | .vredsum cv d a b k => Sys2Proof.Machine.execVredsum cv d a b k s
  | .vredmin cv d a b k => Sys2Proof.Machine.execVredmin cv d a b k s
  | .vredmax cv d a b k => Sys2Proof.Machine.execVredmax cv d a b k s
  | .vredminu cv d a b k => Sys2Proof.Machine.execVredminu cv d a b k s
  | .vredmaxu cv d a b k => Sys2Proof.Machine.execVredmaxu cv d a b k s
  | .vredand cv d a b k => Sys2Proof.Machine.execVredand cv d a b k s
  | .vredor cv d a b k => Sys2Proof.Machine.execVredor cv d a b k s
  | .vredxor cv d a b k => Sys2Proof.Machine.execVredxor cv d a b k s
  | .vfredsum cv d a b k => Sys2Proof.Machine.execVfredsum cv d a b k s
  | .vfredmin cv d a b k => Sys2Proof.Machine.execVfredmin cv d a b k s
  | .vfredmax cv d a b k => Sys2Proof.Machine.execVfredmax cv d a b k s
  | .vredo cv d a b k => Sys2Proof.Machine.execVredo cv d a b k s
  | .vshuf cv d a b k => Sys2Proof.Machine.execVshuf cv d a b k s
  | .vpack cv d a k => Sys2Proof.Machine.execVpack cv d a k s
  | .vrank cv d b k => Sys2Proof.Machine.execVrank cv d b k s
  | .vramp cv d k => Sys2Proof.Machine.execVramp cv d k s
  | .vrampS cv d a k => Sys2Proof.Machine.execVrampS cv d a k s
  | .vbcast cv d x k => Sys2Proof.Machine.execVbcast cv d x k s
  | .vtox cv n a x => Sys2Proof.Machine.execVtox cv n a x s
  | .xtov cv d n x => Sys2Proof.Machine.execXtov cv d n x s
  | .vshup cv d a x k => Sys2Proof.Machine.execVshup cv d a x k s
  | .vshdn cv d a x k => Sys2Proof.Machine.execVshdn cv d a x k s
  | .kcount cv a x k => Sys2Proof.Machine.execKcount cv a x k s
  | .klead cv a x k => Sys2Proof.Machine.execKlead cv a x k s
  | .vld cv v a k sf => Sys2Proof.Machine.execVld cv v a k sf s
  | .vldStr cv v a b k sf => Sys2Proof.Machine.execVldStr cv v a b k sf s
  | .vldM cv v a sf => Sys2Proof.Machine.execVldM cv v a sf s
  | .vst cv v a k sf => Sys2Proof.Machine.execVst cv v a k sf s
  | .vstStr cv v a b k sf => Sys2Proof.Machine.execVstStr cv v a b k sf s
  | .vstM cv v a sf => Sys2Proof.Machine.execVstM cv v a sf s
  | .vcvt cv d a f k r t e => Sys2Proof.Machine.execVcvt cv d a f k r t e s
  | .slicvt cv d a f k r t e => Sys2Proof.Machine.execSlicvt cv d a f k r t e s
  | .vquant cv d a f k r => Sys2Proof.Machine.execVquant cv d a f k r s
  | .vdeq cv d a f k r => Sys2Proof.Machine.execVdeq cv d a f k r s
  | .sliopAdd cv d a b k => Sys2Proof.Machine.execSliopAdd cv d a b k s
  | .sliopSub cv d a b k => Sys2Proof.Machine.execSliopSub cv d a b k s
  | .sliopMul cv d a b k => Sys2Proof.Machine.execSliopMul cv d a b k s
  | .sliopDiv cv d a b k => Sys2Proof.Machine.execSliopDiv cv d a b k s
  | .slixAdd cv d a x k => Sys2Proof.Machine.execSlixAdd cv d a x k s
  | .slixSub cv d a x k => Sys2Proof.Machine.execSlixSub cv d a x k s
  | .slixMul cv d a x k => Sys2Proof.Machine.execSlixMul cv d a x k s
  | .slixDiv cv d a x k => Sys2Proof.Machine.execSlixDiv cv d a x k s
  | .slixRsub cv d a x k => Sys2Proof.Machine.execSlixRsub cv d a x k s
  | .slixRdiv cv d a x k => Sys2Proof.Machine.execSlixRdiv cv d a x k s
  | .slifnExp cv d a k => Sys2Proof.Machine.execSlifnExp cv d a k s
  | .slifnLog cv d a k => Sys2Proof.Machine.execSlifnLog cv d a k s
  | .sliredSum cv d a b k => Sys2Proof.Machine.execSliredSum cv d a b k s
  | .sliredMax cv d a b k => Sys2Proof.Machine.execSliredMax cv d a b k s
  | .sliredMin cv d a b k => Sys2Proof.Machine.execSliredMin cv d a b k s
  | .vtransExp cv d a k => Sys2Proof.Machine.execVtransExp cv d a k s
  | .vtransExp2 cv d a k => Sys2Proof.Machine.execVtransExp2 cv d a k s
  | .vtransLog cv d a k => Sys2Proof.Machine.execVtransLog cv d a k s
  | .vtransLog2 cv d a k => Sys2Proof.Machine.execVtransLog2 cv d a k s
  | .vtransRcp cv d a k => Sys2Proof.Machine.execVtransRcp cv d a k s
  | .vtransRsqrt cv d a k => Sys2Proof.Machine.execVtransRsqrt cv d a k s
  | .vtransTanh cv d a k => Sys2Proof.Machine.execVtransTanh cv d a k s
  | .fmatch cv m a b x => Sys2Proof.Machine.execFmatch cv m a b x s
  | .fisectMul cv d a b => Sys2Proof.Machine.execFisectMul cv d a b s
  | .fisectFirst cv d a b => Sys2Proof.Machine.execFisectFirst cv d a b s
  | .fisectSecond cv d a b => Sys2Proof.Machine.execFisectSecond cv d a b s
  | .fisectAdd cv d a b => Sys2Proof.Machine.execFisectAdd cv d a b s
  | .fisectMin cv d a b => Sys2Proof.Machine.execFisectMin cv d a b s
  | .fisectMax cv d a b => Sys2Proof.Machine.execFisectMax cv d a b s
  | .funionFirst cv d a b => Sys2Proof.Machine.execFunionFirst cv d a b s
  | .funionSecond cv d a b => Sys2Proof.Machine.execFunionSecond cv d a b s
  | .funionAdd cv d a b => Sys2Proof.Machine.execFunionAdd cv d a b s
  | .funionMin cv d a b => Sys2Proof.Machine.execFunionMin cv d a b s
  | .funionMax cv d a b => Sys2Proof.Machine.execFunionMax cv d a b s
  | .fmergeFirst cv d a b => Sys2Proof.Machine.execFmergeFirst cv d a b s
  | .fmergeLast cv d a b => Sys2Proof.Machine.execFmergeLast cv d a b s
  | .fmergeAdd cv d a b => Sys2Proof.Machine.execFmergeAdd cv d a b s
  | .fmergeMin cv d a b => Sys2Proof.Machine.execFmergeMin cv d a b s
  | .fmergeMax cv d a b => Sys2Proof.Machine.execFmergeMax cv d a b s
  | .fmergeSortFirst cv d a => Sys2Proof.Machine.execFmergeSortFirst cv d a s
  | .fmergeSortLast cv d a => Sys2Proof.Machine.execFmergeSortLast cv d a s
  | .fmergeSortAdd cv d a => Sys2Proof.Machine.execFmergeSortAdd cv d a s
  | .fmergeSortMin cv d a => Sys2Proof.Machine.execFmergeSortMin cv d a s
  | .fmergeSortMax cv d a => Sys2Proof.Machine.execFmergeSortMax cv d a s
  | .fcompact cv d a k => Sys2Proof.Machine.execFcompact cv d a k s
  | .fexpand cv d a b => Sys2Proof.Machine.execFexpand cv d a b s
  | .fwalkIdx cv v a b => Sys2Proof.Machine.execFwalkIdx cv v a b s
  | .fwalkVals cv v a b => Sys2Proof.Machine.execFwalkVals cv v a b s
  | .fdot cv a b x => Sys2Proof.Machine.execFdot cv a b x s
  | .fdotIsect cv a b x => Sys2Proof.Machine.execFdotIsect cv a b x s
  | .fmapMul cv d a k sf => Sys2Proof.Machine.execFmapMul cv d a k sf s
  | .fmapAdd cv d a k sf => Sys2Proof.Machine.execFmapAdd cv d a k sf s
  | .fmapAbs cv d a k => Sys2Proof.Machine.execFmapAbs cv d a k s
  | .fmapNeg cv d a k => Sys2Proof.Machine.execFmapNeg cv d a k s
  | .fmapRelu cv d a k => Sys2Proof.Machine.execFmapRelu cv d a k s
  | .fmov cv d a => Sys2Proof.Machine.execFmov cv d a s
  | .ftodense cv a v => Sys2Proof.Machine.execFtodense cv a v s
  | .ffromdense cv d k v => Sys2Proof.Machine.execFfromdense cv d k v s
  | .foccr cv a x => Sys2Proof.Machine.execFoccr cv a x s
  | .foccw cv d x => Sys2Proof.Machine.execFoccw cv d x s
  | .fldstLd cv v a b sf => Sys2Proof.Machine.execFldstLd cv v a b sf s
  | .fldstSt cv v a sf => Sys2Proof.Machine.execFldstSt cv v a sf s
  | .vldx cv v a b k sf q => Sys2Proof.Machine.execVldx cv v a b k sf q s
  | .vstx cv v a b k sf q => Sys2Proof.Machine.execVstx cv v a b k sf q s
  | .vldff cv v a x k sf => Sys2Proof.Machine.execVldff cv v a x k sf s
  | .vgathb cv v a b k q => Sys2Proof.Machine.execVgathb cv v a b k q s
  | .vscatbSt cv v a b k q => Sys2Proof.Machine.execVscatbSt cv v a b k q s
  | .vscatbAdd cv v a b k q => Sys2Proof.Machine.execVscatbAdd cv v a b k q s
  | .vscatbFadd cv v a b k q => Sys2Proof.Machine.execVscatbFadd cv v a b k q s
  | .vscatbMax cv v a b k q => Sys2Proof.Machine.execVscatbMax cv v a b k q s
  | .vlds cv v p k => Sys2Proof.Machine.execVlds cv v p k s
  | .vspadLd cv v a x k => Sys2Proof.Machine.execVspadLd cv v a x k s
  | .vspadSt cv v a x k => Sys2Proof.Machine.execVspadSt cv v a x k s
  | .vamoAdd cv v a sf r q k => Sys2Proof.Machine.execVamoAdd cv v a sf r q k s
  | .vamoAnd cv v a sf r q k => Sys2Proof.Machine.execVamoAnd cv v a sf r q k s
  | .vamoOr cv v a sf r q k => Sys2Proof.Machine.execVamoOr cv v a sf r q k s
  | .vamoXor cv v a sf r q k => Sys2Proof.Machine.execVamoXor cv v a sf r q k s
  | .vamoSwap cv v a sf r q k => Sys2Proof.Machine.execVamoSwap cv v a sf r q k s
  | .vamoMin cv v a sf r q k => Sys2Proof.Machine.execVamoMin cv v a sf r q k s
  | .vamoMax cv v a sf r q k => Sys2Proof.Machine.execVamoMax cv v a sf r q k s
  | .vamoFadd32 cv v a sf r q k => Sys2Proof.Machine.execVamoFadd32 cv v a sf r q k s
  | .vamoUmin cv v a sf r q k => Sys2Proof.Machine.execVamoUmin cv v a sf r q k s
  | .vamoUmax cv v a sf r q k => Sys2Proof.Machine.execVamoUmax cv v a sf r q k s
  | .vamoIncb cv v a sf r q k => Sys2Proof.Machine.execVamoIncb cv v a sf r q k s
  | .vamoFmin32 cv v a sf r q k => Sys2Proof.Machine.execVamoFmin32 cv v a sf r q k s
  | .vamoFmax32 cv v a sf r q k => Sys2Proof.Machine.execVamoFmax32 cv v a sf r q k s
  | .vamoAdd32w cv v a sf q k => Sys2Proof.Machine.execVamoAdd32w cv v a sf q k s
  | .vamoFadd16x2 cv v a sf r q k => Sys2Proof.Machine.execVamoFadd16x2 cv v a sf r q k s
  | .vselMax cv d a k => Sys2Proof.Machine.execVselMax cv d a k s
  | .vselMin cv d a k => Sys2Proof.Machine.execVselMin cv d a k s
  | .vselMaxClr cv d a k => Sys2Proof.Machine.execVselMaxClr cv d a k s
  | .vselMinClr cv d a k => Sys2Proof.Machine.execVselMinClr cv d a k s
  | .vexitBefore cv d b k => Sys2Proof.Machine.execVexitBefore cv d b k s
  | .vexitIncl cv d b k => Sys2Proof.Machine.execVexitIncl cv d b k s
  | .vexitOnly cv d b k => Sys2Proof.Machine.execVexitOnly cv d b k s
  | .vscanIdx cv d k => Sys2Proof.Machine.execVscanIdx cv d k s
  | .vscanAdd cv d a b k => Sys2Proof.Machine.execVscanAdd cv d a b k s
  | .vscanAddx cv d a b k => Sys2Proof.Machine.execVscanAddx cv d a b k s
  | .vscanMax cv d a b k => Sys2Proof.Machine.execVscanMax cv d a b k s
  | .vscanMaxu cv d a b k => Sys2Proof.Machine.execVscanMaxu cv d a b k s
  | .ltsplit m => Sys2Proof.Machine.execLtsplit m s
  | .ltjoin => Sys2Proof.Machine.execLtjoin s
  | .ltyield => Sys2Proof.Machine.execLtyield s
  | .ltid d => Sys2Proof.Machine.execLtid d s
  | .splitRegionJoin h => Sys2Proof.Machine.execSplitRegionJoin h s
  | .mshape cv a => Sys2Proof.Machine.execMshape cv a s
  | .mmaSet cv x a b => Sys2Proof.Machine.execMmaSet cv x a b s
  | .mmaAcc cv x a b => Sys2Proof.Machine.execMmaAcc cv x a b s
  | .mmaSetSp cv x a b => Sys2Proof.Machine.execMmaSetSp cv x a b s
  | .mmaAccSp cv x a b => Sys2Proof.Machine.execMmaAccSp cv x a b s
  | .mmaSetGrp cv x a b => Sys2Proof.Machine.execMmaSetGrp cv x a b s
  | .mmaAccGrp cv x a b => Sys2Proof.Machine.execMmaAccGrp cv x a b s
  | .mmagSet cv x a b => Sys2Proof.Machine.execMmagSet cv x a b s
  | .mmagAcc cv x a b => Sys2Proof.Machine.execMmagAcc cv x a b s
  | .mmetaMeta cv sf v => Sys2Proof.Machine.execMmetaMeta cv sf v s
  | .mmetaIdx cv v => Sys2Proof.Machine.execMmetaIdx cv v s
  | .mmetaRows cv v => Sys2Proof.Machine.execMmetaRows cv v s
  | .mtileZero cv x => Sys2Proof.Machine.execMtileZero cv x s
  | .mtileLd cv x p => Sys2Proof.Machine.execMtileLd cv x p s
  | .mtileSt cv x p => Sys2Proof.Machine.execMtileSt cv x p s
  | .mdrain cv x v r => Sys2Proof.Machine.execMdrain cv x v r s
  | .matrixConvoyStart h => Sys2Proof.Machine.execMatrixConvoyStart h s
  | .pset p a => Sys2Proof.Machine.execPset p a s
  | .swset p n => Sys2Proof.Machine.execSwset p n s
  | .swsetClr n => Sys2Proof.Machine.execSwsetClr n s
  | .swsetResume h => Sys2Proof.Machine.execSwsetResume h s
  | .shstageSrc h p => Sys2Proof.Machine.execShstageSrc h p s
  | .shstageDst h p => Sys2Proof.Machine.execShstageDst h p s
  | .shstageIdx h p => Sys2Proof.Machine.execShstageIdx h p s
  | .shstageSbase h a => Sys2Proof.Machine.execShstageSbase h a s
  | .shstageDbase h a => Sys2Proof.Machine.execShstageDbase h a s
  | .shstageBar h a => Sys2Proof.Machine.execShstageBar h a s
  | .shstageSw h n => Sys2Proof.Machine.execShstageSw h n s
  | .shstagePort h p => Sys2Proof.Machine.execShstagePort h p s
  | .shstageRtn h n => Sys2Proof.Machine.execShstageRtn h n s
  | .shstageClr h => Sys2Proof.Machine.execShstageClr h s
  | .shstageRstat h => Sys2Proof.Machine.execShstageRstat h s
  | .shgoCopy h d r => Sys2Proof.Machine.execShgoCopy h d r s
  | .shgoRows h d r => Sys2Proof.Machine.execShgoRows h d r s
  | .shgoStream h d r => Sys2Proof.Machine.execShgoStream h d r s
  | .shgoSend h d r => Sys2Proof.Machine.execShgoSend h d r s
  | .shgoBodkin h d r => Sys2Proof.Machine.execShgoBodkin h d r s
  | .shgoQueueRoom h => Sys2Proof.Machine.execShgoQueueRoom h s
  | .shstatTl h d => Sys2Proof.Machine.execShstatTl h d s
  | .shstatMiss h d => Sys2Proof.Machine.execShstatMiss h d s
  | .shstatErr h d => Sys2Proof.Machine.execShstatErr h d s
  | .shstatAddr h d => Sys2Proof.Machine.execShstatAddr h d s
  | .shstatLanded h sf d => Sys2Proof.Machine.execShstatLanded h sf d s
  | .shstatNext h d => Sys2Proof.Machine.execShstatNext h d s
  | .shstatSw n d => Sys2Proof.Machine.execShstatSw n d s
  | .shstatPv p d => Sys2Proof.Machine.execShstatPv p d s
  | .shportStat p d => Sys2Proof.Machine.execShportStat p d s
  | .shportDisc p => Sys2Proof.Machine.execShportDisc p s
  | .waittl sf a b => Sys2Proof.Machine.execWaittl sf a b s
  | .sigtl sf a b => Sys2Proof.Machine.execSigtl sf a b s
  | .rdtl d a => Sys2Proof.Machine.execRdtl d a s
  | .trytl sf d a b => Sys2Proof.Machine.execTrytl sf d a b s
  | .waittlPass h => Sys2Proof.Machine.execWaittlPass h s
  | .binit sf a b => Sys2Proof.Machine.execBinit sf a b s
  | .barrive sf d a b => Sys2Proof.Machine.execBarrive sf d a b s
  | .bwait sf a b => Sys2Proof.Machine.execBwait sf a b s
  | .btry sf d a b => Sys2Proof.Machine.execBtry sf d a b s
  | .bwaitPass h => Sys2Proof.Machine.execBwaitPass h s
  | .lock d a => Sys2Proof.Machine.execLock d a s
  | .unlock d a => Sys2Proof.Machine.execUnlock d a s
  | .swatchWaitEnd h => Sys2Proof.Machine.execSwatchWaitEnd h s
  | .fenceRel sf => Sys2Proof.Machine.execFenceRel sf s
  | .fenceAcq sf => Sys2Proof.Machine.execFenceAcq sf s
  | .fenceFull sf => Sys2Proof.Machine.execFenceFull sf s
  | .amoAdd sf d a b => Sys2Proof.Machine.execAmoAdd sf d a b s
  | .amoAnd sf d a b => Sys2Proof.Machine.execAmoAnd sf d a b s
  | .amoOr sf d a b => Sys2Proof.Machine.execAmoOr sf d a b s
  | .amoXor sf d a b => Sys2Proof.Machine.execAmoXor sf d a b s
  | .amoSwap sf d a b => Sys2Proof.Machine.execAmoSwap sf d a b s
  | .amoMin sf d a b => Sys2Proof.Machine.execAmoMin sf d a b s
  | .amoMax sf d a b => Sys2Proof.Machine.execAmoMax sf d a b s
  | .amoFadd32 sf d a b => Sys2Proof.Machine.execAmoFadd32 sf d a b s
  | .amo2Umin sf d a b => Sys2Proof.Machine.execAmo2Umin sf d a b s
  | .amo2Umax sf d a b => Sys2Proof.Machine.execAmo2Umax sf d a b s
  | .amo2Cas sf d a b => Sys2Proof.Machine.execAmo2Cas sf d a b s
  | .amo2Incb sf d a b => Sys2Proof.Machine.execAmo2Incb sf d a b s
  | .amo2Fmin32 sf d a b => Sys2Proof.Machine.execAmo2Fmin32 sf d a b s
  | .amo2Fmax32 sf d a b => Sys2Proof.Machine.execAmo2Fmax32 sf d a b s
  | .amo2Add32w sf d a b => Sys2Proof.Machine.execAmo2Add32w sf d a b s
  | .amo2Fadd16x2 sf d a b => Sys2Proof.Machine.execAmo2Fadd16x2 sf d a b s
  | .ldacq sf z d a => Sys2Proof.Machine.execLdacq sf z d a s
  | .strel sf z a b => Sys2Proof.Machine.execStrel sf z a b s
  | .launch d a => Sys2Proof.Machine.execLaunch d a s
  | .launchId d a => Sys2Proof.Machine.execLaunchId d a s
  | .launchGate d a b => Sys2Proof.Machine.execLaunchGate d a b s
  | .launchGateId d a b => Sys2Proof.Machine.execLaunchGateId d a b s
  | .lwait d a => Sys2Proof.Machine.execLwait d a s
  | .ltry d a => Sys2Proof.Machine.execLtry d a s
  | .lcancel d a => Sys2Proof.Machine.execLcancel d a s
  | .lwaitComplete h => Sys2Proof.Machine.execLwaitComplete h s
  | .msend d a n => Sys2Proof.Machine.execMsend d a n s
  | .msendw d a b => Sys2Proof.Machine.execMsendw d a b s
  | .mailboxEntryGrant h g => Sys2Proof.Machine.execMailboxEntryGrant h g s
  | .messageDelivery n => Sys2Proof.Machine.execMessageDelivery n s
  | .mrecv d n => Sys2Proof.Machine.execMrecv d n s
  | .mtry d n => Sys2Proof.Machine.execMtry d n s
  | .mrecvTake h => Sys2Proof.Machine.execMrecvTake h s
  | .msigtl a b => Sys2Proof.Machine.execMsigtl a b s
  | .mwaittl a b => Sys2Proof.Machine.execMwaittl a b s
  | .mtrytl d a b => Sys2Proof.Machine.execMtrytl d a b s
  | .mamoAdd d a b => Sys2Proof.Machine.execMamoAdd d a b s
  | .mamoAnd d a b => Sys2Proof.Machine.execMamoAnd d a b s
  | .mamoOr d a b => Sys2Proof.Machine.execMamoOr d a b s
  | .mamoXor d a b => Sys2Proof.Machine.execMamoXor d a b s
  | .mamoSwap d a b => Sys2Proof.Machine.execMamoSwap d a b s
  | .mamoMin d a b => Sys2Proof.Machine.execMamoMin d a b s
  | .mamoMax d a b => Sys2Proof.Machine.execMamoMax d a b s
  | .mamoFadd32 d a b => Sys2Proof.Machine.execMamoFadd32 d a b s
  | .mamo2Umin d a b => Sys2Proof.Machine.execMamo2Umin d a b s
  | .mamo2Umax d a b => Sys2Proof.Machine.execMamo2Umax d a b s
  | .mamo2Cas d a b => Sys2Proof.Machine.execMamo2Cas d a b s
  | .mamo2Incb d a b => Sys2Proof.Machine.execMamo2Incb d a b s
  | .mamo2Fmin32 d a b => Sys2Proof.Machine.execMamo2Fmin32 d a b s
  | .mamo2Fmax32 d a b => Sys2Proof.Machine.execMamo2Fmax32 d a b s
  | .mamo2Add32w d a b => Sys2Proof.Machine.execMamo2Add32w d a b s
  | .mamo2Fadd16x2 d a b => Sys2Proof.Machine.execMamo2Fadd16x2 d a b s
  | .remoteOperation src asid op a b b2 => Sys2Proof.Machine.execRemoteOperation src asid op a b b2 s
  | .supvCarea a => Sys2Proof.Machine.execSupvCarea a s
  | .supvCsave => Sys2Proof.Machine.execSupvCsave s
  | .supvCrest => Sys2Proof.Machine.execSupvCrest s
  | .crestGrant h => Sys2Proof.Machine.execCrestGrant h s
  | .supvTack => Sys2Proof.Machine.execSupvTack s
  | .supvTset a => Sys2Proof.Machine.execSupvTset a s
  | .supvEack a => Sys2Proof.Machine.execSupvEack a s
  | .supvPack => Sys2Proof.Machine.execSupvPack s
  | .supvTlbinv a b => Sys2Proof.Machine.execSupvTlbinv a b s
  | .supvQuiesce d a => Sys2Proof.Machine.execSupvQuiesce d a s
  | .supvResume a => Sys2Proof.Machine.execSupvResume a s
  | .supvReplay a b => Sys2Proof.Machine.execSupvReplay a b s
  | .supvRtn d a b => Sys2Proof.Machine.execSupvRtn d a b s
  | .supvSvch a b => Sys2Proof.Machine.execSupvSvch a b s
  | .seamRead l w d => Sys2Proof.Machine.execSeamRead l w d s
  | .seamHealth d => Sys2Proof.Machine.execSeamHealth d s
  | .timerExpiry h => Sys2Proof.Machine.execTimerExpiry h s
  | .interruptEntry h n => Sys2Proof.Machine.execInterruptEntry h n s
  | .l1Eviction core line => Sys2Proof.Machine.execL1Eviction core line s
  | .homeHoldRelease n => Sys2Proof.Machine.execHomeHoldRelease n s
  | .commandStart core ch => Sys2Proof.Machine.execCommandStart core ch s
  | .landedCountRise core ch id n => Sys2Proof.Machine.execLandedCountRise core ch id n s
  | .sourceReadDone core ch id => Sys2Proof.Machine.execSourceReadDone core ch id s
  | .transferSuspend core ch id => Sys2Proof.Machine.execTransferSuspend core ch id s
  | .transferPoison core ch id => Sys2Proof.Machine.execTransferPoison core ch id s
  | .bodkinFault core ch id => Sys2Proof.Machine.execBodkinFault core ch id s
  | .fabricSendArrival core ch id ok => Sys2Proof.Machine.execFabricSendArrival core ch id ok s
  | .launchDispatch n => Sys2Proof.Machine.execLaunchDispatch n s
  | .gateOpen n => Sys2Proof.Machine.execGateOpen n s
  | .priorityAging n => Sys2Proof.Machine.execPriorityAging n s
  | .gangPlacement p => Sys2Proof.Machine.execGangPlacement p s
  | .reservationPreempt hs => Sys2Proof.Machine.execReservationPreempt hs s
  | .gangRestore p => Sys2Proof.Machine.execGangRestore p s
  | .unitCancelStop h => Sys2Proof.Machine.execUnitCancelStop h s
  | .channelReset core ch => Sys2Proof.Machine.execChannelReset core ch s
  | .clusterModeChange clu fused => Sys2Proof.Machine.execClusterModeChange clu fused s
  | .runtimeRetire h => Sys2Proof.Machine.execRuntimeRetire h s
  | .deviceReset => Sys2Proof.Machine.execDeviceReset s
  | .functionLevelReset => Sys2Proof.Machine.execFunctionLevelReset s
  | .hostBar2Access wr off size v => Sys2Proof.Machine.execHostBar2Access wr off size v s
  | .bar2baseWrite v => Sys2Proof.Machine.execBar2baseWrite v s
  | .go j => Sys2Proof.Machine.execGo j s
  | .hostCounterWrite n v => Sys2Proof.Machine.execHostCounterWrite n v s
  | .doorbell h => Sys2Proof.Machine.execDoorbell h s
  | .load => Sys2Proof.Machine.execLoad s
  | .firmwareVerifyDone => Sys2Proof.Machine.execFirmwareVerifyDone s
  | .stage2Entry => Sys2Proof.Machine.execStage2Entry s
  | .stage3Entry => Sys2Proof.Machine.execStage3Entry s
  | .req => Sys2Proof.Machine.execReq s
  | .attestationReportReady => Sys2Proof.Machine.execAttestationReportReady s
  | .validWrite n => Sys2Proof.Machine.execValidWrite n s
  | .ccountWrite n => Sys2Proof.Machine.execCcountWrite n s
  | .correctedError blk core a => Sys2Proof.Machine.execCorrectedError blk core a s
  | .uncorrectedError blk core a => Sys2Proof.Machine.execUncorrectedError blk core a s
  | .telemetryUpdate => Sys2Proof.Machine.execTelemetryUpdate s
  | .throttleAlert blk => Sys2Proof.Machine.execThrottleAlert blk s
  | .tripNearWarning => Sys2Proof.Machine.execTripNearWarning s
  | .electricalTrip => Sys2Proof.Machine.execElectricalTrip s
  | .portStateChange port up => Sys2Proof.Machine.execPortStateChange port up s
  | .blockLeaveService kind n => Sys2Proof.Machine.execBlockLeaveService kind n s
  | .blockReturnService kind n => Sys2Proof.Machine.execBlockReturnService kind n s
  | .arm => Sys2Proof.Machine.execArm s
  | .checkpointCut => Sys2Proof.Machine.execCheckpointCut s
  | .frameStream n => Sys2Proof.Machine.execFrameStream n s
  | .illegalInsn w => Sys2Proof.Machine.execIllegalInsn w s
  | .fetchFault cause a => Sys2Proof.Machine.execFetchFault cause a s
  | .wfiEarlyCompletion h => Sys2Proof.Machine.execWfiEarlyCompletion h s
  | .remoteAcknowledgement h own v st => Sys2Proof.Machine.execRemoteAcknowledgement h own v st s
  | .resizableBarSelect size => Sys2Proof.Machine.execResizableBarSelect size s
  | .fabricSetUp x y z => Sys2Proof.Machine.execFabricSetUp x y z s

end Sys2Proof.Machine
end

