-- ==== Sys2Proof/Machine/Run.lean ====
section
/-!
DEFINITION. What one step does (log 2): the next entry of the schedule is an event of an agent outside the harts, or a turn of a hart;
a turn takes an interrupt, stops a cancelled unit, issues one word of a split region, or fetches, decodes and runs one word
(02 R13, R43; 07 R152, R154, R155, R159; 25 R382; 28 R409; 32 R459). After it, how a word is placed where the machine fetches next.
-/

namespace Sys2Proof.Machine

/-! ## Events -/

/-- The instruction is an event that an agent outside the harts may bring about between two words. A word is none, nor is what a word
does itself: a register write by a hart, a refused word, a failed fetch. -/
def isEvent : Instr → Bool
  | .brvResolve _ => true
  | .pauseExpiry _ => true
  | .setvlGrant _ => true
  | .lpartStallEnd _ => true
  | .registerWrite host _ _ _ => host == 1
  | .convoyStart _ => true
  | .splitRegionJoin _ => true
  | .matrixConvoyStart _ => true
  | .swsetResume _ => true
  | .shgoQueueRoom _ => true
  | .waittlPass _ => true
  | .bwaitPass _ => true
  | .swatchWaitEnd _ => true
  | .lwaitComplete _ => true
  | .mailboxEntryGrant _ _ => true
  | .messageDelivery _ => true
  | .mrecvTake _ => true
  | .remoteOperation _ _ _ _ _ _ => true
  | .crestGrant _ => true
  | .timerExpiry _ => true
  | .interruptEntry _ _ => true
  | .l1Eviction _ _ => true
  | .homeHoldRelease _ => true
  | .commandStart _ _ => true
  | .landedCountRise _ _ _ _ => true
  | .sourceReadDone _ _ _ => true
  | .transferSuspend _ _ _ => true
  | .transferPoison _ _ _ => true
  | .bodkinFault _ _ _ => true
  | .fabricSendArrival _ _ _ _ => true
  | .launchDispatch _ => true
  | .gateOpen _ => true
  | .priorityAging _ => true
  | .gangPlacement _ => true
  | .reservationPreempt _ => true
  | .gangRestore _ => true
  | .unitCancelStop _ => true
  | .channelReset _ _ => true
  | .clusterModeChange _ _ => true
  | .runtimeRetire _ => true
  | .deviceReset => true
  | .functionLevelReset => true
  | .hostBar2Access _ _ _ _ => true
  | .bar2baseWrite _ => true
  | .go _ => true
  | .hostCounterWrite _ _ => true
  | .doorbell _ => true
  | .load => true
  | .firmwareVerifyDone => true
  | .stage2Entry => true
  | .stage3Entry => true
  | .req => true
  | .attestationReportReady => true
  | .validWrite _ => true
  | .ccountWrite _ => true
  | .correctedError _ _ _ => true
  | .uncorrectedError _ _ _ => true
  | .telemetryUpdate => true
  | .throttleAlert _ => true
  | .tripNearWarning => true
  | .electricalTrip => true
  | .portStateChange _ _ => true
  | .blockLeaveService _ _ => true
  | .blockReturnService _ _ => true
  | .arm => true
  | .checkpointCut => true
  | .frameStream _ => true
  | .wfiEarlyCompletion _ => true
  | .remoteAcknowledgement _ _ _ _ => true
  | .resizableBarSelect _ => true
  | .fabricSetUp _ _ _ => true
  | _ => false

/-! ## A hart's turn -/

/-- A word that waits for the hart's older matrix words (R39, R41, R310, R380): it closes an open convoy of `MMETA` words. -/
def waitsForMatrix (w : Insn) : Bool :=
  let m := bits w 30 24
  m == 0x1A || (0x58 ≤ m && m ≤ 0x5B) || m == 0x5D || (0x60 ≤ m && m ≤ 0x65) || m == 0x6A || (0x70 ≤ m && m ≤ 0x72) ||
    (m == 0x19 && !(seg w 10 2 == 0 && [0x000, 0x001, 0x020, 0x030, 0x040, 0x041].contains (bits w 9 0)))

/-- A scalar load or store whose page is not ordinary memory (R41). -/
def touchesDevice (w : Insn) (s : State) : Bool :=
  (bits w 30 24 == 0x0D || bits w 30 24 == 0x0E) &&
    match place s .load (rx s (seg w 12 6) + (seg w 0 9).signExtend 64) 1 with
    | .ok (.dev _ _, _) => true
    | _ => false

/-- A `SETVL` changed the grant or waits to change it: older matrix words come first (R41, R310). -/
def grantMoved (s t : State) : Bool := t.h.gmap != s.h.gmap || t.h.wait == some .lgmin

/-- The word names binary64 or SLI, which stage 2 does not offer (R439); `SETVLX` with its type in a register looks at that itself. -/
def notOffered (w : Insn) (h : Hart) : Bool :=
  match bits w 30 24 with
  | 0x20 => unoffered (seg w 2 5)
  | 0x21 => bits w 5 0 == 1 && unoffered h.fmt
  | 0x0F => bits w 5 4 == 1 || (bits w 3 0 == 15 && bits w 8 7 == 1)
  | 0x10 => bits w 5 4 == 1
  | 0x2D => unoffered (seg w 9 5)
  | 0x4C => unoffered (seg w 9 5)
  | _ => false

/-- Decode and run one word; one that the decoder refuses, or that stage 2 does not offer, raises `ILLEGAL_INSN` (R51, R52, R439). -/
noncomputable def runWord (w : Insn) (s : State) : Out :=
  if s.d.stage = 2 ∧ notOffered w s.h then exec (.illegalInsn w) s
  else
    match decode w with
    | .ok i => exec i s
    | .error _ => exec (.illegalInsn w) s

/-- An outcome with a change of its next state. -/
def thenDo (o : Out) (f : State → State) : Out :=
  match o with
  | .next t => .next (f t)
  | o => o

/-! ### Convoys that stop (R121, R122) -/

/-- A vector-side word (R119). -/
def vectorSide (w : Insn) : Bool :=
  let m := bits w 30 24
  (0x22 ≤ m && m ≤ 0x4F) || m == 0x68 || m == 0x69 || m == 0x6B

/-- A vector-side word that is element-wise: no whole member of a convoy (R119, R121), nor a move of `SMM`, which has no position (R109). -/
def elementWord (w : Insn) : Bool :=
  let m := bits w 30 24
  (0x22 ≤ m && m ≤ 0x29) || (m == 0x2A && !(bits w 5 0 == 8 || bits w 5 0 == 9)) || m == 0x2D || m == 0x2E || (m == 0x2F && (bits w 4 0 == 0 || bits w 4 0 == 2)) || (0x30 ≤ m && m ≤ 0x3A) ||
    (0x4A ≤ m && m ≤ 0x4C) || m == 0x4E || m == 0x4F

/-- A move between `SMM` and a mask register: a member of its convoy that has no position (R109). -/
def smmWord (w : Insn) : Bool := bits w 30 24 == 0x2A && (bits w 5 0 == 8 || bits w 5 0 == 9)

/-- A word of the memory class (R119). -/
def memoryWord (w : Insn) : Bool :=
  let m := bits w 30 24
  (0x30 ≤ m && m ≤ 0x39) || m == 0x45 || m == 0x49

/-- A vector memory word whose accesses do not pass the hart's window: it waits for the stores that the window holds (R40). -/
def passesWindow (w : Insn) : Bool :=
  let m := bits w 30 24
  m == 0x35 || m == 0x36 || m == 0x38 || m == 0x39

/-- What comes of a word that starts at the convoy's start and stops at its position. -/
inductive MemberRes where
  /-- It has processed the elements below the position. -/
  | moved (s : State)
  /-- It is no member: it raises `ILLEGAL_INSN` or `ILLEGAL_CONVOY`. -/
  | refused
  /-- It cannot: it faults or waits below the position, or has no such position. -/
  | cannot

/-- Where a word stands whose convoy stands at element `n`: `VQUANT` writes whole blocks, so it has written those below the block that `n` falls in (R211). -/
def memberStop (w : Insn) (h : Hart) (n : Nat) : Nat := if bits w 30 24 == 0x2E && !bit w 2 && h.blk != 0 then n / h.blk * h.blk else n

/-- The word at `pc` processes elements `a` to `n` - 1. -/
noncomputable def memberTo (w : Insn) (pc : Word) (a n : Nat) (s : State) : MemberRes :=
  match runWord w { s with h := { s.h with pc := pc, vstart := BitVec.ofNat 11 a, upTo := some n, stop := none, wait := none } } with
  | .next t =>
    if t.h.upTo.isNone then (if t.h.cause == Cause.illegal || t.h.cause == Cause.convoy then .refused else .cannot)
    else if t.h.pc == pc && t.h.wait.isNone && t.h.vstart.toNat == n then .moved t else .cannot
  | _ => .cannot

/-- A move of `SMM` at `pc` runs whole, as a member of its convoy (R109, R122). -/
noncomputable def smmMove (w : Insn) (pc : Word) (s : State) : MemberRes :=
  match runWord w { s with h := { s.h with pc := pc, upTo := some 0, stop := none, wait := none } } with
  | .next t => if t.h.upTo.isSome then .moved t else .refused
  | _ => .cannot

/-- The word at `pc` as the first of a convoy that stands at element `a`. -/
noncomputable def standAt (w : Insn) (a : Nat) (s : State) : MemberRes := if smmWord w then smmMove w s.h.pc s else memberTo w s.h.pc a a s

/-! ### What the words of a stopped convoy have still to do -/

/-- The bytes that an unfinished store may write (R40): a unit-stride or strided word's elements, or any byte. -/
inductive StoreReach where
  | elements (base stride : Word) (bytes count : Nat)
  | any

/-- The stores of a word that has gone part of the way; none of a word that stores nothing. -/
def storeReach (w : Insn) (s : State) : Option StoreReach :=
  let base := rx s (seg w 13 6)
  match bits w 30 24 with
  | 0x31 =>
    match bits w 1 0 with
    | 0 => some (.elements base (BitVec.ofNat 64 s.h.bytes) s.h.bytes s.h.vl.toNat)
    | 1 => some (.elements base (rx s (seg w 7 6)) s.h.bytes s.h.vl.toNat)
    | _ => some (.elements base 1 1 (maskBytes s.h))
  | 0x33 => some .any
  | 0x36 => some .any
  | 0x39 => some .any
  | 0x38 => if bit w 0 then some .any else none
  | _ => none

/-- The 128-byte line of a place, in the scratchpad or in the device. -/
def placeLine : Place → Bool × Nat
  | .spad off => (true, off / 128)
  | .mem pa _ => (false, pa / 128)
  | .dev pa _ => (false, pa / 128)

/-- The line that an access of one byte reaches. -/
def lineAt (s : State) (a : Acc) (va : Word) : Option (Bool × Nat) :=
  match place s a va 1 with
  | .ok (p, _) => some (placeLine p)
  | .error _ => none

/-- A load at `va` waits for the store (R40): a 128-byte line of the store's range holds it, or, under another address, the line of an element does. -/
def StoreReach.meets (r : StoreReach) (s : State) (va : Word) : Bool :=
  match r with
  | .any => true
  | .elements base stride bytes count =>
    let far : Int := stride.toInt * ((count : Int) - 1)
    let lo := ((base.toNat : Int) + min 0 far) / 128
    let hi := ((base.toNat : Int) + max 0 far + bytes - 1) / 128
    decide (0 < count) &&
      (decide (((va.toNat / 128 : Nat) - lo) % 2 ^ 57 ≤ hi - lo) ||
        ((lineAt s .load va).isSome && (List.range count).any fun e => lineAt s .store (strided base stride e) == lineAt s .load va))

/-- The x registers that a word of the window, or a member of a convoy without a memory access, reads or writes. -/
def xFields (w : Insn) : List (BitVec 6) :=
  let m := bits w 30 24
  if m == 0x0F && 14 ≤ bits w 3 0 then [seg w 18 6, seg w 12 6]
  else if m == 0x01 || m == 0x02 || m == 0x21 || m == 0x0F || m == 0x10 then [seg w 18 6, seg w 12 6, seg w 6 6]
  else if m == 0x0B || m == 0x0C || m == 0x17 then [seg w 18 6]
  else if (0x03 ≤ m && m ≤ 0x0A) || m == 0x0D || m == 0x0E || (0x11 ≤ m && m ≤ 0x19) || m == 0x20 then [seg w 18 6, seg w 12 6]
  else if m == 0x5C then [seg w 6 6, seg w 12 6]
  else if m == 0x50 || m == 0x73 then [seg w 12 6]
  else if m == 0x23 || m == 0x26 || m == 0x2F || m == 0x4F then [seg w 8 6]
  else if m == 0x34 then [seg w 13 6, seg w 7 6]
  else if m == 0x30 || m == 0x31 then [seg w 13 6, seg w 7 6]
  else []

/-- What a stopped convoy's words have still to do, for the words behind them. -/
structure Unfinished where
  /-- x registers that are pending (R39). -/
  regs : List (BitVec 6)
  /-- One of them writes a mask register: a `BRV` behind it is not resolved (R86). -/
  masks : Bool
  /-- Their stores (R40). -/
  stores : List StoreReach
  /-- A `KTOSMM` among them has not written `SMM`, since the words before it write their part of it first (R36). -/
  smm : Bool

/-- Nothing. -/
def Unfinished.nothing : Unfinished := { regs := [], masks := false, stores := [], smm := false }

/-- The word `w`, posted in `s`, has gone part of the way; `u` knows it as a member. -/
def Unfinished.add (p : Unfinished) (w : Insn) (s u : State) : Unfinished :=
  { regs := if bits w 30 24 == 0x34 && seg w 7 6 != 0 then seg w 7 6 :: p.regs else p.regs
    masks := p.masks || u.h.vconvoy.getLast?.any fun m => m.kw != 0
    stores := (storeReach w s).toList ++ p.stores
    smm := p.smm || (smmWord w && bits w 5 0 == 9) }

/-- The word `w` waits for one of them: it names a pending register (R39), branches on a mask that is to come (R86), loads what one of them may store (R40),
or goes through `SMM` behind a `KTOSMM` (R36). -/
def Unfinished.holdsBack (p : Unfinished) (w : Insn) (s : State) : Bool :=
  let m := bits w 30 24
  (xFields w).any (p.regs.contains ·) || (p.masks && m == 0x1B) ||
    (m == 0x0D && p.stores.any (·.meets s (rx s (seg w 12 6) + (seg w 0 9).signExtend 64))) ||
    (p.smm && ((smmWord w && bits w 5 0 == 8) || m == 0x35 || m == 0x36 || m == 0x39))

/-- A scalar word that may run while older vector-side words of the hart have not completed: one that waits for no older word (R41, R412). -/
def windowWord (w : Insn) (s : State) : Bool :=
  !vectorSide w && !(0x50 ≤ bits w 30 24 && bits w 30 24 ≤ 0x55) && !waitsForMatrix w && !touchesDevice w s

/-- A scalar word at `pc` runs ahead of the convoy (R41): the members behind it capture its registers, and its store is held. None where it does not
complete in the window. -/
noncomputable def runAhead (w : Insn) (pc : Word) (s : State) : Option State :=
  match runWord w { s with h := { s.h with pc := pc, mstage := { s.h.mstage with isOpen := true, count := 0 } } } with
  | .next t =>
    if t.h.instret = s.h.instret + 1 && !grantMoved s t then
      some { t with h := { t.h with fcsr := s.h.fcsr, mstage := { s.h.mstage with stores := t.h.mstage.stores } } }
    else none
  | _ => none

/-- The element-wise words behind a stopped convoy: the state in which they stand where the convoy does, and where each starts again. -/
abbrev Moved := State × List (Word × BitVec 11)

/-- The element-wise words from `pc` on that join the convoy go up to element `n`, whatever scalar and matrix words lie between (R49), as far as the first
vector-side word that is no such member, the first `MDRAIN`, or the first word that waits for the convoy (`p` holds what its words have still to do); none
if one of them cannot (log 1). Where `old` lists words that have gone part of the way (R122), each goes on from its element. Where it is none, the words stand
there already, and are only found. The scalar words between run in the window. A `KFROMSMM` runs too; a `KTOSMM` does not write yet (R36, R109). -/
noncomputable def moveMembers (old : Option (List (Word × BitVec 11))) (n : Nat) : Nat → Unfinished → Word → State → Option Moved
  | 0, _, _, s => some (s, [])
  | k + 1, p, pc, s =>
    match fetch s pc with
    | .error _ => some (s, [])
    | .ok (w, t) =>
      if p.holdsBack w t then some (s, [])
      else if smmWord w && bit w 31 then
        match smmMove w pc t with
        | .refused => some (s, [])
        | .moved u => moveMembers old n k (p.add w t u) (pc + 4) (if bits w 5 0 == 9 then { u with h := { u.h with smm := t.h.smm } } else u)
        | .cannot => none
      else if elementWord w && bit w 31 then
        let b := memberStop w t.h n
        let here (x : Moved) : Moved := (x.1, (pc, BitVec.ofNat 11 b) :: x.2)
        match old with
        | none =>
          match memberTo w pc b b t with
          | .refused => some (s, [])
          | .moved u => (moveMembers none b k (p.add w t u) (pc + 4) u).map here
          | .cannot => (moveMembers none b k (p.add w t t) (pc + 4) t).map here
        | some l =>
          let first := match l.head? with
            | some e => if e.1 = pc then some e.2 else none
            | none => none
          if memoryWord w && !t.h.mstage.stores.isEmpty then none
          else
            match memberTo w pc (first.getD 0).toNat b t with
            | .refused => some (s, [])
            | .moved u => (moveMembers (some (if first.isSome then l.tail else l)) b k (p.add w t u) (pc + 4) u).map here
            | .cannot => none
      else if vectorSide w || bits w 30 24 == 0x55 then some (s, [])
      else if 0x50 ≤ bits w 30 24 && bits w 30 24 ≤ 0x54 then moveMembers old n k p (pc + 4) t
      else if windowWord w t && decide (t.h.mstage.stores.length < 32) then
        match runAhead w pc t with
        | some u => moveMembers old n k p u.h.pc u
        | none => some (s, [])
      else some (s, [])

/-- The words that a convoy and the window that runs ahead of it can hold (R41, R119). -/
def convoyReach : Nat := 261

/-- The word `w` has stopped at element `n`: so do the younger element-wise members of its convoy (R122; log 1). Where one of them cannot, `w` does not
stop there. What the window ran is undone (R43). A word that has not trapped goes on from here. -/
noncomputable def stopConvoy (w : Insn) (s u : State) : Out :=
  let a := s.h.vstart.toNat
  match memberTo w s.h.pc a a s with
  | .moved p =>
    match moveMembers (some s.h.owed) u.h.vstart.toNat convoyReach (Unfinished.nothing.add w s p) (s.h.pc + 4) { u with h := { u.h with prv := s.h.prv, vconvoy := p.h.vconvoy } } with
    | some (t, _) => .next { t with h := { u.h with v := t.h.v, k := t.h.k, smm := t.h.smm, fcsr := t.h.fcsr, vdirty := t.h.vdirty,
                                                    owed := [], resumed := u.h.pc == s.h.pc } }
    | none => runWord w { s with h := { s.h with stop := none } }
  | _ => .next u

/-- The element-wise words behind `w`, which resumes at VSTART, stand there too (R122): where each starts again. -/
noncomputable def owedBehind (w : Insn) (s : State) : List (Word × BitVec 11) :=
  let a := s.h.vstart.toNat
  match standAt w a s with
  | .moved p =>
    match moveMembers none a convoyReach (Unfinished.nothing.add w s p) (s.h.pc + 4) { s with h := { s.h with vconvoy := p.h.vconvoy } } with
    | some (_, l) => l
    | none => []
  | _ => []

/-- Where an element-wise word starts (R30, R122): one that had stopped with its convoy at its own element; one that resumes after a `RETT` or a wait at
VSTART, with the words behind it; any other at VSTART, and behind it starts no word elsewhere than at 0. -/
noncomputable def takeOwed (w : Insn) (s : State) : State :=
  match s.h.owed.head? with
  | some e =>
    if bit w 31 && e.1 = s.h.pc && s.h.vstart == 0 then { s with h := { s.h with vstart := e.2, owed := s.h.owed.tail } } else fresh s
  | none => fresh s
where
  /-- A word that no stopped convoy holds. -/
  fresh (s : State) : State :=
    { s with h := { s.h with owed := if s.h.resumed && s.h.vstart != 0 then owedBehind w s else [] } }

/-- Run an element-wise word, and what R122 asks of the words of its convoy. -/
noncomputable def runElementWord (w : Insn) (s : State) : Out :=
  let s := takeOwed w s
  match runWord w s with
  | .next u =>
    if u.h.instret ≠ s.h.instret then .next { u with h := { u.h with resumed := false } }
    else if s.h.vstart.toNat < u.h.vstart.toNat then stopConvoy w s u else .next u
  | o => o

/-- Run a word. Only scalar words of the window, matrix words other than `MDRAIN` and moves of `SMM` stand among the words of a stopped convoy (R122). -/
noncomputable def runAny (w : Insn) (s : State) : Out :=
  if elementWord w then runElementWord w s
  else if vectorSide w then
    let s : State := if smmWord w && bit w 31 then (if s.h.owed.isEmpty then takeOwed.fresh w s else s) else { s with h := { s.h with owed := [] } }
    thenDo (runWord w s) fun t => if t.h.instret ≠ s.h.instret then { t with h := { t.h with resumed := false } } else t
  else if windowWord w s || (0x50 ≤ bits w 30 24 && bits w 30 24 ≤ 0x54) then runWord w s
  else runWord w { s with h := { s.h with owed := [] } }

/-- A word that must wait for the older matrix words, and so closes an open convoy (R41, R310): one that `waitsForMatrix` names or that touches a device; a
memory word that the stores held in the window must come before (R40); and any scalar word once the window holds 256 (log 24). -/
def closesConvoy (w : Insn) (s : State) : Bool :=
  waitsForMatrix w || touchesDevice w s || (passesWindow w && !s.h.mstage.stores.isEmpty) || (windowWord w s && decide (256 ≤ s.h.mstage.window))

/-- A scalar word has run in the window behind the open convoy (R41). -/
def countWindow (w : Insn) (s t : State) : State :=
  if windowWord w s && t.h.instret ≠ s.h.instret && t.h.mstage.isOpen then
    { t with h := { t.h with mstage := { t.h.mstage with window := t.h.mstage.window + 1 } } }
  else t

/-- Issue one word, with the convoy of `MMETA` words closed where it must be (R310). Where a busy swatch holds back a store of the window, a word that
would close the convoy waits (R254). -/
noncomputable def issueOne (w : Insn) (s : State) : Out :=
  if s.h.mstage.isOpen then
    let q := if closesConvoy w s then closeStage s else s
    let o := thenDo (runAny w q) fun t => if grantMoved q t then closeStage t else countWindow w q t
    match o with
    | .next t =>
      if storesBlocked s && !(t.h.mstage.isOpen && decide (s.h.mstage.stores.length ≤ t.h.mstage.stores.length)) then .next (await s .swatch) else .next t
    | o => o
  else runAny w s

/-- A vector-side word with an effect that taking P back to an older word does not undo (R43): its stores, its atomics, or the release of its port. -/
def lastingWord (w : Insn) : Bool :=
  let m := bits w 30 24
  m == 0x31 || m == 0x33 || m == 0x36 || m == 0x37 || m == 0x39 || ((m == 0x38 || m == 0x49) && bit w 0)

/-- A handler fault (R459): the hart stops, the event is logged, and source 3 fires. -/
def handlerFault (s : State) : State :=
  raiseSource { s with h := { s.h with halted := true }, d := logEvent s.d s.h.tbase (coreOf s.hid) 4 3 } 3

/-- A fetch that fails is taken at the word (R52), but for one of the handler's own first word (R459); it waits for a busy swatch that holds back a store
of the window, which is performed first (R41, R254). -/
noncomputable def fetchFailed (s : State) : Stop → Out
  | .trap c v =>
    if s.h.prv && s.h.pc == s.h.tbase then .next (handlerFault s)
    else if s.h.mstage.isOpen && storesBlocked s then .next (await s .swatch)
    else exec (.fetchFault c v) s
  | .wait w => .next (await s w)

/-- The word at the pc, one word only: fetch, then issue. -/
noncomputable def oneWord (s : State) : Out :=
  match fetch s s.h.pc with
  | .ok (w, t) => issueOne w t
  | .error e => fetchFailed s e

/-! ### Lasting words behind an open convoy (R43) -/

/-- What the words behind a lasting word bring: the end of the open convoy, with the outcome; a check of its last word that fails, which undoes the convoy;
a last word that waits to start; or nothing that closes it. -/
inductive Ahead where
  | closes (o : Out)
  | undone (cause : BitVec 6) (tval : Word)
  | waits
  | stuck

/-- The words of the hart run on from the pc until one of them closes the open convoy. -/
noncomputable def runToClose : Nat → State → Ahead
  | 0, _ => .stuck
  | k + 1, s =>
    let w := match fetch s s.h.pc with
      | .ok (w, _) => w
      | .error _ => 0
    let mat := 0x50 ≤ bits w 30 24 && bits w 30 24 ≤ 0x55
    match oneWord s with
    | .next u =>
      if u.h.wait.isSome then (if !u.h.mstage.isOpen then .closes (.next u) else if mat then .waits else .stuck)
      else if !u.h.mstage.isOpen then
        if mat && bit w 31 && bits w 30 24 != 0x53 && !(u.h.instret - s.h.instret == BitVec.ofNat 64 s.h.mstage.count) &&
            !(u.h.instret - s.h.instret == BitVec.ofNat 64 (s.h.mstage.count + 1)) then .undone u.h.cause u.h.tval
        else .closes (.next u)
      else if mat && !bit w 31 then .closes (.next u)
      else runToClose k u
    | o => .closes o

/-- A lasting word behind an open convoy: since R43 gives it no effect that an interrupt at the convoy's first word would leave behind, it has its effect
in the step in which the convoy closes. Where the convoy's last word waits to start, so does it; where the hart can come to no word that closes the convoy,
it waits for the older matrix words itself, which closes it (log 24). -/
noncomputable def issueLasting (w : Insn) (s : State) : Out :=
  match issueOne w { s with h := { s.h with stop := none } } with
  | .next u =>
    match u.h.wait with
    | some x => .next (await s x)
    | none =>
      if !u.h.mstage.isOpen then .next u
      else
        match runToClose convoyReach u with
        | .closes o => o
        | .undone c v => .next (trap (undoConvoy s) c v)
        | .waits => .next (await s .convoy)
        | .stuck => if storesBlocked s then .next (await s .swatch) else issueOne w (closeStage s)
  | o => o

/-- Run the fetched word. -/
noncomputable def issue (w : Insn) (s : State) : Out :=
  if s.h.mstage.isOpen && lastingWord w then issueLasting w s else issueOne w s

/-- The word at the pc: fetch, then issue. -/
noncomputable def runAtPc (s : State) : Out :=
  match fetch s s.h.pc with
  | .ok (w, t) => issue w t
  | .error e => fetchFailed s e

/-- After a word that ran up to a chosen stop point, the interrupt enters if it still can (R43), or the cancelled unit is stopped (R409). -/
noncomputable def afterStop (o : Out) : Out :=
  match o with
  | .next t =>
    let s : State := { t with h := { t.h with stop := none } }
    if s.h.cancelled then (if heldByRemote s.h then .next s else exec (.unitCancelStop s.hid) s)
    else .next (if s.h.live && !s.h.halted then takeInterrupt s else s)
  | o => o

/-- One turn of the hart in focus. -/
noncomputable def runHart (s : State) : Out :=
  if !s.h.live then .next s
  else if s.h.cancelled && !heldByRemote s.h && (s.h.stop.isNone || s.h.halted || s.h.region.isSome) then exec (.unitCancelStop s.hid) s
  else if s.h.halted then .next s
  else
    match s.h.region, nextInterrupt s.h with
    | some _, some _ => .next (takeInterrupt s)
    | some r, none => .next (laneStep runWord r s)
    | none, i =>
      if i.isSome && (s.h.stop.isNone || s.h.mstage.isOpen) then .next (takeInterrupt s)
      else if i.isSome || s.h.cancelled then afterStop (runAtPc s)
      else runAtPc { s with h := { s.h with stop := none } }

/-! ## The schedule -/

/-- Cycles pass (R37), and queued launches age (R403). -/
def passTime (s : State) (dt : Nat) : State := { s with d := ageAll { s.d with cycle := s.d.cycle + BitVec.ofNat 64 dt } }

/-- The rank of an event among the operations of one cycle: a hart's and a shuttle command's by the global hart id, the channel as hart 0 of its core
(R243), the host after every hart (R409); none for an event that has no such place. -/
def eventRank : Instr → Option Nat
  | .unitCancelStop h => some h.toNat
  | .runtimeRetire h => some h.toNat
  | .swsetResume h => some h.toNat
  | .shgoQueueRoom h => some h.toNat
  | .waittlPass h => some h.toNat
  | .bwaitPass h => some h.toNat
  | .swatchWaitEnd h => some h.toNat
  | .lwaitComplete h => some h.toNat
  | .mrecvTake h => some h.toNat
  | .commandStart core _ => some (8 * core.toNat)
  | .landedCountRise core _ _ _ => some (8 * core.toNat)
  | .sourceReadDone core _ _ => some (8 * core.toNat)
  | .transferSuspend core _ _ => some (8 * core.toNat)
  | .transferPoison core _ _ => some (8 * core.toNat)
  | .fabricSendArrival core _ _ _ => some (8 * core.toNat)
  | .bodkinFault core _ _ => some (8 * core.toNat)
  | .registerWrite _ _ _ _ => some 2048
  | .hostBar2Access _ _ _ _ => some 2048
  | .hostCounterWrite _ _ => some 2048
  | .go _ => some 2048
  | .doorbell _ => some 2048
  | _ => none

/-- Where a hart's word stands among the requests that one cycle brings to a bank of its core: the matrix engine before the vector side, the scalar side
after the shuttle (R235). -/
def wordPort (w : Insn) : Nat :=
  if 0x50 ≤ bits w 30 24 && bits w 30 24 ≤ 0x55 then 0 else if vectorSide w then 1 else 18

/-- The place of a hart's next turn among the requests to its core's banks: the core and the port (R235). -/
def hartPort (s : State) : Nat × Nat :=
  (coreOf s.hid, if s.h.region.isSome then 1 else match fetch s s.h.pc with
    | .ok (w, _) => wordPort w
    | .error _ => 18)

/-- The place of an event among the requests to a core's banks (R235): a shuttle command's by its channel, a hart's own word on the scalar side. -/
def eventPort : Instr → Option (Nat × Nat)
  | .commandStart core ch => some (core.toNat, 2 + ch.toNat)
  | .landedCountRise core ch _ _ => some (core.toNat, 2 + ch.toNat)
  | .sourceReadDone core ch _ => some (core.toNat, 2 + ch.toNat)
  | .transferSuspend core ch _ => some (core.toNat, 2 + ch.toNat)
  | .transferPoison core ch _ => some (core.toNat, 2 + ch.toNat)
  | .fabricSendArrival core ch _ _ => some (core.toNat, 2 + ch.toNat)
  | .bodkinFault core ch _ => some (core.toNat, 2 + ch.toNat)
  | .swsetResume h => some (coreOf h, 18)
  | .shgoQueueRoom h => some (coreOf h, 18)
  | .waittlPass h => some (coreOf h, 18)
  | .bwaitPass h => some (coreOf h, 18)
  | .swatchWaitEnd h => some (coreOf h, 18)
  | .lwaitComplete h => some (coreOf h, 18)
  | .mrecvTake h => some (coreOf h, 18)
  | _ => none

/-- A turn would come, in the cycle of the turn before it, out of its order: below it in rank (R243, R409), or before it at the banks of its core (R235). -/
def outOfOrder (s : State) (rank : Nat) (port : Option (Nat × Nat)) : Bool :=
  decide (rank < s.lastRank) || port.any fun p => p.1 == s.lastBank.1 && decide (p.2 < s.lastBank.2)

/-- A turn of a rank and a port begins after `dt` cycles; one that would come out of its order in the cycle of the turn before it begins in the next
(R235, R243, R403, R409; log 2). -/
def beginTurn (s : State) (rank : Option Nat) (port : Option (Nat × Nat)) (dt : Nat) : State :=
  match rank with
  | none => { passTime s dt with lastRank := if dt = 0 then s.lastRank else 0, lastBank := if dt = 0 then s.lastBank else (0, 0) }
  | some r =>
    let late := decide (dt = 0) && outOfOrder s r port
    { passTime s (if late then 1 else dt) with
      lastRank := r
      lastBank := match port with
        | some p => p
        | none => if dt = 0 && !late then s.lastBank else (0, 0) }

/-- Hart `hid` takes its turn, and its timer expires first if it is due (R423). -/
noncomputable def turnOf (hid : BitVec 11) (s : State) : Out :=
  match exec (.timerExpiry hid) (focus s hid) with
  | .next t => runHart t
  | o => o

/-- The next entry of the schedule; when the schedule is empty the same hart runs, one cycle a turn (log 2). -/
noncomputable def nextTurn (s : State) : Out :=
  if s.d.trip && !(match s.turns with
    | .event .deviceReset _ :: _ => true
    | _ => false) then .fault .clockStopped
  else
    let s := freshMarks s
    match s.turns with
    | [] => turnOf s.hid (beginTurn s (some s.hid.toNat) (some (hartPort s)) 1)
    | .run h dt :: ts => turnOf h (beginTurn { s with turns := ts } (some h.toNat) (some (hartPort (focus s h))) dt)
    | .event i dt :: ts =>
      let s := beginTurn { s with turns := ts } (eventRank i) (eventPort i) dt
      if isEvent i then exec i s else .next s
    | .early h va dt :: ts => .next (onHart (beginTurn { s with turns := ts } none none dt) h (fetchEarly va))

/-! ## Placing a word -/

/-- Where the word is placed, both virtual and physical. -/
def wordPlace : Nat := 0x30000

/-- The two tables that map the first GiB to itself for the privilege of the hart (R169-R172): the root at 0x10000, a level-2 table at 0x20000. -/
def wordTables (m : Memory) (prv : Bool) : Memory :=
  Memory.write (Memory.write m 0x10000 8 0x20001) 0x20000 8 (if prv then 0x0F else 0x1F)

/-- The machine with a unit on the hart in focus, whose next word, at its pc, is the one with these bits (log 26). -/
def placeWord (s : State) (nbits w : Nat) : State :=
  { s with
    turns := [],
    h := { s.h with live := true, halted := false, cancelled := false, region := none, lane := none, early := [], wait := none, stop := none, upTo := none,
                    tpend := false, ppend := false, ext := [], timerAt := none, pc := BitVec.ofNat 64 wordPlace, ptroot := 0x10000 },
    d := { s.d with
      trip := false, stage := 3, l1 := [], tlb := [], held := [], poison := [],
      mem := Memory.write (wordTables s.d.mem s.h.prv) wordPlace 4 (w % 2 ^ nbits) } }

end Sys2Proof.Machine
end

