-- ==== Sys2Proof/Machine/Step.lean ====
section
/-!
DEFINITION. The step of the machine.
-/

namespace Sys2Proof.Machine

/-- One step: the next entry of the schedule, as `nextTurn` carries it out. -/
noncomputable def step (s : State) : Host.Outcome State Fault Refusal := nextTurn s

/-- The machine with the word whose bits are `w` stored where the next step fetches (log 26). -/
def State.withFetchWord (s : State) (nbits w : Nat) : State := placeWord s nbits w

end Sys2Proof.Machine
end

