-- ==== Sys2Proof/Laws/Encoding.lean ====
section
/-!
SUPPORT. Fields of an encoded word: what a field reads as once it has been written, and which major's decoder a word goes to.
-/

namespace Sys2Proof.Laws

set_option Elab.async false

/-- A field of an OR of two words. -/
theorem seg_or (x y : Insn) (lo n : Nat) : seg (x ||| y) lo n = seg x lo n ||| seg y lo n := by
  simp [seg, BitVec.extractLsb'_or]

/-- A field reads as what was placed in it. -/
theorem seg_fld_same {n : Nat} (v : BitVec n) (lo : Nat) (h : lo + n ≤ 32) : seg (fld v lo) lo n = v := by
  ext i hi
  have h1 : lo + i < 32 := by omega
  simp [seg, fld, h1, show ¬ lo + i < lo by omega, BitVec.getLsbD_eq_getElem hi]

/-- A field that does not meet the placed one reads as zero. -/
theorem seg_fld_off {n : Nat} (v : BitVec n) (lo l m : Nat) (h : l + m ≤ lo ∨ lo + n ≤ l) : seg (fld v lo) l m = 0 := by
  ext i hi
  simp [seg, fld]
  intro h1 h2 _
  apply BitVec.getLsbD_of_ge
  omega

/-- A field that does not meet the placed one reads as before. -/
theorem seg_off {n : Nat} (x : Insn) (v : BitVec n) (lo l m : Nat) (h : l + m ≤ lo ∨ lo + n ≤ l) :
    seg (x ||| fld v lo) l m = seg x l m := by
  rw [seg_or, seg_fld_off v lo l m h]
  simp

/-- A field placed over zeros reads as what was placed. -/
theorem seg_hit {n : Nat} (x : Insn) (v : BitVec n) (lo : Nat) (hx : seg x lo n = 0) (h : lo + n ≤ 32) :
    seg (x ||| fld v lo) lo n = v := by
  rw [seg_or, seg_fld_same v lo h, hx]
  simp

/-- A well-formed instruction that the form gives is what the decoder answers. -/
theorem decode_of {w : Insn} {i : Instr} (hd : decodeForm w = .ok i) (h : i.wellFormed = true) : decode w = .ok i := by
  simp [decode, hd, h]

/-- What the decoder answers is well-formed. -/
theorem wellFormed_of_decode {w : Insn} {i : Instr} (h : decode w = .ok i) : i.wellFormed = true := by
  simp only [decode] at h
  split at h
  · cases h
  · split at h
    · cases h; assumption
    · cases h

theorem form01 {w : Insn} {i : Instr} (h : seg w 24 7 = 0x01#7) (hd : decode01 w = some i) : decodeForm w = .ok i := by
  rw [decodeForm, h, hd]; rfl

theorem form02 {w : Insn} {i : Instr} (h : seg w 24 7 = 0x02#7) (hd : decode02 w = some i) : decodeForm w = .ok i := by
  rw [decodeForm, h, hd]; rfl

theorem form03 {w : Insn} {i : Instr} (h : seg w 24 7 = 0x03#7) (hd : decode03 w = some i) : decodeForm w = .ok i := by
  rw [decodeForm, h, hd]; rfl

theorem form04 {w : Insn} {i : Instr} (h : seg w 24 7 = 0x04#7) (hd : decode04 w = some i) : decodeForm w = .ok i := by
  rw [decodeForm, h, hd]; rfl

theorem form05 {w : Insn} {i : Instr} (h : seg w 24 7 = 0x05#7) (hd : decode05 w = some i) : decodeForm w = .ok i := by
  rw [decodeForm, h, hd]; rfl

theorem form06 {w : Insn} {i : Instr} (h : seg w 24 7 = 0x06#7) (hd : decode06 w = some i) : decodeForm w = .ok i := by
  rw [decodeForm, h, hd]; rfl

theorem form07 {w : Insn} {i : Instr} (h : seg w 24 7 = 0x07#7) (hd : decode07 w = some i) : decodeForm w = .ok i := by
  rw [decodeForm, h, hd]; rfl

theorem form09 {w : Insn} {i : Instr} (h : seg w 24 7 = 0x09#7) (hd : decode09 w = some i) : decodeForm w = .ok i := by
  rw [decodeForm, h, hd]; rfl

theorem form0A {w : Insn} {i : Instr} (h : seg w 24 7 = 0x0A#7) (hd : decode0A w = some i) : decodeForm w = .ok i := by
  rw [decodeForm, h, hd]; rfl

theorem form08 {w : Insn} {i : Instr} (h : seg w 24 7 = 0x08#7) (hd : decode08 w = some i) : decodeForm w = .ok i := by
  rw [decodeForm, h, hd]; rfl

theorem form0B {w : Insn} {i : Instr} (h : seg w 24 7 = 0x0B#7) (hd : decode0B w = some i) : decodeForm w = .ok i := by
  rw [decodeForm, h, hd]; rfl

theorem form0C {w : Insn} {i : Instr} (h : seg w 24 7 = 0x0C#7) (hd : decode0C w = some i) : decodeForm w = .ok i := by
  rw [decodeForm, h, hd]; rfl

theorem form0D {w : Insn} {i : Instr} (h : seg w 24 7 = 0x0D#7) (hd : decode0D w = some i) : decodeForm w = .ok i := by
  rw [decodeForm, h, hd]; rfl

theorem form0E {w : Insn} {i : Instr} (h : seg w 24 7 = 0x0E#7) (hd : decode0E w = some i) : decodeForm w = .ok i := by
  rw [decodeForm, h, hd]; rfl

theorem form0F {w : Insn} {i : Instr} (h : seg w 24 7 = 0x0F#7) (hd : decode0F w = some i) : decodeForm w = .ok i := by
  rw [decodeForm, h, hd]; rfl

theorem form10 {w : Insn} {i : Instr} (h : seg w 24 7 = 0x10#7) (hd : decode10 w = some i) : decodeForm w = .ok i := by
  rw [decodeForm, h, hd]; rfl

theorem form11 {w : Insn} {i : Instr} (h : seg w 24 7 = 0x11#7) (hd : decode11 w = some i) : decodeForm w = .ok i := by
  rw [decodeForm, h, hd]; rfl

theorem form12 {w : Insn} {i : Instr} (h : seg w 24 7 = 0x12#7) (hd : decode12 w = some i) : decodeForm w = .ok i := by
  rw [decodeForm, h, hd]; rfl

theorem form13 {w : Insn} {i : Instr} (h : seg w 24 7 = 0x13#7) (hd : decode13 w = some i) : decodeForm w = .ok i := by
  rw [decodeForm, h, hd]; rfl

theorem form14 {w : Insn} {i : Instr} (h : seg w 24 7 = 0x14#7) (hd : decode14 w = some i) : decodeForm w = .ok i := by
  rw [decodeForm, h, hd]; rfl

theorem form15 {w : Insn} {i : Instr} (h : seg w 24 7 = 0x15#7) (hd : decode15 w = some i) : decodeForm w = .ok i := by
  rw [decodeForm, h, hd]; rfl

theorem form16 {w : Insn} {i : Instr} (h : seg w 24 7 = 0x16#7) (hd : decode16 w = some i) : decodeForm w = .ok i := by
  rw [decodeForm, h, hd]; rfl

theorem form17 {w : Insn} {i : Instr} (h : seg w 24 7 = 0x17#7) (hd : decode17 w = some i) : decodeForm w = .ok i := by
  rw [decodeForm, h, hd]; rfl

theorem form18 {w : Insn} {i : Instr} (h : seg w 24 7 = 0x18#7) (hd : decode18 w = some i) : decodeForm w = .ok i := by
  rw [decodeForm, h, hd]; rfl

theorem form1B {w : Insn} {i : Instr} (h : seg w 24 7 = 0x1B#7) (hd : decode1B w = some i) : decodeForm w = .ok i := by
  rw [decodeForm, h, hd]; rfl

theorem form19 {w : Insn} {i : Instr} (h : seg w 24 7 = 0x19#7) (hd : decode19 w = some i) : decodeForm w = .ok i := by
  rw [decodeForm, h, hd]; rfl

theorem form1A {w : Insn} {i : Instr} (h : seg w 24 7 = 0x1A#7) (hd : decode1A w = some i) : decodeForm w = .ok i := by
  rw [decodeForm, h, hd]; rfl

theorem form20 {w : Insn} {i : Instr} (h : seg w 24 7 = 0x20#7) (hd : decode20 w = some i) : decodeForm w = .ok i := by
  rw [decodeForm, h, hd]; rfl

theorem form21 {w : Insn} {i : Instr} (h : seg w 24 7 = 0x21#7) (hd : decode21 w = some i) : decodeForm w = .ok i := by
  rw [decodeForm, h, hd]; rfl

theorem form22 {w : Insn} {i : Instr} (h : seg w 24 7 = 0x22#7) (hd : decode22 w = some i) : decodeForm w = .ok i := by
  rw [decodeForm, h, hd]; rfl

theorem form23 {w : Insn} {i : Instr} (h : seg w 24 7 = 0x23#7) (hd : decode23 w = some i) : decodeForm w = .ok i := by
  rw [decodeForm, h, hd]; rfl

theorem form24 {w : Insn} {i : Instr} (h : seg w 24 7 = 0x24#7) (hd : decode24 w = some i) : decodeForm w = .ok i := by
  rw [decodeForm, h, hd]; rfl

theorem form3A {w : Insn} {i : Instr} (h : seg w 24 7 = 0x3A#7) (hd : decode3A w = some i) : decodeForm w = .ok i := by
  rw [decodeForm, h, hd]; rfl

theorem form25 {w : Insn} {i : Instr} (h : seg w 24 7 = 0x25#7) (hd : decode25 w = some i) : decodeForm w = .ok i := by
  rw [decodeForm, h, hd]; rfl

theorem form26 {w : Insn} {i : Instr} (h : seg w 24 7 = 0x26#7) (hd : decode26 w = some i) : decodeForm w = .ok i := by
  rw [decodeForm, h, hd]; rfl

theorem form27 {w : Insn} {i : Instr} (h : seg w 24 7 = 0x27#7) (hd : decode27 w = some i) : decodeForm w = .ok i := by
  rw [decodeForm, h, hd]; rfl

theorem form28 {w : Insn} {i : Instr} (h : seg w 24 7 = 0x28#7) (hd : decode28 w = some i) : decodeForm w = .ok i := by
  rw [decodeForm, h, hd]; rfl

theorem form29 {w : Insn} {i : Instr} (h : seg w 24 7 = 0x29#7) (hd : decode29 w = some i) : decodeForm w = .ok i := by
  rw [decodeForm, h, hd]; rfl

theorem form2A {w : Insn} {i : Instr} (h : seg w 24 7 = 0x2A#7) (hd : decode2A w = some i) : decodeForm w = .ok i := by
  rw [decodeForm, h, hd]; rfl

theorem form2B {w : Insn} {i : Instr} (h : seg w 24 7 = 0x2B#7) (hd : decode2B w = some i) : decodeForm w = .ok i := by
  rw [decodeForm, h, hd]; rfl

theorem form2C {w : Insn} {i : Instr} (h : seg w 24 7 = 0x2C#7) (hd : decode2C w = some i) : decodeForm w = .ok i := by
  rw [decodeForm, h, hd]; rfl

theorem form2F {w : Insn} {i : Instr} (h : seg w 24 7 = 0x2F#7) (hd : decode2F w = some i) : decodeForm w = .ok i := by
  rw [decodeForm, h, hd]; rfl

theorem form30 {w : Insn} {i : Instr} (h : seg w 24 7 = 0x30#7) (hd : decode30 w = some i) : decodeForm w = .ok i := by
  rw [decodeForm, h, hd]; rfl

theorem form31 {w : Insn} {i : Instr} (h : seg w 24 7 = 0x31#7) (hd : decode31 w = some i) : decodeForm w = .ok i := by
  rw [decodeForm, h, hd]; rfl

theorem form2D {w : Insn} {i : Instr} (h : seg w 24 7 = 0x2D#7) (hd : decode2D w = some i) : decodeForm w = .ok i := by
  rw [decodeForm, h, hd]; rfl

theorem form4C {w : Insn} {i : Instr} (h : seg w 24 7 = 0x4C#7) (hd : decode4C w = some i) : decodeForm w = .ok i := by
  rw [decodeForm, h, hd]; rfl

theorem form2E {w : Insn} {i : Instr} (h : seg w 24 7 = 0x2E#7) (hd : decode2E w = some i) : decodeForm w = .ok i := by
  rw [decodeForm, h, hd]; rfl

theorem form4A {w : Insn} {i : Instr} (h : seg w 24 7 = 0x4A#7) (hd : decode4A w = some i) : decodeForm w = .ok i := by
  rw [decodeForm, h, hd]; rfl

theorem form4F {w : Insn} {i : Instr} (h : seg w 24 7 = 0x4F#7) (hd : decode4F w = some i) : decodeForm w = .ok i := by
  rw [decodeForm, h, hd]; rfl

theorem form4B {w : Insn} {i : Instr} (h : seg w 24 7 = 0x4B#7) (hd : decode4B w = some i) : decodeForm w = .ok i := by
  rw [decodeForm, h, hd]; rfl

theorem form4D {w : Insn} {i : Instr} (h : seg w 24 7 = 0x4D#7) (hd : decode4D w = some i) : decodeForm w = .ok i := by
  rw [decodeForm, h, hd]; rfl

theorem form4E {w : Insn} {i : Instr} (h : seg w 24 7 = 0x4E#7) (hd : decode4E w = some i) : decodeForm w = .ok i := by
  rw [decodeForm, h, hd]; rfl

theorem form40 {w : Insn} {i : Instr} (h : seg w 24 7 = 0x40#7) (hd : decode40 w = some i) : decodeForm w = .ok i := by
  rw [decodeForm, h, hd]; rfl

theorem form41 {w : Insn} {i : Instr} (h : seg w 24 7 = 0x41#7) (hd : decode41 w = some i) : decodeForm w = .ok i := by
  rw [decodeForm, h, hd]; rfl

theorem form42 {w : Insn} {i : Instr} (h : seg w 24 7 = 0x42#7) (hd : decode42 w = some i) : decodeForm w = .ok i := by
  rw [decodeForm, h, hd]; rfl

theorem form43 {w : Insn} {i : Instr} (h : seg w 24 7 = 0x43#7) (hd : decode43 w = some i) : decodeForm w = .ok i := by
  rw [decodeForm, h, hd]; rfl

theorem form44 {w : Insn} {i : Instr} (h : seg w 24 7 = 0x44#7) (hd : decode44 w = some i) : decodeForm w = .ok i := by
  rw [decodeForm, h, hd]; rfl

theorem form45 {w : Insn} {i : Instr} (h : seg w 24 7 = 0x45#7) (hd : decode45 w = some i) : decodeForm w = .ok i := by
  rw [decodeForm, h, hd]; rfl

theorem form46 {w : Insn} {i : Instr} (h : seg w 24 7 = 0x46#7) (hd : decode46 w = some i) : decodeForm w = .ok i := by
  rw [decodeForm, h, hd]; rfl

theorem form47 {w : Insn} {i : Instr} (h : seg w 24 7 = 0x47#7) (hd : decode47 w = some i) : decodeForm w = .ok i := by
  rw [decodeForm, h, hd]; rfl

theorem form48 {w : Insn} {i : Instr} (h : seg w 24 7 = 0x48#7) (hd : decode48 w = some i) : decodeForm w = .ok i := by
  rw [decodeForm, h, hd]; rfl

theorem form49 {w : Insn} {i : Instr} (h : seg w 24 7 = 0x49#7) (hd : decode49 w = some i) : decodeForm w = .ok i := by
  rw [decodeForm, h, hd]; rfl

theorem form32 {w : Insn} {i : Instr} (h : seg w 24 7 = 0x32#7) (hd : decode32 w = some i) : decodeForm w = .ok i := by
  rw [decodeForm, h, hd]; rfl

theorem form33 {w : Insn} {i : Instr} (h : seg w 24 7 = 0x33#7) (hd : decode33 w = some i) : decodeForm w = .ok i := by
  rw [decodeForm, h, hd]; rfl

theorem form34 {w : Insn} {i : Instr} (h : seg w 24 7 = 0x34#7) (hd : decode34 w = some i) : decodeForm w = .ok i := by
  rw [decodeForm, h, hd]; rfl

theorem form35 {w : Insn} {i : Instr} (h : seg w 24 7 = 0x35#7) (hd : decode35 w = some i) : decodeForm w = .ok i := by
  rw [decodeForm, h, hd]; rfl

theorem form36 {w : Insn} {i : Instr} (h : seg w 24 7 = 0x36#7) (hd : decode36 w = some i) : decodeForm w = .ok i := by
  rw [decodeForm, h, hd]; rfl

theorem form37 {w : Insn} {i : Instr} (h : seg w 24 7 = 0x37#7) (hd : decode37 w = some i) : decodeForm w = .ok i := by
  rw [decodeForm, h, hd]; rfl

theorem form38 {w : Insn} {i : Instr} (h : seg w 24 7 = 0x38#7) (hd : decode38 w = some i) : decodeForm w = .ok i := by
  rw [decodeForm, h, hd]; rfl

theorem form39 {w : Insn} {i : Instr} (h : seg w 24 7 = 0x39#7) (hd : decode39 w = some i) : decodeForm w = .ok i := by
  rw [decodeForm, h, hd]; rfl

theorem form68 {w : Insn} {i : Instr} (h : seg w 24 7 = 0x68#7) (hd : decode68 w = some i) : decodeForm w = .ok i := by
  rw [decodeForm, h, hd]; rfl

theorem form69 {w : Insn} {i : Instr} (h : seg w 24 7 = 0x69#7) (hd : decode69 w = some i) : decodeForm w = .ok i := by
  rw [decodeForm, h, hd]; rfl

theorem form6B {w : Insn} {i : Instr} (h : seg w 24 7 = 0x6B#7) (hd : decode6B w = some i) : decodeForm w = .ok i := by
  rw [decodeForm, h, hd]; rfl

theorem form6A {w : Insn} {i : Instr} (h : seg w 24 7 = 0x6A#7) (hd : decode6A w = some i) : decodeForm w = .ok i := by
  rw [decodeForm, h, hd]; rfl

theorem form50 {w : Insn} {i : Instr} (h : seg w 24 7 = 0x50#7) (hd : decode50 w = some i) : decodeForm w = .ok i := by
  rw [decodeForm, h, hd]; rfl

theorem form51 {w : Insn} {i : Instr} (h : seg w 24 7 = 0x51#7) (hd : decode51 w = some i) : decodeForm w = .ok i := by
  rw [decodeForm, h, hd]; rfl

theorem form52 {w : Insn} {i : Instr} (h : seg w 24 7 = 0x52#7) (hd : decode52 w = some i) : decodeForm w = .ok i := by
  rw [decodeForm, h, hd]; rfl

theorem form53 {w : Insn} {i : Instr} (h : seg w 24 7 = 0x53#7) (hd : decode53 w = some i) : decodeForm w = .ok i := by
  rw [decodeForm, h, hd]; rfl

theorem form54 {w : Insn} {i : Instr} (h : seg w 24 7 = 0x54#7) (hd : decode54 w = some i) : decodeForm w = .ok i := by
  rw [decodeForm, h, hd]; rfl

theorem form55 {w : Insn} {i : Instr} (h : seg w 24 7 = 0x55#7) (hd : decode55 w = some i) : decodeForm w = .ok i := by
  rw [decodeForm, h, hd]; rfl

theorem form58 {w : Insn} {i : Instr} (h : seg w 24 7 = 0x58#7) (hd : decode58 w = some i) : decodeForm w = .ok i := by
  rw [decodeForm, h, hd]; rfl

theorem form59 {w : Insn} {i : Instr} (h : seg w 24 7 = 0x59#7) (hd : decode59 w = some i) : decodeForm w = .ok i := by
  rw [decodeForm, h, hd]; rfl

theorem form5A {w : Insn} {i : Instr} (h : seg w 24 7 = 0x5A#7) (hd : decode5A w = some i) : decodeForm w = .ok i := by
  rw [decodeForm, h, hd]; rfl

theorem form5B {w : Insn} {i : Instr} (h : seg w 24 7 = 0x5B#7) (hd : decode5B w = some i) : decodeForm w = .ok i := by
  rw [decodeForm, h, hd]; rfl

theorem form5C {w : Insn} {i : Instr} (h : seg w 24 7 = 0x5C#7) (hd : decode5C w = some i) : decodeForm w = .ok i := by
  rw [decodeForm, h, hd]; rfl

theorem form5D {w : Insn} {i : Instr} (h : seg w 24 7 = 0x5D#7) (hd : decode5D w = some i) : decodeForm w = .ok i := by
  rw [decodeForm, h, hd]; rfl

theorem form64 {w : Insn} {i : Instr} (h : seg w 24 7 = 0x64#7) (hd : decode64 w = some i) : decodeForm w = .ok i := by
  rw [decodeForm, h, hd]; rfl

theorem form65 {w : Insn} {i : Instr} (h : seg w 24 7 = 0x65#7) (hd : decode65 w = some i) : decodeForm w = .ok i := by
  rw [decodeForm, h, hd]; rfl

theorem form60 {w : Insn} {i : Instr} (h : seg w 24 7 = 0x60#7) (hd : decode60 w = some i) : decodeForm w = .ok i := by
  rw [decodeForm, h, hd]; rfl

theorem form61 {w : Insn} {i : Instr} (h : seg w 24 7 = 0x61#7) (hd : decode61 w = some i) : decodeForm w = .ok i := by
  rw [decodeForm, h, hd]; rfl

theorem form62 {w : Insn} {i : Instr} (h : seg w 24 7 = 0x62#7) (hd : decode62 w = some i) : decodeForm w = .ok i := by
  rw [decodeForm, h, hd]; rfl

theorem form63 {w : Insn} {i : Instr} (h : seg w 24 7 = 0x63#7) (hd : decode63 w = some i) : decodeForm w = .ok i := by
  rw [decodeForm, h, hd]; rfl

theorem form70 {w : Insn} {i : Instr} (h : seg w 24 7 = 0x70#7) (hd : decode70 w = some i) : decodeForm w = .ok i := by
  rw [decodeForm, h, hd]; rfl

theorem form71 {w : Insn} {i : Instr} (h : seg w 24 7 = 0x71#7) (hd : decode71 w = some i) : decodeForm w = .ok i := by
  rw [decodeForm, h, hd]; rfl

theorem form72 {w : Insn} {i : Instr} (h : seg w 24 7 = 0x72#7) (hd : decode72 w = some i) : decodeForm w = .ok i := by
  rw [decodeForm, h, hd]; rfl

theorem form73 {w : Insn} {i : Instr} (h : seg w 24 7 = 0x73#7) (hd : decode73 w = some i) : decodeForm w = .ok i := by
  rw [decodeForm, h, hd]; rfl

end Sys2Proof.Laws
end

