-- ==== Sys2Proof/Laws/PerInstr.lean ====
section
/-!
SUPPORT. Decoding gives back what was encoded, instruction by instruction: the family `RoundTrip` of LAWS.json.
-/

namespace Sys2Proof.Laws

set_option Elab.async false

/-- What is shown of each instruction: if it is well-formed, its word decodes to it. -/
def RoundTrip.Statement (i : Instr) : Prop := i.wellFormed = true → decode (encode i) = .ok i

theorem RoundTrip.add (d : BitVec 6) (a : BitVec 6) (b : BitVec 6) : RoundTrip.Statement (.add d a b) := by
  have m : seg (encode (.add d a b)) 24 7 = 1#7 := (seg_off _ b 6 24 7 (by decide)).trans ((seg_off _ a 12 24 7 (by decide)).trans ((seg_off _ d 18 24 7 (by decide)).trans rfl))
  have h1 : seg (encode (.add d a b)) 0 6 = 0#6 := (seg_off _ b 6 0 6 (by decide)).trans ((seg_off _ a 12 0 6 (by decide)).trans ((seg_off _ d 18 0 6 (by decide)).trans rfl))
  have h2 : seg (encode (.add d a b)) 31 1 = 0#1 := (seg_off _ b 6 31 1 (by decide)).trans ((seg_off _ a 12 31 1 (by decide)).trans ((seg_off _ d 18 31 1 (by decide)).trans rfl))
  have h3 : seg (encode (.add d a b)) 18 6 = d := (seg_off _ b 6 18 6 (by decide)).trans ((seg_off _ a 12 18 6 (by decide)).trans (seg_hit _ d 18 rfl (by decide)))
  have h4 : seg (encode (.add d a b)) 12 6 = a := (seg_off _ b 6 12 6 (by decide)).trans (seg_hit _ a 12 ((seg_off _ d 18 12 6 (by decide)).trans rfl) (by decide))
  have h5 : seg (encode (.add d a b)) 6 6 = b := seg_hit _ b 6 ((seg_off _ a 12 6 6 (by decide)).trans ((seg_off _ d 18 6 6 (by decide)).trans rfl)) (by decide)
  exact decode_of (form01 m (by simp [decode01, h1, h2, h3, h4, h5]))
theorem RoundTrip.sub (d : BitVec 6) (a : BitVec 6) (b : BitVec 6) : RoundTrip.Statement (.sub d a b) := by
  have m : seg (encode (.sub d a b)) 24 7 = 1#7 := (seg_off _ b 6 24 7 (by decide)).trans ((seg_off _ a 12 24 7 (by decide)).trans ((seg_off _ d 18 24 7 (by decide)).trans rfl))
  have h1 : seg (encode (.sub d a b)) 0 6 = 1#6 := (seg_off _ b 6 0 6 (by decide)).trans ((seg_off _ a 12 0 6 (by decide)).trans ((seg_off _ d 18 0 6 (by decide)).trans rfl))
  have h2 : seg (encode (.sub d a b)) 31 1 = 0#1 := (seg_off _ b 6 31 1 (by decide)).trans ((seg_off _ a 12 31 1 (by decide)).trans ((seg_off _ d 18 31 1 (by decide)).trans rfl))
  have h3 : seg (encode (.sub d a b)) 18 6 = d := (seg_off _ b 6 18 6 (by decide)).trans ((seg_off _ a 12 18 6 (by decide)).trans (seg_hit _ d 18 rfl (by decide)))
  have h4 : seg (encode (.sub d a b)) 12 6 = a := (seg_off _ b 6 12 6 (by decide)).trans (seg_hit _ a 12 ((seg_off _ d 18 12 6 (by decide)).trans rfl) (by decide))
  have h5 : seg (encode (.sub d a b)) 6 6 = b := seg_hit _ b 6 ((seg_off _ a 12 6 6 (by decide)).trans ((seg_off _ d 18 6 6 (by decide)).trans rfl)) (by decide)
  exact decode_of (form01 m (by simp [decode01, h1, h2, h3, h4, h5]))
theorem RoundTrip.andR (d : BitVec 6) (a : BitVec 6) (b : BitVec 6) : RoundTrip.Statement (.andR d a b) := by
  have m : seg (encode (.andR d a b)) 24 7 = 1#7 := (seg_off _ b 6 24 7 (by decide)).trans ((seg_off _ a 12 24 7 (by decide)).trans ((seg_off _ d 18 24 7 (by decide)).trans rfl))
  have h1 : seg (encode (.andR d a b)) 0 6 = 2#6 := (seg_off _ b 6 0 6 (by decide)).trans ((seg_off _ a 12 0 6 (by decide)).trans ((seg_off _ d 18 0 6 (by decide)).trans rfl))
  have h2 : seg (encode (.andR d a b)) 31 1 = 0#1 := (seg_off _ b 6 31 1 (by decide)).trans ((seg_off _ a 12 31 1 (by decide)).trans ((seg_off _ d 18 31 1 (by decide)).trans rfl))
  have h3 : seg (encode (.andR d a b)) 18 6 = d := (seg_off _ b 6 18 6 (by decide)).trans ((seg_off _ a 12 18 6 (by decide)).trans (seg_hit _ d 18 rfl (by decide)))
  have h4 : seg (encode (.andR d a b)) 12 6 = a := (seg_off _ b 6 12 6 (by decide)).trans (seg_hit _ a 12 ((seg_off _ d 18 12 6 (by decide)).trans rfl) (by decide))
  have h5 : seg (encode (.andR d a b)) 6 6 = b := seg_hit _ b 6 ((seg_off _ a 12 6 6 (by decide)).trans ((seg_off _ d 18 6 6 (by decide)).trans rfl)) (by decide)
  exact decode_of (form01 m (by simp [decode01, h1, h2, h3, h4, h5]))
theorem RoundTrip.orR (d : BitVec 6) (a : BitVec 6) (b : BitVec 6) : RoundTrip.Statement (.orR d a b) := by
  have m : seg (encode (.orR d a b)) 24 7 = 1#7 := (seg_off _ b 6 24 7 (by decide)).trans ((seg_off _ a 12 24 7 (by decide)).trans ((seg_off _ d 18 24 7 (by decide)).trans rfl))
  have h1 : seg (encode (.orR d a b)) 0 6 = 3#6 := (seg_off _ b 6 0 6 (by decide)).trans ((seg_off _ a 12 0 6 (by decide)).trans ((seg_off _ d 18 0 6 (by decide)).trans rfl))
  have h2 : seg (encode (.orR d a b)) 31 1 = 0#1 := (seg_off _ b 6 31 1 (by decide)).trans ((seg_off _ a 12 31 1 (by decide)).trans ((seg_off _ d 18 31 1 (by decide)).trans rfl))
  have h3 : seg (encode (.orR d a b)) 18 6 = d := (seg_off _ b 6 18 6 (by decide)).trans ((seg_off _ a 12 18 6 (by decide)).trans (seg_hit _ d 18 rfl (by decide)))
  have h4 : seg (encode (.orR d a b)) 12 6 = a := (seg_off _ b 6 12 6 (by decide)).trans (seg_hit _ a 12 ((seg_off _ d 18 12 6 (by decide)).trans rfl) (by decide))
  have h5 : seg (encode (.orR d a b)) 6 6 = b := seg_hit _ b 6 ((seg_off _ a 12 6 6 (by decide)).trans ((seg_off _ d 18 6 6 (by decide)).trans rfl)) (by decide)
  exact decode_of (form01 m (by simp [decode01, h1, h2, h3, h4, h5]))
theorem RoundTrip.xorR (d : BitVec 6) (a : BitVec 6) (b : BitVec 6) : RoundTrip.Statement (.xorR d a b) := by
  have m : seg (encode (.xorR d a b)) 24 7 = 1#7 := (seg_off _ b 6 24 7 (by decide)).trans ((seg_off _ a 12 24 7 (by decide)).trans ((seg_off _ d 18 24 7 (by decide)).trans rfl))
  have h1 : seg (encode (.xorR d a b)) 0 6 = 4#6 := (seg_off _ b 6 0 6 (by decide)).trans ((seg_off _ a 12 0 6 (by decide)).trans ((seg_off _ d 18 0 6 (by decide)).trans rfl))
  have h2 : seg (encode (.xorR d a b)) 31 1 = 0#1 := (seg_off _ b 6 31 1 (by decide)).trans ((seg_off _ a 12 31 1 (by decide)).trans ((seg_off _ d 18 31 1 (by decide)).trans rfl))
  have h3 : seg (encode (.xorR d a b)) 18 6 = d := (seg_off _ b 6 18 6 (by decide)).trans ((seg_off _ a 12 18 6 (by decide)).trans (seg_hit _ d 18 rfl (by decide)))
  have h4 : seg (encode (.xorR d a b)) 12 6 = a := (seg_off _ b 6 12 6 (by decide)).trans (seg_hit _ a 12 ((seg_off _ d 18 12 6 (by decide)).trans rfl) (by decide))
  have h5 : seg (encode (.xorR d a b)) 6 6 = b := seg_hit _ b 6 ((seg_off _ a 12 6 6 (by decide)).trans ((seg_off _ d 18 6 6 (by decide)).trans rfl)) (by decide)
  exact decode_of (form01 m (by simp [decode01, h1, h2, h3, h4, h5]))
theorem RoundTrip.sll (d : BitVec 6) (a : BitVec 6) (b : BitVec 6) : RoundTrip.Statement (.sll d a b) := by
  have m : seg (encode (.sll d a b)) 24 7 = 1#7 := (seg_off _ b 6 24 7 (by decide)).trans ((seg_off _ a 12 24 7 (by decide)).trans ((seg_off _ d 18 24 7 (by decide)).trans rfl))
  have h1 : seg (encode (.sll d a b)) 0 6 = 5#6 := (seg_off _ b 6 0 6 (by decide)).trans ((seg_off _ a 12 0 6 (by decide)).trans ((seg_off _ d 18 0 6 (by decide)).trans rfl))
  have h2 : seg (encode (.sll d a b)) 31 1 = 0#1 := (seg_off _ b 6 31 1 (by decide)).trans ((seg_off _ a 12 31 1 (by decide)).trans ((seg_off _ d 18 31 1 (by decide)).trans rfl))
  have h3 : seg (encode (.sll d a b)) 18 6 = d := (seg_off _ b 6 18 6 (by decide)).trans ((seg_off _ a 12 18 6 (by decide)).trans (seg_hit _ d 18 rfl (by decide)))
  have h4 : seg (encode (.sll d a b)) 12 6 = a := (seg_off _ b 6 12 6 (by decide)).trans (seg_hit _ a 12 ((seg_off _ d 18 12 6 (by decide)).trans rfl) (by decide))
  have h5 : seg (encode (.sll d a b)) 6 6 = b := seg_hit _ b 6 ((seg_off _ a 12 6 6 (by decide)).trans ((seg_off _ d 18 6 6 (by decide)).trans rfl)) (by decide)
  exact decode_of (form01 m (by simp [decode01, h1, h2, h3, h4, h5]))
theorem RoundTrip.srl (d : BitVec 6) (a : BitVec 6) (b : BitVec 6) : RoundTrip.Statement (.srl d a b) := by
  have m : seg (encode (.srl d a b)) 24 7 = 1#7 := (seg_off _ b 6 24 7 (by decide)).trans ((seg_off _ a 12 24 7 (by decide)).trans ((seg_off _ d 18 24 7 (by decide)).trans rfl))
  have h1 : seg (encode (.srl d a b)) 0 6 = 6#6 := (seg_off _ b 6 0 6 (by decide)).trans ((seg_off _ a 12 0 6 (by decide)).trans ((seg_off _ d 18 0 6 (by decide)).trans rfl))
  have h2 : seg (encode (.srl d a b)) 31 1 = 0#1 := (seg_off _ b 6 31 1 (by decide)).trans ((seg_off _ a 12 31 1 (by decide)).trans ((seg_off _ d 18 31 1 (by decide)).trans rfl))
  have h3 : seg (encode (.srl d a b)) 18 6 = d := (seg_off _ b 6 18 6 (by decide)).trans ((seg_off _ a 12 18 6 (by decide)).trans (seg_hit _ d 18 rfl (by decide)))
  have h4 : seg (encode (.srl d a b)) 12 6 = a := (seg_off _ b 6 12 6 (by decide)).trans (seg_hit _ a 12 ((seg_off _ d 18 12 6 (by decide)).trans rfl) (by decide))
  have h5 : seg (encode (.srl d a b)) 6 6 = b := seg_hit _ b 6 ((seg_off _ a 12 6 6 (by decide)).trans ((seg_off _ d 18 6 6 (by decide)).trans rfl)) (by decide)
  exact decode_of (form01 m (by simp [decode01, h1, h2, h3, h4, h5]))
theorem RoundTrip.sra (d : BitVec 6) (a : BitVec 6) (b : BitVec 6) : RoundTrip.Statement (.sra d a b) := by
  have m : seg (encode (.sra d a b)) 24 7 = 1#7 := (seg_off _ b 6 24 7 (by decide)).trans ((seg_off _ a 12 24 7 (by decide)).trans ((seg_off _ d 18 24 7 (by decide)).trans rfl))
  have h1 : seg (encode (.sra d a b)) 0 6 = 7#6 := (seg_off _ b 6 0 6 (by decide)).trans ((seg_off _ a 12 0 6 (by decide)).trans ((seg_off _ d 18 0 6 (by decide)).trans rfl))
  have h2 : seg (encode (.sra d a b)) 31 1 = 0#1 := (seg_off _ b 6 31 1 (by decide)).trans ((seg_off _ a 12 31 1 (by decide)).trans ((seg_off _ d 18 31 1 (by decide)).trans rfl))
  have h3 : seg (encode (.sra d a b)) 18 6 = d := (seg_off _ b 6 18 6 (by decide)).trans ((seg_off _ a 12 18 6 (by decide)).trans (seg_hit _ d 18 rfl (by decide)))
  have h4 : seg (encode (.sra d a b)) 12 6 = a := (seg_off _ b 6 12 6 (by decide)).trans (seg_hit _ a 12 ((seg_off _ d 18 12 6 (by decide)).trans rfl) (by decide))
  have h5 : seg (encode (.sra d a b)) 6 6 = b := seg_hit _ b 6 ((seg_off _ a 12 6 6 (by decide)).trans ((seg_off _ d 18 6 6 (by decide)).trans rfl)) (by decide)
  exact decode_of (form01 m (by simp [decode01, h1, h2, h3, h4, h5]))
theorem RoundTrip.slt (d : BitVec 6) (a : BitVec 6) (b : BitVec 6) : RoundTrip.Statement (.slt d a b) := by
  have m : seg (encode (.slt d a b)) 24 7 = 1#7 := (seg_off _ b 6 24 7 (by decide)).trans ((seg_off _ a 12 24 7 (by decide)).trans ((seg_off _ d 18 24 7 (by decide)).trans rfl))
  have h1 : seg (encode (.slt d a b)) 0 6 = 8#6 := (seg_off _ b 6 0 6 (by decide)).trans ((seg_off _ a 12 0 6 (by decide)).trans ((seg_off _ d 18 0 6 (by decide)).trans rfl))
  have h2 : seg (encode (.slt d a b)) 31 1 = 0#1 := (seg_off _ b 6 31 1 (by decide)).trans ((seg_off _ a 12 31 1 (by decide)).trans ((seg_off _ d 18 31 1 (by decide)).trans rfl))
  have h3 : seg (encode (.slt d a b)) 18 6 = d := (seg_off _ b 6 18 6 (by decide)).trans ((seg_off _ a 12 18 6 (by decide)).trans (seg_hit _ d 18 rfl (by decide)))
  have h4 : seg (encode (.slt d a b)) 12 6 = a := (seg_off _ b 6 12 6 (by decide)).trans (seg_hit _ a 12 ((seg_off _ d 18 12 6 (by decide)).trans rfl) (by decide))
  have h5 : seg (encode (.slt d a b)) 6 6 = b := seg_hit _ b 6 ((seg_off _ a 12 6 6 (by decide)).trans ((seg_off _ d 18 6 6 (by decide)).trans rfl)) (by decide)
  exact decode_of (form01 m (by simp [decode01, h1, h2, h3, h4, h5]))
theorem RoundTrip.sltu (d : BitVec 6) (a : BitVec 6) (b : BitVec 6) : RoundTrip.Statement (.sltu d a b) := by
  have m : seg (encode (.sltu d a b)) 24 7 = 1#7 := (seg_off _ b 6 24 7 (by decide)).trans ((seg_off _ a 12 24 7 (by decide)).trans ((seg_off _ d 18 24 7 (by decide)).trans rfl))
  have h1 : seg (encode (.sltu d a b)) 0 6 = 9#6 := (seg_off _ b 6 0 6 (by decide)).trans ((seg_off _ a 12 0 6 (by decide)).trans ((seg_off _ d 18 0 6 (by decide)).trans rfl))
  have h2 : seg (encode (.sltu d a b)) 31 1 = 0#1 := (seg_off _ b 6 31 1 (by decide)).trans ((seg_off _ a 12 31 1 (by decide)).trans ((seg_off _ d 18 31 1 (by decide)).trans rfl))
  have h3 : seg (encode (.sltu d a b)) 18 6 = d := (seg_off _ b 6 18 6 (by decide)).trans ((seg_off _ a 12 18 6 (by decide)).trans (seg_hit _ d 18 rfl (by decide)))
  have h4 : seg (encode (.sltu d a b)) 12 6 = a := (seg_off _ b 6 12 6 (by decide)).trans (seg_hit _ a 12 ((seg_off _ d 18 12 6 (by decide)).trans rfl) (by decide))
  have h5 : seg (encode (.sltu d a b)) 6 6 = b := seg_hit _ b 6 ((seg_off _ a 12 6 6 (by decide)).trans ((seg_off _ d 18 6 6 (by decide)).trans rfl)) (by decide)
  exact decode_of (form01 m (by simp [decode01, h1, h2, h3, h4, h5]))
theorem RoundTrip.min (d : BitVec 6) (a : BitVec 6) (b : BitVec 6) : RoundTrip.Statement (.min d a b) := by
  have m : seg (encode (.min d a b)) 24 7 = 1#7 := (seg_off _ b 6 24 7 (by decide)).trans ((seg_off _ a 12 24 7 (by decide)).trans ((seg_off _ d 18 24 7 (by decide)).trans rfl))
  have h1 : seg (encode (.min d a b)) 0 6 = 10#6 := (seg_off _ b 6 0 6 (by decide)).trans ((seg_off _ a 12 0 6 (by decide)).trans ((seg_off _ d 18 0 6 (by decide)).trans rfl))
  have h2 : seg (encode (.min d a b)) 31 1 = 0#1 := (seg_off _ b 6 31 1 (by decide)).trans ((seg_off _ a 12 31 1 (by decide)).trans ((seg_off _ d 18 31 1 (by decide)).trans rfl))
  have h3 : seg (encode (.min d a b)) 18 6 = d := (seg_off _ b 6 18 6 (by decide)).trans ((seg_off _ a 12 18 6 (by decide)).trans (seg_hit _ d 18 rfl (by decide)))
  have h4 : seg (encode (.min d a b)) 12 6 = a := (seg_off _ b 6 12 6 (by decide)).trans (seg_hit _ a 12 ((seg_off _ d 18 12 6 (by decide)).trans rfl) (by decide))
  have h5 : seg (encode (.min d a b)) 6 6 = b := seg_hit _ b 6 ((seg_off _ a 12 6 6 (by decide)).trans ((seg_off _ d 18 6 6 (by decide)).trans rfl)) (by decide)
  exact decode_of (form01 m (by simp [decode01, h1, h2, h3, h4, h5]))
theorem RoundTrip.max (d : BitVec 6) (a : BitVec 6) (b : BitVec 6) : RoundTrip.Statement (.max d a b) := by
  have m : seg (encode (.max d a b)) 24 7 = 1#7 := (seg_off _ b 6 24 7 (by decide)).trans ((seg_off _ a 12 24 7 (by decide)).trans ((seg_off _ d 18 24 7 (by decide)).trans rfl))
  have h1 : seg (encode (.max d a b)) 0 6 = 11#6 := (seg_off _ b 6 0 6 (by decide)).trans ((seg_off _ a 12 0 6 (by decide)).trans ((seg_off _ d 18 0 6 (by decide)).trans rfl))
  have h2 : seg (encode (.max d a b)) 31 1 = 0#1 := (seg_off _ b 6 31 1 (by decide)).trans ((seg_off _ a 12 31 1 (by decide)).trans ((seg_off _ d 18 31 1 (by decide)).trans rfl))
  have h3 : seg (encode (.max d a b)) 18 6 = d := (seg_off _ b 6 18 6 (by decide)).trans ((seg_off _ a 12 18 6 (by decide)).trans (seg_hit _ d 18 rfl (by decide)))
  have h4 : seg (encode (.max d a b)) 12 6 = a := (seg_off _ b 6 12 6 (by decide)).trans (seg_hit _ a 12 ((seg_off _ d 18 12 6 (by decide)).trans rfl) (by decide))
  have h5 : seg (encode (.max d a b)) 6 6 = b := seg_hit _ b 6 ((seg_off _ a 12 6 6 (by decide)).trans ((seg_off _ d 18 6 6 (by decide)).trans rfl)) (by decide)
  exact decode_of (form01 m (by simp [decode01, h1, h2, h3, h4, h5]))
theorem RoundTrip.minu (d : BitVec 6) (a : BitVec 6) (b : BitVec 6) : RoundTrip.Statement (.minu d a b) := by
  have m : seg (encode (.minu d a b)) 24 7 = 1#7 := (seg_off _ b 6 24 7 (by decide)).trans ((seg_off _ a 12 24 7 (by decide)).trans ((seg_off _ d 18 24 7 (by decide)).trans rfl))
  have h1 : seg (encode (.minu d a b)) 0 6 = 12#6 := (seg_off _ b 6 0 6 (by decide)).trans ((seg_off _ a 12 0 6 (by decide)).trans ((seg_off _ d 18 0 6 (by decide)).trans rfl))
  have h2 : seg (encode (.minu d a b)) 31 1 = 0#1 := (seg_off _ b 6 31 1 (by decide)).trans ((seg_off _ a 12 31 1 (by decide)).trans ((seg_off _ d 18 31 1 (by decide)).trans rfl))
  have h3 : seg (encode (.minu d a b)) 18 6 = d := (seg_off _ b 6 18 6 (by decide)).trans ((seg_off _ a 12 18 6 (by decide)).trans (seg_hit _ d 18 rfl (by decide)))
  have h4 : seg (encode (.minu d a b)) 12 6 = a := (seg_off _ b 6 12 6 (by decide)).trans (seg_hit _ a 12 ((seg_off _ d 18 12 6 (by decide)).trans rfl) (by decide))
  have h5 : seg (encode (.minu d a b)) 6 6 = b := seg_hit _ b 6 ((seg_off _ a 12 6 6 (by decide)).trans ((seg_off _ d 18 6 6 (by decide)).trans rfl)) (by decide)
  exact decode_of (form01 m (by simp [decode01, h1, h2, h3, h4, h5]))
theorem RoundTrip.maxu (d : BitVec 6) (a : BitVec 6) (b : BitVec 6) : RoundTrip.Statement (.maxu d a b) := by
  have m : seg (encode (.maxu d a b)) 24 7 = 1#7 := (seg_off _ b 6 24 7 (by decide)).trans ((seg_off _ a 12 24 7 (by decide)).trans ((seg_off _ d 18 24 7 (by decide)).trans rfl))
  have h1 : seg (encode (.maxu d a b)) 0 6 = 13#6 := (seg_off _ b 6 0 6 (by decide)).trans ((seg_off _ a 12 0 6 (by decide)).trans ((seg_off _ d 18 0 6 (by decide)).trans rfl))
  have h2 : seg (encode (.maxu d a b)) 31 1 = 0#1 := (seg_off _ b 6 31 1 (by decide)).trans ((seg_off _ a 12 31 1 (by decide)).trans ((seg_off _ d 18 31 1 (by decide)).trans rfl))
  have h3 : seg (encode (.maxu d a b)) 18 6 = d := (seg_off _ b 6 18 6 (by decide)).trans ((seg_off _ a 12 18 6 (by decide)).trans (seg_hit _ d 18 rfl (by decide)))
  have h4 : seg (encode (.maxu d a b)) 12 6 = a := (seg_off _ b 6 12 6 (by decide)).trans (seg_hit _ a 12 ((seg_off _ d 18 12 6 (by decide)).trans rfl) (by decide))
  have h5 : seg (encode (.maxu d a b)) 6 6 = b := seg_hit _ b 6 ((seg_off _ a 12 6 6 (by decide)).trans ((seg_off _ d 18 6 6 (by decide)).trans rfl)) (by decide)
  exact decode_of (form01 m (by simp [decode01, h1, h2, h3, h4, h5]))
theorem RoundTrip.andn (d : BitVec 6) (a : BitVec 6) (b : BitVec 6) : RoundTrip.Statement (.andn d a b) := by
  have m : seg (encode (.andn d a b)) 24 7 = 1#7 := (seg_off _ b 6 24 7 (by decide)).trans ((seg_off _ a 12 24 7 (by decide)).trans ((seg_off _ d 18 24 7 (by decide)).trans rfl))
  have h1 : seg (encode (.andn d a b)) 0 6 = 14#6 := (seg_off _ b 6 0 6 (by decide)).trans ((seg_off _ a 12 0 6 (by decide)).trans ((seg_off _ d 18 0 6 (by decide)).trans rfl))
  have h2 : seg (encode (.andn d a b)) 31 1 = 0#1 := (seg_off _ b 6 31 1 (by decide)).trans ((seg_off _ a 12 31 1 (by decide)).trans ((seg_off _ d 18 31 1 (by decide)).trans rfl))
  have h3 : seg (encode (.andn d a b)) 18 6 = d := (seg_off _ b 6 18 6 (by decide)).trans ((seg_off _ a 12 18 6 (by decide)).trans (seg_hit _ d 18 rfl (by decide)))
  have h4 : seg (encode (.andn d a b)) 12 6 = a := (seg_off _ b 6 12 6 (by decide)).trans (seg_hit _ a 12 ((seg_off _ d 18 12 6 (by decide)).trans rfl) (by decide))
  have h5 : seg (encode (.andn d a b)) 6 6 = b := seg_hit _ b 6 ((seg_off _ a 12 6 6 (by decide)).trans ((seg_off _ d 18 6 6 (by decide)).trans rfl)) (by decide)
  exact decode_of (form01 m (by simp [decode01, h1, h2, h3, h4, h5]))
theorem RoundTrip.absd (d : BitVec 6) (a : BitVec 6) (b : BitVec 6) : RoundTrip.Statement (.absd d a b) := by
  have m : seg (encode (.absd d a b)) 24 7 = 1#7 := (seg_off _ b 6 24 7 (by decide)).trans ((seg_off _ a 12 24 7 (by decide)).trans ((seg_off _ d 18 24 7 (by decide)).trans rfl))
  have h1 : seg (encode (.absd d a b)) 0 6 = 15#6 := (seg_off _ b 6 0 6 (by decide)).trans ((seg_off _ a 12 0 6 (by decide)).trans ((seg_off _ d 18 0 6 (by decide)).trans rfl))
  have h2 : seg (encode (.absd d a b)) 31 1 = 0#1 := (seg_off _ b 6 31 1 (by decide)).trans ((seg_off _ a 12 31 1 (by decide)).trans ((seg_off _ d 18 31 1 (by decide)).trans rfl))
  have h3 : seg (encode (.absd d a b)) 18 6 = d := (seg_off _ b 6 18 6 (by decide)).trans ((seg_off _ a 12 18 6 (by decide)).trans (seg_hit _ d 18 rfl (by decide)))
  have h4 : seg (encode (.absd d a b)) 12 6 = a := (seg_off _ b 6 12 6 (by decide)).trans (seg_hit _ a 12 ((seg_off _ d 18 12 6 (by decide)).trans rfl) (by decide))
  have h5 : seg (encode (.absd d a b)) 6 6 = b := seg_hit _ b 6 ((seg_off _ a 12 6 6 (by decide)).trans ((seg_off _ d 18 6 6 (by decide)).trans rfl)) (by decide)
  exact decode_of (form01 m (by simp [decode01, h1, h2, h3, h4, h5]))
theorem RoundTrip.mul (d : BitVec 6) (a : BitVec 6) (b : BitVec 6) : RoundTrip.Statement (.mul d a b) := by
  have m : seg (encode (.mul d a b)) 24 7 = 1#7 := (seg_off _ b 6 24 7 (by decide)).trans ((seg_off _ a 12 24 7 (by decide)).trans ((seg_off _ d 18 24 7 (by decide)).trans rfl))
  have h1 : seg (encode (.mul d a b)) 0 6 = 16#6 := (seg_off _ b 6 0 6 (by decide)).trans ((seg_off _ a 12 0 6 (by decide)).trans ((seg_off _ d 18 0 6 (by decide)).trans rfl))
  have h2 : seg (encode (.mul d a b)) 31 1 = 0#1 := (seg_off _ b 6 31 1 (by decide)).trans ((seg_off _ a 12 31 1 (by decide)).trans ((seg_off _ d 18 31 1 (by decide)).trans rfl))
  have h3 : seg (encode (.mul d a b)) 18 6 = d := (seg_off _ b 6 18 6 (by decide)).trans ((seg_off _ a 12 18 6 (by decide)).trans (seg_hit _ d 18 rfl (by decide)))
  have h4 : seg (encode (.mul d a b)) 12 6 = a := (seg_off _ b 6 12 6 (by decide)).trans (seg_hit _ a 12 ((seg_off _ d 18 12 6 (by decide)).trans rfl) (by decide))
  have h5 : seg (encode (.mul d a b)) 6 6 = b := seg_hit _ b 6 ((seg_off _ a 12 6 6 (by decide)).trans ((seg_off _ d 18 6 6 (by decide)).trans rfl)) (by decide)
  exact decode_of (form01 m (by simp [decode01, h1, h2, h3, h4, h5]))
theorem RoundTrip.hmul (d : BitVec 6) (a : BitVec 6) (b : BitVec 6) : RoundTrip.Statement (.hmul d a b) := by
  have m : seg (encode (.hmul d a b)) 24 7 = 1#7 := (seg_off _ b 6 24 7 (by decide)).trans ((seg_off _ a 12 24 7 (by decide)).trans ((seg_off _ d 18 24 7 (by decide)).trans rfl))
  have h1 : seg (encode (.hmul d a b)) 0 6 = 17#6 := (seg_off _ b 6 0 6 (by decide)).trans ((seg_off _ a 12 0 6 (by decide)).trans ((seg_off _ d 18 0 6 (by decide)).trans rfl))
  have h2 : seg (encode (.hmul d a b)) 31 1 = 0#1 := (seg_off _ b 6 31 1 (by decide)).trans ((seg_off _ a 12 31 1 (by decide)).trans ((seg_off _ d 18 31 1 (by decide)).trans rfl))
  have h3 : seg (encode (.hmul d a b)) 18 6 = d := (seg_off _ b 6 18 6 (by decide)).trans ((seg_off _ a 12 18 6 (by decide)).trans (seg_hit _ d 18 rfl (by decide)))
  have h4 : seg (encode (.hmul d a b)) 12 6 = a := (seg_off _ b 6 12 6 (by decide)).trans (seg_hit _ a 12 ((seg_off _ d 18 12 6 (by decide)).trans rfl) (by decide))
  have h5 : seg (encode (.hmul d a b)) 6 6 = b := seg_hit _ b 6 ((seg_off _ a 12 6 6 (by decide)).trans ((seg_off _ d 18 6 6 (by decide)).trans rfl)) (by decide)
  exact decode_of (form01 m (by simp [decode01, h1, h2, h3, h4, h5]))
theorem RoundTrip.hmulu (d : BitVec 6) (a : BitVec 6) (b : BitVec 6) : RoundTrip.Statement (.hmulu d a b) := by
  have m : seg (encode (.hmulu d a b)) 24 7 = 1#7 := (seg_off _ b 6 24 7 (by decide)).trans ((seg_off _ a 12 24 7 (by decide)).trans ((seg_off _ d 18 24 7 (by decide)).trans rfl))
  have h1 : seg (encode (.hmulu d a b)) 0 6 = 18#6 := (seg_off _ b 6 0 6 (by decide)).trans ((seg_off _ a 12 0 6 (by decide)).trans ((seg_off _ d 18 0 6 (by decide)).trans rfl))
  have h2 : seg (encode (.hmulu d a b)) 31 1 = 0#1 := (seg_off _ b 6 31 1 (by decide)).trans ((seg_off _ a 12 31 1 (by decide)).trans ((seg_off _ d 18 31 1 (by decide)).trans rfl))
  have h3 : seg (encode (.hmulu d a b)) 18 6 = d := (seg_off _ b 6 18 6 (by decide)).trans ((seg_off _ a 12 18 6 (by decide)).trans (seg_hit _ d 18 rfl (by decide)))
  have h4 : seg (encode (.hmulu d a b)) 12 6 = a := (seg_off _ b 6 12 6 (by decide)).trans (seg_hit _ a 12 ((seg_off _ d 18 12 6 (by decide)).trans rfl) (by decide))
  have h5 : seg (encode (.hmulu d a b)) 6 6 = b := seg_hit _ b 6 ((seg_off _ a 12 6 6 (by decide)).trans ((seg_off _ d 18 6 6 (by decide)).trans rfl)) (by decide)
  exact decode_of (form01 m (by simp [decode01, h1, h2, h3, h4, h5]))
theorem RoundTrip.hmulsu (d : BitVec 6) (a : BitVec 6) (b : BitVec 6) : RoundTrip.Statement (.hmulsu d a b) := by
  have m : seg (encode (.hmulsu d a b)) 24 7 = 1#7 := (seg_off _ b 6 24 7 (by decide)).trans ((seg_off _ a 12 24 7 (by decide)).trans ((seg_off _ d 18 24 7 (by decide)).trans rfl))
  have h1 : seg (encode (.hmulsu d a b)) 0 6 = 19#6 := (seg_off _ b 6 0 6 (by decide)).trans ((seg_off _ a 12 0 6 (by decide)).trans ((seg_off _ d 18 0 6 (by decide)).trans rfl))
  have h2 : seg (encode (.hmulsu d a b)) 31 1 = 0#1 := (seg_off _ b 6 31 1 (by decide)).trans ((seg_off _ a 12 31 1 (by decide)).trans ((seg_off _ d 18 31 1 (by decide)).trans rfl))
  have h3 : seg (encode (.hmulsu d a b)) 18 6 = d := (seg_off _ b 6 18 6 (by decide)).trans ((seg_off _ a 12 18 6 (by decide)).trans (seg_hit _ d 18 rfl (by decide)))
  have h4 : seg (encode (.hmulsu d a b)) 12 6 = a := (seg_off _ b 6 12 6 (by decide)).trans (seg_hit _ a 12 ((seg_off _ d 18 12 6 (by decide)).trans rfl) (by decide))
  have h5 : seg (encode (.hmulsu d a b)) 6 6 = b := seg_hit _ b 6 ((seg_off _ a 12 6 6 (by decide)).trans ((seg_off _ d 18 6 6 (by decide)).trans rfl)) (by decide)
  exact decode_of (form01 m (by simp [decode01, h1, h2, h3, h4, h5]))
theorem RoundTrip.div (d : BitVec 6) (a : BitVec 6) (b : BitVec 6) : RoundTrip.Statement (.div d a b) := by
  have m : seg (encode (.div d a b)) 24 7 = 1#7 := (seg_off _ b 6 24 7 (by decide)).trans ((seg_off _ a 12 24 7 (by decide)).trans ((seg_off _ d 18 24 7 (by decide)).trans rfl))
  have h1 : seg (encode (.div d a b)) 0 6 = 20#6 := (seg_off _ b 6 0 6 (by decide)).trans ((seg_off _ a 12 0 6 (by decide)).trans ((seg_off _ d 18 0 6 (by decide)).trans rfl))
  have h2 : seg (encode (.div d a b)) 31 1 = 0#1 := (seg_off _ b 6 31 1 (by decide)).trans ((seg_off _ a 12 31 1 (by decide)).trans ((seg_off _ d 18 31 1 (by decide)).trans rfl))
  have h3 : seg (encode (.div d a b)) 18 6 = d := (seg_off _ b 6 18 6 (by decide)).trans ((seg_off _ a 12 18 6 (by decide)).trans (seg_hit _ d 18 rfl (by decide)))
  have h4 : seg (encode (.div d a b)) 12 6 = a := (seg_off _ b 6 12 6 (by decide)).trans (seg_hit _ a 12 ((seg_off _ d 18 12 6 (by decide)).trans rfl) (by decide))
  have h5 : seg (encode (.div d a b)) 6 6 = b := seg_hit _ b 6 ((seg_off _ a 12 6 6 (by decide)).trans ((seg_off _ d 18 6 6 (by decide)).trans rfl)) (by decide)
  exact decode_of (form01 m (by simp [decode01, h1, h2, h3, h4, h5]))
theorem RoundTrip.divu (d : BitVec 6) (a : BitVec 6) (b : BitVec 6) : RoundTrip.Statement (.divu d a b) := by
  have m : seg (encode (.divu d a b)) 24 7 = 1#7 := (seg_off _ b 6 24 7 (by decide)).trans ((seg_off _ a 12 24 7 (by decide)).trans ((seg_off _ d 18 24 7 (by decide)).trans rfl))
  have h1 : seg (encode (.divu d a b)) 0 6 = 21#6 := (seg_off _ b 6 0 6 (by decide)).trans ((seg_off _ a 12 0 6 (by decide)).trans ((seg_off _ d 18 0 6 (by decide)).trans rfl))
  have h2 : seg (encode (.divu d a b)) 31 1 = 0#1 := (seg_off _ b 6 31 1 (by decide)).trans ((seg_off _ a 12 31 1 (by decide)).trans ((seg_off _ d 18 31 1 (by decide)).trans rfl))
  have h3 : seg (encode (.divu d a b)) 18 6 = d := (seg_off _ b 6 18 6 (by decide)).trans ((seg_off _ a 12 18 6 (by decide)).trans (seg_hit _ d 18 rfl (by decide)))
  have h4 : seg (encode (.divu d a b)) 12 6 = a := (seg_off _ b 6 12 6 (by decide)).trans (seg_hit _ a 12 ((seg_off _ d 18 12 6 (by decide)).trans rfl) (by decide))
  have h5 : seg (encode (.divu d a b)) 6 6 = b := seg_hit _ b 6 ((seg_off _ a 12 6 6 (by decide)).trans ((seg_off _ d 18 6 6 (by decide)).trans rfl)) (by decide)
  exact decode_of (form01 m (by simp [decode01, h1, h2, h3, h4, h5]))
theorem RoundTrip.rem (d : BitVec 6) (a : BitVec 6) (b : BitVec 6) : RoundTrip.Statement (.rem d a b) := by
  have m : seg (encode (.rem d a b)) 24 7 = 1#7 := (seg_off _ b 6 24 7 (by decide)).trans ((seg_off _ a 12 24 7 (by decide)).trans ((seg_off _ d 18 24 7 (by decide)).trans rfl))
  have h1 : seg (encode (.rem d a b)) 0 6 = 22#6 := (seg_off _ b 6 0 6 (by decide)).trans ((seg_off _ a 12 0 6 (by decide)).trans ((seg_off _ d 18 0 6 (by decide)).trans rfl))
  have h2 : seg (encode (.rem d a b)) 31 1 = 0#1 := (seg_off _ b 6 31 1 (by decide)).trans ((seg_off _ a 12 31 1 (by decide)).trans ((seg_off _ d 18 31 1 (by decide)).trans rfl))
  have h3 : seg (encode (.rem d a b)) 18 6 = d := (seg_off _ b 6 18 6 (by decide)).trans ((seg_off _ a 12 18 6 (by decide)).trans (seg_hit _ d 18 rfl (by decide)))
  have h4 : seg (encode (.rem d a b)) 12 6 = a := (seg_off _ b 6 12 6 (by decide)).trans (seg_hit _ a 12 ((seg_off _ d 18 12 6 (by decide)).trans rfl) (by decide))
  have h5 : seg (encode (.rem d a b)) 6 6 = b := seg_hit _ b 6 ((seg_off _ a 12 6 6 (by decide)).trans ((seg_off _ d 18 6 6 (by decide)).trans rfl)) (by decide)
  exact decode_of (form01 m (by simp [decode01, h1, h2, h3, h4, h5]))
theorem RoundTrip.remu (d : BitVec 6) (a : BitVec 6) (b : BitVec 6) : RoundTrip.Statement (.remu d a b) := by
  have m : seg (encode (.remu d a b)) 24 7 = 1#7 := (seg_off _ b 6 24 7 (by decide)).trans ((seg_off _ a 12 24 7 (by decide)).trans ((seg_off _ d 18 24 7 (by decide)).trans rfl))
  have h1 : seg (encode (.remu d a b)) 0 6 = 23#6 := (seg_off _ b 6 0 6 (by decide)).trans ((seg_off _ a 12 0 6 (by decide)).trans ((seg_off _ d 18 0 6 (by decide)).trans rfl))
  have h2 : seg (encode (.remu d a b)) 31 1 = 0#1 := (seg_off _ b 6 31 1 (by decide)).trans ((seg_off _ a 12 31 1 (by decide)).trans ((seg_off _ d 18 31 1 (by decide)).trans rfl))
  have h3 : seg (encode (.remu d a b)) 18 6 = d := (seg_off _ b 6 18 6 (by decide)).trans ((seg_off _ a 12 18 6 (by decide)).trans (seg_hit _ d 18 rfl (by decide)))
  have h4 : seg (encode (.remu d a b)) 12 6 = a := (seg_off _ b 6 12 6 (by decide)).trans (seg_hit _ a 12 ((seg_off _ d 18 12 6 (by decide)).trans rfl) (by decide))
  have h5 : seg (encode (.remu d a b)) 6 6 = b := seg_hit _ b 6 ((seg_off _ a 12 6 6 (by decide)).trans ((seg_off _ d 18 6 6 (by decide)).trans rfl)) (by decide)
  exact decode_of (form01 m (by simp [decode01, h1, h2, h3, h4, h5]))
theorem RoundTrip.clz (d : BitVec 6) (a : BitVec 6) : RoundTrip.Statement (.clz d a) := by
  have m : seg (encode (.clz d a)) 24 7 = 1#7 := (seg_off _ a 12 24 7 (by decide)).trans ((seg_off _ d 18 24 7 (by decide)).trans rfl)
  have h1 : seg (encode (.clz d a)) 0 6 = 24#6 := (seg_off _ a 12 0 6 (by decide)).trans ((seg_off _ d 18 0 6 (by decide)).trans rfl)
  have h2 : seg (encode (.clz d a)) 6 6 = 0#6 := (seg_off _ a 12 6 6 (by decide)).trans ((seg_off _ d 18 6 6 (by decide)).trans rfl)
  have h3 : seg (encode (.clz d a)) 31 1 = 0#1 := (seg_off _ a 12 31 1 (by decide)).trans ((seg_off _ d 18 31 1 (by decide)).trans rfl)
  have h4 : seg (encode (.clz d a)) 18 6 = d := (seg_off _ a 12 18 6 (by decide)).trans (seg_hit _ d 18 rfl (by decide))
  have h5 : seg (encode (.clz d a)) 12 6 = a := seg_hit _ a 12 ((seg_off _ d 18 12 6 (by decide)).trans rfl) (by decide)
  exact decode_of (form01 m (by simp [decode01, h1, h2, h3, h4, h5]))
theorem RoundTrip.ctz (d : BitVec 6) (a : BitVec 6) : RoundTrip.Statement (.ctz d a) := by
  have m : seg (encode (.ctz d a)) 24 7 = 1#7 := (seg_off _ a 12 24 7 (by decide)).trans ((seg_off _ d 18 24 7 (by decide)).trans rfl)
  have h1 : seg (encode (.ctz d a)) 0 6 = 25#6 := (seg_off _ a 12 0 6 (by decide)).trans ((seg_off _ d 18 0 6 (by decide)).trans rfl)
  have h2 : seg (encode (.ctz d a)) 6 6 = 0#6 := (seg_off _ a 12 6 6 (by decide)).trans ((seg_off _ d 18 6 6 (by decide)).trans rfl)
  have h3 : seg (encode (.ctz d a)) 31 1 = 0#1 := (seg_off _ a 12 31 1 (by decide)).trans ((seg_off _ d 18 31 1 (by decide)).trans rfl)
  have h4 : seg (encode (.ctz d a)) 18 6 = d := (seg_off _ a 12 18 6 (by decide)).trans (seg_hit _ d 18 rfl (by decide))
  have h5 : seg (encode (.ctz d a)) 12 6 = a := seg_hit _ a 12 ((seg_off _ d 18 12 6 (by decide)).trans rfl) (by decide)
  exact decode_of (form01 m (by simp [decode01, h1, h2, h3, h4, h5]))
theorem RoundTrip.popc (d : BitVec 6) (a : BitVec 6) : RoundTrip.Statement (.popc d a) := by
  have m : seg (encode (.popc d a)) 24 7 = 1#7 := (seg_off _ a 12 24 7 (by decide)).trans ((seg_off _ d 18 24 7 (by decide)).trans rfl)
  have h1 : seg (encode (.popc d a)) 0 6 = 26#6 := (seg_off _ a 12 0 6 (by decide)).trans ((seg_off _ d 18 0 6 (by decide)).trans rfl)
  have h2 : seg (encode (.popc d a)) 6 6 = 0#6 := (seg_off _ a 12 6 6 (by decide)).trans ((seg_off _ d 18 6 6 (by decide)).trans rfl)
  have h3 : seg (encode (.popc d a)) 31 1 = 0#1 := (seg_off _ a 12 31 1 (by decide)).trans ((seg_off _ d 18 31 1 (by decide)).trans rfl)
  have h4 : seg (encode (.popc d a)) 18 6 = d := (seg_off _ a 12 18 6 (by decide)).trans (seg_hit _ d 18 rfl (by decide))
  have h5 : seg (encode (.popc d a)) 12 6 = a := seg_hit _ a 12 ((seg_off _ d 18 12 6 (by decide)).trans rfl) (by decide)
  exact decode_of (form01 m (by simp [decode01, h1, h2, h3, h4, h5]))
theorem RoundTrip.bswap (d : BitVec 6) (a : BitVec 6) : RoundTrip.Statement (.bswap d a) := by
  have m : seg (encode (.bswap d a)) 24 7 = 1#7 := (seg_off _ a 12 24 7 (by decide)).trans ((seg_off _ d 18 24 7 (by decide)).trans rfl)
  have h1 : seg (encode (.bswap d a)) 0 6 = 27#6 := (seg_off _ a 12 0 6 (by decide)).trans ((seg_off _ d 18 0 6 (by decide)).trans rfl)
  have h2 : seg (encode (.bswap d a)) 6 6 = 0#6 := (seg_off _ a 12 6 6 (by decide)).trans ((seg_off _ d 18 6 6 (by decide)).trans rfl)
  have h3 : seg (encode (.bswap d a)) 31 1 = 0#1 := (seg_off _ a 12 31 1 (by decide)).trans ((seg_off _ d 18 31 1 (by decide)).trans rfl)
  have h4 : seg (encode (.bswap d a)) 18 6 = d := (seg_off _ a 12 18 6 (by decide)).trans (seg_hit _ d 18 rfl (by decide))
  have h5 : seg (encode (.bswap d a)) 12 6 = a := seg_hit _ a 12 ((seg_off _ d 18 12 6 (by decide)).trans rfl) (by decide)
  exact decode_of (form01 m (by simp [decode01, h1, h2, h3, h4, h5]))
theorem RoundTrip.addw (d : BitVec 6) (a : BitVec 6) (b : BitVec 6) : RoundTrip.Statement (.addw d a b) := by
  have m : seg (encode (.addw d a b)) 24 7 = 2#7 := (seg_off _ b 6 24 7 (by decide)).trans ((seg_off _ a 12 24 7 (by decide)).trans ((seg_off _ d 18 24 7 (by decide)).trans rfl))
  have h1 : seg (encode (.addw d a b)) 0 6 = 0#6 := (seg_off _ b 6 0 6 (by decide)).trans ((seg_off _ a 12 0 6 (by decide)).trans ((seg_off _ d 18 0 6 (by decide)).trans rfl))
  have h2 : seg (encode (.addw d a b)) 31 1 = 0#1 := (seg_off _ b 6 31 1 (by decide)).trans ((seg_off _ a 12 31 1 (by decide)).trans ((seg_off _ d 18 31 1 (by decide)).trans rfl))
  have h3 : seg (encode (.addw d a b)) 18 6 = d := (seg_off _ b 6 18 6 (by decide)).trans ((seg_off _ a 12 18 6 (by decide)).trans (seg_hit _ d 18 rfl (by decide)))
  have h4 : seg (encode (.addw d a b)) 12 6 = a := (seg_off _ b 6 12 6 (by decide)).trans (seg_hit _ a 12 ((seg_off _ d 18 12 6 (by decide)).trans rfl) (by decide))
  have h5 : seg (encode (.addw d a b)) 6 6 = b := seg_hit _ b 6 ((seg_off _ a 12 6 6 (by decide)).trans ((seg_off _ d 18 6 6 (by decide)).trans rfl)) (by decide)
  exact decode_of (form02 m (by simp [decode02, h1, h2, h3, h4, h5]))
theorem RoundTrip.subw (d : BitVec 6) (a : BitVec 6) (b : BitVec 6) : RoundTrip.Statement (.subw d a b) := by
  have m : seg (encode (.subw d a b)) 24 7 = 2#7 := (seg_off _ b 6 24 7 (by decide)).trans ((seg_off _ a 12 24 7 (by decide)).trans ((seg_off _ d 18 24 7 (by decide)).trans rfl))
  have h1 : seg (encode (.subw d a b)) 0 6 = 1#6 := (seg_off _ b 6 0 6 (by decide)).trans ((seg_off _ a 12 0 6 (by decide)).trans ((seg_off _ d 18 0 6 (by decide)).trans rfl))
  have h2 : seg (encode (.subw d a b)) 31 1 = 0#1 := (seg_off _ b 6 31 1 (by decide)).trans ((seg_off _ a 12 31 1 (by decide)).trans ((seg_off _ d 18 31 1 (by decide)).trans rfl))
  have h3 : seg (encode (.subw d a b)) 18 6 = d := (seg_off _ b 6 18 6 (by decide)).trans ((seg_off _ a 12 18 6 (by decide)).trans (seg_hit _ d 18 rfl (by decide)))
  have h4 : seg (encode (.subw d a b)) 12 6 = a := (seg_off _ b 6 12 6 (by decide)).trans (seg_hit _ a 12 ((seg_off _ d 18 12 6 (by decide)).trans rfl) (by decide))
  have h5 : seg (encode (.subw d a b)) 6 6 = b := seg_hit _ b 6 ((seg_off _ a 12 6 6 (by decide)).trans ((seg_off _ d 18 6 6 (by decide)).trans rfl)) (by decide)
  exact decode_of (form02 m (by simp [decode02, h1, h2, h3, h4, h5]))
theorem RoundTrip.sllw (d : BitVec 6) (a : BitVec 6) (b : BitVec 6) : RoundTrip.Statement (.sllw d a b) := by
  have m : seg (encode (.sllw d a b)) 24 7 = 2#7 := (seg_off _ b 6 24 7 (by decide)).trans ((seg_off _ a 12 24 7 (by decide)).trans ((seg_off _ d 18 24 7 (by decide)).trans rfl))
  have h1 : seg (encode (.sllw d a b)) 0 6 = 5#6 := (seg_off _ b 6 0 6 (by decide)).trans ((seg_off _ a 12 0 6 (by decide)).trans ((seg_off _ d 18 0 6 (by decide)).trans rfl))
  have h2 : seg (encode (.sllw d a b)) 31 1 = 0#1 := (seg_off _ b 6 31 1 (by decide)).trans ((seg_off _ a 12 31 1 (by decide)).trans ((seg_off _ d 18 31 1 (by decide)).trans rfl))
  have h3 : seg (encode (.sllw d a b)) 18 6 = d := (seg_off _ b 6 18 6 (by decide)).trans ((seg_off _ a 12 18 6 (by decide)).trans (seg_hit _ d 18 rfl (by decide)))
  have h4 : seg (encode (.sllw d a b)) 12 6 = a := (seg_off _ b 6 12 6 (by decide)).trans (seg_hit _ a 12 ((seg_off _ d 18 12 6 (by decide)).trans rfl) (by decide))
  have h5 : seg (encode (.sllw d a b)) 6 6 = b := seg_hit _ b 6 ((seg_off _ a 12 6 6 (by decide)).trans ((seg_off _ d 18 6 6 (by decide)).trans rfl)) (by decide)
  exact decode_of (form02 m (by simp [decode02, h1, h2, h3, h4, h5]))
theorem RoundTrip.srlw (d : BitVec 6) (a : BitVec 6) (b : BitVec 6) : RoundTrip.Statement (.srlw d a b) := by
  have m : seg (encode (.srlw d a b)) 24 7 = 2#7 := (seg_off _ b 6 24 7 (by decide)).trans ((seg_off _ a 12 24 7 (by decide)).trans ((seg_off _ d 18 24 7 (by decide)).trans rfl))
  have h1 : seg (encode (.srlw d a b)) 0 6 = 6#6 := (seg_off _ b 6 0 6 (by decide)).trans ((seg_off _ a 12 0 6 (by decide)).trans ((seg_off _ d 18 0 6 (by decide)).trans rfl))
  have h2 : seg (encode (.srlw d a b)) 31 1 = 0#1 := (seg_off _ b 6 31 1 (by decide)).trans ((seg_off _ a 12 31 1 (by decide)).trans ((seg_off _ d 18 31 1 (by decide)).trans rfl))
  have h3 : seg (encode (.srlw d a b)) 18 6 = d := (seg_off _ b 6 18 6 (by decide)).trans ((seg_off _ a 12 18 6 (by decide)).trans (seg_hit _ d 18 rfl (by decide)))
  have h4 : seg (encode (.srlw d a b)) 12 6 = a := (seg_off _ b 6 12 6 (by decide)).trans (seg_hit _ a 12 ((seg_off _ d 18 12 6 (by decide)).trans rfl) (by decide))
  have h5 : seg (encode (.srlw d a b)) 6 6 = b := seg_hit _ b 6 ((seg_off _ a 12 6 6 (by decide)).trans ((seg_off _ d 18 6 6 (by decide)).trans rfl)) (by decide)
  exact decode_of (form02 m (by simp [decode02, h1, h2, h3, h4, h5]))
theorem RoundTrip.sraw (d : BitVec 6) (a : BitVec 6) (b : BitVec 6) : RoundTrip.Statement (.sraw d a b) := by
  have m : seg (encode (.sraw d a b)) 24 7 = 2#7 := (seg_off _ b 6 24 7 (by decide)).trans ((seg_off _ a 12 24 7 (by decide)).trans ((seg_off _ d 18 24 7 (by decide)).trans rfl))
  have h1 : seg (encode (.sraw d a b)) 0 6 = 7#6 := (seg_off _ b 6 0 6 (by decide)).trans ((seg_off _ a 12 0 6 (by decide)).trans ((seg_off _ d 18 0 6 (by decide)).trans rfl))
  have h2 : seg (encode (.sraw d a b)) 31 1 = 0#1 := (seg_off _ b 6 31 1 (by decide)).trans ((seg_off _ a 12 31 1 (by decide)).trans ((seg_off _ d 18 31 1 (by decide)).trans rfl))
  have h3 : seg (encode (.sraw d a b)) 18 6 = d := (seg_off _ b 6 18 6 (by decide)).trans ((seg_off _ a 12 18 6 (by decide)).trans (seg_hit _ d 18 rfl (by decide)))
  have h4 : seg (encode (.sraw d a b)) 12 6 = a := (seg_off _ b 6 12 6 (by decide)).trans (seg_hit _ a 12 ((seg_off _ d 18 12 6 (by decide)).trans rfl) (by decide))
  have h5 : seg (encode (.sraw d a b)) 6 6 = b := seg_hit _ b 6 ((seg_off _ a 12 6 6 (by decide)).trans ((seg_off _ d 18 6 6 (by decide)).trans rfl)) (by decide)
  exact decode_of (form02 m (by simp [decode02, h1, h2, h3, h4, h5]))
theorem RoundTrip.mulw (d : BitVec 6) (a : BitVec 6) (b : BitVec 6) : RoundTrip.Statement (.mulw d a b) := by
  have m : seg (encode (.mulw d a b)) 24 7 = 2#7 := (seg_off _ b 6 24 7 (by decide)).trans ((seg_off _ a 12 24 7 (by decide)).trans ((seg_off _ d 18 24 7 (by decide)).trans rfl))
  have h1 : seg (encode (.mulw d a b)) 0 6 = 16#6 := (seg_off _ b 6 0 6 (by decide)).trans ((seg_off _ a 12 0 6 (by decide)).trans ((seg_off _ d 18 0 6 (by decide)).trans rfl))
  have h2 : seg (encode (.mulw d a b)) 31 1 = 0#1 := (seg_off _ b 6 31 1 (by decide)).trans ((seg_off _ a 12 31 1 (by decide)).trans ((seg_off _ d 18 31 1 (by decide)).trans rfl))
  have h3 : seg (encode (.mulw d a b)) 18 6 = d := (seg_off _ b 6 18 6 (by decide)).trans ((seg_off _ a 12 18 6 (by decide)).trans (seg_hit _ d 18 rfl (by decide)))
  have h4 : seg (encode (.mulw d a b)) 12 6 = a := (seg_off _ b 6 12 6 (by decide)).trans (seg_hit _ a 12 ((seg_off _ d 18 12 6 (by decide)).trans rfl) (by decide))
  have h5 : seg (encode (.mulw d a b)) 6 6 = b := seg_hit _ b 6 ((seg_off _ a 12 6 6 (by decide)).trans ((seg_off _ d 18 6 6 (by decide)).trans rfl)) (by decide)
  exact decode_of (form02 m (by simp [decode02, h1, h2, h3, h4, h5]))
theorem RoundTrip.divw (d : BitVec 6) (a : BitVec 6) (b : BitVec 6) : RoundTrip.Statement (.divw d a b) := by
  have m : seg (encode (.divw d a b)) 24 7 = 2#7 := (seg_off _ b 6 24 7 (by decide)).trans ((seg_off _ a 12 24 7 (by decide)).trans ((seg_off _ d 18 24 7 (by decide)).trans rfl))
  have h1 : seg (encode (.divw d a b)) 0 6 = 20#6 := (seg_off _ b 6 0 6 (by decide)).trans ((seg_off _ a 12 0 6 (by decide)).trans ((seg_off _ d 18 0 6 (by decide)).trans rfl))
  have h2 : seg (encode (.divw d a b)) 31 1 = 0#1 := (seg_off _ b 6 31 1 (by decide)).trans ((seg_off _ a 12 31 1 (by decide)).trans ((seg_off _ d 18 31 1 (by decide)).trans rfl))
  have h3 : seg (encode (.divw d a b)) 18 6 = d := (seg_off _ b 6 18 6 (by decide)).trans ((seg_off _ a 12 18 6 (by decide)).trans (seg_hit _ d 18 rfl (by decide)))
  have h4 : seg (encode (.divw d a b)) 12 6 = a := (seg_off _ b 6 12 6 (by decide)).trans (seg_hit _ a 12 ((seg_off _ d 18 12 6 (by decide)).trans rfl) (by decide))
  have h5 : seg (encode (.divw d a b)) 6 6 = b := seg_hit _ b 6 ((seg_off _ a 12 6 6 (by decide)).trans ((seg_off _ d 18 6 6 (by decide)).trans rfl)) (by decide)
  exact decode_of (form02 m (by simp [decode02, h1, h2, h3, h4, h5]))
theorem RoundTrip.divuw (d : BitVec 6) (a : BitVec 6) (b : BitVec 6) : RoundTrip.Statement (.divuw d a b) := by
  have m : seg (encode (.divuw d a b)) 24 7 = 2#7 := (seg_off _ b 6 24 7 (by decide)).trans ((seg_off _ a 12 24 7 (by decide)).trans ((seg_off _ d 18 24 7 (by decide)).trans rfl))
  have h1 : seg (encode (.divuw d a b)) 0 6 = 21#6 := (seg_off _ b 6 0 6 (by decide)).trans ((seg_off _ a 12 0 6 (by decide)).trans ((seg_off _ d 18 0 6 (by decide)).trans rfl))
  have h2 : seg (encode (.divuw d a b)) 31 1 = 0#1 := (seg_off _ b 6 31 1 (by decide)).trans ((seg_off _ a 12 31 1 (by decide)).trans ((seg_off _ d 18 31 1 (by decide)).trans rfl))
  have h3 : seg (encode (.divuw d a b)) 18 6 = d := (seg_off _ b 6 18 6 (by decide)).trans ((seg_off _ a 12 18 6 (by decide)).trans (seg_hit _ d 18 rfl (by decide)))
  have h4 : seg (encode (.divuw d a b)) 12 6 = a := (seg_off _ b 6 12 6 (by decide)).trans (seg_hit _ a 12 ((seg_off _ d 18 12 6 (by decide)).trans rfl) (by decide))
  have h5 : seg (encode (.divuw d a b)) 6 6 = b := seg_hit _ b 6 ((seg_off _ a 12 6 6 (by decide)).trans ((seg_off _ d 18 6 6 (by decide)).trans rfl)) (by decide)
  exact decode_of (form02 m (by simp [decode02, h1, h2, h3, h4, h5]))
theorem RoundTrip.remw (d : BitVec 6) (a : BitVec 6) (b : BitVec 6) : RoundTrip.Statement (.remw d a b) := by
  have m : seg (encode (.remw d a b)) 24 7 = 2#7 := (seg_off _ b 6 24 7 (by decide)).trans ((seg_off _ a 12 24 7 (by decide)).trans ((seg_off _ d 18 24 7 (by decide)).trans rfl))
  have h1 : seg (encode (.remw d a b)) 0 6 = 22#6 := (seg_off _ b 6 0 6 (by decide)).trans ((seg_off _ a 12 0 6 (by decide)).trans ((seg_off _ d 18 0 6 (by decide)).trans rfl))
  have h2 : seg (encode (.remw d a b)) 31 1 = 0#1 := (seg_off _ b 6 31 1 (by decide)).trans ((seg_off _ a 12 31 1 (by decide)).trans ((seg_off _ d 18 31 1 (by decide)).trans rfl))
  have h3 : seg (encode (.remw d a b)) 18 6 = d := (seg_off _ b 6 18 6 (by decide)).trans ((seg_off _ a 12 18 6 (by decide)).trans (seg_hit _ d 18 rfl (by decide)))
  have h4 : seg (encode (.remw d a b)) 12 6 = a := (seg_off _ b 6 12 6 (by decide)).trans (seg_hit _ a 12 ((seg_off _ d 18 12 6 (by decide)).trans rfl) (by decide))
  have h5 : seg (encode (.remw d a b)) 6 6 = b := seg_hit _ b 6 ((seg_off _ a 12 6 6 (by decide)).trans ((seg_off _ d 18 6 6 (by decide)).trans rfl)) (by decide)
  exact decode_of (form02 m (by simp [decode02, h1, h2, h3, h4, h5]))
theorem RoundTrip.remuw (d : BitVec 6) (a : BitVec 6) (b : BitVec 6) : RoundTrip.Statement (.remuw d a b) := by
  have m : seg (encode (.remuw d a b)) 24 7 = 2#7 := (seg_off _ b 6 24 7 (by decide)).trans ((seg_off _ a 12 24 7 (by decide)).trans ((seg_off _ d 18 24 7 (by decide)).trans rfl))
  have h1 : seg (encode (.remuw d a b)) 0 6 = 23#6 := (seg_off _ b 6 0 6 (by decide)).trans ((seg_off _ a 12 0 6 (by decide)).trans ((seg_off _ d 18 0 6 (by decide)).trans rfl))
  have h2 : seg (encode (.remuw d a b)) 31 1 = 0#1 := (seg_off _ b 6 31 1 (by decide)).trans ((seg_off _ a 12 31 1 (by decide)).trans ((seg_off _ d 18 31 1 (by decide)).trans rfl))
  have h3 : seg (encode (.remuw d a b)) 18 6 = d := (seg_off _ b 6 18 6 (by decide)).trans ((seg_off _ a 12 18 6 (by decide)).trans (seg_hit _ d 18 rfl (by decide)))
  have h4 : seg (encode (.remuw d a b)) 12 6 = a := (seg_off _ b 6 12 6 (by decide)).trans (seg_hit _ a 12 ((seg_off _ d 18 12 6 (by decide)).trans rfl) (by decide))
  have h5 : seg (encode (.remuw d a b)) 6 6 = b := seg_hit _ b 6 ((seg_off _ a 12 6 6 (by decide)).trans ((seg_off _ d 18 6 6 (by decide)).trans rfl)) (by decide)
  exact decode_of (form02 m (by simp [decode02, h1, h2, h3, h4, h5]))
theorem RoundTrip.addi (d : BitVec 6) (a : BitVec 6) (im : BitVec 12) : RoundTrip.Statement (.addi d a im) := by
  have m : seg (encode (.addi d a im)) 24 7 = 3#7 := (seg_off _ im 0 24 7 (by decide)).trans ((seg_off _ a 12 24 7 (by decide)).trans ((seg_off _ d 18 24 7 (by decide)).trans rfl))
  have h1 : seg (encode (.addi d a im)) 31 1 = 0#1 := (seg_off _ im 0 31 1 (by decide)).trans ((seg_off _ a 12 31 1 (by decide)).trans ((seg_off _ d 18 31 1 (by decide)).trans rfl))
  have h2 : seg (encode (.addi d a im)) 18 6 = d := (seg_off _ im 0 18 6 (by decide)).trans ((seg_off _ a 12 18 6 (by decide)).trans (seg_hit _ d 18 rfl (by decide)))
  have h3 : seg (encode (.addi d a im)) 12 6 = a := (seg_off _ im 0 12 6 (by decide)).trans (seg_hit _ a 12 ((seg_off _ d 18 12 6 (by decide)).trans rfl) (by decide))
  have h4 : seg (encode (.addi d a im)) 0 12 = im := seg_hit _ im 0 ((seg_off _ a 12 0 12 (by decide)).trans ((seg_off _ d 18 0 12 (by decide)).trans rfl)) (by decide)
  exact decode_of (form03 m (by simp [decode03, h1, h2, h3, h4]))
theorem RoundTrip.addiw (d : BitVec 6) (a : BitVec 6) (im : BitVec 12) : RoundTrip.Statement (.addiw d a im) := by
  have m : seg (encode (.addiw d a im)) 24 7 = 4#7 := (seg_off _ im 0 24 7 (by decide)).trans ((seg_off _ a 12 24 7 (by decide)).trans ((seg_off _ d 18 24 7 (by decide)).trans rfl))
  have h1 : seg (encode (.addiw d a im)) 31 1 = 0#1 := (seg_off _ im 0 31 1 (by decide)).trans ((seg_off _ a 12 31 1 (by decide)).trans ((seg_off _ d 18 31 1 (by decide)).trans rfl))
  have h2 : seg (encode (.addiw d a im)) 18 6 = d := (seg_off _ im 0 18 6 (by decide)).trans ((seg_off _ a 12 18 6 (by decide)).trans (seg_hit _ d 18 rfl (by decide)))
  have h3 : seg (encode (.addiw d a im)) 12 6 = a := (seg_off _ im 0 12 6 (by decide)).trans (seg_hit _ a 12 ((seg_off _ d 18 12 6 (by decide)).trans rfl) (by decide))
  have h4 : seg (encode (.addiw d a im)) 0 12 = im := seg_hit _ im 0 ((seg_off _ a 12 0 12 (by decide)).trans ((seg_off _ d 18 0 12 (by decide)).trans rfl)) (by decide)
  exact decode_of (form04 m (by simp [decode04, h1, h2, h3, h4]))
theorem RoundTrip.andi (d : BitVec 6) (a : BitVec 6) (im : BitVec 12) : RoundTrip.Statement (.andi d a im) := by
  have m : seg (encode (.andi d a im)) 24 7 = 5#7 := (seg_off _ im 0 24 7 (by decide)).trans ((seg_off _ a 12 24 7 (by decide)).trans ((seg_off _ d 18 24 7 (by decide)).trans rfl))
  have h1 : seg (encode (.andi d a im)) 31 1 = 0#1 := (seg_off _ im 0 31 1 (by decide)).trans ((seg_off _ a 12 31 1 (by decide)).trans ((seg_off _ d 18 31 1 (by decide)).trans rfl))
  have h2 : seg (encode (.andi d a im)) 18 6 = d := (seg_off _ im 0 18 6 (by decide)).trans ((seg_off _ a 12 18 6 (by decide)).trans (seg_hit _ d 18 rfl (by decide)))
  have h3 : seg (encode (.andi d a im)) 12 6 = a := (seg_off _ im 0 12 6 (by decide)).trans (seg_hit _ a 12 ((seg_off _ d 18 12 6 (by decide)).trans rfl) (by decide))
  have h4 : seg (encode (.andi d a im)) 0 12 = im := seg_hit _ im 0 ((seg_off _ a 12 0 12 (by decide)).trans ((seg_off _ d 18 0 12 (by decide)).trans rfl)) (by decide)
  exact decode_of (form05 m (by simp [decode05, h1, h2, h3, h4]))
theorem RoundTrip.ori (d : BitVec 6) (a : BitVec 6) (im : BitVec 12) : RoundTrip.Statement (.ori d a im) := by
  have m : seg (encode (.ori d a im)) 24 7 = 6#7 := (seg_off _ im 0 24 7 (by decide)).trans ((seg_off _ a 12 24 7 (by decide)).trans ((seg_off _ d 18 24 7 (by decide)).trans rfl))
  have h1 : seg (encode (.ori d a im)) 31 1 = 0#1 := (seg_off _ im 0 31 1 (by decide)).trans ((seg_off _ a 12 31 1 (by decide)).trans ((seg_off _ d 18 31 1 (by decide)).trans rfl))
  have h2 : seg (encode (.ori d a im)) 18 6 = d := (seg_off _ im 0 18 6 (by decide)).trans ((seg_off _ a 12 18 6 (by decide)).trans (seg_hit _ d 18 rfl (by decide)))
  have h3 : seg (encode (.ori d a im)) 12 6 = a := (seg_off _ im 0 12 6 (by decide)).trans (seg_hit _ a 12 ((seg_off _ d 18 12 6 (by decide)).trans rfl) (by decide))
  have h4 : seg (encode (.ori d a im)) 0 12 = im := seg_hit _ im 0 ((seg_off _ a 12 0 12 (by decide)).trans ((seg_off _ d 18 0 12 (by decide)).trans rfl)) (by decide)
  exact decode_of (form06 m (by simp [decode06, h1, h2, h3, h4]))
theorem RoundTrip.xori (d : BitVec 6) (a : BitVec 6) (im : BitVec 12) : RoundTrip.Statement (.xori d a im) := by
  have m : seg (encode (.xori d a im)) 24 7 = 7#7 := (seg_off _ im 0 24 7 (by decide)).trans ((seg_off _ a 12 24 7 (by decide)).trans ((seg_off _ d 18 24 7 (by decide)).trans rfl))
  have h1 : seg (encode (.xori d a im)) 31 1 = 0#1 := (seg_off _ im 0 31 1 (by decide)).trans ((seg_off _ a 12 31 1 (by decide)).trans ((seg_off _ d 18 31 1 (by decide)).trans rfl))
  have h2 : seg (encode (.xori d a im)) 18 6 = d := (seg_off _ im 0 18 6 (by decide)).trans ((seg_off _ a 12 18 6 (by decide)).trans (seg_hit _ d 18 rfl (by decide)))
  have h3 : seg (encode (.xori d a im)) 12 6 = a := (seg_off _ im 0 12 6 (by decide)).trans (seg_hit _ a 12 ((seg_off _ d 18 12 6 (by decide)).trans rfl) (by decide))
  have h4 : seg (encode (.xori d a im)) 0 12 = im := seg_hit _ im 0 ((seg_off _ a 12 0 12 (by decide)).trans ((seg_off _ d 18 0 12 (by decide)).trans rfl)) (by decide)
  exact decode_of (form07 m (by simp [decode07, h1, h2, h3, h4]))
theorem RoundTrip.slti (d : BitVec 6) (a : BitVec 6) (im : BitVec 12) : RoundTrip.Statement (.slti d a im) := by
  have m : seg (encode (.slti d a im)) 24 7 = 9#7 := (seg_off _ im 0 24 7 (by decide)).trans ((seg_off _ a 12 24 7 (by decide)).trans ((seg_off _ d 18 24 7 (by decide)).trans rfl))
  have h1 : seg (encode (.slti d a im)) 31 1 = 0#1 := (seg_off _ im 0 31 1 (by decide)).trans ((seg_off _ a 12 31 1 (by decide)).trans ((seg_off _ d 18 31 1 (by decide)).trans rfl))
  have h2 : seg (encode (.slti d a im)) 18 6 = d := (seg_off _ im 0 18 6 (by decide)).trans ((seg_off _ a 12 18 6 (by decide)).trans (seg_hit _ d 18 rfl (by decide)))
  have h3 : seg (encode (.slti d a im)) 12 6 = a := (seg_off _ im 0 12 6 (by decide)).trans (seg_hit _ a 12 ((seg_off _ d 18 12 6 (by decide)).trans rfl) (by decide))
  have h4 : seg (encode (.slti d a im)) 0 12 = im := seg_hit _ im 0 ((seg_off _ a 12 0 12 (by decide)).trans ((seg_off _ d 18 0 12 (by decide)).trans rfl)) (by decide)
  exact decode_of (form09 m (by simp [decode09, h1, h2, h3, h4]))
theorem RoundTrip.sltiu (d : BitVec 6) (a : BitVec 6) (im : BitVec 12) : RoundTrip.Statement (.sltiu d a im) := by
  have m : seg (encode (.sltiu d a im)) 24 7 = 10#7 := (seg_off _ im 0 24 7 (by decide)).trans ((seg_off _ a 12 24 7 (by decide)).trans ((seg_off _ d 18 24 7 (by decide)).trans rfl))
  have h1 : seg (encode (.sltiu d a im)) 31 1 = 0#1 := (seg_off _ im 0 31 1 (by decide)).trans ((seg_off _ a 12 31 1 (by decide)).trans ((seg_off _ d 18 31 1 (by decide)).trans rfl))
  have h2 : seg (encode (.sltiu d a im)) 18 6 = d := (seg_off _ im 0 18 6 (by decide)).trans ((seg_off _ a 12 18 6 (by decide)).trans (seg_hit _ d 18 rfl (by decide)))
  have h3 : seg (encode (.sltiu d a im)) 12 6 = a := (seg_off _ im 0 12 6 (by decide)).trans (seg_hit _ a 12 ((seg_off _ d 18 12 6 (by decide)).trans rfl) (by decide))
  have h4 : seg (encode (.sltiu d a im)) 0 12 = im := seg_hit _ im 0 ((seg_off _ a 12 0 12 (by decide)).trans ((seg_off _ d 18 0 12 (by decide)).trans rfl)) (by decide)
  exact decode_of (form0A m (by simp [decode0A, h1, h2, h3, h4]))
theorem RoundTrip.slli (d : BitVec 6) (a : BitVec 6) (sf : BitVec 6) : RoundTrip.Statement (.slli d a sf) := by
  have m : seg (encode (.slli d a sf)) 24 7 = 8#7 := (seg_off _ sf 0 24 7 (by decide)).trans ((seg_off _ a 12 24 7 (by decide)).trans ((seg_off _ d 18 24 7 (by decide)).trans rfl))
  have h1 : seg (encode (.slli d a sf)) 6 6 = 0#6 := (seg_off _ sf 0 6 6 (by decide)).trans ((seg_off _ a 12 6 6 (by decide)).trans ((seg_off _ d 18 6 6 (by decide)).trans rfl))
  have h2 : seg (encode (.slli d a sf)) 31 1 = 0#1 := (seg_off _ sf 0 31 1 (by decide)).trans ((seg_off _ a 12 31 1 (by decide)).trans ((seg_off _ d 18 31 1 (by decide)).trans rfl))
  have h3 : seg (encode (.slli d a sf)) 18 6 = d := (seg_off _ sf 0 18 6 (by decide)).trans ((seg_off _ a 12 18 6 (by decide)).trans (seg_hit _ d 18 rfl (by decide)))
  have h4 : seg (encode (.slli d a sf)) 12 6 = a := (seg_off _ sf 0 12 6 (by decide)).trans (seg_hit _ a 12 ((seg_off _ d 18 12 6 (by decide)).trans rfl) (by decide))
  have h5 : seg (encode (.slli d a sf)) 0 6 = sf := seg_hit _ sf 0 ((seg_off _ a 12 0 6 (by decide)).trans ((seg_off _ d 18 0 6 (by decide)).trans rfl)) (by decide)
  exact decode_of (form08 m (by simp [decode08, h1, h2, h3, h4, h5]))
theorem RoundTrip.srli (d : BitVec 6) (a : BitVec 6) (sf : BitVec 6) : RoundTrip.Statement (.srli d a sf) := by
  have m : seg (encode (.srli d a sf)) 24 7 = 8#7 := (seg_off _ sf 0 24 7 (by decide)).trans ((seg_off _ a 12 24 7 (by decide)).trans ((seg_off _ d 18 24 7 (by decide)).trans rfl))
  have h1 : seg (encode (.srli d a sf)) 6 6 = 8#6 := (seg_off _ sf 0 6 6 (by decide)).trans ((seg_off _ a 12 6 6 (by decide)).trans ((seg_off _ d 18 6 6 (by decide)).trans rfl))
  have h2 : seg (encode (.srli d a sf)) 31 1 = 0#1 := (seg_off _ sf 0 31 1 (by decide)).trans ((seg_off _ a 12 31 1 (by decide)).trans ((seg_off _ d 18 31 1 (by decide)).trans rfl))
  have h3 : seg (encode (.srli d a sf)) 18 6 = d := (seg_off _ sf 0 18 6 (by decide)).trans ((seg_off _ a 12 18 6 (by decide)).trans (seg_hit _ d 18 rfl (by decide)))
  have h4 : seg (encode (.srli d a sf)) 12 6 = a := (seg_off _ sf 0 12 6 (by decide)).trans (seg_hit _ a 12 ((seg_off _ d 18 12 6 (by decide)).trans rfl) (by decide))
  have h5 : seg (encode (.srli d a sf)) 0 6 = sf := seg_hit _ sf 0 ((seg_off _ a 12 0 6 (by decide)).trans ((seg_off _ d 18 0 6 (by decide)).trans rfl)) (by decide)
  exact decode_of (form08 m (by simp [decode08, h1, h2, h3, h4, h5]))
theorem RoundTrip.srai (d : BitVec 6) (a : BitVec 6) (sf : BitVec 6) : RoundTrip.Statement (.srai d a sf) := by
  have m : seg (encode (.srai d a sf)) 24 7 = 8#7 := (seg_off _ sf 0 24 7 (by decide)).trans ((seg_off _ a 12 24 7 (by decide)).trans ((seg_off _ d 18 24 7 (by decide)).trans rfl))
  have h1 : seg (encode (.srai d a sf)) 6 6 = 16#6 := (seg_off _ sf 0 6 6 (by decide)).trans ((seg_off _ a 12 6 6 (by decide)).trans ((seg_off _ d 18 6 6 (by decide)).trans rfl))
  have h2 : seg (encode (.srai d a sf)) 31 1 = 0#1 := (seg_off _ sf 0 31 1 (by decide)).trans ((seg_off _ a 12 31 1 (by decide)).trans ((seg_off _ d 18 31 1 (by decide)).trans rfl))
  have h3 : seg (encode (.srai d a sf)) 18 6 = d := (seg_off _ sf 0 18 6 (by decide)).trans ((seg_off _ a 12 18 6 (by decide)).trans (seg_hit _ d 18 rfl (by decide)))
  have h4 : seg (encode (.srai d a sf)) 12 6 = a := (seg_off _ sf 0 12 6 (by decide)).trans (seg_hit _ a 12 ((seg_off _ d 18 12 6 (by decide)).trans rfl) (by decide))
  have h5 : seg (encode (.srai d a sf)) 0 6 = sf := seg_hit _ sf 0 ((seg_off _ a 12 0 6 (by decide)).trans ((seg_off _ d 18 0 6 (by decide)).trans rfl)) (by decide)
  exact decode_of (form08 m (by simp [decode08, h1, h2, h3, h4, h5]))
theorem RoundTrip.slliw (d : BitVec 6) (a : BitVec 6) (sf : BitVec 5) : RoundTrip.Statement (.slliw d a sf) := by
  have m : seg (encode (.slliw d a sf)) 24 7 = 8#7 := (seg_off _ sf 0 24 7 (by decide)).trans ((seg_off _ a 12 24 7 (by decide)).trans ((seg_off _ d 18 24 7 (by decide)).trans rfl))
  have h1 : seg (encode (.slliw d a sf)) 5 1 = 0#1 := (seg_off _ sf 0 5 1 (by decide)).trans ((seg_off _ a 12 5 1 (by decide)).trans ((seg_off _ d 18 5 1 (by decide)).trans rfl))
  have h2 : seg (encode (.slliw d a sf)) 6 6 = 32#6 := (seg_off _ sf 0 6 6 (by decide)).trans ((seg_off _ a 12 6 6 (by decide)).trans ((seg_off _ d 18 6 6 (by decide)).trans rfl))
  have h3 : seg (encode (.slliw d a sf)) 31 1 = 0#1 := (seg_off _ sf 0 31 1 (by decide)).trans ((seg_off _ a 12 31 1 (by decide)).trans ((seg_off _ d 18 31 1 (by decide)).trans rfl))
  have h4 : seg (encode (.slliw d a sf)) 18 6 = d := (seg_off _ sf 0 18 6 (by decide)).trans ((seg_off _ a 12 18 6 (by decide)).trans (seg_hit _ d 18 rfl (by decide)))
  have h5 : seg (encode (.slliw d a sf)) 12 6 = a := (seg_off _ sf 0 12 6 (by decide)).trans (seg_hit _ a 12 ((seg_off _ d 18 12 6 (by decide)).trans rfl) (by decide))
  have h6 : seg (encode (.slliw d a sf)) 0 5 = sf := seg_hit _ sf 0 ((seg_off _ a 12 0 5 (by decide)).trans ((seg_off _ d 18 0 5 (by decide)).trans rfl)) (by decide)
  exact decode_of (form08 m (by simp [decode08, h1, h2, h3, h4, h5, h6]))
theorem RoundTrip.srliw (d : BitVec 6) (a : BitVec 6) (sf : BitVec 5) : RoundTrip.Statement (.srliw d a sf) := by
  have m : seg (encode (.srliw d a sf)) 24 7 = 8#7 := (seg_off _ sf 0 24 7 (by decide)).trans ((seg_off _ a 12 24 7 (by decide)).trans ((seg_off _ d 18 24 7 (by decide)).trans rfl))
  have h1 : seg (encode (.srliw d a sf)) 5 1 = 0#1 := (seg_off _ sf 0 5 1 (by decide)).trans ((seg_off _ a 12 5 1 (by decide)).trans ((seg_off _ d 18 5 1 (by decide)).trans rfl))
  have h2 : seg (encode (.srliw d a sf)) 6 6 = 40#6 := (seg_off _ sf 0 6 6 (by decide)).trans ((seg_off _ a 12 6 6 (by decide)).trans ((seg_off _ d 18 6 6 (by decide)).trans rfl))
  have h3 : seg (encode (.srliw d a sf)) 31 1 = 0#1 := (seg_off _ sf 0 31 1 (by decide)).trans ((seg_off _ a 12 31 1 (by decide)).trans ((seg_off _ d 18 31 1 (by decide)).trans rfl))
  have h4 : seg (encode (.srliw d a sf)) 18 6 = d := (seg_off _ sf 0 18 6 (by decide)).trans ((seg_off _ a 12 18 6 (by decide)).trans (seg_hit _ d 18 rfl (by decide)))
  have h5 : seg (encode (.srliw d a sf)) 12 6 = a := (seg_off _ sf 0 12 6 (by decide)).trans (seg_hit _ a 12 ((seg_off _ d 18 12 6 (by decide)).trans rfl) (by decide))
  have h6 : seg (encode (.srliw d a sf)) 0 5 = sf := seg_hit _ sf 0 ((seg_off _ a 12 0 5 (by decide)).trans ((seg_off _ d 18 0 5 (by decide)).trans rfl)) (by decide)
  exact decode_of (form08 m (by simp [decode08, h1, h2, h3, h4, h5, h6]))
theorem RoundTrip.sraiw (d : BitVec 6) (a : BitVec 6) (sf : BitVec 5) : RoundTrip.Statement (.sraiw d a sf) := by
  have m : seg (encode (.sraiw d a sf)) 24 7 = 8#7 := (seg_off _ sf 0 24 7 (by decide)).trans ((seg_off _ a 12 24 7 (by decide)).trans ((seg_off _ d 18 24 7 (by decide)).trans rfl))
  have h1 : seg (encode (.sraiw d a sf)) 5 1 = 0#1 := (seg_off _ sf 0 5 1 (by decide)).trans ((seg_off _ a 12 5 1 (by decide)).trans ((seg_off _ d 18 5 1 (by decide)).trans rfl))
  have h2 : seg (encode (.sraiw d a sf)) 6 6 = 48#6 := (seg_off _ sf 0 6 6 (by decide)).trans ((seg_off _ a 12 6 6 (by decide)).trans ((seg_off _ d 18 6 6 (by decide)).trans rfl))
  have h3 : seg (encode (.sraiw d a sf)) 31 1 = 0#1 := (seg_off _ sf 0 31 1 (by decide)).trans ((seg_off _ a 12 31 1 (by decide)).trans ((seg_off _ d 18 31 1 (by decide)).trans rfl))
  have h4 : seg (encode (.sraiw d a sf)) 18 6 = d := (seg_off _ sf 0 18 6 (by decide)).trans ((seg_off _ a 12 18 6 (by decide)).trans (seg_hit _ d 18 rfl (by decide)))
  have h5 : seg (encode (.sraiw d a sf)) 12 6 = a := (seg_off _ sf 0 12 6 (by decide)).trans (seg_hit _ a 12 ((seg_off _ d 18 12 6 (by decide)).trans rfl) (by decide))
  have h6 : seg (encode (.sraiw d a sf)) 0 5 = sf := seg_hit _ sf 0 ((seg_off _ a 12 0 5 (by decide)).trans ((seg_off _ d 18 0 5 (by decide)).trans rfl)) (by decide)
  exact decode_of (form08 m (by simp [decode08, h1, h2, h3, h4, h5, h6]))
theorem RoundTrip.lui (d : BitVec 6) (im : BitVec 18) : RoundTrip.Statement (.lui d im) := by
  have m : seg (encode (.lui d im)) 24 7 = 11#7 := (seg_off _ im 0 24 7 (by decide)).trans ((seg_off _ d 18 24 7 (by decide)).trans rfl)
  have h1 : seg (encode (.lui d im)) 31 1 = 0#1 := (seg_off _ im 0 31 1 (by decide)).trans ((seg_off _ d 18 31 1 (by decide)).trans rfl)
  have h2 : seg (encode (.lui d im)) 18 6 = d := (seg_off _ im 0 18 6 (by decide)).trans (seg_hit _ d 18 rfl (by decide))
  have h3 : seg (encode (.lui d im)) 0 18 = im := seg_hit _ im 0 ((seg_off _ d 18 0 18 (by decide)).trans rfl) (by decide)
  exact decode_of (form0B m (by simp [decode0B, h1, h2, h3]))
theorem RoundTrip.auipc (d : BitVec 6) (im : BitVec 18) : RoundTrip.Statement (.auipc d im) := by
  have m : seg (encode (.auipc d im)) 24 7 = 12#7 := (seg_off _ im 0 24 7 (by decide)).trans ((seg_off _ d 18 24 7 (by decide)).trans rfl)
  have h1 : seg (encode (.auipc d im)) 31 1 = 0#1 := (seg_off _ im 0 31 1 (by decide)).trans ((seg_off _ d 18 31 1 (by decide)).trans rfl)
  have h2 : seg (encode (.auipc d im)) 18 6 = d := (seg_off _ im 0 18 6 (by decide)).trans (seg_hit _ d 18 rfl (by decide))
  have h3 : seg (encode (.auipc d im)) 0 18 = im := seg_hit _ im 0 ((seg_off _ d 18 0 18 (by decide)).trans rfl) (by decide)
  exact decode_of (form0C m (by simp [decode0C, h1, h2, h3]))
theorem RoundTrip.lb (d : BitVec 6) (a : BitVec 6) (im : BitVec 9) : RoundTrip.Statement (.lb d a im) := by
  have m : seg (encode (.lb d a im)) 24 7 = 13#7 := (seg_off _ im 0 24 7 (by decide)).trans ((seg_off _ a 12 24 7 (by decide)).trans ((seg_off _ d 18 24 7 (by decide)).trans rfl))
  have h1 : seg (encode (.lb d a im)) 9 3 = 0#3 := (seg_off _ im 0 9 3 (by decide)).trans ((seg_off _ a 12 9 3 (by decide)).trans ((seg_off _ d 18 9 3 (by decide)).trans rfl))
  have h2 : seg (encode (.lb d a im)) 31 1 = 0#1 := (seg_off _ im 0 31 1 (by decide)).trans ((seg_off _ a 12 31 1 (by decide)).trans ((seg_off _ d 18 31 1 (by decide)).trans rfl))
  have h3 : seg (encode (.lb d a im)) 18 6 = d := (seg_off _ im 0 18 6 (by decide)).trans ((seg_off _ a 12 18 6 (by decide)).trans (seg_hit _ d 18 rfl (by decide)))
  have h4 : seg (encode (.lb d a im)) 12 6 = a := (seg_off _ im 0 12 6 (by decide)).trans (seg_hit _ a 12 ((seg_off _ d 18 12 6 (by decide)).trans rfl) (by decide))
  have h5 : seg (encode (.lb d a im)) 0 9 = im := seg_hit _ im 0 ((seg_off _ a 12 0 9 (by decide)).trans ((seg_off _ d 18 0 9 (by decide)).trans rfl)) (by decide)
  exact decode_of (form0D m (by simp [decode0D, h1, h2, h3, h4, h5]))
theorem RoundTrip.lh (d : BitVec 6) (a : BitVec 6) (im : BitVec 9) : RoundTrip.Statement (.lh d a im) := by
  have m : seg (encode (.lh d a im)) 24 7 = 13#7 := (seg_off _ im 0 24 7 (by decide)).trans ((seg_off _ a 12 24 7 (by decide)).trans ((seg_off _ d 18 24 7 (by decide)).trans rfl))
  have h1 : seg (encode (.lh d a im)) 9 3 = 1#3 := (seg_off _ im 0 9 3 (by decide)).trans ((seg_off _ a 12 9 3 (by decide)).trans ((seg_off _ d 18 9 3 (by decide)).trans rfl))
  have h2 : seg (encode (.lh d a im)) 31 1 = 0#1 := (seg_off _ im 0 31 1 (by decide)).trans ((seg_off _ a 12 31 1 (by decide)).trans ((seg_off _ d 18 31 1 (by decide)).trans rfl))
  have h3 : seg (encode (.lh d a im)) 18 6 = d := (seg_off _ im 0 18 6 (by decide)).trans ((seg_off _ a 12 18 6 (by decide)).trans (seg_hit _ d 18 rfl (by decide)))
  have h4 : seg (encode (.lh d a im)) 12 6 = a := (seg_off _ im 0 12 6 (by decide)).trans (seg_hit _ a 12 ((seg_off _ d 18 12 6 (by decide)).trans rfl) (by decide))
  have h5 : seg (encode (.lh d a im)) 0 9 = im := seg_hit _ im 0 ((seg_off _ a 12 0 9 (by decide)).trans ((seg_off _ d 18 0 9 (by decide)).trans rfl)) (by decide)
  exact decode_of (form0D m (by simp [decode0D, h1, h2, h3, h4, h5]))
theorem RoundTrip.lw (d : BitVec 6) (a : BitVec 6) (im : BitVec 9) : RoundTrip.Statement (.lw d a im) := by
  have m : seg (encode (.lw d a im)) 24 7 = 13#7 := (seg_off _ im 0 24 7 (by decide)).trans ((seg_off _ a 12 24 7 (by decide)).trans ((seg_off _ d 18 24 7 (by decide)).trans rfl))
  have h1 : seg (encode (.lw d a im)) 9 3 = 2#3 := (seg_off _ im 0 9 3 (by decide)).trans ((seg_off _ a 12 9 3 (by decide)).trans ((seg_off _ d 18 9 3 (by decide)).trans rfl))
  have h2 : seg (encode (.lw d a im)) 31 1 = 0#1 := (seg_off _ im 0 31 1 (by decide)).trans ((seg_off _ a 12 31 1 (by decide)).trans ((seg_off _ d 18 31 1 (by decide)).trans rfl))
  have h3 : seg (encode (.lw d a im)) 18 6 = d := (seg_off _ im 0 18 6 (by decide)).trans ((seg_off _ a 12 18 6 (by decide)).trans (seg_hit _ d 18 rfl (by decide)))
  have h4 : seg (encode (.lw d a im)) 12 6 = a := (seg_off _ im 0 12 6 (by decide)).trans (seg_hit _ a 12 ((seg_off _ d 18 12 6 (by decide)).trans rfl) (by decide))
  have h5 : seg (encode (.lw d a im)) 0 9 = im := seg_hit _ im 0 ((seg_off _ a 12 0 9 (by decide)).trans ((seg_off _ d 18 0 9 (by decide)).trans rfl)) (by decide)
  exact decode_of (form0D m (by simp [decode0D, h1, h2, h3, h4, h5]))
theorem RoundTrip.ld (d : BitVec 6) (a : BitVec 6) (im : BitVec 9) : RoundTrip.Statement (.ld d a im) := by
  have m : seg (encode (.ld d a im)) 24 7 = 13#7 := (seg_off _ im 0 24 7 (by decide)).trans ((seg_off _ a 12 24 7 (by decide)).trans ((seg_off _ d 18 24 7 (by decide)).trans rfl))
  have h1 : seg (encode (.ld d a im)) 9 3 = 3#3 := (seg_off _ im 0 9 3 (by decide)).trans ((seg_off _ a 12 9 3 (by decide)).trans ((seg_off _ d 18 9 3 (by decide)).trans rfl))
  have h2 : seg (encode (.ld d a im)) 31 1 = 0#1 := (seg_off _ im 0 31 1 (by decide)).trans ((seg_off _ a 12 31 1 (by decide)).trans ((seg_off _ d 18 31 1 (by decide)).trans rfl))
  have h3 : seg (encode (.ld d a im)) 18 6 = d := (seg_off _ im 0 18 6 (by decide)).trans ((seg_off _ a 12 18 6 (by decide)).trans (seg_hit _ d 18 rfl (by decide)))
  have h4 : seg (encode (.ld d a im)) 12 6 = a := (seg_off _ im 0 12 6 (by decide)).trans (seg_hit _ a 12 ((seg_off _ d 18 12 6 (by decide)).trans rfl) (by decide))
  have h5 : seg (encode (.ld d a im)) 0 9 = im := seg_hit _ im 0 ((seg_off _ a 12 0 9 (by decide)).trans ((seg_off _ d 18 0 9 (by decide)).trans rfl)) (by decide)
  exact decode_of (form0D m (by simp [decode0D, h1, h2, h3, h4, h5]))
theorem RoundTrip.lbu (d : BitVec 6) (a : BitVec 6) (im : BitVec 9) : RoundTrip.Statement (.lbu d a im) := by
  have m : seg (encode (.lbu d a im)) 24 7 = 13#7 := (seg_off _ im 0 24 7 (by decide)).trans ((seg_off _ a 12 24 7 (by decide)).trans ((seg_off _ d 18 24 7 (by decide)).trans rfl))
  have h1 : seg (encode (.lbu d a im)) 9 3 = 4#3 := (seg_off _ im 0 9 3 (by decide)).trans ((seg_off _ a 12 9 3 (by decide)).trans ((seg_off _ d 18 9 3 (by decide)).trans rfl))
  have h2 : seg (encode (.lbu d a im)) 31 1 = 0#1 := (seg_off _ im 0 31 1 (by decide)).trans ((seg_off _ a 12 31 1 (by decide)).trans ((seg_off _ d 18 31 1 (by decide)).trans rfl))
  have h3 : seg (encode (.lbu d a im)) 18 6 = d := (seg_off _ im 0 18 6 (by decide)).trans ((seg_off _ a 12 18 6 (by decide)).trans (seg_hit _ d 18 rfl (by decide)))
  have h4 : seg (encode (.lbu d a im)) 12 6 = a := (seg_off _ im 0 12 6 (by decide)).trans (seg_hit _ a 12 ((seg_off _ d 18 12 6 (by decide)).trans rfl) (by decide))
  have h5 : seg (encode (.lbu d a im)) 0 9 = im := seg_hit _ im 0 ((seg_off _ a 12 0 9 (by decide)).trans ((seg_off _ d 18 0 9 (by decide)).trans rfl)) (by decide)
  exact decode_of (form0D m (by simp [decode0D, h1, h2, h3, h4, h5]))
theorem RoundTrip.lhu (d : BitVec 6) (a : BitVec 6) (im : BitVec 9) : RoundTrip.Statement (.lhu d a im) := by
  have m : seg (encode (.lhu d a im)) 24 7 = 13#7 := (seg_off _ im 0 24 7 (by decide)).trans ((seg_off _ a 12 24 7 (by decide)).trans ((seg_off _ d 18 24 7 (by decide)).trans rfl))
  have h1 : seg (encode (.lhu d a im)) 9 3 = 5#3 := (seg_off _ im 0 9 3 (by decide)).trans ((seg_off _ a 12 9 3 (by decide)).trans ((seg_off _ d 18 9 3 (by decide)).trans rfl))
  have h2 : seg (encode (.lhu d a im)) 31 1 = 0#1 := (seg_off _ im 0 31 1 (by decide)).trans ((seg_off _ a 12 31 1 (by decide)).trans ((seg_off _ d 18 31 1 (by decide)).trans rfl))
  have h3 : seg (encode (.lhu d a im)) 18 6 = d := (seg_off _ im 0 18 6 (by decide)).trans ((seg_off _ a 12 18 6 (by decide)).trans (seg_hit _ d 18 rfl (by decide)))
  have h4 : seg (encode (.lhu d a im)) 12 6 = a := (seg_off _ im 0 12 6 (by decide)).trans (seg_hit _ a 12 ((seg_off _ d 18 12 6 (by decide)).trans rfl) (by decide))
  have h5 : seg (encode (.lhu d a im)) 0 9 = im := seg_hit _ im 0 ((seg_off _ a 12 0 9 (by decide)).trans ((seg_off _ d 18 0 9 (by decide)).trans rfl)) (by decide)
  exact decode_of (form0D m (by simp [decode0D, h1, h2, h3, h4, h5]))
theorem RoundTrip.lwu (d : BitVec 6) (a : BitVec 6) (im : BitVec 9) : RoundTrip.Statement (.lwu d a im) := by
  have m : seg (encode (.lwu d a im)) 24 7 = 13#7 := (seg_off _ im 0 24 7 (by decide)).trans ((seg_off _ a 12 24 7 (by decide)).trans ((seg_off _ d 18 24 7 (by decide)).trans rfl))
  have h1 : seg (encode (.lwu d a im)) 9 3 = 6#3 := (seg_off _ im 0 9 3 (by decide)).trans ((seg_off _ a 12 9 3 (by decide)).trans ((seg_off _ d 18 9 3 (by decide)).trans rfl))
  have h2 : seg (encode (.lwu d a im)) 31 1 = 0#1 := (seg_off _ im 0 31 1 (by decide)).trans ((seg_off _ a 12 31 1 (by decide)).trans ((seg_off _ d 18 31 1 (by decide)).trans rfl))
  have h3 : seg (encode (.lwu d a im)) 18 6 = d := (seg_off _ im 0 18 6 (by decide)).trans ((seg_off _ a 12 18 6 (by decide)).trans (seg_hit _ d 18 rfl (by decide)))
  have h4 : seg (encode (.lwu d a im)) 12 6 = a := (seg_off _ im 0 12 6 (by decide)).trans (seg_hit _ a 12 ((seg_off _ d 18 12 6 (by decide)).trans rfl) (by decide))
  have h5 : seg (encode (.lwu d a im)) 0 9 = im := seg_hit _ im 0 ((seg_off _ a 12 0 9 (by decide)).trans ((seg_off _ d 18 0 9 (by decide)).trans rfl)) (by decide)
  exact decode_of (form0D m (by simp [decode0D, h1, h2, h3, h4, h5]))
theorem RoundTrip.sb (b : BitVec 6) (a : BitVec 6) (im : BitVec 9) : RoundTrip.Statement (.sb b a im) := by
  have m : seg (encode (.sb b a im)) 24 7 = 14#7 := (seg_off _ im 0 24 7 (by decide)).trans ((seg_off _ a 12 24 7 (by decide)).trans ((seg_off _ b 18 24 7 (by decide)).trans rfl))
  have h1 : seg (encode (.sb b a im)) 9 3 = 0#3 := (seg_off _ im 0 9 3 (by decide)).trans ((seg_off _ a 12 9 3 (by decide)).trans ((seg_off _ b 18 9 3 (by decide)).trans rfl))
  have h2 : seg (encode (.sb b a im)) 31 1 = 0#1 := (seg_off _ im 0 31 1 (by decide)).trans ((seg_off _ a 12 31 1 (by decide)).trans ((seg_off _ b 18 31 1 (by decide)).trans rfl))
  have h3 : seg (encode (.sb b a im)) 18 6 = b := (seg_off _ im 0 18 6 (by decide)).trans ((seg_off _ a 12 18 6 (by decide)).trans (seg_hit _ b 18 rfl (by decide)))
  have h4 : seg (encode (.sb b a im)) 12 6 = a := (seg_off _ im 0 12 6 (by decide)).trans (seg_hit _ a 12 ((seg_off _ b 18 12 6 (by decide)).trans rfl) (by decide))
  have h5 : seg (encode (.sb b a im)) 0 9 = im := seg_hit _ im 0 ((seg_off _ a 12 0 9 (by decide)).trans ((seg_off _ b 18 0 9 (by decide)).trans rfl)) (by decide)
  exact decode_of (form0E m (by simp [decode0E, h1, h2, h3, h4, h5]))
theorem RoundTrip.sh (b : BitVec 6) (a : BitVec 6) (im : BitVec 9) : RoundTrip.Statement (.sh b a im) := by
  have m : seg (encode (.sh b a im)) 24 7 = 14#7 := (seg_off _ im 0 24 7 (by decide)).trans ((seg_off _ a 12 24 7 (by decide)).trans ((seg_off _ b 18 24 7 (by decide)).trans rfl))
  have h1 : seg (encode (.sh b a im)) 9 3 = 1#3 := (seg_off _ im 0 9 3 (by decide)).trans ((seg_off _ a 12 9 3 (by decide)).trans ((seg_off _ b 18 9 3 (by decide)).trans rfl))
  have h2 : seg (encode (.sh b a im)) 31 1 = 0#1 := (seg_off _ im 0 31 1 (by decide)).trans ((seg_off _ a 12 31 1 (by decide)).trans ((seg_off _ b 18 31 1 (by decide)).trans rfl))
  have h3 : seg (encode (.sh b a im)) 18 6 = b := (seg_off _ im 0 18 6 (by decide)).trans ((seg_off _ a 12 18 6 (by decide)).trans (seg_hit _ b 18 rfl (by decide)))
  have h4 : seg (encode (.sh b a im)) 12 6 = a := (seg_off _ im 0 12 6 (by decide)).trans (seg_hit _ a 12 ((seg_off _ b 18 12 6 (by decide)).trans rfl) (by decide))
  have h5 : seg (encode (.sh b a im)) 0 9 = im := seg_hit _ im 0 ((seg_off _ a 12 0 9 (by decide)).trans ((seg_off _ b 18 0 9 (by decide)).trans rfl)) (by decide)
  exact decode_of (form0E m (by simp [decode0E, h1, h2, h3, h4, h5]))
theorem RoundTrip.sw (b : BitVec 6) (a : BitVec 6) (im : BitVec 9) : RoundTrip.Statement (.sw b a im) := by
  have m : seg (encode (.sw b a im)) 24 7 = 14#7 := (seg_off _ im 0 24 7 (by decide)).trans ((seg_off _ a 12 24 7 (by decide)).trans ((seg_off _ b 18 24 7 (by decide)).trans rfl))
  have h1 : seg (encode (.sw b a im)) 9 3 = 2#3 := (seg_off _ im 0 9 3 (by decide)).trans ((seg_off _ a 12 9 3 (by decide)).trans ((seg_off _ b 18 9 3 (by decide)).trans rfl))
  have h2 : seg (encode (.sw b a im)) 31 1 = 0#1 := (seg_off _ im 0 31 1 (by decide)).trans ((seg_off _ a 12 31 1 (by decide)).trans ((seg_off _ b 18 31 1 (by decide)).trans rfl))
  have h3 : seg (encode (.sw b a im)) 18 6 = b := (seg_off _ im 0 18 6 (by decide)).trans ((seg_off _ a 12 18 6 (by decide)).trans (seg_hit _ b 18 rfl (by decide)))
  have h4 : seg (encode (.sw b a im)) 12 6 = a := (seg_off _ im 0 12 6 (by decide)).trans (seg_hit _ a 12 ((seg_off _ b 18 12 6 (by decide)).trans rfl) (by decide))
  have h5 : seg (encode (.sw b a im)) 0 9 = im := seg_hit _ im 0 ((seg_off _ a 12 0 9 (by decide)).trans ((seg_off _ b 18 0 9 (by decide)).trans rfl)) (by decide)
  exact decode_of (form0E m (by simp [decode0E, h1, h2, h3, h4, h5]))
theorem RoundTrip.sd (b : BitVec 6) (a : BitVec 6) (im : BitVec 9) : RoundTrip.Statement (.sd b a im) := by
  have m : seg (encode (.sd b a im)) 24 7 = 14#7 := (seg_off _ im 0 24 7 (by decide)).trans ((seg_off _ a 12 24 7 (by decide)).trans ((seg_off _ b 18 24 7 (by decide)).trans rfl))
  have h1 : seg (encode (.sd b a im)) 9 3 = 3#3 := (seg_off _ im 0 9 3 (by decide)).trans ((seg_off _ a 12 9 3 (by decide)).trans ((seg_off _ b 18 9 3 (by decide)).trans rfl))
  have h2 : seg (encode (.sd b a im)) 31 1 = 0#1 := (seg_off _ im 0 31 1 (by decide)).trans ((seg_off _ a 12 31 1 (by decide)).trans ((seg_off _ b 18 31 1 (by decide)).trans rfl))
  have h3 : seg (encode (.sd b a im)) 18 6 = b := (seg_off _ im 0 18 6 (by decide)).trans ((seg_off _ a 12 18 6 (by decide)).trans (seg_hit _ b 18 rfl (by decide)))
  have h4 : seg (encode (.sd b a im)) 12 6 = a := (seg_off _ im 0 12 6 (by decide)).trans (seg_hit _ a 12 ((seg_off _ b 18 12 6 (by decide)).trans rfl) (by decide))
  have h5 : seg (encode (.sd b a im)) 0 9 = im := seg_hit _ im 0 ((seg_off _ a 12 0 9 (by decide)).trans ((seg_off _ b 18 0 9 (by decide)).trans rfl)) (by decide)
  exact decode_of (form0E m (by simp [decode0E, h1, h2, h3, h4, h5]))
theorem RoundTrip.fadd (d : BitVec 6) (a : BitVec 6) (b : BitVec 6) (p : BitVec 2) : RoundTrip.Statement (.fadd d a b p) := by
  have m : seg (encode (.fadd d a b p)) 24 7 = 15#7 := (seg_off _ p 4 24 7 (by decide)).trans ((seg_off _ b 6 24 7 (by decide)).trans ((seg_off _ a 12 24 7 (by decide)).trans ((seg_off _ d 18 24 7 (by decide)).trans rfl)))
  have h1 : seg (encode (.fadd d a b p)) 0 4 = 0#4 := (seg_off _ p 4 0 4 (by decide)).trans ((seg_off _ b 6 0 4 (by decide)).trans ((seg_off _ a 12 0 4 (by decide)).trans ((seg_off _ d 18 0 4 (by decide)).trans rfl)))
  have h2 : seg (encode (.fadd d a b p)) 31 1 = 0#1 := (seg_off _ p 4 31 1 (by decide)).trans ((seg_off _ b 6 31 1 (by decide)).trans ((seg_off _ a 12 31 1 (by decide)).trans ((seg_off _ d 18 31 1 (by decide)).trans rfl)))
  have h3 : seg (encode (.fadd d a b p)) 18 6 = d := (seg_off _ p 4 18 6 (by decide)).trans ((seg_off _ b 6 18 6 (by decide)).trans ((seg_off _ a 12 18 6 (by decide)).trans (seg_hit _ d 18 rfl (by decide))))
  have h4 : seg (encode (.fadd d a b p)) 12 6 = a := (seg_off _ p 4 12 6 (by decide)).trans ((seg_off _ b 6 12 6 (by decide)).trans (seg_hit _ a 12 ((seg_off _ d 18 12 6 (by decide)).trans rfl) (by decide)))
  have h5 : seg (encode (.fadd d a b p)) 6 6 = b := (seg_off _ p 4 6 6 (by decide)).trans (seg_hit _ b 6 ((seg_off _ a 12 6 6 (by decide)).trans ((seg_off _ d 18 6 6 (by decide)).trans rfl)) (by decide))
  have h6 : seg (encode (.fadd d a b p)) 4 2 = p := seg_hit _ p 4 ((seg_off _ b 6 4 2 (by decide)).trans ((seg_off _ a 12 4 2 (by decide)).trans ((seg_off _ d 18 4 2 (by decide)).trans rfl))) (by decide)
  exact decode_of (form0F m (by simp [decode0F, h1, h2, h3, h4, h5, h6]))
theorem RoundTrip.fsub (d : BitVec 6) (a : BitVec 6) (b : BitVec 6) (p : BitVec 2) : RoundTrip.Statement (.fsub d a b p) := by
  have m : seg (encode (.fsub d a b p)) 24 7 = 15#7 := (seg_off _ p 4 24 7 (by decide)).trans ((seg_off _ b 6 24 7 (by decide)).trans ((seg_off _ a 12 24 7 (by decide)).trans ((seg_off _ d 18 24 7 (by decide)).trans rfl)))
  have h1 : seg (encode (.fsub d a b p)) 0 4 = 1#4 := (seg_off _ p 4 0 4 (by decide)).trans ((seg_off _ b 6 0 4 (by decide)).trans ((seg_off _ a 12 0 4 (by decide)).trans ((seg_off _ d 18 0 4 (by decide)).trans rfl)))
  have h2 : seg (encode (.fsub d a b p)) 31 1 = 0#1 := (seg_off _ p 4 31 1 (by decide)).trans ((seg_off _ b 6 31 1 (by decide)).trans ((seg_off _ a 12 31 1 (by decide)).trans ((seg_off _ d 18 31 1 (by decide)).trans rfl)))
  have h3 : seg (encode (.fsub d a b p)) 18 6 = d := (seg_off _ p 4 18 6 (by decide)).trans ((seg_off _ b 6 18 6 (by decide)).trans ((seg_off _ a 12 18 6 (by decide)).trans (seg_hit _ d 18 rfl (by decide))))
  have h4 : seg (encode (.fsub d a b p)) 12 6 = a := (seg_off _ p 4 12 6 (by decide)).trans ((seg_off _ b 6 12 6 (by decide)).trans (seg_hit _ a 12 ((seg_off _ d 18 12 6 (by decide)).trans rfl) (by decide)))
  have h5 : seg (encode (.fsub d a b p)) 6 6 = b := (seg_off _ p 4 6 6 (by decide)).trans (seg_hit _ b 6 ((seg_off _ a 12 6 6 (by decide)).trans ((seg_off _ d 18 6 6 (by decide)).trans rfl)) (by decide))
  have h6 : seg (encode (.fsub d a b p)) 4 2 = p := seg_hit _ p 4 ((seg_off _ b 6 4 2 (by decide)).trans ((seg_off _ a 12 4 2 (by decide)).trans ((seg_off _ d 18 4 2 (by decide)).trans rfl))) (by decide)
  exact decode_of (form0F m (by simp [decode0F, h1, h2, h3, h4, h5, h6]))
theorem RoundTrip.fmul (d : BitVec 6) (a : BitVec 6) (b : BitVec 6) (p : BitVec 2) : RoundTrip.Statement (.fmul d a b p) := by
  have m : seg (encode (.fmul d a b p)) 24 7 = 15#7 := (seg_off _ p 4 24 7 (by decide)).trans ((seg_off _ b 6 24 7 (by decide)).trans ((seg_off _ a 12 24 7 (by decide)).trans ((seg_off _ d 18 24 7 (by decide)).trans rfl)))
  have h1 : seg (encode (.fmul d a b p)) 0 4 = 2#4 := (seg_off _ p 4 0 4 (by decide)).trans ((seg_off _ b 6 0 4 (by decide)).trans ((seg_off _ a 12 0 4 (by decide)).trans ((seg_off _ d 18 0 4 (by decide)).trans rfl)))
  have h2 : seg (encode (.fmul d a b p)) 31 1 = 0#1 := (seg_off _ p 4 31 1 (by decide)).trans ((seg_off _ b 6 31 1 (by decide)).trans ((seg_off _ a 12 31 1 (by decide)).trans ((seg_off _ d 18 31 1 (by decide)).trans rfl)))
  have h3 : seg (encode (.fmul d a b p)) 18 6 = d := (seg_off _ p 4 18 6 (by decide)).trans ((seg_off _ b 6 18 6 (by decide)).trans ((seg_off _ a 12 18 6 (by decide)).trans (seg_hit _ d 18 rfl (by decide))))
  have h4 : seg (encode (.fmul d a b p)) 12 6 = a := (seg_off _ p 4 12 6 (by decide)).trans ((seg_off _ b 6 12 6 (by decide)).trans (seg_hit _ a 12 ((seg_off _ d 18 12 6 (by decide)).trans rfl) (by decide)))
  have h5 : seg (encode (.fmul d a b p)) 6 6 = b := (seg_off _ p 4 6 6 (by decide)).trans (seg_hit _ b 6 ((seg_off _ a 12 6 6 (by decide)).trans ((seg_off _ d 18 6 6 (by decide)).trans rfl)) (by decide))
  have h6 : seg (encode (.fmul d a b p)) 4 2 = p := seg_hit _ p 4 ((seg_off _ b 6 4 2 (by decide)).trans ((seg_off _ a 12 4 2 (by decide)).trans ((seg_off _ d 18 4 2 (by decide)).trans rfl))) (by decide)
  exact decode_of (form0F m (by simp [decode0F, h1, h2, h3, h4, h5, h6]))
theorem RoundTrip.fdiv (d : BitVec 6) (a : BitVec 6) (b : BitVec 6) (p : BitVec 2) : RoundTrip.Statement (.fdiv d a b p) := by
  have m : seg (encode (.fdiv d a b p)) 24 7 = 15#7 := (seg_off _ p 4 24 7 (by decide)).trans ((seg_off _ b 6 24 7 (by decide)).trans ((seg_off _ a 12 24 7 (by decide)).trans ((seg_off _ d 18 24 7 (by decide)).trans rfl)))
  have h1 : seg (encode (.fdiv d a b p)) 0 4 = 3#4 := (seg_off _ p 4 0 4 (by decide)).trans ((seg_off _ b 6 0 4 (by decide)).trans ((seg_off _ a 12 0 4 (by decide)).trans ((seg_off _ d 18 0 4 (by decide)).trans rfl)))
  have h2 : seg (encode (.fdiv d a b p)) 31 1 = 0#1 := (seg_off _ p 4 31 1 (by decide)).trans ((seg_off _ b 6 31 1 (by decide)).trans ((seg_off _ a 12 31 1 (by decide)).trans ((seg_off _ d 18 31 1 (by decide)).trans rfl)))
  have h3 : seg (encode (.fdiv d a b p)) 18 6 = d := (seg_off _ p 4 18 6 (by decide)).trans ((seg_off _ b 6 18 6 (by decide)).trans ((seg_off _ a 12 18 6 (by decide)).trans (seg_hit _ d 18 rfl (by decide))))
  have h4 : seg (encode (.fdiv d a b p)) 12 6 = a := (seg_off _ p 4 12 6 (by decide)).trans ((seg_off _ b 6 12 6 (by decide)).trans (seg_hit _ a 12 ((seg_off _ d 18 12 6 (by decide)).trans rfl) (by decide)))
  have h5 : seg (encode (.fdiv d a b p)) 6 6 = b := (seg_off _ p 4 6 6 (by decide)).trans (seg_hit _ b 6 ((seg_off _ a 12 6 6 (by decide)).trans ((seg_off _ d 18 6 6 (by decide)).trans rfl)) (by decide))
  have h6 : seg (encode (.fdiv d a b p)) 4 2 = p := seg_hit _ p 4 ((seg_off _ b 6 4 2 (by decide)).trans ((seg_off _ a 12 4 2 (by decide)).trans ((seg_off _ d 18 4 2 (by decide)).trans rfl))) (by decide)
  exact decode_of (form0F m (by simp [decode0F, h1, h2, h3, h4, h5, h6]))
theorem RoundTrip.fsqrt (d : BitVec 6) (a : BitVec 6) (p : BitVec 2) : RoundTrip.Statement (.fsqrt d a p) := by
  have m : seg (encode (.fsqrt d a p)) 24 7 = 15#7 := (seg_off _ p 4 24 7 (by decide)).trans ((seg_off _ a 12 24 7 (by decide)).trans ((seg_off _ d 18 24 7 (by decide)).trans rfl))
  have h1 : seg (encode (.fsqrt d a p)) 0 4 = 4#4 := (seg_off _ p 4 0 4 (by decide)).trans ((seg_off _ a 12 0 4 (by decide)).trans ((seg_off _ d 18 0 4 (by decide)).trans rfl))
  have h2 : seg (encode (.fsqrt d a p)) 6 1 = 0#1 := (seg_off _ p 4 6 1 (by decide)).trans ((seg_off _ a 12 6 1 (by decide)).trans ((seg_off _ d 18 6 1 (by decide)).trans rfl))
  have h3 : seg (encode (.fsqrt d a p)) 7 1 = 0#1 := (seg_off _ p 4 7 1 (by decide)).trans ((seg_off _ a 12 7 1 (by decide)).trans ((seg_off _ d 18 7 1 (by decide)).trans rfl))
  have h4 : seg (encode (.fsqrt d a p)) 8 1 = 0#1 := (seg_off _ p 4 8 1 (by decide)).trans ((seg_off _ a 12 8 1 (by decide)).trans ((seg_off _ d 18 8 1 (by decide)).trans rfl))
  have h5 : seg (encode (.fsqrt d a p)) 9 3 = 0#3 := (seg_off _ p 4 9 3 (by decide)).trans ((seg_off _ a 12 9 3 (by decide)).trans ((seg_off _ d 18 9 3 (by decide)).trans rfl))
  have h6 : seg (encode (.fsqrt d a p)) 31 1 = 0#1 := (seg_off _ p 4 31 1 (by decide)).trans ((seg_off _ a 12 31 1 (by decide)).trans ((seg_off _ d 18 31 1 (by decide)).trans rfl))
  have h7 : seg (encode (.fsqrt d a p)) 18 6 = d := (seg_off _ p 4 18 6 (by decide)).trans ((seg_off _ a 12 18 6 (by decide)).trans (seg_hit _ d 18 rfl (by decide)))
  have h8 : seg (encode (.fsqrt d a p)) 12 6 = a := (seg_off _ p 4 12 6 (by decide)).trans (seg_hit _ a 12 ((seg_off _ d 18 12 6 (by decide)).trans rfl) (by decide))
  have h9 : seg (encode (.fsqrt d a p)) 4 2 = p := seg_hit _ p 4 ((seg_off _ a 12 4 2 (by decide)).trans ((seg_off _ d 18 4 2 (by decide)).trans rfl)) (by decide)
  exact decode_of (form0F m (by simp [decode0F, h1, h2, h3, h4, h5, h6, h7, h8, h9]))
theorem RoundTrip.fmin (d : BitVec 6) (a : BitVec 6) (b : BitVec 6) (p : BitVec 2) : RoundTrip.Statement (.fmin d a b p) := by
  have m : seg (encode (.fmin d a b p)) 24 7 = 15#7 := (seg_off _ p 4 24 7 (by decide)).trans ((seg_off _ b 6 24 7 (by decide)).trans ((seg_off _ a 12 24 7 (by decide)).trans ((seg_off _ d 18 24 7 (by decide)).trans rfl)))
  have h1 : seg (encode (.fmin d a b p)) 0 4 = 5#4 := (seg_off _ p 4 0 4 (by decide)).trans ((seg_off _ b 6 0 4 (by decide)).trans ((seg_off _ a 12 0 4 (by decide)).trans ((seg_off _ d 18 0 4 (by decide)).trans rfl)))
  have h2 : seg (encode (.fmin d a b p)) 31 1 = 0#1 := (seg_off _ p 4 31 1 (by decide)).trans ((seg_off _ b 6 31 1 (by decide)).trans ((seg_off _ a 12 31 1 (by decide)).trans ((seg_off _ d 18 31 1 (by decide)).trans rfl)))
  have h3 : seg (encode (.fmin d a b p)) 18 6 = d := (seg_off _ p 4 18 6 (by decide)).trans ((seg_off _ b 6 18 6 (by decide)).trans ((seg_off _ a 12 18 6 (by decide)).trans (seg_hit _ d 18 rfl (by decide))))
  have h4 : seg (encode (.fmin d a b p)) 12 6 = a := (seg_off _ p 4 12 6 (by decide)).trans ((seg_off _ b 6 12 6 (by decide)).trans (seg_hit _ a 12 ((seg_off _ d 18 12 6 (by decide)).trans rfl) (by decide)))
  have h5 : seg (encode (.fmin d a b p)) 6 6 = b := (seg_off _ p 4 6 6 (by decide)).trans (seg_hit _ b 6 ((seg_off _ a 12 6 6 (by decide)).trans ((seg_off _ d 18 6 6 (by decide)).trans rfl)) (by decide))
  have h6 : seg (encode (.fmin d a b p)) 4 2 = p := seg_hit _ p 4 ((seg_off _ b 6 4 2 (by decide)).trans ((seg_off _ a 12 4 2 (by decide)).trans ((seg_off _ d 18 4 2 (by decide)).trans rfl))) (by decide)
  exact decode_of (form0F m (by simp [decode0F, h1, h2, h3, h4, h5, h6]))
theorem RoundTrip.fmax (d : BitVec 6) (a : BitVec 6) (b : BitVec 6) (p : BitVec 2) : RoundTrip.Statement (.fmax d a b p) := by
  have m : seg (encode (.fmax d a b p)) 24 7 = 15#7 := (seg_off _ p 4 24 7 (by decide)).trans ((seg_off _ b 6 24 7 (by decide)).trans ((seg_off _ a 12 24 7 (by decide)).trans ((seg_off _ d 18 24 7 (by decide)).trans rfl)))
  have h1 : seg (encode (.fmax d a b p)) 0 4 = 6#4 := (seg_off _ p 4 0 4 (by decide)).trans ((seg_off _ b 6 0 4 (by decide)).trans ((seg_off _ a 12 0 4 (by decide)).trans ((seg_off _ d 18 0 4 (by decide)).trans rfl)))
  have h2 : seg (encode (.fmax d a b p)) 31 1 = 0#1 := (seg_off _ p 4 31 1 (by decide)).trans ((seg_off _ b 6 31 1 (by decide)).trans ((seg_off _ a 12 31 1 (by decide)).trans ((seg_off _ d 18 31 1 (by decide)).trans rfl)))
  have h3 : seg (encode (.fmax d a b p)) 18 6 = d := (seg_off _ p 4 18 6 (by decide)).trans ((seg_off _ b 6 18 6 (by decide)).trans ((seg_off _ a 12 18 6 (by decide)).trans (seg_hit _ d 18 rfl (by decide))))
  have h4 : seg (encode (.fmax d a b p)) 12 6 = a := (seg_off _ p 4 12 6 (by decide)).trans ((seg_off _ b 6 12 6 (by decide)).trans (seg_hit _ a 12 ((seg_off _ d 18 12 6 (by decide)).trans rfl) (by decide)))
  have h5 : seg (encode (.fmax d a b p)) 6 6 = b := (seg_off _ p 4 6 6 (by decide)).trans (seg_hit _ b 6 ((seg_off _ a 12 6 6 (by decide)).trans ((seg_off _ d 18 6 6 (by decide)).trans rfl)) (by decide))
  have h6 : seg (encode (.fmax d a b p)) 4 2 = p := seg_hit _ p 4 ((seg_off _ b 6 4 2 (by decide)).trans ((seg_off _ a 12 4 2 (by decide)).trans ((seg_off _ d 18 4 2 (by decide)).trans rfl))) (by decide)
  exact decode_of (form0F m (by simp [decode0F, h1, h2, h3, h4, h5, h6]))
theorem RoundTrip.feq (d : BitVec 6) (a : BitVec 6) (b : BitVec 6) (p : BitVec 2) : RoundTrip.Statement (.feq d a b p) := by
  have m : seg (encode (.feq d a b p)) 24 7 = 15#7 := (seg_off _ p 4 24 7 (by decide)).trans ((seg_off _ b 6 24 7 (by decide)).trans ((seg_off _ a 12 24 7 (by decide)).trans ((seg_off _ d 18 24 7 (by decide)).trans rfl)))
  have h1 : seg (encode (.feq d a b p)) 0 4 = 7#4 := (seg_off _ p 4 0 4 (by decide)).trans ((seg_off _ b 6 0 4 (by decide)).trans ((seg_off _ a 12 0 4 (by decide)).trans ((seg_off _ d 18 0 4 (by decide)).trans rfl)))
  have h2 : seg (encode (.feq d a b p)) 31 1 = 0#1 := (seg_off _ p 4 31 1 (by decide)).trans ((seg_off _ b 6 31 1 (by decide)).trans ((seg_off _ a 12 31 1 (by decide)).trans ((seg_off _ d 18 31 1 (by decide)).trans rfl)))
  have h3 : seg (encode (.feq d a b p)) 18 6 = d := (seg_off _ p 4 18 6 (by decide)).trans ((seg_off _ b 6 18 6 (by decide)).trans ((seg_off _ a 12 18 6 (by decide)).trans (seg_hit _ d 18 rfl (by decide))))
  have h4 : seg (encode (.feq d a b p)) 12 6 = a := (seg_off _ p 4 12 6 (by decide)).trans ((seg_off _ b 6 12 6 (by decide)).trans (seg_hit _ a 12 ((seg_off _ d 18 12 6 (by decide)).trans rfl) (by decide)))
  have h5 : seg (encode (.feq d a b p)) 6 6 = b := (seg_off _ p 4 6 6 (by decide)).trans (seg_hit _ b 6 ((seg_off _ a 12 6 6 (by decide)).trans ((seg_off _ d 18 6 6 (by decide)).trans rfl)) (by decide))
  have h6 : seg (encode (.feq d a b p)) 4 2 = p := seg_hit _ p 4 ((seg_off _ b 6 4 2 (by decide)).trans ((seg_off _ a 12 4 2 (by decide)).trans ((seg_off _ d 18 4 2 (by decide)).trans rfl))) (by decide)
  exact decode_of (form0F m (by simp [decode0F, h1, h2, h3, h4, h5, h6]))
theorem RoundTrip.flt (d : BitVec 6) (a : BitVec 6) (b : BitVec 6) (p : BitVec 2) : RoundTrip.Statement (.flt d a b p) := by
  have m : seg (encode (.flt d a b p)) 24 7 = 15#7 := (seg_off _ p 4 24 7 (by decide)).trans ((seg_off _ b 6 24 7 (by decide)).trans ((seg_off _ a 12 24 7 (by decide)).trans ((seg_off _ d 18 24 7 (by decide)).trans rfl)))
  have h1 : seg (encode (.flt d a b p)) 0 4 = 8#4 := (seg_off _ p 4 0 4 (by decide)).trans ((seg_off _ b 6 0 4 (by decide)).trans ((seg_off _ a 12 0 4 (by decide)).trans ((seg_off _ d 18 0 4 (by decide)).trans rfl)))
  have h2 : seg (encode (.flt d a b p)) 31 1 = 0#1 := (seg_off _ p 4 31 1 (by decide)).trans ((seg_off _ b 6 31 1 (by decide)).trans ((seg_off _ a 12 31 1 (by decide)).trans ((seg_off _ d 18 31 1 (by decide)).trans rfl)))
  have h3 : seg (encode (.flt d a b p)) 18 6 = d := (seg_off _ p 4 18 6 (by decide)).trans ((seg_off _ b 6 18 6 (by decide)).trans ((seg_off _ a 12 18 6 (by decide)).trans (seg_hit _ d 18 rfl (by decide))))
  have h4 : seg (encode (.flt d a b p)) 12 6 = a := (seg_off _ p 4 12 6 (by decide)).trans ((seg_off _ b 6 12 6 (by decide)).trans (seg_hit _ a 12 ((seg_off _ d 18 12 6 (by decide)).trans rfl) (by decide)))
  have h5 : seg (encode (.flt d a b p)) 6 6 = b := (seg_off _ p 4 6 6 (by decide)).trans (seg_hit _ b 6 ((seg_off _ a 12 6 6 (by decide)).trans ((seg_off _ d 18 6 6 (by decide)).trans rfl)) (by decide))
  have h6 : seg (encode (.flt d a b p)) 4 2 = p := seg_hit _ p 4 ((seg_off _ b 6 4 2 (by decide)).trans ((seg_off _ a 12 4 2 (by decide)).trans ((seg_off _ d 18 4 2 (by decide)).trans rfl))) (by decide)
  exact decode_of (form0F m (by simp [decode0F, h1, h2, h3, h4, h5, h6]))
theorem RoundTrip.fle (d : BitVec 6) (a : BitVec 6) (b : BitVec 6) (p : BitVec 2) : RoundTrip.Statement (.fle d a b p) := by
  have m : seg (encode (.fle d a b p)) 24 7 = 15#7 := (seg_off _ p 4 24 7 (by decide)).trans ((seg_off _ b 6 24 7 (by decide)).trans ((seg_off _ a 12 24 7 (by decide)).trans ((seg_off _ d 18 24 7 (by decide)).trans rfl)))
  have h1 : seg (encode (.fle d a b p)) 0 4 = 9#4 := (seg_off _ p 4 0 4 (by decide)).trans ((seg_off _ b 6 0 4 (by decide)).trans ((seg_off _ a 12 0 4 (by decide)).trans ((seg_off _ d 18 0 4 (by decide)).trans rfl)))
  have h2 : seg (encode (.fle d a b p)) 31 1 = 0#1 := (seg_off _ p 4 31 1 (by decide)).trans ((seg_off _ b 6 31 1 (by decide)).trans ((seg_off _ a 12 31 1 (by decide)).trans ((seg_off _ d 18 31 1 (by decide)).trans rfl)))
  have h3 : seg (encode (.fle d a b p)) 18 6 = d := (seg_off _ p 4 18 6 (by decide)).trans ((seg_off _ b 6 18 6 (by decide)).trans ((seg_off _ a 12 18 6 (by decide)).trans (seg_hit _ d 18 rfl (by decide))))
  have h4 : seg (encode (.fle d a b p)) 12 6 = a := (seg_off _ p 4 12 6 (by decide)).trans ((seg_off _ b 6 12 6 (by decide)).trans (seg_hit _ a 12 ((seg_off _ d 18 12 6 (by decide)).trans rfl) (by decide)))
  have h5 : seg (encode (.fle d a b p)) 6 6 = b := (seg_off _ p 4 6 6 (by decide)).trans (seg_hit _ b 6 ((seg_off _ a 12 6 6 (by decide)).trans ((seg_off _ d 18 6 6 (by decide)).trans rfl)) (by decide))
  have h6 : seg (encode (.fle d a b p)) 4 2 = p := seg_hit _ p 4 ((seg_off _ b 6 4 2 (by decide)).trans ((seg_off _ a 12 4 2 (by decide)).trans ((seg_off _ d 18 4 2 (by decide)).trans rfl))) (by decide)
  exact decode_of (form0F m (by simp [decode0F, h1, h2, h3, h4, h5, h6]))
theorem RoundTrip.fclass (d : BitVec 6) (a : BitVec 6) (p : BitVec 2) : RoundTrip.Statement (.fclass d a p) := by
  have m : seg (encode (.fclass d a p)) 24 7 = 15#7 := (seg_off _ p 4 24 7 (by decide)).trans ((seg_off _ a 12 24 7 (by decide)).trans ((seg_off _ d 18 24 7 (by decide)).trans rfl))
  have h1 : seg (encode (.fclass d a p)) 0 4 = 10#4 := (seg_off _ p 4 0 4 (by decide)).trans ((seg_off _ a 12 0 4 (by decide)).trans ((seg_off _ d 18 0 4 (by decide)).trans rfl))
  have h2 : seg (encode (.fclass d a p)) 6 1 = 0#1 := (seg_off _ p 4 6 1 (by decide)).trans ((seg_off _ a 12 6 1 (by decide)).trans ((seg_off _ d 18 6 1 (by decide)).trans rfl))
  have h3 : seg (encode (.fclass d a p)) 7 1 = 0#1 := (seg_off _ p 4 7 1 (by decide)).trans ((seg_off _ a 12 7 1 (by decide)).trans ((seg_off _ d 18 7 1 (by decide)).trans rfl))
  have h4 : seg (encode (.fclass d a p)) 8 1 = 0#1 := (seg_off _ p 4 8 1 (by decide)).trans ((seg_off _ a 12 8 1 (by decide)).trans ((seg_off _ d 18 8 1 (by decide)).trans rfl))
  have h5 : seg (encode (.fclass d a p)) 9 3 = 0#3 := (seg_off _ p 4 9 3 (by decide)).trans ((seg_off _ a 12 9 3 (by decide)).trans ((seg_off _ d 18 9 3 (by decide)).trans rfl))
  have h6 : seg (encode (.fclass d a p)) 31 1 = 0#1 := (seg_off _ p 4 31 1 (by decide)).trans ((seg_off _ a 12 31 1 (by decide)).trans ((seg_off _ d 18 31 1 (by decide)).trans rfl))
  have h7 : seg (encode (.fclass d a p)) 18 6 = d := (seg_off _ p 4 18 6 (by decide)).trans ((seg_off _ a 12 18 6 (by decide)).trans (seg_hit _ d 18 rfl (by decide)))
  have h8 : seg (encode (.fclass d a p)) 12 6 = a := (seg_off _ p 4 12 6 (by decide)).trans (seg_hit _ a 12 ((seg_off _ d 18 12 6 (by decide)).trans rfl) (by decide))
  have h9 : seg (encode (.fclass d a p)) 4 2 = p := seg_hit _ p 4 ((seg_off _ a 12 4 2 (by decide)).trans ((seg_off _ d 18 4 2 (by decide)).trans rfl)) (by decide)
  exact decode_of (form0F m (by simp [decode0F, h1, h2, h3, h4, h5, h6, h7, h8, h9]))
theorem RoundTrip.fsgnj (d : BitVec 6) (a : BitVec 6) (b : BitVec 6) (p : BitVec 2) : RoundTrip.Statement (.fsgnj d a b p) := by
  have m : seg (encode (.fsgnj d a b p)) 24 7 = 15#7 := (seg_off _ p 4 24 7 (by decide)).trans ((seg_off _ b 6 24 7 (by decide)).trans ((seg_off _ a 12 24 7 (by decide)).trans ((seg_off _ d 18 24 7 (by decide)).trans rfl)))
  have h1 : seg (encode (.fsgnj d a b p)) 0 4 = 11#4 := (seg_off _ p 4 0 4 (by decide)).trans ((seg_off _ b 6 0 4 (by decide)).trans ((seg_off _ a 12 0 4 (by decide)).trans ((seg_off _ d 18 0 4 (by decide)).trans rfl)))
  have h2 : seg (encode (.fsgnj d a b p)) 31 1 = 0#1 := (seg_off _ p 4 31 1 (by decide)).trans ((seg_off _ b 6 31 1 (by decide)).trans ((seg_off _ a 12 31 1 (by decide)).trans ((seg_off _ d 18 31 1 (by decide)).trans rfl)))
  have h3 : seg (encode (.fsgnj d a b p)) 18 6 = d := (seg_off _ p 4 18 6 (by decide)).trans ((seg_off _ b 6 18 6 (by decide)).trans ((seg_off _ a 12 18 6 (by decide)).trans (seg_hit _ d 18 rfl (by decide))))
  have h4 : seg (encode (.fsgnj d a b p)) 12 6 = a := (seg_off _ p 4 12 6 (by decide)).trans ((seg_off _ b 6 12 6 (by decide)).trans (seg_hit _ a 12 ((seg_off _ d 18 12 6 (by decide)).trans rfl) (by decide)))
  have h5 : seg (encode (.fsgnj d a b p)) 6 6 = b := (seg_off _ p 4 6 6 (by decide)).trans (seg_hit _ b 6 ((seg_off _ a 12 6 6 (by decide)).trans ((seg_off _ d 18 6 6 (by decide)).trans rfl)) (by decide))
  have h6 : seg (encode (.fsgnj d a b p)) 4 2 = p := seg_hit _ p 4 ((seg_off _ b 6 4 2 (by decide)).trans ((seg_off _ a 12 4 2 (by decide)).trans ((seg_off _ d 18 4 2 (by decide)).trans rfl))) (by decide)
  exact decode_of (form0F m (by simp [decode0F, h1, h2, h3, h4, h5, h6]))
theorem RoundTrip.fsgnjn (d : BitVec 6) (a : BitVec 6) (b : BitVec 6) (p : BitVec 2) : RoundTrip.Statement (.fsgnjn d a b p) := by
  have m : seg (encode (.fsgnjn d a b p)) 24 7 = 15#7 := (seg_off _ p 4 24 7 (by decide)).trans ((seg_off _ b 6 24 7 (by decide)).trans ((seg_off _ a 12 24 7 (by decide)).trans ((seg_off _ d 18 24 7 (by decide)).trans rfl)))
  have h1 : seg (encode (.fsgnjn d a b p)) 0 4 = 12#4 := (seg_off _ p 4 0 4 (by decide)).trans ((seg_off _ b 6 0 4 (by decide)).trans ((seg_off _ a 12 0 4 (by decide)).trans ((seg_off _ d 18 0 4 (by decide)).trans rfl)))
  have h2 : seg (encode (.fsgnjn d a b p)) 31 1 = 0#1 := (seg_off _ p 4 31 1 (by decide)).trans ((seg_off _ b 6 31 1 (by decide)).trans ((seg_off _ a 12 31 1 (by decide)).trans ((seg_off _ d 18 31 1 (by decide)).trans rfl)))
  have h3 : seg (encode (.fsgnjn d a b p)) 18 6 = d := (seg_off _ p 4 18 6 (by decide)).trans ((seg_off _ b 6 18 6 (by decide)).trans ((seg_off _ a 12 18 6 (by decide)).trans (seg_hit _ d 18 rfl (by decide))))
  have h4 : seg (encode (.fsgnjn d a b p)) 12 6 = a := (seg_off _ p 4 12 6 (by decide)).trans ((seg_off _ b 6 12 6 (by decide)).trans (seg_hit _ a 12 ((seg_off _ d 18 12 6 (by decide)).trans rfl) (by decide)))
  have h5 : seg (encode (.fsgnjn d a b p)) 6 6 = b := (seg_off _ p 4 6 6 (by decide)).trans (seg_hit _ b 6 ((seg_off _ a 12 6 6 (by decide)).trans ((seg_off _ d 18 6 6 (by decide)).trans rfl)) (by decide))
  have h6 : seg (encode (.fsgnjn d a b p)) 4 2 = p := seg_hit _ p 4 ((seg_off _ b 6 4 2 (by decide)).trans ((seg_off _ a 12 4 2 (by decide)).trans ((seg_off _ d 18 4 2 (by decide)).trans rfl))) (by decide)
  exact decode_of (form0F m (by simp [decode0F, h1, h2, h3, h4, h5, h6]))
theorem RoundTrip.fsgnjx (d : BitVec 6) (a : BitVec 6) (b : BitVec 6) (p : BitVec 2) : RoundTrip.Statement (.fsgnjx d a b p) := by
  have m : seg (encode (.fsgnjx d a b p)) 24 7 = 15#7 := (seg_off _ p 4 24 7 (by decide)).trans ((seg_off _ b 6 24 7 (by decide)).trans ((seg_off _ a 12 24 7 (by decide)).trans ((seg_off _ d 18 24 7 (by decide)).trans rfl)))
  have h1 : seg (encode (.fsgnjx d a b p)) 0 4 = 13#4 := (seg_off _ p 4 0 4 (by decide)).trans ((seg_off _ b 6 0 4 (by decide)).trans ((seg_off _ a 12 0 4 (by decide)).trans ((seg_off _ d 18 0 4 (by decide)).trans rfl)))
  have h2 : seg (encode (.fsgnjx d a b p)) 31 1 = 0#1 := (seg_off _ p 4 31 1 (by decide)).trans ((seg_off _ b 6 31 1 (by decide)).trans ((seg_off _ a 12 31 1 (by decide)).trans ((seg_off _ d 18 31 1 (by decide)).trans rfl)))
  have h3 : seg (encode (.fsgnjx d a b p)) 18 6 = d := (seg_off _ p 4 18 6 (by decide)).trans ((seg_off _ b 6 18 6 (by decide)).trans ((seg_off _ a 12 18 6 (by decide)).trans (seg_hit _ d 18 rfl (by decide))))
  have h4 : seg (encode (.fsgnjx d a b p)) 12 6 = a := (seg_off _ p 4 12 6 (by decide)).trans ((seg_off _ b 6 12 6 (by decide)).trans (seg_hit _ a 12 ((seg_off _ d 18 12 6 (by decide)).trans rfl) (by decide)))
  have h5 : seg (encode (.fsgnjx d a b p)) 6 6 = b := (seg_off _ p 4 6 6 (by decide)).trans (seg_hit _ b 6 ((seg_off _ a 12 6 6 (by decide)).trans ((seg_off _ d 18 6 6 (by decide)).trans rfl)) (by decide))
  have h6 : seg (encode (.fsgnjx d a b p)) 4 2 = p := seg_hit _ p 4 ((seg_off _ b 6 4 2 (by decide)).trans ((seg_off _ a 12 4 2 (by decide)).trans ((seg_off _ d 18 4 2 (by decide)).trans rfl))) (by decide)
  exact decode_of (form0F m (by simp [decode0F, h1, h2, h3, h4, h5, h6]))
theorem RoundTrip.fcvtif (d : BitVec 6) (a : BitVec 6) (r : BitVec 3) (t : BitVec 2) (p : BitVec 2) : RoundTrip.Statement (.fcvtif d a r t p) := by
  have m : seg (encode (.fcvtif d a r t p)) 24 7 = 15#7 := (seg_off _ p 4 24 7 (by decide)).trans ((seg_off _ t 6 24 7 (by decide)).trans ((seg_off _ r 9 24 7 (by decide)).trans ((seg_off _ a 12 24 7 (by decide)).trans ((seg_off _ d 18 24 7 (by decide)).trans rfl))))
  have h1 : seg (encode (.fcvtif d a r t p)) 0 4 = 14#4 := (seg_off _ p 4 0 4 (by decide)).trans ((seg_off _ t 6 0 4 (by decide)).trans ((seg_off _ r 9 0 4 (by decide)).trans ((seg_off _ a 12 0 4 (by decide)).trans ((seg_off _ d 18 0 4 (by decide)).trans rfl))))
  have h2 : seg (encode (.fcvtif d a r t p)) 8 1 = 0#1 := (seg_off _ p 4 8 1 (by decide)).trans ((seg_off _ t 6 8 1 (by decide)).trans ((seg_off _ r 9 8 1 (by decide)).trans ((seg_off _ a 12 8 1 (by decide)).trans ((seg_off _ d 18 8 1 (by decide)).trans rfl))))
  have h3 : seg (encode (.fcvtif d a r t p)) 31 1 = 0#1 := (seg_off _ p 4 31 1 (by decide)).trans ((seg_off _ t 6 31 1 (by decide)).trans ((seg_off _ r 9 31 1 (by decide)).trans ((seg_off _ a 12 31 1 (by decide)).trans ((seg_off _ d 18 31 1 (by decide)).trans rfl))))
  have h4 : seg (encode (.fcvtif d a r t p)) 18 6 = d := (seg_off _ p 4 18 6 (by decide)).trans ((seg_off _ t 6 18 6 (by decide)).trans ((seg_off _ r 9 18 6 (by decide)).trans ((seg_off _ a 12 18 6 (by decide)).trans (seg_hit _ d 18 rfl (by decide)))))
  have h5 : seg (encode (.fcvtif d a r t p)) 12 6 = a := (seg_off _ p 4 12 6 (by decide)).trans ((seg_off _ t 6 12 6 (by decide)).trans ((seg_off _ r 9 12 6 (by decide)).trans (seg_hit _ a 12 ((seg_off _ d 18 12 6 (by decide)).trans rfl) (by decide))))
  have h6 : seg (encode (.fcvtif d a r t p)) 9 3 = r := (seg_off _ p 4 9 3 (by decide)).trans ((seg_off _ t 6 9 3 (by decide)).trans (seg_hit _ r 9 ((seg_off _ a 12 9 3 (by decide)).trans ((seg_off _ d 18 9 3 (by decide)).trans rfl)) (by decide)))
  have h7 : seg (encode (.fcvtif d a r t p)) 6 2 = t := (seg_off _ p 4 6 2 (by decide)).trans (seg_hit _ t 6 ((seg_off _ r 9 6 2 (by decide)).trans ((seg_off _ a 12 6 2 (by decide)).trans ((seg_off _ d 18 6 2 (by decide)).trans rfl))) (by decide))
  have h8 : seg (encode (.fcvtif d a r t p)) 4 2 = p := seg_hit _ p 4 ((seg_off _ t 6 4 2 (by decide)).trans ((seg_off _ r 9 4 2 (by decide)).trans ((seg_off _ a 12 4 2 (by decide)).trans ((seg_off _ d 18 4 2 (by decide)).trans rfl)))) (by decide)
  exact decode_of (form0F m (by simp [decode0F, h1, h2, h3, h4, h5, h6, h7, h8]))
theorem RoundTrip.fcvtfi (d : BitVec 6) (a : BitVec 6) (r : BitVec 3) (t : BitVec 2) (p : BitVec 2) : RoundTrip.Statement (.fcvtfi d a r t p) := by
  have m : seg (encode (.fcvtfi d a r t p)) 24 7 = 15#7 := (seg_off _ p 4 24 7 (by decide)).trans ((seg_off _ t 6 24 7 (by decide)).trans ((seg_off _ r 9 24 7 (by decide)).trans ((seg_off _ a 12 24 7 (by decide)).trans ((seg_off _ d 18 24 7 (by decide)).trans rfl))))
  have h1 : seg (encode (.fcvtfi d a r t p)) 0 4 = 14#4 := (seg_off _ p 4 0 4 (by decide)).trans ((seg_off _ t 6 0 4 (by decide)).trans ((seg_off _ r 9 0 4 (by decide)).trans ((seg_off _ a 12 0 4 (by decide)).trans ((seg_off _ d 18 0 4 (by decide)).trans rfl))))
  have h2 : seg (encode (.fcvtfi d a r t p)) 8 1 = 1#1 := (seg_off _ p 4 8 1 (by decide)).trans ((seg_off _ t 6 8 1 (by decide)).trans ((seg_off _ r 9 8 1 (by decide)).trans ((seg_off _ a 12 8 1 (by decide)).trans ((seg_off _ d 18 8 1 (by decide)).trans rfl))))
  have h3 : seg (encode (.fcvtfi d a r t p)) 31 1 = 0#1 := (seg_off _ p 4 31 1 (by decide)).trans ((seg_off _ t 6 31 1 (by decide)).trans ((seg_off _ r 9 31 1 (by decide)).trans ((seg_off _ a 12 31 1 (by decide)).trans ((seg_off _ d 18 31 1 (by decide)).trans rfl))))
  have h4 : seg (encode (.fcvtfi d a r t p)) 18 6 = d := (seg_off _ p 4 18 6 (by decide)).trans ((seg_off _ t 6 18 6 (by decide)).trans ((seg_off _ r 9 18 6 (by decide)).trans ((seg_off _ a 12 18 6 (by decide)).trans (seg_hit _ d 18 rfl (by decide)))))
  have h5 : seg (encode (.fcvtfi d a r t p)) 12 6 = a := (seg_off _ p 4 12 6 (by decide)).trans ((seg_off _ t 6 12 6 (by decide)).trans ((seg_off _ r 9 12 6 (by decide)).trans (seg_hit _ a 12 ((seg_off _ d 18 12 6 (by decide)).trans rfl) (by decide))))
  have h6 : seg (encode (.fcvtfi d a r t p)) 9 3 = r := (seg_off _ p 4 9 3 (by decide)).trans ((seg_off _ t 6 9 3 (by decide)).trans (seg_hit _ r 9 ((seg_off _ a 12 9 3 (by decide)).trans ((seg_off _ d 18 9 3 (by decide)).trans rfl)) (by decide)))
  have h7 : seg (encode (.fcvtfi d a r t p)) 6 2 = t := (seg_off _ p 4 6 2 (by decide)).trans (seg_hit _ t 6 ((seg_off _ r 9 6 2 (by decide)).trans ((seg_off _ a 12 6 2 (by decide)).trans ((seg_off _ d 18 6 2 (by decide)).trans rfl))) (by decide))
  have h8 : seg (encode (.fcvtfi d a r t p)) 4 2 = p := seg_hit _ p 4 ((seg_off _ t 6 4 2 (by decide)).trans ((seg_off _ r 9 4 2 (by decide)).trans ((seg_off _ a 12 4 2 (by decide)).trans ((seg_off _ d 18 4 2 (by decide)).trans rfl)))) (by decide)
  exact decode_of (form0F m (by simp [decode0F, h1, h2, h3, h4, h5, h6, h7, h8]))
theorem RoundTrip.fcvtff (d : BitVec 6) (a : BitVec 6) (r : BitVec 3) (sf : BitVec 2) (p : BitVec 2) : RoundTrip.Statement (.fcvtff d a r sf p) := by
  have m : seg (encode (.fcvtff d a r sf p)) 24 7 = 15#7 := (seg_off _ p 4 24 7 (by decide)).trans ((seg_off _ sf 7 24 7 (by decide)).trans ((seg_off _ r 9 24 7 (by decide)).trans ((seg_off _ a 12 24 7 (by decide)).trans ((seg_off _ d 18 24 7 (by decide)).trans rfl))))
  have h1 : seg (encode (.fcvtff d a r sf p)) 0 4 = 15#4 := (seg_off _ p 4 0 4 (by decide)).trans ((seg_off _ sf 7 0 4 (by decide)).trans ((seg_off _ r 9 0 4 (by decide)).trans ((seg_off _ a 12 0 4 (by decide)).trans ((seg_off _ d 18 0 4 (by decide)).trans rfl))))
  have h2 : seg (encode (.fcvtff d a r sf p)) 6 1 = 0#1 := (seg_off _ p 4 6 1 (by decide)).trans ((seg_off _ sf 7 6 1 (by decide)).trans ((seg_off _ r 9 6 1 (by decide)).trans ((seg_off _ a 12 6 1 (by decide)).trans ((seg_off _ d 18 6 1 (by decide)).trans rfl))))
  have h3 : seg (encode (.fcvtff d a r sf p)) 31 1 = 0#1 := (seg_off _ p 4 31 1 (by decide)).trans ((seg_off _ sf 7 31 1 (by decide)).trans ((seg_off _ r 9 31 1 (by decide)).trans ((seg_off _ a 12 31 1 (by decide)).trans ((seg_off _ d 18 31 1 (by decide)).trans rfl))))
  have h4 : seg (encode (.fcvtff d a r sf p)) 18 6 = d := (seg_off _ p 4 18 6 (by decide)).trans ((seg_off _ sf 7 18 6 (by decide)).trans ((seg_off _ r 9 18 6 (by decide)).trans ((seg_off _ a 12 18 6 (by decide)).trans (seg_hit _ d 18 rfl (by decide)))))
  have h5 : seg (encode (.fcvtff d a r sf p)) 12 6 = a := (seg_off _ p 4 12 6 (by decide)).trans ((seg_off _ sf 7 12 6 (by decide)).trans ((seg_off _ r 9 12 6 (by decide)).trans (seg_hit _ a 12 ((seg_off _ d 18 12 6 (by decide)).trans rfl) (by decide))))
  have h6 : seg (encode (.fcvtff d a r sf p)) 9 3 = r := (seg_off _ p 4 9 3 (by decide)).trans ((seg_off _ sf 7 9 3 (by decide)).trans (seg_hit _ r 9 ((seg_off _ a 12 9 3 (by decide)).trans ((seg_off _ d 18 9 3 (by decide)).trans rfl)) (by decide)))
  have h7 : seg (encode (.fcvtff d a r sf p)) 7 2 = sf := (seg_off _ p 4 7 2 (by decide)).trans (seg_hit _ sf 7 ((seg_off _ r 9 7 2 (by decide)).trans ((seg_off _ a 12 7 2 (by decide)).trans ((seg_off _ d 18 7 2 (by decide)).trans rfl))) (by decide))
  have h8 : seg (encode (.fcvtff d a r sf p)) 4 2 = p := seg_hit _ p 4 ((seg_off _ sf 7 4 2 (by decide)).trans ((seg_off _ r 9 4 2 (by decide)).trans ((seg_off _ a 12 4 2 (by decide)).trans ((seg_off _ d 18 4 2 (by decide)).trans rfl)))) (by decide)
  exact decode_of (form0F m (by simp [decode0F, h1, h2, h3, h4, h5, h6, h7, h8]))
theorem RoundTrip.fmadd (d : BitVec 6) (a : BitVec 6) (b : BitVec 6) (p : BitVec 2) : RoundTrip.Statement (.fmadd d a b p) := by
  have m : seg (encode (.fmadd d a b p)) 24 7 = 16#7 := (seg_off _ p 4 24 7 (by decide)).trans ((seg_off _ b 6 24 7 (by decide)).trans ((seg_off _ a 12 24 7 (by decide)).trans ((seg_off _ d 18 24 7 (by decide)).trans rfl)))
  have h1 : seg (encode (.fmadd d a b p)) 0 4 = 0#4 := (seg_off _ p 4 0 4 (by decide)).trans ((seg_off _ b 6 0 4 (by decide)).trans ((seg_off _ a 12 0 4 (by decide)).trans ((seg_off _ d 18 0 4 (by decide)).trans rfl)))
  have h2 : seg (encode (.fmadd d a b p)) 31 1 = 0#1 := (seg_off _ p 4 31 1 (by decide)).trans ((seg_off _ b 6 31 1 (by decide)).trans ((seg_off _ a 12 31 1 (by decide)).trans ((seg_off _ d 18 31 1 (by decide)).trans rfl)))
  have h3 : seg (encode (.fmadd d a b p)) 18 6 = d := (seg_off _ p 4 18 6 (by decide)).trans ((seg_off _ b 6 18 6 (by decide)).trans ((seg_off _ a 12 18 6 (by decide)).trans (seg_hit _ d 18 rfl (by decide))))
  have h4 : seg (encode (.fmadd d a b p)) 12 6 = a := (seg_off _ p 4 12 6 (by decide)).trans ((seg_off _ b 6 12 6 (by decide)).trans (seg_hit _ a 12 ((seg_off _ d 18 12 6 (by decide)).trans rfl) (by decide)))
  have h5 : seg (encode (.fmadd d a b p)) 6 6 = b := (seg_off _ p 4 6 6 (by decide)).trans (seg_hit _ b 6 ((seg_off _ a 12 6 6 (by decide)).trans ((seg_off _ d 18 6 6 (by decide)).trans rfl)) (by decide))
  have h6 : seg (encode (.fmadd d a b p)) 4 2 = p := seg_hit _ p 4 ((seg_off _ b 6 4 2 (by decide)).trans ((seg_off _ a 12 4 2 (by decide)).trans ((seg_off _ d 18 4 2 (by decide)).trans rfl))) (by decide)
  exact decode_of (form10 m (by simp [decode10, h1, h2, h3, h4, h5, h6]))
theorem RoundTrip.fmsub (d : BitVec 6) (a : BitVec 6) (b : BitVec 6) (p : BitVec 2) : RoundTrip.Statement (.fmsub d a b p) := by
  have m : seg (encode (.fmsub d a b p)) 24 7 = 16#7 := (seg_off _ p 4 24 7 (by decide)).trans ((seg_off _ b 6 24 7 (by decide)).trans ((seg_off _ a 12 24 7 (by decide)).trans ((seg_off _ d 18 24 7 (by decide)).trans rfl)))
  have h1 : seg (encode (.fmsub d a b p)) 0 4 = 4#4 := (seg_off _ p 4 0 4 (by decide)).trans ((seg_off _ b 6 0 4 (by decide)).trans ((seg_off _ a 12 0 4 (by decide)).trans ((seg_off _ d 18 0 4 (by decide)).trans rfl)))
  have h2 : seg (encode (.fmsub d a b p)) 31 1 = 0#1 := (seg_off _ p 4 31 1 (by decide)).trans ((seg_off _ b 6 31 1 (by decide)).trans ((seg_off _ a 12 31 1 (by decide)).trans ((seg_off _ d 18 31 1 (by decide)).trans rfl)))
  have h3 : seg (encode (.fmsub d a b p)) 18 6 = d := (seg_off _ p 4 18 6 (by decide)).trans ((seg_off _ b 6 18 6 (by decide)).trans ((seg_off _ a 12 18 6 (by decide)).trans (seg_hit _ d 18 rfl (by decide))))
  have h4 : seg (encode (.fmsub d a b p)) 12 6 = a := (seg_off _ p 4 12 6 (by decide)).trans ((seg_off _ b 6 12 6 (by decide)).trans (seg_hit _ a 12 ((seg_off _ d 18 12 6 (by decide)).trans rfl) (by decide)))
  have h5 : seg (encode (.fmsub d a b p)) 6 6 = b := (seg_off _ p 4 6 6 (by decide)).trans (seg_hit _ b 6 ((seg_off _ a 12 6 6 (by decide)).trans ((seg_off _ d 18 6 6 (by decide)).trans rfl)) (by decide))
  have h6 : seg (encode (.fmsub d a b p)) 4 2 = p := seg_hit _ p 4 ((seg_off _ b 6 4 2 (by decide)).trans ((seg_off _ a 12 4 2 (by decide)).trans ((seg_off _ d 18 4 2 (by decide)).trans rfl))) (by decide)
  exact decode_of (form10 m (by simp [decode10, h1, h2, h3, h4, h5, h6]))
theorem RoundTrip.fnmadd (d : BitVec 6) (a : BitVec 6) (b : BitVec 6) (p : BitVec 2) : RoundTrip.Statement (.fnmadd d a b p) := by
  have m : seg (encode (.fnmadd d a b p)) 24 7 = 16#7 := (seg_off _ p 4 24 7 (by decide)).trans ((seg_off _ b 6 24 7 (by decide)).trans ((seg_off _ a 12 24 7 (by decide)).trans ((seg_off _ d 18 24 7 (by decide)).trans rfl)))
  have h1 : seg (encode (.fnmadd d a b p)) 0 4 = 8#4 := (seg_off _ p 4 0 4 (by decide)).trans ((seg_off _ b 6 0 4 (by decide)).trans ((seg_off _ a 12 0 4 (by decide)).trans ((seg_off _ d 18 0 4 (by decide)).trans rfl)))
  have h2 : seg (encode (.fnmadd d a b p)) 31 1 = 0#1 := (seg_off _ p 4 31 1 (by decide)).trans ((seg_off _ b 6 31 1 (by decide)).trans ((seg_off _ a 12 31 1 (by decide)).trans ((seg_off _ d 18 31 1 (by decide)).trans rfl)))
  have h3 : seg (encode (.fnmadd d a b p)) 18 6 = d := (seg_off _ p 4 18 6 (by decide)).trans ((seg_off _ b 6 18 6 (by decide)).trans ((seg_off _ a 12 18 6 (by decide)).trans (seg_hit _ d 18 rfl (by decide))))
  have h4 : seg (encode (.fnmadd d a b p)) 12 6 = a := (seg_off _ p 4 12 6 (by decide)).trans ((seg_off _ b 6 12 6 (by decide)).trans (seg_hit _ a 12 ((seg_off _ d 18 12 6 (by decide)).trans rfl) (by decide)))
  have h5 : seg (encode (.fnmadd d a b p)) 6 6 = b := (seg_off _ p 4 6 6 (by decide)).trans (seg_hit _ b 6 ((seg_off _ a 12 6 6 (by decide)).trans ((seg_off _ d 18 6 6 (by decide)).trans rfl)) (by decide))
  have h6 : seg (encode (.fnmadd d a b p)) 4 2 = p := seg_hit _ p 4 ((seg_off _ b 6 4 2 (by decide)).trans ((seg_off _ a 12 4 2 (by decide)).trans ((seg_off _ d 18 4 2 (by decide)).trans rfl))) (by decide)
  exact decode_of (form10 m (by simp [decode10, h1, h2, h3, h4, h5, h6]))
theorem RoundTrip.fnmsub (d : BitVec 6) (a : BitVec 6) (b : BitVec 6) (p : BitVec 2) : RoundTrip.Statement (.fnmsub d a b p) := by
  have m : seg (encode (.fnmsub d a b p)) 24 7 = 16#7 := (seg_off _ p 4 24 7 (by decide)).trans ((seg_off _ b 6 24 7 (by decide)).trans ((seg_off _ a 12 24 7 (by decide)).trans ((seg_off _ d 18 24 7 (by decide)).trans rfl)))
  have h1 : seg (encode (.fnmsub d a b p)) 0 4 = 12#4 := (seg_off _ p 4 0 4 (by decide)).trans ((seg_off _ b 6 0 4 (by decide)).trans ((seg_off _ a 12 0 4 (by decide)).trans ((seg_off _ d 18 0 4 (by decide)).trans rfl)))
  have h2 : seg (encode (.fnmsub d a b p)) 31 1 = 0#1 := (seg_off _ p 4 31 1 (by decide)).trans ((seg_off _ b 6 31 1 (by decide)).trans ((seg_off _ a 12 31 1 (by decide)).trans ((seg_off _ d 18 31 1 (by decide)).trans rfl)))
  have h3 : seg (encode (.fnmsub d a b p)) 18 6 = d := (seg_off _ p 4 18 6 (by decide)).trans ((seg_off _ b 6 18 6 (by decide)).trans ((seg_off _ a 12 18 6 (by decide)).trans (seg_hit _ d 18 rfl (by decide))))
  have h4 : seg (encode (.fnmsub d a b p)) 12 6 = a := (seg_off _ p 4 12 6 (by decide)).trans ((seg_off _ b 6 12 6 (by decide)).trans (seg_hit _ a 12 ((seg_off _ d 18 12 6 (by decide)).trans rfl) (by decide)))
  have h5 : seg (encode (.fnmsub d a b p)) 6 6 = b := (seg_off _ p 4 6 6 (by decide)).trans (seg_hit _ b 6 ((seg_off _ a 12 6 6 (by decide)).trans ((seg_off _ d 18 6 6 (by decide)).trans rfl)) (by decide))
  have h6 : seg (encode (.fnmsub d a b p)) 4 2 = p := seg_hit _ p 4 ((seg_off _ b 6 4 2 (by decide)).trans ((seg_off _ a 12 4 2 (by decide)).trans ((seg_off _ d 18 4 2 (by decide)).trans rfl))) (by decide)
  exact decode_of (form10 m (by simp [decode10, h1, h2, h3, h4, h5, h6]))
theorem RoundTrip.beq (a : BitVec 6) (b : BitVec 6) (o : BitVec 12) : RoundTrip.Statement (.beq a b o) := by
  have m : seg (encode (.beq a b o)) 24 7 = 17#7 := (seg_off _ o 0 24 7 (by decide)).trans ((seg_off _ b 12 24 7 (by decide)).trans ((seg_off _ a 18 24 7 (by decide)).trans rfl))
  have h1 : seg (encode (.beq a b o)) 31 1 = 0#1 := (seg_off _ o 0 31 1 (by decide)).trans ((seg_off _ b 12 31 1 (by decide)).trans ((seg_off _ a 18 31 1 (by decide)).trans rfl))
  have h2 : seg (encode (.beq a b o)) 18 6 = a := (seg_off _ o 0 18 6 (by decide)).trans ((seg_off _ b 12 18 6 (by decide)).trans (seg_hit _ a 18 rfl (by decide)))
  have h3 : seg (encode (.beq a b o)) 12 6 = b := (seg_off _ o 0 12 6 (by decide)).trans (seg_hit _ b 12 ((seg_off _ a 18 12 6 (by decide)).trans rfl) (by decide))
  have h4 : seg (encode (.beq a b o)) 0 12 = o := seg_hit _ o 0 ((seg_off _ b 12 0 12 (by decide)).trans ((seg_off _ a 18 0 12 (by decide)).trans rfl)) (by decide)
  exact decode_of (form11 m (by simp [decode11, h1, h2, h3, h4]))
theorem RoundTrip.bne (a : BitVec 6) (b : BitVec 6) (o : BitVec 12) : RoundTrip.Statement (.bne a b o) := by
  have m : seg (encode (.bne a b o)) 24 7 = 18#7 := (seg_off _ o 0 24 7 (by decide)).trans ((seg_off _ b 12 24 7 (by decide)).trans ((seg_off _ a 18 24 7 (by decide)).trans rfl))
  have h1 : seg (encode (.bne a b o)) 31 1 = 0#1 := (seg_off _ o 0 31 1 (by decide)).trans ((seg_off _ b 12 31 1 (by decide)).trans ((seg_off _ a 18 31 1 (by decide)).trans rfl))
  have h2 : seg (encode (.bne a b o)) 18 6 = a := (seg_off _ o 0 18 6 (by decide)).trans ((seg_off _ b 12 18 6 (by decide)).trans (seg_hit _ a 18 rfl (by decide)))
  have h3 : seg (encode (.bne a b o)) 12 6 = b := (seg_off _ o 0 12 6 (by decide)).trans (seg_hit _ b 12 ((seg_off _ a 18 12 6 (by decide)).trans rfl) (by decide))
  have h4 : seg (encode (.bne a b o)) 0 12 = o := seg_hit _ o 0 ((seg_off _ b 12 0 12 (by decide)).trans ((seg_off _ a 18 0 12 (by decide)).trans rfl)) (by decide)
  exact decode_of (form12 m (by simp [decode12, h1, h2, h3, h4]))
theorem RoundTrip.blt (a : BitVec 6) (b : BitVec 6) (o : BitVec 12) : RoundTrip.Statement (.blt a b o) := by
  have m : seg (encode (.blt a b o)) 24 7 = 19#7 := (seg_off _ o 0 24 7 (by decide)).trans ((seg_off _ b 12 24 7 (by decide)).trans ((seg_off _ a 18 24 7 (by decide)).trans rfl))
  have h1 : seg (encode (.blt a b o)) 31 1 = 0#1 := (seg_off _ o 0 31 1 (by decide)).trans ((seg_off _ b 12 31 1 (by decide)).trans ((seg_off _ a 18 31 1 (by decide)).trans rfl))
  have h2 : seg (encode (.blt a b o)) 18 6 = a := (seg_off _ o 0 18 6 (by decide)).trans ((seg_off _ b 12 18 6 (by decide)).trans (seg_hit _ a 18 rfl (by decide)))
  have h3 : seg (encode (.blt a b o)) 12 6 = b := (seg_off _ o 0 12 6 (by decide)).trans (seg_hit _ b 12 ((seg_off _ a 18 12 6 (by decide)).trans rfl) (by decide))
  have h4 : seg (encode (.blt a b o)) 0 12 = o := seg_hit _ o 0 ((seg_off _ b 12 0 12 (by decide)).trans ((seg_off _ a 18 0 12 (by decide)).trans rfl)) (by decide)
  exact decode_of (form13 m (by simp [decode13, h1, h2, h3, h4]))
theorem RoundTrip.bge (a : BitVec 6) (b : BitVec 6) (o : BitVec 12) : RoundTrip.Statement (.bge a b o) := by
  have m : seg (encode (.bge a b o)) 24 7 = 20#7 := (seg_off _ o 0 24 7 (by decide)).trans ((seg_off _ b 12 24 7 (by decide)).trans ((seg_off _ a 18 24 7 (by decide)).trans rfl))
  have h1 : seg (encode (.bge a b o)) 31 1 = 0#1 := (seg_off _ o 0 31 1 (by decide)).trans ((seg_off _ b 12 31 1 (by decide)).trans ((seg_off _ a 18 31 1 (by decide)).trans rfl))
  have h2 : seg (encode (.bge a b o)) 18 6 = a := (seg_off _ o 0 18 6 (by decide)).trans ((seg_off _ b 12 18 6 (by decide)).trans (seg_hit _ a 18 rfl (by decide)))
  have h3 : seg (encode (.bge a b o)) 12 6 = b := (seg_off _ o 0 12 6 (by decide)).trans (seg_hit _ b 12 ((seg_off _ a 18 12 6 (by decide)).trans rfl) (by decide))
  have h4 : seg (encode (.bge a b o)) 0 12 = o := seg_hit _ o 0 ((seg_off _ b 12 0 12 (by decide)).trans ((seg_off _ a 18 0 12 (by decide)).trans rfl)) (by decide)
  exact decode_of (form14 m (by simp [decode14, h1, h2, h3, h4]))
theorem RoundTrip.bltu (a : BitVec 6) (b : BitVec 6) (o : BitVec 12) : RoundTrip.Statement (.bltu a b o) := by
  have m : seg (encode (.bltu a b o)) 24 7 = 21#7 := (seg_off _ o 0 24 7 (by decide)).trans ((seg_off _ b 12 24 7 (by decide)).trans ((seg_off _ a 18 24 7 (by decide)).trans rfl))
  have h1 : seg (encode (.bltu a b o)) 31 1 = 0#1 := (seg_off _ o 0 31 1 (by decide)).trans ((seg_off _ b 12 31 1 (by decide)).trans ((seg_off _ a 18 31 1 (by decide)).trans rfl))
  have h2 : seg (encode (.bltu a b o)) 18 6 = a := (seg_off _ o 0 18 6 (by decide)).trans ((seg_off _ b 12 18 6 (by decide)).trans (seg_hit _ a 18 rfl (by decide)))
  have h3 : seg (encode (.bltu a b o)) 12 6 = b := (seg_off _ o 0 12 6 (by decide)).trans (seg_hit _ b 12 ((seg_off _ a 18 12 6 (by decide)).trans rfl) (by decide))
  have h4 : seg (encode (.bltu a b o)) 0 12 = o := seg_hit _ o 0 ((seg_off _ b 12 0 12 (by decide)).trans ((seg_off _ a 18 0 12 (by decide)).trans rfl)) (by decide)
  exact decode_of (form15 m (by simp [decode15, h1, h2, h3, h4]))
theorem RoundTrip.bgeu (a : BitVec 6) (b : BitVec 6) (o : BitVec 12) : RoundTrip.Statement (.bgeu a b o) := by
  have m : seg (encode (.bgeu a b o)) 24 7 = 22#7 := (seg_off _ o 0 24 7 (by decide)).trans ((seg_off _ b 12 24 7 (by decide)).trans ((seg_off _ a 18 24 7 (by decide)).trans rfl))
  have h1 : seg (encode (.bgeu a b o)) 31 1 = 0#1 := (seg_off _ o 0 31 1 (by decide)).trans ((seg_off _ b 12 31 1 (by decide)).trans ((seg_off _ a 18 31 1 (by decide)).trans rfl))
  have h2 : seg (encode (.bgeu a b o)) 18 6 = a := (seg_off _ o 0 18 6 (by decide)).trans ((seg_off _ b 12 18 6 (by decide)).trans (seg_hit _ a 18 rfl (by decide)))
  have h3 : seg (encode (.bgeu a b o)) 12 6 = b := (seg_off _ o 0 12 6 (by decide)).trans (seg_hit _ b 12 ((seg_off _ a 18 12 6 (by decide)).trans rfl) (by decide))
  have h4 : seg (encode (.bgeu a b o)) 0 12 = o := seg_hit _ o 0 ((seg_off _ b 12 0 12 (by decide)).trans ((seg_off _ a 18 0 12 (by decide)).trans rfl)) (by decide)
  exact decode_of (form16 m (by simp [decode16, h1, h2, h3, h4]))
theorem RoundTrip.jal (d : BitVec 6) (o : BitVec 18) : RoundTrip.Statement (.jal d o) := by
  have m : seg (encode (.jal d o)) 24 7 = 23#7 := (seg_off _ o 0 24 7 (by decide)).trans ((seg_off _ d 18 24 7 (by decide)).trans rfl)
  have h1 : seg (encode (.jal d o)) 31 1 = 0#1 := (seg_off _ o 0 31 1 (by decide)).trans ((seg_off _ d 18 31 1 (by decide)).trans rfl)
  have h2 : seg (encode (.jal d o)) 18 6 = d := (seg_off _ o 0 18 6 (by decide)).trans (seg_hit _ d 18 rfl (by decide))
  have h3 : seg (encode (.jal d o)) 0 18 = o := seg_hit _ o 0 ((seg_off _ d 18 0 18 (by decide)).trans rfl) (by decide)
  exact decode_of (form17 m (by simp [decode17, h1, h2, h3]))
theorem RoundTrip.jalr (d : BitVec 6) (a : BitVec 6) (im : BitVec 12) : RoundTrip.Statement (.jalr d a im) := by
  have m : seg (encode (.jalr d a im)) 24 7 = 24#7 := (seg_off _ im 0 24 7 (by decide)).trans ((seg_off _ a 12 24 7 (by decide)).trans ((seg_off _ d 18 24 7 (by decide)).trans rfl))
  have h1 : seg (encode (.jalr d a im)) 31 1 = 0#1 := (seg_off _ im 0 31 1 (by decide)).trans ((seg_off _ a 12 31 1 (by decide)).trans ((seg_off _ d 18 31 1 (by decide)).trans rfl))
  have h2 : seg (encode (.jalr d a im)) 18 6 = d := (seg_off _ im 0 18 6 (by decide)).trans ((seg_off _ a 12 18 6 (by decide)).trans (seg_hit _ d 18 rfl (by decide)))
  have h3 : seg (encode (.jalr d a im)) 12 6 = a := (seg_off _ im 0 12 6 (by decide)).trans (seg_hit _ a 12 ((seg_off _ d 18 12 6 (by decide)).trans rfl) (by decide))
  have h4 : seg (encode (.jalr d a im)) 0 12 = im := seg_hit _ im 0 ((seg_off _ a 12 0 12 (by decide)).trans ((seg_off _ d 18 0 12 (by decide)).trans rfl)) (by decide)
  exact decode_of (form18 m (by simp [decode18, h1, h2, h3, h4]))
theorem RoundTrip.brvAny (m : BitVec 3) (o : BitVec 12) : RoundTrip.Statement (.brvAny m o) := by
  have m' : seg (encode (.brvAny m o)) 24 7 = 27#7 := (seg_off _ o 0 24 7 (by decide)).trans ((seg_off _ m 12 24 7 (by decide)).trans rfl)
  have h1 : seg (encode (.brvAny m o)) 15 9 = 0#9 := (seg_off _ o 0 15 9 (by decide)).trans ((seg_off _ m 12 15 9 (by decide)).trans rfl)
  have h2 : seg (encode (.brvAny m o)) 31 1 = 0#1 := (seg_off _ o 0 31 1 (by decide)).trans ((seg_off _ m 12 31 1 (by decide)).trans rfl)
  have h3 : seg (encode (.brvAny m o)) 12 3 = m := (seg_off _ o 0 12 3 (by decide)).trans (seg_hit _ m 12 rfl (by decide))
  have h4 : seg (encode (.brvAny m o)) 0 12 = o := seg_hit _ o 0 ((seg_off _ m 12 0 12 (by decide)).trans rfl) (by decide)
  exact decode_of (form1B m' (by simp [decode1B, h1, h2, h3, h4]))
theorem RoundTrip.brvNone (m : BitVec 3) (o : BitVec 12) : RoundTrip.Statement (.brvNone m o) := by
  have m' : seg (encode (.brvNone m o)) 24 7 = 27#7 := (seg_off _ o 0 24 7 (by decide)).trans ((seg_off _ m 12 24 7 (by decide)).trans rfl)
  have h1 : seg (encode (.brvNone m o)) 15 9 = 8#9 := (seg_off _ o 0 15 9 (by decide)).trans ((seg_off _ m 12 15 9 (by decide)).trans rfl)
  have h2 : seg (encode (.brvNone m o)) 31 1 = 0#1 := (seg_off _ o 0 31 1 (by decide)).trans ((seg_off _ m 12 31 1 (by decide)).trans rfl)
  have h3 : seg (encode (.brvNone m o)) 12 3 = m := (seg_off _ o 0 12 3 (by decide)).trans (seg_hit _ m 12 rfl (by decide))
  have h4 : seg (encode (.brvNone m o)) 0 12 = o := seg_hit _ o 0 ((seg_off _ m 12 0 12 (by decide)).trans rfl) (by decide)
  exact decode_of (form1B m' (by simp [decode1B, h1, h2, h3, h4]))
theorem RoundTrip.brvAll (m : BitVec 3) (o : BitVec 12) : RoundTrip.Statement (.brvAll m o) := by
  have m' : seg (encode (.brvAll m o)) 24 7 = 27#7 := (seg_off _ o 0 24 7 (by decide)).trans ((seg_off _ m 12 24 7 (by decide)).trans rfl)
  have h1 : seg (encode (.brvAll m o)) 15 9 = 16#9 := (seg_off _ o 0 15 9 (by decide)).trans ((seg_off _ m 12 15 9 (by decide)).trans rfl)
  have h2 : seg (encode (.brvAll m o)) 31 1 = 0#1 := (seg_off _ o 0 31 1 (by decide)).trans ((seg_off _ m 12 31 1 (by decide)).trans rfl)
  have h3 : seg (encode (.brvAll m o)) 12 3 = m := (seg_off _ o 0 12 3 (by decide)).trans (seg_hit _ m 12 rfl (by decide))
  have h4 : seg (encode (.brvAll m o)) 0 12 = o := seg_hit _ o 0 ((seg_off _ m 12 0 12 (by decide)).trans rfl) (by decide)
  exact decode_of (form1B m' (by simp [decode1B, h1, h2, h3, h4]))
theorem RoundTrip.brvResolve (a0 : BitVec 11) : RoundTrip.Statement (.brvResolve a0) := nofun
theorem RoundTrip.csrrd (d : BitVec 6) (n : BitVec 10) : RoundTrip.Statement (.csrrd d n) := by
  have m : seg (encode (.csrrd d n)) 24 7 = 25#7 := (seg_off _ n 0 24 7 (by decide)).trans ((seg_off _ d 18 24 7 (by decide)).trans rfl)
  have h1 : seg (encode (.csrrd d n)) 10 2 = 0#2 := (seg_off _ n 0 10 2 (by decide)).trans ((seg_off _ d 18 10 2 (by decide)).trans rfl)
  have h2 : seg (encode (.csrrd d n)) 12 6 = 0#6 := (seg_off _ n 0 12 6 (by decide)).trans ((seg_off _ d 18 12 6 (by decide)).trans rfl)
  have h3 : seg (encode (.csrrd d n)) 31 1 = 0#1 := (seg_off _ n 0 31 1 (by decide)).trans ((seg_off _ d 18 31 1 (by decide)).trans rfl)
  have h4 : seg (encode (.csrrd d n)) 18 6 = d := (seg_off _ n 0 18 6 (by decide)).trans (seg_hit _ d 18 rfl (by decide))
  have h5 : seg (encode (.csrrd d n)) 0 10 = n := seg_hit _ n 0 ((seg_off _ d 18 0 10 (by decide)).trans rfl) (by decide)
  exact decode_of (form19 m (by simp [decode19, h1, h2, h3, h4, h5]))
theorem RoundTrip.csrwr (d : BitVec 6) (a : BitVec 6) (n : BitVec 10) : RoundTrip.Statement (.csrwr d a n) := by
  have m : seg (encode (.csrwr d a n)) 24 7 = 25#7 := (seg_off _ n 0 24 7 (by decide)).trans ((seg_off _ a 12 24 7 (by decide)).trans ((seg_off _ d 18 24 7 (by decide)).trans rfl))
  have h1 : seg (encode (.csrwr d a n)) 10 2 = 1#2 := (seg_off _ n 0 10 2 (by decide)).trans ((seg_off _ a 12 10 2 (by decide)).trans ((seg_off _ d 18 10 2 (by decide)).trans rfl))
  have h2 : seg (encode (.csrwr d a n)) 31 1 = 0#1 := (seg_off _ n 0 31 1 (by decide)).trans ((seg_off _ a 12 31 1 (by decide)).trans ((seg_off _ d 18 31 1 (by decide)).trans rfl))
  have h3 : seg (encode (.csrwr d a n)) 18 6 = d := (seg_off _ n 0 18 6 (by decide)).trans ((seg_off _ a 12 18 6 (by decide)).trans (seg_hit _ d 18 rfl (by decide)))
  have h4 : seg (encode (.csrwr d a n)) 12 6 = a := (seg_off _ n 0 12 6 (by decide)).trans (seg_hit _ a 12 ((seg_off _ d 18 12 6 (by decide)).trans rfl) (by decide))
  have h5 : seg (encode (.csrwr d a n)) 0 10 = n := seg_hit _ n 0 ((seg_off _ a 12 0 10 (by decide)).trans ((seg_off _ d 18 0 10 (by decide)).trans rfl)) (by decide)
  exact decode_of (form19 m (by simp [decode19, h1, h2, h3, h4, h5]))
theorem RoundTrip.csrbs (d : BitVec 6) (a : BitVec 6) (n : BitVec 10) : RoundTrip.Statement (.csrbs d a n) := by
  have m : seg (encode (.csrbs d a n)) 24 7 = 25#7 := (seg_off _ n 0 24 7 (by decide)).trans ((seg_off _ a 12 24 7 (by decide)).trans ((seg_off _ d 18 24 7 (by decide)).trans rfl))
  have h1 : seg (encode (.csrbs d a n)) 10 2 = 2#2 := (seg_off _ n 0 10 2 (by decide)).trans ((seg_off _ a 12 10 2 (by decide)).trans ((seg_off _ d 18 10 2 (by decide)).trans rfl))
  have h2 : seg (encode (.csrbs d a n)) 31 1 = 0#1 := (seg_off _ n 0 31 1 (by decide)).trans ((seg_off _ a 12 31 1 (by decide)).trans ((seg_off _ d 18 31 1 (by decide)).trans rfl))
  have h3 : seg (encode (.csrbs d a n)) 18 6 = d := (seg_off _ n 0 18 6 (by decide)).trans ((seg_off _ a 12 18 6 (by decide)).trans (seg_hit _ d 18 rfl (by decide)))
  have h4 : seg (encode (.csrbs d a n)) 12 6 = a := (seg_off _ n 0 12 6 (by decide)).trans (seg_hit _ a 12 ((seg_off _ d 18 12 6 (by decide)).trans rfl) (by decide))
  have h5 : seg (encode (.csrbs d a n)) 0 10 = n := seg_hit _ n 0 ((seg_off _ a 12 0 10 (by decide)).trans ((seg_off _ d 18 0 10 (by decide)).trans rfl)) (by decide)
  exact decode_of (form19 m (by simp [decode19, h1, h2, h3, h4, h5]))
theorem RoundTrip.csrbc (d : BitVec 6) (a : BitVec 6) (n : BitVec 10) : RoundTrip.Statement (.csrbc d a n) := by
  have m : seg (encode (.csrbc d a n)) 24 7 = 25#7 := (seg_off _ n 0 24 7 (by decide)).trans ((seg_off _ a 12 24 7 (by decide)).trans ((seg_off _ d 18 24 7 (by decide)).trans rfl))
  have h1 : seg (encode (.csrbc d a n)) 10 2 = 3#2 := (seg_off _ n 0 10 2 (by decide)).trans ((seg_off _ a 12 10 2 (by decide)).trans ((seg_off _ d 18 10 2 (by decide)).trans rfl))
  have h2 : seg (encode (.csrbc d a n)) 31 1 = 0#1 := (seg_off _ n 0 31 1 (by decide)).trans ((seg_off _ a 12 31 1 (by decide)).trans ((seg_off _ d 18 31 1 (by decide)).trans rfl))
  have h3 : seg (encode (.csrbc d a n)) 18 6 = d := (seg_off _ n 0 18 6 (by decide)).trans ((seg_off _ a 12 18 6 (by decide)).trans (seg_hit _ d 18 rfl (by decide)))
  have h4 : seg (encode (.csrbc d a n)) 12 6 = a := (seg_off _ n 0 12 6 (by decide)).trans (seg_hit _ a 12 ((seg_off _ d 18 12 6 (by decide)).trans rfl) (by decide))
  have h5 : seg (encode (.csrbc d a n)) 0 10 = n := seg_hit _ n 0 ((seg_off _ a 12 0 10 (by decide)).trans ((seg_off _ d 18 0 10 (by decide)).trans rfl)) (by decide)
  exact decode_of (form19 m (by simp [decode19, h1, h2, h3, h4, h5]))
theorem RoundTrip.svc (cv : BitVec 12) : RoundTrip.Statement (.svc cv) := by
  have m : seg (encode (.svc cv)) 24 7 = 26#7 := (seg_off _ cv 6 24 7 (by decide)).trans rfl
  have h1 : seg (encode (.svc cv)) 0 6 = 0#6 := (seg_off _ cv 6 0 6 (by decide)).trans rfl
  have h2 : seg (encode (.svc cv)) 18 6 = 0#6 := (seg_off _ cv 6 18 6 (by decide)).trans rfl
  have h3 : seg (encode (.svc cv)) 31 1 = 0#1 := (seg_off _ cv 6 31 1 (by decide)).trans rfl
  have h4 : seg (encode (.svc cv)) 6 12 = cv := seg_hit _ cv 6 rfl (by decide)
  exact decode_of (form1A m (by simp [decode1A, h1, h2, h3, h4]))
theorem RoundTrip.trap (a : BitVec 6) : RoundTrip.Statement (.trap a) := by
  have m : seg (encode (.trap a)) 24 7 = 26#7 := (seg_off _ a 12 24 7 (by decide)).trans rfl
  have h1 : seg (encode (.trap a)) 0 6 = 1#6 := (seg_off _ a 12 0 6 (by decide)).trans rfl
  have h2 : seg (encode (.trap a)) 6 6 = 0#6 := (seg_off _ a 12 6 6 (by decide)).trans rfl
  have h3 : seg (encode (.trap a)) 18 6 = 0#6 := (seg_off _ a 12 18 6 (by decide)).trans rfl
  have h4 : seg (encode (.trap a)) 31 1 = 0#1 := (seg_off _ a 12 31 1 (by decide)).trans rfl
  have h5 : seg (encode (.trap a)) 12 6 = a := seg_hit _ a 12 rfl (by decide)
  exact decode_of (form1A m (by simp [decode1A, h1, h2, h3, h4, h5]))
theorem RoundTrip.breakC (cv : BitVec 12) : RoundTrip.Statement (.breakC cv) := by
  have m : seg (encode (.breakC cv)) 24 7 = 26#7 := (seg_off _ cv 6 24 7 (by decide)).trans rfl
  have h1 : seg (encode (.breakC cv)) 0 6 = 2#6 := (seg_off _ cv 6 0 6 (by decide)).trans rfl
  have h2 : seg (encode (.breakC cv)) 18 6 = 0#6 := (seg_off _ cv 6 18 6 (by decide)).trans rfl
  have h3 : seg (encode (.breakC cv)) 31 1 = 0#1 := (seg_off _ cv 6 31 1 (by decide)).trans rfl
  have h4 : seg (encode (.breakC cv)) 6 12 = cv := seg_hit _ cv 6 rfl (by decide)
  exact decode_of (form1A m (by simp [decode1A, h1, h2, h3, h4]))
theorem RoundTrip.rett : RoundTrip.Statement (.rett) := by
  have m : seg (encode (.rett)) 24 7 = 26#7 := rfl
  have h1 : seg (encode (.rett)) 0 6 = 3#6 := rfl
  have h2 : seg (encode (.rett)) 6 6 = 0#6 := rfl
  have h3 : seg (encode (.rett)) 12 6 = 0#6 := rfl
  have h4 : seg (encode (.rett)) 18 6 = 0#6 := rfl
  have h5 : seg (encode (.rett)) 31 1 = 0#1 := rfl
  exact decode_of (form1A m (by simp [decode1A, h1, h2, h3, h4, h5]))
theorem RoundTrip.wfi : RoundTrip.Statement (.wfi) := by
  have m : seg (encode (.wfi)) 24 7 = 26#7 := rfl
  have h1 : seg (encode (.wfi)) 0 6 = 4#6 := rfl
  have h2 : seg (encode (.wfi)) 6 6 = 0#6 := rfl
  have h3 : seg (encode (.wfi)) 12 6 = 0#6 := rfl
  have h4 : seg (encode (.wfi)) 18 6 = 0#6 := rfl
  have h5 : seg (encode (.wfi)) 31 1 = 0#1 := rfl
  exact decode_of (form1A m (by simp [decode1A, h1, h2, h3, h4, h5]))
theorem RoundTrip.halt : RoundTrip.Statement (.halt) := by
  have m : seg (encode (.halt)) 24 7 = 26#7 := rfl
  have h1 : seg (encode (.halt)) 0 6 = 5#6 := rfl
  have h2 : seg (encode (.halt)) 6 6 = 0#6 := rfl
  have h3 : seg (encode (.halt)) 12 6 = 0#6 := rfl
  have h4 : seg (encode (.halt)) 18 6 = 0#6 := rfl
  have h5 : seg (encode (.halt)) 31 1 = 0#1 := rfl
  exact decode_of (form1A m (by simp [decode1A, h1, h2, h3, h4, h5]))
theorem RoundTrip.pause : RoundTrip.Statement (.pause) := by
  have m : seg (encode (.pause)) 24 7 = 26#7 := rfl
  have h1 : seg (encode (.pause)) 0 6 = 6#6 := rfl
  have h2 : seg (encode (.pause)) 6 6 = 0#6 := rfl
  have h3 : seg (encode (.pause)) 12 6 = 0#6 := rfl
  have h4 : seg (encode (.pause)) 18 6 = 0#6 := rfl
  have h5 : seg (encode (.pause)) 31 1 = 0#1 := rfl
  exact decode_of (form1A m (by simp [decode1A, h1, h2, h3, h4, h5]))
theorem RoundTrip.pauseExpiry (a0 : BitVec 11) : RoundTrip.Statement (.pauseExpiry a0) := nofun
theorem RoundTrip.setvl (d : BitVec 6) (a : BitVec 6) (z : BitVec 1) (t : BitVec 1) (l : BitVec 3) (f : BitVec 5) (e : BitVec 2) : RoundTrip.Statement (.setvl d a z t l f e) := by
  have m : seg (encode (.setvl d a z t l f e)) 24 7 = 32#7 := (seg_off _ e 0 24 7 (by decide)).trans ((seg_off _ f 2 24 7 (by decide)).trans ((seg_off _ l 7 24 7 (by decide)).trans ((seg_off _ t 10 24 7 (by decide)).trans ((seg_off _ z 11 24 7 (by decide)).trans ((seg_off _ a 12 24 7 (by decide)).trans ((seg_off _ d 18 24 7 (by decide)).trans rfl))))))
  have h1 : seg (encode (.setvl d a z t l f e)) 31 1 = 0#1 := (seg_off _ e 0 31 1 (by decide)).trans ((seg_off _ f 2 31 1 (by decide)).trans ((seg_off _ l 7 31 1 (by decide)).trans ((seg_off _ t 10 31 1 (by decide)).trans ((seg_off _ z 11 31 1 (by decide)).trans ((seg_off _ a 12 31 1 (by decide)).trans ((seg_off _ d 18 31 1 (by decide)).trans rfl))))))
  have h2 : seg (encode (.setvl d a z t l f e)) 18 6 = d := (seg_off _ e 0 18 6 (by decide)).trans ((seg_off _ f 2 18 6 (by decide)).trans ((seg_off _ l 7 18 6 (by decide)).trans ((seg_off _ t 10 18 6 (by decide)).trans ((seg_off _ z 11 18 6 (by decide)).trans ((seg_off _ a 12 18 6 (by decide)).trans (seg_hit _ d 18 rfl (by decide)))))))
  have h3 : seg (encode (.setvl d a z t l f e)) 12 6 = a := (seg_off _ e 0 12 6 (by decide)).trans ((seg_off _ f 2 12 6 (by decide)).trans ((seg_off _ l 7 12 6 (by decide)).trans ((seg_off _ t 10 12 6 (by decide)).trans ((seg_off _ z 11 12 6 (by decide)).trans (seg_hit _ a 12 ((seg_off _ d 18 12 6 (by decide)).trans rfl) (by decide))))))
  have h4 : seg (encode (.setvl d a z t l f e)) 11 1 = z := (seg_off _ e 0 11 1 (by decide)).trans ((seg_off _ f 2 11 1 (by decide)).trans ((seg_off _ l 7 11 1 (by decide)).trans ((seg_off _ t 10 11 1 (by decide)).trans (seg_hit _ z 11 ((seg_off _ a 12 11 1 (by decide)).trans ((seg_off _ d 18 11 1 (by decide)).trans rfl)) (by decide)))))
  have h5 : seg (encode (.setvl d a z t l f e)) 10 1 = t := (seg_off _ e 0 10 1 (by decide)).trans ((seg_off _ f 2 10 1 (by decide)).trans ((seg_off _ l 7 10 1 (by decide)).trans (seg_hit _ t 10 ((seg_off _ z 11 10 1 (by decide)).trans ((seg_off _ a 12 10 1 (by decide)).trans ((seg_off _ d 18 10 1 (by decide)).trans rfl))) (by decide))))
  have h6 : seg (encode (.setvl d a z t l f e)) 7 3 = l := (seg_off _ e 0 7 3 (by decide)).trans ((seg_off _ f 2 7 3 (by decide)).trans (seg_hit _ l 7 ((seg_off _ t 10 7 3 (by decide)).trans ((seg_off _ z 11 7 3 (by decide)).trans ((seg_off _ a 12 7 3 (by decide)).trans ((seg_off _ d 18 7 3 (by decide)).trans rfl)))) (by decide)))
  have h7 : seg (encode (.setvl d a z t l f e)) 2 5 = f := (seg_off _ e 0 2 5 (by decide)).trans (seg_hit _ f 2 ((seg_off _ l 7 2 5 (by decide)).trans ((seg_off _ t 10 2 5 (by decide)).trans ((seg_off _ z 11 2 5 (by decide)).trans ((seg_off _ a 12 2 5 (by decide)).trans ((seg_off _ d 18 2 5 (by decide)).trans rfl))))) (by decide))
  have h8 : seg (encode (.setvl d a z t l f e)) 0 2 = e := seg_hit _ e 0 ((seg_off _ f 2 0 2 (by decide)).trans ((seg_off _ l 7 0 2 (by decide)).trans ((seg_off _ t 10 0 2 (by decide)).trans ((seg_off _ z 11 0 2 (by decide)).trans ((seg_off _ a 12 0 2 (by decide)).trans ((seg_off _ d 18 0 2 (by decide)).trans rfl)))))) (by decide)
  exact decode_of (form20 m (by simp [decode20, h1, h2, h3, h4, h5, h6, h7, h8]))
theorem RoundTrip.setvlx (d : BitVec 6) (a : BitVec 6) (b : BitVec 6) : RoundTrip.Statement (.setvlx d a b) := by
  have m : seg (encode (.setvlx d a b)) 24 7 = 33#7 := (seg_off _ b 6 24 7 (by decide)).trans ((seg_off _ a 12 24 7 (by decide)).trans ((seg_off _ d 18 24 7 (by decide)).trans rfl))
  have h1 : seg (encode (.setvlx d a b)) 0 6 = 0#6 := (seg_off _ b 6 0 6 (by decide)).trans ((seg_off _ a 12 0 6 (by decide)).trans ((seg_off _ d 18 0 6 (by decide)).trans rfl))
  have h2 : seg (encode (.setvlx d a b)) 31 1 = 0#1 := (seg_off _ b 6 31 1 (by decide)).trans ((seg_off _ a 12 31 1 (by decide)).trans ((seg_off _ d 18 31 1 (by decide)).trans rfl))
  have h3 : seg (encode (.setvlx d a b)) 18 6 = d := (seg_off _ b 6 18 6 (by decide)).trans ((seg_off _ a 12 18 6 (by decide)).trans (seg_hit _ d 18 rfl (by decide)))
  have h4 : seg (encode (.setvlx d a b)) 12 6 = a := (seg_off _ b 6 12 6 (by decide)).trans (seg_hit _ a 12 ((seg_off _ d 18 12 6 (by decide)).trans rfl) (by decide))
  have h5 : seg (encode (.setvlx d a b)) 6 6 = b := seg_hit _ b 6 ((seg_off _ a 12 6 6 (by decide)).trans ((seg_off _ d 18 6 6 (by decide)).trans rfl)) (by decide)
  exact decode_of (form21 m (by simp [decode21, h1, h2, h3, h4, h5]))
theorem RoundTrip.setvlxKeep (d : BitVec 6) (a : BitVec 6) : RoundTrip.Statement (.setvlxKeep d a) := by
  have m : seg (encode (.setvlxKeep d a)) 24 7 = 33#7 := (seg_off _ a 12 24 7 (by decide)).trans ((seg_off _ d 18 24 7 (by decide)).trans rfl)
  have h1 : seg (encode (.setvlxKeep d a)) 0 6 = 1#6 := (seg_off _ a 12 0 6 (by decide)).trans ((seg_off _ d 18 0 6 (by decide)).trans rfl)
  have h2 : seg (encode (.setvlxKeep d a)) 6 6 = 0#6 := (seg_off _ a 12 6 6 (by decide)).trans ((seg_off _ d 18 6 6 (by decide)).trans rfl)
  have h3 : seg (encode (.setvlxKeep d a)) 31 1 = 0#1 := (seg_off _ a 12 31 1 (by decide)).trans ((seg_off _ d 18 31 1 (by decide)).trans rfl)
  have h4 : seg (encode (.setvlxKeep d a)) 18 6 = d := (seg_off _ a 12 18 6 (by decide)).trans (seg_hit _ d 18 rfl (by decide))
  have h5 : seg (encode (.setvlxKeep d a)) 12 6 = a := seg_hit _ a 12 ((seg_off _ d 18 12 6 (by decide)).trans rfl) (by decide)
  exact decode_of (form21 m (by simp [decode21, h1, h2, h3, h4, h5]))
theorem RoundTrip.setvlGrant (a0 : BitVec 11) : RoundTrip.Statement (.setvlGrant a0) := nofun
theorem RoundTrip.lpartWrite (a0 : BitVec 11) (a1 : BitVec 64) : RoundTrip.Statement (.lpartWrite a0 a1) := nofun
theorem RoundTrip.lpartStallEnd (a0 : BitVec 11) : RoundTrip.Statement (.lpartStallEnd a0) := nofun
theorem RoundTrip.smmWrite (a0 : BitVec 11) : RoundTrip.Statement (.smmWrite a0) := nofun
theorem RoundTrip.foccWrite (a0 : BitVec 11) (a1 : BitVec 4) (a2 : BitVec 64) : RoundTrip.Statement (.foccWrite a0 a1 a2) := nofun
theorem RoundTrip.fcsrWrite (a0 : BitVec 11) (a1 : BitVec 64) : RoundTrip.Statement (.fcsrWrite a0 a1) := nofun
theorem RoundTrip.vdirtyWrite (a0 : BitVec 11) (a1 : BitVec 64) : RoundTrip.Statement (.vdirtyWrite a0 a1) := nofun
theorem RoundTrip.registerWrite (a0 : BitVec 1) (a1 : BitVec 11) (a2 : BitVec 64) (a3 : BitVec 64) : RoundTrip.Statement (.registerWrite a0 a1 a2 a3) := nofun
theorem RoundTrip.convoyStart (a0 : BitVec 11) : RoundTrip.Statement (.convoyStart a0) := nofun
theorem RoundTrip.vaddVv (cv : BitVec 1) (d : BitVec 5) (a : BitVec 5) (b : BitVec 5) (k : BitVec 3) : RoundTrip.Statement (.vaddVv cv d a b k) := by
  have m : seg (encode (.vaddVv cv d a b k)) 24 7 = 34#7 := (seg_off _ k 6 24 7 (by decide)).trans ((seg_off _ b 9 24 7 (by decide)).trans ((seg_off _ a 14 24 7 (by decide)).trans ((seg_off _ d 19 24 7 (by decide)).trans ((seg_off _ cv 31 24 7 (by decide)).trans rfl))))
  have h1 : seg (encode (.vaddVv cv d a b k)) 0 6 = 0#6 := (seg_off _ k 6 0 6 (by decide)).trans ((seg_off _ b 9 0 6 (by decide)).trans ((seg_off _ a 14 0 6 (by decide)).trans ((seg_off _ d 19 0 6 (by decide)).trans ((seg_off _ cv 31 0 6 (by decide)).trans rfl))))
  have h2 : seg (encode (.vaddVv cv d a b k)) 31 1 = cv := (seg_off _ k 6 31 1 (by decide)).trans ((seg_off _ b 9 31 1 (by decide)).trans ((seg_off _ a 14 31 1 (by decide)).trans ((seg_off _ d 19 31 1 (by decide)).trans (seg_hit _ cv 31 rfl (by decide)))))
  have h3 : seg (encode (.vaddVv cv d a b k)) 19 5 = d := (seg_off _ k 6 19 5 (by decide)).trans ((seg_off _ b 9 19 5 (by decide)).trans ((seg_off _ a 14 19 5 (by decide)).trans (seg_hit _ d 19 ((seg_off _ cv 31 19 5 (by decide)).trans rfl) (by decide))))
  have h4 : seg (encode (.vaddVv cv d a b k)) 14 5 = a := (seg_off _ k 6 14 5 (by decide)).trans ((seg_off _ b 9 14 5 (by decide)).trans (seg_hit _ a 14 ((seg_off _ d 19 14 5 (by decide)).trans ((seg_off _ cv 31 14 5 (by decide)).trans rfl)) (by decide)))
  have h5 : seg (encode (.vaddVv cv d a b k)) 9 5 = b := (seg_off _ k 6 9 5 (by decide)).trans (seg_hit _ b 9 ((seg_off _ a 14 9 5 (by decide)).trans ((seg_off _ d 19 9 5 (by decide)).trans ((seg_off _ cv 31 9 5 (by decide)).trans rfl))) (by decide))
  have h6 : seg (encode (.vaddVv cv d a b k)) 6 3 = k := seg_hit _ k 6 ((seg_off _ b 9 6 3 (by decide)).trans ((seg_off _ a 14 6 3 (by decide)).trans ((seg_off _ d 19 6 3 (by decide)).trans ((seg_off _ cv 31 6 3 (by decide)).trans rfl)))) (by decide)
  exact decode_of (form22 m (by simp [decode22, h1, h2, h3, h4, h5, h6]))
theorem RoundTrip.vsubVv (cv : BitVec 1) (d : BitVec 5) (a : BitVec 5) (b : BitVec 5) (k : BitVec 3) : RoundTrip.Statement (.vsubVv cv d a b k) := by
  have m : seg (encode (.vsubVv cv d a b k)) 24 7 = 34#7 := (seg_off _ k 6 24 7 (by decide)).trans ((seg_off _ b 9 24 7 (by decide)).trans ((seg_off _ a 14 24 7 (by decide)).trans ((seg_off _ d 19 24 7 (by decide)).trans ((seg_off _ cv 31 24 7 (by decide)).trans rfl))))
  have h1 : seg (encode (.vsubVv cv d a b k)) 0 6 = 1#6 := (seg_off _ k 6 0 6 (by decide)).trans ((seg_off _ b 9 0 6 (by decide)).trans ((seg_off _ a 14 0 6 (by decide)).trans ((seg_off _ d 19 0 6 (by decide)).trans ((seg_off _ cv 31 0 6 (by decide)).trans rfl))))
  have h2 : seg (encode (.vsubVv cv d a b k)) 31 1 = cv := (seg_off _ k 6 31 1 (by decide)).trans ((seg_off _ b 9 31 1 (by decide)).trans ((seg_off _ a 14 31 1 (by decide)).trans ((seg_off _ d 19 31 1 (by decide)).trans (seg_hit _ cv 31 rfl (by decide)))))
  have h3 : seg (encode (.vsubVv cv d a b k)) 19 5 = d := (seg_off _ k 6 19 5 (by decide)).trans ((seg_off _ b 9 19 5 (by decide)).trans ((seg_off _ a 14 19 5 (by decide)).trans (seg_hit _ d 19 ((seg_off _ cv 31 19 5 (by decide)).trans rfl) (by decide))))
  have h4 : seg (encode (.vsubVv cv d a b k)) 14 5 = a := (seg_off _ k 6 14 5 (by decide)).trans ((seg_off _ b 9 14 5 (by decide)).trans (seg_hit _ a 14 ((seg_off _ d 19 14 5 (by decide)).trans ((seg_off _ cv 31 14 5 (by decide)).trans rfl)) (by decide)))
  have h5 : seg (encode (.vsubVv cv d a b k)) 9 5 = b := (seg_off _ k 6 9 5 (by decide)).trans (seg_hit _ b 9 ((seg_off _ a 14 9 5 (by decide)).trans ((seg_off _ d 19 9 5 (by decide)).trans ((seg_off _ cv 31 9 5 (by decide)).trans rfl))) (by decide))
  have h6 : seg (encode (.vsubVv cv d a b k)) 6 3 = k := seg_hit _ k 6 ((seg_off _ b 9 6 3 (by decide)).trans ((seg_off _ a 14 6 3 (by decide)).trans ((seg_off _ d 19 6 3 (by decide)).trans ((seg_off _ cv 31 6 3 (by decide)).trans rfl)))) (by decide)
  exact decode_of (form22 m (by simp [decode22, h1, h2, h3, h4, h5, h6]))
theorem RoundTrip.vandVv (cv : BitVec 1) (d : BitVec 5) (a : BitVec 5) (b : BitVec 5) (k : BitVec 3) : RoundTrip.Statement (.vandVv cv d a b k) := by
  have m : seg (encode (.vandVv cv d a b k)) 24 7 = 34#7 := (seg_off _ k 6 24 7 (by decide)).trans ((seg_off _ b 9 24 7 (by decide)).trans ((seg_off _ a 14 24 7 (by decide)).trans ((seg_off _ d 19 24 7 (by decide)).trans ((seg_off _ cv 31 24 7 (by decide)).trans rfl))))
  have h1 : seg (encode (.vandVv cv d a b k)) 0 6 = 2#6 := (seg_off _ k 6 0 6 (by decide)).trans ((seg_off _ b 9 0 6 (by decide)).trans ((seg_off _ a 14 0 6 (by decide)).trans ((seg_off _ d 19 0 6 (by decide)).trans ((seg_off _ cv 31 0 6 (by decide)).trans rfl))))
  have h2 : seg (encode (.vandVv cv d a b k)) 31 1 = cv := (seg_off _ k 6 31 1 (by decide)).trans ((seg_off _ b 9 31 1 (by decide)).trans ((seg_off _ a 14 31 1 (by decide)).trans ((seg_off _ d 19 31 1 (by decide)).trans (seg_hit _ cv 31 rfl (by decide)))))
  have h3 : seg (encode (.vandVv cv d a b k)) 19 5 = d := (seg_off _ k 6 19 5 (by decide)).trans ((seg_off _ b 9 19 5 (by decide)).trans ((seg_off _ a 14 19 5 (by decide)).trans (seg_hit _ d 19 ((seg_off _ cv 31 19 5 (by decide)).trans rfl) (by decide))))
  have h4 : seg (encode (.vandVv cv d a b k)) 14 5 = a := (seg_off _ k 6 14 5 (by decide)).trans ((seg_off _ b 9 14 5 (by decide)).trans (seg_hit _ a 14 ((seg_off _ d 19 14 5 (by decide)).trans ((seg_off _ cv 31 14 5 (by decide)).trans rfl)) (by decide)))
  have h5 : seg (encode (.vandVv cv d a b k)) 9 5 = b := (seg_off _ k 6 9 5 (by decide)).trans (seg_hit _ b 9 ((seg_off _ a 14 9 5 (by decide)).trans ((seg_off _ d 19 9 5 (by decide)).trans ((seg_off _ cv 31 9 5 (by decide)).trans rfl))) (by decide))
  have h6 : seg (encode (.vandVv cv d a b k)) 6 3 = k := seg_hit _ k 6 ((seg_off _ b 9 6 3 (by decide)).trans ((seg_off _ a 14 6 3 (by decide)).trans ((seg_off _ d 19 6 3 (by decide)).trans ((seg_off _ cv 31 6 3 (by decide)).trans rfl)))) (by decide)
  exact decode_of (form22 m (by simp [decode22, h1, h2, h3, h4, h5, h6]))
theorem RoundTrip.vorVv (cv : BitVec 1) (d : BitVec 5) (a : BitVec 5) (b : BitVec 5) (k : BitVec 3) : RoundTrip.Statement (.vorVv cv d a b k) := by
  have m : seg (encode (.vorVv cv d a b k)) 24 7 = 34#7 := (seg_off _ k 6 24 7 (by decide)).trans ((seg_off _ b 9 24 7 (by decide)).trans ((seg_off _ a 14 24 7 (by decide)).trans ((seg_off _ d 19 24 7 (by decide)).trans ((seg_off _ cv 31 24 7 (by decide)).trans rfl))))
  have h1 : seg (encode (.vorVv cv d a b k)) 0 6 = 3#6 := (seg_off _ k 6 0 6 (by decide)).trans ((seg_off _ b 9 0 6 (by decide)).trans ((seg_off _ a 14 0 6 (by decide)).trans ((seg_off _ d 19 0 6 (by decide)).trans ((seg_off _ cv 31 0 6 (by decide)).trans rfl))))
  have h2 : seg (encode (.vorVv cv d a b k)) 31 1 = cv := (seg_off _ k 6 31 1 (by decide)).trans ((seg_off _ b 9 31 1 (by decide)).trans ((seg_off _ a 14 31 1 (by decide)).trans ((seg_off _ d 19 31 1 (by decide)).trans (seg_hit _ cv 31 rfl (by decide)))))
  have h3 : seg (encode (.vorVv cv d a b k)) 19 5 = d := (seg_off _ k 6 19 5 (by decide)).trans ((seg_off _ b 9 19 5 (by decide)).trans ((seg_off _ a 14 19 5 (by decide)).trans (seg_hit _ d 19 ((seg_off _ cv 31 19 5 (by decide)).trans rfl) (by decide))))
  have h4 : seg (encode (.vorVv cv d a b k)) 14 5 = a := (seg_off _ k 6 14 5 (by decide)).trans ((seg_off _ b 9 14 5 (by decide)).trans (seg_hit _ a 14 ((seg_off _ d 19 14 5 (by decide)).trans ((seg_off _ cv 31 14 5 (by decide)).trans rfl)) (by decide)))
  have h5 : seg (encode (.vorVv cv d a b k)) 9 5 = b := (seg_off _ k 6 9 5 (by decide)).trans (seg_hit _ b 9 ((seg_off _ a 14 9 5 (by decide)).trans ((seg_off _ d 19 9 5 (by decide)).trans ((seg_off _ cv 31 9 5 (by decide)).trans rfl))) (by decide))
  have h6 : seg (encode (.vorVv cv d a b k)) 6 3 = k := seg_hit _ k 6 ((seg_off _ b 9 6 3 (by decide)).trans ((seg_off _ a 14 6 3 (by decide)).trans ((seg_off _ d 19 6 3 (by decide)).trans ((seg_off _ cv 31 6 3 (by decide)).trans rfl)))) (by decide)
  exact decode_of (form22 m (by simp [decode22, h1, h2, h3, h4, h5, h6]))
theorem RoundTrip.vxorVv (cv : BitVec 1) (d : BitVec 5) (a : BitVec 5) (b : BitVec 5) (k : BitVec 3) : RoundTrip.Statement (.vxorVv cv d a b k) := by
  have m : seg (encode (.vxorVv cv d a b k)) 24 7 = 34#7 := (seg_off _ k 6 24 7 (by decide)).trans ((seg_off _ b 9 24 7 (by decide)).trans ((seg_off _ a 14 24 7 (by decide)).trans ((seg_off _ d 19 24 7 (by decide)).trans ((seg_off _ cv 31 24 7 (by decide)).trans rfl))))
  have h1 : seg (encode (.vxorVv cv d a b k)) 0 6 = 4#6 := (seg_off _ k 6 0 6 (by decide)).trans ((seg_off _ b 9 0 6 (by decide)).trans ((seg_off _ a 14 0 6 (by decide)).trans ((seg_off _ d 19 0 6 (by decide)).trans ((seg_off _ cv 31 0 6 (by decide)).trans rfl))))
  have h2 : seg (encode (.vxorVv cv d a b k)) 31 1 = cv := (seg_off _ k 6 31 1 (by decide)).trans ((seg_off _ b 9 31 1 (by decide)).trans ((seg_off _ a 14 31 1 (by decide)).trans ((seg_off _ d 19 31 1 (by decide)).trans (seg_hit _ cv 31 rfl (by decide)))))
  have h3 : seg (encode (.vxorVv cv d a b k)) 19 5 = d := (seg_off _ k 6 19 5 (by decide)).trans ((seg_off _ b 9 19 5 (by decide)).trans ((seg_off _ a 14 19 5 (by decide)).trans (seg_hit _ d 19 ((seg_off _ cv 31 19 5 (by decide)).trans rfl) (by decide))))
  have h4 : seg (encode (.vxorVv cv d a b k)) 14 5 = a := (seg_off _ k 6 14 5 (by decide)).trans ((seg_off _ b 9 14 5 (by decide)).trans (seg_hit _ a 14 ((seg_off _ d 19 14 5 (by decide)).trans ((seg_off _ cv 31 14 5 (by decide)).trans rfl)) (by decide)))
  have h5 : seg (encode (.vxorVv cv d a b k)) 9 5 = b := (seg_off _ k 6 9 5 (by decide)).trans (seg_hit _ b 9 ((seg_off _ a 14 9 5 (by decide)).trans ((seg_off _ d 19 9 5 (by decide)).trans ((seg_off _ cv 31 9 5 (by decide)).trans rfl))) (by decide))
  have h6 : seg (encode (.vxorVv cv d a b k)) 6 3 = k := seg_hit _ k 6 ((seg_off _ b 9 6 3 (by decide)).trans ((seg_off _ a 14 6 3 (by decide)).trans ((seg_off _ d 19 6 3 (by decide)).trans ((seg_off _ cv 31 6 3 (by decide)).trans rfl)))) (by decide)
  exact decode_of (form22 m (by simp [decode22, h1, h2, h3, h4, h5, h6]))
theorem RoundTrip.vsllVv (cv : BitVec 1) (d : BitVec 5) (a : BitVec 5) (b : BitVec 5) (k : BitVec 3) : RoundTrip.Statement (.vsllVv cv d a b k) := by
  have m : seg (encode (.vsllVv cv d a b k)) 24 7 = 34#7 := (seg_off _ k 6 24 7 (by decide)).trans ((seg_off _ b 9 24 7 (by decide)).trans ((seg_off _ a 14 24 7 (by decide)).trans ((seg_off _ d 19 24 7 (by decide)).trans ((seg_off _ cv 31 24 7 (by decide)).trans rfl))))
  have h1 : seg (encode (.vsllVv cv d a b k)) 0 6 = 5#6 := (seg_off _ k 6 0 6 (by decide)).trans ((seg_off _ b 9 0 6 (by decide)).trans ((seg_off _ a 14 0 6 (by decide)).trans ((seg_off _ d 19 0 6 (by decide)).trans ((seg_off _ cv 31 0 6 (by decide)).trans rfl))))
  have h2 : seg (encode (.vsllVv cv d a b k)) 31 1 = cv := (seg_off _ k 6 31 1 (by decide)).trans ((seg_off _ b 9 31 1 (by decide)).trans ((seg_off _ a 14 31 1 (by decide)).trans ((seg_off _ d 19 31 1 (by decide)).trans (seg_hit _ cv 31 rfl (by decide)))))
  have h3 : seg (encode (.vsllVv cv d a b k)) 19 5 = d := (seg_off _ k 6 19 5 (by decide)).trans ((seg_off _ b 9 19 5 (by decide)).trans ((seg_off _ a 14 19 5 (by decide)).trans (seg_hit _ d 19 ((seg_off _ cv 31 19 5 (by decide)).trans rfl) (by decide))))
  have h4 : seg (encode (.vsllVv cv d a b k)) 14 5 = a := (seg_off _ k 6 14 5 (by decide)).trans ((seg_off _ b 9 14 5 (by decide)).trans (seg_hit _ a 14 ((seg_off _ d 19 14 5 (by decide)).trans ((seg_off _ cv 31 14 5 (by decide)).trans rfl)) (by decide)))
  have h5 : seg (encode (.vsllVv cv d a b k)) 9 5 = b := (seg_off _ k 6 9 5 (by decide)).trans (seg_hit _ b 9 ((seg_off _ a 14 9 5 (by decide)).trans ((seg_off _ d 19 9 5 (by decide)).trans ((seg_off _ cv 31 9 5 (by decide)).trans rfl))) (by decide))
  have h6 : seg (encode (.vsllVv cv d a b k)) 6 3 = k := seg_hit _ k 6 ((seg_off _ b 9 6 3 (by decide)).trans ((seg_off _ a 14 6 3 (by decide)).trans ((seg_off _ d 19 6 3 (by decide)).trans ((seg_off _ cv 31 6 3 (by decide)).trans rfl)))) (by decide)
  exact decode_of (form22 m (by simp [decode22, h1, h2, h3, h4, h5, h6]))
theorem RoundTrip.vsrlVv (cv : BitVec 1) (d : BitVec 5) (a : BitVec 5) (b : BitVec 5) (k : BitVec 3) : RoundTrip.Statement (.vsrlVv cv d a b k) := by
  have m : seg (encode (.vsrlVv cv d a b k)) 24 7 = 34#7 := (seg_off _ k 6 24 7 (by decide)).trans ((seg_off _ b 9 24 7 (by decide)).trans ((seg_off _ a 14 24 7 (by decide)).trans ((seg_off _ d 19 24 7 (by decide)).trans ((seg_off _ cv 31 24 7 (by decide)).trans rfl))))
  have h1 : seg (encode (.vsrlVv cv d a b k)) 0 6 = 6#6 := (seg_off _ k 6 0 6 (by decide)).trans ((seg_off _ b 9 0 6 (by decide)).trans ((seg_off _ a 14 0 6 (by decide)).trans ((seg_off _ d 19 0 6 (by decide)).trans ((seg_off _ cv 31 0 6 (by decide)).trans rfl))))
  have h2 : seg (encode (.vsrlVv cv d a b k)) 31 1 = cv := (seg_off _ k 6 31 1 (by decide)).trans ((seg_off _ b 9 31 1 (by decide)).trans ((seg_off _ a 14 31 1 (by decide)).trans ((seg_off _ d 19 31 1 (by decide)).trans (seg_hit _ cv 31 rfl (by decide)))))
  have h3 : seg (encode (.vsrlVv cv d a b k)) 19 5 = d := (seg_off _ k 6 19 5 (by decide)).trans ((seg_off _ b 9 19 5 (by decide)).trans ((seg_off _ a 14 19 5 (by decide)).trans (seg_hit _ d 19 ((seg_off _ cv 31 19 5 (by decide)).trans rfl) (by decide))))
  have h4 : seg (encode (.vsrlVv cv d a b k)) 14 5 = a := (seg_off _ k 6 14 5 (by decide)).trans ((seg_off _ b 9 14 5 (by decide)).trans (seg_hit _ a 14 ((seg_off _ d 19 14 5 (by decide)).trans ((seg_off _ cv 31 14 5 (by decide)).trans rfl)) (by decide)))
  have h5 : seg (encode (.vsrlVv cv d a b k)) 9 5 = b := (seg_off _ k 6 9 5 (by decide)).trans (seg_hit _ b 9 ((seg_off _ a 14 9 5 (by decide)).trans ((seg_off _ d 19 9 5 (by decide)).trans ((seg_off _ cv 31 9 5 (by decide)).trans rfl))) (by decide))
  have h6 : seg (encode (.vsrlVv cv d a b k)) 6 3 = k := seg_hit _ k 6 ((seg_off _ b 9 6 3 (by decide)).trans ((seg_off _ a 14 6 3 (by decide)).trans ((seg_off _ d 19 6 3 (by decide)).trans ((seg_off _ cv 31 6 3 (by decide)).trans rfl)))) (by decide)
  exact decode_of (form22 m (by simp [decode22, h1, h2, h3, h4, h5, h6]))
theorem RoundTrip.vsraVv (cv : BitVec 1) (d : BitVec 5) (a : BitVec 5) (b : BitVec 5) (k : BitVec 3) : RoundTrip.Statement (.vsraVv cv d a b k) := by
  have m : seg (encode (.vsraVv cv d a b k)) 24 7 = 34#7 := (seg_off _ k 6 24 7 (by decide)).trans ((seg_off _ b 9 24 7 (by decide)).trans ((seg_off _ a 14 24 7 (by decide)).trans ((seg_off _ d 19 24 7 (by decide)).trans ((seg_off _ cv 31 24 7 (by decide)).trans rfl))))
  have h1 : seg (encode (.vsraVv cv d a b k)) 0 6 = 7#6 := (seg_off _ k 6 0 6 (by decide)).trans ((seg_off _ b 9 0 6 (by decide)).trans ((seg_off _ a 14 0 6 (by decide)).trans ((seg_off _ d 19 0 6 (by decide)).trans ((seg_off _ cv 31 0 6 (by decide)).trans rfl))))
  have h2 : seg (encode (.vsraVv cv d a b k)) 31 1 = cv := (seg_off _ k 6 31 1 (by decide)).trans ((seg_off _ b 9 31 1 (by decide)).trans ((seg_off _ a 14 31 1 (by decide)).trans ((seg_off _ d 19 31 1 (by decide)).trans (seg_hit _ cv 31 rfl (by decide)))))
  have h3 : seg (encode (.vsraVv cv d a b k)) 19 5 = d := (seg_off _ k 6 19 5 (by decide)).trans ((seg_off _ b 9 19 5 (by decide)).trans ((seg_off _ a 14 19 5 (by decide)).trans (seg_hit _ d 19 ((seg_off _ cv 31 19 5 (by decide)).trans rfl) (by decide))))
  have h4 : seg (encode (.vsraVv cv d a b k)) 14 5 = a := (seg_off _ k 6 14 5 (by decide)).trans ((seg_off _ b 9 14 5 (by decide)).trans (seg_hit _ a 14 ((seg_off _ d 19 14 5 (by decide)).trans ((seg_off _ cv 31 14 5 (by decide)).trans rfl)) (by decide)))
  have h5 : seg (encode (.vsraVv cv d a b k)) 9 5 = b := (seg_off _ k 6 9 5 (by decide)).trans (seg_hit _ b 9 ((seg_off _ a 14 9 5 (by decide)).trans ((seg_off _ d 19 9 5 (by decide)).trans ((seg_off _ cv 31 9 5 (by decide)).trans rfl))) (by decide))
  have h6 : seg (encode (.vsraVv cv d a b k)) 6 3 = k := seg_hit _ k 6 ((seg_off _ b 9 6 3 (by decide)).trans ((seg_off _ a 14 6 3 (by decide)).trans ((seg_off _ d 19 6 3 (by decide)).trans ((seg_off _ cv 31 6 3 (by decide)).trans rfl)))) (by decide)
  exact decode_of (form22 m (by simp [decode22, h1, h2, h3, h4, h5, h6]))
theorem RoundTrip.vminVv (cv : BitVec 1) (d : BitVec 5) (a : BitVec 5) (b : BitVec 5) (k : BitVec 3) : RoundTrip.Statement (.vminVv cv d a b k) := by
  have m : seg (encode (.vminVv cv d a b k)) 24 7 = 34#7 := (seg_off _ k 6 24 7 (by decide)).trans ((seg_off _ b 9 24 7 (by decide)).trans ((seg_off _ a 14 24 7 (by decide)).trans ((seg_off _ d 19 24 7 (by decide)).trans ((seg_off _ cv 31 24 7 (by decide)).trans rfl))))
  have h1 : seg (encode (.vminVv cv d a b k)) 0 6 = 10#6 := (seg_off _ k 6 0 6 (by decide)).trans ((seg_off _ b 9 0 6 (by decide)).trans ((seg_off _ a 14 0 6 (by decide)).trans ((seg_off _ d 19 0 6 (by decide)).trans ((seg_off _ cv 31 0 6 (by decide)).trans rfl))))
  have h2 : seg (encode (.vminVv cv d a b k)) 31 1 = cv := (seg_off _ k 6 31 1 (by decide)).trans ((seg_off _ b 9 31 1 (by decide)).trans ((seg_off _ a 14 31 1 (by decide)).trans ((seg_off _ d 19 31 1 (by decide)).trans (seg_hit _ cv 31 rfl (by decide)))))
  have h3 : seg (encode (.vminVv cv d a b k)) 19 5 = d := (seg_off _ k 6 19 5 (by decide)).trans ((seg_off _ b 9 19 5 (by decide)).trans ((seg_off _ a 14 19 5 (by decide)).trans (seg_hit _ d 19 ((seg_off _ cv 31 19 5 (by decide)).trans rfl) (by decide))))
  have h4 : seg (encode (.vminVv cv d a b k)) 14 5 = a := (seg_off _ k 6 14 5 (by decide)).trans ((seg_off _ b 9 14 5 (by decide)).trans (seg_hit _ a 14 ((seg_off _ d 19 14 5 (by decide)).trans ((seg_off _ cv 31 14 5 (by decide)).trans rfl)) (by decide)))
  have h5 : seg (encode (.vminVv cv d a b k)) 9 5 = b := (seg_off _ k 6 9 5 (by decide)).trans (seg_hit _ b 9 ((seg_off _ a 14 9 5 (by decide)).trans ((seg_off _ d 19 9 5 (by decide)).trans ((seg_off _ cv 31 9 5 (by decide)).trans rfl))) (by decide))
  have h6 : seg (encode (.vminVv cv d a b k)) 6 3 = k := seg_hit _ k 6 ((seg_off _ b 9 6 3 (by decide)).trans ((seg_off _ a 14 6 3 (by decide)).trans ((seg_off _ d 19 6 3 (by decide)).trans ((seg_off _ cv 31 6 3 (by decide)).trans rfl)))) (by decide)
  exact decode_of (form22 m (by simp [decode22, h1, h2, h3, h4, h5, h6]))
theorem RoundTrip.vmaxVv (cv : BitVec 1) (d : BitVec 5) (a : BitVec 5) (b : BitVec 5) (k : BitVec 3) : RoundTrip.Statement (.vmaxVv cv d a b k) := by
  have m : seg (encode (.vmaxVv cv d a b k)) 24 7 = 34#7 := (seg_off _ k 6 24 7 (by decide)).trans ((seg_off _ b 9 24 7 (by decide)).trans ((seg_off _ a 14 24 7 (by decide)).trans ((seg_off _ d 19 24 7 (by decide)).trans ((seg_off _ cv 31 24 7 (by decide)).trans rfl))))
  have h1 : seg (encode (.vmaxVv cv d a b k)) 0 6 = 11#6 := (seg_off _ k 6 0 6 (by decide)).trans ((seg_off _ b 9 0 6 (by decide)).trans ((seg_off _ a 14 0 6 (by decide)).trans ((seg_off _ d 19 0 6 (by decide)).trans ((seg_off _ cv 31 0 6 (by decide)).trans rfl))))
  have h2 : seg (encode (.vmaxVv cv d a b k)) 31 1 = cv := (seg_off _ k 6 31 1 (by decide)).trans ((seg_off _ b 9 31 1 (by decide)).trans ((seg_off _ a 14 31 1 (by decide)).trans ((seg_off _ d 19 31 1 (by decide)).trans (seg_hit _ cv 31 rfl (by decide)))))
  have h3 : seg (encode (.vmaxVv cv d a b k)) 19 5 = d := (seg_off _ k 6 19 5 (by decide)).trans ((seg_off _ b 9 19 5 (by decide)).trans ((seg_off _ a 14 19 5 (by decide)).trans (seg_hit _ d 19 ((seg_off _ cv 31 19 5 (by decide)).trans rfl) (by decide))))
  have h4 : seg (encode (.vmaxVv cv d a b k)) 14 5 = a := (seg_off _ k 6 14 5 (by decide)).trans ((seg_off _ b 9 14 5 (by decide)).trans (seg_hit _ a 14 ((seg_off _ d 19 14 5 (by decide)).trans ((seg_off _ cv 31 14 5 (by decide)).trans rfl)) (by decide)))
  have h5 : seg (encode (.vmaxVv cv d a b k)) 9 5 = b := (seg_off _ k 6 9 5 (by decide)).trans (seg_hit _ b 9 ((seg_off _ a 14 9 5 (by decide)).trans ((seg_off _ d 19 9 5 (by decide)).trans ((seg_off _ cv 31 9 5 (by decide)).trans rfl))) (by decide))
  have h6 : seg (encode (.vmaxVv cv d a b k)) 6 3 = k := seg_hit _ k 6 ((seg_off _ b 9 6 3 (by decide)).trans ((seg_off _ a 14 6 3 (by decide)).trans ((seg_off _ d 19 6 3 (by decide)).trans ((seg_off _ cv 31 6 3 (by decide)).trans rfl)))) (by decide)
  exact decode_of (form22 m (by simp [decode22, h1, h2, h3, h4, h5, h6]))
theorem RoundTrip.vminuVv (cv : BitVec 1) (d : BitVec 5) (a : BitVec 5) (b : BitVec 5) (k : BitVec 3) : RoundTrip.Statement (.vminuVv cv d a b k) := by
  have m : seg (encode (.vminuVv cv d a b k)) 24 7 = 34#7 := (seg_off _ k 6 24 7 (by decide)).trans ((seg_off _ b 9 24 7 (by decide)).trans ((seg_off _ a 14 24 7 (by decide)).trans ((seg_off _ d 19 24 7 (by decide)).trans ((seg_off _ cv 31 24 7 (by decide)).trans rfl))))
  have h1 : seg (encode (.vminuVv cv d a b k)) 0 6 = 12#6 := (seg_off _ k 6 0 6 (by decide)).trans ((seg_off _ b 9 0 6 (by decide)).trans ((seg_off _ a 14 0 6 (by decide)).trans ((seg_off _ d 19 0 6 (by decide)).trans ((seg_off _ cv 31 0 6 (by decide)).trans rfl))))
  have h2 : seg (encode (.vminuVv cv d a b k)) 31 1 = cv := (seg_off _ k 6 31 1 (by decide)).trans ((seg_off _ b 9 31 1 (by decide)).trans ((seg_off _ a 14 31 1 (by decide)).trans ((seg_off _ d 19 31 1 (by decide)).trans (seg_hit _ cv 31 rfl (by decide)))))
  have h3 : seg (encode (.vminuVv cv d a b k)) 19 5 = d := (seg_off _ k 6 19 5 (by decide)).trans ((seg_off _ b 9 19 5 (by decide)).trans ((seg_off _ a 14 19 5 (by decide)).trans (seg_hit _ d 19 ((seg_off _ cv 31 19 5 (by decide)).trans rfl) (by decide))))
  have h4 : seg (encode (.vminuVv cv d a b k)) 14 5 = a := (seg_off _ k 6 14 5 (by decide)).trans ((seg_off _ b 9 14 5 (by decide)).trans (seg_hit _ a 14 ((seg_off _ d 19 14 5 (by decide)).trans ((seg_off _ cv 31 14 5 (by decide)).trans rfl)) (by decide)))
  have h5 : seg (encode (.vminuVv cv d a b k)) 9 5 = b := (seg_off _ k 6 9 5 (by decide)).trans (seg_hit _ b 9 ((seg_off _ a 14 9 5 (by decide)).trans ((seg_off _ d 19 9 5 (by decide)).trans ((seg_off _ cv 31 9 5 (by decide)).trans rfl))) (by decide))
  have h6 : seg (encode (.vminuVv cv d a b k)) 6 3 = k := seg_hit _ k 6 ((seg_off _ b 9 6 3 (by decide)).trans ((seg_off _ a 14 6 3 (by decide)).trans ((seg_off _ d 19 6 3 (by decide)).trans ((seg_off _ cv 31 6 3 (by decide)).trans rfl)))) (by decide)
  exact decode_of (form22 m (by simp [decode22, h1, h2, h3, h4, h5, h6]))
theorem RoundTrip.vmaxuVv (cv : BitVec 1) (d : BitVec 5) (a : BitVec 5) (b : BitVec 5) (k : BitVec 3) : RoundTrip.Statement (.vmaxuVv cv d a b k) := by
  have m : seg (encode (.vmaxuVv cv d a b k)) 24 7 = 34#7 := (seg_off _ k 6 24 7 (by decide)).trans ((seg_off _ b 9 24 7 (by decide)).trans ((seg_off _ a 14 24 7 (by decide)).trans ((seg_off _ d 19 24 7 (by decide)).trans ((seg_off _ cv 31 24 7 (by decide)).trans rfl))))
  have h1 : seg (encode (.vmaxuVv cv d a b k)) 0 6 = 13#6 := (seg_off _ k 6 0 6 (by decide)).trans ((seg_off _ b 9 0 6 (by decide)).trans ((seg_off _ a 14 0 6 (by decide)).trans ((seg_off _ d 19 0 6 (by decide)).trans ((seg_off _ cv 31 0 6 (by decide)).trans rfl))))
  have h2 : seg (encode (.vmaxuVv cv d a b k)) 31 1 = cv := (seg_off _ k 6 31 1 (by decide)).trans ((seg_off _ b 9 31 1 (by decide)).trans ((seg_off _ a 14 31 1 (by decide)).trans ((seg_off _ d 19 31 1 (by decide)).trans (seg_hit _ cv 31 rfl (by decide)))))
  have h3 : seg (encode (.vmaxuVv cv d a b k)) 19 5 = d := (seg_off _ k 6 19 5 (by decide)).trans ((seg_off _ b 9 19 5 (by decide)).trans ((seg_off _ a 14 19 5 (by decide)).trans (seg_hit _ d 19 ((seg_off _ cv 31 19 5 (by decide)).trans rfl) (by decide))))
  have h4 : seg (encode (.vmaxuVv cv d a b k)) 14 5 = a := (seg_off _ k 6 14 5 (by decide)).trans ((seg_off _ b 9 14 5 (by decide)).trans (seg_hit _ a 14 ((seg_off _ d 19 14 5 (by decide)).trans ((seg_off _ cv 31 14 5 (by decide)).trans rfl)) (by decide)))
  have h5 : seg (encode (.vmaxuVv cv d a b k)) 9 5 = b := (seg_off _ k 6 9 5 (by decide)).trans (seg_hit _ b 9 ((seg_off _ a 14 9 5 (by decide)).trans ((seg_off _ d 19 9 5 (by decide)).trans ((seg_off _ cv 31 9 5 (by decide)).trans rfl))) (by decide))
  have h6 : seg (encode (.vmaxuVv cv d a b k)) 6 3 = k := seg_hit _ k 6 ((seg_off _ b 9 6 3 (by decide)).trans ((seg_off _ a 14 6 3 (by decide)).trans ((seg_off _ d 19 6 3 (by decide)).trans ((seg_off _ cv 31 6 3 (by decide)).trans rfl)))) (by decide)
  exact decode_of (form22 m (by simp [decode22, h1, h2, h3, h4, h5, h6]))
theorem RoundTrip.vmulVv (cv : BitVec 1) (d : BitVec 5) (a : BitVec 5) (b : BitVec 5) (k : BitVec 3) : RoundTrip.Statement (.vmulVv cv d a b k) := by
  have m : seg (encode (.vmulVv cv d a b k)) 24 7 = 34#7 := (seg_off _ k 6 24 7 (by decide)).trans ((seg_off _ b 9 24 7 (by decide)).trans ((seg_off _ a 14 24 7 (by decide)).trans ((seg_off _ d 19 24 7 (by decide)).trans ((seg_off _ cv 31 24 7 (by decide)).trans rfl))))
  have h1 : seg (encode (.vmulVv cv d a b k)) 0 6 = 16#6 := (seg_off _ k 6 0 6 (by decide)).trans ((seg_off _ b 9 0 6 (by decide)).trans ((seg_off _ a 14 0 6 (by decide)).trans ((seg_off _ d 19 0 6 (by decide)).trans ((seg_off _ cv 31 0 6 (by decide)).trans rfl))))
  have h2 : seg (encode (.vmulVv cv d a b k)) 31 1 = cv := (seg_off _ k 6 31 1 (by decide)).trans ((seg_off _ b 9 31 1 (by decide)).trans ((seg_off _ a 14 31 1 (by decide)).trans ((seg_off _ d 19 31 1 (by decide)).trans (seg_hit _ cv 31 rfl (by decide)))))
  have h3 : seg (encode (.vmulVv cv d a b k)) 19 5 = d := (seg_off _ k 6 19 5 (by decide)).trans ((seg_off _ b 9 19 5 (by decide)).trans ((seg_off _ a 14 19 5 (by decide)).trans (seg_hit _ d 19 ((seg_off _ cv 31 19 5 (by decide)).trans rfl) (by decide))))
  have h4 : seg (encode (.vmulVv cv d a b k)) 14 5 = a := (seg_off _ k 6 14 5 (by decide)).trans ((seg_off _ b 9 14 5 (by decide)).trans (seg_hit _ a 14 ((seg_off _ d 19 14 5 (by decide)).trans ((seg_off _ cv 31 14 5 (by decide)).trans rfl)) (by decide)))
  have h5 : seg (encode (.vmulVv cv d a b k)) 9 5 = b := (seg_off _ k 6 9 5 (by decide)).trans (seg_hit _ b 9 ((seg_off _ a 14 9 5 (by decide)).trans ((seg_off _ d 19 9 5 (by decide)).trans ((seg_off _ cv 31 9 5 (by decide)).trans rfl))) (by decide))
  have h6 : seg (encode (.vmulVv cv d a b k)) 6 3 = k := seg_hit _ k 6 ((seg_off _ b 9 6 3 (by decide)).trans ((seg_off _ a 14 6 3 (by decide)).trans ((seg_off _ d 19 6 3 (by decide)).trans ((seg_off _ cv 31 6 3 (by decide)).trans rfl)))) (by decide)
  exact decode_of (form22 m (by simp [decode22, h1, h2, h3, h4, h5, h6]))
theorem RoundTrip.vhmulVv (cv : BitVec 1) (d : BitVec 5) (a : BitVec 5) (b : BitVec 5) (k : BitVec 3) : RoundTrip.Statement (.vhmulVv cv d a b k) := by
  have m : seg (encode (.vhmulVv cv d a b k)) 24 7 = 34#7 := (seg_off _ k 6 24 7 (by decide)).trans ((seg_off _ b 9 24 7 (by decide)).trans ((seg_off _ a 14 24 7 (by decide)).trans ((seg_off _ d 19 24 7 (by decide)).trans ((seg_off _ cv 31 24 7 (by decide)).trans rfl))))
  have h1 : seg (encode (.vhmulVv cv d a b k)) 0 6 = 17#6 := (seg_off _ k 6 0 6 (by decide)).trans ((seg_off _ b 9 0 6 (by decide)).trans ((seg_off _ a 14 0 6 (by decide)).trans ((seg_off _ d 19 0 6 (by decide)).trans ((seg_off _ cv 31 0 6 (by decide)).trans rfl))))
  have h2 : seg (encode (.vhmulVv cv d a b k)) 31 1 = cv := (seg_off _ k 6 31 1 (by decide)).trans ((seg_off _ b 9 31 1 (by decide)).trans ((seg_off _ a 14 31 1 (by decide)).trans ((seg_off _ d 19 31 1 (by decide)).trans (seg_hit _ cv 31 rfl (by decide)))))
  have h3 : seg (encode (.vhmulVv cv d a b k)) 19 5 = d := (seg_off _ k 6 19 5 (by decide)).trans ((seg_off _ b 9 19 5 (by decide)).trans ((seg_off _ a 14 19 5 (by decide)).trans (seg_hit _ d 19 ((seg_off _ cv 31 19 5 (by decide)).trans rfl) (by decide))))
  have h4 : seg (encode (.vhmulVv cv d a b k)) 14 5 = a := (seg_off _ k 6 14 5 (by decide)).trans ((seg_off _ b 9 14 5 (by decide)).trans (seg_hit _ a 14 ((seg_off _ d 19 14 5 (by decide)).trans ((seg_off _ cv 31 14 5 (by decide)).trans rfl)) (by decide)))
  have h5 : seg (encode (.vhmulVv cv d a b k)) 9 5 = b := (seg_off _ k 6 9 5 (by decide)).trans (seg_hit _ b 9 ((seg_off _ a 14 9 5 (by decide)).trans ((seg_off _ d 19 9 5 (by decide)).trans ((seg_off _ cv 31 9 5 (by decide)).trans rfl))) (by decide))
  have h6 : seg (encode (.vhmulVv cv d a b k)) 6 3 = k := seg_hit _ k 6 ((seg_off _ b 9 6 3 (by decide)).trans ((seg_off _ a 14 6 3 (by decide)).trans ((seg_off _ d 19 6 3 (by decide)).trans ((seg_off _ cv 31 6 3 (by decide)).trans rfl)))) (by decide)
  exact decode_of (form22 m (by simp [decode22, h1, h2, h3, h4, h5, h6]))
theorem RoundTrip.vhmuluVv (cv : BitVec 1) (d : BitVec 5) (a : BitVec 5) (b : BitVec 5) (k : BitVec 3) : RoundTrip.Statement (.vhmuluVv cv d a b k) := by
  have m : seg (encode (.vhmuluVv cv d a b k)) 24 7 = 34#7 := (seg_off _ k 6 24 7 (by decide)).trans ((seg_off _ b 9 24 7 (by decide)).trans ((seg_off _ a 14 24 7 (by decide)).trans ((seg_off _ d 19 24 7 (by decide)).trans ((seg_off _ cv 31 24 7 (by decide)).trans rfl))))
  have h1 : seg (encode (.vhmuluVv cv d a b k)) 0 6 = 18#6 := (seg_off _ k 6 0 6 (by decide)).trans ((seg_off _ b 9 0 6 (by decide)).trans ((seg_off _ a 14 0 6 (by decide)).trans ((seg_off _ d 19 0 6 (by decide)).trans ((seg_off _ cv 31 0 6 (by decide)).trans rfl))))
  have h2 : seg (encode (.vhmuluVv cv d a b k)) 31 1 = cv := (seg_off _ k 6 31 1 (by decide)).trans ((seg_off _ b 9 31 1 (by decide)).trans ((seg_off _ a 14 31 1 (by decide)).trans ((seg_off _ d 19 31 1 (by decide)).trans (seg_hit _ cv 31 rfl (by decide)))))
  have h3 : seg (encode (.vhmuluVv cv d a b k)) 19 5 = d := (seg_off _ k 6 19 5 (by decide)).trans ((seg_off _ b 9 19 5 (by decide)).trans ((seg_off _ a 14 19 5 (by decide)).trans (seg_hit _ d 19 ((seg_off _ cv 31 19 5 (by decide)).trans rfl) (by decide))))
  have h4 : seg (encode (.vhmuluVv cv d a b k)) 14 5 = a := (seg_off _ k 6 14 5 (by decide)).trans ((seg_off _ b 9 14 5 (by decide)).trans (seg_hit _ a 14 ((seg_off _ d 19 14 5 (by decide)).trans ((seg_off _ cv 31 14 5 (by decide)).trans rfl)) (by decide)))
  have h5 : seg (encode (.vhmuluVv cv d a b k)) 9 5 = b := (seg_off _ k 6 9 5 (by decide)).trans (seg_hit _ b 9 ((seg_off _ a 14 9 5 (by decide)).trans ((seg_off _ d 19 9 5 (by decide)).trans ((seg_off _ cv 31 9 5 (by decide)).trans rfl))) (by decide))
  have h6 : seg (encode (.vhmuluVv cv d a b k)) 6 3 = k := seg_hit _ k 6 ((seg_off _ b 9 6 3 (by decide)).trans ((seg_off _ a 14 6 3 (by decide)).trans ((seg_off _ d 19 6 3 (by decide)).trans ((seg_off _ cv 31 6 3 (by decide)).trans rfl)))) (by decide)
  exact decode_of (form22 m (by simp [decode22, h1, h2, h3, h4, h5, h6]))
theorem RoundTrip.vhmulsuVv (cv : BitVec 1) (d : BitVec 5) (a : BitVec 5) (b : BitVec 5) (k : BitVec 3) : RoundTrip.Statement (.vhmulsuVv cv d a b k) := by
  have m : seg (encode (.vhmulsuVv cv d a b k)) 24 7 = 34#7 := (seg_off _ k 6 24 7 (by decide)).trans ((seg_off _ b 9 24 7 (by decide)).trans ((seg_off _ a 14 24 7 (by decide)).trans ((seg_off _ d 19 24 7 (by decide)).trans ((seg_off _ cv 31 24 7 (by decide)).trans rfl))))
  have h1 : seg (encode (.vhmulsuVv cv d a b k)) 0 6 = 19#6 := (seg_off _ k 6 0 6 (by decide)).trans ((seg_off _ b 9 0 6 (by decide)).trans ((seg_off _ a 14 0 6 (by decide)).trans ((seg_off _ d 19 0 6 (by decide)).trans ((seg_off _ cv 31 0 6 (by decide)).trans rfl))))
  have h2 : seg (encode (.vhmulsuVv cv d a b k)) 31 1 = cv := (seg_off _ k 6 31 1 (by decide)).trans ((seg_off _ b 9 31 1 (by decide)).trans ((seg_off _ a 14 31 1 (by decide)).trans ((seg_off _ d 19 31 1 (by decide)).trans (seg_hit _ cv 31 rfl (by decide)))))
  have h3 : seg (encode (.vhmulsuVv cv d a b k)) 19 5 = d := (seg_off _ k 6 19 5 (by decide)).trans ((seg_off _ b 9 19 5 (by decide)).trans ((seg_off _ a 14 19 5 (by decide)).trans (seg_hit _ d 19 ((seg_off _ cv 31 19 5 (by decide)).trans rfl) (by decide))))
  have h4 : seg (encode (.vhmulsuVv cv d a b k)) 14 5 = a := (seg_off _ k 6 14 5 (by decide)).trans ((seg_off _ b 9 14 5 (by decide)).trans (seg_hit _ a 14 ((seg_off _ d 19 14 5 (by decide)).trans ((seg_off _ cv 31 14 5 (by decide)).trans rfl)) (by decide)))
  have h5 : seg (encode (.vhmulsuVv cv d a b k)) 9 5 = b := (seg_off _ k 6 9 5 (by decide)).trans (seg_hit _ b 9 ((seg_off _ a 14 9 5 (by decide)).trans ((seg_off _ d 19 9 5 (by decide)).trans ((seg_off _ cv 31 9 5 (by decide)).trans rfl))) (by decide))
  have h6 : seg (encode (.vhmulsuVv cv d a b k)) 6 3 = k := seg_hit _ k 6 ((seg_off _ b 9 6 3 (by decide)).trans ((seg_off _ a 14 6 3 (by decide)).trans ((seg_off _ d 19 6 3 (by decide)).trans ((seg_off _ cv 31 6 3 (by decide)).trans rfl)))) (by decide)
  exact decode_of (form22 m (by simp [decode22, h1, h2, h3, h4, h5, h6]))
theorem RoundTrip.vdivVv (cv : BitVec 1) (d : BitVec 5) (a : BitVec 5) (b : BitVec 5) (k : BitVec 3) : RoundTrip.Statement (.vdivVv cv d a b k) := by
  have m : seg (encode (.vdivVv cv d a b k)) 24 7 = 34#7 := (seg_off _ k 6 24 7 (by decide)).trans ((seg_off _ b 9 24 7 (by decide)).trans ((seg_off _ a 14 24 7 (by decide)).trans ((seg_off _ d 19 24 7 (by decide)).trans ((seg_off _ cv 31 24 7 (by decide)).trans rfl))))
  have h1 : seg (encode (.vdivVv cv d a b k)) 0 6 = 20#6 := (seg_off _ k 6 0 6 (by decide)).trans ((seg_off _ b 9 0 6 (by decide)).trans ((seg_off _ a 14 0 6 (by decide)).trans ((seg_off _ d 19 0 6 (by decide)).trans ((seg_off _ cv 31 0 6 (by decide)).trans rfl))))
  have h2 : seg (encode (.vdivVv cv d a b k)) 31 1 = cv := (seg_off _ k 6 31 1 (by decide)).trans ((seg_off _ b 9 31 1 (by decide)).trans ((seg_off _ a 14 31 1 (by decide)).trans ((seg_off _ d 19 31 1 (by decide)).trans (seg_hit _ cv 31 rfl (by decide)))))
  have h3 : seg (encode (.vdivVv cv d a b k)) 19 5 = d := (seg_off _ k 6 19 5 (by decide)).trans ((seg_off _ b 9 19 5 (by decide)).trans ((seg_off _ a 14 19 5 (by decide)).trans (seg_hit _ d 19 ((seg_off _ cv 31 19 5 (by decide)).trans rfl) (by decide))))
  have h4 : seg (encode (.vdivVv cv d a b k)) 14 5 = a := (seg_off _ k 6 14 5 (by decide)).trans ((seg_off _ b 9 14 5 (by decide)).trans (seg_hit _ a 14 ((seg_off _ d 19 14 5 (by decide)).trans ((seg_off _ cv 31 14 5 (by decide)).trans rfl)) (by decide)))
  have h5 : seg (encode (.vdivVv cv d a b k)) 9 5 = b := (seg_off _ k 6 9 5 (by decide)).trans (seg_hit _ b 9 ((seg_off _ a 14 9 5 (by decide)).trans ((seg_off _ d 19 9 5 (by decide)).trans ((seg_off _ cv 31 9 5 (by decide)).trans rfl))) (by decide))
  have h6 : seg (encode (.vdivVv cv d a b k)) 6 3 = k := seg_hit _ k 6 ((seg_off _ b 9 6 3 (by decide)).trans ((seg_off _ a 14 6 3 (by decide)).trans ((seg_off _ d 19 6 3 (by decide)).trans ((seg_off _ cv 31 6 3 (by decide)).trans rfl)))) (by decide)
  exact decode_of (form22 m (by simp [decode22, h1, h2, h3, h4, h5, h6]))
theorem RoundTrip.vdivuVv (cv : BitVec 1) (d : BitVec 5) (a : BitVec 5) (b : BitVec 5) (k : BitVec 3) : RoundTrip.Statement (.vdivuVv cv d a b k) := by
  have m : seg (encode (.vdivuVv cv d a b k)) 24 7 = 34#7 := (seg_off _ k 6 24 7 (by decide)).trans ((seg_off _ b 9 24 7 (by decide)).trans ((seg_off _ a 14 24 7 (by decide)).trans ((seg_off _ d 19 24 7 (by decide)).trans ((seg_off _ cv 31 24 7 (by decide)).trans rfl))))
  have h1 : seg (encode (.vdivuVv cv d a b k)) 0 6 = 21#6 := (seg_off _ k 6 0 6 (by decide)).trans ((seg_off _ b 9 0 6 (by decide)).trans ((seg_off _ a 14 0 6 (by decide)).trans ((seg_off _ d 19 0 6 (by decide)).trans ((seg_off _ cv 31 0 6 (by decide)).trans rfl))))
  have h2 : seg (encode (.vdivuVv cv d a b k)) 31 1 = cv := (seg_off _ k 6 31 1 (by decide)).trans ((seg_off _ b 9 31 1 (by decide)).trans ((seg_off _ a 14 31 1 (by decide)).trans ((seg_off _ d 19 31 1 (by decide)).trans (seg_hit _ cv 31 rfl (by decide)))))
  have h3 : seg (encode (.vdivuVv cv d a b k)) 19 5 = d := (seg_off _ k 6 19 5 (by decide)).trans ((seg_off _ b 9 19 5 (by decide)).trans ((seg_off _ a 14 19 5 (by decide)).trans (seg_hit _ d 19 ((seg_off _ cv 31 19 5 (by decide)).trans rfl) (by decide))))
  have h4 : seg (encode (.vdivuVv cv d a b k)) 14 5 = a := (seg_off _ k 6 14 5 (by decide)).trans ((seg_off _ b 9 14 5 (by decide)).trans (seg_hit _ a 14 ((seg_off _ d 19 14 5 (by decide)).trans ((seg_off _ cv 31 14 5 (by decide)).trans rfl)) (by decide)))
  have h5 : seg (encode (.vdivuVv cv d a b k)) 9 5 = b := (seg_off _ k 6 9 5 (by decide)).trans (seg_hit _ b 9 ((seg_off _ a 14 9 5 (by decide)).trans ((seg_off _ d 19 9 5 (by decide)).trans ((seg_off _ cv 31 9 5 (by decide)).trans rfl))) (by decide))
  have h6 : seg (encode (.vdivuVv cv d a b k)) 6 3 = k := seg_hit _ k 6 ((seg_off _ b 9 6 3 (by decide)).trans ((seg_off _ a 14 6 3 (by decide)).trans ((seg_off _ d 19 6 3 (by decide)).trans ((seg_off _ cv 31 6 3 (by decide)).trans rfl)))) (by decide)
  exact decode_of (form22 m (by simp [decode22, h1, h2, h3, h4, h5, h6]))
theorem RoundTrip.vremVv (cv : BitVec 1) (d : BitVec 5) (a : BitVec 5) (b : BitVec 5) (k : BitVec 3) : RoundTrip.Statement (.vremVv cv d a b k) := by
  have m : seg (encode (.vremVv cv d a b k)) 24 7 = 34#7 := (seg_off _ k 6 24 7 (by decide)).trans ((seg_off _ b 9 24 7 (by decide)).trans ((seg_off _ a 14 24 7 (by decide)).trans ((seg_off _ d 19 24 7 (by decide)).trans ((seg_off _ cv 31 24 7 (by decide)).trans rfl))))
  have h1 : seg (encode (.vremVv cv d a b k)) 0 6 = 22#6 := (seg_off _ k 6 0 6 (by decide)).trans ((seg_off _ b 9 0 6 (by decide)).trans ((seg_off _ a 14 0 6 (by decide)).trans ((seg_off _ d 19 0 6 (by decide)).trans ((seg_off _ cv 31 0 6 (by decide)).trans rfl))))
  have h2 : seg (encode (.vremVv cv d a b k)) 31 1 = cv := (seg_off _ k 6 31 1 (by decide)).trans ((seg_off _ b 9 31 1 (by decide)).trans ((seg_off _ a 14 31 1 (by decide)).trans ((seg_off _ d 19 31 1 (by decide)).trans (seg_hit _ cv 31 rfl (by decide)))))
  have h3 : seg (encode (.vremVv cv d a b k)) 19 5 = d := (seg_off _ k 6 19 5 (by decide)).trans ((seg_off _ b 9 19 5 (by decide)).trans ((seg_off _ a 14 19 5 (by decide)).trans (seg_hit _ d 19 ((seg_off _ cv 31 19 5 (by decide)).trans rfl) (by decide))))
  have h4 : seg (encode (.vremVv cv d a b k)) 14 5 = a := (seg_off _ k 6 14 5 (by decide)).trans ((seg_off _ b 9 14 5 (by decide)).trans (seg_hit _ a 14 ((seg_off _ d 19 14 5 (by decide)).trans ((seg_off _ cv 31 14 5 (by decide)).trans rfl)) (by decide)))
  have h5 : seg (encode (.vremVv cv d a b k)) 9 5 = b := (seg_off _ k 6 9 5 (by decide)).trans (seg_hit _ b 9 ((seg_off _ a 14 9 5 (by decide)).trans ((seg_off _ d 19 9 5 (by decide)).trans ((seg_off _ cv 31 9 5 (by decide)).trans rfl))) (by decide))
  have h6 : seg (encode (.vremVv cv d a b k)) 6 3 = k := seg_hit _ k 6 ((seg_off _ b 9 6 3 (by decide)).trans ((seg_off _ a 14 6 3 (by decide)).trans ((seg_off _ d 19 6 3 (by decide)).trans ((seg_off _ cv 31 6 3 (by decide)).trans rfl)))) (by decide)
  exact decode_of (form22 m (by simp [decode22, h1, h2, h3, h4, h5, h6]))
theorem RoundTrip.vremuVv (cv : BitVec 1) (d : BitVec 5) (a : BitVec 5) (b : BitVec 5) (k : BitVec 3) : RoundTrip.Statement (.vremuVv cv d a b k) := by
  have m : seg (encode (.vremuVv cv d a b k)) 24 7 = 34#7 := (seg_off _ k 6 24 7 (by decide)).trans ((seg_off _ b 9 24 7 (by decide)).trans ((seg_off _ a 14 24 7 (by decide)).trans ((seg_off _ d 19 24 7 (by decide)).trans ((seg_off _ cv 31 24 7 (by decide)).trans rfl))))
  have h1 : seg (encode (.vremuVv cv d a b k)) 0 6 = 23#6 := (seg_off _ k 6 0 6 (by decide)).trans ((seg_off _ b 9 0 6 (by decide)).trans ((seg_off _ a 14 0 6 (by decide)).trans ((seg_off _ d 19 0 6 (by decide)).trans ((seg_off _ cv 31 0 6 (by decide)).trans rfl))))
  have h2 : seg (encode (.vremuVv cv d a b k)) 31 1 = cv := (seg_off _ k 6 31 1 (by decide)).trans ((seg_off _ b 9 31 1 (by decide)).trans ((seg_off _ a 14 31 1 (by decide)).trans ((seg_off _ d 19 31 1 (by decide)).trans (seg_hit _ cv 31 rfl (by decide)))))
  have h3 : seg (encode (.vremuVv cv d a b k)) 19 5 = d := (seg_off _ k 6 19 5 (by decide)).trans ((seg_off _ b 9 19 5 (by decide)).trans ((seg_off _ a 14 19 5 (by decide)).trans (seg_hit _ d 19 ((seg_off _ cv 31 19 5 (by decide)).trans rfl) (by decide))))
  have h4 : seg (encode (.vremuVv cv d a b k)) 14 5 = a := (seg_off _ k 6 14 5 (by decide)).trans ((seg_off _ b 9 14 5 (by decide)).trans (seg_hit _ a 14 ((seg_off _ d 19 14 5 (by decide)).trans ((seg_off _ cv 31 14 5 (by decide)).trans rfl)) (by decide)))
  have h5 : seg (encode (.vremuVv cv d a b k)) 9 5 = b := (seg_off _ k 6 9 5 (by decide)).trans (seg_hit _ b 9 ((seg_off _ a 14 9 5 (by decide)).trans ((seg_off _ d 19 9 5 (by decide)).trans ((seg_off _ cv 31 9 5 (by decide)).trans rfl))) (by decide))
  have h6 : seg (encode (.vremuVv cv d a b k)) 6 3 = k := seg_hit _ k 6 ((seg_off _ b 9 6 3 (by decide)).trans ((seg_off _ a 14 6 3 (by decide)).trans ((seg_off _ d 19 6 3 (by decide)).trans ((seg_off _ cv 31 6 3 (by decide)).trans rfl)))) (by decide)
  exact decode_of (form22 m (by simp [decode22, h1, h2, h3, h4, h5, h6]))
theorem RoundTrip.vclzVv (cv : BitVec 1) (d : BitVec 5) (a : BitVec 5) (k : BitVec 3) : RoundTrip.Statement (.vclzVv cv d a k) := by
  have m : seg (encode (.vclzVv cv d a k)) 24 7 = 34#7 := (seg_off _ k 6 24 7 (by decide)).trans ((seg_off _ a 14 24 7 (by decide)).trans ((seg_off _ d 19 24 7 (by decide)).trans ((seg_off _ cv 31 24 7 (by decide)).trans rfl)))
  have h1 : seg (encode (.vclzVv cv d a k)) 0 6 = 24#6 := (seg_off _ k 6 0 6 (by decide)).trans ((seg_off _ a 14 0 6 (by decide)).trans ((seg_off _ d 19 0 6 (by decide)).trans ((seg_off _ cv 31 0 6 (by decide)).trans rfl)))
  have h2 : seg (encode (.vclzVv cv d a k)) 9 5 = 0#5 := (seg_off _ k 6 9 5 (by decide)).trans ((seg_off _ a 14 9 5 (by decide)).trans ((seg_off _ d 19 9 5 (by decide)).trans ((seg_off _ cv 31 9 5 (by decide)).trans rfl)))
  have h3 : seg (encode (.vclzVv cv d a k)) 31 1 = cv := (seg_off _ k 6 31 1 (by decide)).trans ((seg_off _ a 14 31 1 (by decide)).trans ((seg_off _ d 19 31 1 (by decide)).trans (seg_hit _ cv 31 rfl (by decide))))
  have h4 : seg (encode (.vclzVv cv d a k)) 19 5 = d := (seg_off _ k 6 19 5 (by decide)).trans ((seg_off _ a 14 19 5 (by decide)).trans (seg_hit _ d 19 ((seg_off _ cv 31 19 5 (by decide)).trans rfl) (by decide)))
  have h5 : seg (encode (.vclzVv cv d a k)) 14 5 = a := (seg_off _ k 6 14 5 (by decide)).trans (seg_hit _ a 14 ((seg_off _ d 19 14 5 (by decide)).trans ((seg_off _ cv 31 14 5 (by decide)).trans rfl)) (by decide))
  have h6 : seg (encode (.vclzVv cv d a k)) 6 3 = k := seg_hit _ k 6 ((seg_off _ a 14 6 3 (by decide)).trans ((seg_off _ d 19 6 3 (by decide)).trans ((seg_off _ cv 31 6 3 (by decide)).trans rfl))) (by decide)
  exact decode_of (form22 m (by simp [decode22, h1, h2, h3, h4, h5, h6]))
theorem RoundTrip.vctzVv (cv : BitVec 1) (d : BitVec 5) (a : BitVec 5) (k : BitVec 3) : RoundTrip.Statement (.vctzVv cv d a k) := by
  have m : seg (encode (.vctzVv cv d a k)) 24 7 = 34#7 := (seg_off _ k 6 24 7 (by decide)).trans ((seg_off _ a 14 24 7 (by decide)).trans ((seg_off _ d 19 24 7 (by decide)).trans ((seg_off _ cv 31 24 7 (by decide)).trans rfl)))
  have h1 : seg (encode (.vctzVv cv d a k)) 0 6 = 25#6 := (seg_off _ k 6 0 6 (by decide)).trans ((seg_off _ a 14 0 6 (by decide)).trans ((seg_off _ d 19 0 6 (by decide)).trans ((seg_off _ cv 31 0 6 (by decide)).trans rfl)))
  have h2 : seg (encode (.vctzVv cv d a k)) 9 5 = 0#5 := (seg_off _ k 6 9 5 (by decide)).trans ((seg_off _ a 14 9 5 (by decide)).trans ((seg_off _ d 19 9 5 (by decide)).trans ((seg_off _ cv 31 9 5 (by decide)).trans rfl)))
  have h3 : seg (encode (.vctzVv cv d a k)) 31 1 = cv := (seg_off _ k 6 31 1 (by decide)).trans ((seg_off _ a 14 31 1 (by decide)).trans ((seg_off _ d 19 31 1 (by decide)).trans (seg_hit _ cv 31 rfl (by decide))))
  have h4 : seg (encode (.vctzVv cv d a k)) 19 5 = d := (seg_off _ k 6 19 5 (by decide)).trans ((seg_off _ a 14 19 5 (by decide)).trans (seg_hit _ d 19 ((seg_off _ cv 31 19 5 (by decide)).trans rfl) (by decide)))
  have h5 : seg (encode (.vctzVv cv d a k)) 14 5 = a := (seg_off _ k 6 14 5 (by decide)).trans (seg_hit _ a 14 ((seg_off _ d 19 14 5 (by decide)).trans ((seg_off _ cv 31 14 5 (by decide)).trans rfl)) (by decide))
  have h6 : seg (encode (.vctzVv cv d a k)) 6 3 = k := seg_hit _ k 6 ((seg_off _ a 14 6 3 (by decide)).trans ((seg_off _ d 19 6 3 (by decide)).trans ((seg_off _ cv 31 6 3 (by decide)).trans rfl))) (by decide)
  exact decode_of (form22 m (by simp [decode22, h1, h2, h3, h4, h5, h6]))
theorem RoundTrip.vpopcVv (cv : BitVec 1) (d : BitVec 5) (a : BitVec 5) (k : BitVec 3) : RoundTrip.Statement (.vpopcVv cv d a k) := by
  have m : seg (encode (.vpopcVv cv d a k)) 24 7 = 34#7 := (seg_off _ k 6 24 7 (by decide)).trans ((seg_off _ a 14 24 7 (by decide)).trans ((seg_off _ d 19 24 7 (by decide)).trans ((seg_off _ cv 31 24 7 (by decide)).trans rfl)))
  have h1 : seg (encode (.vpopcVv cv d a k)) 0 6 = 26#6 := (seg_off _ k 6 0 6 (by decide)).trans ((seg_off _ a 14 0 6 (by decide)).trans ((seg_off _ d 19 0 6 (by decide)).trans ((seg_off _ cv 31 0 6 (by decide)).trans rfl)))
  have h2 : seg (encode (.vpopcVv cv d a k)) 9 5 = 0#5 := (seg_off _ k 6 9 5 (by decide)).trans ((seg_off _ a 14 9 5 (by decide)).trans ((seg_off _ d 19 9 5 (by decide)).trans ((seg_off _ cv 31 9 5 (by decide)).trans rfl)))
  have h3 : seg (encode (.vpopcVv cv d a k)) 31 1 = cv := (seg_off _ k 6 31 1 (by decide)).trans ((seg_off _ a 14 31 1 (by decide)).trans ((seg_off _ d 19 31 1 (by decide)).trans (seg_hit _ cv 31 rfl (by decide))))
  have h4 : seg (encode (.vpopcVv cv d a k)) 19 5 = d := (seg_off _ k 6 19 5 (by decide)).trans ((seg_off _ a 14 19 5 (by decide)).trans (seg_hit _ d 19 ((seg_off _ cv 31 19 5 (by decide)).trans rfl) (by decide)))
  have h5 : seg (encode (.vpopcVv cv d a k)) 14 5 = a := (seg_off _ k 6 14 5 (by decide)).trans (seg_hit _ a 14 ((seg_off _ d 19 14 5 (by decide)).trans ((seg_off _ cv 31 14 5 (by decide)).trans rfl)) (by decide))
  have h6 : seg (encode (.vpopcVv cv d a k)) 6 3 = k := seg_hit _ k 6 ((seg_off _ a 14 6 3 (by decide)).trans ((seg_off _ d 19 6 3 (by decide)).trans ((seg_off _ cv 31 6 3 (by decide)).trans rfl))) (by decide)
  exact decode_of (form22 m (by simp [decode22, h1, h2, h3, h4, h5, h6]))
theorem RoundTrip.vaddVx (cv : BitVec 1) (d : BitVec 5) (a : BitVec 5) (x : BitVec 6) (k : BitVec 3) : RoundTrip.Statement (.vaddVx cv d a x k) := by
  have m : seg (encode (.vaddVx cv d a x k)) 24 7 = 35#7 := (seg_off _ k 5 24 7 (by decide)).trans ((seg_off _ x 8 24 7 (by decide)).trans ((seg_off _ a 14 24 7 (by decide)).trans ((seg_off _ d 19 24 7 (by decide)).trans ((seg_off _ cv 31 24 7 (by decide)).trans rfl))))
  have h1 : seg (encode (.vaddVx cv d a x k)) 0 5 = 0#5 := (seg_off _ k 5 0 5 (by decide)).trans ((seg_off _ x 8 0 5 (by decide)).trans ((seg_off _ a 14 0 5 (by decide)).trans ((seg_off _ d 19 0 5 (by decide)).trans ((seg_off _ cv 31 0 5 (by decide)).trans rfl))))
  have h2 : seg (encode (.vaddVx cv d a x k)) 31 1 = cv := (seg_off _ k 5 31 1 (by decide)).trans ((seg_off _ x 8 31 1 (by decide)).trans ((seg_off _ a 14 31 1 (by decide)).trans ((seg_off _ d 19 31 1 (by decide)).trans (seg_hit _ cv 31 rfl (by decide)))))
  have h3 : seg (encode (.vaddVx cv d a x k)) 19 5 = d := (seg_off _ k 5 19 5 (by decide)).trans ((seg_off _ x 8 19 5 (by decide)).trans ((seg_off _ a 14 19 5 (by decide)).trans (seg_hit _ d 19 ((seg_off _ cv 31 19 5 (by decide)).trans rfl) (by decide))))
  have h4 : seg (encode (.vaddVx cv d a x k)) 14 5 = a := (seg_off _ k 5 14 5 (by decide)).trans ((seg_off _ x 8 14 5 (by decide)).trans (seg_hit _ a 14 ((seg_off _ d 19 14 5 (by decide)).trans ((seg_off _ cv 31 14 5 (by decide)).trans rfl)) (by decide)))
  have h5 : seg (encode (.vaddVx cv d a x k)) 8 6 = x := (seg_off _ k 5 8 6 (by decide)).trans (seg_hit _ x 8 ((seg_off _ a 14 8 6 (by decide)).trans ((seg_off _ d 19 8 6 (by decide)).trans ((seg_off _ cv 31 8 6 (by decide)).trans rfl))) (by decide))
  have h6 : seg (encode (.vaddVx cv d a x k)) 5 3 = k := seg_hit _ k 5 ((seg_off _ x 8 5 3 (by decide)).trans ((seg_off _ a 14 5 3 (by decide)).trans ((seg_off _ d 19 5 3 (by decide)).trans ((seg_off _ cv 31 5 3 (by decide)).trans rfl)))) (by decide)
  exact decode_of (form23 m (by simp [decode23, h1, h2, h3, h4, h5, h6]))
theorem RoundTrip.vsubVx (cv : BitVec 1) (d : BitVec 5) (a : BitVec 5) (x : BitVec 6) (k : BitVec 3) : RoundTrip.Statement (.vsubVx cv d a x k) := by
  have m : seg (encode (.vsubVx cv d a x k)) 24 7 = 35#7 := (seg_off _ k 5 24 7 (by decide)).trans ((seg_off _ x 8 24 7 (by decide)).trans ((seg_off _ a 14 24 7 (by decide)).trans ((seg_off _ d 19 24 7 (by decide)).trans ((seg_off _ cv 31 24 7 (by decide)).trans rfl))))
  have h1 : seg (encode (.vsubVx cv d a x k)) 0 5 = 1#5 := (seg_off _ k 5 0 5 (by decide)).trans ((seg_off _ x 8 0 5 (by decide)).trans ((seg_off _ a 14 0 5 (by decide)).trans ((seg_off _ d 19 0 5 (by decide)).trans ((seg_off _ cv 31 0 5 (by decide)).trans rfl))))
  have h2 : seg (encode (.vsubVx cv d a x k)) 31 1 = cv := (seg_off _ k 5 31 1 (by decide)).trans ((seg_off _ x 8 31 1 (by decide)).trans ((seg_off _ a 14 31 1 (by decide)).trans ((seg_off _ d 19 31 1 (by decide)).trans (seg_hit _ cv 31 rfl (by decide)))))
  have h3 : seg (encode (.vsubVx cv d a x k)) 19 5 = d := (seg_off _ k 5 19 5 (by decide)).trans ((seg_off _ x 8 19 5 (by decide)).trans ((seg_off _ a 14 19 5 (by decide)).trans (seg_hit _ d 19 ((seg_off _ cv 31 19 5 (by decide)).trans rfl) (by decide))))
  have h4 : seg (encode (.vsubVx cv d a x k)) 14 5 = a := (seg_off _ k 5 14 5 (by decide)).trans ((seg_off _ x 8 14 5 (by decide)).trans (seg_hit _ a 14 ((seg_off _ d 19 14 5 (by decide)).trans ((seg_off _ cv 31 14 5 (by decide)).trans rfl)) (by decide)))
  have h5 : seg (encode (.vsubVx cv d a x k)) 8 6 = x := (seg_off _ k 5 8 6 (by decide)).trans (seg_hit _ x 8 ((seg_off _ a 14 8 6 (by decide)).trans ((seg_off _ d 19 8 6 (by decide)).trans ((seg_off _ cv 31 8 6 (by decide)).trans rfl))) (by decide))
  have h6 : seg (encode (.vsubVx cv d a x k)) 5 3 = k := seg_hit _ k 5 ((seg_off _ x 8 5 3 (by decide)).trans ((seg_off _ a 14 5 3 (by decide)).trans ((seg_off _ d 19 5 3 (by decide)).trans ((seg_off _ cv 31 5 3 (by decide)).trans rfl)))) (by decide)
  exact decode_of (form23 m (by simp [decode23, h1, h2, h3, h4, h5, h6]))
theorem RoundTrip.vandVx (cv : BitVec 1) (d : BitVec 5) (a : BitVec 5) (x : BitVec 6) (k : BitVec 3) : RoundTrip.Statement (.vandVx cv d a x k) := by
  have m : seg (encode (.vandVx cv d a x k)) 24 7 = 35#7 := (seg_off _ k 5 24 7 (by decide)).trans ((seg_off _ x 8 24 7 (by decide)).trans ((seg_off _ a 14 24 7 (by decide)).trans ((seg_off _ d 19 24 7 (by decide)).trans ((seg_off _ cv 31 24 7 (by decide)).trans rfl))))
  have h1 : seg (encode (.vandVx cv d a x k)) 0 5 = 2#5 := (seg_off _ k 5 0 5 (by decide)).trans ((seg_off _ x 8 0 5 (by decide)).trans ((seg_off _ a 14 0 5 (by decide)).trans ((seg_off _ d 19 0 5 (by decide)).trans ((seg_off _ cv 31 0 5 (by decide)).trans rfl))))
  have h2 : seg (encode (.vandVx cv d a x k)) 31 1 = cv := (seg_off _ k 5 31 1 (by decide)).trans ((seg_off _ x 8 31 1 (by decide)).trans ((seg_off _ a 14 31 1 (by decide)).trans ((seg_off _ d 19 31 1 (by decide)).trans (seg_hit _ cv 31 rfl (by decide)))))
  have h3 : seg (encode (.vandVx cv d a x k)) 19 5 = d := (seg_off _ k 5 19 5 (by decide)).trans ((seg_off _ x 8 19 5 (by decide)).trans ((seg_off _ a 14 19 5 (by decide)).trans (seg_hit _ d 19 ((seg_off _ cv 31 19 5 (by decide)).trans rfl) (by decide))))
  have h4 : seg (encode (.vandVx cv d a x k)) 14 5 = a := (seg_off _ k 5 14 5 (by decide)).trans ((seg_off _ x 8 14 5 (by decide)).trans (seg_hit _ a 14 ((seg_off _ d 19 14 5 (by decide)).trans ((seg_off _ cv 31 14 5 (by decide)).trans rfl)) (by decide)))
  have h5 : seg (encode (.vandVx cv d a x k)) 8 6 = x := (seg_off _ k 5 8 6 (by decide)).trans (seg_hit _ x 8 ((seg_off _ a 14 8 6 (by decide)).trans ((seg_off _ d 19 8 6 (by decide)).trans ((seg_off _ cv 31 8 6 (by decide)).trans rfl))) (by decide))
  have h6 : seg (encode (.vandVx cv d a x k)) 5 3 = k := seg_hit _ k 5 ((seg_off _ x 8 5 3 (by decide)).trans ((seg_off _ a 14 5 3 (by decide)).trans ((seg_off _ d 19 5 3 (by decide)).trans ((seg_off _ cv 31 5 3 (by decide)).trans rfl)))) (by decide)
  exact decode_of (form23 m (by simp [decode23, h1, h2, h3, h4, h5, h6]))
theorem RoundTrip.vorVx (cv : BitVec 1) (d : BitVec 5) (a : BitVec 5) (x : BitVec 6) (k : BitVec 3) : RoundTrip.Statement (.vorVx cv d a x k) := by
  have m : seg (encode (.vorVx cv d a x k)) 24 7 = 35#7 := (seg_off _ k 5 24 7 (by decide)).trans ((seg_off _ x 8 24 7 (by decide)).trans ((seg_off _ a 14 24 7 (by decide)).trans ((seg_off _ d 19 24 7 (by decide)).trans ((seg_off _ cv 31 24 7 (by decide)).trans rfl))))
  have h1 : seg (encode (.vorVx cv d a x k)) 0 5 = 3#5 := (seg_off _ k 5 0 5 (by decide)).trans ((seg_off _ x 8 0 5 (by decide)).trans ((seg_off _ a 14 0 5 (by decide)).trans ((seg_off _ d 19 0 5 (by decide)).trans ((seg_off _ cv 31 0 5 (by decide)).trans rfl))))
  have h2 : seg (encode (.vorVx cv d a x k)) 31 1 = cv := (seg_off _ k 5 31 1 (by decide)).trans ((seg_off _ x 8 31 1 (by decide)).trans ((seg_off _ a 14 31 1 (by decide)).trans ((seg_off _ d 19 31 1 (by decide)).trans (seg_hit _ cv 31 rfl (by decide)))))
  have h3 : seg (encode (.vorVx cv d a x k)) 19 5 = d := (seg_off _ k 5 19 5 (by decide)).trans ((seg_off _ x 8 19 5 (by decide)).trans ((seg_off _ a 14 19 5 (by decide)).trans (seg_hit _ d 19 ((seg_off _ cv 31 19 5 (by decide)).trans rfl) (by decide))))
  have h4 : seg (encode (.vorVx cv d a x k)) 14 5 = a := (seg_off _ k 5 14 5 (by decide)).trans ((seg_off _ x 8 14 5 (by decide)).trans (seg_hit _ a 14 ((seg_off _ d 19 14 5 (by decide)).trans ((seg_off _ cv 31 14 5 (by decide)).trans rfl)) (by decide)))
  have h5 : seg (encode (.vorVx cv d a x k)) 8 6 = x := (seg_off _ k 5 8 6 (by decide)).trans (seg_hit _ x 8 ((seg_off _ a 14 8 6 (by decide)).trans ((seg_off _ d 19 8 6 (by decide)).trans ((seg_off _ cv 31 8 6 (by decide)).trans rfl))) (by decide))
  have h6 : seg (encode (.vorVx cv d a x k)) 5 3 = k := seg_hit _ k 5 ((seg_off _ x 8 5 3 (by decide)).trans ((seg_off _ a 14 5 3 (by decide)).trans ((seg_off _ d 19 5 3 (by decide)).trans ((seg_off _ cv 31 5 3 (by decide)).trans rfl)))) (by decide)
  exact decode_of (form23 m (by simp [decode23, h1, h2, h3, h4, h5, h6]))
theorem RoundTrip.vxorVx (cv : BitVec 1) (d : BitVec 5) (a : BitVec 5) (x : BitVec 6) (k : BitVec 3) : RoundTrip.Statement (.vxorVx cv d a x k) := by
  have m : seg (encode (.vxorVx cv d a x k)) 24 7 = 35#7 := (seg_off _ k 5 24 7 (by decide)).trans ((seg_off _ x 8 24 7 (by decide)).trans ((seg_off _ a 14 24 7 (by decide)).trans ((seg_off _ d 19 24 7 (by decide)).trans ((seg_off _ cv 31 24 7 (by decide)).trans rfl))))
  have h1 : seg (encode (.vxorVx cv d a x k)) 0 5 = 4#5 := (seg_off _ k 5 0 5 (by decide)).trans ((seg_off _ x 8 0 5 (by decide)).trans ((seg_off _ a 14 0 5 (by decide)).trans ((seg_off _ d 19 0 5 (by decide)).trans ((seg_off _ cv 31 0 5 (by decide)).trans rfl))))
  have h2 : seg (encode (.vxorVx cv d a x k)) 31 1 = cv := (seg_off _ k 5 31 1 (by decide)).trans ((seg_off _ x 8 31 1 (by decide)).trans ((seg_off _ a 14 31 1 (by decide)).trans ((seg_off _ d 19 31 1 (by decide)).trans (seg_hit _ cv 31 rfl (by decide)))))
  have h3 : seg (encode (.vxorVx cv d a x k)) 19 5 = d := (seg_off _ k 5 19 5 (by decide)).trans ((seg_off _ x 8 19 5 (by decide)).trans ((seg_off _ a 14 19 5 (by decide)).trans (seg_hit _ d 19 ((seg_off _ cv 31 19 5 (by decide)).trans rfl) (by decide))))
  have h4 : seg (encode (.vxorVx cv d a x k)) 14 5 = a := (seg_off _ k 5 14 5 (by decide)).trans ((seg_off _ x 8 14 5 (by decide)).trans (seg_hit _ a 14 ((seg_off _ d 19 14 5 (by decide)).trans ((seg_off _ cv 31 14 5 (by decide)).trans rfl)) (by decide)))
  have h5 : seg (encode (.vxorVx cv d a x k)) 8 6 = x := (seg_off _ k 5 8 6 (by decide)).trans (seg_hit _ x 8 ((seg_off _ a 14 8 6 (by decide)).trans ((seg_off _ d 19 8 6 (by decide)).trans ((seg_off _ cv 31 8 6 (by decide)).trans rfl))) (by decide))
  have h6 : seg (encode (.vxorVx cv d a x k)) 5 3 = k := seg_hit _ k 5 ((seg_off _ x 8 5 3 (by decide)).trans ((seg_off _ a 14 5 3 (by decide)).trans ((seg_off _ d 19 5 3 (by decide)).trans ((seg_off _ cv 31 5 3 (by decide)).trans rfl)))) (by decide)
  exact decode_of (form23 m (by simp [decode23, h1, h2, h3, h4, h5, h6]))
theorem RoundTrip.vsllVx (cv : BitVec 1) (d : BitVec 5) (a : BitVec 5) (x : BitVec 6) (k : BitVec 3) : RoundTrip.Statement (.vsllVx cv d a x k) := by
  have m : seg (encode (.vsllVx cv d a x k)) 24 7 = 35#7 := (seg_off _ k 5 24 7 (by decide)).trans ((seg_off _ x 8 24 7 (by decide)).trans ((seg_off _ a 14 24 7 (by decide)).trans ((seg_off _ d 19 24 7 (by decide)).trans ((seg_off _ cv 31 24 7 (by decide)).trans rfl))))
  have h1 : seg (encode (.vsllVx cv d a x k)) 0 5 = 5#5 := (seg_off _ k 5 0 5 (by decide)).trans ((seg_off _ x 8 0 5 (by decide)).trans ((seg_off _ a 14 0 5 (by decide)).trans ((seg_off _ d 19 0 5 (by decide)).trans ((seg_off _ cv 31 0 5 (by decide)).trans rfl))))
  have h2 : seg (encode (.vsllVx cv d a x k)) 31 1 = cv := (seg_off _ k 5 31 1 (by decide)).trans ((seg_off _ x 8 31 1 (by decide)).trans ((seg_off _ a 14 31 1 (by decide)).trans ((seg_off _ d 19 31 1 (by decide)).trans (seg_hit _ cv 31 rfl (by decide)))))
  have h3 : seg (encode (.vsllVx cv d a x k)) 19 5 = d := (seg_off _ k 5 19 5 (by decide)).trans ((seg_off _ x 8 19 5 (by decide)).trans ((seg_off _ a 14 19 5 (by decide)).trans (seg_hit _ d 19 ((seg_off _ cv 31 19 5 (by decide)).trans rfl) (by decide))))
  have h4 : seg (encode (.vsllVx cv d a x k)) 14 5 = a := (seg_off _ k 5 14 5 (by decide)).trans ((seg_off _ x 8 14 5 (by decide)).trans (seg_hit _ a 14 ((seg_off _ d 19 14 5 (by decide)).trans ((seg_off _ cv 31 14 5 (by decide)).trans rfl)) (by decide)))
  have h5 : seg (encode (.vsllVx cv d a x k)) 8 6 = x := (seg_off _ k 5 8 6 (by decide)).trans (seg_hit _ x 8 ((seg_off _ a 14 8 6 (by decide)).trans ((seg_off _ d 19 8 6 (by decide)).trans ((seg_off _ cv 31 8 6 (by decide)).trans rfl))) (by decide))
  have h6 : seg (encode (.vsllVx cv d a x k)) 5 3 = k := seg_hit _ k 5 ((seg_off _ x 8 5 3 (by decide)).trans ((seg_off _ a 14 5 3 (by decide)).trans ((seg_off _ d 19 5 3 (by decide)).trans ((seg_off _ cv 31 5 3 (by decide)).trans rfl)))) (by decide)
  exact decode_of (form23 m (by simp [decode23, h1, h2, h3, h4, h5, h6]))
theorem RoundTrip.vsrlVx (cv : BitVec 1) (d : BitVec 5) (a : BitVec 5) (x : BitVec 6) (k : BitVec 3) : RoundTrip.Statement (.vsrlVx cv d a x k) := by
  have m : seg (encode (.vsrlVx cv d a x k)) 24 7 = 35#7 := (seg_off _ k 5 24 7 (by decide)).trans ((seg_off _ x 8 24 7 (by decide)).trans ((seg_off _ a 14 24 7 (by decide)).trans ((seg_off _ d 19 24 7 (by decide)).trans ((seg_off _ cv 31 24 7 (by decide)).trans rfl))))
  have h1 : seg (encode (.vsrlVx cv d a x k)) 0 5 = 6#5 := (seg_off _ k 5 0 5 (by decide)).trans ((seg_off _ x 8 0 5 (by decide)).trans ((seg_off _ a 14 0 5 (by decide)).trans ((seg_off _ d 19 0 5 (by decide)).trans ((seg_off _ cv 31 0 5 (by decide)).trans rfl))))
  have h2 : seg (encode (.vsrlVx cv d a x k)) 31 1 = cv := (seg_off _ k 5 31 1 (by decide)).trans ((seg_off _ x 8 31 1 (by decide)).trans ((seg_off _ a 14 31 1 (by decide)).trans ((seg_off _ d 19 31 1 (by decide)).trans (seg_hit _ cv 31 rfl (by decide)))))
  have h3 : seg (encode (.vsrlVx cv d a x k)) 19 5 = d := (seg_off _ k 5 19 5 (by decide)).trans ((seg_off _ x 8 19 5 (by decide)).trans ((seg_off _ a 14 19 5 (by decide)).trans (seg_hit _ d 19 ((seg_off _ cv 31 19 5 (by decide)).trans rfl) (by decide))))
  have h4 : seg (encode (.vsrlVx cv d a x k)) 14 5 = a := (seg_off _ k 5 14 5 (by decide)).trans ((seg_off _ x 8 14 5 (by decide)).trans (seg_hit _ a 14 ((seg_off _ d 19 14 5 (by decide)).trans ((seg_off _ cv 31 14 5 (by decide)).trans rfl)) (by decide)))
  have h5 : seg (encode (.vsrlVx cv d a x k)) 8 6 = x := (seg_off _ k 5 8 6 (by decide)).trans (seg_hit _ x 8 ((seg_off _ a 14 8 6 (by decide)).trans ((seg_off _ d 19 8 6 (by decide)).trans ((seg_off _ cv 31 8 6 (by decide)).trans rfl))) (by decide))
  have h6 : seg (encode (.vsrlVx cv d a x k)) 5 3 = k := seg_hit _ k 5 ((seg_off _ x 8 5 3 (by decide)).trans ((seg_off _ a 14 5 3 (by decide)).trans ((seg_off _ d 19 5 3 (by decide)).trans ((seg_off _ cv 31 5 3 (by decide)).trans rfl)))) (by decide)
  exact decode_of (form23 m (by simp [decode23, h1, h2, h3, h4, h5, h6]))
theorem RoundTrip.vsraVx (cv : BitVec 1) (d : BitVec 5) (a : BitVec 5) (x : BitVec 6) (k : BitVec 3) : RoundTrip.Statement (.vsraVx cv d a x k) := by
  have m : seg (encode (.vsraVx cv d a x k)) 24 7 = 35#7 := (seg_off _ k 5 24 7 (by decide)).trans ((seg_off _ x 8 24 7 (by decide)).trans ((seg_off _ a 14 24 7 (by decide)).trans ((seg_off _ d 19 24 7 (by decide)).trans ((seg_off _ cv 31 24 7 (by decide)).trans rfl))))
  have h1 : seg (encode (.vsraVx cv d a x k)) 0 5 = 7#5 := (seg_off _ k 5 0 5 (by decide)).trans ((seg_off _ x 8 0 5 (by decide)).trans ((seg_off _ a 14 0 5 (by decide)).trans ((seg_off _ d 19 0 5 (by decide)).trans ((seg_off _ cv 31 0 5 (by decide)).trans rfl))))
  have h2 : seg (encode (.vsraVx cv d a x k)) 31 1 = cv := (seg_off _ k 5 31 1 (by decide)).trans ((seg_off _ x 8 31 1 (by decide)).trans ((seg_off _ a 14 31 1 (by decide)).trans ((seg_off _ d 19 31 1 (by decide)).trans (seg_hit _ cv 31 rfl (by decide)))))
  have h3 : seg (encode (.vsraVx cv d a x k)) 19 5 = d := (seg_off _ k 5 19 5 (by decide)).trans ((seg_off _ x 8 19 5 (by decide)).trans ((seg_off _ a 14 19 5 (by decide)).trans (seg_hit _ d 19 ((seg_off _ cv 31 19 5 (by decide)).trans rfl) (by decide))))
  have h4 : seg (encode (.vsraVx cv d a x k)) 14 5 = a := (seg_off _ k 5 14 5 (by decide)).trans ((seg_off _ x 8 14 5 (by decide)).trans (seg_hit _ a 14 ((seg_off _ d 19 14 5 (by decide)).trans ((seg_off _ cv 31 14 5 (by decide)).trans rfl)) (by decide)))
  have h5 : seg (encode (.vsraVx cv d a x k)) 8 6 = x := (seg_off _ k 5 8 6 (by decide)).trans (seg_hit _ x 8 ((seg_off _ a 14 8 6 (by decide)).trans ((seg_off _ d 19 8 6 (by decide)).trans ((seg_off _ cv 31 8 6 (by decide)).trans rfl))) (by decide))
  have h6 : seg (encode (.vsraVx cv d a x k)) 5 3 = k := seg_hit _ k 5 ((seg_off _ x 8 5 3 (by decide)).trans ((seg_off _ a 14 5 3 (by decide)).trans ((seg_off _ d 19 5 3 (by decide)).trans ((seg_off _ cv 31 5 3 (by decide)).trans rfl)))) (by decide)
  exact decode_of (form23 m (by simp [decode23, h1, h2, h3, h4, h5, h6]))
theorem RoundTrip.vminVx (cv : BitVec 1) (d : BitVec 5) (a : BitVec 5) (x : BitVec 6) (k : BitVec 3) : RoundTrip.Statement (.vminVx cv d a x k) := by
  have m : seg (encode (.vminVx cv d a x k)) 24 7 = 35#7 := (seg_off _ k 5 24 7 (by decide)).trans ((seg_off _ x 8 24 7 (by decide)).trans ((seg_off _ a 14 24 7 (by decide)).trans ((seg_off _ d 19 24 7 (by decide)).trans ((seg_off _ cv 31 24 7 (by decide)).trans rfl))))
  have h1 : seg (encode (.vminVx cv d a x k)) 0 5 = 10#5 := (seg_off _ k 5 0 5 (by decide)).trans ((seg_off _ x 8 0 5 (by decide)).trans ((seg_off _ a 14 0 5 (by decide)).trans ((seg_off _ d 19 0 5 (by decide)).trans ((seg_off _ cv 31 0 5 (by decide)).trans rfl))))
  have h2 : seg (encode (.vminVx cv d a x k)) 31 1 = cv := (seg_off _ k 5 31 1 (by decide)).trans ((seg_off _ x 8 31 1 (by decide)).trans ((seg_off _ a 14 31 1 (by decide)).trans ((seg_off _ d 19 31 1 (by decide)).trans (seg_hit _ cv 31 rfl (by decide)))))
  have h3 : seg (encode (.vminVx cv d a x k)) 19 5 = d := (seg_off _ k 5 19 5 (by decide)).trans ((seg_off _ x 8 19 5 (by decide)).trans ((seg_off _ a 14 19 5 (by decide)).trans (seg_hit _ d 19 ((seg_off _ cv 31 19 5 (by decide)).trans rfl) (by decide))))
  have h4 : seg (encode (.vminVx cv d a x k)) 14 5 = a := (seg_off _ k 5 14 5 (by decide)).trans ((seg_off _ x 8 14 5 (by decide)).trans (seg_hit _ a 14 ((seg_off _ d 19 14 5 (by decide)).trans ((seg_off _ cv 31 14 5 (by decide)).trans rfl)) (by decide)))
  have h5 : seg (encode (.vminVx cv d a x k)) 8 6 = x := (seg_off _ k 5 8 6 (by decide)).trans (seg_hit _ x 8 ((seg_off _ a 14 8 6 (by decide)).trans ((seg_off _ d 19 8 6 (by decide)).trans ((seg_off _ cv 31 8 6 (by decide)).trans rfl))) (by decide))
  have h6 : seg (encode (.vminVx cv d a x k)) 5 3 = k := seg_hit _ k 5 ((seg_off _ x 8 5 3 (by decide)).trans ((seg_off _ a 14 5 3 (by decide)).trans ((seg_off _ d 19 5 3 (by decide)).trans ((seg_off _ cv 31 5 3 (by decide)).trans rfl)))) (by decide)
  exact decode_of (form23 m (by simp [decode23, h1, h2, h3, h4, h5, h6]))
theorem RoundTrip.vmaxVx (cv : BitVec 1) (d : BitVec 5) (a : BitVec 5) (x : BitVec 6) (k : BitVec 3) : RoundTrip.Statement (.vmaxVx cv d a x k) := by
  have m : seg (encode (.vmaxVx cv d a x k)) 24 7 = 35#7 := (seg_off _ k 5 24 7 (by decide)).trans ((seg_off _ x 8 24 7 (by decide)).trans ((seg_off _ a 14 24 7 (by decide)).trans ((seg_off _ d 19 24 7 (by decide)).trans ((seg_off _ cv 31 24 7 (by decide)).trans rfl))))
  have h1 : seg (encode (.vmaxVx cv d a x k)) 0 5 = 11#5 := (seg_off _ k 5 0 5 (by decide)).trans ((seg_off _ x 8 0 5 (by decide)).trans ((seg_off _ a 14 0 5 (by decide)).trans ((seg_off _ d 19 0 5 (by decide)).trans ((seg_off _ cv 31 0 5 (by decide)).trans rfl))))
  have h2 : seg (encode (.vmaxVx cv d a x k)) 31 1 = cv := (seg_off _ k 5 31 1 (by decide)).trans ((seg_off _ x 8 31 1 (by decide)).trans ((seg_off _ a 14 31 1 (by decide)).trans ((seg_off _ d 19 31 1 (by decide)).trans (seg_hit _ cv 31 rfl (by decide)))))
  have h3 : seg (encode (.vmaxVx cv d a x k)) 19 5 = d := (seg_off _ k 5 19 5 (by decide)).trans ((seg_off _ x 8 19 5 (by decide)).trans ((seg_off _ a 14 19 5 (by decide)).trans (seg_hit _ d 19 ((seg_off _ cv 31 19 5 (by decide)).trans rfl) (by decide))))
  have h4 : seg (encode (.vmaxVx cv d a x k)) 14 5 = a := (seg_off _ k 5 14 5 (by decide)).trans ((seg_off _ x 8 14 5 (by decide)).trans (seg_hit _ a 14 ((seg_off _ d 19 14 5 (by decide)).trans ((seg_off _ cv 31 14 5 (by decide)).trans rfl)) (by decide)))
  have h5 : seg (encode (.vmaxVx cv d a x k)) 8 6 = x := (seg_off _ k 5 8 6 (by decide)).trans (seg_hit _ x 8 ((seg_off _ a 14 8 6 (by decide)).trans ((seg_off _ d 19 8 6 (by decide)).trans ((seg_off _ cv 31 8 6 (by decide)).trans rfl))) (by decide))
  have h6 : seg (encode (.vmaxVx cv d a x k)) 5 3 = k := seg_hit _ k 5 ((seg_off _ x 8 5 3 (by decide)).trans ((seg_off _ a 14 5 3 (by decide)).trans ((seg_off _ d 19 5 3 (by decide)).trans ((seg_off _ cv 31 5 3 (by decide)).trans rfl)))) (by decide)
  exact decode_of (form23 m (by simp [decode23, h1, h2, h3, h4, h5, h6]))
theorem RoundTrip.vminuVx (cv : BitVec 1) (d : BitVec 5) (a : BitVec 5) (x : BitVec 6) (k : BitVec 3) : RoundTrip.Statement (.vminuVx cv d a x k) := by
  have m : seg (encode (.vminuVx cv d a x k)) 24 7 = 35#7 := (seg_off _ k 5 24 7 (by decide)).trans ((seg_off _ x 8 24 7 (by decide)).trans ((seg_off _ a 14 24 7 (by decide)).trans ((seg_off _ d 19 24 7 (by decide)).trans ((seg_off _ cv 31 24 7 (by decide)).trans rfl))))
  have h1 : seg (encode (.vminuVx cv d a x k)) 0 5 = 12#5 := (seg_off _ k 5 0 5 (by decide)).trans ((seg_off _ x 8 0 5 (by decide)).trans ((seg_off _ a 14 0 5 (by decide)).trans ((seg_off _ d 19 0 5 (by decide)).trans ((seg_off _ cv 31 0 5 (by decide)).trans rfl))))
  have h2 : seg (encode (.vminuVx cv d a x k)) 31 1 = cv := (seg_off _ k 5 31 1 (by decide)).trans ((seg_off _ x 8 31 1 (by decide)).trans ((seg_off _ a 14 31 1 (by decide)).trans ((seg_off _ d 19 31 1 (by decide)).trans (seg_hit _ cv 31 rfl (by decide)))))
  have h3 : seg (encode (.vminuVx cv d a x k)) 19 5 = d := (seg_off _ k 5 19 5 (by decide)).trans ((seg_off _ x 8 19 5 (by decide)).trans ((seg_off _ a 14 19 5 (by decide)).trans (seg_hit _ d 19 ((seg_off _ cv 31 19 5 (by decide)).trans rfl) (by decide))))
  have h4 : seg (encode (.vminuVx cv d a x k)) 14 5 = a := (seg_off _ k 5 14 5 (by decide)).trans ((seg_off _ x 8 14 5 (by decide)).trans (seg_hit _ a 14 ((seg_off _ d 19 14 5 (by decide)).trans ((seg_off _ cv 31 14 5 (by decide)).trans rfl)) (by decide)))
  have h5 : seg (encode (.vminuVx cv d a x k)) 8 6 = x := (seg_off _ k 5 8 6 (by decide)).trans (seg_hit _ x 8 ((seg_off _ a 14 8 6 (by decide)).trans ((seg_off _ d 19 8 6 (by decide)).trans ((seg_off _ cv 31 8 6 (by decide)).trans rfl))) (by decide))
  have h6 : seg (encode (.vminuVx cv d a x k)) 5 3 = k := seg_hit _ k 5 ((seg_off _ x 8 5 3 (by decide)).trans ((seg_off _ a 14 5 3 (by decide)).trans ((seg_off _ d 19 5 3 (by decide)).trans ((seg_off _ cv 31 5 3 (by decide)).trans rfl)))) (by decide)
  exact decode_of (form23 m (by simp [decode23, h1, h2, h3, h4, h5, h6]))
theorem RoundTrip.vmaxuVx (cv : BitVec 1) (d : BitVec 5) (a : BitVec 5) (x : BitVec 6) (k : BitVec 3) : RoundTrip.Statement (.vmaxuVx cv d a x k) := by
  have m : seg (encode (.vmaxuVx cv d a x k)) 24 7 = 35#7 := (seg_off _ k 5 24 7 (by decide)).trans ((seg_off _ x 8 24 7 (by decide)).trans ((seg_off _ a 14 24 7 (by decide)).trans ((seg_off _ d 19 24 7 (by decide)).trans ((seg_off _ cv 31 24 7 (by decide)).trans rfl))))
  have h1 : seg (encode (.vmaxuVx cv d a x k)) 0 5 = 13#5 := (seg_off _ k 5 0 5 (by decide)).trans ((seg_off _ x 8 0 5 (by decide)).trans ((seg_off _ a 14 0 5 (by decide)).trans ((seg_off _ d 19 0 5 (by decide)).trans ((seg_off _ cv 31 0 5 (by decide)).trans rfl))))
  have h2 : seg (encode (.vmaxuVx cv d a x k)) 31 1 = cv := (seg_off _ k 5 31 1 (by decide)).trans ((seg_off _ x 8 31 1 (by decide)).trans ((seg_off _ a 14 31 1 (by decide)).trans ((seg_off _ d 19 31 1 (by decide)).trans (seg_hit _ cv 31 rfl (by decide)))))
  have h3 : seg (encode (.vmaxuVx cv d a x k)) 19 5 = d := (seg_off _ k 5 19 5 (by decide)).trans ((seg_off _ x 8 19 5 (by decide)).trans ((seg_off _ a 14 19 5 (by decide)).trans (seg_hit _ d 19 ((seg_off _ cv 31 19 5 (by decide)).trans rfl) (by decide))))
  have h4 : seg (encode (.vmaxuVx cv d a x k)) 14 5 = a := (seg_off _ k 5 14 5 (by decide)).trans ((seg_off _ x 8 14 5 (by decide)).trans (seg_hit _ a 14 ((seg_off _ d 19 14 5 (by decide)).trans ((seg_off _ cv 31 14 5 (by decide)).trans rfl)) (by decide)))
  have h5 : seg (encode (.vmaxuVx cv d a x k)) 8 6 = x := (seg_off _ k 5 8 6 (by decide)).trans (seg_hit _ x 8 ((seg_off _ a 14 8 6 (by decide)).trans ((seg_off _ d 19 8 6 (by decide)).trans ((seg_off _ cv 31 8 6 (by decide)).trans rfl))) (by decide))
  have h6 : seg (encode (.vmaxuVx cv d a x k)) 5 3 = k := seg_hit _ k 5 ((seg_off _ x 8 5 3 (by decide)).trans ((seg_off _ a 14 5 3 (by decide)).trans ((seg_off _ d 19 5 3 (by decide)).trans ((seg_off _ cv 31 5 3 (by decide)).trans rfl)))) (by decide)
  exact decode_of (form23 m (by simp [decode23, h1, h2, h3, h4, h5, h6]))
theorem RoundTrip.vmulVx (cv : BitVec 1) (d : BitVec 5) (a : BitVec 5) (x : BitVec 6) (k : BitVec 3) : RoundTrip.Statement (.vmulVx cv d a x k) := by
  have m : seg (encode (.vmulVx cv d a x k)) 24 7 = 35#7 := (seg_off _ k 5 24 7 (by decide)).trans ((seg_off _ x 8 24 7 (by decide)).trans ((seg_off _ a 14 24 7 (by decide)).trans ((seg_off _ d 19 24 7 (by decide)).trans ((seg_off _ cv 31 24 7 (by decide)).trans rfl))))
  have h1 : seg (encode (.vmulVx cv d a x k)) 0 5 = 16#5 := (seg_off _ k 5 0 5 (by decide)).trans ((seg_off _ x 8 0 5 (by decide)).trans ((seg_off _ a 14 0 5 (by decide)).trans ((seg_off _ d 19 0 5 (by decide)).trans ((seg_off _ cv 31 0 5 (by decide)).trans rfl))))
  have h2 : seg (encode (.vmulVx cv d a x k)) 31 1 = cv := (seg_off _ k 5 31 1 (by decide)).trans ((seg_off _ x 8 31 1 (by decide)).trans ((seg_off _ a 14 31 1 (by decide)).trans ((seg_off _ d 19 31 1 (by decide)).trans (seg_hit _ cv 31 rfl (by decide)))))
  have h3 : seg (encode (.vmulVx cv d a x k)) 19 5 = d := (seg_off _ k 5 19 5 (by decide)).trans ((seg_off _ x 8 19 5 (by decide)).trans ((seg_off _ a 14 19 5 (by decide)).trans (seg_hit _ d 19 ((seg_off _ cv 31 19 5 (by decide)).trans rfl) (by decide))))
  have h4 : seg (encode (.vmulVx cv d a x k)) 14 5 = a := (seg_off _ k 5 14 5 (by decide)).trans ((seg_off _ x 8 14 5 (by decide)).trans (seg_hit _ a 14 ((seg_off _ d 19 14 5 (by decide)).trans ((seg_off _ cv 31 14 5 (by decide)).trans rfl)) (by decide)))
  have h5 : seg (encode (.vmulVx cv d a x k)) 8 6 = x := (seg_off _ k 5 8 6 (by decide)).trans (seg_hit _ x 8 ((seg_off _ a 14 8 6 (by decide)).trans ((seg_off _ d 19 8 6 (by decide)).trans ((seg_off _ cv 31 8 6 (by decide)).trans rfl))) (by decide))
  have h6 : seg (encode (.vmulVx cv d a x k)) 5 3 = k := seg_hit _ k 5 ((seg_off _ x 8 5 3 (by decide)).trans ((seg_off _ a 14 5 3 (by decide)).trans ((seg_off _ d 19 5 3 (by decide)).trans ((seg_off _ cv 31 5 3 (by decide)).trans rfl)))) (by decide)
  exact decode_of (form23 m (by simp [decode23, h1, h2, h3, h4, h5, h6]))
theorem RoundTrip.vhmulVx (cv : BitVec 1) (d : BitVec 5) (a : BitVec 5) (x : BitVec 6) (k : BitVec 3) : RoundTrip.Statement (.vhmulVx cv d a x k) := by
  have m : seg (encode (.vhmulVx cv d a x k)) 24 7 = 35#7 := (seg_off _ k 5 24 7 (by decide)).trans ((seg_off _ x 8 24 7 (by decide)).trans ((seg_off _ a 14 24 7 (by decide)).trans ((seg_off _ d 19 24 7 (by decide)).trans ((seg_off _ cv 31 24 7 (by decide)).trans rfl))))
  have h1 : seg (encode (.vhmulVx cv d a x k)) 0 5 = 17#5 := (seg_off _ k 5 0 5 (by decide)).trans ((seg_off _ x 8 0 5 (by decide)).trans ((seg_off _ a 14 0 5 (by decide)).trans ((seg_off _ d 19 0 5 (by decide)).trans ((seg_off _ cv 31 0 5 (by decide)).trans rfl))))
  have h2 : seg (encode (.vhmulVx cv d a x k)) 31 1 = cv := (seg_off _ k 5 31 1 (by decide)).trans ((seg_off _ x 8 31 1 (by decide)).trans ((seg_off _ a 14 31 1 (by decide)).trans ((seg_off _ d 19 31 1 (by decide)).trans (seg_hit _ cv 31 rfl (by decide)))))
  have h3 : seg (encode (.vhmulVx cv d a x k)) 19 5 = d := (seg_off _ k 5 19 5 (by decide)).trans ((seg_off _ x 8 19 5 (by decide)).trans ((seg_off _ a 14 19 5 (by decide)).trans (seg_hit _ d 19 ((seg_off _ cv 31 19 5 (by decide)).trans rfl) (by decide))))
  have h4 : seg (encode (.vhmulVx cv d a x k)) 14 5 = a := (seg_off _ k 5 14 5 (by decide)).trans ((seg_off _ x 8 14 5 (by decide)).trans (seg_hit _ a 14 ((seg_off _ d 19 14 5 (by decide)).trans ((seg_off _ cv 31 14 5 (by decide)).trans rfl)) (by decide)))
  have h5 : seg (encode (.vhmulVx cv d a x k)) 8 6 = x := (seg_off _ k 5 8 6 (by decide)).trans (seg_hit _ x 8 ((seg_off _ a 14 8 6 (by decide)).trans ((seg_off _ d 19 8 6 (by decide)).trans ((seg_off _ cv 31 8 6 (by decide)).trans rfl))) (by decide))
  have h6 : seg (encode (.vhmulVx cv d a x k)) 5 3 = k := seg_hit _ k 5 ((seg_off _ x 8 5 3 (by decide)).trans ((seg_off _ a 14 5 3 (by decide)).trans ((seg_off _ d 19 5 3 (by decide)).trans ((seg_off _ cv 31 5 3 (by decide)).trans rfl)))) (by decide)
  exact decode_of (form23 m (by simp [decode23, h1, h2, h3, h4, h5, h6]))
theorem RoundTrip.vhmuluVx (cv : BitVec 1) (d : BitVec 5) (a : BitVec 5) (x : BitVec 6) (k : BitVec 3) : RoundTrip.Statement (.vhmuluVx cv d a x k) := by
  have m : seg (encode (.vhmuluVx cv d a x k)) 24 7 = 35#7 := (seg_off _ k 5 24 7 (by decide)).trans ((seg_off _ x 8 24 7 (by decide)).trans ((seg_off _ a 14 24 7 (by decide)).trans ((seg_off _ d 19 24 7 (by decide)).trans ((seg_off _ cv 31 24 7 (by decide)).trans rfl))))
  have h1 : seg (encode (.vhmuluVx cv d a x k)) 0 5 = 18#5 := (seg_off _ k 5 0 5 (by decide)).trans ((seg_off _ x 8 0 5 (by decide)).trans ((seg_off _ a 14 0 5 (by decide)).trans ((seg_off _ d 19 0 5 (by decide)).trans ((seg_off _ cv 31 0 5 (by decide)).trans rfl))))
  have h2 : seg (encode (.vhmuluVx cv d a x k)) 31 1 = cv := (seg_off _ k 5 31 1 (by decide)).trans ((seg_off _ x 8 31 1 (by decide)).trans ((seg_off _ a 14 31 1 (by decide)).trans ((seg_off _ d 19 31 1 (by decide)).trans (seg_hit _ cv 31 rfl (by decide)))))
  have h3 : seg (encode (.vhmuluVx cv d a x k)) 19 5 = d := (seg_off _ k 5 19 5 (by decide)).trans ((seg_off _ x 8 19 5 (by decide)).trans ((seg_off _ a 14 19 5 (by decide)).trans (seg_hit _ d 19 ((seg_off _ cv 31 19 5 (by decide)).trans rfl) (by decide))))
  have h4 : seg (encode (.vhmuluVx cv d a x k)) 14 5 = a := (seg_off _ k 5 14 5 (by decide)).trans ((seg_off _ x 8 14 5 (by decide)).trans (seg_hit _ a 14 ((seg_off _ d 19 14 5 (by decide)).trans ((seg_off _ cv 31 14 5 (by decide)).trans rfl)) (by decide)))
  have h5 : seg (encode (.vhmuluVx cv d a x k)) 8 6 = x := (seg_off _ k 5 8 6 (by decide)).trans (seg_hit _ x 8 ((seg_off _ a 14 8 6 (by decide)).trans ((seg_off _ d 19 8 6 (by decide)).trans ((seg_off _ cv 31 8 6 (by decide)).trans rfl))) (by decide))
  have h6 : seg (encode (.vhmuluVx cv d a x k)) 5 3 = k := seg_hit _ k 5 ((seg_off _ x 8 5 3 (by decide)).trans ((seg_off _ a 14 5 3 (by decide)).trans ((seg_off _ d 19 5 3 (by decide)).trans ((seg_off _ cv 31 5 3 (by decide)).trans rfl)))) (by decide)
  exact decode_of (form23 m (by simp [decode23, h1, h2, h3, h4, h5, h6]))
theorem RoundTrip.vhmulsuVx (cv : BitVec 1) (d : BitVec 5) (a : BitVec 5) (x : BitVec 6) (k : BitVec 3) : RoundTrip.Statement (.vhmulsuVx cv d a x k) := by
  have m : seg (encode (.vhmulsuVx cv d a x k)) 24 7 = 35#7 := (seg_off _ k 5 24 7 (by decide)).trans ((seg_off _ x 8 24 7 (by decide)).trans ((seg_off _ a 14 24 7 (by decide)).trans ((seg_off _ d 19 24 7 (by decide)).trans ((seg_off _ cv 31 24 7 (by decide)).trans rfl))))
  have h1 : seg (encode (.vhmulsuVx cv d a x k)) 0 5 = 19#5 := (seg_off _ k 5 0 5 (by decide)).trans ((seg_off _ x 8 0 5 (by decide)).trans ((seg_off _ a 14 0 5 (by decide)).trans ((seg_off _ d 19 0 5 (by decide)).trans ((seg_off _ cv 31 0 5 (by decide)).trans rfl))))
  have h2 : seg (encode (.vhmulsuVx cv d a x k)) 31 1 = cv := (seg_off _ k 5 31 1 (by decide)).trans ((seg_off _ x 8 31 1 (by decide)).trans ((seg_off _ a 14 31 1 (by decide)).trans ((seg_off _ d 19 31 1 (by decide)).trans (seg_hit _ cv 31 rfl (by decide)))))
  have h3 : seg (encode (.vhmulsuVx cv d a x k)) 19 5 = d := (seg_off _ k 5 19 5 (by decide)).trans ((seg_off _ x 8 19 5 (by decide)).trans ((seg_off _ a 14 19 5 (by decide)).trans (seg_hit _ d 19 ((seg_off _ cv 31 19 5 (by decide)).trans rfl) (by decide))))
  have h4 : seg (encode (.vhmulsuVx cv d a x k)) 14 5 = a := (seg_off _ k 5 14 5 (by decide)).trans ((seg_off _ x 8 14 5 (by decide)).trans (seg_hit _ a 14 ((seg_off _ d 19 14 5 (by decide)).trans ((seg_off _ cv 31 14 5 (by decide)).trans rfl)) (by decide)))
  have h5 : seg (encode (.vhmulsuVx cv d a x k)) 8 6 = x := (seg_off _ k 5 8 6 (by decide)).trans (seg_hit _ x 8 ((seg_off _ a 14 8 6 (by decide)).trans ((seg_off _ d 19 8 6 (by decide)).trans ((seg_off _ cv 31 8 6 (by decide)).trans rfl))) (by decide))
  have h6 : seg (encode (.vhmulsuVx cv d a x k)) 5 3 = k := seg_hit _ k 5 ((seg_off _ x 8 5 3 (by decide)).trans ((seg_off _ a 14 5 3 (by decide)).trans ((seg_off _ d 19 5 3 (by decide)).trans ((seg_off _ cv 31 5 3 (by decide)).trans rfl)))) (by decide)
  exact decode_of (form23 m (by simp [decode23, h1, h2, h3, h4, h5, h6]))
theorem RoundTrip.vdivVx (cv : BitVec 1) (d : BitVec 5) (a : BitVec 5) (x : BitVec 6) (k : BitVec 3) : RoundTrip.Statement (.vdivVx cv d a x k) := by
  have m : seg (encode (.vdivVx cv d a x k)) 24 7 = 35#7 := (seg_off _ k 5 24 7 (by decide)).trans ((seg_off _ x 8 24 7 (by decide)).trans ((seg_off _ a 14 24 7 (by decide)).trans ((seg_off _ d 19 24 7 (by decide)).trans ((seg_off _ cv 31 24 7 (by decide)).trans rfl))))
  have h1 : seg (encode (.vdivVx cv d a x k)) 0 5 = 20#5 := (seg_off _ k 5 0 5 (by decide)).trans ((seg_off _ x 8 0 5 (by decide)).trans ((seg_off _ a 14 0 5 (by decide)).trans ((seg_off _ d 19 0 5 (by decide)).trans ((seg_off _ cv 31 0 5 (by decide)).trans rfl))))
  have h2 : seg (encode (.vdivVx cv d a x k)) 31 1 = cv := (seg_off _ k 5 31 1 (by decide)).trans ((seg_off _ x 8 31 1 (by decide)).trans ((seg_off _ a 14 31 1 (by decide)).trans ((seg_off _ d 19 31 1 (by decide)).trans (seg_hit _ cv 31 rfl (by decide)))))
  have h3 : seg (encode (.vdivVx cv d a x k)) 19 5 = d := (seg_off _ k 5 19 5 (by decide)).trans ((seg_off _ x 8 19 5 (by decide)).trans ((seg_off _ a 14 19 5 (by decide)).trans (seg_hit _ d 19 ((seg_off _ cv 31 19 5 (by decide)).trans rfl) (by decide))))
  have h4 : seg (encode (.vdivVx cv d a x k)) 14 5 = a := (seg_off _ k 5 14 5 (by decide)).trans ((seg_off _ x 8 14 5 (by decide)).trans (seg_hit _ a 14 ((seg_off _ d 19 14 5 (by decide)).trans ((seg_off _ cv 31 14 5 (by decide)).trans rfl)) (by decide)))
  have h5 : seg (encode (.vdivVx cv d a x k)) 8 6 = x := (seg_off _ k 5 8 6 (by decide)).trans (seg_hit _ x 8 ((seg_off _ a 14 8 6 (by decide)).trans ((seg_off _ d 19 8 6 (by decide)).trans ((seg_off _ cv 31 8 6 (by decide)).trans rfl))) (by decide))
  have h6 : seg (encode (.vdivVx cv d a x k)) 5 3 = k := seg_hit _ k 5 ((seg_off _ x 8 5 3 (by decide)).trans ((seg_off _ a 14 5 3 (by decide)).trans ((seg_off _ d 19 5 3 (by decide)).trans ((seg_off _ cv 31 5 3 (by decide)).trans rfl)))) (by decide)
  exact decode_of (form23 m (by simp [decode23, h1, h2, h3, h4, h5, h6]))
theorem RoundTrip.vdivuVx (cv : BitVec 1) (d : BitVec 5) (a : BitVec 5) (x : BitVec 6) (k : BitVec 3) : RoundTrip.Statement (.vdivuVx cv d a x k) := by
  have m : seg (encode (.vdivuVx cv d a x k)) 24 7 = 35#7 := (seg_off _ k 5 24 7 (by decide)).trans ((seg_off _ x 8 24 7 (by decide)).trans ((seg_off _ a 14 24 7 (by decide)).trans ((seg_off _ d 19 24 7 (by decide)).trans ((seg_off _ cv 31 24 7 (by decide)).trans rfl))))
  have h1 : seg (encode (.vdivuVx cv d a x k)) 0 5 = 21#5 := (seg_off _ k 5 0 5 (by decide)).trans ((seg_off _ x 8 0 5 (by decide)).trans ((seg_off _ a 14 0 5 (by decide)).trans ((seg_off _ d 19 0 5 (by decide)).trans ((seg_off _ cv 31 0 5 (by decide)).trans rfl))))
  have h2 : seg (encode (.vdivuVx cv d a x k)) 31 1 = cv := (seg_off _ k 5 31 1 (by decide)).trans ((seg_off _ x 8 31 1 (by decide)).trans ((seg_off _ a 14 31 1 (by decide)).trans ((seg_off _ d 19 31 1 (by decide)).trans (seg_hit _ cv 31 rfl (by decide)))))
  have h3 : seg (encode (.vdivuVx cv d a x k)) 19 5 = d := (seg_off _ k 5 19 5 (by decide)).trans ((seg_off _ x 8 19 5 (by decide)).trans ((seg_off _ a 14 19 5 (by decide)).trans (seg_hit _ d 19 ((seg_off _ cv 31 19 5 (by decide)).trans rfl) (by decide))))
  have h4 : seg (encode (.vdivuVx cv d a x k)) 14 5 = a := (seg_off _ k 5 14 5 (by decide)).trans ((seg_off _ x 8 14 5 (by decide)).trans (seg_hit _ a 14 ((seg_off _ d 19 14 5 (by decide)).trans ((seg_off _ cv 31 14 5 (by decide)).trans rfl)) (by decide)))
  have h5 : seg (encode (.vdivuVx cv d a x k)) 8 6 = x := (seg_off _ k 5 8 6 (by decide)).trans (seg_hit _ x 8 ((seg_off _ a 14 8 6 (by decide)).trans ((seg_off _ d 19 8 6 (by decide)).trans ((seg_off _ cv 31 8 6 (by decide)).trans rfl))) (by decide))
  have h6 : seg (encode (.vdivuVx cv d a x k)) 5 3 = k := seg_hit _ k 5 ((seg_off _ x 8 5 3 (by decide)).trans ((seg_off _ a 14 5 3 (by decide)).trans ((seg_off _ d 19 5 3 (by decide)).trans ((seg_off _ cv 31 5 3 (by decide)).trans rfl)))) (by decide)
  exact decode_of (form23 m (by simp [decode23, h1, h2, h3, h4, h5, h6]))
theorem RoundTrip.vremVx (cv : BitVec 1) (d : BitVec 5) (a : BitVec 5) (x : BitVec 6) (k : BitVec 3) : RoundTrip.Statement (.vremVx cv d a x k) := by
  have m : seg (encode (.vremVx cv d a x k)) 24 7 = 35#7 := (seg_off _ k 5 24 7 (by decide)).trans ((seg_off _ x 8 24 7 (by decide)).trans ((seg_off _ a 14 24 7 (by decide)).trans ((seg_off _ d 19 24 7 (by decide)).trans ((seg_off _ cv 31 24 7 (by decide)).trans rfl))))
  have h1 : seg (encode (.vremVx cv d a x k)) 0 5 = 22#5 := (seg_off _ k 5 0 5 (by decide)).trans ((seg_off _ x 8 0 5 (by decide)).trans ((seg_off _ a 14 0 5 (by decide)).trans ((seg_off _ d 19 0 5 (by decide)).trans ((seg_off _ cv 31 0 5 (by decide)).trans rfl))))
  have h2 : seg (encode (.vremVx cv d a x k)) 31 1 = cv := (seg_off _ k 5 31 1 (by decide)).trans ((seg_off _ x 8 31 1 (by decide)).trans ((seg_off _ a 14 31 1 (by decide)).trans ((seg_off _ d 19 31 1 (by decide)).trans (seg_hit _ cv 31 rfl (by decide)))))
  have h3 : seg (encode (.vremVx cv d a x k)) 19 5 = d := (seg_off _ k 5 19 5 (by decide)).trans ((seg_off _ x 8 19 5 (by decide)).trans ((seg_off _ a 14 19 5 (by decide)).trans (seg_hit _ d 19 ((seg_off _ cv 31 19 5 (by decide)).trans rfl) (by decide))))
  have h4 : seg (encode (.vremVx cv d a x k)) 14 5 = a := (seg_off _ k 5 14 5 (by decide)).trans ((seg_off _ x 8 14 5 (by decide)).trans (seg_hit _ a 14 ((seg_off _ d 19 14 5 (by decide)).trans ((seg_off _ cv 31 14 5 (by decide)).trans rfl)) (by decide)))
  have h5 : seg (encode (.vremVx cv d a x k)) 8 6 = x := (seg_off _ k 5 8 6 (by decide)).trans (seg_hit _ x 8 ((seg_off _ a 14 8 6 (by decide)).trans ((seg_off _ d 19 8 6 (by decide)).trans ((seg_off _ cv 31 8 6 (by decide)).trans rfl))) (by decide))
  have h6 : seg (encode (.vremVx cv d a x k)) 5 3 = k := seg_hit _ k 5 ((seg_off _ x 8 5 3 (by decide)).trans ((seg_off _ a 14 5 3 (by decide)).trans ((seg_off _ d 19 5 3 (by decide)).trans ((seg_off _ cv 31 5 3 (by decide)).trans rfl)))) (by decide)
  exact decode_of (form23 m (by simp [decode23, h1, h2, h3, h4, h5, h6]))
theorem RoundTrip.vremuVx (cv : BitVec 1) (d : BitVec 5) (a : BitVec 5) (x : BitVec 6) (k : BitVec 3) : RoundTrip.Statement (.vremuVx cv d a x k) := by
  have m : seg (encode (.vremuVx cv d a x k)) 24 7 = 35#7 := (seg_off _ k 5 24 7 (by decide)).trans ((seg_off _ x 8 24 7 (by decide)).trans ((seg_off _ a 14 24 7 (by decide)).trans ((seg_off _ d 19 24 7 (by decide)).trans ((seg_off _ cv 31 24 7 (by decide)).trans rfl))))
  have h1 : seg (encode (.vremuVx cv d a x k)) 0 5 = 23#5 := (seg_off _ k 5 0 5 (by decide)).trans ((seg_off _ x 8 0 5 (by decide)).trans ((seg_off _ a 14 0 5 (by decide)).trans ((seg_off _ d 19 0 5 (by decide)).trans ((seg_off _ cv 31 0 5 (by decide)).trans rfl))))
  have h2 : seg (encode (.vremuVx cv d a x k)) 31 1 = cv := (seg_off _ k 5 31 1 (by decide)).trans ((seg_off _ x 8 31 1 (by decide)).trans ((seg_off _ a 14 31 1 (by decide)).trans ((seg_off _ d 19 31 1 (by decide)).trans (seg_hit _ cv 31 rfl (by decide)))))
  have h3 : seg (encode (.vremuVx cv d a x k)) 19 5 = d := (seg_off _ k 5 19 5 (by decide)).trans ((seg_off _ x 8 19 5 (by decide)).trans ((seg_off _ a 14 19 5 (by decide)).trans (seg_hit _ d 19 ((seg_off _ cv 31 19 5 (by decide)).trans rfl) (by decide))))
  have h4 : seg (encode (.vremuVx cv d a x k)) 14 5 = a := (seg_off _ k 5 14 5 (by decide)).trans ((seg_off _ x 8 14 5 (by decide)).trans (seg_hit _ a 14 ((seg_off _ d 19 14 5 (by decide)).trans ((seg_off _ cv 31 14 5 (by decide)).trans rfl)) (by decide)))
  have h5 : seg (encode (.vremuVx cv d a x k)) 8 6 = x := (seg_off _ k 5 8 6 (by decide)).trans (seg_hit _ x 8 ((seg_off _ a 14 8 6 (by decide)).trans ((seg_off _ d 19 8 6 (by decide)).trans ((seg_off _ cv 31 8 6 (by decide)).trans rfl))) (by decide))
  have h6 : seg (encode (.vremuVx cv d a x k)) 5 3 = k := seg_hit _ k 5 ((seg_off _ x 8 5 3 (by decide)).trans ((seg_off _ a 14 5 3 (by decide)).trans ((seg_off _ d 19 5 3 (by decide)).trans ((seg_off _ cv 31 5 3 (by decide)).trans rfl)))) (by decide)
  exact decode_of (form23 m (by simp [decode23, h1, h2, h3, h4, h5, h6]))
theorem RoundTrip.vclzVx (cv : BitVec 1) (d : BitVec 5) (a : BitVec 5) (k : BitVec 3) : RoundTrip.Statement (.vclzVx cv d a k) := by
  have m : seg (encode (.vclzVx cv d a k)) 24 7 = 35#7 := (seg_off _ k 5 24 7 (by decide)).trans ((seg_off _ a 14 24 7 (by decide)).trans ((seg_off _ d 19 24 7 (by decide)).trans ((seg_off _ cv 31 24 7 (by decide)).trans rfl)))
  have h1 : seg (encode (.vclzVx cv d a k)) 0 5 = 24#5 := (seg_off _ k 5 0 5 (by decide)).trans ((seg_off _ a 14 0 5 (by decide)).trans ((seg_off _ d 19 0 5 (by decide)).trans ((seg_off _ cv 31 0 5 (by decide)).trans rfl)))
  have h2 : seg (encode (.vclzVx cv d a k)) 8 6 = 0#6 := (seg_off _ k 5 8 6 (by decide)).trans ((seg_off _ a 14 8 6 (by decide)).trans ((seg_off _ d 19 8 6 (by decide)).trans ((seg_off _ cv 31 8 6 (by decide)).trans rfl)))
  have h3 : seg (encode (.vclzVx cv d a k)) 31 1 = cv := (seg_off _ k 5 31 1 (by decide)).trans ((seg_off _ a 14 31 1 (by decide)).trans ((seg_off _ d 19 31 1 (by decide)).trans (seg_hit _ cv 31 rfl (by decide))))
  have h4 : seg (encode (.vclzVx cv d a k)) 19 5 = d := (seg_off _ k 5 19 5 (by decide)).trans ((seg_off _ a 14 19 5 (by decide)).trans (seg_hit _ d 19 ((seg_off _ cv 31 19 5 (by decide)).trans rfl) (by decide)))
  have h5 : seg (encode (.vclzVx cv d a k)) 14 5 = a := (seg_off _ k 5 14 5 (by decide)).trans (seg_hit _ a 14 ((seg_off _ d 19 14 5 (by decide)).trans ((seg_off _ cv 31 14 5 (by decide)).trans rfl)) (by decide))
  have h6 : seg (encode (.vclzVx cv d a k)) 5 3 = k := seg_hit _ k 5 ((seg_off _ a 14 5 3 (by decide)).trans ((seg_off _ d 19 5 3 (by decide)).trans ((seg_off _ cv 31 5 3 (by decide)).trans rfl))) (by decide)
  exact decode_of (form23 m (by simp [decode23, h1, h2, h3, h4, h5, h6]))
theorem RoundTrip.vctzVx (cv : BitVec 1) (d : BitVec 5) (a : BitVec 5) (k : BitVec 3) : RoundTrip.Statement (.vctzVx cv d a k) := by
  have m : seg (encode (.vctzVx cv d a k)) 24 7 = 35#7 := (seg_off _ k 5 24 7 (by decide)).trans ((seg_off _ a 14 24 7 (by decide)).trans ((seg_off _ d 19 24 7 (by decide)).trans ((seg_off _ cv 31 24 7 (by decide)).trans rfl)))
  have h1 : seg (encode (.vctzVx cv d a k)) 0 5 = 25#5 := (seg_off _ k 5 0 5 (by decide)).trans ((seg_off _ a 14 0 5 (by decide)).trans ((seg_off _ d 19 0 5 (by decide)).trans ((seg_off _ cv 31 0 5 (by decide)).trans rfl)))
  have h2 : seg (encode (.vctzVx cv d a k)) 8 6 = 0#6 := (seg_off _ k 5 8 6 (by decide)).trans ((seg_off _ a 14 8 6 (by decide)).trans ((seg_off _ d 19 8 6 (by decide)).trans ((seg_off _ cv 31 8 6 (by decide)).trans rfl)))
  have h3 : seg (encode (.vctzVx cv d a k)) 31 1 = cv := (seg_off _ k 5 31 1 (by decide)).trans ((seg_off _ a 14 31 1 (by decide)).trans ((seg_off _ d 19 31 1 (by decide)).trans (seg_hit _ cv 31 rfl (by decide))))
  have h4 : seg (encode (.vctzVx cv d a k)) 19 5 = d := (seg_off _ k 5 19 5 (by decide)).trans ((seg_off _ a 14 19 5 (by decide)).trans (seg_hit _ d 19 ((seg_off _ cv 31 19 5 (by decide)).trans rfl) (by decide)))
  have h5 : seg (encode (.vctzVx cv d a k)) 14 5 = a := (seg_off _ k 5 14 5 (by decide)).trans (seg_hit _ a 14 ((seg_off _ d 19 14 5 (by decide)).trans ((seg_off _ cv 31 14 5 (by decide)).trans rfl)) (by decide))
  have h6 : seg (encode (.vctzVx cv d a k)) 5 3 = k := seg_hit _ k 5 ((seg_off _ a 14 5 3 (by decide)).trans ((seg_off _ d 19 5 3 (by decide)).trans ((seg_off _ cv 31 5 3 (by decide)).trans rfl))) (by decide)
  exact decode_of (form23 m (by simp [decode23, h1, h2, h3, h4, h5, h6]))
theorem RoundTrip.vpopcVx (cv : BitVec 1) (d : BitVec 5) (a : BitVec 5) (k : BitVec 3) : RoundTrip.Statement (.vpopcVx cv d a k) := by
  have m : seg (encode (.vpopcVx cv d a k)) 24 7 = 35#7 := (seg_off _ k 5 24 7 (by decide)).trans ((seg_off _ a 14 24 7 (by decide)).trans ((seg_off _ d 19 24 7 (by decide)).trans ((seg_off _ cv 31 24 7 (by decide)).trans rfl)))
  have h1 : seg (encode (.vpopcVx cv d a k)) 0 5 = 26#5 := (seg_off _ k 5 0 5 (by decide)).trans ((seg_off _ a 14 0 5 (by decide)).trans ((seg_off _ d 19 0 5 (by decide)).trans ((seg_off _ cv 31 0 5 (by decide)).trans rfl)))
  have h2 : seg (encode (.vpopcVx cv d a k)) 8 6 = 0#6 := (seg_off _ k 5 8 6 (by decide)).trans ((seg_off _ a 14 8 6 (by decide)).trans ((seg_off _ d 19 8 6 (by decide)).trans ((seg_off _ cv 31 8 6 (by decide)).trans rfl)))
  have h3 : seg (encode (.vpopcVx cv d a k)) 31 1 = cv := (seg_off _ k 5 31 1 (by decide)).trans ((seg_off _ a 14 31 1 (by decide)).trans ((seg_off _ d 19 31 1 (by decide)).trans (seg_hit _ cv 31 rfl (by decide))))
  have h4 : seg (encode (.vpopcVx cv d a k)) 19 5 = d := (seg_off _ k 5 19 5 (by decide)).trans ((seg_off _ a 14 19 5 (by decide)).trans (seg_hit _ d 19 ((seg_off _ cv 31 19 5 (by decide)).trans rfl) (by decide)))
  have h5 : seg (encode (.vpopcVx cv d a k)) 14 5 = a := (seg_off _ k 5 14 5 (by decide)).trans (seg_hit _ a 14 ((seg_off _ d 19 14 5 (by decide)).trans ((seg_off _ cv 31 14 5 (by decide)).trans rfl)) (by decide))
  have h6 : seg (encode (.vpopcVx cv d a k)) 5 3 = k := seg_hit _ k 5 ((seg_off _ a 14 5 3 (by decide)).trans ((seg_off _ d 19 5 3 (by decide)).trans ((seg_off _ cv 31 5 3 (by decide)).trans rfl))) (by decide)
  exact decode_of (form23 m (by simp [decode23, h1, h2, h3, h4, h5, h6]))
theorem RoundTrip.vrsubVx (cv : BitVec 1) (d : BitVec 5) (a : BitVec 5) (x : BitVec 6) (k : BitVec 3) : RoundTrip.Statement (.vrsubVx cv d a x k) := by
  have m : seg (encode (.vrsubVx cv d a x k)) 24 7 = 35#7 := (seg_off _ k 5 24 7 (by decide)).trans ((seg_off _ x 8 24 7 (by decide)).trans ((seg_off _ a 14 24 7 (by decide)).trans ((seg_off _ d 19 24 7 (by decide)).trans ((seg_off _ cv 31 24 7 (by decide)).trans rfl))))
  have h1 : seg (encode (.vrsubVx cv d a x k)) 0 5 = 27#5 := (seg_off _ k 5 0 5 (by decide)).trans ((seg_off _ x 8 0 5 (by decide)).trans ((seg_off _ a 14 0 5 (by decide)).trans ((seg_off _ d 19 0 5 (by decide)).trans ((seg_off _ cv 31 0 5 (by decide)).trans rfl))))
  have h2 : seg (encode (.vrsubVx cv d a x k)) 31 1 = cv := (seg_off _ k 5 31 1 (by decide)).trans ((seg_off _ x 8 31 1 (by decide)).trans ((seg_off _ a 14 31 1 (by decide)).trans ((seg_off _ d 19 31 1 (by decide)).trans (seg_hit _ cv 31 rfl (by decide)))))
  have h3 : seg (encode (.vrsubVx cv d a x k)) 19 5 = d := (seg_off _ k 5 19 5 (by decide)).trans ((seg_off _ x 8 19 5 (by decide)).trans ((seg_off _ a 14 19 5 (by decide)).trans (seg_hit _ d 19 ((seg_off _ cv 31 19 5 (by decide)).trans rfl) (by decide))))
  have h4 : seg (encode (.vrsubVx cv d a x k)) 14 5 = a := (seg_off _ k 5 14 5 (by decide)).trans ((seg_off _ x 8 14 5 (by decide)).trans (seg_hit _ a 14 ((seg_off _ d 19 14 5 (by decide)).trans ((seg_off _ cv 31 14 5 (by decide)).trans rfl)) (by decide)))
  have h5 : seg (encode (.vrsubVx cv d a x k)) 8 6 = x := (seg_off _ k 5 8 6 (by decide)).trans (seg_hit _ x 8 ((seg_off _ a 14 8 6 (by decide)).trans ((seg_off _ d 19 8 6 (by decide)).trans ((seg_off _ cv 31 8 6 (by decide)).trans rfl))) (by decide))
  have h6 : seg (encode (.vrsubVx cv d a x k)) 5 3 = k := seg_hit _ k 5 ((seg_off _ x 8 5 3 (by decide)).trans ((seg_off _ a 14 5 3 (by decide)).trans ((seg_off _ d 19 5 3 (by decide)).trans ((seg_off _ cv 31 5 3 (by decide)).trans rfl)))) (by decide)
  exact decode_of (form23 m (by simp [decode23, h1, h2, h3, h4, h5, h6]))
theorem RoundTrip.vaddVi (cv : BitVec 1) (d : BitVec 5) (a : BitVec 5) (im : BitVec 6) (k : BitVec 3) : RoundTrip.Statement (.vaddVi cv d a im k) := by
  have m : seg (encode (.vaddVi cv d a im k)) 24 7 = 36#7 := (seg_off _ k 5 24 7 (by decide)).trans ((seg_off _ im 8 24 7 (by decide)).trans ((seg_off _ a 14 24 7 (by decide)).trans ((seg_off _ d 19 24 7 (by decide)).trans ((seg_off _ cv 31 24 7 (by decide)).trans rfl))))
  have h1 : seg (encode (.vaddVi cv d a im k)) 0 5 = 0#5 := (seg_off _ k 5 0 5 (by decide)).trans ((seg_off _ im 8 0 5 (by decide)).trans ((seg_off _ a 14 0 5 (by decide)).trans ((seg_off _ d 19 0 5 (by decide)).trans ((seg_off _ cv 31 0 5 (by decide)).trans rfl))))
  have h2 : seg (encode (.vaddVi cv d a im k)) 31 1 = cv := (seg_off _ k 5 31 1 (by decide)).trans ((seg_off _ im 8 31 1 (by decide)).trans ((seg_off _ a 14 31 1 (by decide)).trans ((seg_off _ d 19 31 1 (by decide)).trans (seg_hit _ cv 31 rfl (by decide)))))
  have h3 : seg (encode (.vaddVi cv d a im k)) 19 5 = d := (seg_off _ k 5 19 5 (by decide)).trans ((seg_off _ im 8 19 5 (by decide)).trans ((seg_off _ a 14 19 5 (by decide)).trans (seg_hit _ d 19 ((seg_off _ cv 31 19 5 (by decide)).trans rfl) (by decide))))
  have h4 : seg (encode (.vaddVi cv d a im k)) 14 5 = a := (seg_off _ k 5 14 5 (by decide)).trans ((seg_off _ im 8 14 5 (by decide)).trans (seg_hit _ a 14 ((seg_off _ d 19 14 5 (by decide)).trans ((seg_off _ cv 31 14 5 (by decide)).trans rfl)) (by decide)))
  have h5 : seg (encode (.vaddVi cv d a im k)) 8 6 = im := (seg_off _ k 5 8 6 (by decide)).trans (seg_hit _ im 8 ((seg_off _ a 14 8 6 (by decide)).trans ((seg_off _ d 19 8 6 (by decide)).trans ((seg_off _ cv 31 8 6 (by decide)).trans rfl))) (by decide))
  have h6 : seg (encode (.vaddVi cv d a im k)) 5 3 = k := seg_hit _ k 5 ((seg_off _ im 8 5 3 (by decide)).trans ((seg_off _ a 14 5 3 (by decide)).trans ((seg_off _ d 19 5 3 (by decide)).trans ((seg_off _ cv 31 5 3 (by decide)).trans rfl)))) (by decide)
  exact decode_of (form24 m (by simp [decode24, h1, h2, h3, h4, h5, h6]))
theorem RoundTrip.vandVi (cv : BitVec 1) (d : BitVec 5) (a : BitVec 5) (im : BitVec 6) (k : BitVec 3) : RoundTrip.Statement (.vandVi cv d a im k) := by
  have m : seg (encode (.vandVi cv d a im k)) 24 7 = 36#7 := (seg_off _ k 5 24 7 (by decide)).trans ((seg_off _ im 8 24 7 (by decide)).trans ((seg_off _ a 14 24 7 (by decide)).trans ((seg_off _ d 19 24 7 (by decide)).trans ((seg_off _ cv 31 24 7 (by decide)).trans rfl))))
  have h1 : seg (encode (.vandVi cv d a im k)) 0 5 = 2#5 := (seg_off _ k 5 0 5 (by decide)).trans ((seg_off _ im 8 0 5 (by decide)).trans ((seg_off _ a 14 0 5 (by decide)).trans ((seg_off _ d 19 0 5 (by decide)).trans ((seg_off _ cv 31 0 5 (by decide)).trans rfl))))
  have h2 : seg (encode (.vandVi cv d a im k)) 31 1 = cv := (seg_off _ k 5 31 1 (by decide)).trans ((seg_off _ im 8 31 1 (by decide)).trans ((seg_off _ a 14 31 1 (by decide)).trans ((seg_off _ d 19 31 1 (by decide)).trans (seg_hit _ cv 31 rfl (by decide)))))
  have h3 : seg (encode (.vandVi cv d a im k)) 19 5 = d := (seg_off _ k 5 19 5 (by decide)).trans ((seg_off _ im 8 19 5 (by decide)).trans ((seg_off _ a 14 19 5 (by decide)).trans (seg_hit _ d 19 ((seg_off _ cv 31 19 5 (by decide)).trans rfl) (by decide))))
  have h4 : seg (encode (.vandVi cv d a im k)) 14 5 = a := (seg_off _ k 5 14 5 (by decide)).trans ((seg_off _ im 8 14 5 (by decide)).trans (seg_hit _ a 14 ((seg_off _ d 19 14 5 (by decide)).trans ((seg_off _ cv 31 14 5 (by decide)).trans rfl)) (by decide)))
  have h5 : seg (encode (.vandVi cv d a im k)) 8 6 = im := (seg_off _ k 5 8 6 (by decide)).trans (seg_hit _ im 8 ((seg_off _ a 14 8 6 (by decide)).trans ((seg_off _ d 19 8 6 (by decide)).trans ((seg_off _ cv 31 8 6 (by decide)).trans rfl))) (by decide))
  have h6 : seg (encode (.vandVi cv d a im k)) 5 3 = k := seg_hit _ k 5 ((seg_off _ im 8 5 3 (by decide)).trans ((seg_off _ a 14 5 3 (by decide)).trans ((seg_off _ d 19 5 3 (by decide)).trans ((seg_off _ cv 31 5 3 (by decide)).trans rfl)))) (by decide)
  exact decode_of (form24 m (by simp [decode24, h1, h2, h3, h4, h5, h6]))
theorem RoundTrip.vorVi (cv : BitVec 1) (d : BitVec 5) (a : BitVec 5) (im : BitVec 6) (k : BitVec 3) : RoundTrip.Statement (.vorVi cv d a im k) := by
  have m : seg (encode (.vorVi cv d a im k)) 24 7 = 36#7 := (seg_off _ k 5 24 7 (by decide)).trans ((seg_off _ im 8 24 7 (by decide)).trans ((seg_off _ a 14 24 7 (by decide)).trans ((seg_off _ d 19 24 7 (by decide)).trans ((seg_off _ cv 31 24 7 (by decide)).trans rfl))))
  have h1 : seg (encode (.vorVi cv d a im k)) 0 5 = 3#5 := (seg_off _ k 5 0 5 (by decide)).trans ((seg_off _ im 8 0 5 (by decide)).trans ((seg_off _ a 14 0 5 (by decide)).trans ((seg_off _ d 19 0 5 (by decide)).trans ((seg_off _ cv 31 0 5 (by decide)).trans rfl))))
  have h2 : seg (encode (.vorVi cv d a im k)) 31 1 = cv := (seg_off _ k 5 31 1 (by decide)).trans ((seg_off _ im 8 31 1 (by decide)).trans ((seg_off _ a 14 31 1 (by decide)).trans ((seg_off _ d 19 31 1 (by decide)).trans (seg_hit _ cv 31 rfl (by decide)))))
  have h3 : seg (encode (.vorVi cv d a im k)) 19 5 = d := (seg_off _ k 5 19 5 (by decide)).trans ((seg_off _ im 8 19 5 (by decide)).trans ((seg_off _ a 14 19 5 (by decide)).trans (seg_hit _ d 19 ((seg_off _ cv 31 19 5 (by decide)).trans rfl) (by decide))))
  have h4 : seg (encode (.vorVi cv d a im k)) 14 5 = a := (seg_off _ k 5 14 5 (by decide)).trans ((seg_off _ im 8 14 5 (by decide)).trans (seg_hit _ a 14 ((seg_off _ d 19 14 5 (by decide)).trans ((seg_off _ cv 31 14 5 (by decide)).trans rfl)) (by decide)))
  have h5 : seg (encode (.vorVi cv d a im k)) 8 6 = im := (seg_off _ k 5 8 6 (by decide)).trans (seg_hit _ im 8 ((seg_off _ a 14 8 6 (by decide)).trans ((seg_off _ d 19 8 6 (by decide)).trans ((seg_off _ cv 31 8 6 (by decide)).trans rfl))) (by decide))
  have h6 : seg (encode (.vorVi cv d a im k)) 5 3 = k := seg_hit _ k 5 ((seg_off _ im 8 5 3 (by decide)).trans ((seg_off _ a 14 5 3 (by decide)).trans ((seg_off _ d 19 5 3 (by decide)).trans ((seg_off _ cv 31 5 3 (by decide)).trans rfl)))) (by decide)
  exact decode_of (form24 m (by simp [decode24, h1, h2, h3, h4, h5, h6]))
theorem RoundTrip.vxorVi (cv : BitVec 1) (d : BitVec 5) (a : BitVec 5) (im : BitVec 6) (k : BitVec 3) : RoundTrip.Statement (.vxorVi cv d a im k) := by
  have m : seg (encode (.vxorVi cv d a im k)) 24 7 = 36#7 := (seg_off _ k 5 24 7 (by decide)).trans ((seg_off _ im 8 24 7 (by decide)).trans ((seg_off _ a 14 24 7 (by decide)).trans ((seg_off _ d 19 24 7 (by decide)).trans ((seg_off _ cv 31 24 7 (by decide)).trans rfl))))
  have h1 : seg (encode (.vxorVi cv d a im k)) 0 5 = 4#5 := (seg_off _ k 5 0 5 (by decide)).trans ((seg_off _ im 8 0 5 (by decide)).trans ((seg_off _ a 14 0 5 (by decide)).trans ((seg_off _ d 19 0 5 (by decide)).trans ((seg_off _ cv 31 0 5 (by decide)).trans rfl))))
  have h2 : seg (encode (.vxorVi cv d a im k)) 31 1 = cv := (seg_off _ k 5 31 1 (by decide)).trans ((seg_off _ im 8 31 1 (by decide)).trans ((seg_off _ a 14 31 1 (by decide)).trans ((seg_off _ d 19 31 1 (by decide)).trans (seg_hit _ cv 31 rfl (by decide)))))
  have h3 : seg (encode (.vxorVi cv d a im k)) 19 5 = d := (seg_off _ k 5 19 5 (by decide)).trans ((seg_off _ im 8 19 5 (by decide)).trans ((seg_off _ a 14 19 5 (by decide)).trans (seg_hit _ d 19 ((seg_off _ cv 31 19 5 (by decide)).trans rfl) (by decide))))
  have h4 : seg (encode (.vxorVi cv d a im k)) 14 5 = a := (seg_off _ k 5 14 5 (by decide)).trans ((seg_off _ im 8 14 5 (by decide)).trans (seg_hit _ a 14 ((seg_off _ d 19 14 5 (by decide)).trans ((seg_off _ cv 31 14 5 (by decide)).trans rfl)) (by decide)))
  have h5 : seg (encode (.vxorVi cv d a im k)) 8 6 = im := (seg_off _ k 5 8 6 (by decide)).trans (seg_hit _ im 8 ((seg_off _ a 14 8 6 (by decide)).trans ((seg_off _ d 19 8 6 (by decide)).trans ((seg_off _ cv 31 8 6 (by decide)).trans rfl))) (by decide))
  have h6 : seg (encode (.vxorVi cv d a im k)) 5 3 = k := seg_hit _ k 5 ((seg_off _ im 8 5 3 (by decide)).trans ((seg_off _ a 14 5 3 (by decide)).trans ((seg_off _ d 19 5 3 (by decide)).trans ((seg_off _ cv 31 5 3 (by decide)).trans rfl)))) (by decide)
  exact decode_of (form24 m (by simp [decode24, h1, h2, h3, h4, h5, h6]))
theorem RoundTrip.vsllVi (cv : BitVec 1) (d : BitVec 5) (a : BitVec 5) (im : BitVec 6) (k : BitVec 3) : RoundTrip.Statement (.vsllVi cv d a im k) := by
  have m : seg (encode (.vsllVi cv d a im k)) 24 7 = 36#7 := (seg_off _ k 5 24 7 (by decide)).trans ((seg_off _ im 8 24 7 (by decide)).trans ((seg_off _ a 14 24 7 (by decide)).trans ((seg_off _ d 19 24 7 (by decide)).trans ((seg_off _ cv 31 24 7 (by decide)).trans rfl))))
  have h1 : seg (encode (.vsllVi cv d a im k)) 0 5 = 5#5 := (seg_off _ k 5 0 5 (by decide)).trans ((seg_off _ im 8 0 5 (by decide)).trans ((seg_off _ a 14 0 5 (by decide)).trans ((seg_off _ d 19 0 5 (by decide)).trans ((seg_off _ cv 31 0 5 (by decide)).trans rfl))))
  have h2 : seg (encode (.vsllVi cv d a im k)) 31 1 = cv := (seg_off _ k 5 31 1 (by decide)).trans ((seg_off _ im 8 31 1 (by decide)).trans ((seg_off _ a 14 31 1 (by decide)).trans ((seg_off _ d 19 31 1 (by decide)).trans (seg_hit _ cv 31 rfl (by decide)))))
  have h3 : seg (encode (.vsllVi cv d a im k)) 19 5 = d := (seg_off _ k 5 19 5 (by decide)).trans ((seg_off _ im 8 19 5 (by decide)).trans ((seg_off _ a 14 19 5 (by decide)).trans (seg_hit _ d 19 ((seg_off _ cv 31 19 5 (by decide)).trans rfl) (by decide))))
  have h4 : seg (encode (.vsllVi cv d a im k)) 14 5 = a := (seg_off _ k 5 14 5 (by decide)).trans ((seg_off _ im 8 14 5 (by decide)).trans (seg_hit _ a 14 ((seg_off _ d 19 14 5 (by decide)).trans ((seg_off _ cv 31 14 5 (by decide)).trans rfl)) (by decide)))
  have h5 : seg (encode (.vsllVi cv d a im k)) 8 6 = im := (seg_off _ k 5 8 6 (by decide)).trans (seg_hit _ im 8 ((seg_off _ a 14 8 6 (by decide)).trans ((seg_off _ d 19 8 6 (by decide)).trans ((seg_off _ cv 31 8 6 (by decide)).trans rfl))) (by decide))
  have h6 : seg (encode (.vsllVi cv d a im k)) 5 3 = k := seg_hit _ k 5 ((seg_off _ im 8 5 3 (by decide)).trans ((seg_off _ a 14 5 3 (by decide)).trans ((seg_off _ d 19 5 3 (by decide)).trans ((seg_off _ cv 31 5 3 (by decide)).trans rfl)))) (by decide)
  exact decode_of (form24 m (by simp [decode24, h1, h2, h3, h4, h5, h6]))
theorem RoundTrip.vsrlVi (cv : BitVec 1) (d : BitVec 5) (a : BitVec 5) (im : BitVec 6) (k : BitVec 3) : RoundTrip.Statement (.vsrlVi cv d a im k) := by
  have m : seg (encode (.vsrlVi cv d a im k)) 24 7 = 36#7 := (seg_off _ k 5 24 7 (by decide)).trans ((seg_off _ im 8 24 7 (by decide)).trans ((seg_off _ a 14 24 7 (by decide)).trans ((seg_off _ d 19 24 7 (by decide)).trans ((seg_off _ cv 31 24 7 (by decide)).trans rfl))))
  have h1 : seg (encode (.vsrlVi cv d a im k)) 0 5 = 6#5 := (seg_off _ k 5 0 5 (by decide)).trans ((seg_off _ im 8 0 5 (by decide)).trans ((seg_off _ a 14 0 5 (by decide)).trans ((seg_off _ d 19 0 5 (by decide)).trans ((seg_off _ cv 31 0 5 (by decide)).trans rfl))))
  have h2 : seg (encode (.vsrlVi cv d a im k)) 31 1 = cv := (seg_off _ k 5 31 1 (by decide)).trans ((seg_off _ im 8 31 1 (by decide)).trans ((seg_off _ a 14 31 1 (by decide)).trans ((seg_off _ d 19 31 1 (by decide)).trans (seg_hit _ cv 31 rfl (by decide)))))
  have h3 : seg (encode (.vsrlVi cv d a im k)) 19 5 = d := (seg_off _ k 5 19 5 (by decide)).trans ((seg_off _ im 8 19 5 (by decide)).trans ((seg_off _ a 14 19 5 (by decide)).trans (seg_hit _ d 19 ((seg_off _ cv 31 19 5 (by decide)).trans rfl) (by decide))))
  have h4 : seg (encode (.vsrlVi cv d a im k)) 14 5 = a := (seg_off _ k 5 14 5 (by decide)).trans ((seg_off _ im 8 14 5 (by decide)).trans (seg_hit _ a 14 ((seg_off _ d 19 14 5 (by decide)).trans ((seg_off _ cv 31 14 5 (by decide)).trans rfl)) (by decide)))
  have h5 : seg (encode (.vsrlVi cv d a im k)) 8 6 = im := (seg_off _ k 5 8 6 (by decide)).trans (seg_hit _ im 8 ((seg_off _ a 14 8 6 (by decide)).trans ((seg_off _ d 19 8 6 (by decide)).trans ((seg_off _ cv 31 8 6 (by decide)).trans rfl))) (by decide))
  have h6 : seg (encode (.vsrlVi cv d a im k)) 5 3 = k := seg_hit _ k 5 ((seg_off _ im 8 5 3 (by decide)).trans ((seg_off _ a 14 5 3 (by decide)).trans ((seg_off _ d 19 5 3 (by decide)).trans ((seg_off _ cv 31 5 3 (by decide)).trans rfl)))) (by decide)
  exact decode_of (form24 m (by simp [decode24, h1, h2, h3, h4, h5, h6]))
theorem RoundTrip.vsraVi (cv : BitVec 1) (d : BitVec 5) (a : BitVec 5) (im : BitVec 6) (k : BitVec 3) : RoundTrip.Statement (.vsraVi cv d a im k) := by
  have m : seg (encode (.vsraVi cv d a im k)) 24 7 = 36#7 := (seg_off _ k 5 24 7 (by decide)).trans ((seg_off _ im 8 24 7 (by decide)).trans ((seg_off _ a 14 24 7 (by decide)).trans ((seg_off _ d 19 24 7 (by decide)).trans ((seg_off _ cv 31 24 7 (by decide)).trans rfl))))
  have h1 : seg (encode (.vsraVi cv d a im k)) 0 5 = 7#5 := (seg_off _ k 5 0 5 (by decide)).trans ((seg_off _ im 8 0 5 (by decide)).trans ((seg_off _ a 14 0 5 (by decide)).trans ((seg_off _ d 19 0 5 (by decide)).trans ((seg_off _ cv 31 0 5 (by decide)).trans rfl))))
  have h2 : seg (encode (.vsraVi cv d a im k)) 31 1 = cv := (seg_off _ k 5 31 1 (by decide)).trans ((seg_off _ im 8 31 1 (by decide)).trans ((seg_off _ a 14 31 1 (by decide)).trans ((seg_off _ d 19 31 1 (by decide)).trans (seg_hit _ cv 31 rfl (by decide)))))
  have h3 : seg (encode (.vsraVi cv d a im k)) 19 5 = d := (seg_off _ k 5 19 5 (by decide)).trans ((seg_off _ im 8 19 5 (by decide)).trans ((seg_off _ a 14 19 5 (by decide)).trans (seg_hit _ d 19 ((seg_off _ cv 31 19 5 (by decide)).trans rfl) (by decide))))
  have h4 : seg (encode (.vsraVi cv d a im k)) 14 5 = a := (seg_off _ k 5 14 5 (by decide)).trans ((seg_off _ im 8 14 5 (by decide)).trans (seg_hit _ a 14 ((seg_off _ d 19 14 5 (by decide)).trans ((seg_off _ cv 31 14 5 (by decide)).trans rfl)) (by decide)))
  have h5 : seg (encode (.vsraVi cv d a im k)) 8 6 = im := (seg_off _ k 5 8 6 (by decide)).trans (seg_hit _ im 8 ((seg_off _ a 14 8 6 (by decide)).trans ((seg_off _ d 19 8 6 (by decide)).trans ((seg_off _ cv 31 8 6 (by decide)).trans rfl))) (by decide))
  have h6 : seg (encode (.vsraVi cv d a im k)) 5 3 = k := seg_hit _ k 5 ((seg_off _ im 8 5 3 (by decide)).trans ((seg_off _ a 14 5 3 (by decide)).trans ((seg_off _ d 19 5 3 (by decide)).trans ((seg_off _ cv 31 5 3 (by decide)).trans rfl)))) (by decide)
  exact decode_of (form24 m (by simp [decode24, h1, h2, h3, h4, h5, h6]))
theorem RoundTrip.vminVi (cv : BitVec 1) (d : BitVec 5) (a : BitVec 5) (im : BitVec 6) (k : BitVec 3) : RoundTrip.Statement (.vminVi cv d a im k) := by
  have m : seg (encode (.vminVi cv d a im k)) 24 7 = 36#7 := (seg_off _ k 5 24 7 (by decide)).trans ((seg_off _ im 8 24 7 (by decide)).trans ((seg_off _ a 14 24 7 (by decide)).trans ((seg_off _ d 19 24 7 (by decide)).trans ((seg_off _ cv 31 24 7 (by decide)).trans rfl))))
  have h1 : seg (encode (.vminVi cv d a im k)) 0 5 = 10#5 := (seg_off _ k 5 0 5 (by decide)).trans ((seg_off _ im 8 0 5 (by decide)).trans ((seg_off _ a 14 0 5 (by decide)).trans ((seg_off _ d 19 0 5 (by decide)).trans ((seg_off _ cv 31 0 5 (by decide)).trans rfl))))
  have h2 : seg (encode (.vminVi cv d a im k)) 31 1 = cv := (seg_off _ k 5 31 1 (by decide)).trans ((seg_off _ im 8 31 1 (by decide)).trans ((seg_off _ a 14 31 1 (by decide)).trans ((seg_off _ d 19 31 1 (by decide)).trans (seg_hit _ cv 31 rfl (by decide)))))
  have h3 : seg (encode (.vminVi cv d a im k)) 19 5 = d := (seg_off _ k 5 19 5 (by decide)).trans ((seg_off _ im 8 19 5 (by decide)).trans ((seg_off _ a 14 19 5 (by decide)).trans (seg_hit _ d 19 ((seg_off _ cv 31 19 5 (by decide)).trans rfl) (by decide))))
  have h4 : seg (encode (.vminVi cv d a im k)) 14 5 = a := (seg_off _ k 5 14 5 (by decide)).trans ((seg_off _ im 8 14 5 (by decide)).trans (seg_hit _ a 14 ((seg_off _ d 19 14 5 (by decide)).trans ((seg_off _ cv 31 14 5 (by decide)).trans rfl)) (by decide)))
  have h5 : seg (encode (.vminVi cv d a im k)) 8 6 = im := (seg_off _ k 5 8 6 (by decide)).trans (seg_hit _ im 8 ((seg_off _ a 14 8 6 (by decide)).trans ((seg_off _ d 19 8 6 (by decide)).trans ((seg_off _ cv 31 8 6 (by decide)).trans rfl))) (by decide))
  have h6 : seg (encode (.vminVi cv d a im k)) 5 3 = k := seg_hit _ k 5 ((seg_off _ im 8 5 3 (by decide)).trans ((seg_off _ a 14 5 3 (by decide)).trans ((seg_off _ d 19 5 3 (by decide)).trans ((seg_off _ cv 31 5 3 (by decide)).trans rfl)))) (by decide)
  exact decode_of (form24 m (by simp [decode24, h1, h2, h3, h4, h5, h6]))
theorem RoundTrip.vmaxVi (cv : BitVec 1) (d : BitVec 5) (a : BitVec 5) (im : BitVec 6) (k : BitVec 3) : RoundTrip.Statement (.vmaxVi cv d a im k) := by
  have m : seg (encode (.vmaxVi cv d a im k)) 24 7 = 36#7 := (seg_off _ k 5 24 7 (by decide)).trans ((seg_off _ im 8 24 7 (by decide)).trans ((seg_off _ a 14 24 7 (by decide)).trans ((seg_off _ d 19 24 7 (by decide)).trans ((seg_off _ cv 31 24 7 (by decide)).trans rfl))))
  have h1 : seg (encode (.vmaxVi cv d a im k)) 0 5 = 11#5 := (seg_off _ k 5 0 5 (by decide)).trans ((seg_off _ im 8 0 5 (by decide)).trans ((seg_off _ a 14 0 5 (by decide)).trans ((seg_off _ d 19 0 5 (by decide)).trans ((seg_off _ cv 31 0 5 (by decide)).trans rfl))))
  have h2 : seg (encode (.vmaxVi cv d a im k)) 31 1 = cv := (seg_off _ k 5 31 1 (by decide)).trans ((seg_off _ im 8 31 1 (by decide)).trans ((seg_off _ a 14 31 1 (by decide)).trans ((seg_off _ d 19 31 1 (by decide)).trans (seg_hit _ cv 31 rfl (by decide)))))
  have h3 : seg (encode (.vmaxVi cv d a im k)) 19 5 = d := (seg_off _ k 5 19 5 (by decide)).trans ((seg_off _ im 8 19 5 (by decide)).trans ((seg_off _ a 14 19 5 (by decide)).trans (seg_hit _ d 19 ((seg_off _ cv 31 19 5 (by decide)).trans rfl) (by decide))))
  have h4 : seg (encode (.vmaxVi cv d a im k)) 14 5 = a := (seg_off _ k 5 14 5 (by decide)).trans ((seg_off _ im 8 14 5 (by decide)).trans (seg_hit _ a 14 ((seg_off _ d 19 14 5 (by decide)).trans ((seg_off _ cv 31 14 5 (by decide)).trans rfl)) (by decide)))
  have h5 : seg (encode (.vmaxVi cv d a im k)) 8 6 = im := (seg_off _ k 5 8 6 (by decide)).trans (seg_hit _ im 8 ((seg_off _ a 14 8 6 (by decide)).trans ((seg_off _ d 19 8 6 (by decide)).trans ((seg_off _ cv 31 8 6 (by decide)).trans rfl))) (by decide))
  have h6 : seg (encode (.vmaxVi cv d a im k)) 5 3 = k := seg_hit _ k 5 ((seg_off _ im 8 5 3 (by decide)).trans ((seg_off _ a 14 5 3 (by decide)).trans ((seg_off _ d 19 5 3 (by decide)).trans ((seg_off _ cv 31 5 3 (by decide)).trans rfl)))) (by decide)
  exact decode_of (form24 m (by simp [decode24, h1, h2, h3, h4, h5, h6]))
theorem RoundTrip.vminuVi (cv : BitVec 1) (d : BitVec 5) (a : BitVec 5) (im : BitVec 6) (k : BitVec 3) : RoundTrip.Statement (.vminuVi cv d a im k) := by
  have m : seg (encode (.vminuVi cv d a im k)) 24 7 = 36#7 := (seg_off _ k 5 24 7 (by decide)).trans ((seg_off _ im 8 24 7 (by decide)).trans ((seg_off _ a 14 24 7 (by decide)).trans ((seg_off _ d 19 24 7 (by decide)).trans ((seg_off _ cv 31 24 7 (by decide)).trans rfl))))
  have h1 : seg (encode (.vminuVi cv d a im k)) 0 5 = 12#5 := (seg_off _ k 5 0 5 (by decide)).trans ((seg_off _ im 8 0 5 (by decide)).trans ((seg_off _ a 14 0 5 (by decide)).trans ((seg_off _ d 19 0 5 (by decide)).trans ((seg_off _ cv 31 0 5 (by decide)).trans rfl))))
  have h2 : seg (encode (.vminuVi cv d a im k)) 31 1 = cv := (seg_off _ k 5 31 1 (by decide)).trans ((seg_off _ im 8 31 1 (by decide)).trans ((seg_off _ a 14 31 1 (by decide)).trans ((seg_off _ d 19 31 1 (by decide)).trans (seg_hit _ cv 31 rfl (by decide)))))
  have h3 : seg (encode (.vminuVi cv d a im k)) 19 5 = d := (seg_off _ k 5 19 5 (by decide)).trans ((seg_off _ im 8 19 5 (by decide)).trans ((seg_off _ a 14 19 5 (by decide)).trans (seg_hit _ d 19 ((seg_off _ cv 31 19 5 (by decide)).trans rfl) (by decide))))
  have h4 : seg (encode (.vminuVi cv d a im k)) 14 5 = a := (seg_off _ k 5 14 5 (by decide)).trans ((seg_off _ im 8 14 5 (by decide)).trans (seg_hit _ a 14 ((seg_off _ d 19 14 5 (by decide)).trans ((seg_off _ cv 31 14 5 (by decide)).trans rfl)) (by decide)))
  have h5 : seg (encode (.vminuVi cv d a im k)) 8 6 = im := (seg_off _ k 5 8 6 (by decide)).trans (seg_hit _ im 8 ((seg_off _ a 14 8 6 (by decide)).trans ((seg_off _ d 19 8 6 (by decide)).trans ((seg_off _ cv 31 8 6 (by decide)).trans rfl))) (by decide))
  have h6 : seg (encode (.vminuVi cv d a im k)) 5 3 = k := seg_hit _ k 5 ((seg_off _ im 8 5 3 (by decide)).trans ((seg_off _ a 14 5 3 (by decide)).trans ((seg_off _ d 19 5 3 (by decide)).trans ((seg_off _ cv 31 5 3 (by decide)).trans rfl)))) (by decide)
  exact decode_of (form24 m (by simp [decode24, h1, h2, h3, h4, h5, h6]))
theorem RoundTrip.vmaxuVi (cv : BitVec 1) (d : BitVec 5) (a : BitVec 5) (im : BitVec 6) (k : BitVec 3) : RoundTrip.Statement (.vmaxuVi cv d a im k) := by
  have m : seg (encode (.vmaxuVi cv d a im k)) 24 7 = 36#7 := (seg_off _ k 5 24 7 (by decide)).trans ((seg_off _ im 8 24 7 (by decide)).trans ((seg_off _ a 14 24 7 (by decide)).trans ((seg_off _ d 19 24 7 (by decide)).trans ((seg_off _ cv 31 24 7 (by decide)).trans rfl))))
  have h1 : seg (encode (.vmaxuVi cv d a im k)) 0 5 = 13#5 := (seg_off _ k 5 0 5 (by decide)).trans ((seg_off _ im 8 0 5 (by decide)).trans ((seg_off _ a 14 0 5 (by decide)).trans ((seg_off _ d 19 0 5 (by decide)).trans ((seg_off _ cv 31 0 5 (by decide)).trans rfl))))
  have h2 : seg (encode (.vmaxuVi cv d a im k)) 31 1 = cv := (seg_off _ k 5 31 1 (by decide)).trans ((seg_off _ im 8 31 1 (by decide)).trans ((seg_off _ a 14 31 1 (by decide)).trans ((seg_off _ d 19 31 1 (by decide)).trans (seg_hit _ cv 31 rfl (by decide)))))
  have h3 : seg (encode (.vmaxuVi cv d a im k)) 19 5 = d := (seg_off _ k 5 19 5 (by decide)).trans ((seg_off _ im 8 19 5 (by decide)).trans ((seg_off _ a 14 19 5 (by decide)).trans (seg_hit _ d 19 ((seg_off _ cv 31 19 5 (by decide)).trans rfl) (by decide))))
  have h4 : seg (encode (.vmaxuVi cv d a im k)) 14 5 = a := (seg_off _ k 5 14 5 (by decide)).trans ((seg_off _ im 8 14 5 (by decide)).trans (seg_hit _ a 14 ((seg_off _ d 19 14 5 (by decide)).trans ((seg_off _ cv 31 14 5 (by decide)).trans rfl)) (by decide)))
  have h5 : seg (encode (.vmaxuVi cv d a im k)) 8 6 = im := (seg_off _ k 5 8 6 (by decide)).trans (seg_hit _ im 8 ((seg_off _ a 14 8 6 (by decide)).trans ((seg_off _ d 19 8 6 (by decide)).trans ((seg_off _ cv 31 8 6 (by decide)).trans rfl))) (by decide))
  have h6 : seg (encode (.vmaxuVi cv d a im k)) 5 3 = k := seg_hit _ k 5 ((seg_off _ im 8 5 3 (by decide)).trans ((seg_off _ a 14 5 3 (by decide)).trans ((seg_off _ d 19 5 3 (by decide)).trans ((seg_off _ cv 31 5 3 (by decide)).trans rfl)))) (by decide)
  exact decode_of (form24 m (by simp [decode24, h1, h2, h3, h4, h5, h6]))
theorem RoundTrip.vrsubVi (cv : BitVec 1) (d : BitVec 5) (a : BitVec 5) (im : BitVec 6) (k : BitVec 3) : RoundTrip.Statement (.vrsubVi cv d a im k) := by
  have m : seg (encode (.vrsubVi cv d a im k)) 24 7 = 36#7 := (seg_off _ k 5 24 7 (by decide)).trans ((seg_off _ im 8 24 7 (by decide)).trans ((seg_off _ a 14 24 7 (by decide)).trans ((seg_off _ d 19 24 7 (by decide)).trans ((seg_off _ cv 31 24 7 (by decide)).trans rfl))))
  have h1 : seg (encode (.vrsubVi cv d a im k)) 0 5 = 27#5 := (seg_off _ k 5 0 5 (by decide)).trans ((seg_off _ im 8 0 5 (by decide)).trans ((seg_off _ a 14 0 5 (by decide)).trans ((seg_off _ d 19 0 5 (by decide)).trans ((seg_off _ cv 31 0 5 (by decide)).trans rfl))))
  have h2 : seg (encode (.vrsubVi cv d a im k)) 31 1 = cv := (seg_off _ k 5 31 1 (by decide)).trans ((seg_off _ im 8 31 1 (by decide)).trans ((seg_off _ a 14 31 1 (by decide)).trans ((seg_off _ d 19 31 1 (by decide)).trans (seg_hit _ cv 31 rfl (by decide)))))
  have h3 : seg (encode (.vrsubVi cv d a im k)) 19 5 = d := (seg_off _ k 5 19 5 (by decide)).trans ((seg_off _ im 8 19 5 (by decide)).trans ((seg_off _ a 14 19 5 (by decide)).trans (seg_hit _ d 19 ((seg_off _ cv 31 19 5 (by decide)).trans rfl) (by decide))))
  have h4 : seg (encode (.vrsubVi cv d a im k)) 14 5 = a := (seg_off _ k 5 14 5 (by decide)).trans ((seg_off _ im 8 14 5 (by decide)).trans (seg_hit _ a 14 ((seg_off _ d 19 14 5 (by decide)).trans ((seg_off _ cv 31 14 5 (by decide)).trans rfl)) (by decide)))
  have h5 : seg (encode (.vrsubVi cv d a im k)) 8 6 = im := (seg_off _ k 5 8 6 (by decide)).trans (seg_hit _ im 8 ((seg_off _ a 14 8 6 (by decide)).trans ((seg_off _ d 19 8 6 (by decide)).trans ((seg_off _ cv 31 8 6 (by decide)).trans rfl))) (by decide))
  have h6 : seg (encode (.vrsubVi cv d a im k)) 5 3 = k := seg_hit _ k 5 ((seg_off _ im 8 5 3 (by decide)).trans ((seg_off _ a 14 5 3 (by decide)).trans ((seg_off _ d 19 5 3 (by decide)).trans ((seg_off _ cv 31 5 3 (by decide)).trans rfl)))) (by decide)
  exact decode_of (form24 m (by simp [decode24, h1, h2, h3, h4, h5, h6]))
theorem RoundTrip.vsadd (cv : BitVec 1) (d : BitVec 5) (a : BitVec 5) (b : BitVec 5) (k : BitVec 3) : RoundTrip.Statement (.vsadd cv d a b k) := by
  have m : seg (encode (.vsadd cv d a b k)) 24 7 = 58#7 := (seg_off _ k 6 24 7 (by decide)).trans ((seg_off _ b 9 24 7 (by decide)).trans ((seg_off _ a 14 24 7 (by decide)).trans ((seg_off _ d 19 24 7 (by decide)).trans ((seg_off _ cv 31 24 7 (by decide)).trans rfl))))
  have h1 : seg (encode (.vsadd cv d a b k)) 0 6 = 0#6 := (seg_off _ k 6 0 6 (by decide)).trans ((seg_off _ b 9 0 6 (by decide)).trans ((seg_off _ a 14 0 6 (by decide)).trans ((seg_off _ d 19 0 6 (by decide)).trans ((seg_off _ cv 31 0 6 (by decide)).trans rfl))))
  have h2 : seg (encode (.vsadd cv d a b k)) 31 1 = cv := (seg_off _ k 6 31 1 (by decide)).trans ((seg_off _ b 9 31 1 (by decide)).trans ((seg_off _ a 14 31 1 (by decide)).trans ((seg_off _ d 19 31 1 (by decide)).trans (seg_hit _ cv 31 rfl (by decide)))))
  have h3 : seg (encode (.vsadd cv d a b k)) 19 5 = d := (seg_off _ k 6 19 5 (by decide)).trans ((seg_off _ b 9 19 5 (by decide)).trans ((seg_off _ a 14 19 5 (by decide)).trans (seg_hit _ d 19 ((seg_off _ cv 31 19 5 (by decide)).trans rfl) (by decide))))
  have h4 : seg (encode (.vsadd cv d a b k)) 14 5 = a := (seg_off _ k 6 14 5 (by decide)).trans ((seg_off _ b 9 14 5 (by decide)).trans (seg_hit _ a 14 ((seg_off _ d 19 14 5 (by decide)).trans ((seg_off _ cv 31 14 5 (by decide)).trans rfl)) (by decide)))
  have h5 : seg (encode (.vsadd cv d a b k)) 9 5 = b := (seg_off _ k 6 9 5 (by decide)).trans (seg_hit _ b 9 ((seg_off _ a 14 9 5 (by decide)).trans ((seg_off _ d 19 9 5 (by decide)).trans ((seg_off _ cv 31 9 5 (by decide)).trans rfl))) (by decide))
  have h6 : seg (encode (.vsadd cv d a b k)) 6 3 = k := seg_hit _ k 6 ((seg_off _ b 9 6 3 (by decide)).trans ((seg_off _ a 14 6 3 (by decide)).trans ((seg_off _ d 19 6 3 (by decide)).trans ((seg_off _ cv 31 6 3 (by decide)).trans rfl)))) (by decide)
  exact decode_of (form3A m (by simp [decode3A, h1, h2, h3, h4, h5, h6]))
theorem RoundTrip.vsaddu (cv : BitVec 1) (d : BitVec 5) (a : BitVec 5) (b : BitVec 5) (k : BitVec 3) : RoundTrip.Statement (.vsaddu cv d a b k) := by
  have m : seg (encode (.vsaddu cv d a b k)) 24 7 = 58#7 := (seg_off _ k 6 24 7 (by decide)).trans ((seg_off _ b 9 24 7 (by decide)).trans ((seg_off _ a 14 24 7 (by decide)).trans ((seg_off _ d 19 24 7 (by decide)).trans ((seg_off _ cv 31 24 7 (by decide)).trans rfl))))
  have h1 : seg (encode (.vsaddu cv d a b k)) 0 6 = 1#6 := (seg_off _ k 6 0 6 (by decide)).trans ((seg_off _ b 9 0 6 (by decide)).trans ((seg_off _ a 14 0 6 (by decide)).trans ((seg_off _ d 19 0 6 (by decide)).trans ((seg_off _ cv 31 0 6 (by decide)).trans rfl))))
  have h2 : seg (encode (.vsaddu cv d a b k)) 31 1 = cv := (seg_off _ k 6 31 1 (by decide)).trans ((seg_off _ b 9 31 1 (by decide)).trans ((seg_off _ a 14 31 1 (by decide)).trans ((seg_off _ d 19 31 1 (by decide)).trans (seg_hit _ cv 31 rfl (by decide)))))
  have h3 : seg (encode (.vsaddu cv d a b k)) 19 5 = d := (seg_off _ k 6 19 5 (by decide)).trans ((seg_off _ b 9 19 5 (by decide)).trans ((seg_off _ a 14 19 5 (by decide)).trans (seg_hit _ d 19 ((seg_off _ cv 31 19 5 (by decide)).trans rfl) (by decide))))
  have h4 : seg (encode (.vsaddu cv d a b k)) 14 5 = a := (seg_off _ k 6 14 5 (by decide)).trans ((seg_off _ b 9 14 5 (by decide)).trans (seg_hit _ a 14 ((seg_off _ d 19 14 5 (by decide)).trans ((seg_off _ cv 31 14 5 (by decide)).trans rfl)) (by decide)))
  have h5 : seg (encode (.vsaddu cv d a b k)) 9 5 = b := (seg_off _ k 6 9 5 (by decide)).trans (seg_hit _ b 9 ((seg_off _ a 14 9 5 (by decide)).trans ((seg_off _ d 19 9 5 (by decide)).trans ((seg_off _ cv 31 9 5 (by decide)).trans rfl))) (by decide))
  have h6 : seg (encode (.vsaddu cv d a b k)) 6 3 = k := seg_hit _ k 6 ((seg_off _ b 9 6 3 (by decide)).trans ((seg_off _ a 14 6 3 (by decide)).trans ((seg_off _ d 19 6 3 (by decide)).trans ((seg_off _ cv 31 6 3 (by decide)).trans rfl)))) (by decide)
  exact decode_of (form3A m (by simp [decode3A, h1, h2, h3, h4, h5, h6]))
theorem RoundTrip.vssub (cv : BitVec 1) (d : BitVec 5) (a : BitVec 5) (b : BitVec 5) (k : BitVec 3) : RoundTrip.Statement (.vssub cv d a b k) := by
  have m : seg (encode (.vssub cv d a b k)) 24 7 = 58#7 := (seg_off _ k 6 24 7 (by decide)).trans ((seg_off _ b 9 24 7 (by decide)).trans ((seg_off _ a 14 24 7 (by decide)).trans ((seg_off _ d 19 24 7 (by decide)).trans ((seg_off _ cv 31 24 7 (by decide)).trans rfl))))
  have h1 : seg (encode (.vssub cv d a b k)) 0 6 = 2#6 := (seg_off _ k 6 0 6 (by decide)).trans ((seg_off _ b 9 0 6 (by decide)).trans ((seg_off _ a 14 0 6 (by decide)).trans ((seg_off _ d 19 0 6 (by decide)).trans ((seg_off _ cv 31 0 6 (by decide)).trans rfl))))
  have h2 : seg (encode (.vssub cv d a b k)) 31 1 = cv := (seg_off _ k 6 31 1 (by decide)).trans ((seg_off _ b 9 31 1 (by decide)).trans ((seg_off _ a 14 31 1 (by decide)).trans ((seg_off _ d 19 31 1 (by decide)).trans (seg_hit _ cv 31 rfl (by decide)))))
  have h3 : seg (encode (.vssub cv d a b k)) 19 5 = d := (seg_off _ k 6 19 5 (by decide)).trans ((seg_off _ b 9 19 5 (by decide)).trans ((seg_off _ a 14 19 5 (by decide)).trans (seg_hit _ d 19 ((seg_off _ cv 31 19 5 (by decide)).trans rfl) (by decide))))
  have h4 : seg (encode (.vssub cv d a b k)) 14 5 = a := (seg_off _ k 6 14 5 (by decide)).trans ((seg_off _ b 9 14 5 (by decide)).trans (seg_hit _ a 14 ((seg_off _ d 19 14 5 (by decide)).trans ((seg_off _ cv 31 14 5 (by decide)).trans rfl)) (by decide)))
  have h5 : seg (encode (.vssub cv d a b k)) 9 5 = b := (seg_off _ k 6 9 5 (by decide)).trans (seg_hit _ b 9 ((seg_off _ a 14 9 5 (by decide)).trans ((seg_off _ d 19 9 5 (by decide)).trans ((seg_off _ cv 31 9 5 (by decide)).trans rfl))) (by decide))
  have h6 : seg (encode (.vssub cv d a b k)) 6 3 = k := seg_hit _ k 6 ((seg_off _ b 9 6 3 (by decide)).trans ((seg_off _ a 14 6 3 (by decide)).trans ((seg_off _ d 19 6 3 (by decide)).trans ((seg_off _ cv 31 6 3 (by decide)).trans rfl)))) (by decide)
  exact decode_of (form3A m (by simp [decode3A, h1, h2, h3, h4, h5, h6]))
theorem RoundTrip.vssubu (cv : BitVec 1) (d : BitVec 5) (a : BitVec 5) (b : BitVec 5) (k : BitVec 3) : RoundTrip.Statement (.vssubu cv d a b k) := by
  have m : seg (encode (.vssubu cv d a b k)) 24 7 = 58#7 := (seg_off _ k 6 24 7 (by decide)).trans ((seg_off _ b 9 24 7 (by decide)).trans ((seg_off _ a 14 24 7 (by decide)).trans ((seg_off _ d 19 24 7 (by decide)).trans ((seg_off _ cv 31 24 7 (by decide)).trans rfl))))
  have h1 : seg (encode (.vssubu cv d a b k)) 0 6 = 3#6 := (seg_off _ k 6 0 6 (by decide)).trans ((seg_off _ b 9 0 6 (by decide)).trans ((seg_off _ a 14 0 6 (by decide)).trans ((seg_off _ d 19 0 6 (by decide)).trans ((seg_off _ cv 31 0 6 (by decide)).trans rfl))))
  have h2 : seg (encode (.vssubu cv d a b k)) 31 1 = cv := (seg_off _ k 6 31 1 (by decide)).trans ((seg_off _ b 9 31 1 (by decide)).trans ((seg_off _ a 14 31 1 (by decide)).trans ((seg_off _ d 19 31 1 (by decide)).trans (seg_hit _ cv 31 rfl (by decide)))))
  have h3 : seg (encode (.vssubu cv d a b k)) 19 5 = d := (seg_off _ k 6 19 5 (by decide)).trans ((seg_off _ b 9 19 5 (by decide)).trans ((seg_off _ a 14 19 5 (by decide)).trans (seg_hit _ d 19 ((seg_off _ cv 31 19 5 (by decide)).trans rfl) (by decide))))
  have h4 : seg (encode (.vssubu cv d a b k)) 14 5 = a := (seg_off _ k 6 14 5 (by decide)).trans ((seg_off _ b 9 14 5 (by decide)).trans (seg_hit _ a 14 ((seg_off _ d 19 14 5 (by decide)).trans ((seg_off _ cv 31 14 5 (by decide)).trans rfl)) (by decide)))
  have h5 : seg (encode (.vssubu cv d a b k)) 9 5 = b := (seg_off _ k 6 9 5 (by decide)).trans (seg_hit _ b 9 ((seg_off _ a 14 9 5 (by decide)).trans ((seg_off _ d 19 9 5 (by decide)).trans ((seg_off _ cv 31 9 5 (by decide)).trans rfl))) (by decide))
  have h6 : seg (encode (.vssubu cv d a b k)) 6 3 = k := seg_hit _ k 6 ((seg_off _ b 9 6 3 (by decide)).trans ((seg_off _ a 14 6 3 (by decide)).trans ((seg_off _ d 19 6 3 (by decide)).trans ((seg_off _ cv 31 6 3 (by decide)).trans rfl)))) (by decide)
  exact decode_of (form3A m (by simp [decode3A, h1, h2, h3, h4, h5, h6]))
theorem RoundTrip.vsmul (cv : BitVec 1) (d : BitVec 5) (a : BitVec 5) (b : BitVec 5) (k : BitVec 3) : RoundTrip.Statement (.vsmul cv d a b k) := by
  have m : seg (encode (.vsmul cv d a b k)) 24 7 = 58#7 := (seg_off _ k 6 24 7 (by decide)).trans ((seg_off _ b 9 24 7 (by decide)).trans ((seg_off _ a 14 24 7 (by decide)).trans ((seg_off _ d 19 24 7 (by decide)).trans ((seg_off _ cv 31 24 7 (by decide)).trans rfl))))
  have h1 : seg (encode (.vsmul cv d a b k)) 0 6 = 4#6 := (seg_off _ k 6 0 6 (by decide)).trans ((seg_off _ b 9 0 6 (by decide)).trans ((seg_off _ a 14 0 6 (by decide)).trans ((seg_off _ d 19 0 6 (by decide)).trans ((seg_off _ cv 31 0 6 (by decide)).trans rfl))))
  have h2 : seg (encode (.vsmul cv d a b k)) 31 1 = cv := (seg_off _ k 6 31 1 (by decide)).trans ((seg_off _ b 9 31 1 (by decide)).trans ((seg_off _ a 14 31 1 (by decide)).trans ((seg_off _ d 19 31 1 (by decide)).trans (seg_hit _ cv 31 rfl (by decide)))))
  have h3 : seg (encode (.vsmul cv d a b k)) 19 5 = d := (seg_off _ k 6 19 5 (by decide)).trans ((seg_off _ b 9 19 5 (by decide)).trans ((seg_off _ a 14 19 5 (by decide)).trans (seg_hit _ d 19 ((seg_off _ cv 31 19 5 (by decide)).trans rfl) (by decide))))
  have h4 : seg (encode (.vsmul cv d a b k)) 14 5 = a := (seg_off _ k 6 14 5 (by decide)).trans ((seg_off _ b 9 14 5 (by decide)).trans (seg_hit _ a 14 ((seg_off _ d 19 14 5 (by decide)).trans ((seg_off _ cv 31 14 5 (by decide)).trans rfl)) (by decide)))
  have h5 : seg (encode (.vsmul cv d a b k)) 9 5 = b := (seg_off _ k 6 9 5 (by decide)).trans (seg_hit _ b 9 ((seg_off _ a 14 9 5 (by decide)).trans ((seg_off _ d 19 9 5 (by decide)).trans ((seg_off _ cv 31 9 5 (by decide)).trans rfl))) (by decide))
  have h6 : seg (encode (.vsmul cv d a b k)) 6 3 = k := seg_hit _ k 6 ((seg_off _ b 9 6 3 (by decide)).trans ((seg_off _ a 14 6 3 (by decide)).trans ((seg_off _ d 19 6 3 (by decide)).trans ((seg_off _ cv 31 6 3 (by decide)).trans rfl)))) (by decide)
  exact decode_of (form3A m (by simp [decode3A, h1, h2, h3, h4, h5, h6]))
theorem RoundTrip.vavg (cv : BitVec 1) (d : BitVec 5) (a : BitVec 5) (b : BitVec 5) (k : BitVec 3) : RoundTrip.Statement (.vavg cv d a b k) := by
  have m : seg (encode (.vavg cv d a b k)) 24 7 = 58#7 := (seg_off _ k 6 24 7 (by decide)).trans ((seg_off _ b 9 24 7 (by decide)).trans ((seg_off _ a 14 24 7 (by decide)).trans ((seg_off _ d 19 24 7 (by decide)).trans ((seg_off _ cv 31 24 7 (by decide)).trans rfl))))
  have h1 : seg (encode (.vavg cv d a b k)) 0 6 = 5#6 := (seg_off _ k 6 0 6 (by decide)).trans ((seg_off _ b 9 0 6 (by decide)).trans ((seg_off _ a 14 0 6 (by decide)).trans ((seg_off _ d 19 0 6 (by decide)).trans ((seg_off _ cv 31 0 6 (by decide)).trans rfl))))
  have h2 : seg (encode (.vavg cv d a b k)) 31 1 = cv := (seg_off _ k 6 31 1 (by decide)).trans ((seg_off _ b 9 31 1 (by decide)).trans ((seg_off _ a 14 31 1 (by decide)).trans ((seg_off _ d 19 31 1 (by decide)).trans (seg_hit _ cv 31 rfl (by decide)))))
  have h3 : seg (encode (.vavg cv d a b k)) 19 5 = d := (seg_off _ k 6 19 5 (by decide)).trans ((seg_off _ b 9 19 5 (by decide)).trans ((seg_off _ a 14 19 5 (by decide)).trans (seg_hit _ d 19 ((seg_off _ cv 31 19 5 (by decide)).trans rfl) (by decide))))
  have h4 : seg (encode (.vavg cv d a b k)) 14 5 = a := (seg_off _ k 6 14 5 (by decide)).trans ((seg_off _ b 9 14 5 (by decide)).trans (seg_hit _ a 14 ((seg_off _ d 19 14 5 (by decide)).trans ((seg_off _ cv 31 14 5 (by decide)).trans rfl)) (by decide)))
  have h5 : seg (encode (.vavg cv d a b k)) 9 5 = b := (seg_off _ k 6 9 5 (by decide)).trans (seg_hit _ b 9 ((seg_off _ a 14 9 5 (by decide)).trans ((seg_off _ d 19 9 5 (by decide)).trans ((seg_off _ cv 31 9 5 (by decide)).trans rfl))) (by decide))
  have h6 : seg (encode (.vavg cv d a b k)) 6 3 = k := seg_hit _ k 6 ((seg_off _ b 9 6 3 (by decide)).trans ((seg_off _ a 14 6 3 (by decide)).trans ((seg_off _ d 19 6 3 (by decide)).trans ((seg_off _ cv 31 6 3 (by decide)).trans rfl)))) (by decide)
  exact decode_of (form3A m (by simp [decode3A, h1, h2, h3, h4, h5, h6]))
theorem RoundTrip.vavgu (cv : BitVec 1) (d : BitVec 5) (a : BitVec 5) (b : BitVec 5) (k : BitVec 3) : RoundTrip.Statement (.vavgu cv d a b k) := by
  have m : seg (encode (.vavgu cv d a b k)) 24 7 = 58#7 := (seg_off _ k 6 24 7 (by decide)).trans ((seg_off _ b 9 24 7 (by decide)).trans ((seg_off _ a 14 24 7 (by decide)).trans ((seg_off _ d 19 24 7 (by decide)).trans ((seg_off _ cv 31 24 7 (by decide)).trans rfl))))
  have h1 : seg (encode (.vavgu cv d a b k)) 0 6 = 6#6 := (seg_off _ k 6 0 6 (by decide)).trans ((seg_off _ b 9 0 6 (by decide)).trans ((seg_off _ a 14 0 6 (by decide)).trans ((seg_off _ d 19 0 6 (by decide)).trans ((seg_off _ cv 31 0 6 (by decide)).trans rfl))))
  have h2 : seg (encode (.vavgu cv d a b k)) 31 1 = cv := (seg_off _ k 6 31 1 (by decide)).trans ((seg_off _ b 9 31 1 (by decide)).trans ((seg_off _ a 14 31 1 (by decide)).trans ((seg_off _ d 19 31 1 (by decide)).trans (seg_hit _ cv 31 rfl (by decide)))))
  have h3 : seg (encode (.vavgu cv d a b k)) 19 5 = d := (seg_off _ k 6 19 5 (by decide)).trans ((seg_off _ b 9 19 5 (by decide)).trans ((seg_off _ a 14 19 5 (by decide)).trans (seg_hit _ d 19 ((seg_off _ cv 31 19 5 (by decide)).trans rfl) (by decide))))
  have h4 : seg (encode (.vavgu cv d a b k)) 14 5 = a := (seg_off _ k 6 14 5 (by decide)).trans ((seg_off _ b 9 14 5 (by decide)).trans (seg_hit _ a 14 ((seg_off _ d 19 14 5 (by decide)).trans ((seg_off _ cv 31 14 5 (by decide)).trans rfl)) (by decide)))
  have h5 : seg (encode (.vavgu cv d a b k)) 9 5 = b := (seg_off _ k 6 9 5 (by decide)).trans (seg_hit _ b 9 ((seg_off _ a 14 9 5 (by decide)).trans ((seg_off _ d 19 9 5 (by decide)).trans ((seg_off _ cv 31 9 5 (by decide)).trans rfl))) (by decide))
  have h6 : seg (encode (.vavgu cv d a b k)) 6 3 = k := seg_hit _ k 6 ((seg_off _ b 9 6 3 (by decide)).trans ((seg_off _ a 14 6 3 (by decide)).trans ((seg_off _ d 19 6 3 (by decide)).trans ((seg_off _ cv 31 6 3 (by decide)).trans rfl)))) (by decide)
  exact decode_of (form3A m (by simp [decode3A, h1, h2, h3, h4, h5, h6]))
theorem RoundTrip.vfaddVv (cv : BitVec 1) (d : BitVec 5) (a : BitVec 5) (b : BitVec 5) (k : BitVec 3) : RoundTrip.Statement (.vfaddVv cv d a b k) := by
  have m : seg (encode (.vfaddVv cv d a b k)) 24 7 = 37#7 := (seg_off _ k 6 24 7 (by decide)).trans ((seg_off _ b 9 24 7 (by decide)).trans ((seg_off _ a 14 24 7 (by decide)).trans ((seg_off _ d 19 24 7 (by decide)).trans ((seg_off _ cv 31 24 7 (by decide)).trans rfl))))
  have h1 : seg (encode (.vfaddVv cv d a b k)) 0 6 = 0#6 := (seg_off _ k 6 0 6 (by decide)).trans ((seg_off _ b 9 0 6 (by decide)).trans ((seg_off _ a 14 0 6 (by decide)).trans ((seg_off _ d 19 0 6 (by decide)).trans ((seg_off _ cv 31 0 6 (by decide)).trans rfl))))
  have h2 : seg (encode (.vfaddVv cv d a b k)) 31 1 = cv := (seg_off _ k 6 31 1 (by decide)).trans ((seg_off _ b 9 31 1 (by decide)).trans ((seg_off _ a 14 31 1 (by decide)).trans ((seg_off _ d 19 31 1 (by decide)).trans (seg_hit _ cv 31 rfl (by decide)))))
  have h3 : seg (encode (.vfaddVv cv d a b k)) 19 5 = d := (seg_off _ k 6 19 5 (by decide)).trans ((seg_off _ b 9 19 5 (by decide)).trans ((seg_off _ a 14 19 5 (by decide)).trans (seg_hit _ d 19 ((seg_off _ cv 31 19 5 (by decide)).trans rfl) (by decide))))
  have h4 : seg (encode (.vfaddVv cv d a b k)) 14 5 = a := (seg_off _ k 6 14 5 (by decide)).trans ((seg_off _ b 9 14 5 (by decide)).trans (seg_hit _ a 14 ((seg_off _ d 19 14 5 (by decide)).trans ((seg_off _ cv 31 14 5 (by decide)).trans rfl)) (by decide)))
  have h5 : seg (encode (.vfaddVv cv d a b k)) 9 5 = b := (seg_off _ k 6 9 5 (by decide)).trans (seg_hit _ b 9 ((seg_off _ a 14 9 5 (by decide)).trans ((seg_off _ d 19 9 5 (by decide)).trans ((seg_off _ cv 31 9 5 (by decide)).trans rfl))) (by decide))
  have h6 : seg (encode (.vfaddVv cv d a b k)) 6 3 = k := seg_hit _ k 6 ((seg_off _ b 9 6 3 (by decide)).trans ((seg_off _ a 14 6 3 (by decide)).trans ((seg_off _ d 19 6 3 (by decide)).trans ((seg_off _ cv 31 6 3 (by decide)).trans rfl)))) (by decide)
  exact decode_of (form25 m (by simp [decode25, h1, h2, h3, h4, h5, h6]))
theorem RoundTrip.vfsubVv (cv : BitVec 1) (d : BitVec 5) (a : BitVec 5) (b : BitVec 5) (k : BitVec 3) : RoundTrip.Statement (.vfsubVv cv d a b k) := by
  have m : seg (encode (.vfsubVv cv d a b k)) 24 7 = 37#7 := (seg_off _ k 6 24 7 (by decide)).trans ((seg_off _ b 9 24 7 (by decide)).trans ((seg_off _ a 14 24 7 (by decide)).trans ((seg_off _ d 19 24 7 (by decide)).trans ((seg_off _ cv 31 24 7 (by decide)).trans rfl))))
  have h1 : seg (encode (.vfsubVv cv d a b k)) 0 6 = 1#6 := (seg_off _ k 6 0 6 (by decide)).trans ((seg_off _ b 9 0 6 (by decide)).trans ((seg_off _ a 14 0 6 (by decide)).trans ((seg_off _ d 19 0 6 (by decide)).trans ((seg_off _ cv 31 0 6 (by decide)).trans rfl))))
  have h2 : seg (encode (.vfsubVv cv d a b k)) 31 1 = cv := (seg_off _ k 6 31 1 (by decide)).trans ((seg_off _ b 9 31 1 (by decide)).trans ((seg_off _ a 14 31 1 (by decide)).trans ((seg_off _ d 19 31 1 (by decide)).trans (seg_hit _ cv 31 rfl (by decide)))))
  have h3 : seg (encode (.vfsubVv cv d a b k)) 19 5 = d := (seg_off _ k 6 19 5 (by decide)).trans ((seg_off _ b 9 19 5 (by decide)).trans ((seg_off _ a 14 19 5 (by decide)).trans (seg_hit _ d 19 ((seg_off _ cv 31 19 5 (by decide)).trans rfl) (by decide))))
  have h4 : seg (encode (.vfsubVv cv d a b k)) 14 5 = a := (seg_off _ k 6 14 5 (by decide)).trans ((seg_off _ b 9 14 5 (by decide)).trans (seg_hit _ a 14 ((seg_off _ d 19 14 5 (by decide)).trans ((seg_off _ cv 31 14 5 (by decide)).trans rfl)) (by decide)))
  have h5 : seg (encode (.vfsubVv cv d a b k)) 9 5 = b := (seg_off _ k 6 9 5 (by decide)).trans (seg_hit _ b 9 ((seg_off _ a 14 9 5 (by decide)).trans ((seg_off _ d 19 9 5 (by decide)).trans ((seg_off _ cv 31 9 5 (by decide)).trans rfl))) (by decide))
  have h6 : seg (encode (.vfsubVv cv d a b k)) 6 3 = k := seg_hit _ k 6 ((seg_off _ b 9 6 3 (by decide)).trans ((seg_off _ a 14 6 3 (by decide)).trans ((seg_off _ d 19 6 3 (by decide)).trans ((seg_off _ cv 31 6 3 (by decide)).trans rfl)))) (by decide)
  exact decode_of (form25 m (by simp [decode25, h1, h2, h3, h4, h5, h6]))
theorem RoundTrip.vfmulVv (cv : BitVec 1) (d : BitVec 5) (a : BitVec 5) (b : BitVec 5) (k : BitVec 3) : RoundTrip.Statement (.vfmulVv cv d a b k) := by
  have m : seg (encode (.vfmulVv cv d a b k)) 24 7 = 37#7 := (seg_off _ k 6 24 7 (by decide)).trans ((seg_off _ b 9 24 7 (by decide)).trans ((seg_off _ a 14 24 7 (by decide)).trans ((seg_off _ d 19 24 7 (by decide)).trans ((seg_off _ cv 31 24 7 (by decide)).trans rfl))))
  have h1 : seg (encode (.vfmulVv cv d a b k)) 0 6 = 2#6 := (seg_off _ k 6 0 6 (by decide)).trans ((seg_off _ b 9 0 6 (by decide)).trans ((seg_off _ a 14 0 6 (by decide)).trans ((seg_off _ d 19 0 6 (by decide)).trans ((seg_off _ cv 31 0 6 (by decide)).trans rfl))))
  have h2 : seg (encode (.vfmulVv cv d a b k)) 31 1 = cv := (seg_off _ k 6 31 1 (by decide)).trans ((seg_off _ b 9 31 1 (by decide)).trans ((seg_off _ a 14 31 1 (by decide)).trans ((seg_off _ d 19 31 1 (by decide)).trans (seg_hit _ cv 31 rfl (by decide)))))
  have h3 : seg (encode (.vfmulVv cv d a b k)) 19 5 = d := (seg_off _ k 6 19 5 (by decide)).trans ((seg_off _ b 9 19 5 (by decide)).trans ((seg_off _ a 14 19 5 (by decide)).trans (seg_hit _ d 19 ((seg_off _ cv 31 19 5 (by decide)).trans rfl) (by decide))))
  have h4 : seg (encode (.vfmulVv cv d a b k)) 14 5 = a := (seg_off _ k 6 14 5 (by decide)).trans ((seg_off _ b 9 14 5 (by decide)).trans (seg_hit _ a 14 ((seg_off _ d 19 14 5 (by decide)).trans ((seg_off _ cv 31 14 5 (by decide)).trans rfl)) (by decide)))
  have h5 : seg (encode (.vfmulVv cv d a b k)) 9 5 = b := (seg_off _ k 6 9 5 (by decide)).trans (seg_hit _ b 9 ((seg_off _ a 14 9 5 (by decide)).trans ((seg_off _ d 19 9 5 (by decide)).trans ((seg_off _ cv 31 9 5 (by decide)).trans rfl))) (by decide))
  have h6 : seg (encode (.vfmulVv cv d a b k)) 6 3 = k := seg_hit _ k 6 ((seg_off _ b 9 6 3 (by decide)).trans ((seg_off _ a 14 6 3 (by decide)).trans ((seg_off _ d 19 6 3 (by decide)).trans ((seg_off _ cv 31 6 3 (by decide)).trans rfl)))) (by decide)
  exact decode_of (form25 m (by simp [decode25, h1, h2, h3, h4, h5, h6]))
theorem RoundTrip.vfdivVv (cv : BitVec 1) (d : BitVec 5) (a : BitVec 5) (b : BitVec 5) (k : BitVec 3) : RoundTrip.Statement (.vfdivVv cv d a b k) := by
  have m : seg (encode (.vfdivVv cv d a b k)) 24 7 = 37#7 := (seg_off _ k 6 24 7 (by decide)).trans ((seg_off _ b 9 24 7 (by decide)).trans ((seg_off _ a 14 24 7 (by decide)).trans ((seg_off _ d 19 24 7 (by decide)).trans ((seg_off _ cv 31 24 7 (by decide)).trans rfl))))
  have h1 : seg (encode (.vfdivVv cv d a b k)) 0 6 = 3#6 := (seg_off _ k 6 0 6 (by decide)).trans ((seg_off _ b 9 0 6 (by decide)).trans ((seg_off _ a 14 0 6 (by decide)).trans ((seg_off _ d 19 0 6 (by decide)).trans ((seg_off _ cv 31 0 6 (by decide)).trans rfl))))
  have h2 : seg (encode (.vfdivVv cv d a b k)) 31 1 = cv := (seg_off _ k 6 31 1 (by decide)).trans ((seg_off _ b 9 31 1 (by decide)).trans ((seg_off _ a 14 31 1 (by decide)).trans ((seg_off _ d 19 31 1 (by decide)).trans (seg_hit _ cv 31 rfl (by decide)))))
  have h3 : seg (encode (.vfdivVv cv d a b k)) 19 5 = d := (seg_off _ k 6 19 5 (by decide)).trans ((seg_off _ b 9 19 5 (by decide)).trans ((seg_off _ a 14 19 5 (by decide)).trans (seg_hit _ d 19 ((seg_off _ cv 31 19 5 (by decide)).trans rfl) (by decide))))
  have h4 : seg (encode (.vfdivVv cv d a b k)) 14 5 = a := (seg_off _ k 6 14 5 (by decide)).trans ((seg_off _ b 9 14 5 (by decide)).trans (seg_hit _ a 14 ((seg_off _ d 19 14 5 (by decide)).trans ((seg_off _ cv 31 14 5 (by decide)).trans rfl)) (by decide)))
  have h5 : seg (encode (.vfdivVv cv d a b k)) 9 5 = b := (seg_off _ k 6 9 5 (by decide)).trans (seg_hit _ b 9 ((seg_off _ a 14 9 5 (by decide)).trans ((seg_off _ d 19 9 5 (by decide)).trans ((seg_off _ cv 31 9 5 (by decide)).trans rfl))) (by decide))
  have h6 : seg (encode (.vfdivVv cv d a b k)) 6 3 = k := seg_hit _ k 6 ((seg_off _ b 9 6 3 (by decide)).trans ((seg_off _ a 14 6 3 (by decide)).trans ((seg_off _ d 19 6 3 (by decide)).trans ((seg_off _ cv 31 6 3 (by decide)).trans rfl)))) (by decide)
  exact decode_of (form25 m (by simp [decode25, h1, h2, h3, h4, h5, h6]))
theorem RoundTrip.vfsqrtVv (cv : BitVec 1) (d : BitVec 5) (a : BitVec 5) (k : BitVec 3) : RoundTrip.Statement (.vfsqrtVv cv d a k) := by
  have m : seg (encode (.vfsqrtVv cv d a k)) 24 7 = 37#7 := (seg_off _ k 6 24 7 (by decide)).trans ((seg_off _ a 14 24 7 (by decide)).trans ((seg_off _ d 19 24 7 (by decide)).trans ((seg_off _ cv 31 24 7 (by decide)).trans rfl)))
  have h1 : seg (encode (.vfsqrtVv cv d a k)) 0 6 = 4#6 := (seg_off _ k 6 0 6 (by decide)).trans ((seg_off _ a 14 0 6 (by decide)).trans ((seg_off _ d 19 0 6 (by decide)).trans ((seg_off _ cv 31 0 6 (by decide)).trans rfl)))
  have h2 : seg (encode (.vfsqrtVv cv d a k)) 9 5 = 0#5 := (seg_off _ k 6 9 5 (by decide)).trans ((seg_off _ a 14 9 5 (by decide)).trans ((seg_off _ d 19 9 5 (by decide)).trans ((seg_off _ cv 31 9 5 (by decide)).trans rfl)))
  have h3 : seg (encode (.vfsqrtVv cv d a k)) 31 1 = cv := (seg_off _ k 6 31 1 (by decide)).trans ((seg_off _ a 14 31 1 (by decide)).trans ((seg_off _ d 19 31 1 (by decide)).trans (seg_hit _ cv 31 rfl (by decide))))
  have h4 : seg (encode (.vfsqrtVv cv d a k)) 19 5 = d := (seg_off _ k 6 19 5 (by decide)).trans ((seg_off _ a 14 19 5 (by decide)).trans (seg_hit _ d 19 ((seg_off _ cv 31 19 5 (by decide)).trans rfl) (by decide)))
  have h5 : seg (encode (.vfsqrtVv cv d a k)) 14 5 = a := (seg_off _ k 6 14 5 (by decide)).trans (seg_hit _ a 14 ((seg_off _ d 19 14 5 (by decide)).trans ((seg_off _ cv 31 14 5 (by decide)).trans rfl)) (by decide))
  have h6 : seg (encode (.vfsqrtVv cv d a k)) 6 3 = k := seg_hit _ k 6 ((seg_off _ a 14 6 3 (by decide)).trans ((seg_off _ d 19 6 3 (by decide)).trans ((seg_off _ cv 31 6 3 (by decide)).trans rfl))) (by decide)
  exact decode_of (form25 m (by simp [decode25, h1, h2, h3, h4, h5, h6]))
theorem RoundTrip.vfminVv (cv : BitVec 1) (d : BitVec 5) (a : BitVec 5) (b : BitVec 5) (k : BitVec 3) : RoundTrip.Statement (.vfminVv cv d a b k) := by
  have m : seg (encode (.vfminVv cv d a b k)) 24 7 = 37#7 := (seg_off _ k 6 24 7 (by decide)).trans ((seg_off _ b 9 24 7 (by decide)).trans ((seg_off _ a 14 24 7 (by decide)).trans ((seg_off _ d 19 24 7 (by decide)).trans ((seg_off _ cv 31 24 7 (by decide)).trans rfl))))
  have h1 : seg (encode (.vfminVv cv d a b k)) 0 6 = 5#6 := (seg_off _ k 6 0 6 (by decide)).trans ((seg_off _ b 9 0 6 (by decide)).trans ((seg_off _ a 14 0 6 (by decide)).trans ((seg_off _ d 19 0 6 (by decide)).trans ((seg_off _ cv 31 0 6 (by decide)).trans rfl))))
  have h2 : seg (encode (.vfminVv cv d a b k)) 31 1 = cv := (seg_off _ k 6 31 1 (by decide)).trans ((seg_off _ b 9 31 1 (by decide)).trans ((seg_off _ a 14 31 1 (by decide)).trans ((seg_off _ d 19 31 1 (by decide)).trans (seg_hit _ cv 31 rfl (by decide)))))
  have h3 : seg (encode (.vfminVv cv d a b k)) 19 5 = d := (seg_off _ k 6 19 5 (by decide)).trans ((seg_off _ b 9 19 5 (by decide)).trans ((seg_off _ a 14 19 5 (by decide)).trans (seg_hit _ d 19 ((seg_off _ cv 31 19 5 (by decide)).trans rfl) (by decide))))
  have h4 : seg (encode (.vfminVv cv d a b k)) 14 5 = a := (seg_off _ k 6 14 5 (by decide)).trans ((seg_off _ b 9 14 5 (by decide)).trans (seg_hit _ a 14 ((seg_off _ d 19 14 5 (by decide)).trans ((seg_off _ cv 31 14 5 (by decide)).trans rfl)) (by decide)))
  have h5 : seg (encode (.vfminVv cv d a b k)) 9 5 = b := (seg_off _ k 6 9 5 (by decide)).trans (seg_hit _ b 9 ((seg_off _ a 14 9 5 (by decide)).trans ((seg_off _ d 19 9 5 (by decide)).trans ((seg_off _ cv 31 9 5 (by decide)).trans rfl))) (by decide))
  have h6 : seg (encode (.vfminVv cv d a b k)) 6 3 = k := seg_hit _ k 6 ((seg_off _ b 9 6 3 (by decide)).trans ((seg_off _ a 14 6 3 (by decide)).trans ((seg_off _ d 19 6 3 (by decide)).trans ((seg_off _ cv 31 6 3 (by decide)).trans rfl)))) (by decide)
  exact decode_of (form25 m (by simp [decode25, h1, h2, h3, h4, h5, h6]))
theorem RoundTrip.vfmaxVv (cv : BitVec 1) (d : BitVec 5) (a : BitVec 5) (b : BitVec 5) (k : BitVec 3) : RoundTrip.Statement (.vfmaxVv cv d a b k) := by
  have m : seg (encode (.vfmaxVv cv d a b k)) 24 7 = 37#7 := (seg_off _ k 6 24 7 (by decide)).trans ((seg_off _ b 9 24 7 (by decide)).trans ((seg_off _ a 14 24 7 (by decide)).trans ((seg_off _ d 19 24 7 (by decide)).trans ((seg_off _ cv 31 24 7 (by decide)).trans rfl))))
  have h1 : seg (encode (.vfmaxVv cv d a b k)) 0 6 = 6#6 := (seg_off _ k 6 0 6 (by decide)).trans ((seg_off _ b 9 0 6 (by decide)).trans ((seg_off _ a 14 0 6 (by decide)).trans ((seg_off _ d 19 0 6 (by decide)).trans ((seg_off _ cv 31 0 6 (by decide)).trans rfl))))
  have h2 : seg (encode (.vfmaxVv cv d a b k)) 31 1 = cv := (seg_off _ k 6 31 1 (by decide)).trans ((seg_off _ b 9 31 1 (by decide)).trans ((seg_off _ a 14 31 1 (by decide)).trans ((seg_off _ d 19 31 1 (by decide)).trans (seg_hit _ cv 31 rfl (by decide)))))
  have h3 : seg (encode (.vfmaxVv cv d a b k)) 19 5 = d := (seg_off _ k 6 19 5 (by decide)).trans ((seg_off _ b 9 19 5 (by decide)).trans ((seg_off _ a 14 19 5 (by decide)).trans (seg_hit _ d 19 ((seg_off _ cv 31 19 5 (by decide)).trans rfl) (by decide))))
  have h4 : seg (encode (.vfmaxVv cv d a b k)) 14 5 = a := (seg_off _ k 6 14 5 (by decide)).trans ((seg_off _ b 9 14 5 (by decide)).trans (seg_hit _ a 14 ((seg_off _ d 19 14 5 (by decide)).trans ((seg_off _ cv 31 14 5 (by decide)).trans rfl)) (by decide)))
  have h5 : seg (encode (.vfmaxVv cv d a b k)) 9 5 = b := (seg_off _ k 6 9 5 (by decide)).trans (seg_hit _ b 9 ((seg_off _ a 14 9 5 (by decide)).trans ((seg_off _ d 19 9 5 (by decide)).trans ((seg_off _ cv 31 9 5 (by decide)).trans rfl))) (by decide))
  have h6 : seg (encode (.vfmaxVv cv d a b k)) 6 3 = k := seg_hit _ k 6 ((seg_off _ b 9 6 3 (by decide)).trans ((seg_off _ a 14 6 3 (by decide)).trans ((seg_off _ d 19 6 3 (by decide)).trans ((seg_off _ cv 31 6 3 (by decide)).trans rfl)))) (by decide)
  exact decode_of (form25 m (by simp [decode25, h1, h2, h3, h4, h5, h6]))
theorem RoundTrip.vfsgnjVv (cv : BitVec 1) (d : BitVec 5) (a : BitVec 5) (b : BitVec 5) (k : BitVec 3) : RoundTrip.Statement (.vfsgnjVv cv d a b k) := by
  have m : seg (encode (.vfsgnjVv cv d a b k)) 24 7 = 37#7 := (seg_off _ k 6 24 7 (by decide)).trans ((seg_off _ b 9 24 7 (by decide)).trans ((seg_off _ a 14 24 7 (by decide)).trans ((seg_off _ d 19 24 7 (by decide)).trans ((seg_off _ cv 31 24 7 (by decide)).trans rfl))))
  have h1 : seg (encode (.vfsgnjVv cv d a b k)) 0 6 = 7#6 := (seg_off _ k 6 0 6 (by decide)).trans ((seg_off _ b 9 0 6 (by decide)).trans ((seg_off _ a 14 0 6 (by decide)).trans ((seg_off _ d 19 0 6 (by decide)).trans ((seg_off _ cv 31 0 6 (by decide)).trans rfl))))
  have h2 : seg (encode (.vfsgnjVv cv d a b k)) 31 1 = cv := (seg_off _ k 6 31 1 (by decide)).trans ((seg_off _ b 9 31 1 (by decide)).trans ((seg_off _ a 14 31 1 (by decide)).trans ((seg_off _ d 19 31 1 (by decide)).trans (seg_hit _ cv 31 rfl (by decide)))))
  have h3 : seg (encode (.vfsgnjVv cv d a b k)) 19 5 = d := (seg_off _ k 6 19 5 (by decide)).trans ((seg_off _ b 9 19 5 (by decide)).trans ((seg_off _ a 14 19 5 (by decide)).trans (seg_hit _ d 19 ((seg_off _ cv 31 19 5 (by decide)).trans rfl) (by decide))))
  have h4 : seg (encode (.vfsgnjVv cv d a b k)) 14 5 = a := (seg_off _ k 6 14 5 (by decide)).trans ((seg_off _ b 9 14 5 (by decide)).trans (seg_hit _ a 14 ((seg_off _ d 19 14 5 (by decide)).trans ((seg_off _ cv 31 14 5 (by decide)).trans rfl)) (by decide)))
  have h5 : seg (encode (.vfsgnjVv cv d a b k)) 9 5 = b := (seg_off _ k 6 9 5 (by decide)).trans (seg_hit _ b 9 ((seg_off _ a 14 9 5 (by decide)).trans ((seg_off _ d 19 9 5 (by decide)).trans ((seg_off _ cv 31 9 5 (by decide)).trans rfl))) (by decide))
  have h6 : seg (encode (.vfsgnjVv cv d a b k)) 6 3 = k := seg_hit _ k 6 ((seg_off _ b 9 6 3 (by decide)).trans ((seg_off _ a 14 6 3 (by decide)).trans ((seg_off _ d 19 6 3 (by decide)).trans ((seg_off _ cv 31 6 3 (by decide)).trans rfl)))) (by decide)
  exact decode_of (form25 m (by simp [decode25, h1, h2, h3, h4, h5, h6]))
theorem RoundTrip.vfsgnjnVv (cv : BitVec 1) (d : BitVec 5) (a : BitVec 5) (b : BitVec 5) (k : BitVec 3) : RoundTrip.Statement (.vfsgnjnVv cv d a b k) := by
  have m : seg (encode (.vfsgnjnVv cv d a b k)) 24 7 = 37#7 := (seg_off _ k 6 24 7 (by decide)).trans ((seg_off _ b 9 24 7 (by decide)).trans ((seg_off _ a 14 24 7 (by decide)).trans ((seg_off _ d 19 24 7 (by decide)).trans ((seg_off _ cv 31 24 7 (by decide)).trans rfl))))
  have h1 : seg (encode (.vfsgnjnVv cv d a b k)) 0 6 = 8#6 := (seg_off _ k 6 0 6 (by decide)).trans ((seg_off _ b 9 0 6 (by decide)).trans ((seg_off _ a 14 0 6 (by decide)).trans ((seg_off _ d 19 0 6 (by decide)).trans ((seg_off _ cv 31 0 6 (by decide)).trans rfl))))
  have h2 : seg (encode (.vfsgnjnVv cv d a b k)) 31 1 = cv := (seg_off _ k 6 31 1 (by decide)).trans ((seg_off _ b 9 31 1 (by decide)).trans ((seg_off _ a 14 31 1 (by decide)).trans ((seg_off _ d 19 31 1 (by decide)).trans (seg_hit _ cv 31 rfl (by decide)))))
  have h3 : seg (encode (.vfsgnjnVv cv d a b k)) 19 5 = d := (seg_off _ k 6 19 5 (by decide)).trans ((seg_off _ b 9 19 5 (by decide)).trans ((seg_off _ a 14 19 5 (by decide)).trans (seg_hit _ d 19 ((seg_off _ cv 31 19 5 (by decide)).trans rfl) (by decide))))
  have h4 : seg (encode (.vfsgnjnVv cv d a b k)) 14 5 = a := (seg_off _ k 6 14 5 (by decide)).trans ((seg_off _ b 9 14 5 (by decide)).trans (seg_hit _ a 14 ((seg_off _ d 19 14 5 (by decide)).trans ((seg_off _ cv 31 14 5 (by decide)).trans rfl)) (by decide)))
  have h5 : seg (encode (.vfsgnjnVv cv d a b k)) 9 5 = b := (seg_off _ k 6 9 5 (by decide)).trans (seg_hit _ b 9 ((seg_off _ a 14 9 5 (by decide)).trans ((seg_off _ d 19 9 5 (by decide)).trans ((seg_off _ cv 31 9 5 (by decide)).trans rfl))) (by decide))
  have h6 : seg (encode (.vfsgnjnVv cv d a b k)) 6 3 = k := seg_hit _ k 6 ((seg_off _ b 9 6 3 (by decide)).trans ((seg_off _ a 14 6 3 (by decide)).trans ((seg_off _ d 19 6 3 (by decide)).trans ((seg_off _ cv 31 6 3 (by decide)).trans rfl)))) (by decide)
  exact decode_of (form25 m (by simp [decode25, h1, h2, h3, h4, h5, h6]))
theorem RoundTrip.vfsgnjxVv (cv : BitVec 1) (d : BitVec 5) (a : BitVec 5) (b : BitVec 5) (k : BitVec 3) : RoundTrip.Statement (.vfsgnjxVv cv d a b k) := by
  have m : seg (encode (.vfsgnjxVv cv d a b k)) 24 7 = 37#7 := (seg_off _ k 6 24 7 (by decide)).trans ((seg_off _ b 9 24 7 (by decide)).trans ((seg_off _ a 14 24 7 (by decide)).trans ((seg_off _ d 19 24 7 (by decide)).trans ((seg_off _ cv 31 24 7 (by decide)).trans rfl))))
  have h1 : seg (encode (.vfsgnjxVv cv d a b k)) 0 6 = 9#6 := (seg_off _ k 6 0 6 (by decide)).trans ((seg_off _ b 9 0 6 (by decide)).trans ((seg_off _ a 14 0 6 (by decide)).trans ((seg_off _ d 19 0 6 (by decide)).trans ((seg_off _ cv 31 0 6 (by decide)).trans rfl))))
  have h2 : seg (encode (.vfsgnjxVv cv d a b k)) 31 1 = cv := (seg_off _ k 6 31 1 (by decide)).trans ((seg_off _ b 9 31 1 (by decide)).trans ((seg_off _ a 14 31 1 (by decide)).trans ((seg_off _ d 19 31 1 (by decide)).trans (seg_hit _ cv 31 rfl (by decide)))))
  have h3 : seg (encode (.vfsgnjxVv cv d a b k)) 19 5 = d := (seg_off _ k 6 19 5 (by decide)).trans ((seg_off _ b 9 19 5 (by decide)).trans ((seg_off _ a 14 19 5 (by decide)).trans (seg_hit _ d 19 ((seg_off _ cv 31 19 5 (by decide)).trans rfl) (by decide))))
  have h4 : seg (encode (.vfsgnjxVv cv d a b k)) 14 5 = a := (seg_off _ k 6 14 5 (by decide)).trans ((seg_off _ b 9 14 5 (by decide)).trans (seg_hit _ a 14 ((seg_off _ d 19 14 5 (by decide)).trans ((seg_off _ cv 31 14 5 (by decide)).trans rfl)) (by decide)))
  have h5 : seg (encode (.vfsgnjxVv cv d a b k)) 9 5 = b := (seg_off _ k 6 9 5 (by decide)).trans (seg_hit _ b 9 ((seg_off _ a 14 9 5 (by decide)).trans ((seg_off _ d 19 9 5 (by decide)).trans ((seg_off _ cv 31 9 5 (by decide)).trans rfl))) (by decide))
  have h6 : seg (encode (.vfsgnjxVv cv d a b k)) 6 3 = k := seg_hit _ k 6 ((seg_off _ b 9 6 3 (by decide)).trans ((seg_off _ a 14 6 3 (by decide)).trans ((seg_off _ d 19 6 3 (by decide)).trans ((seg_off _ cv 31 6 3 (by decide)).trans rfl)))) (by decide)
  exact decode_of (form25 m (by simp [decode25, h1, h2, h3, h4, h5, h6]))
theorem RoundTrip.vfclassVv (cv : BitVec 1) (d : BitVec 5) (a : BitVec 5) (k : BitVec 3) : RoundTrip.Statement (.vfclassVv cv d a k) := by
  have m : seg (encode (.vfclassVv cv d a k)) 24 7 = 37#7 := (seg_off _ k 6 24 7 (by decide)).trans ((seg_off _ a 14 24 7 (by decide)).trans ((seg_off _ d 19 24 7 (by decide)).trans ((seg_off _ cv 31 24 7 (by decide)).trans rfl)))
  have h1 : seg (encode (.vfclassVv cv d a k)) 0 6 = 10#6 := (seg_off _ k 6 0 6 (by decide)).trans ((seg_off _ a 14 0 6 (by decide)).trans ((seg_off _ d 19 0 6 (by decide)).trans ((seg_off _ cv 31 0 6 (by decide)).trans rfl)))
  have h2 : seg (encode (.vfclassVv cv d a k)) 9 5 = 0#5 := (seg_off _ k 6 9 5 (by decide)).trans ((seg_off _ a 14 9 5 (by decide)).trans ((seg_off _ d 19 9 5 (by decide)).trans ((seg_off _ cv 31 9 5 (by decide)).trans rfl)))
  have h3 : seg (encode (.vfclassVv cv d a k)) 31 1 = cv := (seg_off _ k 6 31 1 (by decide)).trans ((seg_off _ a 14 31 1 (by decide)).trans ((seg_off _ d 19 31 1 (by decide)).trans (seg_hit _ cv 31 rfl (by decide))))
  have h4 : seg (encode (.vfclassVv cv d a k)) 19 5 = d := (seg_off _ k 6 19 5 (by decide)).trans ((seg_off _ a 14 19 5 (by decide)).trans (seg_hit _ d 19 ((seg_off _ cv 31 19 5 (by decide)).trans rfl) (by decide)))
  have h5 : seg (encode (.vfclassVv cv d a k)) 14 5 = a := (seg_off _ k 6 14 5 (by decide)).trans (seg_hit _ a 14 ((seg_off _ d 19 14 5 (by decide)).trans ((seg_off _ cv 31 14 5 (by decide)).trans rfl)) (by decide))
  have h6 : seg (encode (.vfclassVv cv d a k)) 6 3 = k := seg_hit _ k 6 ((seg_off _ a 14 6 3 (by decide)).trans ((seg_off _ d 19 6 3 (by decide)).trans ((seg_off _ cv 31 6 3 (by decide)).trans rfl))) (by decide)
  exact decode_of (form25 m (by simp [decode25, h1, h2, h3, h4, h5, h6]))
theorem RoundTrip.vfrsubVv (cv : BitVec 1) (d : BitVec 5) (a : BitVec 5) (b : BitVec 5) (k : BitVec 3) : RoundTrip.Statement (.vfrsubVv cv d a b k) := by
  have m : seg (encode (.vfrsubVv cv d a b k)) 24 7 = 37#7 := (seg_off _ k 6 24 7 (by decide)).trans ((seg_off _ b 9 24 7 (by decide)).trans ((seg_off _ a 14 24 7 (by decide)).trans ((seg_off _ d 19 24 7 (by decide)).trans ((seg_off _ cv 31 24 7 (by decide)).trans rfl))))
  have h1 : seg (encode (.vfrsubVv cv d a b k)) 0 6 = 11#6 := (seg_off _ k 6 0 6 (by decide)).trans ((seg_off _ b 9 0 6 (by decide)).trans ((seg_off _ a 14 0 6 (by decide)).trans ((seg_off _ d 19 0 6 (by decide)).trans ((seg_off _ cv 31 0 6 (by decide)).trans rfl))))
  have h2 : seg (encode (.vfrsubVv cv d a b k)) 31 1 = cv := (seg_off _ k 6 31 1 (by decide)).trans ((seg_off _ b 9 31 1 (by decide)).trans ((seg_off _ a 14 31 1 (by decide)).trans ((seg_off _ d 19 31 1 (by decide)).trans (seg_hit _ cv 31 rfl (by decide)))))
  have h3 : seg (encode (.vfrsubVv cv d a b k)) 19 5 = d := (seg_off _ k 6 19 5 (by decide)).trans ((seg_off _ b 9 19 5 (by decide)).trans ((seg_off _ a 14 19 5 (by decide)).trans (seg_hit _ d 19 ((seg_off _ cv 31 19 5 (by decide)).trans rfl) (by decide))))
  have h4 : seg (encode (.vfrsubVv cv d a b k)) 14 5 = a := (seg_off _ k 6 14 5 (by decide)).trans ((seg_off _ b 9 14 5 (by decide)).trans (seg_hit _ a 14 ((seg_off _ d 19 14 5 (by decide)).trans ((seg_off _ cv 31 14 5 (by decide)).trans rfl)) (by decide)))
  have h5 : seg (encode (.vfrsubVv cv d a b k)) 9 5 = b := (seg_off _ k 6 9 5 (by decide)).trans (seg_hit _ b 9 ((seg_off _ a 14 9 5 (by decide)).trans ((seg_off _ d 19 9 5 (by decide)).trans ((seg_off _ cv 31 9 5 (by decide)).trans rfl))) (by decide))
  have h6 : seg (encode (.vfrsubVv cv d a b k)) 6 3 = k := seg_hit _ k 6 ((seg_off _ b 9 6 3 (by decide)).trans ((seg_off _ a 14 6 3 (by decide)).trans ((seg_off _ d 19 6 3 (by decide)).trans ((seg_off _ cv 31 6 3 (by decide)).trans rfl)))) (by decide)
  exact decode_of (form25 m (by simp [decode25, h1, h2, h3, h4, h5, h6]))
theorem RoundTrip.vfrdivVv (cv : BitVec 1) (d : BitVec 5) (a : BitVec 5) (b : BitVec 5) (k : BitVec 3) : RoundTrip.Statement (.vfrdivVv cv d a b k) := by
  have m : seg (encode (.vfrdivVv cv d a b k)) 24 7 = 37#7 := (seg_off _ k 6 24 7 (by decide)).trans ((seg_off _ b 9 24 7 (by decide)).trans ((seg_off _ a 14 24 7 (by decide)).trans ((seg_off _ d 19 24 7 (by decide)).trans ((seg_off _ cv 31 24 7 (by decide)).trans rfl))))
  have h1 : seg (encode (.vfrdivVv cv d a b k)) 0 6 = 12#6 := (seg_off _ k 6 0 6 (by decide)).trans ((seg_off _ b 9 0 6 (by decide)).trans ((seg_off _ a 14 0 6 (by decide)).trans ((seg_off _ d 19 0 6 (by decide)).trans ((seg_off _ cv 31 0 6 (by decide)).trans rfl))))
  have h2 : seg (encode (.vfrdivVv cv d a b k)) 31 1 = cv := (seg_off _ k 6 31 1 (by decide)).trans ((seg_off _ b 9 31 1 (by decide)).trans ((seg_off _ a 14 31 1 (by decide)).trans ((seg_off _ d 19 31 1 (by decide)).trans (seg_hit _ cv 31 rfl (by decide)))))
  have h3 : seg (encode (.vfrdivVv cv d a b k)) 19 5 = d := (seg_off _ k 6 19 5 (by decide)).trans ((seg_off _ b 9 19 5 (by decide)).trans ((seg_off _ a 14 19 5 (by decide)).trans (seg_hit _ d 19 ((seg_off _ cv 31 19 5 (by decide)).trans rfl) (by decide))))
  have h4 : seg (encode (.vfrdivVv cv d a b k)) 14 5 = a := (seg_off _ k 6 14 5 (by decide)).trans ((seg_off _ b 9 14 5 (by decide)).trans (seg_hit _ a 14 ((seg_off _ d 19 14 5 (by decide)).trans ((seg_off _ cv 31 14 5 (by decide)).trans rfl)) (by decide)))
  have h5 : seg (encode (.vfrdivVv cv d a b k)) 9 5 = b := (seg_off _ k 6 9 5 (by decide)).trans (seg_hit _ b 9 ((seg_off _ a 14 9 5 (by decide)).trans ((seg_off _ d 19 9 5 (by decide)).trans ((seg_off _ cv 31 9 5 (by decide)).trans rfl))) (by decide))
  have h6 : seg (encode (.vfrdivVv cv d a b k)) 6 3 = k := seg_hit _ k 6 ((seg_off _ b 9 6 3 (by decide)).trans ((seg_off _ a 14 6 3 (by decide)).trans ((seg_off _ d 19 6 3 (by decide)).trans ((seg_off _ cv 31 6 3 (by decide)).trans rfl)))) (by decide)
  exact decode_of (form25 m (by simp [decode25, h1, h2, h3, h4, h5, h6]))
theorem RoundTrip.vfaddVx (cv : BitVec 1) (d : BitVec 5) (a : BitVec 5) (x : BitVec 6) (k : BitVec 3) : RoundTrip.Statement (.vfaddVx cv d a x k) := by
  have m : seg (encode (.vfaddVx cv d a x k)) 24 7 = 38#7 := (seg_off _ k 5 24 7 (by decide)).trans ((seg_off _ x 8 24 7 (by decide)).trans ((seg_off _ a 14 24 7 (by decide)).trans ((seg_off _ d 19 24 7 (by decide)).trans ((seg_off _ cv 31 24 7 (by decide)).trans rfl))))
  have h1 : seg (encode (.vfaddVx cv d a x k)) 0 5 = 0#5 := (seg_off _ k 5 0 5 (by decide)).trans ((seg_off _ x 8 0 5 (by decide)).trans ((seg_off _ a 14 0 5 (by decide)).trans ((seg_off _ d 19 0 5 (by decide)).trans ((seg_off _ cv 31 0 5 (by decide)).trans rfl))))
  have h2 : seg (encode (.vfaddVx cv d a x k)) 31 1 = cv := (seg_off _ k 5 31 1 (by decide)).trans ((seg_off _ x 8 31 1 (by decide)).trans ((seg_off _ a 14 31 1 (by decide)).trans ((seg_off _ d 19 31 1 (by decide)).trans (seg_hit _ cv 31 rfl (by decide)))))
  have h3 : seg (encode (.vfaddVx cv d a x k)) 19 5 = d := (seg_off _ k 5 19 5 (by decide)).trans ((seg_off _ x 8 19 5 (by decide)).trans ((seg_off _ a 14 19 5 (by decide)).trans (seg_hit _ d 19 ((seg_off _ cv 31 19 5 (by decide)).trans rfl) (by decide))))
  have h4 : seg (encode (.vfaddVx cv d a x k)) 14 5 = a := (seg_off _ k 5 14 5 (by decide)).trans ((seg_off _ x 8 14 5 (by decide)).trans (seg_hit _ a 14 ((seg_off _ d 19 14 5 (by decide)).trans ((seg_off _ cv 31 14 5 (by decide)).trans rfl)) (by decide)))
  have h5 : seg (encode (.vfaddVx cv d a x k)) 8 6 = x := (seg_off _ k 5 8 6 (by decide)).trans (seg_hit _ x 8 ((seg_off _ a 14 8 6 (by decide)).trans ((seg_off _ d 19 8 6 (by decide)).trans ((seg_off _ cv 31 8 6 (by decide)).trans rfl))) (by decide))
  have h6 : seg (encode (.vfaddVx cv d a x k)) 5 3 = k := seg_hit _ k 5 ((seg_off _ x 8 5 3 (by decide)).trans ((seg_off _ a 14 5 3 (by decide)).trans ((seg_off _ d 19 5 3 (by decide)).trans ((seg_off _ cv 31 5 3 (by decide)).trans rfl)))) (by decide)
  exact decode_of (form26 m (by simp [decode26, h1, h2, h3, h4, h5, h6]))
theorem RoundTrip.vfsubVx (cv : BitVec 1) (d : BitVec 5) (a : BitVec 5) (x : BitVec 6) (k : BitVec 3) : RoundTrip.Statement (.vfsubVx cv d a x k) := by
  have m : seg (encode (.vfsubVx cv d a x k)) 24 7 = 38#7 := (seg_off _ k 5 24 7 (by decide)).trans ((seg_off _ x 8 24 7 (by decide)).trans ((seg_off _ a 14 24 7 (by decide)).trans ((seg_off _ d 19 24 7 (by decide)).trans ((seg_off _ cv 31 24 7 (by decide)).trans rfl))))
  have h1 : seg (encode (.vfsubVx cv d a x k)) 0 5 = 1#5 := (seg_off _ k 5 0 5 (by decide)).trans ((seg_off _ x 8 0 5 (by decide)).trans ((seg_off _ a 14 0 5 (by decide)).trans ((seg_off _ d 19 0 5 (by decide)).trans ((seg_off _ cv 31 0 5 (by decide)).trans rfl))))
  have h2 : seg (encode (.vfsubVx cv d a x k)) 31 1 = cv := (seg_off _ k 5 31 1 (by decide)).trans ((seg_off _ x 8 31 1 (by decide)).trans ((seg_off _ a 14 31 1 (by decide)).trans ((seg_off _ d 19 31 1 (by decide)).trans (seg_hit _ cv 31 rfl (by decide)))))
  have h3 : seg (encode (.vfsubVx cv d a x k)) 19 5 = d := (seg_off _ k 5 19 5 (by decide)).trans ((seg_off _ x 8 19 5 (by decide)).trans ((seg_off _ a 14 19 5 (by decide)).trans (seg_hit _ d 19 ((seg_off _ cv 31 19 5 (by decide)).trans rfl) (by decide))))
  have h4 : seg (encode (.vfsubVx cv d a x k)) 14 5 = a := (seg_off _ k 5 14 5 (by decide)).trans ((seg_off _ x 8 14 5 (by decide)).trans (seg_hit _ a 14 ((seg_off _ d 19 14 5 (by decide)).trans ((seg_off _ cv 31 14 5 (by decide)).trans rfl)) (by decide)))
  have h5 : seg (encode (.vfsubVx cv d a x k)) 8 6 = x := (seg_off _ k 5 8 6 (by decide)).trans (seg_hit _ x 8 ((seg_off _ a 14 8 6 (by decide)).trans ((seg_off _ d 19 8 6 (by decide)).trans ((seg_off _ cv 31 8 6 (by decide)).trans rfl))) (by decide))
  have h6 : seg (encode (.vfsubVx cv d a x k)) 5 3 = k := seg_hit _ k 5 ((seg_off _ x 8 5 3 (by decide)).trans ((seg_off _ a 14 5 3 (by decide)).trans ((seg_off _ d 19 5 3 (by decide)).trans ((seg_off _ cv 31 5 3 (by decide)).trans rfl)))) (by decide)
  exact decode_of (form26 m (by simp [decode26, h1, h2, h3, h4, h5, h6]))
theorem RoundTrip.vfmulVx (cv : BitVec 1) (d : BitVec 5) (a : BitVec 5) (x : BitVec 6) (k : BitVec 3) : RoundTrip.Statement (.vfmulVx cv d a x k) := by
  have m : seg (encode (.vfmulVx cv d a x k)) 24 7 = 38#7 := (seg_off _ k 5 24 7 (by decide)).trans ((seg_off _ x 8 24 7 (by decide)).trans ((seg_off _ a 14 24 7 (by decide)).trans ((seg_off _ d 19 24 7 (by decide)).trans ((seg_off _ cv 31 24 7 (by decide)).trans rfl))))
  have h1 : seg (encode (.vfmulVx cv d a x k)) 0 5 = 2#5 := (seg_off _ k 5 0 5 (by decide)).trans ((seg_off _ x 8 0 5 (by decide)).trans ((seg_off _ a 14 0 5 (by decide)).trans ((seg_off _ d 19 0 5 (by decide)).trans ((seg_off _ cv 31 0 5 (by decide)).trans rfl))))
  have h2 : seg (encode (.vfmulVx cv d a x k)) 31 1 = cv := (seg_off _ k 5 31 1 (by decide)).trans ((seg_off _ x 8 31 1 (by decide)).trans ((seg_off _ a 14 31 1 (by decide)).trans ((seg_off _ d 19 31 1 (by decide)).trans (seg_hit _ cv 31 rfl (by decide)))))
  have h3 : seg (encode (.vfmulVx cv d a x k)) 19 5 = d := (seg_off _ k 5 19 5 (by decide)).trans ((seg_off _ x 8 19 5 (by decide)).trans ((seg_off _ a 14 19 5 (by decide)).trans (seg_hit _ d 19 ((seg_off _ cv 31 19 5 (by decide)).trans rfl) (by decide))))
  have h4 : seg (encode (.vfmulVx cv d a x k)) 14 5 = a := (seg_off _ k 5 14 5 (by decide)).trans ((seg_off _ x 8 14 5 (by decide)).trans (seg_hit _ a 14 ((seg_off _ d 19 14 5 (by decide)).trans ((seg_off _ cv 31 14 5 (by decide)).trans rfl)) (by decide)))
  have h5 : seg (encode (.vfmulVx cv d a x k)) 8 6 = x := (seg_off _ k 5 8 6 (by decide)).trans (seg_hit _ x 8 ((seg_off _ a 14 8 6 (by decide)).trans ((seg_off _ d 19 8 6 (by decide)).trans ((seg_off _ cv 31 8 6 (by decide)).trans rfl))) (by decide))
  have h6 : seg (encode (.vfmulVx cv d a x k)) 5 3 = k := seg_hit _ k 5 ((seg_off _ x 8 5 3 (by decide)).trans ((seg_off _ a 14 5 3 (by decide)).trans ((seg_off _ d 19 5 3 (by decide)).trans ((seg_off _ cv 31 5 3 (by decide)).trans rfl)))) (by decide)
  exact decode_of (form26 m (by simp [decode26, h1, h2, h3, h4, h5, h6]))
theorem RoundTrip.vfdivVx (cv : BitVec 1) (d : BitVec 5) (a : BitVec 5) (x : BitVec 6) (k : BitVec 3) : RoundTrip.Statement (.vfdivVx cv d a x k) := by
  have m : seg (encode (.vfdivVx cv d a x k)) 24 7 = 38#7 := (seg_off _ k 5 24 7 (by decide)).trans ((seg_off _ x 8 24 7 (by decide)).trans ((seg_off _ a 14 24 7 (by decide)).trans ((seg_off _ d 19 24 7 (by decide)).trans ((seg_off _ cv 31 24 7 (by decide)).trans rfl))))
  have h1 : seg (encode (.vfdivVx cv d a x k)) 0 5 = 3#5 := (seg_off _ k 5 0 5 (by decide)).trans ((seg_off _ x 8 0 5 (by decide)).trans ((seg_off _ a 14 0 5 (by decide)).trans ((seg_off _ d 19 0 5 (by decide)).trans ((seg_off _ cv 31 0 5 (by decide)).trans rfl))))
  have h2 : seg (encode (.vfdivVx cv d a x k)) 31 1 = cv := (seg_off _ k 5 31 1 (by decide)).trans ((seg_off _ x 8 31 1 (by decide)).trans ((seg_off _ a 14 31 1 (by decide)).trans ((seg_off _ d 19 31 1 (by decide)).trans (seg_hit _ cv 31 rfl (by decide)))))
  have h3 : seg (encode (.vfdivVx cv d a x k)) 19 5 = d := (seg_off _ k 5 19 5 (by decide)).trans ((seg_off _ x 8 19 5 (by decide)).trans ((seg_off _ a 14 19 5 (by decide)).trans (seg_hit _ d 19 ((seg_off _ cv 31 19 5 (by decide)).trans rfl) (by decide))))
  have h4 : seg (encode (.vfdivVx cv d a x k)) 14 5 = a := (seg_off _ k 5 14 5 (by decide)).trans ((seg_off _ x 8 14 5 (by decide)).trans (seg_hit _ a 14 ((seg_off _ d 19 14 5 (by decide)).trans ((seg_off _ cv 31 14 5 (by decide)).trans rfl)) (by decide)))
  have h5 : seg (encode (.vfdivVx cv d a x k)) 8 6 = x := (seg_off _ k 5 8 6 (by decide)).trans (seg_hit _ x 8 ((seg_off _ a 14 8 6 (by decide)).trans ((seg_off _ d 19 8 6 (by decide)).trans ((seg_off _ cv 31 8 6 (by decide)).trans rfl))) (by decide))
  have h6 : seg (encode (.vfdivVx cv d a x k)) 5 3 = k := seg_hit _ k 5 ((seg_off _ x 8 5 3 (by decide)).trans ((seg_off _ a 14 5 3 (by decide)).trans ((seg_off _ d 19 5 3 (by decide)).trans ((seg_off _ cv 31 5 3 (by decide)).trans rfl)))) (by decide)
  exact decode_of (form26 m (by simp [decode26, h1, h2, h3, h4, h5, h6]))
theorem RoundTrip.vfsqrtVx (cv : BitVec 1) (d : BitVec 5) (a : BitVec 5) (k : BitVec 3) : RoundTrip.Statement (.vfsqrtVx cv d a k) := by
  have m : seg (encode (.vfsqrtVx cv d a k)) 24 7 = 38#7 := (seg_off _ k 5 24 7 (by decide)).trans ((seg_off _ a 14 24 7 (by decide)).trans ((seg_off _ d 19 24 7 (by decide)).trans ((seg_off _ cv 31 24 7 (by decide)).trans rfl)))
  have h1 : seg (encode (.vfsqrtVx cv d a k)) 0 5 = 4#5 := (seg_off _ k 5 0 5 (by decide)).trans ((seg_off _ a 14 0 5 (by decide)).trans ((seg_off _ d 19 0 5 (by decide)).trans ((seg_off _ cv 31 0 5 (by decide)).trans rfl)))
  have h2 : seg (encode (.vfsqrtVx cv d a k)) 8 6 = 0#6 := (seg_off _ k 5 8 6 (by decide)).trans ((seg_off _ a 14 8 6 (by decide)).trans ((seg_off _ d 19 8 6 (by decide)).trans ((seg_off _ cv 31 8 6 (by decide)).trans rfl)))
  have h3 : seg (encode (.vfsqrtVx cv d a k)) 31 1 = cv := (seg_off _ k 5 31 1 (by decide)).trans ((seg_off _ a 14 31 1 (by decide)).trans ((seg_off _ d 19 31 1 (by decide)).trans (seg_hit _ cv 31 rfl (by decide))))
  have h4 : seg (encode (.vfsqrtVx cv d a k)) 19 5 = d := (seg_off _ k 5 19 5 (by decide)).trans ((seg_off _ a 14 19 5 (by decide)).trans (seg_hit _ d 19 ((seg_off _ cv 31 19 5 (by decide)).trans rfl) (by decide)))
  have h5 : seg (encode (.vfsqrtVx cv d a k)) 14 5 = a := (seg_off _ k 5 14 5 (by decide)).trans (seg_hit _ a 14 ((seg_off _ d 19 14 5 (by decide)).trans ((seg_off _ cv 31 14 5 (by decide)).trans rfl)) (by decide))
  have h6 : seg (encode (.vfsqrtVx cv d a k)) 5 3 = k := seg_hit _ k 5 ((seg_off _ a 14 5 3 (by decide)).trans ((seg_off _ d 19 5 3 (by decide)).trans ((seg_off _ cv 31 5 3 (by decide)).trans rfl))) (by decide)
  exact decode_of (form26 m (by simp [decode26, h1, h2, h3, h4, h5, h6]))
theorem RoundTrip.vfminVx (cv : BitVec 1) (d : BitVec 5) (a : BitVec 5) (x : BitVec 6) (k : BitVec 3) : RoundTrip.Statement (.vfminVx cv d a x k) := by
  have m : seg (encode (.vfminVx cv d a x k)) 24 7 = 38#7 := (seg_off _ k 5 24 7 (by decide)).trans ((seg_off _ x 8 24 7 (by decide)).trans ((seg_off _ a 14 24 7 (by decide)).trans ((seg_off _ d 19 24 7 (by decide)).trans ((seg_off _ cv 31 24 7 (by decide)).trans rfl))))
  have h1 : seg (encode (.vfminVx cv d a x k)) 0 5 = 5#5 := (seg_off _ k 5 0 5 (by decide)).trans ((seg_off _ x 8 0 5 (by decide)).trans ((seg_off _ a 14 0 5 (by decide)).trans ((seg_off _ d 19 0 5 (by decide)).trans ((seg_off _ cv 31 0 5 (by decide)).trans rfl))))
  have h2 : seg (encode (.vfminVx cv d a x k)) 31 1 = cv := (seg_off _ k 5 31 1 (by decide)).trans ((seg_off _ x 8 31 1 (by decide)).trans ((seg_off _ a 14 31 1 (by decide)).trans ((seg_off _ d 19 31 1 (by decide)).trans (seg_hit _ cv 31 rfl (by decide)))))
  have h3 : seg (encode (.vfminVx cv d a x k)) 19 5 = d := (seg_off _ k 5 19 5 (by decide)).trans ((seg_off _ x 8 19 5 (by decide)).trans ((seg_off _ a 14 19 5 (by decide)).trans (seg_hit _ d 19 ((seg_off _ cv 31 19 5 (by decide)).trans rfl) (by decide))))
  have h4 : seg (encode (.vfminVx cv d a x k)) 14 5 = a := (seg_off _ k 5 14 5 (by decide)).trans ((seg_off _ x 8 14 5 (by decide)).trans (seg_hit _ a 14 ((seg_off _ d 19 14 5 (by decide)).trans ((seg_off _ cv 31 14 5 (by decide)).trans rfl)) (by decide)))
  have h5 : seg (encode (.vfminVx cv d a x k)) 8 6 = x := (seg_off _ k 5 8 6 (by decide)).trans (seg_hit _ x 8 ((seg_off _ a 14 8 6 (by decide)).trans ((seg_off _ d 19 8 6 (by decide)).trans ((seg_off _ cv 31 8 6 (by decide)).trans rfl))) (by decide))
  have h6 : seg (encode (.vfminVx cv d a x k)) 5 3 = k := seg_hit _ k 5 ((seg_off _ x 8 5 3 (by decide)).trans ((seg_off _ a 14 5 3 (by decide)).trans ((seg_off _ d 19 5 3 (by decide)).trans ((seg_off _ cv 31 5 3 (by decide)).trans rfl)))) (by decide)
  exact decode_of (form26 m (by simp [decode26, h1, h2, h3, h4, h5, h6]))
theorem RoundTrip.vfmaxVx (cv : BitVec 1) (d : BitVec 5) (a : BitVec 5) (x : BitVec 6) (k : BitVec 3) : RoundTrip.Statement (.vfmaxVx cv d a x k) := by
  have m : seg (encode (.vfmaxVx cv d a x k)) 24 7 = 38#7 := (seg_off _ k 5 24 7 (by decide)).trans ((seg_off _ x 8 24 7 (by decide)).trans ((seg_off _ a 14 24 7 (by decide)).trans ((seg_off _ d 19 24 7 (by decide)).trans ((seg_off _ cv 31 24 7 (by decide)).trans rfl))))
  have h1 : seg (encode (.vfmaxVx cv d a x k)) 0 5 = 6#5 := (seg_off _ k 5 0 5 (by decide)).trans ((seg_off _ x 8 0 5 (by decide)).trans ((seg_off _ a 14 0 5 (by decide)).trans ((seg_off _ d 19 0 5 (by decide)).trans ((seg_off _ cv 31 0 5 (by decide)).trans rfl))))
  have h2 : seg (encode (.vfmaxVx cv d a x k)) 31 1 = cv := (seg_off _ k 5 31 1 (by decide)).trans ((seg_off _ x 8 31 1 (by decide)).trans ((seg_off _ a 14 31 1 (by decide)).trans ((seg_off _ d 19 31 1 (by decide)).trans (seg_hit _ cv 31 rfl (by decide)))))
  have h3 : seg (encode (.vfmaxVx cv d a x k)) 19 5 = d := (seg_off _ k 5 19 5 (by decide)).trans ((seg_off _ x 8 19 5 (by decide)).trans ((seg_off _ a 14 19 5 (by decide)).trans (seg_hit _ d 19 ((seg_off _ cv 31 19 5 (by decide)).trans rfl) (by decide))))
  have h4 : seg (encode (.vfmaxVx cv d a x k)) 14 5 = a := (seg_off _ k 5 14 5 (by decide)).trans ((seg_off _ x 8 14 5 (by decide)).trans (seg_hit _ a 14 ((seg_off _ d 19 14 5 (by decide)).trans ((seg_off _ cv 31 14 5 (by decide)).trans rfl)) (by decide)))
  have h5 : seg (encode (.vfmaxVx cv d a x k)) 8 6 = x := (seg_off _ k 5 8 6 (by decide)).trans (seg_hit _ x 8 ((seg_off _ a 14 8 6 (by decide)).trans ((seg_off _ d 19 8 6 (by decide)).trans ((seg_off _ cv 31 8 6 (by decide)).trans rfl))) (by decide))
  have h6 : seg (encode (.vfmaxVx cv d a x k)) 5 3 = k := seg_hit _ k 5 ((seg_off _ x 8 5 3 (by decide)).trans ((seg_off _ a 14 5 3 (by decide)).trans ((seg_off _ d 19 5 3 (by decide)).trans ((seg_off _ cv 31 5 3 (by decide)).trans rfl)))) (by decide)
  exact decode_of (form26 m (by simp [decode26, h1, h2, h3, h4, h5, h6]))
theorem RoundTrip.vfsgnjVx (cv : BitVec 1) (d : BitVec 5) (a : BitVec 5) (x : BitVec 6) (k : BitVec 3) : RoundTrip.Statement (.vfsgnjVx cv d a x k) := by
  have m : seg (encode (.vfsgnjVx cv d a x k)) 24 7 = 38#7 := (seg_off _ k 5 24 7 (by decide)).trans ((seg_off _ x 8 24 7 (by decide)).trans ((seg_off _ a 14 24 7 (by decide)).trans ((seg_off _ d 19 24 7 (by decide)).trans ((seg_off _ cv 31 24 7 (by decide)).trans rfl))))
  have h1 : seg (encode (.vfsgnjVx cv d a x k)) 0 5 = 7#5 := (seg_off _ k 5 0 5 (by decide)).trans ((seg_off _ x 8 0 5 (by decide)).trans ((seg_off _ a 14 0 5 (by decide)).trans ((seg_off _ d 19 0 5 (by decide)).trans ((seg_off _ cv 31 0 5 (by decide)).trans rfl))))
  have h2 : seg (encode (.vfsgnjVx cv d a x k)) 31 1 = cv := (seg_off _ k 5 31 1 (by decide)).trans ((seg_off _ x 8 31 1 (by decide)).trans ((seg_off _ a 14 31 1 (by decide)).trans ((seg_off _ d 19 31 1 (by decide)).trans (seg_hit _ cv 31 rfl (by decide)))))
  have h3 : seg (encode (.vfsgnjVx cv d a x k)) 19 5 = d := (seg_off _ k 5 19 5 (by decide)).trans ((seg_off _ x 8 19 5 (by decide)).trans ((seg_off _ a 14 19 5 (by decide)).trans (seg_hit _ d 19 ((seg_off _ cv 31 19 5 (by decide)).trans rfl) (by decide))))
  have h4 : seg (encode (.vfsgnjVx cv d a x k)) 14 5 = a := (seg_off _ k 5 14 5 (by decide)).trans ((seg_off _ x 8 14 5 (by decide)).trans (seg_hit _ a 14 ((seg_off _ d 19 14 5 (by decide)).trans ((seg_off _ cv 31 14 5 (by decide)).trans rfl)) (by decide)))
  have h5 : seg (encode (.vfsgnjVx cv d a x k)) 8 6 = x := (seg_off _ k 5 8 6 (by decide)).trans (seg_hit _ x 8 ((seg_off _ a 14 8 6 (by decide)).trans ((seg_off _ d 19 8 6 (by decide)).trans ((seg_off _ cv 31 8 6 (by decide)).trans rfl))) (by decide))
  have h6 : seg (encode (.vfsgnjVx cv d a x k)) 5 3 = k := seg_hit _ k 5 ((seg_off _ x 8 5 3 (by decide)).trans ((seg_off _ a 14 5 3 (by decide)).trans ((seg_off _ d 19 5 3 (by decide)).trans ((seg_off _ cv 31 5 3 (by decide)).trans rfl)))) (by decide)
  exact decode_of (form26 m (by simp [decode26, h1, h2, h3, h4, h5, h6]))
theorem RoundTrip.vfsgnjnVx (cv : BitVec 1) (d : BitVec 5) (a : BitVec 5) (x : BitVec 6) (k : BitVec 3) : RoundTrip.Statement (.vfsgnjnVx cv d a x k) := by
  have m : seg (encode (.vfsgnjnVx cv d a x k)) 24 7 = 38#7 := (seg_off _ k 5 24 7 (by decide)).trans ((seg_off _ x 8 24 7 (by decide)).trans ((seg_off _ a 14 24 7 (by decide)).trans ((seg_off _ d 19 24 7 (by decide)).trans ((seg_off _ cv 31 24 7 (by decide)).trans rfl))))
  have h1 : seg (encode (.vfsgnjnVx cv d a x k)) 0 5 = 8#5 := (seg_off _ k 5 0 5 (by decide)).trans ((seg_off _ x 8 0 5 (by decide)).trans ((seg_off _ a 14 0 5 (by decide)).trans ((seg_off _ d 19 0 5 (by decide)).trans ((seg_off _ cv 31 0 5 (by decide)).trans rfl))))
  have h2 : seg (encode (.vfsgnjnVx cv d a x k)) 31 1 = cv := (seg_off _ k 5 31 1 (by decide)).trans ((seg_off _ x 8 31 1 (by decide)).trans ((seg_off _ a 14 31 1 (by decide)).trans ((seg_off _ d 19 31 1 (by decide)).trans (seg_hit _ cv 31 rfl (by decide)))))
  have h3 : seg (encode (.vfsgnjnVx cv d a x k)) 19 5 = d := (seg_off _ k 5 19 5 (by decide)).trans ((seg_off _ x 8 19 5 (by decide)).trans ((seg_off _ a 14 19 5 (by decide)).trans (seg_hit _ d 19 ((seg_off _ cv 31 19 5 (by decide)).trans rfl) (by decide))))
  have h4 : seg (encode (.vfsgnjnVx cv d a x k)) 14 5 = a := (seg_off _ k 5 14 5 (by decide)).trans ((seg_off _ x 8 14 5 (by decide)).trans (seg_hit _ a 14 ((seg_off _ d 19 14 5 (by decide)).trans ((seg_off _ cv 31 14 5 (by decide)).trans rfl)) (by decide)))
  have h5 : seg (encode (.vfsgnjnVx cv d a x k)) 8 6 = x := (seg_off _ k 5 8 6 (by decide)).trans (seg_hit _ x 8 ((seg_off _ a 14 8 6 (by decide)).trans ((seg_off _ d 19 8 6 (by decide)).trans ((seg_off _ cv 31 8 6 (by decide)).trans rfl))) (by decide))
  have h6 : seg (encode (.vfsgnjnVx cv d a x k)) 5 3 = k := seg_hit _ k 5 ((seg_off _ x 8 5 3 (by decide)).trans ((seg_off _ a 14 5 3 (by decide)).trans ((seg_off _ d 19 5 3 (by decide)).trans ((seg_off _ cv 31 5 3 (by decide)).trans rfl)))) (by decide)
  exact decode_of (form26 m (by simp [decode26, h1, h2, h3, h4, h5, h6]))
theorem RoundTrip.vfsgnjxVx (cv : BitVec 1) (d : BitVec 5) (a : BitVec 5) (x : BitVec 6) (k : BitVec 3) : RoundTrip.Statement (.vfsgnjxVx cv d a x k) := by
  have m : seg (encode (.vfsgnjxVx cv d a x k)) 24 7 = 38#7 := (seg_off _ k 5 24 7 (by decide)).trans ((seg_off _ x 8 24 7 (by decide)).trans ((seg_off _ a 14 24 7 (by decide)).trans ((seg_off _ d 19 24 7 (by decide)).trans ((seg_off _ cv 31 24 7 (by decide)).trans rfl))))
  have h1 : seg (encode (.vfsgnjxVx cv d a x k)) 0 5 = 9#5 := (seg_off _ k 5 0 5 (by decide)).trans ((seg_off _ x 8 0 5 (by decide)).trans ((seg_off _ a 14 0 5 (by decide)).trans ((seg_off _ d 19 0 5 (by decide)).trans ((seg_off _ cv 31 0 5 (by decide)).trans rfl))))
  have h2 : seg (encode (.vfsgnjxVx cv d a x k)) 31 1 = cv := (seg_off _ k 5 31 1 (by decide)).trans ((seg_off _ x 8 31 1 (by decide)).trans ((seg_off _ a 14 31 1 (by decide)).trans ((seg_off _ d 19 31 1 (by decide)).trans (seg_hit _ cv 31 rfl (by decide)))))
  have h3 : seg (encode (.vfsgnjxVx cv d a x k)) 19 5 = d := (seg_off _ k 5 19 5 (by decide)).trans ((seg_off _ x 8 19 5 (by decide)).trans ((seg_off _ a 14 19 5 (by decide)).trans (seg_hit _ d 19 ((seg_off _ cv 31 19 5 (by decide)).trans rfl) (by decide))))
  have h4 : seg (encode (.vfsgnjxVx cv d a x k)) 14 5 = a := (seg_off _ k 5 14 5 (by decide)).trans ((seg_off _ x 8 14 5 (by decide)).trans (seg_hit _ a 14 ((seg_off _ d 19 14 5 (by decide)).trans ((seg_off _ cv 31 14 5 (by decide)).trans rfl)) (by decide)))
  have h5 : seg (encode (.vfsgnjxVx cv d a x k)) 8 6 = x := (seg_off _ k 5 8 6 (by decide)).trans (seg_hit _ x 8 ((seg_off _ a 14 8 6 (by decide)).trans ((seg_off _ d 19 8 6 (by decide)).trans ((seg_off _ cv 31 8 6 (by decide)).trans rfl))) (by decide))
  have h6 : seg (encode (.vfsgnjxVx cv d a x k)) 5 3 = k := seg_hit _ k 5 ((seg_off _ x 8 5 3 (by decide)).trans ((seg_off _ a 14 5 3 (by decide)).trans ((seg_off _ d 19 5 3 (by decide)).trans ((seg_off _ cv 31 5 3 (by decide)).trans rfl)))) (by decide)
  exact decode_of (form26 m (by simp [decode26, h1, h2, h3, h4, h5, h6]))
theorem RoundTrip.vfclassVx (cv : BitVec 1) (d : BitVec 5) (a : BitVec 5) (k : BitVec 3) : RoundTrip.Statement (.vfclassVx cv d a k) := by
  have m : seg (encode (.vfclassVx cv d a k)) 24 7 = 38#7 := (seg_off _ k 5 24 7 (by decide)).trans ((seg_off _ a 14 24 7 (by decide)).trans ((seg_off _ d 19 24 7 (by decide)).trans ((seg_off _ cv 31 24 7 (by decide)).trans rfl)))
  have h1 : seg (encode (.vfclassVx cv d a k)) 0 5 = 10#5 := (seg_off _ k 5 0 5 (by decide)).trans ((seg_off _ a 14 0 5 (by decide)).trans ((seg_off _ d 19 0 5 (by decide)).trans ((seg_off _ cv 31 0 5 (by decide)).trans rfl)))
  have h2 : seg (encode (.vfclassVx cv d a k)) 8 6 = 0#6 := (seg_off _ k 5 8 6 (by decide)).trans ((seg_off _ a 14 8 6 (by decide)).trans ((seg_off _ d 19 8 6 (by decide)).trans ((seg_off _ cv 31 8 6 (by decide)).trans rfl)))
  have h3 : seg (encode (.vfclassVx cv d a k)) 31 1 = cv := (seg_off _ k 5 31 1 (by decide)).trans ((seg_off _ a 14 31 1 (by decide)).trans ((seg_off _ d 19 31 1 (by decide)).trans (seg_hit _ cv 31 rfl (by decide))))
  have h4 : seg (encode (.vfclassVx cv d a k)) 19 5 = d := (seg_off _ k 5 19 5 (by decide)).trans ((seg_off _ a 14 19 5 (by decide)).trans (seg_hit _ d 19 ((seg_off _ cv 31 19 5 (by decide)).trans rfl) (by decide)))
  have h5 : seg (encode (.vfclassVx cv d a k)) 14 5 = a := (seg_off _ k 5 14 5 (by decide)).trans (seg_hit _ a 14 ((seg_off _ d 19 14 5 (by decide)).trans ((seg_off _ cv 31 14 5 (by decide)).trans rfl)) (by decide))
  have h6 : seg (encode (.vfclassVx cv d a k)) 5 3 = k := seg_hit _ k 5 ((seg_off _ a 14 5 3 (by decide)).trans ((seg_off _ d 19 5 3 (by decide)).trans ((seg_off _ cv 31 5 3 (by decide)).trans rfl))) (by decide)
  exact decode_of (form26 m (by simp [decode26, h1, h2, h3, h4, h5, h6]))
theorem RoundTrip.vfrsubVx (cv : BitVec 1) (d : BitVec 5) (a : BitVec 5) (x : BitVec 6) (k : BitVec 3) : RoundTrip.Statement (.vfrsubVx cv d a x k) := by
  have m : seg (encode (.vfrsubVx cv d a x k)) 24 7 = 38#7 := (seg_off _ k 5 24 7 (by decide)).trans ((seg_off _ x 8 24 7 (by decide)).trans ((seg_off _ a 14 24 7 (by decide)).trans ((seg_off _ d 19 24 7 (by decide)).trans ((seg_off _ cv 31 24 7 (by decide)).trans rfl))))
  have h1 : seg (encode (.vfrsubVx cv d a x k)) 0 5 = 11#5 := (seg_off _ k 5 0 5 (by decide)).trans ((seg_off _ x 8 0 5 (by decide)).trans ((seg_off _ a 14 0 5 (by decide)).trans ((seg_off _ d 19 0 5 (by decide)).trans ((seg_off _ cv 31 0 5 (by decide)).trans rfl))))
  have h2 : seg (encode (.vfrsubVx cv d a x k)) 31 1 = cv := (seg_off _ k 5 31 1 (by decide)).trans ((seg_off _ x 8 31 1 (by decide)).trans ((seg_off _ a 14 31 1 (by decide)).trans ((seg_off _ d 19 31 1 (by decide)).trans (seg_hit _ cv 31 rfl (by decide)))))
  have h3 : seg (encode (.vfrsubVx cv d a x k)) 19 5 = d := (seg_off _ k 5 19 5 (by decide)).trans ((seg_off _ x 8 19 5 (by decide)).trans ((seg_off _ a 14 19 5 (by decide)).trans (seg_hit _ d 19 ((seg_off _ cv 31 19 5 (by decide)).trans rfl) (by decide))))
  have h4 : seg (encode (.vfrsubVx cv d a x k)) 14 5 = a := (seg_off _ k 5 14 5 (by decide)).trans ((seg_off _ x 8 14 5 (by decide)).trans (seg_hit _ a 14 ((seg_off _ d 19 14 5 (by decide)).trans ((seg_off _ cv 31 14 5 (by decide)).trans rfl)) (by decide)))
  have h5 : seg (encode (.vfrsubVx cv d a x k)) 8 6 = x := (seg_off _ k 5 8 6 (by decide)).trans (seg_hit _ x 8 ((seg_off _ a 14 8 6 (by decide)).trans ((seg_off _ d 19 8 6 (by decide)).trans ((seg_off _ cv 31 8 6 (by decide)).trans rfl))) (by decide))
  have h6 : seg (encode (.vfrsubVx cv d a x k)) 5 3 = k := seg_hit _ k 5 ((seg_off _ x 8 5 3 (by decide)).trans ((seg_off _ a 14 5 3 (by decide)).trans ((seg_off _ d 19 5 3 (by decide)).trans ((seg_off _ cv 31 5 3 (by decide)).trans rfl)))) (by decide)
  exact decode_of (form26 m (by simp [decode26, h1, h2, h3, h4, h5, h6]))
theorem RoundTrip.vfrdivVx (cv : BitVec 1) (d : BitVec 5) (a : BitVec 5) (x : BitVec 6) (k : BitVec 3) : RoundTrip.Statement (.vfrdivVx cv d a x k) := by
  have m : seg (encode (.vfrdivVx cv d a x k)) 24 7 = 38#7 := (seg_off _ k 5 24 7 (by decide)).trans ((seg_off _ x 8 24 7 (by decide)).trans ((seg_off _ a 14 24 7 (by decide)).trans ((seg_off _ d 19 24 7 (by decide)).trans ((seg_off _ cv 31 24 7 (by decide)).trans rfl))))
  have h1 : seg (encode (.vfrdivVx cv d a x k)) 0 5 = 12#5 := (seg_off _ k 5 0 5 (by decide)).trans ((seg_off _ x 8 0 5 (by decide)).trans ((seg_off _ a 14 0 5 (by decide)).trans ((seg_off _ d 19 0 5 (by decide)).trans ((seg_off _ cv 31 0 5 (by decide)).trans rfl))))
  have h2 : seg (encode (.vfrdivVx cv d a x k)) 31 1 = cv := (seg_off _ k 5 31 1 (by decide)).trans ((seg_off _ x 8 31 1 (by decide)).trans ((seg_off _ a 14 31 1 (by decide)).trans ((seg_off _ d 19 31 1 (by decide)).trans (seg_hit _ cv 31 rfl (by decide)))))
  have h3 : seg (encode (.vfrdivVx cv d a x k)) 19 5 = d := (seg_off _ k 5 19 5 (by decide)).trans ((seg_off _ x 8 19 5 (by decide)).trans ((seg_off _ a 14 19 5 (by decide)).trans (seg_hit _ d 19 ((seg_off _ cv 31 19 5 (by decide)).trans rfl) (by decide))))
  have h4 : seg (encode (.vfrdivVx cv d a x k)) 14 5 = a := (seg_off _ k 5 14 5 (by decide)).trans ((seg_off _ x 8 14 5 (by decide)).trans (seg_hit _ a 14 ((seg_off _ d 19 14 5 (by decide)).trans ((seg_off _ cv 31 14 5 (by decide)).trans rfl)) (by decide)))
  have h5 : seg (encode (.vfrdivVx cv d a x k)) 8 6 = x := (seg_off _ k 5 8 6 (by decide)).trans (seg_hit _ x 8 ((seg_off _ a 14 8 6 (by decide)).trans ((seg_off _ d 19 8 6 (by decide)).trans ((seg_off _ cv 31 8 6 (by decide)).trans rfl))) (by decide))
  have h6 : seg (encode (.vfrdivVx cv d a x k)) 5 3 = k := seg_hit _ k 5 ((seg_off _ x 8 5 3 (by decide)).trans ((seg_off _ a 14 5 3 (by decide)).trans ((seg_off _ d 19 5 3 (by decide)).trans ((seg_off _ cv 31 5 3 (by decide)).trans rfl)))) (by decide)
  exact decode_of (form26 m (by simp [decode26, h1, h2, h3, h4, h5, h6]))
theorem RoundTrip.vfmadd (cv : BitVec 1) (d : BitVec 5) (a : BitVec 5) (b : BitVec 5) (k : BitVec 3) : RoundTrip.Statement (.vfmadd cv d a b k) := by
  have m : seg (encode (.vfmadd cv d a b k)) 24 7 = 39#7 := (seg_off _ k 6 24 7 (by decide)).trans ((seg_off _ b 9 24 7 (by decide)).trans ((seg_off _ a 14 24 7 (by decide)).trans ((seg_off _ d 19 24 7 (by decide)).trans ((seg_off _ cv 31 24 7 (by decide)).trans rfl))))
  have h1 : seg (encode (.vfmadd cv d a b k)) 0 6 = 0#6 := (seg_off _ k 6 0 6 (by decide)).trans ((seg_off _ b 9 0 6 (by decide)).trans ((seg_off _ a 14 0 6 (by decide)).trans ((seg_off _ d 19 0 6 (by decide)).trans ((seg_off _ cv 31 0 6 (by decide)).trans rfl))))
  have h2 : seg (encode (.vfmadd cv d a b k)) 31 1 = cv := (seg_off _ k 6 31 1 (by decide)).trans ((seg_off _ b 9 31 1 (by decide)).trans ((seg_off _ a 14 31 1 (by decide)).trans ((seg_off _ d 19 31 1 (by decide)).trans (seg_hit _ cv 31 rfl (by decide)))))
  have h3 : seg (encode (.vfmadd cv d a b k)) 19 5 = d := (seg_off _ k 6 19 5 (by decide)).trans ((seg_off _ b 9 19 5 (by decide)).trans ((seg_off _ a 14 19 5 (by decide)).trans (seg_hit _ d 19 ((seg_off _ cv 31 19 5 (by decide)).trans rfl) (by decide))))
  have h4 : seg (encode (.vfmadd cv d a b k)) 14 5 = a := (seg_off _ k 6 14 5 (by decide)).trans ((seg_off _ b 9 14 5 (by decide)).trans (seg_hit _ a 14 ((seg_off _ d 19 14 5 (by decide)).trans ((seg_off _ cv 31 14 5 (by decide)).trans rfl)) (by decide)))
  have h5 : seg (encode (.vfmadd cv d a b k)) 9 5 = b := (seg_off _ k 6 9 5 (by decide)).trans (seg_hit _ b 9 ((seg_off _ a 14 9 5 (by decide)).trans ((seg_off _ d 19 9 5 (by decide)).trans ((seg_off _ cv 31 9 5 (by decide)).trans rfl))) (by decide))
  have h6 : seg (encode (.vfmadd cv d a b k)) 6 3 = k := seg_hit _ k 6 ((seg_off _ b 9 6 3 (by decide)).trans ((seg_off _ a 14 6 3 (by decide)).trans ((seg_off _ d 19 6 3 (by decide)).trans ((seg_off _ cv 31 6 3 (by decide)).trans rfl)))) (by decide)
  exact decode_of (form27 m (by simp [decode27, h1, h2, h3, h4, h5, h6]))
theorem RoundTrip.vfmsub (cv : BitVec 1) (d : BitVec 5) (a : BitVec 5) (b : BitVec 5) (k : BitVec 3) : RoundTrip.Statement (.vfmsub cv d a b k) := by
  have m : seg (encode (.vfmsub cv d a b k)) 24 7 = 39#7 := (seg_off _ k 6 24 7 (by decide)).trans ((seg_off _ b 9 24 7 (by decide)).trans ((seg_off _ a 14 24 7 (by decide)).trans ((seg_off _ d 19 24 7 (by decide)).trans ((seg_off _ cv 31 24 7 (by decide)).trans rfl))))
  have h1 : seg (encode (.vfmsub cv d a b k)) 0 6 = 1#6 := (seg_off _ k 6 0 6 (by decide)).trans ((seg_off _ b 9 0 6 (by decide)).trans ((seg_off _ a 14 0 6 (by decide)).trans ((seg_off _ d 19 0 6 (by decide)).trans ((seg_off _ cv 31 0 6 (by decide)).trans rfl))))
  have h2 : seg (encode (.vfmsub cv d a b k)) 31 1 = cv := (seg_off _ k 6 31 1 (by decide)).trans ((seg_off _ b 9 31 1 (by decide)).trans ((seg_off _ a 14 31 1 (by decide)).trans ((seg_off _ d 19 31 1 (by decide)).trans (seg_hit _ cv 31 rfl (by decide)))))
  have h3 : seg (encode (.vfmsub cv d a b k)) 19 5 = d := (seg_off _ k 6 19 5 (by decide)).trans ((seg_off _ b 9 19 5 (by decide)).trans ((seg_off _ a 14 19 5 (by decide)).trans (seg_hit _ d 19 ((seg_off _ cv 31 19 5 (by decide)).trans rfl) (by decide))))
  have h4 : seg (encode (.vfmsub cv d a b k)) 14 5 = a := (seg_off _ k 6 14 5 (by decide)).trans ((seg_off _ b 9 14 5 (by decide)).trans (seg_hit _ a 14 ((seg_off _ d 19 14 5 (by decide)).trans ((seg_off _ cv 31 14 5 (by decide)).trans rfl)) (by decide)))
  have h5 : seg (encode (.vfmsub cv d a b k)) 9 5 = b := (seg_off _ k 6 9 5 (by decide)).trans (seg_hit _ b 9 ((seg_off _ a 14 9 5 (by decide)).trans ((seg_off _ d 19 9 5 (by decide)).trans ((seg_off _ cv 31 9 5 (by decide)).trans rfl))) (by decide))
  have h6 : seg (encode (.vfmsub cv d a b k)) 6 3 = k := seg_hit _ k 6 ((seg_off _ b 9 6 3 (by decide)).trans ((seg_off _ a 14 6 3 (by decide)).trans ((seg_off _ d 19 6 3 (by decide)).trans ((seg_off _ cv 31 6 3 (by decide)).trans rfl)))) (by decide)
  exact decode_of (form27 m (by simp [decode27, h1, h2, h3, h4, h5, h6]))
theorem RoundTrip.vfnmadd (cv : BitVec 1) (d : BitVec 5) (a : BitVec 5) (b : BitVec 5) (k : BitVec 3) : RoundTrip.Statement (.vfnmadd cv d a b k) := by
  have m : seg (encode (.vfnmadd cv d a b k)) 24 7 = 39#7 := (seg_off _ k 6 24 7 (by decide)).trans ((seg_off _ b 9 24 7 (by decide)).trans ((seg_off _ a 14 24 7 (by decide)).trans ((seg_off _ d 19 24 7 (by decide)).trans ((seg_off _ cv 31 24 7 (by decide)).trans rfl))))
  have h1 : seg (encode (.vfnmadd cv d a b k)) 0 6 = 2#6 := (seg_off _ k 6 0 6 (by decide)).trans ((seg_off _ b 9 0 6 (by decide)).trans ((seg_off _ a 14 0 6 (by decide)).trans ((seg_off _ d 19 0 6 (by decide)).trans ((seg_off _ cv 31 0 6 (by decide)).trans rfl))))
  have h2 : seg (encode (.vfnmadd cv d a b k)) 31 1 = cv := (seg_off _ k 6 31 1 (by decide)).trans ((seg_off _ b 9 31 1 (by decide)).trans ((seg_off _ a 14 31 1 (by decide)).trans ((seg_off _ d 19 31 1 (by decide)).trans (seg_hit _ cv 31 rfl (by decide)))))
  have h3 : seg (encode (.vfnmadd cv d a b k)) 19 5 = d := (seg_off _ k 6 19 5 (by decide)).trans ((seg_off _ b 9 19 5 (by decide)).trans ((seg_off _ a 14 19 5 (by decide)).trans (seg_hit _ d 19 ((seg_off _ cv 31 19 5 (by decide)).trans rfl) (by decide))))
  have h4 : seg (encode (.vfnmadd cv d a b k)) 14 5 = a := (seg_off _ k 6 14 5 (by decide)).trans ((seg_off _ b 9 14 5 (by decide)).trans (seg_hit _ a 14 ((seg_off _ d 19 14 5 (by decide)).trans ((seg_off _ cv 31 14 5 (by decide)).trans rfl)) (by decide)))
  have h5 : seg (encode (.vfnmadd cv d a b k)) 9 5 = b := (seg_off _ k 6 9 5 (by decide)).trans (seg_hit _ b 9 ((seg_off _ a 14 9 5 (by decide)).trans ((seg_off _ d 19 9 5 (by decide)).trans ((seg_off _ cv 31 9 5 (by decide)).trans rfl))) (by decide))
  have h6 : seg (encode (.vfnmadd cv d a b k)) 6 3 = k := seg_hit _ k 6 ((seg_off _ b 9 6 3 (by decide)).trans ((seg_off _ a 14 6 3 (by decide)).trans ((seg_off _ d 19 6 3 (by decide)).trans ((seg_off _ cv 31 6 3 (by decide)).trans rfl)))) (by decide)
  exact decode_of (form27 m (by simp [decode27, h1, h2, h3, h4, h5, h6]))
theorem RoundTrip.vfnmsub (cv : BitVec 1) (d : BitVec 5) (a : BitVec 5) (b : BitVec 5) (k : BitVec 3) : RoundTrip.Statement (.vfnmsub cv d a b k) := by
  have m : seg (encode (.vfnmsub cv d a b k)) 24 7 = 39#7 := (seg_off _ k 6 24 7 (by decide)).trans ((seg_off _ b 9 24 7 (by decide)).trans ((seg_off _ a 14 24 7 (by decide)).trans ((seg_off _ d 19 24 7 (by decide)).trans ((seg_off _ cv 31 24 7 (by decide)).trans rfl))))
  have h1 : seg (encode (.vfnmsub cv d a b k)) 0 6 = 3#6 := (seg_off _ k 6 0 6 (by decide)).trans ((seg_off _ b 9 0 6 (by decide)).trans ((seg_off _ a 14 0 6 (by decide)).trans ((seg_off _ d 19 0 6 (by decide)).trans ((seg_off _ cv 31 0 6 (by decide)).trans rfl))))
  have h2 : seg (encode (.vfnmsub cv d a b k)) 31 1 = cv := (seg_off _ k 6 31 1 (by decide)).trans ((seg_off _ b 9 31 1 (by decide)).trans ((seg_off _ a 14 31 1 (by decide)).trans ((seg_off _ d 19 31 1 (by decide)).trans (seg_hit _ cv 31 rfl (by decide)))))
  have h3 : seg (encode (.vfnmsub cv d a b k)) 19 5 = d := (seg_off _ k 6 19 5 (by decide)).trans ((seg_off _ b 9 19 5 (by decide)).trans ((seg_off _ a 14 19 5 (by decide)).trans (seg_hit _ d 19 ((seg_off _ cv 31 19 5 (by decide)).trans rfl) (by decide))))
  have h4 : seg (encode (.vfnmsub cv d a b k)) 14 5 = a := (seg_off _ k 6 14 5 (by decide)).trans ((seg_off _ b 9 14 5 (by decide)).trans (seg_hit _ a 14 ((seg_off _ d 19 14 5 (by decide)).trans ((seg_off _ cv 31 14 5 (by decide)).trans rfl)) (by decide)))
  have h5 : seg (encode (.vfnmsub cv d a b k)) 9 5 = b := (seg_off _ k 6 9 5 (by decide)).trans (seg_hit _ b 9 ((seg_off _ a 14 9 5 (by decide)).trans ((seg_off _ d 19 9 5 (by decide)).trans ((seg_off _ cv 31 9 5 (by decide)).trans rfl))) (by decide))
  have h6 : seg (encode (.vfnmsub cv d a b k)) 6 3 = k := seg_hit _ k 6 ((seg_off _ b 9 6 3 (by decide)).trans ((seg_off _ a 14 6 3 (by decide)).trans ((seg_off _ d 19 6 3 (by decide)).trans ((seg_off _ cv 31 6 3 (by decide)).trans rfl)))) (by decide)
  exact decode_of (form27 m (by simp [decode27, h1, h2, h3, h4, h5, h6]))
theorem RoundTrip.vmacc (cv : BitVec 1) (d : BitVec 5) (a : BitVec 5) (b : BitVec 5) (k : BitVec 3) : RoundTrip.Statement (.vmacc cv d a b k) := by
  have m : seg (encode (.vmacc cv d a b k)) 24 7 = 39#7 := (seg_off _ k 6 24 7 (by decide)).trans ((seg_off _ b 9 24 7 (by decide)).trans ((seg_off _ a 14 24 7 (by decide)).trans ((seg_off _ d 19 24 7 (by decide)).trans ((seg_off _ cv 31 24 7 (by decide)).trans rfl))))
  have h1 : seg (encode (.vmacc cv d a b k)) 0 6 = 4#6 := (seg_off _ k 6 0 6 (by decide)).trans ((seg_off _ b 9 0 6 (by decide)).trans ((seg_off _ a 14 0 6 (by decide)).trans ((seg_off _ d 19 0 6 (by decide)).trans ((seg_off _ cv 31 0 6 (by decide)).trans rfl))))
  have h2 : seg (encode (.vmacc cv d a b k)) 31 1 = cv := (seg_off _ k 6 31 1 (by decide)).trans ((seg_off _ b 9 31 1 (by decide)).trans ((seg_off _ a 14 31 1 (by decide)).trans ((seg_off _ d 19 31 1 (by decide)).trans (seg_hit _ cv 31 rfl (by decide)))))
  have h3 : seg (encode (.vmacc cv d a b k)) 19 5 = d := (seg_off _ k 6 19 5 (by decide)).trans ((seg_off _ b 9 19 5 (by decide)).trans ((seg_off _ a 14 19 5 (by decide)).trans (seg_hit _ d 19 ((seg_off _ cv 31 19 5 (by decide)).trans rfl) (by decide))))
  have h4 : seg (encode (.vmacc cv d a b k)) 14 5 = a := (seg_off _ k 6 14 5 (by decide)).trans ((seg_off _ b 9 14 5 (by decide)).trans (seg_hit _ a 14 ((seg_off _ d 19 14 5 (by decide)).trans ((seg_off _ cv 31 14 5 (by decide)).trans rfl)) (by decide)))
  have h5 : seg (encode (.vmacc cv d a b k)) 9 5 = b := (seg_off _ k 6 9 5 (by decide)).trans (seg_hit _ b 9 ((seg_off _ a 14 9 5 (by decide)).trans ((seg_off _ d 19 9 5 (by decide)).trans ((seg_off _ cv 31 9 5 (by decide)).trans rfl))) (by decide))
  have h6 : seg (encode (.vmacc cv d a b k)) 6 3 = k := seg_hit _ k 6 ((seg_off _ b 9 6 3 (by decide)).trans ((seg_off _ a 14 6 3 (by decide)).trans ((seg_off _ d 19 6 3 (by decide)).trans ((seg_off _ cv 31 6 3 (by decide)).trans rfl)))) (by decide)
  exact decode_of (form27 m (by simp [decode27, h1, h2, h3, h4, h5, h6]))
theorem RoundTrip.vnmsac (cv : BitVec 1) (d : BitVec 5) (a : BitVec 5) (b : BitVec 5) (k : BitVec 3) : RoundTrip.Statement (.vnmsac cv d a b k) := by
  have m : seg (encode (.vnmsac cv d a b k)) 24 7 = 39#7 := (seg_off _ k 6 24 7 (by decide)).trans ((seg_off _ b 9 24 7 (by decide)).trans ((seg_off _ a 14 24 7 (by decide)).trans ((seg_off _ d 19 24 7 (by decide)).trans ((seg_off _ cv 31 24 7 (by decide)).trans rfl))))
  have h1 : seg (encode (.vnmsac cv d a b k)) 0 6 = 5#6 := (seg_off _ k 6 0 6 (by decide)).trans ((seg_off _ b 9 0 6 (by decide)).trans ((seg_off _ a 14 0 6 (by decide)).trans ((seg_off _ d 19 0 6 (by decide)).trans ((seg_off _ cv 31 0 6 (by decide)).trans rfl))))
  have h2 : seg (encode (.vnmsac cv d a b k)) 31 1 = cv := (seg_off _ k 6 31 1 (by decide)).trans ((seg_off _ b 9 31 1 (by decide)).trans ((seg_off _ a 14 31 1 (by decide)).trans ((seg_off _ d 19 31 1 (by decide)).trans (seg_hit _ cv 31 rfl (by decide)))))
  have h3 : seg (encode (.vnmsac cv d a b k)) 19 5 = d := (seg_off _ k 6 19 5 (by decide)).trans ((seg_off _ b 9 19 5 (by decide)).trans ((seg_off _ a 14 19 5 (by decide)).trans (seg_hit _ d 19 ((seg_off _ cv 31 19 5 (by decide)).trans rfl) (by decide))))
  have h4 : seg (encode (.vnmsac cv d a b k)) 14 5 = a := (seg_off _ k 6 14 5 (by decide)).trans ((seg_off _ b 9 14 5 (by decide)).trans (seg_hit _ a 14 ((seg_off _ d 19 14 5 (by decide)).trans ((seg_off _ cv 31 14 5 (by decide)).trans rfl)) (by decide)))
  have h5 : seg (encode (.vnmsac cv d a b k)) 9 5 = b := (seg_off _ k 6 9 5 (by decide)).trans (seg_hit _ b 9 ((seg_off _ a 14 9 5 (by decide)).trans ((seg_off _ d 19 9 5 (by decide)).trans ((seg_off _ cv 31 9 5 (by decide)).trans rfl))) (by decide))
  have h6 : seg (encode (.vnmsac cv d a b k)) 6 3 = k := seg_hit _ k 6 ((seg_off _ b 9 6 3 (by decide)).trans ((seg_off _ a 14 6 3 (by decide)).trans ((seg_off _ d 19 6 3 (by decide)).trans ((seg_off _ cv 31 6 3 (by decide)).trans rfl)))) (by decide)
  exact decode_of (form27 m (by simp [decode27, h1, h2, h3, h4, h5, h6]))
theorem RoundTrip.vwmacc (cv : BitVec 1) (d : BitVec 5) (a : BitVec 5) (b : BitVec 5) (k : BitVec 3) : RoundTrip.Statement (.vwmacc cv d a b k) := by
  have m : seg (encode (.vwmacc cv d a b k)) 24 7 = 40#7 := (seg_off _ k 6 24 7 (by decide)).trans ((seg_off _ b 9 24 7 (by decide)).trans ((seg_off _ a 14 24 7 (by decide)).trans ((seg_off _ d 19 24 7 (by decide)).trans ((seg_off _ cv 31 24 7 (by decide)).trans rfl))))
  have h1 : seg (encode (.vwmacc cv d a b k)) 0 6 = 0#6 := (seg_off _ k 6 0 6 (by decide)).trans ((seg_off _ b 9 0 6 (by decide)).trans ((seg_off _ a 14 0 6 (by decide)).trans ((seg_off _ d 19 0 6 (by decide)).trans ((seg_off _ cv 31 0 6 (by decide)).trans rfl))))
  have h2 : seg (encode (.vwmacc cv d a b k)) 31 1 = cv := (seg_off _ k 6 31 1 (by decide)).trans ((seg_off _ b 9 31 1 (by decide)).trans ((seg_off _ a 14 31 1 (by decide)).trans ((seg_off _ d 19 31 1 (by decide)).trans (seg_hit _ cv 31 rfl (by decide)))))
  have h3 : seg (encode (.vwmacc cv d a b k)) 19 5 = d := (seg_off _ k 6 19 5 (by decide)).trans ((seg_off _ b 9 19 5 (by decide)).trans ((seg_off _ a 14 19 5 (by decide)).trans (seg_hit _ d 19 ((seg_off _ cv 31 19 5 (by decide)).trans rfl) (by decide))))
  have h4 : seg (encode (.vwmacc cv d a b k)) 14 5 = a := (seg_off _ k 6 14 5 (by decide)).trans ((seg_off _ b 9 14 5 (by decide)).trans (seg_hit _ a 14 ((seg_off _ d 19 14 5 (by decide)).trans ((seg_off _ cv 31 14 5 (by decide)).trans rfl)) (by decide)))
  have h5 : seg (encode (.vwmacc cv d a b k)) 9 5 = b := (seg_off _ k 6 9 5 (by decide)).trans (seg_hit _ b 9 ((seg_off _ a 14 9 5 (by decide)).trans ((seg_off _ d 19 9 5 (by decide)).trans ((seg_off _ cv 31 9 5 (by decide)).trans rfl))) (by decide))
  have h6 : seg (encode (.vwmacc cv d a b k)) 6 3 = k := seg_hit _ k 6 ((seg_off _ b 9 6 3 (by decide)).trans ((seg_off _ a 14 6 3 (by decide)).trans ((seg_off _ d 19 6 3 (by decide)).trans ((seg_off _ cv 31 6 3 (by decide)).trans rfl)))) (by decide)
  exact decode_of (form28 m (by simp [decode28, h1, h2, h3, h4, h5, h6]))
theorem RoundTrip.vwmaccu (cv : BitVec 1) (d : BitVec 5) (a : BitVec 5) (b : BitVec 5) (k : BitVec 3) : RoundTrip.Statement (.vwmaccu cv d a b k) := by
  have m : seg (encode (.vwmaccu cv d a b k)) 24 7 = 40#7 := (seg_off _ k 6 24 7 (by decide)).trans ((seg_off _ b 9 24 7 (by decide)).trans ((seg_off _ a 14 24 7 (by decide)).trans ((seg_off _ d 19 24 7 (by decide)).trans ((seg_off _ cv 31 24 7 (by decide)).trans rfl))))
  have h1 : seg (encode (.vwmaccu cv d a b k)) 0 6 = 1#6 := (seg_off _ k 6 0 6 (by decide)).trans ((seg_off _ b 9 0 6 (by decide)).trans ((seg_off _ a 14 0 6 (by decide)).trans ((seg_off _ d 19 0 6 (by decide)).trans ((seg_off _ cv 31 0 6 (by decide)).trans rfl))))
  have h2 : seg (encode (.vwmaccu cv d a b k)) 31 1 = cv := (seg_off _ k 6 31 1 (by decide)).trans ((seg_off _ b 9 31 1 (by decide)).trans ((seg_off _ a 14 31 1 (by decide)).trans ((seg_off _ d 19 31 1 (by decide)).trans (seg_hit _ cv 31 rfl (by decide)))))
  have h3 : seg (encode (.vwmaccu cv d a b k)) 19 5 = d := (seg_off _ k 6 19 5 (by decide)).trans ((seg_off _ b 9 19 5 (by decide)).trans ((seg_off _ a 14 19 5 (by decide)).trans (seg_hit _ d 19 ((seg_off _ cv 31 19 5 (by decide)).trans rfl) (by decide))))
  have h4 : seg (encode (.vwmaccu cv d a b k)) 14 5 = a := (seg_off _ k 6 14 5 (by decide)).trans ((seg_off _ b 9 14 5 (by decide)).trans (seg_hit _ a 14 ((seg_off _ d 19 14 5 (by decide)).trans ((seg_off _ cv 31 14 5 (by decide)).trans rfl)) (by decide)))
  have h5 : seg (encode (.vwmaccu cv d a b k)) 9 5 = b := (seg_off _ k 6 9 5 (by decide)).trans (seg_hit _ b 9 ((seg_off _ a 14 9 5 (by decide)).trans ((seg_off _ d 19 9 5 (by decide)).trans ((seg_off _ cv 31 9 5 (by decide)).trans rfl))) (by decide))
  have h6 : seg (encode (.vwmaccu cv d a b k)) 6 3 = k := seg_hit _ k 6 ((seg_off _ b 9 6 3 (by decide)).trans ((seg_off _ a 14 6 3 (by decide)).trans ((seg_off _ d 19 6 3 (by decide)).trans ((seg_off _ cv 31 6 3 (by decide)).trans rfl)))) (by decide)
  exact decode_of (form28 m (by simp [decode28, h1, h2, h3, h4, h5, h6]))
theorem RoundTrip.vwmaccsu (cv : BitVec 1) (d : BitVec 5) (a : BitVec 5) (b : BitVec 5) (k : BitVec 3) : RoundTrip.Statement (.vwmaccsu cv d a b k) := by
  have m : seg (encode (.vwmaccsu cv d a b k)) 24 7 = 40#7 := (seg_off _ k 6 24 7 (by decide)).trans ((seg_off _ b 9 24 7 (by decide)).trans ((seg_off _ a 14 24 7 (by decide)).trans ((seg_off _ d 19 24 7 (by decide)).trans ((seg_off _ cv 31 24 7 (by decide)).trans rfl))))
  have h1 : seg (encode (.vwmaccsu cv d a b k)) 0 6 = 2#6 := (seg_off _ k 6 0 6 (by decide)).trans ((seg_off _ b 9 0 6 (by decide)).trans ((seg_off _ a 14 0 6 (by decide)).trans ((seg_off _ d 19 0 6 (by decide)).trans ((seg_off _ cv 31 0 6 (by decide)).trans rfl))))
  have h2 : seg (encode (.vwmaccsu cv d a b k)) 31 1 = cv := (seg_off _ k 6 31 1 (by decide)).trans ((seg_off _ b 9 31 1 (by decide)).trans ((seg_off _ a 14 31 1 (by decide)).trans ((seg_off _ d 19 31 1 (by decide)).trans (seg_hit _ cv 31 rfl (by decide)))))
  have h3 : seg (encode (.vwmaccsu cv d a b k)) 19 5 = d := (seg_off _ k 6 19 5 (by decide)).trans ((seg_off _ b 9 19 5 (by decide)).trans ((seg_off _ a 14 19 5 (by decide)).trans (seg_hit _ d 19 ((seg_off _ cv 31 19 5 (by decide)).trans rfl) (by decide))))
  have h4 : seg (encode (.vwmaccsu cv d a b k)) 14 5 = a := (seg_off _ k 6 14 5 (by decide)).trans ((seg_off _ b 9 14 5 (by decide)).trans (seg_hit _ a 14 ((seg_off _ d 19 14 5 (by decide)).trans ((seg_off _ cv 31 14 5 (by decide)).trans rfl)) (by decide)))
  have h5 : seg (encode (.vwmaccsu cv d a b k)) 9 5 = b := (seg_off _ k 6 9 5 (by decide)).trans (seg_hit _ b 9 ((seg_off _ a 14 9 5 (by decide)).trans ((seg_off _ d 19 9 5 (by decide)).trans ((seg_off _ cv 31 9 5 (by decide)).trans rfl))) (by decide))
  have h6 : seg (encode (.vwmaccsu cv d a b k)) 6 3 = k := seg_hit _ k 6 ((seg_off _ b 9 6 3 (by decide)).trans ((seg_off _ a 14 6 3 (by decide)).trans ((seg_off _ d 19 6 3 (by decide)).trans ((seg_off _ cv 31 6 3 (by decide)).trans rfl)))) (by decide)
  exact decode_of (form28 m (by simp [decode28, h1, h2, h3, h4, h5, h6]))
theorem RoundTrip.vfwmacc (cv : BitVec 1) (d : BitVec 5) (a : BitVec 5) (b : BitVec 5) (k : BitVec 3) : RoundTrip.Statement (.vfwmacc cv d a b k) := by
  have m : seg (encode (.vfwmacc cv d a b k)) 24 7 = 40#7 := (seg_off _ k 6 24 7 (by decide)).trans ((seg_off _ b 9 24 7 (by decide)).trans ((seg_off _ a 14 24 7 (by decide)).trans ((seg_off _ d 19 24 7 (by decide)).trans ((seg_off _ cv 31 24 7 (by decide)).trans rfl))))
  have h1 : seg (encode (.vfwmacc cv d a b k)) 0 6 = 3#6 := (seg_off _ k 6 0 6 (by decide)).trans ((seg_off _ b 9 0 6 (by decide)).trans ((seg_off _ a 14 0 6 (by decide)).trans ((seg_off _ d 19 0 6 (by decide)).trans ((seg_off _ cv 31 0 6 (by decide)).trans rfl))))
  have h2 : seg (encode (.vfwmacc cv d a b k)) 31 1 = cv := (seg_off _ k 6 31 1 (by decide)).trans ((seg_off _ b 9 31 1 (by decide)).trans ((seg_off _ a 14 31 1 (by decide)).trans ((seg_off _ d 19 31 1 (by decide)).trans (seg_hit _ cv 31 rfl (by decide)))))
  have h3 : seg (encode (.vfwmacc cv d a b k)) 19 5 = d := (seg_off _ k 6 19 5 (by decide)).trans ((seg_off _ b 9 19 5 (by decide)).trans ((seg_off _ a 14 19 5 (by decide)).trans (seg_hit _ d 19 ((seg_off _ cv 31 19 5 (by decide)).trans rfl) (by decide))))
  have h4 : seg (encode (.vfwmacc cv d a b k)) 14 5 = a := (seg_off _ k 6 14 5 (by decide)).trans ((seg_off _ b 9 14 5 (by decide)).trans (seg_hit _ a 14 ((seg_off _ d 19 14 5 (by decide)).trans ((seg_off _ cv 31 14 5 (by decide)).trans rfl)) (by decide)))
  have h5 : seg (encode (.vfwmacc cv d a b k)) 9 5 = b := (seg_off _ k 6 9 5 (by decide)).trans (seg_hit _ b 9 ((seg_off _ a 14 9 5 (by decide)).trans ((seg_off _ d 19 9 5 (by decide)).trans ((seg_off _ cv 31 9 5 (by decide)).trans rfl))) (by decide))
  have h6 : seg (encode (.vfwmacc cv d a b k)) 6 3 = k := seg_hit _ k 6 ((seg_off _ b 9 6 3 (by decide)).trans ((seg_off _ a 14 6 3 (by decide)).trans ((seg_off _ d 19 6 3 (by decide)).trans ((seg_off _ cv 31 6 3 (by decide)).trans rfl)))) (by decide)
  exact decode_of (form28 m (by simp [decode28, h1, h2, h3, h4, h5, h6]))
theorem RoundTrip.vseq (cv : BitVec 1) (d : BitVec 3) (a : BitVec 5) (b : BitVec 5) (k : BitVec 3) : RoundTrip.Statement (.vseq cv d a b k) := by
  have m : seg (encode (.vseq cv d a b k)) 24 7 = 41#7 := (seg_off _ k 6 24 7 (by decide)).trans ((seg_off _ b 9 24 7 (by decide)).trans ((seg_off _ a 14 24 7 (by decide)).trans ((seg_off _ d 19 24 7 (by decide)).trans ((seg_off _ cv 31 24 7 (by decide)).trans rfl))))
  have h1 : seg (encode (.vseq cv d a b k)) 0 6 = 0#6 := (seg_off _ k 6 0 6 (by decide)).trans ((seg_off _ b 9 0 6 (by decide)).trans ((seg_off _ a 14 0 6 (by decide)).trans ((seg_off _ d 19 0 6 (by decide)).trans ((seg_off _ cv 31 0 6 (by decide)).trans rfl))))
  have h2 : seg (encode (.vseq cv d a b k)) 22 2 = 0#2 := (seg_off _ k 6 22 2 (by decide)).trans ((seg_off _ b 9 22 2 (by decide)).trans ((seg_off _ a 14 22 2 (by decide)).trans ((seg_off _ d 19 22 2 (by decide)).trans ((seg_off _ cv 31 22 2 (by decide)).trans rfl))))
  have h3 : seg (encode (.vseq cv d a b k)) 31 1 = cv := (seg_off _ k 6 31 1 (by decide)).trans ((seg_off _ b 9 31 1 (by decide)).trans ((seg_off _ a 14 31 1 (by decide)).trans ((seg_off _ d 19 31 1 (by decide)).trans (seg_hit _ cv 31 rfl (by decide)))))
  have h4 : seg (encode (.vseq cv d a b k)) 19 3 = d := (seg_off _ k 6 19 3 (by decide)).trans ((seg_off _ b 9 19 3 (by decide)).trans ((seg_off _ a 14 19 3 (by decide)).trans (seg_hit _ d 19 ((seg_off _ cv 31 19 3 (by decide)).trans rfl) (by decide))))
  have h5 : seg (encode (.vseq cv d a b k)) 14 5 = a := (seg_off _ k 6 14 5 (by decide)).trans ((seg_off _ b 9 14 5 (by decide)).trans (seg_hit _ a 14 ((seg_off _ d 19 14 5 (by decide)).trans ((seg_off _ cv 31 14 5 (by decide)).trans rfl)) (by decide)))
  have h6 : seg (encode (.vseq cv d a b k)) 9 5 = b := (seg_off _ k 6 9 5 (by decide)).trans (seg_hit _ b 9 ((seg_off _ a 14 9 5 (by decide)).trans ((seg_off _ d 19 9 5 (by decide)).trans ((seg_off _ cv 31 9 5 (by decide)).trans rfl))) (by decide))
  have h7 : seg (encode (.vseq cv d a b k)) 6 3 = k := seg_hit _ k 6 ((seg_off _ b 9 6 3 (by decide)).trans ((seg_off _ a 14 6 3 (by decide)).trans ((seg_off _ d 19 6 3 (by decide)).trans ((seg_off _ cv 31 6 3 (by decide)).trans rfl)))) (by decide)
  exact decode_of (form29 m (by simp [decode29, h1, h2, h3, h4, h5, h6, h7]))
theorem RoundTrip.vsne (cv : BitVec 1) (d : BitVec 3) (a : BitVec 5) (b : BitVec 5) (k : BitVec 3) : RoundTrip.Statement (.vsne cv d a b k) := by
  have m : seg (encode (.vsne cv d a b k)) 24 7 = 41#7 := (seg_off _ k 6 24 7 (by decide)).trans ((seg_off _ b 9 24 7 (by decide)).trans ((seg_off _ a 14 24 7 (by decide)).trans ((seg_off _ d 19 24 7 (by decide)).trans ((seg_off _ cv 31 24 7 (by decide)).trans rfl))))
  have h1 : seg (encode (.vsne cv d a b k)) 0 6 = 1#6 := (seg_off _ k 6 0 6 (by decide)).trans ((seg_off _ b 9 0 6 (by decide)).trans ((seg_off _ a 14 0 6 (by decide)).trans ((seg_off _ d 19 0 6 (by decide)).trans ((seg_off _ cv 31 0 6 (by decide)).trans rfl))))
  have h2 : seg (encode (.vsne cv d a b k)) 22 2 = 0#2 := (seg_off _ k 6 22 2 (by decide)).trans ((seg_off _ b 9 22 2 (by decide)).trans ((seg_off _ a 14 22 2 (by decide)).trans ((seg_off _ d 19 22 2 (by decide)).trans ((seg_off _ cv 31 22 2 (by decide)).trans rfl))))
  have h3 : seg (encode (.vsne cv d a b k)) 31 1 = cv := (seg_off _ k 6 31 1 (by decide)).trans ((seg_off _ b 9 31 1 (by decide)).trans ((seg_off _ a 14 31 1 (by decide)).trans ((seg_off _ d 19 31 1 (by decide)).trans (seg_hit _ cv 31 rfl (by decide)))))
  have h4 : seg (encode (.vsne cv d a b k)) 19 3 = d := (seg_off _ k 6 19 3 (by decide)).trans ((seg_off _ b 9 19 3 (by decide)).trans ((seg_off _ a 14 19 3 (by decide)).trans (seg_hit _ d 19 ((seg_off _ cv 31 19 3 (by decide)).trans rfl) (by decide))))
  have h5 : seg (encode (.vsne cv d a b k)) 14 5 = a := (seg_off _ k 6 14 5 (by decide)).trans ((seg_off _ b 9 14 5 (by decide)).trans (seg_hit _ a 14 ((seg_off _ d 19 14 5 (by decide)).trans ((seg_off _ cv 31 14 5 (by decide)).trans rfl)) (by decide)))
  have h6 : seg (encode (.vsne cv d a b k)) 9 5 = b := (seg_off _ k 6 9 5 (by decide)).trans (seg_hit _ b 9 ((seg_off _ a 14 9 5 (by decide)).trans ((seg_off _ d 19 9 5 (by decide)).trans ((seg_off _ cv 31 9 5 (by decide)).trans rfl))) (by decide))
  have h7 : seg (encode (.vsne cv d a b k)) 6 3 = k := seg_hit _ k 6 ((seg_off _ b 9 6 3 (by decide)).trans ((seg_off _ a 14 6 3 (by decide)).trans ((seg_off _ d 19 6 3 (by decide)).trans ((seg_off _ cv 31 6 3 (by decide)).trans rfl)))) (by decide)
  exact decode_of (form29 m (by simp [decode29, h1, h2, h3, h4, h5, h6, h7]))
theorem RoundTrip.vslt (cv : BitVec 1) (d : BitVec 3) (a : BitVec 5) (b : BitVec 5) (k : BitVec 3) : RoundTrip.Statement (.vslt cv d a b k) := by
  have m : seg (encode (.vslt cv d a b k)) 24 7 = 41#7 := (seg_off _ k 6 24 7 (by decide)).trans ((seg_off _ b 9 24 7 (by decide)).trans ((seg_off _ a 14 24 7 (by decide)).trans ((seg_off _ d 19 24 7 (by decide)).trans ((seg_off _ cv 31 24 7 (by decide)).trans rfl))))
  have h1 : seg (encode (.vslt cv d a b k)) 0 6 = 2#6 := (seg_off _ k 6 0 6 (by decide)).trans ((seg_off _ b 9 0 6 (by decide)).trans ((seg_off _ a 14 0 6 (by decide)).trans ((seg_off _ d 19 0 6 (by decide)).trans ((seg_off _ cv 31 0 6 (by decide)).trans rfl))))
  have h2 : seg (encode (.vslt cv d a b k)) 22 2 = 0#2 := (seg_off _ k 6 22 2 (by decide)).trans ((seg_off _ b 9 22 2 (by decide)).trans ((seg_off _ a 14 22 2 (by decide)).trans ((seg_off _ d 19 22 2 (by decide)).trans ((seg_off _ cv 31 22 2 (by decide)).trans rfl))))
  have h3 : seg (encode (.vslt cv d a b k)) 31 1 = cv := (seg_off _ k 6 31 1 (by decide)).trans ((seg_off _ b 9 31 1 (by decide)).trans ((seg_off _ a 14 31 1 (by decide)).trans ((seg_off _ d 19 31 1 (by decide)).trans (seg_hit _ cv 31 rfl (by decide)))))
  have h4 : seg (encode (.vslt cv d a b k)) 19 3 = d := (seg_off _ k 6 19 3 (by decide)).trans ((seg_off _ b 9 19 3 (by decide)).trans ((seg_off _ a 14 19 3 (by decide)).trans (seg_hit _ d 19 ((seg_off _ cv 31 19 3 (by decide)).trans rfl) (by decide))))
  have h5 : seg (encode (.vslt cv d a b k)) 14 5 = a := (seg_off _ k 6 14 5 (by decide)).trans ((seg_off _ b 9 14 5 (by decide)).trans (seg_hit _ a 14 ((seg_off _ d 19 14 5 (by decide)).trans ((seg_off _ cv 31 14 5 (by decide)).trans rfl)) (by decide)))
  have h6 : seg (encode (.vslt cv d a b k)) 9 5 = b := (seg_off _ k 6 9 5 (by decide)).trans (seg_hit _ b 9 ((seg_off _ a 14 9 5 (by decide)).trans ((seg_off _ d 19 9 5 (by decide)).trans ((seg_off _ cv 31 9 5 (by decide)).trans rfl))) (by decide))
  have h7 : seg (encode (.vslt cv d a b k)) 6 3 = k := seg_hit _ k 6 ((seg_off _ b 9 6 3 (by decide)).trans ((seg_off _ a 14 6 3 (by decide)).trans ((seg_off _ d 19 6 3 (by decide)).trans ((seg_off _ cv 31 6 3 (by decide)).trans rfl)))) (by decide)
  exact decode_of (form29 m (by simp [decode29, h1, h2, h3, h4, h5, h6, h7]))
theorem RoundTrip.vsltu (cv : BitVec 1) (d : BitVec 3) (a : BitVec 5) (b : BitVec 5) (k : BitVec 3) : RoundTrip.Statement (.vsltu cv d a b k) := by
  have m : seg (encode (.vsltu cv d a b k)) 24 7 = 41#7 := (seg_off _ k 6 24 7 (by decide)).trans ((seg_off _ b 9 24 7 (by decide)).trans ((seg_off _ a 14 24 7 (by decide)).trans ((seg_off _ d 19 24 7 (by decide)).trans ((seg_off _ cv 31 24 7 (by decide)).trans rfl))))
  have h1 : seg (encode (.vsltu cv d a b k)) 0 6 = 3#6 := (seg_off _ k 6 0 6 (by decide)).trans ((seg_off _ b 9 0 6 (by decide)).trans ((seg_off _ a 14 0 6 (by decide)).trans ((seg_off _ d 19 0 6 (by decide)).trans ((seg_off _ cv 31 0 6 (by decide)).trans rfl))))
  have h2 : seg (encode (.vsltu cv d a b k)) 22 2 = 0#2 := (seg_off _ k 6 22 2 (by decide)).trans ((seg_off _ b 9 22 2 (by decide)).trans ((seg_off _ a 14 22 2 (by decide)).trans ((seg_off _ d 19 22 2 (by decide)).trans ((seg_off _ cv 31 22 2 (by decide)).trans rfl))))
  have h3 : seg (encode (.vsltu cv d a b k)) 31 1 = cv := (seg_off _ k 6 31 1 (by decide)).trans ((seg_off _ b 9 31 1 (by decide)).trans ((seg_off _ a 14 31 1 (by decide)).trans ((seg_off _ d 19 31 1 (by decide)).trans (seg_hit _ cv 31 rfl (by decide)))))
  have h4 : seg (encode (.vsltu cv d a b k)) 19 3 = d := (seg_off _ k 6 19 3 (by decide)).trans ((seg_off _ b 9 19 3 (by decide)).trans ((seg_off _ a 14 19 3 (by decide)).trans (seg_hit _ d 19 ((seg_off _ cv 31 19 3 (by decide)).trans rfl) (by decide))))
  have h5 : seg (encode (.vsltu cv d a b k)) 14 5 = a := (seg_off _ k 6 14 5 (by decide)).trans ((seg_off _ b 9 14 5 (by decide)).trans (seg_hit _ a 14 ((seg_off _ d 19 14 5 (by decide)).trans ((seg_off _ cv 31 14 5 (by decide)).trans rfl)) (by decide)))
  have h6 : seg (encode (.vsltu cv d a b k)) 9 5 = b := (seg_off _ k 6 9 5 (by decide)).trans (seg_hit _ b 9 ((seg_off _ a 14 9 5 (by decide)).trans ((seg_off _ d 19 9 5 (by decide)).trans ((seg_off _ cv 31 9 5 (by decide)).trans rfl))) (by decide))
  have h7 : seg (encode (.vsltu cv d a b k)) 6 3 = k := seg_hit _ k 6 ((seg_off _ b 9 6 3 (by decide)).trans ((seg_off _ a 14 6 3 (by decide)).trans ((seg_off _ d 19 6 3 (by decide)).trans ((seg_off _ cv 31 6 3 (by decide)).trans rfl)))) (by decide)
  exact decode_of (form29 m (by simp [decode29, h1, h2, h3, h4, h5, h6, h7]))
theorem RoundTrip.vsle (cv : BitVec 1) (d : BitVec 3) (a : BitVec 5) (b : BitVec 5) (k : BitVec 3) : RoundTrip.Statement (.vsle cv d a b k) := by
  have m : seg (encode (.vsle cv d a b k)) 24 7 = 41#7 := (seg_off _ k 6 24 7 (by decide)).trans ((seg_off _ b 9 24 7 (by decide)).trans ((seg_off _ a 14 24 7 (by decide)).trans ((seg_off _ d 19 24 7 (by decide)).trans ((seg_off _ cv 31 24 7 (by decide)).trans rfl))))
  have h1 : seg (encode (.vsle cv d a b k)) 0 6 = 4#6 := (seg_off _ k 6 0 6 (by decide)).trans ((seg_off _ b 9 0 6 (by decide)).trans ((seg_off _ a 14 0 6 (by decide)).trans ((seg_off _ d 19 0 6 (by decide)).trans ((seg_off _ cv 31 0 6 (by decide)).trans rfl))))
  have h2 : seg (encode (.vsle cv d a b k)) 22 2 = 0#2 := (seg_off _ k 6 22 2 (by decide)).trans ((seg_off _ b 9 22 2 (by decide)).trans ((seg_off _ a 14 22 2 (by decide)).trans ((seg_off _ d 19 22 2 (by decide)).trans ((seg_off _ cv 31 22 2 (by decide)).trans rfl))))
  have h3 : seg (encode (.vsle cv d a b k)) 31 1 = cv := (seg_off _ k 6 31 1 (by decide)).trans ((seg_off _ b 9 31 1 (by decide)).trans ((seg_off _ a 14 31 1 (by decide)).trans ((seg_off _ d 19 31 1 (by decide)).trans (seg_hit _ cv 31 rfl (by decide)))))
  have h4 : seg (encode (.vsle cv d a b k)) 19 3 = d := (seg_off _ k 6 19 3 (by decide)).trans ((seg_off _ b 9 19 3 (by decide)).trans ((seg_off _ a 14 19 3 (by decide)).trans (seg_hit _ d 19 ((seg_off _ cv 31 19 3 (by decide)).trans rfl) (by decide))))
  have h5 : seg (encode (.vsle cv d a b k)) 14 5 = a := (seg_off _ k 6 14 5 (by decide)).trans ((seg_off _ b 9 14 5 (by decide)).trans (seg_hit _ a 14 ((seg_off _ d 19 14 5 (by decide)).trans ((seg_off _ cv 31 14 5 (by decide)).trans rfl)) (by decide)))
  have h6 : seg (encode (.vsle cv d a b k)) 9 5 = b := (seg_off _ k 6 9 5 (by decide)).trans (seg_hit _ b 9 ((seg_off _ a 14 9 5 (by decide)).trans ((seg_off _ d 19 9 5 (by decide)).trans ((seg_off _ cv 31 9 5 (by decide)).trans rfl))) (by decide))
  have h7 : seg (encode (.vsle cv d a b k)) 6 3 = k := seg_hit _ k 6 ((seg_off _ b 9 6 3 (by decide)).trans ((seg_off _ a 14 6 3 (by decide)).trans ((seg_off _ d 19 6 3 (by decide)).trans ((seg_off _ cv 31 6 3 (by decide)).trans rfl)))) (by decide)
  exact decode_of (form29 m (by simp [decode29, h1, h2, h3, h4, h5, h6, h7]))
theorem RoundTrip.vsleu (cv : BitVec 1) (d : BitVec 3) (a : BitVec 5) (b : BitVec 5) (k : BitVec 3) : RoundTrip.Statement (.vsleu cv d a b k) := by
  have m : seg (encode (.vsleu cv d a b k)) 24 7 = 41#7 := (seg_off _ k 6 24 7 (by decide)).trans ((seg_off _ b 9 24 7 (by decide)).trans ((seg_off _ a 14 24 7 (by decide)).trans ((seg_off _ d 19 24 7 (by decide)).trans ((seg_off _ cv 31 24 7 (by decide)).trans rfl))))
  have h1 : seg (encode (.vsleu cv d a b k)) 0 6 = 5#6 := (seg_off _ k 6 0 6 (by decide)).trans ((seg_off _ b 9 0 6 (by decide)).trans ((seg_off _ a 14 0 6 (by decide)).trans ((seg_off _ d 19 0 6 (by decide)).trans ((seg_off _ cv 31 0 6 (by decide)).trans rfl))))
  have h2 : seg (encode (.vsleu cv d a b k)) 22 2 = 0#2 := (seg_off _ k 6 22 2 (by decide)).trans ((seg_off _ b 9 22 2 (by decide)).trans ((seg_off _ a 14 22 2 (by decide)).trans ((seg_off _ d 19 22 2 (by decide)).trans ((seg_off _ cv 31 22 2 (by decide)).trans rfl))))
  have h3 : seg (encode (.vsleu cv d a b k)) 31 1 = cv := (seg_off _ k 6 31 1 (by decide)).trans ((seg_off _ b 9 31 1 (by decide)).trans ((seg_off _ a 14 31 1 (by decide)).trans ((seg_off _ d 19 31 1 (by decide)).trans (seg_hit _ cv 31 rfl (by decide)))))
  have h4 : seg (encode (.vsleu cv d a b k)) 19 3 = d := (seg_off _ k 6 19 3 (by decide)).trans ((seg_off _ b 9 19 3 (by decide)).trans ((seg_off _ a 14 19 3 (by decide)).trans (seg_hit _ d 19 ((seg_off _ cv 31 19 3 (by decide)).trans rfl) (by decide))))
  have h5 : seg (encode (.vsleu cv d a b k)) 14 5 = a := (seg_off _ k 6 14 5 (by decide)).trans ((seg_off _ b 9 14 5 (by decide)).trans (seg_hit _ a 14 ((seg_off _ d 19 14 5 (by decide)).trans ((seg_off _ cv 31 14 5 (by decide)).trans rfl)) (by decide)))
  have h6 : seg (encode (.vsleu cv d a b k)) 9 5 = b := (seg_off _ k 6 9 5 (by decide)).trans (seg_hit _ b 9 ((seg_off _ a 14 9 5 (by decide)).trans ((seg_off _ d 19 9 5 (by decide)).trans ((seg_off _ cv 31 9 5 (by decide)).trans rfl))) (by decide))
  have h7 : seg (encode (.vsleu cv d a b k)) 6 3 = k := seg_hit _ k 6 ((seg_off _ b 9 6 3 (by decide)).trans ((seg_off _ a 14 6 3 (by decide)).trans ((seg_off _ d 19 6 3 (by decide)).trans ((seg_off _ cv 31 6 3 (by decide)).trans rfl)))) (by decide)
  exact decode_of (form29 m (by simp [decode29, h1, h2, h3, h4, h5, h6, h7]))
theorem RoundTrip.vfeq (cv : BitVec 1) (d : BitVec 3) (a : BitVec 5) (b : BitVec 5) (k : BitVec 3) : RoundTrip.Statement (.vfeq cv d a b k) := by
  have m : seg (encode (.vfeq cv d a b k)) 24 7 = 41#7 := (seg_off _ k 6 24 7 (by decide)).trans ((seg_off _ b 9 24 7 (by decide)).trans ((seg_off _ a 14 24 7 (by decide)).trans ((seg_off _ d 19 24 7 (by decide)).trans ((seg_off _ cv 31 24 7 (by decide)).trans rfl))))
  have h1 : seg (encode (.vfeq cv d a b k)) 0 6 = 8#6 := (seg_off _ k 6 0 6 (by decide)).trans ((seg_off _ b 9 0 6 (by decide)).trans ((seg_off _ a 14 0 6 (by decide)).trans ((seg_off _ d 19 0 6 (by decide)).trans ((seg_off _ cv 31 0 6 (by decide)).trans rfl))))
  have h2 : seg (encode (.vfeq cv d a b k)) 22 2 = 0#2 := (seg_off _ k 6 22 2 (by decide)).trans ((seg_off _ b 9 22 2 (by decide)).trans ((seg_off _ a 14 22 2 (by decide)).trans ((seg_off _ d 19 22 2 (by decide)).trans ((seg_off _ cv 31 22 2 (by decide)).trans rfl))))
  have h3 : seg (encode (.vfeq cv d a b k)) 31 1 = cv := (seg_off _ k 6 31 1 (by decide)).trans ((seg_off _ b 9 31 1 (by decide)).trans ((seg_off _ a 14 31 1 (by decide)).trans ((seg_off _ d 19 31 1 (by decide)).trans (seg_hit _ cv 31 rfl (by decide)))))
  have h4 : seg (encode (.vfeq cv d a b k)) 19 3 = d := (seg_off _ k 6 19 3 (by decide)).trans ((seg_off _ b 9 19 3 (by decide)).trans ((seg_off _ a 14 19 3 (by decide)).trans (seg_hit _ d 19 ((seg_off _ cv 31 19 3 (by decide)).trans rfl) (by decide))))
  have h5 : seg (encode (.vfeq cv d a b k)) 14 5 = a := (seg_off _ k 6 14 5 (by decide)).trans ((seg_off _ b 9 14 5 (by decide)).trans (seg_hit _ a 14 ((seg_off _ d 19 14 5 (by decide)).trans ((seg_off _ cv 31 14 5 (by decide)).trans rfl)) (by decide)))
  have h6 : seg (encode (.vfeq cv d a b k)) 9 5 = b := (seg_off _ k 6 9 5 (by decide)).trans (seg_hit _ b 9 ((seg_off _ a 14 9 5 (by decide)).trans ((seg_off _ d 19 9 5 (by decide)).trans ((seg_off _ cv 31 9 5 (by decide)).trans rfl))) (by decide))
  have h7 : seg (encode (.vfeq cv d a b k)) 6 3 = k := seg_hit _ k 6 ((seg_off _ b 9 6 3 (by decide)).trans ((seg_off _ a 14 6 3 (by decide)).trans ((seg_off _ d 19 6 3 (by decide)).trans ((seg_off _ cv 31 6 3 (by decide)).trans rfl)))) (by decide)
  exact decode_of (form29 m (by simp [decode29, h1, h2, h3, h4, h5, h6, h7]))
theorem RoundTrip.vfne (cv : BitVec 1) (d : BitVec 3) (a : BitVec 5) (b : BitVec 5) (k : BitVec 3) : RoundTrip.Statement (.vfne cv d a b k) := by
  have m : seg (encode (.vfne cv d a b k)) 24 7 = 41#7 := (seg_off _ k 6 24 7 (by decide)).trans ((seg_off _ b 9 24 7 (by decide)).trans ((seg_off _ a 14 24 7 (by decide)).trans ((seg_off _ d 19 24 7 (by decide)).trans ((seg_off _ cv 31 24 7 (by decide)).trans rfl))))
  have h1 : seg (encode (.vfne cv d a b k)) 0 6 = 9#6 := (seg_off _ k 6 0 6 (by decide)).trans ((seg_off _ b 9 0 6 (by decide)).trans ((seg_off _ a 14 0 6 (by decide)).trans ((seg_off _ d 19 0 6 (by decide)).trans ((seg_off _ cv 31 0 6 (by decide)).trans rfl))))
  have h2 : seg (encode (.vfne cv d a b k)) 22 2 = 0#2 := (seg_off _ k 6 22 2 (by decide)).trans ((seg_off _ b 9 22 2 (by decide)).trans ((seg_off _ a 14 22 2 (by decide)).trans ((seg_off _ d 19 22 2 (by decide)).trans ((seg_off _ cv 31 22 2 (by decide)).trans rfl))))
  have h3 : seg (encode (.vfne cv d a b k)) 31 1 = cv := (seg_off _ k 6 31 1 (by decide)).trans ((seg_off _ b 9 31 1 (by decide)).trans ((seg_off _ a 14 31 1 (by decide)).trans ((seg_off _ d 19 31 1 (by decide)).trans (seg_hit _ cv 31 rfl (by decide)))))
  have h4 : seg (encode (.vfne cv d a b k)) 19 3 = d := (seg_off _ k 6 19 3 (by decide)).trans ((seg_off _ b 9 19 3 (by decide)).trans ((seg_off _ a 14 19 3 (by decide)).trans (seg_hit _ d 19 ((seg_off _ cv 31 19 3 (by decide)).trans rfl) (by decide))))
  have h5 : seg (encode (.vfne cv d a b k)) 14 5 = a := (seg_off _ k 6 14 5 (by decide)).trans ((seg_off _ b 9 14 5 (by decide)).trans (seg_hit _ a 14 ((seg_off _ d 19 14 5 (by decide)).trans ((seg_off _ cv 31 14 5 (by decide)).trans rfl)) (by decide)))
  have h6 : seg (encode (.vfne cv d a b k)) 9 5 = b := (seg_off _ k 6 9 5 (by decide)).trans (seg_hit _ b 9 ((seg_off _ a 14 9 5 (by decide)).trans ((seg_off _ d 19 9 5 (by decide)).trans ((seg_off _ cv 31 9 5 (by decide)).trans rfl))) (by decide))
  have h7 : seg (encode (.vfne cv d a b k)) 6 3 = k := seg_hit _ k 6 ((seg_off _ b 9 6 3 (by decide)).trans ((seg_off _ a 14 6 3 (by decide)).trans ((seg_off _ d 19 6 3 (by decide)).trans ((seg_off _ cv 31 6 3 (by decide)).trans rfl)))) (by decide)
  exact decode_of (form29 m (by simp [decode29, h1, h2, h3, h4, h5, h6, h7]))
theorem RoundTrip.vflt (cv : BitVec 1) (d : BitVec 3) (a : BitVec 5) (b : BitVec 5) (k : BitVec 3) : RoundTrip.Statement (.vflt cv d a b k) := by
  have m : seg (encode (.vflt cv d a b k)) 24 7 = 41#7 := (seg_off _ k 6 24 7 (by decide)).trans ((seg_off _ b 9 24 7 (by decide)).trans ((seg_off _ a 14 24 7 (by decide)).trans ((seg_off _ d 19 24 7 (by decide)).trans ((seg_off _ cv 31 24 7 (by decide)).trans rfl))))
  have h1 : seg (encode (.vflt cv d a b k)) 0 6 = 10#6 := (seg_off _ k 6 0 6 (by decide)).trans ((seg_off _ b 9 0 6 (by decide)).trans ((seg_off _ a 14 0 6 (by decide)).trans ((seg_off _ d 19 0 6 (by decide)).trans ((seg_off _ cv 31 0 6 (by decide)).trans rfl))))
  have h2 : seg (encode (.vflt cv d a b k)) 22 2 = 0#2 := (seg_off _ k 6 22 2 (by decide)).trans ((seg_off _ b 9 22 2 (by decide)).trans ((seg_off _ a 14 22 2 (by decide)).trans ((seg_off _ d 19 22 2 (by decide)).trans ((seg_off _ cv 31 22 2 (by decide)).trans rfl))))
  have h3 : seg (encode (.vflt cv d a b k)) 31 1 = cv := (seg_off _ k 6 31 1 (by decide)).trans ((seg_off _ b 9 31 1 (by decide)).trans ((seg_off _ a 14 31 1 (by decide)).trans ((seg_off _ d 19 31 1 (by decide)).trans (seg_hit _ cv 31 rfl (by decide)))))
  have h4 : seg (encode (.vflt cv d a b k)) 19 3 = d := (seg_off _ k 6 19 3 (by decide)).trans ((seg_off _ b 9 19 3 (by decide)).trans ((seg_off _ a 14 19 3 (by decide)).trans (seg_hit _ d 19 ((seg_off _ cv 31 19 3 (by decide)).trans rfl) (by decide))))
  have h5 : seg (encode (.vflt cv d a b k)) 14 5 = a := (seg_off _ k 6 14 5 (by decide)).trans ((seg_off _ b 9 14 5 (by decide)).trans (seg_hit _ a 14 ((seg_off _ d 19 14 5 (by decide)).trans ((seg_off _ cv 31 14 5 (by decide)).trans rfl)) (by decide)))
  have h6 : seg (encode (.vflt cv d a b k)) 9 5 = b := (seg_off _ k 6 9 5 (by decide)).trans (seg_hit _ b 9 ((seg_off _ a 14 9 5 (by decide)).trans ((seg_off _ d 19 9 5 (by decide)).trans ((seg_off _ cv 31 9 5 (by decide)).trans rfl))) (by decide))
  have h7 : seg (encode (.vflt cv d a b k)) 6 3 = k := seg_hit _ k 6 ((seg_off _ b 9 6 3 (by decide)).trans ((seg_off _ a 14 6 3 (by decide)).trans ((seg_off _ d 19 6 3 (by decide)).trans ((seg_off _ cv 31 6 3 (by decide)).trans rfl)))) (by decide)
  exact decode_of (form29 m (by simp [decode29, h1, h2, h3, h4, h5, h6, h7]))
theorem RoundTrip.vfle (cv : BitVec 1) (d : BitVec 3) (a : BitVec 5) (b : BitVec 5) (k : BitVec 3) : RoundTrip.Statement (.vfle cv d a b k) := by
  have m : seg (encode (.vfle cv d a b k)) 24 7 = 41#7 := (seg_off _ k 6 24 7 (by decide)).trans ((seg_off _ b 9 24 7 (by decide)).trans ((seg_off _ a 14 24 7 (by decide)).trans ((seg_off _ d 19 24 7 (by decide)).trans ((seg_off _ cv 31 24 7 (by decide)).trans rfl))))
  have h1 : seg (encode (.vfle cv d a b k)) 0 6 = 11#6 := (seg_off _ k 6 0 6 (by decide)).trans ((seg_off _ b 9 0 6 (by decide)).trans ((seg_off _ a 14 0 6 (by decide)).trans ((seg_off _ d 19 0 6 (by decide)).trans ((seg_off _ cv 31 0 6 (by decide)).trans rfl))))
  have h2 : seg (encode (.vfle cv d a b k)) 22 2 = 0#2 := (seg_off _ k 6 22 2 (by decide)).trans ((seg_off _ b 9 22 2 (by decide)).trans ((seg_off _ a 14 22 2 (by decide)).trans ((seg_off _ d 19 22 2 (by decide)).trans ((seg_off _ cv 31 22 2 (by decide)).trans rfl))))
  have h3 : seg (encode (.vfle cv d a b k)) 31 1 = cv := (seg_off _ k 6 31 1 (by decide)).trans ((seg_off _ b 9 31 1 (by decide)).trans ((seg_off _ a 14 31 1 (by decide)).trans ((seg_off _ d 19 31 1 (by decide)).trans (seg_hit _ cv 31 rfl (by decide)))))
  have h4 : seg (encode (.vfle cv d a b k)) 19 3 = d := (seg_off _ k 6 19 3 (by decide)).trans ((seg_off _ b 9 19 3 (by decide)).trans ((seg_off _ a 14 19 3 (by decide)).trans (seg_hit _ d 19 ((seg_off _ cv 31 19 3 (by decide)).trans rfl) (by decide))))
  have h5 : seg (encode (.vfle cv d a b k)) 14 5 = a := (seg_off _ k 6 14 5 (by decide)).trans ((seg_off _ b 9 14 5 (by decide)).trans (seg_hit _ a 14 ((seg_off _ d 19 14 5 (by decide)).trans ((seg_off _ cv 31 14 5 (by decide)).trans rfl)) (by decide)))
  have h6 : seg (encode (.vfle cv d a b k)) 9 5 = b := (seg_off _ k 6 9 5 (by decide)).trans (seg_hit _ b 9 ((seg_off _ a 14 9 5 (by decide)).trans ((seg_off _ d 19 9 5 (by decide)).trans ((seg_off _ cv 31 9 5 (by decide)).trans rfl))) (by decide))
  have h7 : seg (encode (.vfle cv d a b k)) 6 3 = k := seg_hit _ k 6 ((seg_off _ b 9 6 3 (by decide)).trans ((seg_off _ a 14 6 3 (by decide)).trans ((seg_off _ d 19 6 3 (by decide)).trans ((seg_off _ cv 31 6 3 (by decide)).trans rfl)))) (by decide)
  exact decode_of (form29 m (by simp [decode29, h1, h2, h3, h4, h5, h6, h7]))
theorem RoundTrip.vford (cv : BitVec 1) (d : BitVec 3) (a : BitVec 5) (b : BitVec 5) (k : BitVec 3) : RoundTrip.Statement (.vford cv d a b k) := by
  have m : seg (encode (.vford cv d a b k)) 24 7 = 41#7 := (seg_off _ k 6 24 7 (by decide)).trans ((seg_off _ b 9 24 7 (by decide)).trans ((seg_off _ a 14 24 7 (by decide)).trans ((seg_off _ d 19 24 7 (by decide)).trans ((seg_off _ cv 31 24 7 (by decide)).trans rfl))))
  have h1 : seg (encode (.vford cv d a b k)) 0 6 = 12#6 := (seg_off _ k 6 0 6 (by decide)).trans ((seg_off _ b 9 0 6 (by decide)).trans ((seg_off _ a 14 0 6 (by decide)).trans ((seg_off _ d 19 0 6 (by decide)).trans ((seg_off _ cv 31 0 6 (by decide)).trans rfl))))
  have h2 : seg (encode (.vford cv d a b k)) 22 2 = 0#2 := (seg_off _ k 6 22 2 (by decide)).trans ((seg_off _ b 9 22 2 (by decide)).trans ((seg_off _ a 14 22 2 (by decide)).trans ((seg_off _ d 19 22 2 (by decide)).trans ((seg_off _ cv 31 22 2 (by decide)).trans rfl))))
  have h3 : seg (encode (.vford cv d a b k)) 31 1 = cv := (seg_off _ k 6 31 1 (by decide)).trans ((seg_off _ b 9 31 1 (by decide)).trans ((seg_off _ a 14 31 1 (by decide)).trans ((seg_off _ d 19 31 1 (by decide)).trans (seg_hit _ cv 31 rfl (by decide)))))
  have h4 : seg (encode (.vford cv d a b k)) 19 3 = d := (seg_off _ k 6 19 3 (by decide)).trans ((seg_off _ b 9 19 3 (by decide)).trans ((seg_off _ a 14 19 3 (by decide)).trans (seg_hit _ d 19 ((seg_off _ cv 31 19 3 (by decide)).trans rfl) (by decide))))
  have h5 : seg (encode (.vford cv d a b k)) 14 5 = a := (seg_off _ k 6 14 5 (by decide)).trans ((seg_off _ b 9 14 5 (by decide)).trans (seg_hit _ a 14 ((seg_off _ d 19 14 5 (by decide)).trans ((seg_off _ cv 31 14 5 (by decide)).trans rfl)) (by decide)))
  have h6 : seg (encode (.vford cv d a b k)) 9 5 = b := (seg_off _ k 6 9 5 (by decide)).trans (seg_hit _ b 9 ((seg_off _ a 14 9 5 (by decide)).trans ((seg_off _ d 19 9 5 (by decide)).trans ((seg_off _ cv 31 9 5 (by decide)).trans rfl))) (by decide))
  have h7 : seg (encode (.vford cv d a b k)) 6 3 = k := seg_hit _ k 6 ((seg_off _ b 9 6 3 (by decide)).trans ((seg_off _ a 14 6 3 (by decide)).trans ((seg_off _ d 19 6 3 (by decide)).trans ((seg_off _ cv 31 6 3 (by decide)).trans rfl)))) (by decide)
  exact decode_of (form29 m (by simp [decode29, h1, h2, h3, h4, h5, h6, h7]))
theorem RoundTrip.kand (cv : BitVec 1) (d : BitVec 3) (a : BitVec 3) (b : BitVec 3) : RoundTrip.Statement (.kand cv d a b) := by
  have m : seg (encode (.kand cv d a b)) 24 7 = 42#7 := (seg_off _ b 9 24 7 (by decide)).trans ((seg_off _ a 14 24 7 (by decide)).trans ((seg_off _ d 19 24 7 (by decide)).trans ((seg_off _ cv 31 24 7 (by decide)).trans rfl)))
  have h1 : seg (encode (.kand cv d a b)) 0 9 = 0#9 := (seg_off _ b 9 0 9 (by decide)).trans ((seg_off _ a 14 0 9 (by decide)).trans ((seg_off _ d 19 0 9 (by decide)).trans ((seg_off _ cv 31 0 9 (by decide)).trans rfl)))
  have h2 : seg (encode (.kand cv d a b)) 12 2 = 0#2 := (seg_off _ b 9 12 2 (by decide)).trans ((seg_off _ a 14 12 2 (by decide)).trans ((seg_off _ d 19 12 2 (by decide)).trans ((seg_off _ cv 31 12 2 (by decide)).trans rfl)))
  have h3 : seg (encode (.kand cv d a b)) 17 2 = 0#2 := (seg_off _ b 9 17 2 (by decide)).trans ((seg_off _ a 14 17 2 (by decide)).trans ((seg_off _ d 19 17 2 (by decide)).trans ((seg_off _ cv 31 17 2 (by decide)).trans rfl)))
  have h4 : seg (encode (.kand cv d a b)) 22 2 = 0#2 := (seg_off _ b 9 22 2 (by decide)).trans ((seg_off _ a 14 22 2 (by decide)).trans ((seg_off _ d 19 22 2 (by decide)).trans ((seg_off _ cv 31 22 2 (by decide)).trans rfl)))
  have h5 : seg (encode (.kand cv d a b)) 31 1 = cv := (seg_off _ b 9 31 1 (by decide)).trans ((seg_off _ a 14 31 1 (by decide)).trans ((seg_off _ d 19 31 1 (by decide)).trans (seg_hit _ cv 31 rfl (by decide))))
  have h6 : seg (encode (.kand cv d a b)) 19 3 = d := (seg_off _ b 9 19 3 (by decide)).trans ((seg_off _ a 14 19 3 (by decide)).trans (seg_hit _ d 19 ((seg_off _ cv 31 19 3 (by decide)).trans rfl) (by decide)))
  have h7 : seg (encode (.kand cv d a b)) 14 3 = a := (seg_off _ b 9 14 3 (by decide)).trans (seg_hit _ a 14 ((seg_off _ d 19 14 3 (by decide)).trans ((seg_off _ cv 31 14 3 (by decide)).trans rfl)) (by decide))
  have h8 : seg (encode (.kand cv d a b)) 9 3 = b := seg_hit _ b 9 ((seg_off _ a 14 9 3 (by decide)).trans ((seg_off _ d 19 9 3 (by decide)).trans ((seg_off _ cv 31 9 3 (by decide)).trans rfl))) (by decide)
  exact decode_of (form2A m (by simp [decode2A, h1, h2, h3, h4, h5, h6, h7, h8]))
theorem RoundTrip.kor (cv : BitVec 1) (d : BitVec 3) (a : BitVec 3) (b : BitVec 3) : RoundTrip.Statement (.kor cv d a b) := by
  have m : seg (encode (.kor cv d a b)) 24 7 = 42#7 := (seg_off _ b 9 24 7 (by decide)).trans ((seg_off _ a 14 24 7 (by decide)).trans ((seg_off _ d 19 24 7 (by decide)).trans ((seg_off _ cv 31 24 7 (by decide)).trans rfl)))
  have h1 : seg (encode (.kor cv d a b)) 0 9 = 1#9 := (seg_off _ b 9 0 9 (by decide)).trans ((seg_off _ a 14 0 9 (by decide)).trans ((seg_off _ d 19 0 9 (by decide)).trans ((seg_off _ cv 31 0 9 (by decide)).trans rfl)))
  have h2 : seg (encode (.kor cv d a b)) 12 2 = 0#2 := (seg_off _ b 9 12 2 (by decide)).trans ((seg_off _ a 14 12 2 (by decide)).trans ((seg_off _ d 19 12 2 (by decide)).trans ((seg_off _ cv 31 12 2 (by decide)).trans rfl)))
  have h3 : seg (encode (.kor cv d a b)) 17 2 = 0#2 := (seg_off _ b 9 17 2 (by decide)).trans ((seg_off _ a 14 17 2 (by decide)).trans ((seg_off _ d 19 17 2 (by decide)).trans ((seg_off _ cv 31 17 2 (by decide)).trans rfl)))
  have h4 : seg (encode (.kor cv d a b)) 22 2 = 0#2 := (seg_off _ b 9 22 2 (by decide)).trans ((seg_off _ a 14 22 2 (by decide)).trans ((seg_off _ d 19 22 2 (by decide)).trans ((seg_off _ cv 31 22 2 (by decide)).trans rfl)))
  have h5 : seg (encode (.kor cv d a b)) 31 1 = cv := (seg_off _ b 9 31 1 (by decide)).trans ((seg_off _ a 14 31 1 (by decide)).trans ((seg_off _ d 19 31 1 (by decide)).trans (seg_hit _ cv 31 rfl (by decide))))
  have h6 : seg (encode (.kor cv d a b)) 19 3 = d := (seg_off _ b 9 19 3 (by decide)).trans ((seg_off _ a 14 19 3 (by decide)).trans (seg_hit _ d 19 ((seg_off _ cv 31 19 3 (by decide)).trans rfl) (by decide)))
  have h7 : seg (encode (.kor cv d a b)) 14 3 = a := (seg_off _ b 9 14 3 (by decide)).trans (seg_hit _ a 14 ((seg_off _ d 19 14 3 (by decide)).trans ((seg_off _ cv 31 14 3 (by decide)).trans rfl)) (by decide))
  have h8 : seg (encode (.kor cv d a b)) 9 3 = b := seg_hit _ b 9 ((seg_off _ a 14 9 3 (by decide)).trans ((seg_off _ d 19 9 3 (by decide)).trans ((seg_off _ cv 31 9 3 (by decide)).trans rfl))) (by decide)
  exact decode_of (form2A m (by simp [decode2A, h1, h2, h3, h4, h5, h6, h7, h8]))
theorem RoundTrip.kxor (cv : BitVec 1) (d : BitVec 3) (a : BitVec 3) (b : BitVec 3) : RoundTrip.Statement (.kxor cv d a b) := by
  have m : seg (encode (.kxor cv d a b)) 24 7 = 42#7 := (seg_off _ b 9 24 7 (by decide)).trans ((seg_off _ a 14 24 7 (by decide)).trans ((seg_off _ d 19 24 7 (by decide)).trans ((seg_off _ cv 31 24 7 (by decide)).trans rfl)))
  have h1 : seg (encode (.kxor cv d a b)) 0 9 = 2#9 := (seg_off _ b 9 0 9 (by decide)).trans ((seg_off _ a 14 0 9 (by decide)).trans ((seg_off _ d 19 0 9 (by decide)).trans ((seg_off _ cv 31 0 9 (by decide)).trans rfl)))
  have h2 : seg (encode (.kxor cv d a b)) 12 2 = 0#2 := (seg_off _ b 9 12 2 (by decide)).trans ((seg_off _ a 14 12 2 (by decide)).trans ((seg_off _ d 19 12 2 (by decide)).trans ((seg_off _ cv 31 12 2 (by decide)).trans rfl)))
  have h3 : seg (encode (.kxor cv d a b)) 17 2 = 0#2 := (seg_off _ b 9 17 2 (by decide)).trans ((seg_off _ a 14 17 2 (by decide)).trans ((seg_off _ d 19 17 2 (by decide)).trans ((seg_off _ cv 31 17 2 (by decide)).trans rfl)))
  have h4 : seg (encode (.kxor cv d a b)) 22 2 = 0#2 := (seg_off _ b 9 22 2 (by decide)).trans ((seg_off _ a 14 22 2 (by decide)).trans ((seg_off _ d 19 22 2 (by decide)).trans ((seg_off _ cv 31 22 2 (by decide)).trans rfl)))
  have h5 : seg (encode (.kxor cv d a b)) 31 1 = cv := (seg_off _ b 9 31 1 (by decide)).trans ((seg_off _ a 14 31 1 (by decide)).trans ((seg_off _ d 19 31 1 (by decide)).trans (seg_hit _ cv 31 rfl (by decide))))
  have h6 : seg (encode (.kxor cv d a b)) 19 3 = d := (seg_off _ b 9 19 3 (by decide)).trans ((seg_off _ a 14 19 3 (by decide)).trans (seg_hit _ d 19 ((seg_off _ cv 31 19 3 (by decide)).trans rfl) (by decide)))
  have h7 : seg (encode (.kxor cv d a b)) 14 3 = a := (seg_off _ b 9 14 3 (by decide)).trans (seg_hit _ a 14 ((seg_off _ d 19 14 3 (by decide)).trans ((seg_off _ cv 31 14 3 (by decide)).trans rfl)) (by decide))
  have h8 : seg (encode (.kxor cv d a b)) 9 3 = b := seg_hit _ b 9 ((seg_off _ a 14 9 3 (by decide)).trans ((seg_off _ d 19 9 3 (by decide)).trans ((seg_off _ cv 31 9 3 (by decide)).trans rfl))) (by decide)
  exact decode_of (form2A m (by simp [decode2A, h1, h2, h3, h4, h5, h6, h7, h8]))
theorem RoundTrip.kandn (cv : BitVec 1) (d : BitVec 3) (a : BitVec 3) (b : BitVec 3) : RoundTrip.Statement (.kandn cv d a b) := by
  have m : seg (encode (.kandn cv d a b)) 24 7 = 42#7 := (seg_off _ b 9 24 7 (by decide)).trans ((seg_off _ a 14 24 7 (by decide)).trans ((seg_off _ d 19 24 7 (by decide)).trans ((seg_off _ cv 31 24 7 (by decide)).trans rfl)))
  have h1 : seg (encode (.kandn cv d a b)) 0 9 = 3#9 := (seg_off _ b 9 0 9 (by decide)).trans ((seg_off _ a 14 0 9 (by decide)).trans ((seg_off _ d 19 0 9 (by decide)).trans ((seg_off _ cv 31 0 9 (by decide)).trans rfl)))
  have h2 : seg (encode (.kandn cv d a b)) 12 2 = 0#2 := (seg_off _ b 9 12 2 (by decide)).trans ((seg_off _ a 14 12 2 (by decide)).trans ((seg_off _ d 19 12 2 (by decide)).trans ((seg_off _ cv 31 12 2 (by decide)).trans rfl)))
  have h3 : seg (encode (.kandn cv d a b)) 17 2 = 0#2 := (seg_off _ b 9 17 2 (by decide)).trans ((seg_off _ a 14 17 2 (by decide)).trans ((seg_off _ d 19 17 2 (by decide)).trans ((seg_off _ cv 31 17 2 (by decide)).trans rfl)))
  have h4 : seg (encode (.kandn cv d a b)) 22 2 = 0#2 := (seg_off _ b 9 22 2 (by decide)).trans ((seg_off _ a 14 22 2 (by decide)).trans ((seg_off _ d 19 22 2 (by decide)).trans ((seg_off _ cv 31 22 2 (by decide)).trans rfl)))
  have h5 : seg (encode (.kandn cv d a b)) 31 1 = cv := (seg_off _ b 9 31 1 (by decide)).trans ((seg_off _ a 14 31 1 (by decide)).trans ((seg_off _ d 19 31 1 (by decide)).trans (seg_hit _ cv 31 rfl (by decide))))
  have h6 : seg (encode (.kandn cv d a b)) 19 3 = d := (seg_off _ b 9 19 3 (by decide)).trans ((seg_off _ a 14 19 3 (by decide)).trans (seg_hit _ d 19 ((seg_off _ cv 31 19 3 (by decide)).trans rfl) (by decide)))
  have h7 : seg (encode (.kandn cv d a b)) 14 3 = a := (seg_off _ b 9 14 3 (by decide)).trans (seg_hit _ a 14 ((seg_off _ d 19 14 3 (by decide)).trans ((seg_off _ cv 31 14 3 (by decide)).trans rfl)) (by decide))
  have h8 : seg (encode (.kandn cv d a b)) 9 3 = b := seg_hit _ b 9 ((seg_off _ a 14 9 3 (by decide)).trans ((seg_off _ d 19 9 3 (by decide)).trans ((seg_off _ cv 31 9 3 (by decide)).trans rfl))) (by decide)
  exact decode_of (form2A m (by simp [decode2A, h1, h2, h3, h4, h5, h6, h7, h8]))
theorem RoundTrip.korn (cv : BitVec 1) (d : BitVec 3) (a : BitVec 3) (b : BitVec 3) : RoundTrip.Statement (.korn cv d a b) := by
  have m : seg (encode (.korn cv d a b)) 24 7 = 42#7 := (seg_off _ b 9 24 7 (by decide)).trans ((seg_off _ a 14 24 7 (by decide)).trans ((seg_off _ d 19 24 7 (by decide)).trans ((seg_off _ cv 31 24 7 (by decide)).trans rfl)))
  have h1 : seg (encode (.korn cv d a b)) 0 9 = 4#9 := (seg_off _ b 9 0 9 (by decide)).trans ((seg_off _ a 14 0 9 (by decide)).trans ((seg_off _ d 19 0 9 (by decide)).trans ((seg_off _ cv 31 0 9 (by decide)).trans rfl)))
  have h2 : seg (encode (.korn cv d a b)) 12 2 = 0#2 := (seg_off _ b 9 12 2 (by decide)).trans ((seg_off _ a 14 12 2 (by decide)).trans ((seg_off _ d 19 12 2 (by decide)).trans ((seg_off _ cv 31 12 2 (by decide)).trans rfl)))
  have h3 : seg (encode (.korn cv d a b)) 17 2 = 0#2 := (seg_off _ b 9 17 2 (by decide)).trans ((seg_off _ a 14 17 2 (by decide)).trans ((seg_off _ d 19 17 2 (by decide)).trans ((seg_off _ cv 31 17 2 (by decide)).trans rfl)))
  have h4 : seg (encode (.korn cv d a b)) 22 2 = 0#2 := (seg_off _ b 9 22 2 (by decide)).trans ((seg_off _ a 14 22 2 (by decide)).trans ((seg_off _ d 19 22 2 (by decide)).trans ((seg_off _ cv 31 22 2 (by decide)).trans rfl)))
  have h5 : seg (encode (.korn cv d a b)) 31 1 = cv := (seg_off _ b 9 31 1 (by decide)).trans ((seg_off _ a 14 31 1 (by decide)).trans ((seg_off _ d 19 31 1 (by decide)).trans (seg_hit _ cv 31 rfl (by decide))))
  have h6 : seg (encode (.korn cv d a b)) 19 3 = d := (seg_off _ b 9 19 3 (by decide)).trans ((seg_off _ a 14 19 3 (by decide)).trans (seg_hit _ d 19 ((seg_off _ cv 31 19 3 (by decide)).trans rfl) (by decide)))
  have h7 : seg (encode (.korn cv d a b)) 14 3 = a := (seg_off _ b 9 14 3 (by decide)).trans (seg_hit _ a 14 ((seg_off _ d 19 14 3 (by decide)).trans ((seg_off _ cv 31 14 3 (by decide)).trans rfl)) (by decide))
  have h8 : seg (encode (.korn cv d a b)) 9 3 = b := seg_hit _ b 9 ((seg_off _ a 14 9 3 (by decide)).trans ((seg_off _ d 19 9 3 (by decide)).trans ((seg_off _ cv 31 9 3 (by decide)).trans rfl))) (by decide)
  exact decode_of (form2A m (by simp [decode2A, h1, h2, h3, h4, h5, h6, h7, h8]))
theorem RoundTrip.knot (cv : BitVec 1) (d : BitVec 3) (a : BitVec 3) : RoundTrip.Statement (.knot cv d a) := by
  have m : seg (encode (.knot cv d a)) 24 7 = 42#7 := (seg_off _ a 14 24 7 (by decide)).trans ((seg_off _ d 19 24 7 (by decide)).trans ((seg_off _ cv 31 24 7 (by decide)).trans rfl))
  have h1 : seg (encode (.knot cv d a)) 0 9 = 5#9 := (seg_off _ a 14 0 9 (by decide)).trans ((seg_off _ d 19 0 9 (by decide)).trans ((seg_off _ cv 31 0 9 (by decide)).trans rfl))
  have h2 : seg (encode (.knot cv d a)) 9 3 = 0#3 := (seg_off _ a 14 9 3 (by decide)).trans ((seg_off _ d 19 9 3 (by decide)).trans ((seg_off _ cv 31 9 3 (by decide)).trans rfl))
  have h3 : seg (encode (.knot cv d a)) 12 2 = 0#2 := (seg_off _ a 14 12 2 (by decide)).trans ((seg_off _ d 19 12 2 (by decide)).trans ((seg_off _ cv 31 12 2 (by decide)).trans rfl))
  have h4 : seg (encode (.knot cv d a)) 17 2 = 0#2 := (seg_off _ a 14 17 2 (by decide)).trans ((seg_off _ d 19 17 2 (by decide)).trans ((seg_off _ cv 31 17 2 (by decide)).trans rfl))
  have h5 : seg (encode (.knot cv d a)) 22 2 = 0#2 := (seg_off _ a 14 22 2 (by decide)).trans ((seg_off _ d 19 22 2 (by decide)).trans ((seg_off _ cv 31 22 2 (by decide)).trans rfl))
  have h6 : seg (encode (.knot cv d a)) 31 1 = cv := (seg_off _ a 14 31 1 (by decide)).trans ((seg_off _ d 19 31 1 (by decide)).trans (seg_hit _ cv 31 rfl (by decide)))
  have h7 : seg (encode (.knot cv d a)) 19 3 = d := (seg_off _ a 14 19 3 (by decide)).trans (seg_hit _ d 19 ((seg_off _ cv 31 19 3 (by decide)).trans rfl) (by decide))
  have h8 : seg (encode (.knot cv d a)) 14 3 = a := seg_hit _ a 14 ((seg_off _ d 19 14 3 (by decide)).trans ((seg_off _ cv 31 14 3 (by decide)).trans rfl)) (by decide)
  exact decode_of (form2A m (by simp [decode2A, h1, h2, h3, h4, h5, h6, h7, h8]))
theorem RoundTrip.kmov (cv : BitVec 1) (d : BitVec 3) (a : BitVec 3) : RoundTrip.Statement (.kmov cv d a) := by
  have m : seg (encode (.kmov cv d a)) 24 7 = 42#7 := (seg_off _ a 14 24 7 (by decide)).trans ((seg_off _ d 19 24 7 (by decide)).trans ((seg_off _ cv 31 24 7 (by decide)).trans rfl))
  have h1 : seg (encode (.kmov cv d a)) 0 9 = 6#9 := (seg_off _ a 14 0 9 (by decide)).trans ((seg_off _ d 19 0 9 (by decide)).trans ((seg_off _ cv 31 0 9 (by decide)).trans rfl))
  have h2 : seg (encode (.kmov cv d a)) 9 3 = 0#3 := (seg_off _ a 14 9 3 (by decide)).trans ((seg_off _ d 19 9 3 (by decide)).trans ((seg_off _ cv 31 9 3 (by decide)).trans rfl))
  have h3 : seg (encode (.kmov cv d a)) 12 2 = 0#2 := (seg_off _ a 14 12 2 (by decide)).trans ((seg_off _ d 19 12 2 (by decide)).trans ((seg_off _ cv 31 12 2 (by decide)).trans rfl))
  have h4 : seg (encode (.kmov cv d a)) 17 2 = 0#2 := (seg_off _ a 14 17 2 (by decide)).trans ((seg_off _ d 19 17 2 (by decide)).trans ((seg_off _ cv 31 17 2 (by decide)).trans rfl))
  have h5 : seg (encode (.kmov cv d a)) 22 2 = 0#2 := (seg_off _ a 14 22 2 (by decide)).trans ((seg_off _ d 19 22 2 (by decide)).trans ((seg_off _ cv 31 22 2 (by decide)).trans rfl))
  have h6 : seg (encode (.kmov cv d a)) 31 1 = cv := (seg_off _ a 14 31 1 (by decide)).trans ((seg_off _ d 19 31 1 (by decide)).trans (seg_hit _ cv 31 rfl (by decide)))
  have h7 : seg (encode (.kmov cv d a)) 19 3 = d := (seg_off _ a 14 19 3 (by decide)).trans (seg_hit _ d 19 ((seg_off _ cv 31 19 3 (by decide)).trans rfl) (by decide))
  have h8 : seg (encode (.kmov cv d a)) 14 3 = a := seg_hit _ a 14 ((seg_off _ d 19 14 3 (by decide)).trans ((seg_off _ cv 31 14 3 (by decide)).trans rfl)) (by decide)
  exact decode_of (form2A m (by simp [decode2A, h1, h2, h3, h4, h5, h6, h7, h8]))
theorem RoundTrip.kfromsmm (cv : BitVec 1) (d : BitVec 3) : RoundTrip.Statement (.kfromsmm cv d) := by
  have m : seg (encode (.kfromsmm cv d)) 24 7 = 42#7 := (seg_off _ d 19 24 7 (by decide)).trans ((seg_off _ cv 31 24 7 (by decide)).trans rfl)
  have h1 : seg (encode (.kfromsmm cv d)) 0 9 = 8#9 := (seg_off _ d 19 0 9 (by decide)).trans ((seg_off _ cv 31 0 9 (by decide)).trans rfl)
  have h2 : seg (encode (.kfromsmm cv d)) 9 3 = 0#3 := (seg_off _ d 19 9 3 (by decide)).trans ((seg_off _ cv 31 9 3 (by decide)).trans rfl)
  have h3 : seg (encode (.kfromsmm cv d)) 12 2 = 0#2 := (seg_off _ d 19 12 2 (by decide)).trans ((seg_off _ cv 31 12 2 (by decide)).trans rfl)
  have h4 : seg (encode (.kfromsmm cv d)) 14 3 = 0#3 := (seg_off _ d 19 14 3 (by decide)).trans ((seg_off _ cv 31 14 3 (by decide)).trans rfl)
  have h5 : seg (encode (.kfromsmm cv d)) 17 2 = 0#2 := (seg_off _ d 19 17 2 (by decide)).trans ((seg_off _ cv 31 17 2 (by decide)).trans rfl)
  have h6 : seg (encode (.kfromsmm cv d)) 22 2 = 0#2 := (seg_off _ d 19 22 2 (by decide)).trans ((seg_off _ cv 31 22 2 (by decide)).trans rfl)
  have h7 : seg (encode (.kfromsmm cv d)) 31 1 = cv := (seg_off _ d 19 31 1 (by decide)).trans (seg_hit _ cv 31 rfl (by decide))
  have h8 : seg (encode (.kfromsmm cv d)) 19 3 = d := seg_hit _ d 19 ((seg_off _ cv 31 19 3 (by decide)).trans rfl) (by decide)
  exact decode_of (form2A m (by simp [decode2A, h1, h2, h3, h4, h5, h6, h7, h8]))
theorem RoundTrip.ktosmm (cv : BitVec 1) (a : BitVec 3) : RoundTrip.Statement (.ktosmm cv a) := by
  have m : seg (encode (.ktosmm cv a)) 24 7 = 42#7 := (seg_off _ a 14 24 7 (by decide)).trans ((seg_off _ cv 31 24 7 (by decide)).trans rfl)
  have h1 : seg (encode (.ktosmm cv a)) 0 9 = 9#9 := (seg_off _ a 14 0 9 (by decide)).trans ((seg_off _ cv 31 0 9 (by decide)).trans rfl)
  have h2 : seg (encode (.ktosmm cv a)) 9 3 = 0#3 := (seg_off _ a 14 9 3 (by decide)).trans ((seg_off _ cv 31 9 3 (by decide)).trans rfl)
  have h3 : seg (encode (.ktosmm cv a)) 12 2 = 0#2 := (seg_off _ a 14 12 2 (by decide)).trans ((seg_off _ cv 31 12 2 (by decide)).trans rfl)
  have h4 : seg (encode (.ktosmm cv a)) 17 2 = 0#2 := (seg_off _ a 14 17 2 (by decide)).trans ((seg_off _ cv 31 17 2 (by decide)).trans rfl)
  have h5 : seg (encode (.ktosmm cv a)) 19 3 = 0#3 := (seg_off _ a 14 19 3 (by decide)).trans ((seg_off _ cv 31 19 3 (by decide)).trans rfl)
  have h6 : seg (encode (.ktosmm cv a)) 22 2 = 0#2 := (seg_off _ a 14 22 2 (by decide)).trans ((seg_off _ cv 31 22 2 (by decide)).trans rfl)
  have h7 : seg (encode (.ktosmm cv a)) 31 1 = cv := (seg_off _ a 14 31 1 (by decide)).trans (seg_hit _ cv 31 rfl (by decide))
  have h8 : seg (encode (.ktosmm cv a)) 14 3 = a := seg_hit _ a 14 ((seg_off _ cv 31 14 3 (by decide)).trans rfl) (by decide)
  exact decode_of (form2A m (by simp [decode2A, h1, h2, h3, h4, h5, h6, h7, h8]))
theorem RoundTrip.kfromv (cv : BitVec 1) (d : BitVec 3) (a : BitVec 5) : RoundTrip.Statement (.kfromv cv d a) := by
  have m : seg (encode (.kfromv cv d a)) 24 7 = 42#7 := (seg_off _ a 14 24 7 (by decide)).trans ((seg_off _ d 19 24 7 (by decide)).trans ((seg_off _ cv 31 24 7 (by decide)).trans rfl))
  have h1 : seg (encode (.kfromv cv d a)) 0 9 = 10#9 := (seg_off _ a 14 0 9 (by decide)).trans ((seg_off _ d 19 0 9 (by decide)).trans ((seg_off _ cv 31 0 9 (by decide)).trans rfl))
  have h2 : seg (encode (.kfromv cv d a)) 9 3 = 0#3 := (seg_off _ a 14 9 3 (by decide)).trans ((seg_off _ d 19 9 3 (by decide)).trans ((seg_off _ cv 31 9 3 (by decide)).trans rfl))
  have h3 : seg (encode (.kfromv cv d a)) 12 2 = 0#2 := (seg_off _ a 14 12 2 (by decide)).trans ((seg_off _ d 19 12 2 (by decide)).trans ((seg_off _ cv 31 12 2 (by decide)).trans rfl))
  have h4 : seg (encode (.kfromv cv d a)) 22 2 = 0#2 := (seg_off _ a 14 22 2 (by decide)).trans ((seg_off _ d 19 22 2 (by decide)).trans ((seg_off _ cv 31 22 2 (by decide)).trans rfl))
  have h5 : seg (encode (.kfromv cv d a)) 31 1 = cv := (seg_off _ a 14 31 1 (by decide)).trans ((seg_off _ d 19 31 1 (by decide)).trans (seg_hit _ cv 31 rfl (by decide)))
  have h6 : seg (encode (.kfromv cv d a)) 19 3 = d := (seg_off _ a 14 19 3 (by decide)).trans (seg_hit _ d 19 ((seg_off _ cv 31 19 3 (by decide)).trans rfl) (by decide))
  have h7 : seg (encode (.kfromv cv d a)) 14 5 = a := seg_hit _ a 14 ((seg_off _ d 19 14 5 (by decide)).trans ((seg_off _ cv 31 14 5 (by decide)).trans rfl)) (by decide)
  exact decode_of (form2A m (by simp [decode2A, h1, h2, h3, h4, h5, h6, h7]))
theorem RoundTrip.ktov (cv : BitVec 1) (d : BitVec 5) (a : BitVec 3) : RoundTrip.Statement (.ktov cv d a) := by
  have m : seg (encode (.ktov cv d a)) 24 7 = 42#7 := (seg_off _ a 14 24 7 (by decide)).trans ((seg_off _ d 19 24 7 (by decide)).trans ((seg_off _ cv 31 24 7 (by decide)).trans rfl))
  have h1 : seg (encode (.ktov cv d a)) 0 9 = 11#9 := (seg_off _ a 14 0 9 (by decide)).trans ((seg_off _ d 19 0 9 (by decide)).trans ((seg_off _ cv 31 0 9 (by decide)).trans rfl))
  have h2 : seg (encode (.ktov cv d a)) 9 3 = 0#3 := (seg_off _ a 14 9 3 (by decide)).trans ((seg_off _ d 19 9 3 (by decide)).trans ((seg_off _ cv 31 9 3 (by decide)).trans rfl))
  have h3 : seg (encode (.ktov cv d a)) 12 2 = 0#2 := (seg_off _ a 14 12 2 (by decide)).trans ((seg_off _ d 19 12 2 (by decide)).trans ((seg_off _ cv 31 12 2 (by decide)).trans rfl))
  have h4 : seg (encode (.ktov cv d a)) 17 2 = 0#2 := (seg_off _ a 14 17 2 (by decide)).trans ((seg_off _ d 19 17 2 (by decide)).trans ((seg_off _ cv 31 17 2 (by decide)).trans rfl))
  have h5 : seg (encode (.ktov cv d a)) 31 1 = cv := (seg_off _ a 14 31 1 (by decide)).trans ((seg_off _ d 19 31 1 (by decide)).trans (seg_hit _ cv 31 rfl (by decide)))
  have h6 : seg (encode (.ktov cv d a)) 19 5 = d := (seg_off _ a 14 19 5 (by decide)).trans (seg_hit _ d 19 ((seg_off _ cv 31 19 5 (by decide)).trans rfl) (by decide))
  have h7 : seg (encode (.ktov cv d a)) 14 3 = a := seg_hit _ a 14 ((seg_off _ d 19 14 3 (by decide)).trans ((seg_off _ cv 31 14 3 (by decide)).trans rfl)) (by decide)
  exact decode_of (form2A m (by simp [decode2A, h1, h2, h3, h4, h5, h6, h7]))
theorem RoundTrip.vredsum (cv : BitVec 1) (d : BitVec 5) (a : BitVec 5) (b : BitVec 5) (k : BitVec 3) : RoundTrip.Statement (.vredsum cv d a b k) := by
  have m : seg (encode (.vredsum cv d a b k)) 24 7 = 43#7 := (seg_off _ k 6 24 7 (by decide)).trans ((seg_off _ b 9 24 7 (by decide)).trans ((seg_off _ a 14 24 7 (by decide)).trans ((seg_off _ d 19 24 7 (by decide)).trans ((seg_off _ cv 31 24 7 (by decide)).trans rfl))))
  have h1 : seg (encode (.vredsum cv d a b k)) 0 6 = 0#6 := (seg_off _ k 6 0 6 (by decide)).trans ((seg_off _ b 9 0 6 (by decide)).trans ((seg_off _ a 14 0 6 (by decide)).trans ((seg_off _ d 19 0 6 (by decide)).trans ((seg_off _ cv 31 0 6 (by decide)).trans rfl))))
  have h2 : seg (encode (.vredsum cv d a b k)) 31 1 = cv := (seg_off _ k 6 31 1 (by decide)).trans ((seg_off _ b 9 31 1 (by decide)).trans ((seg_off _ a 14 31 1 (by decide)).trans ((seg_off _ d 19 31 1 (by decide)).trans (seg_hit _ cv 31 rfl (by decide)))))
  have h3 : seg (encode (.vredsum cv d a b k)) 19 5 = d := (seg_off _ k 6 19 5 (by decide)).trans ((seg_off _ b 9 19 5 (by decide)).trans ((seg_off _ a 14 19 5 (by decide)).trans (seg_hit _ d 19 ((seg_off _ cv 31 19 5 (by decide)).trans rfl) (by decide))))
  have h4 : seg (encode (.vredsum cv d a b k)) 14 5 = a := (seg_off _ k 6 14 5 (by decide)).trans ((seg_off _ b 9 14 5 (by decide)).trans (seg_hit _ a 14 ((seg_off _ d 19 14 5 (by decide)).trans ((seg_off _ cv 31 14 5 (by decide)).trans rfl)) (by decide)))
  have h5 : seg (encode (.vredsum cv d a b k)) 9 5 = b := (seg_off _ k 6 9 5 (by decide)).trans (seg_hit _ b 9 ((seg_off _ a 14 9 5 (by decide)).trans ((seg_off _ d 19 9 5 (by decide)).trans ((seg_off _ cv 31 9 5 (by decide)).trans rfl))) (by decide))
  have h6 : seg (encode (.vredsum cv d a b k)) 6 3 = k := seg_hit _ k 6 ((seg_off _ b 9 6 3 (by decide)).trans ((seg_off _ a 14 6 3 (by decide)).trans ((seg_off _ d 19 6 3 (by decide)).trans ((seg_off _ cv 31 6 3 (by decide)).trans rfl)))) (by decide)
  exact decode_of (form2B m (by simp [decode2B, h1, h2, h3, h4, h5, h6]))
theorem RoundTrip.vredmin (cv : BitVec 1) (d : BitVec 5) (a : BitVec 5) (b : BitVec 5) (k : BitVec 3) : RoundTrip.Statement (.vredmin cv d a b k) := by
  have m : seg (encode (.vredmin cv d a b k)) 24 7 = 43#7 := (seg_off _ k 6 24 7 (by decide)).trans ((seg_off _ b 9 24 7 (by decide)).trans ((seg_off _ a 14 24 7 (by decide)).trans ((seg_off _ d 19 24 7 (by decide)).trans ((seg_off _ cv 31 24 7 (by decide)).trans rfl))))
  have h1 : seg (encode (.vredmin cv d a b k)) 0 6 = 1#6 := (seg_off _ k 6 0 6 (by decide)).trans ((seg_off _ b 9 0 6 (by decide)).trans ((seg_off _ a 14 0 6 (by decide)).trans ((seg_off _ d 19 0 6 (by decide)).trans ((seg_off _ cv 31 0 6 (by decide)).trans rfl))))
  have h2 : seg (encode (.vredmin cv d a b k)) 31 1 = cv := (seg_off _ k 6 31 1 (by decide)).trans ((seg_off _ b 9 31 1 (by decide)).trans ((seg_off _ a 14 31 1 (by decide)).trans ((seg_off _ d 19 31 1 (by decide)).trans (seg_hit _ cv 31 rfl (by decide)))))
  have h3 : seg (encode (.vredmin cv d a b k)) 19 5 = d := (seg_off _ k 6 19 5 (by decide)).trans ((seg_off _ b 9 19 5 (by decide)).trans ((seg_off _ a 14 19 5 (by decide)).trans (seg_hit _ d 19 ((seg_off _ cv 31 19 5 (by decide)).trans rfl) (by decide))))
  have h4 : seg (encode (.vredmin cv d a b k)) 14 5 = a := (seg_off _ k 6 14 5 (by decide)).trans ((seg_off _ b 9 14 5 (by decide)).trans (seg_hit _ a 14 ((seg_off _ d 19 14 5 (by decide)).trans ((seg_off _ cv 31 14 5 (by decide)).trans rfl)) (by decide)))
  have h5 : seg (encode (.vredmin cv d a b k)) 9 5 = b := (seg_off _ k 6 9 5 (by decide)).trans (seg_hit _ b 9 ((seg_off _ a 14 9 5 (by decide)).trans ((seg_off _ d 19 9 5 (by decide)).trans ((seg_off _ cv 31 9 5 (by decide)).trans rfl))) (by decide))
  have h6 : seg (encode (.vredmin cv d a b k)) 6 3 = k := seg_hit _ k 6 ((seg_off _ b 9 6 3 (by decide)).trans ((seg_off _ a 14 6 3 (by decide)).trans ((seg_off _ d 19 6 3 (by decide)).trans ((seg_off _ cv 31 6 3 (by decide)).trans rfl)))) (by decide)
  exact decode_of (form2B m (by simp [decode2B, h1, h2, h3, h4, h5, h6]))
theorem RoundTrip.vredmax (cv : BitVec 1) (d : BitVec 5) (a : BitVec 5) (b : BitVec 5) (k : BitVec 3) : RoundTrip.Statement (.vredmax cv d a b k) := by
  have m : seg (encode (.vredmax cv d a b k)) 24 7 = 43#7 := (seg_off _ k 6 24 7 (by decide)).trans ((seg_off _ b 9 24 7 (by decide)).trans ((seg_off _ a 14 24 7 (by decide)).trans ((seg_off _ d 19 24 7 (by decide)).trans ((seg_off _ cv 31 24 7 (by decide)).trans rfl))))
  have h1 : seg (encode (.vredmax cv d a b k)) 0 6 = 2#6 := (seg_off _ k 6 0 6 (by decide)).trans ((seg_off _ b 9 0 6 (by decide)).trans ((seg_off _ a 14 0 6 (by decide)).trans ((seg_off _ d 19 0 6 (by decide)).trans ((seg_off _ cv 31 0 6 (by decide)).trans rfl))))
  have h2 : seg (encode (.vredmax cv d a b k)) 31 1 = cv := (seg_off _ k 6 31 1 (by decide)).trans ((seg_off _ b 9 31 1 (by decide)).trans ((seg_off _ a 14 31 1 (by decide)).trans ((seg_off _ d 19 31 1 (by decide)).trans (seg_hit _ cv 31 rfl (by decide)))))
  have h3 : seg (encode (.vredmax cv d a b k)) 19 5 = d := (seg_off _ k 6 19 5 (by decide)).trans ((seg_off _ b 9 19 5 (by decide)).trans ((seg_off _ a 14 19 5 (by decide)).trans (seg_hit _ d 19 ((seg_off _ cv 31 19 5 (by decide)).trans rfl) (by decide))))
  have h4 : seg (encode (.vredmax cv d a b k)) 14 5 = a := (seg_off _ k 6 14 5 (by decide)).trans ((seg_off _ b 9 14 5 (by decide)).trans (seg_hit _ a 14 ((seg_off _ d 19 14 5 (by decide)).trans ((seg_off _ cv 31 14 5 (by decide)).trans rfl)) (by decide)))
  have h5 : seg (encode (.vredmax cv d a b k)) 9 5 = b := (seg_off _ k 6 9 5 (by decide)).trans (seg_hit _ b 9 ((seg_off _ a 14 9 5 (by decide)).trans ((seg_off _ d 19 9 5 (by decide)).trans ((seg_off _ cv 31 9 5 (by decide)).trans rfl))) (by decide))
  have h6 : seg (encode (.vredmax cv d a b k)) 6 3 = k := seg_hit _ k 6 ((seg_off _ b 9 6 3 (by decide)).trans ((seg_off _ a 14 6 3 (by decide)).trans ((seg_off _ d 19 6 3 (by decide)).trans ((seg_off _ cv 31 6 3 (by decide)).trans rfl)))) (by decide)
  exact decode_of (form2B m (by simp [decode2B, h1, h2, h3, h4, h5, h6]))
theorem RoundTrip.vredminu (cv : BitVec 1) (d : BitVec 5) (a : BitVec 5) (b : BitVec 5) (k : BitVec 3) : RoundTrip.Statement (.vredminu cv d a b k) := by
  have m : seg (encode (.vredminu cv d a b k)) 24 7 = 43#7 := (seg_off _ k 6 24 7 (by decide)).trans ((seg_off _ b 9 24 7 (by decide)).trans ((seg_off _ a 14 24 7 (by decide)).trans ((seg_off _ d 19 24 7 (by decide)).trans ((seg_off _ cv 31 24 7 (by decide)).trans rfl))))
  have h1 : seg (encode (.vredminu cv d a b k)) 0 6 = 3#6 := (seg_off _ k 6 0 6 (by decide)).trans ((seg_off _ b 9 0 6 (by decide)).trans ((seg_off _ a 14 0 6 (by decide)).trans ((seg_off _ d 19 0 6 (by decide)).trans ((seg_off _ cv 31 0 6 (by decide)).trans rfl))))
  have h2 : seg (encode (.vredminu cv d a b k)) 31 1 = cv := (seg_off _ k 6 31 1 (by decide)).trans ((seg_off _ b 9 31 1 (by decide)).trans ((seg_off _ a 14 31 1 (by decide)).trans ((seg_off _ d 19 31 1 (by decide)).trans (seg_hit _ cv 31 rfl (by decide)))))
  have h3 : seg (encode (.vredminu cv d a b k)) 19 5 = d := (seg_off _ k 6 19 5 (by decide)).trans ((seg_off _ b 9 19 5 (by decide)).trans ((seg_off _ a 14 19 5 (by decide)).trans (seg_hit _ d 19 ((seg_off _ cv 31 19 5 (by decide)).trans rfl) (by decide))))
  have h4 : seg (encode (.vredminu cv d a b k)) 14 5 = a := (seg_off _ k 6 14 5 (by decide)).trans ((seg_off _ b 9 14 5 (by decide)).trans (seg_hit _ a 14 ((seg_off _ d 19 14 5 (by decide)).trans ((seg_off _ cv 31 14 5 (by decide)).trans rfl)) (by decide)))
  have h5 : seg (encode (.vredminu cv d a b k)) 9 5 = b := (seg_off _ k 6 9 5 (by decide)).trans (seg_hit _ b 9 ((seg_off _ a 14 9 5 (by decide)).trans ((seg_off _ d 19 9 5 (by decide)).trans ((seg_off _ cv 31 9 5 (by decide)).trans rfl))) (by decide))
  have h6 : seg (encode (.vredminu cv d a b k)) 6 3 = k := seg_hit _ k 6 ((seg_off _ b 9 6 3 (by decide)).trans ((seg_off _ a 14 6 3 (by decide)).trans ((seg_off _ d 19 6 3 (by decide)).trans ((seg_off _ cv 31 6 3 (by decide)).trans rfl)))) (by decide)
  exact decode_of (form2B m (by simp [decode2B, h1, h2, h3, h4, h5, h6]))
theorem RoundTrip.vredmaxu (cv : BitVec 1) (d : BitVec 5) (a : BitVec 5) (b : BitVec 5) (k : BitVec 3) : RoundTrip.Statement (.vredmaxu cv d a b k) := by
  have m : seg (encode (.vredmaxu cv d a b k)) 24 7 = 43#7 := (seg_off _ k 6 24 7 (by decide)).trans ((seg_off _ b 9 24 7 (by decide)).trans ((seg_off _ a 14 24 7 (by decide)).trans ((seg_off _ d 19 24 7 (by decide)).trans ((seg_off _ cv 31 24 7 (by decide)).trans rfl))))
  have h1 : seg (encode (.vredmaxu cv d a b k)) 0 6 = 4#6 := (seg_off _ k 6 0 6 (by decide)).trans ((seg_off _ b 9 0 6 (by decide)).trans ((seg_off _ a 14 0 6 (by decide)).trans ((seg_off _ d 19 0 6 (by decide)).trans ((seg_off _ cv 31 0 6 (by decide)).trans rfl))))
  have h2 : seg (encode (.vredmaxu cv d a b k)) 31 1 = cv := (seg_off _ k 6 31 1 (by decide)).trans ((seg_off _ b 9 31 1 (by decide)).trans ((seg_off _ a 14 31 1 (by decide)).trans ((seg_off _ d 19 31 1 (by decide)).trans (seg_hit _ cv 31 rfl (by decide)))))
  have h3 : seg (encode (.vredmaxu cv d a b k)) 19 5 = d := (seg_off _ k 6 19 5 (by decide)).trans ((seg_off _ b 9 19 5 (by decide)).trans ((seg_off _ a 14 19 5 (by decide)).trans (seg_hit _ d 19 ((seg_off _ cv 31 19 5 (by decide)).trans rfl) (by decide))))
  have h4 : seg (encode (.vredmaxu cv d a b k)) 14 5 = a := (seg_off _ k 6 14 5 (by decide)).trans ((seg_off _ b 9 14 5 (by decide)).trans (seg_hit _ a 14 ((seg_off _ d 19 14 5 (by decide)).trans ((seg_off _ cv 31 14 5 (by decide)).trans rfl)) (by decide)))
  have h5 : seg (encode (.vredmaxu cv d a b k)) 9 5 = b := (seg_off _ k 6 9 5 (by decide)).trans (seg_hit _ b 9 ((seg_off _ a 14 9 5 (by decide)).trans ((seg_off _ d 19 9 5 (by decide)).trans ((seg_off _ cv 31 9 5 (by decide)).trans rfl))) (by decide))
  have h6 : seg (encode (.vredmaxu cv d a b k)) 6 3 = k := seg_hit _ k 6 ((seg_off _ b 9 6 3 (by decide)).trans ((seg_off _ a 14 6 3 (by decide)).trans ((seg_off _ d 19 6 3 (by decide)).trans ((seg_off _ cv 31 6 3 (by decide)).trans rfl)))) (by decide)
  exact decode_of (form2B m (by simp [decode2B, h1, h2, h3, h4, h5, h6]))
theorem RoundTrip.vredand (cv : BitVec 1) (d : BitVec 5) (a : BitVec 5) (b : BitVec 5) (k : BitVec 3) : RoundTrip.Statement (.vredand cv d a b k) := by
  have m : seg (encode (.vredand cv d a b k)) 24 7 = 43#7 := (seg_off _ k 6 24 7 (by decide)).trans ((seg_off _ b 9 24 7 (by decide)).trans ((seg_off _ a 14 24 7 (by decide)).trans ((seg_off _ d 19 24 7 (by decide)).trans ((seg_off _ cv 31 24 7 (by decide)).trans rfl))))
  have h1 : seg (encode (.vredand cv d a b k)) 0 6 = 5#6 := (seg_off _ k 6 0 6 (by decide)).trans ((seg_off _ b 9 0 6 (by decide)).trans ((seg_off _ a 14 0 6 (by decide)).trans ((seg_off _ d 19 0 6 (by decide)).trans ((seg_off _ cv 31 0 6 (by decide)).trans rfl))))
  have h2 : seg (encode (.vredand cv d a b k)) 31 1 = cv := (seg_off _ k 6 31 1 (by decide)).trans ((seg_off _ b 9 31 1 (by decide)).trans ((seg_off _ a 14 31 1 (by decide)).trans ((seg_off _ d 19 31 1 (by decide)).trans (seg_hit _ cv 31 rfl (by decide)))))
  have h3 : seg (encode (.vredand cv d a b k)) 19 5 = d := (seg_off _ k 6 19 5 (by decide)).trans ((seg_off _ b 9 19 5 (by decide)).trans ((seg_off _ a 14 19 5 (by decide)).trans (seg_hit _ d 19 ((seg_off _ cv 31 19 5 (by decide)).trans rfl) (by decide))))
  have h4 : seg (encode (.vredand cv d a b k)) 14 5 = a := (seg_off _ k 6 14 5 (by decide)).trans ((seg_off _ b 9 14 5 (by decide)).trans (seg_hit _ a 14 ((seg_off _ d 19 14 5 (by decide)).trans ((seg_off _ cv 31 14 5 (by decide)).trans rfl)) (by decide)))
  have h5 : seg (encode (.vredand cv d a b k)) 9 5 = b := (seg_off _ k 6 9 5 (by decide)).trans (seg_hit _ b 9 ((seg_off _ a 14 9 5 (by decide)).trans ((seg_off _ d 19 9 5 (by decide)).trans ((seg_off _ cv 31 9 5 (by decide)).trans rfl))) (by decide))
  have h6 : seg (encode (.vredand cv d a b k)) 6 3 = k := seg_hit _ k 6 ((seg_off _ b 9 6 3 (by decide)).trans ((seg_off _ a 14 6 3 (by decide)).trans ((seg_off _ d 19 6 3 (by decide)).trans ((seg_off _ cv 31 6 3 (by decide)).trans rfl)))) (by decide)
  exact decode_of (form2B m (by simp [decode2B, h1, h2, h3, h4, h5, h6]))
theorem RoundTrip.vredor (cv : BitVec 1) (d : BitVec 5) (a : BitVec 5) (b : BitVec 5) (k : BitVec 3) : RoundTrip.Statement (.vredor cv d a b k) := by
  have m : seg (encode (.vredor cv d a b k)) 24 7 = 43#7 := (seg_off _ k 6 24 7 (by decide)).trans ((seg_off _ b 9 24 7 (by decide)).trans ((seg_off _ a 14 24 7 (by decide)).trans ((seg_off _ d 19 24 7 (by decide)).trans ((seg_off _ cv 31 24 7 (by decide)).trans rfl))))
  have h1 : seg (encode (.vredor cv d a b k)) 0 6 = 6#6 := (seg_off _ k 6 0 6 (by decide)).trans ((seg_off _ b 9 0 6 (by decide)).trans ((seg_off _ a 14 0 6 (by decide)).trans ((seg_off _ d 19 0 6 (by decide)).trans ((seg_off _ cv 31 0 6 (by decide)).trans rfl))))
  have h2 : seg (encode (.vredor cv d a b k)) 31 1 = cv := (seg_off _ k 6 31 1 (by decide)).trans ((seg_off _ b 9 31 1 (by decide)).trans ((seg_off _ a 14 31 1 (by decide)).trans ((seg_off _ d 19 31 1 (by decide)).trans (seg_hit _ cv 31 rfl (by decide)))))
  have h3 : seg (encode (.vredor cv d a b k)) 19 5 = d := (seg_off _ k 6 19 5 (by decide)).trans ((seg_off _ b 9 19 5 (by decide)).trans ((seg_off _ a 14 19 5 (by decide)).trans (seg_hit _ d 19 ((seg_off _ cv 31 19 5 (by decide)).trans rfl) (by decide))))
  have h4 : seg (encode (.vredor cv d a b k)) 14 5 = a := (seg_off _ k 6 14 5 (by decide)).trans ((seg_off _ b 9 14 5 (by decide)).trans (seg_hit _ a 14 ((seg_off _ d 19 14 5 (by decide)).trans ((seg_off _ cv 31 14 5 (by decide)).trans rfl)) (by decide)))
  have h5 : seg (encode (.vredor cv d a b k)) 9 5 = b := (seg_off _ k 6 9 5 (by decide)).trans (seg_hit _ b 9 ((seg_off _ a 14 9 5 (by decide)).trans ((seg_off _ d 19 9 5 (by decide)).trans ((seg_off _ cv 31 9 5 (by decide)).trans rfl))) (by decide))
  have h6 : seg (encode (.vredor cv d a b k)) 6 3 = k := seg_hit _ k 6 ((seg_off _ b 9 6 3 (by decide)).trans ((seg_off _ a 14 6 3 (by decide)).trans ((seg_off _ d 19 6 3 (by decide)).trans ((seg_off _ cv 31 6 3 (by decide)).trans rfl)))) (by decide)
  exact decode_of (form2B m (by simp [decode2B, h1, h2, h3, h4, h5, h6]))
theorem RoundTrip.vredxor (cv : BitVec 1) (d : BitVec 5) (a : BitVec 5) (b : BitVec 5) (k : BitVec 3) : RoundTrip.Statement (.vredxor cv d a b k) := by
  have m : seg (encode (.vredxor cv d a b k)) 24 7 = 43#7 := (seg_off _ k 6 24 7 (by decide)).trans ((seg_off _ b 9 24 7 (by decide)).trans ((seg_off _ a 14 24 7 (by decide)).trans ((seg_off _ d 19 24 7 (by decide)).trans ((seg_off _ cv 31 24 7 (by decide)).trans rfl))))
  have h1 : seg (encode (.vredxor cv d a b k)) 0 6 = 7#6 := (seg_off _ k 6 0 6 (by decide)).trans ((seg_off _ b 9 0 6 (by decide)).trans ((seg_off _ a 14 0 6 (by decide)).trans ((seg_off _ d 19 0 6 (by decide)).trans ((seg_off _ cv 31 0 6 (by decide)).trans rfl))))
  have h2 : seg (encode (.vredxor cv d a b k)) 31 1 = cv := (seg_off _ k 6 31 1 (by decide)).trans ((seg_off _ b 9 31 1 (by decide)).trans ((seg_off _ a 14 31 1 (by decide)).trans ((seg_off _ d 19 31 1 (by decide)).trans (seg_hit _ cv 31 rfl (by decide)))))
  have h3 : seg (encode (.vredxor cv d a b k)) 19 5 = d := (seg_off _ k 6 19 5 (by decide)).trans ((seg_off _ b 9 19 5 (by decide)).trans ((seg_off _ a 14 19 5 (by decide)).trans (seg_hit _ d 19 ((seg_off _ cv 31 19 5 (by decide)).trans rfl) (by decide))))
  have h4 : seg (encode (.vredxor cv d a b k)) 14 5 = a := (seg_off _ k 6 14 5 (by decide)).trans ((seg_off _ b 9 14 5 (by decide)).trans (seg_hit _ a 14 ((seg_off _ d 19 14 5 (by decide)).trans ((seg_off _ cv 31 14 5 (by decide)).trans rfl)) (by decide)))
  have h5 : seg (encode (.vredxor cv d a b k)) 9 5 = b := (seg_off _ k 6 9 5 (by decide)).trans (seg_hit _ b 9 ((seg_off _ a 14 9 5 (by decide)).trans ((seg_off _ d 19 9 5 (by decide)).trans ((seg_off _ cv 31 9 5 (by decide)).trans rfl))) (by decide))
  have h6 : seg (encode (.vredxor cv d a b k)) 6 3 = k := seg_hit _ k 6 ((seg_off _ b 9 6 3 (by decide)).trans ((seg_off _ a 14 6 3 (by decide)).trans ((seg_off _ d 19 6 3 (by decide)).trans ((seg_off _ cv 31 6 3 (by decide)).trans rfl)))) (by decide)
  exact decode_of (form2B m (by simp [decode2B, h1, h2, h3, h4, h5, h6]))
theorem RoundTrip.vfredsum (cv : BitVec 1) (d : BitVec 5) (a : BitVec 5) (b : BitVec 5) (k : BitVec 3) : RoundTrip.Statement (.vfredsum cv d a b k) := by
  have m : seg (encode (.vfredsum cv d a b k)) 24 7 = 43#7 := (seg_off _ k 6 24 7 (by decide)).trans ((seg_off _ b 9 24 7 (by decide)).trans ((seg_off _ a 14 24 7 (by decide)).trans ((seg_off _ d 19 24 7 (by decide)).trans ((seg_off _ cv 31 24 7 (by decide)).trans rfl))))
  have h1 : seg (encode (.vfredsum cv d a b k)) 0 6 = 8#6 := (seg_off _ k 6 0 6 (by decide)).trans ((seg_off _ b 9 0 6 (by decide)).trans ((seg_off _ a 14 0 6 (by decide)).trans ((seg_off _ d 19 0 6 (by decide)).trans ((seg_off _ cv 31 0 6 (by decide)).trans rfl))))
  have h2 : seg (encode (.vfredsum cv d a b k)) 31 1 = cv := (seg_off _ k 6 31 1 (by decide)).trans ((seg_off _ b 9 31 1 (by decide)).trans ((seg_off _ a 14 31 1 (by decide)).trans ((seg_off _ d 19 31 1 (by decide)).trans (seg_hit _ cv 31 rfl (by decide)))))
  have h3 : seg (encode (.vfredsum cv d a b k)) 19 5 = d := (seg_off _ k 6 19 5 (by decide)).trans ((seg_off _ b 9 19 5 (by decide)).trans ((seg_off _ a 14 19 5 (by decide)).trans (seg_hit _ d 19 ((seg_off _ cv 31 19 5 (by decide)).trans rfl) (by decide))))
  have h4 : seg (encode (.vfredsum cv d a b k)) 14 5 = a := (seg_off _ k 6 14 5 (by decide)).trans ((seg_off _ b 9 14 5 (by decide)).trans (seg_hit _ a 14 ((seg_off _ d 19 14 5 (by decide)).trans ((seg_off _ cv 31 14 5 (by decide)).trans rfl)) (by decide)))
  have h5 : seg (encode (.vfredsum cv d a b k)) 9 5 = b := (seg_off _ k 6 9 5 (by decide)).trans (seg_hit _ b 9 ((seg_off _ a 14 9 5 (by decide)).trans ((seg_off _ d 19 9 5 (by decide)).trans ((seg_off _ cv 31 9 5 (by decide)).trans rfl))) (by decide))
  have h6 : seg (encode (.vfredsum cv d a b k)) 6 3 = k := seg_hit _ k 6 ((seg_off _ b 9 6 3 (by decide)).trans ((seg_off _ a 14 6 3 (by decide)).trans ((seg_off _ d 19 6 3 (by decide)).trans ((seg_off _ cv 31 6 3 (by decide)).trans rfl)))) (by decide)
  exact decode_of (form2B m (by simp [decode2B, h1, h2, h3, h4, h5, h6]))
theorem RoundTrip.vfredmin (cv : BitVec 1) (d : BitVec 5) (a : BitVec 5) (b : BitVec 5) (k : BitVec 3) : RoundTrip.Statement (.vfredmin cv d a b k) := by
  have m : seg (encode (.vfredmin cv d a b k)) 24 7 = 43#7 := (seg_off _ k 6 24 7 (by decide)).trans ((seg_off _ b 9 24 7 (by decide)).trans ((seg_off _ a 14 24 7 (by decide)).trans ((seg_off _ d 19 24 7 (by decide)).trans ((seg_off _ cv 31 24 7 (by decide)).trans rfl))))
  have h1 : seg (encode (.vfredmin cv d a b k)) 0 6 = 9#6 := (seg_off _ k 6 0 6 (by decide)).trans ((seg_off _ b 9 0 6 (by decide)).trans ((seg_off _ a 14 0 6 (by decide)).trans ((seg_off _ d 19 0 6 (by decide)).trans ((seg_off _ cv 31 0 6 (by decide)).trans rfl))))
  have h2 : seg (encode (.vfredmin cv d a b k)) 31 1 = cv := (seg_off _ k 6 31 1 (by decide)).trans ((seg_off _ b 9 31 1 (by decide)).trans ((seg_off _ a 14 31 1 (by decide)).trans ((seg_off _ d 19 31 1 (by decide)).trans (seg_hit _ cv 31 rfl (by decide)))))
  have h3 : seg (encode (.vfredmin cv d a b k)) 19 5 = d := (seg_off _ k 6 19 5 (by decide)).trans ((seg_off _ b 9 19 5 (by decide)).trans ((seg_off _ a 14 19 5 (by decide)).trans (seg_hit _ d 19 ((seg_off _ cv 31 19 5 (by decide)).trans rfl) (by decide))))
  have h4 : seg (encode (.vfredmin cv d a b k)) 14 5 = a := (seg_off _ k 6 14 5 (by decide)).trans ((seg_off _ b 9 14 5 (by decide)).trans (seg_hit _ a 14 ((seg_off _ d 19 14 5 (by decide)).trans ((seg_off _ cv 31 14 5 (by decide)).trans rfl)) (by decide)))
  have h5 : seg (encode (.vfredmin cv d a b k)) 9 5 = b := (seg_off _ k 6 9 5 (by decide)).trans (seg_hit _ b 9 ((seg_off _ a 14 9 5 (by decide)).trans ((seg_off _ d 19 9 5 (by decide)).trans ((seg_off _ cv 31 9 5 (by decide)).trans rfl))) (by decide))
  have h6 : seg (encode (.vfredmin cv d a b k)) 6 3 = k := seg_hit _ k 6 ((seg_off _ b 9 6 3 (by decide)).trans ((seg_off _ a 14 6 3 (by decide)).trans ((seg_off _ d 19 6 3 (by decide)).trans ((seg_off _ cv 31 6 3 (by decide)).trans rfl)))) (by decide)
  exact decode_of (form2B m (by simp [decode2B, h1, h2, h3, h4, h5, h6]))
theorem RoundTrip.vfredmax (cv : BitVec 1) (d : BitVec 5) (a : BitVec 5) (b : BitVec 5) (k : BitVec 3) : RoundTrip.Statement (.vfredmax cv d a b k) := by
  have m : seg (encode (.vfredmax cv d a b k)) 24 7 = 43#7 := (seg_off _ k 6 24 7 (by decide)).trans ((seg_off _ b 9 24 7 (by decide)).trans ((seg_off _ a 14 24 7 (by decide)).trans ((seg_off _ d 19 24 7 (by decide)).trans ((seg_off _ cv 31 24 7 (by decide)).trans rfl))))
  have h1 : seg (encode (.vfredmax cv d a b k)) 0 6 = 10#6 := (seg_off _ k 6 0 6 (by decide)).trans ((seg_off _ b 9 0 6 (by decide)).trans ((seg_off _ a 14 0 6 (by decide)).trans ((seg_off _ d 19 0 6 (by decide)).trans ((seg_off _ cv 31 0 6 (by decide)).trans rfl))))
  have h2 : seg (encode (.vfredmax cv d a b k)) 31 1 = cv := (seg_off _ k 6 31 1 (by decide)).trans ((seg_off _ b 9 31 1 (by decide)).trans ((seg_off _ a 14 31 1 (by decide)).trans ((seg_off _ d 19 31 1 (by decide)).trans (seg_hit _ cv 31 rfl (by decide)))))
  have h3 : seg (encode (.vfredmax cv d a b k)) 19 5 = d := (seg_off _ k 6 19 5 (by decide)).trans ((seg_off _ b 9 19 5 (by decide)).trans ((seg_off _ a 14 19 5 (by decide)).trans (seg_hit _ d 19 ((seg_off _ cv 31 19 5 (by decide)).trans rfl) (by decide))))
  have h4 : seg (encode (.vfredmax cv d a b k)) 14 5 = a := (seg_off _ k 6 14 5 (by decide)).trans ((seg_off _ b 9 14 5 (by decide)).trans (seg_hit _ a 14 ((seg_off _ d 19 14 5 (by decide)).trans ((seg_off _ cv 31 14 5 (by decide)).trans rfl)) (by decide)))
  have h5 : seg (encode (.vfredmax cv d a b k)) 9 5 = b := (seg_off _ k 6 9 5 (by decide)).trans (seg_hit _ b 9 ((seg_off _ a 14 9 5 (by decide)).trans ((seg_off _ d 19 9 5 (by decide)).trans ((seg_off _ cv 31 9 5 (by decide)).trans rfl))) (by decide))
  have h6 : seg (encode (.vfredmax cv d a b k)) 6 3 = k := seg_hit _ k 6 ((seg_off _ b 9 6 3 (by decide)).trans ((seg_off _ a 14 6 3 (by decide)).trans ((seg_off _ d 19 6 3 (by decide)).trans ((seg_off _ cv 31 6 3 (by decide)).trans rfl)))) (by decide)
  exact decode_of (form2B m (by simp [decode2B, h1, h2, h3, h4, h5, h6]))
theorem RoundTrip.vredo (cv : BitVec 1) (d : BitVec 5) (a : BitVec 5) (b : BitVec 5) (k : BitVec 3) : RoundTrip.Statement (.vredo cv d a b k) := by
  have m : seg (encode (.vredo cv d a b k)) 24 7 = 43#7 := (seg_off _ k 6 24 7 (by decide)).trans ((seg_off _ b 9 24 7 (by decide)).trans ((seg_off _ a 14 24 7 (by decide)).trans ((seg_off _ d 19 24 7 (by decide)).trans ((seg_off _ cv 31 24 7 (by decide)).trans rfl))))
  have h1 : seg (encode (.vredo cv d a b k)) 0 6 = 16#6 := (seg_off _ k 6 0 6 (by decide)).trans ((seg_off _ b 9 0 6 (by decide)).trans ((seg_off _ a 14 0 6 (by decide)).trans ((seg_off _ d 19 0 6 (by decide)).trans ((seg_off _ cv 31 0 6 (by decide)).trans rfl))))
  have h2 : seg (encode (.vredo cv d a b k)) 31 1 = cv := (seg_off _ k 6 31 1 (by decide)).trans ((seg_off _ b 9 31 1 (by decide)).trans ((seg_off _ a 14 31 1 (by decide)).trans ((seg_off _ d 19 31 1 (by decide)).trans (seg_hit _ cv 31 rfl (by decide)))))
  have h3 : seg (encode (.vredo cv d a b k)) 19 5 = d := (seg_off _ k 6 19 5 (by decide)).trans ((seg_off _ b 9 19 5 (by decide)).trans ((seg_off _ a 14 19 5 (by decide)).trans (seg_hit _ d 19 ((seg_off _ cv 31 19 5 (by decide)).trans rfl) (by decide))))
  have h4 : seg (encode (.vredo cv d a b k)) 14 5 = a := (seg_off _ k 6 14 5 (by decide)).trans ((seg_off _ b 9 14 5 (by decide)).trans (seg_hit _ a 14 ((seg_off _ d 19 14 5 (by decide)).trans ((seg_off _ cv 31 14 5 (by decide)).trans rfl)) (by decide)))
  have h5 : seg (encode (.vredo cv d a b k)) 9 5 = b := (seg_off _ k 6 9 5 (by decide)).trans (seg_hit _ b 9 ((seg_off _ a 14 9 5 (by decide)).trans ((seg_off _ d 19 9 5 (by decide)).trans ((seg_off _ cv 31 9 5 (by decide)).trans rfl))) (by decide))
  have h6 : seg (encode (.vredo cv d a b k)) 6 3 = k := seg_hit _ k 6 ((seg_off _ b 9 6 3 (by decide)).trans ((seg_off _ a 14 6 3 (by decide)).trans ((seg_off _ d 19 6 3 (by decide)).trans ((seg_off _ cv 31 6 3 (by decide)).trans rfl)))) (by decide)
  exact decode_of (form2B m (by simp [decode2B, h1, h2, h3, h4, h5, h6]))
theorem RoundTrip.vshuf (cv : BitVec 1) (d : BitVec 5) (a : BitVec 5) (b : BitVec 5) (k : BitVec 3) : RoundTrip.Statement (.vshuf cv d a b k) := by
  have m : seg (encode (.vshuf cv d a b k)) 24 7 = 44#7 := (seg_off _ k 6 24 7 (by decide)).trans ((seg_off _ b 9 24 7 (by decide)).trans ((seg_off _ a 14 24 7 (by decide)).trans ((seg_off _ d 19 24 7 (by decide)).trans ((seg_off _ cv 31 24 7 (by decide)).trans rfl))))
  have h1 : seg (encode (.vshuf cv d a b k)) 0 6 = 0#6 := (seg_off _ k 6 0 6 (by decide)).trans ((seg_off _ b 9 0 6 (by decide)).trans ((seg_off _ a 14 0 6 (by decide)).trans ((seg_off _ d 19 0 6 (by decide)).trans ((seg_off _ cv 31 0 6 (by decide)).trans rfl))))
  have h2 : seg (encode (.vshuf cv d a b k)) 31 1 = cv := (seg_off _ k 6 31 1 (by decide)).trans ((seg_off _ b 9 31 1 (by decide)).trans ((seg_off _ a 14 31 1 (by decide)).trans ((seg_off _ d 19 31 1 (by decide)).trans (seg_hit _ cv 31 rfl (by decide)))))
  have h3 : seg (encode (.vshuf cv d a b k)) 19 5 = d := (seg_off _ k 6 19 5 (by decide)).trans ((seg_off _ b 9 19 5 (by decide)).trans ((seg_off _ a 14 19 5 (by decide)).trans (seg_hit _ d 19 ((seg_off _ cv 31 19 5 (by decide)).trans rfl) (by decide))))
  have h4 : seg (encode (.vshuf cv d a b k)) 14 5 = a := (seg_off _ k 6 14 5 (by decide)).trans ((seg_off _ b 9 14 5 (by decide)).trans (seg_hit _ a 14 ((seg_off _ d 19 14 5 (by decide)).trans ((seg_off _ cv 31 14 5 (by decide)).trans rfl)) (by decide)))
  have h5 : seg (encode (.vshuf cv d a b k)) 9 5 = b := (seg_off _ k 6 9 5 (by decide)).trans (seg_hit _ b 9 ((seg_off _ a 14 9 5 (by decide)).trans ((seg_off _ d 19 9 5 (by decide)).trans ((seg_off _ cv 31 9 5 (by decide)).trans rfl))) (by decide))
  have h6 : seg (encode (.vshuf cv d a b k)) 6 3 = k := seg_hit _ k 6 ((seg_off _ b 9 6 3 (by decide)).trans ((seg_off _ a 14 6 3 (by decide)).trans ((seg_off _ d 19 6 3 (by decide)).trans ((seg_off _ cv 31 6 3 (by decide)).trans rfl)))) (by decide)
  exact decode_of (form2C m (by simp [decode2C, h1, h2, h3, h4, h5, h6]))
theorem RoundTrip.vpack (cv : BitVec 1) (d : BitVec 5) (a : BitVec 5) (k : BitVec 3) : RoundTrip.Statement (.vpack cv d a k) := by
  have m : seg (encode (.vpack cv d a k)) 24 7 = 44#7 := (seg_off _ k 6 24 7 (by decide)).trans ((seg_off _ a 14 24 7 (by decide)).trans ((seg_off _ d 19 24 7 (by decide)).trans ((seg_off _ cv 31 24 7 (by decide)).trans rfl)))
  have h1 : seg (encode (.vpack cv d a k)) 0 6 = 1#6 := (seg_off _ k 6 0 6 (by decide)).trans ((seg_off _ a 14 0 6 (by decide)).trans ((seg_off _ d 19 0 6 (by decide)).trans ((seg_off _ cv 31 0 6 (by decide)).trans rfl)))
  have h2 : seg (encode (.vpack cv d a k)) 9 3 = 0#3 := (seg_off _ k 6 9 3 (by decide)).trans ((seg_off _ a 14 9 3 (by decide)).trans ((seg_off _ d 19 9 3 (by decide)).trans ((seg_off _ cv 31 9 3 (by decide)).trans rfl)))
  have h3 : seg (encode (.vpack cv d a k)) 12 2 = 0#2 := (seg_off _ k 6 12 2 (by decide)).trans ((seg_off _ a 14 12 2 (by decide)).trans ((seg_off _ d 19 12 2 (by decide)).trans ((seg_off _ cv 31 12 2 (by decide)).trans rfl)))
  have h4 : seg (encode (.vpack cv d a k)) 31 1 = cv := (seg_off _ k 6 31 1 (by decide)).trans ((seg_off _ a 14 31 1 (by decide)).trans ((seg_off _ d 19 31 1 (by decide)).trans (seg_hit _ cv 31 rfl (by decide))))
  have h5 : seg (encode (.vpack cv d a k)) 19 5 = d := (seg_off _ k 6 19 5 (by decide)).trans ((seg_off _ a 14 19 5 (by decide)).trans (seg_hit _ d 19 ((seg_off _ cv 31 19 5 (by decide)).trans rfl) (by decide)))
  have h6 : seg (encode (.vpack cv d a k)) 14 5 = a := (seg_off _ k 6 14 5 (by decide)).trans (seg_hit _ a 14 ((seg_off _ d 19 14 5 (by decide)).trans ((seg_off _ cv 31 14 5 (by decide)).trans rfl)) (by decide))
  have h7 : seg (encode (.vpack cv d a k)) 6 3 = k := seg_hit _ k 6 ((seg_off _ a 14 6 3 (by decide)).trans ((seg_off _ d 19 6 3 (by decide)).trans ((seg_off _ cv 31 6 3 (by decide)).trans rfl))) (by decide)
  exact decode_of (form2C m (by simp [decode2C, h1, h2, h3, h4, h5, h6, h7]))
theorem RoundTrip.vrank (cv : BitVec 1) (d : BitVec 5) (b : BitVec 3) (k : BitVec 3) : RoundTrip.Statement (.vrank cv d b k) := by
  have m : seg (encode (.vrank cv d b k)) 24 7 = 44#7 := (seg_off _ k 6 24 7 (by decide)).trans ((seg_off _ b 9 24 7 (by decide)).trans ((seg_off _ d 19 24 7 (by decide)).trans ((seg_off _ cv 31 24 7 (by decide)).trans rfl)))
  have h1 : seg (encode (.vrank cv d b k)) 0 6 = 2#6 := (seg_off _ k 6 0 6 (by decide)).trans ((seg_off _ b 9 0 6 (by decide)).trans ((seg_off _ d 19 0 6 (by decide)).trans ((seg_off _ cv 31 0 6 (by decide)).trans rfl)))
  have h2 : seg (encode (.vrank cv d b k)) 12 2 = 0#2 := (seg_off _ k 6 12 2 (by decide)).trans ((seg_off _ b 9 12 2 (by decide)).trans ((seg_off _ d 19 12 2 (by decide)).trans ((seg_off _ cv 31 12 2 (by decide)).trans rfl)))
  have h3 : seg (encode (.vrank cv d b k)) 14 5 = 0#5 := (seg_off _ k 6 14 5 (by decide)).trans ((seg_off _ b 9 14 5 (by decide)).trans ((seg_off _ d 19 14 5 (by decide)).trans ((seg_off _ cv 31 14 5 (by decide)).trans rfl)))
  have h4 : seg (encode (.vrank cv d b k)) 31 1 = cv := (seg_off _ k 6 31 1 (by decide)).trans ((seg_off _ b 9 31 1 (by decide)).trans ((seg_off _ d 19 31 1 (by decide)).trans (seg_hit _ cv 31 rfl (by decide))))
  have h5 : seg (encode (.vrank cv d b k)) 19 5 = d := (seg_off _ k 6 19 5 (by decide)).trans ((seg_off _ b 9 19 5 (by decide)).trans (seg_hit _ d 19 ((seg_off _ cv 31 19 5 (by decide)).trans rfl) (by decide)))
  have h6 : seg (encode (.vrank cv d b k)) 9 3 = b := (seg_off _ k 6 9 3 (by decide)).trans (seg_hit _ b 9 ((seg_off _ d 19 9 3 (by decide)).trans ((seg_off _ cv 31 9 3 (by decide)).trans rfl)) (by decide))
  have h7 : seg (encode (.vrank cv d b k)) 6 3 = k := seg_hit _ k 6 ((seg_off _ b 9 6 3 (by decide)).trans ((seg_off _ d 19 6 3 (by decide)).trans ((seg_off _ cv 31 6 3 (by decide)).trans rfl))) (by decide)
  exact decode_of (form2C m (by simp [decode2C, h1, h2, h3, h4, h5, h6, h7]))
theorem RoundTrip.vramp (cv : BitVec 1) (d : BitVec 5) (k : BitVec 3) : RoundTrip.Statement (.vramp cv d k) := by
  have m : seg (encode (.vramp cv d k)) 24 7 = 44#7 := (seg_off _ k 6 24 7 (by decide)).trans ((seg_off _ d 19 24 7 (by decide)).trans ((seg_off _ cv 31 24 7 (by decide)).trans rfl))
  have h1 : seg (encode (.vramp cv d k)) 0 6 = 3#6 := (seg_off _ k 6 0 6 (by decide)).trans ((seg_off _ d 19 0 6 (by decide)).trans ((seg_off _ cv 31 0 6 (by decide)).trans rfl))
  have h2 : seg (encode (.vramp cv d k)) 9 3 = 0#3 := (seg_off _ k 6 9 3 (by decide)).trans ((seg_off _ d 19 9 3 (by decide)).trans ((seg_off _ cv 31 9 3 (by decide)).trans rfl))
  have h3 : seg (encode (.vramp cv d k)) 12 2 = 0#2 := (seg_off _ k 6 12 2 (by decide)).trans ((seg_off _ d 19 12 2 (by decide)).trans ((seg_off _ cv 31 12 2 (by decide)).trans rfl))
  have h4 : seg (encode (.vramp cv d k)) 14 5 = 0#5 := (seg_off _ k 6 14 5 (by decide)).trans ((seg_off _ d 19 14 5 (by decide)).trans ((seg_off _ cv 31 14 5 (by decide)).trans rfl))
  have h5 : seg (encode (.vramp cv d k)) 31 1 = cv := (seg_off _ k 6 31 1 (by decide)).trans ((seg_off _ d 19 31 1 (by decide)).trans (seg_hit _ cv 31 rfl (by decide)))
  have h6 : seg (encode (.vramp cv d k)) 19 5 = d := (seg_off _ k 6 19 5 (by decide)).trans (seg_hit _ d 19 ((seg_off _ cv 31 19 5 (by decide)).trans rfl) (by decide))
  have h7 : seg (encode (.vramp cv d k)) 6 3 = k := seg_hit _ k 6 ((seg_off _ d 19 6 3 (by decide)).trans ((seg_off _ cv 31 6 3 (by decide)).trans rfl)) (by decide)
  exact decode_of (form2C m (by simp [decode2C, h1, h2, h3, h4, h5, h6, h7]))
theorem RoundTrip.vrampS (cv : BitVec 1) (d : BitVec 5) (a : BitVec 5) (k : BitVec 3) : RoundTrip.Statement (.vrampS cv d a k) := by
  have m : seg (encode (.vrampS cv d a k)) 24 7 = 44#7 := (seg_off _ k 6 24 7 (by decide)).trans ((seg_off _ a 14 24 7 (by decide)).trans ((seg_off _ d 19 24 7 (by decide)).trans ((seg_off _ cv 31 24 7 (by decide)).trans rfl)))
  have h1 : seg (encode (.vrampS cv d a k)) 0 6 = 4#6 := (seg_off _ k 6 0 6 (by decide)).trans ((seg_off _ a 14 0 6 (by decide)).trans ((seg_off _ d 19 0 6 (by decide)).trans ((seg_off _ cv 31 0 6 (by decide)).trans rfl)))
  have h2 : seg (encode (.vrampS cv d a k)) 9 3 = 0#3 := (seg_off _ k 6 9 3 (by decide)).trans ((seg_off _ a 14 9 3 (by decide)).trans ((seg_off _ d 19 9 3 (by decide)).trans ((seg_off _ cv 31 9 3 (by decide)).trans rfl)))
  have h3 : seg (encode (.vrampS cv d a k)) 12 2 = 0#2 := (seg_off _ k 6 12 2 (by decide)).trans ((seg_off _ a 14 12 2 (by decide)).trans ((seg_off _ d 19 12 2 (by decide)).trans ((seg_off _ cv 31 12 2 (by decide)).trans rfl)))
  have h4 : seg (encode (.vrampS cv d a k)) 31 1 = cv := (seg_off _ k 6 31 1 (by decide)).trans ((seg_off _ a 14 31 1 (by decide)).trans ((seg_off _ d 19 31 1 (by decide)).trans (seg_hit _ cv 31 rfl (by decide))))
  have h5 : seg (encode (.vrampS cv d a k)) 19 5 = d := (seg_off _ k 6 19 5 (by decide)).trans ((seg_off _ a 14 19 5 (by decide)).trans (seg_hit _ d 19 ((seg_off _ cv 31 19 5 (by decide)).trans rfl) (by decide)))
  have h6 : seg (encode (.vrampS cv d a k)) 14 5 = a := (seg_off _ k 6 14 5 (by decide)).trans (seg_hit _ a 14 ((seg_off _ d 19 14 5 (by decide)).trans ((seg_off _ cv 31 14 5 (by decide)).trans rfl)) (by decide))
  have h7 : seg (encode (.vrampS cv d a k)) 6 3 = k := seg_hit _ k 6 ((seg_off _ a 14 6 3 (by decide)).trans ((seg_off _ d 19 6 3 (by decide)).trans ((seg_off _ cv 31 6 3 (by decide)).trans rfl))) (by decide)
  exact decode_of (form2C m (by simp [decode2C, h1, h2, h3, h4, h5, h6, h7]))
theorem RoundTrip.vbcast (cv : BitVec 1) (d : BitVec 5) (x : BitVec 6) (k : BitVec 3) : RoundTrip.Statement (.vbcast cv d x k) := by
  have m : seg (encode (.vbcast cv d x k)) 24 7 = 47#7 := (seg_off _ k 5 24 7 (by decide)).trans ((seg_off _ x 8 24 7 (by decide)).trans ((seg_off _ d 19 24 7 (by decide)).trans ((seg_off _ cv 31 24 7 (by decide)).trans rfl)))
  have h1 : seg (encode (.vbcast cv d x k)) 0 5 = 0#5 := (seg_off _ k 5 0 5 (by decide)).trans ((seg_off _ x 8 0 5 (by decide)).trans ((seg_off _ d 19 0 5 (by decide)).trans ((seg_off _ cv 31 0 5 (by decide)).trans rfl)))
  have h2 : seg (encode (.vbcast cv d x k)) 14 3 = 0#3 := (seg_off _ k 5 14 3 (by decide)).trans ((seg_off _ x 8 14 3 (by decide)).trans ((seg_off _ d 19 14 3 (by decide)).trans ((seg_off _ cv 31 14 3 (by decide)).trans rfl)))
  have h3 : seg (encode (.vbcast cv d x k)) 17 2 = 0#2 := (seg_off _ k 5 17 2 (by decide)).trans ((seg_off _ x 8 17 2 (by decide)).trans ((seg_off _ d 19 17 2 (by decide)).trans ((seg_off _ cv 31 17 2 (by decide)).trans rfl)))
  have h4 : seg (encode (.vbcast cv d x k)) 31 1 = cv := (seg_off _ k 5 31 1 (by decide)).trans ((seg_off _ x 8 31 1 (by decide)).trans ((seg_off _ d 19 31 1 (by decide)).trans (seg_hit _ cv 31 rfl (by decide))))
  have h5 : seg (encode (.vbcast cv d x k)) 19 5 = d := (seg_off _ k 5 19 5 (by decide)).trans ((seg_off _ x 8 19 5 (by decide)).trans (seg_hit _ d 19 ((seg_off _ cv 31 19 5 (by decide)).trans rfl) (by decide)))
  have h6 : seg (encode (.vbcast cv d x k)) 8 6 = x := (seg_off _ k 5 8 6 (by decide)).trans (seg_hit _ x 8 ((seg_off _ d 19 8 6 (by decide)).trans ((seg_off _ cv 31 8 6 (by decide)).trans rfl)) (by decide))
  have h7 : seg (encode (.vbcast cv d x k)) 5 3 = k := seg_hit _ k 5 ((seg_off _ x 8 5 3 (by decide)).trans ((seg_off _ d 19 5 3 (by decide)).trans ((seg_off _ cv 31 5 3 (by decide)).trans rfl))) (by decide)
  exact decode_of (form2F m (by simp [decode2F, h1, h2, h3, h4, h5, h6, h7]))
theorem RoundTrip.vtox (cv : BitVec 1) (n : BitVec 5) (a : BitVec 5) (x : BitVec 6) : RoundTrip.Statement (.vtox cv n a x) := by
  have m : seg (encode (.vtox cv n a x)) 24 7 = 47#7 := (seg_off _ x 8 24 7 (by decide)).trans ((seg_off _ a 14 24 7 (by decide)).trans ((seg_off _ n 19 24 7 (by decide)).trans ((seg_off _ cv 31 24 7 (by decide)).trans rfl)))
  have h1 : seg (encode (.vtox cv n a x)) 0 5 = 1#5 := (seg_off _ x 8 0 5 (by decide)).trans ((seg_off _ a 14 0 5 (by decide)).trans ((seg_off _ n 19 0 5 (by decide)).trans ((seg_off _ cv 31 0 5 (by decide)).trans rfl)))
  have h2 : seg (encode (.vtox cv n a x)) 5 3 = 0#3 := (seg_off _ x 8 5 3 (by decide)).trans ((seg_off _ a 14 5 3 (by decide)).trans ((seg_off _ n 19 5 3 (by decide)).trans ((seg_off _ cv 31 5 3 (by decide)).trans rfl)))
  have h3 : seg (encode (.vtox cv n a x)) 31 1 = cv := (seg_off _ x 8 31 1 (by decide)).trans ((seg_off _ a 14 31 1 (by decide)).trans ((seg_off _ n 19 31 1 (by decide)).trans (seg_hit _ cv 31 rfl (by decide))))
  have h4 : seg (encode (.vtox cv n a x)) 19 5 = n := (seg_off _ x 8 19 5 (by decide)).trans ((seg_off _ a 14 19 5 (by decide)).trans (seg_hit _ n 19 ((seg_off _ cv 31 19 5 (by decide)).trans rfl) (by decide)))
  have h5 : seg (encode (.vtox cv n a x)) 14 5 = a := (seg_off _ x 8 14 5 (by decide)).trans (seg_hit _ a 14 ((seg_off _ n 19 14 5 (by decide)).trans ((seg_off _ cv 31 14 5 (by decide)).trans rfl)) (by decide))
  have h6 : seg (encode (.vtox cv n a x)) 8 6 = x := seg_hit _ x 8 ((seg_off _ a 14 8 6 (by decide)).trans ((seg_off _ n 19 8 6 (by decide)).trans ((seg_off _ cv 31 8 6 (by decide)).trans rfl))) (by decide)
  exact decode_of (form2F m (by simp [decode2F, h1, h2, h3, h4, h5, h6]))
theorem RoundTrip.xtov (cv : BitVec 1) (d : BitVec 5) (n : BitVec 5) (x : BitVec 6) : RoundTrip.Statement (.xtov cv d n x) := by
  have m : seg (encode (.xtov cv d n x)) 24 7 = 47#7 := (seg_off _ x 8 24 7 (by decide)).trans ((seg_off _ n 14 24 7 (by decide)).trans ((seg_off _ d 19 24 7 (by decide)).trans ((seg_off _ cv 31 24 7 (by decide)).trans rfl)))
  have h1 : seg (encode (.xtov cv d n x)) 0 5 = 2#5 := (seg_off _ x 8 0 5 (by decide)).trans ((seg_off _ n 14 0 5 (by decide)).trans ((seg_off _ d 19 0 5 (by decide)).trans ((seg_off _ cv 31 0 5 (by decide)).trans rfl)))
  have h2 : seg (encode (.xtov cv d n x)) 5 3 = 0#3 := (seg_off _ x 8 5 3 (by decide)).trans ((seg_off _ n 14 5 3 (by decide)).trans ((seg_off _ d 19 5 3 (by decide)).trans ((seg_off _ cv 31 5 3 (by decide)).trans rfl)))
  have h3 : seg (encode (.xtov cv d n x)) 31 1 = cv := (seg_off _ x 8 31 1 (by decide)).trans ((seg_off _ n 14 31 1 (by decide)).trans ((seg_off _ d 19 31 1 (by decide)).trans (seg_hit _ cv 31 rfl (by decide))))
  have h4 : seg (encode (.xtov cv d n x)) 19 5 = d := (seg_off _ x 8 19 5 (by decide)).trans ((seg_off _ n 14 19 5 (by decide)).trans (seg_hit _ d 19 ((seg_off _ cv 31 19 5 (by decide)).trans rfl) (by decide)))
  have h5 : seg (encode (.xtov cv d n x)) 14 5 = n := (seg_off _ x 8 14 5 (by decide)).trans (seg_hit _ n 14 ((seg_off _ d 19 14 5 (by decide)).trans ((seg_off _ cv 31 14 5 (by decide)).trans rfl)) (by decide))
  have h6 : seg (encode (.xtov cv d n x)) 8 6 = x := seg_hit _ x 8 ((seg_off _ n 14 8 6 (by decide)).trans ((seg_off _ d 19 8 6 (by decide)).trans ((seg_off _ cv 31 8 6 (by decide)).trans rfl))) (by decide)
  exact decode_of (form2F m (by simp [decode2F, h1, h2, h3, h4, h5, h6]))
theorem RoundTrip.vshup (cv : BitVec 1) (d : BitVec 5) (a : BitVec 5) (x : BitVec 6) (k : BitVec 3) : RoundTrip.Statement (.vshup cv d a x k) := by
  have m : seg (encode (.vshup cv d a x k)) 24 7 = 47#7 := (seg_off _ k 5 24 7 (by decide)).trans ((seg_off _ x 8 24 7 (by decide)).trans ((seg_off _ a 14 24 7 (by decide)).trans ((seg_off _ d 19 24 7 (by decide)).trans ((seg_off _ cv 31 24 7 (by decide)).trans rfl))))
  have h1 : seg (encode (.vshup cv d a x k)) 0 5 = 3#5 := (seg_off _ k 5 0 5 (by decide)).trans ((seg_off _ x 8 0 5 (by decide)).trans ((seg_off _ a 14 0 5 (by decide)).trans ((seg_off _ d 19 0 5 (by decide)).trans ((seg_off _ cv 31 0 5 (by decide)).trans rfl))))
  have h2 : seg (encode (.vshup cv d a x k)) 31 1 = cv := (seg_off _ k 5 31 1 (by decide)).trans ((seg_off _ x 8 31 1 (by decide)).trans ((seg_off _ a 14 31 1 (by decide)).trans ((seg_off _ d 19 31 1 (by decide)).trans (seg_hit _ cv 31 rfl (by decide)))))
  have h3 : seg (encode (.vshup cv d a x k)) 19 5 = d := (seg_off _ k 5 19 5 (by decide)).trans ((seg_off _ x 8 19 5 (by decide)).trans ((seg_off _ a 14 19 5 (by decide)).trans (seg_hit _ d 19 ((seg_off _ cv 31 19 5 (by decide)).trans rfl) (by decide))))
  have h4 : seg (encode (.vshup cv d a x k)) 14 5 = a := (seg_off _ k 5 14 5 (by decide)).trans ((seg_off _ x 8 14 5 (by decide)).trans (seg_hit _ a 14 ((seg_off _ d 19 14 5 (by decide)).trans ((seg_off _ cv 31 14 5 (by decide)).trans rfl)) (by decide)))
  have h5 : seg (encode (.vshup cv d a x k)) 8 6 = x := (seg_off _ k 5 8 6 (by decide)).trans (seg_hit _ x 8 ((seg_off _ a 14 8 6 (by decide)).trans ((seg_off _ d 19 8 6 (by decide)).trans ((seg_off _ cv 31 8 6 (by decide)).trans rfl))) (by decide))
  have h6 : seg (encode (.vshup cv d a x k)) 5 3 = k := seg_hit _ k 5 ((seg_off _ x 8 5 3 (by decide)).trans ((seg_off _ a 14 5 3 (by decide)).trans ((seg_off _ d 19 5 3 (by decide)).trans ((seg_off _ cv 31 5 3 (by decide)).trans rfl)))) (by decide)
  exact decode_of (form2F m (by simp [decode2F, h1, h2, h3, h4, h5, h6]))
theorem RoundTrip.vshdn (cv : BitVec 1) (d : BitVec 5) (a : BitVec 5) (x : BitVec 6) (k : BitVec 3) : RoundTrip.Statement (.vshdn cv d a x k) := by
  have m : seg (encode (.vshdn cv d a x k)) 24 7 = 47#7 := (seg_off _ k 5 24 7 (by decide)).trans ((seg_off _ x 8 24 7 (by decide)).trans ((seg_off _ a 14 24 7 (by decide)).trans ((seg_off _ d 19 24 7 (by decide)).trans ((seg_off _ cv 31 24 7 (by decide)).trans rfl))))
  have h1 : seg (encode (.vshdn cv d a x k)) 0 5 = 4#5 := (seg_off _ k 5 0 5 (by decide)).trans ((seg_off _ x 8 0 5 (by decide)).trans ((seg_off _ a 14 0 5 (by decide)).trans ((seg_off _ d 19 0 5 (by decide)).trans ((seg_off _ cv 31 0 5 (by decide)).trans rfl))))
  have h2 : seg (encode (.vshdn cv d a x k)) 31 1 = cv := (seg_off _ k 5 31 1 (by decide)).trans ((seg_off _ x 8 31 1 (by decide)).trans ((seg_off _ a 14 31 1 (by decide)).trans ((seg_off _ d 19 31 1 (by decide)).trans (seg_hit _ cv 31 rfl (by decide)))))
  have h3 : seg (encode (.vshdn cv d a x k)) 19 5 = d := (seg_off _ k 5 19 5 (by decide)).trans ((seg_off _ x 8 19 5 (by decide)).trans ((seg_off _ a 14 19 5 (by decide)).trans (seg_hit _ d 19 ((seg_off _ cv 31 19 5 (by decide)).trans rfl) (by decide))))
  have h4 : seg (encode (.vshdn cv d a x k)) 14 5 = a := (seg_off _ k 5 14 5 (by decide)).trans ((seg_off _ x 8 14 5 (by decide)).trans (seg_hit _ a 14 ((seg_off _ d 19 14 5 (by decide)).trans ((seg_off _ cv 31 14 5 (by decide)).trans rfl)) (by decide)))
  have h5 : seg (encode (.vshdn cv d a x k)) 8 6 = x := (seg_off _ k 5 8 6 (by decide)).trans (seg_hit _ x 8 ((seg_off _ a 14 8 6 (by decide)).trans ((seg_off _ d 19 8 6 (by decide)).trans ((seg_off _ cv 31 8 6 (by decide)).trans rfl))) (by decide))
  have h6 : seg (encode (.vshdn cv d a x k)) 5 3 = k := seg_hit _ k 5 ((seg_off _ x 8 5 3 (by decide)).trans ((seg_off _ a 14 5 3 (by decide)).trans ((seg_off _ d 19 5 3 (by decide)).trans ((seg_off _ cv 31 5 3 (by decide)).trans rfl)))) (by decide)
  exact decode_of (form2F m (by simp [decode2F, h1, h2, h3, h4, h5, h6]))
theorem RoundTrip.kcount (cv : BitVec 1) (a : BitVec 3) (x : BitVec 6) (k : BitVec 3) : RoundTrip.Statement (.kcount cv a x k) := by
  have m : seg (encode (.kcount cv a x k)) 24 7 = 47#7 := (seg_off _ k 5 24 7 (by decide)).trans ((seg_off _ x 8 24 7 (by decide)).trans ((seg_off _ a 14 24 7 (by decide)).trans ((seg_off _ cv 31 24 7 (by decide)).trans rfl)))
  have h1 : seg (encode (.kcount cv a x k)) 0 5 = 5#5 := (seg_off _ k 5 0 5 (by decide)).trans ((seg_off _ x 8 0 5 (by decide)).trans ((seg_off _ a 14 0 5 (by decide)).trans ((seg_off _ cv 31 0 5 (by decide)).trans rfl)))
  have h2 : seg (encode (.kcount cv a x k)) 17 2 = 0#2 := (seg_off _ k 5 17 2 (by decide)).trans ((seg_off _ x 8 17 2 (by decide)).trans ((seg_off _ a 14 17 2 (by decide)).trans ((seg_off _ cv 31 17 2 (by decide)).trans rfl)))
  have h3 : seg (encode (.kcount cv a x k)) 19 5 = 0#5 := (seg_off _ k 5 19 5 (by decide)).trans ((seg_off _ x 8 19 5 (by decide)).trans ((seg_off _ a 14 19 5 (by decide)).trans ((seg_off _ cv 31 19 5 (by decide)).trans rfl)))
  have h4 : seg (encode (.kcount cv a x k)) 31 1 = cv := (seg_off _ k 5 31 1 (by decide)).trans ((seg_off _ x 8 31 1 (by decide)).trans ((seg_off _ a 14 31 1 (by decide)).trans (seg_hit _ cv 31 rfl (by decide))))
  have h5 : seg (encode (.kcount cv a x k)) 14 3 = a := (seg_off _ k 5 14 3 (by decide)).trans ((seg_off _ x 8 14 3 (by decide)).trans (seg_hit _ a 14 ((seg_off _ cv 31 14 3 (by decide)).trans rfl) (by decide)))
  have h6 : seg (encode (.kcount cv a x k)) 8 6 = x := (seg_off _ k 5 8 6 (by decide)).trans (seg_hit _ x 8 ((seg_off _ a 14 8 6 (by decide)).trans ((seg_off _ cv 31 8 6 (by decide)).trans rfl)) (by decide))
  have h7 : seg (encode (.kcount cv a x k)) 5 3 = k := seg_hit _ k 5 ((seg_off _ x 8 5 3 (by decide)).trans ((seg_off _ a 14 5 3 (by decide)).trans ((seg_off _ cv 31 5 3 (by decide)).trans rfl))) (by decide)
  exact decode_of (form2F m (by simp [decode2F, h1, h2, h3, h4, h5, h6, h7]))
theorem RoundTrip.klead (cv : BitVec 1) (a : BitVec 3) (x : BitVec 6) (k : BitVec 3) : RoundTrip.Statement (.klead cv a x k) := by
  have m : seg (encode (.klead cv a x k)) 24 7 = 47#7 := (seg_off _ k 5 24 7 (by decide)).trans ((seg_off _ x 8 24 7 (by decide)).trans ((seg_off _ a 14 24 7 (by decide)).trans ((seg_off _ cv 31 24 7 (by decide)).trans rfl)))
  have h1 : seg (encode (.klead cv a x k)) 0 5 = 6#5 := (seg_off _ k 5 0 5 (by decide)).trans ((seg_off _ x 8 0 5 (by decide)).trans ((seg_off _ a 14 0 5 (by decide)).trans ((seg_off _ cv 31 0 5 (by decide)).trans rfl)))
  have h2 : seg (encode (.klead cv a x k)) 17 2 = 0#2 := (seg_off _ k 5 17 2 (by decide)).trans ((seg_off _ x 8 17 2 (by decide)).trans ((seg_off _ a 14 17 2 (by decide)).trans ((seg_off _ cv 31 17 2 (by decide)).trans rfl)))
  have h3 : seg (encode (.klead cv a x k)) 19 5 = 0#5 := (seg_off _ k 5 19 5 (by decide)).trans ((seg_off _ x 8 19 5 (by decide)).trans ((seg_off _ a 14 19 5 (by decide)).trans ((seg_off _ cv 31 19 5 (by decide)).trans rfl)))
  have h4 : seg (encode (.klead cv a x k)) 31 1 = cv := (seg_off _ k 5 31 1 (by decide)).trans ((seg_off _ x 8 31 1 (by decide)).trans ((seg_off _ a 14 31 1 (by decide)).trans (seg_hit _ cv 31 rfl (by decide))))
  have h5 : seg (encode (.klead cv a x k)) 14 3 = a := (seg_off _ k 5 14 3 (by decide)).trans ((seg_off _ x 8 14 3 (by decide)).trans (seg_hit _ a 14 ((seg_off _ cv 31 14 3 (by decide)).trans rfl) (by decide)))
  have h6 : seg (encode (.klead cv a x k)) 8 6 = x := (seg_off _ k 5 8 6 (by decide)).trans (seg_hit _ x 8 ((seg_off _ a 14 8 6 (by decide)).trans ((seg_off _ cv 31 8 6 (by decide)).trans rfl)) (by decide))
  have h7 : seg (encode (.klead cv a x k)) 5 3 = k := seg_hit _ k 5 ((seg_off _ x 8 5 3 (by decide)).trans ((seg_off _ a 14 5 3 (by decide)).trans ((seg_off _ cv 31 5 3 (by decide)).trans rfl))) (by decide)
  exact decode_of (form2F m (by simp [decode2F, h1, h2, h3, h4, h5, h6, h7]))
theorem RoundTrip.vld (cv : BitVec 1) (v : BitVec 5) (a : BitVec 6) (k : BitVec 3) (sf : BitVec 2) : RoundTrip.Statement (.vld cv v a k sf) := by
  have m : seg (encode (.vld cv v a k sf)) 24 7 = 48#7 := (seg_off _ sf 2 24 7 (by decide)).trans ((seg_off _ k 4 24 7 (by decide)).trans ((seg_off _ a 13 24 7 (by decide)).trans ((seg_off _ v 19 24 7 (by decide)).trans ((seg_off _ cv 31 24 7 (by decide)).trans rfl))))
  have h1 : seg (encode (.vld cv v a k sf)) 0 2 = 0#2 := (seg_off _ sf 2 0 2 (by decide)).trans ((seg_off _ k 4 0 2 (by decide)).trans ((seg_off _ a 13 0 2 (by decide)).trans ((seg_off _ v 19 0 2 (by decide)).trans ((seg_off _ cv 31 0 2 (by decide)).trans rfl))))
  have h2 : seg (encode (.vld cv v a k sf)) 7 6 = 0#6 := (seg_off _ sf 2 7 6 (by decide)).trans ((seg_off _ k 4 7 6 (by decide)).trans ((seg_off _ a 13 7 6 (by decide)).trans ((seg_off _ v 19 7 6 (by decide)).trans ((seg_off _ cv 31 7 6 (by decide)).trans rfl))))
  have h3 : seg (encode (.vld cv v a k sf)) 31 1 = cv := (seg_off _ sf 2 31 1 (by decide)).trans ((seg_off _ k 4 31 1 (by decide)).trans ((seg_off _ a 13 31 1 (by decide)).trans ((seg_off _ v 19 31 1 (by decide)).trans (seg_hit _ cv 31 rfl (by decide)))))
  have h4 : seg (encode (.vld cv v a k sf)) 19 5 = v := (seg_off _ sf 2 19 5 (by decide)).trans ((seg_off _ k 4 19 5 (by decide)).trans ((seg_off _ a 13 19 5 (by decide)).trans (seg_hit _ v 19 ((seg_off _ cv 31 19 5 (by decide)).trans rfl) (by decide))))
  have h5 : seg (encode (.vld cv v a k sf)) 13 6 = a := (seg_off _ sf 2 13 6 (by decide)).trans ((seg_off _ k 4 13 6 (by decide)).trans (seg_hit _ a 13 ((seg_off _ v 19 13 6 (by decide)).trans ((seg_off _ cv 31 13 6 (by decide)).trans rfl)) (by decide)))
  have h6 : seg (encode (.vld cv v a k sf)) 4 3 = k := (seg_off _ sf 2 4 3 (by decide)).trans (seg_hit _ k 4 ((seg_off _ a 13 4 3 (by decide)).trans ((seg_off _ v 19 4 3 (by decide)).trans ((seg_off _ cv 31 4 3 (by decide)).trans rfl))) (by decide))
  have h7 : seg (encode (.vld cv v a k sf)) 2 2 = sf := seg_hit _ sf 2 ((seg_off _ k 4 2 2 (by decide)).trans ((seg_off _ a 13 2 2 (by decide)).trans ((seg_off _ v 19 2 2 (by decide)).trans ((seg_off _ cv 31 2 2 (by decide)).trans rfl)))) (by decide)
  exact decode_of (form30 m (by simp [decode30, h1, h2, h3, h4, h5, h6, h7]))
theorem RoundTrip.vldStr (cv : BitVec 1) (v : BitVec 5) (a : BitVec 6) (b : BitVec 6) (k : BitVec 3) (sf : BitVec 2) : RoundTrip.Statement (.vldStr cv v a b k sf) := by
  have m : seg (encode (.vldStr cv v a b k sf)) 24 7 = 48#7 := (seg_off _ sf 2 24 7 (by decide)).trans ((seg_off _ k 4 24 7 (by decide)).trans ((seg_off _ b 7 24 7 (by decide)).trans ((seg_off _ a 13 24 7 (by decide)).trans ((seg_off _ v 19 24 7 (by decide)).trans ((seg_off _ cv 31 24 7 (by decide)).trans rfl)))))
  have h1 : seg (encode (.vldStr cv v a b k sf)) 0 2 = 1#2 := (seg_off _ sf 2 0 2 (by decide)).trans ((seg_off _ k 4 0 2 (by decide)).trans ((seg_off _ b 7 0 2 (by decide)).trans ((seg_off _ a 13 0 2 (by decide)).trans ((seg_off _ v 19 0 2 (by decide)).trans ((seg_off _ cv 31 0 2 (by decide)).trans rfl)))))
  have h2 : seg (encode (.vldStr cv v a b k sf)) 31 1 = cv := (seg_off _ sf 2 31 1 (by decide)).trans ((seg_off _ k 4 31 1 (by decide)).trans ((seg_off _ b 7 31 1 (by decide)).trans ((seg_off _ a 13 31 1 (by decide)).trans ((seg_off _ v 19 31 1 (by decide)).trans (seg_hit _ cv 31 rfl (by decide))))))
  have h3 : seg (encode (.vldStr cv v a b k sf)) 19 5 = v := (seg_off _ sf 2 19 5 (by decide)).trans ((seg_off _ k 4 19 5 (by decide)).trans ((seg_off _ b 7 19 5 (by decide)).trans ((seg_off _ a 13 19 5 (by decide)).trans (seg_hit _ v 19 ((seg_off _ cv 31 19 5 (by decide)).trans rfl) (by decide)))))
  have h4 : seg (encode (.vldStr cv v a b k sf)) 13 6 = a := (seg_off _ sf 2 13 6 (by decide)).trans ((seg_off _ k 4 13 6 (by decide)).trans ((seg_off _ b 7 13 6 (by decide)).trans (seg_hit _ a 13 ((seg_off _ v 19 13 6 (by decide)).trans ((seg_off _ cv 31 13 6 (by decide)).trans rfl)) (by decide))))
  have h5 : seg (encode (.vldStr cv v a b k sf)) 7 6 = b := (seg_off _ sf 2 7 6 (by decide)).trans ((seg_off _ k 4 7 6 (by decide)).trans (seg_hit _ b 7 ((seg_off _ a 13 7 6 (by decide)).trans ((seg_off _ v 19 7 6 (by decide)).trans ((seg_off _ cv 31 7 6 (by decide)).trans rfl))) (by decide)))
  have h6 : seg (encode (.vldStr cv v a b k sf)) 4 3 = k := (seg_off _ sf 2 4 3 (by decide)).trans (seg_hit _ k 4 ((seg_off _ b 7 4 3 (by decide)).trans ((seg_off _ a 13 4 3 (by decide)).trans ((seg_off _ v 19 4 3 (by decide)).trans ((seg_off _ cv 31 4 3 (by decide)).trans rfl)))) (by decide))
  have h7 : seg (encode (.vldStr cv v a b k sf)) 2 2 = sf := seg_hit _ sf 2 ((seg_off _ k 4 2 2 (by decide)).trans ((seg_off _ b 7 2 2 (by decide)).trans ((seg_off _ a 13 2 2 (by decide)).trans ((seg_off _ v 19 2 2 (by decide)).trans ((seg_off _ cv 31 2 2 (by decide)).trans rfl))))) (by decide)
  exact decode_of (form30 m (by simp [decode30, h1, h2, h3, h4, h5, h6, h7]))
theorem RoundTrip.vldM (cv : BitVec 1) (v : BitVec 3) (a : BitVec 6) (sf : BitVec 2) : RoundTrip.Statement (.vldM cv v a sf) := by
  have m : seg (encode (.vldM cv v a sf)) 24 7 = 48#7 := (seg_off _ sf 2 24 7 (by decide)).trans ((seg_off _ a 13 24 7 (by decide)).trans ((seg_off _ v 19 24 7 (by decide)).trans ((seg_off _ cv 31 24 7 (by decide)).trans rfl)))
  have h1 : seg (encode (.vldM cv v a sf)) 0 2 = 2#2 := (seg_off _ sf 2 0 2 (by decide)).trans ((seg_off _ a 13 0 2 (by decide)).trans ((seg_off _ v 19 0 2 (by decide)).trans ((seg_off _ cv 31 0 2 (by decide)).trans rfl)))
  have h2 : seg (encode (.vldM cv v a sf)) 4 3 = 0#3 := (seg_off _ sf 2 4 3 (by decide)).trans ((seg_off _ a 13 4 3 (by decide)).trans ((seg_off _ v 19 4 3 (by decide)).trans ((seg_off _ cv 31 4 3 (by decide)).trans rfl)))
  have h3 : seg (encode (.vldM cv v a sf)) 7 6 = 0#6 := (seg_off _ sf 2 7 6 (by decide)).trans ((seg_off _ a 13 7 6 (by decide)).trans ((seg_off _ v 19 7 6 (by decide)).trans ((seg_off _ cv 31 7 6 (by decide)).trans rfl)))
  have h4 : seg (encode (.vldM cv v a sf)) 22 2 = 0#2 := (seg_off _ sf 2 22 2 (by decide)).trans ((seg_off _ a 13 22 2 (by decide)).trans ((seg_off _ v 19 22 2 (by decide)).trans ((seg_off _ cv 31 22 2 (by decide)).trans rfl)))
  have h5 : seg (encode (.vldM cv v a sf)) 31 1 = cv := (seg_off _ sf 2 31 1 (by decide)).trans ((seg_off _ a 13 31 1 (by decide)).trans ((seg_off _ v 19 31 1 (by decide)).trans (seg_hit _ cv 31 rfl (by decide))))
  have h6 : seg (encode (.vldM cv v a sf)) 19 3 = v := (seg_off _ sf 2 19 3 (by decide)).trans ((seg_off _ a 13 19 3 (by decide)).trans (seg_hit _ v 19 ((seg_off _ cv 31 19 3 (by decide)).trans rfl) (by decide)))
  have h7 : seg (encode (.vldM cv v a sf)) 13 6 = a := (seg_off _ sf 2 13 6 (by decide)).trans (seg_hit _ a 13 ((seg_off _ v 19 13 6 (by decide)).trans ((seg_off _ cv 31 13 6 (by decide)).trans rfl)) (by decide))
  have h8 : seg (encode (.vldM cv v a sf)) 2 2 = sf := seg_hit _ sf 2 ((seg_off _ a 13 2 2 (by decide)).trans ((seg_off _ v 19 2 2 (by decide)).trans ((seg_off _ cv 31 2 2 (by decide)).trans rfl))) (by decide)
  exact decode_of (form30 m (by simp [decode30, h1, h2, h3, h4, h5, h6, h7, h8]))
theorem RoundTrip.vst (cv : BitVec 1) (v : BitVec 5) (a : BitVec 6) (k : BitVec 3) (sf : BitVec 2) : RoundTrip.Statement (.vst cv v a k sf) := by
  have m : seg (encode (.vst cv v a k sf)) 24 7 = 49#7 := (seg_off _ sf 2 24 7 (by decide)).trans ((seg_off _ k 4 24 7 (by decide)).trans ((seg_off _ a 13 24 7 (by decide)).trans ((seg_off _ v 19 24 7 (by decide)).trans ((seg_off _ cv 31 24 7 (by decide)).trans rfl))))
  have h1 : seg (encode (.vst cv v a k sf)) 0 2 = 0#2 := (seg_off _ sf 2 0 2 (by decide)).trans ((seg_off _ k 4 0 2 (by decide)).trans ((seg_off _ a 13 0 2 (by decide)).trans ((seg_off _ v 19 0 2 (by decide)).trans ((seg_off _ cv 31 0 2 (by decide)).trans rfl))))
  have h2 : seg (encode (.vst cv v a k sf)) 7 6 = 0#6 := (seg_off _ sf 2 7 6 (by decide)).trans ((seg_off _ k 4 7 6 (by decide)).trans ((seg_off _ a 13 7 6 (by decide)).trans ((seg_off _ v 19 7 6 (by decide)).trans ((seg_off _ cv 31 7 6 (by decide)).trans rfl))))
  have h3 : seg (encode (.vst cv v a k sf)) 31 1 = cv := (seg_off _ sf 2 31 1 (by decide)).trans ((seg_off _ k 4 31 1 (by decide)).trans ((seg_off _ a 13 31 1 (by decide)).trans ((seg_off _ v 19 31 1 (by decide)).trans (seg_hit _ cv 31 rfl (by decide)))))
  have h4 : seg (encode (.vst cv v a k sf)) 19 5 = v := (seg_off _ sf 2 19 5 (by decide)).trans ((seg_off _ k 4 19 5 (by decide)).trans ((seg_off _ a 13 19 5 (by decide)).trans (seg_hit _ v 19 ((seg_off _ cv 31 19 5 (by decide)).trans rfl) (by decide))))
  have h5 : seg (encode (.vst cv v a k sf)) 13 6 = a := (seg_off _ sf 2 13 6 (by decide)).trans ((seg_off _ k 4 13 6 (by decide)).trans (seg_hit _ a 13 ((seg_off _ v 19 13 6 (by decide)).trans ((seg_off _ cv 31 13 6 (by decide)).trans rfl)) (by decide)))
  have h6 : seg (encode (.vst cv v a k sf)) 4 3 = k := (seg_off _ sf 2 4 3 (by decide)).trans (seg_hit _ k 4 ((seg_off _ a 13 4 3 (by decide)).trans ((seg_off _ v 19 4 3 (by decide)).trans ((seg_off _ cv 31 4 3 (by decide)).trans rfl))) (by decide))
  have h7 : seg (encode (.vst cv v a k sf)) 2 2 = sf := seg_hit _ sf 2 ((seg_off _ k 4 2 2 (by decide)).trans ((seg_off _ a 13 2 2 (by decide)).trans ((seg_off _ v 19 2 2 (by decide)).trans ((seg_off _ cv 31 2 2 (by decide)).trans rfl)))) (by decide)
  exact decode_of (form31 m (by simp [decode31, h1, h2, h3, h4, h5, h6, h7]))
theorem RoundTrip.vstStr (cv : BitVec 1) (v : BitVec 5) (a : BitVec 6) (b : BitVec 6) (k : BitVec 3) (sf : BitVec 2) : RoundTrip.Statement (.vstStr cv v a b k sf) := by
  have m : seg (encode (.vstStr cv v a b k sf)) 24 7 = 49#7 := (seg_off _ sf 2 24 7 (by decide)).trans ((seg_off _ k 4 24 7 (by decide)).trans ((seg_off _ b 7 24 7 (by decide)).trans ((seg_off _ a 13 24 7 (by decide)).trans ((seg_off _ v 19 24 7 (by decide)).trans ((seg_off _ cv 31 24 7 (by decide)).trans rfl)))))
  have h1 : seg (encode (.vstStr cv v a b k sf)) 0 2 = 1#2 := (seg_off _ sf 2 0 2 (by decide)).trans ((seg_off _ k 4 0 2 (by decide)).trans ((seg_off _ b 7 0 2 (by decide)).trans ((seg_off _ a 13 0 2 (by decide)).trans ((seg_off _ v 19 0 2 (by decide)).trans ((seg_off _ cv 31 0 2 (by decide)).trans rfl)))))
  have h2 : seg (encode (.vstStr cv v a b k sf)) 31 1 = cv := (seg_off _ sf 2 31 1 (by decide)).trans ((seg_off _ k 4 31 1 (by decide)).trans ((seg_off _ b 7 31 1 (by decide)).trans ((seg_off _ a 13 31 1 (by decide)).trans ((seg_off _ v 19 31 1 (by decide)).trans (seg_hit _ cv 31 rfl (by decide))))))
  have h3 : seg (encode (.vstStr cv v a b k sf)) 19 5 = v := (seg_off _ sf 2 19 5 (by decide)).trans ((seg_off _ k 4 19 5 (by decide)).trans ((seg_off _ b 7 19 5 (by decide)).trans ((seg_off _ a 13 19 5 (by decide)).trans (seg_hit _ v 19 ((seg_off _ cv 31 19 5 (by decide)).trans rfl) (by decide)))))
  have h4 : seg (encode (.vstStr cv v a b k sf)) 13 6 = a := (seg_off _ sf 2 13 6 (by decide)).trans ((seg_off _ k 4 13 6 (by decide)).trans ((seg_off _ b 7 13 6 (by decide)).trans (seg_hit _ a 13 ((seg_off _ v 19 13 6 (by decide)).trans ((seg_off _ cv 31 13 6 (by decide)).trans rfl)) (by decide))))
  have h5 : seg (encode (.vstStr cv v a b k sf)) 7 6 = b := (seg_off _ sf 2 7 6 (by decide)).trans ((seg_off _ k 4 7 6 (by decide)).trans (seg_hit _ b 7 ((seg_off _ a 13 7 6 (by decide)).trans ((seg_off _ v 19 7 6 (by decide)).trans ((seg_off _ cv 31 7 6 (by decide)).trans rfl))) (by decide)))
  have h6 : seg (encode (.vstStr cv v a b k sf)) 4 3 = k := (seg_off _ sf 2 4 3 (by decide)).trans (seg_hit _ k 4 ((seg_off _ b 7 4 3 (by decide)).trans ((seg_off _ a 13 4 3 (by decide)).trans ((seg_off _ v 19 4 3 (by decide)).trans ((seg_off _ cv 31 4 3 (by decide)).trans rfl)))) (by decide))
  have h7 : seg (encode (.vstStr cv v a b k sf)) 2 2 = sf := seg_hit _ sf 2 ((seg_off _ k 4 2 2 (by decide)).trans ((seg_off _ b 7 2 2 (by decide)).trans ((seg_off _ a 13 2 2 (by decide)).trans ((seg_off _ v 19 2 2 (by decide)).trans ((seg_off _ cv 31 2 2 (by decide)).trans rfl))))) (by decide)
  exact decode_of (form31 m (by simp [decode31, h1, h2, h3, h4, h5, h6, h7]))
theorem RoundTrip.vstM (cv : BitVec 1) (v : BitVec 3) (a : BitVec 6) (sf : BitVec 2) : RoundTrip.Statement (.vstM cv v a sf) := by
  have m : seg (encode (.vstM cv v a sf)) 24 7 = 49#7 := (seg_off _ sf 2 24 7 (by decide)).trans ((seg_off _ a 13 24 7 (by decide)).trans ((seg_off _ v 19 24 7 (by decide)).trans ((seg_off _ cv 31 24 7 (by decide)).trans rfl)))
  have h1 : seg (encode (.vstM cv v a sf)) 0 2 = 2#2 := (seg_off _ sf 2 0 2 (by decide)).trans ((seg_off _ a 13 0 2 (by decide)).trans ((seg_off _ v 19 0 2 (by decide)).trans ((seg_off _ cv 31 0 2 (by decide)).trans rfl)))
  have h2 : seg (encode (.vstM cv v a sf)) 4 3 = 0#3 := (seg_off _ sf 2 4 3 (by decide)).trans ((seg_off _ a 13 4 3 (by decide)).trans ((seg_off _ v 19 4 3 (by decide)).trans ((seg_off _ cv 31 4 3 (by decide)).trans rfl)))
  have h3 : seg (encode (.vstM cv v a sf)) 7 6 = 0#6 := (seg_off _ sf 2 7 6 (by decide)).trans ((seg_off _ a 13 7 6 (by decide)).trans ((seg_off _ v 19 7 6 (by decide)).trans ((seg_off _ cv 31 7 6 (by decide)).trans rfl)))
  have h4 : seg (encode (.vstM cv v a sf)) 22 2 = 0#2 := (seg_off _ sf 2 22 2 (by decide)).trans ((seg_off _ a 13 22 2 (by decide)).trans ((seg_off _ v 19 22 2 (by decide)).trans ((seg_off _ cv 31 22 2 (by decide)).trans rfl)))
  have h5 : seg (encode (.vstM cv v a sf)) 31 1 = cv := (seg_off _ sf 2 31 1 (by decide)).trans ((seg_off _ a 13 31 1 (by decide)).trans ((seg_off _ v 19 31 1 (by decide)).trans (seg_hit _ cv 31 rfl (by decide))))
  have h6 : seg (encode (.vstM cv v a sf)) 19 3 = v := (seg_off _ sf 2 19 3 (by decide)).trans ((seg_off _ a 13 19 3 (by decide)).trans (seg_hit _ v 19 ((seg_off _ cv 31 19 3 (by decide)).trans rfl) (by decide)))
  have h7 : seg (encode (.vstM cv v a sf)) 13 6 = a := (seg_off _ sf 2 13 6 (by decide)).trans (seg_hit _ a 13 ((seg_off _ v 19 13 6 (by decide)).trans ((seg_off _ cv 31 13 6 (by decide)).trans rfl)) (by decide))
  have h8 : seg (encode (.vstM cv v a sf)) 2 2 = sf := seg_hit _ sf 2 ((seg_off _ a 13 2 2 (by decide)).trans ((seg_off _ v 19 2 2 (by decide)).trans ((seg_off _ cv 31 2 2 (by decide)).trans rfl))) (by decide)
  exact decode_of (form31 m (by simp [decode31, h1, h2, h3, h4, h5, h6, h7, h8]))
theorem RoundTrip.vcvt (cv : BitVec 1) (d : BitVec 5) (a : BitVec 5) (f : BitVec 5) (k : BitVec 3) (r : BitVec 3) (t : BitVec 1) (e : BitVec 2) : RoundTrip.Statement (.vcvt cv d a f k r t e) := by
  have m : seg (encode (.vcvt cv d a f k r t e)) 24 7 = 45#7 := (seg_off _ e 0 24 7 (by decide)).trans ((seg_off _ t 2 24 7 (by decide)).trans ((seg_off _ r 3 24 7 (by decide)).trans ((seg_off _ k 6 24 7 (by decide)).trans ((seg_off _ f 9 24 7 (by decide)).trans ((seg_off _ a 14 24 7 (by decide)).trans ((seg_off _ d 19 24 7 (by decide)).trans ((seg_off _ cv 31 24 7 (by decide)).trans rfl)))))))
  have h1 : seg (encode (.vcvt cv d a f k r t e)) 31 1 = cv := (seg_off _ e 0 31 1 (by decide)).trans ((seg_off _ t 2 31 1 (by decide)).trans ((seg_off _ r 3 31 1 (by decide)).trans ((seg_off _ k 6 31 1 (by decide)).trans ((seg_off _ f 9 31 1 (by decide)).trans ((seg_off _ a 14 31 1 (by decide)).trans ((seg_off _ d 19 31 1 (by decide)).trans (seg_hit _ cv 31 rfl (by decide))))))))
  have h2 : seg (encode (.vcvt cv d a f k r t e)) 19 5 = d := (seg_off _ e 0 19 5 (by decide)).trans ((seg_off _ t 2 19 5 (by decide)).trans ((seg_off _ r 3 19 5 (by decide)).trans ((seg_off _ k 6 19 5 (by decide)).trans ((seg_off _ f 9 19 5 (by decide)).trans ((seg_off _ a 14 19 5 (by decide)).trans (seg_hit _ d 19 ((seg_off _ cv 31 19 5 (by decide)).trans rfl) (by decide)))))))
  have h3 : seg (encode (.vcvt cv d a f k r t e)) 14 5 = a := (seg_off _ e 0 14 5 (by decide)).trans ((seg_off _ t 2 14 5 (by decide)).trans ((seg_off _ r 3 14 5 (by decide)).trans ((seg_off _ k 6 14 5 (by decide)).trans ((seg_off _ f 9 14 5 (by decide)).trans (seg_hit _ a 14 ((seg_off _ d 19 14 5 (by decide)).trans ((seg_off _ cv 31 14 5 (by decide)).trans rfl)) (by decide))))))
  have h4 : seg (encode (.vcvt cv d a f k r t e)) 9 5 = f := (seg_off _ e 0 9 5 (by decide)).trans ((seg_off _ t 2 9 5 (by decide)).trans ((seg_off _ r 3 9 5 (by decide)).trans ((seg_off _ k 6 9 5 (by decide)).trans (seg_hit _ f 9 ((seg_off _ a 14 9 5 (by decide)).trans ((seg_off _ d 19 9 5 (by decide)).trans ((seg_off _ cv 31 9 5 (by decide)).trans rfl))) (by decide)))))
  have h5 : seg (encode (.vcvt cv d a f k r t e)) 6 3 = k := (seg_off _ e 0 6 3 (by decide)).trans ((seg_off _ t 2 6 3 (by decide)).trans ((seg_off _ r 3 6 3 (by decide)).trans (seg_hit _ k 6 ((seg_off _ f 9 6 3 (by decide)).trans ((seg_off _ a 14 6 3 (by decide)).trans ((seg_off _ d 19 6 3 (by decide)).trans ((seg_off _ cv 31 6 3 (by decide)).trans rfl)))) (by decide))))
  have h6 : seg (encode (.vcvt cv d a f k r t e)) 3 3 = r := (seg_off _ e 0 3 3 (by decide)).trans ((seg_off _ t 2 3 3 (by decide)).trans (seg_hit _ r 3 ((seg_off _ k 6 3 3 (by decide)).trans ((seg_off _ f 9 3 3 (by decide)).trans ((seg_off _ a 14 3 3 (by decide)).trans ((seg_off _ d 19 3 3 (by decide)).trans ((seg_off _ cv 31 3 3 (by decide)).trans rfl))))) (by decide)))
  have h7 : seg (encode (.vcvt cv d a f k r t e)) 2 1 = t := (seg_off _ e 0 2 1 (by decide)).trans (seg_hit _ t 2 ((seg_off _ r 3 2 1 (by decide)).trans ((seg_off _ k 6 2 1 (by decide)).trans ((seg_off _ f 9 2 1 (by decide)).trans ((seg_off _ a 14 2 1 (by decide)).trans ((seg_off _ d 19 2 1 (by decide)).trans ((seg_off _ cv 31 2 1 (by decide)).trans rfl)))))) (by decide))
  have h8 : seg (encode (.vcvt cv d a f k r t e)) 0 2 = e := seg_hit _ e 0 ((seg_off _ t 2 0 2 (by decide)).trans ((seg_off _ r 3 0 2 (by decide)).trans ((seg_off _ k 6 0 2 (by decide)).trans ((seg_off _ f 9 0 2 (by decide)).trans ((seg_off _ a 14 0 2 (by decide)).trans ((seg_off _ d 19 0 2 (by decide)).trans ((seg_off _ cv 31 0 2 (by decide)).trans rfl))))))) (by decide)
  exact decode_of (form2D m (by simp [decode2D, h1, h2, h3, h4, h5, h6, h7, h8]))
theorem RoundTrip.slicvt (cv : BitVec 1) (d : BitVec 5) (a : BitVec 5) (f : BitVec 5) (k : BitVec 3) (r : BitVec 3) (t : BitVec 1) (e : BitVec 2) : RoundTrip.Statement (.slicvt cv d a f k r t e) := by
  have m : seg (encode (.slicvt cv d a f k r t e)) 24 7 = 76#7 := (seg_off _ e 0 24 7 (by decide)).trans ((seg_off _ t 2 24 7 (by decide)).trans ((seg_off _ r 3 24 7 (by decide)).trans ((seg_off _ k 6 24 7 (by decide)).trans ((seg_off _ f 9 24 7 (by decide)).trans ((seg_off _ a 14 24 7 (by decide)).trans ((seg_off _ d 19 24 7 (by decide)).trans ((seg_off _ cv 31 24 7 (by decide)).trans rfl)))))))
  have h1 : seg (encode (.slicvt cv d a f k r t e)) 31 1 = cv := (seg_off _ e 0 31 1 (by decide)).trans ((seg_off _ t 2 31 1 (by decide)).trans ((seg_off _ r 3 31 1 (by decide)).trans ((seg_off _ k 6 31 1 (by decide)).trans ((seg_off _ f 9 31 1 (by decide)).trans ((seg_off _ a 14 31 1 (by decide)).trans ((seg_off _ d 19 31 1 (by decide)).trans (seg_hit _ cv 31 rfl (by decide))))))))
  have h2 : seg (encode (.slicvt cv d a f k r t e)) 19 5 = d := (seg_off _ e 0 19 5 (by decide)).trans ((seg_off _ t 2 19 5 (by decide)).trans ((seg_off _ r 3 19 5 (by decide)).trans ((seg_off _ k 6 19 5 (by decide)).trans ((seg_off _ f 9 19 5 (by decide)).trans ((seg_off _ a 14 19 5 (by decide)).trans (seg_hit _ d 19 ((seg_off _ cv 31 19 5 (by decide)).trans rfl) (by decide)))))))
  have h3 : seg (encode (.slicvt cv d a f k r t e)) 14 5 = a := (seg_off _ e 0 14 5 (by decide)).trans ((seg_off _ t 2 14 5 (by decide)).trans ((seg_off _ r 3 14 5 (by decide)).trans ((seg_off _ k 6 14 5 (by decide)).trans ((seg_off _ f 9 14 5 (by decide)).trans (seg_hit _ a 14 ((seg_off _ d 19 14 5 (by decide)).trans ((seg_off _ cv 31 14 5 (by decide)).trans rfl)) (by decide))))))
  have h4 : seg (encode (.slicvt cv d a f k r t e)) 9 5 = f := (seg_off _ e 0 9 5 (by decide)).trans ((seg_off _ t 2 9 5 (by decide)).trans ((seg_off _ r 3 9 5 (by decide)).trans ((seg_off _ k 6 9 5 (by decide)).trans (seg_hit _ f 9 ((seg_off _ a 14 9 5 (by decide)).trans ((seg_off _ d 19 9 5 (by decide)).trans ((seg_off _ cv 31 9 5 (by decide)).trans rfl))) (by decide)))))
  have h5 : seg (encode (.slicvt cv d a f k r t e)) 6 3 = k := (seg_off _ e 0 6 3 (by decide)).trans ((seg_off _ t 2 6 3 (by decide)).trans ((seg_off _ r 3 6 3 (by decide)).trans (seg_hit _ k 6 ((seg_off _ f 9 6 3 (by decide)).trans ((seg_off _ a 14 6 3 (by decide)).trans ((seg_off _ d 19 6 3 (by decide)).trans ((seg_off _ cv 31 6 3 (by decide)).trans rfl)))) (by decide))))
  have h6 : seg (encode (.slicvt cv d a f k r t e)) 3 3 = r := (seg_off _ e 0 3 3 (by decide)).trans ((seg_off _ t 2 3 3 (by decide)).trans (seg_hit _ r 3 ((seg_off _ k 6 3 3 (by decide)).trans ((seg_off _ f 9 3 3 (by decide)).trans ((seg_off _ a 14 3 3 (by decide)).trans ((seg_off _ d 19 3 3 (by decide)).trans ((seg_off _ cv 31 3 3 (by decide)).trans rfl))))) (by decide)))
  have h7 : seg (encode (.slicvt cv d a f k r t e)) 2 1 = t := (seg_off _ e 0 2 1 (by decide)).trans (seg_hit _ t 2 ((seg_off _ r 3 2 1 (by decide)).trans ((seg_off _ k 6 2 1 (by decide)).trans ((seg_off _ f 9 2 1 (by decide)).trans ((seg_off _ a 14 2 1 (by decide)).trans ((seg_off _ d 19 2 1 (by decide)).trans ((seg_off _ cv 31 2 1 (by decide)).trans rfl)))))) (by decide))
  have h8 : seg (encode (.slicvt cv d a f k r t e)) 0 2 = e := seg_hit _ e 0 ((seg_off _ t 2 0 2 (by decide)).trans ((seg_off _ r 3 0 2 (by decide)).trans ((seg_off _ k 6 0 2 (by decide)).trans ((seg_off _ f 9 0 2 (by decide)).trans ((seg_off _ a 14 0 2 (by decide)).trans ((seg_off _ d 19 0 2 (by decide)).trans ((seg_off _ cv 31 0 2 (by decide)).trans rfl))))))) (by decide)
  exact decode_of (form4C m (by simp [decode4C, h1, h2, h3, h4, h5, h6, h7, h8]))
theorem RoundTrip.vquant (cv : BitVec 1) (d : BitVec 5) (a : BitVec 5) (f : BitVec 5) (k : BitVec 3) (r : BitVec 3) : RoundTrip.Statement (.vquant cv d a f k r) := by
  have m : seg (encode (.vquant cv d a f k r)) 24 7 = 46#7 := (seg_off _ r 3 24 7 (by decide)).trans ((seg_off _ k 6 24 7 (by decide)).trans ((seg_off _ f 9 24 7 (by decide)).trans ((seg_off _ a 14 24 7 (by decide)).trans ((seg_off _ d 19 24 7 (by decide)).trans ((seg_off _ cv 31 24 7 (by decide)).trans rfl)))))
  have h1 : seg (encode (.vquant cv d a f k r)) 0 3 = 0#3 := (seg_off _ r 3 0 3 (by decide)).trans ((seg_off _ k 6 0 3 (by decide)).trans ((seg_off _ f 9 0 3 (by decide)).trans ((seg_off _ a 14 0 3 (by decide)).trans ((seg_off _ d 19 0 3 (by decide)).trans ((seg_off _ cv 31 0 3 (by decide)).trans rfl)))))
  have h2 : seg (encode (.vquant cv d a f k r)) 31 1 = cv := (seg_off _ r 3 31 1 (by decide)).trans ((seg_off _ k 6 31 1 (by decide)).trans ((seg_off _ f 9 31 1 (by decide)).trans ((seg_off _ a 14 31 1 (by decide)).trans ((seg_off _ d 19 31 1 (by decide)).trans (seg_hit _ cv 31 rfl (by decide))))))
  have h3 : seg (encode (.vquant cv d a f k r)) 19 5 = d := (seg_off _ r 3 19 5 (by decide)).trans ((seg_off _ k 6 19 5 (by decide)).trans ((seg_off _ f 9 19 5 (by decide)).trans ((seg_off _ a 14 19 5 (by decide)).trans (seg_hit _ d 19 ((seg_off _ cv 31 19 5 (by decide)).trans rfl) (by decide)))))
  have h4 : seg (encode (.vquant cv d a f k r)) 14 5 = a := (seg_off _ r 3 14 5 (by decide)).trans ((seg_off _ k 6 14 5 (by decide)).trans ((seg_off _ f 9 14 5 (by decide)).trans (seg_hit _ a 14 ((seg_off _ d 19 14 5 (by decide)).trans ((seg_off _ cv 31 14 5 (by decide)).trans rfl)) (by decide))))
  have h5 : seg (encode (.vquant cv d a f k r)) 9 5 = f := (seg_off _ r 3 9 5 (by decide)).trans ((seg_off _ k 6 9 5 (by decide)).trans (seg_hit _ f 9 ((seg_off _ a 14 9 5 (by decide)).trans ((seg_off _ d 19 9 5 (by decide)).trans ((seg_off _ cv 31 9 5 (by decide)).trans rfl))) (by decide)))
  have h6 : seg (encode (.vquant cv d a f k r)) 6 3 = k := (seg_off _ r 3 6 3 (by decide)).trans (seg_hit _ k 6 ((seg_off _ f 9 6 3 (by decide)).trans ((seg_off _ a 14 6 3 (by decide)).trans ((seg_off _ d 19 6 3 (by decide)).trans ((seg_off _ cv 31 6 3 (by decide)).trans rfl)))) (by decide))
  have h7 : seg (encode (.vquant cv d a f k r)) 3 3 = r := seg_hit _ r 3 ((seg_off _ k 6 3 3 (by decide)).trans ((seg_off _ f 9 3 3 (by decide)).trans ((seg_off _ a 14 3 3 (by decide)).trans ((seg_off _ d 19 3 3 (by decide)).trans ((seg_off _ cv 31 3 3 (by decide)).trans rfl))))) (by decide)
  exact decode_of (form2E m (by simp [decode2E, h1, h2, h3, h4, h5, h6, h7]))
theorem RoundTrip.vdeq (cv : BitVec 1) (d : BitVec 5) (a : BitVec 5) (f : BitVec 5) (k : BitVec 3) (r : BitVec 3) : RoundTrip.Statement (.vdeq cv d a f k r) := by
  have m : seg (encode (.vdeq cv d a f k r)) 24 7 = 46#7 := (seg_off _ r 3 24 7 (by decide)).trans ((seg_off _ k 6 24 7 (by decide)).trans ((seg_off _ f 9 24 7 (by decide)).trans ((seg_off _ a 14 24 7 (by decide)).trans ((seg_off _ d 19 24 7 (by decide)).trans ((seg_off _ cv 31 24 7 (by decide)).trans rfl)))))
  have h1 : seg (encode (.vdeq cv d a f k r)) 0 3 = 4#3 := (seg_off _ r 3 0 3 (by decide)).trans ((seg_off _ k 6 0 3 (by decide)).trans ((seg_off _ f 9 0 3 (by decide)).trans ((seg_off _ a 14 0 3 (by decide)).trans ((seg_off _ d 19 0 3 (by decide)).trans ((seg_off _ cv 31 0 3 (by decide)).trans rfl)))))
  have h2 : seg (encode (.vdeq cv d a f k r)) 31 1 = cv := (seg_off _ r 3 31 1 (by decide)).trans ((seg_off _ k 6 31 1 (by decide)).trans ((seg_off _ f 9 31 1 (by decide)).trans ((seg_off _ a 14 31 1 (by decide)).trans ((seg_off _ d 19 31 1 (by decide)).trans (seg_hit _ cv 31 rfl (by decide))))))
  have h3 : seg (encode (.vdeq cv d a f k r)) 19 5 = d := (seg_off _ r 3 19 5 (by decide)).trans ((seg_off _ k 6 19 5 (by decide)).trans ((seg_off _ f 9 19 5 (by decide)).trans ((seg_off _ a 14 19 5 (by decide)).trans (seg_hit _ d 19 ((seg_off _ cv 31 19 5 (by decide)).trans rfl) (by decide)))))
  have h4 : seg (encode (.vdeq cv d a f k r)) 14 5 = a := (seg_off _ r 3 14 5 (by decide)).trans ((seg_off _ k 6 14 5 (by decide)).trans ((seg_off _ f 9 14 5 (by decide)).trans (seg_hit _ a 14 ((seg_off _ d 19 14 5 (by decide)).trans ((seg_off _ cv 31 14 5 (by decide)).trans rfl)) (by decide))))
  have h5 : seg (encode (.vdeq cv d a f k r)) 9 5 = f := (seg_off _ r 3 9 5 (by decide)).trans ((seg_off _ k 6 9 5 (by decide)).trans (seg_hit _ f 9 ((seg_off _ a 14 9 5 (by decide)).trans ((seg_off _ d 19 9 5 (by decide)).trans ((seg_off _ cv 31 9 5 (by decide)).trans rfl))) (by decide)))
  have h6 : seg (encode (.vdeq cv d a f k r)) 6 3 = k := (seg_off _ r 3 6 3 (by decide)).trans (seg_hit _ k 6 ((seg_off _ f 9 6 3 (by decide)).trans ((seg_off _ a 14 6 3 (by decide)).trans ((seg_off _ d 19 6 3 (by decide)).trans ((seg_off _ cv 31 6 3 (by decide)).trans rfl)))) (by decide))
  have h7 : seg (encode (.vdeq cv d a f k r)) 3 3 = r := seg_hit _ r 3 ((seg_off _ k 6 3 3 (by decide)).trans ((seg_off _ f 9 3 3 (by decide)).trans ((seg_off _ a 14 3 3 (by decide)).trans ((seg_off _ d 19 3 3 (by decide)).trans ((seg_off _ cv 31 3 3 (by decide)).trans rfl))))) (by decide)
  exact decode_of (form2E m (by simp [decode2E, h1, h2, h3, h4, h5, h6, h7]))
theorem RoundTrip.sliopAdd (cv : BitVec 1) (d : BitVec 5) (a : BitVec 5) (b : BitVec 5) (k : BitVec 3) : RoundTrip.Statement (.sliopAdd cv d a b k) := by
  have m : seg (encode (.sliopAdd cv d a b k)) 24 7 = 74#7 := (seg_off _ k 6 24 7 (by decide)).trans ((seg_off _ b 9 24 7 (by decide)).trans ((seg_off _ a 14 24 7 (by decide)).trans ((seg_off _ d 19 24 7 (by decide)).trans ((seg_off _ cv 31 24 7 (by decide)).trans rfl))))
  have h1 : seg (encode (.sliopAdd cv d a b k)) 0 6 = 0#6 := (seg_off _ k 6 0 6 (by decide)).trans ((seg_off _ b 9 0 6 (by decide)).trans ((seg_off _ a 14 0 6 (by decide)).trans ((seg_off _ d 19 0 6 (by decide)).trans ((seg_off _ cv 31 0 6 (by decide)).trans rfl))))
  have h2 : seg (encode (.sliopAdd cv d a b k)) 31 1 = cv := (seg_off _ k 6 31 1 (by decide)).trans ((seg_off _ b 9 31 1 (by decide)).trans ((seg_off _ a 14 31 1 (by decide)).trans ((seg_off _ d 19 31 1 (by decide)).trans (seg_hit _ cv 31 rfl (by decide)))))
  have h3 : seg (encode (.sliopAdd cv d a b k)) 19 5 = d := (seg_off _ k 6 19 5 (by decide)).trans ((seg_off _ b 9 19 5 (by decide)).trans ((seg_off _ a 14 19 5 (by decide)).trans (seg_hit _ d 19 ((seg_off _ cv 31 19 5 (by decide)).trans rfl) (by decide))))
  have h4 : seg (encode (.sliopAdd cv d a b k)) 14 5 = a := (seg_off _ k 6 14 5 (by decide)).trans ((seg_off _ b 9 14 5 (by decide)).trans (seg_hit _ a 14 ((seg_off _ d 19 14 5 (by decide)).trans ((seg_off _ cv 31 14 5 (by decide)).trans rfl)) (by decide)))
  have h5 : seg (encode (.sliopAdd cv d a b k)) 9 5 = b := (seg_off _ k 6 9 5 (by decide)).trans (seg_hit _ b 9 ((seg_off _ a 14 9 5 (by decide)).trans ((seg_off _ d 19 9 5 (by decide)).trans ((seg_off _ cv 31 9 5 (by decide)).trans rfl))) (by decide))
  have h6 : seg (encode (.sliopAdd cv d a b k)) 6 3 = k := seg_hit _ k 6 ((seg_off _ b 9 6 3 (by decide)).trans ((seg_off _ a 14 6 3 (by decide)).trans ((seg_off _ d 19 6 3 (by decide)).trans ((seg_off _ cv 31 6 3 (by decide)).trans rfl)))) (by decide)
  exact decode_of (form4A m (by simp [decode4A, h1, h2, h3, h4, h5, h6]))
theorem RoundTrip.sliopSub (cv : BitVec 1) (d : BitVec 5) (a : BitVec 5) (b : BitVec 5) (k : BitVec 3) : RoundTrip.Statement (.sliopSub cv d a b k) := by
  have m : seg (encode (.sliopSub cv d a b k)) 24 7 = 74#7 := (seg_off _ k 6 24 7 (by decide)).trans ((seg_off _ b 9 24 7 (by decide)).trans ((seg_off _ a 14 24 7 (by decide)).trans ((seg_off _ d 19 24 7 (by decide)).trans ((seg_off _ cv 31 24 7 (by decide)).trans rfl))))
  have h1 : seg (encode (.sliopSub cv d a b k)) 0 6 = 1#6 := (seg_off _ k 6 0 6 (by decide)).trans ((seg_off _ b 9 0 6 (by decide)).trans ((seg_off _ a 14 0 6 (by decide)).trans ((seg_off _ d 19 0 6 (by decide)).trans ((seg_off _ cv 31 0 6 (by decide)).trans rfl))))
  have h2 : seg (encode (.sliopSub cv d a b k)) 31 1 = cv := (seg_off _ k 6 31 1 (by decide)).trans ((seg_off _ b 9 31 1 (by decide)).trans ((seg_off _ a 14 31 1 (by decide)).trans ((seg_off _ d 19 31 1 (by decide)).trans (seg_hit _ cv 31 rfl (by decide)))))
  have h3 : seg (encode (.sliopSub cv d a b k)) 19 5 = d := (seg_off _ k 6 19 5 (by decide)).trans ((seg_off _ b 9 19 5 (by decide)).trans ((seg_off _ a 14 19 5 (by decide)).trans (seg_hit _ d 19 ((seg_off _ cv 31 19 5 (by decide)).trans rfl) (by decide))))
  have h4 : seg (encode (.sliopSub cv d a b k)) 14 5 = a := (seg_off _ k 6 14 5 (by decide)).trans ((seg_off _ b 9 14 5 (by decide)).trans (seg_hit _ a 14 ((seg_off _ d 19 14 5 (by decide)).trans ((seg_off _ cv 31 14 5 (by decide)).trans rfl)) (by decide)))
  have h5 : seg (encode (.sliopSub cv d a b k)) 9 5 = b := (seg_off _ k 6 9 5 (by decide)).trans (seg_hit _ b 9 ((seg_off _ a 14 9 5 (by decide)).trans ((seg_off _ d 19 9 5 (by decide)).trans ((seg_off _ cv 31 9 5 (by decide)).trans rfl))) (by decide))
  have h6 : seg (encode (.sliopSub cv d a b k)) 6 3 = k := seg_hit _ k 6 ((seg_off _ b 9 6 3 (by decide)).trans ((seg_off _ a 14 6 3 (by decide)).trans ((seg_off _ d 19 6 3 (by decide)).trans ((seg_off _ cv 31 6 3 (by decide)).trans rfl)))) (by decide)
  exact decode_of (form4A m (by simp [decode4A, h1, h2, h3, h4, h5, h6]))
theorem RoundTrip.sliopMul (cv : BitVec 1) (d : BitVec 5) (a : BitVec 5) (b : BitVec 5) (k : BitVec 3) : RoundTrip.Statement (.sliopMul cv d a b k) := by
  have m : seg (encode (.sliopMul cv d a b k)) 24 7 = 74#7 := (seg_off _ k 6 24 7 (by decide)).trans ((seg_off _ b 9 24 7 (by decide)).trans ((seg_off _ a 14 24 7 (by decide)).trans ((seg_off _ d 19 24 7 (by decide)).trans ((seg_off _ cv 31 24 7 (by decide)).trans rfl))))
  have h1 : seg (encode (.sliopMul cv d a b k)) 0 6 = 2#6 := (seg_off _ k 6 0 6 (by decide)).trans ((seg_off _ b 9 0 6 (by decide)).trans ((seg_off _ a 14 0 6 (by decide)).trans ((seg_off _ d 19 0 6 (by decide)).trans ((seg_off _ cv 31 0 6 (by decide)).trans rfl))))
  have h2 : seg (encode (.sliopMul cv d a b k)) 31 1 = cv := (seg_off _ k 6 31 1 (by decide)).trans ((seg_off _ b 9 31 1 (by decide)).trans ((seg_off _ a 14 31 1 (by decide)).trans ((seg_off _ d 19 31 1 (by decide)).trans (seg_hit _ cv 31 rfl (by decide)))))
  have h3 : seg (encode (.sliopMul cv d a b k)) 19 5 = d := (seg_off _ k 6 19 5 (by decide)).trans ((seg_off _ b 9 19 5 (by decide)).trans ((seg_off _ a 14 19 5 (by decide)).trans (seg_hit _ d 19 ((seg_off _ cv 31 19 5 (by decide)).trans rfl) (by decide))))
  have h4 : seg (encode (.sliopMul cv d a b k)) 14 5 = a := (seg_off _ k 6 14 5 (by decide)).trans ((seg_off _ b 9 14 5 (by decide)).trans (seg_hit _ a 14 ((seg_off _ d 19 14 5 (by decide)).trans ((seg_off _ cv 31 14 5 (by decide)).trans rfl)) (by decide)))
  have h5 : seg (encode (.sliopMul cv d a b k)) 9 5 = b := (seg_off _ k 6 9 5 (by decide)).trans (seg_hit _ b 9 ((seg_off _ a 14 9 5 (by decide)).trans ((seg_off _ d 19 9 5 (by decide)).trans ((seg_off _ cv 31 9 5 (by decide)).trans rfl))) (by decide))
  have h6 : seg (encode (.sliopMul cv d a b k)) 6 3 = k := seg_hit _ k 6 ((seg_off _ b 9 6 3 (by decide)).trans ((seg_off _ a 14 6 3 (by decide)).trans ((seg_off _ d 19 6 3 (by decide)).trans ((seg_off _ cv 31 6 3 (by decide)).trans rfl)))) (by decide)
  exact decode_of (form4A m (by simp [decode4A, h1, h2, h3, h4, h5, h6]))
theorem RoundTrip.sliopDiv (cv : BitVec 1) (d : BitVec 5) (a : BitVec 5) (b : BitVec 5) (k : BitVec 3) : RoundTrip.Statement (.sliopDiv cv d a b k) := by
  have m : seg (encode (.sliopDiv cv d a b k)) 24 7 = 74#7 := (seg_off _ k 6 24 7 (by decide)).trans ((seg_off _ b 9 24 7 (by decide)).trans ((seg_off _ a 14 24 7 (by decide)).trans ((seg_off _ d 19 24 7 (by decide)).trans ((seg_off _ cv 31 24 7 (by decide)).trans rfl))))
  have h1 : seg (encode (.sliopDiv cv d a b k)) 0 6 = 3#6 := (seg_off _ k 6 0 6 (by decide)).trans ((seg_off _ b 9 0 6 (by decide)).trans ((seg_off _ a 14 0 6 (by decide)).trans ((seg_off _ d 19 0 6 (by decide)).trans ((seg_off _ cv 31 0 6 (by decide)).trans rfl))))
  have h2 : seg (encode (.sliopDiv cv d a b k)) 31 1 = cv := (seg_off _ k 6 31 1 (by decide)).trans ((seg_off _ b 9 31 1 (by decide)).trans ((seg_off _ a 14 31 1 (by decide)).trans ((seg_off _ d 19 31 1 (by decide)).trans (seg_hit _ cv 31 rfl (by decide)))))
  have h3 : seg (encode (.sliopDiv cv d a b k)) 19 5 = d := (seg_off _ k 6 19 5 (by decide)).trans ((seg_off _ b 9 19 5 (by decide)).trans ((seg_off _ a 14 19 5 (by decide)).trans (seg_hit _ d 19 ((seg_off _ cv 31 19 5 (by decide)).trans rfl) (by decide))))
  have h4 : seg (encode (.sliopDiv cv d a b k)) 14 5 = a := (seg_off _ k 6 14 5 (by decide)).trans ((seg_off _ b 9 14 5 (by decide)).trans (seg_hit _ a 14 ((seg_off _ d 19 14 5 (by decide)).trans ((seg_off _ cv 31 14 5 (by decide)).trans rfl)) (by decide)))
  have h5 : seg (encode (.sliopDiv cv d a b k)) 9 5 = b := (seg_off _ k 6 9 5 (by decide)).trans (seg_hit _ b 9 ((seg_off _ a 14 9 5 (by decide)).trans ((seg_off _ d 19 9 5 (by decide)).trans ((seg_off _ cv 31 9 5 (by decide)).trans rfl))) (by decide))
  have h6 : seg (encode (.sliopDiv cv d a b k)) 6 3 = k := seg_hit _ k 6 ((seg_off _ b 9 6 3 (by decide)).trans ((seg_off _ a 14 6 3 (by decide)).trans ((seg_off _ d 19 6 3 (by decide)).trans ((seg_off _ cv 31 6 3 (by decide)).trans rfl)))) (by decide)
  exact decode_of (form4A m (by simp [decode4A, h1, h2, h3, h4, h5, h6]))
theorem RoundTrip.slixAdd (cv : BitVec 1) (d : BitVec 5) (a : BitVec 5) (x : BitVec 6) (k : BitVec 3) : RoundTrip.Statement (.slixAdd cv d a x k) := by
  have m : seg (encode (.slixAdd cv d a x k)) 24 7 = 79#7 := (seg_off _ k 5 24 7 (by decide)).trans ((seg_off _ x 8 24 7 (by decide)).trans ((seg_off _ a 14 24 7 (by decide)).trans ((seg_off _ d 19 24 7 (by decide)).trans ((seg_off _ cv 31 24 7 (by decide)).trans rfl))))
  have h1 : seg (encode (.slixAdd cv d a x k)) 0 5 = 0#5 := (seg_off _ k 5 0 5 (by decide)).trans ((seg_off _ x 8 0 5 (by decide)).trans ((seg_off _ a 14 0 5 (by decide)).trans ((seg_off _ d 19 0 5 (by decide)).trans ((seg_off _ cv 31 0 5 (by decide)).trans rfl))))
  have h2 : seg (encode (.slixAdd cv d a x k)) 31 1 = cv := (seg_off _ k 5 31 1 (by decide)).trans ((seg_off _ x 8 31 1 (by decide)).trans ((seg_off _ a 14 31 1 (by decide)).trans ((seg_off _ d 19 31 1 (by decide)).trans (seg_hit _ cv 31 rfl (by decide)))))
  have h3 : seg (encode (.slixAdd cv d a x k)) 19 5 = d := (seg_off _ k 5 19 5 (by decide)).trans ((seg_off _ x 8 19 5 (by decide)).trans ((seg_off _ a 14 19 5 (by decide)).trans (seg_hit _ d 19 ((seg_off _ cv 31 19 5 (by decide)).trans rfl) (by decide))))
  have h4 : seg (encode (.slixAdd cv d a x k)) 14 5 = a := (seg_off _ k 5 14 5 (by decide)).trans ((seg_off _ x 8 14 5 (by decide)).trans (seg_hit _ a 14 ((seg_off _ d 19 14 5 (by decide)).trans ((seg_off _ cv 31 14 5 (by decide)).trans rfl)) (by decide)))
  have h5 : seg (encode (.slixAdd cv d a x k)) 8 6 = x := (seg_off _ k 5 8 6 (by decide)).trans (seg_hit _ x 8 ((seg_off _ a 14 8 6 (by decide)).trans ((seg_off _ d 19 8 6 (by decide)).trans ((seg_off _ cv 31 8 6 (by decide)).trans rfl))) (by decide))
  have h6 : seg (encode (.slixAdd cv d a x k)) 5 3 = k := seg_hit _ k 5 ((seg_off _ x 8 5 3 (by decide)).trans ((seg_off _ a 14 5 3 (by decide)).trans ((seg_off _ d 19 5 3 (by decide)).trans ((seg_off _ cv 31 5 3 (by decide)).trans rfl)))) (by decide)
  exact decode_of (form4F m (by simp [decode4F, h1, h2, h3, h4, h5, h6]))
theorem RoundTrip.slixSub (cv : BitVec 1) (d : BitVec 5) (a : BitVec 5) (x : BitVec 6) (k : BitVec 3) : RoundTrip.Statement (.slixSub cv d a x k) := by
  have m : seg (encode (.slixSub cv d a x k)) 24 7 = 79#7 := (seg_off _ k 5 24 7 (by decide)).trans ((seg_off _ x 8 24 7 (by decide)).trans ((seg_off _ a 14 24 7 (by decide)).trans ((seg_off _ d 19 24 7 (by decide)).trans ((seg_off _ cv 31 24 7 (by decide)).trans rfl))))
  have h1 : seg (encode (.slixSub cv d a x k)) 0 5 = 1#5 := (seg_off _ k 5 0 5 (by decide)).trans ((seg_off _ x 8 0 5 (by decide)).trans ((seg_off _ a 14 0 5 (by decide)).trans ((seg_off _ d 19 0 5 (by decide)).trans ((seg_off _ cv 31 0 5 (by decide)).trans rfl))))
  have h2 : seg (encode (.slixSub cv d a x k)) 31 1 = cv := (seg_off _ k 5 31 1 (by decide)).trans ((seg_off _ x 8 31 1 (by decide)).trans ((seg_off _ a 14 31 1 (by decide)).trans ((seg_off _ d 19 31 1 (by decide)).trans (seg_hit _ cv 31 rfl (by decide)))))
  have h3 : seg (encode (.slixSub cv d a x k)) 19 5 = d := (seg_off _ k 5 19 5 (by decide)).trans ((seg_off _ x 8 19 5 (by decide)).trans ((seg_off _ a 14 19 5 (by decide)).trans (seg_hit _ d 19 ((seg_off _ cv 31 19 5 (by decide)).trans rfl) (by decide))))
  have h4 : seg (encode (.slixSub cv d a x k)) 14 5 = a := (seg_off _ k 5 14 5 (by decide)).trans ((seg_off _ x 8 14 5 (by decide)).trans (seg_hit _ a 14 ((seg_off _ d 19 14 5 (by decide)).trans ((seg_off _ cv 31 14 5 (by decide)).trans rfl)) (by decide)))
  have h5 : seg (encode (.slixSub cv d a x k)) 8 6 = x := (seg_off _ k 5 8 6 (by decide)).trans (seg_hit _ x 8 ((seg_off _ a 14 8 6 (by decide)).trans ((seg_off _ d 19 8 6 (by decide)).trans ((seg_off _ cv 31 8 6 (by decide)).trans rfl))) (by decide))
  have h6 : seg (encode (.slixSub cv d a x k)) 5 3 = k := seg_hit _ k 5 ((seg_off _ x 8 5 3 (by decide)).trans ((seg_off _ a 14 5 3 (by decide)).trans ((seg_off _ d 19 5 3 (by decide)).trans ((seg_off _ cv 31 5 3 (by decide)).trans rfl)))) (by decide)
  exact decode_of (form4F m (by simp [decode4F, h1, h2, h3, h4, h5, h6]))
theorem RoundTrip.slixMul (cv : BitVec 1) (d : BitVec 5) (a : BitVec 5) (x : BitVec 6) (k : BitVec 3) : RoundTrip.Statement (.slixMul cv d a x k) := by
  have m : seg (encode (.slixMul cv d a x k)) 24 7 = 79#7 := (seg_off _ k 5 24 7 (by decide)).trans ((seg_off _ x 8 24 7 (by decide)).trans ((seg_off _ a 14 24 7 (by decide)).trans ((seg_off _ d 19 24 7 (by decide)).trans ((seg_off _ cv 31 24 7 (by decide)).trans rfl))))
  have h1 : seg (encode (.slixMul cv d a x k)) 0 5 = 2#5 := (seg_off _ k 5 0 5 (by decide)).trans ((seg_off _ x 8 0 5 (by decide)).trans ((seg_off _ a 14 0 5 (by decide)).trans ((seg_off _ d 19 0 5 (by decide)).trans ((seg_off _ cv 31 0 5 (by decide)).trans rfl))))
  have h2 : seg (encode (.slixMul cv d a x k)) 31 1 = cv := (seg_off _ k 5 31 1 (by decide)).trans ((seg_off _ x 8 31 1 (by decide)).trans ((seg_off _ a 14 31 1 (by decide)).trans ((seg_off _ d 19 31 1 (by decide)).trans (seg_hit _ cv 31 rfl (by decide)))))
  have h3 : seg (encode (.slixMul cv d a x k)) 19 5 = d := (seg_off _ k 5 19 5 (by decide)).trans ((seg_off _ x 8 19 5 (by decide)).trans ((seg_off _ a 14 19 5 (by decide)).trans (seg_hit _ d 19 ((seg_off _ cv 31 19 5 (by decide)).trans rfl) (by decide))))
  have h4 : seg (encode (.slixMul cv d a x k)) 14 5 = a := (seg_off _ k 5 14 5 (by decide)).trans ((seg_off _ x 8 14 5 (by decide)).trans (seg_hit _ a 14 ((seg_off _ d 19 14 5 (by decide)).trans ((seg_off _ cv 31 14 5 (by decide)).trans rfl)) (by decide)))
  have h5 : seg (encode (.slixMul cv d a x k)) 8 6 = x := (seg_off _ k 5 8 6 (by decide)).trans (seg_hit _ x 8 ((seg_off _ a 14 8 6 (by decide)).trans ((seg_off _ d 19 8 6 (by decide)).trans ((seg_off _ cv 31 8 6 (by decide)).trans rfl))) (by decide))
  have h6 : seg (encode (.slixMul cv d a x k)) 5 3 = k := seg_hit _ k 5 ((seg_off _ x 8 5 3 (by decide)).trans ((seg_off _ a 14 5 3 (by decide)).trans ((seg_off _ d 19 5 3 (by decide)).trans ((seg_off _ cv 31 5 3 (by decide)).trans rfl)))) (by decide)
  exact decode_of (form4F m (by simp [decode4F, h1, h2, h3, h4, h5, h6]))
theorem RoundTrip.slixDiv (cv : BitVec 1) (d : BitVec 5) (a : BitVec 5) (x : BitVec 6) (k : BitVec 3) : RoundTrip.Statement (.slixDiv cv d a x k) := by
  have m : seg (encode (.slixDiv cv d a x k)) 24 7 = 79#7 := (seg_off _ k 5 24 7 (by decide)).trans ((seg_off _ x 8 24 7 (by decide)).trans ((seg_off _ a 14 24 7 (by decide)).trans ((seg_off _ d 19 24 7 (by decide)).trans ((seg_off _ cv 31 24 7 (by decide)).trans rfl))))
  have h1 : seg (encode (.slixDiv cv d a x k)) 0 5 = 3#5 := (seg_off _ k 5 0 5 (by decide)).trans ((seg_off _ x 8 0 5 (by decide)).trans ((seg_off _ a 14 0 5 (by decide)).trans ((seg_off _ d 19 0 5 (by decide)).trans ((seg_off _ cv 31 0 5 (by decide)).trans rfl))))
  have h2 : seg (encode (.slixDiv cv d a x k)) 31 1 = cv := (seg_off _ k 5 31 1 (by decide)).trans ((seg_off _ x 8 31 1 (by decide)).trans ((seg_off _ a 14 31 1 (by decide)).trans ((seg_off _ d 19 31 1 (by decide)).trans (seg_hit _ cv 31 rfl (by decide)))))
  have h3 : seg (encode (.slixDiv cv d a x k)) 19 5 = d := (seg_off _ k 5 19 5 (by decide)).trans ((seg_off _ x 8 19 5 (by decide)).trans ((seg_off _ a 14 19 5 (by decide)).trans (seg_hit _ d 19 ((seg_off _ cv 31 19 5 (by decide)).trans rfl) (by decide))))
  have h4 : seg (encode (.slixDiv cv d a x k)) 14 5 = a := (seg_off _ k 5 14 5 (by decide)).trans ((seg_off _ x 8 14 5 (by decide)).trans (seg_hit _ a 14 ((seg_off _ d 19 14 5 (by decide)).trans ((seg_off _ cv 31 14 5 (by decide)).trans rfl)) (by decide)))
  have h5 : seg (encode (.slixDiv cv d a x k)) 8 6 = x := (seg_off _ k 5 8 6 (by decide)).trans (seg_hit _ x 8 ((seg_off _ a 14 8 6 (by decide)).trans ((seg_off _ d 19 8 6 (by decide)).trans ((seg_off _ cv 31 8 6 (by decide)).trans rfl))) (by decide))
  have h6 : seg (encode (.slixDiv cv d a x k)) 5 3 = k := seg_hit _ k 5 ((seg_off _ x 8 5 3 (by decide)).trans ((seg_off _ a 14 5 3 (by decide)).trans ((seg_off _ d 19 5 3 (by decide)).trans ((seg_off _ cv 31 5 3 (by decide)).trans rfl)))) (by decide)
  exact decode_of (form4F m (by simp [decode4F, h1, h2, h3, h4, h5, h6]))
theorem RoundTrip.slixRsub (cv : BitVec 1) (d : BitVec 5) (a : BitVec 5) (x : BitVec 6) (k : BitVec 3) : RoundTrip.Statement (.slixRsub cv d a x k) := by
  have m : seg (encode (.slixRsub cv d a x k)) 24 7 = 79#7 := (seg_off _ k 5 24 7 (by decide)).trans ((seg_off _ x 8 24 7 (by decide)).trans ((seg_off _ a 14 24 7 (by decide)).trans ((seg_off _ d 19 24 7 (by decide)).trans ((seg_off _ cv 31 24 7 (by decide)).trans rfl))))
  have h1 : seg (encode (.slixRsub cv d a x k)) 0 5 = 4#5 := (seg_off _ k 5 0 5 (by decide)).trans ((seg_off _ x 8 0 5 (by decide)).trans ((seg_off _ a 14 0 5 (by decide)).trans ((seg_off _ d 19 0 5 (by decide)).trans ((seg_off _ cv 31 0 5 (by decide)).trans rfl))))
  have h2 : seg (encode (.slixRsub cv d a x k)) 31 1 = cv := (seg_off _ k 5 31 1 (by decide)).trans ((seg_off _ x 8 31 1 (by decide)).trans ((seg_off _ a 14 31 1 (by decide)).trans ((seg_off _ d 19 31 1 (by decide)).trans (seg_hit _ cv 31 rfl (by decide)))))
  have h3 : seg (encode (.slixRsub cv d a x k)) 19 5 = d := (seg_off _ k 5 19 5 (by decide)).trans ((seg_off _ x 8 19 5 (by decide)).trans ((seg_off _ a 14 19 5 (by decide)).trans (seg_hit _ d 19 ((seg_off _ cv 31 19 5 (by decide)).trans rfl) (by decide))))
  have h4 : seg (encode (.slixRsub cv d a x k)) 14 5 = a := (seg_off _ k 5 14 5 (by decide)).trans ((seg_off _ x 8 14 5 (by decide)).trans (seg_hit _ a 14 ((seg_off _ d 19 14 5 (by decide)).trans ((seg_off _ cv 31 14 5 (by decide)).trans rfl)) (by decide)))
  have h5 : seg (encode (.slixRsub cv d a x k)) 8 6 = x := (seg_off _ k 5 8 6 (by decide)).trans (seg_hit _ x 8 ((seg_off _ a 14 8 6 (by decide)).trans ((seg_off _ d 19 8 6 (by decide)).trans ((seg_off _ cv 31 8 6 (by decide)).trans rfl))) (by decide))
  have h6 : seg (encode (.slixRsub cv d a x k)) 5 3 = k := seg_hit _ k 5 ((seg_off _ x 8 5 3 (by decide)).trans ((seg_off _ a 14 5 3 (by decide)).trans ((seg_off _ d 19 5 3 (by decide)).trans ((seg_off _ cv 31 5 3 (by decide)).trans rfl)))) (by decide)
  exact decode_of (form4F m (by simp [decode4F, h1, h2, h3, h4, h5, h6]))
theorem RoundTrip.slixRdiv (cv : BitVec 1) (d : BitVec 5) (a : BitVec 5) (x : BitVec 6) (k : BitVec 3) : RoundTrip.Statement (.slixRdiv cv d a x k) := by
  have m : seg (encode (.slixRdiv cv d a x k)) 24 7 = 79#7 := (seg_off _ k 5 24 7 (by decide)).trans ((seg_off _ x 8 24 7 (by decide)).trans ((seg_off _ a 14 24 7 (by decide)).trans ((seg_off _ d 19 24 7 (by decide)).trans ((seg_off _ cv 31 24 7 (by decide)).trans rfl))))
  have h1 : seg (encode (.slixRdiv cv d a x k)) 0 5 = 5#5 := (seg_off _ k 5 0 5 (by decide)).trans ((seg_off _ x 8 0 5 (by decide)).trans ((seg_off _ a 14 0 5 (by decide)).trans ((seg_off _ d 19 0 5 (by decide)).trans ((seg_off _ cv 31 0 5 (by decide)).trans rfl))))
  have h2 : seg (encode (.slixRdiv cv d a x k)) 31 1 = cv := (seg_off _ k 5 31 1 (by decide)).trans ((seg_off _ x 8 31 1 (by decide)).trans ((seg_off _ a 14 31 1 (by decide)).trans ((seg_off _ d 19 31 1 (by decide)).trans (seg_hit _ cv 31 rfl (by decide)))))
  have h3 : seg (encode (.slixRdiv cv d a x k)) 19 5 = d := (seg_off _ k 5 19 5 (by decide)).trans ((seg_off _ x 8 19 5 (by decide)).trans ((seg_off _ a 14 19 5 (by decide)).trans (seg_hit _ d 19 ((seg_off _ cv 31 19 5 (by decide)).trans rfl) (by decide))))
  have h4 : seg (encode (.slixRdiv cv d a x k)) 14 5 = a := (seg_off _ k 5 14 5 (by decide)).trans ((seg_off _ x 8 14 5 (by decide)).trans (seg_hit _ a 14 ((seg_off _ d 19 14 5 (by decide)).trans ((seg_off _ cv 31 14 5 (by decide)).trans rfl)) (by decide)))
  have h5 : seg (encode (.slixRdiv cv d a x k)) 8 6 = x := (seg_off _ k 5 8 6 (by decide)).trans (seg_hit _ x 8 ((seg_off _ a 14 8 6 (by decide)).trans ((seg_off _ d 19 8 6 (by decide)).trans ((seg_off _ cv 31 8 6 (by decide)).trans rfl))) (by decide))
  have h6 : seg (encode (.slixRdiv cv d a x k)) 5 3 = k := seg_hit _ k 5 ((seg_off _ x 8 5 3 (by decide)).trans ((seg_off _ a 14 5 3 (by decide)).trans ((seg_off _ d 19 5 3 (by decide)).trans ((seg_off _ cv 31 5 3 (by decide)).trans rfl)))) (by decide)
  exact decode_of (form4F m (by simp [decode4F, h1, h2, h3, h4, h5, h6]))
theorem RoundTrip.slifnExp (cv : BitVec 1) (d : BitVec 5) (a : BitVec 5) (k : BitVec 3) : RoundTrip.Statement (.slifnExp cv d a k) := by
  have m : seg (encode (.slifnExp cv d a k)) 24 7 = 75#7 := (seg_off _ k 6 24 7 (by decide)).trans ((seg_off _ a 14 24 7 (by decide)).trans ((seg_off _ d 19 24 7 (by decide)).trans ((seg_off _ cv 31 24 7 (by decide)).trans rfl)))
  have h1 : seg (encode (.slifnExp cv d a k)) 0 6 = 0#6 := (seg_off _ k 6 0 6 (by decide)).trans ((seg_off _ a 14 0 6 (by decide)).trans ((seg_off _ d 19 0 6 (by decide)).trans ((seg_off _ cv 31 0 6 (by decide)).trans rfl)))
  have h2 : seg (encode (.slifnExp cv d a k)) 9 5 = 0#5 := (seg_off _ k 6 9 5 (by decide)).trans ((seg_off _ a 14 9 5 (by decide)).trans ((seg_off _ d 19 9 5 (by decide)).trans ((seg_off _ cv 31 9 5 (by decide)).trans rfl)))
  have h3 : seg (encode (.slifnExp cv d a k)) 31 1 = cv := (seg_off _ k 6 31 1 (by decide)).trans ((seg_off _ a 14 31 1 (by decide)).trans ((seg_off _ d 19 31 1 (by decide)).trans (seg_hit _ cv 31 rfl (by decide))))
  have h4 : seg (encode (.slifnExp cv d a k)) 19 5 = d := (seg_off _ k 6 19 5 (by decide)).trans ((seg_off _ a 14 19 5 (by decide)).trans (seg_hit _ d 19 ((seg_off _ cv 31 19 5 (by decide)).trans rfl) (by decide)))
  have h5 : seg (encode (.slifnExp cv d a k)) 14 5 = a := (seg_off _ k 6 14 5 (by decide)).trans (seg_hit _ a 14 ((seg_off _ d 19 14 5 (by decide)).trans ((seg_off _ cv 31 14 5 (by decide)).trans rfl)) (by decide))
  have h6 : seg (encode (.slifnExp cv d a k)) 6 3 = k := seg_hit _ k 6 ((seg_off _ a 14 6 3 (by decide)).trans ((seg_off _ d 19 6 3 (by decide)).trans ((seg_off _ cv 31 6 3 (by decide)).trans rfl))) (by decide)
  exact decode_of (form4B m (by simp [decode4B, h1, h2, h3, h4, h5, h6]))
theorem RoundTrip.slifnLog (cv : BitVec 1) (d : BitVec 5) (a : BitVec 5) (k : BitVec 3) : RoundTrip.Statement (.slifnLog cv d a k) := by
  have m : seg (encode (.slifnLog cv d a k)) 24 7 = 75#7 := (seg_off _ k 6 24 7 (by decide)).trans ((seg_off _ a 14 24 7 (by decide)).trans ((seg_off _ d 19 24 7 (by decide)).trans ((seg_off _ cv 31 24 7 (by decide)).trans rfl)))
  have h1 : seg (encode (.slifnLog cv d a k)) 0 6 = 1#6 := (seg_off _ k 6 0 6 (by decide)).trans ((seg_off _ a 14 0 6 (by decide)).trans ((seg_off _ d 19 0 6 (by decide)).trans ((seg_off _ cv 31 0 6 (by decide)).trans rfl)))
  have h2 : seg (encode (.slifnLog cv d a k)) 9 5 = 0#5 := (seg_off _ k 6 9 5 (by decide)).trans ((seg_off _ a 14 9 5 (by decide)).trans ((seg_off _ d 19 9 5 (by decide)).trans ((seg_off _ cv 31 9 5 (by decide)).trans rfl)))
  have h3 : seg (encode (.slifnLog cv d a k)) 31 1 = cv := (seg_off _ k 6 31 1 (by decide)).trans ((seg_off _ a 14 31 1 (by decide)).trans ((seg_off _ d 19 31 1 (by decide)).trans (seg_hit _ cv 31 rfl (by decide))))
  have h4 : seg (encode (.slifnLog cv d a k)) 19 5 = d := (seg_off _ k 6 19 5 (by decide)).trans ((seg_off _ a 14 19 5 (by decide)).trans (seg_hit _ d 19 ((seg_off _ cv 31 19 5 (by decide)).trans rfl) (by decide)))
  have h5 : seg (encode (.slifnLog cv d a k)) 14 5 = a := (seg_off _ k 6 14 5 (by decide)).trans (seg_hit _ a 14 ((seg_off _ d 19 14 5 (by decide)).trans ((seg_off _ cv 31 14 5 (by decide)).trans rfl)) (by decide))
  have h6 : seg (encode (.slifnLog cv d a k)) 6 3 = k := seg_hit _ k 6 ((seg_off _ a 14 6 3 (by decide)).trans ((seg_off _ d 19 6 3 (by decide)).trans ((seg_off _ cv 31 6 3 (by decide)).trans rfl))) (by decide)
  exact decode_of (form4B m (by simp [decode4B, h1, h2, h3, h4, h5, h6]))
theorem RoundTrip.sliredSum (cv : BitVec 1) (d : BitVec 5) (a : BitVec 5) (b : BitVec 5) (k : BitVec 3) : RoundTrip.Statement (.sliredSum cv d a b k) := by
  have m : seg (encode (.sliredSum cv d a b k)) 24 7 = 77#7 := (seg_off _ k 6 24 7 (by decide)).trans ((seg_off _ b 9 24 7 (by decide)).trans ((seg_off _ a 14 24 7 (by decide)).trans ((seg_off _ d 19 24 7 (by decide)).trans ((seg_off _ cv 31 24 7 (by decide)).trans rfl))))
  have h1 : seg (encode (.sliredSum cv d a b k)) 0 6 = 0#6 := (seg_off _ k 6 0 6 (by decide)).trans ((seg_off _ b 9 0 6 (by decide)).trans ((seg_off _ a 14 0 6 (by decide)).trans ((seg_off _ d 19 0 6 (by decide)).trans ((seg_off _ cv 31 0 6 (by decide)).trans rfl))))
  have h2 : seg (encode (.sliredSum cv d a b k)) 31 1 = cv := (seg_off _ k 6 31 1 (by decide)).trans ((seg_off _ b 9 31 1 (by decide)).trans ((seg_off _ a 14 31 1 (by decide)).trans ((seg_off _ d 19 31 1 (by decide)).trans (seg_hit _ cv 31 rfl (by decide)))))
  have h3 : seg (encode (.sliredSum cv d a b k)) 19 5 = d := (seg_off _ k 6 19 5 (by decide)).trans ((seg_off _ b 9 19 5 (by decide)).trans ((seg_off _ a 14 19 5 (by decide)).trans (seg_hit _ d 19 ((seg_off _ cv 31 19 5 (by decide)).trans rfl) (by decide))))
  have h4 : seg (encode (.sliredSum cv d a b k)) 14 5 = a := (seg_off _ k 6 14 5 (by decide)).trans ((seg_off _ b 9 14 5 (by decide)).trans (seg_hit _ a 14 ((seg_off _ d 19 14 5 (by decide)).trans ((seg_off _ cv 31 14 5 (by decide)).trans rfl)) (by decide)))
  have h5 : seg (encode (.sliredSum cv d a b k)) 9 5 = b := (seg_off _ k 6 9 5 (by decide)).trans (seg_hit _ b 9 ((seg_off _ a 14 9 5 (by decide)).trans ((seg_off _ d 19 9 5 (by decide)).trans ((seg_off _ cv 31 9 5 (by decide)).trans rfl))) (by decide))
  have h6 : seg (encode (.sliredSum cv d a b k)) 6 3 = k := seg_hit _ k 6 ((seg_off _ b 9 6 3 (by decide)).trans ((seg_off _ a 14 6 3 (by decide)).trans ((seg_off _ d 19 6 3 (by decide)).trans ((seg_off _ cv 31 6 3 (by decide)).trans rfl)))) (by decide)
  exact decode_of (form4D m (by simp [decode4D, h1, h2, h3, h4, h5, h6]))
theorem RoundTrip.sliredMax (cv : BitVec 1) (d : BitVec 5) (a : BitVec 5) (b : BitVec 5) (k : BitVec 3) : RoundTrip.Statement (.sliredMax cv d a b k) := by
  have m : seg (encode (.sliredMax cv d a b k)) 24 7 = 77#7 := (seg_off _ k 6 24 7 (by decide)).trans ((seg_off _ b 9 24 7 (by decide)).trans ((seg_off _ a 14 24 7 (by decide)).trans ((seg_off _ d 19 24 7 (by decide)).trans ((seg_off _ cv 31 24 7 (by decide)).trans rfl))))
  have h1 : seg (encode (.sliredMax cv d a b k)) 0 6 = 1#6 := (seg_off _ k 6 0 6 (by decide)).trans ((seg_off _ b 9 0 6 (by decide)).trans ((seg_off _ a 14 0 6 (by decide)).trans ((seg_off _ d 19 0 6 (by decide)).trans ((seg_off _ cv 31 0 6 (by decide)).trans rfl))))
  have h2 : seg (encode (.sliredMax cv d a b k)) 31 1 = cv := (seg_off _ k 6 31 1 (by decide)).trans ((seg_off _ b 9 31 1 (by decide)).trans ((seg_off _ a 14 31 1 (by decide)).trans ((seg_off _ d 19 31 1 (by decide)).trans (seg_hit _ cv 31 rfl (by decide)))))
  have h3 : seg (encode (.sliredMax cv d a b k)) 19 5 = d := (seg_off _ k 6 19 5 (by decide)).trans ((seg_off _ b 9 19 5 (by decide)).trans ((seg_off _ a 14 19 5 (by decide)).trans (seg_hit _ d 19 ((seg_off _ cv 31 19 5 (by decide)).trans rfl) (by decide))))
  have h4 : seg (encode (.sliredMax cv d a b k)) 14 5 = a := (seg_off _ k 6 14 5 (by decide)).trans ((seg_off _ b 9 14 5 (by decide)).trans (seg_hit _ a 14 ((seg_off _ d 19 14 5 (by decide)).trans ((seg_off _ cv 31 14 5 (by decide)).trans rfl)) (by decide)))
  have h5 : seg (encode (.sliredMax cv d a b k)) 9 5 = b := (seg_off _ k 6 9 5 (by decide)).trans (seg_hit _ b 9 ((seg_off _ a 14 9 5 (by decide)).trans ((seg_off _ d 19 9 5 (by decide)).trans ((seg_off _ cv 31 9 5 (by decide)).trans rfl))) (by decide))
  have h6 : seg (encode (.sliredMax cv d a b k)) 6 3 = k := seg_hit _ k 6 ((seg_off _ b 9 6 3 (by decide)).trans ((seg_off _ a 14 6 3 (by decide)).trans ((seg_off _ d 19 6 3 (by decide)).trans ((seg_off _ cv 31 6 3 (by decide)).trans rfl)))) (by decide)
  exact decode_of (form4D m (by simp [decode4D, h1, h2, h3, h4, h5, h6]))
theorem RoundTrip.sliredMin (cv : BitVec 1) (d : BitVec 5) (a : BitVec 5) (b : BitVec 5) (k : BitVec 3) : RoundTrip.Statement (.sliredMin cv d a b k) := by
  have m : seg (encode (.sliredMin cv d a b k)) 24 7 = 77#7 := (seg_off _ k 6 24 7 (by decide)).trans ((seg_off _ b 9 24 7 (by decide)).trans ((seg_off _ a 14 24 7 (by decide)).trans ((seg_off _ d 19 24 7 (by decide)).trans ((seg_off _ cv 31 24 7 (by decide)).trans rfl))))
  have h1 : seg (encode (.sliredMin cv d a b k)) 0 6 = 2#6 := (seg_off _ k 6 0 6 (by decide)).trans ((seg_off _ b 9 0 6 (by decide)).trans ((seg_off _ a 14 0 6 (by decide)).trans ((seg_off _ d 19 0 6 (by decide)).trans ((seg_off _ cv 31 0 6 (by decide)).trans rfl))))
  have h2 : seg (encode (.sliredMin cv d a b k)) 31 1 = cv := (seg_off _ k 6 31 1 (by decide)).trans ((seg_off _ b 9 31 1 (by decide)).trans ((seg_off _ a 14 31 1 (by decide)).trans ((seg_off _ d 19 31 1 (by decide)).trans (seg_hit _ cv 31 rfl (by decide)))))
  have h3 : seg (encode (.sliredMin cv d a b k)) 19 5 = d := (seg_off _ k 6 19 5 (by decide)).trans ((seg_off _ b 9 19 5 (by decide)).trans ((seg_off _ a 14 19 5 (by decide)).trans (seg_hit _ d 19 ((seg_off _ cv 31 19 5 (by decide)).trans rfl) (by decide))))
  have h4 : seg (encode (.sliredMin cv d a b k)) 14 5 = a := (seg_off _ k 6 14 5 (by decide)).trans ((seg_off _ b 9 14 5 (by decide)).trans (seg_hit _ a 14 ((seg_off _ d 19 14 5 (by decide)).trans ((seg_off _ cv 31 14 5 (by decide)).trans rfl)) (by decide)))
  have h5 : seg (encode (.sliredMin cv d a b k)) 9 5 = b := (seg_off _ k 6 9 5 (by decide)).trans (seg_hit _ b 9 ((seg_off _ a 14 9 5 (by decide)).trans ((seg_off _ d 19 9 5 (by decide)).trans ((seg_off _ cv 31 9 5 (by decide)).trans rfl))) (by decide))
  have h6 : seg (encode (.sliredMin cv d a b k)) 6 3 = k := seg_hit _ k 6 ((seg_off _ b 9 6 3 (by decide)).trans ((seg_off _ a 14 6 3 (by decide)).trans ((seg_off _ d 19 6 3 (by decide)).trans ((seg_off _ cv 31 6 3 (by decide)).trans rfl)))) (by decide)
  exact decode_of (form4D m (by simp [decode4D, h1, h2, h3, h4, h5, h6]))
theorem RoundTrip.vtransExp (cv : BitVec 1) (d : BitVec 5) (a : BitVec 5) (k : BitVec 3) : RoundTrip.Statement (.vtransExp cv d a k) := by
  have m : seg (encode (.vtransExp cv d a k)) 24 7 = 78#7 := (seg_off _ k 6 24 7 (by decide)).trans ((seg_off _ a 14 24 7 (by decide)).trans ((seg_off _ d 19 24 7 (by decide)).trans ((seg_off _ cv 31 24 7 (by decide)).trans rfl)))
  have h1 : seg (encode (.vtransExp cv d a k)) 0 6 = 0#6 := (seg_off _ k 6 0 6 (by decide)).trans ((seg_off _ a 14 0 6 (by decide)).trans ((seg_off _ d 19 0 6 (by decide)).trans ((seg_off _ cv 31 0 6 (by decide)).trans rfl)))
  have h2 : seg (encode (.vtransExp cv d a k)) 9 5 = 0#5 := (seg_off _ k 6 9 5 (by decide)).trans ((seg_off _ a 14 9 5 (by decide)).trans ((seg_off _ d 19 9 5 (by decide)).trans ((seg_off _ cv 31 9 5 (by decide)).trans rfl)))
  have h3 : seg (encode (.vtransExp cv d a k)) 31 1 = cv := (seg_off _ k 6 31 1 (by decide)).trans ((seg_off _ a 14 31 1 (by decide)).trans ((seg_off _ d 19 31 1 (by decide)).trans (seg_hit _ cv 31 rfl (by decide))))
  have h4 : seg (encode (.vtransExp cv d a k)) 19 5 = d := (seg_off _ k 6 19 5 (by decide)).trans ((seg_off _ a 14 19 5 (by decide)).trans (seg_hit _ d 19 ((seg_off _ cv 31 19 5 (by decide)).trans rfl) (by decide)))
  have h5 : seg (encode (.vtransExp cv d a k)) 14 5 = a := (seg_off _ k 6 14 5 (by decide)).trans (seg_hit _ a 14 ((seg_off _ d 19 14 5 (by decide)).trans ((seg_off _ cv 31 14 5 (by decide)).trans rfl)) (by decide))
  have h6 : seg (encode (.vtransExp cv d a k)) 6 3 = k := seg_hit _ k 6 ((seg_off _ a 14 6 3 (by decide)).trans ((seg_off _ d 19 6 3 (by decide)).trans ((seg_off _ cv 31 6 3 (by decide)).trans rfl))) (by decide)
  exact decode_of (form4E m (by simp [decode4E, h1, h2, h3, h4, h5, h6]))
theorem RoundTrip.vtransExp2 (cv : BitVec 1) (d : BitVec 5) (a : BitVec 5) (k : BitVec 3) : RoundTrip.Statement (.vtransExp2 cv d a k) := by
  have m : seg (encode (.vtransExp2 cv d a k)) 24 7 = 78#7 := (seg_off _ k 6 24 7 (by decide)).trans ((seg_off _ a 14 24 7 (by decide)).trans ((seg_off _ d 19 24 7 (by decide)).trans ((seg_off _ cv 31 24 7 (by decide)).trans rfl)))
  have h1 : seg (encode (.vtransExp2 cv d a k)) 0 6 = 1#6 := (seg_off _ k 6 0 6 (by decide)).trans ((seg_off _ a 14 0 6 (by decide)).trans ((seg_off _ d 19 0 6 (by decide)).trans ((seg_off _ cv 31 0 6 (by decide)).trans rfl)))
  have h2 : seg (encode (.vtransExp2 cv d a k)) 9 5 = 0#5 := (seg_off _ k 6 9 5 (by decide)).trans ((seg_off _ a 14 9 5 (by decide)).trans ((seg_off _ d 19 9 5 (by decide)).trans ((seg_off _ cv 31 9 5 (by decide)).trans rfl)))
  have h3 : seg (encode (.vtransExp2 cv d a k)) 31 1 = cv := (seg_off _ k 6 31 1 (by decide)).trans ((seg_off _ a 14 31 1 (by decide)).trans ((seg_off _ d 19 31 1 (by decide)).trans (seg_hit _ cv 31 rfl (by decide))))
  have h4 : seg (encode (.vtransExp2 cv d a k)) 19 5 = d := (seg_off _ k 6 19 5 (by decide)).trans ((seg_off _ a 14 19 5 (by decide)).trans (seg_hit _ d 19 ((seg_off _ cv 31 19 5 (by decide)).trans rfl) (by decide)))
  have h5 : seg (encode (.vtransExp2 cv d a k)) 14 5 = a := (seg_off _ k 6 14 5 (by decide)).trans (seg_hit _ a 14 ((seg_off _ d 19 14 5 (by decide)).trans ((seg_off _ cv 31 14 5 (by decide)).trans rfl)) (by decide))
  have h6 : seg (encode (.vtransExp2 cv d a k)) 6 3 = k := seg_hit _ k 6 ((seg_off _ a 14 6 3 (by decide)).trans ((seg_off _ d 19 6 3 (by decide)).trans ((seg_off _ cv 31 6 3 (by decide)).trans rfl))) (by decide)
  exact decode_of (form4E m (by simp [decode4E, h1, h2, h3, h4, h5, h6]))
theorem RoundTrip.vtransLog (cv : BitVec 1) (d : BitVec 5) (a : BitVec 5) (k : BitVec 3) : RoundTrip.Statement (.vtransLog cv d a k) := by
  have m : seg (encode (.vtransLog cv d a k)) 24 7 = 78#7 := (seg_off _ k 6 24 7 (by decide)).trans ((seg_off _ a 14 24 7 (by decide)).trans ((seg_off _ d 19 24 7 (by decide)).trans ((seg_off _ cv 31 24 7 (by decide)).trans rfl)))
  have h1 : seg (encode (.vtransLog cv d a k)) 0 6 = 2#6 := (seg_off _ k 6 0 6 (by decide)).trans ((seg_off _ a 14 0 6 (by decide)).trans ((seg_off _ d 19 0 6 (by decide)).trans ((seg_off _ cv 31 0 6 (by decide)).trans rfl)))
  have h2 : seg (encode (.vtransLog cv d a k)) 9 5 = 0#5 := (seg_off _ k 6 9 5 (by decide)).trans ((seg_off _ a 14 9 5 (by decide)).trans ((seg_off _ d 19 9 5 (by decide)).trans ((seg_off _ cv 31 9 5 (by decide)).trans rfl)))
  have h3 : seg (encode (.vtransLog cv d a k)) 31 1 = cv := (seg_off _ k 6 31 1 (by decide)).trans ((seg_off _ a 14 31 1 (by decide)).trans ((seg_off _ d 19 31 1 (by decide)).trans (seg_hit _ cv 31 rfl (by decide))))
  have h4 : seg (encode (.vtransLog cv d a k)) 19 5 = d := (seg_off _ k 6 19 5 (by decide)).trans ((seg_off _ a 14 19 5 (by decide)).trans (seg_hit _ d 19 ((seg_off _ cv 31 19 5 (by decide)).trans rfl) (by decide)))
  have h5 : seg (encode (.vtransLog cv d a k)) 14 5 = a := (seg_off _ k 6 14 5 (by decide)).trans (seg_hit _ a 14 ((seg_off _ d 19 14 5 (by decide)).trans ((seg_off _ cv 31 14 5 (by decide)).trans rfl)) (by decide))
  have h6 : seg (encode (.vtransLog cv d a k)) 6 3 = k := seg_hit _ k 6 ((seg_off _ a 14 6 3 (by decide)).trans ((seg_off _ d 19 6 3 (by decide)).trans ((seg_off _ cv 31 6 3 (by decide)).trans rfl))) (by decide)
  exact decode_of (form4E m (by simp [decode4E, h1, h2, h3, h4, h5, h6]))
theorem RoundTrip.vtransLog2 (cv : BitVec 1) (d : BitVec 5) (a : BitVec 5) (k : BitVec 3) : RoundTrip.Statement (.vtransLog2 cv d a k) := by
  have m : seg (encode (.vtransLog2 cv d a k)) 24 7 = 78#7 := (seg_off _ k 6 24 7 (by decide)).trans ((seg_off _ a 14 24 7 (by decide)).trans ((seg_off _ d 19 24 7 (by decide)).trans ((seg_off _ cv 31 24 7 (by decide)).trans rfl)))
  have h1 : seg (encode (.vtransLog2 cv d a k)) 0 6 = 3#6 := (seg_off _ k 6 0 6 (by decide)).trans ((seg_off _ a 14 0 6 (by decide)).trans ((seg_off _ d 19 0 6 (by decide)).trans ((seg_off _ cv 31 0 6 (by decide)).trans rfl)))
  have h2 : seg (encode (.vtransLog2 cv d a k)) 9 5 = 0#5 := (seg_off _ k 6 9 5 (by decide)).trans ((seg_off _ a 14 9 5 (by decide)).trans ((seg_off _ d 19 9 5 (by decide)).trans ((seg_off _ cv 31 9 5 (by decide)).trans rfl)))
  have h3 : seg (encode (.vtransLog2 cv d a k)) 31 1 = cv := (seg_off _ k 6 31 1 (by decide)).trans ((seg_off _ a 14 31 1 (by decide)).trans ((seg_off _ d 19 31 1 (by decide)).trans (seg_hit _ cv 31 rfl (by decide))))
  have h4 : seg (encode (.vtransLog2 cv d a k)) 19 5 = d := (seg_off _ k 6 19 5 (by decide)).trans ((seg_off _ a 14 19 5 (by decide)).trans (seg_hit _ d 19 ((seg_off _ cv 31 19 5 (by decide)).trans rfl) (by decide)))
  have h5 : seg (encode (.vtransLog2 cv d a k)) 14 5 = a := (seg_off _ k 6 14 5 (by decide)).trans (seg_hit _ a 14 ((seg_off _ d 19 14 5 (by decide)).trans ((seg_off _ cv 31 14 5 (by decide)).trans rfl)) (by decide))
  have h6 : seg (encode (.vtransLog2 cv d a k)) 6 3 = k := seg_hit _ k 6 ((seg_off _ a 14 6 3 (by decide)).trans ((seg_off _ d 19 6 3 (by decide)).trans ((seg_off _ cv 31 6 3 (by decide)).trans rfl))) (by decide)
  exact decode_of (form4E m (by simp [decode4E, h1, h2, h3, h4, h5, h6]))
theorem RoundTrip.vtransRcp (cv : BitVec 1) (d : BitVec 5) (a : BitVec 5) (k : BitVec 3) : RoundTrip.Statement (.vtransRcp cv d a k) := by
  have m : seg (encode (.vtransRcp cv d a k)) 24 7 = 78#7 := (seg_off _ k 6 24 7 (by decide)).trans ((seg_off _ a 14 24 7 (by decide)).trans ((seg_off _ d 19 24 7 (by decide)).trans ((seg_off _ cv 31 24 7 (by decide)).trans rfl)))
  have h1 : seg (encode (.vtransRcp cv d a k)) 0 6 = 4#6 := (seg_off _ k 6 0 6 (by decide)).trans ((seg_off _ a 14 0 6 (by decide)).trans ((seg_off _ d 19 0 6 (by decide)).trans ((seg_off _ cv 31 0 6 (by decide)).trans rfl)))
  have h2 : seg (encode (.vtransRcp cv d a k)) 9 5 = 0#5 := (seg_off _ k 6 9 5 (by decide)).trans ((seg_off _ a 14 9 5 (by decide)).trans ((seg_off _ d 19 9 5 (by decide)).trans ((seg_off _ cv 31 9 5 (by decide)).trans rfl)))
  have h3 : seg (encode (.vtransRcp cv d a k)) 31 1 = cv := (seg_off _ k 6 31 1 (by decide)).trans ((seg_off _ a 14 31 1 (by decide)).trans ((seg_off _ d 19 31 1 (by decide)).trans (seg_hit _ cv 31 rfl (by decide))))
  have h4 : seg (encode (.vtransRcp cv d a k)) 19 5 = d := (seg_off _ k 6 19 5 (by decide)).trans ((seg_off _ a 14 19 5 (by decide)).trans (seg_hit _ d 19 ((seg_off _ cv 31 19 5 (by decide)).trans rfl) (by decide)))
  have h5 : seg (encode (.vtransRcp cv d a k)) 14 5 = a := (seg_off _ k 6 14 5 (by decide)).trans (seg_hit _ a 14 ((seg_off _ d 19 14 5 (by decide)).trans ((seg_off _ cv 31 14 5 (by decide)).trans rfl)) (by decide))
  have h6 : seg (encode (.vtransRcp cv d a k)) 6 3 = k := seg_hit _ k 6 ((seg_off _ a 14 6 3 (by decide)).trans ((seg_off _ d 19 6 3 (by decide)).trans ((seg_off _ cv 31 6 3 (by decide)).trans rfl))) (by decide)
  exact decode_of (form4E m (by simp [decode4E, h1, h2, h3, h4, h5, h6]))
theorem RoundTrip.vtransRsqrt (cv : BitVec 1) (d : BitVec 5) (a : BitVec 5) (k : BitVec 3) : RoundTrip.Statement (.vtransRsqrt cv d a k) := by
  have m : seg (encode (.vtransRsqrt cv d a k)) 24 7 = 78#7 := (seg_off _ k 6 24 7 (by decide)).trans ((seg_off _ a 14 24 7 (by decide)).trans ((seg_off _ d 19 24 7 (by decide)).trans ((seg_off _ cv 31 24 7 (by decide)).trans rfl)))
  have h1 : seg (encode (.vtransRsqrt cv d a k)) 0 6 = 5#6 := (seg_off _ k 6 0 6 (by decide)).trans ((seg_off _ a 14 0 6 (by decide)).trans ((seg_off _ d 19 0 6 (by decide)).trans ((seg_off _ cv 31 0 6 (by decide)).trans rfl)))
  have h2 : seg (encode (.vtransRsqrt cv d a k)) 9 5 = 0#5 := (seg_off _ k 6 9 5 (by decide)).trans ((seg_off _ a 14 9 5 (by decide)).trans ((seg_off _ d 19 9 5 (by decide)).trans ((seg_off _ cv 31 9 5 (by decide)).trans rfl)))
  have h3 : seg (encode (.vtransRsqrt cv d a k)) 31 1 = cv := (seg_off _ k 6 31 1 (by decide)).trans ((seg_off _ a 14 31 1 (by decide)).trans ((seg_off _ d 19 31 1 (by decide)).trans (seg_hit _ cv 31 rfl (by decide))))
  have h4 : seg (encode (.vtransRsqrt cv d a k)) 19 5 = d := (seg_off _ k 6 19 5 (by decide)).trans ((seg_off _ a 14 19 5 (by decide)).trans (seg_hit _ d 19 ((seg_off _ cv 31 19 5 (by decide)).trans rfl) (by decide)))
  have h5 : seg (encode (.vtransRsqrt cv d a k)) 14 5 = a := (seg_off _ k 6 14 5 (by decide)).trans (seg_hit _ a 14 ((seg_off _ d 19 14 5 (by decide)).trans ((seg_off _ cv 31 14 5 (by decide)).trans rfl)) (by decide))
  have h6 : seg (encode (.vtransRsqrt cv d a k)) 6 3 = k := seg_hit _ k 6 ((seg_off _ a 14 6 3 (by decide)).trans ((seg_off _ d 19 6 3 (by decide)).trans ((seg_off _ cv 31 6 3 (by decide)).trans rfl))) (by decide)
  exact decode_of (form4E m (by simp [decode4E, h1, h2, h3, h4, h5, h6]))
theorem RoundTrip.vtransTanh (cv : BitVec 1) (d : BitVec 5) (a : BitVec 5) (k : BitVec 3) : RoundTrip.Statement (.vtransTanh cv d a k) := by
  have m : seg (encode (.vtransTanh cv d a k)) 24 7 = 78#7 := (seg_off _ k 6 24 7 (by decide)).trans ((seg_off _ a 14 24 7 (by decide)).trans ((seg_off _ d 19 24 7 (by decide)).trans ((seg_off _ cv 31 24 7 (by decide)).trans rfl)))
  have h1 : seg (encode (.vtransTanh cv d a k)) 0 6 = 6#6 := (seg_off _ k 6 0 6 (by decide)).trans ((seg_off _ a 14 0 6 (by decide)).trans ((seg_off _ d 19 0 6 (by decide)).trans ((seg_off _ cv 31 0 6 (by decide)).trans rfl)))
  have h2 : seg (encode (.vtransTanh cv d a k)) 9 5 = 0#5 := (seg_off _ k 6 9 5 (by decide)).trans ((seg_off _ a 14 9 5 (by decide)).trans ((seg_off _ d 19 9 5 (by decide)).trans ((seg_off _ cv 31 9 5 (by decide)).trans rfl)))
  have h3 : seg (encode (.vtransTanh cv d a k)) 31 1 = cv := (seg_off _ k 6 31 1 (by decide)).trans ((seg_off _ a 14 31 1 (by decide)).trans ((seg_off _ d 19 31 1 (by decide)).trans (seg_hit _ cv 31 rfl (by decide))))
  have h4 : seg (encode (.vtransTanh cv d a k)) 19 5 = d := (seg_off _ k 6 19 5 (by decide)).trans ((seg_off _ a 14 19 5 (by decide)).trans (seg_hit _ d 19 ((seg_off _ cv 31 19 5 (by decide)).trans rfl) (by decide)))
  have h5 : seg (encode (.vtransTanh cv d a k)) 14 5 = a := (seg_off _ k 6 14 5 (by decide)).trans (seg_hit _ a 14 ((seg_off _ d 19 14 5 (by decide)).trans ((seg_off _ cv 31 14 5 (by decide)).trans rfl)) (by decide))
  have h6 : seg (encode (.vtransTanh cv d a k)) 6 3 = k := seg_hit _ k 6 ((seg_off _ a 14 6 3 (by decide)).trans ((seg_off _ d 19 6 3 (by decide)).trans ((seg_off _ cv 31 6 3 (by decide)).trans rfl))) (by decide)
  exact decode_of (form4E m (by simp [decode4E, h1, h2, h3, h4, h5, h6]))
theorem RoundTrip.fmatch (cv : BitVec 1) (m : BitVec 3) (a : BitVec 4) (b : BitVec 4) (x : BitVec 6) : RoundTrip.Statement (.fmatch cv m a b x) := by
  have m' : seg (encode (.fmatch cv m a b x)) 24 7 = 64#7 := (seg_off _ x 3 24 7 (by decide)).trans ((seg_off _ b 12 24 7 (by decide)).trans ((seg_off _ a 16 24 7 (by decide)).trans ((seg_off _ m 20 24 7 (by decide)).trans ((seg_off _ cv 31 24 7 (by decide)).trans rfl))))
  have h1 : seg (encode (.fmatch cv m a b x)) 0 3 = 0#3 := (seg_off _ x 3 0 3 (by decide)).trans ((seg_off _ b 12 0 3 (by decide)).trans ((seg_off _ a 16 0 3 (by decide)).trans ((seg_off _ m 20 0 3 (by decide)).trans ((seg_off _ cv 31 0 3 (by decide)).trans rfl))))
  have h2 : seg (encode (.fmatch cv m a b x)) 9 3 = 0#3 := (seg_off _ x 3 9 3 (by decide)).trans ((seg_off _ b 12 9 3 (by decide)).trans ((seg_off _ a 16 9 3 (by decide)).trans ((seg_off _ m 20 9 3 (by decide)).trans ((seg_off _ cv 31 9 3 (by decide)).trans rfl))))
  have h3 : seg (encode (.fmatch cv m a b x)) 23 1 = 0#1 := (seg_off _ x 3 23 1 (by decide)).trans ((seg_off _ b 12 23 1 (by decide)).trans ((seg_off _ a 16 23 1 (by decide)).trans ((seg_off _ m 20 23 1 (by decide)).trans ((seg_off _ cv 31 23 1 (by decide)).trans rfl))))
  have h4 : seg (encode (.fmatch cv m a b x)) 31 1 = cv := (seg_off _ x 3 31 1 (by decide)).trans ((seg_off _ b 12 31 1 (by decide)).trans ((seg_off _ a 16 31 1 (by decide)).trans ((seg_off _ m 20 31 1 (by decide)).trans (seg_hit _ cv 31 rfl (by decide)))))
  have h5 : seg (encode (.fmatch cv m a b x)) 20 3 = m := (seg_off _ x 3 20 3 (by decide)).trans ((seg_off _ b 12 20 3 (by decide)).trans ((seg_off _ a 16 20 3 (by decide)).trans (seg_hit _ m 20 ((seg_off _ cv 31 20 3 (by decide)).trans rfl) (by decide))))
  have h6 : seg (encode (.fmatch cv m a b x)) 16 4 = a := (seg_off _ x 3 16 4 (by decide)).trans ((seg_off _ b 12 16 4 (by decide)).trans (seg_hit _ a 16 ((seg_off _ m 20 16 4 (by decide)).trans ((seg_off _ cv 31 16 4 (by decide)).trans rfl)) (by decide)))
  have h7 : seg (encode (.fmatch cv m a b x)) 12 4 = b := (seg_off _ x 3 12 4 (by decide)).trans (seg_hit _ b 12 ((seg_off _ a 16 12 4 (by decide)).trans ((seg_off _ m 20 12 4 (by decide)).trans ((seg_off _ cv 31 12 4 (by decide)).trans rfl))) (by decide))
  have h8 : seg (encode (.fmatch cv m a b x)) 3 6 = x := seg_hit _ x 3 ((seg_off _ b 12 3 6 (by decide)).trans ((seg_off _ a 16 3 6 (by decide)).trans ((seg_off _ m 20 3 6 (by decide)).trans ((seg_off _ cv 31 3 6 (by decide)).trans rfl)))) (by decide)
  exact decode_of (form40 m' (by simp [decode40, h1, h2, h3, h4, h5, h6, h7, h8]))
theorem RoundTrip.fisectMul (cv : BitVec 1) (d : BitVec 4) (a : BitVec 4) (b : BitVec 4) : RoundTrip.Statement (.fisectMul cv d a b) := by
  have m : seg (encode (.fisectMul cv d a b)) 24 7 = 65#7 := (seg_off _ b 12 24 7 (by decide)).trans ((seg_off _ a 16 24 7 (by decide)).trans ((seg_off _ d 20 24 7 (by decide)).trans ((seg_off _ cv 31 24 7 (by decide)).trans rfl)))
  have h1 : seg (encode (.fisectMul cv d a b)) 0 12 = 0#12 := (seg_off _ b 12 0 12 (by decide)).trans ((seg_off _ a 16 0 12 (by decide)).trans ((seg_off _ d 20 0 12 (by decide)).trans ((seg_off _ cv 31 0 12 (by decide)).trans rfl)))
  have h2 : seg (encode (.fisectMul cv d a b)) 31 1 = cv := (seg_off _ b 12 31 1 (by decide)).trans ((seg_off _ a 16 31 1 (by decide)).trans ((seg_off _ d 20 31 1 (by decide)).trans (seg_hit _ cv 31 rfl (by decide))))
  have h3 : seg (encode (.fisectMul cv d a b)) 20 4 = d := (seg_off _ b 12 20 4 (by decide)).trans ((seg_off _ a 16 20 4 (by decide)).trans (seg_hit _ d 20 ((seg_off _ cv 31 20 4 (by decide)).trans rfl) (by decide)))
  have h4 : seg (encode (.fisectMul cv d a b)) 16 4 = a := (seg_off _ b 12 16 4 (by decide)).trans (seg_hit _ a 16 ((seg_off _ d 20 16 4 (by decide)).trans ((seg_off _ cv 31 16 4 (by decide)).trans rfl)) (by decide))
  have h5 : seg (encode (.fisectMul cv d a b)) 12 4 = b := seg_hit _ b 12 ((seg_off _ a 16 12 4 (by decide)).trans ((seg_off _ d 20 12 4 (by decide)).trans ((seg_off _ cv 31 12 4 (by decide)).trans rfl))) (by decide)
  exact decode_of (form41 m (by simp [decode41, h1, h2, h3, h4, h5]))
theorem RoundTrip.fisectFirst (cv : BitVec 1) (d : BitVec 4) (a : BitVec 4) (b : BitVec 4) : RoundTrip.Statement (.fisectFirst cv d a b) := by
  have m : seg (encode (.fisectFirst cv d a b)) 24 7 = 65#7 := (seg_off _ b 12 24 7 (by decide)).trans ((seg_off _ a 16 24 7 (by decide)).trans ((seg_off _ d 20 24 7 (by decide)).trans ((seg_off _ cv 31 24 7 (by decide)).trans rfl)))
  have h1 : seg (encode (.fisectFirst cv d a b)) 0 12 = 1#12 := (seg_off _ b 12 0 12 (by decide)).trans ((seg_off _ a 16 0 12 (by decide)).trans ((seg_off _ d 20 0 12 (by decide)).trans ((seg_off _ cv 31 0 12 (by decide)).trans rfl)))
  have h2 : seg (encode (.fisectFirst cv d a b)) 31 1 = cv := (seg_off _ b 12 31 1 (by decide)).trans ((seg_off _ a 16 31 1 (by decide)).trans ((seg_off _ d 20 31 1 (by decide)).trans (seg_hit _ cv 31 rfl (by decide))))
  have h3 : seg (encode (.fisectFirst cv d a b)) 20 4 = d := (seg_off _ b 12 20 4 (by decide)).trans ((seg_off _ a 16 20 4 (by decide)).trans (seg_hit _ d 20 ((seg_off _ cv 31 20 4 (by decide)).trans rfl) (by decide)))
  have h4 : seg (encode (.fisectFirst cv d a b)) 16 4 = a := (seg_off _ b 12 16 4 (by decide)).trans (seg_hit _ a 16 ((seg_off _ d 20 16 4 (by decide)).trans ((seg_off _ cv 31 16 4 (by decide)).trans rfl)) (by decide))
  have h5 : seg (encode (.fisectFirst cv d a b)) 12 4 = b := seg_hit _ b 12 ((seg_off _ a 16 12 4 (by decide)).trans ((seg_off _ d 20 12 4 (by decide)).trans ((seg_off _ cv 31 12 4 (by decide)).trans rfl))) (by decide)
  exact decode_of (form41 m (by simp [decode41, h1, h2, h3, h4, h5]))
theorem RoundTrip.fisectSecond (cv : BitVec 1) (d : BitVec 4) (a : BitVec 4) (b : BitVec 4) : RoundTrip.Statement (.fisectSecond cv d a b) := by
  have m : seg (encode (.fisectSecond cv d a b)) 24 7 = 65#7 := (seg_off _ b 12 24 7 (by decide)).trans ((seg_off _ a 16 24 7 (by decide)).trans ((seg_off _ d 20 24 7 (by decide)).trans ((seg_off _ cv 31 24 7 (by decide)).trans rfl)))
  have h1 : seg (encode (.fisectSecond cv d a b)) 0 12 = 2#12 := (seg_off _ b 12 0 12 (by decide)).trans ((seg_off _ a 16 0 12 (by decide)).trans ((seg_off _ d 20 0 12 (by decide)).trans ((seg_off _ cv 31 0 12 (by decide)).trans rfl)))
  have h2 : seg (encode (.fisectSecond cv d a b)) 31 1 = cv := (seg_off _ b 12 31 1 (by decide)).trans ((seg_off _ a 16 31 1 (by decide)).trans ((seg_off _ d 20 31 1 (by decide)).trans (seg_hit _ cv 31 rfl (by decide))))
  have h3 : seg (encode (.fisectSecond cv d a b)) 20 4 = d := (seg_off _ b 12 20 4 (by decide)).trans ((seg_off _ a 16 20 4 (by decide)).trans (seg_hit _ d 20 ((seg_off _ cv 31 20 4 (by decide)).trans rfl) (by decide)))
  have h4 : seg (encode (.fisectSecond cv d a b)) 16 4 = a := (seg_off _ b 12 16 4 (by decide)).trans (seg_hit _ a 16 ((seg_off _ d 20 16 4 (by decide)).trans ((seg_off _ cv 31 16 4 (by decide)).trans rfl)) (by decide))
  have h5 : seg (encode (.fisectSecond cv d a b)) 12 4 = b := seg_hit _ b 12 ((seg_off _ a 16 12 4 (by decide)).trans ((seg_off _ d 20 12 4 (by decide)).trans ((seg_off _ cv 31 12 4 (by decide)).trans rfl))) (by decide)
  exact decode_of (form41 m (by simp [decode41, h1, h2, h3, h4, h5]))
theorem RoundTrip.fisectAdd (cv : BitVec 1) (d : BitVec 4) (a : BitVec 4) (b : BitVec 4) : RoundTrip.Statement (.fisectAdd cv d a b) := by
  have m : seg (encode (.fisectAdd cv d a b)) 24 7 = 65#7 := (seg_off _ b 12 24 7 (by decide)).trans ((seg_off _ a 16 24 7 (by decide)).trans ((seg_off _ d 20 24 7 (by decide)).trans ((seg_off _ cv 31 24 7 (by decide)).trans rfl)))
  have h1 : seg (encode (.fisectAdd cv d a b)) 0 12 = 3#12 := (seg_off _ b 12 0 12 (by decide)).trans ((seg_off _ a 16 0 12 (by decide)).trans ((seg_off _ d 20 0 12 (by decide)).trans ((seg_off _ cv 31 0 12 (by decide)).trans rfl)))
  have h2 : seg (encode (.fisectAdd cv d a b)) 31 1 = cv := (seg_off _ b 12 31 1 (by decide)).trans ((seg_off _ a 16 31 1 (by decide)).trans ((seg_off _ d 20 31 1 (by decide)).trans (seg_hit _ cv 31 rfl (by decide))))
  have h3 : seg (encode (.fisectAdd cv d a b)) 20 4 = d := (seg_off _ b 12 20 4 (by decide)).trans ((seg_off _ a 16 20 4 (by decide)).trans (seg_hit _ d 20 ((seg_off _ cv 31 20 4 (by decide)).trans rfl) (by decide)))
  have h4 : seg (encode (.fisectAdd cv d a b)) 16 4 = a := (seg_off _ b 12 16 4 (by decide)).trans (seg_hit _ a 16 ((seg_off _ d 20 16 4 (by decide)).trans ((seg_off _ cv 31 16 4 (by decide)).trans rfl)) (by decide))
  have h5 : seg (encode (.fisectAdd cv d a b)) 12 4 = b := seg_hit _ b 12 ((seg_off _ a 16 12 4 (by decide)).trans ((seg_off _ d 20 12 4 (by decide)).trans ((seg_off _ cv 31 12 4 (by decide)).trans rfl))) (by decide)
  exact decode_of (form41 m (by simp [decode41, h1, h2, h3, h4, h5]))
theorem RoundTrip.fisectMin (cv : BitVec 1) (d : BitVec 4) (a : BitVec 4) (b : BitVec 4) : RoundTrip.Statement (.fisectMin cv d a b) := by
  have m : seg (encode (.fisectMin cv d a b)) 24 7 = 65#7 := (seg_off _ b 12 24 7 (by decide)).trans ((seg_off _ a 16 24 7 (by decide)).trans ((seg_off _ d 20 24 7 (by decide)).trans ((seg_off _ cv 31 24 7 (by decide)).trans rfl)))
  have h1 : seg (encode (.fisectMin cv d a b)) 0 12 = 4#12 := (seg_off _ b 12 0 12 (by decide)).trans ((seg_off _ a 16 0 12 (by decide)).trans ((seg_off _ d 20 0 12 (by decide)).trans ((seg_off _ cv 31 0 12 (by decide)).trans rfl)))
  have h2 : seg (encode (.fisectMin cv d a b)) 31 1 = cv := (seg_off _ b 12 31 1 (by decide)).trans ((seg_off _ a 16 31 1 (by decide)).trans ((seg_off _ d 20 31 1 (by decide)).trans (seg_hit _ cv 31 rfl (by decide))))
  have h3 : seg (encode (.fisectMin cv d a b)) 20 4 = d := (seg_off _ b 12 20 4 (by decide)).trans ((seg_off _ a 16 20 4 (by decide)).trans (seg_hit _ d 20 ((seg_off _ cv 31 20 4 (by decide)).trans rfl) (by decide)))
  have h4 : seg (encode (.fisectMin cv d a b)) 16 4 = a := (seg_off _ b 12 16 4 (by decide)).trans (seg_hit _ a 16 ((seg_off _ d 20 16 4 (by decide)).trans ((seg_off _ cv 31 16 4 (by decide)).trans rfl)) (by decide))
  have h5 : seg (encode (.fisectMin cv d a b)) 12 4 = b := seg_hit _ b 12 ((seg_off _ a 16 12 4 (by decide)).trans ((seg_off _ d 20 12 4 (by decide)).trans ((seg_off _ cv 31 12 4 (by decide)).trans rfl))) (by decide)
  exact decode_of (form41 m (by simp [decode41, h1, h2, h3, h4, h5]))
theorem RoundTrip.fisectMax (cv : BitVec 1) (d : BitVec 4) (a : BitVec 4) (b : BitVec 4) : RoundTrip.Statement (.fisectMax cv d a b) := by
  have m : seg (encode (.fisectMax cv d a b)) 24 7 = 65#7 := (seg_off _ b 12 24 7 (by decide)).trans ((seg_off _ a 16 24 7 (by decide)).trans ((seg_off _ d 20 24 7 (by decide)).trans ((seg_off _ cv 31 24 7 (by decide)).trans rfl)))
  have h1 : seg (encode (.fisectMax cv d a b)) 0 12 = 5#12 := (seg_off _ b 12 0 12 (by decide)).trans ((seg_off _ a 16 0 12 (by decide)).trans ((seg_off _ d 20 0 12 (by decide)).trans ((seg_off _ cv 31 0 12 (by decide)).trans rfl)))
  have h2 : seg (encode (.fisectMax cv d a b)) 31 1 = cv := (seg_off _ b 12 31 1 (by decide)).trans ((seg_off _ a 16 31 1 (by decide)).trans ((seg_off _ d 20 31 1 (by decide)).trans (seg_hit _ cv 31 rfl (by decide))))
  have h3 : seg (encode (.fisectMax cv d a b)) 20 4 = d := (seg_off _ b 12 20 4 (by decide)).trans ((seg_off _ a 16 20 4 (by decide)).trans (seg_hit _ d 20 ((seg_off _ cv 31 20 4 (by decide)).trans rfl) (by decide)))
  have h4 : seg (encode (.fisectMax cv d a b)) 16 4 = a := (seg_off _ b 12 16 4 (by decide)).trans (seg_hit _ a 16 ((seg_off _ d 20 16 4 (by decide)).trans ((seg_off _ cv 31 16 4 (by decide)).trans rfl)) (by decide))
  have h5 : seg (encode (.fisectMax cv d a b)) 12 4 = b := seg_hit _ b 12 ((seg_off _ a 16 12 4 (by decide)).trans ((seg_off _ d 20 12 4 (by decide)).trans ((seg_off _ cv 31 12 4 (by decide)).trans rfl))) (by decide)
  exact decode_of (form41 m (by simp [decode41, h1, h2, h3, h4, h5]))
theorem RoundTrip.funionFirst (cv : BitVec 1) (d : BitVec 4) (a : BitVec 4) (b : BitVec 4) : RoundTrip.Statement (.funionFirst cv d a b) := by
  have m : seg (encode (.funionFirst cv d a b)) 24 7 = 66#7 := (seg_off _ b 12 24 7 (by decide)).trans ((seg_off _ a 16 24 7 (by decide)).trans ((seg_off _ d 20 24 7 (by decide)).trans ((seg_off _ cv 31 24 7 (by decide)).trans rfl)))
  have h1 : seg (encode (.funionFirst cv d a b)) 0 12 = 1#12 := (seg_off _ b 12 0 12 (by decide)).trans ((seg_off _ a 16 0 12 (by decide)).trans ((seg_off _ d 20 0 12 (by decide)).trans ((seg_off _ cv 31 0 12 (by decide)).trans rfl)))
  have h2 : seg (encode (.funionFirst cv d a b)) 31 1 = cv := (seg_off _ b 12 31 1 (by decide)).trans ((seg_off _ a 16 31 1 (by decide)).trans ((seg_off _ d 20 31 1 (by decide)).trans (seg_hit _ cv 31 rfl (by decide))))
  have h3 : seg (encode (.funionFirst cv d a b)) 20 4 = d := (seg_off _ b 12 20 4 (by decide)).trans ((seg_off _ a 16 20 4 (by decide)).trans (seg_hit _ d 20 ((seg_off _ cv 31 20 4 (by decide)).trans rfl) (by decide)))
  have h4 : seg (encode (.funionFirst cv d a b)) 16 4 = a := (seg_off _ b 12 16 4 (by decide)).trans (seg_hit _ a 16 ((seg_off _ d 20 16 4 (by decide)).trans ((seg_off _ cv 31 16 4 (by decide)).trans rfl)) (by decide))
  have h5 : seg (encode (.funionFirst cv d a b)) 12 4 = b := seg_hit _ b 12 ((seg_off _ a 16 12 4 (by decide)).trans ((seg_off _ d 20 12 4 (by decide)).trans ((seg_off _ cv 31 12 4 (by decide)).trans rfl))) (by decide)
  exact decode_of (form42 m (by simp [decode42, h1, h2, h3, h4, h5]))
theorem RoundTrip.funionSecond (cv : BitVec 1) (d : BitVec 4) (a : BitVec 4) (b : BitVec 4) : RoundTrip.Statement (.funionSecond cv d a b) := by
  have m : seg (encode (.funionSecond cv d a b)) 24 7 = 66#7 := (seg_off _ b 12 24 7 (by decide)).trans ((seg_off _ a 16 24 7 (by decide)).trans ((seg_off _ d 20 24 7 (by decide)).trans ((seg_off _ cv 31 24 7 (by decide)).trans rfl)))
  have h1 : seg (encode (.funionSecond cv d a b)) 0 12 = 2#12 := (seg_off _ b 12 0 12 (by decide)).trans ((seg_off _ a 16 0 12 (by decide)).trans ((seg_off _ d 20 0 12 (by decide)).trans ((seg_off _ cv 31 0 12 (by decide)).trans rfl)))
  have h2 : seg (encode (.funionSecond cv d a b)) 31 1 = cv := (seg_off _ b 12 31 1 (by decide)).trans ((seg_off _ a 16 31 1 (by decide)).trans ((seg_off _ d 20 31 1 (by decide)).trans (seg_hit _ cv 31 rfl (by decide))))
  have h3 : seg (encode (.funionSecond cv d a b)) 20 4 = d := (seg_off _ b 12 20 4 (by decide)).trans ((seg_off _ a 16 20 4 (by decide)).trans (seg_hit _ d 20 ((seg_off _ cv 31 20 4 (by decide)).trans rfl) (by decide)))
  have h4 : seg (encode (.funionSecond cv d a b)) 16 4 = a := (seg_off _ b 12 16 4 (by decide)).trans (seg_hit _ a 16 ((seg_off _ d 20 16 4 (by decide)).trans ((seg_off _ cv 31 16 4 (by decide)).trans rfl)) (by decide))
  have h5 : seg (encode (.funionSecond cv d a b)) 12 4 = b := seg_hit _ b 12 ((seg_off _ a 16 12 4 (by decide)).trans ((seg_off _ d 20 12 4 (by decide)).trans ((seg_off _ cv 31 12 4 (by decide)).trans rfl))) (by decide)
  exact decode_of (form42 m (by simp [decode42, h1, h2, h3, h4, h5]))
theorem RoundTrip.funionAdd (cv : BitVec 1) (d : BitVec 4) (a : BitVec 4) (b : BitVec 4) : RoundTrip.Statement (.funionAdd cv d a b) := by
  have m : seg (encode (.funionAdd cv d a b)) 24 7 = 66#7 := (seg_off _ b 12 24 7 (by decide)).trans ((seg_off _ a 16 24 7 (by decide)).trans ((seg_off _ d 20 24 7 (by decide)).trans ((seg_off _ cv 31 24 7 (by decide)).trans rfl)))
  have h1 : seg (encode (.funionAdd cv d a b)) 0 12 = 3#12 := (seg_off _ b 12 0 12 (by decide)).trans ((seg_off _ a 16 0 12 (by decide)).trans ((seg_off _ d 20 0 12 (by decide)).trans ((seg_off _ cv 31 0 12 (by decide)).trans rfl)))
  have h2 : seg (encode (.funionAdd cv d a b)) 31 1 = cv := (seg_off _ b 12 31 1 (by decide)).trans ((seg_off _ a 16 31 1 (by decide)).trans ((seg_off _ d 20 31 1 (by decide)).trans (seg_hit _ cv 31 rfl (by decide))))
  have h3 : seg (encode (.funionAdd cv d a b)) 20 4 = d := (seg_off _ b 12 20 4 (by decide)).trans ((seg_off _ a 16 20 4 (by decide)).trans (seg_hit _ d 20 ((seg_off _ cv 31 20 4 (by decide)).trans rfl) (by decide)))
  have h4 : seg (encode (.funionAdd cv d a b)) 16 4 = a := (seg_off _ b 12 16 4 (by decide)).trans (seg_hit _ a 16 ((seg_off _ d 20 16 4 (by decide)).trans ((seg_off _ cv 31 16 4 (by decide)).trans rfl)) (by decide))
  have h5 : seg (encode (.funionAdd cv d a b)) 12 4 = b := seg_hit _ b 12 ((seg_off _ a 16 12 4 (by decide)).trans ((seg_off _ d 20 12 4 (by decide)).trans ((seg_off _ cv 31 12 4 (by decide)).trans rfl))) (by decide)
  exact decode_of (form42 m (by simp [decode42, h1, h2, h3, h4, h5]))
theorem RoundTrip.funionMin (cv : BitVec 1) (d : BitVec 4) (a : BitVec 4) (b : BitVec 4) : RoundTrip.Statement (.funionMin cv d a b) := by
  have m : seg (encode (.funionMin cv d a b)) 24 7 = 66#7 := (seg_off _ b 12 24 7 (by decide)).trans ((seg_off _ a 16 24 7 (by decide)).trans ((seg_off _ d 20 24 7 (by decide)).trans ((seg_off _ cv 31 24 7 (by decide)).trans rfl)))
  have h1 : seg (encode (.funionMin cv d a b)) 0 12 = 4#12 := (seg_off _ b 12 0 12 (by decide)).trans ((seg_off _ a 16 0 12 (by decide)).trans ((seg_off _ d 20 0 12 (by decide)).trans ((seg_off _ cv 31 0 12 (by decide)).trans rfl)))
  have h2 : seg (encode (.funionMin cv d a b)) 31 1 = cv := (seg_off _ b 12 31 1 (by decide)).trans ((seg_off _ a 16 31 1 (by decide)).trans ((seg_off _ d 20 31 1 (by decide)).trans (seg_hit _ cv 31 rfl (by decide))))
  have h3 : seg (encode (.funionMin cv d a b)) 20 4 = d := (seg_off _ b 12 20 4 (by decide)).trans ((seg_off _ a 16 20 4 (by decide)).trans (seg_hit _ d 20 ((seg_off _ cv 31 20 4 (by decide)).trans rfl) (by decide)))
  have h4 : seg (encode (.funionMin cv d a b)) 16 4 = a := (seg_off _ b 12 16 4 (by decide)).trans (seg_hit _ a 16 ((seg_off _ d 20 16 4 (by decide)).trans ((seg_off _ cv 31 16 4 (by decide)).trans rfl)) (by decide))
  have h5 : seg (encode (.funionMin cv d a b)) 12 4 = b := seg_hit _ b 12 ((seg_off _ a 16 12 4 (by decide)).trans ((seg_off _ d 20 12 4 (by decide)).trans ((seg_off _ cv 31 12 4 (by decide)).trans rfl))) (by decide)
  exact decode_of (form42 m (by simp [decode42, h1, h2, h3, h4, h5]))
theorem RoundTrip.funionMax (cv : BitVec 1) (d : BitVec 4) (a : BitVec 4) (b : BitVec 4) : RoundTrip.Statement (.funionMax cv d a b) := by
  have m : seg (encode (.funionMax cv d a b)) 24 7 = 66#7 := (seg_off _ b 12 24 7 (by decide)).trans ((seg_off _ a 16 24 7 (by decide)).trans ((seg_off _ d 20 24 7 (by decide)).trans ((seg_off _ cv 31 24 7 (by decide)).trans rfl)))
  have h1 : seg (encode (.funionMax cv d a b)) 0 12 = 5#12 := (seg_off _ b 12 0 12 (by decide)).trans ((seg_off _ a 16 0 12 (by decide)).trans ((seg_off _ d 20 0 12 (by decide)).trans ((seg_off _ cv 31 0 12 (by decide)).trans rfl)))
  have h2 : seg (encode (.funionMax cv d a b)) 31 1 = cv := (seg_off _ b 12 31 1 (by decide)).trans ((seg_off _ a 16 31 1 (by decide)).trans ((seg_off _ d 20 31 1 (by decide)).trans (seg_hit _ cv 31 rfl (by decide))))
  have h3 : seg (encode (.funionMax cv d a b)) 20 4 = d := (seg_off _ b 12 20 4 (by decide)).trans ((seg_off _ a 16 20 4 (by decide)).trans (seg_hit _ d 20 ((seg_off _ cv 31 20 4 (by decide)).trans rfl) (by decide)))
  have h4 : seg (encode (.funionMax cv d a b)) 16 4 = a := (seg_off _ b 12 16 4 (by decide)).trans (seg_hit _ a 16 ((seg_off _ d 20 16 4 (by decide)).trans ((seg_off _ cv 31 16 4 (by decide)).trans rfl)) (by decide))
  have h5 : seg (encode (.funionMax cv d a b)) 12 4 = b := seg_hit _ b 12 ((seg_off _ a 16 12 4 (by decide)).trans ((seg_off _ d 20 12 4 (by decide)).trans ((seg_off _ cv 31 12 4 (by decide)).trans rfl))) (by decide)
  exact decode_of (form42 m (by simp [decode42, h1, h2, h3, h4, h5]))
theorem RoundTrip.fmergeFirst (cv : BitVec 1) (d : BitVec 4) (a : BitVec 4) (b : BitVec 4) : RoundTrip.Statement (.fmergeFirst cv d a b) := by
  have m : seg (encode (.fmergeFirst cv d a b)) 24 7 = 67#7 := (seg_off _ b 12 24 7 (by decide)).trans ((seg_off _ a 16 24 7 (by decide)).trans ((seg_off _ d 20 24 7 (by decide)).trans ((seg_off _ cv 31 24 7 (by decide)).trans rfl)))
  have h1 : seg (encode (.fmergeFirst cv d a b)) 0 12 = 1#12 := (seg_off _ b 12 0 12 (by decide)).trans ((seg_off _ a 16 0 12 (by decide)).trans ((seg_off _ d 20 0 12 (by decide)).trans ((seg_off _ cv 31 0 12 (by decide)).trans rfl)))
  have h2 : seg (encode (.fmergeFirst cv d a b)) 31 1 = cv := (seg_off _ b 12 31 1 (by decide)).trans ((seg_off _ a 16 31 1 (by decide)).trans ((seg_off _ d 20 31 1 (by decide)).trans (seg_hit _ cv 31 rfl (by decide))))
  have h3 : seg (encode (.fmergeFirst cv d a b)) 20 4 = d := (seg_off _ b 12 20 4 (by decide)).trans ((seg_off _ a 16 20 4 (by decide)).trans (seg_hit _ d 20 ((seg_off _ cv 31 20 4 (by decide)).trans rfl) (by decide)))
  have h4 : seg (encode (.fmergeFirst cv d a b)) 16 4 = a := (seg_off _ b 12 16 4 (by decide)).trans (seg_hit _ a 16 ((seg_off _ d 20 16 4 (by decide)).trans ((seg_off _ cv 31 16 4 (by decide)).trans rfl)) (by decide))
  have h5 : seg (encode (.fmergeFirst cv d a b)) 12 4 = b := seg_hit _ b 12 ((seg_off _ a 16 12 4 (by decide)).trans ((seg_off _ d 20 12 4 (by decide)).trans ((seg_off _ cv 31 12 4 (by decide)).trans rfl))) (by decide)
  exact decode_of (form43 m (by simp [decode43, h1, h2, h3, h4, h5]))
theorem RoundTrip.fmergeLast (cv : BitVec 1) (d : BitVec 4) (a : BitVec 4) (b : BitVec 4) : RoundTrip.Statement (.fmergeLast cv d a b) := by
  have m : seg (encode (.fmergeLast cv d a b)) 24 7 = 67#7 := (seg_off _ b 12 24 7 (by decide)).trans ((seg_off _ a 16 24 7 (by decide)).trans ((seg_off _ d 20 24 7 (by decide)).trans ((seg_off _ cv 31 24 7 (by decide)).trans rfl)))
  have h1 : seg (encode (.fmergeLast cv d a b)) 0 12 = 2#12 := (seg_off _ b 12 0 12 (by decide)).trans ((seg_off _ a 16 0 12 (by decide)).trans ((seg_off _ d 20 0 12 (by decide)).trans ((seg_off _ cv 31 0 12 (by decide)).trans rfl)))
  have h2 : seg (encode (.fmergeLast cv d a b)) 31 1 = cv := (seg_off _ b 12 31 1 (by decide)).trans ((seg_off _ a 16 31 1 (by decide)).trans ((seg_off _ d 20 31 1 (by decide)).trans (seg_hit _ cv 31 rfl (by decide))))
  have h3 : seg (encode (.fmergeLast cv d a b)) 20 4 = d := (seg_off _ b 12 20 4 (by decide)).trans ((seg_off _ a 16 20 4 (by decide)).trans (seg_hit _ d 20 ((seg_off _ cv 31 20 4 (by decide)).trans rfl) (by decide)))
  have h4 : seg (encode (.fmergeLast cv d a b)) 16 4 = a := (seg_off _ b 12 16 4 (by decide)).trans (seg_hit _ a 16 ((seg_off _ d 20 16 4 (by decide)).trans ((seg_off _ cv 31 16 4 (by decide)).trans rfl)) (by decide))
  have h5 : seg (encode (.fmergeLast cv d a b)) 12 4 = b := seg_hit _ b 12 ((seg_off _ a 16 12 4 (by decide)).trans ((seg_off _ d 20 12 4 (by decide)).trans ((seg_off _ cv 31 12 4 (by decide)).trans rfl))) (by decide)
  exact decode_of (form43 m (by simp [decode43, h1, h2, h3, h4, h5]))
theorem RoundTrip.fmergeAdd (cv : BitVec 1) (d : BitVec 4) (a : BitVec 4) (b : BitVec 4) : RoundTrip.Statement (.fmergeAdd cv d a b) := by
  have m : seg (encode (.fmergeAdd cv d a b)) 24 7 = 67#7 := (seg_off _ b 12 24 7 (by decide)).trans ((seg_off _ a 16 24 7 (by decide)).trans ((seg_off _ d 20 24 7 (by decide)).trans ((seg_off _ cv 31 24 7 (by decide)).trans rfl)))
  have h1 : seg (encode (.fmergeAdd cv d a b)) 0 12 = 3#12 := (seg_off _ b 12 0 12 (by decide)).trans ((seg_off _ a 16 0 12 (by decide)).trans ((seg_off _ d 20 0 12 (by decide)).trans ((seg_off _ cv 31 0 12 (by decide)).trans rfl)))
  have h2 : seg (encode (.fmergeAdd cv d a b)) 31 1 = cv := (seg_off _ b 12 31 1 (by decide)).trans ((seg_off _ a 16 31 1 (by decide)).trans ((seg_off _ d 20 31 1 (by decide)).trans (seg_hit _ cv 31 rfl (by decide))))
  have h3 : seg (encode (.fmergeAdd cv d a b)) 20 4 = d := (seg_off _ b 12 20 4 (by decide)).trans ((seg_off _ a 16 20 4 (by decide)).trans (seg_hit _ d 20 ((seg_off _ cv 31 20 4 (by decide)).trans rfl) (by decide)))
  have h4 : seg (encode (.fmergeAdd cv d a b)) 16 4 = a := (seg_off _ b 12 16 4 (by decide)).trans (seg_hit _ a 16 ((seg_off _ d 20 16 4 (by decide)).trans ((seg_off _ cv 31 16 4 (by decide)).trans rfl)) (by decide))
  have h5 : seg (encode (.fmergeAdd cv d a b)) 12 4 = b := seg_hit _ b 12 ((seg_off _ a 16 12 4 (by decide)).trans ((seg_off _ d 20 12 4 (by decide)).trans ((seg_off _ cv 31 12 4 (by decide)).trans rfl))) (by decide)
  exact decode_of (form43 m (by simp [decode43, h1, h2, h3, h4, h5]))
theorem RoundTrip.fmergeMin (cv : BitVec 1) (d : BitVec 4) (a : BitVec 4) (b : BitVec 4) : RoundTrip.Statement (.fmergeMin cv d a b) := by
  have m : seg (encode (.fmergeMin cv d a b)) 24 7 = 67#7 := (seg_off _ b 12 24 7 (by decide)).trans ((seg_off _ a 16 24 7 (by decide)).trans ((seg_off _ d 20 24 7 (by decide)).trans ((seg_off _ cv 31 24 7 (by decide)).trans rfl)))
  have h1 : seg (encode (.fmergeMin cv d a b)) 0 12 = 4#12 := (seg_off _ b 12 0 12 (by decide)).trans ((seg_off _ a 16 0 12 (by decide)).trans ((seg_off _ d 20 0 12 (by decide)).trans ((seg_off _ cv 31 0 12 (by decide)).trans rfl)))
  have h2 : seg (encode (.fmergeMin cv d a b)) 31 1 = cv := (seg_off _ b 12 31 1 (by decide)).trans ((seg_off _ a 16 31 1 (by decide)).trans ((seg_off _ d 20 31 1 (by decide)).trans (seg_hit _ cv 31 rfl (by decide))))
  have h3 : seg (encode (.fmergeMin cv d a b)) 20 4 = d := (seg_off _ b 12 20 4 (by decide)).trans ((seg_off _ a 16 20 4 (by decide)).trans (seg_hit _ d 20 ((seg_off _ cv 31 20 4 (by decide)).trans rfl) (by decide)))
  have h4 : seg (encode (.fmergeMin cv d a b)) 16 4 = a := (seg_off _ b 12 16 4 (by decide)).trans (seg_hit _ a 16 ((seg_off _ d 20 16 4 (by decide)).trans ((seg_off _ cv 31 16 4 (by decide)).trans rfl)) (by decide))
  have h5 : seg (encode (.fmergeMin cv d a b)) 12 4 = b := seg_hit _ b 12 ((seg_off _ a 16 12 4 (by decide)).trans ((seg_off _ d 20 12 4 (by decide)).trans ((seg_off _ cv 31 12 4 (by decide)).trans rfl))) (by decide)
  exact decode_of (form43 m (by simp [decode43, h1, h2, h3, h4, h5]))
theorem RoundTrip.fmergeMax (cv : BitVec 1) (d : BitVec 4) (a : BitVec 4) (b : BitVec 4) : RoundTrip.Statement (.fmergeMax cv d a b) := by
  have m : seg (encode (.fmergeMax cv d a b)) 24 7 = 67#7 := (seg_off _ b 12 24 7 (by decide)).trans ((seg_off _ a 16 24 7 (by decide)).trans ((seg_off _ d 20 24 7 (by decide)).trans ((seg_off _ cv 31 24 7 (by decide)).trans rfl)))
  have h1 : seg (encode (.fmergeMax cv d a b)) 0 12 = 5#12 := (seg_off _ b 12 0 12 (by decide)).trans ((seg_off _ a 16 0 12 (by decide)).trans ((seg_off _ d 20 0 12 (by decide)).trans ((seg_off _ cv 31 0 12 (by decide)).trans rfl)))
  have h2 : seg (encode (.fmergeMax cv d a b)) 31 1 = cv := (seg_off _ b 12 31 1 (by decide)).trans ((seg_off _ a 16 31 1 (by decide)).trans ((seg_off _ d 20 31 1 (by decide)).trans (seg_hit _ cv 31 rfl (by decide))))
  have h3 : seg (encode (.fmergeMax cv d a b)) 20 4 = d := (seg_off _ b 12 20 4 (by decide)).trans ((seg_off _ a 16 20 4 (by decide)).trans (seg_hit _ d 20 ((seg_off _ cv 31 20 4 (by decide)).trans rfl) (by decide)))
  have h4 : seg (encode (.fmergeMax cv d a b)) 16 4 = a := (seg_off _ b 12 16 4 (by decide)).trans (seg_hit _ a 16 ((seg_off _ d 20 16 4 (by decide)).trans ((seg_off _ cv 31 16 4 (by decide)).trans rfl)) (by decide))
  have h5 : seg (encode (.fmergeMax cv d a b)) 12 4 = b := seg_hit _ b 12 ((seg_off _ a 16 12 4 (by decide)).trans ((seg_off _ d 20 12 4 (by decide)).trans ((seg_off _ cv 31 12 4 (by decide)).trans rfl))) (by decide)
  exact decode_of (form43 m (by simp [decode43, h1, h2, h3, h4, h5]))
theorem RoundTrip.fmergeSortFirst (cv : BitVec 1) (d : BitVec 4) (a : BitVec 4) : RoundTrip.Statement (.fmergeSortFirst cv d a) := by
  have m : seg (encode (.fmergeSortFirst cv d a)) 24 7 = 67#7 := (seg_off _ a 16 24 7 (by decide)).trans ((seg_off _ d 20 24 7 (by decide)).trans ((seg_off _ cv 31 24 7 (by decide)).trans rfl))
  have h1 : seg (encode (.fmergeSortFirst cv d a)) 0 12 = 9#12 := (seg_off _ a 16 0 12 (by decide)).trans ((seg_off _ d 20 0 12 (by decide)).trans ((seg_off _ cv 31 0 12 (by decide)).trans rfl))
  have h2 : seg (encode (.fmergeSortFirst cv d a)) 12 4 = 0#4 := (seg_off _ a 16 12 4 (by decide)).trans ((seg_off _ d 20 12 4 (by decide)).trans ((seg_off _ cv 31 12 4 (by decide)).trans rfl))
  have h3 : seg (encode (.fmergeSortFirst cv d a)) 31 1 = cv := (seg_off _ a 16 31 1 (by decide)).trans ((seg_off _ d 20 31 1 (by decide)).trans (seg_hit _ cv 31 rfl (by decide)))
  have h4 : seg (encode (.fmergeSortFirst cv d a)) 20 4 = d := (seg_off _ a 16 20 4 (by decide)).trans (seg_hit _ d 20 ((seg_off _ cv 31 20 4 (by decide)).trans rfl) (by decide))
  have h5 : seg (encode (.fmergeSortFirst cv d a)) 16 4 = a := seg_hit _ a 16 ((seg_off _ d 20 16 4 (by decide)).trans ((seg_off _ cv 31 16 4 (by decide)).trans rfl)) (by decide)
  exact decode_of (form43 m (by simp [decode43, h1, h2, h3, h4, h5]))
theorem RoundTrip.fmergeSortLast (cv : BitVec 1) (d : BitVec 4) (a : BitVec 4) : RoundTrip.Statement (.fmergeSortLast cv d a) := by
  have m : seg (encode (.fmergeSortLast cv d a)) 24 7 = 67#7 := (seg_off _ a 16 24 7 (by decide)).trans ((seg_off _ d 20 24 7 (by decide)).trans ((seg_off _ cv 31 24 7 (by decide)).trans rfl))
  have h1 : seg (encode (.fmergeSortLast cv d a)) 0 12 = 10#12 := (seg_off _ a 16 0 12 (by decide)).trans ((seg_off _ d 20 0 12 (by decide)).trans ((seg_off _ cv 31 0 12 (by decide)).trans rfl))
  have h2 : seg (encode (.fmergeSortLast cv d a)) 12 4 = 0#4 := (seg_off _ a 16 12 4 (by decide)).trans ((seg_off _ d 20 12 4 (by decide)).trans ((seg_off _ cv 31 12 4 (by decide)).trans rfl))
  have h3 : seg (encode (.fmergeSortLast cv d a)) 31 1 = cv := (seg_off _ a 16 31 1 (by decide)).trans ((seg_off _ d 20 31 1 (by decide)).trans (seg_hit _ cv 31 rfl (by decide)))
  have h4 : seg (encode (.fmergeSortLast cv d a)) 20 4 = d := (seg_off _ a 16 20 4 (by decide)).trans (seg_hit _ d 20 ((seg_off _ cv 31 20 4 (by decide)).trans rfl) (by decide))
  have h5 : seg (encode (.fmergeSortLast cv d a)) 16 4 = a := seg_hit _ a 16 ((seg_off _ d 20 16 4 (by decide)).trans ((seg_off _ cv 31 16 4 (by decide)).trans rfl)) (by decide)
  exact decode_of (form43 m (by simp [decode43, h1, h2, h3, h4, h5]))
theorem RoundTrip.fmergeSortAdd (cv : BitVec 1) (d : BitVec 4) (a : BitVec 4) : RoundTrip.Statement (.fmergeSortAdd cv d a) := by
  have m : seg (encode (.fmergeSortAdd cv d a)) 24 7 = 67#7 := (seg_off _ a 16 24 7 (by decide)).trans ((seg_off _ d 20 24 7 (by decide)).trans ((seg_off _ cv 31 24 7 (by decide)).trans rfl))
  have h1 : seg (encode (.fmergeSortAdd cv d a)) 0 12 = 11#12 := (seg_off _ a 16 0 12 (by decide)).trans ((seg_off _ d 20 0 12 (by decide)).trans ((seg_off _ cv 31 0 12 (by decide)).trans rfl))
  have h2 : seg (encode (.fmergeSortAdd cv d a)) 12 4 = 0#4 := (seg_off _ a 16 12 4 (by decide)).trans ((seg_off _ d 20 12 4 (by decide)).trans ((seg_off _ cv 31 12 4 (by decide)).trans rfl))
  have h3 : seg (encode (.fmergeSortAdd cv d a)) 31 1 = cv := (seg_off _ a 16 31 1 (by decide)).trans ((seg_off _ d 20 31 1 (by decide)).trans (seg_hit _ cv 31 rfl (by decide)))
  have h4 : seg (encode (.fmergeSortAdd cv d a)) 20 4 = d := (seg_off _ a 16 20 4 (by decide)).trans (seg_hit _ d 20 ((seg_off _ cv 31 20 4 (by decide)).trans rfl) (by decide))
  have h5 : seg (encode (.fmergeSortAdd cv d a)) 16 4 = a := seg_hit _ a 16 ((seg_off _ d 20 16 4 (by decide)).trans ((seg_off _ cv 31 16 4 (by decide)).trans rfl)) (by decide)
  exact decode_of (form43 m (by simp [decode43, h1, h2, h3, h4, h5]))
theorem RoundTrip.fmergeSortMin (cv : BitVec 1) (d : BitVec 4) (a : BitVec 4) : RoundTrip.Statement (.fmergeSortMin cv d a) := by
  have m : seg (encode (.fmergeSortMin cv d a)) 24 7 = 67#7 := (seg_off _ a 16 24 7 (by decide)).trans ((seg_off _ d 20 24 7 (by decide)).trans ((seg_off _ cv 31 24 7 (by decide)).trans rfl))
  have h1 : seg (encode (.fmergeSortMin cv d a)) 0 12 = 12#12 := (seg_off _ a 16 0 12 (by decide)).trans ((seg_off _ d 20 0 12 (by decide)).trans ((seg_off _ cv 31 0 12 (by decide)).trans rfl))
  have h2 : seg (encode (.fmergeSortMin cv d a)) 12 4 = 0#4 := (seg_off _ a 16 12 4 (by decide)).trans ((seg_off _ d 20 12 4 (by decide)).trans ((seg_off _ cv 31 12 4 (by decide)).trans rfl))
  have h3 : seg (encode (.fmergeSortMin cv d a)) 31 1 = cv := (seg_off _ a 16 31 1 (by decide)).trans ((seg_off _ d 20 31 1 (by decide)).trans (seg_hit _ cv 31 rfl (by decide)))
  have h4 : seg (encode (.fmergeSortMin cv d a)) 20 4 = d := (seg_off _ a 16 20 4 (by decide)).trans (seg_hit _ d 20 ((seg_off _ cv 31 20 4 (by decide)).trans rfl) (by decide))
  have h5 : seg (encode (.fmergeSortMin cv d a)) 16 4 = a := seg_hit _ a 16 ((seg_off _ d 20 16 4 (by decide)).trans ((seg_off _ cv 31 16 4 (by decide)).trans rfl)) (by decide)
  exact decode_of (form43 m (by simp [decode43, h1, h2, h3, h4, h5]))
theorem RoundTrip.fmergeSortMax (cv : BitVec 1) (d : BitVec 4) (a : BitVec 4) : RoundTrip.Statement (.fmergeSortMax cv d a) := by
  have m : seg (encode (.fmergeSortMax cv d a)) 24 7 = 67#7 := (seg_off _ a 16 24 7 (by decide)).trans ((seg_off _ d 20 24 7 (by decide)).trans ((seg_off _ cv 31 24 7 (by decide)).trans rfl))
  have h1 : seg (encode (.fmergeSortMax cv d a)) 0 12 = 13#12 := (seg_off _ a 16 0 12 (by decide)).trans ((seg_off _ d 20 0 12 (by decide)).trans ((seg_off _ cv 31 0 12 (by decide)).trans rfl))
  have h2 : seg (encode (.fmergeSortMax cv d a)) 12 4 = 0#4 := (seg_off _ a 16 12 4 (by decide)).trans ((seg_off _ d 20 12 4 (by decide)).trans ((seg_off _ cv 31 12 4 (by decide)).trans rfl))
  have h3 : seg (encode (.fmergeSortMax cv d a)) 31 1 = cv := (seg_off _ a 16 31 1 (by decide)).trans ((seg_off _ d 20 31 1 (by decide)).trans (seg_hit _ cv 31 rfl (by decide)))
  have h4 : seg (encode (.fmergeSortMax cv d a)) 20 4 = d := (seg_off _ a 16 20 4 (by decide)).trans (seg_hit _ d 20 ((seg_off _ cv 31 20 4 (by decide)).trans rfl) (by decide))
  have h5 : seg (encode (.fmergeSortMax cv d a)) 16 4 = a := seg_hit _ a 16 ((seg_off _ d 20 16 4 (by decide)).trans ((seg_off _ cv 31 16 4 (by decide)).trans rfl)) (by decide)
  exact decode_of (form43 m (by simp [decode43, h1, h2, h3, h4, h5]))
theorem RoundTrip.fcompact (cv : BitVec 1) (d : BitVec 4) (a : BitVec 4) (k : BitVec 3) : RoundTrip.Statement (.fcompact cv d a k) := by
  have m : seg (encode (.fcompact cv d a k)) 24 7 = 68#7 := (seg_off _ k 9 24 7 (by decide)).trans ((seg_off _ a 16 24 7 (by decide)).trans ((seg_off _ d 20 24 7 (by decide)).trans ((seg_off _ cv 31 24 7 (by decide)).trans rfl)))
  have h1 : seg (encode (.fcompact cv d a k)) 0 9 = 0#9 := (seg_off _ k 9 0 9 (by decide)).trans ((seg_off _ a 16 0 9 (by decide)).trans ((seg_off _ d 20 0 9 (by decide)).trans ((seg_off _ cv 31 0 9 (by decide)).trans rfl)))
  have h2 : seg (encode (.fcompact cv d a k)) 12 4 = 0#4 := (seg_off _ k 9 12 4 (by decide)).trans ((seg_off _ a 16 12 4 (by decide)).trans ((seg_off _ d 20 12 4 (by decide)).trans ((seg_off _ cv 31 12 4 (by decide)).trans rfl)))
  have h3 : seg (encode (.fcompact cv d a k)) 31 1 = cv := (seg_off _ k 9 31 1 (by decide)).trans ((seg_off _ a 16 31 1 (by decide)).trans ((seg_off _ d 20 31 1 (by decide)).trans (seg_hit _ cv 31 rfl (by decide))))
  have h4 : seg (encode (.fcompact cv d a k)) 20 4 = d := (seg_off _ k 9 20 4 (by decide)).trans ((seg_off _ a 16 20 4 (by decide)).trans (seg_hit _ d 20 ((seg_off _ cv 31 20 4 (by decide)).trans rfl) (by decide)))
  have h5 : seg (encode (.fcompact cv d a k)) 16 4 = a := (seg_off _ k 9 16 4 (by decide)).trans (seg_hit _ a 16 ((seg_off _ d 20 16 4 (by decide)).trans ((seg_off _ cv 31 16 4 (by decide)).trans rfl)) (by decide))
  have h6 : seg (encode (.fcompact cv d a k)) 9 3 = k := seg_hit _ k 9 ((seg_off _ a 16 9 3 (by decide)).trans ((seg_off _ d 20 9 3 (by decide)).trans ((seg_off _ cv 31 9 3 (by decide)).trans rfl))) (by decide)
  exact decode_of (form44 m (by simp [decode44, h1, h2, h3, h4, h5, h6]))
theorem RoundTrip.fexpand (cv : BitVec 1) (d : BitVec 4) (a : BitVec 4) (b : BitVec 4) : RoundTrip.Statement (.fexpand cv d a b) := by
  have m : seg (encode (.fexpand cv d a b)) 24 7 = 68#7 := (seg_off _ b 12 24 7 (by decide)).trans ((seg_off _ a 16 24 7 (by decide)).trans ((seg_off _ d 20 24 7 (by decide)).trans ((seg_off _ cv 31 24 7 (by decide)).trans rfl)))
  have h1 : seg (encode (.fexpand cv d a b)) 0 9 = 1#9 := (seg_off _ b 12 0 9 (by decide)).trans ((seg_off _ a 16 0 9 (by decide)).trans ((seg_off _ d 20 0 9 (by decide)).trans ((seg_off _ cv 31 0 9 (by decide)).trans rfl)))
  have h2 : seg (encode (.fexpand cv d a b)) 9 3 = 0#3 := (seg_off _ b 12 9 3 (by decide)).trans ((seg_off _ a 16 9 3 (by decide)).trans ((seg_off _ d 20 9 3 (by decide)).trans ((seg_off _ cv 31 9 3 (by decide)).trans rfl)))
  have h3 : seg (encode (.fexpand cv d a b)) 31 1 = cv := (seg_off _ b 12 31 1 (by decide)).trans ((seg_off _ a 16 31 1 (by decide)).trans ((seg_off _ d 20 31 1 (by decide)).trans (seg_hit _ cv 31 rfl (by decide))))
  have h4 : seg (encode (.fexpand cv d a b)) 20 4 = d := (seg_off _ b 12 20 4 (by decide)).trans ((seg_off _ a 16 20 4 (by decide)).trans (seg_hit _ d 20 ((seg_off _ cv 31 20 4 (by decide)).trans rfl) (by decide)))
  have h5 : seg (encode (.fexpand cv d a b)) 16 4 = a := (seg_off _ b 12 16 4 (by decide)).trans (seg_hit _ a 16 ((seg_off _ d 20 16 4 (by decide)).trans ((seg_off _ cv 31 16 4 (by decide)).trans rfl)) (by decide))
  have h6 : seg (encode (.fexpand cv d a b)) 12 4 = b := seg_hit _ b 12 ((seg_off _ a 16 12 4 (by decide)).trans ((seg_off _ d 20 12 4 (by decide)).trans ((seg_off _ cv 31 12 4 (by decide)).trans rfl))) (by decide)
  exact decode_of (form44 m (by simp [decode44, h1, h2, h3, h4, h5, h6]))
theorem RoundTrip.fwalkIdx (cv : BitVec 1) (v : BitVec 4) (a : BitVec 6) (b : BitVec 6) : RoundTrip.Statement (.fwalkIdx cv v a b) := by
  have m : seg (encode (.fwalkIdx cv v a b)) 24 7 = 69#7 := (seg_off _ b 7 24 7 (by decide)).trans ((seg_off _ a 13 24 7 (by decide)).trans ((seg_off _ v 20 24 7 (by decide)).trans ((seg_off _ cv 31 24 7 (by decide)).trans rfl)))
  have h1 : seg (encode (.fwalkIdx cv v a b)) 0 7 = 0#7 := (seg_off _ b 7 0 7 (by decide)).trans ((seg_off _ a 13 0 7 (by decide)).trans ((seg_off _ v 20 0 7 (by decide)).trans ((seg_off _ cv 31 0 7 (by decide)).trans rfl)))
  have h2 : seg (encode (.fwalkIdx cv v a b)) 19 1 = 0#1 := (seg_off _ b 7 19 1 (by decide)).trans ((seg_off _ a 13 19 1 (by decide)).trans ((seg_off _ v 20 19 1 (by decide)).trans ((seg_off _ cv 31 19 1 (by decide)).trans rfl)))
  have h3 : seg (encode (.fwalkIdx cv v a b)) 31 1 = cv := (seg_off _ b 7 31 1 (by decide)).trans ((seg_off _ a 13 31 1 (by decide)).trans ((seg_off _ v 20 31 1 (by decide)).trans (seg_hit _ cv 31 rfl (by decide))))
  have h4 : seg (encode (.fwalkIdx cv v a b)) 20 4 = v := (seg_off _ b 7 20 4 (by decide)).trans ((seg_off _ a 13 20 4 (by decide)).trans (seg_hit _ v 20 ((seg_off _ cv 31 20 4 (by decide)).trans rfl) (by decide)))
  have h5 : seg (encode (.fwalkIdx cv v a b)) 13 6 = a := (seg_off _ b 7 13 6 (by decide)).trans (seg_hit _ a 13 ((seg_off _ v 20 13 6 (by decide)).trans ((seg_off _ cv 31 13 6 (by decide)).trans rfl)) (by decide))
  have h6 : seg (encode (.fwalkIdx cv v a b)) 7 6 = b := seg_hit _ b 7 ((seg_off _ a 13 7 6 (by decide)).trans ((seg_off _ v 20 7 6 (by decide)).trans ((seg_off _ cv 31 7 6 (by decide)).trans rfl))) (by decide)
  exact decode_of (form45 m (by simp [decode45, h1, h2, h3, h4, h5, h6]))
theorem RoundTrip.fwalkVals (cv : BitVec 1) (v : BitVec 4) (a : BitVec 6) (b : BitVec 6) : RoundTrip.Statement (.fwalkVals cv v a b) := by
  have m : seg (encode (.fwalkVals cv v a b)) 24 7 = 69#7 := (seg_off _ b 7 24 7 (by decide)).trans ((seg_off _ a 13 24 7 (by decide)).trans ((seg_off _ v 20 24 7 (by decide)).trans ((seg_off _ cv 31 24 7 (by decide)).trans rfl)))
  have h1 : seg (encode (.fwalkVals cv v a b)) 0 7 = 1#7 := (seg_off _ b 7 0 7 (by decide)).trans ((seg_off _ a 13 0 7 (by decide)).trans ((seg_off _ v 20 0 7 (by decide)).trans ((seg_off _ cv 31 0 7 (by decide)).trans rfl)))
  have h2 : seg (encode (.fwalkVals cv v a b)) 19 1 = 0#1 := (seg_off _ b 7 19 1 (by decide)).trans ((seg_off _ a 13 19 1 (by decide)).trans ((seg_off _ v 20 19 1 (by decide)).trans ((seg_off _ cv 31 19 1 (by decide)).trans rfl)))
  have h3 : seg (encode (.fwalkVals cv v a b)) 31 1 = cv := (seg_off _ b 7 31 1 (by decide)).trans ((seg_off _ a 13 31 1 (by decide)).trans ((seg_off _ v 20 31 1 (by decide)).trans (seg_hit _ cv 31 rfl (by decide))))
  have h4 : seg (encode (.fwalkVals cv v a b)) 20 4 = v := (seg_off _ b 7 20 4 (by decide)).trans ((seg_off _ a 13 20 4 (by decide)).trans (seg_hit _ v 20 ((seg_off _ cv 31 20 4 (by decide)).trans rfl) (by decide)))
  have h5 : seg (encode (.fwalkVals cv v a b)) 13 6 = a := (seg_off _ b 7 13 6 (by decide)).trans (seg_hit _ a 13 ((seg_off _ v 20 13 6 (by decide)).trans ((seg_off _ cv 31 13 6 (by decide)).trans rfl)) (by decide))
  have h6 : seg (encode (.fwalkVals cv v a b)) 7 6 = b := seg_hit _ b 7 ((seg_off _ a 13 7 6 (by decide)).trans ((seg_off _ v 20 7 6 (by decide)).trans ((seg_off _ cv 31 7 6 (by decide)).trans rfl))) (by decide)
  exact decode_of (form45 m (by simp [decode45, h1, h2, h3, h4, h5, h6]))
theorem RoundTrip.fdot (cv : BitVec 1) (a : BitVec 4) (b : BitVec 4) (x : BitVec 6) : RoundTrip.Statement (.fdot cv a b x) := by
  have m : seg (encode (.fdot cv a b x)) 24 7 = 70#7 := (seg_off _ x 3 24 7 (by decide)).trans ((seg_off _ b 12 24 7 (by decide)).trans ((seg_off _ a 16 24 7 (by decide)).trans ((seg_off _ cv 31 24 7 (by decide)).trans rfl)))
  have h1 : seg (encode (.fdot cv a b x)) 0 3 = 0#3 := (seg_off _ x 3 0 3 (by decide)).trans ((seg_off _ b 12 0 3 (by decide)).trans ((seg_off _ a 16 0 3 (by decide)).trans ((seg_off _ cv 31 0 3 (by decide)).trans rfl)))
  have h2 : seg (encode (.fdot cv a b x)) 9 3 = 0#3 := (seg_off _ x 3 9 3 (by decide)).trans ((seg_off _ b 12 9 3 (by decide)).trans ((seg_off _ a 16 9 3 (by decide)).trans ((seg_off _ cv 31 9 3 (by decide)).trans rfl)))
  have h3 : seg (encode (.fdot cv a b x)) 20 4 = 0#4 := (seg_off _ x 3 20 4 (by decide)).trans ((seg_off _ b 12 20 4 (by decide)).trans ((seg_off _ a 16 20 4 (by decide)).trans ((seg_off _ cv 31 20 4 (by decide)).trans rfl)))
  have h4 : seg (encode (.fdot cv a b x)) 31 1 = cv := (seg_off _ x 3 31 1 (by decide)).trans ((seg_off _ b 12 31 1 (by decide)).trans ((seg_off _ a 16 31 1 (by decide)).trans (seg_hit _ cv 31 rfl (by decide))))
  have h5 : seg (encode (.fdot cv a b x)) 16 4 = a := (seg_off _ x 3 16 4 (by decide)).trans ((seg_off _ b 12 16 4 (by decide)).trans (seg_hit _ a 16 ((seg_off _ cv 31 16 4 (by decide)).trans rfl) (by decide)))
  have h6 : seg (encode (.fdot cv a b x)) 12 4 = b := (seg_off _ x 3 12 4 (by decide)).trans (seg_hit _ b 12 ((seg_off _ a 16 12 4 (by decide)).trans ((seg_off _ cv 31 12 4 (by decide)).trans rfl)) (by decide))
  have h7 : seg (encode (.fdot cv a b x)) 3 6 = x := seg_hit _ x 3 ((seg_off _ b 12 3 6 (by decide)).trans ((seg_off _ a 16 3 6 (by decide)).trans ((seg_off _ cv 31 3 6 (by decide)).trans rfl))) (by decide)
  exact decode_of (form46 m (by simp [decode46, h1, h2, h3, h4, h5, h6, h7]))
theorem RoundTrip.fdotIsect (cv : BitVec 1) (a : BitVec 4) (b : BitVec 4) (x : BitVec 6) : RoundTrip.Statement (.fdotIsect cv a b x) := by
  have m : seg (encode (.fdotIsect cv a b x)) 24 7 = 70#7 := (seg_off _ x 3 24 7 (by decide)).trans ((seg_off _ b 12 24 7 (by decide)).trans ((seg_off _ a 16 24 7 (by decide)).trans ((seg_off _ cv 31 24 7 (by decide)).trans rfl)))
  have h1 : seg (encode (.fdotIsect cv a b x)) 0 3 = 1#3 := (seg_off _ x 3 0 3 (by decide)).trans ((seg_off _ b 12 0 3 (by decide)).trans ((seg_off _ a 16 0 3 (by decide)).trans ((seg_off _ cv 31 0 3 (by decide)).trans rfl)))
  have h2 : seg (encode (.fdotIsect cv a b x)) 9 3 = 0#3 := (seg_off _ x 3 9 3 (by decide)).trans ((seg_off _ b 12 9 3 (by decide)).trans ((seg_off _ a 16 9 3 (by decide)).trans ((seg_off _ cv 31 9 3 (by decide)).trans rfl)))
  have h3 : seg (encode (.fdotIsect cv a b x)) 20 4 = 0#4 := (seg_off _ x 3 20 4 (by decide)).trans ((seg_off _ b 12 20 4 (by decide)).trans ((seg_off _ a 16 20 4 (by decide)).trans ((seg_off _ cv 31 20 4 (by decide)).trans rfl)))
  have h4 : seg (encode (.fdotIsect cv a b x)) 31 1 = cv := (seg_off _ x 3 31 1 (by decide)).trans ((seg_off _ b 12 31 1 (by decide)).trans ((seg_off _ a 16 31 1 (by decide)).trans (seg_hit _ cv 31 rfl (by decide))))
  have h5 : seg (encode (.fdotIsect cv a b x)) 16 4 = a := (seg_off _ x 3 16 4 (by decide)).trans ((seg_off _ b 12 16 4 (by decide)).trans (seg_hit _ a 16 ((seg_off _ cv 31 16 4 (by decide)).trans rfl) (by decide)))
  have h6 : seg (encode (.fdotIsect cv a b x)) 12 4 = b := (seg_off _ x 3 12 4 (by decide)).trans (seg_hit _ b 12 ((seg_off _ a 16 12 4 (by decide)).trans ((seg_off _ cv 31 12 4 (by decide)).trans rfl)) (by decide))
  have h7 : seg (encode (.fdotIsect cv a b x)) 3 6 = x := seg_hit _ x 3 ((seg_off _ b 12 3 6 (by decide)).trans ((seg_off _ a 16 3 6 (by decide)).trans ((seg_off _ cv 31 3 6 (by decide)).trans rfl))) (by decide)
  exact decode_of (form46 m (by simp [decode46, h1, h2, h3, h4, h5, h6, h7]))
theorem RoundTrip.fmapMul (cv : BitVec 1) (d : BitVec 4) (a : BitVec 4) (k : BitVec 3) (sf : BitVec 6) : RoundTrip.Statement (.fmapMul cv d a k sf) := by
  have m : seg (encode (.fmapMul cv d a k sf)) 24 7 = 71#7 := (seg_off _ sf 3 24 7 (by decide)).trans ((seg_off _ k 9 24 7 (by decide)).trans ((seg_off _ a 16 24 7 (by decide)).trans ((seg_off _ d 20 24 7 (by decide)).trans ((seg_off _ cv 31 24 7 (by decide)).trans rfl))))
  have h1 : seg (encode (.fmapMul cv d a k sf)) 0 3 = 0#3 := (seg_off _ sf 3 0 3 (by decide)).trans ((seg_off _ k 9 0 3 (by decide)).trans ((seg_off _ a 16 0 3 (by decide)).trans ((seg_off _ d 20 0 3 (by decide)).trans ((seg_off _ cv 31 0 3 (by decide)).trans rfl))))
  have h2 : seg (encode (.fmapMul cv d a k sf)) 12 4 = 0#4 := (seg_off _ sf 3 12 4 (by decide)).trans ((seg_off _ k 9 12 4 (by decide)).trans ((seg_off _ a 16 12 4 (by decide)).trans ((seg_off _ d 20 12 4 (by decide)).trans ((seg_off _ cv 31 12 4 (by decide)).trans rfl))))
  have h3 : seg (encode (.fmapMul cv d a k sf)) 31 1 = cv := (seg_off _ sf 3 31 1 (by decide)).trans ((seg_off _ k 9 31 1 (by decide)).trans ((seg_off _ a 16 31 1 (by decide)).trans ((seg_off _ d 20 31 1 (by decide)).trans (seg_hit _ cv 31 rfl (by decide)))))
  have h4 : seg (encode (.fmapMul cv d a k sf)) 20 4 = d := (seg_off _ sf 3 20 4 (by decide)).trans ((seg_off _ k 9 20 4 (by decide)).trans ((seg_off _ a 16 20 4 (by decide)).trans (seg_hit _ d 20 ((seg_off _ cv 31 20 4 (by decide)).trans rfl) (by decide))))
  have h5 : seg (encode (.fmapMul cv d a k sf)) 16 4 = a := (seg_off _ sf 3 16 4 (by decide)).trans ((seg_off _ k 9 16 4 (by decide)).trans (seg_hit _ a 16 ((seg_off _ d 20 16 4 (by decide)).trans ((seg_off _ cv 31 16 4 (by decide)).trans rfl)) (by decide)))
  have h6 : seg (encode (.fmapMul cv d a k sf)) 9 3 = k := (seg_off _ sf 3 9 3 (by decide)).trans (seg_hit _ k 9 ((seg_off _ a 16 9 3 (by decide)).trans ((seg_off _ d 20 9 3 (by decide)).trans ((seg_off _ cv 31 9 3 (by decide)).trans rfl))) (by decide))
  have h7 : seg (encode (.fmapMul cv d a k sf)) 3 6 = sf := seg_hit _ sf 3 ((seg_off _ k 9 3 6 (by decide)).trans ((seg_off _ a 16 3 6 (by decide)).trans ((seg_off _ d 20 3 6 (by decide)).trans ((seg_off _ cv 31 3 6 (by decide)).trans rfl)))) (by decide)
  exact decode_of (form47 m (by simp [decode47, h1, h2, h3, h4, h5, h6, h7]))
theorem RoundTrip.fmapAdd (cv : BitVec 1) (d : BitVec 4) (a : BitVec 4) (k : BitVec 3) (sf : BitVec 6) : RoundTrip.Statement (.fmapAdd cv d a k sf) := by
  have m : seg (encode (.fmapAdd cv d a k sf)) 24 7 = 71#7 := (seg_off _ sf 3 24 7 (by decide)).trans ((seg_off _ k 9 24 7 (by decide)).trans ((seg_off _ a 16 24 7 (by decide)).trans ((seg_off _ d 20 24 7 (by decide)).trans ((seg_off _ cv 31 24 7 (by decide)).trans rfl))))
  have h1 : seg (encode (.fmapAdd cv d a k sf)) 0 3 = 1#3 := (seg_off _ sf 3 0 3 (by decide)).trans ((seg_off _ k 9 0 3 (by decide)).trans ((seg_off _ a 16 0 3 (by decide)).trans ((seg_off _ d 20 0 3 (by decide)).trans ((seg_off _ cv 31 0 3 (by decide)).trans rfl))))
  have h2 : seg (encode (.fmapAdd cv d a k sf)) 12 4 = 0#4 := (seg_off _ sf 3 12 4 (by decide)).trans ((seg_off _ k 9 12 4 (by decide)).trans ((seg_off _ a 16 12 4 (by decide)).trans ((seg_off _ d 20 12 4 (by decide)).trans ((seg_off _ cv 31 12 4 (by decide)).trans rfl))))
  have h3 : seg (encode (.fmapAdd cv d a k sf)) 31 1 = cv := (seg_off _ sf 3 31 1 (by decide)).trans ((seg_off _ k 9 31 1 (by decide)).trans ((seg_off _ a 16 31 1 (by decide)).trans ((seg_off _ d 20 31 1 (by decide)).trans (seg_hit _ cv 31 rfl (by decide)))))
  have h4 : seg (encode (.fmapAdd cv d a k sf)) 20 4 = d := (seg_off _ sf 3 20 4 (by decide)).trans ((seg_off _ k 9 20 4 (by decide)).trans ((seg_off _ a 16 20 4 (by decide)).trans (seg_hit _ d 20 ((seg_off _ cv 31 20 4 (by decide)).trans rfl) (by decide))))
  have h5 : seg (encode (.fmapAdd cv d a k sf)) 16 4 = a := (seg_off _ sf 3 16 4 (by decide)).trans ((seg_off _ k 9 16 4 (by decide)).trans (seg_hit _ a 16 ((seg_off _ d 20 16 4 (by decide)).trans ((seg_off _ cv 31 16 4 (by decide)).trans rfl)) (by decide)))
  have h6 : seg (encode (.fmapAdd cv d a k sf)) 9 3 = k := (seg_off _ sf 3 9 3 (by decide)).trans (seg_hit _ k 9 ((seg_off _ a 16 9 3 (by decide)).trans ((seg_off _ d 20 9 3 (by decide)).trans ((seg_off _ cv 31 9 3 (by decide)).trans rfl))) (by decide))
  have h7 : seg (encode (.fmapAdd cv d a k sf)) 3 6 = sf := seg_hit _ sf 3 ((seg_off _ k 9 3 6 (by decide)).trans ((seg_off _ a 16 3 6 (by decide)).trans ((seg_off _ d 20 3 6 (by decide)).trans ((seg_off _ cv 31 3 6 (by decide)).trans rfl)))) (by decide)
  exact decode_of (form47 m (by simp [decode47, h1, h2, h3, h4, h5, h6, h7]))
theorem RoundTrip.fmapAbs (cv : BitVec 1) (d : BitVec 4) (a : BitVec 4) (k : BitVec 3) : RoundTrip.Statement (.fmapAbs cv d a k) := by
  have m : seg (encode (.fmapAbs cv d a k)) 24 7 = 71#7 := (seg_off _ k 9 24 7 (by decide)).trans ((seg_off _ a 16 24 7 (by decide)).trans ((seg_off _ d 20 24 7 (by decide)).trans ((seg_off _ cv 31 24 7 (by decide)).trans rfl)))
  have h1 : seg (encode (.fmapAbs cv d a k)) 0 3 = 2#3 := (seg_off _ k 9 0 3 (by decide)).trans ((seg_off _ a 16 0 3 (by decide)).trans ((seg_off _ d 20 0 3 (by decide)).trans ((seg_off _ cv 31 0 3 (by decide)).trans rfl)))
  have h2 : seg (encode (.fmapAbs cv d a k)) 3 6 = 0#6 := (seg_off _ k 9 3 6 (by decide)).trans ((seg_off _ a 16 3 6 (by decide)).trans ((seg_off _ d 20 3 6 (by decide)).trans ((seg_off _ cv 31 3 6 (by decide)).trans rfl)))
  have h3 : seg (encode (.fmapAbs cv d a k)) 12 4 = 0#4 := (seg_off _ k 9 12 4 (by decide)).trans ((seg_off _ a 16 12 4 (by decide)).trans ((seg_off _ d 20 12 4 (by decide)).trans ((seg_off _ cv 31 12 4 (by decide)).trans rfl)))
  have h4 : seg (encode (.fmapAbs cv d a k)) 31 1 = cv := (seg_off _ k 9 31 1 (by decide)).trans ((seg_off _ a 16 31 1 (by decide)).trans ((seg_off _ d 20 31 1 (by decide)).trans (seg_hit _ cv 31 rfl (by decide))))
  have h5 : seg (encode (.fmapAbs cv d a k)) 20 4 = d := (seg_off _ k 9 20 4 (by decide)).trans ((seg_off _ a 16 20 4 (by decide)).trans (seg_hit _ d 20 ((seg_off _ cv 31 20 4 (by decide)).trans rfl) (by decide)))
  have h6 : seg (encode (.fmapAbs cv d a k)) 16 4 = a := (seg_off _ k 9 16 4 (by decide)).trans (seg_hit _ a 16 ((seg_off _ d 20 16 4 (by decide)).trans ((seg_off _ cv 31 16 4 (by decide)).trans rfl)) (by decide))
  have h7 : seg (encode (.fmapAbs cv d a k)) 9 3 = k := seg_hit _ k 9 ((seg_off _ a 16 9 3 (by decide)).trans ((seg_off _ d 20 9 3 (by decide)).trans ((seg_off _ cv 31 9 3 (by decide)).trans rfl))) (by decide)
  exact decode_of (form47 m (by simp [decode47, h1, h2, h3, h4, h5, h6, h7]))
theorem RoundTrip.fmapNeg (cv : BitVec 1) (d : BitVec 4) (a : BitVec 4) (k : BitVec 3) : RoundTrip.Statement (.fmapNeg cv d a k) := by
  have m : seg (encode (.fmapNeg cv d a k)) 24 7 = 71#7 := (seg_off _ k 9 24 7 (by decide)).trans ((seg_off _ a 16 24 7 (by decide)).trans ((seg_off _ d 20 24 7 (by decide)).trans ((seg_off _ cv 31 24 7 (by decide)).trans rfl)))
  have h1 : seg (encode (.fmapNeg cv d a k)) 0 3 = 3#3 := (seg_off _ k 9 0 3 (by decide)).trans ((seg_off _ a 16 0 3 (by decide)).trans ((seg_off _ d 20 0 3 (by decide)).trans ((seg_off _ cv 31 0 3 (by decide)).trans rfl)))
  have h2 : seg (encode (.fmapNeg cv d a k)) 3 6 = 0#6 := (seg_off _ k 9 3 6 (by decide)).trans ((seg_off _ a 16 3 6 (by decide)).trans ((seg_off _ d 20 3 6 (by decide)).trans ((seg_off _ cv 31 3 6 (by decide)).trans rfl)))
  have h3 : seg (encode (.fmapNeg cv d a k)) 12 4 = 0#4 := (seg_off _ k 9 12 4 (by decide)).trans ((seg_off _ a 16 12 4 (by decide)).trans ((seg_off _ d 20 12 4 (by decide)).trans ((seg_off _ cv 31 12 4 (by decide)).trans rfl)))
  have h4 : seg (encode (.fmapNeg cv d a k)) 31 1 = cv := (seg_off _ k 9 31 1 (by decide)).trans ((seg_off _ a 16 31 1 (by decide)).trans ((seg_off _ d 20 31 1 (by decide)).trans (seg_hit _ cv 31 rfl (by decide))))
  have h5 : seg (encode (.fmapNeg cv d a k)) 20 4 = d := (seg_off _ k 9 20 4 (by decide)).trans ((seg_off _ a 16 20 4 (by decide)).trans (seg_hit _ d 20 ((seg_off _ cv 31 20 4 (by decide)).trans rfl) (by decide)))
  have h6 : seg (encode (.fmapNeg cv d a k)) 16 4 = a := (seg_off _ k 9 16 4 (by decide)).trans (seg_hit _ a 16 ((seg_off _ d 20 16 4 (by decide)).trans ((seg_off _ cv 31 16 4 (by decide)).trans rfl)) (by decide))
  have h7 : seg (encode (.fmapNeg cv d a k)) 9 3 = k := seg_hit _ k 9 ((seg_off _ a 16 9 3 (by decide)).trans ((seg_off _ d 20 9 3 (by decide)).trans ((seg_off _ cv 31 9 3 (by decide)).trans rfl))) (by decide)
  exact decode_of (form47 m (by simp [decode47, h1, h2, h3, h4, h5, h6, h7]))
theorem RoundTrip.fmapRelu (cv : BitVec 1) (d : BitVec 4) (a : BitVec 4) (k : BitVec 3) : RoundTrip.Statement (.fmapRelu cv d a k) := by
  have m : seg (encode (.fmapRelu cv d a k)) 24 7 = 71#7 := (seg_off _ k 9 24 7 (by decide)).trans ((seg_off _ a 16 24 7 (by decide)).trans ((seg_off _ d 20 24 7 (by decide)).trans ((seg_off _ cv 31 24 7 (by decide)).trans rfl)))
  have h1 : seg (encode (.fmapRelu cv d a k)) 0 3 = 4#3 := (seg_off _ k 9 0 3 (by decide)).trans ((seg_off _ a 16 0 3 (by decide)).trans ((seg_off _ d 20 0 3 (by decide)).trans ((seg_off _ cv 31 0 3 (by decide)).trans rfl)))
  have h2 : seg (encode (.fmapRelu cv d a k)) 3 6 = 0#6 := (seg_off _ k 9 3 6 (by decide)).trans ((seg_off _ a 16 3 6 (by decide)).trans ((seg_off _ d 20 3 6 (by decide)).trans ((seg_off _ cv 31 3 6 (by decide)).trans rfl)))
  have h3 : seg (encode (.fmapRelu cv d a k)) 12 4 = 0#4 := (seg_off _ k 9 12 4 (by decide)).trans ((seg_off _ a 16 12 4 (by decide)).trans ((seg_off _ d 20 12 4 (by decide)).trans ((seg_off _ cv 31 12 4 (by decide)).trans rfl)))
  have h4 : seg (encode (.fmapRelu cv d a k)) 31 1 = cv := (seg_off _ k 9 31 1 (by decide)).trans ((seg_off _ a 16 31 1 (by decide)).trans ((seg_off _ d 20 31 1 (by decide)).trans (seg_hit _ cv 31 rfl (by decide))))
  have h5 : seg (encode (.fmapRelu cv d a k)) 20 4 = d := (seg_off _ k 9 20 4 (by decide)).trans ((seg_off _ a 16 20 4 (by decide)).trans (seg_hit _ d 20 ((seg_off _ cv 31 20 4 (by decide)).trans rfl) (by decide)))
  have h6 : seg (encode (.fmapRelu cv d a k)) 16 4 = a := (seg_off _ k 9 16 4 (by decide)).trans (seg_hit _ a 16 ((seg_off _ d 20 16 4 (by decide)).trans ((seg_off _ cv 31 16 4 (by decide)).trans rfl)) (by decide))
  have h7 : seg (encode (.fmapRelu cv d a k)) 9 3 = k := seg_hit _ k 9 ((seg_off _ a 16 9 3 (by decide)).trans ((seg_off _ d 20 9 3 (by decide)).trans ((seg_off _ cv 31 9 3 (by decide)).trans rfl))) (by decide)
  exact decode_of (form47 m (by simp [decode47, h1, h2, h3, h4, h5, h6, h7]))
theorem RoundTrip.fmov (cv : BitVec 1) (d : BitVec 4) (a : BitVec 4) : RoundTrip.Statement (.fmov cv d a) := by
  have m : seg (encode (.fmov cv d a)) 24 7 = 72#7 := (seg_off _ a 16 24 7 (by decide)).trans ((seg_off _ d 20 24 7 (by decide)).trans ((seg_off _ cv 31 24 7 (by decide)).trans rfl))
  have h1 : seg (encode (.fmov cv d a)) 0 3 = 0#3 := (seg_off _ a 16 0 3 (by decide)).trans ((seg_off _ d 20 0 3 (by decide)).trans ((seg_off _ cv 31 0 3 (by decide)).trans rfl))
  have h2 : seg (encode (.fmov cv d a)) 3 1 = 0#1 := (seg_off _ a 16 3 1 (by decide)).trans ((seg_off _ d 20 3 1 (by decide)).trans ((seg_off _ cv 31 3 1 (by decide)).trans rfl))
  have h3 : seg (encode (.fmov cv d a)) 4 5 = 0#5 := (seg_off _ a 16 4 5 (by decide)).trans ((seg_off _ d 20 4 5 (by decide)).trans ((seg_off _ cv 31 4 5 (by decide)).trans rfl))
  have h4 : seg (encode (.fmov cv d a)) 9 3 = 0#3 := (seg_off _ a 16 9 3 (by decide)).trans ((seg_off _ d 20 9 3 (by decide)).trans ((seg_off _ cv 31 9 3 (by decide)).trans rfl))
  have h5 : seg (encode (.fmov cv d a)) 12 4 = 0#4 := (seg_off _ a 16 12 4 (by decide)).trans ((seg_off _ d 20 12 4 (by decide)).trans ((seg_off _ cv 31 12 4 (by decide)).trans rfl))
  have h6 : seg (encode (.fmov cv d a)) 31 1 = cv := (seg_off _ a 16 31 1 (by decide)).trans ((seg_off _ d 20 31 1 (by decide)).trans (seg_hit _ cv 31 rfl (by decide)))
  have h7 : seg (encode (.fmov cv d a)) 20 4 = d := (seg_off _ a 16 20 4 (by decide)).trans (seg_hit _ d 20 ((seg_off _ cv 31 20 4 (by decide)).trans rfl) (by decide))
  have h8 : seg (encode (.fmov cv d a)) 16 4 = a := seg_hit _ a 16 ((seg_off _ d 20 16 4 (by decide)).trans ((seg_off _ cv 31 16 4 (by decide)).trans rfl)) (by decide)
  exact decode_of (form48 m (by simp [decode48, h1, h2, h3, h4, h5, h6, h7, h8]))
theorem RoundTrip.ftodense (cv : BitVec 1) (a : BitVec 4) (v : BitVec 5) : RoundTrip.Statement (.ftodense cv a v) := by
  have m : seg (encode (.ftodense cv a v)) 24 7 = 72#7 := (seg_off _ v 4 24 7 (by decide)).trans ((seg_off _ a 16 24 7 (by decide)).trans ((seg_off _ cv 31 24 7 (by decide)).trans rfl))
  have h1 : seg (encode (.ftodense cv a v)) 0 3 = 1#3 := (seg_off _ v 4 0 3 (by decide)).trans ((seg_off _ a 16 0 3 (by decide)).trans ((seg_off _ cv 31 0 3 (by decide)).trans rfl))
  have h2 : seg (encode (.ftodense cv a v)) 3 1 = 0#1 := (seg_off _ v 4 3 1 (by decide)).trans ((seg_off _ a 16 3 1 (by decide)).trans ((seg_off _ cv 31 3 1 (by decide)).trans rfl))
  have h3 : seg (encode (.ftodense cv a v)) 9 3 = 0#3 := (seg_off _ v 4 9 3 (by decide)).trans ((seg_off _ a 16 9 3 (by decide)).trans ((seg_off _ cv 31 9 3 (by decide)).trans rfl))
  have h4 : seg (encode (.ftodense cv a v)) 12 4 = 0#4 := (seg_off _ v 4 12 4 (by decide)).trans ((seg_off _ a 16 12 4 (by decide)).trans ((seg_off _ cv 31 12 4 (by decide)).trans rfl))
  have h5 : seg (encode (.ftodense cv a v)) 20 4 = 0#4 := (seg_off _ v 4 20 4 (by decide)).trans ((seg_off _ a 16 20 4 (by decide)).trans ((seg_off _ cv 31 20 4 (by decide)).trans rfl))
  have h6 : seg (encode (.ftodense cv a v)) 31 1 = cv := (seg_off _ v 4 31 1 (by decide)).trans ((seg_off _ a 16 31 1 (by decide)).trans (seg_hit _ cv 31 rfl (by decide)))
  have h7 : seg (encode (.ftodense cv a v)) 16 4 = a := (seg_off _ v 4 16 4 (by decide)).trans (seg_hit _ a 16 ((seg_off _ cv 31 16 4 (by decide)).trans rfl) (by decide))
  have h8 : seg (encode (.ftodense cv a v)) 4 5 = v := seg_hit _ v 4 ((seg_off _ a 16 4 5 (by decide)).trans ((seg_off _ cv 31 4 5 (by decide)).trans rfl)) (by decide)
  exact decode_of (form48 m (by simp [decode48, h1, h2, h3, h4, h5, h6, h7, h8]))
theorem RoundTrip.ffromdense (cv : BitVec 1) (d : BitVec 4) (k : BitVec 3) (v : BitVec 5) : RoundTrip.Statement (.ffromdense cv d k v) := by
  have m : seg (encode (.ffromdense cv d k v)) 24 7 = 72#7 := (seg_off _ v 4 24 7 (by decide)).trans ((seg_off _ k 9 24 7 (by decide)).trans ((seg_off _ d 20 24 7 (by decide)).trans ((seg_off _ cv 31 24 7 (by decide)).trans rfl)))
  have h1 : seg (encode (.ffromdense cv d k v)) 0 3 = 2#3 := (seg_off _ v 4 0 3 (by decide)).trans ((seg_off _ k 9 0 3 (by decide)).trans ((seg_off _ d 20 0 3 (by decide)).trans ((seg_off _ cv 31 0 3 (by decide)).trans rfl)))
  have h2 : seg (encode (.ffromdense cv d k v)) 3 1 = 0#1 := (seg_off _ v 4 3 1 (by decide)).trans ((seg_off _ k 9 3 1 (by decide)).trans ((seg_off _ d 20 3 1 (by decide)).trans ((seg_off _ cv 31 3 1 (by decide)).trans rfl)))
  have h3 : seg (encode (.ffromdense cv d k v)) 12 4 = 0#4 := (seg_off _ v 4 12 4 (by decide)).trans ((seg_off _ k 9 12 4 (by decide)).trans ((seg_off _ d 20 12 4 (by decide)).trans ((seg_off _ cv 31 12 4 (by decide)).trans rfl)))
  have h4 : seg (encode (.ffromdense cv d k v)) 16 4 = 0#4 := (seg_off _ v 4 16 4 (by decide)).trans ((seg_off _ k 9 16 4 (by decide)).trans ((seg_off _ d 20 16 4 (by decide)).trans ((seg_off _ cv 31 16 4 (by decide)).trans rfl)))
  have h5 : seg (encode (.ffromdense cv d k v)) 31 1 = cv := (seg_off _ v 4 31 1 (by decide)).trans ((seg_off _ k 9 31 1 (by decide)).trans ((seg_off _ d 20 31 1 (by decide)).trans (seg_hit _ cv 31 rfl (by decide))))
  have h6 : seg (encode (.ffromdense cv d k v)) 20 4 = d := (seg_off _ v 4 20 4 (by decide)).trans ((seg_off _ k 9 20 4 (by decide)).trans (seg_hit _ d 20 ((seg_off _ cv 31 20 4 (by decide)).trans rfl) (by decide)))
  have h7 : seg (encode (.ffromdense cv d k v)) 9 3 = k := (seg_off _ v 4 9 3 (by decide)).trans (seg_hit _ k 9 ((seg_off _ d 20 9 3 (by decide)).trans ((seg_off _ cv 31 9 3 (by decide)).trans rfl)) (by decide))
  have h8 : seg (encode (.ffromdense cv d k v)) 4 5 = v := seg_hit _ v 4 ((seg_off _ k 9 4 5 (by decide)).trans ((seg_off _ d 20 4 5 (by decide)).trans ((seg_off _ cv 31 4 5 (by decide)).trans rfl))) (by decide)
  exact decode_of (form48 m (by simp [decode48, h1, h2, h3, h4, h5, h6, h7, h8]))
theorem RoundTrip.foccr (cv : BitVec 1) (a : BitVec 4) (x : BitVec 6) : RoundTrip.Statement (.foccr cv a x) := by
  have m : seg (encode (.foccr cv a x)) 24 7 = 72#7 := (seg_off _ x 3 24 7 (by decide)).trans ((seg_off _ a 16 24 7 (by decide)).trans ((seg_off _ cv 31 24 7 (by decide)).trans rfl))
  have h1 : seg (encode (.foccr cv a x)) 0 3 = 3#3 := (seg_off _ x 3 0 3 (by decide)).trans ((seg_off _ a 16 0 3 (by decide)).trans ((seg_off _ cv 31 0 3 (by decide)).trans rfl))
  have h2 : seg (encode (.foccr cv a x)) 9 3 = 0#3 := (seg_off _ x 3 9 3 (by decide)).trans ((seg_off _ a 16 9 3 (by decide)).trans ((seg_off _ cv 31 9 3 (by decide)).trans rfl))
  have h3 : seg (encode (.foccr cv a x)) 12 4 = 0#4 := (seg_off _ x 3 12 4 (by decide)).trans ((seg_off _ a 16 12 4 (by decide)).trans ((seg_off _ cv 31 12 4 (by decide)).trans rfl))
  have h4 : seg (encode (.foccr cv a x)) 20 4 = 0#4 := (seg_off _ x 3 20 4 (by decide)).trans ((seg_off _ a 16 20 4 (by decide)).trans ((seg_off _ cv 31 20 4 (by decide)).trans rfl))
  have h5 : seg (encode (.foccr cv a x)) 31 1 = cv := (seg_off _ x 3 31 1 (by decide)).trans ((seg_off _ a 16 31 1 (by decide)).trans (seg_hit _ cv 31 rfl (by decide)))
  have h6 : seg (encode (.foccr cv a x)) 16 4 = a := (seg_off _ x 3 16 4 (by decide)).trans (seg_hit _ a 16 ((seg_off _ cv 31 16 4 (by decide)).trans rfl) (by decide))
  have h7 : seg (encode (.foccr cv a x)) 3 6 = x := seg_hit _ x 3 ((seg_off _ a 16 3 6 (by decide)).trans ((seg_off _ cv 31 3 6 (by decide)).trans rfl)) (by decide)
  exact decode_of (form48 m (by simp [decode48, h1, h2, h3, h4, h5, h6, h7]))
theorem RoundTrip.foccw (cv : BitVec 1) (d : BitVec 4) (x : BitVec 6) : RoundTrip.Statement (.foccw cv d x) := by
  have m : seg (encode (.foccw cv d x)) 24 7 = 72#7 := (seg_off _ x 3 24 7 (by decide)).trans ((seg_off _ d 20 24 7 (by decide)).trans ((seg_off _ cv 31 24 7 (by decide)).trans rfl))
  have h1 : seg (encode (.foccw cv d x)) 0 3 = 4#3 := (seg_off _ x 3 0 3 (by decide)).trans ((seg_off _ d 20 0 3 (by decide)).trans ((seg_off _ cv 31 0 3 (by decide)).trans rfl))
  have h2 : seg (encode (.foccw cv d x)) 9 3 = 0#3 := (seg_off _ x 3 9 3 (by decide)).trans ((seg_off _ d 20 9 3 (by decide)).trans ((seg_off _ cv 31 9 3 (by decide)).trans rfl))
  have h3 : seg (encode (.foccw cv d x)) 12 4 = 0#4 := (seg_off _ x 3 12 4 (by decide)).trans ((seg_off _ d 20 12 4 (by decide)).trans ((seg_off _ cv 31 12 4 (by decide)).trans rfl))
  have h4 : seg (encode (.foccw cv d x)) 16 4 = 0#4 := (seg_off _ x 3 16 4 (by decide)).trans ((seg_off _ d 20 16 4 (by decide)).trans ((seg_off _ cv 31 16 4 (by decide)).trans rfl))
  have h5 : seg (encode (.foccw cv d x)) 31 1 = cv := (seg_off _ x 3 31 1 (by decide)).trans ((seg_off _ d 20 31 1 (by decide)).trans (seg_hit _ cv 31 rfl (by decide)))
  have h6 : seg (encode (.foccw cv d x)) 20 4 = d := (seg_off _ x 3 20 4 (by decide)).trans (seg_hit _ d 20 ((seg_off _ cv 31 20 4 (by decide)).trans rfl) (by decide))
  have h7 : seg (encode (.foccw cv d x)) 3 6 = x := seg_hit _ x 3 ((seg_off _ d 20 3 6 (by decide)).trans ((seg_off _ cv 31 3 6 (by decide)).trans rfl)) (by decide)
  exact decode_of (form48 m (by simp [decode48, h1, h2, h3, h4, h5, h6, h7]))
theorem RoundTrip.fldstLd (cv : BitVec 1) (v : BitVec 4) (a : BitVec 6) (b : BitVec 6) (sf : BitVec 2) : RoundTrip.Statement (.fldstLd cv v a b sf) := by
  have m : seg (encode (.fldstLd cv v a b sf)) 24 7 = 73#7 := (seg_off _ sf 2 24 7 (by decide)).trans ((seg_off _ b 7 24 7 (by decide)).trans ((seg_off _ a 13 24 7 (by decide)).trans ((seg_off _ v 20 24 7 (by decide)).trans ((seg_off _ cv 31 24 7 (by decide)).trans rfl))))
  have h1 : seg (encode (.fldstLd cv v a b sf)) 0 2 = 0#2 := (seg_off _ sf 2 0 2 (by decide)).trans ((seg_off _ b 7 0 2 (by decide)).trans ((seg_off _ a 13 0 2 (by decide)).trans ((seg_off _ v 20 0 2 (by decide)).trans ((seg_off _ cv 31 0 2 (by decide)).trans rfl))))
  have h2 : seg (encode (.fldstLd cv v a b sf)) 4 3 = 0#3 := (seg_off _ sf 2 4 3 (by decide)).trans ((seg_off _ b 7 4 3 (by decide)).trans ((seg_off _ a 13 4 3 (by decide)).trans ((seg_off _ v 20 4 3 (by decide)).trans ((seg_off _ cv 31 4 3 (by decide)).trans rfl))))
  have h3 : seg (encode (.fldstLd cv v a b sf)) 19 1 = 0#1 := (seg_off _ sf 2 19 1 (by decide)).trans ((seg_off _ b 7 19 1 (by decide)).trans ((seg_off _ a 13 19 1 (by decide)).trans ((seg_off _ v 20 19 1 (by decide)).trans ((seg_off _ cv 31 19 1 (by decide)).trans rfl))))
  have h4 : seg (encode (.fldstLd cv v a b sf)) 31 1 = cv := (seg_off _ sf 2 31 1 (by decide)).trans ((seg_off _ b 7 31 1 (by decide)).trans ((seg_off _ a 13 31 1 (by decide)).trans ((seg_off _ v 20 31 1 (by decide)).trans (seg_hit _ cv 31 rfl (by decide)))))
  have h5 : seg (encode (.fldstLd cv v a b sf)) 20 4 = v := (seg_off _ sf 2 20 4 (by decide)).trans ((seg_off _ b 7 20 4 (by decide)).trans ((seg_off _ a 13 20 4 (by decide)).trans (seg_hit _ v 20 ((seg_off _ cv 31 20 4 (by decide)).trans rfl) (by decide))))
  have h6 : seg (encode (.fldstLd cv v a b sf)) 13 6 = a := (seg_off _ sf 2 13 6 (by decide)).trans ((seg_off _ b 7 13 6 (by decide)).trans (seg_hit _ a 13 ((seg_off _ v 20 13 6 (by decide)).trans ((seg_off _ cv 31 13 6 (by decide)).trans rfl)) (by decide)))
  have h7 : seg (encode (.fldstLd cv v a b sf)) 7 6 = b := (seg_off _ sf 2 7 6 (by decide)).trans (seg_hit _ b 7 ((seg_off _ a 13 7 6 (by decide)).trans ((seg_off _ v 20 7 6 (by decide)).trans ((seg_off _ cv 31 7 6 (by decide)).trans rfl))) (by decide))
  have h8 : seg (encode (.fldstLd cv v a b sf)) 2 2 = sf := seg_hit _ sf 2 ((seg_off _ b 7 2 2 (by decide)).trans ((seg_off _ a 13 2 2 (by decide)).trans ((seg_off _ v 20 2 2 (by decide)).trans ((seg_off _ cv 31 2 2 (by decide)).trans rfl)))) (by decide)
  exact decode_of (form49 m (by simp [decode49, h1, h2, h3, h4, h5, h6, h7, h8]))
theorem RoundTrip.fldstSt (cv : BitVec 1) (v : BitVec 4) (a : BitVec 6) (sf : BitVec 2) : RoundTrip.Statement (.fldstSt cv v a sf) := by
  have m : seg (encode (.fldstSt cv v a sf)) 24 7 = 73#7 := (seg_off _ sf 2 24 7 (by decide)).trans ((seg_off _ a 13 24 7 (by decide)).trans ((seg_off _ v 20 24 7 (by decide)).trans ((seg_off _ cv 31 24 7 (by decide)).trans rfl)))
  have h1 : seg (encode (.fldstSt cv v a sf)) 0 2 = 1#2 := (seg_off _ sf 2 0 2 (by decide)).trans ((seg_off _ a 13 0 2 (by decide)).trans ((seg_off _ v 20 0 2 (by decide)).trans ((seg_off _ cv 31 0 2 (by decide)).trans rfl)))
  have h2 : seg (encode (.fldstSt cv v a sf)) 4 3 = 0#3 := (seg_off _ sf 2 4 3 (by decide)).trans ((seg_off _ a 13 4 3 (by decide)).trans ((seg_off _ v 20 4 3 (by decide)).trans ((seg_off _ cv 31 4 3 (by decide)).trans rfl)))
  have h3 : seg (encode (.fldstSt cv v a sf)) 7 6 = 0#6 := (seg_off _ sf 2 7 6 (by decide)).trans ((seg_off _ a 13 7 6 (by decide)).trans ((seg_off _ v 20 7 6 (by decide)).trans ((seg_off _ cv 31 7 6 (by decide)).trans rfl)))
  have h4 : seg (encode (.fldstSt cv v a sf)) 19 1 = 0#1 := (seg_off _ sf 2 19 1 (by decide)).trans ((seg_off _ a 13 19 1 (by decide)).trans ((seg_off _ v 20 19 1 (by decide)).trans ((seg_off _ cv 31 19 1 (by decide)).trans rfl)))
  have h5 : seg (encode (.fldstSt cv v a sf)) 31 1 = cv := (seg_off _ sf 2 31 1 (by decide)).trans ((seg_off _ a 13 31 1 (by decide)).trans ((seg_off _ v 20 31 1 (by decide)).trans (seg_hit _ cv 31 rfl (by decide))))
  have h6 : seg (encode (.fldstSt cv v a sf)) 20 4 = v := (seg_off _ sf 2 20 4 (by decide)).trans ((seg_off _ a 13 20 4 (by decide)).trans (seg_hit _ v 20 ((seg_off _ cv 31 20 4 (by decide)).trans rfl) (by decide)))
  have h7 : seg (encode (.fldstSt cv v a sf)) 13 6 = a := (seg_off _ sf 2 13 6 (by decide)).trans (seg_hit _ a 13 ((seg_off _ v 20 13 6 (by decide)).trans ((seg_off _ cv 31 13 6 (by decide)).trans rfl)) (by decide))
  have h8 : seg (encode (.fldstSt cv v a sf)) 2 2 = sf := seg_hit _ sf 2 ((seg_off _ a 13 2 2 (by decide)).trans ((seg_off _ v 20 2 2 (by decide)).trans ((seg_off _ cv 31 2 2 (by decide)).trans rfl))) (by decide)
  exact decode_of (form49 m (by simp [decode49, h1, h2, h3, h4, h5, h6, h7, h8]))
theorem RoundTrip.vldx (cv : BitVec 1) (v : BitVec 5) (a : BitVec 6) (b : BitVec 6) (k : BitVec 3) (sf : BitVec 2) (q : BitVec 2) : RoundTrip.Statement (.vldx cv v a b k sf q) := by
  have m : seg (encode (.vldx cv v a b k sf q)) 24 7 = 50#7 := (seg_off _ q 0 24 7 (by decide)).trans ((seg_off _ sf 2 24 7 (by decide)).trans ((seg_off _ k 4 24 7 (by decide)).trans ((seg_off _ b 7 24 7 (by decide)).trans ((seg_off _ a 13 24 7 (by decide)).trans ((seg_off _ v 19 24 7 (by decide)).trans ((seg_off _ cv 31 24 7 (by decide)).trans rfl))))))
  have h1 : seg (encode (.vldx cv v a b k sf q)) 31 1 = cv := (seg_off _ q 0 31 1 (by decide)).trans ((seg_off _ sf 2 31 1 (by decide)).trans ((seg_off _ k 4 31 1 (by decide)).trans ((seg_off _ b 7 31 1 (by decide)).trans ((seg_off _ a 13 31 1 (by decide)).trans ((seg_off _ v 19 31 1 (by decide)).trans (seg_hit _ cv 31 rfl (by decide)))))))
  have h2 : seg (encode (.vldx cv v a b k sf q)) 19 5 = v := (seg_off _ q 0 19 5 (by decide)).trans ((seg_off _ sf 2 19 5 (by decide)).trans ((seg_off _ k 4 19 5 (by decide)).trans ((seg_off _ b 7 19 5 (by decide)).trans ((seg_off _ a 13 19 5 (by decide)).trans (seg_hit _ v 19 ((seg_off _ cv 31 19 5 (by decide)).trans rfl) (by decide))))))
  have h3 : seg (encode (.vldx cv v a b k sf q)) 13 6 = a := (seg_off _ q 0 13 6 (by decide)).trans ((seg_off _ sf 2 13 6 (by decide)).trans ((seg_off _ k 4 13 6 (by decide)).trans ((seg_off _ b 7 13 6 (by decide)).trans (seg_hit _ a 13 ((seg_off _ v 19 13 6 (by decide)).trans ((seg_off _ cv 31 13 6 (by decide)).trans rfl)) (by decide)))))
  have h4 : seg (encode (.vldx cv v a b k sf q)) 7 6 = b := (seg_off _ q 0 7 6 (by decide)).trans ((seg_off _ sf 2 7 6 (by decide)).trans ((seg_off _ k 4 7 6 (by decide)).trans (seg_hit _ b 7 ((seg_off _ a 13 7 6 (by decide)).trans ((seg_off _ v 19 7 6 (by decide)).trans ((seg_off _ cv 31 7 6 (by decide)).trans rfl))) (by decide))))
  have h5 : seg (encode (.vldx cv v a b k sf q)) 4 3 = k := (seg_off _ q 0 4 3 (by decide)).trans ((seg_off _ sf 2 4 3 (by decide)).trans (seg_hit _ k 4 ((seg_off _ b 7 4 3 (by decide)).trans ((seg_off _ a 13 4 3 (by decide)).trans ((seg_off _ v 19 4 3 (by decide)).trans ((seg_off _ cv 31 4 3 (by decide)).trans rfl)))) (by decide)))
  have h6 : seg (encode (.vldx cv v a b k sf q)) 2 2 = sf := (seg_off _ q 0 2 2 (by decide)).trans (seg_hit _ sf 2 ((seg_off _ k 4 2 2 (by decide)).trans ((seg_off _ b 7 2 2 (by decide)).trans ((seg_off _ a 13 2 2 (by decide)).trans ((seg_off _ v 19 2 2 (by decide)).trans ((seg_off _ cv 31 2 2 (by decide)).trans rfl))))) (by decide))
  have h7 : seg (encode (.vldx cv v a b k sf q)) 0 2 = q := seg_hit _ q 0 ((seg_off _ sf 2 0 2 (by decide)).trans ((seg_off _ k 4 0 2 (by decide)).trans ((seg_off _ b 7 0 2 (by decide)).trans ((seg_off _ a 13 0 2 (by decide)).trans ((seg_off _ v 19 0 2 (by decide)).trans ((seg_off _ cv 31 0 2 (by decide)).trans rfl)))))) (by decide)
  exact decode_of (form32 m (by simp [decode32, h1, h2, h3, h4, h5, h6, h7]))
theorem RoundTrip.vstx (cv : BitVec 1) (v : BitVec 5) (a : BitVec 6) (b : BitVec 6) (k : BitVec 3) (sf : BitVec 2) (q : BitVec 2) : RoundTrip.Statement (.vstx cv v a b k sf q) := by
  have m : seg (encode (.vstx cv v a b k sf q)) 24 7 = 51#7 := (seg_off _ q 0 24 7 (by decide)).trans ((seg_off _ sf 2 24 7 (by decide)).trans ((seg_off _ k 4 24 7 (by decide)).trans ((seg_off _ b 7 24 7 (by decide)).trans ((seg_off _ a 13 24 7 (by decide)).trans ((seg_off _ v 19 24 7 (by decide)).trans ((seg_off _ cv 31 24 7 (by decide)).trans rfl))))))
  have h1 : seg (encode (.vstx cv v a b k sf q)) 31 1 = cv := (seg_off _ q 0 31 1 (by decide)).trans ((seg_off _ sf 2 31 1 (by decide)).trans ((seg_off _ k 4 31 1 (by decide)).trans ((seg_off _ b 7 31 1 (by decide)).trans ((seg_off _ a 13 31 1 (by decide)).trans ((seg_off _ v 19 31 1 (by decide)).trans (seg_hit _ cv 31 rfl (by decide)))))))
  have h2 : seg (encode (.vstx cv v a b k sf q)) 19 5 = v := (seg_off _ q 0 19 5 (by decide)).trans ((seg_off _ sf 2 19 5 (by decide)).trans ((seg_off _ k 4 19 5 (by decide)).trans ((seg_off _ b 7 19 5 (by decide)).trans ((seg_off _ a 13 19 5 (by decide)).trans (seg_hit _ v 19 ((seg_off _ cv 31 19 5 (by decide)).trans rfl) (by decide))))))
  have h3 : seg (encode (.vstx cv v a b k sf q)) 13 6 = a := (seg_off _ q 0 13 6 (by decide)).trans ((seg_off _ sf 2 13 6 (by decide)).trans ((seg_off _ k 4 13 6 (by decide)).trans ((seg_off _ b 7 13 6 (by decide)).trans (seg_hit _ a 13 ((seg_off _ v 19 13 6 (by decide)).trans ((seg_off _ cv 31 13 6 (by decide)).trans rfl)) (by decide)))))
  have h4 : seg (encode (.vstx cv v a b k sf q)) 7 6 = b := (seg_off _ q 0 7 6 (by decide)).trans ((seg_off _ sf 2 7 6 (by decide)).trans ((seg_off _ k 4 7 6 (by decide)).trans (seg_hit _ b 7 ((seg_off _ a 13 7 6 (by decide)).trans ((seg_off _ v 19 7 6 (by decide)).trans ((seg_off _ cv 31 7 6 (by decide)).trans rfl))) (by decide))))
  have h5 : seg (encode (.vstx cv v a b k sf q)) 4 3 = k := (seg_off _ q 0 4 3 (by decide)).trans ((seg_off _ sf 2 4 3 (by decide)).trans (seg_hit _ k 4 ((seg_off _ b 7 4 3 (by decide)).trans ((seg_off _ a 13 4 3 (by decide)).trans ((seg_off _ v 19 4 3 (by decide)).trans ((seg_off _ cv 31 4 3 (by decide)).trans rfl)))) (by decide)))
  have h6 : seg (encode (.vstx cv v a b k sf q)) 2 2 = sf := (seg_off _ q 0 2 2 (by decide)).trans (seg_hit _ sf 2 ((seg_off _ k 4 2 2 (by decide)).trans ((seg_off _ b 7 2 2 (by decide)).trans ((seg_off _ a 13 2 2 (by decide)).trans ((seg_off _ v 19 2 2 (by decide)).trans ((seg_off _ cv 31 2 2 (by decide)).trans rfl))))) (by decide))
  have h7 : seg (encode (.vstx cv v a b k sf q)) 0 2 = q := seg_hit _ q 0 ((seg_off _ sf 2 0 2 (by decide)).trans ((seg_off _ k 4 0 2 (by decide)).trans ((seg_off _ b 7 0 2 (by decide)).trans ((seg_off _ a 13 0 2 (by decide)).trans ((seg_off _ v 19 0 2 (by decide)).trans ((seg_off _ cv 31 0 2 (by decide)).trans rfl)))))) (by decide)
  exact decode_of (form33 m (by simp [decode33, h1, h2, h3, h4, h5, h6, h7]))
theorem RoundTrip.vldff (cv : BitVec 1) (v : BitVec 5) (a : BitVec 6) (x : BitVec 6) (k : BitVec 3) (sf : BitVec 2) : RoundTrip.Statement (.vldff cv v a x k sf) := by
  have m : seg (encode (.vldff cv v a x k sf)) 24 7 = 52#7 := (seg_off _ sf 2 24 7 (by decide)).trans ((seg_off _ k 4 24 7 (by decide)).trans ((seg_off _ x 7 24 7 (by decide)).trans ((seg_off _ a 13 24 7 (by decide)).trans ((seg_off _ v 19 24 7 (by decide)).trans ((seg_off _ cv 31 24 7 (by decide)).trans rfl)))))
  have h1 : seg (encode (.vldff cv v a x k sf)) 0 2 = 0#2 := (seg_off _ sf 2 0 2 (by decide)).trans ((seg_off _ k 4 0 2 (by decide)).trans ((seg_off _ x 7 0 2 (by decide)).trans ((seg_off _ a 13 0 2 (by decide)).trans ((seg_off _ v 19 0 2 (by decide)).trans ((seg_off _ cv 31 0 2 (by decide)).trans rfl)))))
  have h2 : seg (encode (.vldff cv v a x k sf)) 31 1 = cv := (seg_off _ sf 2 31 1 (by decide)).trans ((seg_off _ k 4 31 1 (by decide)).trans ((seg_off _ x 7 31 1 (by decide)).trans ((seg_off _ a 13 31 1 (by decide)).trans ((seg_off _ v 19 31 1 (by decide)).trans (seg_hit _ cv 31 rfl (by decide))))))
  have h3 : seg (encode (.vldff cv v a x k sf)) 19 5 = v := (seg_off _ sf 2 19 5 (by decide)).trans ((seg_off _ k 4 19 5 (by decide)).trans ((seg_off _ x 7 19 5 (by decide)).trans ((seg_off _ a 13 19 5 (by decide)).trans (seg_hit _ v 19 ((seg_off _ cv 31 19 5 (by decide)).trans rfl) (by decide)))))
  have h4 : seg (encode (.vldff cv v a x k sf)) 13 6 = a := (seg_off _ sf 2 13 6 (by decide)).trans ((seg_off _ k 4 13 6 (by decide)).trans ((seg_off _ x 7 13 6 (by decide)).trans (seg_hit _ a 13 ((seg_off _ v 19 13 6 (by decide)).trans ((seg_off _ cv 31 13 6 (by decide)).trans rfl)) (by decide))))
  have h5 : seg (encode (.vldff cv v a x k sf)) 7 6 = x := (seg_off _ sf 2 7 6 (by decide)).trans ((seg_off _ k 4 7 6 (by decide)).trans (seg_hit _ x 7 ((seg_off _ a 13 7 6 (by decide)).trans ((seg_off _ v 19 7 6 (by decide)).trans ((seg_off _ cv 31 7 6 (by decide)).trans rfl))) (by decide)))
  have h6 : seg (encode (.vldff cv v a x k sf)) 4 3 = k := (seg_off _ sf 2 4 3 (by decide)).trans (seg_hit _ k 4 ((seg_off _ x 7 4 3 (by decide)).trans ((seg_off _ a 13 4 3 (by decide)).trans ((seg_off _ v 19 4 3 (by decide)).trans ((seg_off _ cv 31 4 3 (by decide)).trans rfl)))) (by decide))
  have h7 : seg (encode (.vldff cv v a x k sf)) 2 2 = sf := seg_hit _ sf 2 ((seg_off _ k 4 2 2 (by decide)).trans ((seg_off _ x 7 2 2 (by decide)).trans ((seg_off _ a 13 2 2 (by decide)).trans ((seg_off _ v 19 2 2 (by decide)).trans ((seg_off _ cv 31 2 2 (by decide)).trans rfl))))) (by decide)
  exact decode_of (form34 m (by simp [decode34, h1, h2, h3, h4, h5, h6, h7]))
theorem RoundTrip.vgathb (cv : BitVec 1) (v : BitVec 5) (a : BitVec 6) (b : BitVec 6) (k : BitVec 3) (q : BitVec 2) : RoundTrip.Statement (.vgathb cv v a b k q) := by
  have m : seg (encode (.vgathb cv v a b k q)) 24 7 = 53#7 := (seg_off _ q 0 24 7 (by decide)).trans ((seg_off _ k 4 24 7 (by decide)).trans ((seg_off _ b 7 24 7 (by decide)).trans ((seg_off _ a 13 24 7 (by decide)).trans ((seg_off _ v 19 24 7 (by decide)).trans ((seg_off _ cv 31 24 7 (by decide)).trans rfl)))))
  have h1 : seg (encode (.vgathb cv v a b k q)) 2 2 = 0#2 := (seg_off _ q 0 2 2 (by decide)).trans ((seg_off _ k 4 2 2 (by decide)).trans ((seg_off _ b 7 2 2 (by decide)).trans ((seg_off _ a 13 2 2 (by decide)).trans ((seg_off _ v 19 2 2 (by decide)).trans ((seg_off _ cv 31 2 2 (by decide)).trans rfl)))))
  have h2 : seg (encode (.vgathb cv v a b k q)) 31 1 = cv := (seg_off _ q 0 31 1 (by decide)).trans ((seg_off _ k 4 31 1 (by decide)).trans ((seg_off _ b 7 31 1 (by decide)).trans ((seg_off _ a 13 31 1 (by decide)).trans ((seg_off _ v 19 31 1 (by decide)).trans (seg_hit _ cv 31 rfl (by decide))))))
  have h3 : seg (encode (.vgathb cv v a b k q)) 19 5 = v := (seg_off _ q 0 19 5 (by decide)).trans ((seg_off _ k 4 19 5 (by decide)).trans ((seg_off _ b 7 19 5 (by decide)).trans ((seg_off _ a 13 19 5 (by decide)).trans (seg_hit _ v 19 ((seg_off _ cv 31 19 5 (by decide)).trans rfl) (by decide)))))
  have h4 : seg (encode (.vgathb cv v a b k q)) 13 6 = a := (seg_off _ q 0 13 6 (by decide)).trans ((seg_off _ k 4 13 6 (by decide)).trans ((seg_off _ b 7 13 6 (by decide)).trans (seg_hit _ a 13 ((seg_off _ v 19 13 6 (by decide)).trans ((seg_off _ cv 31 13 6 (by decide)).trans rfl)) (by decide))))
  have h5 : seg (encode (.vgathb cv v a b k q)) 7 6 = b := (seg_off _ q 0 7 6 (by decide)).trans ((seg_off _ k 4 7 6 (by decide)).trans (seg_hit _ b 7 ((seg_off _ a 13 7 6 (by decide)).trans ((seg_off _ v 19 7 6 (by decide)).trans ((seg_off _ cv 31 7 6 (by decide)).trans rfl))) (by decide)))
  have h6 : seg (encode (.vgathb cv v a b k q)) 4 3 = k := (seg_off _ q 0 4 3 (by decide)).trans (seg_hit _ k 4 ((seg_off _ b 7 4 3 (by decide)).trans ((seg_off _ a 13 4 3 (by decide)).trans ((seg_off _ v 19 4 3 (by decide)).trans ((seg_off _ cv 31 4 3 (by decide)).trans rfl)))) (by decide))
  have h7 : seg (encode (.vgathb cv v a b k q)) 0 2 = q := seg_hit _ q 0 ((seg_off _ k 4 0 2 (by decide)).trans ((seg_off _ b 7 0 2 (by decide)).trans ((seg_off _ a 13 0 2 (by decide)).trans ((seg_off _ v 19 0 2 (by decide)).trans ((seg_off _ cv 31 0 2 (by decide)).trans rfl))))) (by decide)
  exact decode_of (form35 m (by simp [decode35, h1, h2, h3, h4, h5, h6, h7]))
theorem RoundTrip.vscatbSt (cv : BitVec 1) (v : BitVec 5) (a : BitVec 6) (b : BitVec 6) (k : BitVec 3) (q : BitVec 2) : RoundTrip.Statement (.vscatbSt cv v a b k q) := by
  have m : seg (encode (.vscatbSt cv v a b k q)) 24 7 = 54#7 := (seg_off _ q 0 24 7 (by decide)).trans ((seg_off _ k 4 24 7 (by decide)).trans ((seg_off _ b 7 24 7 (by decide)).trans ((seg_off _ a 13 24 7 (by decide)).trans ((seg_off _ v 19 24 7 (by decide)).trans ((seg_off _ cv 31 24 7 (by decide)).trans rfl)))))
  have h1 : seg (encode (.vscatbSt cv v a b k q)) 2 2 = 0#2 := (seg_off _ q 0 2 2 (by decide)).trans ((seg_off _ k 4 2 2 (by decide)).trans ((seg_off _ b 7 2 2 (by decide)).trans ((seg_off _ a 13 2 2 (by decide)).trans ((seg_off _ v 19 2 2 (by decide)).trans ((seg_off _ cv 31 2 2 (by decide)).trans rfl)))))
  have h2 : seg (encode (.vscatbSt cv v a b k q)) 31 1 = cv := (seg_off _ q 0 31 1 (by decide)).trans ((seg_off _ k 4 31 1 (by decide)).trans ((seg_off _ b 7 31 1 (by decide)).trans ((seg_off _ a 13 31 1 (by decide)).trans ((seg_off _ v 19 31 1 (by decide)).trans (seg_hit _ cv 31 rfl (by decide))))))
  have h3 : seg (encode (.vscatbSt cv v a b k q)) 19 5 = v := (seg_off _ q 0 19 5 (by decide)).trans ((seg_off _ k 4 19 5 (by decide)).trans ((seg_off _ b 7 19 5 (by decide)).trans ((seg_off _ a 13 19 5 (by decide)).trans (seg_hit _ v 19 ((seg_off _ cv 31 19 5 (by decide)).trans rfl) (by decide)))))
  have h4 : seg (encode (.vscatbSt cv v a b k q)) 13 6 = a := (seg_off _ q 0 13 6 (by decide)).trans ((seg_off _ k 4 13 6 (by decide)).trans ((seg_off _ b 7 13 6 (by decide)).trans (seg_hit _ a 13 ((seg_off _ v 19 13 6 (by decide)).trans ((seg_off _ cv 31 13 6 (by decide)).trans rfl)) (by decide))))
  have h5 : seg (encode (.vscatbSt cv v a b k q)) 7 6 = b := (seg_off _ q 0 7 6 (by decide)).trans ((seg_off _ k 4 7 6 (by decide)).trans (seg_hit _ b 7 ((seg_off _ a 13 7 6 (by decide)).trans ((seg_off _ v 19 7 6 (by decide)).trans ((seg_off _ cv 31 7 6 (by decide)).trans rfl))) (by decide)))
  have h6 : seg (encode (.vscatbSt cv v a b k q)) 4 3 = k := (seg_off _ q 0 4 3 (by decide)).trans (seg_hit _ k 4 ((seg_off _ b 7 4 3 (by decide)).trans ((seg_off _ a 13 4 3 (by decide)).trans ((seg_off _ v 19 4 3 (by decide)).trans ((seg_off _ cv 31 4 3 (by decide)).trans rfl)))) (by decide))
  have h7 : seg (encode (.vscatbSt cv v a b k q)) 0 2 = q := seg_hit _ q 0 ((seg_off _ k 4 0 2 (by decide)).trans ((seg_off _ b 7 0 2 (by decide)).trans ((seg_off _ a 13 0 2 (by decide)).trans ((seg_off _ v 19 0 2 (by decide)).trans ((seg_off _ cv 31 0 2 (by decide)).trans rfl))))) (by decide)
  exact decode_of (form36 m (by simp [decode36, h1, h2, h3, h4, h5, h6, h7]))
theorem RoundTrip.vscatbAdd (cv : BitVec 1) (v : BitVec 5) (a : BitVec 6) (b : BitVec 6) (k : BitVec 3) (q : BitVec 2) : RoundTrip.Statement (.vscatbAdd cv v a b k q) := by
  have m : seg (encode (.vscatbAdd cv v a b k q)) 24 7 = 54#7 := (seg_off _ q 0 24 7 (by decide)).trans ((seg_off _ k 4 24 7 (by decide)).trans ((seg_off _ b 7 24 7 (by decide)).trans ((seg_off _ a 13 24 7 (by decide)).trans ((seg_off _ v 19 24 7 (by decide)).trans ((seg_off _ cv 31 24 7 (by decide)).trans rfl)))))
  have h1 : seg (encode (.vscatbAdd cv v a b k q)) 2 2 = 1#2 := (seg_off _ q 0 2 2 (by decide)).trans ((seg_off _ k 4 2 2 (by decide)).trans ((seg_off _ b 7 2 2 (by decide)).trans ((seg_off _ a 13 2 2 (by decide)).trans ((seg_off _ v 19 2 2 (by decide)).trans ((seg_off _ cv 31 2 2 (by decide)).trans rfl)))))
  have h2 : seg (encode (.vscatbAdd cv v a b k q)) 31 1 = cv := (seg_off _ q 0 31 1 (by decide)).trans ((seg_off _ k 4 31 1 (by decide)).trans ((seg_off _ b 7 31 1 (by decide)).trans ((seg_off _ a 13 31 1 (by decide)).trans ((seg_off _ v 19 31 1 (by decide)).trans (seg_hit _ cv 31 rfl (by decide))))))
  have h3 : seg (encode (.vscatbAdd cv v a b k q)) 19 5 = v := (seg_off _ q 0 19 5 (by decide)).trans ((seg_off _ k 4 19 5 (by decide)).trans ((seg_off _ b 7 19 5 (by decide)).trans ((seg_off _ a 13 19 5 (by decide)).trans (seg_hit _ v 19 ((seg_off _ cv 31 19 5 (by decide)).trans rfl) (by decide)))))
  have h4 : seg (encode (.vscatbAdd cv v a b k q)) 13 6 = a := (seg_off _ q 0 13 6 (by decide)).trans ((seg_off _ k 4 13 6 (by decide)).trans ((seg_off _ b 7 13 6 (by decide)).trans (seg_hit _ a 13 ((seg_off _ v 19 13 6 (by decide)).trans ((seg_off _ cv 31 13 6 (by decide)).trans rfl)) (by decide))))
  have h5 : seg (encode (.vscatbAdd cv v a b k q)) 7 6 = b := (seg_off _ q 0 7 6 (by decide)).trans ((seg_off _ k 4 7 6 (by decide)).trans (seg_hit _ b 7 ((seg_off _ a 13 7 6 (by decide)).trans ((seg_off _ v 19 7 6 (by decide)).trans ((seg_off _ cv 31 7 6 (by decide)).trans rfl))) (by decide)))
  have h6 : seg (encode (.vscatbAdd cv v a b k q)) 4 3 = k := (seg_off _ q 0 4 3 (by decide)).trans (seg_hit _ k 4 ((seg_off _ b 7 4 3 (by decide)).trans ((seg_off _ a 13 4 3 (by decide)).trans ((seg_off _ v 19 4 3 (by decide)).trans ((seg_off _ cv 31 4 3 (by decide)).trans rfl)))) (by decide))
  have h7 : seg (encode (.vscatbAdd cv v a b k q)) 0 2 = q := seg_hit _ q 0 ((seg_off _ k 4 0 2 (by decide)).trans ((seg_off _ b 7 0 2 (by decide)).trans ((seg_off _ a 13 0 2 (by decide)).trans ((seg_off _ v 19 0 2 (by decide)).trans ((seg_off _ cv 31 0 2 (by decide)).trans rfl))))) (by decide)
  exact decode_of (form36 m (by simp [decode36, h1, h2, h3, h4, h5, h6, h7]))
theorem RoundTrip.vscatbFadd (cv : BitVec 1) (v : BitVec 5) (a : BitVec 6) (b : BitVec 6) (k : BitVec 3) (q : BitVec 2) : RoundTrip.Statement (.vscatbFadd cv v a b k q) := by
  have m : seg (encode (.vscatbFadd cv v a b k q)) 24 7 = 54#7 := (seg_off _ q 0 24 7 (by decide)).trans ((seg_off _ k 4 24 7 (by decide)).trans ((seg_off _ b 7 24 7 (by decide)).trans ((seg_off _ a 13 24 7 (by decide)).trans ((seg_off _ v 19 24 7 (by decide)).trans ((seg_off _ cv 31 24 7 (by decide)).trans rfl)))))
  have h1 : seg (encode (.vscatbFadd cv v a b k q)) 2 2 = 2#2 := (seg_off _ q 0 2 2 (by decide)).trans ((seg_off _ k 4 2 2 (by decide)).trans ((seg_off _ b 7 2 2 (by decide)).trans ((seg_off _ a 13 2 2 (by decide)).trans ((seg_off _ v 19 2 2 (by decide)).trans ((seg_off _ cv 31 2 2 (by decide)).trans rfl)))))
  have h2 : seg (encode (.vscatbFadd cv v a b k q)) 31 1 = cv := (seg_off _ q 0 31 1 (by decide)).trans ((seg_off _ k 4 31 1 (by decide)).trans ((seg_off _ b 7 31 1 (by decide)).trans ((seg_off _ a 13 31 1 (by decide)).trans ((seg_off _ v 19 31 1 (by decide)).trans (seg_hit _ cv 31 rfl (by decide))))))
  have h3 : seg (encode (.vscatbFadd cv v a b k q)) 19 5 = v := (seg_off _ q 0 19 5 (by decide)).trans ((seg_off _ k 4 19 5 (by decide)).trans ((seg_off _ b 7 19 5 (by decide)).trans ((seg_off _ a 13 19 5 (by decide)).trans (seg_hit _ v 19 ((seg_off _ cv 31 19 5 (by decide)).trans rfl) (by decide)))))
  have h4 : seg (encode (.vscatbFadd cv v a b k q)) 13 6 = a := (seg_off _ q 0 13 6 (by decide)).trans ((seg_off _ k 4 13 6 (by decide)).trans ((seg_off _ b 7 13 6 (by decide)).trans (seg_hit _ a 13 ((seg_off _ v 19 13 6 (by decide)).trans ((seg_off _ cv 31 13 6 (by decide)).trans rfl)) (by decide))))
  have h5 : seg (encode (.vscatbFadd cv v a b k q)) 7 6 = b := (seg_off _ q 0 7 6 (by decide)).trans ((seg_off _ k 4 7 6 (by decide)).trans (seg_hit _ b 7 ((seg_off _ a 13 7 6 (by decide)).trans ((seg_off _ v 19 7 6 (by decide)).trans ((seg_off _ cv 31 7 6 (by decide)).trans rfl))) (by decide)))
  have h6 : seg (encode (.vscatbFadd cv v a b k q)) 4 3 = k := (seg_off _ q 0 4 3 (by decide)).trans (seg_hit _ k 4 ((seg_off _ b 7 4 3 (by decide)).trans ((seg_off _ a 13 4 3 (by decide)).trans ((seg_off _ v 19 4 3 (by decide)).trans ((seg_off _ cv 31 4 3 (by decide)).trans rfl)))) (by decide))
  have h7 : seg (encode (.vscatbFadd cv v a b k q)) 0 2 = q := seg_hit _ q 0 ((seg_off _ k 4 0 2 (by decide)).trans ((seg_off _ b 7 0 2 (by decide)).trans ((seg_off _ a 13 0 2 (by decide)).trans ((seg_off _ v 19 0 2 (by decide)).trans ((seg_off _ cv 31 0 2 (by decide)).trans rfl))))) (by decide)
  exact decode_of (form36 m (by simp [decode36, h1, h2, h3, h4, h5, h6, h7]))
theorem RoundTrip.vscatbMax (cv : BitVec 1) (v : BitVec 5) (a : BitVec 6) (b : BitVec 6) (k : BitVec 3) (q : BitVec 2) : RoundTrip.Statement (.vscatbMax cv v a b k q) := by
  have m : seg (encode (.vscatbMax cv v a b k q)) 24 7 = 54#7 := (seg_off _ q 0 24 7 (by decide)).trans ((seg_off _ k 4 24 7 (by decide)).trans ((seg_off _ b 7 24 7 (by decide)).trans ((seg_off _ a 13 24 7 (by decide)).trans ((seg_off _ v 19 24 7 (by decide)).trans ((seg_off _ cv 31 24 7 (by decide)).trans rfl)))))
  have h1 : seg (encode (.vscatbMax cv v a b k q)) 2 2 = 3#2 := (seg_off _ q 0 2 2 (by decide)).trans ((seg_off _ k 4 2 2 (by decide)).trans ((seg_off _ b 7 2 2 (by decide)).trans ((seg_off _ a 13 2 2 (by decide)).trans ((seg_off _ v 19 2 2 (by decide)).trans ((seg_off _ cv 31 2 2 (by decide)).trans rfl)))))
  have h2 : seg (encode (.vscatbMax cv v a b k q)) 31 1 = cv := (seg_off _ q 0 31 1 (by decide)).trans ((seg_off _ k 4 31 1 (by decide)).trans ((seg_off _ b 7 31 1 (by decide)).trans ((seg_off _ a 13 31 1 (by decide)).trans ((seg_off _ v 19 31 1 (by decide)).trans (seg_hit _ cv 31 rfl (by decide))))))
  have h3 : seg (encode (.vscatbMax cv v a b k q)) 19 5 = v := (seg_off _ q 0 19 5 (by decide)).trans ((seg_off _ k 4 19 5 (by decide)).trans ((seg_off _ b 7 19 5 (by decide)).trans ((seg_off _ a 13 19 5 (by decide)).trans (seg_hit _ v 19 ((seg_off _ cv 31 19 5 (by decide)).trans rfl) (by decide)))))
  have h4 : seg (encode (.vscatbMax cv v a b k q)) 13 6 = a := (seg_off _ q 0 13 6 (by decide)).trans ((seg_off _ k 4 13 6 (by decide)).trans ((seg_off _ b 7 13 6 (by decide)).trans (seg_hit _ a 13 ((seg_off _ v 19 13 6 (by decide)).trans ((seg_off _ cv 31 13 6 (by decide)).trans rfl)) (by decide))))
  have h5 : seg (encode (.vscatbMax cv v a b k q)) 7 6 = b := (seg_off _ q 0 7 6 (by decide)).trans ((seg_off _ k 4 7 6 (by decide)).trans (seg_hit _ b 7 ((seg_off _ a 13 7 6 (by decide)).trans ((seg_off _ v 19 7 6 (by decide)).trans ((seg_off _ cv 31 7 6 (by decide)).trans rfl))) (by decide)))
  have h6 : seg (encode (.vscatbMax cv v a b k q)) 4 3 = k := (seg_off _ q 0 4 3 (by decide)).trans (seg_hit _ k 4 ((seg_off _ b 7 4 3 (by decide)).trans ((seg_off _ a 13 4 3 (by decide)).trans ((seg_off _ v 19 4 3 (by decide)).trans ((seg_off _ cv 31 4 3 (by decide)).trans rfl)))) (by decide))
  have h7 : seg (encode (.vscatbMax cv v a b k q)) 0 2 = q := seg_hit _ q 0 ((seg_off _ k 4 0 2 (by decide)).trans ((seg_off _ b 7 0 2 (by decide)).trans ((seg_off _ a 13 0 2 (by decide)).trans ((seg_off _ v 19 0 2 (by decide)).trans ((seg_off _ cv 31 0 2 (by decide)).trans rfl))))) (by decide)
  exact decode_of (form36 m (by simp [decode36, h1, h2, h3, h4, h5, h6, h7]))
theorem RoundTrip.vlds (cv : BitVec 1) (v : BitVec 5) (p : BitVec 3) (k : BitVec 3) : RoundTrip.Statement (.vlds cv v p k) := by
  have m : seg (encode (.vlds cv v p k)) 24 7 = 55#7 := (seg_off _ k 4 24 7 (by decide)).trans ((seg_off _ p 13 24 7 (by decide)).trans ((seg_off _ v 19 24 7 (by decide)).trans ((seg_off _ cv 31 24 7 (by decide)).trans rfl)))
  have h1 : seg (encode (.vlds cv v p k)) 0 4 = 0#4 := (seg_off _ k 4 0 4 (by decide)).trans ((seg_off _ p 13 0 4 (by decide)).trans ((seg_off _ v 19 0 4 (by decide)).trans ((seg_off _ cv 31 0 4 (by decide)).trans rfl)))
  have h2 : seg (encode (.vlds cv v p k)) 7 6 = 0#6 := (seg_off _ k 4 7 6 (by decide)).trans ((seg_off _ p 13 7 6 (by decide)).trans ((seg_off _ v 19 7 6 (by decide)).trans ((seg_off _ cv 31 7 6 (by decide)).trans rfl)))
  have h3 : seg (encode (.vlds cv v p k)) 16 3 = 0#3 := (seg_off _ k 4 16 3 (by decide)).trans ((seg_off _ p 13 16 3 (by decide)).trans ((seg_off _ v 19 16 3 (by decide)).trans ((seg_off _ cv 31 16 3 (by decide)).trans rfl)))
  have h4 : seg (encode (.vlds cv v p k)) 31 1 = cv := (seg_off _ k 4 31 1 (by decide)).trans ((seg_off _ p 13 31 1 (by decide)).trans ((seg_off _ v 19 31 1 (by decide)).trans (seg_hit _ cv 31 rfl (by decide))))
  have h5 : seg (encode (.vlds cv v p k)) 19 5 = v := (seg_off _ k 4 19 5 (by decide)).trans ((seg_off _ p 13 19 5 (by decide)).trans (seg_hit _ v 19 ((seg_off _ cv 31 19 5 (by decide)).trans rfl) (by decide)))
  have h6 : seg (encode (.vlds cv v p k)) 13 3 = p := (seg_off _ k 4 13 3 (by decide)).trans (seg_hit _ p 13 ((seg_off _ v 19 13 3 (by decide)).trans ((seg_off _ cv 31 13 3 (by decide)).trans rfl)) (by decide))
  have h7 : seg (encode (.vlds cv v p k)) 4 3 = k := seg_hit _ k 4 ((seg_off _ p 13 4 3 (by decide)).trans ((seg_off _ v 19 4 3 (by decide)).trans ((seg_off _ cv 31 4 3 (by decide)).trans rfl))) (by decide)
  exact decode_of (form37 m (by simp [decode37, h1, h2, h3, h4, h5, h6, h7]))
theorem RoundTrip.vspadLd (cv : BitVec 1) (v : BitVec 5) (a : BitVec 6) (x : BitVec 6) (k : BitVec 3) : RoundTrip.Statement (.vspadLd cv v a x k) := by
  have m : seg (encode (.vspadLd cv v a x k)) 24 7 = 56#7 := (seg_off _ k 4 24 7 (by decide)).trans ((seg_off _ x 7 24 7 (by decide)).trans ((seg_off _ a 13 24 7 (by decide)).trans ((seg_off _ v 19 24 7 (by decide)).trans ((seg_off _ cv 31 24 7 (by decide)).trans rfl))))
  have h1 : seg (encode (.vspadLd cv v a x k)) 0 4 = 0#4 := (seg_off _ k 4 0 4 (by decide)).trans ((seg_off _ x 7 0 4 (by decide)).trans ((seg_off _ a 13 0 4 (by decide)).trans ((seg_off _ v 19 0 4 (by decide)).trans ((seg_off _ cv 31 0 4 (by decide)).trans rfl))))
  have h2 : seg (encode (.vspadLd cv v a x k)) 31 1 = cv := (seg_off _ k 4 31 1 (by decide)).trans ((seg_off _ x 7 31 1 (by decide)).trans ((seg_off _ a 13 31 1 (by decide)).trans ((seg_off _ v 19 31 1 (by decide)).trans (seg_hit _ cv 31 rfl (by decide)))))
  have h3 : seg (encode (.vspadLd cv v a x k)) 19 5 = v := (seg_off _ k 4 19 5 (by decide)).trans ((seg_off _ x 7 19 5 (by decide)).trans ((seg_off _ a 13 19 5 (by decide)).trans (seg_hit _ v 19 ((seg_off _ cv 31 19 5 (by decide)).trans rfl) (by decide))))
  have h4 : seg (encode (.vspadLd cv v a x k)) 13 6 = a := (seg_off _ k 4 13 6 (by decide)).trans ((seg_off _ x 7 13 6 (by decide)).trans (seg_hit _ a 13 ((seg_off _ v 19 13 6 (by decide)).trans ((seg_off _ cv 31 13 6 (by decide)).trans rfl)) (by decide)))
  have h5 : seg (encode (.vspadLd cv v a x k)) 7 6 = x := (seg_off _ k 4 7 6 (by decide)).trans (seg_hit _ x 7 ((seg_off _ a 13 7 6 (by decide)).trans ((seg_off _ v 19 7 6 (by decide)).trans ((seg_off _ cv 31 7 6 (by decide)).trans rfl))) (by decide))
  have h6 : seg (encode (.vspadLd cv v a x k)) 4 3 = k := seg_hit _ k 4 ((seg_off _ x 7 4 3 (by decide)).trans ((seg_off _ a 13 4 3 (by decide)).trans ((seg_off _ v 19 4 3 (by decide)).trans ((seg_off _ cv 31 4 3 (by decide)).trans rfl)))) (by decide)
  exact decode_of (form38 m (by simp [decode38, h1, h2, h3, h4, h5, h6]))
theorem RoundTrip.vspadSt (cv : BitVec 1) (v : BitVec 5) (a : BitVec 6) (x : BitVec 6) (k : BitVec 3) : RoundTrip.Statement (.vspadSt cv v a x k) := by
  have m : seg (encode (.vspadSt cv v a x k)) 24 7 = 56#7 := (seg_off _ k 4 24 7 (by decide)).trans ((seg_off _ x 7 24 7 (by decide)).trans ((seg_off _ a 13 24 7 (by decide)).trans ((seg_off _ v 19 24 7 (by decide)).trans ((seg_off _ cv 31 24 7 (by decide)).trans rfl))))
  have h1 : seg (encode (.vspadSt cv v a x k)) 0 4 = 1#4 := (seg_off _ k 4 0 4 (by decide)).trans ((seg_off _ x 7 0 4 (by decide)).trans ((seg_off _ a 13 0 4 (by decide)).trans ((seg_off _ v 19 0 4 (by decide)).trans ((seg_off _ cv 31 0 4 (by decide)).trans rfl))))
  have h2 : seg (encode (.vspadSt cv v a x k)) 31 1 = cv := (seg_off _ k 4 31 1 (by decide)).trans ((seg_off _ x 7 31 1 (by decide)).trans ((seg_off _ a 13 31 1 (by decide)).trans ((seg_off _ v 19 31 1 (by decide)).trans (seg_hit _ cv 31 rfl (by decide)))))
  have h3 : seg (encode (.vspadSt cv v a x k)) 19 5 = v := (seg_off _ k 4 19 5 (by decide)).trans ((seg_off _ x 7 19 5 (by decide)).trans ((seg_off _ a 13 19 5 (by decide)).trans (seg_hit _ v 19 ((seg_off _ cv 31 19 5 (by decide)).trans rfl) (by decide))))
  have h4 : seg (encode (.vspadSt cv v a x k)) 13 6 = a := (seg_off _ k 4 13 6 (by decide)).trans ((seg_off _ x 7 13 6 (by decide)).trans (seg_hit _ a 13 ((seg_off _ v 19 13 6 (by decide)).trans ((seg_off _ cv 31 13 6 (by decide)).trans rfl)) (by decide)))
  have h5 : seg (encode (.vspadSt cv v a x k)) 7 6 = x := (seg_off _ k 4 7 6 (by decide)).trans (seg_hit _ x 7 ((seg_off _ a 13 7 6 (by decide)).trans ((seg_off _ v 19 7 6 (by decide)).trans ((seg_off _ cv 31 7 6 (by decide)).trans rfl))) (by decide))
  have h6 : seg (encode (.vspadSt cv v a x k)) 4 3 = k := seg_hit _ k 4 ((seg_off _ x 7 4 3 (by decide)).trans ((seg_off _ a 13 4 3 (by decide)).trans ((seg_off _ v 19 4 3 (by decide)).trans ((seg_off _ cv 31 4 3 (by decide)).trans rfl)))) (by decide)
  exact decode_of (form38 m (by simp [decode38, h1, h2, h3, h4, h5, h6]))
theorem RoundTrip.vamoAdd (cv : BitVec 1) (v : BitVec 4) (a : BitVec 6) (sf : BitVec 3) (r : BitVec 1) (q : BitVec 2) (k : BitVec 3) : RoundTrip.Statement (.vamoAdd cv v a sf r q k) := by
  have m : seg (encode (.vamoAdd cv v a sf r q k)) 24 7 = 57#7 := (seg_off _ k 4 24 7 (by decide)).trans ((seg_off _ q 7 24 7 (by decide)).trans ((seg_off _ r 9 24 7 (by decide)).trans ((seg_off _ sf 10 24 7 (by decide)).trans ((seg_off _ a 13 24 7 (by decide)).trans ((seg_off _ v 20 24 7 (by decide)).trans ((seg_off _ cv 31 24 7 (by decide)).trans rfl))))))
  have h1 : seg (encode (.vamoAdd cv v a sf r q k)) 0 4 = 0#4 := (seg_off _ k 4 0 4 (by decide)).trans ((seg_off _ q 7 0 4 (by decide)).trans ((seg_off _ r 9 0 4 (by decide)).trans ((seg_off _ sf 10 0 4 (by decide)).trans ((seg_off _ a 13 0 4 (by decide)).trans ((seg_off _ v 20 0 4 (by decide)).trans ((seg_off _ cv 31 0 4 (by decide)).trans rfl))))))
  have h2 : seg (encode (.vamoAdd cv v a sf r q k)) 19 1 = 0#1 := (seg_off _ k 4 19 1 (by decide)).trans ((seg_off _ q 7 19 1 (by decide)).trans ((seg_off _ r 9 19 1 (by decide)).trans ((seg_off _ sf 10 19 1 (by decide)).trans ((seg_off _ a 13 19 1 (by decide)).trans ((seg_off _ v 20 19 1 (by decide)).trans ((seg_off _ cv 31 19 1 (by decide)).trans rfl))))))
  have h3 : seg (encode (.vamoAdd cv v a sf r q k)) 31 1 = cv := (seg_off _ k 4 31 1 (by decide)).trans ((seg_off _ q 7 31 1 (by decide)).trans ((seg_off _ r 9 31 1 (by decide)).trans ((seg_off _ sf 10 31 1 (by decide)).trans ((seg_off _ a 13 31 1 (by decide)).trans ((seg_off _ v 20 31 1 (by decide)).trans (seg_hit _ cv 31 rfl (by decide)))))))
  have h4 : seg (encode (.vamoAdd cv v a sf r q k)) 20 4 = v := (seg_off _ k 4 20 4 (by decide)).trans ((seg_off _ q 7 20 4 (by decide)).trans ((seg_off _ r 9 20 4 (by decide)).trans ((seg_off _ sf 10 20 4 (by decide)).trans ((seg_off _ a 13 20 4 (by decide)).trans (seg_hit _ v 20 ((seg_off _ cv 31 20 4 (by decide)).trans rfl) (by decide))))))
  have h5 : seg (encode (.vamoAdd cv v a sf r q k)) 13 6 = a := (seg_off _ k 4 13 6 (by decide)).trans ((seg_off _ q 7 13 6 (by decide)).trans ((seg_off _ r 9 13 6 (by decide)).trans ((seg_off _ sf 10 13 6 (by decide)).trans (seg_hit _ a 13 ((seg_off _ v 20 13 6 (by decide)).trans ((seg_off _ cv 31 13 6 (by decide)).trans rfl)) (by decide)))))
  have h6 : seg (encode (.vamoAdd cv v a sf r q k)) 10 3 = sf := (seg_off _ k 4 10 3 (by decide)).trans ((seg_off _ q 7 10 3 (by decide)).trans ((seg_off _ r 9 10 3 (by decide)).trans (seg_hit _ sf 10 ((seg_off _ a 13 10 3 (by decide)).trans ((seg_off _ v 20 10 3 (by decide)).trans ((seg_off _ cv 31 10 3 (by decide)).trans rfl))) (by decide))))
  have h7 : seg (encode (.vamoAdd cv v a sf r q k)) 9 1 = r := (seg_off _ k 4 9 1 (by decide)).trans ((seg_off _ q 7 9 1 (by decide)).trans (seg_hit _ r 9 ((seg_off _ sf 10 9 1 (by decide)).trans ((seg_off _ a 13 9 1 (by decide)).trans ((seg_off _ v 20 9 1 (by decide)).trans ((seg_off _ cv 31 9 1 (by decide)).trans rfl)))) (by decide)))
  have h8 : seg (encode (.vamoAdd cv v a sf r q k)) 7 2 = q := (seg_off _ k 4 7 2 (by decide)).trans (seg_hit _ q 7 ((seg_off _ r 9 7 2 (by decide)).trans ((seg_off _ sf 10 7 2 (by decide)).trans ((seg_off _ a 13 7 2 (by decide)).trans ((seg_off _ v 20 7 2 (by decide)).trans ((seg_off _ cv 31 7 2 (by decide)).trans rfl))))) (by decide))
  have h9 : seg (encode (.vamoAdd cv v a sf r q k)) 4 3 = k := seg_hit _ k 4 ((seg_off _ q 7 4 3 (by decide)).trans ((seg_off _ r 9 4 3 (by decide)).trans ((seg_off _ sf 10 4 3 (by decide)).trans ((seg_off _ a 13 4 3 (by decide)).trans ((seg_off _ v 20 4 3 (by decide)).trans ((seg_off _ cv 31 4 3 (by decide)).trans rfl)))))) (by decide)
  exact decode_of (form39 m (by simp [decode39, h1, h2, h3, h4, h5, h6, h7, h8, h9]))
theorem RoundTrip.vamoAnd (cv : BitVec 1) (v : BitVec 4) (a : BitVec 6) (sf : BitVec 3) (r : BitVec 1) (q : BitVec 2) (k : BitVec 3) : RoundTrip.Statement (.vamoAnd cv v a sf r q k) := by
  have m : seg (encode (.vamoAnd cv v a sf r q k)) 24 7 = 57#7 := (seg_off _ k 4 24 7 (by decide)).trans ((seg_off _ q 7 24 7 (by decide)).trans ((seg_off _ r 9 24 7 (by decide)).trans ((seg_off _ sf 10 24 7 (by decide)).trans ((seg_off _ a 13 24 7 (by decide)).trans ((seg_off _ v 20 24 7 (by decide)).trans ((seg_off _ cv 31 24 7 (by decide)).trans rfl))))))
  have h1 : seg (encode (.vamoAnd cv v a sf r q k)) 0 4 = 1#4 := (seg_off _ k 4 0 4 (by decide)).trans ((seg_off _ q 7 0 4 (by decide)).trans ((seg_off _ r 9 0 4 (by decide)).trans ((seg_off _ sf 10 0 4 (by decide)).trans ((seg_off _ a 13 0 4 (by decide)).trans ((seg_off _ v 20 0 4 (by decide)).trans ((seg_off _ cv 31 0 4 (by decide)).trans rfl))))))
  have h2 : seg (encode (.vamoAnd cv v a sf r q k)) 19 1 = 0#1 := (seg_off _ k 4 19 1 (by decide)).trans ((seg_off _ q 7 19 1 (by decide)).trans ((seg_off _ r 9 19 1 (by decide)).trans ((seg_off _ sf 10 19 1 (by decide)).trans ((seg_off _ a 13 19 1 (by decide)).trans ((seg_off _ v 20 19 1 (by decide)).trans ((seg_off _ cv 31 19 1 (by decide)).trans rfl))))))
  have h3 : seg (encode (.vamoAnd cv v a sf r q k)) 31 1 = cv := (seg_off _ k 4 31 1 (by decide)).trans ((seg_off _ q 7 31 1 (by decide)).trans ((seg_off _ r 9 31 1 (by decide)).trans ((seg_off _ sf 10 31 1 (by decide)).trans ((seg_off _ a 13 31 1 (by decide)).trans ((seg_off _ v 20 31 1 (by decide)).trans (seg_hit _ cv 31 rfl (by decide)))))))
  have h4 : seg (encode (.vamoAnd cv v a sf r q k)) 20 4 = v := (seg_off _ k 4 20 4 (by decide)).trans ((seg_off _ q 7 20 4 (by decide)).trans ((seg_off _ r 9 20 4 (by decide)).trans ((seg_off _ sf 10 20 4 (by decide)).trans ((seg_off _ a 13 20 4 (by decide)).trans (seg_hit _ v 20 ((seg_off _ cv 31 20 4 (by decide)).trans rfl) (by decide))))))
  have h5 : seg (encode (.vamoAnd cv v a sf r q k)) 13 6 = a := (seg_off _ k 4 13 6 (by decide)).trans ((seg_off _ q 7 13 6 (by decide)).trans ((seg_off _ r 9 13 6 (by decide)).trans ((seg_off _ sf 10 13 6 (by decide)).trans (seg_hit _ a 13 ((seg_off _ v 20 13 6 (by decide)).trans ((seg_off _ cv 31 13 6 (by decide)).trans rfl)) (by decide)))))
  have h6 : seg (encode (.vamoAnd cv v a sf r q k)) 10 3 = sf := (seg_off _ k 4 10 3 (by decide)).trans ((seg_off _ q 7 10 3 (by decide)).trans ((seg_off _ r 9 10 3 (by decide)).trans (seg_hit _ sf 10 ((seg_off _ a 13 10 3 (by decide)).trans ((seg_off _ v 20 10 3 (by decide)).trans ((seg_off _ cv 31 10 3 (by decide)).trans rfl))) (by decide))))
  have h7 : seg (encode (.vamoAnd cv v a sf r q k)) 9 1 = r := (seg_off _ k 4 9 1 (by decide)).trans ((seg_off _ q 7 9 1 (by decide)).trans (seg_hit _ r 9 ((seg_off _ sf 10 9 1 (by decide)).trans ((seg_off _ a 13 9 1 (by decide)).trans ((seg_off _ v 20 9 1 (by decide)).trans ((seg_off _ cv 31 9 1 (by decide)).trans rfl)))) (by decide)))
  have h8 : seg (encode (.vamoAnd cv v a sf r q k)) 7 2 = q := (seg_off _ k 4 7 2 (by decide)).trans (seg_hit _ q 7 ((seg_off _ r 9 7 2 (by decide)).trans ((seg_off _ sf 10 7 2 (by decide)).trans ((seg_off _ a 13 7 2 (by decide)).trans ((seg_off _ v 20 7 2 (by decide)).trans ((seg_off _ cv 31 7 2 (by decide)).trans rfl))))) (by decide))
  have h9 : seg (encode (.vamoAnd cv v a sf r q k)) 4 3 = k := seg_hit _ k 4 ((seg_off _ q 7 4 3 (by decide)).trans ((seg_off _ r 9 4 3 (by decide)).trans ((seg_off _ sf 10 4 3 (by decide)).trans ((seg_off _ a 13 4 3 (by decide)).trans ((seg_off _ v 20 4 3 (by decide)).trans ((seg_off _ cv 31 4 3 (by decide)).trans rfl)))))) (by decide)
  exact decode_of (form39 m (by simp [decode39, h1, h2, h3, h4, h5, h6, h7, h8, h9]))
theorem RoundTrip.vamoOr (cv : BitVec 1) (v : BitVec 4) (a : BitVec 6) (sf : BitVec 3) (r : BitVec 1) (q : BitVec 2) (k : BitVec 3) : RoundTrip.Statement (.vamoOr cv v a sf r q k) := by
  have m : seg (encode (.vamoOr cv v a sf r q k)) 24 7 = 57#7 := (seg_off _ k 4 24 7 (by decide)).trans ((seg_off _ q 7 24 7 (by decide)).trans ((seg_off _ r 9 24 7 (by decide)).trans ((seg_off _ sf 10 24 7 (by decide)).trans ((seg_off _ a 13 24 7 (by decide)).trans ((seg_off _ v 20 24 7 (by decide)).trans ((seg_off _ cv 31 24 7 (by decide)).trans rfl))))))
  have h1 : seg (encode (.vamoOr cv v a sf r q k)) 0 4 = 2#4 := (seg_off _ k 4 0 4 (by decide)).trans ((seg_off _ q 7 0 4 (by decide)).trans ((seg_off _ r 9 0 4 (by decide)).trans ((seg_off _ sf 10 0 4 (by decide)).trans ((seg_off _ a 13 0 4 (by decide)).trans ((seg_off _ v 20 0 4 (by decide)).trans ((seg_off _ cv 31 0 4 (by decide)).trans rfl))))))
  have h2 : seg (encode (.vamoOr cv v a sf r q k)) 19 1 = 0#1 := (seg_off _ k 4 19 1 (by decide)).trans ((seg_off _ q 7 19 1 (by decide)).trans ((seg_off _ r 9 19 1 (by decide)).trans ((seg_off _ sf 10 19 1 (by decide)).trans ((seg_off _ a 13 19 1 (by decide)).trans ((seg_off _ v 20 19 1 (by decide)).trans ((seg_off _ cv 31 19 1 (by decide)).trans rfl))))))
  have h3 : seg (encode (.vamoOr cv v a sf r q k)) 31 1 = cv := (seg_off _ k 4 31 1 (by decide)).trans ((seg_off _ q 7 31 1 (by decide)).trans ((seg_off _ r 9 31 1 (by decide)).trans ((seg_off _ sf 10 31 1 (by decide)).trans ((seg_off _ a 13 31 1 (by decide)).trans ((seg_off _ v 20 31 1 (by decide)).trans (seg_hit _ cv 31 rfl (by decide)))))))
  have h4 : seg (encode (.vamoOr cv v a sf r q k)) 20 4 = v := (seg_off _ k 4 20 4 (by decide)).trans ((seg_off _ q 7 20 4 (by decide)).trans ((seg_off _ r 9 20 4 (by decide)).trans ((seg_off _ sf 10 20 4 (by decide)).trans ((seg_off _ a 13 20 4 (by decide)).trans (seg_hit _ v 20 ((seg_off _ cv 31 20 4 (by decide)).trans rfl) (by decide))))))
  have h5 : seg (encode (.vamoOr cv v a sf r q k)) 13 6 = a := (seg_off _ k 4 13 6 (by decide)).trans ((seg_off _ q 7 13 6 (by decide)).trans ((seg_off _ r 9 13 6 (by decide)).trans ((seg_off _ sf 10 13 6 (by decide)).trans (seg_hit _ a 13 ((seg_off _ v 20 13 6 (by decide)).trans ((seg_off _ cv 31 13 6 (by decide)).trans rfl)) (by decide)))))
  have h6 : seg (encode (.vamoOr cv v a sf r q k)) 10 3 = sf := (seg_off _ k 4 10 3 (by decide)).trans ((seg_off _ q 7 10 3 (by decide)).trans ((seg_off _ r 9 10 3 (by decide)).trans (seg_hit _ sf 10 ((seg_off _ a 13 10 3 (by decide)).trans ((seg_off _ v 20 10 3 (by decide)).trans ((seg_off _ cv 31 10 3 (by decide)).trans rfl))) (by decide))))
  have h7 : seg (encode (.vamoOr cv v a sf r q k)) 9 1 = r := (seg_off _ k 4 9 1 (by decide)).trans ((seg_off _ q 7 9 1 (by decide)).trans (seg_hit _ r 9 ((seg_off _ sf 10 9 1 (by decide)).trans ((seg_off _ a 13 9 1 (by decide)).trans ((seg_off _ v 20 9 1 (by decide)).trans ((seg_off _ cv 31 9 1 (by decide)).trans rfl)))) (by decide)))
  have h8 : seg (encode (.vamoOr cv v a sf r q k)) 7 2 = q := (seg_off _ k 4 7 2 (by decide)).trans (seg_hit _ q 7 ((seg_off _ r 9 7 2 (by decide)).trans ((seg_off _ sf 10 7 2 (by decide)).trans ((seg_off _ a 13 7 2 (by decide)).trans ((seg_off _ v 20 7 2 (by decide)).trans ((seg_off _ cv 31 7 2 (by decide)).trans rfl))))) (by decide))
  have h9 : seg (encode (.vamoOr cv v a sf r q k)) 4 3 = k := seg_hit _ k 4 ((seg_off _ q 7 4 3 (by decide)).trans ((seg_off _ r 9 4 3 (by decide)).trans ((seg_off _ sf 10 4 3 (by decide)).trans ((seg_off _ a 13 4 3 (by decide)).trans ((seg_off _ v 20 4 3 (by decide)).trans ((seg_off _ cv 31 4 3 (by decide)).trans rfl)))))) (by decide)
  exact decode_of (form39 m (by simp [decode39, h1, h2, h3, h4, h5, h6, h7, h8, h9]))
theorem RoundTrip.vamoXor (cv : BitVec 1) (v : BitVec 4) (a : BitVec 6) (sf : BitVec 3) (r : BitVec 1) (q : BitVec 2) (k : BitVec 3) : RoundTrip.Statement (.vamoXor cv v a sf r q k) := by
  have m : seg (encode (.vamoXor cv v a sf r q k)) 24 7 = 57#7 := (seg_off _ k 4 24 7 (by decide)).trans ((seg_off _ q 7 24 7 (by decide)).trans ((seg_off _ r 9 24 7 (by decide)).trans ((seg_off _ sf 10 24 7 (by decide)).trans ((seg_off _ a 13 24 7 (by decide)).trans ((seg_off _ v 20 24 7 (by decide)).trans ((seg_off _ cv 31 24 7 (by decide)).trans rfl))))))
  have h1 : seg (encode (.vamoXor cv v a sf r q k)) 0 4 = 3#4 := (seg_off _ k 4 0 4 (by decide)).trans ((seg_off _ q 7 0 4 (by decide)).trans ((seg_off _ r 9 0 4 (by decide)).trans ((seg_off _ sf 10 0 4 (by decide)).trans ((seg_off _ a 13 0 4 (by decide)).trans ((seg_off _ v 20 0 4 (by decide)).trans ((seg_off _ cv 31 0 4 (by decide)).trans rfl))))))
  have h2 : seg (encode (.vamoXor cv v a sf r q k)) 19 1 = 0#1 := (seg_off _ k 4 19 1 (by decide)).trans ((seg_off _ q 7 19 1 (by decide)).trans ((seg_off _ r 9 19 1 (by decide)).trans ((seg_off _ sf 10 19 1 (by decide)).trans ((seg_off _ a 13 19 1 (by decide)).trans ((seg_off _ v 20 19 1 (by decide)).trans ((seg_off _ cv 31 19 1 (by decide)).trans rfl))))))
  have h3 : seg (encode (.vamoXor cv v a sf r q k)) 31 1 = cv := (seg_off _ k 4 31 1 (by decide)).trans ((seg_off _ q 7 31 1 (by decide)).trans ((seg_off _ r 9 31 1 (by decide)).trans ((seg_off _ sf 10 31 1 (by decide)).trans ((seg_off _ a 13 31 1 (by decide)).trans ((seg_off _ v 20 31 1 (by decide)).trans (seg_hit _ cv 31 rfl (by decide)))))))
  have h4 : seg (encode (.vamoXor cv v a sf r q k)) 20 4 = v := (seg_off _ k 4 20 4 (by decide)).trans ((seg_off _ q 7 20 4 (by decide)).trans ((seg_off _ r 9 20 4 (by decide)).trans ((seg_off _ sf 10 20 4 (by decide)).trans ((seg_off _ a 13 20 4 (by decide)).trans (seg_hit _ v 20 ((seg_off _ cv 31 20 4 (by decide)).trans rfl) (by decide))))))
  have h5 : seg (encode (.vamoXor cv v a sf r q k)) 13 6 = a := (seg_off _ k 4 13 6 (by decide)).trans ((seg_off _ q 7 13 6 (by decide)).trans ((seg_off _ r 9 13 6 (by decide)).trans ((seg_off _ sf 10 13 6 (by decide)).trans (seg_hit _ a 13 ((seg_off _ v 20 13 6 (by decide)).trans ((seg_off _ cv 31 13 6 (by decide)).trans rfl)) (by decide)))))
  have h6 : seg (encode (.vamoXor cv v a sf r q k)) 10 3 = sf := (seg_off _ k 4 10 3 (by decide)).trans ((seg_off _ q 7 10 3 (by decide)).trans ((seg_off _ r 9 10 3 (by decide)).trans (seg_hit _ sf 10 ((seg_off _ a 13 10 3 (by decide)).trans ((seg_off _ v 20 10 3 (by decide)).trans ((seg_off _ cv 31 10 3 (by decide)).trans rfl))) (by decide))))
  have h7 : seg (encode (.vamoXor cv v a sf r q k)) 9 1 = r := (seg_off _ k 4 9 1 (by decide)).trans ((seg_off _ q 7 9 1 (by decide)).trans (seg_hit _ r 9 ((seg_off _ sf 10 9 1 (by decide)).trans ((seg_off _ a 13 9 1 (by decide)).trans ((seg_off _ v 20 9 1 (by decide)).trans ((seg_off _ cv 31 9 1 (by decide)).trans rfl)))) (by decide)))
  have h8 : seg (encode (.vamoXor cv v a sf r q k)) 7 2 = q := (seg_off _ k 4 7 2 (by decide)).trans (seg_hit _ q 7 ((seg_off _ r 9 7 2 (by decide)).trans ((seg_off _ sf 10 7 2 (by decide)).trans ((seg_off _ a 13 7 2 (by decide)).trans ((seg_off _ v 20 7 2 (by decide)).trans ((seg_off _ cv 31 7 2 (by decide)).trans rfl))))) (by decide))
  have h9 : seg (encode (.vamoXor cv v a sf r q k)) 4 3 = k := seg_hit _ k 4 ((seg_off _ q 7 4 3 (by decide)).trans ((seg_off _ r 9 4 3 (by decide)).trans ((seg_off _ sf 10 4 3 (by decide)).trans ((seg_off _ a 13 4 3 (by decide)).trans ((seg_off _ v 20 4 3 (by decide)).trans ((seg_off _ cv 31 4 3 (by decide)).trans rfl)))))) (by decide)
  exact decode_of (form39 m (by simp [decode39, h1, h2, h3, h4, h5, h6, h7, h8, h9]))
theorem RoundTrip.vamoSwap (cv : BitVec 1) (v : BitVec 4) (a : BitVec 6) (sf : BitVec 3) (r : BitVec 1) (q : BitVec 2) (k : BitVec 3) : RoundTrip.Statement (.vamoSwap cv v a sf r q k) := by
  have m : seg (encode (.vamoSwap cv v a sf r q k)) 24 7 = 57#7 := (seg_off _ k 4 24 7 (by decide)).trans ((seg_off _ q 7 24 7 (by decide)).trans ((seg_off _ r 9 24 7 (by decide)).trans ((seg_off _ sf 10 24 7 (by decide)).trans ((seg_off _ a 13 24 7 (by decide)).trans ((seg_off _ v 20 24 7 (by decide)).trans ((seg_off _ cv 31 24 7 (by decide)).trans rfl))))))
  have h1 : seg (encode (.vamoSwap cv v a sf r q k)) 0 4 = 4#4 := (seg_off _ k 4 0 4 (by decide)).trans ((seg_off _ q 7 0 4 (by decide)).trans ((seg_off _ r 9 0 4 (by decide)).trans ((seg_off _ sf 10 0 4 (by decide)).trans ((seg_off _ a 13 0 4 (by decide)).trans ((seg_off _ v 20 0 4 (by decide)).trans ((seg_off _ cv 31 0 4 (by decide)).trans rfl))))))
  have h2 : seg (encode (.vamoSwap cv v a sf r q k)) 19 1 = 0#1 := (seg_off _ k 4 19 1 (by decide)).trans ((seg_off _ q 7 19 1 (by decide)).trans ((seg_off _ r 9 19 1 (by decide)).trans ((seg_off _ sf 10 19 1 (by decide)).trans ((seg_off _ a 13 19 1 (by decide)).trans ((seg_off _ v 20 19 1 (by decide)).trans ((seg_off _ cv 31 19 1 (by decide)).trans rfl))))))
  have h3 : seg (encode (.vamoSwap cv v a sf r q k)) 31 1 = cv := (seg_off _ k 4 31 1 (by decide)).trans ((seg_off _ q 7 31 1 (by decide)).trans ((seg_off _ r 9 31 1 (by decide)).trans ((seg_off _ sf 10 31 1 (by decide)).trans ((seg_off _ a 13 31 1 (by decide)).trans ((seg_off _ v 20 31 1 (by decide)).trans (seg_hit _ cv 31 rfl (by decide)))))))
  have h4 : seg (encode (.vamoSwap cv v a sf r q k)) 20 4 = v := (seg_off _ k 4 20 4 (by decide)).trans ((seg_off _ q 7 20 4 (by decide)).trans ((seg_off _ r 9 20 4 (by decide)).trans ((seg_off _ sf 10 20 4 (by decide)).trans ((seg_off _ a 13 20 4 (by decide)).trans (seg_hit _ v 20 ((seg_off _ cv 31 20 4 (by decide)).trans rfl) (by decide))))))
  have h5 : seg (encode (.vamoSwap cv v a sf r q k)) 13 6 = a := (seg_off _ k 4 13 6 (by decide)).trans ((seg_off _ q 7 13 6 (by decide)).trans ((seg_off _ r 9 13 6 (by decide)).trans ((seg_off _ sf 10 13 6 (by decide)).trans (seg_hit _ a 13 ((seg_off _ v 20 13 6 (by decide)).trans ((seg_off _ cv 31 13 6 (by decide)).trans rfl)) (by decide)))))
  have h6 : seg (encode (.vamoSwap cv v a sf r q k)) 10 3 = sf := (seg_off _ k 4 10 3 (by decide)).trans ((seg_off _ q 7 10 3 (by decide)).trans ((seg_off _ r 9 10 3 (by decide)).trans (seg_hit _ sf 10 ((seg_off _ a 13 10 3 (by decide)).trans ((seg_off _ v 20 10 3 (by decide)).trans ((seg_off _ cv 31 10 3 (by decide)).trans rfl))) (by decide))))
  have h7 : seg (encode (.vamoSwap cv v a sf r q k)) 9 1 = r := (seg_off _ k 4 9 1 (by decide)).trans ((seg_off _ q 7 9 1 (by decide)).trans (seg_hit _ r 9 ((seg_off _ sf 10 9 1 (by decide)).trans ((seg_off _ a 13 9 1 (by decide)).trans ((seg_off _ v 20 9 1 (by decide)).trans ((seg_off _ cv 31 9 1 (by decide)).trans rfl)))) (by decide)))
  have h8 : seg (encode (.vamoSwap cv v a sf r q k)) 7 2 = q := (seg_off _ k 4 7 2 (by decide)).trans (seg_hit _ q 7 ((seg_off _ r 9 7 2 (by decide)).trans ((seg_off _ sf 10 7 2 (by decide)).trans ((seg_off _ a 13 7 2 (by decide)).trans ((seg_off _ v 20 7 2 (by decide)).trans ((seg_off _ cv 31 7 2 (by decide)).trans rfl))))) (by decide))
  have h9 : seg (encode (.vamoSwap cv v a sf r q k)) 4 3 = k := seg_hit _ k 4 ((seg_off _ q 7 4 3 (by decide)).trans ((seg_off _ r 9 4 3 (by decide)).trans ((seg_off _ sf 10 4 3 (by decide)).trans ((seg_off _ a 13 4 3 (by decide)).trans ((seg_off _ v 20 4 3 (by decide)).trans ((seg_off _ cv 31 4 3 (by decide)).trans rfl)))))) (by decide)
  exact decode_of (form39 m (by simp [decode39, h1, h2, h3, h4, h5, h6, h7, h8, h9]))
theorem RoundTrip.vamoMin (cv : BitVec 1) (v : BitVec 4) (a : BitVec 6) (sf : BitVec 3) (r : BitVec 1) (q : BitVec 2) (k : BitVec 3) : RoundTrip.Statement (.vamoMin cv v a sf r q k) := by
  have m : seg (encode (.vamoMin cv v a sf r q k)) 24 7 = 57#7 := (seg_off _ k 4 24 7 (by decide)).trans ((seg_off _ q 7 24 7 (by decide)).trans ((seg_off _ r 9 24 7 (by decide)).trans ((seg_off _ sf 10 24 7 (by decide)).trans ((seg_off _ a 13 24 7 (by decide)).trans ((seg_off _ v 20 24 7 (by decide)).trans ((seg_off _ cv 31 24 7 (by decide)).trans rfl))))))
  have h1 : seg (encode (.vamoMin cv v a sf r q k)) 0 4 = 5#4 := (seg_off _ k 4 0 4 (by decide)).trans ((seg_off _ q 7 0 4 (by decide)).trans ((seg_off _ r 9 0 4 (by decide)).trans ((seg_off _ sf 10 0 4 (by decide)).trans ((seg_off _ a 13 0 4 (by decide)).trans ((seg_off _ v 20 0 4 (by decide)).trans ((seg_off _ cv 31 0 4 (by decide)).trans rfl))))))
  have h2 : seg (encode (.vamoMin cv v a sf r q k)) 19 1 = 0#1 := (seg_off _ k 4 19 1 (by decide)).trans ((seg_off _ q 7 19 1 (by decide)).trans ((seg_off _ r 9 19 1 (by decide)).trans ((seg_off _ sf 10 19 1 (by decide)).trans ((seg_off _ a 13 19 1 (by decide)).trans ((seg_off _ v 20 19 1 (by decide)).trans ((seg_off _ cv 31 19 1 (by decide)).trans rfl))))))
  have h3 : seg (encode (.vamoMin cv v a sf r q k)) 31 1 = cv := (seg_off _ k 4 31 1 (by decide)).trans ((seg_off _ q 7 31 1 (by decide)).trans ((seg_off _ r 9 31 1 (by decide)).trans ((seg_off _ sf 10 31 1 (by decide)).trans ((seg_off _ a 13 31 1 (by decide)).trans ((seg_off _ v 20 31 1 (by decide)).trans (seg_hit _ cv 31 rfl (by decide)))))))
  have h4 : seg (encode (.vamoMin cv v a sf r q k)) 20 4 = v := (seg_off _ k 4 20 4 (by decide)).trans ((seg_off _ q 7 20 4 (by decide)).trans ((seg_off _ r 9 20 4 (by decide)).trans ((seg_off _ sf 10 20 4 (by decide)).trans ((seg_off _ a 13 20 4 (by decide)).trans (seg_hit _ v 20 ((seg_off _ cv 31 20 4 (by decide)).trans rfl) (by decide))))))
  have h5 : seg (encode (.vamoMin cv v a sf r q k)) 13 6 = a := (seg_off _ k 4 13 6 (by decide)).trans ((seg_off _ q 7 13 6 (by decide)).trans ((seg_off _ r 9 13 6 (by decide)).trans ((seg_off _ sf 10 13 6 (by decide)).trans (seg_hit _ a 13 ((seg_off _ v 20 13 6 (by decide)).trans ((seg_off _ cv 31 13 6 (by decide)).trans rfl)) (by decide)))))
  have h6 : seg (encode (.vamoMin cv v a sf r q k)) 10 3 = sf := (seg_off _ k 4 10 3 (by decide)).trans ((seg_off _ q 7 10 3 (by decide)).trans ((seg_off _ r 9 10 3 (by decide)).trans (seg_hit _ sf 10 ((seg_off _ a 13 10 3 (by decide)).trans ((seg_off _ v 20 10 3 (by decide)).trans ((seg_off _ cv 31 10 3 (by decide)).trans rfl))) (by decide))))
  have h7 : seg (encode (.vamoMin cv v a sf r q k)) 9 1 = r := (seg_off _ k 4 9 1 (by decide)).trans ((seg_off _ q 7 9 1 (by decide)).trans (seg_hit _ r 9 ((seg_off _ sf 10 9 1 (by decide)).trans ((seg_off _ a 13 9 1 (by decide)).trans ((seg_off _ v 20 9 1 (by decide)).trans ((seg_off _ cv 31 9 1 (by decide)).trans rfl)))) (by decide)))
  have h8 : seg (encode (.vamoMin cv v a sf r q k)) 7 2 = q := (seg_off _ k 4 7 2 (by decide)).trans (seg_hit _ q 7 ((seg_off _ r 9 7 2 (by decide)).trans ((seg_off _ sf 10 7 2 (by decide)).trans ((seg_off _ a 13 7 2 (by decide)).trans ((seg_off _ v 20 7 2 (by decide)).trans ((seg_off _ cv 31 7 2 (by decide)).trans rfl))))) (by decide))
  have h9 : seg (encode (.vamoMin cv v a sf r q k)) 4 3 = k := seg_hit _ k 4 ((seg_off _ q 7 4 3 (by decide)).trans ((seg_off _ r 9 4 3 (by decide)).trans ((seg_off _ sf 10 4 3 (by decide)).trans ((seg_off _ a 13 4 3 (by decide)).trans ((seg_off _ v 20 4 3 (by decide)).trans ((seg_off _ cv 31 4 3 (by decide)).trans rfl)))))) (by decide)
  exact decode_of (form39 m (by simp [decode39, h1, h2, h3, h4, h5, h6, h7, h8, h9]))
theorem RoundTrip.vamoMax (cv : BitVec 1) (v : BitVec 4) (a : BitVec 6) (sf : BitVec 3) (r : BitVec 1) (q : BitVec 2) (k : BitVec 3) : RoundTrip.Statement (.vamoMax cv v a sf r q k) := by
  have m : seg (encode (.vamoMax cv v a sf r q k)) 24 7 = 57#7 := (seg_off _ k 4 24 7 (by decide)).trans ((seg_off _ q 7 24 7 (by decide)).trans ((seg_off _ r 9 24 7 (by decide)).trans ((seg_off _ sf 10 24 7 (by decide)).trans ((seg_off _ a 13 24 7 (by decide)).trans ((seg_off _ v 20 24 7 (by decide)).trans ((seg_off _ cv 31 24 7 (by decide)).trans rfl))))))
  have h1 : seg (encode (.vamoMax cv v a sf r q k)) 0 4 = 6#4 := (seg_off _ k 4 0 4 (by decide)).trans ((seg_off _ q 7 0 4 (by decide)).trans ((seg_off _ r 9 0 4 (by decide)).trans ((seg_off _ sf 10 0 4 (by decide)).trans ((seg_off _ a 13 0 4 (by decide)).trans ((seg_off _ v 20 0 4 (by decide)).trans ((seg_off _ cv 31 0 4 (by decide)).trans rfl))))))
  have h2 : seg (encode (.vamoMax cv v a sf r q k)) 19 1 = 0#1 := (seg_off _ k 4 19 1 (by decide)).trans ((seg_off _ q 7 19 1 (by decide)).trans ((seg_off _ r 9 19 1 (by decide)).trans ((seg_off _ sf 10 19 1 (by decide)).trans ((seg_off _ a 13 19 1 (by decide)).trans ((seg_off _ v 20 19 1 (by decide)).trans ((seg_off _ cv 31 19 1 (by decide)).trans rfl))))))
  have h3 : seg (encode (.vamoMax cv v a sf r q k)) 31 1 = cv := (seg_off _ k 4 31 1 (by decide)).trans ((seg_off _ q 7 31 1 (by decide)).trans ((seg_off _ r 9 31 1 (by decide)).trans ((seg_off _ sf 10 31 1 (by decide)).trans ((seg_off _ a 13 31 1 (by decide)).trans ((seg_off _ v 20 31 1 (by decide)).trans (seg_hit _ cv 31 rfl (by decide)))))))
  have h4 : seg (encode (.vamoMax cv v a sf r q k)) 20 4 = v := (seg_off _ k 4 20 4 (by decide)).trans ((seg_off _ q 7 20 4 (by decide)).trans ((seg_off _ r 9 20 4 (by decide)).trans ((seg_off _ sf 10 20 4 (by decide)).trans ((seg_off _ a 13 20 4 (by decide)).trans (seg_hit _ v 20 ((seg_off _ cv 31 20 4 (by decide)).trans rfl) (by decide))))))
  have h5 : seg (encode (.vamoMax cv v a sf r q k)) 13 6 = a := (seg_off _ k 4 13 6 (by decide)).trans ((seg_off _ q 7 13 6 (by decide)).trans ((seg_off _ r 9 13 6 (by decide)).trans ((seg_off _ sf 10 13 6 (by decide)).trans (seg_hit _ a 13 ((seg_off _ v 20 13 6 (by decide)).trans ((seg_off _ cv 31 13 6 (by decide)).trans rfl)) (by decide)))))
  have h6 : seg (encode (.vamoMax cv v a sf r q k)) 10 3 = sf := (seg_off _ k 4 10 3 (by decide)).trans ((seg_off _ q 7 10 3 (by decide)).trans ((seg_off _ r 9 10 3 (by decide)).trans (seg_hit _ sf 10 ((seg_off _ a 13 10 3 (by decide)).trans ((seg_off _ v 20 10 3 (by decide)).trans ((seg_off _ cv 31 10 3 (by decide)).trans rfl))) (by decide))))
  have h7 : seg (encode (.vamoMax cv v a sf r q k)) 9 1 = r := (seg_off _ k 4 9 1 (by decide)).trans ((seg_off _ q 7 9 1 (by decide)).trans (seg_hit _ r 9 ((seg_off _ sf 10 9 1 (by decide)).trans ((seg_off _ a 13 9 1 (by decide)).trans ((seg_off _ v 20 9 1 (by decide)).trans ((seg_off _ cv 31 9 1 (by decide)).trans rfl)))) (by decide)))
  have h8 : seg (encode (.vamoMax cv v a sf r q k)) 7 2 = q := (seg_off _ k 4 7 2 (by decide)).trans (seg_hit _ q 7 ((seg_off _ r 9 7 2 (by decide)).trans ((seg_off _ sf 10 7 2 (by decide)).trans ((seg_off _ a 13 7 2 (by decide)).trans ((seg_off _ v 20 7 2 (by decide)).trans ((seg_off _ cv 31 7 2 (by decide)).trans rfl))))) (by decide))
  have h9 : seg (encode (.vamoMax cv v a sf r q k)) 4 3 = k := seg_hit _ k 4 ((seg_off _ q 7 4 3 (by decide)).trans ((seg_off _ r 9 4 3 (by decide)).trans ((seg_off _ sf 10 4 3 (by decide)).trans ((seg_off _ a 13 4 3 (by decide)).trans ((seg_off _ v 20 4 3 (by decide)).trans ((seg_off _ cv 31 4 3 (by decide)).trans rfl)))))) (by decide)
  exact decode_of (form39 m (by simp [decode39, h1, h2, h3, h4, h5, h6, h7, h8, h9]))
theorem RoundTrip.vamoFadd32 (cv : BitVec 1) (v : BitVec 4) (a : BitVec 6) (sf : BitVec 3) (r : BitVec 1) (q : BitVec 2) (k : BitVec 3) : RoundTrip.Statement (.vamoFadd32 cv v a sf r q k) := by
  have m : seg (encode (.vamoFadd32 cv v a sf r q k)) 24 7 = 57#7 := (seg_off _ k 4 24 7 (by decide)).trans ((seg_off _ q 7 24 7 (by decide)).trans ((seg_off _ r 9 24 7 (by decide)).trans ((seg_off _ sf 10 24 7 (by decide)).trans ((seg_off _ a 13 24 7 (by decide)).trans ((seg_off _ v 20 24 7 (by decide)).trans ((seg_off _ cv 31 24 7 (by decide)).trans rfl))))))
  have h1 : seg (encode (.vamoFadd32 cv v a sf r q k)) 0 4 = 7#4 := (seg_off _ k 4 0 4 (by decide)).trans ((seg_off _ q 7 0 4 (by decide)).trans ((seg_off _ r 9 0 4 (by decide)).trans ((seg_off _ sf 10 0 4 (by decide)).trans ((seg_off _ a 13 0 4 (by decide)).trans ((seg_off _ v 20 0 4 (by decide)).trans ((seg_off _ cv 31 0 4 (by decide)).trans rfl))))))
  have h2 : seg (encode (.vamoFadd32 cv v a sf r q k)) 19 1 = 0#1 := (seg_off _ k 4 19 1 (by decide)).trans ((seg_off _ q 7 19 1 (by decide)).trans ((seg_off _ r 9 19 1 (by decide)).trans ((seg_off _ sf 10 19 1 (by decide)).trans ((seg_off _ a 13 19 1 (by decide)).trans ((seg_off _ v 20 19 1 (by decide)).trans ((seg_off _ cv 31 19 1 (by decide)).trans rfl))))))
  have h3 : seg (encode (.vamoFadd32 cv v a sf r q k)) 31 1 = cv := (seg_off _ k 4 31 1 (by decide)).trans ((seg_off _ q 7 31 1 (by decide)).trans ((seg_off _ r 9 31 1 (by decide)).trans ((seg_off _ sf 10 31 1 (by decide)).trans ((seg_off _ a 13 31 1 (by decide)).trans ((seg_off _ v 20 31 1 (by decide)).trans (seg_hit _ cv 31 rfl (by decide)))))))
  have h4 : seg (encode (.vamoFadd32 cv v a sf r q k)) 20 4 = v := (seg_off _ k 4 20 4 (by decide)).trans ((seg_off _ q 7 20 4 (by decide)).trans ((seg_off _ r 9 20 4 (by decide)).trans ((seg_off _ sf 10 20 4 (by decide)).trans ((seg_off _ a 13 20 4 (by decide)).trans (seg_hit _ v 20 ((seg_off _ cv 31 20 4 (by decide)).trans rfl) (by decide))))))
  have h5 : seg (encode (.vamoFadd32 cv v a sf r q k)) 13 6 = a := (seg_off _ k 4 13 6 (by decide)).trans ((seg_off _ q 7 13 6 (by decide)).trans ((seg_off _ r 9 13 6 (by decide)).trans ((seg_off _ sf 10 13 6 (by decide)).trans (seg_hit _ a 13 ((seg_off _ v 20 13 6 (by decide)).trans ((seg_off _ cv 31 13 6 (by decide)).trans rfl)) (by decide)))))
  have h6 : seg (encode (.vamoFadd32 cv v a sf r q k)) 10 3 = sf := (seg_off _ k 4 10 3 (by decide)).trans ((seg_off _ q 7 10 3 (by decide)).trans ((seg_off _ r 9 10 3 (by decide)).trans (seg_hit _ sf 10 ((seg_off _ a 13 10 3 (by decide)).trans ((seg_off _ v 20 10 3 (by decide)).trans ((seg_off _ cv 31 10 3 (by decide)).trans rfl))) (by decide))))
  have h7 : seg (encode (.vamoFadd32 cv v a sf r q k)) 9 1 = r := (seg_off _ k 4 9 1 (by decide)).trans ((seg_off _ q 7 9 1 (by decide)).trans (seg_hit _ r 9 ((seg_off _ sf 10 9 1 (by decide)).trans ((seg_off _ a 13 9 1 (by decide)).trans ((seg_off _ v 20 9 1 (by decide)).trans ((seg_off _ cv 31 9 1 (by decide)).trans rfl)))) (by decide)))
  have h8 : seg (encode (.vamoFadd32 cv v a sf r q k)) 7 2 = q := (seg_off _ k 4 7 2 (by decide)).trans (seg_hit _ q 7 ((seg_off _ r 9 7 2 (by decide)).trans ((seg_off _ sf 10 7 2 (by decide)).trans ((seg_off _ a 13 7 2 (by decide)).trans ((seg_off _ v 20 7 2 (by decide)).trans ((seg_off _ cv 31 7 2 (by decide)).trans rfl))))) (by decide))
  have h9 : seg (encode (.vamoFadd32 cv v a sf r q k)) 4 3 = k := seg_hit _ k 4 ((seg_off _ q 7 4 3 (by decide)).trans ((seg_off _ r 9 4 3 (by decide)).trans ((seg_off _ sf 10 4 3 (by decide)).trans ((seg_off _ a 13 4 3 (by decide)).trans ((seg_off _ v 20 4 3 (by decide)).trans ((seg_off _ cv 31 4 3 (by decide)).trans rfl)))))) (by decide)
  exact decode_of (form39 m (by simp [decode39, h1, h2, h3, h4, h5, h6, h7, h8, h9]))
theorem RoundTrip.vamoUmin (cv : BitVec 1) (v : BitVec 4) (a : BitVec 6) (sf : BitVec 3) (r : BitVec 1) (q : BitVec 2) (k : BitVec 3) : RoundTrip.Statement (.vamoUmin cv v a sf r q k) := by
  have m : seg (encode (.vamoUmin cv v a sf r q k)) 24 7 = 57#7 := (seg_off _ k 4 24 7 (by decide)).trans ((seg_off _ q 7 24 7 (by decide)).trans ((seg_off _ r 9 24 7 (by decide)).trans ((seg_off _ sf 10 24 7 (by decide)).trans ((seg_off _ a 13 24 7 (by decide)).trans ((seg_off _ v 20 24 7 (by decide)).trans ((seg_off _ cv 31 24 7 (by decide)).trans rfl))))))
  have h1 : seg (encode (.vamoUmin cv v a sf r q k)) 0 4 = 8#4 := (seg_off _ k 4 0 4 (by decide)).trans ((seg_off _ q 7 0 4 (by decide)).trans ((seg_off _ r 9 0 4 (by decide)).trans ((seg_off _ sf 10 0 4 (by decide)).trans ((seg_off _ a 13 0 4 (by decide)).trans ((seg_off _ v 20 0 4 (by decide)).trans ((seg_off _ cv 31 0 4 (by decide)).trans rfl))))))
  have h2 : seg (encode (.vamoUmin cv v a sf r q k)) 19 1 = 0#1 := (seg_off _ k 4 19 1 (by decide)).trans ((seg_off _ q 7 19 1 (by decide)).trans ((seg_off _ r 9 19 1 (by decide)).trans ((seg_off _ sf 10 19 1 (by decide)).trans ((seg_off _ a 13 19 1 (by decide)).trans ((seg_off _ v 20 19 1 (by decide)).trans ((seg_off _ cv 31 19 1 (by decide)).trans rfl))))))
  have h3 : seg (encode (.vamoUmin cv v a sf r q k)) 31 1 = cv := (seg_off _ k 4 31 1 (by decide)).trans ((seg_off _ q 7 31 1 (by decide)).trans ((seg_off _ r 9 31 1 (by decide)).trans ((seg_off _ sf 10 31 1 (by decide)).trans ((seg_off _ a 13 31 1 (by decide)).trans ((seg_off _ v 20 31 1 (by decide)).trans (seg_hit _ cv 31 rfl (by decide)))))))
  have h4 : seg (encode (.vamoUmin cv v a sf r q k)) 20 4 = v := (seg_off _ k 4 20 4 (by decide)).trans ((seg_off _ q 7 20 4 (by decide)).trans ((seg_off _ r 9 20 4 (by decide)).trans ((seg_off _ sf 10 20 4 (by decide)).trans ((seg_off _ a 13 20 4 (by decide)).trans (seg_hit _ v 20 ((seg_off _ cv 31 20 4 (by decide)).trans rfl) (by decide))))))
  have h5 : seg (encode (.vamoUmin cv v a sf r q k)) 13 6 = a := (seg_off _ k 4 13 6 (by decide)).trans ((seg_off _ q 7 13 6 (by decide)).trans ((seg_off _ r 9 13 6 (by decide)).trans ((seg_off _ sf 10 13 6 (by decide)).trans (seg_hit _ a 13 ((seg_off _ v 20 13 6 (by decide)).trans ((seg_off _ cv 31 13 6 (by decide)).trans rfl)) (by decide)))))
  have h6 : seg (encode (.vamoUmin cv v a sf r q k)) 10 3 = sf := (seg_off _ k 4 10 3 (by decide)).trans ((seg_off _ q 7 10 3 (by decide)).trans ((seg_off _ r 9 10 3 (by decide)).trans (seg_hit _ sf 10 ((seg_off _ a 13 10 3 (by decide)).trans ((seg_off _ v 20 10 3 (by decide)).trans ((seg_off _ cv 31 10 3 (by decide)).trans rfl))) (by decide))))
  have h7 : seg (encode (.vamoUmin cv v a sf r q k)) 9 1 = r := (seg_off _ k 4 9 1 (by decide)).trans ((seg_off _ q 7 9 1 (by decide)).trans (seg_hit _ r 9 ((seg_off _ sf 10 9 1 (by decide)).trans ((seg_off _ a 13 9 1 (by decide)).trans ((seg_off _ v 20 9 1 (by decide)).trans ((seg_off _ cv 31 9 1 (by decide)).trans rfl)))) (by decide)))
  have h8 : seg (encode (.vamoUmin cv v a sf r q k)) 7 2 = q := (seg_off _ k 4 7 2 (by decide)).trans (seg_hit _ q 7 ((seg_off _ r 9 7 2 (by decide)).trans ((seg_off _ sf 10 7 2 (by decide)).trans ((seg_off _ a 13 7 2 (by decide)).trans ((seg_off _ v 20 7 2 (by decide)).trans ((seg_off _ cv 31 7 2 (by decide)).trans rfl))))) (by decide))
  have h9 : seg (encode (.vamoUmin cv v a sf r q k)) 4 3 = k := seg_hit _ k 4 ((seg_off _ q 7 4 3 (by decide)).trans ((seg_off _ r 9 4 3 (by decide)).trans ((seg_off _ sf 10 4 3 (by decide)).trans ((seg_off _ a 13 4 3 (by decide)).trans ((seg_off _ v 20 4 3 (by decide)).trans ((seg_off _ cv 31 4 3 (by decide)).trans rfl)))))) (by decide)
  exact decode_of (form39 m (by simp [decode39, h1, h2, h3, h4, h5, h6, h7, h8, h9]))
theorem RoundTrip.vamoUmax (cv : BitVec 1) (v : BitVec 4) (a : BitVec 6) (sf : BitVec 3) (r : BitVec 1) (q : BitVec 2) (k : BitVec 3) : RoundTrip.Statement (.vamoUmax cv v a sf r q k) := by
  have m : seg (encode (.vamoUmax cv v a sf r q k)) 24 7 = 57#7 := (seg_off _ k 4 24 7 (by decide)).trans ((seg_off _ q 7 24 7 (by decide)).trans ((seg_off _ r 9 24 7 (by decide)).trans ((seg_off _ sf 10 24 7 (by decide)).trans ((seg_off _ a 13 24 7 (by decide)).trans ((seg_off _ v 20 24 7 (by decide)).trans ((seg_off _ cv 31 24 7 (by decide)).trans rfl))))))
  have h1 : seg (encode (.vamoUmax cv v a sf r q k)) 0 4 = 9#4 := (seg_off _ k 4 0 4 (by decide)).trans ((seg_off _ q 7 0 4 (by decide)).trans ((seg_off _ r 9 0 4 (by decide)).trans ((seg_off _ sf 10 0 4 (by decide)).trans ((seg_off _ a 13 0 4 (by decide)).trans ((seg_off _ v 20 0 4 (by decide)).trans ((seg_off _ cv 31 0 4 (by decide)).trans rfl))))))
  have h2 : seg (encode (.vamoUmax cv v a sf r q k)) 19 1 = 0#1 := (seg_off _ k 4 19 1 (by decide)).trans ((seg_off _ q 7 19 1 (by decide)).trans ((seg_off _ r 9 19 1 (by decide)).trans ((seg_off _ sf 10 19 1 (by decide)).trans ((seg_off _ a 13 19 1 (by decide)).trans ((seg_off _ v 20 19 1 (by decide)).trans ((seg_off _ cv 31 19 1 (by decide)).trans rfl))))))
  have h3 : seg (encode (.vamoUmax cv v a sf r q k)) 31 1 = cv := (seg_off _ k 4 31 1 (by decide)).trans ((seg_off _ q 7 31 1 (by decide)).trans ((seg_off _ r 9 31 1 (by decide)).trans ((seg_off _ sf 10 31 1 (by decide)).trans ((seg_off _ a 13 31 1 (by decide)).trans ((seg_off _ v 20 31 1 (by decide)).trans (seg_hit _ cv 31 rfl (by decide)))))))
  have h4 : seg (encode (.vamoUmax cv v a sf r q k)) 20 4 = v := (seg_off _ k 4 20 4 (by decide)).trans ((seg_off _ q 7 20 4 (by decide)).trans ((seg_off _ r 9 20 4 (by decide)).trans ((seg_off _ sf 10 20 4 (by decide)).trans ((seg_off _ a 13 20 4 (by decide)).trans (seg_hit _ v 20 ((seg_off _ cv 31 20 4 (by decide)).trans rfl) (by decide))))))
  have h5 : seg (encode (.vamoUmax cv v a sf r q k)) 13 6 = a := (seg_off _ k 4 13 6 (by decide)).trans ((seg_off _ q 7 13 6 (by decide)).trans ((seg_off _ r 9 13 6 (by decide)).trans ((seg_off _ sf 10 13 6 (by decide)).trans (seg_hit _ a 13 ((seg_off _ v 20 13 6 (by decide)).trans ((seg_off _ cv 31 13 6 (by decide)).trans rfl)) (by decide)))))
  have h6 : seg (encode (.vamoUmax cv v a sf r q k)) 10 3 = sf := (seg_off _ k 4 10 3 (by decide)).trans ((seg_off _ q 7 10 3 (by decide)).trans ((seg_off _ r 9 10 3 (by decide)).trans (seg_hit _ sf 10 ((seg_off _ a 13 10 3 (by decide)).trans ((seg_off _ v 20 10 3 (by decide)).trans ((seg_off _ cv 31 10 3 (by decide)).trans rfl))) (by decide))))
  have h7 : seg (encode (.vamoUmax cv v a sf r q k)) 9 1 = r := (seg_off _ k 4 9 1 (by decide)).trans ((seg_off _ q 7 9 1 (by decide)).trans (seg_hit _ r 9 ((seg_off _ sf 10 9 1 (by decide)).trans ((seg_off _ a 13 9 1 (by decide)).trans ((seg_off _ v 20 9 1 (by decide)).trans ((seg_off _ cv 31 9 1 (by decide)).trans rfl)))) (by decide)))
  have h8 : seg (encode (.vamoUmax cv v a sf r q k)) 7 2 = q := (seg_off _ k 4 7 2 (by decide)).trans (seg_hit _ q 7 ((seg_off _ r 9 7 2 (by decide)).trans ((seg_off _ sf 10 7 2 (by decide)).trans ((seg_off _ a 13 7 2 (by decide)).trans ((seg_off _ v 20 7 2 (by decide)).trans ((seg_off _ cv 31 7 2 (by decide)).trans rfl))))) (by decide))
  have h9 : seg (encode (.vamoUmax cv v a sf r q k)) 4 3 = k := seg_hit _ k 4 ((seg_off _ q 7 4 3 (by decide)).trans ((seg_off _ r 9 4 3 (by decide)).trans ((seg_off _ sf 10 4 3 (by decide)).trans ((seg_off _ a 13 4 3 (by decide)).trans ((seg_off _ v 20 4 3 (by decide)).trans ((seg_off _ cv 31 4 3 (by decide)).trans rfl)))))) (by decide)
  exact decode_of (form39 m (by simp [decode39, h1, h2, h3, h4, h5, h6, h7, h8, h9]))
theorem RoundTrip.vamoIncb (cv : BitVec 1) (v : BitVec 4) (a : BitVec 6) (sf : BitVec 3) (r : BitVec 1) (q : BitVec 2) (k : BitVec 3) : RoundTrip.Statement (.vamoIncb cv v a sf r q k) := by
  have m : seg (encode (.vamoIncb cv v a sf r q k)) 24 7 = 57#7 := (seg_off _ k 4 24 7 (by decide)).trans ((seg_off _ q 7 24 7 (by decide)).trans ((seg_off _ r 9 24 7 (by decide)).trans ((seg_off _ sf 10 24 7 (by decide)).trans ((seg_off _ a 13 24 7 (by decide)).trans ((seg_off _ v 20 24 7 (by decide)).trans ((seg_off _ cv 31 24 7 (by decide)).trans rfl))))))
  have h1 : seg (encode (.vamoIncb cv v a sf r q k)) 0 4 = 11#4 := (seg_off _ k 4 0 4 (by decide)).trans ((seg_off _ q 7 0 4 (by decide)).trans ((seg_off _ r 9 0 4 (by decide)).trans ((seg_off _ sf 10 0 4 (by decide)).trans ((seg_off _ a 13 0 4 (by decide)).trans ((seg_off _ v 20 0 4 (by decide)).trans ((seg_off _ cv 31 0 4 (by decide)).trans rfl))))))
  have h2 : seg (encode (.vamoIncb cv v a sf r q k)) 19 1 = 0#1 := (seg_off _ k 4 19 1 (by decide)).trans ((seg_off _ q 7 19 1 (by decide)).trans ((seg_off _ r 9 19 1 (by decide)).trans ((seg_off _ sf 10 19 1 (by decide)).trans ((seg_off _ a 13 19 1 (by decide)).trans ((seg_off _ v 20 19 1 (by decide)).trans ((seg_off _ cv 31 19 1 (by decide)).trans rfl))))))
  have h3 : seg (encode (.vamoIncb cv v a sf r q k)) 31 1 = cv := (seg_off _ k 4 31 1 (by decide)).trans ((seg_off _ q 7 31 1 (by decide)).trans ((seg_off _ r 9 31 1 (by decide)).trans ((seg_off _ sf 10 31 1 (by decide)).trans ((seg_off _ a 13 31 1 (by decide)).trans ((seg_off _ v 20 31 1 (by decide)).trans (seg_hit _ cv 31 rfl (by decide)))))))
  have h4 : seg (encode (.vamoIncb cv v a sf r q k)) 20 4 = v := (seg_off _ k 4 20 4 (by decide)).trans ((seg_off _ q 7 20 4 (by decide)).trans ((seg_off _ r 9 20 4 (by decide)).trans ((seg_off _ sf 10 20 4 (by decide)).trans ((seg_off _ a 13 20 4 (by decide)).trans (seg_hit _ v 20 ((seg_off _ cv 31 20 4 (by decide)).trans rfl) (by decide))))))
  have h5 : seg (encode (.vamoIncb cv v a sf r q k)) 13 6 = a := (seg_off _ k 4 13 6 (by decide)).trans ((seg_off _ q 7 13 6 (by decide)).trans ((seg_off _ r 9 13 6 (by decide)).trans ((seg_off _ sf 10 13 6 (by decide)).trans (seg_hit _ a 13 ((seg_off _ v 20 13 6 (by decide)).trans ((seg_off _ cv 31 13 6 (by decide)).trans rfl)) (by decide)))))
  have h6 : seg (encode (.vamoIncb cv v a sf r q k)) 10 3 = sf := (seg_off _ k 4 10 3 (by decide)).trans ((seg_off _ q 7 10 3 (by decide)).trans ((seg_off _ r 9 10 3 (by decide)).trans (seg_hit _ sf 10 ((seg_off _ a 13 10 3 (by decide)).trans ((seg_off _ v 20 10 3 (by decide)).trans ((seg_off _ cv 31 10 3 (by decide)).trans rfl))) (by decide))))
  have h7 : seg (encode (.vamoIncb cv v a sf r q k)) 9 1 = r := (seg_off _ k 4 9 1 (by decide)).trans ((seg_off _ q 7 9 1 (by decide)).trans (seg_hit _ r 9 ((seg_off _ sf 10 9 1 (by decide)).trans ((seg_off _ a 13 9 1 (by decide)).trans ((seg_off _ v 20 9 1 (by decide)).trans ((seg_off _ cv 31 9 1 (by decide)).trans rfl)))) (by decide)))
  have h8 : seg (encode (.vamoIncb cv v a sf r q k)) 7 2 = q := (seg_off _ k 4 7 2 (by decide)).trans (seg_hit _ q 7 ((seg_off _ r 9 7 2 (by decide)).trans ((seg_off _ sf 10 7 2 (by decide)).trans ((seg_off _ a 13 7 2 (by decide)).trans ((seg_off _ v 20 7 2 (by decide)).trans ((seg_off _ cv 31 7 2 (by decide)).trans rfl))))) (by decide))
  have h9 : seg (encode (.vamoIncb cv v a sf r q k)) 4 3 = k := seg_hit _ k 4 ((seg_off _ q 7 4 3 (by decide)).trans ((seg_off _ r 9 4 3 (by decide)).trans ((seg_off _ sf 10 4 3 (by decide)).trans ((seg_off _ a 13 4 3 (by decide)).trans ((seg_off _ v 20 4 3 (by decide)).trans ((seg_off _ cv 31 4 3 (by decide)).trans rfl)))))) (by decide)
  exact decode_of (form39 m (by simp [decode39, h1, h2, h3, h4, h5, h6, h7, h8, h9]))
theorem RoundTrip.vamoFmin32 (cv : BitVec 1) (v : BitVec 4) (a : BitVec 6) (sf : BitVec 3) (r : BitVec 1) (q : BitVec 2) (k : BitVec 3) : RoundTrip.Statement (.vamoFmin32 cv v a sf r q k) := by
  have m : seg (encode (.vamoFmin32 cv v a sf r q k)) 24 7 = 57#7 := (seg_off _ k 4 24 7 (by decide)).trans ((seg_off _ q 7 24 7 (by decide)).trans ((seg_off _ r 9 24 7 (by decide)).trans ((seg_off _ sf 10 24 7 (by decide)).trans ((seg_off _ a 13 24 7 (by decide)).trans ((seg_off _ v 20 24 7 (by decide)).trans ((seg_off _ cv 31 24 7 (by decide)).trans rfl))))))
  have h1 : seg (encode (.vamoFmin32 cv v a sf r q k)) 0 4 = 12#4 := (seg_off _ k 4 0 4 (by decide)).trans ((seg_off _ q 7 0 4 (by decide)).trans ((seg_off _ r 9 0 4 (by decide)).trans ((seg_off _ sf 10 0 4 (by decide)).trans ((seg_off _ a 13 0 4 (by decide)).trans ((seg_off _ v 20 0 4 (by decide)).trans ((seg_off _ cv 31 0 4 (by decide)).trans rfl))))))
  have h2 : seg (encode (.vamoFmin32 cv v a sf r q k)) 19 1 = 0#1 := (seg_off _ k 4 19 1 (by decide)).trans ((seg_off _ q 7 19 1 (by decide)).trans ((seg_off _ r 9 19 1 (by decide)).trans ((seg_off _ sf 10 19 1 (by decide)).trans ((seg_off _ a 13 19 1 (by decide)).trans ((seg_off _ v 20 19 1 (by decide)).trans ((seg_off _ cv 31 19 1 (by decide)).trans rfl))))))
  have h3 : seg (encode (.vamoFmin32 cv v a sf r q k)) 31 1 = cv := (seg_off _ k 4 31 1 (by decide)).trans ((seg_off _ q 7 31 1 (by decide)).trans ((seg_off _ r 9 31 1 (by decide)).trans ((seg_off _ sf 10 31 1 (by decide)).trans ((seg_off _ a 13 31 1 (by decide)).trans ((seg_off _ v 20 31 1 (by decide)).trans (seg_hit _ cv 31 rfl (by decide)))))))
  have h4 : seg (encode (.vamoFmin32 cv v a sf r q k)) 20 4 = v := (seg_off _ k 4 20 4 (by decide)).trans ((seg_off _ q 7 20 4 (by decide)).trans ((seg_off _ r 9 20 4 (by decide)).trans ((seg_off _ sf 10 20 4 (by decide)).trans ((seg_off _ a 13 20 4 (by decide)).trans (seg_hit _ v 20 ((seg_off _ cv 31 20 4 (by decide)).trans rfl) (by decide))))))
  have h5 : seg (encode (.vamoFmin32 cv v a sf r q k)) 13 6 = a := (seg_off _ k 4 13 6 (by decide)).trans ((seg_off _ q 7 13 6 (by decide)).trans ((seg_off _ r 9 13 6 (by decide)).trans ((seg_off _ sf 10 13 6 (by decide)).trans (seg_hit _ a 13 ((seg_off _ v 20 13 6 (by decide)).trans ((seg_off _ cv 31 13 6 (by decide)).trans rfl)) (by decide)))))
  have h6 : seg (encode (.vamoFmin32 cv v a sf r q k)) 10 3 = sf := (seg_off _ k 4 10 3 (by decide)).trans ((seg_off _ q 7 10 3 (by decide)).trans ((seg_off _ r 9 10 3 (by decide)).trans (seg_hit _ sf 10 ((seg_off _ a 13 10 3 (by decide)).trans ((seg_off _ v 20 10 3 (by decide)).trans ((seg_off _ cv 31 10 3 (by decide)).trans rfl))) (by decide))))
  have h7 : seg (encode (.vamoFmin32 cv v a sf r q k)) 9 1 = r := (seg_off _ k 4 9 1 (by decide)).trans ((seg_off _ q 7 9 1 (by decide)).trans (seg_hit _ r 9 ((seg_off _ sf 10 9 1 (by decide)).trans ((seg_off _ a 13 9 1 (by decide)).trans ((seg_off _ v 20 9 1 (by decide)).trans ((seg_off _ cv 31 9 1 (by decide)).trans rfl)))) (by decide)))
  have h8 : seg (encode (.vamoFmin32 cv v a sf r q k)) 7 2 = q := (seg_off _ k 4 7 2 (by decide)).trans (seg_hit _ q 7 ((seg_off _ r 9 7 2 (by decide)).trans ((seg_off _ sf 10 7 2 (by decide)).trans ((seg_off _ a 13 7 2 (by decide)).trans ((seg_off _ v 20 7 2 (by decide)).trans ((seg_off _ cv 31 7 2 (by decide)).trans rfl))))) (by decide))
  have h9 : seg (encode (.vamoFmin32 cv v a sf r q k)) 4 3 = k := seg_hit _ k 4 ((seg_off _ q 7 4 3 (by decide)).trans ((seg_off _ r 9 4 3 (by decide)).trans ((seg_off _ sf 10 4 3 (by decide)).trans ((seg_off _ a 13 4 3 (by decide)).trans ((seg_off _ v 20 4 3 (by decide)).trans ((seg_off _ cv 31 4 3 (by decide)).trans rfl)))))) (by decide)
  exact decode_of (form39 m (by simp [decode39, h1, h2, h3, h4, h5, h6, h7, h8, h9]))
theorem RoundTrip.vamoFmax32 (cv : BitVec 1) (v : BitVec 4) (a : BitVec 6) (sf : BitVec 3) (r : BitVec 1) (q : BitVec 2) (k : BitVec 3) : RoundTrip.Statement (.vamoFmax32 cv v a sf r q k) := by
  have m : seg (encode (.vamoFmax32 cv v a sf r q k)) 24 7 = 57#7 := (seg_off _ k 4 24 7 (by decide)).trans ((seg_off _ q 7 24 7 (by decide)).trans ((seg_off _ r 9 24 7 (by decide)).trans ((seg_off _ sf 10 24 7 (by decide)).trans ((seg_off _ a 13 24 7 (by decide)).trans ((seg_off _ v 20 24 7 (by decide)).trans ((seg_off _ cv 31 24 7 (by decide)).trans rfl))))))
  have h1 : seg (encode (.vamoFmax32 cv v a sf r q k)) 0 4 = 13#4 := (seg_off _ k 4 0 4 (by decide)).trans ((seg_off _ q 7 0 4 (by decide)).trans ((seg_off _ r 9 0 4 (by decide)).trans ((seg_off _ sf 10 0 4 (by decide)).trans ((seg_off _ a 13 0 4 (by decide)).trans ((seg_off _ v 20 0 4 (by decide)).trans ((seg_off _ cv 31 0 4 (by decide)).trans rfl))))))
  have h2 : seg (encode (.vamoFmax32 cv v a sf r q k)) 19 1 = 0#1 := (seg_off _ k 4 19 1 (by decide)).trans ((seg_off _ q 7 19 1 (by decide)).trans ((seg_off _ r 9 19 1 (by decide)).trans ((seg_off _ sf 10 19 1 (by decide)).trans ((seg_off _ a 13 19 1 (by decide)).trans ((seg_off _ v 20 19 1 (by decide)).trans ((seg_off _ cv 31 19 1 (by decide)).trans rfl))))))
  have h3 : seg (encode (.vamoFmax32 cv v a sf r q k)) 31 1 = cv := (seg_off _ k 4 31 1 (by decide)).trans ((seg_off _ q 7 31 1 (by decide)).trans ((seg_off _ r 9 31 1 (by decide)).trans ((seg_off _ sf 10 31 1 (by decide)).trans ((seg_off _ a 13 31 1 (by decide)).trans ((seg_off _ v 20 31 1 (by decide)).trans (seg_hit _ cv 31 rfl (by decide)))))))
  have h4 : seg (encode (.vamoFmax32 cv v a sf r q k)) 20 4 = v := (seg_off _ k 4 20 4 (by decide)).trans ((seg_off _ q 7 20 4 (by decide)).trans ((seg_off _ r 9 20 4 (by decide)).trans ((seg_off _ sf 10 20 4 (by decide)).trans ((seg_off _ a 13 20 4 (by decide)).trans (seg_hit _ v 20 ((seg_off _ cv 31 20 4 (by decide)).trans rfl) (by decide))))))
  have h5 : seg (encode (.vamoFmax32 cv v a sf r q k)) 13 6 = a := (seg_off _ k 4 13 6 (by decide)).trans ((seg_off _ q 7 13 6 (by decide)).trans ((seg_off _ r 9 13 6 (by decide)).trans ((seg_off _ sf 10 13 6 (by decide)).trans (seg_hit _ a 13 ((seg_off _ v 20 13 6 (by decide)).trans ((seg_off _ cv 31 13 6 (by decide)).trans rfl)) (by decide)))))
  have h6 : seg (encode (.vamoFmax32 cv v a sf r q k)) 10 3 = sf := (seg_off _ k 4 10 3 (by decide)).trans ((seg_off _ q 7 10 3 (by decide)).trans ((seg_off _ r 9 10 3 (by decide)).trans (seg_hit _ sf 10 ((seg_off _ a 13 10 3 (by decide)).trans ((seg_off _ v 20 10 3 (by decide)).trans ((seg_off _ cv 31 10 3 (by decide)).trans rfl))) (by decide))))
  have h7 : seg (encode (.vamoFmax32 cv v a sf r q k)) 9 1 = r := (seg_off _ k 4 9 1 (by decide)).trans ((seg_off _ q 7 9 1 (by decide)).trans (seg_hit _ r 9 ((seg_off _ sf 10 9 1 (by decide)).trans ((seg_off _ a 13 9 1 (by decide)).trans ((seg_off _ v 20 9 1 (by decide)).trans ((seg_off _ cv 31 9 1 (by decide)).trans rfl)))) (by decide)))
  have h8 : seg (encode (.vamoFmax32 cv v a sf r q k)) 7 2 = q := (seg_off _ k 4 7 2 (by decide)).trans (seg_hit _ q 7 ((seg_off _ r 9 7 2 (by decide)).trans ((seg_off _ sf 10 7 2 (by decide)).trans ((seg_off _ a 13 7 2 (by decide)).trans ((seg_off _ v 20 7 2 (by decide)).trans ((seg_off _ cv 31 7 2 (by decide)).trans rfl))))) (by decide))
  have h9 : seg (encode (.vamoFmax32 cv v a sf r q k)) 4 3 = k := seg_hit _ k 4 ((seg_off _ q 7 4 3 (by decide)).trans ((seg_off _ r 9 4 3 (by decide)).trans ((seg_off _ sf 10 4 3 (by decide)).trans ((seg_off _ a 13 4 3 (by decide)).trans ((seg_off _ v 20 4 3 (by decide)).trans ((seg_off _ cv 31 4 3 (by decide)).trans rfl)))))) (by decide)
  exact decode_of (form39 m (by simp [decode39, h1, h2, h3, h4, h5, h6, h7, h8, h9]))
theorem RoundTrip.vamoAdd32w (cv : BitVec 1) (v : BitVec 4) (a : BitVec 6) (sf : BitVec 3) (q : BitVec 2) (k : BitVec 3) : RoundTrip.Statement (.vamoAdd32w cv v a sf q k) := by
  have m : seg (encode (.vamoAdd32w cv v a sf q k)) 24 7 = 57#7 := (seg_off _ k 4 24 7 (by decide)).trans ((seg_off _ q 7 24 7 (by decide)).trans ((seg_off _ sf 10 24 7 (by decide)).trans ((seg_off _ a 13 24 7 (by decide)).trans ((seg_off _ v 20 24 7 (by decide)).trans ((seg_off _ cv 31 24 7 (by decide)).trans rfl)))))
  have h1 : seg (encode (.vamoAdd32w cv v a sf q k)) 0 4 = 14#4 := (seg_off _ k 4 0 4 (by decide)).trans ((seg_off _ q 7 0 4 (by decide)).trans ((seg_off _ sf 10 0 4 (by decide)).trans ((seg_off _ a 13 0 4 (by decide)).trans ((seg_off _ v 20 0 4 (by decide)).trans ((seg_off _ cv 31 0 4 (by decide)).trans rfl)))))
  have h2 : seg (encode (.vamoAdd32w cv v a sf q k)) 9 1 = 0#1 := (seg_off _ k 4 9 1 (by decide)).trans ((seg_off _ q 7 9 1 (by decide)).trans ((seg_off _ sf 10 9 1 (by decide)).trans ((seg_off _ a 13 9 1 (by decide)).trans ((seg_off _ v 20 9 1 (by decide)).trans ((seg_off _ cv 31 9 1 (by decide)).trans rfl)))))
  have h3 : seg (encode (.vamoAdd32w cv v a sf q k)) 19 1 = 0#1 := (seg_off _ k 4 19 1 (by decide)).trans ((seg_off _ q 7 19 1 (by decide)).trans ((seg_off _ sf 10 19 1 (by decide)).trans ((seg_off _ a 13 19 1 (by decide)).trans ((seg_off _ v 20 19 1 (by decide)).trans ((seg_off _ cv 31 19 1 (by decide)).trans rfl)))))
  have h4 : seg (encode (.vamoAdd32w cv v a sf q k)) 31 1 = cv := (seg_off _ k 4 31 1 (by decide)).trans ((seg_off _ q 7 31 1 (by decide)).trans ((seg_off _ sf 10 31 1 (by decide)).trans ((seg_off _ a 13 31 1 (by decide)).trans ((seg_off _ v 20 31 1 (by decide)).trans (seg_hit _ cv 31 rfl (by decide))))))
  have h5 : seg (encode (.vamoAdd32w cv v a sf q k)) 20 4 = v := (seg_off _ k 4 20 4 (by decide)).trans ((seg_off _ q 7 20 4 (by decide)).trans ((seg_off _ sf 10 20 4 (by decide)).trans ((seg_off _ a 13 20 4 (by decide)).trans (seg_hit _ v 20 ((seg_off _ cv 31 20 4 (by decide)).trans rfl) (by decide)))))
  have h6 : seg (encode (.vamoAdd32w cv v a sf q k)) 13 6 = a := (seg_off _ k 4 13 6 (by decide)).trans ((seg_off _ q 7 13 6 (by decide)).trans ((seg_off _ sf 10 13 6 (by decide)).trans (seg_hit _ a 13 ((seg_off _ v 20 13 6 (by decide)).trans ((seg_off _ cv 31 13 6 (by decide)).trans rfl)) (by decide))))
  have h7 : seg (encode (.vamoAdd32w cv v a sf q k)) 10 3 = sf := (seg_off _ k 4 10 3 (by decide)).trans ((seg_off _ q 7 10 3 (by decide)).trans (seg_hit _ sf 10 ((seg_off _ a 13 10 3 (by decide)).trans ((seg_off _ v 20 10 3 (by decide)).trans ((seg_off _ cv 31 10 3 (by decide)).trans rfl))) (by decide)))
  have h8 : seg (encode (.vamoAdd32w cv v a sf q k)) 7 2 = q := (seg_off _ k 4 7 2 (by decide)).trans (seg_hit _ q 7 ((seg_off _ sf 10 7 2 (by decide)).trans ((seg_off _ a 13 7 2 (by decide)).trans ((seg_off _ v 20 7 2 (by decide)).trans ((seg_off _ cv 31 7 2 (by decide)).trans rfl)))) (by decide))
  have h9 : seg (encode (.vamoAdd32w cv v a sf q k)) 4 3 = k := seg_hit _ k 4 ((seg_off _ q 7 4 3 (by decide)).trans ((seg_off _ sf 10 4 3 (by decide)).trans ((seg_off _ a 13 4 3 (by decide)).trans ((seg_off _ v 20 4 3 (by decide)).trans ((seg_off _ cv 31 4 3 (by decide)).trans rfl))))) (by decide)
  exact decode_of (form39 m (by simp [decode39, h1, h2, h3, h4, h5, h6, h7, h8, h9]))
theorem RoundTrip.vamoFadd16x2 (cv : BitVec 1) (v : BitVec 4) (a : BitVec 6) (sf : BitVec 3) (r : BitVec 1) (q : BitVec 2) (k : BitVec 3) : RoundTrip.Statement (.vamoFadd16x2 cv v a sf r q k) := by
  have m : seg (encode (.vamoFadd16x2 cv v a sf r q k)) 24 7 = 57#7 := (seg_off _ k 4 24 7 (by decide)).trans ((seg_off _ q 7 24 7 (by decide)).trans ((seg_off _ r 9 24 7 (by decide)).trans ((seg_off _ sf 10 24 7 (by decide)).trans ((seg_off _ a 13 24 7 (by decide)).trans ((seg_off _ v 20 24 7 (by decide)).trans ((seg_off _ cv 31 24 7 (by decide)).trans rfl))))))
  have h1 : seg (encode (.vamoFadd16x2 cv v a sf r q k)) 0 4 = 15#4 := (seg_off _ k 4 0 4 (by decide)).trans ((seg_off _ q 7 0 4 (by decide)).trans ((seg_off _ r 9 0 4 (by decide)).trans ((seg_off _ sf 10 0 4 (by decide)).trans ((seg_off _ a 13 0 4 (by decide)).trans ((seg_off _ v 20 0 4 (by decide)).trans ((seg_off _ cv 31 0 4 (by decide)).trans rfl))))))
  have h2 : seg (encode (.vamoFadd16x2 cv v a sf r q k)) 19 1 = 0#1 := (seg_off _ k 4 19 1 (by decide)).trans ((seg_off _ q 7 19 1 (by decide)).trans ((seg_off _ r 9 19 1 (by decide)).trans ((seg_off _ sf 10 19 1 (by decide)).trans ((seg_off _ a 13 19 1 (by decide)).trans ((seg_off _ v 20 19 1 (by decide)).trans ((seg_off _ cv 31 19 1 (by decide)).trans rfl))))))
  have h3 : seg (encode (.vamoFadd16x2 cv v a sf r q k)) 31 1 = cv := (seg_off _ k 4 31 1 (by decide)).trans ((seg_off _ q 7 31 1 (by decide)).trans ((seg_off _ r 9 31 1 (by decide)).trans ((seg_off _ sf 10 31 1 (by decide)).trans ((seg_off _ a 13 31 1 (by decide)).trans ((seg_off _ v 20 31 1 (by decide)).trans (seg_hit _ cv 31 rfl (by decide)))))))
  have h4 : seg (encode (.vamoFadd16x2 cv v a sf r q k)) 20 4 = v := (seg_off _ k 4 20 4 (by decide)).trans ((seg_off _ q 7 20 4 (by decide)).trans ((seg_off _ r 9 20 4 (by decide)).trans ((seg_off _ sf 10 20 4 (by decide)).trans ((seg_off _ a 13 20 4 (by decide)).trans (seg_hit _ v 20 ((seg_off _ cv 31 20 4 (by decide)).trans rfl) (by decide))))))
  have h5 : seg (encode (.vamoFadd16x2 cv v a sf r q k)) 13 6 = a := (seg_off _ k 4 13 6 (by decide)).trans ((seg_off _ q 7 13 6 (by decide)).trans ((seg_off _ r 9 13 6 (by decide)).trans ((seg_off _ sf 10 13 6 (by decide)).trans (seg_hit _ a 13 ((seg_off _ v 20 13 6 (by decide)).trans ((seg_off _ cv 31 13 6 (by decide)).trans rfl)) (by decide)))))
  have h6 : seg (encode (.vamoFadd16x2 cv v a sf r q k)) 10 3 = sf := (seg_off _ k 4 10 3 (by decide)).trans ((seg_off _ q 7 10 3 (by decide)).trans ((seg_off _ r 9 10 3 (by decide)).trans (seg_hit _ sf 10 ((seg_off _ a 13 10 3 (by decide)).trans ((seg_off _ v 20 10 3 (by decide)).trans ((seg_off _ cv 31 10 3 (by decide)).trans rfl))) (by decide))))
  have h7 : seg (encode (.vamoFadd16x2 cv v a sf r q k)) 9 1 = r := (seg_off _ k 4 9 1 (by decide)).trans ((seg_off _ q 7 9 1 (by decide)).trans (seg_hit _ r 9 ((seg_off _ sf 10 9 1 (by decide)).trans ((seg_off _ a 13 9 1 (by decide)).trans ((seg_off _ v 20 9 1 (by decide)).trans ((seg_off _ cv 31 9 1 (by decide)).trans rfl)))) (by decide)))
  have h8 : seg (encode (.vamoFadd16x2 cv v a sf r q k)) 7 2 = q := (seg_off _ k 4 7 2 (by decide)).trans (seg_hit _ q 7 ((seg_off _ r 9 7 2 (by decide)).trans ((seg_off _ sf 10 7 2 (by decide)).trans ((seg_off _ a 13 7 2 (by decide)).trans ((seg_off _ v 20 7 2 (by decide)).trans ((seg_off _ cv 31 7 2 (by decide)).trans rfl))))) (by decide))
  have h9 : seg (encode (.vamoFadd16x2 cv v a sf r q k)) 4 3 = k := seg_hit _ k 4 ((seg_off _ q 7 4 3 (by decide)).trans ((seg_off _ r 9 4 3 (by decide)).trans ((seg_off _ sf 10 4 3 (by decide)).trans ((seg_off _ a 13 4 3 (by decide)).trans ((seg_off _ v 20 4 3 (by decide)).trans ((seg_off _ cv 31 4 3 (by decide)).trans rfl)))))) (by decide)
  exact decode_of (form39 m (by simp [decode39, h1, h2, h3, h4, h5, h6, h7, h8, h9]))
theorem RoundTrip.vselMax (cv : BitVec 1) (d : BitVec 5) (a : BitVec 5) (k : BitVec 3) : RoundTrip.Statement (.vselMax cv d a k) := by
  have m : seg (encode (.vselMax cv d a k)) 24 7 = 104#7 := (seg_off _ k 6 24 7 (by decide)).trans ((seg_off _ a 14 24 7 (by decide)).trans ((seg_off _ d 19 24 7 (by decide)).trans ((seg_off _ cv 31 24 7 (by decide)).trans rfl)))
  have h1 : seg (encode (.vselMax cv d a k)) 0 6 = 0#6 := (seg_off _ k 6 0 6 (by decide)).trans ((seg_off _ a 14 0 6 (by decide)).trans ((seg_off _ d 19 0 6 (by decide)).trans ((seg_off _ cv 31 0 6 (by decide)).trans rfl)))
  have h2 : seg (encode (.vselMax cv d a k)) 9 5 = 0#5 := (seg_off _ k 6 9 5 (by decide)).trans ((seg_off _ a 14 9 5 (by decide)).trans ((seg_off _ d 19 9 5 (by decide)).trans ((seg_off _ cv 31 9 5 (by decide)).trans rfl)))
  have h3 : seg (encode (.vselMax cv d a k)) 31 1 = cv := (seg_off _ k 6 31 1 (by decide)).trans ((seg_off _ a 14 31 1 (by decide)).trans ((seg_off _ d 19 31 1 (by decide)).trans (seg_hit _ cv 31 rfl (by decide))))
  have h4 : seg (encode (.vselMax cv d a k)) 19 5 = d := (seg_off _ k 6 19 5 (by decide)).trans ((seg_off _ a 14 19 5 (by decide)).trans (seg_hit _ d 19 ((seg_off _ cv 31 19 5 (by decide)).trans rfl) (by decide)))
  have h5 : seg (encode (.vselMax cv d a k)) 14 5 = a := (seg_off _ k 6 14 5 (by decide)).trans (seg_hit _ a 14 ((seg_off _ d 19 14 5 (by decide)).trans ((seg_off _ cv 31 14 5 (by decide)).trans rfl)) (by decide))
  have h6 : seg (encode (.vselMax cv d a k)) 6 3 = k := seg_hit _ k 6 ((seg_off _ a 14 6 3 (by decide)).trans ((seg_off _ d 19 6 3 (by decide)).trans ((seg_off _ cv 31 6 3 (by decide)).trans rfl))) (by decide)
  exact decode_of (form68 m (by simp [decode68, h1, h2, h3, h4, h5, h6]))
theorem RoundTrip.vselMin (cv : BitVec 1) (d : BitVec 5) (a : BitVec 5) (k : BitVec 3) : RoundTrip.Statement (.vselMin cv d a k) := by
  have m : seg (encode (.vselMin cv d a k)) 24 7 = 104#7 := (seg_off _ k 6 24 7 (by decide)).trans ((seg_off _ a 14 24 7 (by decide)).trans ((seg_off _ d 19 24 7 (by decide)).trans ((seg_off _ cv 31 24 7 (by decide)).trans rfl)))
  have h1 : seg (encode (.vselMin cv d a k)) 0 6 = 1#6 := (seg_off _ k 6 0 6 (by decide)).trans ((seg_off _ a 14 0 6 (by decide)).trans ((seg_off _ d 19 0 6 (by decide)).trans ((seg_off _ cv 31 0 6 (by decide)).trans rfl)))
  have h2 : seg (encode (.vselMin cv d a k)) 9 5 = 0#5 := (seg_off _ k 6 9 5 (by decide)).trans ((seg_off _ a 14 9 5 (by decide)).trans ((seg_off _ d 19 9 5 (by decide)).trans ((seg_off _ cv 31 9 5 (by decide)).trans rfl)))
  have h3 : seg (encode (.vselMin cv d a k)) 31 1 = cv := (seg_off _ k 6 31 1 (by decide)).trans ((seg_off _ a 14 31 1 (by decide)).trans ((seg_off _ d 19 31 1 (by decide)).trans (seg_hit _ cv 31 rfl (by decide))))
  have h4 : seg (encode (.vselMin cv d a k)) 19 5 = d := (seg_off _ k 6 19 5 (by decide)).trans ((seg_off _ a 14 19 5 (by decide)).trans (seg_hit _ d 19 ((seg_off _ cv 31 19 5 (by decide)).trans rfl) (by decide)))
  have h5 : seg (encode (.vselMin cv d a k)) 14 5 = a := (seg_off _ k 6 14 5 (by decide)).trans (seg_hit _ a 14 ((seg_off _ d 19 14 5 (by decide)).trans ((seg_off _ cv 31 14 5 (by decide)).trans rfl)) (by decide))
  have h6 : seg (encode (.vselMin cv d a k)) 6 3 = k := seg_hit _ k 6 ((seg_off _ a 14 6 3 (by decide)).trans ((seg_off _ d 19 6 3 (by decide)).trans ((seg_off _ cv 31 6 3 (by decide)).trans rfl))) (by decide)
  exact decode_of (form68 m (by simp [decode68, h1, h2, h3, h4, h5, h6]))
theorem RoundTrip.vselMaxClr (cv : BitVec 1) (d : BitVec 5) (a : BitVec 5) (k : BitVec 3) : RoundTrip.Statement (.vselMaxClr cv d a k) := by
  have m : seg (encode (.vselMaxClr cv d a k)) 24 7 = 104#7 := (seg_off _ k 6 24 7 (by decide)).trans ((seg_off _ a 14 24 7 (by decide)).trans ((seg_off _ d 19 24 7 (by decide)).trans ((seg_off _ cv 31 24 7 (by decide)).trans rfl)))
  have h1 : seg (encode (.vselMaxClr cv d a k)) 0 6 = 2#6 := (seg_off _ k 6 0 6 (by decide)).trans ((seg_off _ a 14 0 6 (by decide)).trans ((seg_off _ d 19 0 6 (by decide)).trans ((seg_off _ cv 31 0 6 (by decide)).trans rfl)))
  have h2 : seg (encode (.vselMaxClr cv d a k)) 9 5 = 0#5 := (seg_off _ k 6 9 5 (by decide)).trans ((seg_off _ a 14 9 5 (by decide)).trans ((seg_off _ d 19 9 5 (by decide)).trans ((seg_off _ cv 31 9 5 (by decide)).trans rfl)))
  have h3 : seg (encode (.vselMaxClr cv d a k)) 31 1 = cv := (seg_off _ k 6 31 1 (by decide)).trans ((seg_off _ a 14 31 1 (by decide)).trans ((seg_off _ d 19 31 1 (by decide)).trans (seg_hit _ cv 31 rfl (by decide))))
  have h4 : seg (encode (.vselMaxClr cv d a k)) 19 5 = d := (seg_off _ k 6 19 5 (by decide)).trans ((seg_off _ a 14 19 5 (by decide)).trans (seg_hit _ d 19 ((seg_off _ cv 31 19 5 (by decide)).trans rfl) (by decide)))
  have h5 : seg (encode (.vselMaxClr cv d a k)) 14 5 = a := (seg_off _ k 6 14 5 (by decide)).trans (seg_hit _ a 14 ((seg_off _ d 19 14 5 (by decide)).trans ((seg_off _ cv 31 14 5 (by decide)).trans rfl)) (by decide))
  have h6 : seg (encode (.vselMaxClr cv d a k)) 6 3 = k := seg_hit _ k 6 ((seg_off _ a 14 6 3 (by decide)).trans ((seg_off _ d 19 6 3 (by decide)).trans ((seg_off _ cv 31 6 3 (by decide)).trans rfl))) (by decide)
  exact decode_of (form68 m (by simp [decode68, h1, h2, h3, h4, h5, h6]))
theorem RoundTrip.vselMinClr (cv : BitVec 1) (d : BitVec 5) (a : BitVec 5) (k : BitVec 3) : RoundTrip.Statement (.vselMinClr cv d a k) := by
  have m : seg (encode (.vselMinClr cv d a k)) 24 7 = 104#7 := (seg_off _ k 6 24 7 (by decide)).trans ((seg_off _ a 14 24 7 (by decide)).trans ((seg_off _ d 19 24 7 (by decide)).trans ((seg_off _ cv 31 24 7 (by decide)).trans rfl)))
  have h1 : seg (encode (.vselMinClr cv d a k)) 0 6 = 3#6 := (seg_off _ k 6 0 6 (by decide)).trans ((seg_off _ a 14 0 6 (by decide)).trans ((seg_off _ d 19 0 6 (by decide)).trans ((seg_off _ cv 31 0 6 (by decide)).trans rfl)))
  have h2 : seg (encode (.vselMinClr cv d a k)) 9 5 = 0#5 := (seg_off _ k 6 9 5 (by decide)).trans ((seg_off _ a 14 9 5 (by decide)).trans ((seg_off _ d 19 9 5 (by decide)).trans ((seg_off _ cv 31 9 5 (by decide)).trans rfl)))
  have h3 : seg (encode (.vselMinClr cv d a k)) 31 1 = cv := (seg_off _ k 6 31 1 (by decide)).trans ((seg_off _ a 14 31 1 (by decide)).trans ((seg_off _ d 19 31 1 (by decide)).trans (seg_hit _ cv 31 rfl (by decide))))
  have h4 : seg (encode (.vselMinClr cv d a k)) 19 5 = d := (seg_off _ k 6 19 5 (by decide)).trans ((seg_off _ a 14 19 5 (by decide)).trans (seg_hit _ d 19 ((seg_off _ cv 31 19 5 (by decide)).trans rfl) (by decide)))
  have h5 : seg (encode (.vselMinClr cv d a k)) 14 5 = a := (seg_off _ k 6 14 5 (by decide)).trans (seg_hit _ a 14 ((seg_off _ d 19 14 5 (by decide)).trans ((seg_off _ cv 31 14 5 (by decide)).trans rfl)) (by decide))
  have h6 : seg (encode (.vselMinClr cv d a k)) 6 3 = k := seg_hit _ k 6 ((seg_off _ a 14 6 3 (by decide)).trans ((seg_off _ d 19 6 3 (by decide)).trans ((seg_off _ cv 31 6 3 (by decide)).trans rfl))) (by decide)
  exact decode_of (form68 m (by simp [decode68, h1, h2, h3, h4, h5, h6]))
theorem RoundTrip.vexitBefore (cv : BitVec 1) (d : BitVec 3) (b : BitVec 3) (k : BitVec 3) : RoundTrip.Statement (.vexitBefore cv d b k) := by
  have m : seg (encode (.vexitBefore cv d b k)) 24 7 = 105#7 := (seg_off _ k 6 24 7 (by decide)).trans ((seg_off _ b 14 24 7 (by decide)).trans ((seg_off _ d 19 24 7 (by decide)).trans ((seg_off _ cv 31 24 7 (by decide)).trans rfl)))
  have h1 : seg (encode (.vexitBefore cv d b k)) 0 6 = 0#6 := (seg_off _ k 6 0 6 (by decide)).trans ((seg_off _ b 14 0 6 (by decide)).trans ((seg_off _ d 19 0 6 (by decide)).trans ((seg_off _ cv 31 0 6 (by decide)).trans rfl)))
  have h2 : seg (encode (.vexitBefore cv d b k)) 9 5 = 0#5 := (seg_off _ k 6 9 5 (by decide)).trans ((seg_off _ b 14 9 5 (by decide)).trans ((seg_off _ d 19 9 5 (by decide)).trans ((seg_off _ cv 31 9 5 (by decide)).trans rfl)))
  have h3 : seg (encode (.vexitBefore cv d b k)) 17 2 = 0#2 := (seg_off _ k 6 17 2 (by decide)).trans ((seg_off _ b 14 17 2 (by decide)).trans ((seg_off _ d 19 17 2 (by decide)).trans ((seg_off _ cv 31 17 2 (by decide)).trans rfl)))
  have h4 : seg (encode (.vexitBefore cv d b k)) 22 2 = 0#2 := (seg_off _ k 6 22 2 (by decide)).trans ((seg_off _ b 14 22 2 (by decide)).trans ((seg_off _ d 19 22 2 (by decide)).trans ((seg_off _ cv 31 22 2 (by decide)).trans rfl)))
  have h5 : seg (encode (.vexitBefore cv d b k)) 31 1 = cv := (seg_off _ k 6 31 1 (by decide)).trans ((seg_off _ b 14 31 1 (by decide)).trans ((seg_off _ d 19 31 1 (by decide)).trans (seg_hit _ cv 31 rfl (by decide))))
  have h6 : seg (encode (.vexitBefore cv d b k)) 19 3 = d := (seg_off _ k 6 19 3 (by decide)).trans ((seg_off _ b 14 19 3 (by decide)).trans (seg_hit _ d 19 ((seg_off _ cv 31 19 3 (by decide)).trans rfl) (by decide)))
  have h7 : seg (encode (.vexitBefore cv d b k)) 14 3 = b := (seg_off _ k 6 14 3 (by decide)).trans (seg_hit _ b 14 ((seg_off _ d 19 14 3 (by decide)).trans ((seg_off _ cv 31 14 3 (by decide)).trans rfl)) (by decide))
  have h8 : seg (encode (.vexitBefore cv d b k)) 6 3 = k := seg_hit _ k 6 ((seg_off _ b 14 6 3 (by decide)).trans ((seg_off _ d 19 6 3 (by decide)).trans ((seg_off _ cv 31 6 3 (by decide)).trans rfl))) (by decide)
  exact decode_of (form69 m (by simp [decode69, h1, h2, h3, h4, h5, h6, h7, h8]))
theorem RoundTrip.vexitIncl (cv : BitVec 1) (d : BitVec 3) (b : BitVec 3) (k : BitVec 3) : RoundTrip.Statement (.vexitIncl cv d b k) := by
  have m : seg (encode (.vexitIncl cv d b k)) 24 7 = 105#7 := (seg_off _ k 6 24 7 (by decide)).trans ((seg_off _ b 14 24 7 (by decide)).trans ((seg_off _ d 19 24 7 (by decide)).trans ((seg_off _ cv 31 24 7 (by decide)).trans rfl)))
  have h1 : seg (encode (.vexitIncl cv d b k)) 0 6 = 1#6 := (seg_off _ k 6 0 6 (by decide)).trans ((seg_off _ b 14 0 6 (by decide)).trans ((seg_off _ d 19 0 6 (by decide)).trans ((seg_off _ cv 31 0 6 (by decide)).trans rfl)))
  have h2 : seg (encode (.vexitIncl cv d b k)) 9 5 = 0#5 := (seg_off _ k 6 9 5 (by decide)).trans ((seg_off _ b 14 9 5 (by decide)).trans ((seg_off _ d 19 9 5 (by decide)).trans ((seg_off _ cv 31 9 5 (by decide)).trans rfl)))
  have h3 : seg (encode (.vexitIncl cv d b k)) 17 2 = 0#2 := (seg_off _ k 6 17 2 (by decide)).trans ((seg_off _ b 14 17 2 (by decide)).trans ((seg_off _ d 19 17 2 (by decide)).trans ((seg_off _ cv 31 17 2 (by decide)).trans rfl)))
  have h4 : seg (encode (.vexitIncl cv d b k)) 22 2 = 0#2 := (seg_off _ k 6 22 2 (by decide)).trans ((seg_off _ b 14 22 2 (by decide)).trans ((seg_off _ d 19 22 2 (by decide)).trans ((seg_off _ cv 31 22 2 (by decide)).trans rfl)))
  have h5 : seg (encode (.vexitIncl cv d b k)) 31 1 = cv := (seg_off _ k 6 31 1 (by decide)).trans ((seg_off _ b 14 31 1 (by decide)).trans ((seg_off _ d 19 31 1 (by decide)).trans (seg_hit _ cv 31 rfl (by decide))))
  have h6 : seg (encode (.vexitIncl cv d b k)) 19 3 = d := (seg_off _ k 6 19 3 (by decide)).trans ((seg_off _ b 14 19 3 (by decide)).trans (seg_hit _ d 19 ((seg_off _ cv 31 19 3 (by decide)).trans rfl) (by decide)))
  have h7 : seg (encode (.vexitIncl cv d b k)) 14 3 = b := (seg_off _ k 6 14 3 (by decide)).trans (seg_hit _ b 14 ((seg_off _ d 19 14 3 (by decide)).trans ((seg_off _ cv 31 14 3 (by decide)).trans rfl)) (by decide))
  have h8 : seg (encode (.vexitIncl cv d b k)) 6 3 = k := seg_hit _ k 6 ((seg_off _ b 14 6 3 (by decide)).trans ((seg_off _ d 19 6 3 (by decide)).trans ((seg_off _ cv 31 6 3 (by decide)).trans rfl))) (by decide)
  exact decode_of (form69 m (by simp [decode69, h1, h2, h3, h4, h5, h6, h7, h8]))
theorem RoundTrip.vexitOnly (cv : BitVec 1) (d : BitVec 3) (b : BitVec 3) (k : BitVec 3) : RoundTrip.Statement (.vexitOnly cv d b k) := by
  have m : seg (encode (.vexitOnly cv d b k)) 24 7 = 105#7 := (seg_off _ k 6 24 7 (by decide)).trans ((seg_off _ b 14 24 7 (by decide)).trans ((seg_off _ d 19 24 7 (by decide)).trans ((seg_off _ cv 31 24 7 (by decide)).trans rfl)))
  have h1 : seg (encode (.vexitOnly cv d b k)) 0 6 = 2#6 := (seg_off _ k 6 0 6 (by decide)).trans ((seg_off _ b 14 0 6 (by decide)).trans ((seg_off _ d 19 0 6 (by decide)).trans ((seg_off _ cv 31 0 6 (by decide)).trans rfl)))
  have h2 : seg (encode (.vexitOnly cv d b k)) 9 5 = 0#5 := (seg_off _ k 6 9 5 (by decide)).trans ((seg_off _ b 14 9 5 (by decide)).trans ((seg_off _ d 19 9 5 (by decide)).trans ((seg_off _ cv 31 9 5 (by decide)).trans rfl)))
  have h3 : seg (encode (.vexitOnly cv d b k)) 17 2 = 0#2 := (seg_off _ k 6 17 2 (by decide)).trans ((seg_off _ b 14 17 2 (by decide)).trans ((seg_off _ d 19 17 2 (by decide)).trans ((seg_off _ cv 31 17 2 (by decide)).trans rfl)))
  have h4 : seg (encode (.vexitOnly cv d b k)) 22 2 = 0#2 := (seg_off _ k 6 22 2 (by decide)).trans ((seg_off _ b 14 22 2 (by decide)).trans ((seg_off _ d 19 22 2 (by decide)).trans ((seg_off _ cv 31 22 2 (by decide)).trans rfl)))
  have h5 : seg (encode (.vexitOnly cv d b k)) 31 1 = cv := (seg_off _ k 6 31 1 (by decide)).trans ((seg_off _ b 14 31 1 (by decide)).trans ((seg_off _ d 19 31 1 (by decide)).trans (seg_hit _ cv 31 rfl (by decide))))
  have h6 : seg (encode (.vexitOnly cv d b k)) 19 3 = d := (seg_off _ k 6 19 3 (by decide)).trans ((seg_off _ b 14 19 3 (by decide)).trans (seg_hit _ d 19 ((seg_off _ cv 31 19 3 (by decide)).trans rfl) (by decide)))
  have h7 : seg (encode (.vexitOnly cv d b k)) 14 3 = b := (seg_off _ k 6 14 3 (by decide)).trans (seg_hit _ b 14 ((seg_off _ d 19 14 3 (by decide)).trans ((seg_off _ cv 31 14 3 (by decide)).trans rfl)) (by decide))
  have h8 : seg (encode (.vexitOnly cv d b k)) 6 3 = k := seg_hit _ k 6 ((seg_off _ b 14 6 3 (by decide)).trans ((seg_off _ d 19 6 3 (by decide)).trans ((seg_off _ cv 31 6 3 (by decide)).trans rfl))) (by decide)
  exact decode_of (form69 m (by simp [decode69, h1, h2, h3, h4, h5, h6, h7, h8]))
theorem RoundTrip.vscanIdx (cv : BitVec 1) (d : BitVec 5) (k : BitVec 3) : RoundTrip.Statement (.vscanIdx cv d k) := by
  have m : seg (encode (.vscanIdx cv d k)) 24 7 = 107#7 := (seg_off _ k 6 24 7 (by decide)).trans ((seg_off _ d 19 24 7 (by decide)).trans ((seg_off _ cv 31 24 7 (by decide)).trans rfl))
  have h1 : seg (encode (.vscanIdx cv d k)) 0 6 = 0#6 := (seg_off _ k 6 0 6 (by decide)).trans ((seg_off _ d 19 0 6 (by decide)).trans ((seg_off _ cv 31 0 6 (by decide)).trans rfl))
  have h2 : seg (encode (.vscanIdx cv d k)) 9 5 = 0#5 := (seg_off _ k 6 9 5 (by decide)).trans ((seg_off _ d 19 9 5 (by decide)).trans ((seg_off _ cv 31 9 5 (by decide)).trans rfl))
  have h3 : seg (encode (.vscanIdx cv d k)) 14 5 = 0#5 := (seg_off _ k 6 14 5 (by decide)).trans ((seg_off _ d 19 14 5 (by decide)).trans ((seg_off _ cv 31 14 5 (by decide)).trans rfl))
  have h4 : seg (encode (.vscanIdx cv d k)) 31 1 = cv := (seg_off _ k 6 31 1 (by decide)).trans ((seg_off _ d 19 31 1 (by decide)).trans (seg_hit _ cv 31 rfl (by decide)))
  have h5 : seg (encode (.vscanIdx cv d k)) 19 5 = d := (seg_off _ k 6 19 5 (by decide)).trans (seg_hit _ d 19 ((seg_off _ cv 31 19 5 (by decide)).trans rfl) (by decide))
  have h6 : seg (encode (.vscanIdx cv d k)) 6 3 = k := seg_hit _ k 6 ((seg_off _ d 19 6 3 (by decide)).trans ((seg_off _ cv 31 6 3 (by decide)).trans rfl)) (by decide)
  exact decode_of (form6B m (by simp [decode6B, h1, h2, h3, h4, h5, h6]))
theorem RoundTrip.vscanAdd (cv : BitVec 1) (d : BitVec 5) (a : BitVec 5) (b : BitVec 5) (k : BitVec 3) : RoundTrip.Statement (.vscanAdd cv d a b k) := by
  have m : seg (encode (.vscanAdd cv d a b k)) 24 7 = 107#7 := (seg_off _ k 6 24 7 (by decide)).trans ((seg_off _ b 9 24 7 (by decide)).trans ((seg_off _ a 14 24 7 (by decide)).trans ((seg_off _ d 19 24 7 (by decide)).trans ((seg_off _ cv 31 24 7 (by decide)).trans rfl))))
  have h1 : seg (encode (.vscanAdd cv d a b k)) 0 6 = 1#6 := (seg_off _ k 6 0 6 (by decide)).trans ((seg_off _ b 9 0 6 (by decide)).trans ((seg_off _ a 14 0 6 (by decide)).trans ((seg_off _ d 19 0 6 (by decide)).trans ((seg_off _ cv 31 0 6 (by decide)).trans rfl))))
  have h2 : seg (encode (.vscanAdd cv d a b k)) 31 1 = cv := (seg_off _ k 6 31 1 (by decide)).trans ((seg_off _ b 9 31 1 (by decide)).trans ((seg_off _ a 14 31 1 (by decide)).trans ((seg_off _ d 19 31 1 (by decide)).trans (seg_hit _ cv 31 rfl (by decide)))))
  have h3 : seg (encode (.vscanAdd cv d a b k)) 19 5 = d := (seg_off _ k 6 19 5 (by decide)).trans ((seg_off _ b 9 19 5 (by decide)).trans ((seg_off _ a 14 19 5 (by decide)).trans (seg_hit _ d 19 ((seg_off _ cv 31 19 5 (by decide)).trans rfl) (by decide))))
  have h4 : seg (encode (.vscanAdd cv d a b k)) 14 5 = a := (seg_off _ k 6 14 5 (by decide)).trans ((seg_off _ b 9 14 5 (by decide)).trans (seg_hit _ a 14 ((seg_off _ d 19 14 5 (by decide)).trans ((seg_off _ cv 31 14 5 (by decide)).trans rfl)) (by decide)))
  have h5 : seg (encode (.vscanAdd cv d a b k)) 9 5 = b := (seg_off _ k 6 9 5 (by decide)).trans (seg_hit _ b 9 ((seg_off _ a 14 9 5 (by decide)).trans ((seg_off _ d 19 9 5 (by decide)).trans ((seg_off _ cv 31 9 5 (by decide)).trans rfl))) (by decide))
  have h6 : seg (encode (.vscanAdd cv d a b k)) 6 3 = k := seg_hit _ k 6 ((seg_off _ b 9 6 3 (by decide)).trans ((seg_off _ a 14 6 3 (by decide)).trans ((seg_off _ d 19 6 3 (by decide)).trans ((seg_off _ cv 31 6 3 (by decide)).trans rfl)))) (by decide)
  exact decode_of (form6B m (by simp [decode6B, h1, h2, h3, h4, h5, h6]))
theorem RoundTrip.vscanAddx (cv : BitVec 1) (d : BitVec 5) (a : BitVec 5) (b : BitVec 5) (k : BitVec 3) : RoundTrip.Statement (.vscanAddx cv d a b k) := by
  have m : seg (encode (.vscanAddx cv d a b k)) 24 7 = 107#7 := (seg_off _ k 6 24 7 (by decide)).trans ((seg_off _ b 9 24 7 (by decide)).trans ((seg_off _ a 14 24 7 (by decide)).trans ((seg_off _ d 19 24 7 (by decide)).trans ((seg_off _ cv 31 24 7 (by decide)).trans rfl))))
  have h1 : seg (encode (.vscanAddx cv d a b k)) 0 6 = 2#6 := (seg_off _ k 6 0 6 (by decide)).trans ((seg_off _ b 9 0 6 (by decide)).trans ((seg_off _ a 14 0 6 (by decide)).trans ((seg_off _ d 19 0 6 (by decide)).trans ((seg_off _ cv 31 0 6 (by decide)).trans rfl))))
  have h2 : seg (encode (.vscanAddx cv d a b k)) 31 1 = cv := (seg_off _ k 6 31 1 (by decide)).trans ((seg_off _ b 9 31 1 (by decide)).trans ((seg_off _ a 14 31 1 (by decide)).trans ((seg_off _ d 19 31 1 (by decide)).trans (seg_hit _ cv 31 rfl (by decide)))))
  have h3 : seg (encode (.vscanAddx cv d a b k)) 19 5 = d := (seg_off _ k 6 19 5 (by decide)).trans ((seg_off _ b 9 19 5 (by decide)).trans ((seg_off _ a 14 19 5 (by decide)).trans (seg_hit _ d 19 ((seg_off _ cv 31 19 5 (by decide)).trans rfl) (by decide))))
  have h4 : seg (encode (.vscanAddx cv d a b k)) 14 5 = a := (seg_off _ k 6 14 5 (by decide)).trans ((seg_off _ b 9 14 5 (by decide)).trans (seg_hit _ a 14 ((seg_off _ d 19 14 5 (by decide)).trans ((seg_off _ cv 31 14 5 (by decide)).trans rfl)) (by decide)))
  have h5 : seg (encode (.vscanAddx cv d a b k)) 9 5 = b := (seg_off _ k 6 9 5 (by decide)).trans (seg_hit _ b 9 ((seg_off _ a 14 9 5 (by decide)).trans ((seg_off _ d 19 9 5 (by decide)).trans ((seg_off _ cv 31 9 5 (by decide)).trans rfl))) (by decide))
  have h6 : seg (encode (.vscanAddx cv d a b k)) 6 3 = k := seg_hit _ k 6 ((seg_off _ b 9 6 3 (by decide)).trans ((seg_off _ a 14 6 3 (by decide)).trans ((seg_off _ d 19 6 3 (by decide)).trans ((seg_off _ cv 31 6 3 (by decide)).trans rfl)))) (by decide)
  exact decode_of (form6B m (by simp [decode6B, h1, h2, h3, h4, h5, h6]))
theorem RoundTrip.vscanMax (cv : BitVec 1) (d : BitVec 5) (a : BitVec 5) (b : BitVec 5) (k : BitVec 3) : RoundTrip.Statement (.vscanMax cv d a b k) := by
  have m : seg (encode (.vscanMax cv d a b k)) 24 7 = 107#7 := (seg_off _ k 6 24 7 (by decide)).trans ((seg_off _ b 9 24 7 (by decide)).trans ((seg_off _ a 14 24 7 (by decide)).trans ((seg_off _ d 19 24 7 (by decide)).trans ((seg_off _ cv 31 24 7 (by decide)).trans rfl))))
  have h1 : seg (encode (.vscanMax cv d a b k)) 0 6 = 3#6 := (seg_off _ k 6 0 6 (by decide)).trans ((seg_off _ b 9 0 6 (by decide)).trans ((seg_off _ a 14 0 6 (by decide)).trans ((seg_off _ d 19 0 6 (by decide)).trans ((seg_off _ cv 31 0 6 (by decide)).trans rfl))))
  have h2 : seg (encode (.vscanMax cv d a b k)) 31 1 = cv := (seg_off _ k 6 31 1 (by decide)).trans ((seg_off _ b 9 31 1 (by decide)).trans ((seg_off _ a 14 31 1 (by decide)).trans ((seg_off _ d 19 31 1 (by decide)).trans (seg_hit _ cv 31 rfl (by decide)))))
  have h3 : seg (encode (.vscanMax cv d a b k)) 19 5 = d := (seg_off _ k 6 19 5 (by decide)).trans ((seg_off _ b 9 19 5 (by decide)).trans ((seg_off _ a 14 19 5 (by decide)).trans (seg_hit _ d 19 ((seg_off _ cv 31 19 5 (by decide)).trans rfl) (by decide))))
  have h4 : seg (encode (.vscanMax cv d a b k)) 14 5 = a := (seg_off _ k 6 14 5 (by decide)).trans ((seg_off _ b 9 14 5 (by decide)).trans (seg_hit _ a 14 ((seg_off _ d 19 14 5 (by decide)).trans ((seg_off _ cv 31 14 5 (by decide)).trans rfl)) (by decide)))
  have h5 : seg (encode (.vscanMax cv d a b k)) 9 5 = b := (seg_off _ k 6 9 5 (by decide)).trans (seg_hit _ b 9 ((seg_off _ a 14 9 5 (by decide)).trans ((seg_off _ d 19 9 5 (by decide)).trans ((seg_off _ cv 31 9 5 (by decide)).trans rfl))) (by decide))
  have h6 : seg (encode (.vscanMax cv d a b k)) 6 3 = k := seg_hit _ k 6 ((seg_off _ b 9 6 3 (by decide)).trans ((seg_off _ a 14 6 3 (by decide)).trans ((seg_off _ d 19 6 3 (by decide)).trans ((seg_off _ cv 31 6 3 (by decide)).trans rfl)))) (by decide)
  exact decode_of (form6B m (by simp [decode6B, h1, h2, h3, h4, h5, h6]))
theorem RoundTrip.vscanMaxu (cv : BitVec 1) (d : BitVec 5) (a : BitVec 5) (b : BitVec 5) (k : BitVec 3) : RoundTrip.Statement (.vscanMaxu cv d a b k) := by
  have m : seg (encode (.vscanMaxu cv d a b k)) 24 7 = 107#7 := (seg_off _ k 6 24 7 (by decide)).trans ((seg_off _ b 9 24 7 (by decide)).trans ((seg_off _ a 14 24 7 (by decide)).trans ((seg_off _ d 19 24 7 (by decide)).trans ((seg_off _ cv 31 24 7 (by decide)).trans rfl))))
  have h1 : seg (encode (.vscanMaxu cv d a b k)) 0 6 = 4#6 := (seg_off _ k 6 0 6 (by decide)).trans ((seg_off _ b 9 0 6 (by decide)).trans ((seg_off _ a 14 0 6 (by decide)).trans ((seg_off _ d 19 0 6 (by decide)).trans ((seg_off _ cv 31 0 6 (by decide)).trans rfl))))
  have h2 : seg (encode (.vscanMaxu cv d a b k)) 31 1 = cv := (seg_off _ k 6 31 1 (by decide)).trans ((seg_off _ b 9 31 1 (by decide)).trans ((seg_off _ a 14 31 1 (by decide)).trans ((seg_off _ d 19 31 1 (by decide)).trans (seg_hit _ cv 31 rfl (by decide)))))
  have h3 : seg (encode (.vscanMaxu cv d a b k)) 19 5 = d := (seg_off _ k 6 19 5 (by decide)).trans ((seg_off _ b 9 19 5 (by decide)).trans ((seg_off _ a 14 19 5 (by decide)).trans (seg_hit _ d 19 ((seg_off _ cv 31 19 5 (by decide)).trans rfl) (by decide))))
  have h4 : seg (encode (.vscanMaxu cv d a b k)) 14 5 = a := (seg_off _ k 6 14 5 (by decide)).trans ((seg_off _ b 9 14 5 (by decide)).trans (seg_hit _ a 14 ((seg_off _ d 19 14 5 (by decide)).trans ((seg_off _ cv 31 14 5 (by decide)).trans rfl)) (by decide)))
  have h5 : seg (encode (.vscanMaxu cv d a b k)) 9 5 = b := (seg_off _ k 6 9 5 (by decide)).trans (seg_hit _ b 9 ((seg_off _ a 14 9 5 (by decide)).trans ((seg_off _ d 19 9 5 (by decide)).trans ((seg_off _ cv 31 9 5 (by decide)).trans rfl))) (by decide))
  have h6 : seg (encode (.vscanMaxu cv d a b k)) 6 3 = k := seg_hit _ k 6 ((seg_off _ b 9 6 3 (by decide)).trans ((seg_off _ a 14 6 3 (by decide)).trans ((seg_off _ d 19 6 3 (by decide)).trans ((seg_off _ cv 31 6 3 (by decide)).trans rfl)))) (by decide)
  exact decode_of (form6B m (by simp [decode6B, h1, h2, h3, h4, h5, h6]))
theorem RoundTrip.ltsplit (m : BitVec 3) : RoundTrip.Statement (.ltsplit m) := by
  have m' : seg (encode (.ltsplit m)) 24 7 = 106#7 := (seg_off _ m 12 24 7 (by decide)).trans rfl
  have h1 : seg (encode (.ltsplit m)) 0 12 = 0#12 := (seg_off _ m 12 0 12 (by decide)).trans rfl
  have h2 : seg (encode (.ltsplit m)) 15 3 = 0#3 := (seg_off _ m 12 15 3 (by decide)).trans rfl
  have h3 : seg (encode (.ltsplit m)) 18 6 = 0#6 := (seg_off _ m 12 18 6 (by decide)).trans rfl
  have h4 : seg (encode (.ltsplit m)) 31 1 = 0#1 := (seg_off _ m 12 31 1 (by decide)).trans rfl
  have h5 : seg (encode (.ltsplit m)) 12 3 = m := seg_hit _ m 12 rfl (by decide)
  exact decode_of (form6A m' (by simp [decode6A, h1, h2, h3, h4, h5]))
theorem RoundTrip.ltjoin : RoundTrip.Statement (.ltjoin) := by
  have m : seg (encode (.ltjoin)) 24 7 = 106#7 := rfl
  have h1 : seg (encode (.ltjoin)) 0 12 = 1#12 := rfl
  have h2 : seg (encode (.ltjoin)) 12 3 = 0#3 := rfl
  have h3 : seg (encode (.ltjoin)) 15 3 = 0#3 := rfl
  have h4 : seg (encode (.ltjoin)) 18 6 = 0#6 := rfl
  have h5 : seg (encode (.ltjoin)) 31 1 = 0#1 := rfl
  exact decode_of (form6A m (by simp [decode6A, h1, h2, h3, h4, h5]))
theorem RoundTrip.ltyield : RoundTrip.Statement (.ltyield) := by
  have m : seg (encode (.ltyield)) 24 7 = 106#7 := rfl
  have h1 : seg (encode (.ltyield)) 0 12 = 2#12 := rfl
  have h2 : seg (encode (.ltyield)) 12 3 = 0#3 := rfl
  have h3 : seg (encode (.ltyield)) 15 3 = 0#3 := rfl
  have h4 : seg (encode (.ltyield)) 18 6 = 0#6 := rfl
  have h5 : seg (encode (.ltyield)) 31 1 = 0#1 := rfl
  exact decode_of (form6A m (by simp [decode6A, h1, h2, h3, h4, h5]))
theorem RoundTrip.ltid (d : BitVec 6) : RoundTrip.Statement (.ltid d) := by
  have m : seg (encode (.ltid d)) 24 7 = 106#7 := (seg_off _ d 18 24 7 (by decide)).trans rfl
  have h1 : seg (encode (.ltid d)) 0 12 = 3#12 := (seg_off _ d 18 0 12 (by decide)).trans rfl
  have h2 : seg (encode (.ltid d)) 12 3 = 0#3 := (seg_off _ d 18 12 3 (by decide)).trans rfl
  have h3 : seg (encode (.ltid d)) 15 3 = 0#3 := (seg_off _ d 18 15 3 (by decide)).trans rfl
  have h4 : seg (encode (.ltid d)) 31 1 = 0#1 := (seg_off _ d 18 31 1 (by decide)).trans rfl
  have h5 : seg (encode (.ltid d)) 18 6 = d := seg_hit _ d 18 rfl (by decide)
  exact decode_of (form6A m (by simp [decode6A, h1, h2, h3, h4, h5]))
theorem RoundTrip.splitRegionJoin (a0 : BitVec 11) : RoundTrip.Statement (.splitRegionJoin a0) := nofun
theorem RoundTrip.mshape (cv : BitVec 1) (a : BitVec 6) : RoundTrip.Statement (.mshape cv a) := by
  have m : seg (encode (.mshape cv a)) 24 7 = 80#7 := (seg_off _ a 12 24 7 (by decide)).trans ((seg_off _ cv 31 24 7 (by decide)).trans rfl)
  have h1 : seg (encode (.mshape cv a)) 0 12 = 0#12 := (seg_off _ a 12 0 12 (by decide)).trans ((seg_off _ cv 31 0 12 (by decide)).trans rfl)
  have h2 : seg (encode (.mshape cv a)) 18 6 = 0#6 := (seg_off _ a 12 18 6 (by decide)).trans ((seg_off _ cv 31 18 6 (by decide)).trans rfl)
  have h3 : seg (encode (.mshape cv a)) 31 1 = cv := (seg_off _ a 12 31 1 (by decide)).trans (seg_hit _ cv 31 rfl (by decide))
  have h4 : seg (encode (.mshape cv a)) 12 6 = a := seg_hit _ a 12 ((seg_off _ cv 31 12 6 (by decide)).trans rfl) (by decide)
  exact decode_of (form50 m (by simp [decode50, h1, h2, h3, h4]))
theorem RoundTrip.mmaSet (cv : BitVec 1) (x : BitVec 3) (a : BitVec 8) (b : BitVec 8) : RoundTrip.Statement (.mmaSet cv x a b) := by
  have m : seg (encode (.mmaSet cv x a b)) 24 7 = 81#7 := (seg_off _ b 5 24 7 (by decide)).trans ((seg_off _ a 13 24 7 (by decide)).trans ((seg_off _ x 21 24 7 (by decide)).trans ((seg_off _ cv 31 24 7 (by decide)).trans rfl)))
  have h1 : seg (encode (.mmaSet cv x a b)) 0 5 = 0#5 := (seg_off _ b 5 0 5 (by decide)).trans ((seg_off _ a 13 0 5 (by decide)).trans ((seg_off _ x 21 0 5 (by decide)).trans ((seg_off _ cv 31 0 5 (by decide)).trans rfl)))
  have h2 : seg (encode (.mmaSet cv x a b)) 31 1 = cv := (seg_off _ b 5 31 1 (by decide)).trans ((seg_off _ a 13 31 1 (by decide)).trans ((seg_off _ x 21 31 1 (by decide)).trans (seg_hit _ cv 31 rfl (by decide))))
  have h3 : seg (encode (.mmaSet cv x a b)) 21 3 = x := (seg_off _ b 5 21 3 (by decide)).trans ((seg_off _ a 13 21 3 (by decide)).trans (seg_hit _ x 21 ((seg_off _ cv 31 21 3 (by decide)).trans rfl) (by decide)))
  have h4 : seg (encode (.mmaSet cv x a b)) 13 8 = a := (seg_off _ b 5 13 8 (by decide)).trans (seg_hit _ a 13 ((seg_off _ x 21 13 8 (by decide)).trans ((seg_off _ cv 31 13 8 (by decide)).trans rfl)) (by decide))
  have h5 : seg (encode (.mmaSet cv x a b)) 5 8 = b := seg_hit _ b 5 ((seg_off _ a 13 5 8 (by decide)).trans ((seg_off _ x 21 5 8 (by decide)).trans ((seg_off _ cv 31 5 8 (by decide)).trans rfl))) (by decide)
  exact decode_of (form51 m (by simp [decode51, h1, h2, h3, h4, h5]))
theorem RoundTrip.mmaAcc (cv : BitVec 1) (x : BitVec 3) (a : BitVec 8) (b : BitVec 8) : RoundTrip.Statement (.mmaAcc cv x a b) := by
  have m : seg (encode (.mmaAcc cv x a b)) 24 7 = 81#7 := (seg_off _ b 5 24 7 (by decide)).trans ((seg_off _ a 13 24 7 (by decide)).trans ((seg_off _ x 21 24 7 (by decide)).trans ((seg_off _ cv 31 24 7 (by decide)).trans rfl)))
  have h1 : seg (encode (.mmaAcc cv x a b)) 0 5 = 1#5 := (seg_off _ b 5 0 5 (by decide)).trans ((seg_off _ a 13 0 5 (by decide)).trans ((seg_off _ x 21 0 5 (by decide)).trans ((seg_off _ cv 31 0 5 (by decide)).trans rfl)))
  have h2 : seg (encode (.mmaAcc cv x a b)) 31 1 = cv := (seg_off _ b 5 31 1 (by decide)).trans ((seg_off _ a 13 31 1 (by decide)).trans ((seg_off _ x 21 31 1 (by decide)).trans (seg_hit _ cv 31 rfl (by decide))))
  have h3 : seg (encode (.mmaAcc cv x a b)) 21 3 = x := (seg_off _ b 5 21 3 (by decide)).trans ((seg_off _ a 13 21 3 (by decide)).trans (seg_hit _ x 21 ((seg_off _ cv 31 21 3 (by decide)).trans rfl) (by decide)))
  have h4 : seg (encode (.mmaAcc cv x a b)) 13 8 = a := (seg_off _ b 5 13 8 (by decide)).trans (seg_hit _ a 13 ((seg_off _ x 21 13 8 (by decide)).trans ((seg_off _ cv 31 13 8 (by decide)).trans rfl)) (by decide))
  have h5 : seg (encode (.mmaAcc cv x a b)) 5 8 = b := seg_hit _ b 5 ((seg_off _ a 13 5 8 (by decide)).trans ((seg_off _ x 21 5 8 (by decide)).trans ((seg_off _ cv 31 5 8 (by decide)).trans rfl))) (by decide)
  exact decode_of (form51 m (by simp [decode51, h1, h2, h3, h4, h5]))
theorem RoundTrip.mmaSetSp (cv : BitVec 1) (x : BitVec 3) (a : BitVec 8) (b : BitVec 8) : RoundTrip.Statement (.mmaSetSp cv x a b) := by
  have m : seg (encode (.mmaSetSp cv x a b)) 24 7 = 81#7 := (seg_off _ b 5 24 7 (by decide)).trans ((seg_off _ a 13 24 7 (by decide)).trans ((seg_off _ x 21 24 7 (by decide)).trans ((seg_off _ cv 31 24 7 (by decide)).trans rfl)))
  have h1 : seg (encode (.mmaSetSp cv x a b)) 0 5 = 2#5 := (seg_off _ b 5 0 5 (by decide)).trans ((seg_off _ a 13 0 5 (by decide)).trans ((seg_off _ x 21 0 5 (by decide)).trans ((seg_off _ cv 31 0 5 (by decide)).trans rfl)))
  have h2 : seg (encode (.mmaSetSp cv x a b)) 31 1 = cv := (seg_off _ b 5 31 1 (by decide)).trans ((seg_off _ a 13 31 1 (by decide)).trans ((seg_off _ x 21 31 1 (by decide)).trans (seg_hit _ cv 31 rfl (by decide))))
  have h3 : seg (encode (.mmaSetSp cv x a b)) 21 3 = x := (seg_off _ b 5 21 3 (by decide)).trans ((seg_off _ a 13 21 3 (by decide)).trans (seg_hit _ x 21 ((seg_off _ cv 31 21 3 (by decide)).trans rfl) (by decide)))
  have h4 : seg (encode (.mmaSetSp cv x a b)) 13 8 = a := (seg_off _ b 5 13 8 (by decide)).trans (seg_hit _ a 13 ((seg_off _ x 21 13 8 (by decide)).trans ((seg_off _ cv 31 13 8 (by decide)).trans rfl)) (by decide))
  have h5 : seg (encode (.mmaSetSp cv x a b)) 5 8 = b := seg_hit _ b 5 ((seg_off _ a 13 5 8 (by decide)).trans ((seg_off _ x 21 5 8 (by decide)).trans ((seg_off _ cv 31 5 8 (by decide)).trans rfl))) (by decide)
  exact decode_of (form51 m (by simp [decode51, h1, h2, h3, h4, h5]))
theorem RoundTrip.mmaAccSp (cv : BitVec 1) (x : BitVec 3) (a : BitVec 8) (b : BitVec 8) : RoundTrip.Statement (.mmaAccSp cv x a b) := by
  have m : seg (encode (.mmaAccSp cv x a b)) 24 7 = 81#7 := (seg_off _ b 5 24 7 (by decide)).trans ((seg_off _ a 13 24 7 (by decide)).trans ((seg_off _ x 21 24 7 (by decide)).trans ((seg_off _ cv 31 24 7 (by decide)).trans rfl)))
  have h1 : seg (encode (.mmaAccSp cv x a b)) 0 5 = 3#5 := (seg_off _ b 5 0 5 (by decide)).trans ((seg_off _ a 13 0 5 (by decide)).trans ((seg_off _ x 21 0 5 (by decide)).trans ((seg_off _ cv 31 0 5 (by decide)).trans rfl)))
  have h2 : seg (encode (.mmaAccSp cv x a b)) 31 1 = cv := (seg_off _ b 5 31 1 (by decide)).trans ((seg_off _ a 13 31 1 (by decide)).trans ((seg_off _ x 21 31 1 (by decide)).trans (seg_hit _ cv 31 rfl (by decide))))
  have h3 : seg (encode (.mmaAccSp cv x a b)) 21 3 = x := (seg_off _ b 5 21 3 (by decide)).trans ((seg_off _ a 13 21 3 (by decide)).trans (seg_hit _ x 21 ((seg_off _ cv 31 21 3 (by decide)).trans rfl) (by decide)))
  have h4 : seg (encode (.mmaAccSp cv x a b)) 13 8 = a := (seg_off _ b 5 13 8 (by decide)).trans (seg_hit _ a 13 ((seg_off _ x 21 13 8 (by decide)).trans ((seg_off _ cv 31 13 8 (by decide)).trans rfl)) (by decide))
  have h5 : seg (encode (.mmaAccSp cv x a b)) 5 8 = b := seg_hit _ b 5 ((seg_off _ a 13 5 8 (by decide)).trans ((seg_off _ x 21 5 8 (by decide)).trans ((seg_off _ cv 31 5 8 (by decide)).trans rfl))) (by decide)
  exact decode_of (form51 m (by simp [decode51, h1, h2, h3, h4, h5]))
theorem RoundTrip.mmaSetGrp (cv : BitVec 1) (x : BitVec 3) (a : BitVec 8) (b : BitVec 8) : RoundTrip.Statement (.mmaSetGrp cv x a b) := by
  have m : seg (encode (.mmaSetGrp cv x a b)) 24 7 = 81#7 := (seg_off _ b 5 24 7 (by decide)).trans ((seg_off _ a 13 24 7 (by decide)).trans ((seg_off _ x 21 24 7 (by decide)).trans ((seg_off _ cv 31 24 7 (by decide)).trans rfl)))
  have h1 : seg (encode (.mmaSetGrp cv x a b)) 0 5 = 4#5 := (seg_off _ b 5 0 5 (by decide)).trans ((seg_off _ a 13 0 5 (by decide)).trans ((seg_off _ x 21 0 5 (by decide)).trans ((seg_off _ cv 31 0 5 (by decide)).trans rfl)))
  have h2 : seg (encode (.mmaSetGrp cv x a b)) 31 1 = cv := (seg_off _ b 5 31 1 (by decide)).trans ((seg_off _ a 13 31 1 (by decide)).trans ((seg_off _ x 21 31 1 (by decide)).trans (seg_hit _ cv 31 rfl (by decide))))
  have h3 : seg (encode (.mmaSetGrp cv x a b)) 21 3 = x := (seg_off _ b 5 21 3 (by decide)).trans ((seg_off _ a 13 21 3 (by decide)).trans (seg_hit _ x 21 ((seg_off _ cv 31 21 3 (by decide)).trans rfl) (by decide)))
  have h4 : seg (encode (.mmaSetGrp cv x a b)) 13 8 = a := (seg_off _ b 5 13 8 (by decide)).trans (seg_hit _ a 13 ((seg_off _ x 21 13 8 (by decide)).trans ((seg_off _ cv 31 13 8 (by decide)).trans rfl)) (by decide))
  have h5 : seg (encode (.mmaSetGrp cv x a b)) 5 8 = b := seg_hit _ b 5 ((seg_off _ a 13 5 8 (by decide)).trans ((seg_off _ x 21 5 8 (by decide)).trans ((seg_off _ cv 31 5 8 (by decide)).trans rfl))) (by decide)
  exact decode_of (form51 m (by simp [decode51, h1, h2, h3, h4, h5]))
theorem RoundTrip.mmaAccGrp (cv : BitVec 1) (x : BitVec 3) (a : BitVec 8) (b : BitVec 8) : RoundTrip.Statement (.mmaAccGrp cv x a b) := by
  have m : seg (encode (.mmaAccGrp cv x a b)) 24 7 = 81#7 := (seg_off _ b 5 24 7 (by decide)).trans ((seg_off _ a 13 24 7 (by decide)).trans ((seg_off _ x 21 24 7 (by decide)).trans ((seg_off _ cv 31 24 7 (by decide)).trans rfl)))
  have h1 : seg (encode (.mmaAccGrp cv x a b)) 0 5 = 5#5 := (seg_off _ b 5 0 5 (by decide)).trans ((seg_off _ a 13 0 5 (by decide)).trans ((seg_off _ x 21 0 5 (by decide)).trans ((seg_off _ cv 31 0 5 (by decide)).trans rfl)))
  have h2 : seg (encode (.mmaAccGrp cv x a b)) 31 1 = cv := (seg_off _ b 5 31 1 (by decide)).trans ((seg_off _ a 13 31 1 (by decide)).trans ((seg_off _ x 21 31 1 (by decide)).trans (seg_hit _ cv 31 rfl (by decide))))
  have h3 : seg (encode (.mmaAccGrp cv x a b)) 21 3 = x := (seg_off _ b 5 21 3 (by decide)).trans ((seg_off _ a 13 21 3 (by decide)).trans (seg_hit _ x 21 ((seg_off _ cv 31 21 3 (by decide)).trans rfl) (by decide)))
  have h4 : seg (encode (.mmaAccGrp cv x a b)) 13 8 = a := (seg_off _ b 5 13 8 (by decide)).trans (seg_hit _ a 13 ((seg_off _ x 21 13 8 (by decide)).trans ((seg_off _ cv 31 13 8 (by decide)).trans rfl)) (by decide))
  have h5 : seg (encode (.mmaAccGrp cv x a b)) 5 8 = b := seg_hit _ b 5 ((seg_off _ a 13 5 8 (by decide)).trans ((seg_off _ x 21 5 8 (by decide)).trans ((seg_off _ cv 31 5 8 (by decide)).trans rfl))) (by decide)
  exact decode_of (form51 m (by simp [decode51, h1, h2, h3, h4, h5]))
theorem RoundTrip.mmagSet (cv : BitVec 1) (x : BitVec 3) (a : BitVec 8) (b : BitVec 8) : RoundTrip.Statement (.mmagSet cv x a b) := by
  have m : seg (encode (.mmagSet cv x a b)) 24 7 = 82#7 := (seg_off _ b 5 24 7 (by decide)).trans ((seg_off _ a 13 24 7 (by decide)).trans ((seg_off _ x 21 24 7 (by decide)).trans ((seg_off _ cv 31 24 7 (by decide)).trans rfl)))
  have h1 : seg (encode (.mmagSet cv x a b)) 0 5 = 0#5 := (seg_off _ b 5 0 5 (by decide)).trans ((seg_off _ a 13 0 5 (by decide)).trans ((seg_off _ x 21 0 5 (by decide)).trans ((seg_off _ cv 31 0 5 (by decide)).trans rfl)))
  have h2 : seg (encode (.mmagSet cv x a b)) 31 1 = cv := (seg_off _ b 5 31 1 (by decide)).trans ((seg_off _ a 13 31 1 (by decide)).trans ((seg_off _ x 21 31 1 (by decide)).trans (seg_hit _ cv 31 rfl (by decide))))
  have h3 : seg (encode (.mmagSet cv x a b)) 21 3 = x := (seg_off _ b 5 21 3 (by decide)).trans ((seg_off _ a 13 21 3 (by decide)).trans (seg_hit _ x 21 ((seg_off _ cv 31 21 3 (by decide)).trans rfl) (by decide)))
  have h4 : seg (encode (.mmagSet cv x a b)) 13 8 = a := (seg_off _ b 5 13 8 (by decide)).trans (seg_hit _ a 13 ((seg_off _ x 21 13 8 (by decide)).trans ((seg_off _ cv 31 13 8 (by decide)).trans rfl)) (by decide))
  have h5 : seg (encode (.mmagSet cv x a b)) 5 8 = b := seg_hit _ b 5 ((seg_off _ a 13 5 8 (by decide)).trans ((seg_off _ x 21 5 8 (by decide)).trans ((seg_off _ cv 31 5 8 (by decide)).trans rfl))) (by decide)
  exact decode_of (form52 m (by simp [decode52, h1, h2, h3, h4, h5]))
theorem RoundTrip.mmagAcc (cv : BitVec 1) (x : BitVec 3) (a : BitVec 8) (b : BitVec 8) : RoundTrip.Statement (.mmagAcc cv x a b) := by
  have m : seg (encode (.mmagAcc cv x a b)) 24 7 = 82#7 := (seg_off _ b 5 24 7 (by decide)).trans ((seg_off _ a 13 24 7 (by decide)).trans ((seg_off _ x 21 24 7 (by decide)).trans ((seg_off _ cv 31 24 7 (by decide)).trans rfl)))
  have h1 : seg (encode (.mmagAcc cv x a b)) 0 5 = 1#5 := (seg_off _ b 5 0 5 (by decide)).trans ((seg_off _ a 13 0 5 (by decide)).trans ((seg_off _ x 21 0 5 (by decide)).trans ((seg_off _ cv 31 0 5 (by decide)).trans rfl)))
  have h2 : seg (encode (.mmagAcc cv x a b)) 31 1 = cv := (seg_off _ b 5 31 1 (by decide)).trans ((seg_off _ a 13 31 1 (by decide)).trans ((seg_off _ x 21 31 1 (by decide)).trans (seg_hit _ cv 31 rfl (by decide))))
  have h3 : seg (encode (.mmagAcc cv x a b)) 21 3 = x := (seg_off _ b 5 21 3 (by decide)).trans ((seg_off _ a 13 21 3 (by decide)).trans (seg_hit _ x 21 ((seg_off _ cv 31 21 3 (by decide)).trans rfl) (by decide)))
  have h4 : seg (encode (.mmagAcc cv x a b)) 13 8 = a := (seg_off _ b 5 13 8 (by decide)).trans (seg_hit _ a 13 ((seg_off _ x 21 13 8 (by decide)).trans ((seg_off _ cv 31 13 8 (by decide)).trans rfl)) (by decide))
  have h5 : seg (encode (.mmagAcc cv x a b)) 5 8 = b := seg_hit _ b 5 ((seg_off _ a 13 5 8 (by decide)).trans ((seg_off _ x 21 5 8 (by decide)).trans ((seg_off _ cv 31 5 8 (by decide)).trans rfl))) (by decide)
  exact decode_of (form52 m (by simp [decode52, h1, h2, h3, h4, h5]))
theorem RoundTrip.mmetaMeta (cv : BitVec 1) (sf : BitVec 3) (v : BitVec 5) : RoundTrip.Statement (.mmetaMeta cv sf v) := by
  have m : seg (encode (.mmetaMeta cv sf v)) 24 7 = 83#7 := (seg_off _ v 13 24 7 (by decide)).trans ((seg_off _ sf 21 24 7 (by decide)).trans ((seg_off _ cv 31 24 7 (by decide)).trans rfl))
  have h1 : seg (encode (.mmetaMeta cv sf v)) 0 13 = 0#13 := (seg_off _ v 13 0 13 (by decide)).trans ((seg_off _ sf 21 0 13 (by decide)).trans ((seg_off _ cv 31 0 13 (by decide)).trans rfl))
  have h2 : seg (encode (.mmetaMeta cv sf v)) 18 3 = 0#3 := (seg_off _ v 13 18 3 (by decide)).trans ((seg_off _ sf 21 18 3 (by decide)).trans ((seg_off _ cv 31 18 3 (by decide)).trans rfl))
  have h3 : seg (encode (.mmetaMeta cv sf v)) 31 1 = cv := (seg_off _ v 13 31 1 (by decide)).trans ((seg_off _ sf 21 31 1 (by decide)).trans (seg_hit _ cv 31 rfl (by decide)))
  have h4 : seg (encode (.mmetaMeta cv sf v)) 21 3 = sf := (seg_off _ v 13 21 3 (by decide)).trans (seg_hit _ sf 21 ((seg_off _ cv 31 21 3 (by decide)).trans rfl) (by decide))
  have h5 : seg (encode (.mmetaMeta cv sf v)) 13 5 = v := seg_hit _ v 13 ((seg_off _ sf 21 13 5 (by decide)).trans ((seg_off _ cv 31 13 5 (by decide)).trans rfl)) (by decide)
  exact decode_of (form53 m (by simp [decode53, h1, h2, h3, h4, h5]))
theorem RoundTrip.mmetaIdx (cv : BitVec 1) (v : BitVec 5) : RoundTrip.Statement (.mmetaIdx cv v) := by
  have m : seg (encode (.mmetaIdx cv v)) 24 7 = 83#7 := (seg_off _ v 13 24 7 (by decide)).trans ((seg_off _ cv 31 24 7 (by decide)).trans rfl)
  have h1 : seg (encode (.mmetaIdx cv v)) 0 13 = 1#13 := (seg_off _ v 13 0 13 (by decide)).trans ((seg_off _ cv 31 0 13 (by decide)).trans rfl)
  have h2 : seg (encode (.mmetaIdx cv v)) 18 3 = 0#3 := (seg_off _ v 13 18 3 (by decide)).trans ((seg_off _ cv 31 18 3 (by decide)).trans rfl)
  have h3 : seg (encode (.mmetaIdx cv v)) 21 3 = 0#3 := (seg_off _ v 13 21 3 (by decide)).trans ((seg_off _ cv 31 21 3 (by decide)).trans rfl)
  have h4 : seg (encode (.mmetaIdx cv v)) 31 1 = cv := (seg_off _ v 13 31 1 (by decide)).trans (seg_hit _ cv 31 rfl (by decide))
  have h5 : seg (encode (.mmetaIdx cv v)) 13 5 = v := seg_hit _ v 13 ((seg_off _ cv 31 13 5 (by decide)).trans rfl) (by decide)
  exact decode_of (form53 m (by simp [decode53, h1, h2, h3, h4, h5]))
theorem RoundTrip.mmetaRows (cv : BitVec 1) (v : BitVec 5) : RoundTrip.Statement (.mmetaRows cv v) := by
  have m : seg (encode (.mmetaRows cv v)) 24 7 = 83#7 := (seg_off _ v 13 24 7 (by decide)).trans ((seg_off _ cv 31 24 7 (by decide)).trans rfl)
  have h1 : seg (encode (.mmetaRows cv v)) 0 13 = 2#13 := (seg_off _ v 13 0 13 (by decide)).trans ((seg_off _ cv 31 0 13 (by decide)).trans rfl)
  have h2 : seg (encode (.mmetaRows cv v)) 18 3 = 0#3 := (seg_off _ v 13 18 3 (by decide)).trans ((seg_off _ cv 31 18 3 (by decide)).trans rfl)
  have h3 : seg (encode (.mmetaRows cv v)) 21 3 = 0#3 := (seg_off _ v 13 21 3 (by decide)).trans ((seg_off _ cv 31 21 3 (by decide)).trans rfl)
  have h4 : seg (encode (.mmetaRows cv v)) 31 1 = cv := (seg_off _ v 13 31 1 (by decide)).trans (seg_hit _ cv 31 rfl (by decide))
  have h5 : seg (encode (.mmetaRows cv v)) 13 5 = v := seg_hit _ v 13 ((seg_off _ cv 31 13 5 (by decide)).trans rfl) (by decide)
  exact decode_of (form53 m (by simp [decode53, h1, h2, h3, h4, h5]))
theorem RoundTrip.mtileZero (cv : BitVec 1) (x : BitVec 3) : RoundTrip.Statement (.mtileZero cv x) := by
  have m : seg (encode (.mtileZero cv x)) 24 7 = 84#7 := (seg_off _ x 21 24 7 (by decide)).trans ((seg_off _ cv 31 24 7 (by decide)).trans rfl)
  have h1 : seg (encode (.mtileZero cv x)) 0 13 = 0#13 := (seg_off _ x 21 0 13 (by decide)).trans ((seg_off _ cv 31 0 13 (by decide)).trans rfl)
  have h2 : seg (encode (.mtileZero cv x)) 13 8 = 0#8 := (seg_off _ x 21 13 8 (by decide)).trans ((seg_off _ cv 31 13 8 (by decide)).trans rfl)
  have h3 : seg (encode (.mtileZero cv x)) 31 1 = cv := (seg_off _ x 21 31 1 (by decide)).trans (seg_hit _ cv 31 rfl (by decide))
  have h4 : seg (encode (.mtileZero cv x)) 21 3 = x := seg_hit _ x 21 ((seg_off _ cv 31 21 3 (by decide)).trans rfl) (by decide)
  exact decode_of (form54 m (by simp [decode54, h1, h2, h3, h4]))
theorem RoundTrip.mtileLd (cv : BitVec 1) (x : BitVec 3) (p : BitVec 8) : RoundTrip.Statement (.mtileLd cv x p) := by
  have m : seg (encode (.mtileLd cv x p)) 24 7 = 84#7 := (seg_off _ p 13 24 7 (by decide)).trans ((seg_off _ x 21 24 7 (by decide)).trans ((seg_off _ cv 31 24 7 (by decide)).trans rfl))
  have h1 : seg (encode (.mtileLd cv x p)) 0 13 = 1#13 := (seg_off _ p 13 0 13 (by decide)).trans ((seg_off _ x 21 0 13 (by decide)).trans ((seg_off _ cv 31 0 13 (by decide)).trans rfl))
  have h2 : seg (encode (.mtileLd cv x p)) 31 1 = cv := (seg_off _ p 13 31 1 (by decide)).trans ((seg_off _ x 21 31 1 (by decide)).trans (seg_hit _ cv 31 rfl (by decide)))
  have h3 : seg (encode (.mtileLd cv x p)) 21 3 = x := (seg_off _ p 13 21 3 (by decide)).trans (seg_hit _ x 21 ((seg_off _ cv 31 21 3 (by decide)).trans rfl) (by decide))
  have h4 : seg (encode (.mtileLd cv x p)) 13 8 = p := seg_hit _ p 13 ((seg_off _ x 21 13 8 (by decide)).trans ((seg_off _ cv 31 13 8 (by decide)).trans rfl)) (by decide)
  exact decode_of (form54 m (by simp [decode54, h1, h2, h3, h4]))
theorem RoundTrip.mtileSt (cv : BitVec 1) (x : BitVec 3) (p : BitVec 8) : RoundTrip.Statement (.mtileSt cv x p) := by
  have m : seg (encode (.mtileSt cv x p)) 24 7 = 84#7 := (seg_off _ p 13 24 7 (by decide)).trans ((seg_off _ x 21 24 7 (by decide)).trans ((seg_off _ cv 31 24 7 (by decide)).trans rfl))
  have h1 : seg (encode (.mtileSt cv x p)) 0 13 = 2#13 := (seg_off _ p 13 0 13 (by decide)).trans ((seg_off _ x 21 0 13 (by decide)).trans ((seg_off _ cv 31 0 13 (by decide)).trans rfl))
  have h2 : seg (encode (.mtileSt cv x p)) 31 1 = cv := (seg_off _ p 13 31 1 (by decide)).trans ((seg_off _ x 21 31 1 (by decide)).trans (seg_hit _ cv 31 rfl (by decide)))
  have h3 : seg (encode (.mtileSt cv x p)) 21 3 = x := (seg_off _ p 13 21 3 (by decide)).trans (seg_hit _ x 21 ((seg_off _ cv 31 21 3 (by decide)).trans rfl) (by decide))
  have h4 : seg (encode (.mtileSt cv x p)) 13 8 = p := seg_hit _ p 13 ((seg_off _ x 21 13 8 (by decide)).trans ((seg_off _ cv 31 13 8 (by decide)).trans rfl)) (by decide)
  exact decode_of (form54 m (by simp [decode54, h1, h2, h3, h4]))
theorem RoundTrip.mdrain (cv : BitVec 1) (x : BitVec 3) (v : BitVec 5) (r : BitVec 6) : RoundTrip.Statement (.mdrain cv x v r) := by
  have m : seg (encode (.mdrain cv x v r)) 24 7 = 85#7 := (seg_off _ r 5 24 7 (by decide)).trans ((seg_off _ v 13 24 7 (by decide)).trans ((seg_off _ x 21 24 7 (by decide)).trans ((seg_off _ cv 31 24 7 (by decide)).trans rfl)))
  have h1 : seg (encode (.mdrain cv x v r)) 0 5 = 0#5 := (seg_off _ r 5 0 5 (by decide)).trans ((seg_off _ v 13 0 5 (by decide)).trans ((seg_off _ x 21 0 5 (by decide)).trans ((seg_off _ cv 31 0 5 (by decide)).trans rfl)))
  have h2 : seg (encode (.mdrain cv x v r)) 11 2 = 0#2 := (seg_off _ r 5 11 2 (by decide)).trans ((seg_off _ v 13 11 2 (by decide)).trans ((seg_off _ x 21 11 2 (by decide)).trans ((seg_off _ cv 31 11 2 (by decide)).trans rfl)))
  have h3 : seg (encode (.mdrain cv x v r)) 18 3 = 0#3 := (seg_off _ r 5 18 3 (by decide)).trans ((seg_off _ v 13 18 3 (by decide)).trans ((seg_off _ x 21 18 3 (by decide)).trans ((seg_off _ cv 31 18 3 (by decide)).trans rfl)))
  have h4 : seg (encode (.mdrain cv x v r)) 31 1 = cv := (seg_off _ r 5 31 1 (by decide)).trans ((seg_off _ v 13 31 1 (by decide)).trans ((seg_off _ x 21 31 1 (by decide)).trans (seg_hit _ cv 31 rfl (by decide))))
  have h5 : seg (encode (.mdrain cv x v r)) 21 3 = x := (seg_off _ r 5 21 3 (by decide)).trans ((seg_off _ v 13 21 3 (by decide)).trans (seg_hit _ x 21 ((seg_off _ cv 31 21 3 (by decide)).trans rfl) (by decide)))
  have h6 : seg (encode (.mdrain cv x v r)) 13 5 = v := (seg_off _ r 5 13 5 (by decide)).trans (seg_hit _ v 13 ((seg_off _ x 21 13 5 (by decide)).trans ((seg_off _ cv 31 13 5 (by decide)).trans rfl)) (by decide))
  have h7 : seg (encode (.mdrain cv x v r)) 5 6 = r := seg_hit _ r 5 ((seg_off _ v 13 5 6 (by decide)).trans ((seg_off _ x 21 5 6 (by decide)).trans ((seg_off _ cv 31 5 6 (by decide)).trans rfl))) (by decide)
  exact decode_of (form55 m (by simp [decode55, h1, h2, h3, h4, h5, h6, h7]))
theorem RoundTrip.matrixConvoyStart (a0 : BitVec 11) : RoundTrip.Statement (.matrixConvoyStart a0) := nofun
theorem RoundTrip.pset (p : BitVec 8) (a : BitVec 6) : RoundTrip.Statement (.pset p a) := by
  have m : seg (encode (.pset p a)) 24 7 = 88#7 := (seg_off _ a 6 24 7 (by decide)).trans ((seg_off _ p 12 24 7 (by decide)).trans rfl)
  have h1 : seg (encode (.pset p a)) 0 6 = 0#6 := (seg_off _ a 6 0 6 (by decide)).trans ((seg_off _ p 12 0 6 (by decide)).trans rfl)
  have h2 : seg (encode (.pset p a)) 20 4 = 0#4 := (seg_off _ a 6 20 4 (by decide)).trans ((seg_off _ p 12 20 4 (by decide)).trans rfl)
  have h3 : seg (encode (.pset p a)) 31 1 = 0#1 := (seg_off _ a 6 31 1 (by decide)).trans ((seg_off _ p 12 31 1 (by decide)).trans rfl)
  have h4 : seg (encode (.pset p a)) 12 8 = p := (seg_off _ a 6 12 8 (by decide)).trans (seg_hit _ p 12 rfl (by decide))
  have h5 : seg (encode (.pset p a)) 6 6 = a := seg_hit _ a 6 ((seg_off _ p 12 6 6 (by decide)).trans rfl) (by decide)
  exact decode_of (form58 m (by simp [decode58, h1, h2, h3, h4, h5]))
theorem RoundTrip.swset (p : BitVec 8) (n : BitVec 6) : RoundTrip.Statement (.swset p n) := by
  have m : seg (encode (.swset p n)) 24 7 = 89#7 := (seg_off _ n 0 24 7 (by decide)).trans ((seg_off _ p 12 24 7 (by decide)).trans rfl)
  have h1 : seg (encode (.swset p n)) 6 6 = 0#6 := (seg_off _ n 0 6 6 (by decide)).trans ((seg_off _ p 12 6 6 (by decide)).trans rfl)
  have h2 : seg (encode (.swset p n)) 20 4 = 0#4 := (seg_off _ n 0 20 4 (by decide)).trans ((seg_off _ p 12 20 4 (by decide)).trans rfl)
  have h3 : seg (encode (.swset p n)) 31 1 = 0#1 := (seg_off _ n 0 31 1 (by decide)).trans ((seg_off _ p 12 31 1 (by decide)).trans rfl)
  have h4 : seg (encode (.swset p n)) 12 8 = p := (seg_off _ n 0 12 8 (by decide)).trans (seg_hit _ p 12 rfl (by decide))
  have h5 : seg (encode (.swset p n)) 0 6 = n := seg_hit _ n 0 ((seg_off _ p 12 0 6 (by decide)).trans rfl) (by decide)
  exact decode_of (form59 m (by simp [decode59, h1, h2, h3, h4, h5]))
theorem RoundTrip.swsetClr (n : BitVec 6) : RoundTrip.Statement (.swsetClr n) := by
  have m : seg (encode (.swsetClr n)) 24 7 = 89#7 := (seg_off _ n 0 24 7 (by decide)).trans rfl
  have h1 : seg (encode (.swsetClr n)) 6 6 = 0#6 := (seg_off _ n 0 6 6 (by decide)).trans rfl
  have h2 : seg (encode (.swsetClr n)) 12 8 = 0#8 := (seg_off _ n 0 12 8 (by decide)).trans rfl
  have h3 : seg (encode (.swsetClr n)) 20 4 = 1#4 := (seg_off _ n 0 20 4 (by decide)).trans rfl
  have h4 : seg (encode (.swsetClr n)) 31 1 = 0#1 := (seg_off _ n 0 31 1 (by decide)).trans rfl
  have h5 : seg (encode (.swsetClr n)) 0 6 = n := seg_hit _ n 0 rfl (by decide)
  exact decode_of (form59 m (by simp [decode59, h1, h2, h3, h4, h5]))
theorem RoundTrip.swsetResume (a0 : BitVec 11) : RoundTrip.Statement (.swsetResume a0) := nofun
theorem RoundTrip.shstageSrc (h : BitVec 4) (p : BitVec 8) : RoundTrip.Statement (.shstageSrc h p) := by
  have m : seg (encode (.shstageSrc h p)) 24 7 = 90#7 := (seg_off _ p 12 24 7 (by decide)).trans ((seg_off _ h 20 24 7 (by decide)).trans rfl)
  have h1 : seg (encode (.shstageSrc h p)) 0 6 = 0#6 := (seg_off _ p 12 0 6 (by decide)).trans ((seg_off _ h 20 0 6 (by decide)).trans rfl)
  have h2 : seg (encode (.shstageSrc h p)) 6 6 = 0#6 := (seg_off _ p 12 6 6 (by decide)).trans ((seg_off _ h 20 6 6 (by decide)).trans rfl)
  have h3 : seg (encode (.shstageSrc h p)) 31 1 = 0#1 := (seg_off _ p 12 31 1 (by decide)).trans ((seg_off _ h 20 31 1 (by decide)).trans rfl)
  have h4 : seg (encode (.shstageSrc h p)) 20 4 = h := (seg_off _ p 12 20 4 (by decide)).trans (seg_hit _ h 20 rfl (by decide))
  have h5 : seg (encode (.shstageSrc h p)) 12 8 = p := seg_hit _ p 12 ((seg_off _ h 20 12 8 (by decide)).trans rfl) (by decide)
  exact decode_of (form5A m (by simp [decode5A, h1, h2, h3, h4, h5]))
theorem RoundTrip.shstageDst (h : BitVec 4) (p : BitVec 8) : RoundTrip.Statement (.shstageDst h p) := by
  have m : seg (encode (.shstageDst h p)) 24 7 = 90#7 := (seg_off _ p 12 24 7 (by decide)).trans ((seg_off _ h 20 24 7 (by decide)).trans rfl)
  have h1 : seg (encode (.shstageDst h p)) 0 6 = 1#6 := (seg_off _ p 12 0 6 (by decide)).trans ((seg_off _ h 20 0 6 (by decide)).trans rfl)
  have h2 : seg (encode (.shstageDst h p)) 6 6 = 0#6 := (seg_off _ p 12 6 6 (by decide)).trans ((seg_off _ h 20 6 6 (by decide)).trans rfl)
  have h3 : seg (encode (.shstageDst h p)) 31 1 = 0#1 := (seg_off _ p 12 31 1 (by decide)).trans ((seg_off _ h 20 31 1 (by decide)).trans rfl)
  have h4 : seg (encode (.shstageDst h p)) 20 4 = h := (seg_off _ p 12 20 4 (by decide)).trans (seg_hit _ h 20 rfl (by decide))
  have h5 : seg (encode (.shstageDst h p)) 12 8 = p := seg_hit _ p 12 ((seg_off _ h 20 12 8 (by decide)).trans rfl) (by decide)
  exact decode_of (form5A m (by simp [decode5A, h1, h2, h3, h4, h5]))
theorem RoundTrip.shstageIdx (h : BitVec 4) (p : BitVec 8) : RoundTrip.Statement (.shstageIdx h p) := by
  have m : seg (encode (.shstageIdx h p)) 24 7 = 90#7 := (seg_off _ p 12 24 7 (by decide)).trans ((seg_off _ h 20 24 7 (by decide)).trans rfl)
  have h1 : seg (encode (.shstageIdx h p)) 0 6 = 2#6 := (seg_off _ p 12 0 6 (by decide)).trans ((seg_off _ h 20 0 6 (by decide)).trans rfl)
  have h2 : seg (encode (.shstageIdx h p)) 6 6 = 0#6 := (seg_off _ p 12 6 6 (by decide)).trans ((seg_off _ h 20 6 6 (by decide)).trans rfl)
  have h3 : seg (encode (.shstageIdx h p)) 31 1 = 0#1 := (seg_off _ p 12 31 1 (by decide)).trans ((seg_off _ h 20 31 1 (by decide)).trans rfl)
  have h4 : seg (encode (.shstageIdx h p)) 20 4 = h := (seg_off _ p 12 20 4 (by decide)).trans (seg_hit _ h 20 rfl (by decide))
  have h5 : seg (encode (.shstageIdx h p)) 12 8 = p := seg_hit _ p 12 ((seg_off _ h 20 12 8 (by decide)).trans rfl) (by decide)
  exact decode_of (form5A m (by simp [decode5A, h1, h2, h3, h4, h5]))
theorem RoundTrip.shstageSbase (h : BitVec 4) (a : BitVec 6) : RoundTrip.Statement (.shstageSbase h a) := by
  have m : seg (encode (.shstageSbase h a)) 24 7 = 90#7 := (seg_off _ a 6 24 7 (by decide)).trans ((seg_off _ h 20 24 7 (by decide)).trans rfl)
  have h1 : seg (encode (.shstageSbase h a)) 0 6 = 3#6 := (seg_off _ a 6 0 6 (by decide)).trans ((seg_off _ h 20 0 6 (by decide)).trans rfl)
  have h2 : seg (encode (.shstageSbase h a)) 12 5 = 0#5 := (seg_off _ a 6 12 5 (by decide)).trans ((seg_off _ h 20 12 5 (by decide)).trans rfl)
  have h3 : seg (encode (.shstageSbase h a)) 17 1 = 0#1 := (seg_off _ a 6 17 1 (by decide)).trans ((seg_off _ h 20 17 1 (by decide)).trans rfl)
  have h4 : seg (encode (.shstageSbase h a)) 18 2 = 0#2 := (seg_off _ a 6 18 2 (by decide)).trans ((seg_off _ h 20 18 2 (by decide)).trans rfl)
  have h5 : seg (encode (.shstageSbase h a)) 31 1 = 0#1 := (seg_off _ a 6 31 1 (by decide)).trans ((seg_off _ h 20 31 1 (by decide)).trans rfl)
  have h6 : seg (encode (.shstageSbase h a)) 20 4 = h := (seg_off _ a 6 20 4 (by decide)).trans (seg_hit _ h 20 rfl (by decide))
  have h7 : seg (encode (.shstageSbase h a)) 6 6 = a := seg_hit _ a 6 ((seg_off _ h 20 6 6 (by decide)).trans rfl) (by decide)
  exact decode_of (form5A m (by simp [decode5A, h1, h2, h3, h4, h5, h6, h7]))
theorem RoundTrip.shstageDbase (h : BitVec 4) (a : BitVec 6) : RoundTrip.Statement (.shstageDbase h a) := by
  have m : seg (encode (.shstageDbase h a)) 24 7 = 90#7 := (seg_off _ a 6 24 7 (by decide)).trans ((seg_off _ h 20 24 7 (by decide)).trans rfl)
  have h1 : seg (encode (.shstageDbase h a)) 0 6 = 4#6 := (seg_off _ a 6 0 6 (by decide)).trans ((seg_off _ h 20 0 6 (by decide)).trans rfl)
  have h2 : seg (encode (.shstageDbase h a)) 12 5 = 0#5 := (seg_off _ a 6 12 5 (by decide)).trans ((seg_off _ h 20 12 5 (by decide)).trans rfl)
  have h3 : seg (encode (.shstageDbase h a)) 17 1 = 0#1 := (seg_off _ a 6 17 1 (by decide)).trans ((seg_off _ h 20 17 1 (by decide)).trans rfl)
  have h4 : seg (encode (.shstageDbase h a)) 18 2 = 0#2 := (seg_off _ a 6 18 2 (by decide)).trans ((seg_off _ h 20 18 2 (by decide)).trans rfl)
  have h5 : seg (encode (.shstageDbase h a)) 31 1 = 0#1 := (seg_off _ a 6 31 1 (by decide)).trans ((seg_off _ h 20 31 1 (by decide)).trans rfl)
  have h6 : seg (encode (.shstageDbase h a)) 20 4 = h := (seg_off _ a 6 20 4 (by decide)).trans (seg_hit _ h 20 rfl (by decide))
  have h7 : seg (encode (.shstageDbase h a)) 6 6 = a := seg_hit _ a 6 ((seg_off _ h 20 6 6 (by decide)).trans rfl) (by decide)
  exact decode_of (form5A m (by simp [decode5A, h1, h2, h3, h4, h5, h6, h7]))
theorem RoundTrip.shstageBar (h : BitVec 4) (a : BitVec 6) : RoundTrip.Statement (.shstageBar h a) := by
  have m : seg (encode (.shstageBar h a)) 24 7 = 90#7 := (seg_off _ a 6 24 7 (by decide)).trans ((seg_off _ h 20 24 7 (by decide)).trans rfl)
  have h1 : seg (encode (.shstageBar h a)) 0 6 = 5#6 := (seg_off _ a 6 0 6 (by decide)).trans ((seg_off _ h 20 0 6 (by decide)).trans rfl)
  have h2 : seg (encode (.shstageBar h a)) 12 5 = 0#5 := (seg_off _ a 6 12 5 (by decide)).trans ((seg_off _ h 20 12 5 (by decide)).trans rfl)
  have h3 : seg (encode (.shstageBar h a)) 17 1 = 0#1 := (seg_off _ a 6 17 1 (by decide)).trans ((seg_off _ h 20 17 1 (by decide)).trans rfl)
  have h4 : seg (encode (.shstageBar h a)) 18 2 = 0#2 := (seg_off _ a 6 18 2 (by decide)).trans ((seg_off _ h 20 18 2 (by decide)).trans rfl)
  have h5 : seg (encode (.shstageBar h a)) 31 1 = 0#1 := (seg_off _ a 6 31 1 (by decide)).trans ((seg_off _ h 20 31 1 (by decide)).trans rfl)
  have h6 : seg (encode (.shstageBar h a)) 20 4 = h := (seg_off _ a 6 20 4 (by decide)).trans (seg_hit _ h 20 rfl (by decide))
  have h7 : seg (encode (.shstageBar h a)) 6 6 = a := seg_hit _ a 6 ((seg_off _ h 20 6 6 (by decide)).trans rfl) (by decide)
  exact decode_of (form5A m (by simp [decode5A, h1, h2, h3, h4, h5, h6, h7]))
theorem RoundTrip.shstageSw (h : BitVec 4) (n : BitVec 6) : RoundTrip.Statement (.shstageSw h n) := by
  have m : seg (encode (.shstageSw h n)) 24 7 = 90#7 := (seg_off _ n 12 24 7 (by decide)).trans ((seg_off _ h 20 24 7 (by decide)).trans rfl)
  have h1 : seg (encode (.shstageSw h n)) 0 6 = 6#6 := (seg_off _ n 12 0 6 (by decide)).trans ((seg_off _ h 20 0 6 (by decide)).trans rfl)
  have h2 : seg (encode (.shstageSw h n)) 6 6 = 0#6 := (seg_off _ n 12 6 6 (by decide)).trans ((seg_off _ h 20 6 6 (by decide)).trans rfl)
  have h3 : seg (encode (.shstageSw h n)) 18 2 = 0#2 := (seg_off _ n 12 18 2 (by decide)).trans ((seg_off _ h 20 18 2 (by decide)).trans rfl)
  have h4 : seg (encode (.shstageSw h n)) 31 1 = 0#1 := (seg_off _ n 12 31 1 (by decide)).trans ((seg_off _ h 20 31 1 (by decide)).trans rfl)
  have h5 : seg (encode (.shstageSw h n)) 20 4 = h := (seg_off _ n 12 20 4 (by decide)).trans (seg_hit _ h 20 rfl (by decide))
  have h6 : seg (encode (.shstageSw h n)) 12 6 = n := seg_hit _ n 12 ((seg_off _ h 20 12 6 (by decide)).trans rfl) (by decide)
  exact decode_of (form5A m (by simp [decode5A, h1, h2, h3, h4, h5, h6]))
theorem RoundTrip.shstagePort (h : BitVec 4) (p : BitVec 8) : RoundTrip.Statement (.shstagePort h p) := by
  have m : seg (encode (.shstagePort h p)) 24 7 = 90#7 := (seg_off _ p 12 24 7 (by decide)).trans ((seg_off _ h 20 24 7 (by decide)).trans rfl)
  have h1 : seg (encode (.shstagePort h p)) 0 6 = 7#6 := (seg_off _ p 12 0 6 (by decide)).trans ((seg_off _ h 20 0 6 (by decide)).trans rfl)
  have h2 : seg (encode (.shstagePort h p)) 6 6 = 0#6 := (seg_off _ p 12 6 6 (by decide)).trans ((seg_off _ h 20 6 6 (by decide)).trans rfl)
  have h3 : seg (encode (.shstagePort h p)) 31 1 = 0#1 := (seg_off _ p 12 31 1 (by decide)).trans ((seg_off _ h 20 31 1 (by decide)).trans rfl)
  have h4 : seg (encode (.shstagePort h p)) 20 4 = h := (seg_off _ p 12 20 4 (by decide)).trans (seg_hit _ h 20 rfl (by decide))
  have h5 : seg (encode (.shstagePort h p)) 12 8 = p := seg_hit _ p 12 ((seg_off _ h 20 12 8 (by decide)).trans rfl) (by decide)
  exact decode_of (form5A m (by simp [decode5A, h1, h2, h3, h4, h5]))
theorem RoundTrip.shstageRtn (h : BitVec 4) (n : BitVec 5) : RoundTrip.Statement (.shstageRtn h n) := by
  have m : seg (encode (.shstageRtn h n)) 24 7 = 90#7 := (seg_off _ n 12 24 7 (by decide)).trans ((seg_off _ h 20 24 7 (by decide)).trans rfl)
  have h1 : seg (encode (.shstageRtn h n)) 0 6 = 8#6 := (seg_off _ n 12 0 6 (by decide)).trans ((seg_off _ h 20 0 6 (by decide)).trans rfl)
  have h2 : seg (encode (.shstageRtn h n)) 6 6 = 0#6 := (seg_off _ n 12 6 6 (by decide)).trans ((seg_off _ h 20 6 6 (by decide)).trans rfl)
  have h3 : seg (encode (.shstageRtn h n)) 17 1 = 0#1 := (seg_off _ n 12 17 1 (by decide)).trans ((seg_off _ h 20 17 1 (by decide)).trans rfl)
  have h4 : seg (encode (.shstageRtn h n)) 18 2 = 0#2 := (seg_off _ n 12 18 2 (by decide)).trans ((seg_off _ h 20 18 2 (by decide)).trans rfl)
  have h5 : seg (encode (.shstageRtn h n)) 31 1 = 0#1 := (seg_off _ n 12 31 1 (by decide)).trans ((seg_off _ h 20 31 1 (by decide)).trans rfl)
  have h6 : seg (encode (.shstageRtn h n)) 20 4 = h := (seg_off _ n 12 20 4 (by decide)).trans (seg_hit _ h 20 rfl (by decide))
  have h7 : seg (encode (.shstageRtn h n)) 12 5 = n := seg_hit _ n 12 ((seg_off _ h 20 12 5 (by decide)).trans rfl) (by decide)
  exact decode_of (form5A m (by simp [decode5A, h1, h2, h3, h4, h5, h6, h7]))
theorem RoundTrip.shstageClr (h : BitVec 4) : RoundTrip.Statement (.shstageClr h) := by
  have m : seg (encode (.shstageClr h)) 24 7 = 90#7 := (seg_off _ h 20 24 7 (by decide)).trans rfl
  have h1 : seg (encode (.shstageClr h)) 0 6 = 9#6 := (seg_off _ h 20 0 6 (by decide)).trans rfl
  have h2 : seg (encode (.shstageClr h)) 6 6 = 0#6 := (seg_off _ h 20 6 6 (by decide)).trans rfl
  have h3 : seg (encode (.shstageClr h)) 12 5 = 0#5 := (seg_off _ h 20 12 5 (by decide)).trans rfl
  have h4 : seg (encode (.shstageClr h)) 17 1 = 0#1 := (seg_off _ h 20 17 1 (by decide)).trans rfl
  have h5 : seg (encode (.shstageClr h)) 18 2 = 0#2 := (seg_off _ h 20 18 2 (by decide)).trans rfl
  have h6 : seg (encode (.shstageClr h)) 31 1 = 0#1 := (seg_off _ h 20 31 1 (by decide)).trans rfl
  have h7 : seg (encode (.shstageClr h)) 20 4 = h := seg_hit _ h 20 rfl (by decide)
  exact decode_of (form5A m (by simp [decode5A, h1, h2, h3, h4, h5, h6, h7]))
theorem RoundTrip.shstageRstat (h : BitVec 4) : RoundTrip.Statement (.shstageRstat h) := by
  have m : seg (encode (.shstageRstat h)) 24 7 = 90#7 := (seg_off _ h 20 24 7 (by decide)).trans rfl
  have h1 : seg (encode (.shstageRstat h)) 0 6 = 10#6 := (seg_off _ h 20 0 6 (by decide)).trans rfl
  have h2 : seg (encode (.shstageRstat h)) 6 6 = 0#6 := (seg_off _ h 20 6 6 (by decide)).trans rfl
  have h3 : seg (encode (.shstageRstat h)) 12 5 = 0#5 := (seg_off _ h 20 12 5 (by decide)).trans rfl
  have h4 : seg (encode (.shstageRstat h)) 17 1 = 0#1 := (seg_off _ h 20 17 1 (by decide)).trans rfl
  have h5 : seg (encode (.shstageRstat h)) 18 2 = 0#2 := (seg_off _ h 20 18 2 (by decide)).trans rfl
  have h6 : seg (encode (.shstageRstat h)) 31 1 = 0#1 := (seg_off _ h 20 31 1 (by decide)).trans rfl
  have h7 : seg (encode (.shstageRstat h)) 20 4 = h := seg_hit _ h 20 rfl (by decide)
  exact decode_of (form5A m (by simp [decode5A, h1, h2, h3, h4, h5, h6, h7]))
theorem RoundTrip.shgoCopy (h : BitVec 4) (d : BitVec 6) (r : BitVec 1) : RoundTrip.Statement (.shgoCopy h d r) := by
  have m : seg (encode (.shgoCopy h d r)) 24 7 = 91#7 := (seg_off _ r 3 24 7 (by decide)).trans ((seg_off _ d 6 24 7 (by decide)).trans ((seg_off _ h 20 24 7 (by decide)).trans rfl))
  have h1 : seg (encode (.shgoCopy h d r)) 0 3 = 0#3 := (seg_off _ r 3 0 3 (by decide)).trans ((seg_off _ d 6 0 3 (by decide)).trans ((seg_off _ h 20 0 3 (by decide)).trans rfl))
  have h2 : seg (encode (.shgoCopy h d r)) 4 2 = 0#2 := (seg_off _ r 3 4 2 (by decide)).trans ((seg_off _ d 6 4 2 (by decide)).trans ((seg_off _ h 20 4 2 (by decide)).trans rfl))
  have h3 : seg (encode (.shgoCopy h d r)) 12 8 = 0#8 := (seg_off _ r 3 12 8 (by decide)).trans ((seg_off _ d 6 12 8 (by decide)).trans ((seg_off _ h 20 12 8 (by decide)).trans rfl))
  have h4 : seg (encode (.shgoCopy h d r)) 31 1 = 0#1 := (seg_off _ r 3 31 1 (by decide)).trans ((seg_off _ d 6 31 1 (by decide)).trans ((seg_off _ h 20 31 1 (by decide)).trans rfl))
  have h5 : seg (encode (.shgoCopy h d r)) 20 4 = h := (seg_off _ r 3 20 4 (by decide)).trans ((seg_off _ d 6 20 4 (by decide)).trans (seg_hit _ h 20 rfl (by decide)))
  have h6 : seg (encode (.shgoCopy h d r)) 6 6 = d := (seg_off _ r 3 6 6 (by decide)).trans (seg_hit _ d 6 ((seg_off _ h 20 6 6 (by decide)).trans rfl) (by decide))
  have h7 : seg (encode (.shgoCopy h d r)) 3 1 = r := seg_hit _ r 3 ((seg_off _ d 6 3 1 (by decide)).trans ((seg_off _ h 20 3 1 (by decide)).trans rfl)) (by decide)
  exact decode_of (form5B m (by simp [decode5B, h1, h2, h3, h4, h5, h6, h7]))
theorem RoundTrip.shgoRows (h : BitVec 4) (d : BitVec 6) (r : BitVec 1) : RoundTrip.Statement (.shgoRows h d r) := by
  have m : seg (encode (.shgoRows h d r)) 24 7 = 91#7 := (seg_off _ r 3 24 7 (by decide)).trans ((seg_off _ d 6 24 7 (by decide)).trans ((seg_off _ h 20 24 7 (by decide)).trans rfl))
  have h1 : seg (encode (.shgoRows h d r)) 0 3 = 1#3 := (seg_off _ r 3 0 3 (by decide)).trans ((seg_off _ d 6 0 3 (by decide)).trans ((seg_off _ h 20 0 3 (by decide)).trans rfl))
  have h2 : seg (encode (.shgoRows h d r)) 4 2 = 0#2 := (seg_off _ r 3 4 2 (by decide)).trans ((seg_off _ d 6 4 2 (by decide)).trans ((seg_off _ h 20 4 2 (by decide)).trans rfl))
  have h3 : seg (encode (.shgoRows h d r)) 12 8 = 0#8 := (seg_off _ r 3 12 8 (by decide)).trans ((seg_off _ d 6 12 8 (by decide)).trans ((seg_off _ h 20 12 8 (by decide)).trans rfl))
  have h4 : seg (encode (.shgoRows h d r)) 31 1 = 0#1 := (seg_off _ r 3 31 1 (by decide)).trans ((seg_off _ d 6 31 1 (by decide)).trans ((seg_off _ h 20 31 1 (by decide)).trans rfl))
  have h5 : seg (encode (.shgoRows h d r)) 20 4 = h := (seg_off _ r 3 20 4 (by decide)).trans ((seg_off _ d 6 20 4 (by decide)).trans (seg_hit _ h 20 rfl (by decide)))
  have h6 : seg (encode (.shgoRows h d r)) 6 6 = d := (seg_off _ r 3 6 6 (by decide)).trans (seg_hit _ d 6 ((seg_off _ h 20 6 6 (by decide)).trans rfl) (by decide))
  have h7 : seg (encode (.shgoRows h d r)) 3 1 = r := seg_hit _ r 3 ((seg_off _ d 6 3 1 (by decide)).trans ((seg_off _ h 20 3 1 (by decide)).trans rfl)) (by decide)
  exact decode_of (form5B m (by simp [decode5B, h1, h2, h3, h4, h5, h6, h7]))
theorem RoundTrip.shgoStream (h : BitVec 4) (d : BitVec 6) (r : BitVec 1) : RoundTrip.Statement (.shgoStream h d r) := by
  have m : seg (encode (.shgoStream h d r)) 24 7 = 91#7 := (seg_off _ r 3 24 7 (by decide)).trans ((seg_off _ d 6 24 7 (by decide)).trans ((seg_off _ h 20 24 7 (by decide)).trans rfl))
  have h1 : seg (encode (.shgoStream h d r)) 0 3 = 2#3 := (seg_off _ r 3 0 3 (by decide)).trans ((seg_off _ d 6 0 3 (by decide)).trans ((seg_off _ h 20 0 3 (by decide)).trans rfl))
  have h2 : seg (encode (.shgoStream h d r)) 4 2 = 0#2 := (seg_off _ r 3 4 2 (by decide)).trans ((seg_off _ d 6 4 2 (by decide)).trans ((seg_off _ h 20 4 2 (by decide)).trans rfl))
  have h3 : seg (encode (.shgoStream h d r)) 12 8 = 0#8 := (seg_off _ r 3 12 8 (by decide)).trans ((seg_off _ d 6 12 8 (by decide)).trans ((seg_off _ h 20 12 8 (by decide)).trans rfl))
  have h4 : seg (encode (.shgoStream h d r)) 31 1 = 0#1 := (seg_off _ r 3 31 1 (by decide)).trans ((seg_off _ d 6 31 1 (by decide)).trans ((seg_off _ h 20 31 1 (by decide)).trans rfl))
  have h5 : seg (encode (.shgoStream h d r)) 20 4 = h := (seg_off _ r 3 20 4 (by decide)).trans ((seg_off _ d 6 20 4 (by decide)).trans (seg_hit _ h 20 rfl (by decide)))
  have h6 : seg (encode (.shgoStream h d r)) 6 6 = d := (seg_off _ r 3 6 6 (by decide)).trans (seg_hit _ d 6 ((seg_off _ h 20 6 6 (by decide)).trans rfl) (by decide))
  have h7 : seg (encode (.shgoStream h d r)) 3 1 = r := seg_hit _ r 3 ((seg_off _ d 6 3 1 (by decide)).trans ((seg_off _ h 20 3 1 (by decide)).trans rfl)) (by decide)
  exact decode_of (form5B m (by simp [decode5B, h1, h2, h3, h4, h5, h6, h7]))
theorem RoundTrip.shgoSend (h : BitVec 4) (d : BitVec 6) (r : BitVec 1) : RoundTrip.Statement (.shgoSend h d r) := by
  have m : seg (encode (.shgoSend h d r)) 24 7 = 91#7 := (seg_off _ r 3 24 7 (by decide)).trans ((seg_off _ d 6 24 7 (by decide)).trans ((seg_off _ h 20 24 7 (by decide)).trans rfl))
  have h1 : seg (encode (.shgoSend h d r)) 0 3 = 3#3 := (seg_off _ r 3 0 3 (by decide)).trans ((seg_off _ d 6 0 3 (by decide)).trans ((seg_off _ h 20 0 3 (by decide)).trans rfl))
  have h2 : seg (encode (.shgoSend h d r)) 4 2 = 0#2 := (seg_off _ r 3 4 2 (by decide)).trans ((seg_off _ d 6 4 2 (by decide)).trans ((seg_off _ h 20 4 2 (by decide)).trans rfl))
  have h3 : seg (encode (.shgoSend h d r)) 12 8 = 0#8 := (seg_off _ r 3 12 8 (by decide)).trans ((seg_off _ d 6 12 8 (by decide)).trans ((seg_off _ h 20 12 8 (by decide)).trans rfl))
  have h4 : seg (encode (.shgoSend h d r)) 31 1 = 0#1 := (seg_off _ r 3 31 1 (by decide)).trans ((seg_off _ d 6 31 1 (by decide)).trans ((seg_off _ h 20 31 1 (by decide)).trans rfl))
  have h5 : seg (encode (.shgoSend h d r)) 20 4 = h := (seg_off _ r 3 20 4 (by decide)).trans ((seg_off _ d 6 20 4 (by decide)).trans (seg_hit _ h 20 rfl (by decide)))
  have h6 : seg (encode (.shgoSend h d r)) 6 6 = d := (seg_off _ r 3 6 6 (by decide)).trans (seg_hit _ d 6 ((seg_off _ h 20 6 6 (by decide)).trans rfl) (by decide))
  have h7 : seg (encode (.shgoSend h d r)) 3 1 = r := seg_hit _ r 3 ((seg_off _ d 6 3 1 (by decide)).trans ((seg_off _ h 20 3 1 (by decide)).trans rfl)) (by decide)
  exact decode_of (form5B m (by simp [decode5B, h1, h2, h3, h4, h5, h6, h7]))
theorem RoundTrip.shgoBodkin (h : BitVec 4) (d : BitVec 6) (r : BitVec 1) : RoundTrip.Statement (.shgoBodkin h d r) := by
  have m : seg (encode (.shgoBodkin h d r)) 24 7 = 91#7 := (seg_off _ r 3 24 7 (by decide)).trans ((seg_off _ d 6 24 7 (by decide)).trans ((seg_off _ h 20 24 7 (by decide)).trans rfl))
  have h1 : seg (encode (.shgoBodkin h d r)) 0 3 = 4#3 := (seg_off _ r 3 0 3 (by decide)).trans ((seg_off _ d 6 0 3 (by decide)).trans ((seg_off _ h 20 0 3 (by decide)).trans rfl))
  have h2 : seg (encode (.shgoBodkin h d r)) 4 2 = 0#2 := (seg_off _ r 3 4 2 (by decide)).trans ((seg_off _ d 6 4 2 (by decide)).trans ((seg_off _ h 20 4 2 (by decide)).trans rfl))
  have h3 : seg (encode (.shgoBodkin h d r)) 12 8 = 0#8 := (seg_off _ r 3 12 8 (by decide)).trans ((seg_off _ d 6 12 8 (by decide)).trans ((seg_off _ h 20 12 8 (by decide)).trans rfl))
  have h4 : seg (encode (.shgoBodkin h d r)) 31 1 = 0#1 := (seg_off _ r 3 31 1 (by decide)).trans ((seg_off _ d 6 31 1 (by decide)).trans ((seg_off _ h 20 31 1 (by decide)).trans rfl))
  have h5 : seg (encode (.shgoBodkin h d r)) 20 4 = h := (seg_off _ r 3 20 4 (by decide)).trans ((seg_off _ d 6 20 4 (by decide)).trans (seg_hit _ h 20 rfl (by decide)))
  have h6 : seg (encode (.shgoBodkin h d r)) 6 6 = d := (seg_off _ r 3 6 6 (by decide)).trans (seg_hit _ d 6 ((seg_off _ h 20 6 6 (by decide)).trans rfl) (by decide))
  have h7 : seg (encode (.shgoBodkin h d r)) 3 1 = r := seg_hit _ r 3 ((seg_off _ d 6 3 1 (by decide)).trans ((seg_off _ h 20 3 1 (by decide)).trans rfl)) (by decide)
  exact decode_of (form5B m (by simp [decode5B, h1, h2, h3, h4, h5, h6, h7]))
theorem RoundTrip.shgoQueueRoom (a0 : BitVec 11) : RoundTrip.Statement (.shgoQueueRoom a0) := nofun
theorem RoundTrip.shstatTl (h : BitVec 4) (d : BitVec 6) : RoundTrip.Statement (.shstatTl h d) := by
  have m : seg (encode (.shstatTl h d)) 24 7 = 92#7 := (seg_off _ d 6 24 7 (by decide)).trans ((seg_off _ h 20 24 7 (by decide)).trans rfl)
  have h1 : seg (encode (.shstatTl h d)) 0 6 = 0#6 := (seg_off _ d 6 0 6 (by decide)).trans ((seg_off _ h 20 0 6 (by decide)).trans rfl)
  have h2 : seg (encode (.shstatTl h d)) 12 6 = 0#6 := (seg_off _ d 6 12 6 (by decide)).trans ((seg_off _ h 20 12 6 (by decide)).trans rfl)
  have h3 : seg (encode (.shstatTl h d)) 18 2 = 0#2 := (seg_off _ d 6 18 2 (by decide)).trans ((seg_off _ h 20 18 2 (by decide)).trans rfl)
  have h4 : seg (encode (.shstatTl h d)) 31 1 = 0#1 := (seg_off _ d 6 31 1 (by decide)).trans ((seg_off _ h 20 31 1 (by decide)).trans rfl)
  have h5 : seg (encode (.shstatTl h d)) 20 4 = h := (seg_off _ d 6 20 4 (by decide)).trans (seg_hit _ h 20 rfl (by decide))
  have h6 : seg (encode (.shstatTl h d)) 6 6 = d := seg_hit _ d 6 ((seg_off _ h 20 6 6 (by decide)).trans rfl) (by decide)
  exact decode_of (form5C m (by simp [decode5C, h1, h2, h3, h4, h5, h6]))
theorem RoundTrip.shstatMiss (h : BitVec 4) (d : BitVec 6) : RoundTrip.Statement (.shstatMiss h d) := by
  have m : seg (encode (.shstatMiss h d)) 24 7 = 92#7 := (seg_off _ d 6 24 7 (by decide)).trans ((seg_off _ h 20 24 7 (by decide)).trans rfl)
  have h1 : seg (encode (.shstatMiss h d)) 0 6 = 1#6 := (seg_off _ d 6 0 6 (by decide)).trans ((seg_off _ h 20 0 6 (by decide)).trans rfl)
  have h2 : seg (encode (.shstatMiss h d)) 12 6 = 0#6 := (seg_off _ d 6 12 6 (by decide)).trans ((seg_off _ h 20 12 6 (by decide)).trans rfl)
  have h3 : seg (encode (.shstatMiss h d)) 18 2 = 0#2 := (seg_off _ d 6 18 2 (by decide)).trans ((seg_off _ h 20 18 2 (by decide)).trans rfl)
  have h4 : seg (encode (.shstatMiss h d)) 31 1 = 0#1 := (seg_off _ d 6 31 1 (by decide)).trans ((seg_off _ h 20 31 1 (by decide)).trans rfl)
  have h5 : seg (encode (.shstatMiss h d)) 20 4 = h := (seg_off _ d 6 20 4 (by decide)).trans (seg_hit _ h 20 rfl (by decide))
  have h6 : seg (encode (.shstatMiss h d)) 6 6 = d := seg_hit _ d 6 ((seg_off _ h 20 6 6 (by decide)).trans rfl) (by decide)
  exact decode_of (form5C m (by simp [decode5C, h1, h2, h3, h4, h5, h6]))
theorem RoundTrip.shstatErr (h : BitVec 4) (d : BitVec 6) : RoundTrip.Statement (.shstatErr h d) := by
  have m : seg (encode (.shstatErr h d)) 24 7 = 92#7 := (seg_off _ d 6 24 7 (by decide)).trans ((seg_off _ h 20 24 7 (by decide)).trans rfl)
  have h1 : seg (encode (.shstatErr h d)) 0 6 = 2#6 := (seg_off _ d 6 0 6 (by decide)).trans ((seg_off _ h 20 0 6 (by decide)).trans rfl)
  have h2 : seg (encode (.shstatErr h d)) 12 6 = 0#6 := (seg_off _ d 6 12 6 (by decide)).trans ((seg_off _ h 20 12 6 (by decide)).trans rfl)
  have h3 : seg (encode (.shstatErr h d)) 18 2 = 0#2 := (seg_off _ d 6 18 2 (by decide)).trans ((seg_off _ h 20 18 2 (by decide)).trans rfl)
  have h4 : seg (encode (.shstatErr h d)) 31 1 = 0#1 := (seg_off _ d 6 31 1 (by decide)).trans ((seg_off _ h 20 31 1 (by decide)).trans rfl)
  have h5 : seg (encode (.shstatErr h d)) 20 4 = h := (seg_off _ d 6 20 4 (by decide)).trans (seg_hit _ h 20 rfl (by decide))
  have h6 : seg (encode (.shstatErr h d)) 6 6 = d := seg_hit _ d 6 ((seg_off _ h 20 6 6 (by decide)).trans rfl) (by decide)
  exact decode_of (form5C m (by simp [decode5C, h1, h2, h3, h4, h5, h6]))
theorem RoundTrip.shstatAddr (h : BitVec 4) (d : BitVec 6) : RoundTrip.Statement (.shstatAddr h d) := by
  have m : seg (encode (.shstatAddr h d)) 24 7 = 92#7 := (seg_off _ d 6 24 7 (by decide)).trans ((seg_off _ h 20 24 7 (by decide)).trans rfl)
  have h1 : seg (encode (.shstatAddr h d)) 0 6 = 3#6 := (seg_off _ d 6 0 6 (by decide)).trans ((seg_off _ h 20 0 6 (by decide)).trans rfl)
  have h2 : seg (encode (.shstatAddr h d)) 12 6 = 0#6 := (seg_off _ d 6 12 6 (by decide)).trans ((seg_off _ h 20 12 6 (by decide)).trans rfl)
  have h3 : seg (encode (.shstatAddr h d)) 18 2 = 0#2 := (seg_off _ d 6 18 2 (by decide)).trans ((seg_off _ h 20 18 2 (by decide)).trans rfl)
  have h4 : seg (encode (.shstatAddr h d)) 31 1 = 0#1 := (seg_off _ d 6 31 1 (by decide)).trans ((seg_off _ h 20 31 1 (by decide)).trans rfl)
  have h5 : seg (encode (.shstatAddr h d)) 20 4 = h := (seg_off _ d 6 20 4 (by decide)).trans (seg_hit _ h 20 rfl (by decide))
  have h6 : seg (encode (.shstatAddr h d)) 6 6 = d := seg_hit _ d 6 ((seg_off _ h 20 6 6 (by decide)).trans rfl) (by decide)
  exact decode_of (form5C m (by simp [decode5C, h1, h2, h3, h4, h5, h6]))
theorem RoundTrip.shstatLanded (h : BitVec 4) (sf : BitVec 6) (d : BitVec 6) : RoundTrip.Statement (.shstatLanded h sf d) := by
  have m : seg (encode (.shstatLanded h sf d)) 24 7 = 92#7 := (seg_off _ d 6 24 7 (by decide)).trans ((seg_off _ sf 12 24 7 (by decide)).trans ((seg_off _ h 20 24 7 (by decide)).trans rfl))
  have h1 : seg (encode (.shstatLanded h sf d)) 0 6 = 4#6 := (seg_off _ d 6 0 6 (by decide)).trans ((seg_off _ sf 12 0 6 (by decide)).trans ((seg_off _ h 20 0 6 (by decide)).trans rfl))
  have h2 : seg (encode (.shstatLanded h sf d)) 18 2 = 0#2 := (seg_off _ d 6 18 2 (by decide)).trans ((seg_off _ sf 12 18 2 (by decide)).trans ((seg_off _ h 20 18 2 (by decide)).trans rfl))
  have h3 : seg (encode (.shstatLanded h sf d)) 31 1 = 0#1 := (seg_off _ d 6 31 1 (by decide)).trans ((seg_off _ sf 12 31 1 (by decide)).trans ((seg_off _ h 20 31 1 (by decide)).trans rfl))
  have h4 : seg (encode (.shstatLanded h sf d)) 20 4 = h := (seg_off _ d 6 20 4 (by decide)).trans ((seg_off _ sf 12 20 4 (by decide)).trans (seg_hit _ h 20 rfl (by decide)))
  have h5 : seg (encode (.shstatLanded h sf d)) 12 6 = sf := (seg_off _ d 6 12 6 (by decide)).trans (seg_hit _ sf 12 ((seg_off _ h 20 12 6 (by decide)).trans rfl) (by decide))
  have h6 : seg (encode (.shstatLanded h sf d)) 6 6 = d := seg_hit _ d 6 ((seg_off _ sf 12 6 6 (by decide)).trans ((seg_off _ h 20 6 6 (by decide)).trans rfl)) (by decide)
  exact decode_of (form5C m (by simp [decode5C, h1, h2, h3, h4, h5, h6]))
theorem RoundTrip.shstatNext (h : BitVec 4) (d : BitVec 6) : RoundTrip.Statement (.shstatNext h d) := by
  have m : seg (encode (.shstatNext h d)) 24 7 = 92#7 := (seg_off _ d 6 24 7 (by decide)).trans ((seg_off _ h 20 24 7 (by decide)).trans rfl)
  have h1 : seg (encode (.shstatNext h d)) 0 6 = 5#6 := (seg_off _ d 6 0 6 (by decide)).trans ((seg_off _ h 20 0 6 (by decide)).trans rfl)
  have h2 : seg (encode (.shstatNext h d)) 12 6 = 0#6 := (seg_off _ d 6 12 6 (by decide)).trans ((seg_off _ h 20 12 6 (by decide)).trans rfl)
  have h3 : seg (encode (.shstatNext h d)) 18 2 = 0#2 := (seg_off _ d 6 18 2 (by decide)).trans ((seg_off _ h 20 18 2 (by decide)).trans rfl)
  have h4 : seg (encode (.shstatNext h d)) 31 1 = 0#1 := (seg_off _ d 6 31 1 (by decide)).trans ((seg_off _ h 20 31 1 (by decide)).trans rfl)
  have h5 : seg (encode (.shstatNext h d)) 20 4 = h := (seg_off _ d 6 20 4 (by decide)).trans (seg_hit _ h 20 rfl (by decide))
  have h6 : seg (encode (.shstatNext h d)) 6 6 = d := seg_hit _ d 6 ((seg_off _ h 20 6 6 (by decide)).trans rfl) (by decide)
  exact decode_of (form5C m (by simp [decode5C, h1, h2, h3, h4, h5, h6]))
theorem RoundTrip.shstatSw (n : BitVec 6) (d : BitVec 6) : RoundTrip.Statement (.shstatSw n d) := by
  have m : seg (encode (.shstatSw n d)) 24 7 = 92#7 := (seg_off _ d 6 24 7 (by decide)).trans ((seg_off _ n 12 24 7 (by decide)).trans rfl)
  have h1 : seg (encode (.shstatSw n d)) 0 6 = 6#6 := (seg_off _ d 6 0 6 (by decide)).trans ((seg_off _ n 12 0 6 (by decide)).trans rfl)
  have h2 : seg (encode (.shstatSw n d)) 18 2 = 0#2 := (seg_off _ d 6 18 2 (by decide)).trans ((seg_off _ n 12 18 2 (by decide)).trans rfl)
  have h3 : seg (encode (.shstatSw n d)) 20 4 = 0#4 := (seg_off _ d 6 20 4 (by decide)).trans ((seg_off _ n 12 20 4 (by decide)).trans rfl)
  have h4 : seg (encode (.shstatSw n d)) 31 1 = 0#1 := (seg_off _ d 6 31 1 (by decide)).trans ((seg_off _ n 12 31 1 (by decide)).trans rfl)
  have h5 : seg (encode (.shstatSw n d)) 12 6 = n := (seg_off _ d 6 12 6 (by decide)).trans (seg_hit _ n 12 rfl (by decide))
  have h6 : seg (encode (.shstatSw n d)) 6 6 = d := seg_hit _ d 6 ((seg_off _ n 12 6 6 (by decide)).trans rfl) (by decide)
  exact decode_of (form5C m (by simp [decode5C, h1, h2, h3, h4, h5, h6]))
theorem RoundTrip.shstatPv (p : BitVec 8) (d : BitVec 6) : RoundTrip.Statement (.shstatPv p d) := by
  have m : seg (encode (.shstatPv p d)) 24 7 = 92#7 := (seg_off _ d 6 24 7 (by decide)).trans ((seg_off _ p 12 24 7 (by decide)).trans rfl)
  have h1 : seg (encode (.shstatPv p d)) 0 6 = 7#6 := (seg_off _ d 6 0 6 (by decide)).trans ((seg_off _ p 12 0 6 (by decide)).trans rfl)
  have h2 : seg (encode (.shstatPv p d)) 20 4 = 0#4 := (seg_off _ d 6 20 4 (by decide)).trans ((seg_off _ p 12 20 4 (by decide)).trans rfl)
  have h3 : seg (encode (.shstatPv p d)) 31 1 = 0#1 := (seg_off _ d 6 31 1 (by decide)).trans ((seg_off _ p 12 31 1 (by decide)).trans rfl)
  have h4 : seg (encode (.shstatPv p d)) 12 8 = p := (seg_off _ d 6 12 8 (by decide)).trans (seg_hit _ p 12 rfl (by decide))
  have h5 : seg (encode (.shstatPv p d)) 6 6 = d := seg_hit _ d 6 ((seg_off _ p 12 6 6 (by decide)).trans rfl) (by decide)
  exact decode_of (form5C m (by simp [decode5C, h1, h2, h3, h4, h5]))
theorem RoundTrip.shportStat (p : BitVec 8) (d : BitVec 6) : RoundTrip.Statement (.shportStat p d) := by
  have m : seg (encode (.shportStat p d)) 24 7 = 93#7 := (seg_off _ d 6 24 7 (by decide)).trans ((seg_off _ p 12 24 7 (by decide)).trans rfl)
  have h1 : seg (encode (.shportStat p d)) 0 6 = 0#6 := (seg_off _ d 6 0 6 (by decide)).trans ((seg_off _ p 12 0 6 (by decide)).trans rfl)
  have h2 : seg (encode (.shportStat p d)) 20 4 = 0#4 := (seg_off _ d 6 20 4 (by decide)).trans ((seg_off _ p 12 20 4 (by decide)).trans rfl)
  have h3 : seg (encode (.shportStat p d)) 31 1 = 0#1 := (seg_off _ d 6 31 1 (by decide)).trans ((seg_off _ p 12 31 1 (by decide)).trans rfl)
  have h4 : seg (encode (.shportStat p d)) 12 8 = p := (seg_off _ d 6 12 8 (by decide)).trans (seg_hit _ p 12 rfl (by decide))
  have h5 : seg (encode (.shportStat p d)) 6 6 = d := seg_hit _ d 6 ((seg_off _ p 12 6 6 (by decide)).trans rfl) (by decide)
  exact decode_of (form5D m (by simp [decode5D, h1, h2, h3, h4, h5]))
theorem RoundTrip.shportDisc (p : BitVec 8) : RoundTrip.Statement (.shportDisc p) := by
  have m : seg (encode (.shportDisc p)) 24 7 = 93#7 := (seg_off _ p 12 24 7 (by decide)).trans rfl
  have h1 : seg (encode (.shportDisc p)) 0 6 = 1#6 := (seg_off _ p 12 0 6 (by decide)).trans rfl
  have h2 : seg (encode (.shportDisc p)) 6 6 = 0#6 := (seg_off _ p 12 6 6 (by decide)).trans rfl
  have h3 : seg (encode (.shportDisc p)) 20 4 = 0#4 := (seg_off _ p 12 20 4 (by decide)).trans rfl
  have h4 : seg (encode (.shportDisc p)) 31 1 = 0#1 := (seg_off _ p 12 31 1 (by decide)).trans rfl
  have h5 : seg (encode (.shportDisc p)) 12 8 = p := seg_hit _ p 12 rfl (by decide)
  exact decode_of (form5D m (by simp [decode5D, h1, h2, h3, h4, h5]))
theorem RoundTrip.waittl (sf : BitVec 3) (a : BitVec 6) (b : BitVec 6) : RoundTrip.Statement (.waittl sf a b) := by
  have m : seg (encode (.waittl sf a b)) 24 7 = 100#7 := (seg_off _ b 0 24 7 (by decide)).trans ((seg_off _ a 6 24 7 (by decide)).trans ((seg_off _ sf 21 24 7 (by decide)).trans rfl))
  have h1 : seg (encode (.waittl sf a b)) 12 6 = 0#6 := (seg_off _ b 0 12 6 (by decide)).trans ((seg_off _ a 6 12 6 (by decide)).trans ((seg_off _ sf 21 12 6 (by decide)).trans rfl))
  have h2 : seg (encode (.waittl sf a b)) 18 3 = 0#3 := (seg_off _ b 0 18 3 (by decide)).trans ((seg_off _ a 6 18 3 (by decide)).trans ((seg_off _ sf 21 18 3 (by decide)).trans rfl))
  have h3 : seg (encode (.waittl sf a b)) 31 1 = 0#1 := (seg_off _ b 0 31 1 (by decide)).trans ((seg_off _ a 6 31 1 (by decide)).trans ((seg_off _ sf 21 31 1 (by decide)).trans rfl))
  have h4 : seg (encode (.waittl sf a b)) 21 3 = sf := (seg_off _ b 0 21 3 (by decide)).trans ((seg_off _ a 6 21 3 (by decide)).trans (seg_hit _ sf 21 rfl (by decide)))
  have h5 : seg (encode (.waittl sf a b)) 6 6 = a := (seg_off _ b 0 6 6 (by decide)).trans (seg_hit _ a 6 ((seg_off _ sf 21 6 6 (by decide)).trans rfl) (by decide))
  have h6 : seg (encode (.waittl sf a b)) 0 6 = b := seg_hit _ b 0 ((seg_off _ a 6 0 6 (by decide)).trans ((seg_off _ sf 21 0 6 (by decide)).trans rfl)) (by decide)
  exact decode_of (form64 m (by simp [decode64, h1, h2, h3, h4, h5, h6]))
theorem RoundTrip.sigtl (sf : BitVec 3) (a : BitVec 6) (b : BitVec 6) : RoundTrip.Statement (.sigtl sf a b) := by
  have m : seg (encode (.sigtl sf a b)) 24 7 = 100#7 := (seg_off _ b 0 24 7 (by decide)).trans ((seg_off _ a 6 24 7 (by decide)).trans ((seg_off _ sf 21 24 7 (by decide)).trans rfl))
  have h1 : seg (encode (.sigtl sf a b)) 12 6 = 0#6 := (seg_off _ b 0 12 6 (by decide)).trans ((seg_off _ a 6 12 6 (by decide)).trans ((seg_off _ sf 21 12 6 (by decide)).trans rfl))
  have h2 : seg (encode (.sigtl sf a b)) 18 3 = 1#3 := (seg_off _ b 0 18 3 (by decide)).trans ((seg_off _ a 6 18 3 (by decide)).trans ((seg_off _ sf 21 18 3 (by decide)).trans rfl))
  have h3 : seg (encode (.sigtl sf a b)) 31 1 = 0#1 := (seg_off _ b 0 31 1 (by decide)).trans ((seg_off _ a 6 31 1 (by decide)).trans ((seg_off _ sf 21 31 1 (by decide)).trans rfl))
  have h4 : seg (encode (.sigtl sf a b)) 21 3 = sf := (seg_off _ b 0 21 3 (by decide)).trans ((seg_off _ a 6 21 3 (by decide)).trans (seg_hit _ sf 21 rfl (by decide)))
  have h5 : seg (encode (.sigtl sf a b)) 6 6 = a := (seg_off _ b 0 6 6 (by decide)).trans (seg_hit _ a 6 ((seg_off _ sf 21 6 6 (by decide)).trans rfl) (by decide))
  have h6 : seg (encode (.sigtl sf a b)) 0 6 = b := seg_hit _ b 0 ((seg_off _ a 6 0 6 (by decide)).trans ((seg_off _ sf 21 0 6 (by decide)).trans rfl)) (by decide)
  exact decode_of (form64 m (by simp [decode64, h1, h2, h3, h4, h5, h6]))
theorem RoundTrip.rdtl (d : BitVec 6) (a : BitVec 6) : RoundTrip.Statement (.rdtl d a) := by
  have m : seg (encode (.rdtl d a)) 24 7 = 100#7 := (seg_off _ a 6 24 7 (by decide)).trans ((seg_off _ d 12 24 7 (by decide)).trans rfl)
  have h1 : seg (encode (.rdtl d a)) 0 6 = 0#6 := (seg_off _ a 6 0 6 (by decide)).trans ((seg_off _ d 12 0 6 (by decide)).trans rfl)
  have h2 : seg (encode (.rdtl d a)) 18 3 = 2#3 := (seg_off _ a 6 18 3 (by decide)).trans ((seg_off _ d 12 18 3 (by decide)).trans rfl)
  have h3 : seg (encode (.rdtl d a)) 21 3 = 0#3 := (seg_off _ a 6 21 3 (by decide)).trans ((seg_off _ d 12 21 3 (by decide)).trans rfl)
  have h4 : seg (encode (.rdtl d a)) 31 1 = 0#1 := (seg_off _ a 6 31 1 (by decide)).trans ((seg_off _ d 12 31 1 (by decide)).trans rfl)
  have h5 : seg (encode (.rdtl d a)) 12 6 = d := (seg_off _ a 6 12 6 (by decide)).trans (seg_hit _ d 12 rfl (by decide))
  have h6 : seg (encode (.rdtl d a)) 6 6 = a := seg_hit _ a 6 ((seg_off _ d 12 6 6 (by decide)).trans rfl) (by decide)
  exact decode_of (form64 m (by simp [decode64, h1, h2, h3, h4, h5, h6]))
theorem RoundTrip.trytl (sf : BitVec 3) (d : BitVec 6) (a : BitVec 6) (b : BitVec 6) : RoundTrip.Statement (.trytl sf d a b) := by
  have m : seg (encode (.trytl sf d a b)) 24 7 = 100#7 := (seg_off _ b 0 24 7 (by decide)).trans ((seg_off _ a 6 24 7 (by decide)).trans ((seg_off _ d 12 24 7 (by decide)).trans ((seg_off _ sf 21 24 7 (by decide)).trans rfl)))
  have h1 : seg (encode (.trytl sf d a b)) 18 3 = 3#3 := (seg_off _ b 0 18 3 (by decide)).trans ((seg_off _ a 6 18 3 (by decide)).trans ((seg_off _ d 12 18 3 (by decide)).trans ((seg_off _ sf 21 18 3 (by decide)).trans rfl)))
  have h2 : seg (encode (.trytl sf d a b)) 31 1 = 0#1 := (seg_off _ b 0 31 1 (by decide)).trans ((seg_off _ a 6 31 1 (by decide)).trans ((seg_off _ d 12 31 1 (by decide)).trans ((seg_off _ sf 21 31 1 (by decide)).trans rfl)))
  have h3 : seg (encode (.trytl sf d a b)) 21 3 = sf := (seg_off _ b 0 21 3 (by decide)).trans ((seg_off _ a 6 21 3 (by decide)).trans ((seg_off _ d 12 21 3 (by decide)).trans (seg_hit _ sf 21 rfl (by decide))))
  have h4 : seg (encode (.trytl sf d a b)) 12 6 = d := (seg_off _ b 0 12 6 (by decide)).trans ((seg_off _ a 6 12 6 (by decide)).trans (seg_hit _ d 12 ((seg_off _ sf 21 12 6 (by decide)).trans rfl) (by decide)))
  have h5 : seg (encode (.trytl sf d a b)) 6 6 = a := (seg_off _ b 0 6 6 (by decide)).trans (seg_hit _ a 6 ((seg_off _ d 12 6 6 (by decide)).trans ((seg_off _ sf 21 6 6 (by decide)).trans rfl)) (by decide))
  have h6 : seg (encode (.trytl sf d a b)) 0 6 = b := seg_hit _ b 0 ((seg_off _ a 6 0 6 (by decide)).trans ((seg_off _ d 12 0 6 (by decide)).trans ((seg_off _ sf 21 0 6 (by decide)).trans rfl))) (by decide)
  exact decode_of (form64 m (by simp [decode64, h1, h2, h3, h4, h5, h6]))
theorem RoundTrip.waittlPass (a0 : BitVec 11) : RoundTrip.Statement (.waittlPass a0) := nofun
theorem RoundTrip.binit (sf : BitVec 3) (a : BitVec 6) (b : BitVec 6) : RoundTrip.Statement (.binit sf a b) := by
  have m : seg (encode (.binit sf a b)) 24 7 = 101#7 := (seg_off _ b 0 24 7 (by decide)).trans ((seg_off _ a 6 24 7 (by decide)).trans ((seg_off _ sf 21 24 7 (by decide)).trans rfl))
  have h1 : seg (encode (.binit sf a b)) 12 6 = 0#6 := (seg_off _ b 0 12 6 (by decide)).trans ((seg_off _ a 6 12 6 (by decide)).trans ((seg_off _ sf 21 12 6 (by decide)).trans rfl))
  have h2 : seg (encode (.binit sf a b)) 18 3 = 0#3 := (seg_off _ b 0 18 3 (by decide)).trans ((seg_off _ a 6 18 3 (by decide)).trans ((seg_off _ sf 21 18 3 (by decide)).trans rfl))
  have h3 : seg (encode (.binit sf a b)) 31 1 = 0#1 := (seg_off _ b 0 31 1 (by decide)).trans ((seg_off _ a 6 31 1 (by decide)).trans ((seg_off _ sf 21 31 1 (by decide)).trans rfl))
  have h4 : seg (encode (.binit sf a b)) 21 3 = sf := (seg_off _ b 0 21 3 (by decide)).trans ((seg_off _ a 6 21 3 (by decide)).trans (seg_hit _ sf 21 rfl (by decide)))
  have h5 : seg (encode (.binit sf a b)) 6 6 = a := (seg_off _ b 0 6 6 (by decide)).trans (seg_hit _ a 6 ((seg_off _ sf 21 6 6 (by decide)).trans rfl) (by decide))
  have h6 : seg (encode (.binit sf a b)) 0 6 = b := seg_hit _ b 0 ((seg_off _ a 6 0 6 (by decide)).trans ((seg_off _ sf 21 0 6 (by decide)).trans rfl)) (by decide)
  exact decode_of (form65 m (by simp [decode65, h1, h2, h3, h4, h5, h6]))
theorem RoundTrip.barrive (sf : BitVec 3) (d : BitVec 6) (a : BitVec 6) (b : BitVec 6) : RoundTrip.Statement (.barrive sf d a b) := by
  have m : seg (encode (.barrive sf d a b)) 24 7 = 101#7 := (seg_off _ b 0 24 7 (by decide)).trans ((seg_off _ a 6 24 7 (by decide)).trans ((seg_off _ d 12 24 7 (by decide)).trans ((seg_off _ sf 21 24 7 (by decide)).trans rfl)))
  have h1 : seg (encode (.barrive sf d a b)) 18 3 = 1#3 := (seg_off _ b 0 18 3 (by decide)).trans ((seg_off _ a 6 18 3 (by decide)).trans ((seg_off _ d 12 18 3 (by decide)).trans ((seg_off _ sf 21 18 3 (by decide)).trans rfl)))
  have h2 : seg (encode (.barrive sf d a b)) 31 1 = 0#1 := (seg_off _ b 0 31 1 (by decide)).trans ((seg_off _ a 6 31 1 (by decide)).trans ((seg_off _ d 12 31 1 (by decide)).trans ((seg_off _ sf 21 31 1 (by decide)).trans rfl)))
  have h3 : seg (encode (.barrive sf d a b)) 21 3 = sf := (seg_off _ b 0 21 3 (by decide)).trans ((seg_off _ a 6 21 3 (by decide)).trans ((seg_off _ d 12 21 3 (by decide)).trans (seg_hit _ sf 21 rfl (by decide))))
  have h4 : seg (encode (.barrive sf d a b)) 12 6 = d := (seg_off _ b 0 12 6 (by decide)).trans ((seg_off _ a 6 12 6 (by decide)).trans (seg_hit _ d 12 ((seg_off _ sf 21 12 6 (by decide)).trans rfl) (by decide)))
  have h5 : seg (encode (.barrive sf d a b)) 6 6 = a := (seg_off _ b 0 6 6 (by decide)).trans (seg_hit _ a 6 ((seg_off _ d 12 6 6 (by decide)).trans ((seg_off _ sf 21 6 6 (by decide)).trans rfl)) (by decide))
  have h6 : seg (encode (.barrive sf d a b)) 0 6 = b := seg_hit _ b 0 ((seg_off _ a 6 0 6 (by decide)).trans ((seg_off _ d 12 0 6 (by decide)).trans ((seg_off _ sf 21 0 6 (by decide)).trans rfl))) (by decide)
  exact decode_of (form65 m (by simp [decode65, h1, h2, h3, h4, h5, h6]))
theorem RoundTrip.bwait (sf : BitVec 3) (a : BitVec 6) (b : BitVec 6) : RoundTrip.Statement (.bwait sf a b) := by
  have m : seg (encode (.bwait sf a b)) 24 7 = 101#7 := (seg_off _ b 0 24 7 (by decide)).trans ((seg_off _ a 6 24 7 (by decide)).trans ((seg_off _ sf 21 24 7 (by decide)).trans rfl))
  have h1 : seg (encode (.bwait sf a b)) 12 6 = 0#6 := (seg_off _ b 0 12 6 (by decide)).trans ((seg_off _ a 6 12 6 (by decide)).trans ((seg_off _ sf 21 12 6 (by decide)).trans rfl))
  have h2 : seg (encode (.bwait sf a b)) 18 3 = 2#3 := (seg_off _ b 0 18 3 (by decide)).trans ((seg_off _ a 6 18 3 (by decide)).trans ((seg_off _ sf 21 18 3 (by decide)).trans rfl))
  have h3 : seg (encode (.bwait sf a b)) 31 1 = 0#1 := (seg_off _ b 0 31 1 (by decide)).trans ((seg_off _ a 6 31 1 (by decide)).trans ((seg_off _ sf 21 31 1 (by decide)).trans rfl))
  have h4 : seg (encode (.bwait sf a b)) 21 3 = sf := (seg_off _ b 0 21 3 (by decide)).trans ((seg_off _ a 6 21 3 (by decide)).trans (seg_hit _ sf 21 rfl (by decide)))
  have h5 : seg (encode (.bwait sf a b)) 6 6 = a := (seg_off _ b 0 6 6 (by decide)).trans (seg_hit _ a 6 ((seg_off _ sf 21 6 6 (by decide)).trans rfl) (by decide))
  have h6 : seg (encode (.bwait sf a b)) 0 6 = b := seg_hit _ b 0 ((seg_off _ a 6 0 6 (by decide)).trans ((seg_off _ sf 21 0 6 (by decide)).trans rfl)) (by decide)
  exact decode_of (form65 m (by simp [decode65, h1, h2, h3, h4, h5, h6]))
theorem RoundTrip.btry (sf : BitVec 3) (d : BitVec 6) (a : BitVec 6) (b : BitVec 6) : RoundTrip.Statement (.btry sf d a b) := by
  have m : seg (encode (.btry sf d a b)) 24 7 = 101#7 := (seg_off _ b 0 24 7 (by decide)).trans ((seg_off _ a 6 24 7 (by decide)).trans ((seg_off _ d 12 24 7 (by decide)).trans ((seg_off _ sf 21 24 7 (by decide)).trans rfl)))
  have h1 : seg (encode (.btry sf d a b)) 18 3 = 3#3 := (seg_off _ b 0 18 3 (by decide)).trans ((seg_off _ a 6 18 3 (by decide)).trans ((seg_off _ d 12 18 3 (by decide)).trans ((seg_off _ sf 21 18 3 (by decide)).trans rfl)))
  have h2 : seg (encode (.btry sf d a b)) 31 1 = 0#1 := (seg_off _ b 0 31 1 (by decide)).trans ((seg_off _ a 6 31 1 (by decide)).trans ((seg_off _ d 12 31 1 (by decide)).trans ((seg_off _ sf 21 31 1 (by decide)).trans rfl)))
  have h3 : seg (encode (.btry sf d a b)) 21 3 = sf := (seg_off _ b 0 21 3 (by decide)).trans ((seg_off _ a 6 21 3 (by decide)).trans ((seg_off _ d 12 21 3 (by decide)).trans (seg_hit _ sf 21 rfl (by decide))))
  have h4 : seg (encode (.btry sf d a b)) 12 6 = d := (seg_off _ b 0 12 6 (by decide)).trans ((seg_off _ a 6 12 6 (by decide)).trans (seg_hit _ d 12 ((seg_off _ sf 21 12 6 (by decide)).trans rfl) (by decide)))
  have h5 : seg (encode (.btry sf d a b)) 6 6 = a := (seg_off _ b 0 6 6 (by decide)).trans (seg_hit _ a 6 ((seg_off _ d 12 6 6 (by decide)).trans ((seg_off _ sf 21 6 6 (by decide)).trans rfl)) (by decide))
  have h6 : seg (encode (.btry sf d a b)) 0 6 = b := seg_hit _ b 0 ((seg_off _ a 6 0 6 (by decide)).trans ((seg_off _ d 12 0 6 (by decide)).trans ((seg_off _ sf 21 0 6 (by decide)).trans rfl))) (by decide)
  exact decode_of (form65 m (by simp [decode65, h1, h2, h3, h4, h5, h6]))
theorem RoundTrip.bwaitPass (a0 : BitVec 11) : RoundTrip.Statement (.bwaitPass a0) := nofun
theorem RoundTrip.lock (d : BitVec 6) (a : BitVec 6) : RoundTrip.Statement (.lock d a) := by
  have m : seg (encode (.lock d a)) 24 7 = 101#7 := (seg_off _ a 6 24 7 (by decide)).trans ((seg_off _ d 12 24 7 (by decide)).trans rfl)
  have h1 : seg (encode (.lock d a)) 0 6 = 0#6 := (seg_off _ a 6 0 6 (by decide)).trans ((seg_off _ d 12 0 6 (by decide)).trans rfl)
  have h2 : seg (encode (.lock d a)) 18 3 = 4#3 := (seg_off _ a 6 18 3 (by decide)).trans ((seg_off _ d 12 18 3 (by decide)).trans rfl)
  have h3 : seg (encode (.lock d a)) 21 3 = 0#3 := (seg_off _ a 6 21 3 (by decide)).trans ((seg_off _ d 12 21 3 (by decide)).trans rfl)
  have h4 : seg (encode (.lock d a)) 31 1 = 0#1 := (seg_off _ a 6 31 1 (by decide)).trans ((seg_off _ d 12 31 1 (by decide)).trans rfl)
  have h5 : seg (encode (.lock d a)) 12 6 = d := (seg_off _ a 6 12 6 (by decide)).trans (seg_hit _ d 12 rfl (by decide))
  have h6 : seg (encode (.lock d a)) 6 6 = a := seg_hit _ a 6 ((seg_off _ d 12 6 6 (by decide)).trans rfl) (by decide)
  exact decode_of (form65 m (by simp [decode65, h1, h2, h3, h4, h5, h6]))
theorem RoundTrip.unlock (d : BitVec 6) (a : BitVec 6) : RoundTrip.Statement (.unlock d a) := by
  have m : seg (encode (.unlock d a)) 24 7 = 101#7 := (seg_off _ a 6 24 7 (by decide)).trans ((seg_off _ d 12 24 7 (by decide)).trans rfl)
  have h1 : seg (encode (.unlock d a)) 0 6 = 0#6 := (seg_off _ a 6 0 6 (by decide)).trans ((seg_off _ d 12 0 6 (by decide)).trans rfl)
  have h2 : seg (encode (.unlock d a)) 18 3 = 5#3 := (seg_off _ a 6 18 3 (by decide)).trans ((seg_off _ d 12 18 3 (by decide)).trans rfl)
  have h3 : seg (encode (.unlock d a)) 21 3 = 0#3 := (seg_off _ a 6 21 3 (by decide)).trans ((seg_off _ d 12 21 3 (by decide)).trans rfl)
  have h4 : seg (encode (.unlock d a)) 31 1 = 0#1 := (seg_off _ a 6 31 1 (by decide)).trans ((seg_off _ d 12 31 1 (by decide)).trans rfl)
  have h5 : seg (encode (.unlock d a)) 12 6 = d := (seg_off _ a 6 12 6 (by decide)).trans (seg_hit _ d 12 rfl (by decide))
  have h6 : seg (encode (.unlock d a)) 6 6 = a := seg_hit _ a 6 ((seg_off _ d 12 6 6 (by decide)).trans rfl) (by decide)
  exact decode_of (form65 m (by simp [decode65, h1, h2, h3, h4, h5, h6]))
theorem RoundTrip.swatchWaitEnd (a0 : BitVec 11) : RoundTrip.Statement (.swatchWaitEnd a0) := nofun
theorem RoundTrip.fenceRel (sf : BitVec 3) : RoundTrip.Statement (.fenceRel sf) := by
  have m : seg (encode (.fenceRel sf)) 24 7 = 96#7 := (seg_off _ sf 21 24 7 (by decide)).trans rfl
  have h1 : seg (encode (.fenceRel sf)) 0 21 = 0#21 := (seg_off _ sf 21 0 21 (by decide)).trans rfl
  have h2 : seg (encode (.fenceRel sf)) 31 1 = 0#1 := (seg_off _ sf 21 31 1 (by decide)).trans rfl
  have h3 : seg (encode (.fenceRel sf)) 21 3 = sf := seg_hit _ sf 21 rfl (by decide)
  exact decode_of (form60 m (by simp [decode60, h1, h2, h3]))
theorem RoundTrip.fenceAcq (sf : BitVec 3) : RoundTrip.Statement (.fenceAcq sf) := by
  have m : seg (encode (.fenceAcq sf)) 24 7 = 96#7 := (seg_off _ sf 21 24 7 (by decide)).trans rfl
  have h1 : seg (encode (.fenceAcq sf)) 0 21 = 262144#21 := (seg_off _ sf 21 0 21 (by decide)).trans rfl
  have h2 : seg (encode (.fenceAcq sf)) 31 1 = 0#1 := (seg_off _ sf 21 31 1 (by decide)).trans rfl
  have h3 : seg (encode (.fenceAcq sf)) 21 3 = sf := seg_hit _ sf 21 rfl (by decide)
  exact decode_of (form60 m (by simp [decode60, h1, h2, h3]))
theorem RoundTrip.fenceFull (sf : BitVec 3) : RoundTrip.Statement (.fenceFull sf) := by
  have m : seg (encode (.fenceFull sf)) 24 7 = 96#7 := (seg_off _ sf 21 24 7 (by decide)).trans rfl
  have h1 : seg (encode (.fenceFull sf)) 0 21 = 524288#21 := (seg_off _ sf 21 0 21 (by decide)).trans rfl
  have h2 : seg (encode (.fenceFull sf)) 31 1 = 0#1 := (seg_off _ sf 21 31 1 (by decide)).trans rfl
  have h3 : seg (encode (.fenceFull sf)) 21 3 = sf := seg_hit _ sf 21 rfl (by decide)
  exact decode_of (form60 m (by simp [decode60, h1, h2, h3]))
theorem RoundTrip.amoAdd (sf : BitVec 3) (d : BitVec 6) (a : BitVec 6) (b : BitVec 6) : RoundTrip.Statement (.amoAdd sf d a b) := by
  have m : seg (encode (.amoAdd sf d a b)) 24 7 = 97#7 := (seg_off _ b 0 24 7 (by decide)).trans ((seg_off _ a 6 24 7 (by decide)).trans ((seg_off _ d 12 24 7 (by decide)).trans ((seg_off _ sf 21 24 7 (by decide)).trans rfl)))
  have h1 : seg (encode (.amoAdd sf d a b)) 18 3 = 0#3 := (seg_off _ b 0 18 3 (by decide)).trans ((seg_off _ a 6 18 3 (by decide)).trans ((seg_off _ d 12 18 3 (by decide)).trans ((seg_off _ sf 21 18 3 (by decide)).trans rfl)))
  have h2 : seg (encode (.amoAdd sf d a b)) 31 1 = 0#1 := (seg_off _ b 0 31 1 (by decide)).trans ((seg_off _ a 6 31 1 (by decide)).trans ((seg_off _ d 12 31 1 (by decide)).trans ((seg_off _ sf 21 31 1 (by decide)).trans rfl)))
  have h3 : seg (encode (.amoAdd sf d a b)) 21 3 = sf := (seg_off _ b 0 21 3 (by decide)).trans ((seg_off _ a 6 21 3 (by decide)).trans ((seg_off _ d 12 21 3 (by decide)).trans (seg_hit _ sf 21 rfl (by decide))))
  have h4 : seg (encode (.amoAdd sf d a b)) 12 6 = d := (seg_off _ b 0 12 6 (by decide)).trans ((seg_off _ a 6 12 6 (by decide)).trans (seg_hit _ d 12 ((seg_off _ sf 21 12 6 (by decide)).trans rfl) (by decide)))
  have h5 : seg (encode (.amoAdd sf d a b)) 6 6 = a := (seg_off _ b 0 6 6 (by decide)).trans (seg_hit _ a 6 ((seg_off _ d 12 6 6 (by decide)).trans ((seg_off _ sf 21 6 6 (by decide)).trans rfl)) (by decide))
  have h6 : seg (encode (.amoAdd sf d a b)) 0 6 = b := seg_hit _ b 0 ((seg_off _ a 6 0 6 (by decide)).trans ((seg_off _ d 12 0 6 (by decide)).trans ((seg_off _ sf 21 0 6 (by decide)).trans rfl))) (by decide)
  exact decode_of (form61 m (by simp [decode61, h1, h2, h3, h4, h5, h6]))
theorem RoundTrip.amoAnd (sf : BitVec 3) (d : BitVec 6) (a : BitVec 6) (b : BitVec 6) : RoundTrip.Statement (.amoAnd sf d a b) := by
  have m : seg (encode (.amoAnd sf d a b)) 24 7 = 97#7 := (seg_off _ b 0 24 7 (by decide)).trans ((seg_off _ a 6 24 7 (by decide)).trans ((seg_off _ d 12 24 7 (by decide)).trans ((seg_off _ sf 21 24 7 (by decide)).trans rfl)))
  have h1 : seg (encode (.amoAnd sf d a b)) 18 3 = 1#3 := (seg_off _ b 0 18 3 (by decide)).trans ((seg_off _ a 6 18 3 (by decide)).trans ((seg_off _ d 12 18 3 (by decide)).trans ((seg_off _ sf 21 18 3 (by decide)).trans rfl)))
  have h2 : seg (encode (.amoAnd sf d a b)) 31 1 = 0#1 := (seg_off _ b 0 31 1 (by decide)).trans ((seg_off _ a 6 31 1 (by decide)).trans ((seg_off _ d 12 31 1 (by decide)).trans ((seg_off _ sf 21 31 1 (by decide)).trans rfl)))
  have h3 : seg (encode (.amoAnd sf d a b)) 21 3 = sf := (seg_off _ b 0 21 3 (by decide)).trans ((seg_off _ a 6 21 3 (by decide)).trans ((seg_off _ d 12 21 3 (by decide)).trans (seg_hit _ sf 21 rfl (by decide))))
  have h4 : seg (encode (.amoAnd sf d a b)) 12 6 = d := (seg_off _ b 0 12 6 (by decide)).trans ((seg_off _ a 6 12 6 (by decide)).trans (seg_hit _ d 12 ((seg_off _ sf 21 12 6 (by decide)).trans rfl) (by decide)))
  have h5 : seg (encode (.amoAnd sf d a b)) 6 6 = a := (seg_off _ b 0 6 6 (by decide)).trans (seg_hit _ a 6 ((seg_off _ d 12 6 6 (by decide)).trans ((seg_off _ sf 21 6 6 (by decide)).trans rfl)) (by decide))
  have h6 : seg (encode (.amoAnd sf d a b)) 0 6 = b := seg_hit _ b 0 ((seg_off _ a 6 0 6 (by decide)).trans ((seg_off _ d 12 0 6 (by decide)).trans ((seg_off _ sf 21 0 6 (by decide)).trans rfl))) (by decide)
  exact decode_of (form61 m (by simp [decode61, h1, h2, h3, h4, h5, h6]))
theorem RoundTrip.amoOr (sf : BitVec 3) (d : BitVec 6) (a : BitVec 6) (b : BitVec 6) : RoundTrip.Statement (.amoOr sf d a b) := by
  have m : seg (encode (.amoOr sf d a b)) 24 7 = 97#7 := (seg_off _ b 0 24 7 (by decide)).trans ((seg_off _ a 6 24 7 (by decide)).trans ((seg_off _ d 12 24 7 (by decide)).trans ((seg_off _ sf 21 24 7 (by decide)).trans rfl)))
  have h1 : seg (encode (.amoOr sf d a b)) 18 3 = 2#3 := (seg_off _ b 0 18 3 (by decide)).trans ((seg_off _ a 6 18 3 (by decide)).trans ((seg_off _ d 12 18 3 (by decide)).trans ((seg_off _ sf 21 18 3 (by decide)).trans rfl)))
  have h2 : seg (encode (.amoOr sf d a b)) 31 1 = 0#1 := (seg_off _ b 0 31 1 (by decide)).trans ((seg_off _ a 6 31 1 (by decide)).trans ((seg_off _ d 12 31 1 (by decide)).trans ((seg_off _ sf 21 31 1 (by decide)).trans rfl)))
  have h3 : seg (encode (.amoOr sf d a b)) 21 3 = sf := (seg_off _ b 0 21 3 (by decide)).trans ((seg_off _ a 6 21 3 (by decide)).trans ((seg_off _ d 12 21 3 (by decide)).trans (seg_hit _ sf 21 rfl (by decide))))
  have h4 : seg (encode (.amoOr sf d a b)) 12 6 = d := (seg_off _ b 0 12 6 (by decide)).trans ((seg_off _ a 6 12 6 (by decide)).trans (seg_hit _ d 12 ((seg_off _ sf 21 12 6 (by decide)).trans rfl) (by decide)))
  have h5 : seg (encode (.amoOr sf d a b)) 6 6 = a := (seg_off _ b 0 6 6 (by decide)).trans (seg_hit _ a 6 ((seg_off _ d 12 6 6 (by decide)).trans ((seg_off _ sf 21 6 6 (by decide)).trans rfl)) (by decide))
  have h6 : seg (encode (.amoOr sf d a b)) 0 6 = b := seg_hit _ b 0 ((seg_off _ a 6 0 6 (by decide)).trans ((seg_off _ d 12 0 6 (by decide)).trans ((seg_off _ sf 21 0 6 (by decide)).trans rfl))) (by decide)
  exact decode_of (form61 m (by simp [decode61, h1, h2, h3, h4, h5, h6]))
theorem RoundTrip.amoXor (sf : BitVec 3) (d : BitVec 6) (a : BitVec 6) (b : BitVec 6) : RoundTrip.Statement (.amoXor sf d a b) := by
  have m : seg (encode (.amoXor sf d a b)) 24 7 = 97#7 := (seg_off _ b 0 24 7 (by decide)).trans ((seg_off _ a 6 24 7 (by decide)).trans ((seg_off _ d 12 24 7 (by decide)).trans ((seg_off _ sf 21 24 7 (by decide)).trans rfl)))
  have h1 : seg (encode (.amoXor sf d a b)) 18 3 = 3#3 := (seg_off _ b 0 18 3 (by decide)).trans ((seg_off _ a 6 18 3 (by decide)).trans ((seg_off _ d 12 18 3 (by decide)).trans ((seg_off _ sf 21 18 3 (by decide)).trans rfl)))
  have h2 : seg (encode (.amoXor sf d a b)) 31 1 = 0#1 := (seg_off _ b 0 31 1 (by decide)).trans ((seg_off _ a 6 31 1 (by decide)).trans ((seg_off _ d 12 31 1 (by decide)).trans ((seg_off _ sf 21 31 1 (by decide)).trans rfl)))
  have h3 : seg (encode (.amoXor sf d a b)) 21 3 = sf := (seg_off _ b 0 21 3 (by decide)).trans ((seg_off _ a 6 21 3 (by decide)).trans ((seg_off _ d 12 21 3 (by decide)).trans (seg_hit _ sf 21 rfl (by decide))))
  have h4 : seg (encode (.amoXor sf d a b)) 12 6 = d := (seg_off _ b 0 12 6 (by decide)).trans ((seg_off _ a 6 12 6 (by decide)).trans (seg_hit _ d 12 ((seg_off _ sf 21 12 6 (by decide)).trans rfl) (by decide)))
  have h5 : seg (encode (.amoXor sf d a b)) 6 6 = a := (seg_off _ b 0 6 6 (by decide)).trans (seg_hit _ a 6 ((seg_off _ d 12 6 6 (by decide)).trans ((seg_off _ sf 21 6 6 (by decide)).trans rfl)) (by decide))
  have h6 : seg (encode (.amoXor sf d a b)) 0 6 = b := seg_hit _ b 0 ((seg_off _ a 6 0 6 (by decide)).trans ((seg_off _ d 12 0 6 (by decide)).trans ((seg_off _ sf 21 0 6 (by decide)).trans rfl))) (by decide)
  exact decode_of (form61 m (by simp [decode61, h1, h2, h3, h4, h5, h6]))
theorem RoundTrip.amoSwap (sf : BitVec 3) (d : BitVec 6) (a : BitVec 6) (b : BitVec 6) : RoundTrip.Statement (.amoSwap sf d a b) := by
  have m : seg (encode (.amoSwap sf d a b)) 24 7 = 97#7 := (seg_off _ b 0 24 7 (by decide)).trans ((seg_off _ a 6 24 7 (by decide)).trans ((seg_off _ d 12 24 7 (by decide)).trans ((seg_off _ sf 21 24 7 (by decide)).trans rfl)))
  have h1 : seg (encode (.amoSwap sf d a b)) 18 3 = 4#3 := (seg_off _ b 0 18 3 (by decide)).trans ((seg_off _ a 6 18 3 (by decide)).trans ((seg_off _ d 12 18 3 (by decide)).trans ((seg_off _ sf 21 18 3 (by decide)).trans rfl)))
  have h2 : seg (encode (.amoSwap sf d a b)) 31 1 = 0#1 := (seg_off _ b 0 31 1 (by decide)).trans ((seg_off _ a 6 31 1 (by decide)).trans ((seg_off _ d 12 31 1 (by decide)).trans ((seg_off _ sf 21 31 1 (by decide)).trans rfl)))
  have h3 : seg (encode (.amoSwap sf d a b)) 21 3 = sf := (seg_off _ b 0 21 3 (by decide)).trans ((seg_off _ a 6 21 3 (by decide)).trans ((seg_off _ d 12 21 3 (by decide)).trans (seg_hit _ sf 21 rfl (by decide))))
  have h4 : seg (encode (.amoSwap sf d a b)) 12 6 = d := (seg_off _ b 0 12 6 (by decide)).trans ((seg_off _ a 6 12 6 (by decide)).trans (seg_hit _ d 12 ((seg_off _ sf 21 12 6 (by decide)).trans rfl) (by decide)))
  have h5 : seg (encode (.amoSwap sf d a b)) 6 6 = a := (seg_off _ b 0 6 6 (by decide)).trans (seg_hit _ a 6 ((seg_off _ d 12 6 6 (by decide)).trans ((seg_off _ sf 21 6 6 (by decide)).trans rfl)) (by decide))
  have h6 : seg (encode (.amoSwap sf d a b)) 0 6 = b := seg_hit _ b 0 ((seg_off _ a 6 0 6 (by decide)).trans ((seg_off _ d 12 0 6 (by decide)).trans ((seg_off _ sf 21 0 6 (by decide)).trans rfl))) (by decide)
  exact decode_of (form61 m (by simp [decode61, h1, h2, h3, h4, h5, h6]))
theorem RoundTrip.amoMin (sf : BitVec 3) (d : BitVec 6) (a : BitVec 6) (b : BitVec 6) : RoundTrip.Statement (.amoMin sf d a b) := by
  have m : seg (encode (.amoMin sf d a b)) 24 7 = 97#7 := (seg_off _ b 0 24 7 (by decide)).trans ((seg_off _ a 6 24 7 (by decide)).trans ((seg_off _ d 12 24 7 (by decide)).trans ((seg_off _ sf 21 24 7 (by decide)).trans rfl)))
  have h1 : seg (encode (.amoMin sf d a b)) 18 3 = 5#3 := (seg_off _ b 0 18 3 (by decide)).trans ((seg_off _ a 6 18 3 (by decide)).trans ((seg_off _ d 12 18 3 (by decide)).trans ((seg_off _ sf 21 18 3 (by decide)).trans rfl)))
  have h2 : seg (encode (.amoMin sf d a b)) 31 1 = 0#1 := (seg_off _ b 0 31 1 (by decide)).trans ((seg_off _ a 6 31 1 (by decide)).trans ((seg_off _ d 12 31 1 (by decide)).trans ((seg_off _ sf 21 31 1 (by decide)).trans rfl)))
  have h3 : seg (encode (.amoMin sf d a b)) 21 3 = sf := (seg_off _ b 0 21 3 (by decide)).trans ((seg_off _ a 6 21 3 (by decide)).trans ((seg_off _ d 12 21 3 (by decide)).trans (seg_hit _ sf 21 rfl (by decide))))
  have h4 : seg (encode (.amoMin sf d a b)) 12 6 = d := (seg_off _ b 0 12 6 (by decide)).trans ((seg_off _ a 6 12 6 (by decide)).trans (seg_hit _ d 12 ((seg_off _ sf 21 12 6 (by decide)).trans rfl) (by decide)))
  have h5 : seg (encode (.amoMin sf d a b)) 6 6 = a := (seg_off _ b 0 6 6 (by decide)).trans (seg_hit _ a 6 ((seg_off _ d 12 6 6 (by decide)).trans ((seg_off _ sf 21 6 6 (by decide)).trans rfl)) (by decide))
  have h6 : seg (encode (.amoMin sf d a b)) 0 6 = b := seg_hit _ b 0 ((seg_off _ a 6 0 6 (by decide)).trans ((seg_off _ d 12 0 6 (by decide)).trans ((seg_off _ sf 21 0 6 (by decide)).trans rfl))) (by decide)
  exact decode_of (form61 m (by simp [decode61, h1, h2, h3, h4, h5, h6]))
theorem RoundTrip.amoMax (sf : BitVec 3) (d : BitVec 6) (a : BitVec 6) (b : BitVec 6) : RoundTrip.Statement (.amoMax sf d a b) := by
  have m : seg (encode (.amoMax sf d a b)) 24 7 = 97#7 := (seg_off _ b 0 24 7 (by decide)).trans ((seg_off _ a 6 24 7 (by decide)).trans ((seg_off _ d 12 24 7 (by decide)).trans ((seg_off _ sf 21 24 7 (by decide)).trans rfl)))
  have h1 : seg (encode (.amoMax sf d a b)) 18 3 = 6#3 := (seg_off _ b 0 18 3 (by decide)).trans ((seg_off _ a 6 18 3 (by decide)).trans ((seg_off _ d 12 18 3 (by decide)).trans ((seg_off _ sf 21 18 3 (by decide)).trans rfl)))
  have h2 : seg (encode (.amoMax sf d a b)) 31 1 = 0#1 := (seg_off _ b 0 31 1 (by decide)).trans ((seg_off _ a 6 31 1 (by decide)).trans ((seg_off _ d 12 31 1 (by decide)).trans ((seg_off _ sf 21 31 1 (by decide)).trans rfl)))
  have h3 : seg (encode (.amoMax sf d a b)) 21 3 = sf := (seg_off _ b 0 21 3 (by decide)).trans ((seg_off _ a 6 21 3 (by decide)).trans ((seg_off _ d 12 21 3 (by decide)).trans (seg_hit _ sf 21 rfl (by decide))))
  have h4 : seg (encode (.amoMax sf d a b)) 12 6 = d := (seg_off _ b 0 12 6 (by decide)).trans ((seg_off _ a 6 12 6 (by decide)).trans (seg_hit _ d 12 ((seg_off _ sf 21 12 6 (by decide)).trans rfl) (by decide)))
  have h5 : seg (encode (.amoMax sf d a b)) 6 6 = a := (seg_off _ b 0 6 6 (by decide)).trans (seg_hit _ a 6 ((seg_off _ d 12 6 6 (by decide)).trans ((seg_off _ sf 21 6 6 (by decide)).trans rfl)) (by decide))
  have h6 : seg (encode (.amoMax sf d a b)) 0 6 = b := seg_hit _ b 0 ((seg_off _ a 6 0 6 (by decide)).trans ((seg_off _ d 12 0 6 (by decide)).trans ((seg_off _ sf 21 0 6 (by decide)).trans rfl))) (by decide)
  exact decode_of (form61 m (by simp [decode61, h1, h2, h3, h4, h5, h6]))
theorem RoundTrip.amoFadd32 (sf : BitVec 3) (d : BitVec 6) (a : BitVec 6) (b : BitVec 6) : RoundTrip.Statement (.amoFadd32 sf d a b) := by
  have m : seg (encode (.amoFadd32 sf d a b)) 24 7 = 97#7 := (seg_off _ b 0 24 7 (by decide)).trans ((seg_off _ a 6 24 7 (by decide)).trans ((seg_off _ d 12 24 7 (by decide)).trans ((seg_off _ sf 21 24 7 (by decide)).trans rfl)))
  have h1 : seg (encode (.amoFadd32 sf d a b)) 18 3 = 7#3 := (seg_off _ b 0 18 3 (by decide)).trans ((seg_off _ a 6 18 3 (by decide)).trans ((seg_off _ d 12 18 3 (by decide)).trans ((seg_off _ sf 21 18 3 (by decide)).trans rfl)))
  have h2 : seg (encode (.amoFadd32 sf d a b)) 31 1 = 0#1 := (seg_off _ b 0 31 1 (by decide)).trans ((seg_off _ a 6 31 1 (by decide)).trans ((seg_off _ d 12 31 1 (by decide)).trans ((seg_off _ sf 21 31 1 (by decide)).trans rfl)))
  have h3 : seg (encode (.amoFadd32 sf d a b)) 21 3 = sf := (seg_off _ b 0 21 3 (by decide)).trans ((seg_off _ a 6 21 3 (by decide)).trans ((seg_off _ d 12 21 3 (by decide)).trans (seg_hit _ sf 21 rfl (by decide))))
  have h4 : seg (encode (.amoFadd32 sf d a b)) 12 6 = d := (seg_off _ b 0 12 6 (by decide)).trans ((seg_off _ a 6 12 6 (by decide)).trans (seg_hit _ d 12 ((seg_off _ sf 21 12 6 (by decide)).trans rfl) (by decide)))
  have h5 : seg (encode (.amoFadd32 sf d a b)) 6 6 = a := (seg_off _ b 0 6 6 (by decide)).trans (seg_hit _ a 6 ((seg_off _ d 12 6 6 (by decide)).trans ((seg_off _ sf 21 6 6 (by decide)).trans rfl)) (by decide))
  have h6 : seg (encode (.amoFadd32 sf d a b)) 0 6 = b := seg_hit _ b 0 ((seg_off _ a 6 0 6 (by decide)).trans ((seg_off _ d 12 0 6 (by decide)).trans ((seg_off _ sf 21 0 6 (by decide)).trans rfl))) (by decide)
  exact decode_of (form61 m (by simp [decode61, h1, h2, h3, h4, h5, h6]))
theorem RoundTrip.amo2Umin (sf : BitVec 3) (d : BitVec 6) (a : BitVec 6) (b : BitVec 6) : RoundTrip.Statement (.amo2Umin sf d a b) := by
  have m : seg (encode (.amo2Umin sf d a b)) 24 7 = 98#7 := (seg_off _ b 0 24 7 (by decide)).trans ((seg_off _ a 6 24 7 (by decide)).trans ((seg_off _ d 12 24 7 (by decide)).trans ((seg_off _ sf 21 24 7 (by decide)).trans rfl)))
  have h1 : seg (encode (.amo2Umin sf d a b)) 18 3 = 0#3 := (seg_off _ b 0 18 3 (by decide)).trans ((seg_off _ a 6 18 3 (by decide)).trans ((seg_off _ d 12 18 3 (by decide)).trans ((seg_off _ sf 21 18 3 (by decide)).trans rfl)))
  have h2 : seg (encode (.amo2Umin sf d a b)) 31 1 = 0#1 := (seg_off _ b 0 31 1 (by decide)).trans ((seg_off _ a 6 31 1 (by decide)).trans ((seg_off _ d 12 31 1 (by decide)).trans ((seg_off _ sf 21 31 1 (by decide)).trans rfl)))
  have h3 : seg (encode (.amo2Umin sf d a b)) 21 3 = sf := (seg_off _ b 0 21 3 (by decide)).trans ((seg_off _ a 6 21 3 (by decide)).trans ((seg_off _ d 12 21 3 (by decide)).trans (seg_hit _ sf 21 rfl (by decide))))
  have h4 : seg (encode (.amo2Umin sf d a b)) 12 6 = d := (seg_off _ b 0 12 6 (by decide)).trans ((seg_off _ a 6 12 6 (by decide)).trans (seg_hit _ d 12 ((seg_off _ sf 21 12 6 (by decide)).trans rfl) (by decide)))
  have h5 : seg (encode (.amo2Umin sf d a b)) 6 6 = a := (seg_off _ b 0 6 6 (by decide)).trans (seg_hit _ a 6 ((seg_off _ d 12 6 6 (by decide)).trans ((seg_off _ sf 21 6 6 (by decide)).trans rfl)) (by decide))
  have h6 : seg (encode (.amo2Umin sf d a b)) 0 6 = b := seg_hit _ b 0 ((seg_off _ a 6 0 6 (by decide)).trans ((seg_off _ d 12 0 6 (by decide)).trans ((seg_off _ sf 21 0 6 (by decide)).trans rfl))) (by decide)
  exact decode_of (form62 m (by simp [decode62, h1, h2, h3, h4, h5, h6]))
theorem RoundTrip.amo2Umax (sf : BitVec 3) (d : BitVec 6) (a : BitVec 6) (b : BitVec 6) : RoundTrip.Statement (.amo2Umax sf d a b) := by
  have m : seg (encode (.amo2Umax sf d a b)) 24 7 = 98#7 := (seg_off _ b 0 24 7 (by decide)).trans ((seg_off _ a 6 24 7 (by decide)).trans ((seg_off _ d 12 24 7 (by decide)).trans ((seg_off _ sf 21 24 7 (by decide)).trans rfl)))
  have h1 : seg (encode (.amo2Umax sf d a b)) 18 3 = 1#3 := (seg_off _ b 0 18 3 (by decide)).trans ((seg_off _ a 6 18 3 (by decide)).trans ((seg_off _ d 12 18 3 (by decide)).trans ((seg_off _ sf 21 18 3 (by decide)).trans rfl)))
  have h2 : seg (encode (.amo2Umax sf d a b)) 31 1 = 0#1 := (seg_off _ b 0 31 1 (by decide)).trans ((seg_off _ a 6 31 1 (by decide)).trans ((seg_off _ d 12 31 1 (by decide)).trans ((seg_off _ sf 21 31 1 (by decide)).trans rfl)))
  have h3 : seg (encode (.amo2Umax sf d a b)) 21 3 = sf := (seg_off _ b 0 21 3 (by decide)).trans ((seg_off _ a 6 21 3 (by decide)).trans ((seg_off _ d 12 21 3 (by decide)).trans (seg_hit _ sf 21 rfl (by decide))))
  have h4 : seg (encode (.amo2Umax sf d a b)) 12 6 = d := (seg_off _ b 0 12 6 (by decide)).trans ((seg_off _ a 6 12 6 (by decide)).trans (seg_hit _ d 12 ((seg_off _ sf 21 12 6 (by decide)).trans rfl) (by decide)))
  have h5 : seg (encode (.amo2Umax sf d a b)) 6 6 = a := (seg_off _ b 0 6 6 (by decide)).trans (seg_hit _ a 6 ((seg_off _ d 12 6 6 (by decide)).trans ((seg_off _ sf 21 6 6 (by decide)).trans rfl)) (by decide))
  have h6 : seg (encode (.amo2Umax sf d a b)) 0 6 = b := seg_hit _ b 0 ((seg_off _ a 6 0 6 (by decide)).trans ((seg_off _ d 12 0 6 (by decide)).trans ((seg_off _ sf 21 0 6 (by decide)).trans rfl))) (by decide)
  exact decode_of (form62 m (by simp [decode62, h1, h2, h3, h4, h5, h6]))
theorem RoundTrip.amo2Cas (sf : BitVec 3) (d : BitVec 6) (a : BitVec 6) (b : BitVec 6) : RoundTrip.Statement (.amo2Cas sf d a b) := by
  have m : seg (encode (.amo2Cas sf d a b)) 24 7 = 98#7 := (seg_off _ b 0 24 7 (by decide)).trans ((seg_off _ a 6 24 7 (by decide)).trans ((seg_off _ d 12 24 7 (by decide)).trans ((seg_off _ sf 21 24 7 (by decide)).trans rfl)))
  have h1 : seg (encode (.amo2Cas sf d a b)) 18 3 = 2#3 := (seg_off _ b 0 18 3 (by decide)).trans ((seg_off _ a 6 18 3 (by decide)).trans ((seg_off _ d 12 18 3 (by decide)).trans ((seg_off _ sf 21 18 3 (by decide)).trans rfl)))
  have h2 : seg (encode (.amo2Cas sf d a b)) 31 1 = 0#1 := (seg_off _ b 0 31 1 (by decide)).trans ((seg_off _ a 6 31 1 (by decide)).trans ((seg_off _ d 12 31 1 (by decide)).trans ((seg_off _ sf 21 31 1 (by decide)).trans rfl)))
  have h3 : seg (encode (.amo2Cas sf d a b)) 21 3 = sf := (seg_off _ b 0 21 3 (by decide)).trans ((seg_off _ a 6 21 3 (by decide)).trans ((seg_off _ d 12 21 3 (by decide)).trans (seg_hit _ sf 21 rfl (by decide))))
  have h4 : seg (encode (.amo2Cas sf d a b)) 12 6 = d := (seg_off _ b 0 12 6 (by decide)).trans ((seg_off _ a 6 12 6 (by decide)).trans (seg_hit _ d 12 ((seg_off _ sf 21 12 6 (by decide)).trans rfl) (by decide)))
  have h5 : seg (encode (.amo2Cas sf d a b)) 6 6 = a := (seg_off _ b 0 6 6 (by decide)).trans (seg_hit _ a 6 ((seg_off _ d 12 6 6 (by decide)).trans ((seg_off _ sf 21 6 6 (by decide)).trans rfl)) (by decide))
  have h6 : seg (encode (.amo2Cas sf d a b)) 0 6 = b := seg_hit _ b 0 ((seg_off _ a 6 0 6 (by decide)).trans ((seg_off _ d 12 0 6 (by decide)).trans ((seg_off _ sf 21 0 6 (by decide)).trans rfl))) (by decide)
  exact decode_of (form62 m (by simp [decode62, h1, h2, h3, h4, h5, h6]))
theorem RoundTrip.amo2Incb (sf : BitVec 3) (d : BitVec 6) (a : BitVec 6) (b : BitVec 6) : RoundTrip.Statement (.amo2Incb sf d a b) := by
  have m : seg (encode (.amo2Incb sf d a b)) 24 7 = 98#7 := (seg_off _ b 0 24 7 (by decide)).trans ((seg_off _ a 6 24 7 (by decide)).trans ((seg_off _ d 12 24 7 (by decide)).trans ((seg_off _ sf 21 24 7 (by decide)).trans rfl)))
  have h1 : seg (encode (.amo2Incb sf d a b)) 18 3 = 3#3 := (seg_off _ b 0 18 3 (by decide)).trans ((seg_off _ a 6 18 3 (by decide)).trans ((seg_off _ d 12 18 3 (by decide)).trans ((seg_off _ sf 21 18 3 (by decide)).trans rfl)))
  have h2 : seg (encode (.amo2Incb sf d a b)) 31 1 = 0#1 := (seg_off _ b 0 31 1 (by decide)).trans ((seg_off _ a 6 31 1 (by decide)).trans ((seg_off _ d 12 31 1 (by decide)).trans ((seg_off _ sf 21 31 1 (by decide)).trans rfl)))
  have h3 : seg (encode (.amo2Incb sf d a b)) 21 3 = sf := (seg_off _ b 0 21 3 (by decide)).trans ((seg_off _ a 6 21 3 (by decide)).trans ((seg_off _ d 12 21 3 (by decide)).trans (seg_hit _ sf 21 rfl (by decide))))
  have h4 : seg (encode (.amo2Incb sf d a b)) 12 6 = d := (seg_off _ b 0 12 6 (by decide)).trans ((seg_off _ a 6 12 6 (by decide)).trans (seg_hit _ d 12 ((seg_off _ sf 21 12 6 (by decide)).trans rfl) (by decide)))
  have h5 : seg (encode (.amo2Incb sf d a b)) 6 6 = a := (seg_off _ b 0 6 6 (by decide)).trans (seg_hit _ a 6 ((seg_off _ d 12 6 6 (by decide)).trans ((seg_off _ sf 21 6 6 (by decide)).trans rfl)) (by decide))
  have h6 : seg (encode (.amo2Incb sf d a b)) 0 6 = b := seg_hit _ b 0 ((seg_off _ a 6 0 6 (by decide)).trans ((seg_off _ d 12 0 6 (by decide)).trans ((seg_off _ sf 21 0 6 (by decide)).trans rfl))) (by decide)
  exact decode_of (form62 m (by simp [decode62, h1, h2, h3, h4, h5, h6]))
theorem RoundTrip.amo2Fmin32 (sf : BitVec 3) (d : BitVec 6) (a : BitVec 6) (b : BitVec 6) : RoundTrip.Statement (.amo2Fmin32 sf d a b) := by
  have m : seg (encode (.amo2Fmin32 sf d a b)) 24 7 = 98#7 := (seg_off _ b 0 24 7 (by decide)).trans ((seg_off _ a 6 24 7 (by decide)).trans ((seg_off _ d 12 24 7 (by decide)).trans ((seg_off _ sf 21 24 7 (by decide)).trans rfl)))
  have h1 : seg (encode (.amo2Fmin32 sf d a b)) 18 3 = 4#3 := (seg_off _ b 0 18 3 (by decide)).trans ((seg_off _ a 6 18 3 (by decide)).trans ((seg_off _ d 12 18 3 (by decide)).trans ((seg_off _ sf 21 18 3 (by decide)).trans rfl)))
  have h2 : seg (encode (.amo2Fmin32 sf d a b)) 31 1 = 0#1 := (seg_off _ b 0 31 1 (by decide)).trans ((seg_off _ a 6 31 1 (by decide)).trans ((seg_off _ d 12 31 1 (by decide)).trans ((seg_off _ sf 21 31 1 (by decide)).trans rfl)))
  have h3 : seg (encode (.amo2Fmin32 sf d a b)) 21 3 = sf := (seg_off _ b 0 21 3 (by decide)).trans ((seg_off _ a 6 21 3 (by decide)).trans ((seg_off _ d 12 21 3 (by decide)).trans (seg_hit _ sf 21 rfl (by decide))))
  have h4 : seg (encode (.amo2Fmin32 sf d a b)) 12 6 = d := (seg_off _ b 0 12 6 (by decide)).trans ((seg_off _ a 6 12 6 (by decide)).trans (seg_hit _ d 12 ((seg_off _ sf 21 12 6 (by decide)).trans rfl) (by decide)))
  have h5 : seg (encode (.amo2Fmin32 sf d a b)) 6 6 = a := (seg_off _ b 0 6 6 (by decide)).trans (seg_hit _ a 6 ((seg_off _ d 12 6 6 (by decide)).trans ((seg_off _ sf 21 6 6 (by decide)).trans rfl)) (by decide))
  have h6 : seg (encode (.amo2Fmin32 sf d a b)) 0 6 = b := seg_hit _ b 0 ((seg_off _ a 6 0 6 (by decide)).trans ((seg_off _ d 12 0 6 (by decide)).trans ((seg_off _ sf 21 0 6 (by decide)).trans rfl))) (by decide)
  exact decode_of (form62 m (by simp [decode62, h1, h2, h3, h4, h5, h6]))
theorem RoundTrip.amo2Fmax32 (sf : BitVec 3) (d : BitVec 6) (a : BitVec 6) (b : BitVec 6) : RoundTrip.Statement (.amo2Fmax32 sf d a b) := by
  have m : seg (encode (.amo2Fmax32 sf d a b)) 24 7 = 98#7 := (seg_off _ b 0 24 7 (by decide)).trans ((seg_off _ a 6 24 7 (by decide)).trans ((seg_off _ d 12 24 7 (by decide)).trans ((seg_off _ sf 21 24 7 (by decide)).trans rfl)))
  have h1 : seg (encode (.amo2Fmax32 sf d a b)) 18 3 = 5#3 := (seg_off _ b 0 18 3 (by decide)).trans ((seg_off _ a 6 18 3 (by decide)).trans ((seg_off _ d 12 18 3 (by decide)).trans ((seg_off _ sf 21 18 3 (by decide)).trans rfl)))
  have h2 : seg (encode (.amo2Fmax32 sf d a b)) 31 1 = 0#1 := (seg_off _ b 0 31 1 (by decide)).trans ((seg_off _ a 6 31 1 (by decide)).trans ((seg_off _ d 12 31 1 (by decide)).trans ((seg_off _ sf 21 31 1 (by decide)).trans rfl)))
  have h3 : seg (encode (.amo2Fmax32 sf d a b)) 21 3 = sf := (seg_off _ b 0 21 3 (by decide)).trans ((seg_off _ a 6 21 3 (by decide)).trans ((seg_off _ d 12 21 3 (by decide)).trans (seg_hit _ sf 21 rfl (by decide))))
  have h4 : seg (encode (.amo2Fmax32 sf d a b)) 12 6 = d := (seg_off _ b 0 12 6 (by decide)).trans ((seg_off _ a 6 12 6 (by decide)).trans (seg_hit _ d 12 ((seg_off _ sf 21 12 6 (by decide)).trans rfl) (by decide)))
  have h5 : seg (encode (.amo2Fmax32 sf d a b)) 6 6 = a := (seg_off _ b 0 6 6 (by decide)).trans (seg_hit _ a 6 ((seg_off _ d 12 6 6 (by decide)).trans ((seg_off _ sf 21 6 6 (by decide)).trans rfl)) (by decide))
  have h6 : seg (encode (.amo2Fmax32 sf d a b)) 0 6 = b := seg_hit _ b 0 ((seg_off _ a 6 0 6 (by decide)).trans ((seg_off _ d 12 0 6 (by decide)).trans ((seg_off _ sf 21 0 6 (by decide)).trans rfl))) (by decide)
  exact decode_of (form62 m (by simp [decode62, h1, h2, h3, h4, h5, h6]))
theorem RoundTrip.amo2Add32w (sf : BitVec 3) (d : BitVec 6) (a : BitVec 6) (b : BitVec 6) : RoundTrip.Statement (.amo2Add32w sf d a b) := by
  have m : seg (encode (.amo2Add32w sf d a b)) 24 7 = 98#7 := (seg_off _ b 0 24 7 (by decide)).trans ((seg_off _ a 6 24 7 (by decide)).trans ((seg_off _ d 12 24 7 (by decide)).trans ((seg_off _ sf 21 24 7 (by decide)).trans rfl)))
  have h1 : seg (encode (.amo2Add32w sf d a b)) 18 3 = 6#3 := (seg_off _ b 0 18 3 (by decide)).trans ((seg_off _ a 6 18 3 (by decide)).trans ((seg_off _ d 12 18 3 (by decide)).trans ((seg_off _ sf 21 18 3 (by decide)).trans rfl)))
  have h2 : seg (encode (.amo2Add32w sf d a b)) 31 1 = 0#1 := (seg_off _ b 0 31 1 (by decide)).trans ((seg_off _ a 6 31 1 (by decide)).trans ((seg_off _ d 12 31 1 (by decide)).trans ((seg_off _ sf 21 31 1 (by decide)).trans rfl)))
  have h3 : seg (encode (.amo2Add32w sf d a b)) 21 3 = sf := (seg_off _ b 0 21 3 (by decide)).trans ((seg_off _ a 6 21 3 (by decide)).trans ((seg_off _ d 12 21 3 (by decide)).trans (seg_hit _ sf 21 rfl (by decide))))
  have h4 : seg (encode (.amo2Add32w sf d a b)) 12 6 = d := (seg_off _ b 0 12 6 (by decide)).trans ((seg_off _ a 6 12 6 (by decide)).trans (seg_hit _ d 12 ((seg_off _ sf 21 12 6 (by decide)).trans rfl) (by decide)))
  have h5 : seg (encode (.amo2Add32w sf d a b)) 6 6 = a := (seg_off _ b 0 6 6 (by decide)).trans (seg_hit _ a 6 ((seg_off _ d 12 6 6 (by decide)).trans ((seg_off _ sf 21 6 6 (by decide)).trans rfl)) (by decide))
  have h6 : seg (encode (.amo2Add32w sf d a b)) 0 6 = b := seg_hit _ b 0 ((seg_off _ a 6 0 6 (by decide)).trans ((seg_off _ d 12 0 6 (by decide)).trans ((seg_off _ sf 21 0 6 (by decide)).trans rfl))) (by decide)
  exact decode_of (form62 m (by simp [decode62, h1, h2, h3, h4, h5, h6]))
theorem RoundTrip.amo2Fadd16x2 (sf : BitVec 3) (d : BitVec 6) (a : BitVec 6) (b : BitVec 6) : RoundTrip.Statement (.amo2Fadd16x2 sf d a b) := by
  have m : seg (encode (.amo2Fadd16x2 sf d a b)) 24 7 = 98#7 := (seg_off _ b 0 24 7 (by decide)).trans ((seg_off _ a 6 24 7 (by decide)).trans ((seg_off _ d 12 24 7 (by decide)).trans ((seg_off _ sf 21 24 7 (by decide)).trans rfl)))
  have h1 : seg (encode (.amo2Fadd16x2 sf d a b)) 18 3 = 7#3 := (seg_off _ b 0 18 3 (by decide)).trans ((seg_off _ a 6 18 3 (by decide)).trans ((seg_off _ d 12 18 3 (by decide)).trans ((seg_off _ sf 21 18 3 (by decide)).trans rfl)))
  have h2 : seg (encode (.amo2Fadd16x2 sf d a b)) 31 1 = 0#1 := (seg_off _ b 0 31 1 (by decide)).trans ((seg_off _ a 6 31 1 (by decide)).trans ((seg_off _ d 12 31 1 (by decide)).trans ((seg_off _ sf 21 31 1 (by decide)).trans rfl)))
  have h3 : seg (encode (.amo2Fadd16x2 sf d a b)) 21 3 = sf := (seg_off _ b 0 21 3 (by decide)).trans ((seg_off _ a 6 21 3 (by decide)).trans ((seg_off _ d 12 21 3 (by decide)).trans (seg_hit _ sf 21 rfl (by decide))))
  have h4 : seg (encode (.amo2Fadd16x2 sf d a b)) 12 6 = d := (seg_off _ b 0 12 6 (by decide)).trans ((seg_off _ a 6 12 6 (by decide)).trans (seg_hit _ d 12 ((seg_off _ sf 21 12 6 (by decide)).trans rfl) (by decide)))
  have h5 : seg (encode (.amo2Fadd16x2 sf d a b)) 6 6 = a := (seg_off _ b 0 6 6 (by decide)).trans (seg_hit _ a 6 ((seg_off _ d 12 6 6 (by decide)).trans ((seg_off _ sf 21 6 6 (by decide)).trans rfl)) (by decide))
  have h6 : seg (encode (.amo2Fadd16x2 sf d a b)) 0 6 = b := seg_hit _ b 0 ((seg_off _ a 6 0 6 (by decide)).trans ((seg_off _ d 12 0 6 (by decide)).trans ((seg_off _ sf 21 0 6 (by decide)).trans rfl))) (by decide)
  exact decode_of (form62 m (by simp [decode62, h1, h2, h3, h4, h5, h6]))
theorem RoundTrip.ldacq (sf : BitVec 3) (z : BitVec 2) (d : BitVec 6) (a : BitVec 6) : RoundTrip.Statement (.ldacq sf z d a) := by
  have m : seg (encode (.ldacq sf z d a)) 24 7 = 99#7 := (seg_off _ a 6 24 7 (by decide)).trans ((seg_off _ d 12 24 7 (by decide)).trans ((seg_off _ z 18 24 7 (by decide)).trans ((seg_off _ sf 21 24 7 (by decide)).trans rfl)))
  have h1 : seg (encode (.ldacq sf z d a)) 0 6 = 0#6 := (seg_off _ a 6 0 6 (by decide)).trans ((seg_off _ d 12 0 6 (by decide)).trans ((seg_off _ z 18 0 6 (by decide)).trans ((seg_off _ sf 21 0 6 (by decide)).trans rfl)))
  have h2 : seg (encode (.ldacq sf z d a)) 20 1 = 0#1 := (seg_off _ a 6 20 1 (by decide)).trans ((seg_off _ d 12 20 1 (by decide)).trans ((seg_off _ z 18 20 1 (by decide)).trans ((seg_off _ sf 21 20 1 (by decide)).trans rfl)))
  have h3 : seg (encode (.ldacq sf z d a)) 31 1 = 0#1 := (seg_off _ a 6 31 1 (by decide)).trans ((seg_off _ d 12 31 1 (by decide)).trans ((seg_off _ z 18 31 1 (by decide)).trans ((seg_off _ sf 21 31 1 (by decide)).trans rfl)))
  have h4 : seg (encode (.ldacq sf z d a)) 21 3 = sf := (seg_off _ a 6 21 3 (by decide)).trans ((seg_off _ d 12 21 3 (by decide)).trans ((seg_off _ z 18 21 3 (by decide)).trans (seg_hit _ sf 21 rfl (by decide))))
  have h5 : seg (encode (.ldacq sf z d a)) 18 2 = z := (seg_off _ a 6 18 2 (by decide)).trans ((seg_off _ d 12 18 2 (by decide)).trans (seg_hit _ z 18 ((seg_off _ sf 21 18 2 (by decide)).trans rfl) (by decide)))
  have h6 : seg (encode (.ldacq sf z d a)) 12 6 = d := (seg_off _ a 6 12 6 (by decide)).trans (seg_hit _ d 12 ((seg_off _ z 18 12 6 (by decide)).trans ((seg_off _ sf 21 12 6 (by decide)).trans rfl)) (by decide))
  have h7 : seg (encode (.ldacq sf z d a)) 6 6 = a := seg_hit _ a 6 ((seg_off _ d 12 6 6 (by decide)).trans ((seg_off _ z 18 6 6 (by decide)).trans ((seg_off _ sf 21 6 6 (by decide)).trans rfl))) (by decide)
  exact decode_of (form63 m (by simp [decode63, h1, h2, h3, h4, h5, h6, h7]))
theorem RoundTrip.strel (sf : BitVec 3) (z : BitVec 2) (a : BitVec 6) (b : BitVec 6) : RoundTrip.Statement (.strel sf z a b) := by
  have m : seg (encode (.strel sf z a b)) 24 7 = 99#7 := (seg_off _ b 0 24 7 (by decide)).trans ((seg_off _ a 6 24 7 (by decide)).trans ((seg_off _ z 18 24 7 (by decide)).trans ((seg_off _ sf 21 24 7 (by decide)).trans rfl)))
  have h1 : seg (encode (.strel sf z a b)) 12 6 = 0#6 := (seg_off _ b 0 12 6 (by decide)).trans ((seg_off _ a 6 12 6 (by decide)).trans ((seg_off _ z 18 12 6 (by decide)).trans ((seg_off _ sf 21 12 6 (by decide)).trans rfl)))
  have h2 : seg (encode (.strel sf z a b)) 20 1 = 1#1 := (seg_off _ b 0 20 1 (by decide)).trans ((seg_off _ a 6 20 1 (by decide)).trans ((seg_off _ z 18 20 1 (by decide)).trans ((seg_off _ sf 21 20 1 (by decide)).trans rfl)))
  have h3 : seg (encode (.strel sf z a b)) 31 1 = 0#1 := (seg_off _ b 0 31 1 (by decide)).trans ((seg_off _ a 6 31 1 (by decide)).trans ((seg_off _ z 18 31 1 (by decide)).trans ((seg_off _ sf 21 31 1 (by decide)).trans rfl)))
  have h4 : seg (encode (.strel sf z a b)) 21 3 = sf := (seg_off _ b 0 21 3 (by decide)).trans ((seg_off _ a 6 21 3 (by decide)).trans ((seg_off _ z 18 21 3 (by decide)).trans (seg_hit _ sf 21 rfl (by decide))))
  have h5 : seg (encode (.strel sf z a b)) 18 2 = z := (seg_off _ b 0 18 2 (by decide)).trans ((seg_off _ a 6 18 2 (by decide)).trans (seg_hit _ z 18 ((seg_off _ sf 21 18 2 (by decide)).trans rfl) (by decide)))
  have h6 : seg (encode (.strel sf z a b)) 6 6 = a := (seg_off _ b 0 6 6 (by decide)).trans (seg_hit _ a 6 ((seg_off _ z 18 6 6 (by decide)).trans ((seg_off _ sf 21 6 6 (by decide)).trans rfl)) (by decide))
  have h7 : seg (encode (.strel sf z a b)) 0 6 = b := seg_hit _ b 0 ((seg_off _ a 6 0 6 (by decide)).trans ((seg_off _ z 18 0 6 (by decide)).trans ((seg_off _ sf 21 0 6 (by decide)).trans rfl))) (by decide)
  exact decode_of (form63 m (by simp [decode63, h1, h2, h3, h4, h5, h6, h7]))
theorem RoundTrip.launch (d : BitVec 6) (a : BitVec 6) : RoundTrip.Statement (.launch d a) := by
  have m : seg (encode (.launch d a)) 24 7 = 112#7 := (seg_off _ a 12 24 7 (by decide)).trans ((seg_off _ d 18 24 7 (by decide)).trans rfl)
  have h1 : seg (encode (.launch d a)) 0 6 = 0#6 := (seg_off _ a 12 0 6 (by decide)).trans ((seg_off _ d 18 0 6 (by decide)).trans rfl)
  have h2 : seg (encode (.launch d a)) 6 6 = 0#6 := (seg_off _ a 12 6 6 (by decide)).trans ((seg_off _ d 18 6 6 (by decide)).trans rfl)
  have h3 : seg (encode (.launch d a)) 31 1 = 0#1 := (seg_off _ a 12 31 1 (by decide)).trans ((seg_off _ d 18 31 1 (by decide)).trans rfl)
  have h4 : seg (encode (.launch d a)) 18 6 = d := (seg_off _ a 12 18 6 (by decide)).trans (seg_hit _ d 18 rfl (by decide))
  have h5 : seg (encode (.launch d a)) 12 6 = a := seg_hit _ a 12 ((seg_off _ d 18 12 6 (by decide)).trans rfl) (by decide)
  exact decode_of (form70 m (by simp [decode70, h1, h2, h3, h4, h5]))
theorem RoundTrip.launchId (d : BitVec 6) (a : BitVec 6) : RoundTrip.Statement (.launchId d a) := by
  have m : seg (encode (.launchId d a)) 24 7 = 112#7 := (seg_off _ a 12 24 7 (by decide)).trans ((seg_off _ d 18 24 7 (by decide)).trans rfl)
  have h1 : seg (encode (.launchId d a)) 0 6 = 1#6 := (seg_off _ a 12 0 6 (by decide)).trans ((seg_off _ d 18 0 6 (by decide)).trans rfl)
  have h2 : seg (encode (.launchId d a)) 6 6 = 0#6 := (seg_off _ a 12 6 6 (by decide)).trans ((seg_off _ d 18 6 6 (by decide)).trans rfl)
  have h3 : seg (encode (.launchId d a)) 31 1 = 0#1 := (seg_off _ a 12 31 1 (by decide)).trans ((seg_off _ d 18 31 1 (by decide)).trans rfl)
  have h4 : seg (encode (.launchId d a)) 18 6 = d := (seg_off _ a 12 18 6 (by decide)).trans (seg_hit _ d 18 rfl (by decide))
  have h5 : seg (encode (.launchId d a)) 12 6 = a := seg_hit _ a 12 ((seg_off _ d 18 12 6 (by decide)).trans rfl) (by decide)
  exact decode_of (form70 m (by simp [decode70, h1, h2, h3, h4, h5]))
theorem RoundTrip.launchGate (d : BitVec 6) (a : BitVec 6) (b : BitVec 6) : RoundTrip.Statement (.launchGate d a b) := by
  have m : seg (encode (.launchGate d a b)) 24 7 = 112#7 := (seg_off _ b 6 24 7 (by decide)).trans ((seg_off _ a 12 24 7 (by decide)).trans ((seg_off _ d 18 24 7 (by decide)).trans rfl))
  have h1 : seg (encode (.launchGate d a b)) 0 6 = 2#6 := (seg_off _ b 6 0 6 (by decide)).trans ((seg_off _ a 12 0 6 (by decide)).trans ((seg_off _ d 18 0 6 (by decide)).trans rfl))
  have h2 : seg (encode (.launchGate d a b)) 31 1 = 0#1 := (seg_off _ b 6 31 1 (by decide)).trans ((seg_off _ a 12 31 1 (by decide)).trans ((seg_off _ d 18 31 1 (by decide)).trans rfl))
  have h3 : seg (encode (.launchGate d a b)) 18 6 = d := (seg_off _ b 6 18 6 (by decide)).trans ((seg_off _ a 12 18 6 (by decide)).trans (seg_hit _ d 18 rfl (by decide)))
  have h4 : seg (encode (.launchGate d a b)) 12 6 = a := (seg_off _ b 6 12 6 (by decide)).trans (seg_hit _ a 12 ((seg_off _ d 18 12 6 (by decide)).trans rfl) (by decide))
  have h5 : seg (encode (.launchGate d a b)) 6 6 = b := seg_hit _ b 6 ((seg_off _ a 12 6 6 (by decide)).trans ((seg_off _ d 18 6 6 (by decide)).trans rfl)) (by decide)
  exact decode_of (form70 m (by simp [decode70, h1, h2, h3, h4, h5]))
theorem RoundTrip.launchGateId (d : BitVec 6) (a : BitVec 6) (b : BitVec 6) : RoundTrip.Statement (.launchGateId d a b) := by
  have m : seg (encode (.launchGateId d a b)) 24 7 = 112#7 := (seg_off _ b 6 24 7 (by decide)).trans ((seg_off _ a 12 24 7 (by decide)).trans ((seg_off _ d 18 24 7 (by decide)).trans rfl))
  have h1 : seg (encode (.launchGateId d a b)) 0 6 = 3#6 := (seg_off _ b 6 0 6 (by decide)).trans ((seg_off _ a 12 0 6 (by decide)).trans ((seg_off _ d 18 0 6 (by decide)).trans rfl))
  have h2 : seg (encode (.launchGateId d a b)) 31 1 = 0#1 := (seg_off _ b 6 31 1 (by decide)).trans ((seg_off _ a 12 31 1 (by decide)).trans ((seg_off _ d 18 31 1 (by decide)).trans rfl))
  have h3 : seg (encode (.launchGateId d a b)) 18 6 = d := (seg_off _ b 6 18 6 (by decide)).trans ((seg_off _ a 12 18 6 (by decide)).trans (seg_hit _ d 18 rfl (by decide)))
  have h4 : seg (encode (.launchGateId d a b)) 12 6 = a := (seg_off _ b 6 12 6 (by decide)).trans (seg_hit _ a 12 ((seg_off _ d 18 12 6 (by decide)).trans rfl) (by decide))
  have h5 : seg (encode (.launchGateId d a b)) 6 6 = b := seg_hit _ b 6 ((seg_off _ a 12 6 6 (by decide)).trans ((seg_off _ d 18 6 6 (by decide)).trans rfl)) (by decide)
  exact decode_of (form70 m (by simp [decode70, h1, h2, h3, h4, h5]))
theorem RoundTrip.lwait (d : BitVec 6) (a : BitVec 6) : RoundTrip.Statement (.lwait d a) := by
  have m : seg (encode (.lwait d a)) 24 7 = 112#7 := (seg_off _ a 12 24 7 (by decide)).trans ((seg_off _ d 18 24 7 (by decide)).trans rfl)
  have h1 : seg (encode (.lwait d a)) 0 6 = 4#6 := (seg_off _ a 12 0 6 (by decide)).trans ((seg_off _ d 18 0 6 (by decide)).trans rfl)
  have h2 : seg (encode (.lwait d a)) 6 6 = 0#6 := (seg_off _ a 12 6 6 (by decide)).trans ((seg_off _ d 18 6 6 (by decide)).trans rfl)
  have h3 : seg (encode (.lwait d a)) 31 1 = 0#1 := (seg_off _ a 12 31 1 (by decide)).trans ((seg_off _ d 18 31 1 (by decide)).trans rfl)
  have h4 : seg (encode (.lwait d a)) 18 6 = d := (seg_off _ a 12 18 6 (by decide)).trans (seg_hit _ d 18 rfl (by decide))
  have h5 : seg (encode (.lwait d a)) 12 6 = a := seg_hit _ a 12 ((seg_off _ d 18 12 6 (by decide)).trans rfl) (by decide)
  exact decode_of (form70 m (by simp [decode70, h1, h2, h3, h4, h5]))
theorem RoundTrip.ltry (d : BitVec 6) (a : BitVec 6) : RoundTrip.Statement (.ltry d a) := by
  have m : seg (encode (.ltry d a)) 24 7 = 112#7 := (seg_off _ a 12 24 7 (by decide)).trans ((seg_off _ d 18 24 7 (by decide)).trans rfl)
  have h1 : seg (encode (.ltry d a)) 0 6 = 5#6 := (seg_off _ a 12 0 6 (by decide)).trans ((seg_off _ d 18 0 6 (by decide)).trans rfl)
  have h2 : seg (encode (.ltry d a)) 6 6 = 0#6 := (seg_off _ a 12 6 6 (by decide)).trans ((seg_off _ d 18 6 6 (by decide)).trans rfl)
  have h3 : seg (encode (.ltry d a)) 31 1 = 0#1 := (seg_off _ a 12 31 1 (by decide)).trans ((seg_off _ d 18 31 1 (by decide)).trans rfl)
  have h4 : seg (encode (.ltry d a)) 18 6 = d := (seg_off _ a 12 18 6 (by decide)).trans (seg_hit _ d 18 rfl (by decide))
  have h5 : seg (encode (.ltry d a)) 12 6 = a := seg_hit _ a 12 ((seg_off _ d 18 12 6 (by decide)).trans rfl) (by decide)
  exact decode_of (form70 m (by simp [decode70, h1, h2, h3, h4, h5]))
theorem RoundTrip.lcancel (d : BitVec 6) (a : BitVec 6) : RoundTrip.Statement (.lcancel d a) := by
  have m : seg (encode (.lcancel d a)) 24 7 = 112#7 := (seg_off _ a 12 24 7 (by decide)).trans ((seg_off _ d 18 24 7 (by decide)).trans rfl)
  have h1 : seg (encode (.lcancel d a)) 0 6 = 6#6 := (seg_off _ a 12 0 6 (by decide)).trans ((seg_off _ d 18 0 6 (by decide)).trans rfl)
  have h2 : seg (encode (.lcancel d a)) 6 6 = 0#6 := (seg_off _ a 12 6 6 (by decide)).trans ((seg_off _ d 18 6 6 (by decide)).trans rfl)
  have h3 : seg (encode (.lcancel d a)) 31 1 = 0#1 := (seg_off _ a 12 31 1 (by decide)).trans ((seg_off _ d 18 31 1 (by decide)).trans rfl)
  have h4 : seg (encode (.lcancel d a)) 18 6 = d := (seg_off _ a 12 18 6 (by decide)).trans (seg_hit _ d 18 rfl (by decide))
  have h5 : seg (encode (.lcancel d a)) 12 6 = a := seg_hit _ a 12 ((seg_off _ d 18 12 6 (by decide)).trans rfl) (by decide)
  exact decode_of (form70 m (by simp [decode70, h1, h2, h3, h4, h5]))
theorem RoundTrip.lwaitComplete (a0 : BitVec 11) : RoundTrip.Statement (.lwaitComplete a0) := nofun
theorem RoundTrip.msend (d : BitVec 6) (a : BitVec 6) (n : BitVec 4) : RoundTrip.Statement (.msend d a n) := by
  have m : seg (encode (.msend d a n)) 24 7 = 113#7 := (seg_off _ n 6 24 7 (by decide)).trans ((seg_off _ a 12 24 7 (by decide)).trans ((seg_off _ d 18 24 7 (by decide)).trans rfl))
  have h1 : seg (encode (.msend d a n)) 0 6 = 0#6 := (seg_off _ n 6 0 6 (by decide)).trans ((seg_off _ a 12 0 6 (by decide)).trans ((seg_off _ d 18 0 6 (by decide)).trans rfl))
  have h2 : seg (encode (.msend d a n)) 10 2 = 0#2 := (seg_off _ n 6 10 2 (by decide)).trans ((seg_off _ a 12 10 2 (by decide)).trans ((seg_off _ d 18 10 2 (by decide)).trans rfl))
  have h3 : seg (encode (.msend d a n)) 31 1 = 0#1 := (seg_off _ n 6 31 1 (by decide)).trans ((seg_off _ a 12 31 1 (by decide)).trans ((seg_off _ d 18 31 1 (by decide)).trans rfl))
  have h4 : seg (encode (.msend d a n)) 18 6 = d := (seg_off _ n 6 18 6 (by decide)).trans ((seg_off _ a 12 18 6 (by decide)).trans (seg_hit _ d 18 rfl (by decide)))
  have h5 : seg (encode (.msend d a n)) 12 6 = a := (seg_off _ n 6 12 6 (by decide)).trans (seg_hit _ a 12 ((seg_off _ d 18 12 6 (by decide)).trans rfl) (by decide))
  have h6 : seg (encode (.msend d a n)) 6 4 = n := seg_hit _ n 6 ((seg_off _ a 12 6 4 (by decide)).trans ((seg_off _ d 18 6 4 (by decide)).trans rfl)) (by decide)
  exact decode_of (form71 m (by simp [decode71, h1, h2, h3, h4, h5, h6]))
theorem RoundTrip.msendw (d : BitVec 6) (a : BitVec 6) (b : BitVec 6) : RoundTrip.Statement (.msendw d a b) := by
  have m : seg (encode (.msendw d a b)) 24 7 = 113#7 := (seg_off _ b 6 24 7 (by decide)).trans ((seg_off _ a 12 24 7 (by decide)).trans ((seg_off _ d 18 24 7 (by decide)).trans rfl))
  have h1 : seg (encode (.msendw d a b)) 0 6 = 1#6 := (seg_off _ b 6 0 6 (by decide)).trans ((seg_off _ a 12 0 6 (by decide)).trans ((seg_off _ d 18 0 6 (by decide)).trans rfl))
  have h2 : seg (encode (.msendw d a b)) 31 1 = 0#1 := (seg_off _ b 6 31 1 (by decide)).trans ((seg_off _ a 12 31 1 (by decide)).trans ((seg_off _ d 18 31 1 (by decide)).trans rfl))
  have h3 : seg (encode (.msendw d a b)) 18 6 = d := (seg_off _ b 6 18 6 (by decide)).trans ((seg_off _ a 12 18 6 (by decide)).trans (seg_hit _ d 18 rfl (by decide)))
  have h4 : seg (encode (.msendw d a b)) 12 6 = a := (seg_off _ b 6 12 6 (by decide)).trans (seg_hit _ a 12 ((seg_off _ d 18 12 6 (by decide)).trans rfl) (by decide))
  have h5 : seg (encode (.msendw d a b)) 6 6 = b := seg_hit _ b 6 ((seg_off _ a 12 6 6 (by decide)).trans ((seg_off _ d 18 6 6 (by decide)).trans rfl)) (by decide)
  exact decode_of (form71 m (by simp [decode71, h1, h2, h3, h4, h5]))
theorem RoundTrip.mailboxEntryGrant (a0 : BitVec 11) (a1 : BitVec 1) : RoundTrip.Statement (.mailboxEntryGrant a0 a1) := nofun
theorem RoundTrip.messageDelivery (a0 : Nat) : RoundTrip.Statement (.messageDelivery a0) := nofun
theorem RoundTrip.mrecv (d : BitVec 6) (n : BitVec 4) : RoundTrip.Statement (.mrecv d n) := by
  have m : seg (encode (.mrecv d n)) 24 7 = 113#7 := (seg_off _ n 6 24 7 (by decide)).trans ((seg_off _ d 18 24 7 (by decide)).trans rfl)
  have h1 : seg (encode (.mrecv d n)) 0 6 = 2#6 := (seg_off _ n 6 0 6 (by decide)).trans ((seg_off _ d 18 0 6 (by decide)).trans rfl)
  have h2 : seg (encode (.mrecv d n)) 10 2 = 0#2 := (seg_off _ n 6 10 2 (by decide)).trans ((seg_off _ d 18 10 2 (by decide)).trans rfl)
  have h3 : seg (encode (.mrecv d n)) 12 6 = 0#6 := (seg_off _ n 6 12 6 (by decide)).trans ((seg_off _ d 18 12 6 (by decide)).trans rfl)
  have h4 : seg (encode (.mrecv d n)) 31 1 = 0#1 := (seg_off _ n 6 31 1 (by decide)).trans ((seg_off _ d 18 31 1 (by decide)).trans rfl)
  have h5 : seg (encode (.mrecv d n)) 18 6 = d := (seg_off _ n 6 18 6 (by decide)).trans (seg_hit _ d 18 rfl (by decide))
  have h6 : seg (encode (.mrecv d n)) 6 4 = n := seg_hit _ n 6 ((seg_off _ d 18 6 4 (by decide)).trans rfl) (by decide)
  exact decode_of (form71 m (by simp [decode71, h1, h2, h3, h4, h5, h6]))
theorem RoundTrip.mtry (d : BitVec 6) (n : BitVec 4) : RoundTrip.Statement (.mtry d n) := by
  have m : seg (encode (.mtry d n)) 24 7 = 113#7 := (seg_off _ n 6 24 7 (by decide)).trans ((seg_off _ d 18 24 7 (by decide)).trans rfl)
  have h1 : seg (encode (.mtry d n)) 0 6 = 3#6 := (seg_off _ n 6 0 6 (by decide)).trans ((seg_off _ d 18 0 6 (by decide)).trans rfl)
  have h2 : seg (encode (.mtry d n)) 10 2 = 0#2 := (seg_off _ n 6 10 2 (by decide)).trans ((seg_off _ d 18 10 2 (by decide)).trans rfl)
  have h3 : seg (encode (.mtry d n)) 12 6 = 0#6 := (seg_off _ n 6 12 6 (by decide)).trans ((seg_off _ d 18 12 6 (by decide)).trans rfl)
  have h4 : seg (encode (.mtry d n)) 31 1 = 0#1 := (seg_off _ n 6 31 1 (by decide)).trans ((seg_off _ d 18 31 1 (by decide)).trans rfl)
  have h5 : seg (encode (.mtry d n)) 18 6 = d := (seg_off _ n 6 18 6 (by decide)).trans (seg_hit _ d 18 rfl (by decide))
  have h6 : seg (encode (.mtry d n)) 6 4 = n := seg_hit _ n 6 ((seg_off _ d 18 6 4 (by decide)).trans rfl) (by decide)
  exact decode_of (form71 m (by simp [decode71, h1, h2, h3, h4, h5, h6]))
theorem RoundTrip.mrecvTake (a0 : BitVec 11) : RoundTrip.Statement (.mrecvTake a0) := nofun
theorem RoundTrip.msigtl (a : BitVec 6) (b : BitVec 6) : RoundTrip.Statement (.msigtl a b) := by
  have m : seg (encode (.msigtl a b)) 24 7 = 113#7 := (seg_off _ b 6 24 7 (by decide)).trans ((seg_off _ a 12 24 7 (by decide)).trans rfl)
  have h1 : seg (encode (.msigtl a b)) 0 6 = 4#6 := (seg_off _ b 6 0 6 (by decide)).trans ((seg_off _ a 12 0 6 (by decide)).trans rfl)
  have h2 : seg (encode (.msigtl a b)) 18 6 = 0#6 := (seg_off _ b 6 18 6 (by decide)).trans ((seg_off _ a 12 18 6 (by decide)).trans rfl)
  have h3 : seg (encode (.msigtl a b)) 31 1 = 0#1 := (seg_off _ b 6 31 1 (by decide)).trans ((seg_off _ a 12 31 1 (by decide)).trans rfl)
  have h4 : seg (encode (.msigtl a b)) 12 6 = a := (seg_off _ b 6 12 6 (by decide)).trans (seg_hit _ a 12 rfl (by decide))
  have h5 : seg (encode (.msigtl a b)) 6 6 = b := seg_hit _ b 6 ((seg_off _ a 12 6 6 (by decide)).trans rfl) (by decide)
  exact decode_of (form71 m (by simp [decode71, h1, h2, h3, h4, h5]))
theorem RoundTrip.mwaittl (a : BitVec 6) (b : BitVec 6) : RoundTrip.Statement (.mwaittl a b) := by
  have m : seg (encode (.mwaittl a b)) 24 7 = 113#7 := (seg_off _ b 6 24 7 (by decide)).trans ((seg_off _ a 12 24 7 (by decide)).trans rfl)
  have h1 : seg (encode (.mwaittl a b)) 0 6 = 5#6 := (seg_off _ b 6 0 6 (by decide)).trans ((seg_off _ a 12 0 6 (by decide)).trans rfl)
  have h2 : seg (encode (.mwaittl a b)) 18 6 = 0#6 := (seg_off _ b 6 18 6 (by decide)).trans ((seg_off _ a 12 18 6 (by decide)).trans rfl)
  have h3 : seg (encode (.mwaittl a b)) 31 1 = 0#1 := (seg_off _ b 6 31 1 (by decide)).trans ((seg_off _ a 12 31 1 (by decide)).trans rfl)
  have h4 : seg (encode (.mwaittl a b)) 12 6 = a := (seg_off _ b 6 12 6 (by decide)).trans (seg_hit _ a 12 rfl (by decide))
  have h5 : seg (encode (.mwaittl a b)) 6 6 = b := seg_hit _ b 6 ((seg_off _ a 12 6 6 (by decide)).trans rfl) (by decide)
  exact decode_of (form71 m (by simp [decode71, h1, h2, h3, h4, h5]))
theorem RoundTrip.mtrytl (d : BitVec 6) (a : BitVec 6) (b : BitVec 6) : RoundTrip.Statement (.mtrytl d a b) := by
  have m : seg (encode (.mtrytl d a b)) 24 7 = 113#7 := (seg_off _ b 6 24 7 (by decide)).trans ((seg_off _ a 12 24 7 (by decide)).trans ((seg_off _ d 18 24 7 (by decide)).trans rfl))
  have h1 : seg (encode (.mtrytl d a b)) 0 6 = 6#6 := (seg_off _ b 6 0 6 (by decide)).trans ((seg_off _ a 12 0 6 (by decide)).trans ((seg_off _ d 18 0 6 (by decide)).trans rfl))
  have h2 : seg (encode (.mtrytl d a b)) 31 1 = 0#1 := (seg_off _ b 6 31 1 (by decide)).trans ((seg_off _ a 12 31 1 (by decide)).trans ((seg_off _ d 18 31 1 (by decide)).trans rfl))
  have h3 : seg (encode (.mtrytl d a b)) 18 6 = d := (seg_off _ b 6 18 6 (by decide)).trans ((seg_off _ a 12 18 6 (by decide)).trans (seg_hit _ d 18 rfl (by decide)))
  have h4 : seg (encode (.mtrytl d a b)) 12 6 = a := (seg_off _ b 6 12 6 (by decide)).trans (seg_hit _ a 12 ((seg_off _ d 18 12 6 (by decide)).trans rfl) (by decide))
  have h5 : seg (encode (.mtrytl d a b)) 6 6 = b := seg_hit _ b 6 ((seg_off _ a 12 6 6 (by decide)).trans ((seg_off _ d 18 6 6 (by decide)).trans rfl)) (by decide)
  exact decode_of (form71 m (by simp [decode71, h1, h2, h3, h4, h5]))
theorem RoundTrip.mamoAdd (d : BitVec 6) (a : BitVec 6) (b : BitVec 6) : RoundTrip.Statement (.mamoAdd d a b) := by
  have m : seg (encode (.mamoAdd d a b)) 24 7 = 113#7 := (seg_off _ b 6 24 7 (by decide)).trans ((seg_off _ a 12 24 7 (by decide)).trans ((seg_off _ d 18 24 7 (by decide)).trans rfl))
  have h1 : seg (encode (.mamoAdd d a b)) 0 6 = 16#6 := (seg_off _ b 6 0 6 (by decide)).trans ((seg_off _ a 12 0 6 (by decide)).trans ((seg_off _ d 18 0 6 (by decide)).trans rfl))
  have h2 : seg (encode (.mamoAdd d a b)) 31 1 = 0#1 := (seg_off _ b 6 31 1 (by decide)).trans ((seg_off _ a 12 31 1 (by decide)).trans ((seg_off _ d 18 31 1 (by decide)).trans rfl))
  have h3 : seg (encode (.mamoAdd d a b)) 18 6 = d := (seg_off _ b 6 18 6 (by decide)).trans ((seg_off _ a 12 18 6 (by decide)).trans (seg_hit _ d 18 rfl (by decide)))
  have h4 : seg (encode (.mamoAdd d a b)) 12 6 = a := (seg_off _ b 6 12 6 (by decide)).trans (seg_hit _ a 12 ((seg_off _ d 18 12 6 (by decide)).trans rfl) (by decide))
  have h5 : seg (encode (.mamoAdd d a b)) 6 6 = b := seg_hit _ b 6 ((seg_off _ a 12 6 6 (by decide)).trans ((seg_off _ d 18 6 6 (by decide)).trans rfl)) (by decide)
  exact decode_of (form71 m (by simp [decode71, h1, h2, h3, h4, h5]))
theorem RoundTrip.mamoAnd (d : BitVec 6) (a : BitVec 6) (b : BitVec 6) : RoundTrip.Statement (.mamoAnd d a b) := by
  have m : seg (encode (.mamoAnd d a b)) 24 7 = 113#7 := (seg_off _ b 6 24 7 (by decide)).trans ((seg_off _ a 12 24 7 (by decide)).trans ((seg_off _ d 18 24 7 (by decide)).trans rfl))
  have h1 : seg (encode (.mamoAnd d a b)) 0 6 = 17#6 := (seg_off _ b 6 0 6 (by decide)).trans ((seg_off _ a 12 0 6 (by decide)).trans ((seg_off _ d 18 0 6 (by decide)).trans rfl))
  have h2 : seg (encode (.mamoAnd d a b)) 31 1 = 0#1 := (seg_off _ b 6 31 1 (by decide)).trans ((seg_off _ a 12 31 1 (by decide)).trans ((seg_off _ d 18 31 1 (by decide)).trans rfl))
  have h3 : seg (encode (.mamoAnd d a b)) 18 6 = d := (seg_off _ b 6 18 6 (by decide)).trans ((seg_off _ a 12 18 6 (by decide)).trans (seg_hit _ d 18 rfl (by decide)))
  have h4 : seg (encode (.mamoAnd d a b)) 12 6 = a := (seg_off _ b 6 12 6 (by decide)).trans (seg_hit _ a 12 ((seg_off _ d 18 12 6 (by decide)).trans rfl) (by decide))
  have h5 : seg (encode (.mamoAnd d a b)) 6 6 = b := seg_hit _ b 6 ((seg_off _ a 12 6 6 (by decide)).trans ((seg_off _ d 18 6 6 (by decide)).trans rfl)) (by decide)
  exact decode_of (form71 m (by simp [decode71, h1, h2, h3, h4, h5]))
theorem RoundTrip.mamoOr (d : BitVec 6) (a : BitVec 6) (b : BitVec 6) : RoundTrip.Statement (.mamoOr d a b) := by
  have m : seg (encode (.mamoOr d a b)) 24 7 = 113#7 := (seg_off _ b 6 24 7 (by decide)).trans ((seg_off _ a 12 24 7 (by decide)).trans ((seg_off _ d 18 24 7 (by decide)).trans rfl))
  have h1 : seg (encode (.mamoOr d a b)) 0 6 = 18#6 := (seg_off _ b 6 0 6 (by decide)).trans ((seg_off _ a 12 0 6 (by decide)).trans ((seg_off _ d 18 0 6 (by decide)).trans rfl))
  have h2 : seg (encode (.mamoOr d a b)) 31 1 = 0#1 := (seg_off _ b 6 31 1 (by decide)).trans ((seg_off _ a 12 31 1 (by decide)).trans ((seg_off _ d 18 31 1 (by decide)).trans rfl))
  have h3 : seg (encode (.mamoOr d a b)) 18 6 = d := (seg_off _ b 6 18 6 (by decide)).trans ((seg_off _ a 12 18 6 (by decide)).trans (seg_hit _ d 18 rfl (by decide)))
  have h4 : seg (encode (.mamoOr d a b)) 12 6 = a := (seg_off _ b 6 12 6 (by decide)).trans (seg_hit _ a 12 ((seg_off _ d 18 12 6 (by decide)).trans rfl) (by decide))
  have h5 : seg (encode (.mamoOr d a b)) 6 6 = b := seg_hit _ b 6 ((seg_off _ a 12 6 6 (by decide)).trans ((seg_off _ d 18 6 6 (by decide)).trans rfl)) (by decide)
  exact decode_of (form71 m (by simp [decode71, h1, h2, h3, h4, h5]))
theorem RoundTrip.mamoXor (d : BitVec 6) (a : BitVec 6) (b : BitVec 6) : RoundTrip.Statement (.mamoXor d a b) := by
  have m : seg (encode (.mamoXor d a b)) 24 7 = 113#7 := (seg_off _ b 6 24 7 (by decide)).trans ((seg_off _ a 12 24 7 (by decide)).trans ((seg_off _ d 18 24 7 (by decide)).trans rfl))
  have h1 : seg (encode (.mamoXor d a b)) 0 6 = 19#6 := (seg_off _ b 6 0 6 (by decide)).trans ((seg_off _ a 12 0 6 (by decide)).trans ((seg_off _ d 18 0 6 (by decide)).trans rfl))
  have h2 : seg (encode (.mamoXor d a b)) 31 1 = 0#1 := (seg_off _ b 6 31 1 (by decide)).trans ((seg_off _ a 12 31 1 (by decide)).trans ((seg_off _ d 18 31 1 (by decide)).trans rfl))
  have h3 : seg (encode (.mamoXor d a b)) 18 6 = d := (seg_off _ b 6 18 6 (by decide)).trans ((seg_off _ a 12 18 6 (by decide)).trans (seg_hit _ d 18 rfl (by decide)))
  have h4 : seg (encode (.mamoXor d a b)) 12 6 = a := (seg_off _ b 6 12 6 (by decide)).trans (seg_hit _ a 12 ((seg_off _ d 18 12 6 (by decide)).trans rfl) (by decide))
  have h5 : seg (encode (.mamoXor d a b)) 6 6 = b := seg_hit _ b 6 ((seg_off _ a 12 6 6 (by decide)).trans ((seg_off _ d 18 6 6 (by decide)).trans rfl)) (by decide)
  exact decode_of (form71 m (by simp [decode71, h1, h2, h3, h4, h5]))
theorem RoundTrip.mamoSwap (d : BitVec 6) (a : BitVec 6) (b : BitVec 6) : RoundTrip.Statement (.mamoSwap d a b) := by
  have m : seg (encode (.mamoSwap d a b)) 24 7 = 113#7 := (seg_off _ b 6 24 7 (by decide)).trans ((seg_off _ a 12 24 7 (by decide)).trans ((seg_off _ d 18 24 7 (by decide)).trans rfl))
  have h1 : seg (encode (.mamoSwap d a b)) 0 6 = 20#6 := (seg_off _ b 6 0 6 (by decide)).trans ((seg_off _ a 12 0 6 (by decide)).trans ((seg_off _ d 18 0 6 (by decide)).trans rfl))
  have h2 : seg (encode (.mamoSwap d a b)) 31 1 = 0#1 := (seg_off _ b 6 31 1 (by decide)).trans ((seg_off _ a 12 31 1 (by decide)).trans ((seg_off _ d 18 31 1 (by decide)).trans rfl))
  have h3 : seg (encode (.mamoSwap d a b)) 18 6 = d := (seg_off _ b 6 18 6 (by decide)).trans ((seg_off _ a 12 18 6 (by decide)).trans (seg_hit _ d 18 rfl (by decide)))
  have h4 : seg (encode (.mamoSwap d a b)) 12 6 = a := (seg_off _ b 6 12 6 (by decide)).trans (seg_hit _ a 12 ((seg_off _ d 18 12 6 (by decide)).trans rfl) (by decide))
  have h5 : seg (encode (.mamoSwap d a b)) 6 6 = b := seg_hit _ b 6 ((seg_off _ a 12 6 6 (by decide)).trans ((seg_off _ d 18 6 6 (by decide)).trans rfl)) (by decide)
  exact decode_of (form71 m (by simp [decode71, h1, h2, h3, h4, h5]))
theorem RoundTrip.mamoMin (d : BitVec 6) (a : BitVec 6) (b : BitVec 6) : RoundTrip.Statement (.mamoMin d a b) := by
  have m : seg (encode (.mamoMin d a b)) 24 7 = 113#7 := (seg_off _ b 6 24 7 (by decide)).trans ((seg_off _ a 12 24 7 (by decide)).trans ((seg_off _ d 18 24 7 (by decide)).trans rfl))
  have h1 : seg (encode (.mamoMin d a b)) 0 6 = 21#6 := (seg_off _ b 6 0 6 (by decide)).trans ((seg_off _ a 12 0 6 (by decide)).trans ((seg_off _ d 18 0 6 (by decide)).trans rfl))
  have h2 : seg (encode (.mamoMin d a b)) 31 1 = 0#1 := (seg_off _ b 6 31 1 (by decide)).trans ((seg_off _ a 12 31 1 (by decide)).trans ((seg_off _ d 18 31 1 (by decide)).trans rfl))
  have h3 : seg (encode (.mamoMin d a b)) 18 6 = d := (seg_off _ b 6 18 6 (by decide)).trans ((seg_off _ a 12 18 6 (by decide)).trans (seg_hit _ d 18 rfl (by decide)))
  have h4 : seg (encode (.mamoMin d a b)) 12 6 = a := (seg_off _ b 6 12 6 (by decide)).trans (seg_hit _ a 12 ((seg_off _ d 18 12 6 (by decide)).trans rfl) (by decide))
  have h5 : seg (encode (.mamoMin d a b)) 6 6 = b := seg_hit _ b 6 ((seg_off _ a 12 6 6 (by decide)).trans ((seg_off _ d 18 6 6 (by decide)).trans rfl)) (by decide)
  exact decode_of (form71 m (by simp [decode71, h1, h2, h3, h4, h5]))
theorem RoundTrip.mamoMax (d : BitVec 6) (a : BitVec 6) (b : BitVec 6) : RoundTrip.Statement (.mamoMax d a b) := by
  have m : seg (encode (.mamoMax d a b)) 24 7 = 113#7 := (seg_off _ b 6 24 7 (by decide)).trans ((seg_off _ a 12 24 7 (by decide)).trans ((seg_off _ d 18 24 7 (by decide)).trans rfl))
  have h1 : seg (encode (.mamoMax d a b)) 0 6 = 22#6 := (seg_off _ b 6 0 6 (by decide)).trans ((seg_off _ a 12 0 6 (by decide)).trans ((seg_off _ d 18 0 6 (by decide)).trans rfl))
  have h2 : seg (encode (.mamoMax d a b)) 31 1 = 0#1 := (seg_off _ b 6 31 1 (by decide)).trans ((seg_off _ a 12 31 1 (by decide)).trans ((seg_off _ d 18 31 1 (by decide)).trans rfl))
  have h3 : seg (encode (.mamoMax d a b)) 18 6 = d := (seg_off _ b 6 18 6 (by decide)).trans ((seg_off _ a 12 18 6 (by decide)).trans (seg_hit _ d 18 rfl (by decide)))
  have h4 : seg (encode (.mamoMax d a b)) 12 6 = a := (seg_off _ b 6 12 6 (by decide)).trans (seg_hit _ a 12 ((seg_off _ d 18 12 6 (by decide)).trans rfl) (by decide))
  have h5 : seg (encode (.mamoMax d a b)) 6 6 = b := seg_hit _ b 6 ((seg_off _ a 12 6 6 (by decide)).trans ((seg_off _ d 18 6 6 (by decide)).trans rfl)) (by decide)
  exact decode_of (form71 m (by simp [decode71, h1, h2, h3, h4, h5]))
theorem RoundTrip.mamoFadd32 (d : BitVec 6) (a : BitVec 6) (b : BitVec 6) : RoundTrip.Statement (.mamoFadd32 d a b) := by
  have m : seg (encode (.mamoFadd32 d a b)) 24 7 = 113#7 := (seg_off _ b 6 24 7 (by decide)).trans ((seg_off _ a 12 24 7 (by decide)).trans ((seg_off _ d 18 24 7 (by decide)).trans rfl))
  have h1 : seg (encode (.mamoFadd32 d a b)) 0 6 = 23#6 := (seg_off _ b 6 0 6 (by decide)).trans ((seg_off _ a 12 0 6 (by decide)).trans ((seg_off _ d 18 0 6 (by decide)).trans rfl))
  have h2 : seg (encode (.mamoFadd32 d a b)) 31 1 = 0#1 := (seg_off _ b 6 31 1 (by decide)).trans ((seg_off _ a 12 31 1 (by decide)).trans ((seg_off _ d 18 31 1 (by decide)).trans rfl))
  have h3 : seg (encode (.mamoFadd32 d a b)) 18 6 = d := (seg_off _ b 6 18 6 (by decide)).trans ((seg_off _ a 12 18 6 (by decide)).trans (seg_hit _ d 18 rfl (by decide)))
  have h4 : seg (encode (.mamoFadd32 d a b)) 12 6 = a := (seg_off _ b 6 12 6 (by decide)).trans (seg_hit _ a 12 ((seg_off _ d 18 12 6 (by decide)).trans rfl) (by decide))
  have h5 : seg (encode (.mamoFadd32 d a b)) 6 6 = b := seg_hit _ b 6 ((seg_off _ a 12 6 6 (by decide)).trans ((seg_off _ d 18 6 6 (by decide)).trans rfl)) (by decide)
  exact decode_of (form71 m (by simp [decode71, h1, h2, h3, h4, h5]))
theorem RoundTrip.mamo2Umin (d : BitVec 6) (a : BitVec 6) (b : BitVec 6) : RoundTrip.Statement (.mamo2Umin d a b) := by
  have m : seg (encode (.mamo2Umin d a b)) 24 7 = 113#7 := (seg_off _ b 6 24 7 (by decide)).trans ((seg_off _ a 12 24 7 (by decide)).trans ((seg_off _ d 18 24 7 (by decide)).trans rfl))
  have h1 : seg (encode (.mamo2Umin d a b)) 0 6 = 24#6 := (seg_off _ b 6 0 6 (by decide)).trans ((seg_off _ a 12 0 6 (by decide)).trans ((seg_off _ d 18 0 6 (by decide)).trans rfl))
  have h2 : seg (encode (.mamo2Umin d a b)) 31 1 = 0#1 := (seg_off _ b 6 31 1 (by decide)).trans ((seg_off _ a 12 31 1 (by decide)).trans ((seg_off _ d 18 31 1 (by decide)).trans rfl))
  have h3 : seg (encode (.mamo2Umin d a b)) 18 6 = d := (seg_off _ b 6 18 6 (by decide)).trans ((seg_off _ a 12 18 6 (by decide)).trans (seg_hit _ d 18 rfl (by decide)))
  have h4 : seg (encode (.mamo2Umin d a b)) 12 6 = a := (seg_off _ b 6 12 6 (by decide)).trans (seg_hit _ a 12 ((seg_off _ d 18 12 6 (by decide)).trans rfl) (by decide))
  have h5 : seg (encode (.mamo2Umin d a b)) 6 6 = b := seg_hit _ b 6 ((seg_off _ a 12 6 6 (by decide)).trans ((seg_off _ d 18 6 6 (by decide)).trans rfl)) (by decide)
  exact decode_of (form71 m (by simp [decode71, h1, h2, h3, h4, h5]))
theorem RoundTrip.mamo2Umax (d : BitVec 6) (a : BitVec 6) (b : BitVec 6) : RoundTrip.Statement (.mamo2Umax d a b) := by
  have m : seg (encode (.mamo2Umax d a b)) 24 7 = 113#7 := (seg_off _ b 6 24 7 (by decide)).trans ((seg_off _ a 12 24 7 (by decide)).trans ((seg_off _ d 18 24 7 (by decide)).trans rfl))
  have h1 : seg (encode (.mamo2Umax d a b)) 0 6 = 25#6 := (seg_off _ b 6 0 6 (by decide)).trans ((seg_off _ a 12 0 6 (by decide)).trans ((seg_off _ d 18 0 6 (by decide)).trans rfl))
  have h2 : seg (encode (.mamo2Umax d a b)) 31 1 = 0#1 := (seg_off _ b 6 31 1 (by decide)).trans ((seg_off _ a 12 31 1 (by decide)).trans ((seg_off _ d 18 31 1 (by decide)).trans rfl))
  have h3 : seg (encode (.mamo2Umax d a b)) 18 6 = d := (seg_off _ b 6 18 6 (by decide)).trans ((seg_off _ a 12 18 6 (by decide)).trans (seg_hit _ d 18 rfl (by decide)))
  have h4 : seg (encode (.mamo2Umax d a b)) 12 6 = a := (seg_off _ b 6 12 6 (by decide)).trans (seg_hit _ a 12 ((seg_off _ d 18 12 6 (by decide)).trans rfl) (by decide))
  have h5 : seg (encode (.mamo2Umax d a b)) 6 6 = b := seg_hit _ b 6 ((seg_off _ a 12 6 6 (by decide)).trans ((seg_off _ d 18 6 6 (by decide)).trans rfl)) (by decide)
  exact decode_of (form71 m (by simp [decode71, h1, h2, h3, h4, h5]))
theorem RoundTrip.mamo2Cas (d : BitVec 6) (a : BitVec 6) (b : BitVec 6) : RoundTrip.Statement (.mamo2Cas d a b) := by
  have m : seg (encode (.mamo2Cas d a b)) 24 7 = 113#7 := (seg_off _ b 6 24 7 (by decide)).trans ((seg_off _ a 12 24 7 (by decide)).trans ((seg_off _ d 18 24 7 (by decide)).trans rfl))
  have h1 : seg (encode (.mamo2Cas d a b)) 0 6 = 26#6 := (seg_off _ b 6 0 6 (by decide)).trans ((seg_off _ a 12 0 6 (by decide)).trans ((seg_off _ d 18 0 6 (by decide)).trans rfl))
  have h2 : seg (encode (.mamo2Cas d a b)) 31 1 = 0#1 := (seg_off _ b 6 31 1 (by decide)).trans ((seg_off _ a 12 31 1 (by decide)).trans ((seg_off _ d 18 31 1 (by decide)).trans rfl))
  have h3 : seg (encode (.mamo2Cas d a b)) 18 6 = d := (seg_off _ b 6 18 6 (by decide)).trans ((seg_off _ a 12 18 6 (by decide)).trans (seg_hit _ d 18 rfl (by decide)))
  have h4 : seg (encode (.mamo2Cas d a b)) 12 6 = a := (seg_off _ b 6 12 6 (by decide)).trans (seg_hit _ a 12 ((seg_off _ d 18 12 6 (by decide)).trans rfl) (by decide))
  have h5 : seg (encode (.mamo2Cas d a b)) 6 6 = b := seg_hit _ b 6 ((seg_off _ a 12 6 6 (by decide)).trans ((seg_off _ d 18 6 6 (by decide)).trans rfl)) (by decide)
  exact decode_of (form71 m (by simp [decode71, h1, h2, h3, h4, h5]))
theorem RoundTrip.mamo2Incb (d : BitVec 6) (a : BitVec 6) (b : BitVec 6) : RoundTrip.Statement (.mamo2Incb d a b) := by
  have m : seg (encode (.mamo2Incb d a b)) 24 7 = 113#7 := (seg_off _ b 6 24 7 (by decide)).trans ((seg_off _ a 12 24 7 (by decide)).trans ((seg_off _ d 18 24 7 (by decide)).trans rfl))
  have h1 : seg (encode (.mamo2Incb d a b)) 0 6 = 27#6 := (seg_off _ b 6 0 6 (by decide)).trans ((seg_off _ a 12 0 6 (by decide)).trans ((seg_off _ d 18 0 6 (by decide)).trans rfl))
  have h2 : seg (encode (.mamo2Incb d a b)) 31 1 = 0#1 := (seg_off _ b 6 31 1 (by decide)).trans ((seg_off _ a 12 31 1 (by decide)).trans ((seg_off _ d 18 31 1 (by decide)).trans rfl))
  have h3 : seg (encode (.mamo2Incb d a b)) 18 6 = d := (seg_off _ b 6 18 6 (by decide)).trans ((seg_off _ a 12 18 6 (by decide)).trans (seg_hit _ d 18 rfl (by decide)))
  have h4 : seg (encode (.mamo2Incb d a b)) 12 6 = a := (seg_off _ b 6 12 6 (by decide)).trans (seg_hit _ a 12 ((seg_off _ d 18 12 6 (by decide)).trans rfl) (by decide))
  have h5 : seg (encode (.mamo2Incb d a b)) 6 6 = b := seg_hit _ b 6 ((seg_off _ a 12 6 6 (by decide)).trans ((seg_off _ d 18 6 6 (by decide)).trans rfl)) (by decide)
  exact decode_of (form71 m (by simp [decode71, h1, h2, h3, h4, h5]))
theorem RoundTrip.mamo2Fmin32 (d : BitVec 6) (a : BitVec 6) (b : BitVec 6) : RoundTrip.Statement (.mamo2Fmin32 d a b) := by
  have m : seg (encode (.mamo2Fmin32 d a b)) 24 7 = 113#7 := (seg_off _ b 6 24 7 (by decide)).trans ((seg_off _ a 12 24 7 (by decide)).trans ((seg_off _ d 18 24 7 (by decide)).trans rfl))
  have h1 : seg (encode (.mamo2Fmin32 d a b)) 0 6 = 28#6 := (seg_off _ b 6 0 6 (by decide)).trans ((seg_off _ a 12 0 6 (by decide)).trans ((seg_off _ d 18 0 6 (by decide)).trans rfl))
  have h2 : seg (encode (.mamo2Fmin32 d a b)) 31 1 = 0#1 := (seg_off _ b 6 31 1 (by decide)).trans ((seg_off _ a 12 31 1 (by decide)).trans ((seg_off _ d 18 31 1 (by decide)).trans rfl))
  have h3 : seg (encode (.mamo2Fmin32 d a b)) 18 6 = d := (seg_off _ b 6 18 6 (by decide)).trans ((seg_off _ a 12 18 6 (by decide)).trans (seg_hit _ d 18 rfl (by decide)))
  have h4 : seg (encode (.mamo2Fmin32 d a b)) 12 6 = a := (seg_off _ b 6 12 6 (by decide)).trans (seg_hit _ a 12 ((seg_off _ d 18 12 6 (by decide)).trans rfl) (by decide))
  have h5 : seg (encode (.mamo2Fmin32 d a b)) 6 6 = b := seg_hit _ b 6 ((seg_off _ a 12 6 6 (by decide)).trans ((seg_off _ d 18 6 6 (by decide)).trans rfl)) (by decide)
  exact decode_of (form71 m (by simp [decode71, h1, h2, h3, h4, h5]))
theorem RoundTrip.mamo2Fmax32 (d : BitVec 6) (a : BitVec 6) (b : BitVec 6) : RoundTrip.Statement (.mamo2Fmax32 d a b) := by
  have m : seg (encode (.mamo2Fmax32 d a b)) 24 7 = 113#7 := (seg_off _ b 6 24 7 (by decide)).trans ((seg_off _ a 12 24 7 (by decide)).trans ((seg_off _ d 18 24 7 (by decide)).trans rfl))
  have h1 : seg (encode (.mamo2Fmax32 d a b)) 0 6 = 29#6 := (seg_off _ b 6 0 6 (by decide)).trans ((seg_off _ a 12 0 6 (by decide)).trans ((seg_off _ d 18 0 6 (by decide)).trans rfl))
  have h2 : seg (encode (.mamo2Fmax32 d a b)) 31 1 = 0#1 := (seg_off _ b 6 31 1 (by decide)).trans ((seg_off _ a 12 31 1 (by decide)).trans ((seg_off _ d 18 31 1 (by decide)).trans rfl))
  have h3 : seg (encode (.mamo2Fmax32 d a b)) 18 6 = d := (seg_off _ b 6 18 6 (by decide)).trans ((seg_off _ a 12 18 6 (by decide)).trans (seg_hit _ d 18 rfl (by decide)))
  have h4 : seg (encode (.mamo2Fmax32 d a b)) 12 6 = a := (seg_off _ b 6 12 6 (by decide)).trans (seg_hit _ a 12 ((seg_off _ d 18 12 6 (by decide)).trans rfl) (by decide))
  have h5 : seg (encode (.mamo2Fmax32 d a b)) 6 6 = b := seg_hit _ b 6 ((seg_off _ a 12 6 6 (by decide)).trans ((seg_off _ d 18 6 6 (by decide)).trans rfl)) (by decide)
  exact decode_of (form71 m (by simp [decode71, h1, h2, h3, h4, h5]))
theorem RoundTrip.mamo2Add32w (d : BitVec 6) (a : BitVec 6) (b : BitVec 6) : RoundTrip.Statement (.mamo2Add32w d a b) := by
  have m : seg (encode (.mamo2Add32w d a b)) 24 7 = 113#7 := (seg_off _ b 6 24 7 (by decide)).trans ((seg_off _ a 12 24 7 (by decide)).trans ((seg_off _ d 18 24 7 (by decide)).trans rfl))
  have h1 : seg (encode (.mamo2Add32w d a b)) 0 6 = 30#6 := (seg_off _ b 6 0 6 (by decide)).trans ((seg_off _ a 12 0 6 (by decide)).trans ((seg_off _ d 18 0 6 (by decide)).trans rfl))
  have h2 : seg (encode (.mamo2Add32w d a b)) 31 1 = 0#1 := (seg_off _ b 6 31 1 (by decide)).trans ((seg_off _ a 12 31 1 (by decide)).trans ((seg_off _ d 18 31 1 (by decide)).trans rfl))
  have h3 : seg (encode (.mamo2Add32w d a b)) 18 6 = d := (seg_off _ b 6 18 6 (by decide)).trans ((seg_off _ a 12 18 6 (by decide)).trans (seg_hit _ d 18 rfl (by decide)))
  have h4 : seg (encode (.mamo2Add32w d a b)) 12 6 = a := (seg_off _ b 6 12 6 (by decide)).trans (seg_hit _ a 12 ((seg_off _ d 18 12 6 (by decide)).trans rfl) (by decide))
  have h5 : seg (encode (.mamo2Add32w d a b)) 6 6 = b := seg_hit _ b 6 ((seg_off _ a 12 6 6 (by decide)).trans ((seg_off _ d 18 6 6 (by decide)).trans rfl)) (by decide)
  exact decode_of (form71 m (by simp [decode71, h1, h2, h3, h4, h5]))
theorem RoundTrip.mamo2Fadd16x2 (d : BitVec 6) (a : BitVec 6) (b : BitVec 6) : RoundTrip.Statement (.mamo2Fadd16x2 d a b) := by
  have m : seg (encode (.mamo2Fadd16x2 d a b)) 24 7 = 113#7 := (seg_off _ b 6 24 7 (by decide)).trans ((seg_off _ a 12 24 7 (by decide)).trans ((seg_off _ d 18 24 7 (by decide)).trans rfl))
  have h1 : seg (encode (.mamo2Fadd16x2 d a b)) 0 6 = 31#6 := (seg_off _ b 6 0 6 (by decide)).trans ((seg_off _ a 12 0 6 (by decide)).trans ((seg_off _ d 18 0 6 (by decide)).trans rfl))
  have h2 : seg (encode (.mamo2Fadd16x2 d a b)) 31 1 = 0#1 := (seg_off _ b 6 31 1 (by decide)).trans ((seg_off _ a 12 31 1 (by decide)).trans ((seg_off _ d 18 31 1 (by decide)).trans rfl))
  have h3 : seg (encode (.mamo2Fadd16x2 d a b)) 18 6 = d := (seg_off _ b 6 18 6 (by decide)).trans ((seg_off _ a 12 18 6 (by decide)).trans (seg_hit _ d 18 rfl (by decide)))
  have h4 : seg (encode (.mamo2Fadd16x2 d a b)) 12 6 = a := (seg_off _ b 6 12 6 (by decide)).trans (seg_hit _ a 12 ((seg_off _ d 18 12 6 (by decide)).trans rfl) (by decide))
  have h5 : seg (encode (.mamo2Fadd16x2 d a b)) 6 6 = b := seg_hit _ b 6 ((seg_off _ a 12 6 6 (by decide)).trans ((seg_off _ d 18 6 6 (by decide)).trans rfl)) (by decide)
  exact decode_of (form71 m (by simp [decode71, h1, h2, h3, h4, h5]))
theorem RoundTrip.remoteOperation (a0 : BitVec 12) (a1 : BitVec 14) (a2 : BitVec 5) (a3 : BitVec 64) (a4 : BitVec 64) (a5 : BitVec 64) : RoundTrip.Statement (.remoteOperation a0 a1 a2 a3 a4 a5) := nofun
theorem RoundTrip.supvCarea (a : BitVec 6) : RoundTrip.Statement (.supvCarea a) := by
  have m : seg (encode (.supvCarea a)) 24 7 = 114#7 := (seg_off _ a 12 24 7 (by decide)).trans rfl
  have h1 : seg (encode (.supvCarea a)) 0 6 = 0#6 := (seg_off _ a 12 0 6 (by decide)).trans rfl
  have h2 : seg (encode (.supvCarea a)) 6 6 = 0#6 := (seg_off _ a 12 6 6 (by decide)).trans rfl
  have h3 : seg (encode (.supvCarea a)) 18 6 = 0#6 := (seg_off _ a 12 18 6 (by decide)).trans rfl
  have h4 : seg (encode (.supvCarea a)) 31 1 = 0#1 := (seg_off _ a 12 31 1 (by decide)).trans rfl
  have h5 : seg (encode (.supvCarea a)) 12 6 = a := seg_hit _ a 12 rfl (by decide)
  exact decode_of (form72 m (by simp [decode72, h1, h2, h3, h4, h5]))
theorem RoundTrip.supvCsave : RoundTrip.Statement (.supvCsave) := by
  have m : seg (encode (.supvCsave)) 24 7 = 114#7 := rfl
  have h1 : seg (encode (.supvCsave)) 0 6 = 1#6 := rfl
  have h2 : seg (encode (.supvCsave)) 6 6 = 0#6 := rfl
  have h3 : seg (encode (.supvCsave)) 12 6 = 0#6 := rfl
  have h4 : seg (encode (.supvCsave)) 18 6 = 0#6 := rfl
  have h5 : seg (encode (.supvCsave)) 31 1 = 0#1 := rfl
  exact decode_of (form72 m (by simp [decode72, h1, h2, h3, h4, h5]))
theorem RoundTrip.supvCrest : RoundTrip.Statement (.supvCrest) := by
  have m : seg (encode (.supvCrest)) 24 7 = 114#7 := rfl
  have h1 : seg (encode (.supvCrest)) 0 6 = 2#6 := rfl
  have h2 : seg (encode (.supvCrest)) 6 6 = 0#6 := rfl
  have h3 : seg (encode (.supvCrest)) 12 6 = 0#6 := rfl
  have h4 : seg (encode (.supvCrest)) 18 6 = 0#6 := rfl
  have h5 : seg (encode (.supvCrest)) 31 1 = 0#1 := rfl
  exact decode_of (form72 m (by simp [decode72, h1, h2, h3, h4, h5]))
theorem RoundTrip.crestGrant (a0 : BitVec 11) : RoundTrip.Statement (.crestGrant a0) := nofun
theorem RoundTrip.supvTack : RoundTrip.Statement (.supvTack) := by
  have m : seg (encode (.supvTack)) 24 7 = 114#7 := rfl
  have h1 : seg (encode (.supvTack)) 0 6 = 3#6 := rfl
  have h2 : seg (encode (.supvTack)) 6 6 = 0#6 := rfl
  have h3 : seg (encode (.supvTack)) 12 6 = 0#6 := rfl
  have h4 : seg (encode (.supvTack)) 18 6 = 0#6 := rfl
  have h5 : seg (encode (.supvTack)) 31 1 = 0#1 := rfl
  exact decode_of (form72 m (by simp [decode72, h1, h2, h3, h4, h5]))
theorem RoundTrip.supvTset (a : BitVec 6) : RoundTrip.Statement (.supvTset a) := by
  have m : seg (encode (.supvTset a)) 24 7 = 114#7 := (seg_off _ a 12 24 7 (by decide)).trans rfl
  have h1 : seg (encode (.supvTset a)) 0 6 = 4#6 := (seg_off _ a 12 0 6 (by decide)).trans rfl
  have h2 : seg (encode (.supvTset a)) 6 6 = 0#6 := (seg_off _ a 12 6 6 (by decide)).trans rfl
  have h3 : seg (encode (.supvTset a)) 18 6 = 0#6 := (seg_off _ a 12 18 6 (by decide)).trans rfl
  have h4 : seg (encode (.supvTset a)) 31 1 = 0#1 := (seg_off _ a 12 31 1 (by decide)).trans rfl
  have h5 : seg (encode (.supvTset a)) 12 6 = a := seg_hit _ a 12 rfl (by decide)
  exact decode_of (form72 m (by simp [decode72, h1, h2, h3, h4, h5]))
theorem RoundTrip.supvEack (a : BitVec 6) : RoundTrip.Statement (.supvEack a) := by
  have m : seg (encode (.supvEack a)) 24 7 = 114#7 := (seg_off _ a 12 24 7 (by decide)).trans rfl
  have h1 : seg (encode (.supvEack a)) 0 6 = 5#6 := (seg_off _ a 12 0 6 (by decide)).trans rfl
  have h2 : seg (encode (.supvEack a)) 6 6 = 0#6 := (seg_off _ a 12 6 6 (by decide)).trans rfl
  have h3 : seg (encode (.supvEack a)) 18 6 = 0#6 := (seg_off _ a 12 18 6 (by decide)).trans rfl
  have h4 : seg (encode (.supvEack a)) 31 1 = 0#1 := (seg_off _ a 12 31 1 (by decide)).trans rfl
  have h5 : seg (encode (.supvEack a)) 12 6 = a := seg_hit _ a 12 rfl (by decide)
  exact decode_of (form72 m (by simp [decode72, h1, h2, h3, h4, h5]))
theorem RoundTrip.supvPack : RoundTrip.Statement (.supvPack) := by
  have m : seg (encode (.supvPack)) 24 7 = 114#7 := rfl
  have h1 : seg (encode (.supvPack)) 0 6 = 6#6 := rfl
  have h2 : seg (encode (.supvPack)) 6 6 = 0#6 := rfl
  have h3 : seg (encode (.supvPack)) 12 6 = 0#6 := rfl
  have h4 : seg (encode (.supvPack)) 18 6 = 0#6 := rfl
  have h5 : seg (encode (.supvPack)) 31 1 = 0#1 := rfl
  exact decode_of (form72 m (by simp [decode72, h1, h2, h3, h4, h5]))
theorem RoundTrip.supvTlbinv (a : BitVec 6) (b : BitVec 6) : RoundTrip.Statement (.supvTlbinv a b) := by
  have m : seg (encode (.supvTlbinv a b)) 24 7 = 114#7 := (seg_off _ b 6 24 7 (by decide)).trans ((seg_off _ a 12 24 7 (by decide)).trans rfl)
  have h1 : seg (encode (.supvTlbinv a b)) 0 6 = 7#6 := (seg_off _ b 6 0 6 (by decide)).trans ((seg_off _ a 12 0 6 (by decide)).trans rfl)
  have h2 : seg (encode (.supvTlbinv a b)) 18 6 = 0#6 := (seg_off _ b 6 18 6 (by decide)).trans ((seg_off _ a 12 18 6 (by decide)).trans rfl)
  have h3 : seg (encode (.supvTlbinv a b)) 31 1 = 0#1 := (seg_off _ b 6 31 1 (by decide)).trans ((seg_off _ a 12 31 1 (by decide)).trans rfl)
  have h4 : seg (encode (.supvTlbinv a b)) 12 6 = a := (seg_off _ b 6 12 6 (by decide)).trans (seg_hit _ a 12 rfl (by decide))
  have h5 : seg (encode (.supvTlbinv a b)) 6 6 = b := seg_hit _ b 6 ((seg_off _ a 12 6 6 (by decide)).trans rfl) (by decide)
  exact decode_of (form72 m (by simp [decode72, h1, h2, h3, h4, h5]))
theorem RoundTrip.supvQuiesce (d : BitVec 6) (a : BitVec 6) : RoundTrip.Statement (.supvQuiesce d a) := by
  have m : seg (encode (.supvQuiesce d a)) 24 7 = 114#7 := (seg_off _ a 12 24 7 (by decide)).trans ((seg_off _ d 18 24 7 (by decide)).trans rfl)
  have h1 : seg (encode (.supvQuiesce d a)) 0 6 = 8#6 := (seg_off _ a 12 0 6 (by decide)).trans ((seg_off _ d 18 0 6 (by decide)).trans rfl)
  have h2 : seg (encode (.supvQuiesce d a)) 6 6 = 0#6 := (seg_off _ a 12 6 6 (by decide)).trans ((seg_off _ d 18 6 6 (by decide)).trans rfl)
  have h3 : seg (encode (.supvQuiesce d a)) 31 1 = 0#1 := (seg_off _ a 12 31 1 (by decide)).trans ((seg_off _ d 18 31 1 (by decide)).trans rfl)
  have h4 : seg (encode (.supvQuiesce d a)) 18 6 = d := (seg_off _ a 12 18 6 (by decide)).trans (seg_hit _ d 18 rfl (by decide))
  have h5 : seg (encode (.supvQuiesce d a)) 12 6 = a := seg_hit _ a 12 ((seg_off _ d 18 12 6 (by decide)).trans rfl) (by decide)
  exact decode_of (form72 m (by simp [decode72, h1, h2, h3, h4, h5]))
theorem RoundTrip.supvResume (a : BitVec 6) : RoundTrip.Statement (.supvResume a) := by
  have m : seg (encode (.supvResume a)) 24 7 = 114#7 := (seg_off _ a 12 24 7 (by decide)).trans rfl
  have h1 : seg (encode (.supvResume a)) 0 6 = 9#6 := (seg_off _ a 12 0 6 (by decide)).trans rfl
  have h2 : seg (encode (.supvResume a)) 6 6 = 0#6 := (seg_off _ a 12 6 6 (by decide)).trans rfl
  have h3 : seg (encode (.supvResume a)) 18 6 = 0#6 := (seg_off _ a 12 18 6 (by decide)).trans rfl
  have h4 : seg (encode (.supvResume a)) 31 1 = 0#1 := (seg_off _ a 12 31 1 (by decide)).trans rfl
  have h5 : seg (encode (.supvResume a)) 12 6 = a := seg_hit _ a 12 rfl (by decide)
  exact decode_of (form72 m (by simp [decode72, h1, h2, h3, h4, h5]))
theorem RoundTrip.supvReplay (a : BitVec 6) (b : BitVec 6) : RoundTrip.Statement (.supvReplay a b) := by
  have m : seg (encode (.supvReplay a b)) 24 7 = 114#7 := (seg_off _ b 6 24 7 (by decide)).trans ((seg_off _ a 12 24 7 (by decide)).trans rfl)
  have h1 : seg (encode (.supvReplay a b)) 0 6 = 10#6 := (seg_off _ b 6 0 6 (by decide)).trans ((seg_off _ a 12 0 6 (by decide)).trans rfl)
  have h2 : seg (encode (.supvReplay a b)) 18 6 = 0#6 := (seg_off _ b 6 18 6 (by decide)).trans ((seg_off _ a 12 18 6 (by decide)).trans rfl)
  have h3 : seg (encode (.supvReplay a b)) 31 1 = 0#1 := (seg_off _ b 6 31 1 (by decide)).trans ((seg_off _ a 12 31 1 (by decide)).trans rfl)
  have h4 : seg (encode (.supvReplay a b)) 12 6 = a := (seg_off _ b 6 12 6 (by decide)).trans (seg_hit _ a 12 rfl (by decide))
  have h5 : seg (encode (.supvReplay a b)) 6 6 = b := seg_hit _ b 6 ((seg_off _ a 12 6 6 (by decide)).trans rfl) (by decide)
  exact decode_of (form72 m (by simp [decode72, h1, h2, h3, h4, h5]))
theorem RoundTrip.supvRtn (d : BitVec 6) (a : BitVec 6) (b : BitVec 6) : RoundTrip.Statement (.supvRtn d a b) := by
  have m : seg (encode (.supvRtn d a b)) 24 7 = 114#7 := (seg_off _ b 6 24 7 (by decide)).trans ((seg_off _ a 12 24 7 (by decide)).trans ((seg_off _ d 18 24 7 (by decide)).trans rfl))
  have h1 : seg (encode (.supvRtn d a b)) 0 6 = 11#6 := (seg_off _ b 6 0 6 (by decide)).trans ((seg_off _ a 12 0 6 (by decide)).trans ((seg_off _ d 18 0 6 (by decide)).trans rfl))
  have h2 : seg (encode (.supvRtn d a b)) 31 1 = 0#1 := (seg_off _ b 6 31 1 (by decide)).trans ((seg_off _ a 12 31 1 (by decide)).trans ((seg_off _ d 18 31 1 (by decide)).trans rfl))
  have h3 : seg (encode (.supvRtn d a b)) 18 6 = d := (seg_off _ b 6 18 6 (by decide)).trans ((seg_off _ a 12 18 6 (by decide)).trans (seg_hit _ d 18 rfl (by decide)))
  have h4 : seg (encode (.supvRtn d a b)) 12 6 = a := (seg_off _ b 6 12 6 (by decide)).trans (seg_hit _ a 12 ((seg_off _ d 18 12 6 (by decide)).trans rfl) (by decide))
  have h5 : seg (encode (.supvRtn d a b)) 6 6 = b := seg_hit _ b 6 ((seg_off _ a 12 6 6 (by decide)).trans ((seg_off _ d 18 6 6 (by decide)).trans rfl)) (by decide)
  exact decode_of (form72 m (by simp [decode72, h1, h2, h3, h4, h5]))
theorem RoundTrip.supvSvch (a : BitVec 6) (b : BitVec 6) : RoundTrip.Statement (.supvSvch a b) := by
  have m : seg (encode (.supvSvch a b)) 24 7 = 114#7 := (seg_off _ b 6 24 7 (by decide)).trans ((seg_off _ a 12 24 7 (by decide)).trans rfl)
  have h1 : seg (encode (.supvSvch a b)) 0 6 = 12#6 := (seg_off _ b 6 0 6 (by decide)).trans ((seg_off _ a 12 0 6 (by decide)).trans rfl)
  have h2 : seg (encode (.supvSvch a b)) 18 6 = 0#6 := (seg_off _ b 6 18 6 (by decide)).trans ((seg_off _ a 12 18 6 (by decide)).trans rfl)
  have h3 : seg (encode (.supvSvch a b)) 31 1 = 0#1 := (seg_off _ b 6 31 1 (by decide)).trans ((seg_off _ a 12 31 1 (by decide)).trans rfl)
  have h4 : seg (encode (.supvSvch a b)) 12 6 = a := (seg_off _ b 6 12 6 (by decide)).trans (seg_hit _ a 12 rfl (by decide))
  have h5 : seg (encode (.supvSvch a b)) 6 6 = b := seg_hit _ b 6 ((seg_off _ a 12 6 6 (by decide)).trans rfl) (by decide)
  exact decode_of (form72 m (by simp [decode72, h1, h2, h3, h4, h5]))
theorem RoundTrip.seamRead (l : BitVec 3) (w : BitVec 2) (d : BitVec 6) : RoundTrip.Statement (.seamRead l w d) := by
  have m : seg (encode (.seamRead l w d)) 24 7 = 115#7 := (seg_off _ d 12 24 7 (by decide)).trans ((seg_off _ w 18 24 7 (by decide)).trans ((seg_off _ l 21 24 7 (by decide)).trans rfl))
  have h1 : seg (encode (.seamRead l w d)) 0 12 = 0#12 := (seg_off _ d 12 0 12 (by decide)).trans ((seg_off _ w 18 0 12 (by decide)).trans ((seg_off _ l 21 0 12 (by decide)).trans rfl))
  have h2 : seg (encode (.seamRead l w d)) 20 1 = 0#1 := (seg_off _ d 12 20 1 (by decide)).trans ((seg_off _ w 18 20 1 (by decide)).trans ((seg_off _ l 21 20 1 (by decide)).trans rfl))
  have h3 : seg (encode (.seamRead l w d)) 31 1 = 0#1 := (seg_off _ d 12 31 1 (by decide)).trans ((seg_off _ w 18 31 1 (by decide)).trans ((seg_off _ l 21 31 1 (by decide)).trans rfl))
  have h4 : seg (encode (.seamRead l w d)) 21 3 = l := (seg_off _ d 12 21 3 (by decide)).trans ((seg_off _ w 18 21 3 (by decide)).trans (seg_hit _ l 21 rfl (by decide)))
  have h5 : seg (encode (.seamRead l w d)) 18 2 = w := (seg_off _ d 12 18 2 (by decide)).trans (seg_hit _ w 18 ((seg_off _ l 21 18 2 (by decide)).trans rfl) (by decide))
  have h6 : seg (encode (.seamRead l w d)) 12 6 = d := seg_hit _ d 12 ((seg_off _ w 18 12 6 (by decide)).trans ((seg_off _ l 21 12 6 (by decide)).trans rfl)) (by decide)
  exact decode_of (form73 m (by simp [decode73, h1, h2, h3, h4, h5, h6]))
theorem RoundTrip.seamHealth (d : BitVec 6) : RoundTrip.Statement (.seamHealth d) := by
  have m : seg (encode (.seamHealth d)) 24 7 = 115#7 := (seg_off _ d 12 24 7 (by decide)).trans rfl
  have h1 : seg (encode (.seamHealth d)) 0 12 = 0#12 := (seg_off _ d 12 0 12 (by decide)).trans rfl
  have h2 : seg (encode (.seamHealth d)) 18 2 = 0#2 := (seg_off _ d 12 18 2 (by decide)).trans rfl
  have h3 : seg (encode (.seamHealth d)) 20 1 = 1#1 := (seg_off _ d 12 20 1 (by decide)).trans rfl
  have h4 : seg (encode (.seamHealth d)) 21 3 = 0#3 := (seg_off _ d 12 21 3 (by decide)).trans rfl
  have h5 : seg (encode (.seamHealth d)) 31 1 = 0#1 := (seg_off _ d 12 31 1 (by decide)).trans rfl
  have h6 : seg (encode (.seamHealth d)) 12 6 = d := seg_hit _ d 12 rfl (by decide)
  exact decode_of (form73 m (by simp [decode73, h1, h2, h3, h4, h5, h6]))
theorem RoundTrip.timerExpiry (a0 : BitVec 11) : RoundTrip.Statement (.timerExpiry a0) := nofun
theorem RoundTrip.interruptEntry (a0 : BitVec 11) (a1 : Nat) : RoundTrip.Statement (.interruptEntry a0 a1) := nofun
theorem RoundTrip.l1Eviction (a0 : BitVec 8) (a1 : BitVec 52) : RoundTrip.Statement (.l1Eviction a0 a1) := nofun
theorem RoundTrip.homeHoldRelease (a0 : Nat) : RoundTrip.Statement (.homeHoldRelease a0) := nofun
theorem RoundTrip.commandStart (a0 : BitVec 8) (a1 : BitVec 4) : RoundTrip.Statement (.commandStart a0 a1) := nofun
theorem RoundTrip.landedCountRise (a0 : BitVec 8) (a1 : BitVec 4) (a2 : BitVec 64) (a3 : Nat × List Nat) : RoundTrip.Statement (.landedCountRise a0 a1 a2 a3) := nofun
theorem RoundTrip.sourceReadDone (a0 : BitVec 8) (a1 : BitVec 4) (a2 : BitVec 64) : RoundTrip.Statement (.sourceReadDone a0 a1 a2) := nofun
theorem RoundTrip.transferSuspend (a0 : BitVec 8) (a1 : BitVec 4) (a2 : BitVec 64) : RoundTrip.Statement (.transferSuspend a0 a1 a2) := nofun
theorem RoundTrip.transferPoison (a0 : BitVec 8) (a1 : BitVec 4) (a2 : BitVec 64) : RoundTrip.Statement (.transferPoison a0 a1 a2) := nofun
theorem RoundTrip.bodkinFault (a0 : BitVec 8) (a1 : BitVec 4) (a2 : BitVec 64) : RoundTrip.Statement (.bodkinFault a0 a1 a2) := nofun
theorem RoundTrip.fabricSendArrival (a0 : BitVec 8) (a1 : BitVec 4) (a2 : BitVec 64) (a3 : BitVec 1) : RoundTrip.Statement (.fabricSendArrival a0 a1 a2 a3) := nofun
theorem RoundTrip.launchDispatch (a0 : BitVec 48) : RoundTrip.Statement (.launchDispatch a0) := nofun
theorem RoundTrip.gateOpen (a0 : BitVec 48) : RoundTrip.Statement (.gateOpen a0) := nofun
theorem RoundTrip.priorityAging (a0 : BitVec 48) : RoundTrip.Statement (.priorityAging a0) := nofun
theorem RoundTrip.gangPlacement (a0 : Placement) : RoundTrip.Statement (.gangPlacement a0) := nofun
theorem RoundTrip.reservationPreempt (a0 : List (BitVec 11)) : RoundTrip.Statement (.reservationPreempt a0) := nofun
theorem RoundTrip.gangRestore (a0 : Placement) : RoundTrip.Statement (.gangRestore a0) := nofun
theorem RoundTrip.unitCancelStop (a0 : BitVec 11) : RoundTrip.Statement (.unitCancelStop a0) := nofun
theorem RoundTrip.channelReset (a0 : BitVec 8) (a1 : BitVec 4) : RoundTrip.Statement (.channelReset a0 a1) := nofun
theorem RoundTrip.clusterModeChange (a0 : BitVec 6) (a1 : BitVec 1) : RoundTrip.Statement (.clusterModeChange a0 a1) := nofun
theorem RoundTrip.runtimeRetire (a0 : BitVec 11) : RoundTrip.Statement (.runtimeRetire a0) := nofun
theorem RoundTrip.deviceReset : RoundTrip.Statement (.deviceReset) := nofun
theorem RoundTrip.functionLevelReset : RoundTrip.Statement (.functionLevelReset) := nofun
theorem RoundTrip.hostBar2Access (a0 : BitVec 1) (a1 : BitVec 64) (a2 : BitVec 2) (a3 : BitVec 64) : RoundTrip.Statement (.hostBar2Access a0 a1 a2 a3) := nofun
theorem RoundTrip.bar2baseWrite (a0 : BitVec 64) : RoundTrip.Statement (.bar2baseWrite a0) := nofun
theorem RoundTrip.go (a0 : BitVec 8) : RoundTrip.Statement (.go a0) := nofun
theorem RoundTrip.hostCounterWrite (a0 : BitVec 16) (a1 : BitVec 64) : RoundTrip.Statement (.hostCounterWrite a0 a1) := nofun
theorem RoundTrip.doorbell (a0 : BitVec 11) : RoundTrip.Statement (.doorbell a0) := nofun
theorem RoundTrip.load : RoundTrip.Statement (.load) := nofun
theorem RoundTrip.firmwareVerifyDone : RoundTrip.Statement (.firmwareVerifyDone) := nofun
theorem RoundTrip.stage2Entry : RoundTrip.Statement (.stage2Entry) := nofun
theorem RoundTrip.stage3Entry : RoundTrip.Statement (.stage3Entry) := nofun
theorem RoundTrip.req : RoundTrip.Statement (.req) := nofun
theorem RoundTrip.attestationReportReady : RoundTrip.Statement (.attestationReportReady) := nofun
theorem RoundTrip.validWrite (a0 : BitVec 10) : RoundTrip.Statement (.validWrite a0) := nofun
theorem RoundTrip.ccountWrite (a0 : BitVec 3) : RoundTrip.Statement (.ccountWrite a0) := nofun
theorem RoundTrip.correctedError (a0 : BitVec 8) (a1 : BitVec 8) (a2 : BitVec 64) : RoundTrip.Statement (.correctedError a0 a1 a2) := nofun
theorem RoundTrip.uncorrectedError (a0 : BitVec 8) (a1 : BitVec 8) (a2 : BitVec 64) : RoundTrip.Statement (.uncorrectedError a0 a1 a2) := nofun
theorem RoundTrip.telemetryUpdate : RoundTrip.Statement (.telemetryUpdate) := nofun
theorem RoundTrip.throttleAlert (a0 : BitVec 8) : RoundTrip.Statement (.throttleAlert a0) := nofun
theorem RoundTrip.tripNearWarning : RoundTrip.Statement (.tripNearWarning) := nofun
theorem RoundTrip.electricalTrip : RoundTrip.Statement (.electricalTrip) := nofun
theorem RoundTrip.portStateChange (a0 : BitVec 4) (a1 : BitVec 1) : RoundTrip.Statement (.portStateChange a0 a1) := nofun
theorem RoundTrip.blockLeaveService (a0 : BitVec 2) (a1 : BitVec 5) : RoundTrip.Statement (.blockLeaveService a0 a1) := nofun
theorem RoundTrip.blockReturnService (a0 : BitVec 2) (a1 : BitVec 5) : RoundTrip.Statement (.blockReturnService a0 a1) := nofun
theorem RoundTrip.arm : RoundTrip.Statement (.arm) := nofun
theorem RoundTrip.checkpointCut : RoundTrip.Statement (.checkpointCut) := nofun
theorem RoundTrip.frameStream (a0 : BitVec 28) : RoundTrip.Statement (.frameStream a0) := nofun
theorem RoundTrip.illegalInsn (a0 : BitVec 32) : RoundTrip.Statement (.illegalInsn a0) := nofun
theorem RoundTrip.fetchFault (a0 : BitVec 6) (a1 : BitVec 64) : RoundTrip.Statement (.fetchFault a0 a1) := nofun
theorem RoundTrip.wfiEarlyCompletion (a0 : BitVec 11) : RoundTrip.Statement (.wfiEarlyCompletion a0) := nofun
theorem RoundTrip.remoteAcknowledgement (a0 : BitVec 11) (a1 : BitVec 1) (a2 : BitVec 64) (a3 : BitVec 8) : RoundTrip.Statement (.remoteAcknowledgement a0 a1 a2 a3) := nofun
theorem RoundTrip.resizableBarSelect (a0 : BitVec 6) : RoundTrip.Statement (.resizableBarSelect a0) := nofun
theorem RoundTrip.fabricSetUp (a0 : BitVec 4) (a1 : BitVec 4) (a2 : BitVec 4) : RoundTrip.Statement (.fabricSetUp a0 a1 a2) := nofun

end Sys2Proof.Laws
end

