-- ==== Sys2Proof/Safety.lean ====
section
/-!
DEFINITION. What a safe run keeps: the parts of the state whose form the spec fixes, as one predicate that every step should keep.
-/

namespace Sys2Proof.Machine

/-- The forms of a hart's registers: x0 is zero (R28), bits [1:0] of EPC and bits [5:0] of TBASE are zero (R150), and so are bits 15 and 7 of MSHAPE (R35). -/
def Hart.formed (h : Hart) : Prop :=
  h.x[0] = 0 ∧ h.epc.toNat % 4 = 0 ∧ h.tbase.toNat % 64 = 0 ∧ h.mshape.getLsbD 7 = false ∧ h.mshape.getLsbD 15 = false

/-- Memory at the homes, the copy of a checkpoint and every scratchpad are in canonical form (log 3). -/
def State.memoryFormed (s : State) : Prop :=
  Memory.wf s.d.mem = true ∧ Memory.wf s.d.ckpt.sink = true ∧ Memory.wf s.c.spad = true ∧ ∀ e ∈ s.cores, Memory.wf e.2.spad = true

/-- Every hart is formed, on its slot, saved, or as it stood before an open matrix convoy, and memory is canonical. -/
def State.Safe (s : State) : Prop :=
  s.h.formed ∧ (∀ e ∈ s.parked, e.2.formed) ∧ (∀ e ∈ s.d.saved, e.2.formed) ∧ (∀ e ∈ s.undo, e.2.formed) ∧ s.memoryFormed

end Sys2Proof.Machine
end

