-- ==== Sys2Proof/Certificates/Slice0/Obligations.lean ====
section
/-!
DEFINITION. The statements for the provers: each `Obligations.<Name>` formalises what its docstring cites.
-/

namespace Sys2Proof.Claims

open Sys2Proof.Machine

/-! ## Vocabulary of the statements -/

/-- x[r] as a word outside a lane thread reads it: x0 reads as zero (R28). -/
def reg (s : State) (r : BitVec 6) : Word := if r = 0 then 0 else s.h.x[r.toNat]

/-- The x registers after a write of x[d]: a write of x0 is discarded (R28). -/
def regs (s : State) (d : BitVec 6) (v : Word) : Vector Word 64 := if d = 0 then s.h.x else s.h.x.set d.toNat v

/-- The state after a word that has no effect but to complete: PC + 4 (R13), one more word counted (R37), no wait. -/
def passed (s : State) : State := { s with h := { s.h with pc := s.h.pc + 4, instret := s.h.instret + 1, wait := none } }

/-- The state after a word that writes x[d] and does nothing else. -/
def wrote (s : State) (d : BitVec 6) (v : Word) : State := passed { s with h := { s.h with x := regs s d v } }

/-- The state after a word that writes x[d] and ORs flags into FCSR and does nothing else (R34). -/
def wroteFlags (s : State) (f : BitVec 14) (d : BitVec 6) (v : Word) : State :=
  passed { s with h := { s.h with x := regs s d v, fcsr := s.h.fcsr ||| f } }

/-- What the hart has fetched early, without the words at `p`: the target of a jump is fetched after the jump (R83, R92). -/
def refetched (s : State) (p : Word) : List EarlyWord := s.h.early.filter fun e => e.addr != p

/-- The state after a word that jumps to `p`, where the next word is fetched anew, and does nothing else. -/
def jumped (s : State) (p : Word) : State :=
  { s with h := { s.h with pc := p, instret := s.h.instret + 1, wait := none, early := refetched s p } }

/-- A word with two sources writes to x[d] the integer that `f` gives, modulo 2^64, and changes nothing else. -/
def IntOp (i : BitVec 6 → BitVec 6 → BitVec 6 → Instr) (f : Word → Word → Int) : Prop :=
  ∀ (s : State) (d a b : BitVec 6), s.h.lane = none →
    exec (i d a b) s = .next (wrote s d (BitVec.ofInt 64 (f (reg s a) (reg s b))))

/-- The word form: the same on the low 32 bits, the result sign-extended from 32 bits (R68). -/
def WordOp (i : BitVec 6 → BitVec 6 → BitVec 6 → Instr) (f : BitVec 32 → BitVec 32 → Int) : Prop :=
  ∀ (s : State) (d a b : BitVec 6), s.h.lane = none →
    exec (i d a b) s =
      .next (wrote s d ((BitVec.ofInt 32 (f ((reg s a).setWidth 32) ((reg s b).setWidth 32))).signExtend 64))

/-- A word with one source writes to x[d] what `f` gives and changes nothing else. -/
def UnaryOp (i : BitVec 6 → BitVec 6 → Instr) (f : Word → Word) : Prop :=
  ∀ (s : State) (d a : BitVec 6), s.h.lane = none → exec (i d a) s = .next (wrote s d (f (reg s a)))

/-- A word with a 12-bit immediate, sign-extended to 64 bits (R47), writes to x[d] what `f` gives and changes nothing else. -/
def ImmOp (i : BitVec 6 → BitVec 6 → BitVec 12 → Instr) (f : Word → Word → Int) : Prop :=
  ∀ (s : State) (d a : BitVec 6) (m : BitVec 12), s.h.lane = none →
    exec (i d a m) s = .next (wrote s d (BitVec.ofInt 64 (f (reg s a) (m.signExtend 64))))

/-- Signed division of R67 on `w` bits, as an integer: truncated toward zero, saturating towards the sign of the dividend for a zero divisor. -/
def quotS {w : Nat} (a b : BitVec w) : Int :=
  if b.toInt = 0 then (if a.toInt = 0 then 0 else if a.toInt < 0 then -(2 ^ (w - 1)) else 2 ^ (w - 1) - 1) else a.toInt.tdiv b.toInt

/-- Unsigned division of R67. -/
def quotU {w : Nat} (a b : BitVec w) : Int :=
  if b.toNat = 0 then (if a.toNat = 0 then 0 else 2 ^ w - 1) else a.toNat / b.toNat

/-- Signed remainder of R66 and R67: the dividend for a zero divisor, else the sign of the dividend. -/
def modS {w : Nat} (a b : BitVec w) : Int := if b.toInt = 0 then a.toInt else a.toInt.tmod b.toInt

/-- Unsigned remainder of R66 and R67. -/
def modU {w : Nat} (a b : BitVec w) : Int := if b.toNat = 0 then a.toNat else a.toNat % b.toNat

/-- The eight bytes of a word in reverse order: byte i of the result is byte 7 - i (R66). -/
def bytesReversed (x y : Word) : Prop := ∀ i, i < 8 → y.extractLsb' (8 * i) 8 = x.extractLsb' (8 * (7 - i)) 8

/-- The number of one bits of a word (R66). -/
def ones (x : Word) : Nat := ((List.range 64).filter fun i => x.getLsbD i).length

/-! ### Loads and stores -/

/-- The effective address x[a] + sext(imm9) (R72). -/
def ea (s : State) (a : BitVec 6) (m : BitVec 9) : Word := reg s a + m.signExtend 64

/-- The byte of a store that the run-ahead window holds which falls on byte `j` of a load at `pl`, if the two places share it (R41). -/
def heldOn (pl : Place) (j : Nat) (p : PendingStore) : Option Byte :=
  match placeOffset pl p.place with
  | some o => if o ≤ (j : Int) ∧ (j : Int) < o + (p.n : Int) then some (p.v.extractLsb' (8 * ((j : Int) - o).toNat) 8) else none
  | none => none

/-- The newest byte that the held stores put on byte `j` of a load at `pl` (R40). -/
def heldByte (l : List PendingStore) (pl : Place) (j : Nat) : Option Byte := l.reverse.findSome? (heldOn pl j)

/-- A scalar load of `n` bytes, extended by `ext` (R40, R72, R73): where the address is accepted and its bytes are readable, x[d] takes them, each byte from
the newest store that the hart's window holds for it, and the word completes; otherwise the word traps or waits and changes no register and no byte. -/
def LoadOp (i : BitVec 6 → BitVec 6 → BitVec 9 → Instr) (n : Nat) (ext : Word → Word) : Prop :=
  ∀ (s : State) (d a : BitVec 6) (m : BitVec 9), s.h.lane = none →
    (∀ pl t v u, place s .load (ea s a m) n = .ok (pl, t) → readPlace t pl (ea s a m) n 0 = .ok (v, u) →
      ∃ w, exec (i d a m) s = .next (wrote u d (ext w)) ∧ (s.h.mstage.stores = [] → w = v) ∧
        (∀ j, j < n → w.extractLsb' (8 * j) 8 = (heldByte s.h.mstage.stores pl j).getD (v.extractLsb' (8 * j) 8)) ∧
        ∀ b, 8 * n ≤ b → w.getLsbD b = v.getLsbD b) ∧
    (∀ c v, place s .load (ea s a m) n = .error (.trap c v) → exec (i d a m) s = .next (enterTrap s c v)) ∧
    (∀ w, place s .load (ea s a m) n = .error (.wait w) → exec (i d a m) s = .next { s with h := { s.h with wait := some w } }) ∧
    (∀ pl t c v, place s .load (ea s a m) n = .ok (pl, t) → readPlace t pl (ea s a m) n 0 = .error (.trap c v) →
      exec (i d a m) s = .next (enterTrap s c v))

/-- The run-ahead window of the hart in focus with a store behind those it holds (R41). -/
def withHeld (t : State) (p : PendingStore) : State :=
  { t with h := { t.h with mstage := { t.h.mstage with stores := t.h.mstage.stores ++ [p] } } }

/-- A scalar store of the low `n` bytes of x[b] (R41, R72, R73): where the address is accepted the bytes go to their place, or while a convoy of `MMETA` words
is open and the place is ordinary memory or scratchpad join the stores that the window holds, and the word completes; behind 32 stores it waits for the
older matrix words, which closes the convoy with what it holds (R310, log 24). Otherwise it traps, or waits for a swatch (R254), and changes no register
and no byte. -/
def StoreOp (i : BitVec 6 → BitVec 6 → BitVec 9 → Instr) (n : Nat) : Prop :=
  ∀ (s : State) (b a : BitVec 6) (m : BitVec 9), s.h.lane = none →
    (∀ pl t u, s.h.mstage.isOpen = false ∨ (∃ pa leaf, pl = .dev pa leaf) → place s .store (ea s a m) n = .ok (pl, t) →
      writePlace t pl n (reg s b) 0 = .ok u → exec (i b a m) s = .next (passed u)) ∧
    (∀ pl t, s.h.mstage.isOpen = true → (∀ pa leaf, pl ≠ .dev pa leaf) → place s .store (ea s a m) n = .ok (pl, t) →
      (∀ off, pl = .spad off → swBusy s.c off n = false) →
      (t.h.mstage.stores.length < 32 →
        exec (i b a m) s = .next (passed (withHeld t { va := ea s a m, place := pl, n := n, v := reg s b }))) ∧
      (∀ u, 32 ≤ t.h.mstage.stores.length → writePlace (closeStage t) pl n (reg s b) 0 = .ok u → exec (i b a m) s = .next (passed u))) ∧
    (∀ c v, place s .store (ea s a m) n = .error (.trap c v) → exec (i b a m) s = .next (enterTrap s c v)) ∧
    (∀ w, place s .store (ea s a m) n = .error (.wait w) → exec (i b a m) s = .next { s with h := { s.h with wait := some w } }) ∧
    (∀ pl t, place s .store (ea s a m) n = .ok (pl, t) → writePlace t pl n (reg s b) 0 = .error (.wait .swatch) →
      exec (i b a m) s = .next { s with h := { s.h with wait := some .swatch } })

/-- A store `i` of the low `n` bytes of x[b] to scratchpad, and the load `j` of as many bytes that finds them again (R6, R73, R234). -/
def StoredBack (i j : BitVec 6 → BitVec 6 → BitVec 9 → Instr) (n : Nat) : Prop :=
  ∀ (s : State) (b a : BitVec 6) (m : BitVec 9), s.h.lane = none → s.h.mstage.isOpen = false → s.h.mstage.stores = [] → Memory.wf s.c.spad = true →
    0xFFFFFFFFFFF00000 ≤ (ea s a m).toNat → (ea s a m).toNat % n = 0 → (ea s a m).toNat % 2 ^ 20 < 0xC0000 →
    swBusy s.c ((ea s a m).toNat % 2 ^ 20) n = false → spadPoisoned s.c ((ea s a m).toNat % 2 ^ 20) n = false →
    ∃ t, exec (i b a m) s = .next t ∧
      (∀ k, k < n → (Memory.get t.c.spad ((ea s a m).toNat % 2 ^ 20 + k)).toNat = (reg s b).toNat / 256 ^ k % 256) ∧
      (∀ k, (k < (ea s a m).toNat % 2 ^ 20 ∨ (ea s a m).toNat % 2 ^ 20 + n ≤ k) → Memory.get t.c.spad k = Memory.get s.c.spad k) ∧
      Memory.wf t.c.spad = true ∧
      t = { passed { s with c := { s.c with spad := t.c.spad } } with
        parked := s.parked.map fun e => if e.1 / 8 = coreOf s.hid then (e.1, noteBarrier t.c e.2) else e } ∧
      ∀ d : BitVec 6, exec (j d a m) t = .next (wrote t d (BitVec.ofNat 64 ((reg s b).toNat % 2 ^ (8 * n))))

/-! ### Translation -/

/-- VA bits that index the table of a level, and the bytes that a leaf there maps (R169). -/
def tableIndex (va level : Nat) : Nat :=
  if level = 3 then va / 2 ^ 43 % 2 ^ 13 else if level = 2 then va / 2 ^ 30 % 2 ^ 13 else if level = 1 then va / 2 ^ 21 % 2 ^ 9 else va / 2 ^ 16 % 2 ^ 5
/-- See `tableIndex`. -/
def leafBytes (level : Nat) : Nat := if level = 3 then 2 ^ 43 else if level = 2 then 2 ^ 30 else if level = 1 then 2 ^ 21 else 2 ^ 16

/-- An entry has R, W or X set: it is a leaf (R170). -/
def isLeaf (e : Word) : Prop := e.getLsbD 1 = true ∨ e.getLsbD 2 = true ∨ e.getLsbD 3 = true

/-- The page address of a leaf and the address of the next table (R170). -/
def pageOf (e : Word) : Nat := e.toNat / 2 ^ 16 % 2 ^ 36 * 2 ^ 16
/-- See `pageOf`. -/
def nextTable (e : Word) : Nat := e.toNat / 2 ^ 8 % 2 ^ 44 * 2 ^ 8

/-- A leaf entry at a level is none of the invalid ones of R171. -/
def goodLeaf (e : Word) (level : Nat) : Prop :=
  level ≠ 3 ∧ e.toNat / 2 ^ 52 = 0 ∧ e.toNat / 2 ^ 5 % 4 = 0 ∧ e.toNat / 2 ^ 8 % 4 ≤ 1 ∧ ¬ (e.getLsbD 2 = true ∧ e.getLsbD 1 = false) ∧
    pageOf e % leafBytes level = 0

/-- A table entry at a level is none of the invalid ones of R171. -/
def goodTable (e : Word) (level : Nat) : Prop :=
  level ≠ 0 ∧ e.toNat / 2 ^ 52 = 0 ∧ e.toNat / 2 ^ 4 % 16 = 0 ∧ nextTable e < 0x9000000000

/-- What R172 asks of a leaf for an access at a privilege. -/
def grants (a : Acc) (sup : Bool) (e : Word) : Prop :=
  let r := e.getLsbD 1 = true
  let w := e.getLsbD 2 = true
  let u := sup = true ∨ e.getLsbD 4 = true
  match a with
  | .fetch => e.getLsbD 3 = true ∧ e.getLsbD 4 = !sup
  | .load => r ∧ u
  | .store => w ∧ u
  | .atomic => r ∧ w ∧ u

/-- A number as `n` little-endian bytes at `a` (R6): byte k of memory is byte k of the number. -/
def holdsBytes (m : Memory) (a n v : Nat) : Prop := ∀ k, k < n → (m.get (a + k)).toNat = v / 256 ^ k % 256

/-! ### Floating point -/

/-- A float format field names binary32, binary64 or binary16 (R75). -/
def isFormat (p : BitVec 2) : Prop := p ≠ 3

/-- Exponent bits, fraction bits of the format field (R75). -/
def expBits (p : BitVec 2) : Nat := if p = 0 then 8 else if p = 1 then 11 else 5
/-- See `expBits`. -/
def fracBits (p : BitVec 2) : Nat := if p = 0 then 23 else if p = 1 then 52 else 10
/-- The low bits of x that the format reads (R75). -/
def code (p : BitVec 2) (x : Word) : Nat := x.toNat % 2 ^ (1 + expBits p + fracBits p)
/-- The code without its sign. -/
def magnitude (p : BitVec 2) (x : Word) : Nat := x.toNat % 2 ^ (expBits p + fracBits p)
/-- The sign of the code. -/
def signBit (p : BitVec 2) (x : Word) : Bool := x.getLsbD (expBits p + fracBits p)
/-- The magnitude code of an infinity. -/
def infinity (p : BitVec 2) : Nat := (2 ^ expBits p - 1) * 2 ^ fracBits p
/-- The canonical quiet NaN (R76). -/
def quietNan (p : BitVec 2) : Nat := infinity p + 2 ^ (fracBits p - 1)
/-- The operand is a NaN. -/
def isNan (p : BitVec 2) (x : Word) : Prop := infinity p < magnitude p x
/-- The operand is a signalling NaN: the most significant fraction bit is 0 (R76). -/
def isSignalling (p : BitVec 2) (x : Word) : Prop := infinity p < magnitude p x ∧ magnitude p x < quietNan p

/-- The choice of R194 for an exact magnitude `x` with lo ≤ x < hi, where `k` names lo and k + 1 names hi: `q` is the one that the mode picks. -/
def picks (mode : Mode) (neg : Bool) (lo x hi k q : Nat) : Prop :=
  (x = lo → q = k) ∧
  (lo < x →
    (mode = 0 → (2 * x < lo + hi → q = k) ∧ (lo + hi < 2 * x → q = k + 1) ∧ (2 * x = lo + hi → (q = k ∨ q = k + 1) ∧ q % 2 = 0)) ∧
    (mode = 1 → q = k) ∧
    (mode = 2 → q = if neg then k + 1 else k) ∧
    (mode = 3 → q = if neg then k else k + 1) ∧
    (mode = 4 → (2 * x < lo + hi → q = k) ∧ (lo + hi ≤ 2 * x → q = k + 1)))

/-- The mode rounds the magnitude n / d to the integer `q` (R79, R194). -/
def roundsTo (mode : Mode) (neg : Bool) (n d q : Nat) : Prop :=
  ∃ k, k * d ≤ n ∧ n < (k + 1) * d ∧ picks mode neg (k * d) n ((k + 1) * d) k q

/-- The value of magnitude code `c` in units of the least subnormal, 2^(1 - bias - fraction bits) (R186); above the largest finite code, as if the exponent
range had no end (R195). -/
def unitsOf (b : Bin) (c : Nat) : Nat := if c < 2 ^ b.p then c else (2 ^ b.p + c % 2 ^ b.p) * 2 ^ (c / 2 ^ b.p - 1)

/-- The magnitude n / d in the same units, times d. -/
def scaledUnits (b : Bin) (n : Nat) : Nat := n * 2 ^ (b.bias - 1 + b.p)

/-- The mode rounds the magnitude n / d to the code `q` of the format, or of what would follow its largest finite value (R194, R195). -/
def roundsToCode (b : Bin) (mode : Mode) (neg : Bool) (n d q : Nat) : Prop :=
  ∃ k, unitsOf b k * d ≤ scaledUnits b n ∧ scaledUnits b n < unitsOf b (k + 1) * d ∧
    picks mode neg (unitsOf b k * d) (scaledUnits b n) (unitsOf b (k + 1) * d) k q

/-- The codes of infinity and of the largest finite value, without a sign; e2m1 has no infinity (R186). -/
def topCode (b : Bin) : Nat := if b.full then 2 ^ (b.e + b.p) else (2 ^ b.e - 1) * 2 ^ b.p

/-- What an overflowing result becomes, without its sign (R195). -/
def overflowsTo (b : Bin) (mode : Mode) (neg : Bool) : Nat :=
  if b.full = true ∨ mode = 1 ∨ (mode = 2 ∧ neg = false) ∨ (mode = 3 ∧ neg = true) then topCode b - 1 else topCode b

/-- The sign bit of a code of the format. -/
def signOf (b : Bin) (neg : Bool) : Nat := if neg then 2 ^ (b.e + b.p) else 0

/-- A floating-point word that rounds the exact result `f` gives by FCSR.RM (R76, R77): the rounded code, zero-extended, goes to x[d], the flags of the
operation and of the rounding are ORed into FCSR, and nothing else changes. -/
def FloatOp (i : BitVec 6 → BitVec 6 → BitVec 6 → BitVec 2 → Instr) (f : Mode → Val → Val → Val × Flags) : Prop :=
  ∀ (s : State) (d a b : BitVec 6) (p : BitVec 2), s.h.lane = none → isFormat p →
    let r := f s.h.rm (floatVal p (reg s a)) (floatVal p (reg s b))
    let c := binConvert (binOf (floatFmt p)) s.h.rm false r.1
    exec (i d a b p) s = .next (wroteFlags s (r.2 ||| c.2) d (BitVec.ofNat 64 c.1))

/-- A fused multiply-accumulate (R80): one exact result of a × b and d, rounded once. -/
def FusedOp (i : BitVec 6 → BitVec 6 → BitVec 6 → BitVec 2 → Instr) (negProduct negAddend : Bool) : Prop :=
  ∀ (s : State) (d a b : BitVec 6) (p : BitVec 2), s.h.lane = none → isFormat p →
    let m := Val.mul (floatVal p (reg s a)) (floatVal p (reg s b))
    let z := floatVal p (reg s d)
    let r := Val.add s.h.rm (if negProduct then m.1.negate else m.1) (if negAddend then z.negate else z)
    let c := binConvert (binOf (floatFmt p)) s.h.rm false r.1
    exec (i d a b p) s = .next (wroteFlags s (m.2 ||| r.2 ||| c.2) d (BitVec.ofNat 64 c.1))

/-- The rounding mode of a static field: 7 is FCSR.RM (R79). -/
def staticMode (s : State) (r : BitVec 3) : Mode := if r = 7 then s.h.rm else r

/-! ### Control -/

/-- The word stops at its place and waits for `w`, with no other effect (R159). -/
def waitsFor (s : State) (w : Wait) : State := { s with h := { s.h with wait := some w } }

/-- The address `k` words from the word at the pc (R47). -/
def wordsAhead (s : State) (k : Int) : Word := s.h.pc + BitVec.ofInt 64 (4 * k)

/-- A conditional branch (R81). -/
def BranchOp (i : BitVec 6 → BitVec 6 → BitVec 12 → Instr) (c : Word → Word → Prop) : Prop :=
  ∀ (s : State) (a b : BitVec 6) (o : BitVec 12), s.h.lane = none →
    (c (reg s a) (reg s b) → exec (i a b o) s = .next (jumped s (wordsAhead s o.toInt))) ∧
    (¬ c (reg s a) (reg s b) → exec (i a b o) s = .next (passed s))

/-- The number of e in 0 .. VL - 1 with k[m][e] = 1 (R85). -/
def maskOnes (s : State) (m : BitVec 3) : Nat := ((List.range s.h.vl.toNat).filter fun e => (s.h.k[m.toNat]).getLsbD e).length

/-- A branch on a mask register (R85). -/
def MaskBranchOp (i : BitVec 3 → BitVec 12 → Instr) (c : State → Nat → Prop) : Prop :=
  ∀ (s : State) (m : BitVec 3) (o : BitVec 12),
    (c s (maskOnes s m) → exec (i m o) s = .next (jumped s (wordsAhead s o.toInt))) ∧
    (¬ c s (maskOnes s m) → exec (i m o) s = .next (passed s))

/-- The word traps (R152) with a cause and a trap value, and has no other effect. -/
def Traps (i : Instr) (s : State) (c : BitVec 6) (v : Word) : Prop := exec i s = .next (enterTrap s c v)


/-! ### Control and status registers -/

/-- What a CSR word does at a register number that is allowed, with the value it writes (R87). -/
def CsrWrites (i : BitVec 6 → BitVec 6 → BitVec 10 → Instr) (f : Word → Word → Word) : Prop :=
  ∀ (s : State) (d a : BitVec 6) (n : BitVec 10) (old : Word), s.h.lane = none → csrRead s n = some old →
    (s.h.prv = true ∨ n.toNat < 0x100) →
    (∀ t, csrWrite s n (f old (reg s a)) = .ok t → exec (i d a n) s = .next (wrote t d old)) ∧
    (n ≠ 0x021 → ∃ t, csrWrite s n (f old (reg s a)) = .ok t)

/-- A CSR word `i` in supervisor mode that makes `LPART` `f old v` of its old value and x[a] (R15, R16). -/
def WritesLpart (i : BitVec 6 → BitVec 6 → BitVec 10 → Instr) (f : Word → Word → Word) : Prop :=
  ∀ (s : State) (d a : BitVec 6), s.h.lane = none → s.h.prv = true →
    let n := min 16 ((f (s.c.na.setWidth 64) (reg s a)).toNat % 32)
    let moved (g : Nat) : Prop := (s.c.na.toNat ≤ g ∧ g < n) ∨ (n ≤ g ∧ g < s.c.na.toNat)
    ((∀ g, g < 16 → moved g → (grantedMap s (coreOf s.hid)).getLsbD g = false) →
      ∃ t, exec (i d a 0x021) s = .next t ∧
        t = { wrote s d (s.c.na.setWidth 64) with c := { s.c with na := t.c.na, lpstall := s.c.lpstall.filter fun e => e.1 != s.hid } } ∧
        t.c.na.toNat = n) ∧
    ((∃ g, g < 16 ∧ moved g ∧ (grantedMap s (coreOf s.hid)).getLsbD g = true) →
      ∃ t, exec (i d a 0x021) s = .next t ∧
        t = { s with c := { s.c with lpstall := t.c.lpstall }, h := { s.h with wait := some .lpart } } ∧
        (∀ e, e.1 ≠ s.hid → (e ∈ t.c.lpstall ↔ e ∈ s.c.lpstall)) ∧
        ∀ g, g < 16 → (withheld t.c g = true ↔
          moved g ∨ ∃ e ∈ s.c.lpstall, e.1 ≠ s.hid ∧ (min s.c.na.toNat e.2.toNat ≤ g ∧ g < max s.c.na.toNat e.2.toNat)))

/-- The lane groups of a grant, in ascending order (R23). -/
def groupsOf (m : BitVec 16) : List Nat := (List.range 16).filter fun i => m.getLsbD i

/-- What a read of each register of R29 gives: the value of its fields at their bits (R23, R36, R149, R328). -/
def ReadsCsr (s : State) : Prop :=
  let reads (n : BitVec 10) (v : Nat) : Prop := ∃ w, csrRead s n = some w ∧ w.toNat = v
  (reads 0x000 s.h.vl.toNat ∧ reads 0x001 s.h.vtype.toNat ∧ reads 0x002 s.h.vstart.toNat ∧ reads 0x003 s.h.vpr.toNat ∧
   reads 0x004 s.h.vdirty.toNat ∧ reads 0x005 s.h.fcsr.toNat ∧ reads 0x006 s.h.mshape.toNat ∧
   reads 0x007 ((List.range 2048).filter fun e => s.h.smm.getLsbD e).length ∧
   ∀ i : Fin 16, reads (0x010 + BitVec.ofNat 10 i) (s.h.focc[i]).toNat) ∧
  (reads 0x020 (s.h.gmap.toNat * 2 ^ 32 + (groupsOf s.h.gmap).length * 2 ^ 16 + s.h.lgmax.toNat * 2 ^ 8 + s.h.lgmin.toNat) ∧
   reads 0x021 s.c.na.toNat ∧ reads 0x030 s.hid.toNat ∧ reads 0x031 s.h.unit.toNat ∧ reads 0x032 s.h.node.toNat ∧
   reads 0x033 (s.d.gen.toNat * 2 ^ 48 + s.d.pkg.toNat * 2 ^ 36 + (if fusedAt s.d (coreOf s.hid) then 2 ^ 16 else 0) +
     s.hid.toNat / 2 ^ 10 * 2 ^ 15 + s.hid.toNat / 2 ^ 8 * 2 ^ 12 + s.hid.toNat / 2 ^ 7 * 2 ^ 8 + s.hid.toNat / 2 ^ 5 % 4 * 2 ^ 6 + s.hid.toNat / 2 ^ 3 % 4 * 2 ^ 4) ∧
   reads 0x040 s.d.cycle.toNat ∧ reads 0x041 s.h.instret.toNat) ∧
  (∃ w, csrRead s 0x100 = some w ∧ ∀ i, i < 64 →
     w.getLsbD i = (if i = 0 then s.h.ie else if i = 1 then s.h.pie else if i = 2 then s.h.pprv else if i = 3 then s.h.prv else
       if i = 8 then s.h.ten else if i = 9 then s.h.een else if i = 10 then s.h.pen else
       if i = 16 then s.h.tpend else if i = 17 then decide (s.h.ext ≠ []) else if i = 18 then s.h.ppend else false)) ∧
  (reads 0x101 s.h.epc.toNat ∧ reads 0x102 s.h.cause.toNat ∧ reads 0x103 s.h.tval.toNat ∧ reads 0x104 s.h.tbase.toNat ∧
   reads 0x105 s.h.asid.toNat ∧ reads 0x106 s.h.ptroot.toNat) ∧
  ∀ n : BitVec 10, csrRead s n = none ↔
    ¬ (n.toNat < 8 ∨ (0x010 ≤ n.toNat ∧ n.toNat < 0x022) ∨ (0x030 ≤ n.toNat ∧ n.toNat < 0x034) ∨ n.toNat = 0x040 ∨ n.toNat = 0x041 ∨
       (0x100 ≤ n.toNat ∧ n.toNat < 0x107))

/-- The numbers of R29 that no write changes in user mode. -/
def userReadOnly : List (BitVec 10) := [0x000, 0x001, 0x004, 0x020, 0x021, 0x030, 0x031, 0x032, 0x033, 0x040, 0x041]
/-- The numbers of R29 that no write changes in supervisor mode. -/
def alwaysReadOnly : List (BitVec 10) := [0x000, 0x001, 0x020, 0x030, 0x031, 0x032, 0x033, 0x040, 0x041]

/-- An interrupt is pending for the hart, enabled or not (R93, R149, R154). -/
def interruptPending (s : State) : Prop := s.h.tpend = true ∨ s.h.ext ≠ [] ∨ s.h.ppend = true

/-- An event at hart `hid` whose whole effect is `f` at that hart: the focus moves there, the effect happens, the focus moves back. -/
def EventAt (i : BitVec 11 → Instr) (f : State → State) : Prop :=
  ∀ (s : State) (hid : BitVec 11), exec (i hid) s = .next (focus (f (focus s hid)) s.hid)

/-- The same, said only of a hart in a state that meets `c` at its focus. -/
def EventAtWhen (i : BitVec 11 → Instr) (c : State → Prop) (f : State → State) : Prop :=
  ∀ (s : State) (hid : BitVec 11), c (focus s hid) → exec (i hid) s = .next (focus (f (focus s hid)) s.hid)


/-! ### Vector-side words -/

/-- The hart can run a vector-side word to its end: it holds a lane group (R22), no interrupt is to stop it, it is no lane thread, and a word with C = 1
may join the convoy it is written to join (R119, R120). -/
def Ready (s : State) (cv : BitVec 1) (m : Member) : Prop :=
  s.h.g ≠ 0 ∧ s.h.stop = none ∧ s.h.upTo = none ∧ s.h.lane = none ∧ (cv = 1 → convoyBad s.h.vconvoy m = false)

/-- Element `e` lies in the word's range: VSTART ≤ e < VL (R30, R99). -/
def inRange (s : State) (e : Nat) : Prop := s.h.vstart.toNat ≤ e ∧ e < s.h.vl.toNat

/-- Element `e` is active under the mask field `k` (R28, R99). -/
def activeIn (s : State) (k : BitVec 3) (e : Nat) : Prop := k = 0 ∨ (s.h.k[k.toNat]).getLsbD e = true

/-- The tail is zeroed: TZ asks for it and the word touches elements at all (R30, R99). -/
def zeroesTail (s : State) : Prop := s.h.vtype.getLsbD 10 = true ∧ s.h.vstart.toNat < s.h.vl.toNat

/-- What a completed vector-side word may have changed: vector and mask registers, VDIRTY, FCSR, the convoy it stands in; VSTART := 0, PC + 4, one word
counted (R13, R30, R37). Nothing else. -/
def vectorFrame (s t : State) : Prop :=
  t = { s with h := { s.h with v := t.h.v, k := t.h.k, vdirty := t.h.vdirty, fcsr := t.h.fcsr, vconvoy := t.h.vconvoy, vstart := 0,
                               pc := s.h.pc + 4, instret := s.h.instret + 1, wait := none } }

/-- VDIRTY gains the bits `rs` and no other (R32). -/
def dirties (s t : State) (rs : List Nat) : Prop := ∀ i, i < 40 → t.h.vdirty.getLsbD i = (s.h.vdirty.getLsbD i || decide (i ∈ rs))

/-- VDIRTY gains no bit outside `rs` (R32). -/
def dirtiesOnly (s t : State) (rs : List Nat) : Prop := ∀ i, i < 40 → i ∉ rs → t.h.vdirty.getLsbD i = s.h.vdirty.getLsbD i

/-- R99, R100: register `d` at width `w` after a word whose element function is `f` (a value and its flags): active elements in range take
the low `w` bits of the value, inactive ones keep theirs or are zeroed (MZ), tail elements are zeroed where `tail` holds and keep theirs otherwise,
elements below VSTART keep theirs; no other register changes; FCSR gains the flags of the active elements; VDIRTY marks only `d`. -/
def ElementRuleAt (w : Nat) (tail : Prop) (s t : State) (d : BitVec 5) (k : BitVec 3) (f : Nat → Word × Flags) : Prop :=
  vectorFrame s t ∧ t.h.k = s.h.k ∧
  (∀ r : BitVec 5, r ≠ d → t.h.v[r.toNat] = s.h.v[r.toNat]) ∧ dirtiesOnly s t [d.toNat] ∧
  ((∃ e, inRange s e ∧ activeIn s k e) → t.h.vdirty.getLsbD d.toNat = true) ∧
  (s.h.vl.toNat ≤ vlmax w s.h.g →
    (∀ e, e < vlmax w s.h.g →
      (inRange s e → activeIn s k e → t.h.elem w d e = (f e).1 &&& BitVec.ofNat 64 (2 ^ w - 1)) ∧
      (inRange s e → ¬ activeIn s k e → t.h.elem w d e = if s.h.mz then 0 else s.h.elem w d e) ∧
      (e < s.h.vstart.toNat → e < s.h.vl.toNat → t.h.elem w d e = s.h.elem w d e) ∧
      (s.h.vl.toNat ≤ e → tail → t.h.elem w d e = 0) ∧
      (s.h.vl.toNat ≤ e → ¬ tail → t.h.elem w d e = s.h.elem w d e)) ∧
    (∀ i : Nat, t.h.fcsr.getLsbD i = true ↔
      (s.h.fcsr.getLsbD i = true ∨ ∃ e, inRange s e ∧ activeIn s k e ∧ (f e).2.getLsbD i = true)))

/-- The same for an element-wise word at width VTYPE.EW. -/
def ElementRule (s t : State) (d : BitVec 5) (k : BitVec 3) (f : Nat → Word × Flags) : Prop :=
  ElementRuleAt s.h.ew (zeroesTail s) s t d k f

/-- An element-wise word completes by `ElementRule`. -/
def ElementWise (i : Instr) (s : State) (cv : BitVec 1) (m : Member) (d : BitVec 5) (k : BitVec 3) (f : Nat → Word × Flags) : Prop :=
  Ready s cv m → ∃ t, exec i s = .next t ∧ ElementRule s t d k f

/-- The integer `z` as a W-bit pattern. -/
def pattern (w : Nat) (z : Int) : Word := (BitVec.ofInt w z).setWidth 64

/-- The W-bit pattern of element `e` of a register. -/
def el (s : State) (r : BitVec 5) (e : Nat) : BitVec s.h.ew := (s.h.elem s.h.ew r e).setWidth s.h.ew

/-- An integer function of two W-bit patterns, at each width (R102). -/
abbrev IntFn := (w : Nat) → BitVec w → BitVec w → Int

/-- `VINT` and `VSAT` words: vd[e] := f(va[e], vb[e]). -/
def IntVV (i : BitVec 1 → BitVec 5 → BitVec 5 → BitVec 5 → BitVec 3 → Instr) (f : IntFn) : Prop :=
  ∀ (s : State) (cv : BitVec 1) (d a b : BitVec 5) (k : BitVec 3),
    ElementWise (i cv d a b k) s cv (s.h.member .arith [a, b] (gov k) [d] []) d k
      fun e => (pattern s.h.ew (f s.h.ew (el s a e) (el s b e)), 0)

/-- `VINTX` words: vd[e] := f(va[e], low W bits of x[b]) (R101). -/
def IntVX (i : BitVec 1 → BitVec 5 → BitVec 5 → BitVec 6 → BitVec 3 → Instr) (f : IntFn) : Prop :=
  ∀ (s : State) (cv : BitVec 1) (d a : BitVec 5) (x : BitVec 6) (k : BitVec 3),
    ElementWise (i cv d a x k) s cv (s.h.member .arith [a] (gov k) [d] []) d k
      fun e => (pattern s.h.ew (f s.h.ew (el s a e) ((reg s x).setWidth s.h.ew)), 0)

/-- `VINTI` words but the shifts: vd[e] := f(va[e], imm6 sign-extended). -/
def IntVI (i : BitVec 1 → BitVec 5 → BitVec 5 → BitVec 6 → BitVec 3 → Instr) (f : IntFn) : Prop :=
  ∀ (s : State) (cv : BitVec 1) (d a : BitVec 5) (m : BitVec 6) (k : BitVec 3),
    ElementWise (i cv d a m k) s cv (s.h.member .arith [a] (gov k) [d] []) d k
      fun e => (pattern s.h.ew (f s.h.ew (el s a e) (m.signExtend s.h.ew)), 0)

/-- The shifts of `VINTI`: the amount is imm6, and one of W or more is illegal (R102). -/
def ShiftVI (i : BitVec 1 → BitVec 5 → BitVec 5 → BitVec 6 → BitVec 3 → Instr) (f : (w : Nat) → BitVec w → Nat → Int) : Prop :=
  ∀ (s : State) (cv : BitVec 1) (d a : BitVec 5) (m : BitVec 6) (k : BitVec 3),
    (m.toNat < s.h.ew → ElementWise (i cv d a m k) s cv (s.h.member .arith [a] (gov k) [d] []) d k
      fun e => (pattern s.h.ew (f s.h.ew (el s a e) m.toNat), 0)) ∧
    (s.h.ew ≤ m.toNat → s.h.lane = none → Traps (i cv d a m k) s Cause.illegal ((encode (i cv d a m k)).setWidth 64))

/-- One-source words: vd[e] := f(va[e]). -/
def IntV1 (i : BitVec 1 → BitVec 5 → BitVec 5 → BitVec 3 → Instr) (f : (w : Nat) → BitVec w → Nat) : Prop :=
  ∀ (s : State) (cv : BitVec 1) (d a : BitVec 5) (k : BitVec 3),
    ElementWise (i cv d a k) s cv (s.h.member .arith [a] (gov k) [d] []) d k
      fun e => (pattern s.h.ew (f s.h.ew (el s a e)), 0)

/-- Number of one bits among the W bits (R102). -/
def onesW (w : Nat) (x : BitVec w) : Nat := ((List.range w).filter fun i => x.getLsbD i).length
/-- Leading zeros among the W bits, 0 to W (R102). -/
def leadW (w : Nat) (x : BitVec w) : Nat := if x.toNat = 0 then w else w - 1 - Nat.log2 x.toNat
/-- Trailing zeros among the W bits, 0 to W (R102): the least index of a one bit. -/
def trailW (w : Nat) (x : BitVec w) : Nat := ((List.range w).find? fun i => x.getLsbD i).getD w

/-- The element format is one a floating-point vector word accepts: binary16, e8m7, binary32 or binary64 (R100). -/
def isFloatType (s : State) : Prop := s.h.fmt = Fmts.fp16 ∨ s.h.fmt = Fmts.e8m7 ∨ s.h.fmt = Fmts.fp32 ∨ s.h.fmt = Fmts.fp64

/-- A function of two codes: the rounded code and the flags. -/
abbrev FloatFn := Bin → Mode → Nat → Nat → Nat × Flags

/-- Round an exact result once, with the flags of the operation and of the rounding (R104). -/
def rounded (f : Mode → Val → Val → Val × Flags) : FloatFn := fun b m x y =>
  let r := f m (binVal b x) (binVal b y)
  let c := binConvert b m false r.1
  (c.1, r.2 ||| c.2)

/-- The element code of a float function. -/
def floatEl (s : State) (r : BitVec 5) (e : Nat) : Nat := (s.h.elem s.h.ew r e).toNat

/-- A float result as an element with its flags. -/
def asElement (r : Nat × Flags) : Word × Flags := (BitVec.ofNat 64 r.1, r.2)

/-- `VFP` words on two vector registers; illegal at any other element format (R100, R104). -/
def FloatVV (i : BitVec 1 → BitVec 5 → BitVec 5 → BitVec 5 → BitVec 3 → Instr) (f : FloatFn) : Prop :=
  ∀ (s : State) (cv : BitVec 1) (d a b : BitVec 5) (k : BitVec 3),
    (isFloatType s → ElementWise (i cv d a b k) s cv (s.h.member .arith [a, b] (gov k) [d] []) d k
      fun e => asElement (f (binOf s.h.fmt) s.h.rm (floatEl s a e) (floatEl s b e))) ∧
    (¬ isFloatType s → s.h.lane = none → Traps (i cv d a b k) s Cause.illegal ((encode (i cv d a b k)).setWidth 64))

/-- `VFPX` words: the second operand is the low W bits of x[b] (R101). -/
def FloatVX (i : BitVec 1 → BitVec 5 → BitVec 5 → BitVec 6 → BitVec 3 → Instr) (f : FloatFn) : Prop :=
  ∀ (s : State) (cv : BitVec 1) (d a : BitVec 5) (x : BitVec 6) (k : BitVec 3),
    (isFloatType s → ElementWise (i cv d a x k) s cv (s.h.member .arith [a] (gov k) [d] []) d k
      fun e => asElement (f (binOf s.h.fmt) s.h.rm (floatEl s a e) ((reg s x).toNat % 2 ^ s.h.ew))) ∧
    (¬ isFloatType s → s.h.lane = none → Traps (i cv d a x k) s Cause.illegal ((encode (i cv d a x k)).setWidth 64))

/-- One-source `VFP` and `VFPX` words. -/
def FloatV1 (i : BitVec 1 → BitVec 5 → BitVec 5 → BitVec 3 → Instr) (f : Bin → Mode → Nat → Nat × Flags) : Prop :=
  ∀ (s : State) (cv : BitVec 1) (d a : BitVec 5) (k : BitVec 3),
    (isFloatType s → ElementWise (i cv d a k) s cv (s.h.member .arith [a] (gov k) [d] []) d k
      fun e => asElement (f (binOf s.h.fmt) s.h.rm (floatEl s a e))) ∧
    (¬ isFloatType s → s.h.lane = none → Traps (i cv d a k) s Cause.illegal ((encode (i cv d a k)).setWidth 64))

/-- Fused multiply-accumulate into vd (R105). -/
def FloatFma (i : BitVec 1 → BitVec 5 → BitVec 5 → BitVec 5 → BitVec 3 → Instr) (negProduct negAddend : Bool) : Prop :=
  ∀ (s : State) (cv : BitVec 1) (d a b : BitVec 5) (k : BitVec 3),
    (isFloatType s → ElementWise (i cv d a b k) s cv (s.h.member .arith [a, b, d] (gov k) [d] []) d k
      fun e =>
        let val (r : BitVec 5) : Val := binVal (binOf s.h.fmt) (floatEl s r e)
        let m := Val.mul (val a) (val b)
        let r := Val.add s.h.rm (if negProduct then m.1.negate else m.1) (if negAddend then (val d).negate else val d)
        let c := binConvert (binOf s.h.fmt) s.h.rm false r.1
        (BitVec.ofNat 64 c.1, m.2 ||| r.2 ||| c.2)) ∧
    (¬ isFloatType s → s.h.lane = none → Traps (i cv d a b k) s Cause.illegal ((encode (i cv d a b k)).setWidth 64))

/-- Mask register `d` after a word that writes a mask bit for each element (R99, R108): as `ElementRuleAt`, on bits, the tail reaching to bit 2047. -/
def BitRuleAt (tail : Prop) (s t : State) (d k : BitVec 3) (f : Nat → Bool × Flags) : Prop :=
  vectorFrame s t ∧ t.h.v = s.h.v ∧ t.h.vdirty = s.h.vdirty ∧
  (∀ r : BitVec 3, r ≠ d → t.h.k[r.toNat] = s.h.k[r.toNat]) ∧
  (∀ e, e < 2048 →
    (inRange s e → activeIn s k e → (t.h.k[d.toNat]).getLsbD e = (f e).1) ∧
    (inRange s e → ¬ activeIn s k e → (t.h.k[d.toNat]).getLsbD e = (!s.h.mz && (s.h.k[d.toNat]).getLsbD e)) ∧
    (e < s.h.vstart.toNat → e < s.h.vl.toNat → (t.h.k[d.toNat]).getLsbD e = (s.h.k[d.toNat]).getLsbD e) ∧
    (s.h.vl.toNat ≤ e → tail → (t.h.k[d.toNat]).getLsbD e = false) ∧
    (s.h.vl.toNat ≤ e → ¬ tail → (t.h.k[d.toNat]).getLsbD e = (s.h.k[d.toNat]).getLsbD e)) ∧
  (∀ i : Nat, t.h.fcsr.getLsbD i = true ↔
    (s.h.fcsr.getLsbD i = true ∨ ∃ e, inRange s e ∧ activeIn s k e ∧ (f e).2.getLsbD i = true))

/-- The same for an element-wise word. -/
def BitRule (s t : State) (d k : BitVec 3) (f : Nat → Bool × Flags) : Prop := BitRuleAt (zeroesTail s) s t d k f

/-- An integer compare (R108). -/
def CompareInt (i : BitVec 1 → BitVec 3 → BitVec 5 → BitVec 5 → BitVec 3 → Instr) (f : (w : Nat) → BitVec w → BitVec w → Prop)
    [∀ w x y, Decidable (f w x y)] : Prop :=
  ∀ (s : State) (cv : BitVec 1) (d : BitVec 3) (a b : BitVec 5) (k : BitVec 3),
    Ready s cv (s.h.member .arith [a, b] (gov k) [] [d]) →
    ∃ t, exec (i cv d a b k) s = .next t ∧ BitRule s t d k fun e => (decide (f s.h.ew (el s a e) (el s b e)), 0)

/-- A floating-point compare: its result with a NaN, and whether it sets NV on a quiet NaN too (R108). -/
def CompareFloat (i : BitVec 1 → BitVec 3 → BitVec 5 → BitVec 5 → BitVec 3 → Instr) (nan loud : Bool) (f : Val → Val → Bool) : Prop :=
  ∀ (s : State) (cv : BitVec 1) (d : BitVec 3) (a b : BitVec 5) (k : BitVec 3),
    (isFloatType s → Ready s cv (s.h.member .arith [a, b] (gov k) [] [d]) →
      ∃ t, exec (i cv d a b k) s = .next t ∧ BitRule s t d k fun e =>
        let u := binVal (binOf s.h.fmt) (floatEl s a e)
        let v := binVal (binOf s.h.fmt) (floatEl s b e)
        (if u.isNan || v.isNan then nan else f u v, if (if loud then u.isNan || v.isNan else u.sig || v.sig) then Flag.nv else 0)) ∧
    (¬ isFloatType s → s.h.lane = none → Traps (i cv d a b k) s Cause.illegal ((encode (i cv d a b k)).setWidth 64))


/-- L of R107: wide elements in one register. -/
def wideLen (s : State) : Nat := vlmax (2 * s.h.ew) s.h.g

/-- Wide element `e` of the pair at `d` (R107). -/
def wideEl (s : State) (d : BitVec 5) (e : Nat) : Word := s.h.elem (2 * s.h.ew) (d + BitVec.ofNat 5 (e / wideLen s)) (e % wideLen s)

/-- A `VWMAC` word (R106, R107): wide element e takes the low 2W bits of `f`, for the active e; illegal where the pair is misaligned, at EW 64, where a source
lies in the pair, and where `ok` does not hold. -/
def WideOp (i : BitVec 1 → BitVec 5 → BitVec 5 → BitVec 5 → BitVec 3 → Instr) (ok : State → Prop)
    (f : State → (d a b : BitVec 5) → Nat → Word × Flags) : Prop :=
  ∀ (s : State) (cv : BitVec 1) (d a b : BitVec 5) (k : BitVec 3),
    let bad := d.toNat % 2 = 1 ∨ s.h.ew = 64 ∨ a.toNat / 2 = d.toNat / 2 ∨ b.toNat / 2 = d.toNat / 2 ∨ ¬ ok s
    (bad → s.h.lane = none → Traps (i cv d a b k) s Cause.illegal ((encode (i cv d a b k)).setWidth 64)) ∧
    (¬ bad → Ready s cv (s.h.member .arithBoth [a, b, d, d + 1] (gov k) [d, d + 1] []) →
      ∃ t, exec (i cv d a b k) s = .next t ∧ vectorFrame s t ∧ t.h.k = s.h.k ∧
        (∀ r : BitVec 5, r ≠ d → r ≠ d + 1 → t.h.v[r.toNat] = s.h.v[r.toNat]) ∧ dirtiesOnly s t [d.toNat, d.toNat + 1] ∧
        (s.h.vl.toNat ≤ vlmax s.h.ew s.h.g →
          (∀ e, e < 2 * wideLen s →
            (inRange s e → activeIn s k e → t.h.vdirty.getLsbD (d.toNat + e / wideLen s) = true ∧ wideEl t d e = (f s d a b e).1 &&& BitVec.ofNat 64 (2 ^ (2 * s.h.ew) - 1)) ∧
            (inRange s e → ¬ activeIn s k e → wideEl t d e = if s.h.mz then 0 else wideEl s d e) ∧
            (e < s.h.vstart.toNat → wideEl t d e = wideEl s d e) ∧
            (s.h.vl.toNat ≤ e → zeroesTail s → wideEl t d e = 0) ∧
            (s.h.vl.toNat ≤ e → ¬ zeroesTail s → wideEl t d e = wideEl s d e)) ∧
          (∀ j : Nat, t.h.fcsr.getLsbD j = true ↔
            (s.h.fcsr.getLsbD j = true ∨ ∃ e, inRange s e ∧ activeIn s k e ∧ (f s d a b e).2.getLsbD j = true))))

/-- An integer `VWMAC` on the integer values that `v` and `w` give the sources. -/
def WideInt (i : BitVec 1 → BitVec 5 → BitVec 5 → BitVec 5 → BitVec 3 → Instr) (sa sb : Bool) : Prop :=
  WideOp i (fun _ => True) fun s d a b e =>
    let val (g : Bool) (r : BitVec 5) : Int := if g then (el s r e).toInt else (el s r e).toNat
    (BitVec.ofInt 64 ((wideEl s d e).toInt + val sa a * val sb b), 0)

/-- A mask word on positions VSTART to VL - 1 (R109): bits in range take `f`, bits at and above VL follow TZ, the others stay. -/
def MaskRule (s t : State) (d : BitVec 3) (f : Nat → Bool) : Prop :=
  BitRule s t d 0 (fun e => (f e, 0))

/-- A logical mask word (R109). -/
def MaskOp (i : BitVec 1 → BitVec 3 → BitVec 3 → BitVec 3 → Instr) (f : Bool → Bool → Bool) : Prop :=
  ∀ (s : State) (cv : BitVec 1) (d a b : BitVec 3), Ready s cv (s.h.member .arith [] [a, b] [] [d]) →
    ∃ t, exec (i cv d a b) s = .next t ∧ MaskRule s t d fun e => f ((s.h.k[a.toNat]).getLsbD e) ((s.h.k[b.toNat]).getLsbD e)

/-- A one-source mask word (R109). -/
def MaskOp1 (i : BitVec 1 → BitVec 3 → BitVec 3 → Instr) (f : Bool → Bool) : Prop :=
  ∀ (s : State) (cv : BitVec 1) (d a : BitVec 3), Ready s cv (s.h.member .arith [] [a] [] [d]) →
    ∃ t, exec (i cv d a) s = .next t ∧ MaskRule s t d fun e => f ((s.h.k[a.toNat]).getLsbD e)

/-- A word that changes only x[b] and moves on: VSTART := 0. The convoy it stands in is recorded. -/
def wroteScalar (s t : State) (x : BitVec 6) (v : Word) : Prop :=
  t = { s with h := { s.h with x := regs s x v, vconvoy := t.h.vconvoy, vstart := 0, pc := s.h.pc + 4, instret := s.h.instret + 1, wait := none } }

/-- The element indices of the word's range that are active, in ascending order. -/
def activeList (s : State) (k : BitVec 3) : List Nat :=
  (List.range s.h.vl.toNat).filter fun e => decide (s.h.vstart.toNat ≤ e) && (decide (k = 0) || (s.h.k[k.toNat]).getLsbD e)

/-- Register `d` after a reduction (R111): element 0 takes `r`, the other elements are zeroed where TZ asks for it; FCSR gains `f`. -/
def ReductionRule (s t : State) (d : BitVec 5) (r : Word) (f : Flags) : Prop :=
  vectorFrame s t ∧ t.h.k = s.h.k ∧ t.h.fcsr = s.h.fcsr ||| f ∧ dirties s t [d.toNat] ∧
  (∀ q : BitVec 5, q ≠ d → t.h.v[q.toNat] = s.h.v[q.toNat]) ∧
  t.h.elem s.h.ew d 0 = r &&& BitVec.ofNat 64 (2 ^ s.h.ew - 1) ∧
  (∀ e, 0 < e → e < vlmax s.h.ew s.h.g → t.h.elem s.h.ew d e = if s.h.tz then 0 else s.h.elem s.h.ew d e)

/-- An integer reduction (R110, R111): element 0 of vd is the start value combined with the active elements, in any order. -/
def ReduceInt (i : BitVec 1 → BitVec 5 → BitVec 5 → BitVec 5 → BitVec 3 → Instr) (f : IntFn) : Prop :=
  ∀ (s : State) (cv : BitVec 1) (d a b : BitVec 5) (k : BitVec 3),
    Ready s cv (s.h.member .select [a, b] (gov k) [d] []) → s.h.vl.toNat ≤ vlmax s.h.ew s.h.g →
    ∃ t, exec (i cv d a b k) s = .next t ∧
      ReductionRule s t d
        (((activeList s k).foldl (fun acc e => BitVec.ofInt s.h.ew (f s.h.ew acc (el s a e))) (el s b 0)).setWidth 64) 0

/-- The balanced tree of R111 over the leaves t(o) .. t(o + 2^n - 1): its root and the flags of its nodes. -/
def treeValue {α : Type} (op : α → α → α × Flags) (t : Nat → α) : Nat → Nat → α × Flags
  | 0, o => (t o, 0)
  | n + 1, o =>
    let l := treeValue op t n o
    let r := treeValue op t n (o + 2 ^ n)
    let z := op l.1 r.1
    (z.1, l.2 ||| r.2 ||| z.2)

/-- A floating-point reduction (R110, R111): the tree over 2^n leaves, n the least with VL ≤ 2^n, then the start value. -/
def ReduceFloat (i : BitVec 1 → BitVec 5 → BitVec 5 → BitVec 5 → BitVec 3 → Instr) (f : FloatFn) (identity : Bin → Nat) : Prop :=
  ∀ (s : State) (cv : BitVec 1) (d a b : BitVec 5) (k : BitVec 3) (n : Nat),
    (¬ isFloatType s → s.h.lane = none → Traps (i cv d a b k) s Cause.illegal ((encode (i cv d a b k)).setWidth 64)) ∧
    (isFloatType s → Ready s cv (s.h.member .select [a, b] (gov k) [d] []) → s.h.vl.toNat ≤ vlmax s.h.ew s.h.g →
      s.h.vl.toNat ≤ 2 ^ n → (∀ m, m < n → 2 ^ m < s.h.vl.toNat) →
      let op := f (binOf s.h.fmt) s.h.rm
      let leaf (e : Nat) : Nat := if e ∈ activeList s k then floatEl s a e else identity (binOf s.h.fmt)
      let root := treeValue op leaf n 0
      let r := op (floatEl s b 0) root.1
      ∃ t, exec (i cv d a b k) s = .next t ∧ ReductionRule s t d (BitVec.ofNat 64 r.1) (root.2 ||| r.2))

/-- A word that rearranges elements (R113, R114): every active position in range takes the value `f` gives, or is handled as an inactive one where it
gives none; the tail is zeroed where TZ asks for it. -/
def PermuteRule (s t : State) (d : BitVec 5) (k : BitVec 3) (f : Nat → Option Word) : Prop :=
  vectorFrame s t ∧ t.h.k = s.h.k ∧ t.h.fcsr = s.h.fcsr ∧ dirtiesOnly s t [d.toNat] ∧
  (∀ r : BitVec 5, r ≠ d → t.h.v[r.toNat] = s.h.v[r.toNat]) ∧
  (s.h.vl.toNat ≤ vlmax s.h.ew s.h.g → ∀ e, e < vlmax s.h.ew s.h.g →
    (inRange s e → activeIn s k e → ∀ v, f e = some v → t.h.vdirty.getLsbD d.toNat = true ∧ t.h.elem s.h.ew d e = v &&& BitVec.ofNat 64 (2 ^ s.h.ew - 1)) ∧
    (inRange s e → (¬ activeIn s k e ∨ f e = none) → t.h.elem s.h.ew d e = if s.h.mz then 0 else s.h.elem s.h.ew d e) ∧
    (e < s.h.vl.toNat → e < s.h.vstart.toNat → t.h.elem s.h.ew d e = s.h.elem s.h.ew d e) ∧
    (s.h.vl.toNat ≤ e → t.h.elem s.h.ew d e = if s.h.tz then 0 else s.h.elem s.h.ew d e))

/-- A permuting word completes by `PermuteRule`. -/
def Permutes (i : Instr) (s : State) (cv : BitVec 1) (m : Member) (d : BitVec 5) (k : BitVec 3) (f : Nat → Option Word) : Prop :=
  Ready s cv m → ∃ t, exec i s = .next t ∧ PermuteRule s t d k f

/-! ### Lane grants -/

/-- Lane groups that harts need to reach their minimum (R21). -/
def stillNeeded (s : State) (q : List (BitVec 11)) : Nat := (q.map fun i => (s.hart i).lgmin.toNat - (s.hart i).g).sum

/-- Free lane groups of the bobbin that neither a waiting `SUPV.crest` (R167) nor the harts `q` need (R21). -/
def spareFor (s : State) (q : List (BitVec 11)) : Nat :=
  (freeGroups s (coreOf s.hid) (onB s.hid)).length - crestNeed s - stillNeeded s q

/-- VL of a request (R25). -/
def lengthFor (n vmax blk : Nat) : Nat :=
  let m := min n vmax
  if blk ≠ 0 ∧ blk ≤ m then m / blk * blk else m

/-- `clear_lane_state()` (R20). -/
def cleared (h : Hart) : Hart :=
  { h with v := Vector.replicate 32 0, k := Vector.replicate 8 0, smm := 0, mx := Vector.replicate 8 0, focc := Vector.replicate 16 0,
           vpr := 0, vstart := 0, vdirty := 0 }

/-- A word that requests `n` elements at a type (R19-R25): the grant it negotiates, what it clears, the VL it sets; or it waits for lgmin. To reach its minimum
the hart takes free lane groups that no older hart of the FIFO needs; beyond it only those that no waiting hart needs (R21; log 11). -/
def SetsVl (i : Instr) (s : State) (d : BitVec 6) (n : Word) (vt : BitVec 12) : Prop :=
  let w := ewBits (vt.extractLsb' 0 2)
  let want := max s.h.lgmin.toNat (min ((n.toNat * w + 4095) / 4096) s.h.lgmax.toNat)
  let free := freeGroups s (coreOf s.hid) (onB s.hid)
  let queue := fifoOf s.c (onB s.hid)
  let onlyQueues (t : State) : Prop := t.c = { s.c with fifoA := t.c.fifoA, fifoB := t.c.fifoB }
  let finish (h : Hart) (m : BitVec 16) (t : State) : Prop :=
    let vl := lengthFor n.toNat (vlmax w (groupsOf m).length) (blkLen (vt.extractLsb' 7 3))
    t = { s with c := t.c, h := { h with gmap := m, vl := BitVec.ofNat 12 vl, vtype := vt, x := regs s d (BitVec.ofNat 64 vl),
                                         pc := s.h.pc + 4, instret := s.h.instret + 1, wait := none } } ∧
    onlyQueues t ∧ ∀ q ∈ t.c.fifoA ++ t.c.fifoB, q ≠ s.hid
  (want = s.h.g → ∃ t, exec i s = .next t ∧ finish s.h s.h.gmap t) ∧
  (want < s.h.g → ∃ t m, exec i s = .next t ∧ finish (cleared s.h) m t ∧ groupsOf m = (groupsOf s.h.gmap).take want) ∧
  (s.h.g < want → s.h.lgmin.toNat ≤ s.h.g + spareFor s (queue.takeWhile fun q => decide (q ≠ s.hid)) →
    let new := min want (max (max s.h.g s.h.lgmin.toNat) (s.h.g + spareFor s (queue.filter fun q => decide (q ≠ s.hid))))
    ∃ t m, exec i s = .next t ∧ finish (if new = s.h.g then s.h else cleared s.h) m t ∧ (groupsOf m).length = new ∧
      (∀ q, s.h.gmap.getLsbD q = true → m.getLsbD q = true) ∧ (∀ q, m.getLsbD q = true → s.h.gmap.getLsbD q = true ∨ q ∈ free)) ∧
  (s.h.g < want → s.h.g + spareFor s (queue.takeWhile fun q => decide (q ≠ s.hid)) < s.h.lgmin.toNat →
    ∃ t, exec i s = .next t ∧ t = { s with c := t.c, h := { s.h with wait := some .lgmin } } ∧ onlyQueues t ∧ s.hid ∈ fifoOf t.c (onB s.hid))

/-- An event at hart `hid` at which the waiting word there runs again (R159): with no word waiting it has no effect, and where one of the words `ws`
waits, it completes, and the hart is as that word leaves it. Where the words come after every older matrix word (`behind`), one that an open convoy still
holds back does not run (R41, R310). -/
def Retries (behind : Bool) (i : BitVec 11 → Instr) (ws : Instr → Prop) : Prop :=
  ∀ (s : State) (hid : BitVec 11),
    let u := focus s hid
    let back : Prop := behind = true ∧ u.h.mstage.isOpen = true
    (u.h.wait = none ∨ back → exec (i hid) s = .next (focus u s.hid)) ∧
    (∀ w t, u.h.wait ≠ none → ¬ back → ws w → w.wellFormed = true → fetch u u.h.pc = .ok (encode w, t) →
      ∃ v, exec w t = .next v ∧ exec (i hid) s = .next (focus v s.hid))

/-! ### Conversions and level-index words -/

/-- The vector's format is a level-index format (R215). -/
def isLevelIndex (s : State) : Prop := fmtSli s.h.fmt = true

/-- The level-index value of a code of the vector's format (R198, R199). -/
def sliEl (s : State) (x : Word) : Sli := sliVal (sliF s.h.fmt) x.toNat

/-- A level-index result with its flags, as an element. -/
def sliResult (s : State) (r : Sli × Flags) : Word × Flags := (BitVec.ofNat 64 (sliCode (sliF s.h.fmt) r.1), r.2)

/-- A function of two level-index values of a format. -/
abbrev SliFn := Nat → Sli → Sli → Sli × Flags

/-- `SLIOP` words (R216); illegal at another format (R215). -/
def SliVV (i : BitVec 1 → BitVec 5 → BitVec 5 → BitVec 5 → BitVec 3 → Instr) (f : SliFn) : Prop :=
  ∀ (s : State) (cv : BitVec 1) (d a b : BitVec 5) (k : BitVec 3),
    (isLevelIndex s → ElementWise (i cv d a b k) s cv (s.h.member .arithB [a, b] (gov k) [d] []) d k
      fun e => sliResult s (f (sliF s.h.fmt) (sliEl s (s.h.elem s.h.ew a e)) (sliEl s (s.h.elem s.h.ew b e)))) ∧
    (¬ isLevelIndex s → s.h.lane = none → Traps (i cv d a b k) s Cause.illegal ((encode (i cv d a b k)).setWidth 64))

/-- `SLIX` words (R216): the second operand is the low W bits of x[b]. -/
def SliVX (i : BitVec 1 → BitVec 5 → BitVec 5 → BitVec 6 → BitVec 3 → Instr) (f : SliFn) : Prop :=
  ∀ (s : State) (cv : BitVec 1) (d a : BitVec 5) (x : BitVec 6) (k : BitVec 3),
    (isLevelIndex s → ElementWise (i cv d a x k) s cv (s.h.member .arithB [a] (gov k) [d] []) d k
      fun e => sliResult s (f (sliF s.h.fmt) (sliEl s (s.h.elem s.h.ew a e)) (sliEl s (reg s x &&& BitVec.ofNat 64 (2 ^ s.h.ew - 1))))) ∧
    (¬ isLevelIndex s → s.h.lane = none → Traps (i cv d a x k) s Cause.illegal ((encode (i cv d a x k)).setWidth 64))

/-- `SLIFN` words (R218, R219). -/
def SliV1 (i : BitVec 1 → BitVec 5 → BitVec 5 → BitVec 3 → Instr) (f : Nat → Sli → Sli × Flags) : Prop :=
  ∀ (s : State) (cv : BitVec 1) (d a : BitVec 5) (k : BitVec 3),
    (isLevelIndex s → ElementWise (i cv d a k) s cv (s.h.member .arithB [a] (gov k) [d] []) d k
      fun e => sliResult s (f (sliF s.h.fmt) (sliEl s (s.h.elem s.h.ew a e)))) ∧
    (¬ isLevelIndex s → s.h.lane = none → Traps (i cv d a k) s Cause.illegal ((encode (i cv d a k)).setWidth 64))

/-- `SLIRED` words (R221): the tree of R111 with an operation on codes. -/
def SliRed (i : BitVec 1 → BitVec 5 → BitVec 5 → BitVec 5 → BitVec 3 → Instr) (op : State → Word → Word → Word × Flags) (identity : State → Word) : Prop :=
  ∀ (s : State) (cv : BitVec 1) (d a b : BitVec 5) (k : BitVec 3) (n : Nat),
    (¬ isLevelIndex s → s.h.lane = none → Traps (i cv d a b k) s Cause.illegal ((encode (i cv d a b k)).setWidth 64)) ∧
    (isLevelIndex s → Ready s cv (s.h.member .select [a, b] (gov k) [d] []) → s.h.vl.toNat ≤ vlmax s.h.ew s.h.g →
      s.h.vl.toNat ≤ 2 ^ n → (∀ m, m < n → 2 ^ m < s.h.vl.toNat) →
      let root := treeValue (op s) (fun e => if e ∈ activeList s k then s.h.elem s.h.ew a e else identity s) n 0
      let r := op s (s.h.elem s.h.ew b 0) root.1
      ∃ t, exec (i cv d a b k) s = .next t ∧ ReductionRule s t d r.1 (root.2 ||| r.2))

/-- `VTRANS` words (R212-R214): binary32 only, so at width 32 (R183). -/
def Transcendental (i : BitVec 1 → BitVec 5 → BitVec 5 → BitVec 3 → Instr) (f : TransFn) : Prop :=
  ∀ (s : State) (cv : BitVec 1) (d a : BitVec 5) (k : BitVec 3),
    (s.h.fmt = Fmts.fp32 → s.h.ew = 32 → ElementWise (i cv d a k) s cv (s.h.member .arithB [a] (gov k) [d] []) d k
      fun e => asElement (transCode f (s.h.elem 32 a e).toNat)) ∧
    (s.h.fmt ≠ Fmts.fp32 → s.h.lane = none → Traps (i cv d a k) s Cause.illegal ((encode (i cv d a k)).setWidth 64))

/-- A conversion word (R204-R206): the operands it refuses, and for the rest the converted code of each active element at the width of its format. -/
def Converts (i : BitVec 1 → BitVec 5 → BitVec 5 → BitVec 5 → BitVec 3 → BitVec 3 → BitVec 1 → BitVec 2 → Instr) (sli : Bool) (c : WordClass) : Prop :=
  ∀ (s : State) (cv : BitVec 1) (d a f : BitVec 5) (k r : BitVec 3) (t : BitVec 1) (e : BitVec 2),
    let bad := ewBits e ≠ s.h.ew ∨ 0x1C ≤ f.toNat ∨ s.h.fmt = Fmts.e8m7x2 ∨ f = s.h.fmt ∨ (fmtSli f || fmtSli s.h.fmt) ≠ sli ∨
      (fmtEW f ≠ s.h.ew ∧ d = a) ∨ vlmax (fmtEW f) s.h.g < s.h.vl.toNat
    (bad → s.h.lane = none → Traps (i cv d a f k r t e) s Cause.illegal ((encode (i cv d a f k r t e)).setWidth 64)) ∧
    (¬ bad → Ready s cv (s.h.member c [a] (gov k) [d] []) → ∃ u, exec (i cv d a f k r t e) s = .next u ∧
      ElementRuleAt (fmtEW f) (zeroesTail s) s u d k fun n =>
        let x := convertCode s.h.fmt f (staticMode s r) (t == 1) (elemCode s.h.fmt (s.h.elem s.h.ew a n))
        (codeElem f x.1, x.2))

/-- The ends of an integer format's range, and the code of an integer in it (R185). -/
def leastOf (f : Fmt) : Int := if fmtSigned f then -(2 ^ (fmtBits f - 1)) else 0
/-- See `leastOf`. -/
def mostOf (f : Fmt) : Int := if fmtSigned f then 2 ^ (fmtBits f - 1) - 1 else 2 ^ fmtBits f - 1
/-- See `leastOf`. -/
def intCode (f : Fmt) (z : Int) : Nat := (z % 2 ^ fmtBits f).toNat

/-- A conversion to an integer format (R79, R206): 0 for a NaN, the end of the range for an infinity or a rounded value beyond it, each with NV; else the
value that the mode rounds to, with NX where it is inexact. -/
def ConvertsToInt (f : Fmt) (mode : Mode) (v : Val) (r : Nat × Flags) : Prop :=
  (∀ s, v = .nan s → r = (0, Flag.nv)) ∧
  (∀ neg, v = .inf neg → r = (intCode f (if neg then leastOf f else mostOf f), Flag.nv)) ∧
  (∀ neg n d, v = .fin neg n d → 0 < d → mode ≤ 4 → ∃ q : Nat, roundsTo mode neg n d q ∧
    let z : Int := if neg then -(q : Int) else q
    (z < leastOf f → r = (intCode f (leastOf f), Flag.nv)) ∧ (mostOf f < z → r = (intCode f (mostOf f), Flag.nv)) ∧
    (leastOf f ≤ z → z ≤ mostOf f → r = (intCode f z, if q * d = n then 0 else Flag.nx)))

/-- A dart code of a body and a sign, and the magnitude of a nonzero body, which `DartValues` pins down (R188). -/
def dartCode (f : Fmt) (neg : Bool) (c : Nat) : Nat := (if neg then 2 ^ (fmtBits f - 1) else 0) + c
/-- See `dartCode`. -/
def dartOf (f : Fmt) (c : Nat) : Nat × Nat := dartMag (fmtBits f - 1) c
/-- A nonzero body of the format. -/
def isBody (f : Fmt) (c : Nat) : Prop := 0 < c ∧ c < 2 ^ (fmtBits f - 1)
/-- The magnitude of a body is below n / d; above it; the distance of n / d from a body below it, and of a body above from it, over a common denominator. -/
def bodyBelow (f : Fmt) (c n d : Nat) : Prop := (dartOf f c).1 * d < n * (dartOf f c).2
/-- See `bodyBelow`. -/
def bodyAbove (f : Fmt) (c n d : Nat) : Prop := n * (dartOf f c).2 < (dartOf f c).1 * d

/-- `dart_round` of R189 on a nonzero magnitude n / d. Where the two neighbours are equally near and both codes end in the same bit, which one RNE takes is open. -/
def DartRounds (f : Fmt) (mode : Mode) (neg : Bool) (n d : Nat) (r : Nat × Flags) : Prop :=
  (∀ c, isBody f c → (dartOf f c).1 * d = n * (dartOf f c).2 → r = (dartCode f neg c, 0)) ∧
  ((∀ c, isBody f c → bodyBelow f c n d) → ∃ c, isBody f c ∧ r = (dartCode f neg c, Flag.of' ||| Flag.nx) ∧
    ∀ q, isBody f q → (dartOf f q).1 * (dartOf f c).2 ≤ (dartOf f c).1 * (dartOf f q).2) ∧
  ((∀ c, isBody f c → bodyAbove f c n d) → ∃ c, isBody f c ∧ r = (dartCode f neg c, Flag.uf ||| Flag.nx) ∧
    ∀ q, isBody f q → (dartOf f c).1 * (dartOf f q).2 ≤ (dartOf f q).1 * (dartOf f c).2) ∧
  (∀ lo hi, isBody f lo → isBody f hi → bodyBelow f lo n d → bodyAbove f hi n d →
    (∀ q, isBody f q → ((dartOf f q).1 * (dartOf f lo).2 ≤ (dartOf f lo).1 * (dartOf f q).2) ∨
      (dartOf f hi).1 * (dartOf f q).2 ≤ (dartOf f q).1 * (dartOf f hi).2) →
    let l := (n * (dartOf f lo).2 - (dartOf f lo).1 * d) * (dartOf f hi).2
    let u := ((dartOf f hi).1 * d - n * (dartOf f hi).2) * (dartOf f lo).2
    ∃ c, r = (dartCode f neg c, Flag.nx) ∧ (c = lo ∨ c = hi) ∧
      (mode = 0 → (l < u → c = lo) ∧ (u < l → c = hi) ∧ (l = u → lo % 2 ≠ hi % 2 → c % 2 = 0)) ∧
      (mode = 1 → c = lo) ∧ (mode = 2 → c = if neg then hi else lo) ∧ (mode = 3 → c = if neg then lo else hi) ∧
      (mode = 4 → c = if l < u then lo else hi))

/-- The value of a dart code is a decimal fraction N / D. -/
def dartIs (f : Fmt) (c N D : Nat) : Prop := ∃ n d, dartVal f c = .fin false n d ∧ 0 < d ∧ n * D = N * d

/-- Dart codes and values that R188, R189 and R190 write out; the sign, zero and NaR. -/
def DartValues : Prop :=
  (∀ p ∈ [(1, 1, 1000), (2, 1, 100), (3, 10, 1), (4, 1, 10), (5, 55, 100), (6, 1, 1), (7, 55, 10)], dartIs Fmts.dart4 p.1 p.2.1 p.2.2) ∧
  dartIs Fmts.dart6 0x03 (10 ^ 5) 1 ∧ dartIs Fmts.dart6 0x01 1 (10 ^ 7) ∧
  dartIs Fmts.dart8 0x03 (10 ^ 13) 1 ∧ dartIs Fmts.dart8 0x01 1 (10 ^ 15) ∧ dartIs Fmts.dart8 0x02 1 (10 ^ 14) ∧
  dartIs Fmts.dart8 0x67 296875 100000 ∧ dartIs Fmts.dart8 0x3F 8875 10 ∧ dartIs Fmts.dart8 0x18 1000 1 ∧
  ∀ f : Fmt, fmtDart f = true →
    dartVal f 0 = .fin false 0 1 ∧ dartVal f (dartCode f true 0) = .nan false ∧
    ∀ c, isBody f c → dartVal f (dartCode f false c) = .fin false (dartOf f c).1 (dartOf f c).2 ∧
      dartVal f (dartCode f true c) = .fin true (dartOf f c).1 (dartOf f c).2

/-- A conversion to a dart format (R189, R196, R197). -/
def ConvertsToDart (f : Fmt) (mode : Mode) (sat : Bool) (v : Val) (r : Nat × Flags) : Prop :=
  (∀ s, v = .nan s → r = (dartCode f true 0, if s then Flag.nv else 0)) ∧
  (∀ neg, v = .inf neg → ∃ c, isBody f c ∧ r = (dartCode f neg c, if sat then 0 else Flag.of' ||| Flag.nx) ∧
    ∀ q, isBody f q → (dartOf f q).1 * (dartOf f c).2 ≤ (dartOf f c).1 * (dartOf f q).2) ∧
  (∀ neg n d, v = .fin neg n d → 0 < d → (n = 0 → r = (0, 0)) ∧ (0 < n → mode ≤ 4 → DartRounds f mode neg n d r))

/-- The operations on level-index values where no real result is rounded (R191, R192, R215 to R219), for F fraction bits. -/
def LevelIndexLaws (n : Nat) : Prop :=
  let one : Int := 2 ^ n
  let inside (z : Int) : Prop := -(sliTop n : Int) ≤ z ∧ z ≤ sliTop n
  (∀ x : Sli, (∀ neg z, x = .num neg z → inside z) → sliVal n (sliCode n x) = x) ∧
  (∀ c, c < 2 ^ (n + 5) → sliVal n c ≠ .nan → c % 2 ^ (n + 4) ≠ 2 ^ (n + 3) + 2 ^ n → sliCode n (sliVal n c) = c) ∧
  (∀ x, sliAdd n .nan x = (.nan, 0) ∧ sliAdd n x .nan = (.nan, 0) ∧ sliMul n .nan x = (.nan, 0) ∧ sliMul n x .nan = (.nan, 0) ∧
    sliDiv n .nan x = (.nan, 0) ∧ sliDiv n x .nan = (.nan, 0)) ∧
  (∀ p q, sliAdd n (.zero p) (.zero q) = (.zero (p && q), 0) ∧ sliMul n (.zero p) (.zero q) = (.zero (p != q), 0) ∧
    sliDiv n (.zero p) (.zero q) = (.nan, Flag.nv)) ∧
  (∀ p q z, sliAdd n (.num p z) (.zero q) = (.num p z, 0) ∧ sliAdd n (.zero q) (.num p z) = (.num p z, 0) ∧
    sliAdd n (.num p z) (.num (!p) z) = (.zero false, 0) ∧
    sliMul n (.num p z) (.zero q) = (.zero (p != q), 0) ∧ sliMul n (.zero q) (.num p z) = (.zero (p != q), 0) ∧
    sliDiv n (.zero q) (.num p z) = (.zero (p != q), 0) ∧ sliDiv n (.num p z) (.zero q) = (.num (p != q) (sliTop n), Flag.dz) ∧
    sliMul n (.num p z) (.num q 0) = (.num (p != q) z, 0) ∧ sliMul n (.num q 0) (.num p z) = (.num (p != q) z, 0) ∧
    sliDiv n (.num p z) (.num q 0) = (.num (p != q) z, 0) ∧
    ∃ g, sliDiv n (.num p z) (.num q z) = (.num (p != q) 0, g) ∧ g &&& (Flag.nx ||| Flag.lxceil) = 0) ∧
  (sliExp n .nan = (.nan, 0) ∧ sliLog n .nan = (.nan, 0)) ∧
  (∀ p, sliExp n (.zero p) = (.num false 0, 0) ∧ sliLog n (.zero p) = (.num true (sliTop n), Flag.dz)) ∧
  (∀ z : Int, (0 ≤ z → z < 6 * one → sliExp n (.num false z) = (.num false (z + one), Flag.lxup) ∧
      sliExp n (.num true z) = (.num false (-(z + one)), Flag.lxdn)) ∧
    (6 * one ≤ z → sliExp n (.num false z) = (.num false (sliTop n), Flag.lxceil ||| Flag.nx) ∧
      sliExp n (.num true z) = (.num false (-(sliTop n : Int)), Flag.lxceil ||| Flag.nx)) ∧
    (one ≤ z → sliLog n (.num false z) = (.num false (z - one), Flag.lxdn)) ∧
    (z ≤ -one → sliLog n (.num false z) = (.num true (-z - one), Flag.lxup)) ∧
    sliLog n (.num true z) = (.nan, Flag.nv)) ∧
  sliLog n (.num false 0) = (.zero false, 0)

/-- Special and exact points of `VTRANS` (R213, R214), for the sign and magnitude code of a binary32 operand. -/
def TranscendentalLaws : Prop :=
  let inf := 0x7F800000
  let nan : Nat × Flags := (0x7FC00000, Flag.nv)
  let sg (neg : Bool) : Nat := if neg then 2 ^ 31 else 0
  (∀ (fn : TransFn) (neg : Bool) (m : Nat), inf < m → m < 2 ^ 31 → transCode fn (sg neg + m) = (0x7FC00000, if m < 0x7FC00000 then Flag.nv else 0)) ∧
  (∀ (neg : Bool) (fn : TransFn), fn = .exp ∨ fn = .exp2 →
    transCode fn (sg neg) = (0x3F800000, 0) ∧ transCode fn (sg neg + inf) = (if neg then 0 else inf, 0)) ∧
  (∀ (neg : Bool) (fn : TransFn), fn = .log ∨ fn = .log2 →
    transCode fn (sg neg) = (2 ^ 31 + inf, Flag.dz) ∧ transCode fn inf = (inf, 0) ∧ transCode fn 0x3F800000 = (0, 0) ∧
    ∀ m, 0 < m → m ≤ inf → transCode fn (2 ^ 31 + m) = nan) ∧
  (∀ neg, transCode .rcp (sg neg) = (sg neg + inf, Flag.dz) ∧ transCode .rcp (sg neg + inf) = (sg neg, 0) ∧
    transCode .rsqrt (sg neg) = (sg neg + inf, Flag.dz) ∧
    transCode .tanh (sg neg) = (sg neg, 0) ∧ transCode .tanh (sg neg + inf) = (sg neg + 0x3F800000, 0)) ∧
  (transCode .rsqrt inf = (0, 0) ∧ ∀ m, 0 < m → m ≤ inf → transCode .rsqrt (2 ^ 31 + m) = nan) ∧
  (∀ m, m ≤ inf → transCode .tanh (2 ^ 31 + m) = (2 ^ 31 + (transCode .tanh m).1, (transCode .tanh m).2)) ∧
  (∀ c neg n d, binVal bin32 c = .fin neg n d → 0 < n →
    transCode .rcp c = binRound bin32 0 neg d n ∧
    (∀ j, n = j * d → j ≤ 400 → transCode .exp2 c = if neg then binRound bin32 0 false 1 (2 ^ j) else binRound bin32 0 false (2 ^ j) 1) ∧
    (∀ j, neg = false → n = 2 ^ j * d → transCode .log2 c = binRound bin32 0 false j 1) ∧
    (∀ j, neg = false → d = 2 ^ (j + 1) * n → transCode .log2 c = binRound bin32 0 true (j + 1) 1) ∧
    (∀ j, neg = false → n = 4 ^ j * d → transCode .rsqrt c = binRound bin32 0 false 1 (2 ^ j)) ∧
    (∀ j, neg = false → d = 4 ^ j * n → transCode .rsqrt c = binRound bin32 0 false (2 ^ j) 1))

/-- What a conversion of codes does (R205, R206, R196, R197), by the kinds of its formats; a level-index source that is no zero, NaN or 1 is not said here. -/
def CodeConversionLaws : Prop :=
  ∀ (g f : Fmt) (mode : Mode) (sat : Bool) (c : Nat),
    let v := codeVal g c
    let r := convertCode g f mode sat c
    (fmtInt g = true → ∃ i : Int, v = .fin (decide (i < 0)) i.natAbs 1 ∧ leastOf g ≤ i ∧ i ≤ mostOf g ∧ intCode g i = c % 2 ^ fmtBits g ∧
      (fmtInt f = true → r = (intCode f (if sat then max (leastOf f) (min (mostOf f) i) else i), 0))) ∧
    (fmtSli g = false → fmtInt g = false → fmtInt f = true → ConvertsToInt f mode v r) ∧
    (fmtSli g = false → fmtDart f = true → ConvertsToDart f mode sat v r) ∧
    (fmtSli g = false → fmtBin f = true → r = binConvert (binOf f) mode sat v) ∧
    (fmtBin g = true → v = binVal (binOf g) (c % 2 ^ fmtBits g)) ∧ (fmtDart g = true → v = dartVal g (c % 2 ^ fmtBits g)) ∧
    (fmtSli g = false → fmtSli f = true →
      (∀ s, v = .nan s → r = (2 ^ (sliF f - 1), if s then Flag.nv else 0)) ∧
      (∀ neg, v = .inf neg → r = (sliCode (sliF f) (.num neg (sliTop (sliF f))), if sat then 0 else Flag.lxceil ||| Flag.nx)) ∧
      (∀ neg d, v = .fin neg 0 d → r = (sliCode (sliF f) (.zero neg), 0)) ∧
      (∀ neg n, 0 < n → v = .fin neg n n → r = (sliCode (sliF f) (.num neg 0), 0))) ∧
    (fmtSli g = true →
      (sliVal (sliF g) c = .nan →
        (fmtInt f = true → r = (0, Flag.nv)) ∧ (fmtDart f = true → r = (dartCode f true 0, 0)) ∧
        (fmtBin f = true → r = binConvert (binOf f) mode sat (.nan false)) ∧ (fmtSli f = true → r = (2 ^ (sliF f - 1), 0))) ∧
      (∀ neg, sliVal (sliF g) c = .zero neg →
        (fmtInt f = true ∨ fmtDart f = true → r = (0, 0)) ∧
        (fmtBin f = true → r = (signOf (binOf f) neg, 0)) ∧ (fmtSli f = true → r = (sliCode (sliF f) (.zero neg), 0))) ∧
      (∀ neg, sliVal (sliF g) c = .num neg 0 →
        (fmtInt f = true → ConvertsToInt f mode (.fin neg 1 1) r) ∧ (fmtDart f = true → DartRounds f mode neg 1 1 r) ∧
        (fmtBin f = true → r = binConvert (binOf f) mode sat (.fin neg 1 1)) ∧ (fmtSli f = true → r = (sliCode (sliF f) (.num neg 0), 0))))

/-- The types of `VQUANT` and `VDEQ` (R207). -/
def isQuantType (s : State) : Prop := s.h.blk ≠ 0 ∧ (s.h.fmt = Fmts.fp16 ∨ s.h.fmt = Fmts.e8m7 ∨ s.h.fmt = Fmts.fp32)

/-! ### Vector memory -/

/-- A vector-side word with membership `m` ends in the state `t` it reached: VSTART := 0, the next word, one word counted (R13, R30, R37); the words
after it with C = 1 are written to join it (R120). -/
def ended (cv : BitVec 1) (m : Member) (t : State) : State :=
  passed { t with h := { t.h with vstart := 0, vconvoy := if cv = 1 then t.h.vconvoy ++ [m] else [m] } }

/-- The state with VSTART at element `e` (R30). -/
def startAt (t : State) (e : Nat) : State := { t with h := { t.h with vstart := BitVec.ofNat 11 e } }

/-- A word whose elements are performed in ascending order by `f` from the state `s0`, then `tail`; `count` is done even where there is no element
(R30, R116, R271): it completes where no element fails, and where element `e` traps it traps with VSTART = e, the elements below performed. -/
def InOrder (i : Instr) (s : State) (cv : BitVec 1) (m : Member) (s0 : State) (f : State → Nat → Except Stop State) (tail count : State → State) : Prop :=
  Ready s cv m →
  (s.h.vl.toNat ≤ s.h.vstart.toNat → exec i s = .next (ended cv m (count s0))) ∧
  (s.h.vstart.toNat < s.h.vl.toNat →
    (∀ t, (List.range' s.h.vstart.toNat (s.h.vl.toNat - s.h.vstart.toNat)).foldlM f s0 = .ok t →
      exec i s = .next (ended cv m (count (tail t)))) ∧
    (∀ e t c v, s.h.vstart.toNat ≤ e → e < s.h.vl.toNat →
      (List.range' s.h.vstart.toNat (e - s.h.vstart.toNat)).foldlM f s0 = .ok t → f t e = .error (.trap c v) →
      exec i s = .next (enterTrap (startAt t e) c v)))

/-- The tail of register `d` follows TZ (R99). -/
def tailOf (d : BitVec 5) (t : State) : State := { t with h := zeroTail t.h.ew d t.h }

/-- Element `e` is active under the mask field `k`. -/
abbrev isActive (s : State) (k : BitVec 3) (e : Nat) : Prop := k = 0 ∨ (s.h.k[k.toNat]).getLsbD e = true

/-- An inactive element of register `d` follows MZ (R99). -/
def inactive (d : BitVec 5) (s : State) (e : Nat) : State := if s.h.mz then { s with h := s.h.setElem s.h.ew d e 0 } else s

/-- Element `e` of a load into register `d` (R115, R116, R271). -/
def loadElement (d : BitVec 5) (k : BitVec 3) (side : BitVec 2) (addr : State → Nat → Word) (s : State) (e : Nat) : Except Stop State :=
  if isActive s k e then
    match load s (addr s e) (s.h.ew / 8) side.toNat with
    | .error r => .error r
    | .ok (x, t) => .ok { t with h := t.h.setElem t.h.ew d e x }
  else .ok (inactive d s e)

/-- Element `e` of a store of register `r` (R115, R116, R271). -/
def storeElement (r : BitVec 5) (k : BitVec 3) (side : BitVec 2) (addr : State → Nat → Word) (s : State) (e : Nat) : Except Stop State :=
  if isActive s k e then store s (addr s e) (s.h.ew / 8) (s.h.elem s.h.ew r e) side.toNat else .ok s

/-- Element `e` of `VLDFF` whose first active element is `f` (R273): an error of a later one is no trap, but ends the word there. -/
def firstFaultElement (d : BitVec 5) (k : BitVec 3) (side : BitVec 2) (addr : State → Nat → Word) (f : Nat) (s : State) (e : Nat) : Except Stop State :=
  if isActive s k e then
    if e = f then loadElement d k side addr s e
    else
      match softLoad s (addr s e) (s.h.ew / 8) side.toNat with
      | .error r => .error r
      | .ok (some (x, t)) => .ok { t with h := t.h.setElem t.h.ew d e x }
      | .ok none => .error (.wait .port)
  else .ok (inactive d s e)

/-- Unit stride, and a stride in bytes (R115). -/
def unitStride (base : Word) (s : State) (e : Nat) : Word := base + BitVec.ofNat 64 e * BitVec.ofNat 64 (s.h.ew / 8)
/-- See `unitStride`. -/
def byteStride (base stride : Word) (_ : State) (e : Nat) : Word := base + BitVec.ofNat 64 e * stride
/-- An index register, zero-extended and scaled by 2^q (R270). -/
def byIndex (base : Word) (r : BitVec 5) (q : BitVec 2) (s : State) (e : Nat) : Word := base + (s.h.elem s.h.ew r e <<< q.toNat)

/-- SMM as a word that writes it anew starts: cleared from VSTART up (R36). -/
def smmFrom (s : State) : State := { s with h := { s.h with smm := s.h.smm &&& bitRange 0 s.h.vstart.toNat } }

/-- SMM[e] := 1: the scope was too narrow (R36). -/
def smmMark (s : State) (e : Nat) : State := { s with h := { s.h with smm := s.h.smm ||| (1#2048 <<< e) } }

/-- Element `e` of `VGATHB` (R175, R274, R346): ordinary memory only, read at its home; a synchronised page of pod scope is a miss. -/
def gatherElement (d : BitVec 5) (k : BitVec 3) (addr : State → Nat → Word) (s : State) (e : Nat) : Except Stop State :=
  if isActive s k e then
    match place s .load (addr s e) (s.h.ew / 8) with
    | .error r => .error r
    | .ok (.mem pa leaf, t) =>
      if leaf.getLsbD 12 = true ∧ 6 < bits leaf 15 13 then .ok (smmMark t e)
      else
        let r := homeLoad t.d (layerOf t.hid) pa (s.h.ew / 8)
        if r.2.1 then .error (.trap Cause.access (addr s e))
        else .ok { t with d := r.2.2, h := t.h.setElem s.h.ew d e (BitVec.ofNat 64 r.1) }
    | .ok _ => .error (.trap Cause.access (addr s e))
  else .ok (inactive d s e)

/-- A `VSCATB` word (R162, R175, R274, R275): every active element is translated first, and a failure there traps with VSTART = 0, nothing applied and the
journal as it stands (log 20); then those that the word's own journal does not hold are applied in element order, and the lines of all leave the L1. Where
one meets poison, the elements of the other controllers are still applied, and then the word traps with its address and VSTART = 0; else it completes,
counts on the timeline and clears its journal. -/
def Scatters (i : BitVec 1 → BitVec 5 → BitVec 6 → BitVec 6 → BitVec 3 → BitVec 2 → Instr) (op : Option Nat) (ok : State → Prop) : Prop :=
  ∀ (s : State) (cv : BitVec 1) (v : BitVec 5) (a b : BitVec 6) (k : BitVec 3) (q : BitVec 2),
    let m := s.h.member .memory [v, b.setWidth 5] (gov k) [] []
    let resumed := decide (s.h.jaddr = s.h.pc ∧ s.h.jaddr ≠ 0)
    let old (e : Nat) : Bool := resumed && s.h.jbits.getLsbD e
    let active := (List.range' s.h.vstart.toNat (s.h.vl.toNat - s.h.vstart.toNat)).filter fun e => decide (isActive s k e)
    let places := scatterPlaces (s.h.ew / 8) (byIndex (reg s a) (b.setWidth 5) q s) s active
    (32 ≤ b.toNat ∨ ¬ ok s → s.h.lane = none → Traps (i cv v a b k q) s Cause.illegal ((encode (i cv v a b k q)).setWidth 64)) ∧
    (b.toNat < 32 → ok s → Ready s cv m →
      (∀ c x, places = .error (.trap c x) → exec (i cv v a b k q) s = .next (enterTrap (startAt s 0) c x)) ∧
      (∀ ps u, places = .ok (ps, u) →
        let s1 := smmFrom (u.release 2)
        let s2 : State := { s1 with h := { s1.h with jbits := if resumed then s1.h.jbits else 0, jaddr := s1.h.pc } }
        let lines := (ps.filter fun p => old p.1).map fun p => p.2.2.1
        let x := (ps.filter fun p => !old p.1).foldl (scatterElem op v) { s := s2, dead := [], bad := none, lines := lines, n := 0 }
        let t : State := { x.s with d := x.lines.foldl (fun d pa => dropLine d (coreOf s.hid) pa) x.s.d }
        (∀ va, x.bad = some va → exec (i cv v a b k q) s = .next (enterTrap (startAt t 0) Cause.access va)) ∧
        (x.bad = none → exec (i cv v a b k q) s =
          .next (ended cv m { t with h := { t.h with gs := t.h.gs + 1, jbits := 0, jaddr := 0 } }))))

/-- The pattern of a `VSPAD` word (R280): entry x[b][7:0] with x[a][19:0] for its base. -/
def boxOf (s : State) (a b : BitVec 6) : BitVec 512 :=
  putBits (sget s.c.pats ((reg s b).toNat % 256) { valid := false, record := 0 }).record 0 (BitVec.ofNat 64 ((reg s a).toNat % 2 ^ 20))

/-- The pattern is one that `VSPAD` takes: valid, in scratchpad, of the vector's format (R280). -/
def boxValid (s : State) (b : BitVec 6) : Prop :=
  let p := sget s.c.pats ((reg s b).toNat % 256) { valid := false, record := 0 }
  p.valid = true ∧ p.record.getLsbD 77 = true ∧ p.record.extractLsb' 64 5 = s.h.fmt

/-- A fault of element `e` of a box reports the address of the element's first byte (R271, R280). -/
def boxFault {α : Type} (r : BitVec 512) (e : Nat) (x : Except Stop α) : Except Stop α :=
  match x with
  | .error (.trap c _) => .error (.trap c (BitVec.ofInt 64 (0xFFFFFFFFFFF00000 + (elemSpan r (patIx r e)).1 % 2 ^ 20)))
  | x => x

/-- Element `e` of `VSPAD.ld` (R251, R280). -/
def boxLoad (d : BitVec 5) (k : BitVec 3) (r : BitVec 512) (s : State) (e : Nat) : Except Stop State :=
  if isActive s k e then
    match (if e < patCount r then boxFault r e (patRead s (hartTrans s.h) r (patIx r e)) else .ok (patFill r, s)) with
    | .error x => .error x
    | .ok (c, t) => .ok { t with h := t.h.setElem s.h.ew d e (codeElem s.h.fmt c) }
  else .ok (inactive d s e)

/-- Element `e` of `VSPAD.st` (R280): one outside the box is dropped; one of packed codes in a poisoned row raises `ACCESS` (R177, R281). -/
def boxStore (v : BitVec 5) (k : BitVec 3) (r : BitVec 512) (s : State) (e : Nat) : Except Stop State :=
  if isActive s k e ∧ e < patCount r then
    match boxFault r e (patWrite s (hartTrans s.h) none r (patIx r e) (elemCode s.h.fmt (s.h.elem s.h.ew v e))) with
    | .error x => .error x
    | .ok t => if packedPoison s r (patIx r e) then boxFault r e (.error (.trap Cause.access 0)) else .ok t
  else .ok s

/-- The widths a vector atomic takes (R282). -/
def atomicWidth (only32 : Bool) (s : State) : Prop := s.h.ew = 32 ∨ (s.h.ew = 64 ∧ only32 = false)

/-- Element `e` of `VAMO` (R284): a scope too narrow marks it in SMM, and the old value goes to `d` where the word returns it. -/
def amoElement (op : Nat) (ret : Bool) (sc : BitVec 3) (d : BitVec 5) (k : BitVec 3) (addr : State → Nat → Word) (s : State) (e : Nat) : Except Stop State :=
  if isActive s k e then
    match vamoAt op sc.toNat (addr s e) (s.h.elem s.h.ew d e).toNat s with
    | .error r => .error r
    | .ok (none, t) => .ok (smmMark t e)
    | .ok (some old, t) => .ok (if ret then { t with h := t.h.setElem s.h.ew d e (BitVec.ofNat 64 old) } else t)
  else .ok (if ret then inactive d s e else s)

/-- A `VAMO` word (R282-R284). -/
def VectorAtomic (i : BitVec 1 → BitVec 4 → BitVec 6 → BitVec 3 → BitVec 1 → BitVec 2 → BitVec 3 → Instr) (op : Nat) (only32 : Bool) : Prop :=
  ∀ (s : State) (cv : BitVec 1) (v : BitVec 4) (a : BitVec 6) (sc : BitVec 3) (r : BitVec 1) (q : BitVec 2) (k : BitVec 3),
    let d : BitVec 5 := v ++ 0#1
    let ix : BitVec 5 := v ++ 1#1
    (¬ atomicWidth only32 s → s.h.lane = none → Traps (i cv v a sc r q k) s Cause.illegal ((encode (i cv v a sc r q k)).setWidth 64)) ∧
    (atomicWidth only32 s → InOrder (i cv v a sc r q k) s cv (s.h.member .memory [d, ix] (gov k) (if r = 1 then [d] else []) []) (smmFrom s)
      (amoElement op (r == 1) sc d k (byIndex (reg s a) ix q)) (fun t => if r = 1 then tailOf d t else t) (fun t => t))

/-- A scalar atomic (R357, R358) on `n` bytes: the old value, zero-extended, goes to x[d]; a refused address traps with no effect. In scratchpad the word
there takes the new value and nothing else outside the hart changes, but what a waiting `BWAIT` notes (R297). -/
def AtomicOp (i : BitVec 3 → BitVec 6 → BitVec 6 → BitVec 6 → Instr) (op n : Nat) : Prop :=
  ∀ (s : State) (sf : BitVec 3) (d a b : BitVec 6), s.h.lane = none →
    let va := reg s a
    let f (old : Nat) : Option Nat := amoNew op (8 * n) old (reg s b).toNat (reg s d).toNat
    (∀ old t, atomic s va n sf.toNat f = .ok (old, t) → exec (i sf d a b) s = .next (wrote t d (BitVec.ofNat 64 old))) ∧
    (∀ c v, atomic s va n sf.toNat f = .error (.trap c v) → exec (i sf d a b) s = .next (enterTrap s c v)) ∧
    (0xFFFFFFFFFFF00000 ≤ va.toNat → va.toNat % n = 0 → va.toNat % 2 ^ 20 < 0xC0000 →
      spadPoisoned s.c (va.toNat % 2 ^ 20) n = false → swBusy s.c (va.toNat % 2 ^ 20) n = false →
      let off := va.toNat % 2 ^ 20
      let old := Memory.read s.c.spad off n
      ∃ t, exec (i sf d a b) s = .next t ∧
        t = { wrote s d (BitVec.ofNat 64 old) with c := { s.c with spad := t.c.spad }, parked := t.parked } ∧
        (∀ v, f old = some v → t.c.spad = Memory.write s.c.spad off n v ∧
          t.parked = s.parked.map fun e => if e.1 / 8 = coreOf s.hid then (e.1, noteBarrier t.c e.2) else e) ∧
        (f old = none → t = wrote s d (BitVec.ofNat 64 old)))

/-! ### Fibres -/

/-- The element type of fibre words (R124). -/
def isFibreType (s : State) : Prop := s.h.ew = 32 ∧ fmtFibre s.h.fmt = true

/-- The pairs of fbN: coordinate and value of each occupied position (R124, R33). -/
def pairsOf (h : Hart) (n : BitVec 4) : List (Nat × Nat) :=
  (List.range (h.focc[n.toNat]).toNat).map fun p => ((h.elem 32 (n ++ 0#1) p).toNat, (h.elem 32 (n ++ 1#1) p).toNat)

/-- Coordinates strictly ascend (R125). -/
def ascending (l : List (Nat × Nat)) : Prop := l.Pairwise fun p q => p.1 < q.1

/-- Coordinates do not descend. -/
def sorted (l : List (Nat × Nat)) : Prop := l.Pairwise fun p q => p.1 ≤ q.1

/-- What a completed fibre word with destination fibre `d` may have changed: the two registers and the occupancy of `d`, VDIRTY, FCSR, VPR and the convoy
it stands in; VSTART := 0, the next word, one word counted. -/
def fibreFrame (s t : State) (d : BitVec 4) : Prop :=
  t = { s with h := { s.h with v := t.h.v, focc := t.h.focc, vdirty := t.h.vdirty, fcsr := t.h.fcsr, vpr := t.h.vpr, vconvoy := t.h.vconvoy, vstart := 0,
                               pc := s.h.pc + 4, instret := s.h.instret + 1, wait := none } } ∧
  (∀ r : BitVec 5, r ≠ d ++ 0#1 → r ≠ d ++ 1#1 → t.h.v[r.toNat] = s.h.v[r.toNat]) ∧
  (∀ n : BitVec 4, n ≠ d → t.h.focc[n.toNat] = s.h.focc[n.toNat]) ∧ dirtiesOnly s t [2 * d.toNat, 2 * d.toNat + 1]

/-- The pairs of `a` whose coordinate stands in `b`, with both values. -/
def matched (a b : List (Nat × Nat)) : List (Nat × Nat × Nat) :=
  a.filterMap fun p => (b.find? fun q => q.1 == p.1).map fun q => (p.1, p.2, q.2)

/-- Runs of equal coordinates become one pair, whose value is combined from left to right (R137). -/
def collapsed (f : Nat → Nat → Nat × Flags) : List (Nat × Nat) → List (Nat × Nat) × Flags
  | [] => ([], 0)
  | p :: l => go p l
where
  /-- With the pair `p` before them. -/
  go (p : Nat × Nat) : List (Nat × Nat) → List (Nat × Nat) × Flags
    | [] => ([p], 0)
    | q :: l =>
      if q.1 = p.1 then
        let r := f p.2 q.2
        let z := go (p.1, r.1) l
        (z.1, r.2 ||| z.2)
      else
        let z := go q l
        (p :: z.1, z.2)

/-- The pairs of an intersection (R135). -/
def intersection (f : Nat → Nat → Nat × Flags) (a b : List (Nat × Nat)) : List (Nat × Nat) × Flags :=
  ((matched a b).map fun m => (m.1, (f m.2.1 m.2.2).1), (matched a b).foldl (fun g m => g ||| (f m.2.1 m.2.2).2) 0)

/-- The pairs of a union or a merge (R136, R137): both fibres in order, a pair of `a` before one of `b` with its coordinate, then collapsed. -/
def union (f : Nat → Nat → Nat × Flags) (a b : List (Nat × Nat)) : List (Nat × Nat) × Flags :=
  collapsed f (a.merge b fun p q => decide (p.1 ≤ q.1))

/-- A merge-walking word with a destination fibre (R128-R139): with `VPR` invalid, its sources in order and room for their pairs, the destination holds the
pairs that `f` gives and `VPR` is zero; in any case the word completes, at capacity with `VPR` valid and FOVF set (R130). -/
def Walks (i : BitVec 1 → BitVec 4 → BitVec 4 → BitVec 4 → Instr) (bad : BitVec 4 → BitVec 4 → BitVec 4 → Prop) (order : List (Nat × Nat) → Prop)
    (f : State → List (Nat × Nat) → List (Nat × Nat) → List (Nat × Nat) × Flags) : Prop :=
  ∀ (s : State) (cv : BitVec 1) (d a b : BitVec 4),
    (¬ isFibreType s ∨ bad d a b → s.h.lane = none → Traps (i cv d a b) s Cause.illegal ((encode (i cv d a b)).setWidth 64)) ∧
    (isFibreType s → ¬ bad d a b →
      Ready s cv { s.h.member .fibre (fibRegs [a, b]) [] (fibRegs [d]) [] with vpr := true } →
      ∃ t, exec (i cv d a b) s = .next t ∧ fibreFrame s t d ∧
        (t.h.vpr = 0 ∨ (t.h.vpr.getLsbD 63 = true ∧ t.h.vpr.getLsbD 62 = true ∧ t.h.fcsr &&& Flag.fovf = Flag.fovf ∧
          (t.h.focc[d.toNat]).toNat = vlmax 32 s.h.g)) ∧
        (s.h.vpr.getLsbD 63 = false → order (pairsOf s.h a) → order (pairsOf s.h b) →
          (pairsOf s.h a).length + (pairsOf s.h b).length ≤ vlmax 32 s.h.g →
          let r := f s (pairsOf s.h a) (pairsOf s.h b)
          pairsOf t.h d = r.1 ∧ t.h.fcsr = s.h.fcsr ||| r.2 ∧ t.h.vpr = 0))

/-- A fibre word without stop points from fibre `a` to fibre `d`: the destination holds what `f` gives, `VPR` stays (R138, R140, R142, R143). -/
def MapsFibre (i : Instr) (s : State) (cv : BitVec 1) (m : Member) (d : BitVec 4) (r : List (Nat × Nat) × Flags) : Prop :=
  (¬ isFibreType s → s.h.lane = none → Traps i s Cause.illegal ((encode i).setWidth 64)) ∧
  (isFibreType s → Ready s cv m → r.1.length ≤ vlmax 32 s.h.g →
    ∃ t, exec i s = .next t ∧ fibreFrame s t d ∧ pairsOf t.h d = r.1 ∧ t.h.fcsr = s.h.fcsr ||| r.2 ∧ t.h.vpr = s.h.vpr)

/-- `FMAP` on each pair at an active position (R142). -/
def mapPairs (s : State) (f : Nat → Nat × Flags) (k : BitVec 3) (l : List (Nat × Nat)) : List (Nat × Nat) × Flags :=
  (l.zipIdx.map fun e => if isActive s k e.2 then (e.1.1, (f e.1.2).1) else e.1,
   l.zipIdx.foldl (fun g e => if isActive s k e.2 then g ||| (f e.1.2).2 else g) 0)

/-- Pairs VSTART to n - 1 one after another by `f`, then `fin` (R129, R144). -/
def PairsInOrder (i : Instr) (s : State) (cv : BitVec 1) (m : Member) (n : Nat) (f : State → Nat → Except Stop State) (fin : State → State) : Prop :=
  (¬ isFibreType s → s.h.lane = none → Traps i s Cause.illegal ((encode i).setWidth 64)) ∧
  (isFibreType s → Ready s cv m →
    (∀ t, (List.range' s.h.vstart.toNat (n - s.h.vstart.toNat)).foldlM f s = .ok t → exec i s = .next (ended cv m (fin t))) ∧
    (∀ p t c v, s.h.vstart.toNat ≤ p → p < n → (List.range' s.h.vstart.toNat (p - s.h.vstart.toNat)).foldlM f s = .ok t →
      f t p = .error (.trap c v) → exec i s = .next (enterTrap (startAt t p) c v)))

/-- FOCC[n] := o. -/
def withOcc (t : State) (n : BitVec 4) (o : Nat) : State := { t with h := { t.h with focc := t.h.focc.set n.toNat (BitVec.ofNat 12 o) } }

/-- Pair `q` of a walk over a level (R145): its coordinate, compared with the one before, and its value or position. -/
def walkPair (vals : Bool) (n : BitVec 4) (crd val : Word) (lo : Nat) (s : State) (q : Nat) : Except Stop State := do
  let c ← load s (crd + BitVec.ofNat 64 (4 * (lo + q))) 4 1
  let before ← if q = 0 then pure (none, c.2) else (load c.2 (crd + BitVec.ofNat 64 (4 * (lo + (q - 1)))) 4 1).map fun r => (some r.1, r.2)
  let x ← if vals then load before.2 (val + BitVec.ofNat 64 (4 * (lo + q))) 4 1 else pure (BitVec.ofNat 64 ((lo + q) % 2 ^ 32), before.2)
  let unsorted := match before.1 with
    | some b => decide (c.1.toNat ≤ b.toNat)
    | none => false
  let t := x.2
  pure { t with h := { (t.h.setElem 32 (n ++ 0#1) q c.1).setElem 32 (n ++ 1#1) q x.1 with
    fcsr := t.h.fcsr ||| if unsorted then Flag.fsort else 0 } }

/-- An `FWALK` word that starts afresh (R128, R145): VSTART is 0 wherever it stops; an empty level when the parent is out of range or its bounds descend; else all pairs of the level, where
they fit. -/
def WalksLevel (i : BitVec 1 → BitVec 4 → BitVec 6 → BitVec 6 → Instr) (vals : Bool) : Prop :=
  ∀ (s : State) (cv : BitVec 1) (n : BitVec 4) (a b : BitVec 6),
    let s0 := startAt s 0
    let m : Member := { s.h.member .memory [] [] (fibRegs [n]) [] with vpr := true }
    let walked (t : State) (o : Nat) : State := ended cv m { withOcc t n o with h := { (withOcc t n o).h with vpr := 0 } }
    (¬ isFibreType s → s.h.lane = none → Traps (i cv n a b) s Cause.illegal ((encode (i cv n a b)).setWidth 64)) ∧
    (isFibreType s → Ready s cv m → s.h.vpr.getLsbD 63 = false →
      (∀ c v, loadWords s0 (reg s a) 0 4 = .error (.trap c v) → exec (i cv n a b) s = .next (enterTrap s0 c v)) ∧
      (∀ r t, loadWords s0 (reg s a) 0 4 = .ok (r, t) →
        let ptr : Word := BitVec.ofNat 64 r
        let count := r / 2 ^ 192 % 2 ^ 32
        (r / 2 ^ 224 ≠ 0 → exec (i cv n a b) s = .next (enterTrap s0 Cause.access (reg s a + 0x1C))) ∧
        (∀ c v, r / 2 ^ 224 = 0 → (reg s b).toNat + 1 < count → load t (ptr + 4 * reg s b) 4 2 = .error (.trap c v) →
          exec (i cv n a b) s = .next (enterTrap s0 c v)) ∧
        (r / 2 ^ 224 = 0 → count ≤ (reg s b).toNat + 1 → exec (i cv n a b) s = .next (walked t 0)) ∧
        (∀ lo t1 hi t2, r / 2 ^ 224 = 0 → (reg s b).toNat + 1 < count → load t (ptr + 4 * reg s b) 4 2 = .ok (lo, t1) →
          load t1 (ptr + 4 * (reg s b + 1)) 4 2 = .ok (hi, t2) →
          (hi.toNat < lo.toNat →
            exec (i cv n a b) s = .next (walked { t2 with h := { t2.h with fcsr := t2.h.fcsr ||| Flag.fsort } } 0)) ∧
          (∀ u, lo.toNat ≤ hi.toNat → hi.toNat - lo.toNat ≤ vlmax 32 s.h.g →
            (List.range (hi.toNat - lo.toNat)).foldlM
              (walkPair vals n (BitVec.ofNat 64 (r / 2 ^ 64)) (BitVec.ofNat 64 (r / 2 ^ 128)) lo.toNat) t2 = .ok u →
            exec (i cv n a b) s = .next (walked u (hi.toNat - lo.toNat))))))

/-! ### Selection -/

/-- A format that `VSEL` orders (R375): 16 bits or wider, without the packed pair. -/
def isSelectType (s : State) : Prop := s.h.ew ≠ 8 ∧ s.h.fmt ≠ Fmts.e8m7x2

/-- A candidate of `VSEL` (R375): active, in range, and no NaN. -/
def candidate (s : State) (a : BitVec 5) (k : BitVec 3) (e : Nat) : Prop :=
  inRange s e ∧ activeIn s k e ∧ selNan s.h (s.h.elem s.h.ew a e) = false

/-- Element `e` comes strictly before element `i` in the order that the word selects by. -/
def precedes (s : State) (smallest : Bool) (a : BitVec 5) (e i : Nat) : Prop :=
  if smallest then selLess s.h (s.h.elem s.h.ew a e) (s.h.elem s.h.ew a i) = true
  else selLess s.h (s.h.elem s.h.ew a i) (s.h.elem s.h.ew a e) = true

/-- A `VSEL` word (R375): the best candidate, the lowest of equals, to elements 0 and 1; with `clr` its bit of the governing mask is cleared, and no younger
word of its convoy may read that mask. -/
def Selects (i : BitVec 1 → BitVec 5 → BitVec 5 → BitVec 3 → Instr) (smallest clr : Bool) : Prop :=
  ∀ (s : State) (cv : BitVec 1) (d a : BitVec 5) (k : BitVec 3),
    let w := s.h.ew
    (¬ isSelectType s ∨ (clr = true ∧ k = 0) → s.h.lane = none → Traps (i cv d a k) s Cause.illegal ((encode (i cv d a k)).setWidth 64)) ∧
    (isSelectType s → ¬ (clr = true ∧ k = 0) →
      Ready s cv { s.h.member .select [a] (gov k) [d] (if clr then [k] else []) with kx := if clr then maskSet [k] else 0 } →
      ∃ t, exec (i cv d a k) s = .next t ∧ vectorFrame s t ∧ t.h.fcsr = s.h.fcsr ∧ dirties s t [d.toNat] ∧
        (∀ r : BitVec 5, r ≠ d → t.h.v[r.toNat] = s.h.v[r.toNat]) ∧
        (∀ e, 2 ≤ e → e < vlmax w s.h.g → t.h.elem w d e = if s.h.tz then 0 else s.h.elem w d e) ∧
        ((∀ e, ¬ candidate s a k e) → t.h.k = s.h.k ∧ t.h.elem w d 0 = BitVec.ofNat 64 (2 ^ w - 1) ∧ t.h.elem w d 1 = 0) ∧
        (∀ e, candidate s a k e → (∀ n, candidate s a k n → ¬ precedes s smallest a n e) →
          (∀ n, n < e → candidate s a k n → precedes s smallest a e n) →
          t.h.elem w d 0 = BitVec.ofNat 64 e &&& BitVec.ofNat 64 (2 ^ w - 1) ∧ t.h.elem w d 1 = s.h.elem w a e ∧
          (clr = false → t.h.k = s.h.k) ∧
          (clr = true → (∀ r : BitVec 3, r ≠ k → t.h.k[r.toNat] = s.h.k[r.toNat]) ∧
            ∀ n, n < 2048 → (t.h.k[k.toNat]).getLsbD n = ((s.h.k[k.toNat]).getLsbD n && decide (n ≠ e)))))

/-- A `VEXIT` word (R376): `f` of whether an active exit stands strictly below, and whether the element is one. -/
def Exits (i : BitVec 1 → BitVec 3 → BitVec 3 → BitVec 3 → Instr) (f : Bool → Bool → Bool) : Prop :=
  ∀ (s : State) (cv : BitVec 1) (d b k : BitVec 3), Ready s cv (s.h.member .select [] (b :: gov k) [] [d]) →
    ∃ t, exec (i cv d b k) s = .next t ∧ BitRuleAt (s.h.tz = true) s t d k fun e =>
      (f ((activeList s k).any fun n => decide (n < e) && (s.h.k[b.toNat]).getLsbD n) ((s.h.k[b.toNat]).getLsbD e), 0)

/-- A running form of `VSCAN` (R378): the start value combined with the active elements up to, or with `before` below, each one. -/
def Scans (i : BitVec 1 → BitVec 5 → BitVec 5 → BitVec 5 → BitVec 3 → Instr) (f : IntFn) (before : Bool) : Prop :=
  ∀ (s : State) (cv : BitVec 1) (d a b : BitVec 5) (k : BitVec 3), Ready s cv (s.h.member .select [a, b] (gov k) [d] []) →
    ∃ t, exec (i cv d a b k) s = .next t ∧ ElementRuleAt s.h.ew (s.h.tz = true) s t d k fun e =>
      ((((activeList s k).filter fun n => if before then decide (n < e) else decide (n ≤ e)).foldl
        (fun acc n => BitVec.ofInt s.h.ew (f s.h.ew acc (el s a n))) (el s b 0)).setWidth 64, 0)

/-! ### The matrix engine -/

/-- A matrix word and those of its convoy, `n` in all, are over (R37, R318): they are counted on the queue and as completed words, nothing is staged, and no
word can join them (R310). -/
def matrixEnd (n : Nat) (t : State) : State :=
  let count (x : Word) : Word := x + BitVec.ofNat 64 n
  { t with c := (if onB t.hid then { t.c with mqB := count t.c.mqB } else { t.c with mqA := count t.c.mqA }),
           h := { t.h with pc := t.h.pc + 4, instret := count t.h.instret, wait := none, mstage := { MStage.empty with chain := some [] } },
           undo := sdel t.undo t.hid.toNat }

/-- The pc moves on and no word is counted yet (R37, R310). -/
def movedOn (t : State) : State := { t with h := { t.h with pc := t.h.pc + 4, wait := none } }

/-- A matrix word that is never a member of a convoy and whose work on the closed stage is `t` or stops (R310): with C = 1 it is refused. While a busy swatch
holds back a store of the window, it waits (R254). -/
def MatrixAlone (i : Instr) (s : State) (cv : BitVec 1) (work : Except Stop State) : Prop :=
  (s.h.g = 0 → s.h.lane = none → Traps i s Cause.illegal ((encode i).setWidth 64)) ∧
  (s.h.g ≠ 0 → s.h.lane = none → cv = 1 → Traps i s Cause.convoy ((encode i).setWidth 64)) ∧
  (s.h.g ≠ 0 → s.h.lane = none → cv = 0 → storesBlocked s = true → exec i s = .next (waitsFor s .swatch)) ∧
  (s.h.g ≠ 0 → s.h.lane = none → cv = 0 → storesBlocked s = false → (∀ t, work = .ok t → exec i s = .next (matrixEnd 1 t)) ∧
    (∀ c v, work = .error (.trap c v) → exec i s = .next (enterTrap (closeStage s) c v)) ∧
    (∀ w, work = .error (.wait w) → exec i s = .next (waitsFor (closeStage s) w)))

/-- An `MMETA` word (R37, R309, R310): it opens a convoy, or joins the open one; `put` stages its register. It is counted with its convoy. That the hart as it
stood is kept to be undone is log 24's. -/
def Stages (i : Instr) (s : State) (cv : BitVec 1) (key : Nat) (put : MStage → MStage) : Prop :=
  let joins (ks : List Nat) : Prop := ks ≠ [] ∧ key ∉ ks
  let opened (ks : List Nat) : State :=
    let t := closeStage s
    movedOn { t with undo := sput t.undo t.hid.toNat t.h, h := { t.h with
      mstage := { put MStage.empty with chain := some ks, isOpen := true, count := 1, first := t.h.pc } } }
  (s.h.g = 0 → s.h.lane = none → Traps i s Cause.illegal ((encode i).setWidth 64)) ∧
  (s.h.g ≠ 0 → s.h.lane = none → ∀ ks, cv = 1 → s.h.mstage.chain = some ks → ¬ joins ks →
    Traps i s Cause.convoy ((encode i).setWidth 64)) ∧
  (s.h.g ≠ 0 → cv = 0 → exec i s = .next (opened [key])) ∧
  (s.h.g ≠ 0 → cv = 1 → s.h.mstage.isOpen = false → s.h.mstage.chain = none → exec i s = .next (opened [key])) ∧
  (∀ ks, s.h.g ≠ 0 → cv = 1 → s.h.mstage.isOpen = false → s.h.mstage.chain = some ks → joins ks → exec i s = .next (opened (ks ++ [key]))) ∧
  (∀ ks, s.h.g ≠ 0 → cv = 1 → s.h.mstage.isOpen = true → s.h.mstage.chain = some ks → joins ks →
    exec i s = .next (movedOn { s with h := { s.h with
      mstage := { put s.h.mstage with chain := some (ks ++ [key]), count := (put s.h.mstage).count + 1 } } }))

/-- A multiplying word (R41, R305-R312, R316): it joins the open convoy, after the stores that the window held, or stands alone; a check that fails undoes the
convoy, whose stores are discarded, and is taken at its first word (R43; log 24). While a busy swatch holds back one of those stores, it waits (R254). -/
def Multiplies (i : BitVec 1 → BitVec 3 → BitVec 8 → BitVec 8 → Instr) (acc sp grp gather : Bool) : Prop :=
  ∀ (s : State) (cv : BitVec 1) (x : BitVec 3) (a b : BitVec 8),
    let u : Mul := { x := x, a := a.toNat, b := b.toNat, acc := acc, sp := sp, grp := grp, gather := gather }
    let w := encode (i cv x a b)
    let alone := mulBody w u MStage.empty (closeStage s)
    let joining := mulBody w u s.h.mstage (performStores s)
    (s.h.g = 0 → s.h.lane = none → Traps (i cv x a b) s Cause.illegal (w.setWidth 64)) ∧
    (s.h.g ≠ 0 → s.h.lane = none → cv = 1 → s.h.mstage.chain = some [] → Traps (i cv x a b) s Cause.convoy (w.setWidth 64)) ∧
    (s.h.g ≠ 0 → s.h.lane = none → cv = 0 ∨ s.h.mstage.chain ≠ some [] → storesBlocked s = true →
      exec (i cv x a b) s = .next (waitsFor s .swatch)) ∧
    (s.h.g ≠ 0 → storesBlocked s = false → cv = 0 ∨ (s.h.mstage.isOpen = false ∧ s.h.mstage.chain ≠ some []) →
      (∀ t, alone = .ok t → exec (i cv x a b) s = .next (matrixEnd 1 t)) ∧
      (∀ c v, alone = .error (.trap c v) → s.h.lane = none → exec (i cv x a b) s = .next (enterTrap (closeStage s) c v)) ∧
      (∀ r, alone = .error (.wait r) → s.h.lane = none → exec (i cv x a b) s = .next (waitsFor (closeStage s) r))) ∧
    (s.h.g ≠ 0 → storesBlocked s = false → cv = 1 → s.h.mstage.isOpen = true → s.h.mstage.chain ≠ some [] →
      (∀ t, joining = .ok t → exec (i cv x a b) s = .next (matrixEnd (s.h.mstage.count + 1) t)) ∧
      (∀ c v, joining = .error (.trap c v) → s.h.lane = none → exec (i cv x a b) s = .next (enterTrap (undoConvoy s) c v)) ∧
      (∀ r, joining = .error (.wait r) → s.h.lane = none → exec (i cv x a b) s = .next (waitsFor s r)))

/-- The exact arithmetic of a chunk (R200, R202, R307, R308): operands, products and sums with their special values, the terms of a row, the chunks in order,
and one chunk added to the accumulator. That an exact zero enters as +0 is the model's choice (log 19). -/
def ChunkLaws : Prop :=
  (∀ (f : Fmt) (c : Nat) (neg : Bool) (n d : Nat), codeVal f c = .fin neg n d →
    (fmtInt f = true → matrixVal true f c = .fin (if neg then -(n : Int) else n)) ∧
    (fmtMatrix f = true → fmtDart f = false → ∃ m : Int, matrixVal false f c = .fin m ∧ m * d = (if neg then -(n : Int) else n) * 2 ^ 149) ∧
    (fmtDart f = true → ∃ k e, 0 < e ∧ binVal bin32 (binConvert bin32 0 false (.fin neg n d)).1 = .fin neg k e ∧
      ∃ m : Int, matrixVal false f c = .fin m ∧ m * e = (if neg then -(k : Int) else k) * 2 ^ 149)) ∧
  (∀ (f : Fmt) (c : Nat), fmtMatrix f = true → (∀ s, codeVal f c = .nan s → matrixVal false f c = .nan) ∧
    ∀ neg, codeVal f c = .inf neg → matrixVal false f c = .inf neg) ∧
  (∀ x : MVal, x.add .nan = .nan ∧ MVal.nan.add x = .nan ∧ x.mul .nan = .nan ∧ MVal.nan.mul x = .nan) ∧
  (∀ (p q : Bool) (m n : Int),
    (MVal.fin m).add (.fin n) = .fin (m + n) ∧ (MVal.fin m).mul (.fin n) = .fin (m * n) ∧
    (MVal.inf p).add (.fin n) = .inf p ∧ (MVal.fin n).add (.inf p) = .inf p ∧
    (MVal.inf p).add (.inf q) = (if p = q then .inf p else .nan) ∧ (MVal.inf p).mul (.inf q) = .inf (p != q) ∧
    (MVal.inf p).mul (.fin n) = (if n = 0 then .nan else .inf (p != decide (n < 0))) ∧
    (MVal.fin n).mul (.inf p) = (if n = 0 then .nan else .inf (p != decide (n < 0)))) ∧
  (∀ (u : Mul) (st : MStage) (c : Core) (k : Nat) (int : Bool) (ra : BitVec 512) (i ar : Nat),
    let val (p : Nat) : MVal := matrixVal int (PRec.fmt ra) (spadCode c ra p ar)
    let terms := rowValues u st c k int ra i ar
    (u.sp = false → terms = (List.range k).map fun p => (p, val p)) ∧
    (u.sp = true → ∀ q j, q < k / 4 → j < 4 →
      let e := 4096 * (i / 4) + 1024 * (i % 4) + 4 * (q % 256)
      let i0 := (sget st.metaBits (q / 256) 0).toNat / 2 ^ e % 4
      let i1 := (sget st.metaBits (q / 256) 0).toNat / 2 ^ (e + 2) % 4
      (terms.filter fun t => t.1 == 4 * q + j).map (·.2) =
        if i0 = j ∧ i1 = j then [val (2 * q), val (2 * q + 1)] else if i0 = j then [val (2 * q)] else if i1 = j then [val (2 * q + 1)] else [.fin 0])) ∧
  (∀ (x y : Nat → Int) (k lo hi : Nat), hi ≤ k →
    chunkSum ((List.range k).map fun p => (p, .fin (x p))) ((List.range k).map fun p => .fin (y p)) lo hi =
      .fin (((List.range' lo (hi - lo)).map fun p => x p * y p).sum)) ∧
  (∀ (a : List (Nat × MVal)) (b : List MVal) (lo hi : Nat) (e : Nat × MVal), e ∈ a → lo ≤ e.1 → e.1 < hi →
    e.2.mul (b.getD e.1 (.fin 0)) = .nan → chunkSum a b lo hi = .nan) ∧
  (∀ (k l n : Nat) (int : Bool) (a : List (Nat × MVal)) (b : List MVal) (sa sb : Nat → Val) (acc : Nat), 0 < l →
    tileElem 0 int l a b sa sb acc = (acc, 0) ∧
    (n * l < k → k ≤ (n + 1) * l →
      let z := tileElem (n * l) int l a b sa sb acc
      let r := addChunk int z.1 (chunkSum a b (n * l) k) (sa n) (sb n)
      tileElem k int l a b sa sb acc = (r.1, z.2 ||| r.2))) ∧
  (∀ (acc : Nat) (n : Int) (neg : Bool) (sa sb : Val),
    let t := (BitVec.ofNat 32 acc).toInt + n
    let one : Val := .fin false 1 1
    let plus (c : Nat) (f : Flags) : Nat × Flags :=
      let r := Val.add 0 (binVal bin32 acc) (binVal bin32 c)
      let z := binConvert bin32 0 false r.1
      (z.1, f ||| (r.2 ||| z.2))
    addChunk true acc (.fin n) sa sb = ((BitVec.ofInt 32 t).toNat, if t < -(2 ^ 31) ∨ 2 ^ 31 ≤ t then Flag.iovf else 0) ∧
    addChunk false acc .nan sa sb = (0x7FC00000, Flag.nv) ∧
    addChunk false acc (.inf neg) one one = plus (signOf bin32 neg + 0x7F800000) 0 ∧
    addChunk false acc (.fin 0) one one = plus 0 0 ∧
    (n ≠ 0 → ∀ (p q : Bool) (x y w z : Nat), 0 < x → 0 < y → 0 < w → 0 < z →
      let c := binRound bin32 0 (decide (n < 0) != (p != q)) (n.natAbs * x * w) (2 ^ 298 * y * z)
      addChunk false acc (.fin n) (.fin p x y) (.fin q w z) = plus c.1 c.2))

/-! ### Interrupts and regions -/

/-- The interrupt that is taken next, with the value of its `TVAL` (R154): PREEMPT, then the lowest EXTERNAL source, then TIMER. -/
def firstPending (h : Hart) : Option (BitVec 6 × Word) :=
  if h.ppend = true ∧ h.pen = true then some (Cause.preempt, 0)
  else if h.ext ≠ [] ∧ h.een = true then some (Cause.external, BitVec.ofNat 64 (h.ext.headD 0))
  else if h.tpend = true ∧ h.ten = true then some (Cause.timer, 0)
  else none

/-- The hart may take an interrupt now (R152, R154, R422, R459). -/
def mayTake (s : State) : Prop :=
  s.h.live = true ∧ s.h.halted = false ∧ (s.h.prv = false ∨ s.h.ie = true) ∧ ∀ r, s.h.wait ≠ some (.remote true r)

/-- Nothing of a region or of an open matrix convoy, and no `WFI`, stands where the interrupt enters. -/
def atWord (s : State) : Prop := s.h.region = none ∧ s.h.mstage.isOpen = false ∧ s.h.wait ≠ some .wfi

/-- What register field `r` reads in lane thread `t` (R381): element t of e0 to e31 sign-extended from its width, or x32 to x63 of the hart. -/
def threadReg (s : State) (t : Nat) (r : BitVec 6) : Word :=
  if r.toNat < 32 then ((s.h.elem s.h.ew (r.setWidth 5) t).setWidth s.h.ew).signExtend 64 else s.h.x[r.toNat]

/-- A state whose thread writes `v` to e[d], ORs in flags and completes its word. -/
def threadWrote (s : State) (t : Nat) (f : BitVec 14) (d : BitVec 6) (v : Word) : State :=
  passed { s with h := { s.h.setElem s.h.ew (d.setWidth 5) t v with fcsr := s.h.fcsr ||| f } }

/-- The hart outside any region, with what three fields of a thread's word read in x1, x2 and x3. -/
def asScalar (s : State) (t : Nat) (d a b : BitVec 6) : State :=
  { s with h := { s.h with lane := none, x := ((s.h.x.set 1 (threadReg s t d)).set 2 (threadReg s t a)).set 3 (threadReg s t b) } }

/-- A register word in a lane thread (R381): it gives e[d] the value, and FCSR the flags, that the same word gives x1 outside a region, from what its fields
read; and it completes where that word does. -/
def ThreadOp (i : BitVec 6 → BitVec 6 → BitVec 6 → Instr) : Prop :=
  ∀ (s : State) (t : Nat) (p : Option (BitVec 6 × Word)) (d a b : BitVec 6), s.h.lane = some (t, p) → 32 ≤ s.h.ew → d.toNat < 32 →
    ∀ f v, exec (i 1 2 3) (asScalar s t d a b) = .next (wroteFlags (asScalar s t d a b) f 1 v) → exec (i d a b) s = .next (threadWrote s t f d v)

/-- A word in a lane thread traps: the thread holds the trap, and nothing else changes (R384). -/
def threadTraps (s : State) (t : Nat) (c : BitVec 6) (v : Word) : State := { s with h := { s.h with lane := some (t, some (c, v)) } }

/-- A scalar load in a lane thread (R381, R383). -/
def ThreadLoad (i : BitVec 6 → BitVec 6 → BitVec 9 → Instr) (n : Nat) (ext : Word → Word) : Prop :=
  ∀ (s : State) (t : Nat) (p : Option (BitVec 6 × Word)) (d a : BitVec 6) (m : BitVec 9), s.h.lane = some (t, p) → 32 ≤ s.h.ew → d.toNat < 32 →
    let va := threadReg s t a + m.signExtend 64
    (∀ pl u v w, s.h.mstage.stores = [] → place s .load va n = .ok (pl, u) → readPlace u pl va n 0 = .ok (v, w) →
      exec (i d a m) s = .next (threadWrote w t 0 d (ext v))) ∧
    (∀ c v, place s .load va n = .error (.trap c v) → exec (i d a m) s = .next (threadTraps s t c v))

/-- A scalar store in a lane thread. -/
def ThreadStore (i : BitVec 6 → BitVec 6 → BitVec 9 → Instr) (n : Nat) : Prop :=
  ∀ (s : State) (t : Nat) (p : Option (BitVec 6 × Word)) (b a : BitVec 6) (m : BitVec 9), s.h.lane = some (t, p) → 32 ≤ s.h.ew →
    let va := threadReg s t a + m.signExtend 64
    (∀ pl u w, s.h.mstage.isOpen = false → place s .store va n = .ok (pl, u) → writePlace u pl n (threadReg s t b) 0 = .ok w →
      exec (i b a m) s = .next (passed w)) ∧
    (∀ c v, place s .store va n = .error (.trap c v) → exec (i b a m) s = .next (threadTraps s t c v))

/-- A conditional branch in a lane thread. -/
def ThreadBranch (i : BitVec 6 → BitVec 6 → BitVec 12 → Instr) (c : Word → Word → Prop) : Prop :=
  ∀ (s : State) (t : Nat) (p : Option (BitVec 6 × Word)) (a b : BitVec 6) (o : BitVec 12), s.h.lane = some (t, p) → 32 ≤ s.h.ew →
    (c (threadReg s t a) (threadReg s t b) → exec (i a b o) s = .next (jumped s (wordsAhead s o.toInt))) ∧
    (¬ c (threadReg s t a) (threadReg s t b) → exec (i a b o) s = .next (passed s))

/-- A word that no thread may execute: its major is not 0x01 to 0x18, and it is no `LTJOIN`, `LTYIELD` or `LTID` (R381). -/
def notForThreads (w : Insn) : Prop :=
  let m := w.toNat / 2 ^ 24
  ¬ (1 ≤ m ∧ m ≤ 0x18) ∧ w ≠ 0x6A000001#32 ∧ w ≠ 0x6A000002#32 ∧ ¬ (m = 0x6A ∧ w.toNat % 2 ^ 18 = 3)

/-- One word of a lane thread (R381, R384): a word that no thread may execute and one that writes x32 to x63 are illegal; a word whose successor lies outside the
region raises `LANE_BUFFER`, before `MISALIGNED` where a `JALR` goes to such a target (R155); any other moves its thread to the offset it comes to, with the
hart at its `LTSPLIT`. -/
def ThreadWord (run : Insn → State → Out) : Prop :=
  ∀ (r : Region) (s : State) (t o : Nat),
    let w := r.words.getD o 0
    let m := w.toNat / 2 ^ 24
    let start : State := { s with h := { s.h with pc := r.base + BitVec.ofNat 64 (4 + 4 * o), lane := some (t, none) } }
    let refused := LaneRes.trapped Cause.illegal (w.setWidth 64)
    (notForThreads w → laneWord run r s t o = refused) ∧
    ((1 ≤ m ∧ m ≤ 0x0D) ∨ m = 0x0F ∨ m = 0x10 ∨ m = 0x17 ∨ m = 0x18 → w.getLsbD 23 = true → laneWord run r s t o = refused) ∧
    (∀ u, laneMajor w = true → laneWrites w = false → run w start = .next u →
      (∀ q c v, u.h.lane = some (q, some (c, v)) →
        let leaves : Prop := m = 0x18 ∧ c = Cause.misaligned ∧ 4 * (r.join + 1) ≤ (v - r.base - 4).toNat
        (leaves → laneWord run r s t o = .trapped Cause.laneBuffer r.base) ∧ (¬ leaves → laneWord run r s t o = .trapped c v)) ∧
      ((∀ q c v, u.h.lane ≠ some (q, some (c, v))) →
        (∀ p, p ≤ r.join → p < 2 ^ 32 → u.h.pc = r.base + BitVec.ofNat 64 (4 + 4 * p) →
          laneWord run r s t o = .moved { u with h := { u.h with pc := r.base, lane := none, instret := s.h.instret, wait := none } } p) ∧
        ((∀ p, p ≤ r.join → u.h.pc ≠ r.base + BitVec.ofNat 64 (4 + 4 * p)) → laneWord run r s t o = .trapped Cause.laneBuffer r.base)))

/-- A region with one thread left (R382, R384): its word is issued, and leaves the masks, VL, the type and the grant alone, as the words that a thread may
execute do; its trap is taken at the `LTSPLIT`, with the thread and its offset in `VPR`. -/
def OneThread (run : Insn → State → Out) : Prop :=
  ∀ (r : Region) (s : State) (t : Nat), s.h.g ≠ 0 → running s.h r.join = [t] → r.held t = false →
    let o := threadAt s.h t
    (∀ c v, laneWord run r s t o = .trapped c v → laneStep run r s = enterTrap { s with h := { s.h with
      vpr := BitVec.ofNat 64 (2 ^ 63 + r.join * 2 ^ 32 + o * 2 ^ 16 + t), vstart := 0, owed := [], region := none, lane := none } } c v) ∧
    (∀ u p, laneWord run r s t o = .moved u p → u.h.k = s.h.k → u.h.vl = s.h.vl → u.h.vtype = s.h.vtype → u.h.gmap = s.h.gmap → ∃ q, laneStep run r s = { u with h := { setThread u.h t p with region := some q } } ∧
      q.base = r.base ∧ q.words = r.words ∧ q.join = r.join)

/-! ### Context save and restore -/

/-- The 8-byte word at offset `o` of the fixed part of a save area (R165). -/
def areaWord (a : BitVec 32768) (o : Nat) : Word := a.extractLsb' (8 * o) 64

/-! ### Timelines, barriers, locks -/

/-- A hart of the core in focus performs an acquire (R336) or a release (R335) at a scope. What it fetched early is forgotten by an acquire of core scope or
wider (R460; log 45). -/
def acquired (s : State) (sf : BitVec 3) : State :=
  { s with d := Machine.acquire s.d (coreOf s.hid) sf.toNat, h := { s.h with early := if sf = 0 then s.h.early else [] } }
/-- See `acquired`. -/
def released (s : State) (sf : BitVec 3) : State := { s with d := Machine.release s.d (coreOf s.hid) sf.toNat }

/-- A wait for counter `id` has passed (R295): its acquire, from chiplet scope up behind what the counter's signals followed (log 43). -/
def counterPassed (s : State) (sf : BitVec 3) (id : Word) : State :=
  acquired (if 4 ≤ sf.toNat ∧ id.toNat < 2 ^ 16 then { s with d := s.d.takeClock (layerOf s.hid) id.toNat } else s) sf

/-- What a `WAITTL` for counter `id` to reach `n` waits for: for another unit's counter of R295 it names the unit and the value, for they may outlive it. -/
def waitFor (s : State) (id n : Word) : Wait := if id.toNat / 2 ^ 56 = 3 then .unitCounter s.h.node (id.setWidth 32) n false else .timeline

/-- The wait of the hart has noted that its counter reached the value before its unit ended (R295). -/
def hasPassed (s : State) : Prop := ∃ l u n, s.h.wait = some (.unitCounter l u n true)

/-- REM, PEND and EXP of a barrier word (R265). -/
def remOf (w : Word) : Nat := w.toNat / 2 ^ 20 % 2 ^ 20
/-- See `remOf`. -/
def pendOf (w : Word) : Nat := w.toNat / 2 ^ 40 % 2 ^ 23
/-- See `remOf`. -/
def expOf (w : Word) : Nat := w.toNat % 2 ^ 20
/-- A barrier word of its fields (R265). -/
def barWord (phase : Bool) (pend rem exp : Nat) : Word :=
  BitVec.ofNat 64 ((if phase then 2 ^ 63 else 0) + pend % 2 ^ 23 * 2 ^ 40 + rem * 2 ^ 20 + exp)

/-- What an event that leaves REM and PEND does to the object (R266): a phase ends where both are 0. -/
def afterEvent (w : Word) (pend rem : Nat) : Word :=
  if rem = 0 ∧ pend % 2 ^ 23 = 0 then barWord (!w.getLsbD 63) 0 (expOf w) (expOf w) else barWord (w.getLsbD 63) pend rem (expOf w)

/-- The offset of the barrier object that a value names is one (R297). -/
def isObject (x : Word) : Prop := x.toNat % 2 ^ 20 % 8 = 0 ∧ x.toNat % 2 ^ 20 < 0xC0000

/-- The barrier word of the core at the offset that a value names. -/
def objectAt (s : State) (x : Word) : Word := BitVec.ofNat 64 (Memory.read s.c.spad (x.toNat % 2 ^ 20) 8)

/-- The L1 set and the line in it that hold an address for the core (R237, R240). -/
def setAt (d : Device) (core pa : Nat) : List Line := sget d.l1 (setKey d (domainCore d core pa) pa) []

/-! ### The shuttle -/

/-- Channel `ch` of the core in focus. -/
def chan (s : State) (ch : BitVec 4) : Chan := s.c.chans[ch.toNat]
/-- The state with channel `ch` of the core in focus replaced. -/
def withChan (s : State) (ch : BitVec 4) (k : Chan) : State := { s with c := { s.c with chans := s.c.chans.set ch.toNat k } }
/-- Commands of a channel fired and not started (R256). -/
def waitingCount (k : Chan) : Nat := (k.cmds.filter fun x => decide (x.at' = .queued)).length

/-- An `SHSTAGE` word writes one slot of its channel's staging area and changes nothing else (R289). -/
def StagesSlot (i : Instr) (s : State) (ch : BitVec 4) (g : Staging) : Prop :=
  exec i s = .next (passed (withChan s ch { chan s ch with stg := g }))

/-- A swatch entry's OWNER and STATE (R252). -/
def ownerOf (w : Word) : Nat := w.toNat / 2 ^ 40 % 8
/-- See `ownerOf`. -/
def stateOf (w : Word) : Nat := w.toNat / 2 ^ 48 % 4
/-- The entry with STATE and CH replaced (R252). -/
def boundEntry (w : Word) (st ch : Nat) : Word := BitVec.ofNat 64 (w.toNat / 2 ^ 50 * 2 ^ 50 + st * 2 ^ 48 + ch * 2 ^ 44 + w.toNat % 2 ^ 44)

/-- The `SHGO` word of a kind (R290). -/
noncomputable def shgoOf : CmdKind → BitVec 4 → BitVec 6 → BitVec 1 → Instr
  | .copy => .shgoCopy
  | .rows => .shgoRows
  | .stream => .shgoStream
  | .send => .shgoSend
  | .bodkin => .shgoBodkin

/-- A slot that the kind requires is none (R290). -/
def slotMissing (k : CmdKind) (g : Staging) : Prop :=
  g.src = none ∨ (k ≠ .stream ∧ g.dst = none) ∨ (k = .rows ∧ g.idx = none) ∨ ((k = .stream ∨ k = .send) ∧ g.port = none) ∨ (k = .bodkin ∧ g.rtn = none)

/-- The entries that a kind reads, in the order src, idx, dst, each with the demand of R290 on it. -/
def demands (k : CmdKind) (g : Staging) : List (BitVec 8 × (BitVec 512 → Prop)) :=
  let rank2 (r : BitVec 512) : Prop := k = .rows → 2 ≤ PRec.rank r
  (g.src.getD 0, fun r => rank2 r ∧ (k = .stream → container (PRec.fmt r) = 4)) ::
    ((if k = .rows then [(g.idx.getD 0, fun r => PRec.rank r = 1 ∧
        (PRec.fmt r = Fmts.int32 ∨ PRec.fmt r = Fmts.uint32 ∨ PRec.fmt r = Fmts.int64 ∨ PRec.fmt r = Fmts.uint64))] else []) ++
     (if k = .stream then [] else [(g.dst.getD 0, rank2)]))

/-- The entry is valid and meets the demand. -/
def meets (c : Core) (e : BitVec 8 × (BitVec 512 → Prop)) : Prop := (patAt c e.1.toNat).valid = true ∧ e.2 (patAt c e.1.toNat).record

/-- The byte span of a scratchpad pattern lies in a swatch's region (R291). -/
def lieWithin (r : BitVec 512) (w : Word) : Prop :=
  PRec.space r = true ∧ ∀ a b, patSpan r = some (a, b) → (swOff w : Int) ≤ a ∧ b ≤ (swOff w + swLen w : Nat)

/-- An event of the engine of core `core`, said of a core in a state that meets `c` in the focus of its hart 0: the focus moves there, the effect
happens, the focus moves back. -/
def EngineAt (i : BitVec 8 → Instr) (c : State → Prop) (f : State → State) : Prop :=
  ∀ (s : State) (core : BitVec 8), c (focus s (core ++ 0#3)) → exec (i core) s = .next (focus (f (focus s (core ++ 0#3))) s.hid)

/-- The stream dispatcher may start the command (R161, R258). -/
def startable (s : State) (k : Cmd) : Prop :=
  portReady s.c k = true ∧ inFlight s.c < 64 ∧ k.asid.toNat ∉ s.d.quiet

/-- The oldest command of a channel that has not started (R258). -/
def oldestQueued (s : State) (ch : BitVec 4) : Option Cmd := (chan s ch).cmds.find? fun k => decide (k.at' = .queued)

/-- The command in flight on a channel under an id, whose address space is not quiesced (R161, R256). -/
def inAction (s : State) (ch : BitVec 4) (id : BitVec 64) (k : Cmd) : Prop :=
  (chan s ch).cmds.find? (fun x => x.id == id.toNat) = some k ∧ k.at' = .flying ∧ k.asid.toNat ∉ s.d.quiet

/-- The command sends over a fabric port that is out of service (R434). -/
def portOut (s : State) (k : Cmd) : Prop := k.kind = .send ∧ s.d.ports.getLsbD (k.port.getD 0).toNat = false

/-- The rest of a command's source is read (R253): what a routine or an overlap-safe move reads before it lands anything, or else the elements that have
not landed. -/
def sourceRead (s : State) (k : Cmd) (l : List (Nat × List Nat)) (k' : Cmd) (u : State) : Prop :=
  ∃ k1 s1, prepared s k = .ok (k1, s1) ∧
    ((k1.snap = some l ∧ k' = k1 ∧ u = s1) ∨
      (k1.snap = none ∧ readAhead s1 k1 (List.range' k1.landed (k1.expected - k1.landed)) = .ok (l, k', u)))

/-- Every transfer of an address space that is in flight lands what stops it at sector boundaries, on each core in turn (R161). -/
def sectorsEnded (s : State) (asid : Nat) : State :=
  ((List.range 256).filter fun k => k == coreOf s.hid || (sfind s.cores k).isSome).foldl
    (fun t k => focus (settleSectors (focus t (BitVec.ofNat 8 k ++ 0#3)) asid) t.hid) s

/-- The channel with some field of one command changed. -/
def withCmd (k : Chan) (id : Nat) (f : Cmd → Cmd) : Chan := { k with cmds := k.cmds.map fun x => if x.id = id then f x else x }

/-! ### Launches and the scheduler -/

/-- The keys of a keyed list rise strictly. -/
def keysRise {α : Type} (m : Sparse α) : Prop := m.Pairwise fun a b => a.1 < b.1

/-- The node table has a sorted list of slots 1 to 65535 (R394). -/
def tableFormed (d : Device) : Prop := keysRise d.nodes ∧ ∀ e ∈ d.nodes, 1 ≤ e.1 ∧ e.1 ≤ 65535

/-- BAD_RECORD of R399. -/
def badRecord (r : BitVec 512) : Prop :=
  Rec.clear r = false ∨ Rec.kind r = 3 ∨ (Rec.cw r = true ∧ Rec.kind r ≠ 0) ∨ Rec.gang r = 0 ∨ (Rec.seam r = 0 ∧ 1 < Rec.gang r) ∨
    16 < Rec.lgmin r ∨ Rec.lgmax r < Rec.lgmin r ∨ 16 < Rec.lgmax r ∨ (Rec.kind r = 0 ∧ (Rec.entry r).toNat % 4 ≠ 0)

/-- The parent that a record names (R394). -/
def parentOf (r : BitVec 512) (job : BitVec 48) : Option (BitVec 48) :=
  if Rec.parent r = 0 then some job else if (Rec.parent r).toNat < 2 ^ 48 then some ((Rec.parent r).setWidth 48) else none

/-- A live node, not cancelled, that ranks above the kind a record asks for and has room for one more child (R393, R399, R409). -/
def goodParent (d : Device) (r : BitVec 512) (job : BitVec 48) : Prop :=
  ∃ p n, parentOf r job = some p ∧ nodeAt d p = some n ∧ n.live = true ∧ n.cancelled = false ∧ n.kind.rank < (recKind r).rank ∧
    (n.kind = .phase ∨ n.kind = .graph → n.accepted < n.limit)

/-- The answer of a creating form that is refused (R414). -/
def refusedWith (s : State) (withId : Bool) (d : BitVec 6) (st : Nat) : State := wrote s d (if withId then BitVec.ofInt 64 (-(st : Int)) else BitVec.ofNat 64 st)

/-- The 64 KiB that end at `sp` lie on pages mapped with R, W and U in the launch's address space, and `sp` is a multiple of 16 (R400). -/
def goodStack (s : State) (n : Node) (sp : Word) : Prop :=
  let mapped (va : Word) : Prop := ∃ e size, (walk s.d 0 n.ptroot (va.toNat % 2 ^ 56)).1 = .leaf e size ∧
    (va.toNat / 2 ^ 55 = 0 ∨ va.toNat / 2 ^ 55 = 511) ∧ e.getLsbD 1 = true ∧ e.getLsbD 2 = true ∧ e.getLsbD 4 = true
  sp.toNat % 16 = 0 ∧ mapped (sp - 65536) ∧ mapped (sp - 1)

/-- What a gang needs to be placed on slots (R400-R402, R404-R408, R423, R461), beyond what `slotsFit` says of the slots. -/
def mayPlace (s : State) (nd : Node) (p : Placement) : Prop :=
  let t := updateResv (setLparts (leaveSlots s) p.lparts)
  let size := roundPage (Rec.gang nd.record * Rec.spad nd.record)
  inOrder t.d (p.node.toNat % 2 ^ 16) nd = true ∧ nd.counter ≠ 0 ∧ (nd.state = .queued ∨ nd.state = .placing) ∧ savedGang t.d p.node = [] ∧
    p.gang = nd.nextGang ∧ p.units.length = gangSize nd p.gang ∧ (∀ u ∈ p.units, goodStack s nd u.sp ∧ u.timer ≠ 0) ∧
    reached t (p.node.toNat % 2 ^ 16, nd) = true ∧ slotsFit t (p.node.toNat % 2 ^ 16, nd) (p.units.map (·.slot)) = true ∧
    (size ≠ 0 → p.resv.toNat % 4096 = 0 ∧ p.resv.toNat + size ≤ 0xC0000)

/-- An instance of a seam has a core in service. -/
def inUse (d : Device) (sc inst : Nat) : Prop := ∃ k, k < 256 ∧ instanceOf sc k = inst ∧ coreInService d k = true

/-- A reservation is that of a launch for a gang that the launch still has to place or to restore (R405). -/
def reservesFor (d : Device) (r : Resv) (n : Node) : Prop :=
  liveNode d r.node = some n ∧ n.kind = .launch ∧ n.cancelled = false ∧
    (((n.state = .queued ∨ n.state = .placing) ∧ n.nextGang ≤ r.gang) ∨ ∃ e ∈ d.saved, e.2.node = r.node ∧ e.2.gang = r.gang)

/-- A launch holds a reservation whose instance has a core in service. -/
def reserves (d : Device) (r : Resv) (n : Node) : Prop := r ∈ d.resv ∧ reservesFor d r n ∧ inUse d (Rec.seam n.record) r.inst

/-! ### Messages and the pod -/

/-- The direction of a route in the first dimension, from 0 for x to 2 for z, in which two packages differ: the shorter way round the ring of 16, a tie
going positive (R433). -/
def routeTo (a b : BitVec 12) (dim : Nat) (positive : Prop) : Prop :=
  let at' (p : BitVec 12) (i : Nat) : Nat := p.toNat / 16 ^ i % 16
  dim < 3 ∧ at' a dim ≠ at' b dim ∧ (∀ i, i < dim → at' a i = at' b i) ∧ (positive ↔ (at' b dim + 16 - at' a dim) % 16 ≤ 8)

/-- Another package may be reached: the device is in a pod, and the fabric port on the route toward it that the core's traffic takes is in service:
port 4 dim, 2 more for the negative direction, 1 more for an odd core (R433). -/
def inReach (s : State) (pkg : BitVec 12) : Prop :=
  s.d.inPod = true ∧ ∃ dim neg, routeTo s.d.pkg pkg dim (neg = 0) ∧ neg < 2 ∧ s.d.ports.getLsbD (4 * dim + 2 * neg + coreOf s.hid % 2) = true

/-- What leaves for another package is outstanding until its answer (R419, R421, R422). -/
def outstanding (s : State) (o : Outgoing) : State :=
  { s with h := { s.h with remote := s.h.remote + 1 }, d := { s.d with podout := s.d.podout ++ [o] } }

/-- An operation leaves for another package. -/
def away (s : State) (op : BitVec 5) (a b b2 : Word) : State :=
  outstanding s { hart := s.hid, op := op, addr := a, b := b, b2 := b2, msg := none }

/-- A word whose operation is carried out by another package: it sends it and waits, and its answer completes it or, with a nonzero status, traps. Where the
answer makes it acquire at pod scope it completes once the hart's other remote operations are over too (R347). -/
def Remotely (i : Instr) (s : State) (held : Bool) (op : BitVec 5) (a b b2 : Word) (acq : Word → Prop) (fin : Word → State) : Prop :=
  ((∀ k r, s.h.wait ≠ some (.remote k r)) → exec i s = .next (waitsFor (away s op a b b2) (.remote held none))) ∧
  (∀ k, s.h.wait = some (.remote k none) → exec i s = .next s) ∧
  (∀ k v, s.h.wait = some (.remote k (some (v, 0))) → (acq v ∧ s.h.remote ≠ 0 → exec i s = .next s) ∧
    (¬ (acq v ∧ s.h.remote ≠ 0) → exec i s = .next (fin v))) ∧
  (∀ k v st, st ≠ 0 → s.h.wait = some (.remote k (some (v, st))) → Traps i s Cause.access a)

/-- A unit's mailbox id (R417). -/
def mailboxWord (s : State) : Word := BitVec.ofNat 64 (s.d.pkg.toNat * 2 ^ 52 + s.h.node.toNat % 2 ^ 16 * 2 ^ 32 + s.h.unit.toNat)

/-- The unit has the mailbox of an id: its launch node's slot and its unit number are the id's (R417). -/
def hasMailbox (id : Word) (h : Hart) : Prop := h.node.toNat % 2 ^ 16 = id.toNat / 2 ^ 32 % 2 ^ 16 ∧ h.unit.toNat = id.toNat % 2 ^ 32

/-- Entries of a unit's mailbox in use, those granted to messages on their way included, from this package and from others (R417, R419). -/
def entriesOf (s : State) (id : Word) (r : Hart) : Nat :=
  r.mbox.length + (s.d.flight.filter fun e => decide (e.1 = r.node ∧ e.2.1 = id)).length +
    (s.d.podgrant.filter fun e => decide (e.1 = r.node ∧ e.2.1 = id)).length

/-- A send of some pairs (R419): to a mailbox of this package it takes a free entry of the unit that has it, or waits for one; to a package in reach it waits
for the answer of the other package, which grants an entry or refuses. How a grant of another package reaches the hart is log 18's. -/
def Sends (i : Instr) (s : State) (d : BitVec 6) (id : Word) (pairs : List (BitVec 32 × BitVec 32)) : Prop :=
  let pkg : BitVec 12 := id.extractLsb' 52 12
  let named : Prop := id.toNat / 2 ^ 32 % 2 ^ 16 ≠ 0 ∧ id.toNat / 2 ^ 48 % 2 ^ 4 = 0
  let sent (r : Hart) : State := { released s 6 with d := { (released s 6).d with
    flight := (released s 6).d.flight ++ [(r.node, id, { sender := mailboxWord s, pairs := pairs, pod := false })] } }
  let gone : State := outstanding (released s 7)
    { hart := s.hid, op := 18, addr := id, b := 0, b2 := 0, msg := some { sender := mailboxWord s, pairs := pairs, pod := true } }
  (¬ named → exec i s = .next (wrote s d 1)) ∧
  (named → pkg = s.d.pkg →
    ((∀ q, (s.hart q).live = true → ¬ hasMailbox id (s.hart q)) → (∀ e ∈ s.d.saved, ¬ hasMailbox id e.2) → exec i s = .next (wrote s d 1)) ∧
    (∀ r, holderOf s id = some r → hasMailbox id r ∧
      (entriesOf s id r < 16 → exec i s = .next (wrote (sent r) d 0)) ∧
      (16 ≤ entriesOf s id r → exec i s = .next (waitsFor s (.mailbox none))))) ∧
  (named → pkg ≠ s.d.pkg →
    (¬ inReach s pkg → exec i s = .next (wrote s d 2)) ∧
    (inReach s pkg → (∀ r, s.h.wait ≠ some (.mailbox (some r))) → exec i s = .next (waitsFor s (.mailbox none))) ∧
    (inReach s pkg → s.h.wait = some (.mailbox (some false)) → exec i s = .next (wrote s d 1)) ∧
    (inReach s pkg → s.h.wait = some (.mailbox (some true)) → s.h.remote = 0 → exec i s = .next (wrote gone d 0)) ∧
    (inReach s pkg → s.h.wait = some (.mailbox (some true)) → s.h.remote ≠ 0 → exec i s = .next s))

/-- The hart has taken a message into fibre register `n` (R420); one of another package only once its earlier remote operations are over (R347). -/
def Receives (i : Instr) (s : State) (d : BitVec 6) (n : BitVec 4) (m : Message) (rest : List Message) : Prop :=
  let cap := vlmax 32 s.h.g
  let k := min m.pairs.length cap
  let u := acquired s (if m.pod then 7 else 6)
  (m.pod = true ∧ s.h.remote ≠ 0 → exec i s = .next (waitsFor s .acks)) ∧
  (m.pod = false ∨ s.h.remote = 0 → ∃ h : Hart, exec i s = .next (wrote { u with h := h } d m.sender) ∧
    h = { u.h with v := h.v, vdirty := h.vdirty, focc := s.h.focc.set n.toNat (BitVec.ofNat 12 k), mbox := rest,
                   fcsr := if cap < m.pairs.length then s.h.fcsr ||| Flag.fovf else s.h.fcsr } ∧
    pairsOf h n = (m.pairs.take k).map (fun p => (p.1.toNat, p.2.toNat)) ∧
    (∀ p, k ≤ p → p < cap → h.elem 32 (n ++ 0#1) p = s.h.elem 32 (n ++ 0#1) p ∧ h.elem 32 (n ++ 1#1) p = s.h.elem 32 (n ++ 1#1) p) ∧
    (∀ r : BitVec 5, r ≠ n ++ 0#1 → r ≠ n ++ 1#1 → h.v[r.toNat] = s.h.v[r.toNat]) ∧
    (∀ q, q < 40 → h.vdirty.getLsbD q = (s.h.vdirty.getLsbD q || decide (0 < k ∧ (q = 2 * n.toNat ∨ q = 2 * n.toNat + 1)))))

/-- A remote atomic (R422) of operation `op` on `n` bytes: alignment is checked here; on this package it is done at its home under the hart's own address
space, elsewhere by the other package. -/
def PodAtomic (i : BitVec 6 → BitVec 6 → BitVec 6 → Instr) (op : BitVec 5) (n : Nat) : Prop :=
  ∀ (s : State) (d a b : BitVec 6), s.h.lane = none →
    let va := reg s a
    let pkg : BitVec 12 := va.extractLsb' 52 12
    let home : Word := (va.setWidth 52).signExtend 64
    let f (old : Nat) : Option Nat := amoNew op.toNat (8 * n) old (reg s b).toNat (reg s d).toNat
    (va.toNat % n ≠ 0 → Traps (i d a b) s Cause.misaligned va) ∧
    (va.toNat % n = 0 → pkg = s.d.pkg →
      (∀ pa leaf t old u, place s .atomic home n = .ok (.mem pa leaf, t) → atomicMem t home pa n 7 leaf f = .ok (old, u) →
        exec (i d a b) s = .next (wrote u d (BitVec.ofNat 64 old))) ∧
      (∀ pa leaf t e, place s .atomic home n = .ok (.mem pa leaf, t) → atomicMem t home pa n 7 leaf f = .error e → Traps (i d a b) s Cause.access va) ∧
      (∀ w, place s .atomic home n = .error (.wait w) → exec (i d a b) s = .next (waitsFor s w)) ∧
      ((∀ pa leaf t, place s .atomic home n ≠ .ok (.mem pa leaf, t)) → (∀ w, place s .atomic home n ≠ .error (.wait w)) →
        Traps (i d a b) s Cause.access va)) ∧
    (va.toNat % n = 0 → pkg ≠ s.d.pkg →
      (¬ inReach s pkg → Traps (i d a b) s Cause.access va) ∧
      (inReach s pkg → Remotely (i d a b) s true op va (reg s b) (reg s d) (fun _ => False) fun v => wrote s d (BitVec.ofNat 64 (v.toNat % 2 ^ (8 * n)))))

/-! ### The host and the device -/

/-- Job-start register set `j` (R429). -/
def jobReg (d : Device) (j : BitVec 8) : JobReg := sget d.jobs j.toNat JobReg.reset
/-- The state with job-start register set `j` replaced. -/
def withJob (s : State) (j : BitVec 8) (r : JobReg) : State := { s with d := { s.d with jobs := sput s.d.jobs j.toNat r } }

/-- A log entry's second word (R447). -/
def logWord (core blk kind : Nat) : Word := BitVec.ofNat 64 (core * 2 ^ 32 + blk * 2 ^ 4 + kind * 2 + 1)

/-- The 4096 bytes of a frame are in the copy as they stand in memory (R450). -/
def frameCopied (d : Device) (k : Nat) : Prop := ∀ a, a / 4096 = k → Memory.get d.ckpt.sink a = Memory.get d.mem a

/-! ### Steps -/

/-- The turn that the next step takes is one of a hart, and starts at `u`: the clocks run (R445), its cycles have passed, and its timer has expired if it is
due (R37, R423). The schedule is the model's own (log 2): where it is empty, the same hart has the turn, and one cycle passes; what the last step wrote in
poisoned granules is forgotten (log 34). -/
def TurnStarts (s u : State) : Prop :=
  s.d.trip = false ∧
  ((s.turns = [] ∧ exec (.timerExpiry s.hid) (beginTurn (freshMarks s) (some s.hid.toNat) (some (hartPort (freshMarks s))) 1) = .next u) ∨
   ∃ h dt ts, s.turns = .run h dt :: ts ∧
     exec (.timerExpiry h) (focus (beginTurn { freshMarks s with turns := ts } (some h.toNat) (some (hartPort (focus (freshMarks s) h))) dt) h) = .next u)

/-- The hart runs words: a unit is placed on it that is not cancelled and whose handler has not stopped it (R409, R459). -/
def running' (u : State) : Prop := u.h.live = true ∧ u.h.cancelled = false ∧ u.h.halted = false

/-- A turn that takes no interrupt and is in no region comes to the word at the pc; what is left of a chosen stop point is forgotten. -/
def atFetch (u : State) : Prop := running' u ∧ u.h.region = none ∧ (¬ mayTake u ∨ firstPending u.h = none)

/-- See `atFetch`. -/
def noStop (u : State) : State := { u with h := { u.h with stop := none } }

/-- The state that the fetch of `w` leaves, with an open convoy of `MMETA` words closed where `w` must wait for the older matrix words (R310; log 24). -/
def closedFor (w : Insn) (t : State) : State := if t.h.mstage.isOpen = true ∧ closesConvoy w t = true then closeStage t else t

/-- Where the fetched word runs from: an element-wise word from the element at which its convoy resumes (R122); any other word than those that may stand
among the words of a stopped convoy, with nothing of that convoy left. -/
noncomputable def runFrom (w : Insn) (t : State) : State :=
  let q := closedFor w t
  let m := w.toNat / 2 ^ 24 % 2 ^ 7
  if elementWord w = true then takeOwed w q
  else if windowWord w q = true ∨ (0x50 ≤ m ∧ m ≤ 0x54) then q else { q with h := { q.h with owed := [] } }

/-- What comes of the hart after the word, which came to `v`: a vector-side word that completed has resumed (R122); a grant that moves closes the open convoy
(R310), and a scalar word counts in its window (R41). -/
noncomputable def ranOn (w : Insn) (t v : State) : State :=
  let q := closedFor w t
  let z : State := if v.h.instret = q.h.instret ∨ vectorSide w = false then v else { v with h := { v.h with resumed := false } }
  if t.h.mstage.isOpen = false then z
  else if grantMoved q z = true then closeStage z
  else if windowWord w q = true ∧ v.h.instret ≠ q.h.instret ∧ v.h.mstage.isOpen = true then
    { z with h := { z.h with mstage := { z.h.mstage with window := z.h.mstage.window + 1 } } }
  else z

/-- The instructions of R22: vector, fibre, level-index and matrix words other than `SETVL` and `SETVLX`, and the messages that move a fibre register. -/
def needsGrant (i : Instr) : Prop :=
  let m := (encode i).toNat / 2 ^ 24 % 2 ^ 7
  (0x22 ≤ m ∧ m ≤ 0x55) ∨ (0x68 ≤ m ∧ m ≤ 0x6B) ∨ (∃ d a n, i = .msend d a n) ∨ (∃ d n, i = .mrecv d n) ∨ ∃ d n, i = .mtry d n

end Sys2Proof.Claims

open Sys2Proof Sys2Proof.Machine Sys2Proof.Claims

/-! ## Scalar words -/

/-- R66, R67, R68: each two-source word of major 0x01 writes to x[d] the value of its row; the one-source words count leading zeros, trailing zeros and ones,
and reverse the bytes; each word form of major 0x02 forms a 32-bit result from the low halves and writes it sign-extended. None traps, sets a flag or
changes anything else. -/
def Obligations.IntegerRegisterWords : Prop :=
  (IntOp .add (fun x y => x.toInt + y.toInt) ∧
   IntOp .sub (fun x y => x.toInt - y.toInt) ∧
   IntOp .andR (fun x y => ((x.toNat &&& y.toNat : Nat) : Int)) ∧
   IntOp .orR (fun x y => ((x.toNat ||| y.toNat : Nat) : Int)) ∧
   IntOp .xorR (fun x y => ((x.toNat ^^^ y.toNat : Nat) : Int)) ∧
   IntOp .sll (fun x y => x.toNat * 2 ^ (y.toNat % 64)) ∧
   IntOp .srl (fun x y => x.toNat / 2 ^ (y.toNat % 64)) ∧
   IntOp .sra (fun x y => x.toInt / 2 ^ (y.toNat % 64)) ∧
   IntOp .slt (fun x y => if x.toInt < y.toInt then 1 else 0) ∧
   IntOp .sltu (fun x y => if x.toNat < y.toNat then 1 else 0) ∧
   IntOp .min (fun x y => min x.toInt y.toInt) ∧
   IntOp .max (fun x y => max x.toInt y.toInt) ∧
   IntOp .minu (fun x y => min x.toNat y.toNat) ∧
   IntOp .maxu (fun x y => max x.toNat y.toNat) ∧
   IntOp .andn (fun x y => ((x.toNat &&& (2 ^ 64 - 1 - y.toNat) : Nat) : Int)) ∧
   IntOp .absd (fun x y => (x.toInt - y.toInt).natAbs) ∧
   IntOp .mul (fun x y => x.toInt * y.toInt) ∧
   IntOp .hmul (fun x y => x.toInt * y.toInt / 2 ^ 64) ∧
   IntOp .hmulu (fun x y => x.toNat * y.toNat / 2 ^ 64) ∧
   IntOp .hmulsu (fun x y => x.toInt * y.toNat / 2 ^ 64) ∧
   IntOp .div quotS ∧
   IntOp .divu quotU ∧
   IntOp .rem modS ∧
   IntOp .remu modU) ∧
  (UnaryOp .clz (fun x => BitVec.ofNat 64 (if x.toNat = 0 then 64 else 63 - Nat.log2 x.toNat)) ∧
   (∀ (s : State) (d a : BitVec 6), s.h.lane = none → ∃ n : Nat,
     exec (.ctz d a) s = .next (wrote s d (BitVec.ofNat 64 n)) ∧
       n ≤ 64 ∧ (∀ i, i < n → (reg s a).getLsbD i = false) ∧ (n < 64 → (reg s a).getLsbD n = true)) ∧
   UnaryOp .popc (fun x => BitVec.ofNat 64 (ones x)) ∧
   (∀ (s : State) (d a : BitVec 6), s.h.lane = none → ∃ v,
     exec (.bswap d a) s = .next (wrote s d v) ∧ bytesReversed (reg s a) v)) ∧
  (WordOp .addw (fun x y => x.toInt + y.toInt) ∧
   WordOp .subw (fun x y => x.toInt - y.toInt) ∧
   WordOp .sllw (fun x y => x.toNat * 2 ^ (y.toNat % 32)) ∧
   WordOp .srlw (fun x y => x.toNat / 2 ^ (y.toNat % 32)) ∧
   WordOp .sraw (fun x y => x.toInt / 2 ^ (y.toNat % 32)) ∧
   WordOp .mulw (fun x y => x.toInt * y.toInt) ∧
   WordOp .divw quotS ∧
   WordOp .divuw quotU ∧
   WordOp .remw modS ∧
   WordOp .remuw modU)

/-- R69, R70, R71: each immediate word writes to x[d] the value of its row and changes nothing else. -/
def Obligations.ImmediateWords : Prop :=
  ImmOp .addi (fun x m => x.toInt + m.toInt) ∧
  (∀ (s : State) (d a : BitVec 6) (m : BitVec 12), s.h.lane = none →
    exec (.addiw d a m) s = .next (wrote s d ((BitVec.ofInt 32 ((reg s a).toInt + m.toInt)).signExtend 64))) ∧
  ImmOp .andi (fun x m => ((x.toNat &&& m.toNat : Nat) : Int)) ∧
  ImmOp .ori (fun x m => ((x.toNat ||| m.toNat : Nat) : Int)) ∧
  ImmOp .xori (fun x m => ((x.toNat ^^^ m.toNat : Nat) : Int)) ∧
  ImmOp .slti (fun x m => if x.toInt < m.toInt then 1 else 0) ∧
  ImmOp .sltiu (fun x m => if x.toNat < m.toNat then 1 else 0) ∧
  (∀ (s : State) (d a n : BitVec 6), s.h.lane = none →
    exec (.slli d a n) s = .next (wrote s d (BitVec.ofNat 64 ((reg s a).toNat * 2 ^ n.toNat))) ∧
    exec (.srli d a n) s = .next (wrote s d (BitVec.ofNat 64 ((reg s a).toNat / 2 ^ n.toNat))) ∧
    exec (.srai d a n) s = .next (wrote s d (BitVec.ofInt 64 ((reg s a).toInt / 2 ^ n.toNat)))) ∧
  (∀ (s : State) (d a : BitVec 6) (n : BitVec 5), s.h.lane = none →
    exec (.slliw d a n) s = .next (wrote s d ((BitVec.ofNat 32 ((reg s a).toNat * 2 ^ n.toNat)).signExtend 64)) ∧
    exec (.srliw d a n) s = .next (wrote s d ((BitVec.ofNat 32 ((reg s a).toNat % 2 ^ 32 / 2 ^ n.toNat)).signExtend 64)) ∧
    exec (.sraiw d a n) s =
      .next (wrote s d ((BitVec.ofInt 32 (((reg s a).setWidth 32).toInt / 2 ^ n.toNat)).signExtend 64))) ∧
  (∀ (s : State) (d : BitVec 6) (m : BitVec 18), s.h.lane = none →
    exec (.lui d m) s = .next (wrote s d (BitVec.ofInt 64 (m.toInt * 2 ^ 12))) ∧
    exec (.auipc d m) s = .next (wrote s d (BitVec.ofInt 64 (s.h.pc.toInt + m.toInt * 2 ^ 12))))

/-- R41, R72, R73: a scalar load puts the bytes at its effective address, sign- or zero-extended, in x[d]; a scalar store puts the low bytes of x[b] there
and changes no register; a refused address traps and changes nothing. A load finds the stores that the window holds. That a store which the window has no
room for waits by closing the convoy, in the step that makes it, is the model's choice (log 24). -/
def Obligations.ScalarMemoryWords : Prop :=
  (LoadOp .lb 1 (fun v => (v.setWidth 8).signExtend 64) ∧
   LoadOp .lh 2 (fun v => (v.setWidth 16).signExtend 64) ∧
   LoadOp .lw 4 (fun v => (v.setWidth 32).signExtend 64) ∧
   LoadOp .ld 8 (fun v => v) ∧
   LoadOp .lbu 1 (fun v => v) ∧
   LoadOp .lhu 2 (fun v => v) ∧
   LoadOp .lwu 4 (fun v => v)) ∧
  (StoreOp .sb 1 ∧ StoreOp .sh 2 ∧ StoreOp .sw 4 ∧ StoreOp .sd 8)

/-- R73, R169 to R174, R233: the checks of a scalar access come in their order: a non-canonical address, then misalignment, then the place; the scratchpad
window accepts offsets below 0xC0000 only. Every other address goes through a walk of at most four levels from the root of `PTROOT`, each entry read at its
home, or where a cached translation covers it through that one or the walk (log 9); an invalid entry raises the page fault of the access's kind, a forbidden
one `ACCESS`, and the leaf says the physical address and what lies there. An access or a table in an HBM stack under repair waits, as R442 says. -/
def Obligations.AddressCheckOrder : Prop :=
  (∀ (d : Device) (layer va table n : Nat), n < 4 →
    let r := homeLoad d layer (table + 8 * tableIndex va n) 8
    let e : Word := BitVec.ofNat 64 r.1
    let ends (w : Walk) : Prop := (walkFrom d layer va table (n + 1)).1 = w
    let out := underRepair d (table + 8 * tableIndex va n)
    (out = true → ends .waits) ∧
    (out = false → r.2.1 = true → ends .poisoned) ∧
    (out = false → r.2.1 = false → e.getLsbD 0 = false → ends .invalid) ∧
    (out = false → r.2.1 = false → e.getLsbD 0 = true → isLeaf e →
      (goodLeaf e n → ends (.leaf e (leafBytes n))) ∧ (¬ goodLeaf e n → ends .invalid)) ∧
    (out = false → r.2.1 = false → e.getLsbD 0 = true → ¬ isLeaf e →
      (goodTable e n → walkFrom d layer va table (n + 1) = walkFrom r.2.2 layer va (nextTable e) n) ∧ (¬ goodTable e n → ends .invalid))) ∧
  (∀ (d : Device) (layer va : Nat) (ptroot : Word),
    (pageOf ptroot < 0x9000000000 → walk d layer ptroot va = walkFrom d layer va (pageOf ptroot) 4) ∧
    (0x9000000000 ≤ pageOf ptroot → (walk d layer ptroot va).1 = .invalid)) ∧
  (∀ (s : State) (layer va : Nat) (asid : BitVec 14) (ptroot : Word),
    let w := (walk s.d layer ptroot va).1
    let r := (translate s layer asid ptroot va).1
    let cached (c : TlbEntry) : Prop := c ∈ (walk s.d layer ptroot va).2.tlb ∧ (c.asid = none ∨ c.asid = some asid) ∧ c.va ≤ va ∧ va < c.va + c.size
    ((∀ c, ¬ cached c) → r = w) ∧ (r = w ∨ ∃ c, cached c ∧ r = .leaf c.leaf c.size)) ∧
  ∀ (s : State) (a : Acc) (va : Word) (n : Nat), 0 < n →
    (∀ r t, (va.toNat / 2 ^ 55 = 0 ∨ va.toNat / 2 ^ 55 = 511) → va.toNat % n = 0 → va.toNat < 0xFFFFFFFFFFF00000 →
      translate s (layerOf s.hid) s.h.asid s.h.ptroot (va.toNat % 2 ^ 56) = (r, t) →
      (r = .invalid → place s a va n = .error (.trap (match a with | .fetch => 3 | .load => 4 | .store => 5 | .atomic => 5) va)) ∧
      (r = .poisoned → place s a va n = .error (.trap Cause.access va)) ∧
      (r = .waits → place s a va n = .error (.wait .memory)) ∧
      ∀ e size, r = .leaf e size →
        let pa := pageOf e + va.toNat % 2 ^ 56 % size
        let kind := e.toNat / 2 ^ 8 % 4
        let hbm := pa < 0x9000000000
        let device := hbm ∨ (0xF000000000 ≤ pa ∧ pa ≤ 0xF000FFFFFF) ∨ (0x8000000000000 ≤ pa ∧ pa ≤ 0xFFFFFFFFFFFFF)
        (¬ grants a s.h.prv e → place s a va n = .error (.trap Cause.access va)) ∧
        (grants a s.h.prv e → underRepair t.d pa = true → place s a va n = .error (.wait .memory)) ∧
        (grants a s.h.prv e → underRepair t.d pa = false →
          (kind = 0 → hbm → place s a va n = .ok (.mem pa e, t)) ∧ (kind = 0 → ¬ hbm → place s a va n = .error (.trap Cause.access va)) ∧
          (kind ≠ 0 → device → place s a va n = .ok (.dev pa e, t)) ∧ (kind ≠ 0 → ¬ device → place s a va n = .error (.trap Cause.access va)))) ∧
    ((va.toNat / 2 ^ 55 ≠ 0 ∧ va.toNat / 2 ^ 55 ≠ 511) → place s a va n = .error (.trap Cause.access va)) ∧
    ((va.toNat / 2 ^ 55 = 0 ∨ va.toNat / 2 ^ 55 = 511) → va.toNat % n ≠ 0 → place s a va n = .error (.trap Cause.misaligned va)) ∧
    (0xFFFFFFFFFFF00000 ≤ va.toNat → va.toNat % n = 0 → a ≠ .fetch → va.toNat % 2 ^ 20 < 0xC0000 →
      place s a va n = .ok (.spad (va.toNat % 2 ^ 20), s)) ∧
    (0xFFFFFFFFFFF00000 ≤ va.toNat → va.toNat % n = 0 → (a = .fetch ∨ 0xC0000 ≤ va.toNat % 2 ^ 20) →
      place s a va n = .error (.trap Cause.access va))

/-- R6, R73, R234: a store to scratchpad that no swatch holds up puts the bytes of x[b] at its offset in little-endian order, leaves every other byte
of scratchpad as it was, and a later load there returns them. Outside the scratchpad nothing changes but the hart's pc and count of words, and each hart of
the core that waits in `BWAIT` for an object whose phase is no longer its own notes that (R297). The window holds no store (R41). -/
def Obligations.ScratchpadStoreThenLoad : Prop :=
  (∀ (c : Core) (h : Hart), noteBarrier c h = h ∨
    ∃ off p, h.wait = some (.barrier off p false) ∧ phaseAt c off ≠ p ∧ noteBarrier c h = { h with wait := some (.barrier off p true) }) ∧
  StoredBack .sb .lbu 1 ∧ StoredBack .sh .lhu 2 ∧ StoredBack .sw .lwu 4 ∧ StoredBack .sd .ld 8

/-- R332, R333: a load after a store of the same bytes of ordinary memory by the same hart, through an L1 way that can take the line, returns them. -/
def Obligations.LineStoreThenLoad : Prop :=
  ∀ (d : Device) (core pa n v : Nat) (ptr : Bool), pa % 128 + n ≤ 128 → 0 < n →
    (obtain d (domainCore d core pa) pa ptr).1.isSome = true →
    (l1Load (l1Store d core pa n v ptr) core pa n ptr).1 = v % 2 ^ (8 * n)

/-- R76, R77, R78, R80: the rounded words write the correctly rounded exact result, zero-extended, and OR their flags into FCSR. An exact sum of zero is
+0, under RDN -0, and of two -0 it is -0 in every mode. -/
def Obligations.FloatRoundedWords : Prop :=
  FloatOp .fadd (fun m x y => Val.add m x y) ∧
  FloatOp .fsub (fun m x y => Val.add m x y.negate) ∧
  FloatOp .fmul (fun _ x y => Val.mul x y) ∧
  FloatOp .fdiv (fun _ x y => Val.div x y) ∧
  (∀ (s : State) (d a : BitVec 6) (p : BitVec 2), s.h.lane = none → isFormat p →
    let r := Val.sqrt (fracBits p) (floatVal p (reg s a))
    let c := binConvert (binOf (floatFmt p)) s.h.rm false r.1
    exec (.fsqrt d a p) s = .next (wroteFlags s (r.2 ||| c.2) d (BitVec.ofNat 64 c.1))) ∧
  FusedOp .fmadd false false ∧
  FusedOp .fmsub false true ∧
  FusedOp .fnmadd true true ∧
  FusedOp .fnmsub true false ∧
  (∀ (m : Mode) (n p q : Nat) (g : Bool), (Val.add m (.fin true 0 p) (.fin true 0 q)).1.neg = true ∧
    (Val.add m (.fin false 0 p) (.fin false 0 q)).1.neg = (m == 2) ∧ Val.add m (.fin g n p) (.fin (!g) n p) = (.fin (m == 2) 0 1, 0))

/-- R77, R78, R79: comparisons, minimum and maximum, classes and sign injection, with their flags; the conversions between floats and integers and between
two floats. `FCVTIF` rounds the exact value by the word's mode to an integer, and one beyond the range of the type, as an infinity, becomes the end of the
range on its side with NV; a NaN becomes 0 with NV; NX is set where the rounding is inexact. -/
def Obligations.FloatCompareAndConvertWords : Prop :=
  (∀ (s : State) (d a b : BitVec 6) (p : BitVec 2), s.h.lane = none → isFormat p →
     let x := reg s a
     let y := reg s b
     let u := floatVal p x
     let v := floatVal p y
     let nv (c : Prop) [Decidable c] : Flags := if c then Flag.nv else 0
     exec (.feq d a b p) s = .next (wroteFlags s (nv (u.sig ∨ v.sig)) d (boolWord (u.eq v))) ∧
     exec (.flt d a b p) s = .next (wroteFlags s (nv (u.isNan ∨ v.isNan)) d (boolWord (u.lt v))) ∧
     exec (.fle d a b p) s = .next (wroteFlags s (nv (u.isNan ∨ v.isNan)) d (boolWord (!u.isNan && !v.isNan && !v.lt u))) ∧
     (u.isNan = true → v.isNan = true →
       exec (.fmin d a b p) s = .next (wroteFlags s (nv (u.sig ∨ v.sig)) d (BitVec.ofNat 64 (quietNan p))) ∧
       exec (.fmax d a b p) s = .next (wroteFlags s (nv (u.sig ∨ v.sig)) d (BitVec.ofNat 64 (quietNan p)))) ∧
     (u.isNan = true → v.isNan = false →
       exec (.fmin d a b p) s = .next (wroteFlags s (nv u.sig) d (BitVec.ofNat 64 (code p y))) ∧
       exec (.fmax d a b p) s = .next (wroteFlags s (nv u.sig) d (BitVec.ofNat 64 (code p y)))) ∧
     (u.isNan = false → v.isNan = true →
       exec (.fmin d a b p) s = .next (wroteFlags s (nv v.sig) d (BitVec.ofNat 64 (code p x))) ∧
       exec (.fmax d a b p) s = .next (wroteFlags s (nv v.sig) d (BitVec.ofNat 64 (code p x)))) ∧
     (u.isNan = false → v.isNan = false →
       exec (.fmin d a b p) s =
         .next (wrote s d (BitVec.ofNat 64 (if u.lt v ∨ (u.eq v ∧ u.neg ∧ ¬ v.neg) then code p x else code p y))) ∧
       exec (.fmax d a b p) s =
         .next (wrote s d (BitVec.ofNat 64 (if u.lt v ∨ (u.eq v ∧ u.neg ∧ ¬ v.neg) then code p y else code p x)))) ∧
     (∃ k : Nat, exec (.fclass d a p) s = .next (wrote s d (BitVec.ofNat 64 k)) ∧ k < 32 ∧
       (k.testBit 3 = signBit p x) ∧
       (k.testBit 4 = true ↔ ∃ n m, u = .fin (signBit p x) n m ∧ n % m = 0) ∧
       (k % 8 = 5 ↔ isSignalling p x) ∧ (k % 8 = 4 ↔ isNan p x ∧ ¬ isSignalling p x) ∧ (k % 8 = 3 ↔ magnitude p x = infinity p) ∧
       (k % 8 = 0 ↔ magnitude p x = 0) ∧ (k % 8 = 1 ↔ 0 < magnitude p x ∧ magnitude p x < 2 ^ fracBits p) ∧
       (k % 8 = 2 ↔ 2 ^ fracBits p ≤ magnitude p x ∧ magnitude p x < infinity p)) ∧
     (let signed (g : Bool) : Word := BitVec.ofNat 64 (magnitude p x + (if g then 2 ^ (expBits p + fracBits p) else 0))
      exec (.fsgnj d a b p) s = .next (wrote s d (signed (signBit p y))) ∧
      exec (.fsgnjn d a b p) s = .next (wrote s d (signed (!signBit p y))) ∧
      exec (.fsgnjx d a b p) s = .next (wrote s d (signed (signBit p x != signBit p y))))) ∧
  (∀ (s : State) (d a : BitVec 6) (r : BitVec 3) (t p q : BitVec 2), s.h.lane = none → isFormat p → isFormat q → r ≠ 5 → r ≠ 6 →
     let w := if t = 0 ∨ t = 1 then 32 else 64
     let least : Int := if t = 0 ∨ t = 2 then -(2 ^ (w - 1)) else 0
     let most : Int := if t = 0 ∨ t = 2 then 2 ^ (w - 1) - 1 else 2 ^ w - 1
     (∃ (n : Int) (f : Flags),
       exec (.fcvtif d a r t p) s = .next (wroteFlags s f d (BitVec.ofInt 64 n)) ∧ least ≤ n ∧ n ≤ most ∧
       ((floatVal p (reg s a)).isNan = true → n = 0 ∧ f = Flag.nv) ∧
       (∀ neg, floatVal p (reg s a) = .inf neg → n = (if neg then least else most) ∧ f = Flag.nv) ∧
       (∀ neg k m, floatVal p (reg s a) = .fin neg k m → staticMode s r ≤ 4 → ∃ q : Nat, roundsTo (staticMode s r) neg k m q ∧
         let z : Int := if neg then -(q : Int) else q
         (most < z → n = most ∧ f = Flag.nv) ∧ (z < least → n = least ∧ f = Flag.nv) ∧
         (least ≤ z → z ≤ most → n = z ∧ f = if q * m = k then 0 else Flag.nx))) ∧
     (let i : Int := if t = 0 then ((reg s a).setWidth 32).toInt else if t = 1 then ((reg s a).setWidth 32).toNat
                     else if t = 2 then (reg s a).toInt else (reg s a).toNat
      let c := binConvert (binOf (floatFmt p)) (staticMode s r) false (.fin (decide (i < 0)) i.natAbs 1)
      exec (.fcvtfi d a r t p) s = .next (wroteFlags s c.2 d (BitVec.ofNat 64 c.1))) ∧
     (q ≠ p →
       let c := binConvert (binOf (floatFmt p)) (staticMode s r) false (floatVal q (reg s a))
       exec (.fcvtff d a r q p) s = .next (wroteFlags s c.2 d (BitVec.ofNat 64 c.1))) ∧
     (∃ w, exec (.fcvtff d a r p p) s = .next (enterTrap s Cause.illegal w)))

/-- R76, R186, R194 to R198: rounding ± n / d to a binary format, e4m3 or e2m1 gives the code that the mode picks of the two neighbours, at the format's
precision and range with subnormals, and the exact value's own code where it has one; NX is set exactly when the two differ. Where the pick lies above the
largest finite value, the result overflows: the infinity or the largest finite value of the sign, with OF and NX. UF is set exactly when the result is
inexact and tiny after rounding: rounded to the format's precision with no least exponent it lies below the least normal value (that reading is log 33's).
No other flag is set. A code's value is that of R186; infinities and NaNs convert by R197, and `.sat` puts the largest finite value in an infinity's place. -/
def Obligations.RoundingIsFaithful : Prop :=
  ∀ f : Fmt, fmtBin f = true →
  let b := binOf f
  (∀ (mode : Mode) (neg : Bool) (n d : Nat), 0 < d → mode ≤ 4 →
    let r := binRound b mode neg n d
    ∃ q : Nat, roundsToCode b mode neg n d q ∧
      (q < topCode b → r.1 = signOf b neg + q ∧ r.2 &&& Flag.of' = 0 ∧ (r.2 &&& Flag.nx = 0 ↔ unitsOf b q * d = scaledUnits b n)) ∧
      (topCode b ≤ q → r.1 = signOf b neg + overflowsTo b mode neg ∧ r.2 = Flag.of' ||| Flag.nx) ∧
      (r.2 &&& Flag.uf = Flag.uf ↔ r.2 &&& Flag.nx = Flag.nx ∧ ∀ j, roundsTo mode neg (2 * scaledUnits b n) d j → j < 2 ^ (b.p + 1)) ∧
      r.2 &&& ~~~(Flag.nx ||| Flag.uf ||| Flag.of') = 0) ∧
  (∀ (neg : Bool) (c : Nat), c < 2 ^ (b.e + b.p) →
    let v := binVal b (signOf b neg + c)
    (c < topCode b → ∃ k m, 0 < m ∧ v = .fin neg k m ∧ scaledUnits b k = unitsOf b c * m) ∧
    (c = topCode b → v = .inf neg) ∧
    (topCode b < c → v = .nan (decide (f ≠ Fmts.e4m3 ∧ c < topCode b + 2 ^ (b.p - 1))))) ∧
  (∀ (mode : Mode) (sat : Bool) (v : Val),
    let r := binConvert b mode sat v
    (∀ sig, v = .nan sig → f ≠ Fmts.e2m1 → r = (topCode b + 2 ^ (b.p - 1), if sig then Flag.nv else 0)) ∧
    (∀ sig, v = .nan sig → f = Fmts.e2m1 → r = (0, Flag.nv)) ∧
    (∀ neg, v = .inf neg →
      (f ≠ Fmts.e2m1 → r = (signOf b neg + if sat then topCode b - 1 else topCode b, 0)) ∧
      (f = Fmts.e2m1 → r = (signOf b neg + (topCode b - 1), if sat then 0 else Flag.of' ||| Flag.nx))) ∧
    (∀ neg n d, v = .fin neg n d →
      let z := binRound b mode neg n d
      r = (if sat = true ∧ z.1 = signOf b neg + topCode b ∧ f ≠ Fmts.e2m1 then signOf b neg + (topCode b - 1) else z.1, z.2)))

/-- R81, R82, R85: branches and jumps; a jump whose target is misaligned traps and writes no register. `BRV` tests bits 0 to VL - 1 of k[m], at every grant,
and changes nothing but the pc. -/
def Obligations.BranchesAndJumps : Prop :=
  (BranchOp .beq (fun x y => x = y) ∧
   BranchOp .bne (fun x y => x ≠ y) ∧
   BranchOp .blt (fun x y => x.toInt < y.toInt) ∧
   BranchOp .bge (fun x y => y.toInt ≤ x.toInt) ∧
   BranchOp .bltu (fun x y => x.toNat < y.toNat) ∧
   BranchOp .bgeu (fun x y => y.toNat ≤ x.toNat) ∧
   (∀ (s : State) (d : BitVec 6) (o : BitVec 18), s.h.lane = none →
     exec (.jal d o) s = .next (jumped { s with h := { s.h with x := regs s d (s.h.pc + 4) } } (wordsAhead s o.toInt))) ∧
   (∀ (s : State) (d a : BitVec 6) (m : BitVec 12), s.h.lane = none →
     let target := reg s a + m.signExtend 64
     (target.toNat % 4 = 0 →
       exec (.jalr d a m) s = .next (jumped { s with h := { s.h with x := regs s d (s.h.pc + 4) } } target)) ∧
     (target.toNat % 4 ≠ 0 → Traps (.jalr d a m) s Cause.misaligned target))) ∧
  (MaskBranchOp .brvAny (fun _ n => 0 < n) ∧
   MaskBranchOp .brvNone (fun _ n => n = 0) ∧
   MaskBranchOp .brvAll (fun s n => n = s.h.vl.toNat))

/-- R7, R23, R29, R32, R33, R34, R36, R87, R88, R149, R150, R328: the CSR words. A number that R29 does not list, and one of 0x100 and up in user mode, raises
`ILLEGAL_INSN` with the word; at any other number x[d] takes the old value, each field at its bits and every reserved bit 0, and all words but `CSRRD` write
the register, field by field as the register's rule says. A write of `VSTART` also forgets what a stopped convoy has still to do (log 1), and one of
`FOCC` looks at bits [11:0] alone (log 20). -/
def Obligations.CsrWords : Prop :=
  (∀ (s : State), ReadsCsr s) ∧
  ((∀ (s : State) (d a : BitVec 6) (n : BitVec 10), s.h.lane = none →
     (csrRead s n = none ∨ (s.h.prv = false ∧ 0x100 ≤ n.toNat)) →
     ∀ i ∈ [Instr.csrrd d n, .csrwr d a n, .csrbs d a n, .csrbc d a n], Traps i s Cause.illegal ((encode i).setWidth 64)) ∧
   (∀ (s : State) (d : BitVec 6) (n : BitVec 10) (old : Word), s.h.lane = none → csrRead s n = some old →
     (s.h.prv = true ∨ n.toNat < 0x100) → exec (.csrrd d n) s = .next (wrote s d old)) ∧
   CsrWrites .csrwr (fun _ v => v) ∧
   CsrWrites .csrbs (fun old v => old ||| v) ∧
   CsrWrites .csrbc (fun old v => old &&& ~~~v)) ∧
  (∀ (s : State) (v : Word),
     (∀ n ∈ alwaysReadOnly, csrWrite s n v = .ok s) ∧
     (s.h.prv = false → ∀ n ∈ userReadOnly, csrWrite s n v = .ok s) ∧
     csrWrite s 0x002 v = .ok { s with h := { s.h with vstart := v.setWidth 11, resumed := false, owed := [] } } ∧
     csrWrite s 0x003 v = .ok { s with h := { s.h with vpr := v } } ∧
     (s.h.prv = true → ∃ t, csrWrite s 0x004 v = .ok t ∧ t = { s with h := { s.h with vdirty := t.h.vdirty } } ∧
       ∀ i, i < 40 → t.h.vdirty.getLsbD i = (s.h.vdirty.getLsbD i && !v.getLsbD i)) ∧
     (∃ t, csrWrite s 0x005 v = .ok t ∧ t = { s with h := { s.h with fcsr := t.h.fcsr } } ∧
       t.h.fcsr.toNat / 8 = v.toNat / 8 % 2 ^ 11 ∧
       t.h.fcsr.toNat % 8 = if v.toNat % 8 ≤ 4 then v.toNat % 8 else s.h.fcsr.toNat % 8) ∧
     (∃ t, csrWrite s 0x006 v = .ok t ∧ t = { s with h := { s.h with mshape := t.h.mshape } } ∧
       ∀ i, i < 44 → t.h.mshape.getLsbD i = (v.getLsbD i && i != 7 && i != 15)) ∧
     csrWrite s 0x007 v = .ok { s with h := { s.h with smm := 0 } } ∧
     (∀ i : Fin 16, v.toNat % 2 ^ 12 ≤ vlmax 32 s.h.g →
       csrWrite s (0x010 + BitVec.ofNat 10 i) v = .ok { s with h := { s.h with focc := s.h.focc.set i (v.setWidth 12) } }) ∧
     (∀ i : Fin 16, vlmax 32 s.h.g < v.toNat % 2 ^ 12 →
       csrWrite s (0x010 + BitVec.ofNat 10 i) v =
         .ok { s with h := { s.h with focc := s.h.focc.set i (BitVec.ofNat 12 (vlmax 32 s.h.g)), fcsr := s.h.fcsr ||| Flag.fovf } }) ∧
     csrWrite s 0x100 v = .ok { s with h := { s.h with ie := v.getLsbD 0, pie := v.getLsbD 1, pprv := v.getLsbD 2, ten := v.getLsbD 8,
                                                       een := v.getLsbD 9, pen := v.getLsbD 10 } } ∧
     (∃ t, csrWrite s 0x101 v = .ok t ∧ t = { s with h := { s.h with epc := t.h.epc } } ∧ t.h.epc.toNat = v.toNat / 4 * 4) ∧
     csrWrite s 0x102 v = .ok { s with h := { s.h with cause := v.setWidth 6 } } ∧
     csrWrite s 0x103 v = .ok { s with h := { s.h with tval := v } } ∧
     (∃ t, csrWrite s 0x104 v = .ok t ∧ t = { s with h := { s.h with tbase := t.h.tbase } } ∧ t.h.tbase.toNat = v.toNat / 64 * 64) ∧
     csrWrite s 0x105 v = .ok { s with h := { s.h with asid := v.setWidth 14 } } ∧
     (∃ t, csrWrite s 0x106 v = .ok t ∧ t = { s with h := { s.h with ptroot := t.h.ptroot } } ∧
       t.h.ptroot.toNat = v.toNat / 2 ^ 16 % 2 ^ 36 * 2 ^ 16))

/-- R15, R16: a supervisor write of `LPART`, by any of the three words that write, takes effect at once, values above 16 storing 16, unless it moves a granted
lane group; then the writing hart waits, and the groups that it moves are withheld from the bobbin that loses them, beside those that other stalled writes
withhold. -/
def Obligations.LpartWrites : Prop :=
  WritesLpart .csrwr (fun _ v => v) ∧ WritesLpart .csrbs (fun old v => old ||| v) ∧ WritesLpart .csrbc (fun old v => old &&& ~~~v)

/-- R32, R33, R34, R36, R88, R426, R429, R438, R441: a register write as an event at a hart has the effect of a CSR word's write part and completes no word; a
host write of a window word that the stage serves is the write of R426. That stage 0 also serves the attestation block (offsets 0x20000 to 0x2FFFF) and the
job-start registers (0x100000 to 0x10FFFF), which refuse then as R441 and R429 say and which R438's table does not list, is the model's choice (log 13), as
is that a write of `FOCC` looks at bits [11:0] alone (log 20). -/
def Obligations.RegisterWriteEvents : Prop :=
  EventAt (fun h => .smmWrite h) (fun s => { s with h := { s.h with smm := 0 } }) ∧
  (∀ v, EventAt (fun h => .fcsrWrite h v) (fun s => { s with h := writeFcsr s.h v })) ∧
  (∀ v, EventAtWhen (fun h => .vdirtyWrite h v) (fun s => s.h.prv = true)
    (fun s => { s with h := { s.h with vdirty := s.h.vdirty &&& ~~~(v.setWidth 40) } })) ∧
  (∀ v, EventAtWhen (fun h => .vdirtyWrite h v) (fun s => s.h.prv = false) (fun s => s)) ∧
  (∀ (i : Fin 16) v, EventAtWhen (fun h => .foccWrite h (BitVec.ofNat 4 i) v) (fun s => v.toNat % 2 ^ 12 ≤ vlmax 32 s.h.g)
    (fun s => { s with h := { s.h with focc := s.h.focc.set i (v.setWidth 12) } })) ∧
  (∀ v, EventAtWhen (fun h => .lpartWrite h v) (fun s => s.h.prv = true ∧ lpartBlocked s (min 16 (v.toNat % 32)) = false)
    (fun s => { s with c := { s.c with na := BitVec.ofNat 5 (min 16 (v.toNat % 32)), lpstall := s.c.lpstall.filter fun e => e.1 != s.hid } })) ∧
  (∀ v, EventAtWhen (fun h => .lpartWrite h v) (fun s => s.h.prv = true ∧ lpartBlocked s (min 16 (v.toNat % 32)) = true)
    (fun s => { s with c := { s.c with
      lpstall := (s.c.lpstall.filter fun e => e.1 != s.hid) ++ [(s.hid, BitVec.ofNat 5 (min 16 (v.toNat % 32)))] } })) ∧
  (∀ v, EventAtWhen (fun h => .lpartWrite h v) (fun s => s.h.prv = false) (fun s => s)) ∧
  (∀ (n : BitVec 10) v, EventAtWhen (fun h => .registerWrite 0 h (n.setWidth 64) v) (fun s => ∃ t, csrWrite s n v = .ok t)
    (fun s => match csrWrite s n v with | .ok t => t | .error _ => s)) ∧
  (∀ (s : State) (h : BitVec 11) (o v : Word), o.toNat < 2 ^ 24 → o.toNat % 8 = 0 →
    let inService : Prop := s.d.stage ≠ 0 ∨ o.toNat < 0x30000 ∨ o.toNat / 2 ^ 16 = 0x10
    (inService → exec (.registerWrite 1 h (0xF000000000 + o) v) s = .next (writeWindow s o.toNat v)) ∧
    (¬ inService → exec (.registerWrite 1 h (0xF000000000 + o) v) s = .next s))

/-- R41, R152, R310: trap entry saves privilege, IE, the word's address, cause and value, enters supervisor mode with interrupts off, and goes to `TBASE`;
every register file, `VPR`, `FOCC`, `VDIRTY`, `FCSR`, the basting journal, memory and the grant keep their values, and `VSTART` too, but that the element
at which the next word of a stopped convoy starts (R122; log 1) becomes it where it is 0. A wait, a place in the queue for lane groups, a stalled `LPART` write and a chosen stop point
are gone (R43). An open convoy of `MMETA` words before the word has closed and completed: its words are counted and the window's stores are performed, oldest
first, each as a store that has its place (R41; log 24). -/
def Obligations.TrapEntry : Prop :=
  (∀ (s : State), s.h.mstage.isOpen = false → closeStage s = s) ∧
  (∀ (s : State), s.h.mstage.isOpen = true →
    let p := performStores s
    let n := BitVec.ofNat 64 s.h.mstage.count
    closeStage s = { p with
      c := (if onB p.hid then { p.c with mqB := p.c.mqB + n } else { p.c with mqA := p.c.mqA + n }),
      h := { p.h with instret := p.h.instret + n, mstage := { MStage.empty with chain := p.h.mstage.chain } },
      undo := sdel p.undo p.hid.toNat }) ∧
  (∀ (s : State), s.h.mstage.stores = [] → performStores s = s) ∧
  (∀ (s : State) (p : PendingStore) (l : List PendingStore), s.h.mstage.stores = l ++ [p] →
    let window (q : List PendingStore) : State := { s with h := { s.h with mstage := { s.h.mstage with stores := q } } }
    performStores s = perform (performStores (window l)) p) ∧
  (∀ (s : State) (p : PendingStore), s.h.mstage.stores = [] → (∀ pa leaf, p.place ≠ .dev pa leaf) →
    (∀ off, p.place = .spad off → swBusy s.c off p.n = false) → ∃ u, writePlace s p.place p.n p.v 0 = .ok u ∧ perform s p = freshMarks u) ∧
  (∀ (s : State) (c : BitVec 6) (v : Word), enterTrap s c v = enterTrapHere (closeStage s) c v) ∧
  ∀ (s : State) (c : BitVec 6) (v : Word),
    let t := enterTrapHere s c v
    t = { s with h := t.h, c := { s.c with fifoA := t.c.fifoA, fifoB := t.c.fifoB, lpstall := t.c.lpstall } } ∧
    (∀ q, q ∈ t.c.fifoA ↔ q ∈ s.c.fifoA ∧ q ≠ s.hid) ∧ (∀ q, q ∈ t.c.fifoB ↔ q ∈ s.c.fifoB ∧ q ≠ s.hid) ∧
    (∀ e, e ∈ t.c.lpstall ↔ e ∈ s.c.lpstall ∧ e.1 ≠ s.hid) ∧
    (s.h.vstart ≠ 0 → t.h.vstart = s.h.vstart) ∧ (s.h.vstart = 0 → t.h.vstart = ((s.h.owed.head?).map (·.2)).getD 0) ∧ t.h.owed = [] ∧
    t.h.resumed = false ∧
    t.h.wait = none ∧ t.h.stop = none ∧ t.h.upTo = none ∧ t.h.csaved = false ∧
    t.h.pprv = s.h.prv ∧ t.h.pie = s.h.ie ∧ t.h.ie = false ∧ t.h.prv = true ∧ t.h.epc.toNat = s.h.pc.toNat / 4 * 4 ∧
    t.h.cause = c ∧ t.h.tval = v ∧ t.h.pc = s.h.tbase ∧
    t.h.x = s.h.x ∧ t.h.v = s.h.v ∧ t.h.k = s.h.k ∧ t.h.mx = s.h.mx ∧ t.h.smm = s.h.smm ∧ t.h.focc = s.h.focc ∧
    t.h.vpr = s.h.vpr ∧ t.h.vdirty = s.h.vdirty ∧ t.h.fcsr = s.h.fcsr ∧ t.h.mshape = s.h.mshape ∧
    t.h.vl = s.h.vl ∧ t.h.vtype = s.h.vtype ∧ t.h.gmap = s.h.gmap ∧ t.h.asid = s.h.asid ∧ t.h.ptroot = s.h.ptroot ∧
    t.h.tbase = s.h.tbase ∧ t.h.jaddr = s.h.jaddr ∧ t.h.jbits = s.h.jbits ∧ t.h.instret = s.h.instret ∧
    t.h.ten = s.h.ten ∧ t.h.een = s.h.een ∧ t.h.pen = s.h.pen ∧ t.h.tpend = s.h.tpend ∧ t.h.ppend = s.h.ppend ∧ t.h.ext = s.h.ext ∧
    t.h.mstage = s.h.mstage ∧ t.h.lane = s.h.lane ∧ t.h.region = s.h.region ∧ t.h.live = s.h.live

/-- R43, R52, R86, R91, R92, R93, R94, R153, R155: the system words. `SVC`, `TRAP` and `BREAK` trap at themselves with their code; `RETT` returns in supervisor
mode and is illegal in user mode; `WFI` and `PAUSE` complete with an interrupt pending and otherwise wait: when a hart that waits is woken is the model's
choice (log 28), as is what a `RETT` to a word with VSTART above 0 resumes (log 1). `HALT` releases at package scope and retires the unit: the slot, its
grant, its locks and its mailbox are free, its place in the FIFO of R21 is gone, its launch counts one unit less and with its last unit is complete, and every
register of the slot keeps its value (R94 clears none; log 8). A `BRV` that resolves does what the word does, with
every older word complete (log 1); a `WFI` may complete before an interrupt, and a `PAUSE` when its turns have passed (log 4, log 28). A refused word and a
failed fetch are taken at the word, with the word or the fetch address in `TVAL`. -/
def Obligations.SystemWords : Prop :=
  (∀ (s : State), s.h.lane = none →
     (∀ code : BitVec 12, Traps (.svc code) s Cause.svc (code.setWidth 64) ∧ Traps (.breakC code) s Cause.breakpoint (code.setWidth 64)) ∧
     (∀ a, reg s a = 0 → exec (.trap a) s = .next (passed s)) ∧
     (∀ a, reg s a ≠ 0 → Traps (.trap a) s Cause.svc (reg s a)) ∧
     (s.h.prv = true → exec .rett s = .next { s with h := { s.h with prv := s.h.pprv, ie := s.h.pie, pie := false, pc := s.h.epc,
                                                                     instret := s.h.instret + 1, wait := none, csaved := false,
                                                                     resumed := decide (s.h.vstart ≠ 0), early := refetched s s.h.epc } }) ∧
     (s.h.prv = false → Traps .rett s Cause.illegal ((encode .rett).setWidth 64)) ∧
     (interruptPending s → exec .wfi s = .next { passed s with h := { (passed s).h with woken := false } }) ∧
     (¬ interruptPending s → s.h.woken = false → exec .wfi s = .next { s with h := { s.h with wait := some .wfi } }) ∧
     (interruptPending s ∨ s.h.wait = some .pause → exec .pause s = .next (passed s)) ∧
     (¬ interruptPending s → s.h.wait ≠ some .pause → exec .pause s = .next { s with h := { s.h with wait := some .pause } })) ∧
  (∀ (s : State), s.h.lane = none → ∃ t, exec .halt s = .next t ∧
     t.h = { s.h with live := false, gmap := 0, ppend := false, lockq := 0, gs := 0, mbox := [], vconvoy := [], mstage := MStage.empty, early := [],
                      wait := none, stop := none, upTo := none, halted := false, cancelled := false, region := none, remote := 0, csaved := false,
                      woken := false, resumed := false, owed := [] } ∧
     (∀ e ∈ t.c.fifoA ++ t.c.fifoB, e ≠ s.hid) ∧
     (let r := (released s 6).d
      t.d.mem = r.mem ∧ t.d.held = r.held ∧ t.d.poison = r.poison ∧ t.d.lclock = r.lclock ∧ t.d.hclock = r.hclock) ∧
     (∀ e ∈ t.d.l1, ∀ l ∈ e.2, s.hid.toNat ∉ l.locks) ∧
     ∀ n, nodeAt s.d s.h.node = some n → n.live = true →
       (1 < n.counter → ∃ m, nodeAt t.d s.h.node = some m ∧ m = { n with counter := n.counter - 1, gateLast := m.gateLast }) ∧
       (n.counter = 1 → ∃ m, nodeAt t.d s.h.node = some m ∧ m.counter = 0 ∧ (m.state = .complete ∨ m.state = .freed))) ∧
  ((∀ (s t : State) (m : BitVec 3) (o : BitVec 12), s.h.live = true → s.h.halted = false → s.h.region = none →
     ∀ w ∈ [Instr.brvAny m o, .brvNone m o, .brvAll m o], fetch s s.h.pc = .ok (encode w, t) →
       ∃ v, exec w t = .next v ∧ exec (.brvResolve s.hid) s = .next v) ∧
   EventAtWhen .wfiEarlyCompletion (fun s => s.h.wait = some .wfi) passed ∧
   EventAtWhen .wfiEarlyCompletion (fun s => s.h.wait ≠ some .wfi) (fun s => s) ∧
   EventAtWhen .pauseExpiry (fun s => s.h.wait = some .pause) passed ∧
   EventAtWhen .pauseExpiry (fun s => s.h.wait ≠ some .pause) (fun s => s)) ∧
  (∀ (s : State), s.h.lane = none →
     (∀ w, Traps (.illegalInsn w) s Cause.illegal (w.setWidth 64)) ∧
     (∀ c a, Traps (.fetchFault c a) s c a))

/-! ## Vector words -/

/-- R102: the integer words on two vector registers. -/
def Obligations.VectorIntegerWords : Prop :=
  IntVV .vaddVv (fun _ x y => x.toInt + y.toInt) ∧
  IntVV .vsubVv (fun _ x y => x.toInt - y.toInt) ∧
  IntVV .vandVv (fun _ x y => ((x.toNat &&& y.toNat : Nat) : Int)) ∧
  IntVV .vorVv (fun _ x y => ((x.toNat ||| y.toNat : Nat) : Int)) ∧
  IntVV .vxorVv (fun _ x y => ((x.toNat ^^^ y.toNat : Nat) : Int)) ∧
  IntVV .vsllVv (fun w x y => x.toNat * 2 ^ (y.toNat % w)) ∧
  IntVV .vsrlVv (fun w x y => x.toNat / 2 ^ (y.toNat % w)) ∧
  IntVV .vsraVv (fun w x y => x.toInt / 2 ^ (y.toNat % w)) ∧
  IntVV .vminVv (fun _ x y => min x.toInt y.toInt) ∧
  IntVV .vmaxVv (fun _ x y => max x.toInt y.toInt) ∧
  IntVV .vminuVv (fun _ x y => min x.toNat y.toNat) ∧
  IntVV .vmaxuVv (fun _ x y => max x.toNat y.toNat) ∧
  IntVV .vmulVv (fun _ x y => x.toInt * y.toInt) ∧
  IntVV .vhmulVv (fun w x y => x.toInt * y.toInt / 2 ^ w) ∧
  IntVV .vhmuluVv (fun w x y => x.toNat * y.toNat / 2 ^ w) ∧
  IntVV .vhmulsuVv (fun w x y => x.toInt * y.toNat / 2 ^ w) ∧
  IntVV .vdivVv (fun _ x y => quotS x y) ∧
  IntVV .vdivuVv (fun _ x y => quotU x y) ∧
  IntVV .vremVv (fun _ x y => modS x y) ∧
  IntVV .vremuVv (fun _ x y => modU x y) ∧
  IntV1 .vclzVv leadW ∧ IntV1 .vctzVv trailW ∧ IntV1 .vpopcVv onesW

/-- R101, R102: the integer words with a scalar or an immediate second operand. -/
def Obligations.VectorScalarIntegerWords : Prop :=
  IntVX .vaddVx (fun _ x y => x.toInt + y.toInt) ∧
  IntVX .vsubVx (fun _ x y => x.toInt - y.toInt) ∧
  IntVX .vandVx (fun _ x y => ((x.toNat &&& y.toNat : Nat) : Int)) ∧
  IntVX .vorVx (fun _ x y => ((x.toNat ||| y.toNat : Nat) : Int)) ∧
  IntVX .vxorVx (fun _ x y => ((x.toNat ^^^ y.toNat : Nat) : Int)) ∧
  IntVX .vsllVx (fun w x y => x.toNat * 2 ^ (y.toNat % w)) ∧
  IntVX .vsrlVx (fun w x y => x.toNat / 2 ^ (y.toNat % w)) ∧
  IntVX .vsraVx (fun w x y => x.toInt / 2 ^ (y.toNat % w)) ∧
  IntVX .vminVx (fun _ x y => min x.toInt y.toInt) ∧
  IntVX .vmaxVx (fun _ x y => max x.toInt y.toInt) ∧
  IntVX .vminuVx (fun _ x y => min x.toNat y.toNat) ∧
  IntVX .vmaxuVx (fun _ x y => max x.toNat y.toNat) ∧
  IntVX .vmulVx (fun _ x y => x.toInt * y.toInt) ∧
  IntVX .vhmulVx (fun w x y => x.toInt * y.toInt / 2 ^ w) ∧
  IntVX .vhmuluVx (fun w x y => x.toNat * y.toNat / 2 ^ w) ∧
  IntVX .vhmulsuVx (fun w x y => x.toInt * y.toNat / 2 ^ w) ∧
  IntVX .vdivVx (fun _ x y => quotS x y) ∧
  IntVX .vdivuVx (fun _ x y => quotU x y) ∧
  IntVX .vremVx (fun _ x y => modS x y) ∧
  IntVX .vremuVx (fun _ x y => modU x y) ∧
  IntVX .vrsubVx (fun _ x y => y.toInt - x.toInt) ∧
  IntV1 .vclzVx leadW ∧ IntV1 .vctzVx trailW ∧ IntV1 .vpopcVx onesW ∧
  IntVI .vaddVi (fun _ x y => x.toInt + y.toInt) ∧
  IntVI .vandVi (fun _ x y => ((x.toNat &&& y.toNat : Nat) : Int)) ∧
  IntVI .vorVi (fun _ x y => ((x.toNat ||| y.toNat : Nat) : Int)) ∧
  IntVI .vxorVi (fun _ x y => ((x.toNat ^^^ y.toNat : Nat) : Int)) ∧
  IntVI .vminVi (fun _ x y => min x.toInt y.toInt) ∧
  IntVI .vmaxVi (fun _ x y => max x.toInt y.toInt) ∧
  IntVI .vminuVi (fun _ x y => min x.toNat y.toNat) ∧
  IntVI .vmaxuVi (fun _ x y => max x.toNat y.toNat) ∧
  IntVI .vrsubVi (fun _ x y => y.toInt - x.toInt) ∧
  ShiftVI .vsllVi (fun _ x n => x.toNat * 2 ^ n) ∧
  ShiftVI .vsrlVi (fun _ x n => x.toNat / 2 ^ n) ∧
  ShiftVI .vsraVi (fun _ x n => x.toInt / 2 ^ n)

/-- R103, R105: saturating and averaging words, and the integer multiply-accumulates. The rounding of `VSMUL` is to the nearest integer, ties to even. -/
def Obligations.VectorSaturatingWords : Prop :=
  (IntVV .vsadd (fun w x y => max (-(2 ^ (w - 1))) (min (x.toInt + y.toInt) (2 ^ (w - 1) - 1))) ∧
   IntVV .vsaddu (fun w x y => min (x.toNat + y.toNat) (2 ^ w - 1)) ∧
   IntVV .vssub (fun w x y => max (-(2 ^ (w - 1))) (min (x.toInt - y.toInt) (2 ^ (w - 1) - 1))) ∧
   IntVV .vssubu (fun _ x y => max (x.toNat - y.toNat : Int) 0) ∧
   IntVV .vsmul (fun w x y => max (-(2 ^ (w - 1))) (min (rneShift (x.toInt * y.toInt) (w - 1)) (2 ^ (w - 1) - 1))) ∧
   IntVV .vavg (fun _ x y => (x.toInt + y.toInt + 1) / 2) ∧
   IntVV .vavgu (fun _ x y => (x.toNat + y.toNat + 1) / 2) ∧
   (∀ (s : State) (cv : BitVec 1) (d a b : BitVec 5) (k : BitVec 3),
     ElementWise (.vmacc cv d a b k) s cv (s.h.member .arith [a, b, d] (gov k) [d] []) d k
       (fun e => (pattern s.h.ew ((el s d e).toInt + (el s a e).toInt * (el s b e).toInt), 0)) ∧
     ElementWise (.vnmsac cv d a b k) s cv (s.h.member .arith [a, b, d] (gov k) [d] []) d k
       (fun e => (pattern s.h.ew ((el s d e).toInt - (el s a e).toInt * (el s b e).toInt), 0)))) ∧
  (∀ (x : Int) (n : Nat), 2 * (rneShift x n * 2 ^ n - x) ≤ 2 ^ n ∧ 2 * (x - rneShift x n * 2 ^ n) ≤ 2 ^ n ∧
     ((2 * (rneShift x n * 2 ^ n - x) = 2 ^ n ∨ 2 * (x - rneShift x n * 2 ^ n) = 2 ^ n) → rneShift x n % 2 = 0))

/-- R100, R101, R104, R105: the floating-point words compute exactly and round once to the element format. -/
def Obligations.VectorFloatWords : Prop :=
  FloatVV .vfaddVv (rounded Val.add) ∧
  FloatVV .vfsubVv (rounded fun m x y => Val.add m x y.negate) ∧
  FloatVV .vfmulVv (rounded fun _ x y => Val.mul x y) ∧
  FloatVV .vfdivVv (rounded fun _ x y => Val.div x y) ∧
  FloatVV .vfminVv (fun b _ x y => pickCode b false x y) ∧
  FloatVV .vfmaxVv (fun b _ x y => pickCode b true x y) ∧
  FloatVV .vfsgnjVv (fun b _ x y => (b.signed (y.testBit b.sbit) (x % 2 ^ b.sbit), 0)) ∧
  FloatVV .vfsgnjnVv (fun b _ x y => (b.signed (!y.testBit b.sbit) (x % 2 ^ b.sbit), 0)) ∧
  FloatVV .vfsgnjxVv (fun b _ x y => (b.signed (x.testBit b.sbit != y.testBit b.sbit) (x % 2 ^ b.sbit), 0)) ∧
  FloatVV .vfrsubVv (rounded fun m x y => Val.add m y x.negate) ∧
  FloatVV .vfrdivVv (rounded fun _ x y => Val.div y x) ∧
  FloatVX .vfaddVx (rounded Val.add) ∧
  FloatVX .vfsubVx (rounded fun m x y => Val.add m x y.negate) ∧
  FloatVX .vfmulVx (rounded fun _ x y => Val.mul x y) ∧
  FloatVX .vfdivVx (rounded fun _ x y => Val.div x y) ∧
  FloatVX .vfminVx (fun b _ x y => pickCode b false x y) ∧
  FloatVX .vfmaxVx (fun b _ x y => pickCode b true x y) ∧
  FloatVX .vfsgnjVx (fun b _ x y => (b.signed (y.testBit b.sbit) (x % 2 ^ b.sbit), 0)) ∧
  FloatVX .vfsgnjnVx (fun b _ x y => (b.signed (!y.testBit b.sbit) (x % 2 ^ b.sbit), 0)) ∧
  FloatVX .vfsgnjxVx (fun b _ x y => (b.signed (x.testBit b.sbit != y.testBit b.sbit) (x % 2 ^ b.sbit), 0)) ∧
  FloatVX .vfrsubVx (rounded fun m x y => Val.add m y x.negate) ∧
  FloatVX .vfrdivVx (rounded fun _ x y => Val.div y x) ∧
  (∀ i, i = Instr.vfsqrtVv ∨ i = Instr.vfsqrtVx → FloatV1 i fun b m x =>
    let r := Val.sqrt b.p (binVal b x)
    let c := binConvert b m false r.1
    (c.1, r.2 ||| c.2)) ∧
  (∀ i, i = Instr.vfclassVv ∨ i = Instr.vfclassVx → FloatV1 i fun b _ x => (classCode b x, 0)) ∧
  FloatFma .vfmadd false false ∧ FloatFma .vfmsub false true ∧ FloatFma .vfnmadd true true ∧ FloatFma .vfnmsub true false

/-- R108: the compares write one mask bit for each element, also where the governing mask is the destination itself. -/
def Obligations.VectorCompareWords : Prop :=
  CompareInt .vseq (fun _ x y => x = y) ∧
  CompareInt .vsne (fun _ x y => x ≠ y) ∧
  CompareInt .vslt (fun _ x y => x.toInt < y.toInt) ∧
  CompareInt .vsltu (fun _ x y => x.toNat < y.toNat) ∧
  CompareInt .vsle (fun _ x y => x.toInt ≤ y.toInt) ∧
  CompareInt .vsleu (fun _ x y => x.toNat ≤ y.toNat) ∧
  CompareFloat .vfeq false false Val.eq ∧
  CompareFloat .vfne true false (fun u v => !u.eq v) ∧
  CompareFloat .vflt false true Val.lt ∧
  CompareFloat .vfle false true (fun u v => !v.lt u) ∧
  CompareFloat .vford false false (fun _ _ => true)

/-- R106, R107: the widening multiply-accumulates into an aligned register pair. -/
def Obligations.VectorWideningWords : Prop :=
  WideInt .vwmacc true true ∧ WideInt .vwmaccu false false ∧ WideInt .vwmaccsu true false ∧
  WideOp .vfwmacc (fun s => s.h.fmt = Fmts.fp16 ∨ s.h.fmt = Fmts.e8m7 ∨ s.h.fmt = Fmts.fp32) fun s d a b e =>
    let wide := if s.h.fmt = Fmts.fp32 then binOf Fmts.fp64 else binOf Fmts.fp32
    let m := Val.mul (binVal (binOf s.h.fmt) (floatEl s a e)) (binVal (binOf s.h.fmt) (floatEl s b e))
    let r := Val.add s.h.rm m.1 (binVal wide (wideEl s d e).toNat)
    let c := binConvert wide s.h.rm false r.1
    (BitVec.ofNat 64 c.1, m.2 ||| r.2 ||| c.2)

/-- R109: the words on mask registers and `SMM`. -/
def Obligations.MaskWords : Prop :=
  MaskOp .kand (fun x y => x && y) ∧ MaskOp .kor (fun x y => x || y) ∧ MaskOp .kxor (fun x y => x != y) ∧
  MaskOp .kandn (fun x y => x && !y) ∧ MaskOp .korn (fun x y => x || !y) ∧
  MaskOp1 .knot (fun x => !x) ∧ MaskOp1 .kmov (fun x => x) ∧
  (∀ (s : State) (cv : BitVec 1) (d : BitVec 3), Ready s cv (s.h.member .arith [] [] [] [d]) →
    ∃ t, exec (.kfromsmm cv d) s = .next t ∧ vectorFrame s t ∧ t.h.k = s.h.k.set d.toNat s.h.smm ∧ t.h.v = s.h.v) ∧
  (∀ (s : State) (cv : BitVec 1) (a : BitVec 3), Ready s cv (s.h.member .arith [] [a] [] []) →
    ∃ t, exec (.ktosmm cv a) s = .next t ∧ t.h.smm = s.h.k[a.toNat] ∧
      vectorFrame { s with h := { s.h with smm := s.h.k[a.toNat] } } t ∧ t.h.k = s.h.k ∧ t.h.v = s.h.v) ∧
  (∀ (s : State) (cv : BitVec 1) (d : BitVec 3) (a : BitVec 5), Ready s cv (s.h.member .arith [a] [] [] [d]) →
    ∃ t, exec (.kfromv cv d a) s = .next t ∧ MaskRule s t d fun e => decide (s.h.elem s.h.ew a e ≠ 0)) ∧
  (∀ (s : State) (cv : BitVec 1) (d : BitVec 5) (a : BitVec 3),
    ElementWise (.ktov cv d a) s cv (s.h.member .arith [] [a] [d] []) d 0 fun e => (boolWord ((s.h.k[a.toNat]).getLsbD e), 0))

/-- R110, R111, R112: the integer reductions combine the start value with the active elements; the floating-point reductions follow the tree of adjacent
pairs, and `VREDO` sums in element order with one rounding for each active element. -/
def Obligations.ReductionWords : Prop :=
  (ReduceInt .vredsum (fun _ x y => x.toInt + y.toInt) ∧
   ReduceInt .vredmin (fun _ x y => min x.toInt y.toInt) ∧
   ReduceInt .vredmax (fun _ x y => max x.toInt y.toInt) ∧
   ReduceInt .vredminu (fun _ x y => min x.toNat y.toNat) ∧
   ReduceInt .vredmaxu (fun _ x y => max x.toNat y.toNat) ∧
   ReduceInt .vredand (fun _ x y => ((x.toNat &&& y.toNat : Nat) : Int)) ∧
   ReduceInt .vredor (fun _ x y => ((x.toNat ||| y.toNat : Nat) : Int)) ∧
   ReduceInt .vredxor (fun _ x y => ((x.toNat ^^^ y.toNat : Nat) : Int))) ∧
  (ReduceFloat .vfredsum (rounded Val.add) (fun b => 2 ^ (b.e + b.p)) ∧
   ReduceFloat .vfredmin (fun b _ x y => pickCode b false x y) (fun b => b.infCode) ∧
   ReduceFloat .vfredmax (fun b _ x y => pickCode b true x y) (fun b => 2 ^ (b.e + b.p) + b.infCode) ∧
   (∀ (s : State) (cv : BitVec 1) (d a b : BitVec 5) (k : BitVec 3),
     (¬ isFloatType s → s.h.lane = none → Traps (.vredo cv d a b k) s Cause.illegal ((encode (.vredo cv d a b k)).setWidth 64)) ∧
     (isFloatType s → Ready s cv (s.h.member .select [a, b] (gov k) [d] []) →
       let op := rounded Val.add (binOf s.h.fmt) s.h.rm
       let r := (activeList s k).foldl (fun acc e => let z := op acc.1 (floatEl s a e); (z.1, acc.2 ||| z.2))
         (if s.h.vstart = 0 then floatEl s b 0 else floatEl s d 0, (0 : Flags))
       ∃ t, exec (.vredo cv d a b k) s = .next t ∧ ReductionRule s t d (BitVec.ofNat 64 r.1) r.2)))

/-- R113, R114: the words that rearrange elements; moves between x registers and vectors, shifts by positions, and mask counts. That a count or an index of
`VRANK` or `VRAMP` which does not fit the element keeps its low bits is the model's choice (log 20), and so is that a word on whole registers applies the
tail rule also where VSTART is at or past VL (`PermuteRule`). -/
def Obligations.PermutesAndMoves : Prop :=
  (∀ (s : State) (cv : BitVec 1) (d a b : BitVec 5) (k kb : BitVec 3),
     (d ≠ a → d ≠ b → Permutes (.vshuf cv d a b k) s cv (s.h.member .fibre [a, b] (gov k) [d] []) d k
       fun e => if (s.h.elem s.h.ew b e).toNat < s.h.vl.toNat then some (s.h.elem s.h.ew a (s.h.elem s.h.ew b e).toNat) else none) ∧
     (d = a ∨ d = b → s.h.lane = none → Traps (.vshuf cv d a b k) s Cause.illegal ((encode (.vshuf cv d a b k)).setWidth 64)) ∧
     (d ≠ a → Permutes (.vpack cv d a k) s cv (s.h.member .fibre [a] (gov k) [d] []) d 0
       fun e => some (((activeList s k)[e - s.h.vstart.toNat]?.map fun i => s.h.elem s.h.ew a i).getD 0)) ∧
     (d = a → s.h.lane = none → Traps (.vpack cv d a k) s Cause.illegal ((encode (.vpack cv d a k)).setWidth 64)) ∧
     Permutes (.vrank cv d kb k) s cv (s.h.member .fibre [] (kb :: gov k) [d] []) d k
       (fun e => some (BitVec.ofNat 64 ((List.range (e + 1)).filter fun i => decide (s.h.vstart.toNat ≤ i) && (s.h.k[kb.toNat]).getLsbD i).length)) ∧
     Permutes (.vramp cv d k) s cv (s.h.member .fibre [] (gov k) [d] []) d k (fun e => some (BitVec.ofNat 64 e)) ∧
     Permutes (.vrampS cv d a k) s cv (s.h.member .fibre [a] (gov k) [d] []) d k
       (fun e => some (pattern s.h.ew ((el s a 0).toInt + e * (el s a 1).toInt)))) ∧
  (∀ (s : State) (cv : BitVec 1) (d a n : BitVec 5) (x : BitVec 6) (k ka : BitVec 3),
     ElementWise (.vbcast cv d x k) s cv (s.h.member .fibre [] (gov k) [d] []) d k (fun _ => (reg s x, 0)) ∧
     (Ready s cv (s.h.member .fibre [a] [] [] []) →
       ∃ t, exec (.vtox cv n a x) s = .next t ∧ wroteScalar s t x
         (if s.h.vl.toNat ≤ n.toNat then 0
          else if fmtSigned s.h.fmt then BitVec.ofInt 64 (el s a n.toNat).toInt else s.h.elem s.h.ew a n.toNat)) ∧
     ElementWise (.xtov cv d n x) s cv (s.h.member .fibre [] [] [d] []) d 0 (fun e => (if e = n.toNat then reg s x else 0, 0)) ∧
     (d ≠ a → Permutes (.vshup cv d a x k) s cv (s.h.member .fibre [a] (gov k) [d] []) d k
       fun e => some (if (reg s x).toNat ≤ e then s.h.elem s.h.ew a (e - (reg s x).toNat) else 0)) ∧
     (d ≠ a → Permutes (.vshdn cv d a x k) s cv (s.h.member .fibre [a] (gov k) [d] []) d k
       fun e => some (if e + (reg s x).toNat < s.h.vl.toNat then s.h.elem s.h.ew a (e + (reg s x).toNat) else 0)) ∧
     (d = a → s.h.lane = none →
       Traps (.vshup cv d a x k) s Cause.illegal ((encode (.vshup cv d a x k)).setWidth 64) ∧
       Traps (.vshdn cv d a x k) s Cause.illegal ((encode (.vshdn cv d a x k)).setWidth 64)) ∧
     (Ready s cv (s.h.member .fibre [] (ka :: gov k) [] []) →
       let set := (List.range s.h.vl.toNat).filter fun e => (s.h.k[ka.toNat]).getLsbD e && (decide (k = 0) || (s.h.k[k.toNat]).getLsbD e)
       (∃ t, exec (.kcount cv ka x k) s = .next t ∧ wroteScalar s t x (BitVec.ofNat 64 set.length)) ∧
       (∃ t, exec (.klead cv ka x k) s = .next t ∧ wroteScalar s t x (BitVec.ofNat 64 (set.headD s.h.vl.toNat)))))

/-! ## Lane grants -/

/-- R16, R19, R20, R21, R22, R24, R25, R96, R97, R121, R439: the words that set VL negotiate the grant, clear the lane state where it changes, or wait in the
FIFO; a type in a register that is not legal, or that stage 2 does not offer, is refused. How the free groups are shared where a request grows while others
wait is read from R21 with R18 (log 11). The events that let a waiting word go on run it again. A convoy
starts in the step that runs its word (log 1), so its event has no effect. -/
def Obligations.SetVectorLength : Prop :=
  (∀ (s : State), s.h.lane = none →
    (∀ (d a : BitVec 6) (z t : BitVec 1) (l : BitVec 3) (f : BitVec 5) (e : BitVec 2),
      SetsVl (.setvl d a z t l f e) s d (reg s a) (z ++ t ++ l ++ f ++ e)) ∧
    (∀ (d a b : BitVec 6),
      let v := reg s b
      let f : Fmt := v.extractLsb' 2 5
      let good := v.toNat < 2 ^ 12 ∧ typeLegal (v.setWidth 12) = true ∧ ¬ (s.d.stage = 2 ∧ f ∈ [Fmts.fp64, Fmts.sli16, Fmts.sli32])
      (good → SetsVl (.setvlx d a b) s d (reg s a) (v.setWidth 12)) ∧ (¬ good → Traps (.setvlx d a b) s Cause.illegal v)) ∧
    (∀ (d a : BitVec 6), SetsVl (.setvlxKeep d a) s d (reg s a) s.h.vtype)) ∧
  Retries true .setvlGrant (fun w => (∃ d a z t l f e, w = .setvl d a z t l f e) ∨ (∃ d a b, w = .setvlx d a b) ∨ ∃ d a, w = .setvlxKeep d a) ∧
  (∀ (s : State) (hid : BitVec 11), exec (.convoyStart hid) s = .next s) ∧
  (∀ (s : State) (hid : BitVec 11),
    let u := focus s hid
    let mine := u.c.lpstall.find? fun e => decide (e.1 = hid)
    (mine = none → exec (.lpartStallEnd hid) s = .next (focus u s.hid)) ∧
    (∀ na, mine = some (hid, na) → lpartBlocked u na.toNat = true → exec (.lpartStallEnd hid) s = .next (focus u s.hid)) ∧
    (∀ na, mine = some (hid, na) → lpartBlocked u na.toNat = false →
      (u.h.wait ≠ some .lpart → exec (.lpartStallEnd hid) s =
        .next (focus { u with c := { u.c with na := na, lpstall := u.c.lpstall.filter fun e => e.1 != hid } } s.hid)) ∧
      (∀ d a w t, u.h.wait = some .lpart → w ∈ [Instr.csrwr d a 0x021, .csrbs d a 0x021, .csrbc d a 0x021] →
        fetch u u.h.pc = .ok (encode w, t) → ∃ v, exec w t = .next v ∧ exec (.lpartStallEnd hid) s = .next (focus v s.hid))))

/-! ## Conversions -/

/-- R204, R205, R206, R213, R216, R218, R219, R221: conversions between formats, level-index words and transcendental functions; with them what the
conversion of a code, the level-index operations and the transcendental functions give at special operands, at exact points, and by which rounding. -/
def Obligations.ConversionWords : Prop :=
  CodeConversionLaws ∧ DartValues ∧ LevelIndexLaws 11 ∧ LevelIndexLaws 27 ∧ TranscendentalLaws ∧
  Converts .vcvt false .arith ∧ Converts .slicvt true .arithB ∧
  SliVV .sliopAdd sliAdd ∧ SliVV .sliopSub (fun n x y => sliAdd n x y.negate) ∧ SliVV .sliopMul sliMul ∧ SliVV .sliopDiv sliDiv ∧
  SliVX .slixAdd sliAdd ∧ SliVX .slixSub (fun n x y => sliAdd n x y.negate) ∧ SliVX .slixMul sliMul ∧ SliVX .slixDiv sliDiv ∧
  SliVX .slixRsub (fun n x y => sliAdd n y x.negate) ∧ SliVX .slixRdiv (fun n x y => sliDiv n y x) ∧
  SliV1 .slifnExp sliExp ∧ SliV1 .slifnLog sliLog ∧
  SliRed .sliredSum (fun s x y => sliResult s (sliAdd (sliF s.h.fmt) (sliEl s x) (sliEl s y))) (fun _ => 0) ∧
  SliRed .sliredMax (fun s x y => (BitVec.ofNat 64 (sliPick (sliF s.h.fmt) true x.toNat y.toNat), 0))
    (fun s => BitVec.ofNat 64 (sliCode (sliF s.h.fmt) (.num true (sliTop (sliF s.h.fmt))))) ∧
  SliRed .sliredMin (fun s x y => (BitVec.ofNat 64 (sliPick (sliF s.h.fmt) false x.toNat y.toNat), 0))
    (fun s => BitVec.ofNat 64 (sliCode (sliF s.h.fmt) (.num false (sliTop (sliF s.h.fmt))))) ∧
  Transcendental .vtransExp .exp ∧ Transcendental .vtransExp2 .exp2 ∧ Transcendental .vtransLog .log ∧ Transcendental .vtransLog2 .log2 ∧
  Transcendental .vtransRcp .rcp ∧ Transcendental .vtransRsqrt .rsqrt ∧ Transcendental .vtransTanh .tanh

/-- The scale of a block (R208, R209): NaN where a value is none that is finite; else the least e8m7 code whose value times Qmax reaches every value, at most
0x7F7F, and 0 for a block without a nonzero value. -/
def ScaleRule (f : Fmt) (q : Nat) (xs : List Val) : Prop :=
  let b := binOf Fmts.e8m7
  let r := blockScale f xs
  ((∃ v ∈ xs, ∀ neg n d, v ≠ .fin neg n d) → r = (0x7FC0, true)) ∧
  ((∀ v ∈ xs, ∃ neg n d, v = .fin neg n d ∧ 0 < d) → r.2 = false ∧ r.1 ≤ 0x7F7F ∧
    (∀ neg n d, Val.fin neg n d ∈ xs → scaledUnits b n ≤ unitsOf b r.1 * (q * d) ∨ r.1 = 0x7F7F) ∧
    (0 < r.1 → ∃ neg n d, Val.fin neg n d ∈ xs ∧ unitsOf b (r.1 - 1) * (q * d) < scaledUnits b n))

/-- The code of a quotient by a positive scale (R209): for an integer format the integer that the mode rounds to, at most Qmax in size (the model's choice,
log 23); 0 for a value below the range of an unsigned format; for another format the conversion with `.sat`. -/
def QuotientRule (f : Fmt) (q : Nat) : Prop :=
  ∀ (mode : Mode) (neg : Bool) (n d u v : Nat), mode ≤ 4 → 0 < d → 0 < u → 0 < v →
    let r := qround f mode (.fin neg n d) (.fin false u v)
    (fmtInt f = true → fmtSigned f = false → neg = true → r = (0, if n = 0 then 0 else Flag.nx)) ∧
    (fmtInt f = true → (fmtSigned f = true ∨ neg = false) → ∃ m : Nat, roundsTo mode neg (n * v) (d * u) m ∧
      (m ≤ q → r = (intCode f (if neg then -(m : Int) else m), if m * (d * u) = n * v then 0 else Flag.nx)) ∧
      (q < m → r = (intCode f (if neg then -(q : Int) else q), Flag.of' ||| Flag.nx))) ∧
    (fmtInt f = false → r = codeOf f mode true (.fin neg (n * v) (d * u)))

/-- R207, R208, R209, R210: block quantisation and its inverse. The scale of a block comes from its active values; a code is the rounded quotient. The
integer saturation of `QuotientRule` is the model's reading of R208 and R209 (log 23): a rounded magnitude beyond the range, that of the most negative
code included, gives the end of the range with its sign, with OF and NX. -/
def Obligations.QuantisationWords : Prop :=
  (∀ f q, quantMax f = some q → (∀ xs, ScaleRule f q xs) ∧ QuotientRule f q) ∧
  ∀ (s : State) (cv : BitVec 1) (d a f : BitVec 5) (k r : BitVec 3),
    let badQ := ¬ isQuantType s ∨ d = 31 ∨ a = d ∨ a = d + 1
    let badD := ¬ isQuantType s ∨ a = 31 ∨ d = a ∨ d = a + 1
    (badQ → s.h.lane = none → Traps (.vquant cv d a f k r) s Cause.illegal ((encode (.vquant cv d a f k r)).setWidth 64)) ∧
    (badD → s.h.lane = none → Traps (.vdeq cv d a f k r) s Cause.illegal ((encode (.vdeq cv d a f k r)).setWidth 64)) ∧
    (¬ badQ → Ready s cv (s.h.member .arith [a] (gov k) [d, d + 1] []) → ∃ t, exec (.vquant cv d a f k r) s = .next t ∧ vectorFrame s t ∧
      t.h.k = s.h.k ∧ (∀ q : BitVec 5, q ≠ d → q ≠ d + 1 → t.h.v[q.toNat] = s.h.v[q.toNat]) ∧ dirtiesOnly s t [d.toNat, d.toNat + 1] ∧
      (s.h.vstart = 0 → 0 < s.h.vl.toNat → s.h.vl.toNat ≤ vlmax s.h.ew s.h.g → t.h.vdirty.getLsbD (d.toNat + 1) = true ∧
        (activeList s k ≠ [] → t.h.vdirty.getLsbD d.toNat = true)) ∧
      (let value (e : Nat) : Val := binVal (binOf s.h.fmt) (floatEl s a e)
       let members (b : Nat) : List Nat := (activeList s k).filter fun e => e / s.h.blk == b
       let scale (b : Nat) : Nat × Bool := blockScale f ((members b).map value)
       let code (e : Nat) : Nat × Flags := qround f (staticMode s r) (value e) (binVal (binOf Fmts.e8m7) (scale (e / s.h.blk)).1)
       s.h.vstart = 0 → s.h.vl.toNat ≤ vlmax s.h.ew s.h.g → ∀ i : Nat, t.h.fcsr.getLsbD i = true ↔ s.h.fcsr.getLsbD i = true ∨
         ∃ e ∈ activeList s k, let sc := scale (e / s.h.blk)
           (sc.2 = true ∧ Flag.nv.getLsbD i = true) ∨ (sc.2 = false ∧ sc.1 ≠ 0 ∧ (code e).2.getLsbD i = true)) ∧
      (s.h.vstart = 0 → s.h.vl.toNat ≤ vlmax s.h.ew s.h.g → ∀ b, b * s.h.blk < s.h.vl.toNat →
        let value (e : Nat) : Val := binVal (binOf s.h.fmt) (floatEl s a e)
        let members := (activeList s k).filter fun e => e / s.h.blk == b
        let scale := blockScale f (members.map value)
        t.h.elem 16 (d + 1) b = BitVec.ofNat 64 scale.1 ∧
        (scale.2 = true → t.h.fcsr &&& Flag.nv = Flag.nv) ∧
        ∀ e, e / s.h.blk = b →
          (e ∈ members → (scale.2 = true ∨ scale.1 = 0) → t.h.elem 8 d e = 0) ∧
          (e ∈ members → scale.2 = false → scale.1 ≠ 0 →
            (t.h.elem 8 d e).toNat = (qround f (staticMode s r) (value e) (binVal (binOf Fmts.e8m7) scale.1)).1 % 256) ∧
          (s.h.vl.toNat ≤ e → t.h.elem 8 d e = 0) ∧
          (e < s.h.vl.toNat → e ∉ members → t.h.elem 8 d e = if s.h.mz then 0 else s.h.elem 8 d e))) ∧
    (¬ badD → ElementWise (.vdeq cv d a f k r) s cv (s.h.member .arith [a, a + 1] (gov k) [d] []) d k fun e =>
      let m := Val.mul (codeVal f (elemCode f (s.h.elem 8 a e))) (binVal (binOf Fmts.e8m7) (s.h.elem 16 (a + 1) (e / s.h.blk)).toNat)
      let c := binConvert (binOf s.h.fmt) (staticMode s r) false m.1
      (BitVec.ofNat 64 c.1, m.2 ||| c.2))

/-! ## Vector memory -/

/-- R115, R116, R118, R270, R271, R273, R274, R277, R280: the vector loads and stores perform their elements in ascending order. The model's
choices: bit 5 of a field of theirs that names a vector register is reserved (log 21), and a `VGATHB` with VSTART at or past VL counts its timeline event and
`VSPAD` checks its pattern there (log 20). -/
def Obligations.VectorLoadsAndStores : Prop :=
  (∀ (s : State) (cv : BitVec 1) (v : BitVec 5) (a b : BitVec 6) (k : BitVec 3) (side q : BitVec 2),
    let ml := s.h.member .memory [] (gov k) [v] []
    let ms := s.h.member .memory [v] (gov k) [] []
    let ix : BitVec 5 := b.setWidth 5
    InOrder (.vld cv v a k side) s cv ml s (loadElement v k side (unitStride (reg s a))) (tailOf v) (fun t => t) ∧
    InOrder (.vldStr cv v a b k side) s cv ml s (loadElement v k side (byteStride (reg s a) (reg s b))) (tailOf v) (fun t => t) ∧
    InOrder (.vst cv v a k side) s cv ms s (storeElement v k side (unitStride (reg s a))) (fun t => t) (fun t => t) ∧
    InOrder (.vstStr cv v a b k side) s cv ms s (storeElement v k side (byteStride (reg s a) (reg s b))) (fun t => t) (fun t => t) ∧
    (b.toNat < 32 →
      InOrder (.vldx cv v a b k side q) s cv (s.h.member .memory [ix] (gov k) [v] []) s
        (loadElement v k side (byIndex (reg s a) ix q)) (tailOf v) (fun t => t) ∧
      InOrder (.vstx cv v a b k side q) s cv (s.h.member .memory [v, ix] (gov k) [] []) s
        (storeElement v k side (byIndex (reg s a) ix q)) (fun t => t) (fun t => t)) ∧
    (32 ≤ b.toNat → s.h.lane = none →
      Traps (.vldx cv v a b k side q) s Cause.illegal ((encode (.vldx cv v a b k side q)).setWidth 64) ∧
      Traps (.vstx cv v a b k side q) s Cause.illegal ((encode (.vstx cv v a b k side q)).setWidth 64)) ∧
    (b.toNat < 32 → (s.h.ew = 32 ∨ s.h.ew = 64) →
      InOrder (.vgathb cv v a b k q) s cv (s.h.member .memory [ix] (gov k) [v] []) (smmFrom (s.release 2))
        (gatherElement v k (byIndex (reg s a) ix q)) (tailOf v) (fun t => { t with h := { t.h with gs := t.h.gs + 1 } })) ∧
    (32 ≤ b.toNat ∨ (s.h.ew ≠ 32 ∧ s.h.ew ≠ 64) → s.h.lane = none →
      Traps (.vgathb cv v a b k q) s Cause.illegal ((encode (.vgathb cv v a b k q)).setWidth 64)) ∧
    (boxValid s b → swatchCheck s.c (boxSpan s.h (boxOf s a b)) = none →
      InOrder (.vspadLd cv v a b k) s cv ml s (boxLoad v k (boxOf s a b)) (tailOf v) (fun t => t)) ∧
    (boxValid s b → swatchBlocked s.c (boxSpan s.h (boxOf s a b)) = false →
      InOrder (.vspadSt cv v a b k) s cv ms s (boxStore v k (boxOf s a b)) (fun t => t) (fun t => t)) ∧
    (¬ boxValid s b →
      (Ready s cv ml → Traps (.vspadLd cv v a b k) s Cause.patternInvalid (BitVec.ofNat 64 ((reg s b).toNat % 256))) ∧
      (Ready s cv ms → Traps (.vspadSt cv v a b k) s Cause.patternInvalid (BitVec.ofNat 64 ((reg s b).toNat % 256))))) ∧
  (∀ (s : State) (cv : BitVec 1) (v : BitVec 3) (a : BitVec 6) (side : BitVec 2),
    let n := (s.h.vl.toNat + 7) / 8
    (∀ x t, Ready s cv (s.h.member .memory [] [] [] [v]) → loadBytes s (reg s a) side.toNat n = .ok (x, t) →
      ∃ u, exec (.vldM cv v a side) s = .next u ∧ u = ended cv (s.h.member .memory [] [] [] [v]) { t with h := { t.h with k := u.h.k } } ∧
        (∀ r : BitVec 3, r ≠ v → u.h.k[r.toNat] = s.h.k[r.toNat]) ∧
        (∀ e, e < 2048 → (u.h.k[v.toNat]).getLsbD e = if e < s.h.vl.toNat then x.testBit e else !s.h.tz && (s.h.k[v.toNat]).getLsbD e)) ∧
    (∀ l t u, Ready s cv (s.h.member .memory [] [v] [] []) → storePlaces s (reg s a) n = .ok (l, t) →
      storeBytes t l ((s.h.k[v.toNat]).toNat % 2 ^ s.h.vl.toNat) side.toNat = .ok u →
      exec (.vstM cv v a side) s = .next (ended cv (s.h.member .memory [] [v] [] []) u)) ∧
    (∀ c y, loadBytes s (reg s a) side.toNat n = .error (.trap c y) → Ready s cv (s.h.member .memory [] [] [] [v]) →
      Traps (.vldM cv v a side) s c y) ∧
    (∀ c y, storePlaces s (reg s a) n = .error (.trap c y) → Ready s cv (s.h.member .memory [] [v] [] []) → Traps (.vstM cv v a side) s c y)) ∧
  (∀ (s : State) (cv : BitVec 1) (v : BitVec 5) (a x : BitVec 6) (k : BitVec 3) (side : BitVec 2),
    let m := s.h.member .memory [] (gov k) [v] []
    let addr := unitStride (reg s a)
    let first := ((List.range s.h.vl.toNat).find? fun e => decide (isActive s k e)).getD s.h.vl.toNat
    let ff := firstFaultElement v k side addr first
    let upTo (n : Nat) : Except Stop State := (List.range' s.h.vstart.toNat (n - s.h.vstart.toNat)).foldlM ff s
    let counted (t : State) (n : Nat) : State := ended cv m { t with h := { t.h with x := regs t x (BitVec.ofNat 64 n) } }
    Ready s cv m →
    (s.h.vl.toNat ≤ s.h.vstart.toNat → exec (.vldff cv v a x k side) s = .next (counted s s.h.vl.toNat)) ∧
    (s.h.vstart.toNat < s.h.vl.toNat →
      (∀ t, upTo s.h.vl.toNat = .ok t → exec (.vldff cv v a x k side) s = .next (counted (tailOf v t) s.h.vl.toNat)) ∧
      (∀ e t, s.h.vstart.toNat ≤ e → e < s.h.vl.toNat → upTo e = .ok t → isActive s k e → e ≠ first →
        softLoad t (addr t e) (t.h.ew / 8) side.toNat = .ok none → exec (.vldff cv v a x k side) s = .next (counted (tailOf v t) e)) ∧
      (∀ t c y, s.h.vstart.toNat ≤ first → first < s.h.vl.toNat → upTo first = .ok t →
        load t (addr t first) (t.h.ew / 8) side.toNat = .error (.trap c y) →
        exec (.vldff cv v a x k side) s = .next (enterTrap (startAt t first) c y))))

/-- R275, R278: the broadcast scatters, and the stream load, which reads the words that have landed at its port and frees it. The
model's choices: bit 5 of the field that names the index vector is reserved (log 21), and where the translation of a `VSCATB` at another address faults the
journal stands as it was, and a `VLDS` with VSTART at or past VL claims its port, waits and releases it (log 20). -/
def Obligations.ScatterAndStreamWords : Prop :=
  Scatters .vscatbSt none (fun s => s.h.ew = 32 ∨ s.h.ew = 64) ∧
  Scatters .vscatbAdd (some 0) (fun s => s.h.ew = 32 ∨ s.h.ew = 64) ∧
  Scatters .vscatbFadd (some 7) (fun s => s.h.ew = 32 ∧ s.h.fmt = Fmts.fp32) ∧
  Scatters .vscatbMax (some 6) (fun s => s.h.ew = 32 ∨ s.h.ew = 64) ∧
  (∀ (s : State) (cv : BitVec 1) (v : BitVec 5) (p k : BitVec 3),
    let m := s.h.member .memory [] (gov k) [v] []
    let port := s.c.vports[p.toFin]
    (s.h.ew ≠ 32 → s.h.lane = none → Traps (.vlds cv v p k) s Cause.illegal ((encode (.vlds cv v p k)).setWidth 64)) ∧
    (s.h.ew = 32 → Ready s cv m → (port.occ = none ∨ port.read = true ∨ ∃ q, port.claim = some q ∧ q ≠ (s.h.node, s.h.unit)) →
      exec (.vlds cv v p k) s = .next { s with h := { s.h with wait := some .port } }) ∧
    (∀ ch id, s.h.ew = 32 → Ready s cv m → port.occ = some (ch, id) → port.read = false → (port.claim = none ∨ port.claim = some (s.h.node, s.h.unit)) →
      (∀ e, inRange s e → activeIn s k e → e < port.buf.length ∨ ∀ x, findCmd s.c ch id = some x → x.expected ≤ e) →
      ∃ t, exec (.vlds cv v p k) s = .next t ∧
        ElementRule s { t with c := s.c } v k (fun e => ((port.buf.getD e 0).setWidth 64, 0)) ∧
        (let after : VPort := if (findCmd s.c ch id).isSome then { port with claim := some (s.h.node, s.h.unit), read := true } else VPort.reset
         t.c = { s.c with vports := s.c.vports.set p.toFin after })))

/-! ## Atomics -/

/-- R282, R283, R284, R357, R358: what each atomic operation writes over a memory word of `w` bits, none where it writes nothing; the vector atomics apply
their elements in order, the scalar atomics one word. -/
def Obligations.AtomicWords : Prop :=
  (∀ (w m b x : Nat), w = 32 ∨ w = 64 → m < 2 ^ w → b < 2 ^ w →
     let signed (n : Nat) : Int := (BitVec.ofNat w n).toInt
     amoNew 0 w m b x = some ((m + b) % 2 ^ w) ∧ amoNew 1 w m b x = some (m &&& b) ∧ amoNew 2 w m b x = some (m ||| b) ∧
     amoNew 3 w m b x = some (m ^^^ b) ∧ amoNew 4 w m b x = some b ∧
     amoNew 5 w m b x = some (if signed b < signed m then b else m) ∧ amoNew 6 w m b x = some (if signed m < signed b then b else m) ∧
     amoNew 8 w m b x = some (min m b) ∧ amoNew 9 w m b x = some (max m b) ∧ amoNew 10 w m b x = (if m = x then some b else none) ∧
     amoNew 11 w m b x = (if m < b then some (m + 1) else none) ∧
     (w = 32 → amoNew 7 w m b x = some (rounded Val.add bin32 0 m b).1 ∧
       amoNew 12 w m b x = some (pickCode bin32 false m b).1 ∧ amoNew 13 w m b x = some (pickCode bin32 true m b).1 ∧
       amoNew 15 w m b x = some ((rounded Val.add bin16 0 (m % 2 ^ 16) (b % 2 ^ 16)).1 +
         2 ^ 16 * (rounded Val.add bin16 0 (m / 2 ^ 16) (b / 2 ^ 16)).1)) ∧
     (w = 64 → (amoNew 14 w m b x).map (fun n => (n : Int) % 2 ^ 64) = some ((m + (BitVec.ofNat 32 b).toInt) % 2 ^ 64))) ∧
  (VectorAtomic .vamoAdd 0 false ∧ VectorAtomic .vamoAnd 1 false ∧ VectorAtomic .vamoOr 2 false ∧ VectorAtomic .vamoXor 3 false ∧
   VectorAtomic .vamoSwap 4 false ∧ VectorAtomic .vamoMin 5 false ∧ VectorAtomic .vamoMax 6 false ∧ VectorAtomic .vamoFadd32 7 true ∧
   VectorAtomic .vamoUmin 8 false ∧ VectorAtomic .vamoUmax 9 false ∧ VectorAtomic .vamoIncb 11 false ∧ VectorAtomic .vamoFmin32 12 true ∧
   VectorAtomic .vamoFmax32 13 true ∧ VectorAtomic .vamoFadd16x2 15 true ∧
   (∀ (s : State) (cv : BitVec 1) (v : BitVec 4) (a : BitVec 6) (sc : BitVec 3) (q : BitVec 2) (k : BitVec 3),
     (s.h.ew ≠ 32 → s.h.lane = none → Traps (.vamoAdd32w cv v a sc q k) s Cause.illegal ((encode (.vamoAdd32w cv v a sc q k)).setWidth 64)) ∧
     (s.h.ew = 32 → InOrder (.vamoAdd32w cv v a sc q k) s cv (s.h.member .memory [v ++ 0#1, v ++ 1#1] (gov k) [] []) (smmFrom s)
       (amoElement 14 false sc (v ++ 0#1) k (byIndex (reg s a) (v ++ 1#1) q)) (fun t => t) (fun t => t))) ∧
   AtomicOp .amoAdd 0 8 ∧ AtomicOp .amoAnd 1 8 ∧ AtomicOp .amoOr 2 8 ∧ AtomicOp .amoXor 3 8 ∧ AtomicOp .amoSwap 4 8 ∧
   AtomicOp .amoMin 5 8 ∧ AtomicOp .amoMax 6 8 ∧ AtomicOp .amoFadd32 7 4 ∧ AtomicOp .amo2Umin 8 8 ∧ AtomicOp .amo2Umax 9 8 ∧
   AtomicOp .amo2Cas 10 8 ∧ AtomicOp .amo2Incb 11 8 ∧ AtomicOp .amo2Fmin32 12 4 ∧ AtomicOp .amo2Fmax32 13 4 ∧
   AtomicOp .amo2Add32w 14 8 ∧ AtomicOp .amo2Fadd16x2 15 4)

/-- R335, R336, R337, R347, R355, R356, R361, R362, R460: fences, and the loads and stores that synchronise. A release or an acquire of pod scope waits while a
remote operation of the hart has no acknowledgement. A fence, and an acquire, of core scope or wider forgets the words that were fetched early. After a release of cluster scope or wider no dirty sector of the L1 domain is left; at cluster scope each line is past the
ordering point, and from die-layer scope up its data stand at a home in the scope. After an acquire no clean line of the domain holds data. The model's
choices: that an acquire of pod scope waits for remote operations too (log 18; R356 says it of a release and of a full barrier), that a release also writes
back the lines that the core's cluster-scope atomics left dirty in other cores' L1 (log 27), and which words fetched early stand until then (log 45). -/
def Obligations.FencesAndSynchronisingWords : Prop :=
  (∀ (d : Device) (core sc : Nat),
    let l := coreLayer core
    let t := Machine.release d core sc
    let goes (e : Nat × List Line) (x : Line) : Prop := e ∈ d.l1 ∧ x ∈ e.2 ∧ releases d core (e.1 / 128) x = true
    (∀ e x, e ∈ d.l1 → x ∈ e.2 → e.1 / 128 ∈ domainCores d core → releases d core (e.1 / 128) x = true) ∧
    (sc < 2 → t = d) ∧
    (2 ≤ sc → t = { d with l1 := t.l1, held := t.held, lclock := t.lclock, mem := t.mem, poison := t.poison, hclock := t.hclock, ckpt := t.ckpt } ∧
      ∀ e ∈ t.l1, ∀ x ∈ e.2, e.1 / 128 ∈ domainCores d core → x.dirty = 0) ∧
    (sc = 2 → t.mem = d.mem ∧ ∀ e x, goes e x → x.dirty ≠ 0 → ∃ w ∈ t.held, w.line = x.tag ∧ w.dirty = x.dirty ∧ w.data = x.data ∧ w.poison = x.poison) ∧
    (3 ≤ sc →
      (∀ w ∈ t.held, layerInScope sc l (w.home d) = true → covers t.lclock[lay l] w = false) ∧
      (Memory.wf d.mem → ∀ e x, goes e x → (∀ e' y, goes e' y → y.tag = x.tag → y = x) → layerInScope sc l (homeLayer d (x.tag * 128)) = true →
        ∀ b, b < 128 → x.dirty.getLsbD (b / 32) = true → Memory.get t.mem (x.tag * 128 + b) = x.data.extractLsb' (8 * b) 8))) ∧
  (∀ (d : Device) (core sc : Nat),
    let t := Machine.acquire d core sc
    let f := fullBarrier d core sc
    (sc < 2 → t = d ∧ f = d) ∧
    (2 ≤ sc → t = { d with l1 := t.l1 } ∧
      (∀ e ∈ t.l1, e.1 / 128 ∈ domainCores d core → ∀ x ∈ e.2, x.dirty ≠ 0 ∨ (x.valid = false ∧ x.locks ≠ [])) ∧
      (∀ e ∈ d.l1, ∀ x ∈ e.2, x.dirty ≠ 0 → ∃ r ∈ t.l1, r.1 = e.1 ∧ x ∈ r.2) ∧
      (∀ e ∈ d.l1, e.1 / 128 ∉ domainCores d core → e ∈ t.l1) ∧
      (∀ w ∈ f.held, covers f.lclock[lay (coreLayer core)] w = false) ∧
      ∀ e ∈ f.l1, e.1 / 128 ∈ domainCores d core → ∀ x ∈ e.2, x.dirty = 0 ∧ x.valid = false)) ∧
  ∀ (s : State) (sf : BitVec 3) (z : BitVec 2) (d a b : BitVec 6), s.h.lane = none →
    let waits : Prop := sf = 7 ∧ s.h.remote ≠ 0
    let waiting (t : State) : State := { t with h := { t.h with wait := some .acks } }
    let fence (t : State) : State := passed { t with h := { t.h with early := if sf = 0 then t.h.early else [] } }
    (¬ waits → exec (.fenceRel sf) s = .next (fence { s with d := Machine.release s.d (coreOf s.hid) sf.toNat })) ∧
    (waits → exec (.fenceRel sf) s = .next (waiting s)) ∧
    (¬ waits → exec (.fenceAcq sf) s = .next (fence { s with d := Machine.acquire s.d (coreOf s.hid) sf.toNat })) ∧
    (waits → exec (.fenceAcq sf) s = .next (waiting s)) ∧
    (¬ waits → exec (.fenceFull sf) s = .next (fence { s with d := fullBarrier s.d (coreOf s.hid) sf.toNat })) ∧
    (waits → exec (.fenceFull sf) s = .next (waiting s)) ∧
    (∀ v t, syncLoad s (reg s a) (2 ^ z.toNat) sf.toNat = .ok (v, t) →
      (¬ waits → exec (.ldacq sf z d a) s = .next (wrote (acquired t sf) d (BitVec.ofNat 64 v))) ∧
      (waits → exec (.ldacq sf z d a) s = .next (waiting s))) ∧
    (∀ c v, syncLoad s (reg s a) (2 ^ z.toNat) sf.toNat = .error (.trap c v) → exec (.ldacq sf z d a) s = .next (enterTrap s c v)) ∧
    (∀ t, syncStore s (reg s a) (2 ^ z.toNat) sf.toNat (reg s b) = .ok t → ¬ waits → exec (.strel sf z a b) s = .next (passed t)) ∧
    (∀ t, syncStore s (reg s a) (2 ^ z.toNat) sf.toNat (reg s b) = .ok t → waits → exec (.strel sf z a b) s = .next (waiting t)) ∧
    (∀ c v, syncStore s (reg s a) (2 ^ z.toNat) sf.toNat (reg s b) = .error (.trap c v) → exec (.strel sf z a b) s = .next (enterTrap s c v))

/-! ## Fibres -/

/-- R128, R130, R132, R133, R134, R135, R136, R137, R139, R141: the words that walk two fibres in coordinate order. -/
def Obligations.FibreWalkingWords : Prop :=
  (∀ p ∈ [(Instr.fisectMul, 0), (.fisectFirst, 1), (.fisectSecond, 2), (.fisectAdd, 3), (.fisectMin, 4), (.fisectMax, 5)],
    Walks p.1 (fun _ _ _ => False) ascending fun s => intersection (combine s.h p.2)) ∧
  (∀ p ∈ [(Instr.funionFirst, 1), (.funionSecond, 2), (.funionAdd, 3), (.funionMin, 4), (.funionMax, 5)],
    Walks p.1 (fun d a b => d = a ∨ d = b) ascending fun s => union (combine s.h p.2)) ∧
  (∀ p ∈ [(Instr.fmergeFirst, 1), (.fmergeLast, 2), (.fmergeAdd, 3), (.fmergeMin, 4), (.fmergeMax, 5)],
    Walks p.1 (fun d a b => d = a ∨ d = b) sorted fun s => union (combine s.h p.2)) ∧
  Walks .fexpand (fun d a _ => d = a) ascending
    (fun _ a b => (b.map fun q => (q.1, ((a.find? fun p => p.1 == q.1).map (·.2)).getD 0), 0)) ∧
  (∀ (s : State) (cv : BitVec 1) (m : BitVec 3) (a b : BitVec 4) (x : BitVec 6),
    let pa := pairsOf s.h a
    let pb := pairsOf s.h b
    let walking (l : List (Nat × Nat)) : Prop := ascending l ∧ l.length ≤ vlmax 32 s.h.g
    ((¬ isFibreType s ∨ m.toNat % 2 = 1) → s.h.lane = none → Traps (.fmatch cv m a b x) s Cause.illegal ((encode (.fmatch cv m a b x)).setWidth 64)) ∧
    (¬ isFibreType s → s.h.lane = none → Traps (.fdotIsect cv a b x) s Cause.illegal ((encode (.fdotIsect cv a b x)).setWidth 64)) ∧
    (isFibreType s → m.toNat % 2 = 0 → Ready s cv { s.h.member .fibre (fibRegs [a, b]) [] [] [m, m + 1] with vpr := true } →
      s.h.vpr.getLsbD 63 = false → walking pa → walking pb →
      ∃ t, exec (.fmatch cv m a b x) s = .next t ∧
        t = ended cv { s.h.member .fibre (fibRegs [a, b]) [] [] [m, m + 1] with vpr := true } { s with h := { s.h with
          k := t.h.k, vpr := 0, x := regs s x (BitVec.ofNat 64 (matched pa pb).length) } } ∧
        (∀ r : BitVec 3, r ≠ m → r ≠ m + 1 → t.h.k[r.toNat] = s.h.k[r.toNat]) ∧
        (∀ e, e < 2048 →
          ((t.h.k[m.toNat]).getLsbD e = true ↔ ∃ p q, pa[e]? = some p ∧ q ∈ pb ∧ q.1 = p.1) ∧
          ((t.h.k[(m + 1).toNat]).getLsbD e = true ↔ ∃ p q, pb[e]? = some q ∧ p ∈ pa ∧ q.1 = p.1))) ∧
    (isFibreType s → Ready s cv { s.h.member .fibre (fibRegs [a, b]) [] [] [] with vpr := true } →
      s.h.vpr.getLsbD 63 = false → walking pa → walking pb →
      let r := (matched pa pb).foldl (fun acc z => ((dotStep s.h acc.1 z.2.1 z.2.2).1, acc.2 ||| (dotStep s.h acc.1 z.2.1 z.2.2).2)) (0, (0 : Flags))
      exec (.fdotIsect cv a b x) s = .next (ended cv { s.h.member .fibre (fibRegs [a, b]) [] [] [] with vpr := true } { s with h := { s.h with
        fcsr := s.h.fcsr ||| r.2, vpr := 0, x := regs s x (accWord s.h r.1) } })))

/-- R137, R138, R140, R141, R142, R143: the words that take one fibre, or positions of two, to a fibre, a vector or an x register. -/
def Obligations.FibreMappingWords : Prop :=
  (∀ p ∈ [(Instr.fmergeSortFirst, 1), (.fmergeSortLast, 2), (.fmergeSortAdd, 3), (.fmergeSortMin, 4), (.fmergeSortMax, 5)],
    ∀ (s : State) (cv : BitVec 1) (d a : BitVec 4), (pairsOf s.h a).length ≤ vlmax 32 s.h.g →
      ∃ l, l.Perm (pairsOf s.h a) ∧ sorted l ∧
        (∀ c, l.filter (fun q => q.1 == c) = (pairsOf s.h a).filter fun q => q.1 == c) ∧
        MapsFibre (p.1 cv d a) s cv (s.h.member .fibre (fibRegs [a]) [] (fibRegs [d]) []) d (collapsed (combine s.h p.2) l)) ∧
  (∀ (s : State) (cv : BitVec 1) (d a b : BitVec 4) (v : BitVec 5) (k : BitVec 3) (x : BitVec 6), (pairsOf s.h a).length ≤ vlmax 32 s.h.g →
    let pa := pairsOf s.h a
    let m := s.h.member .fibre (fibRegs [a]) (gov k) (fibRegs [d]) []
    let low := (reg s x).toNat % 2 ^ 32
    MapsFibre (.fcompact cv d a k) s cv m d ((pa.zipIdx.filter fun e => decide (isActive s k e.2)).map (·.1), 0) ∧
    MapsFibre (.fmapMul cv d a k x) s cv m d (mapPairs s (fun u => combine s.h 0 u low) k pa) ∧
    MapsFibre (.fmapAdd cv d a k x) s cv m d (mapPairs s (fun u => combine s.h 3 u low) k pa) ∧
    MapsFibre (.fmapAbs cv d a k) s cv m d (mapPairs s (fun u =>
      (if s.h.fmt = Fmts.int32 then (if 2 ^ 31 ≤ u then (2 ^ 32 - u) % 2 ^ 32 else u)
       else if s.h.fmt = Fmts.e8m7x2 then u &&& 0x7FFF7FFF else u &&& 0x7FFFFFFF, 0)) k pa) ∧
    MapsFibre (.fmapNeg cv d a k) s cv m d (mapPairs s (fun u =>
      (if s.h.fmt = Fmts.int32 then (2 ^ 32 - u) % 2 ^ 32 else if s.h.fmt = Fmts.e8m7x2 then u ^^^ 0x80008000 else u ^^^ 0x80000000, 0)) k pa) ∧
    MapsFibre (.fmapRelu cv d a k) s cv m d (mapPairs s (fun u => combine s.h 5 u 0) k pa) ∧
    MapsFibre (.fmov cv d a) s cv (s.h.member .fibre (fibRegs [a]) [] (fibRegs [d]) []) d (pa, 0) ∧
    MapsFibre (.ffromdense cv d k v) s cv (s.h.member .fibre [v] (gov k) (fibRegs [d]) []) d
      (((List.range s.h.vl.toNat).filter fun e => decide (isActive s k e)).map fun e => (e, (s.h.elem 32 v e).toNat), 0) ∧
    (¬ isFibreType s → s.h.lane = none →
      ∀ i ∈ [Instr.ftodense cv a v, .foccr cv a x, .foccw cv d x, .fdot cv a b x], Traps i s Cause.illegal ((encode i).setWidth 64)) ∧
    (v = a ++ 0#1 ∨ v = a ++ 1#1 → s.h.lane = none → Traps (.ftodense cv a v) s Cause.illegal ((encode (.ftodense cv a v)).setWidth 64)) ∧
    (isFibreType s → v ≠ a ++ 0#1 → v ≠ a ++ 1#1 → s.h.vl.toNat ≤ vlmax 32 s.h.g →
      Ready s cv (s.h.member .fibre (fibRegs [a]) [] [v] []) →
      ∃ t, exec (.ftodense cv a v) s = .next t ∧ vectorFrame s t ∧ t.h.k = s.h.k ∧ t.h.fcsr = s.h.fcsr ∧
        (∀ r : BitVec 5, r ≠ v → t.h.v[r.toNat] = s.h.v[r.toNat]) ∧
        ∀ e, e < vlmax 32 s.h.g → t.h.elem 32 v e =
          if e < s.h.vl.toNat then BitVec.ofNat 64 (((pa.reverse.find? fun p => p.1 == e).map (·.2)).getD 0)
          else if s.h.tz then 0 else s.h.elem 32 v e) ∧
    (isFibreType s → Ready s cv (s.h.member .fibre [] [] [] []) →
      exec (.foccr cv a x) s = .next (ended cv (s.h.member .fibre [] [] [] []) { s with h := { s.h with
        x := regs s x ((s.h.focc[a.toNat]).setWidth 64) } }) ∧
      exec (.foccw cv d x) s = .next (ended cv (s.h.member .fibre [] [] [] []) { s with h := { s.h with
        focc := s.h.focc.set d.toNat (BitVec.ofNat 12 (min (reg s x).toNat (vlmax 32 s.h.g))),
        fcsr := s.h.fcsr ||| if vlmax 32 s.h.g < (reg s x).toNat then Flag.fovf else 0 } })) ∧
    (isFibreType s → Ready s cv { s.h.member .fibre (fibRegs [a, b]) [] [] [] with vpr := true } → s.h.vpr.getLsbD 63 = false →
      let r := (pa.zip (pairsOf s.h b)).foldl (fun acc z => ((dotStep s.h acc.1 z.1.2 z.2.2).1, acc.2 ||| (dotStep s.h acc.1 z.1.2 z.2.2).2)) (0, (0 : Flags))
      exec (.fdot cv a b x) s = .next (ended cv { s.h.member .fibre (fibRegs [a, b]) [] [] [] with vpr := true } { s with h := { s.h with
        fcsr := s.h.fcsr ||| r.2, vpr := 0, x := regs s x (accWord s.h r.1) } })))

/-- R129, R144, R145: the words that move fibres between registers and memory. -/
def Obligations.FibreMemoryWords : Prop :=
  (∀ (s : State) (cv : BitVec 1) (n : BitVec 4) (a b : BitVec 6) (side : BitVec 2),
    let addr (p : Nat) : Word := reg s a + BitVec.ofNat 64 (8 * p)
    let room := min (reg s b).toNat (vlmax 32 s.h.g)
    PairsInOrder (.fldstLd cv n a b side) s cv (s.h.member .memory [] [] (fibRegs [n]) []) room
      (fun u p =>
        match load u (addr p) 8 side.toNat with
        | .error e => .error e
        | .ok (x, t) =>
          let h := t.h.setElem 32 (n ++ 0#1) p (BitVec.ofNat 64 (x.toNat % 2 ^ 32))
          .ok { t with h := h.setElem 32 (n ++ 1#1) p (BitVec.ofNat 64 (x.toNat / 2 ^ 32)) })
      (fun t => { withOcc t n room with h := { (withOcc t n room).h with
        fcsr := t.h.fcsr ||| if vlmax 32 s.h.g < (reg s b).toNat then Flag.fovf else 0 } }) ∧
    PairsInOrder (.fldstSt cv n a side) s cv (s.h.member .memory (fibRegs [n]) [] [] []) (s.h.focc[n.toNat]).toNat
      (fun u p => store u (addr p) 8
        (BitVec.ofNat 64 ((u.h.elem 32 (n ++ 0#1) p).toNat + 2 ^ 32 * (u.h.elem 32 (n ++ 1#1) p).toNat)) side.toNat)
      (fun t => t)) ∧
  WalksLevel .fwalkIdx false ∧ WalksLevel .fwalkVals true

/-! ## Selection -/

/-- R375, R376, R377, R378: selection, loop exits and scans. That `VEXIT` and `VSCAN` give the positions from VL up to a VSTART beyond it by the tail rule
alone, where R376 and R378 also say that positions below VSTART are unchanged, is the model's choice (log 20). -/
def Obligations.SelectionWords : Prop :=
  Selects .vselMax false false ∧ Selects .vselMin true false ∧ Selects .vselMaxClr false true ∧ Selects .vselMinClr true true ∧
  Exits .vexitBefore (fun seen hit => !seen && !hit) ∧ Exits .vexitIncl (fun seen _ => !seen) ∧ Exits .vexitOnly (fun seen hit => hit && !seen) ∧
  Scans .vscanAdd (fun _ x y => x.toInt + y.toInt) false ∧ Scans .vscanAddx (fun _ x y => x.toInt + y.toInt) true ∧
  Scans .vscanMax (fun _ x y => max x.toInt y.toInt) false ∧ Scans .vscanMaxu (fun _ x y => max x.toNat y.toNat) false ∧
  (∀ (s : State) (cv : BitVec 1) (d : BitVec 5) (k : BitVec 3),
    let start := s.h.vstart.toNat
    let found := activeList s k
    (s.h.ew = 8 → s.h.lane = none → Traps (.vscanIdx cv d k) s Cause.illegal ((encode (.vscanIdx cv d k)).setWidth 64)) ∧
    (s.h.ew ≠ 8 → Ready s cv (s.h.member .select [] (gov k) [d] []) → s.h.vl.toNat ≤ vlmax s.h.ew s.h.g →
      ∃ t, exec (.vscanIdx cv d k) s = .next t ∧ vectorFrame s t ∧ t.h.k = s.h.k ∧ t.h.fcsr = s.h.fcsr ∧ dirtiesOnly s t [d.toNat] ∧
        (found ≠ [] → t.h.vdirty.getLsbD d.toNat = true) ∧
        (∀ r : BitVec 5, r ≠ d → t.h.v[r.toNat] = s.h.v[r.toNat]) ∧
        ∀ p, p < vlmax s.h.ew s.h.g → t.h.elem s.h.ew d p =
          if p < start then s.h.elem s.h.ew d p
          else if p < start + found.length then BitVec.ofNat 64 (found.getD (p - start) 0)
          else if s.h.tz then 0 else s.h.elem s.h.ew d p))

/-! ## Matrix words -/

/-- R200, R202, R254, R304, R305, R307 to R314, R316, R318: what a multiplying word that passes its checks does: the elements of its rows and columns take the
chunked sums, FCSR gains their flags, VDIRTY the tile's bit, the rest of the tile and every other register keep their values, and nothing outside the hart
changes; an accumulating word with K = 0 changes nothing at all. A word waits while a busy swatch holds back a store of the window. The matrix words complete in order, alone or with their convoy, and are counted on the queue. The model's choices:
a hart's first matrix word with C = 1 and what an undone convoy puts back (log 24), the sign of an exact zero, the bytes of scales that are checked, patterns with EXT2 or EXT3 = 0 and two tile cells at one place (log 19), one step for a
whole word (log 1). -/
def Obligations.MatrixWords : Prop :=
  ChunkLaws ∧
  (∀ (w : Insn) (u : Mul) (st : MStage) (s t : State) (ra : BitVec 512) (bs : List (BitVec 512)),
     mulBody w u st s = .ok t → matrixPat s.c u.a (fun r => patA r && offeredAt s.d.stage r) = .ok ra →
     groupPats s.c s.d.stage (PRec.blk ra) (rowGroups u st s.h) = .ok bs →
     (u.acc = true → s.h.sk = 0 → t = s) ∧
     t = { s with h := { s.h with mx := t.h.mx, vdirty := t.h.vdirty, fcsr := t.h.fcsr } } ∧
     (∀ y : BitVec 3, y ≠ u.x → t.h.mx[y.toNat] = s.h.mx[y.toNat]) ∧ dirtiesOnly s t [32 + u.x.toNat] ∧
     (let groups := (rowGroups u st s.h).zip bs
      let k := s.h.sk
      let elem (g : (Nat × Nat × Nat) × BitVec 512) (i j : Nat) : Nat × Flags :=
        let rb := g.2
        let row := rowOfA u st s.h i
        let int := fmtInt (PRec.fmt ra) && fmtInt (PRec.fmt rb) && PRec.blk ra == 0 && PRec.blk rb == 0
        let column : List MVal := (List.range k).map fun p =>
          matrixVal int (PRec.fmt rb) (if PRec.layout rb = 0 then spadCode s.c rb j p else spadCode s.c rb p j)
        tileElem k int (chunkLen ra rb) (rowValues u st s.c k int ra i row) column (scaleAt s.c ra row) (scaleAt s.c rb j)
          (if u.acc then s.h.tile u.x i j else 0)
      (∀ g ∈ groups, ∀ i j, g.1.2.1 ≤ i → i < g.1.2.1 + g.1.2.2 → j < s.h.sn → t.h.tile u.x i j = (elem g i j).1 % 2 ^ 32) ∧
      (∀ b : Nat, t.h.fcsr.getLsbD b = true ↔ s.h.fcsr.getLsbD b = true ∨
        ∃ g ∈ groups, ∃ i j, g.1.2.1 ≤ i ∧ i < g.1.2.1 + g.1.2.2 ∧ j < s.h.sn ∧ (elem g i j).2.getLsbD b = true) ∧
      (groups ≠ [] → ¬ (u.acc = true ∧ k = 0) → t.h.vdirty.getLsbD (32 + u.x.toNat) = true)) ∧
     (∀ i j, i < 64 → j < 64 → (s.h.sn ≤ j ∨ ∀ g ∈ (rowGroups u st s.h).zip bs, i < g.1.2.1 ∨ g.1.2.1 + g.1.2.2 ≤ i) →
       t.h.tile u.x i j = s.h.tile u.x i j)) ∧
  (Multiplies .mmaSet false false false false ∧ Multiplies .mmaAcc true false false false ∧
   Multiplies .mmaSetSp false true false false ∧ Multiplies .mmaAccSp true true false false ∧
   Multiplies .mmaSetGrp false false true false ∧ Multiplies .mmaAccGrp true false true false ∧
   Multiplies .mmagSet false false false true ∧ Multiplies .mmagAcc true false false true ∧
   (∀ (s : State) (cv : BitVec 1) (n x : BitVec 3) (v : BitVec 5) (a : BitVec 6) (p : BitVec 8) (row0 : BitVec 6),
     let q := closeStage s
     Stages (.mmetaMeta cv n v) s cv n.toNat (fun st => { st with metaBits := sput st.metaBits n.toNat s.h.v[v.toNat] }) ∧
     Stages (.mmetaIdx cv v) s cv 8 (fun st => { st with idx := some s.h.v[v.toNat] }) ∧
     Stages (.mmetaRows cv v) s cv 9 (fun st => { st with rows := some s.h.v[v.toNat] }) ∧
     (∃ m : BitVec 44, (∀ i, i < 44 → m.getLsbD i = ((reg s a).getLsbD i && i != 7 && i != 15)) ∧
       MatrixAlone (.mshape cv a) s cv (.ok { q with h := { q.h with mshape := m } })) ∧
     MatrixAlone (.mtileZero cv x) s cv
       (.ok { q with h := { q.h with mx := q.h.mx.set x.toNat 0, vdirty := q.h.vdirty ||| (1#40 <<< (32 + x.toNat)) } }) ∧
     MatrixAlone (.mtileLd cv x p) s cv (tileLoad (encode (.mtileLd cv x p)) x p.toNat q) ∧
     MatrixAlone (.mtileSt cv x p) s cv (tileStore (encode (.mtileSt cv x p)) x p.toNat q) ∧
     (∀ w t, tileLoad w x p.toNat s = .ok t → t = { s with h := { s.h with mx := t.h.mx, vdirty := t.h.vdirty } } ∧ dirties s t [32 + x.toNat] ∧
       ∃ r, matrixPat s.c p.toNat patT = .ok r ∧
         (∀ i j, i < s.h.sm → j < s.h.sn → t.h.tile x i j = spadCode s.c r j i % 2 ^ 32) ∧
         (∀ i j, i < 64 → j < 64 → (s.h.sm ≤ i ∨ s.h.sn ≤ j) → t.h.tile x i j = s.h.tile x i j)) ∧
     (∀ w t, tileStore w x p.toNat s = .ok t → Memory.wf s.c.spad = true → t.d = s.d ∧ t.h = { s.h with wait := t.h.wait } ∧
       ∃ r, matrixPat s.c p.toNat patT = .ok r ∧
         let off (i j : Nat) : Nat := wrapAddr true (patBit r (fun d => if d = 0 then j else if d = 1 then i else 0) 0).1
         (∀ a, (∀ i j, i < s.h.sm → j < s.h.sn → a < off i j ∨ off i j + 4 ≤ a) → Memory.get t.c.spad a = Memory.get s.c.spad a) ∧
         ∀ i j, i < s.h.sm → j < s.h.sn →
           (∀ p q, p < s.h.sm → q < s.h.sn → (p, q) ≠ (i, j) → off p q + 4 ≤ off i j ∨ off i j + 4 ≤ off p q) →
           Memory.read t.c.spad (off i j) 4 = s.h.tile x i j) ∧
     (∀ w r, tilePattern w p.toNat (fun _ => none) s = .ok r →
       (∃ i j, i < s.h.sm ∧ j < s.h.sn ∧ swBusy s.c (wrapAddr true (patBit r (fun d => if d = 0 then j else if d = 1 then i else 0) 0).1) 4 = true) →
       tileStore w x p.toNat s = .error (.wait .swatch)) ∧
     (let n := s.h.sn
      let bad := n = 0 ∨ 64 < n ∨ (0 < s.h.vl.toNat ∧ 4 * s.h.g ≤ row0.toNat + (s.h.vl.toNat - 1) / n)
      let legal := s.h.ew = 32 ∧ (s.h.fmt = Fmts.fp32 ∨ s.h.fmt = Fmts.int32)
      (¬ legal → s.h.lane = none → Traps (.mdrain cv x v row0) s Cause.illegal ((encode (.mdrain cv x v row0)).setWidth 64)) ∧
      (legal → s.h.g ≠ 0 → s.h.lane = none → cv = 1 → Traps (.mdrain cv x v row0) s Cause.convoy ((encode (.mdrain cv x v row0)).setWidth 64)) ∧
      (legal → s.h.g ≠ 0 → s.h.lane = none → cv = 0 → storesBlocked s = true → exec (.mdrain cv x v row0) s = .next (waitsFor s .swatch)) ∧
      (legal → bad → s.h.g ≠ 0 → s.h.lane = none → cv = 0 → storesBlocked s = false → exec (.mdrain cv x v row0) s =
        .next (enterTrap q Cause.matrixBounds ((encode (.mdrain cv x v row0)).setWidth 64))) ∧
      (legal → ¬ bad → s.h.g ≠ 0 → s.h.lane = none → cv = 0 → storesBlocked s = false → s.h.vl.toNat ≤ vlmax 32 s.h.g →
        ∃ h : Hart, exec (.mdrain cv x v row0) s = .next (matrixEnd 1 { q with h := h }) ∧
          h = { q.h with v := h.v, vdirty := h.vdirty, vstart := 0 } ∧ dirtiesOnly s { q with h := h } [v.toNat] ∧
          (s.h.vstart.toNat < s.h.vl.toNat → h.vdirty.getLsbD v.toNat = true) ∧
          (∀ r : BitVec 5, r ≠ v → h.v[r.toNat] = s.h.v[r.toNat]) ∧
          ∀ e, e < vlmax 32 s.h.g → h.elem 32 v e =
            if s.h.vl.toNat ≤ e then (if s.h.tz then 0 else s.h.elem 32 v e)
            else if e < s.h.vstart.toNat then s.h.elem 32 v e
            else BitVec.ofNat 64 (s.h.tile x (row0.toNat + e / n) (e % n))))) ∧
   Retries false .matrixConvoyStart (fun w => ∃ cv x a b, w ∈ [Instr.mmaSet cv x a b, .mmaAcc cv x a b, .mmaSetSp cv x a b, .mmaAccSp cv x a b,
     .mmaSetGrp cv x a b, .mmaAccGrp cv x a b, .mmagSet cv x a b, .mmagAcc cv x a b, .mtileLd cv x a, .mtileSt cv x a]))

/-! ## Data-dependent work, interrupts -/

/-- R380, R381, R382, R383, R384: `LTSPLIT` starts, resumes or passes over a region, or traps; in a thread `LTJOIN` stays, `LTYIELD` goes on and `LTID`
gives the thread's number; outside a thread they are illegal; a region whose threads have all arrived goes on after its `LTJOIN`. The scalar words run in a
thread with e0 to e31 and x32 to x63 as their registers. Whether a split with no thread clears the masks and `VPR` is open (log 9). The model's choices
(log 5): the join counts two words and a split with no thread one, the positions at and above VL are zero, a region whose first word is `LTJOIN` has no
thread. -/
def Obligations.SplitRegionWords : Prop :=
  (∀ i ∈ [Instr.add, .sub, .andR, .orR, .xorR, .sll, .srl, .sra, .slt, .sltu, .min, .max, .minu, .maxu, .andn, .absd, .mul, .hmul, .hmulu, .hmulsu, .div, .divu,
      .rem, .remu, .addw, .subw, .sllw, .srlw, .sraw, .mulw, .divw, .divuw, .remw, .remuw], ThreadOp i) ∧
  (∀ i ∈ [Instr.clz, .ctz, .popc, .bswap], ThreadOp fun d a _ => i d a) ∧
  (∀ i ∈ [Instr.addi, .addiw, .andi, .ori, .xori, .slti, .sltiu], ∀ m, ThreadOp fun d a _ => i d a m) ∧
  (∀ i ∈ [Instr.slli, .srli, .srai], ∀ m, ThreadOp fun d a _ => i d a m) ∧ (∀ i ∈ [Instr.slliw, .srliw, .sraiw], ∀ m, ThreadOp fun d a _ => i d a m) ∧
  (∀ m, ThreadOp (fun d _ _ => .lui d m) ∧ ThreadOp fun d _ _ => .auipc d m) ∧
  (∀ p, (∀ i ∈ [Instr.fadd, .fsub, .fmul, .fdiv, .fmin, .fmax, .fsgnj, .fsgnjn, .fsgnjx, .feq, .flt, .fle, .fmadd, .fmsub, .fnmadd, .fnmsub],
      ThreadOp fun d a b => i d a b p) ∧ ThreadOp (fun d a _ => .fsqrt d a p) ∧ ThreadOp fun d a _ => .fclass d a p) ∧
  (∀ r t p q, ThreadOp (fun d a _ => .fcvtif d a r t p) ∧ ThreadOp (fun d a _ => .fcvtfi d a r t p) ∧ ThreadOp fun d a _ => .fcvtff d a r q p) ∧
  (ThreadLoad .lb 1 (fun v => (v.setWidth 8).signExtend 64) ∧ ThreadLoad .lh 2 (fun v => (v.setWidth 16).signExtend 64) ∧
   ThreadLoad .lw 4 (fun v => (v.setWidth 32).signExtend 64) ∧ ThreadLoad .ld 8 (fun v => v) ∧ ThreadLoad .lbu 1 (fun v => v) ∧
   ThreadLoad .lhu 2 (fun v => v) ∧ ThreadLoad .lwu 4 (fun v => v) ∧
   ThreadStore .sb 1 ∧ ThreadStore .sh 2 ∧ ThreadStore .sw 4 ∧ ThreadStore .sd 8) ∧
  (ThreadBranch .beq (fun x y => x = y) ∧ ThreadBranch .bne (fun x y => x ≠ y) ∧ ThreadBranch .blt (fun x y => x.toInt < y.toInt) ∧
   ThreadBranch .bge (fun x y => y.toInt ≤ x.toInt) ∧ ThreadBranch .bltu (fun x y => x.toNat < y.toNat) ∧ ThreadBranch .bgeu (fun x y => y.toNat ≤ x.toNat)) ∧
  (∀ (s : State) (t : Nat) (p : Option (BitVec 6 × Word)) (d a : BitVec 6) (o : BitVec 18) (m : BitVec 12), s.h.lane = some (t, p) → 32 ≤ s.h.ew →
    d.toNat < 32 →
    let linked : State := { s with h := s.h.setElem s.h.ew (d.setWidth 5) t (s.h.pc + 4) }
    let target := threadReg s t a + m.signExtend 64
    exec (.jal d o) s = .next (jumped linked (wordsAhead s o.toInt)) ∧
    (target.toNat % 4 = 0 → exec (.jalr d a m) s = .next (jumped linked target)) ∧
    (target.toNat % 4 ≠ 0 → exec (.jalr d a m) s = .next (threadTraps s t Cause.misaligned target))) ∧
  (∀ (h : Hart) (w : Nat) (r q : BitVec 5) (e i : Nat) (x : Word), w = 32 ∨ w = 64 → e < vlmax w h.g → i < vlmax w h.g →
    let u := h.setElem w r e x
    u.elem w r e = x &&& BitVec.ofNat 64 (2 ^ w - 1) ∧ ((q, i) ≠ (r, e) → u.elem w q i = h.elem w q i) ∧
    (∀ b, b < 40 → u.vdirty.getLsbD b = (h.vdirty.getLsbD b || decide (b = r.toNat)))) ∧
  ThreadWord runWord ∧ OneThread runWord ∧
  (∀ (s : State) (m : BitVec 3), s.h.lane = none →
    let i := Instr.ltsplit m
    (s.h.ew < 32 ∨ s.h.g = 0 → Traps i s Cause.illegal ((encode i).setWidth 64)) ∧
    (32 ≤ s.h.ew → s.h.g ≠ 0 →
      (∀ c v, copyRegion s (s.h.pc + 4) 256 = .error (.trap c v) → Traps i s c v) ∧
      (∀ t, copyRegion s (s.h.pc + 4) 256 = .ok (none, t) → exec i s = .next (enterTrap t Cause.laneBuffer s.h.pc)) ∧
      (∀ l t, copyRegion s (s.h.pc + 4) 256 = .ok (some l, t) →
        let join := l.length - 1
        let started (k : Vector (BitVec 2048) 8) : State := { t with h := { t.h with
          k := k, region := some { base := s.h.pc, words := l, join := join, yielded := [], last := [] }, wait := none } }
        let part (e : Nat) : Prop := inRange s e ∧ isActive s m e
        (s.h.vpr.getLsbD 63 = true → exec i s = .next (started s.h.k)) ∧
        (s.h.vpr.getLsbD 63 = false → s.h.vl.toNat ≤ 2048 → 0 < join → (∃ e, part e) →
          ∃ k, exec i s = .next (started k) ∧
            ∀ (j : Fin 8) (e : Nat), (k[j]).getLsbD e = true ↔ e < s.h.vl.toNat ∧ ¬ part e ∧ join.testBit j = true) ∧
        (s.h.vpr.getLsbD 63 = false → s.h.vl.toNat ≤ 2048 → join = 0 ∨ (∀ e, ¬ part e) →
          ∃ k vpr, (k = s.h.k ∧ vpr = s.h.vpr ∨ k = Vector.replicate 8 0 ∧ vpr = 0) ∧
            exec i s = .next (jumped { t with h := { t.h with k := k, vpr := vpr }, free := t.free + 1 }
              (s.h.pc + BitVec.ofNat 64 (4 * join + 8))))))) ∧
  (∀ (s : State) (d : BitVec 6), s.h.lane = none →
    ∀ i ∈ [Instr.ltjoin, .ltyield, .ltid d], Traps i s Cause.illegal ((encode i).setWidth 64)) ∧
  (∀ (s : State) (t : Nat) (p : Option (BitVec 6 × Word)) (d : BitVec 6) (m : BitVec 3), s.h.lane = some (t, p) →
    let noted (i : Instr) : State := { s with h := { s.h with lane := some (t, some (Cause.illegal, (encode i).setWidth 64)) } }
    exec .ltjoin s = .next s ∧
    exec .ltyield s = .next (passed s) ∧
    (d.toNat < 32 → exec (.ltid d) s = .next (passed { s with h := s.h.setElem s.h.ew (d.setWidth 5) t (BitVec.ofNat 64 t) })) ∧
    (32 ≤ d.toNat → exec (.ltid d) s = .next (noted (.ltid d))) ∧
    exec (.ltsplit m) s = .next (noted (.ltsplit m))) ∧
  (∀ r : Region,
    EventAtWhen .splitRegionJoin (fun s => s.h.region = some r ∧ ∀ e, e < s.h.vl.toNat → r.join ≤ threadAt s.h e)
      (fun s => { s with h := { s.h with k := Vector.replicate 8 0, vpr := 0, pc := r.base + BitVec.ofNat 64 (4 * r.join + 8),
                                         instret := s.h.instret + 2, region := none, lane := none, wait := none } }) ∧
    EventAtWhen .splitRegionJoin (fun s => s.h.region = some r ∧ ∃ e, e < s.h.vl.toNat ∧ threadAt s.h e < r.join) (fun s => s)) ∧
  EventAtWhen .splitRegionJoin (fun s => s.h.region = none) (fun s => s)

/-- R43, R152, R154, R384, R409: an interrupt that can be taken enters the handler at the word at the pc, at the region's `LTSPLIT` with its place in `VPR`,
or at the first word of an open matrix convoy, which is undone; it may enter at a later stop point of the running word; otherwise there is no effect. A unit
that a cancellation covers is stopped so too. The model's choices: which point the event names (log 31), what an undone convoy gives back (log 24), that
nothing of the running word comes before an interrupt while a convoy is open (log 24), that a stopped `WFI` completes afterwards (log 28). -/
def Obligations.InterruptEntry : Prop :=
  (∀ p, EventAtWhen (fun h => .interruptEntry h 0) (fun s => s.h.cancelled = false ∧ mayTake s ∧ firstPending s.h = some p ∧ atWord s)
    (fun s => enterTrap s p.1 p.2)) ∧
  (∀ p, EventAtWhen (fun h => .interruptEntry h 0)
    (fun s => s.h.cancelled = false ∧ mayTake s ∧ firstPending s.h = some p ∧ s.h.region = none ∧ s.h.mstage.isOpen = false ∧ s.h.wait = some .wfi)
    (fun s => enterTrap { s with h := { s.h with woken := true } } p.1 p.2)) ∧
  (∀ p r, EventAtWhen (fun h => .interruptEntry h 0)
    (fun s => s.h.cancelled = false ∧ mayTake s ∧ firstPending s.h = some p ∧ s.h.region = some r ∧ s.h.wait ≠ some .wfi)
    (fun s => enterTrap { s with h := { s.h with
      vpr := BitVec.ofNat 64 (2 ^ 63 + r.join * 2 ^ 32 + 0xFFFF), vstart := 0, owed := [], region := none, lane := none } } p.1 p.2)) ∧
  (∀ p u, EventAtWhen (fun h => .interruptEntry h 0)
    (fun s => s.h.cancelled = false ∧ mayTake s ∧ firstPending s.h = some p ∧ s.h.region = none ∧ s.h.wait ≠ some .wfi ∧ s.h.mstage.isOpen = true ∧
      sfind s.undo s.hid.toNat = some u)
    (fun s => enterTrap { s with undo := sdel s.undo s.hid.toNat, h := { s.h with
      pc := u.pc, x := u.x, v := u.v, k := u.k, mx := u.mx, smm := u.smm, focc := u.focc, vl := u.vl, vtype := u.vtype, vstart := u.vstart,
      vpr := u.vpr, vdirty := u.vdirty, fcsr := u.fcsr, mshape := u.mshape, instret := u.instret, vconvoy := u.vconvoy, resumed := u.resumed,
      owed := u.owed, gs := u.gs, mstage := { MStage.empty with chain := u.mstage.chain } } } p.1 p.2)) ∧
  (∀ p (n : Nat), EventAtWhen (fun h => .interruptEntry h (n + 1)) (fun s => s.h.cancelled = false ∧ mayTake s ∧ firstPending s.h = some p)
    (fun s => { s with h := { s.h with stop := some n } })) ∧
  (∀ n, EventAtWhen (fun h => .interruptEntry h n)
    (fun s => s.h.live = false ∨ s.h.halted = true ∨ s.h.cancelled = false ∧ (¬ mayTake s ∨ firstPending s.h = none)) (fun s => s)) ∧
  EventAtWhen (fun h => .interruptEntry h 0) (fun s => s.h.live = true ∧ s.h.halted = false ∧ s.h.cancelled = true)
    (fun s => { s with h := { s.h with stop := none } }) ∧
  (∀ n, EventAtWhen (fun h => .interruptEntry h (n + 1)) (fun s => s.h.live = true ∧ s.h.halted = false ∧ s.h.cancelled = true)
    (fun s => { s with h := { s.h with stop := some n } })) ∧
  EventAtWhen .timerExpiry (fun s => ∃ n, s.h.timerAt = some n ∧ n ≤ s.d.cycle.toNat)
    (fun s => { s with h := { s.h with timerAt := none, tpend := true } }) ∧
  EventAtWhen .timerExpiry (fun s => ∀ n, s.h.timerAt = some n → s.d.cycle.toNat < n) (fun s => s)

/-- R164, R165, R166, R167: the save area. `SUPV.csave` stores the fixed part, the slices of dirty vector registers and the rows of dirty matrix tiles,
each at its offset, then releases at package scope; `SUPV.crest` acquires, takes the saved grant, restores every field and of `STATUS` only PPRV and PIE,
and zeroes the registers saved clean; it waits for lane groups that are not free, and goes on when they are. Which free groups it takes is open (log 11).
The model's choices (log 37): a fault in `SUPV.csave` keeps the words already stored, one in `SUPV.crest` the acquire alone, and a saved RM of 5, 6 or 7
leaves RM as it was. -/
def Obligations.ContextSaveAndRestore : Prop :=
  (∀ h : Hart,
    (fixedPart h).map (·.1) = (List.range 512).map (fun i => 8 * i) ∧
    (0, 0) ∈ fixedPart h ∧
    (∀ r : Fin 64, r ≠ 0 → (8 * r.val, h.x[r]) ∈ fixedPart h) ∧
    (∀ p ∈ [(0x200, h.epc), (0x208, h.cause.setWidth 64), (0x210, h.tval), (0x218, h.status), (0x220, h.vl.setWidth 64), (0x228, h.vtype.setWidth 64),
        (0x230, h.vstart.setWidth 64), (0x238, h.vpr), (0x240, h.vdirty.setWidth 64), (0x248, h.fcsr.setWidth 64), (0x250, h.mshape.setWidth 64),
        (0x258, latWord h), (0x2E0, h.jaddr), (0x2E8, 0), (0x2F0, 0), (0x2F8, 0)], p ∈ fixedPart h) ∧
    (∀ i : Fin 16, (0x260 + 8 * i.val, (h.focc[i]).setWidth 64) ∈ fixedPart h) ∧
    (∀ (i : Fin 8) (j : Nat), j < 32 → (0x300 + 256 * i.val + 8 * j, (h.k[i]).extractLsb' (64 * j) 64) ∈ fixedPart h) ∧
    (∀ j, j < 32 → (0xB00 + 8 * j, h.smm.extractLsb' (64 * j) 64) ∈ fixedPart h ∧ (0xC00 + 8 * j, h.jbits.extractLsb' (64 * j) 64) ∈ fixedPart h) ∧
    (∀ j, j < 96 → (0xD00 + 8 * j, 0) ∈ fixedPart h) ∧
    (∀ p, p ∈ dirtyPart h ↔
      (∃ (i : Fin 32) (j : Nat), h.vdirty.getLsbD i = true ∧ j < 64 * h.g ∧ p = (0x1000 + 8192 * i.val + 8 * j, (h.v[i]).extractLsb' (64 * j) 64)) ∨
      (∃ (i : Fin 8) (j : Nat), h.vdirty.getLsbD (32 + i) = true ∧ j < 32 * (4 * h.g) ∧
        p = (0x41000 + 16384 * i.val + 8 * j, (h.mx[i]).extractLsb' (64 * j) 64)))) ∧
  (∀ s : State, s.h.lane = none →
    (s.h.prv = false → Traps .supvCsave s Cause.illegal ((encode .supvCsave).setWidth 64) ∧
      Traps .supvCrest s Cause.illegal ((encode .supvCrest).setWidth 64)) ∧
    (s.h.prv = true → ∀ t,
      (storeAll s.h.carea s (fixedPart s.h ++ dirtyPart s.h) = (t, none) →
        exec .supvCsave s = .next (passed { t with d := Machine.release t.d (coreOf t.hid) 6, h := { t.h with csaved := true } })) ∧
      (∀ c v, storeAll s.h.carea s (fixedPart s.h ++ dirtyPart s.h) = (t, some (.trap c v)) → exec .supvCsave s = .next (enterTrap t c v)) ∧
      (∀ w, storeAll s.h.carea s (fixedPart s.h ++ dirtyPart s.h) = (t, some (.wait w)) →
        exec .supvCsave s = .next { t with h := { t.h with wait := some w } })) ∧
    (s.h.prv = true →
      let s1 := acquired s 6
      let base := s.h.carea
      (∀ c v, areaBits 64 s1 base 0x258 1 = .error (.trap c v) → exec .supvCrest s = .next (enterTrap s1 c v)) ∧
      (∀ lat s2, areaBits 64 s1 base 0x258 1 = .ok (lat, s2) →
        let want := lat.toNat / 2 ^ 16 % 32
        let free := freeGroups s2 (coreOf s2.hid) (onB s2.hid)
        (s2.h.g + free.length < want →
          exec .supvCrest s = .next { s1 with h := { s1.h with wait := some (.crest (want - s2.h.g)) } }) ∧
        (want ≤ s2.h.g + free.length →
          ∃ m : BitVec 16,
            (want ≤ s2.h.g → groupsOf m = (groupsOf s2.h.gmap).take want) ∧
            (s2.h.g < want → (groupsOf m).length = want ∧ (∀ q, s2.h.gmap.getLsbD q = true → m.getLsbD q = true) ∧
              ∀ q, m.getLsbD q = true → s2.h.gmap.getLsbD q = true ∨ q ∈ free) ∧
            ∀ a s3 vs s4 ms s5,
              areaBits 32768 { s2 with h := { s2.h with gmap := m } } base 0 512 = .ok (a, s3) →
              areaRegs 65536 s3 base 0x1000 8192 (64 * want) (fun i => (areaWord a 0x240).getLsbD i) (List.range 32) = .ok (vs, s4) →
              areaRegs 131072 s4 base 0x41000 16384 (128 * want) (fun i => (areaWord a 0x240).getLsbD (32 + i)) (List.range 8) = .ok (ms, s5) →
              let w := areaWord a
              ∃ h : Hart,
                exec .supvCrest s = .next (passed { s5 with h := h }) ∧
                h = { s3.h with
                  x := h.x, epc := w 0x200 &&& ~~~3#64, cause := (w 0x208).setWidth 6, tval := w 0x210, pprv := (w 0x218).getLsbD 2,
                  pie := (w 0x218).getLsbD 1, vl := (w 0x220).setWidth 12, vtype := (w 0x228).setWidth 12, vstart := (w 0x230).setWidth 11,
                  vpr := w 0x238, vdirty := (w 0x240).setWidth 40, fcsr := h.fcsr, mshape := h.mshape,
                  lgmin := (w 0x258).extractLsb' 0 5, lgmax := (w 0x258).extractLsb' 8 5, focc := h.focc, jaddr := w 0x2E0, k := h.k,
                  smm := a.extractLsb' (8 * 0xB00) 2048, jbits := a.extractLsb' (8 * 0xC00) 2048, v := h.v, mx := h.mx, csaved := false } ∧
                h.x[0] = 0 ∧ (∀ r : Fin 64, r ≠ 0 → h.x[r] = w (8 * r.val)) ∧
                (∀ i, i < 44 → h.mshape.getLsbD i = ((w 0x250).getLsbD i && i != 7 && i != 15)) ∧
                h.fcsr.toNat / 8 = (w 0x248).toNat / 8 % 2 ^ 11 ∧
                h.fcsr.toNat % 8 = (if (w 0x248).toNat % 8 < 5 then (w 0x248).toNat % 8 else s3.h.fcsr.toNat % 8) ∧
                (∀ i : Fin 16, h.focc[i] = (w (0x260 + 8 * i.val)).setWidth 12) ∧
                (∀ i : Fin 8, h.k[i] = a.extractLsb' (8 * (0x300 + 256 * i.val)) 2048) ∧
                (∀ i : Fin 32, h.v[i] = vs.getD i 0 ∧ (h.vdirty.getLsbD i = false → h.v[i] = 0)) ∧
                (∀ i : Fin 8, h.mx[i] = ms.getD i 0 ∧ (h.vdirty.getLsbD (32 + i) = false → h.mx[i] = 0)))))) ∧
  (∀ (s : State) (hid : BitVec 11) (n : Nat), (focus s hid).h.wait = some (.crest n) → (focus s hid).h.prv = true →
    ∃ t, exec .supvCrest (focus s hid) = .next t ∧ exec (.crestGrant hid) s = .next (focus t s.hid)) ∧
  EventAtWhen .crestGrant (fun s => ∀ n, s.h.wait ≠ some (.crest n)) (fun s => s)

/-- R161, R174, R423, R424, R437: the other `SUPV` words in supervisor mode, and their trap in user mode. `SUPV.tlbinv` waits while the window of a hart holds
a store that an entry to be dropped translated. A quiesced address space stops each transfer at sector boundaries: that `SUPV.quiesce` lands, in its own step,
the rest of each sector of which the transfer has landed something and no more, and counts the transfers still in flight after it, is the model's choice
(log 14). An accepted routine extends M3 by its SHA-256 digest. The model's choices (log 15): the image is a 32-byte header and as many
8-byte words behind it as an open constant gives that header, it is one access at the header's address, and the routine's number is x[b][4:0]. -/
def Obligations.SupervisorWords : Prop :=
  ∀ (s : State) (d a b : BitVec 6), s.h.lane = none →
    let v := reg s a
    let timer (n : BitVec 32) : Option Nat := if n = 0 then none else some (s.d.cycle.toNat + n.toNat)
    (s.h.prv = false →
      ∀ i ∈ [Instr.supvCarea a, .supvTack, .supvTset a, .supvEack a, .supvPack, .supvTlbinv a b, .supvQuiesce d a, .supvResume a,
        .supvReplay a b, .supvRtn d a b, .supvSvch a b], Traps i s Cause.illegal ((encode i).setWidth 64)) ∧
    (s.h.prv = true →
      (v.toNat % 4096 = 0 → exec (.supvCarea a) s = .next (passed { s with h := { s.h with carea := v } })) ∧
      (v.toNat % 4096 ≠ 0 → Traps (.supvCarea a) s Cause.misaligned v) ∧
      exec .supvTack s = .next (passed { s with h := { s.h with tpend := false, timerAt := timer s.h.timerInt } }) ∧
      (∀ n : BitVec 32, n = v.setWidth 32 → exec (.supvTset a) s = .next (passed { s with h := { s.h with
        timerInt := n, timerAt := timer n, tpend := if n = 0 then false else s.h.tpend } })) ∧
      exec (.supvEack a) s = .next (passed { s with h := { s.h with ext := s.h.ext.filter fun n => decide (n ≠ v.toNat) } }) ∧
      exec .supvPack s = .next (passed { s with h := { s.h with ppend := false } }) ∧
      (v.toNat / 2 ^ 14 % 2 ^ 49 ≠ 0 → Traps (.supvTlbinv a b) s Cause.illegal ((encode (.supvTlbinv a b)).setWidth 64)) ∧
      (v.toNat / 2 ^ 14 % 2 ^ 49 = 0 →
        let dropped (e : TlbEntry) : Prop := v.getLsbD 63 = true ∨ e.asid = some (v.setWidth 14) ∧
          ((reg s b).getLsbD 0 = true ∨ (e.va ≤ (reg s b).toNat % 2 ^ 56 ∧ (reg s b).toNat % 2 ^ 56 < e.va + e.size))
        let stale (h : Hart) : Prop := ∃ p ∈ h.mstage.stores, (∃ pa leaf, p.place = .mem pa leaf) ∧
          ∃ e ∈ s.d.tlb, dropped e ∧ (e.asid = none ∨ e.asid = some h.asid) ∧ e.va ≤ p.va.toNat % 2 ^ 56 ∧ p.va.toNat % 2 ^ 56 < e.va + e.size
        let open' : Prop := stale s.h ∨ ∃ e ∈ s.parked, stale e.2
        (open' → exec (.supvTlbinv a b) s = .next (waitsFor s .invalidation)) ∧
        (¬ open' → ∃ l, exec (.supvTlbinv a b) s = .next (passed { s with d := { s.d with tlb := l } }) ∧
          l.Sublist s.d.tlb ∧ ∀ e, e ∈ l ↔ e ∈ s.d.tlb ∧ ¬ dropped e)) ∧
      (let t := sectorsEnded s (v.toNat % 2 ^ 14)
       ∃ q, exec (.supvQuiesce d a) s = .next (wrote { t with d := { t.d with quiet := q } } d
          (BitVec.ofNat 64 (flyingOf t.c (v.toNat % 2 ^ 14) + (t.cores.map fun e => flyingOf e.2 (v.toNat % 2 ^ 14)).sum))) ∧
        ∀ n, n ∈ q ↔ n = v.toNat % 2 ^ 14 ∨ n ∈ t.d.quiet) ∧
      (∀ (k : Cmd) (n i : Nat),
        let piece (n i : Nat) : Prop := n < k.expected ∧ if k.kind = .rows then i < rowLen k.dst else i = 0
        let done (n i : Nat) : Prop := n < k.landed ∨ n ∈ k.ahead ∨ (n, i) ∈ k.part
        (n, i) ∈ toBoundary k ↔ piece n i ∧ ¬ done n i ∧ ∃ m j, piece m j ∧ done m j ∧ sectorOf k m j = sectorOf k n i) ∧
      (∃ q, exec (.supvResume a) s = .next (passed { s with d := { s.d with quiet := q } }) ∧
        ∀ n, n ∈ q ↔ n ∈ s.d.quiet ∧ n ≠ v.toNat % 2 ^ 14) ∧
      (let core := v.toNat / 16 % 256
       let ch := v.toNat % 16
       (v.toNat / 4096 = 2 ^ 44 → ∀ k, findCmd (s.core core) ch (reg s b).toNat = some k → k.at' = .suspended →
         exec (.supvReplay a b) s = .next (passed (s.setCore core (editCmd (s.core core) ch k.id fun y => { y with at' := .flying })))) ∧
       ((v.toNat / 4096 ≠ 2 ^ 44 ∨ ∀ k, findCmd (s.core core) ch (reg s b).toNat = some k → k.at' ≠ .suspended) →
         Traps (.supvReplay a b) s Cause.access (reg s b))) ∧
      (let n : BitVec 5 := (reg s b).setWidth 5
       let busy : Prop := ∃ k ∈ s.c.chans.toList, ∃ x ∈ k.cmds, x.kind = .bodkin ∧ x.at' ≠ .queued ∧ x.rtn.1 = n
       (busy → exec (.supvRtn d a b) s = .next { s with h := { s.h with wait := some .routine } }) ∧
       (¬ busy →
         (∀ c x, loadRecord s v 4 = .error (.trap c x) → Traps (.supvRtn d a b) s c x) ∧
         (∀ r t, loadRecord s v 4 = .ok (r, t) →
           let hdr := BitVec.ofNat 256 r
           let size := Config.routineWords hdr
           let good : Prop := 256 ≤ hdr.toNat / 2 ^ 64 % 2 ^ 32 ∧ hdr.toNat / 2 ^ 64 % 2 ^ 32 ≤ 16384 ∧ hdr.toNat / 2 ^ 96 % 2 ^ 32 ≤ 256 ∧ hdr.toNat / 2 ^ 160 = 0
           (∀ c x, loadWords t (v + 32) 0 size = .error (.trap c x) → Traps (.supvRtn d a b) s c v) ∧
           (∀ m u, loadWords t (v + 32) 0 size = .ok (m, u) →
             let image := hdr.toNat + 2 ^ 256 * m
             let extended := sha256 (u.d.meas[3].toNat + 2 ^ 256 * (sha256 image (32 + 8 * size)).toNat) 64
             (¬ good → exec (.supvRtn d a b) s = .next (wrote u d 1)) ∧
             (good → exec (.supvRtn d a b) s = .next (wrote { u with
               c := { u.c with rtns := sput u.c.rtns n.toNat { header := hdr, image := image } },
               d := { u.d with meas := u.d.meas.set 3 extended } } d 0)))))) ∧
      exec (.supvSvch a b) s = .next (passed { s with d := { s.d with
        svc := sset s.d.svc (v.toNat % 2 ^ 14) ((reg s b).setWidth 11) 0 } }))

/-- R14, R328, R329, R330, R425: `SEAM` reads one word of the entry of a level, and never traps. Of a part that is not healthy the costs, and of a pod the
members and the health, are the part's (log 9); a level is healthy where all of its cores are in service and its typical costs within its maxima. -/
def Obligations.SeamWords : Prop :=
  ∀ (s : State) (d : BitVec 6), s.h.lane = none →
    let healthy : Prop := s.d.stage = 3 ∧ s.d.layersOut = 0
    let own (l : Nat) : Nat := match l with
      | 0 => (groupsOf s.h.gmap).headD 0xFFFF
      | 1 => s.hid.toNat / 8 % 4
      | 2 => s.hid.toNat / 32 % 4
      | 3 => s.hid.toNat / 128 % 2
      | 4 => s.hid.toNat / 256 % 4
      | 5 => s.hid.toNat / 1024
      | _ => s.d.pkg.toNat
    (∀ (l : BitVec 3) (w : BitVec 2), ∃ v,
      exec (.seamRead l w d) s = .next (wrote s d v) ∧
      (w = 0 → v.toNat / 2 ^ 48 % 2 ^ 15 = 0 ∧ v.toNat / 2 ^ 32 % 2 ^ 16 = own l.toNat) ∧
      (w = 0 → healthy → l ≠ 7 → v.getLsbD 63 = true ∧ v.toNat % 2 ^ 32 = [8, 16, 4, 4, 2, 4, 2].getD l.toNat 0) ∧
      (w = 0 → s.d.inPod = false → l = 7 → v.toNat % 2 ^ 32 = 1) ∧
      (w = 0 → ¬ healthy → l ≠ 7 → (v.getLsbD 63 = true ↔
        (∀ k, k < 256 → instanceOf l.toNat k = instanceOf l.toNat (coreOf s.hid) → coreInService s.d k = true) ∧
        ∀ i ∈ [1, 2], (Config.seamCost s.d.gen l.toNat i).toNat % 2 ^ 32 ≤ (Config.seamCost s.d.gen l.toNat i).toNat / 2 ^ 32)) ∧
      (w ≠ 0 → healthy →
        let p := ([[(0, 0), (0, 0), (3850000, 4)], [(16, 4), (8, 2), (3850000, 4)], [(1100, 24), (40, 16), (481000, 14)], [(1200, 90), (40, 16), (240000, 40)],
          [(1300, 160), (40, 16), (180000, 52)], [(1500, 320), (40, 16), (150000, 64)], [(2000, 700), (40, 16), (144000, 70)],
          [(40000, 6000), (40, 16), (10500, 6000)]].getD l.toNat []).getD (w.toNat - 1) (0, 0)
        v.toNat = p.1 * 2 ^ 32 + p.2)) ∧
    ∃ v, exec (.seamHealth d) s = .next (wrote s d v) ∧ v.toNat / 2 ^ 48 = s.d.gen.toNat ∧ v.toNat / 2 ^ 8 % 2 ^ 40 = 0 ∧
      (healthy → s.d.inPod = false → v.toNat % 2 ^ 8 = 255)

/-! ## Timelines, barriers, locks -/

/-- R241, R254, R263, R264, R265, R266, R295, R297, R299: the timeline, barrier and lock words. Counter 0 is none; an id that names no live counter traps; a signal
takes the maximum; a wait passes, with its acquire, once the counter has reached its value, also where the counter then ended with its unit. `BINIT` writes an object; an arrival counts down REM and adds to
PEND, and ends the phase where both reach 0; a wait passes, with its acquire, at another phase, or once it has seen one; a bad offset or a poisoned row traps.
`LOCK` and `UNLOCK` of the line that holds an address, with their status and the limits of R241; a word that waits for a swatch stops waiting when its wait ends.
How a signal at chiplet scope or wider orders what another layer's hart reads after its wait (R339, R340) is the model's clock of the counter (log 43).
That locks are kept by hart, and that `LOCK` answers 1 where the set offers no victim, are the model's choices too (log 41; R241 gives that case no status). -/
def Obligations.SynchronisationObjects : Prop :=
  ((∀ (s : State) (n : BitVec 48) (i : BitVec 16) (core : BitVec 8) (ch : BitVec 4) (b : Bool) (u : BitVec 32),
     (i ≠ 0 → counterOf s n (i.setWidth 64) = some (s.d.ctr i.toNat)) ∧
     counterOf s n (0x01#8 ++ 0#44 ++ core ++ ch) =
       some (BitVec.ofNat 64 (((s.core core.toNat).chans[ch.toNat]).cmds.foldl (fun m c => min m (c.id - 1)) (((s.core core.toNat).chans[ch.toNat]).next - 1))) ∧
     counterOf s n (0x02#8 ++ 0#44 ++ core ++ 0#3 ++ BitVec.ofBool b) = some (if b then (s.core core.toNat).mqB else (s.core core.toNat).mqA) ∧
     (s.hid ∈ s.liveHarts → s.h.node = n → s.h.unit = u →
       (∀ i ∈ s.liveHarts, i ≠ s.hid → ¬ ((s.hart i).node = n ∧ (s.hart i).unit = u)) → counterOf s n (0x03#8 ++ 0#24 ++ u) = some s.h.gs) ∧
     (∀ id : Word, 4 ≤ id.toNat / 2 ^ 56 → counterOf s n id = none)) ∧
   (∀ (s : State) (sf : BitVec 3) (d a b : BitVec 6), s.h.lane = none →
     let id := reg s a
     let n := reg s b
     (id = 0 → exec (.waittl sf a b) s = .next (passed s) ∧ exec (.sigtl sf a b) s = .next (passed s) ∧
       exec (.rdtl d a) s = .next (wrote s d 0) ∧ exec (.trytl sf d a b) s = .next (wrote s d 1)) ∧
     (id ≠ 0 → counterOf s s.h.node id = none →
       (∀ i ∈ [Instr.sigtl sf a b, .rdtl d a, .trytl sf d a b], Traps i s Cause.access id) ∧
       (¬ hasPassed s → Traps (.waittl sf a b) s Cause.access id)) ∧
     (id ≠ 0 → hasPassed s → exec (.waittl sf a b) s = .next (passed (counterPassed s sf id))) ∧
     (2 ^ 16 ≤ id.toNat → Traps (.sigtl sf a b) s Cause.access id) ∧
     (id ≠ 0 → id.toNat < 2 ^ 16 →
       ∃ t, exec (.sigtl sf a b) s = .next (passed t) ∧
         t = { released s sf with d := { (released s sf).d with ctrs := t.d.ctrs, cclock := t.d.cclock } } ∧
         (sf.toNat < 4 → t.d.cclock = (released s sf).d.cclock) ∧
         (4 ≤ sf.toNat → t.d.cclock = sput (released s sf).d.cclock id.toNat
           (clockMerge ((released s sf).d.ctrClock id.toNat) ((released s sf).d.lclock[lay (layerOf s.hid)]))) ∧
         (Sparse.wf 0 s.d.ctrs = true → ∀ j, t.d.ctr j =
           if j = id.toNat then BitVec.ofNat 64 (max (s.d.ctr j).toNat n.toNat) else s.d.ctr j)) ∧
     (∀ v, id ≠ 0 → counterOf s s.h.node id = some v →
       exec (.rdtl d a) s = .next (wrote s d v) ∧
       (n.toNat ≤ v.toNat → exec (.waittl sf a b) s = .next (passed (counterPassed s sf id)) ∧
         exec (.trytl sf d a b) s = .next (wrote (counterPassed s sf id) d 1)) ∧
       (v.toNat < n.toNat → (¬ hasPassed s → exec (.waittl sf a b) s = .next (waitsFor s (waitFor s id n))) ∧
         exec (.trytl sf d a b) s = .next (wrote s d 0)))) ∧
   (∀ (gone h : Hart) (l : BitVec 48) (u : BitVec 32) (n : Word), h.wait = some (.unitCounter l u n false) →
     let reached : Prop := l = gone.node ∧ u = gone.unit ∧ n.toNat ≤ gone.gs.toNat
     (reached → noteWaiter gone h = { h with wait := some (.unitCounter l u n true) }) ∧ (¬ reached → noteWaiter gone h = h)) ∧
   Retries true .waittlPass (fun w => ∃ sf a b, w = .waittl sf a b)) ∧
  ((∀ (s : State) (sf : BitVec 3) (d a b : BitVec 6), s.h.lane = none →
     let x := reg s a
     let o := x.toNat % 2 ^ 20
     let w := objectAt s x
     let seen : Prop := ∃ o' p', s.h.wait = some (.barrier o' p' true)
     (o % 8 ≠ 0 → Traps (.binit sf a b) s Cause.misaligned x ∧ Traps (.barrive sf d a b) s Cause.misaligned x ∧
       Traps (.btry sf d a b) s Cause.misaligned x ∧ (¬ seen → Traps (.bwait sf a b) s Cause.misaligned x)) ∧
     (o % 8 = 0 → 0xC0000 ≤ o → Traps (.binit sf a b) s Cause.access x ∧ Traps (.barrive sf d a b) s Cause.access x ∧
       Traps (.btry sf d a b) s Cause.access x ∧ (¬ seen → Traps (.bwait sf a b) s Cause.access x)) ∧
     (isObject x → spadPoisoned s.c o 8 = true → Traps (.barrive sf d a b) s Cause.access x ∧
       Traps (.btry sf d a b) s Cause.access x ∧ (¬ seen → Traps (.bwait sf a b) s Cause.access x)) ∧
     (isObject x → exec (.binit sf a b) s = .next (passed (spadWrite (released s sf) o 8
       (barWord false 0 (min (reg s b).toNat 1048575) (min (reg s b).toNat 1048575)).toNat))) ∧
     (isObject x → spadPoisoned s.c o 8 = false →
       (remOf w = 0 → exec (.barrive sf d a b) s = .next (wrote (spadWrite (released s sf) o 8 w.toNat) d (if w.getLsbD 63 then 3 else 2))) ∧
       (remOf w ≠ 0 → exec (.barrive sf d a b) s = .next (wrote (spadWrite (released s sf) o 8
         (afterEvent w (pendOf w + min (reg s b).toNat (2 ^ 22 - 1)) (remOf w - 1)).toNat) d (if w.getLsbD 63 then 1 else 0))) ∧
       (w.getLsbD 63 ≠ (reg s b).getLsbD 0 → exec (.btry sf d a b) s = .next (wrote (acquired s sf) d 1) ∧
         exec (.bwait sf a b) s = .next (passed (acquired s sf))) ∧
       (w.getLsbD 63 = (reg s b).getLsbD 0 → exec (.btry sf d a b) s = .next (wrote s d 0) ∧
         (¬ seen → exec (.bwait sf a b) s = .next (waitsFor s (.barrier o ((reg s b).getLsbD 0) false))))) ∧
     (seen → exec (.bwait sf a b) s = .next (passed (acquired s sf)))) ∧
   (∀ (c : Core) (h : Hart) (o : Nat) (p : Bool), h.wait = some (.barrier o p false) →
     (phaseAt c o ≠ p → (noteBarrier c h).wait = some (.barrier o p true)) ∧ (phaseAt c o = p → noteBarrier c h = h)) ∧
   Retries true .bwaitPass (fun w => ∃ sf a b, w = .bwait sf a b)) ∧
  ((∀ (s : State) (d a : BitVec 6), s.h.lane = none →
     (∀ c v, place s .load (reg s a) 1 = .error (.trap c v) → Traps (.lock d a) s c v ∧ Traps (.unlock d a) s c v) ∧
     (∀ w, place s .load (reg s a) 1 = .error (.wait w) → exec (.lock d a) s = .next (waitsFor s w) ∧ exec (.unlock d a) s = .next (waitsFor s w)) ∧
     (∀ pl t u, place s .load (reg s a) 1 = .ok (pl, t) → bytePoisoned t pl = (true, u) →
       Traps (.lock d a) s Cause.access (reg s a) ∧ Traps (.unlock d a) s Cause.access (reg s a)) ∧
     (∀ pl t u, place s .load (reg s a) 1 = .ok (pl, t) → bytePoisoned t pl = (false, u) → (∀ pa leaf, pl ≠ .mem pa leaf) →
       exec (.lock d a) s = .next (wrote u d 1) ∧ exec (.unlock d a) s = .next (wrote u d 1)) ∧
     (∀ pa leaf t u, place s .load (reg s a) 1 = .ok (.mem pa leaf, t) → bytePoisoned t (.mem pa leaf) = (false, u) →
       (∀ v, lockLine u pa leaf = some v → exec (.lock d a) s = .next (wrote { u with d := v } d 0)) ∧
       (lockLine u pa leaf = none → exec (.lock d a) s = .next (wrote u d 1)) ∧
       (∀ v, unlockLine u pa = some v → exec (.unlock d a) s = .next (wrote { u with d := v } d 0)) ∧
       (unlockLine u pa = none → exec (.unlock d a) s = .next (wrote u d 1)))) ∧
   (∀ (s : State) (pa : Nat) (leaf : Word),
     let me := s.hid.toNat
     let core := coreOf s.hid
     let set := setAt s.d core pa
     let mine : Prop := ∃ l, lineOf set (pa / 128) = some l ∧ me ∈ l.locks
     let others : Prop := ∃ l, lineOf set (pa / 128) = some l ∧ l.locks ≠ []
     let refused : Prop := s.h.lockq.toNat ≤ lockedBy s.d s.hid ∨
       (¬ others ∧ (512 ≤ lockedLines s.d (domainCore s.d core pa) ∨ 6 ≤ (set.filter fun l => !l.locks.isEmpty).length))
     (mine → lockLine s pa leaf = some s.d) ∧
     (¬ mine → refused → lockLine s pa leaf = none) ∧
     (¬ mine → ¬ refused →
       (lockLine s pa leaf = none ∧ (obtain s.d (domainCore s.d core pa) pa (lineSide 0 leaf)).1 = none) ∨
       ∃ v l, lockLine s pa leaf = some v ∧ lineOf (setAt v core pa) (pa / 128) = some l ∧ me ∈ l.locks ∧ l.valid = true) ∧
     (mine → ∃ v, unlockLine s pa = some v ∧ v = { s.d with l1 := v.l1 } ∧
       (∀ l ∈ setAt v core pa, l.tag = pa / 128 → me ∉ l.locks) ∧ ∀ l, l.tag ≠ pa / 128 → (l ∈ setAt v core pa ↔ l ∈ set)) ∧
     (¬ mine → unlockLine s pa = none)) ∧
   EventAtWhen .swatchWaitEnd (fun s => s.h.wait = some .swatch) (fun s => { s with h := { s.h with wait := none } }) ∧
   EventAtWhen .swatchWaitEnd (fun s => s.h.wait ≠ some .swatch) (fun s => s))

/-! ## The shuttle -/

/-- R249, R252, R253, R287, R288, R289: `PSET`, `SWSET` and `SHSTAGE`. The offset of a swatch whose span has no byte in the scratchpad is open (log 9). -/
def Obligations.PatternSwatchAndStagingWords : Prop :=
  (∀ (s : State) (p : BitVec 8) (a n : BitVec 6), s.h.lane = none →
    (∀ c v, loadRecord s (reg s a) 8 = .error (.trap c v) → Traps (.pset p a) s c v) ∧
    (∀ r t, loadRecord s (reg s a) 8 = .ok (r, t) →
      ∃ u, exec (.pset p a) s = .next (passed u) ∧ u = { t with c := { t.c with pats := u.c.pats } } ∧
        (Sparse.wf { valid := false, record := 0 } t.c.pats = true → ∀ i,
          patAt u.c i = if i = p.toNat then { valid := patValid (BitVec.ofNat 512 r), record := BitVec.ofNat 512 r } else patAt t.c i)) ∧
    (let e := patAt s.c p.toNat
     let st := stateOf s.c.sws[n.toNat]
     let owner := s.hid.toNat % 8 * 2 ^ 40
     (e.valid = false ∨ PRec.space e.record = false → Traps (.swset p n) s Cause.patternInvalid (p.setWidth 64)) ∧
     (e.valid = true → PRec.space e.record = true →
       (st = 1 ∨ st = 3 → exec (.swset p n) s = .next (waitsFor s .swatch)) ∧
       (st = 0 ∨ st = 2 →
         (∀ x y : Int, patSpan e.record = some (x, y) → max x 0 < min y 0xC0000 →
           let w : Word := BitVec.ofNat 64 (owner + (min y 0xC0000 - max x 0).toNat * 2 ^ 20 + (max x 0).toNat)
           exec (.swset p n) s = .next (passed { s with c := { s.c with sws := s.c.sws.set n.toNat w } })) ∧
         ((∀ x y : Int, patSpan e.record = some (x, y) → min y 0xC0000 ≤ max x 0) →
           ∃ off, off < 2 ^ 20 ∧ exec (.swset p n) s = .next (passed { s with free := s.free + 1, c := { s.c with
             sws := s.c.sws.set n.toNat (BitVec.ofNat 64 (owner + off)) } })))) ∧
     (st = 1 ∨ st = 3 → exec (.swsetClr n) s = .next (waitsFor s .swatch)) ∧
     (st = 0 ∨ st = 2 → exec (.swsetClr n) s = .next (passed { s with c := { s.c with sws := s.c.sws.set n.toNat (BitVec.ofNat 64 owner) } })))) ∧
  (∀ (s : State) (ch : BitVec 4) (p : BitVec 8) (a n : BitVec 6) (r : BitVec 5), s.h.lane = none →
    let g := (chan s ch).stg
    let base : Option Word := if a = 0 then none else some (reg s a)
    StagesSlot (.shstageSrc ch p) s ch { g with src := some p } ∧
    StagesSlot (.shstageDst ch p) s ch { g with dst := some p } ∧
    StagesSlot (.shstageIdx ch p) s ch { g with idx := some p } ∧
    StagesSlot (.shstageSbase ch a) s ch { g with sbase := base } ∧
    StagesSlot (.shstageDbase ch a) s ch { g with dbase := base } ∧
    StagesSlot (.shstageBar ch a) s ch { g with bar := base.map fun x => x.setWidth 20 } ∧
    StagesSlot (.shstageSw ch n) s ch { g with sw := some n } ∧
    StagesSlot (.shstagePort ch p) s ch { g with port := some p } ∧
    StagesSlot (.shstageRtn ch r) s ch { g with rtn := some r } ∧
    StagesSlot (.shstageClr ch) s ch
      { src := none, dst := none, idx := none, sbase := none, dbase := none, bar := none, sw := none, port := none, rtn := none } ∧
    exec (.shstageRstat ch) s = .next (passed (withChan s ch { chan s ch with statId := 0, stat := 0, faultAddr := 0, miss := 0 }))) ∧
  Retries true .swsetResume (fun w => (∃ p n, w = .swset p n) ∨ ∃ n, w = .swsetClr n)

/-- R256, R257, R261, R262, R290, R291: `SHGO`. It waits for queue room, refuses in the order of R291 with x[d] negative and no other effect, traps on a bad entry, and
otherwise gives the command the channel's next id, binds its swatch and queues what it captured; one that expects nothing starts at once where none is queued
before it; an overlap that R261 does not allow fails at once with status 1. The answer to a stream to a port above 7 is open (log 9). The model's choices: the privilege that the command captures with its address space
(log 14), what a routine counts as its input, and that with RATIO 0 the count waits for the scout pass (log 15). -/
def Obligations.ShuttleCommandWords : Prop :=
  (∀ (s : State) (k : CmdKind) (ch : BitVec 4) (d : BitVec 6) (rel : BitVec 1), s.h.lane = none →
    let i := shgoOf k ch d rel
    let q := chan s ch
    let g := q.stg
    let es := demands k g
    let entry (n : Option (BitVec 8)) : BitVec 512 := (patAt s.c (n.getD 0).toNat).record
    let based (r : BitVec 512) (b : Option Word) : BitVec 512 := match b with
      | none => r
      | some b => putBits r 0 b
    let src := based (entry g.src) g.sbase
    let dst := based (entry g.dst) g.dbase
    let idx := entry g.idx
    let rtn := sfind s.c.rtns (g.rtn.getD 0).toNat
    let here : Prop := k = .copy ∨ k = .rows ∨ k = .bodkin
    let answers (n : Int) : Prop := exec i s = .next (wrote s d (BitVec.ofInt 64 n))
    (16 ≤ waitingCount q → exec i s = .next (waitsFor s .queue)) ∧
    (waitingCount q < 16 →
      (slotMissing k g → answers (-3)) ∧
      (¬ slotMissing k g →
        (∀ l e r, es = l ++ e :: r → (∀ f ∈ l, meets s.c f) → ¬ meets s.c e → Traps i s Cause.patternInvalid (e.1.setWidth 64)) ∧
        ((∀ e ∈ es, meets s.c e) →
          (k = .stream → 8 ≤ (g.port.getD 0).toNat → ∃ v, exec i s = .next (wrote { s with free := s.free + 1 } d v)) ∧
          (k = .bodkin → rtn = none → answers (-6)) ∧
          ((k = .stream → (g.port.getD 0).toNat < 8) → (k = .bodkin → rtn ≠ none) →
            (∀ n : BitVec 6, g.sw = some n →
              let w := s.c.sws[n.toNat]
              (ownerOf w ≠ s.hid.toNat % 8 → answers (-5)) ∧
              (ownerOf w = s.hid.toNat % 8 → here → lieWithin dst w → stateOf w ≠ 0 → stateOf w ≠ 2 → answers (-1)) ∧
              (ownerOf w = s.hid.toNat % 8 → ¬ (here ∧ lieWithin dst w) → lieWithin src w → stateOf w ≠ 2 → answers (-1)) ∧
              (ownerOf w = s.hid.toNat % 8 → ¬ (here ∧ lieWithin dst w) → ¬ lieWithin src w → answers (-2))) ∧
            (∀ sws : Vector Word 64,
              (g.sw = none ∧ sws = s.c.sws) ∨
              (∃ n : BitVec 6, g.sw = some n ∧ ownerOf s.c.sws[n.toNat] = s.hid.toNat % 8 ∧
                ((here ∧ lieWithin dst s.c.sws[n.toNat] ∧ (stateOf s.c.sws[n.toNat] = 0 ∨ stateOf s.c.sws[n.toNat] = 2) ∧
                  sws = s.c.sws.set n.toNat (boundEntry s.c.sws[n.toNat] 1 ch.toNat)) ∨
                 (¬ (here ∧ lieWithin dst s.c.sws[n.toNat]) ∧ lieWithin src s.c.sws[n.toNat] ∧ stateOf s.c.sws[n.toNat] = 2 ∧
                  sws = s.c.sws.set n.toNat (boundEntry s.c.sws[n.toNat] 3 ch.toNat)))) →
              ∃ (t : State) (n : Nat),
                let r := rtn.getD { header := 0, image := 0 }
                let scouts := decide (k = .bodkin) && decide (rtnRatio r.header = 0)
                let stored : State := if rel = 1 then released s 2 else s
                let cmd : Cmd :=
                  { id := q.next, kind := k, hart := s.hid, src := src, dst := dst, idx := idx, sw := g.sw, bar := g.bar, port := g.port,
                    rtn := (g.rtn.getD 0, r), asid := s.h.asid, ptroot := s.h.ptroot, prv := s.h.prv, vl := s.h.vl.toNat,
                    at' := .queued, landed := 0, expected := n, snap := none, ahead := [], codes := [], part := [], scout := scouts, stale := false }
                let numbered := withChan { stored with c := { stored.c with sws := sws } } ch { q with next := q.next + 1 }
                let queued := withChan { stored with c := { stored.c with sws := sws } } ch { q with next := q.next + 1, cmds := q.cmds ++ [cmd] }
                exec i s = .next (wrote t d (BitVec.ofNat 64 q.next)) ∧
                (k = .copy → n = patCount dst) ∧ (k = .rows → n = PRec.ext idx 0) ∧ (k = .stream → n = s.h.vl.toNat) ∧ (k = .send → n = patCount src) ∧
                (k = .bodkin → n = rtnRatio r.header * ((inputBytes src + rtnChunk r.header - 1) / rtnChunk r.header)) ∧
                t.h = { s.h with wait := t.h.wait } ∧ t.d = stored.d ∧
                (overlaps k src dst = false → n ≠ 0 ∨ scouts = true → t = queued) ∧
                (overlaps k src dst = false → n = 0 → scouts = false → waitingCount q = 0 → t = startCmd queued ch.toNat) ∧
                (overlaps k src dst = true → t = failCmd numbered ch.toNat cmd 1))))))) ∧
  Retries true .shgoQueueRoom (fun w => ∃ k ch d rel, w = shgoOf k ch d rel)

/-- R252, R257, R278, R292, R293, R294: `SHSTAT` and `SHPORT` read the engine as it stands; `SHPORT.disc` frees a port that no `VLDS` claims once its
command has completed. That bit 2 of `SHPORT.stat` shows the port for which the oldest queued command of some channel waits is the model's reading (log 15). -/
def Obligations.ShuttleStatusWords : Prop :=
  ∀ (s : State) (ch : BitVec 4) (d a n : BitVec 6) (p : BitVec 8), s.h.lane = none →
    let k := chan s ch
    let id := (reg s a).toNat
    (∃ v, exec (.shstatTl ch d) s = .next (wrote s d (BitVec.ofNat 64 v)) ∧ (∀ x ∈ k.cmds, 1 ≤ x.id → v < x.id) ∧
      (v = k.next - 1 ∨ ∃ x ∈ k.cmds, v = x.id - 1)) ∧
    exec (.shstatMiss ch d) s = .next (wrote s d (k.miss.setWidth 64)) ∧
    exec (.shstatErr ch d) s = .next (wrote s d (BitVec.ofNat 64 (k.statId * 2 ^ 8 + k.stat.toNat))) ∧
    exec (.shstatAddr ch d) s = .next (wrote s d k.faultAddr) ∧
    (∀ x, k.cmds.find? (fun x => x.id == id) = some x → exec (.shstatLanded ch a d) s = .next (wrote s d (BitVec.ofNat 64 x.landed))) ∧
    ((∀ x ∈ k.cmds, x.id ≠ id) → 1 ≤ id → id < k.next → exec (.shstatLanded ch a d) s = .next (wrote s d (BitVec.allOnes 64))) ∧
    ((∀ x ∈ k.cmds, x.id ≠ id) → id = 0 ∨ k.next ≤ id → exec (.shstatLanded ch a d) s = .next (wrote s d 0)) ∧
    exec (.shstatNext ch d) s = .next (wrote s d (BitVec.ofNat 64 k.next)) ∧
    exec (.shstatSw n d) s = .next (wrote s d s.c.sws[n.toNat]) ∧
    exec (.shstatPv p d) s = .next (wrote s d (if (patAt s.c p.toNat).valid then 1 else 0)) ∧
    (∀ (q : Fin 8), p.toNat = q.val →
      let v := s.c.vports[q]
      (∀ c i, v.occ = some (c, i) → exec (.shportStat p d) s = .next (wrote s d (BitVec.ofNat 64
        (i * 2 ^ 8 + c * 2 ^ 4 + (if portWanted s.c q then 4 else 0) + (if v.claim = none then 0 else 2) + 1)))) ∧
      (v.occ = none → exec (.shportStat p d) s = .next (wrote s d (BitVec.ofNat 64
        ((if portWanted s.c q then 4 else 0) + (if v.claim = none then 0 else 2))))) ∧
      (v.occ = none ∨ v.claim ≠ none → exec (.shportDisc p) s = .next (passed s)) ∧
      (∀ c i, v.occ = some (c, i) → v.claim = none →
        ((findCmd s.c c i).isSome = true → exec (.shportDisc p) s = .next (waitsFor s .port)) ∧
        (findCmd s.c c i = none → exec (.shportDisc p) s = .next (passed { s with c := { s.c with
          vports := s.c.vports.set q { occ := none, claim := none, read := false, buf := [] } } })))) ∧
    (∀ (q : Fin 12), p.toNat = 16 + q.val →
      (∀ c i, s.c.fports[q] = some (c, i) → exec (.shportStat p d) s = .next (wrote s d (BitVec.ofNat 64
        (i * 2 ^ 8 + c * 2 ^ 4 + (if portWanted s.c p.toNat then 4 else 0) + 1)))) ∧
      (s.c.fports[q] = none → exec (.shportStat p d) s = .next (wrote s d (BitVec.ofNat 64 (if portWanted s.c p.toNat then 4 else 0)))))

/-- R161, R176, R177, R255, R258, R259, R262, R266, R267, R268, R401, R434: the events of the engine. A command starts when its turn and its port have come; its landed
count rises by elements that land, with one barrier event, and at its expected count its swatch becomes ready, its barrier and its timeline follow; it is
suspended at a fault or at poison; it fails with a status, as a send over a port out of service does, and a bodkin command whose routine begins with no word
that it may run; a scout pass reads 8 chunks ahead of its data pass; a channel is reset for a lease once it is empty. The
model's choices: what an event of the engine names and when a draining swatch is unbound (log 14), the scout pass at the first rise, what of a
routine is looked at, and that an arrival lands all that is left of a send (log 15), and that a command with nothing to land completes at its start (log 40). -/
def Obligations.ShuttleEvents : Prop :=
  (∀ (ch : BitVec 4) (id : BitVec 64) (n : Nat) (k : Cmd),
    EngineAt (fun c => .commandStart c ch) (fun s => oldestQueued s ch = none) (fun s => s) ∧
    EngineAt (fun c => .commandStart c ch) (fun s => oldestQueued s ch = some k ∧ ¬ startable s k) (fun s => s) ∧
    EngineAt (fun c => .commandStart c ch) (fun s => oldestQueued s ch = some k ∧ startable s k ∧ ¬ portOut s k ∧ (k.expected ≠ 0 ∨ k.scout = true))
      (fun s =>
        let t := withChan s ch (withCmd (chan s ch) k.id fun x => { x with at' := .flying })
        let me : Option (Nat × Nat) := some (ch.toNat, k.id)
        let p := (k.port.getD 0).toNat
        match k.kind with
        | .stream => { t with c := { t.c with vports := t.c.vports.set (p % 8) { occ := me, claim := none, read := k.stale, buf := [] } } }
        | .send => { t with c := { t.c with fports := t.c.fports.setIfInBounds p me } }
        | .bodkin => { t with c := { t.c with bodkin := me } }
        | _ => t) ∧
    EngineAt (fun c => .commandStart c ch) (fun s => oldestQueued s ch = some k ∧ startable s k ∧ ¬ portOut s k ∧ k.expected = 0 ∧ k.scout = false)
      (fun s => finishCmd { s with c := editCmd (takePort s.c ch.toNat k) ch.toNat k.id fun x => { x with at' := .flying } } ch.toNat k 0) ∧
    EngineAt (fun c => .commandStart c ch) (fun s => oldestQueued s ch = some k ∧ startable s k ∧ portOut s k)
      (fun s => failCmd { s with c := editCmd (takePort s.c ch.toNat k) ch.toNat k.id fun x => { x with at' := .flying } } ch.toNat k 5) ∧
    (∀ more : List Nat,
      EngineAt (fun c => .landedCountRise c ch id (n, more)) (fun s => ∀ k, ¬ inAction s ch id k) (fun s => s) ∧
      EngineAt (fun c => .landedCountRise c ch id (n, more)) (fun s => inAction s ch id k ∧ portOut s k) (fun s => failCmd s ch.toNat k 5) ∧
      EngineAt (fun c => .landedCountRise c ch id (n, more)) (fun s => inAction s ch id k ∧ ¬ portOut s k ∧ k.refused = true)
        (fun s => failCmd s ch.toNat k 4) ∧
      EngineAt (fun c => .landedCountRise c ch id (n, more))
        (fun s => inAction s ch id k ∧ ¬ portOut s k ∧ k.refused = false ∧ k.scout = false ∧ k.landed ≠ k.expected ∧
          advanceMany (acceptAhead s ch.toNat id.toNat more) ch.toNat id.toNat n = none) (fun s => s) ∧
      (∀ u k', EngineAt (fun c => .landedCountRise c ch id (n, more))
        (fun s => inAction s ch id k ∧ ¬ portOut s k ∧ k.refused = false ∧ k.scout = false ∧ advanceMany (acceptAhead s ch.toNat id.toNat more) ch.toNat id.toNat n = some u ∧
          (chan u ch).cmds.find? (fun x => x.id == id.toNat) = some k' ∧ k'.scout = false)
        (fun _ =>
          let m := k'.landed - k.landed
          if k'.landed = k'.expected then finishCmd u ch.toNat k' m
          else if k'.landed = k.landed then u else barEvent u ch.toNat id.toNat k'.bar m false)) ∧
      (∀ e, EngineAt (fun c => .landedCountRise c ch id (n, more))
        (fun s => inAction s ch id k ∧ ¬ portOut s k ∧ k.refused = false ∧ k.scout = true ∧
          readInput s k ((passReads k).map (·.2)) = .error e) (fun s => s)) ∧
      (∀ codes u, EngineAt (fun c => .landedCountRise c ch id (n, more))
        (fun s => inAction s ch id k ∧ ¬ portOut s k ∧ k.refused = false ∧ k.scout = true ∧
          readInput s k ((passReads k).map (·.2)) = .ok (codes, u))
        (fun _ =>
          let read (head : Bool) : List Nat := (((passReads k).zip codes).filter fun e => e.1.1 == head).map (·.2)
          let k1 : Cmd := { k with scout := false, expected := Config.bodkinCount k.rtn.2.code (read true) }
          let t := withChan u ch (withCmd (chan u ch) k.id fun _ => { k1 with snap := some (routineOutput k1 (read false)) })
          noteRise ((advanceMany (acceptAhead t ch.toNat id.toNat more) ch.toNat id.toNat n).getD t) ch.toNat id.toNat k.landed))) ∧
    (∀ l k' u, EngineAt (fun c => .sourceReadDone c ch id)
      (fun s => inAction s ch id k ∧ k.refused = false ∧ k.scout = false ∧ sourceRead s k l k' u ∧ ∀ m, k'.sw = some m → stateOf u.c.sws[m.toNat] ≠ 3)
      (fun _ => withChan u ch (withCmd (chan u ch) id.toNat fun _ => { k' with snap := some l }))) ∧
    (∀ l k' u m, EngineAt (fun c => .sourceReadDone c ch id)
      (fun s => inAction s ch id k ∧ k.refused = false ∧ k.scout = false ∧ sourceRead s k l k' u ∧ k'.sw = some m ∧ stateOf u.c.sws[m.toNat] = 3)
      (fun _ =>
        let w := u.c.sws[m.toNat]
        let t := withChan u ch (withCmd (chan u ch) id.toNat fun _ => { k' with snap := some l, sw := none })
        { t with c := { t.c with sws := t.c.sws.set m.toNat (BitVec.ofNat 64 (w.toNat / 2 ^ 50 * 2 ^ 50 + 2 * 2 ^ 48 + w.toNat % 2 ^ 48)) } })) ∧
    EngineAt (fun c => .sourceReadDone c ch id) (fun s => ∀ k, inAction s ch id k → k.scout = true ∨ k.refused = true) (fun s => s) ∧
    (∀ a (b : Bool) u, EngineAt (fun c => if b then .transferPoison c ch id else .transferSuspend c ch id)
      (fun s => advance s ch.toNat id.toNat = .fault a b ∧ landPart s ch.toNat id.toNat = u ∧
        (chan u ch).cmds.find? (fun x => x.id == id.toNat) = some k)
      (fun _ =>
        let q := withCmd (chan u ch) id.toNat fun x => { x with at' := .suspended }
        raiseAt (withChan u ch { q with statId := id.toNat, stat := if b then 3 else 2, faultAddr := a })
          (sget u.d.svc k.asid.toNat 0) (0x1000 + 16 * coreOf u.hid + ch.toNat))) ∧
    (∀ b : Bool, EngineAt (fun c => if b then .transferPoison c ch id else .transferSuspend c ch id)
      (fun s => ∀ a, advance s ch.toNat id.toNat ≠ .fault a b) (fun s => s)) ∧
    EngineAt (fun c => .bodkinFault c ch id) (fun s => inAction s ch id k ∧ k.kind = .bodkin) (fun s => failCmd s ch.toNat k 4) ∧
    EngineAt (fun c => .bodkinFault c ch id) (fun s => ∀ k, inAction s ch id k → k.kind ≠ .bodkin) (fun s => s) ∧
    (∀ ok : BitVec 1,
      EngineAt (fun c => .fabricSendArrival c ch id ok)
        (fun s => inAction s ch id k ∧ k.kind = .send ∧ (ok = 0 ∨ s.d.ports.getLsbD (k.port.getD 0).toNat = false)) (fun s => failCmd s ch.toNat k 5) ∧
      EngineAt (fun c => .fabricSendArrival c ch id ok)
        (fun s => inAction s ch id k ∧ k.kind = .send ∧ ok = 1 ∧ s.d.ports.getLsbD (k.port.getD 0).toNat = true)
        (fun s => riseBy s ch.toNat id.toNat (k.expected - k.landed - k.ahead.length) []) ∧
      EngineAt (fun c => .fabricSendArrival c ch id ok) (fun s => ∀ k, inAction s ch id k → k.kind ≠ .send) (fun s => s)) ∧
    EngineAt (fun c => .channelReset c ch) (fun s => (chan s ch).resetDue = true ∧ (chan s ch).cmds = [])
      (fun s => withChan s ch { Chan.reset with next := (chan s ch).next }) ∧
    EngineAt (fun c => .channelReset c ch) (fun s => (chan s ch).resetDue = false ∨ (chan s ch).cmds ≠ []) (fun s => s)) ∧
  (∀ (k : Cmd) (r : Routine),
    let e := r.header.toNat % 2 ^ 64
    let b := r.image / 2 ^ (8 * e + 24) % 2 ^ 8
    (k.refused = true ↔ k.kind = .bodkin ∧ k.rtn.2.starts = false) ∧
    (r.starts = true ↔ e + 4 ≤ 32 + 8 * Config.routineWords r.header ∧ e % 4 = 0 ∧ ((1 ≤ b ∧ b ≤ 0x18) ∨ (0x22 ≤ b % 2 ^ 7 ∧ b % 2 ^ 7 ≤ 0x2E)))) ∧
  (∀ (k : Cmd) (c : Nat), 8 ≤ c → c < chunkCount k + 8 → ∃ l r, passReads k = l ++ (headOf k c).map (fun n => (true, n)) ++
    (dataOf k (c - 8)).map (fun n => (false, n)) ++ r ∧
    (∀ x ∈ l, x.1 = true → ∃ i, i < c ∧ x.2 ∈ headOf k i) ∧ ∀ x ∈ r, x.1 = false → ∃ i, c - 8 < i ∧ x.2 ∈ dataOf k i) ∧
  (∀ (s : State) (ch id n : Nat) (k : Cmd), findCmd s.c ch id = some k →
    (k.kind ≠ .rows → landPart s ch id = s) ∧
    (∀ more, ∃ k', findCmd (acceptAhead s ch id more).c ch id = some k' ∧ k'.landed = k.landed ∧ k'.expected = k.expected ∧
      ∀ m, m ∈ k'.ahead → m ∈ k.ahead ∨ m ∈ more ∧ k.landed < m ∧ m < k.expected) ∧
    (k.scout = false → ∀ u, advanceMany s ch id n = some u →
      ∃ k', findCmd u.c ch id = some k' ∧ k.landed + n ≤ k'.landed ∧ k'.expected = k.expected ∧ (n ≠ 0 → k.landed + n ≤ k.expected) ∧
        (k.ahead = [] → k'.landed = k.landed + n))) ∧
  (∀ (s : State) (ch : BitVec 4) (k : Cmd) (n st : Nat), (chan s ch).resetDue = false →
    let t := finishCmd s ch.toNat k n
    let f := failCmd s ch.toNat k st
    (k.bar = none →
      chan t ch = { chan s ch with cmds := (chan s ch).cmds.filter fun x => decide (x.id ≠ k.id) } ∧
      chan f ch = { chan t ch with statId := k.id, stat := BitVec.ofNat 8 st } ∧ t.c.spad = s.c.spad ∧ f.c.spad = s.c.spad) ∧
    (∀ b : BitVec 20, k.bar = some b → b.toNat % 8 = 0 → b.toNat < 0xC0000 → spadPoisoned s.c b.toNat 8 = false →
      let w : Word := BitVec.ofNat 64 (Memory.read s.c.spad b.toNat 8)
      expOf w ≠ 0 →
        t.c.spad = Memory.write s.c.spad b.toNat 8 (afterEvent w (pendOf w + (2 ^ 23 - n % 2 ^ 23)) (remOf w)).toNat ∧
        f.c.spad = Memory.write s.c.spad b.toNat 8 (afterEvent w (pendOf w + (2 ^ 23 - (k.expected - k.landed) % 2 ^ 23)) (remOf w)).toNat) ∧
    (∀ m : BitVec 6, k.sw = some m → stateOf t.c.sws[m.toNat] = 2 ∧ stateOf f.c.sws[m.toNat] = 0) ∧
    (∀ m : BitVec 6, k.sw ≠ some m → t.c.sws[m.toNat] = s.c.sws[m.toNat] ∧ f.c.sws[m.toNat] = s.c.sws[m.toNat]) ∧
    t.d = s.d ∧ f.d = s.d)

/-! ## Launches and the scheduler -/

/-- R393, R394, R399, R407, R414: the checks of a launch record in their order, the capacities they use, and the node that an accepted record creates. -/
def Obligations.LaunchRecordChecks : Prop :=
  (∀ (d : Device) (r : BitVec 512) (job : BitVec 48),
    let m := Rec.lgmin r
    let spad := Rec.spad r
    let g := Rec.gang r
    let spadBad : Prop := 0 < spad ∧ (786432 < (g * spad + 4095) / 4096 * 4096 ∨ coreCapacity m < g)
    let timelineBad : Prop := Rec.timeline r ≠ 0 ∧ ¬ (0 < (Rec.timeline r).toNat ∧ (Rec.timeline r).toNat < 2 ^ 16)
    let large : Prop := bestInstance d (Rec.seam r) * coreCapacity m < g
    (badRecord r → checkRecord d r job = 1) ∧
    (¬ badRecord r → ¬ goodParent d r job → checkRecord d r job = 2) ∧
    (¬ badRecord r → goodParent d r job →
      (timelineBad → checkRecord d r job = 3) ∧
      (¬ timelineBad → spadBad → checkRecord d r job = 4) ∧
      (¬ timelineBad → ¬ spadBad → large → checkRecord d r job = 5) ∧
      (¬ timelineBad → ¬ spadBad → ¬ large → freeSlot d = none → checkRecord d r job = 6) ∧
      (¬ timelineBad → ¬ spadBad → ¬ large → freeSlot d ≠ none → checkRecord d r job = 0))) ∧
  (∀ m, m ≤ 16 → coreCapacity m = [8, 8, 8, 5, 4, 3, 2, 2, 2, 1, 1, 1, 1, 1, 1, 1, 1].getD m 0) ∧
  (∀ d : Device, d.stage = 3 → d.layersOut = 0 → ∀ sc, sc < 8 → bestInstance d sc = [1, 1, 4, 16, 32, 128, 256, 256].getD sc 0) ∧
  (∀ (d : Device) (r : BitVec 512) (job p : BitVec 48) (asid : BitVec 14) (root : Word) (who slot : Nat) (gate : Option (Word × Word))
    (unit : Option (BitVec 48 × BitVec 32)) (x : Node), tableFormed d → freeSlot d = some slot → parentOf r job = some p → nodeAt d p = some x →
    x.live = true → (recKind r = .launch ∨ Rec.count r ≠ 0) →
    let c := createNode d r job asid root who gate unit
    ∃ n, nodeAt c.2 c.1 = some n ∧ c.1.toNat % 2 ^ 16 = slot ∧ nodeAt d c.1 = none ∧ n.kind = recKind r ∧ n.record = r ∧ n.parent = some p ∧ n.asid = asid ∧
      n.ptroot = root ∧ n.gate = gate ∧ n.status = 0 ∧ n.cancelled = false ∧
      (recKind r = .launch → n.state = if gate = none then .queued else .gated) ∧
      (recKind r ≠ .launch → n.state = .running ∧ n.counter = Rec.count r ∧ n.limit = Rec.count r) ∧
      nodeAt c.2 p = some { x with accepted := x.accepted + 1, counter := if x.kind = .job then x.counter + 1 else x.counter })

/-- R397, R409, R414, R415, R416: the `LAUNCH` words. A creating form reads its record, and its gate, and answers with the first refusal or creates a node;
`LWAIT` and `LTRY` read a node's status once it is complete, with an acquire at package scope; `LCANCEL` marks a live node and all below it. -/
def Obligations.LaunchWords : Prop :=
  (∀ (s : State) (d a b : BitVec 6), s.h.lane = none →
    let plain (withId : Bool) : Instr := if withId then .launchId d a else .launch d a
    let gated (withId : Bool) : Instr := if withId then .launchGateId d a b else .launchGate d a b
    (∀ c v withId, loadRecord s (reg s a) 8 = .error (.trap c v) → Traps (plain withId) s c v ∧ Traps (gated withId) s c v) ∧
    (∀ r t withId, loadRecord s (reg s a) 8 = .ok (r, t) →
      let rec' : BitVec 512 := BitVec.ofNat 512 r
      let job (t : State) : BitVec 48 := ((nodeAt t.d t.h.node).map (·.job)).getD 0
      (checkRecord t.d rec' (job t) ≠ 0 → exec (plain withId) s = .next (refusedWith t withId d (checkRecord t.d rec' (job t)))) ∧
      (checkRecord t.d rec' (job t) = 0 →
        let c := createNode t.d rec' (job t) s.h.asid s.h.ptroot s.hid.toNat none none
        exec (plain withId) s = .next (wrote { t with d := c.2 } d (if withId then c.1.setWidth 64 else 0))) ∧
      (∀ c v, loadRecord t (reg s b) 2 = .error (.trap c v) → Traps (gated withId) s c v) ∧
      (∀ q u, loadRecord t (reg s b) 2 = .ok (q, u) →
        let id : Word := BitVec.ofNat 64 q
        let n : Word := BitVec.ofNat 64 (q / 2 ^ 64)
        let noGate : Prop := id = 0 ∨ counterOf u s.h.node id = none
        (checkRecord u.d rec' (job u) ≠ 0 → exec (gated withId) s = .next (refusedWith u withId d (checkRecord u.d rec' (job u)))) ∧
        (checkRecord u.d rec' (job u) = 0 → noGate → exec (gated withId) s = .next (refusedWith u withId d 7)) ∧
        (checkRecord u.d rec' (job u) = 0 → ¬ noGate →
          let unit : Option (BitVec 48 × BitVec 32) := if id.toNat / 2 ^ 56 = 3 then some (s.h.node, id.setWidth 32) else none
          let c := createNode u.d rec' (job u) s.h.asid s.h.ptroot s.hid.toNat (some (id, n)) unit
          exec (gated withId) s = .next (wrote { u with d := c.2 } d (if withId then c.1.setWidth 64 else 0))))) ∧
    (let id := reg s a
     let node : Option Node := if id.toNat < 2 ^ 48 then nodeAt s.d (id.setWidth 48) else none
     (node = none → exec (.lwait d a) s = .next (wrote s d (BitVec.allOnes 64)) ∧ exec (.ltry d a) s = .next (wrote s d (BitVec.allOnes 64)) ∧
       exec (.lcancel d a) s = .next (wrote s d (BitVec.allOnes 64))) ∧
     (∀ n, node = some n → n.live = true → exec (.lwait d a) s = .next (waitsFor s .node) ∧ exec (.ltry d a) s = .next (wrote s d (BitVec.ofInt 64 (-2))) ∧
       exec (.lcancel d a) s = .next (cancelNode (wrote s d 0) (id.setWidth 48))) ∧
     (∀ n, node = some n → n.live = false →
       exec (.lwait d a) s = .next (wrote (acquired s 6) d (BitVec.ofNat 64 n.status)) ∧
       exec (.ltry d a) s = .next (wrote (acquired s 6) d (BitVec.ofNat 64 n.status)) ∧ exec (.lcancel d a) s = .next (wrote s d (BitVec.allOnes 64))))) ∧
  (∀ (s : State) (id x : BitVec 48) (n : Node), tableFormed s.d → nodeAt s.d x = some n → n.live = true → below s.d id x 4 = true →
    ∃ n', nodeAt (cancelNode s id).d x = some n' ∧ n'.cancelled = true ∧ n'.status = 1 ∧
      ((s.h.live = true ∧ s.h.node = x) → (cancelNode s id).h.cancelled = true)) ∧
  Retries true .lwaitComplete (fun w => ∃ d a, w = .lwait d a)

/-- R400, R401, R402, R403, R404, R405, R406, R409, R410, R414, R423, R462: what the scheduler and the runtime do to launches, gangs and units. The slots, the
stacks, the handlers and the reservation's place are the placer's choice, an argument of the event; that an event names them, and what it then takes to be
placed, aged, pre-empted and restored, is the model's choice (log 16), as is when the placer brings its reservations up to date, where a reserving gang goes,
and that a count word is read under its page's MINSC; with which interval a unit's timer starts is the event's (log 7); what a gate's counter carries to the
units of its launch is log 43's. -/
def Obligations.SchedulerEvents : Prop :=
  (∀ (s : State) (n : BitVec 48),
    (liveNode s.d n = none → ∀ i ∈ [Instr.launchDispatch n, .gateOpen n], exec i s = .next s) ∧
    (∀ x, liveNode s.d n = some x →
      let heads : Prop := x.kind = .launch ∧ x.state = .queued ∧ x.counter = 0 ∧ x.cancelled = false ∧ reached (updateResv s) (n.toNat % 2 ^ 16, x) = true
      (¬ heads → exec (.launchDispatch n) s = .next s) ∧
      (heads → takeCount s x = none → exec (.launchDispatch n) s = .next s) ∧
      (heads → ∀ c t, takeCount s x = some (c, t) →
        (c = none → exec (.launchDispatch n) s = .next (stopPlacing t n 3)) ∧
        (c = some 0 → exec (.launchDispatch n) s = .next { t with d := completeNode t.d n 5 }) ∧
        (∀ k, c = some k → k ≠ 0 → ∃ u, exec (.launchDispatch n) s = .next u ∧ nodeAt u.d n = some { x with counter := k, limit := k } ∧ u.h = t.h)) ∧
      (Rec.cw x.record = false → takeCount s x = some (some (Rec.count x.record), s)) ∧
      (Rec.cw x.record = true → ∀ pa leaf t, placeUnder s x.asid x.ptroot false .load (Rec.countw x.record) 4 = .ok (.mem pa leaf, t) →
        takeCount s x = some (if homePoisoned t.d pa 4 = true ∨ scopeRefused leaf 6 = true then none else some (Memory.read t.d.mem pa 4), t)) ∧
      (∀ id v, x.gate = some (id, v) →
        (x.state = .gated → v.toNat ≤ (gateValue s x id).toNat →
          let t : State := { s with d := editNode s.d n fun y =>
            { y with state := .queued, queuedAt := s.d.cycle.toNat, clock := clockMerge y.clock (gateClock s.d id) } }
          let large : Prop := bestInstance s.d (Rec.seam x.record) * coreCapacity (Rec.lgmin x.record) < largestGang s.d n x
          (¬ large → exec (.gateOpen n) s = .next t) ∧ (large → exec (.gateOpen n) s = .next (stopPlacing t n 2))) ∧
        (x.state ≠ .gated ∨ (gateValue s x id).toNat < v.toNat → exec (.gateOpen n) s = .next s)) ∧
      (x.state ≠ .running → x.counter = 0 → x.nextGang = 0 → (∀ e ∈ s.d.saved, e.2.node ≠ n) →
        largestGang s.d n x = if Rec.cw x.record then Rec.gang x.record else min (Rec.gang x.record) (Rec.count x.record)) ∧
      (x.kind = .launch → x.state = .queued → exec (.priorityAging n) s = .next { s with d := editNode s.d n fun y => { y with
        aged := max x.aged (min 3 ((s.d.cycle.toNat - x.queuedAt) / 2 ^ 20)) } }))) ∧
  (∀ (s : State) (p : Placement), keysRise s.parked →
    (liveNode s.d p.node = none → exec (.gangPlacement p) s = .next s ∧ exec (.gangRestore p) s = .next s) ∧
    (∀ nd, liveNode s.d p.node = some nd →
      (¬ mayPlace s nd p → exec (.gangPlacement p) s = .next s) ∧
      (mayPlace s nd p →
        let r := nd.record
        let size := (Rec.gang r * Rec.spad r + 4095) / 4096 * 4096
        let resv : Word := if size = 0 then 0 else p.resv.setWidth 64
        ∃ t, exec (.gangPlacement p) s = .next t ∧
          (∀ i u, p.units[i]? = some u →
            let h := t.hart u.slot
            h.live = true ∧ h.pc = Rec.entry r ∧ h.x = (((Vector.replicate 64 0).set 2 u.sp).set 3 (Rec.args r)).set 4 resv ∧
            h.gmap = 0 ∧ h.v = Vector.replicate 32 0 ∧ h.k = Vector.replicate 8 0 ∧ h.mx = Vector.replicate 8 0 ∧ h.smm = 0 ∧ h.focc = Vector.replicate 16 0 ∧
            h.vl = 0 ∧ h.vtype = 0 ∧ h.vstart = 0 ∧ h.vpr = 0 ∧ h.vdirty = 0 ∧ h.fcsr = 0 ∧ h.mshape = 0 ∧ h.prv = false ∧ h.ie = false ∧
            h.ext = [] ∧ h.tpend = false ∧ h.ppend = false ∧ h.timerInt = u.timer ∧ h.timerAt = some (s.d.cycle.toNat + u.timer.toNat) ∧
            h.tbase = u.tbase &&& ~~~63 ∧
            h.unit = BitVec.ofNat 32 (p.gang * Rec.gang r + i) ∧ h.node = p.node ∧ h.gang = p.gang ∧ h.lgmin = BitVec.ofNat 5 (Rec.lgmin r) ∧
            h.lgmax = BitVec.ofNat 5 (Rec.lgmax r) ∧ h.asid = nd.asid ∧ h.ptroot = nd.ptroot ∧ h.lockq = Rec.lockq r) ∧
          (size ≠ 0 → ∀ u, p.units.head? = some u →
            let c := t.core (coreOf u.slot)
            c.lease = some (p.node, p.gang) ∧ c.pats = [] ∧ c.sws = Vector.replicate 64 0 ∧
            (∀ (i : Fin 16), ∀ x ∈ c.chans[i].cmds, x.sw = none ∧ x.bar = none ∧ x.stale = true) ∧
            ∀ a, p.resv.toNat ≤ a → a < p.resv.toNat + size → Memory.get c.spad a = 0)))) ∧
  (∀ (s : State) (p : Placement) (nd : Node), keysRise s.parked → liveNode s.d p.node = some nd →
    let s1 := leaveSlots s
    let hs := savedGang s1.d p.node
    let t0 := updateResv (setLparts s1 p.lparts)
    let e := (p.node.toNat % 2 ^ 16, nd)
    let goes : Prop := hs ≠ [] ∧ hs.length = p.units.length ∧ (∀ h ∈ hs, h.2.gang = p.gang) ∧ inOrder t0.d e.1 nd = true ∧ reached t0 e = true ∧
      slotsFit t0 e (p.units.map (·.slot)) = true ∧ groupsFree t0 (hs.zip p.units) = true
    (¬ goes → exec (.gangRestore p) s = .next s) ∧
    (goes → ∃ t, exec (.gangRestore p) s = .next t ∧
      (∀ e ∈ t.d.saved, ¬ (e.2.node = p.node ∧ e.2.gang = p.gang)) ∧
      ∀ (i c : Nat) (h : Hart) (u : PlacedUnit), hs[i]? = some (c, h) → p.units[i]? = some u →
        let g := t.hart u.slot
        g = { h with gmap := g.gmap, tbase := u.tbase &&& ~~~63, timerInt := g.timerInt, timerAt := g.timerAt, carea := g.carea, ext := g.ext,
                     tpend := g.tpend, ten := g.ten, een := g.een, pen := g.pen, live := true, lane := none, region := none, stop := none, upTo := none,
                     prv := h.pprv, ie := h.pie, pie := false, pc := h.epc, ppend := false, csaved := false, wait := none, resumed := h.vstart != 0,
                     early := [], placedAt := s.d.cycle.toNat } ∧ g.g = h.g)) ∧
  (∀ (s : State) (sc i : Nat), instanceToReserve s sc = some i → inUse s.d sc i ∧
    ∀ j, j < instanceCount sc → inUse s.d sc j → freeSlots s sc j < freeSlots s sc i ∨ (freeSlots s sc j = freeSlots s sc i ∧ i ≤ j)) ∧
  (∀ (s : State), tableFormed s.d →
    let t := updateResv s
    t = { s with d := { s.d with resv := t.d.resv } } ∧
    (∀ r n, reserves s.d r n → r ∈ t.d.resv) ∧
    (∀ r ∈ t.d.resv, (∃ n, reservesFor s.d r n) ∧ (r ∈ s.d.resv ∨ r.since = s.d.cycle.toNat)) ∧
    (s.d.resv = [] → firstStuck s = none → t = s) ∧
    (s.d.resv = [] → ∀ e, firstStuck s = some e → ∀ i, instanceToReserve s (Rec.seam e.2.record) = some i →
      t.d.resv = [{ node := idAt e.1 e.2, gang := nextGangNo s.d (idAt e.1 e.2) e.2, inst := i, since := s.d.cycle.toNat }])) ∧
  (∀ (s : State) (hs : List (BitVec 11)),
    let t := updateResv s
    let chosen (r : Resv) (n : Node) : Prop :=
      let fitsIn (u : State) : Prop := min (Rec.gang n.record) (n.limit - r.gang * Rec.gang n.record) ≤ instanceRoom u n.record (fun _ => true) r.inst
      let candidates := t.liveHarts.filter (preemptable t (r, n))
      let last := hs.find? fun i => hs.all fun j => preemptBefore t j i
      let fewer := match last with
        | some i => hs.filter fun j => !(gangOf t (t.hart i)).contains j
        | none => []
      reserves t.d r n ∧ r.since + 2 ^ 20 ≤ s.d.cycle.toNat ∧ ¬ fitsIn t ∧ distinct hs = true ∧
        (∀ i ∈ hs, i ∈ candidates ∧ ∀ j ∈ gangOf t (t.hart i), j ∈ hs) ∧
        (∀ i ∈ hs, ∀ j ∈ candidates, j ∈ hs ∨ preemptBefore t i j = true) ∧ fitsIn (without t hs) ∧ ¬ fitsIn (without t fewer)
    ((∃ r n, chosen r n) → exec (.reservationPreempt hs) s = .next (hs.foldl (fun s i => s.setHart i { s.hart i with ppend := true }) t)) ∧
    ((∀ r n, ¬ chosen r n) → exec (.reservationPreempt hs) s = .next t)) ∧
  EventAtWhen .unitCancelStop (fun s => s.h.live = true ∧ s.h.cancelled = true ∧ ∀ r, s.h.wait ≠ some (.remote true r)) (fun s => retireUnit s 1) ∧
  EventAtWhen .unitCancelStop (fun s => s.h.live = false ∨ s.h.cancelled = false ∨ ∃ r, s.h.wait = some (.remote true r)) (fun s => s) ∧
  EventAtWhen .runtimeRetire (fun s => s.h.live = true ∧ s.h.halted = false ∧ s.h.prv = true ∧ s.h.cause.toNat < 0x10)
    (fun s => retireUnit (released s 6) 4) ∧
  EventAtWhen .runtimeRetire (fun s => s.h.live = false ∨ s.h.halted = true ∨ s.h.prv = false ∨ 0x10 ≤ s.h.cause.toNat) (fun s => s) ∧
  (∀ (s : State) (c : BitVec 6) (f : BitVec 1),
    (clusterFree s c.toNat = true → s.d.fused.getLsbD c.toNat ≠ (f == 1) →
      ∃ t, exec (.clusterModeChange c f) s = .next t ∧ t = { s with d := t.d } ∧
        (∀ i, i < 64 → t.d.fused.getLsbD i = if i = c.toNat then f == 1 else s.d.fused.getLsbD i) ∧
        (∀ e ∈ t.d.l1, ¬ (4 * c.toNat ≤ e.1 / 128 ∧ e.1 / 128 < 4 * c.toNat + 4)) ∧
        (∀ e ∈ s.d.l1, ¬ (4 * c.toNat ≤ e.1 / 128 ∧ e.1 / 128 < 4 * c.toNat + 4) → e ∈ t.d.l1)) ∧
    (clusterFree s c.toNat = false ∨ s.d.fused.getLsbD c.toNat = (f == 1) → exec (.clusterModeChange c f) s = .next s))

/-! ## Messages and the pod -/

/-- R22, R124, R417, R418, R419, R420: the message words. A send to a mailbox hands its pairs to the network after a release, waits for an entry, or answers
1 or 2; a receive takes the oldest message into a fibre register after an acquire, waits, or answers 0. The model's choices: that a mailbox has 16 entries, and
that a message on its way holds one (log 17); which ids name no mailbox, and how another package grants or refuses an entry (log 18). -/
def Obligations.MessageWords : Prop :=
  (∀ (s : State) (d a b : BitVec 6) (n : BitVec 4), s.h.lane = none →
    let refused : Prop := s.h.g = 0 ∨ ¬ isFibreType s
    (refused → ∀ i ∈ [Instr.msend d a n, .mrecv d n, .mtry d n], Traps i s Cause.illegal ((encode i).setWidth 64)) ∧
    (¬ refused → Sends (.msend d a n) s d (reg s a) ((pairsOf s.h n).map fun p => (BitVec.ofNat 32 p.1, BitVec.ofNat 32 p.2))) ∧
    Sends (.msendw d a b) s d (reg s a) [((reg s b).extractLsb' 32 32, (reg s b).setWidth 32)] ∧
    (¬ refused → s.h.mbox = [] → exec (.mrecv d n) s = .next (waitsFor s .message) ∧ exec (.mtry d n) s = .next (wrote s d 0)) ∧
    (¬ refused → ∀ m l, s.h.mbox = m :: l → Receives (.mrecv d n) s d n m l ∧ Receives (.mtry d n) s d n m l)) ∧
  (∀ g : BitVec 1, EventAtWhen (fun h => .mailboxEntryGrant h g) (fun s => s.h.wait ≠ some (.mailbox none)) (fun s => s)) ∧
  (∀ (s : State) (hid : BitVec 11) (g : BitVec 1) (d a b : BitVec 6) (t : State),
    let u := focus s hid
    let answered : State := if (reg t a).extractLsb' 52 12 = t.d.pkg then t else { t with h := { t.h with wait := some (.mailbox (some (g == 1))) } }
    u.h.wait = some (.mailbox none) → u.h.lane = none →
      (fetch u u.h.pc = .ok (encode (.msendw d a b), t) →
        ∃ v, exec (.msendw d a b) answered = .next v ∧ exec (.mailboxEntryGrant hid g) s = .next (focus v s.hid)) ∧
      (∀ n : BitVec 4, fetch u u.h.pc = .ok (encode (.msend d a n), t) → t.h.g ≠ 0 → isFibreType t →
        ∃ v, exec (.msend d a n) answered = .next v ∧ exec (.mailboxEntryGrant hid g) s = .next (focus v s.hid))) ∧
  (∀ (s : State) (n : Nat),
    (s.d.flight[n]? = none → exec (.messageDelivery n) s = .next s) ∧
    (∀ node id m, s.d.flight[n]? = some (node, id, m) →
      let u : State := { s with d := { s.d with flight := s.d.flight.eraseIdx n } }
      let earlier (e : BitVec 48 × Word × Message) : Prop := e.1 = node ∧ e.2.1 = id ∧ e.2.2.sender = m.sender
      let named : Prop := id.toNat / 2 ^ 32 % 2 ^ 16 ≠ 0 ∧ id.toNat / 2 ^ 48 % 2 ^ 4 = 0
      let takes (h : Hart) : Prop := hasMailbox id h ∧ h.node = node
      ((∃ e ∈ s.d.flight.take n, earlier e) → exec (.messageDelivery n) s = .next s) ∧
      ((∀ e ∈ s.d.flight.take n, ¬ earlier e) →
        exec (.messageDelivery n) s = .next (deliver u node id m) ∧
        ((∀ i ∈ s.liveHarts, ¬ takes (s.hart i)) → (∀ e ∈ s.d.saved, ¬ takes e.2) → deliver u node id m = u) ∧
        (named → s.hid ∈ s.liveHarts → takes s.h → (∀ i ∈ s.liveHarts, i ≠ s.hid → ¬ takes (s.hart i)) →
          deliver u node id m = { u with h := { u.h with mbox := u.h.mbox ++ [m] } })))) ∧
  Retries true .mrecvTake (fun w => ∃ d n, w = .mrecv d n)

/-- R335, R347, R357, R419, R421, R422, R433: counters and atomics across packages, and the operations of other packages that arrive here. What another
package sends and answers is an argument of the event; how a message of several pairs and an answer are told apart there, that a sender asks for an entry
before its message and holds it, and whose address space an operation acts in, are the model's choices (log 18), as is what a wait learns from its counter's
signals (log 43). A wait of pod scope passes once the hart's earlier remote operations are over. -/
def Obligations.PodWords : Prop :=
  (∀ (s : State) (d a b : BitVec 6), s.h.lane = none →
    let id := reg s a
    let n := reg s b
    let i := id.toNat % 2 ^ 16
    let pkg : BitVec 12 := id.extractLsb' 32 12
    let formed : Prop := id.toNat < 2 ^ 44 ∧ id.toNat / 2 ^ 16 % 2 ^ 16 = 0
    let v := s.d.ctr i
    (¬ formed ∨ (i ≠ 0 ∧ pkg ≠ s.d.pkg ∧ ¬ inReach s pkg) →
      ∀ w ∈ [Instr.msigtl a b, .mwaittl a b, .mtrytl d a b], Traps w s Cause.access id) ∧
    (formed → i = 0 → exec (.msigtl a b) s = .next (passed s) ∧ exec (.mwaittl a b) s = .next (passed s) ∧
      exec (.mtrytl d a b) s = .next (wrote s d 1)) ∧
    (formed → i ≠ 0 → pkg = s.d.pkg →
      (s.h.remote ≠ 0 → exec (.msigtl a b) s = .next (waitsFor s .acks)) ∧
      (s.h.remote = 0 → ∃ t, exec (.msigtl a b) s = .next (passed t) ∧ t = { released s 7 with d := { (released s 7).d with ctrs := t.d.ctrs } } ∧
        (Sparse.wf 0 s.d.ctrs = true → ∀ j, t.d.ctr j = if j = i then BitVec.ofNat 64 (max v.toNat n.toNat) else s.d.ctr j)) ∧
      (n.toNat ≤ v.toNat → s.h.remote = 0 → exec (.mwaittl a b) s = .next (passed (counterPassed s 7 (BitVec.ofNat 64 i))) ∧
        exec (.mtrytl d a b) s = .next (wrote (counterPassed s 7 (BitVec.ofNat 64 i)) d 1)) ∧
      (n.toNat ≤ v.toNat → s.h.remote ≠ 0 → exec (.mwaittl a b) s = .next (waitsFor s .acks) ∧ exec (.mtrytl d a b) s = .next (waitsFor s .acks)) ∧
      (v.toNat < n.toNat → exec (.mwaittl a b) s = .next (waitsFor s .timeline) ∧ exec (.mtrytl d a b) s = .next (wrote s d 0))) ∧
    (formed → i ≠ 0 → pkg ≠ s.d.pkg → inReach s pkg →
      (s.h.remote ≠ 0 → exec (.msigtl a b) s = .next (waitsFor s .acks)) ∧
      (s.h.remote = 0 → exec (.msigtl a b) s = .next (passed (away (released s 7) 16 id n 0))) ∧
      Remotely (.mwaittl a b) s false 17 id n 1 (fun _ => True) (fun _ => passed (acquired s 7)) ∧
      Remotely (.mtrytl d a b) s false 17 id n 0 (fun v => v ≠ 0) (fun v => if v = 0 then wrote s d 0 else wrote (acquired s 7) d 1))) ∧
  PodAtomic .mamoAdd 0 8 ∧ PodAtomic .mamoAnd 1 8 ∧ PodAtomic .mamoOr 2 8 ∧ PodAtomic .mamoXor 3 8 ∧ PodAtomic .mamoSwap 4 8 ∧
  PodAtomic .mamoMin 5 8 ∧ PodAtomic .mamoMax 6 8 ∧ PodAtomic .mamoFadd32 7 4 ∧ PodAtomic .mamo2Umin 8 8 ∧ PodAtomic .mamo2Umax 9 8 ∧
  PodAtomic .mamo2Cas 10 8 ∧ PodAtomic .mamo2Incb 11 8 ∧ PodAtomic .mamo2Fmin32 12 4 ∧ PodAtomic .mamo2Fmax32 13 4 ∧
  PodAtomic .mamo2Add32w 14 8 ∧ PodAtomic .mamo2Fadd16x2 15 4 ∧
  (∀ (s : State) (src : BitVec 12) (asid : BitVec 14) (op : BitVec 5) (a b x : Word),
    (s.d.inPod = false ∨ src = s.d.pkg → exec (.remoteOperation src asid op a b x) s = .next s) ∧
    (s.d.inPod = true → src ≠ s.d.pkg →
      (∀ root old t, op.toNat < 16 → rootOf s.d asid = some root → podAtomic true s asid root false op.toNat a b x = .ok (old, t) →
        exec (.remoteOperation src asid op a b x) s = .next t) ∧
      (∀ root e, op.toNat < 16 → rootOf s.d asid = some root → podAtomic true s asid root false op.toNat a b x = .error e →
        exec (.remoteOperation src asid op a b x) s = .next s) ∧
      (op.toNat < 16 → rootOf s.d asid = none → exec (.remoteOperation src asid op a b x) s = .next s) ∧
      (op = 16 → a.toNat % 2 ^ 16 ≠ 0 → exec (.remoteOperation src asid op a b x) s = .next { s with d := s.d.signal (a.toNat % 2 ^ 16) b }) ∧
      (op = 16 ∧ a.toNat % 2 ^ 16 = 0 ∨ op = 17 ∨ 21 < op.toNat → exec (.remoteOperation src asid op a b x) s = .next s) ∧
      (let pair : BitVec 32 × BitVec 32 := (x.extractLsb' 32 32, x.setWidth 32)
       let mine (e : Word × Word × BitVec 32 × BitVec 32) : Bool := decide (e.1 = a ∧ e.2.1 = b)
       let granted (e : BitVec 48 × Word × Word) : Prop := e.2.1 = a ∧ e.2.2 = b
       let m : Message := { sender := b, pairs := ((s.d.podin.filter mine).map fun e => e.2.2) ++ (if op = 18 then [pair] else []), pod := true }
       (op = 19 → exec (.remoteOperation src asid op a b x) s = .next { s with d := { s.d with podin := s.d.podin ++ [(a, b, pair)] } }) ∧
       (op = 18 ∨ op = 20 → (∀ e ∈ s.d.podgrant, ¬ granted e) → exec (.remoteOperation src asid op a b x) s = .next s) ∧
       (∀ l e r, op = 18 ∨ op = 20 → s.d.podgrant = l ++ e :: r → granted e → (∀ q ∈ l, ¬ granted q) →
         exec (.remoteOperation src asid op a b x) s =
           .next (deliver { s with d := { s.d with podin := s.d.podin.filter fun e => !mine e, podgrant := l ++ r } } e.1 a m)) ∧
       (op = 21 → holderOf s a = none → exec (.remoteOperation src asid op a b x) s = .next s) ∧
       (∀ r, op = 21 → holderOf s a = some r →
         (entriesOf s a r < 16 → exec (.remoteOperation src asid op a b x) s =
           .next { s with d := { s.d with podgrant := s.d.podgrant ++ [(r.node, a, b)] } }) ∧
         (16 ≤ entriesOf s a r → exec (.remoteOperation src asid op a b x) s = .next s))))) ∧
  (∀ (own : BitVec 1) (v : Word) (st : BitVec 8) (o : Outgoing) (l r : List Outgoing),
    EventAtWhen (fun h => .remoteAcknowledgement h own v st)
      (fun s => own = 1 ∧ (∃ k, s.h.wait = some (.remote k none)) ∧ s.d.podout = l ++ o :: r ∧ o.hart = s.hid ∧ ∀ p ∈ r, p.hart ≠ s.hid)
      (fun s => { s with d := { s.d with podout := l ++ r }, h := { s.h with remote := s.h.remote - 1, wait := match s.h.wait with
        | some (.remote k _) => some (.remote k (some (v, st)))
        | w => w } }) ∧
    EventAtWhen (fun h => .remoteAcknowledgement h own v st)
      (fun s => own = 0 ∧ (∃ k, s.h.wait = some (.remote k none)) ∧ s.d.podout = l ++ o :: r ∧ o.hart = s.hid ∧ (∀ p ∈ l, p.hart ≠ s.hid) ∧
        ∃ p ∈ r, p.hart = s.hid)
      (fun s => { s with d := { s.d with podout := l ++ r }, h := { s.h with remote := s.h.remote - 1 } }) ∧
    EventAtWhen (fun h => .remoteAcknowledgement h own v st)
      (fun s => (∀ k, s.h.wait ≠ some (.remote k none)) ∧ s.d.podout = l ++ o :: r ∧ o.hart = s.hid ∧ ∀ p ∈ l, p.hart ≠ s.hid)
      (fun s => { s with d := { s.d with podout := l ++ r }, h := { s.h with remote := s.h.remote - 1 } }) ∧
    EventAtWhen (fun h => .remoteAcknowledgement h own v st) (fun s => ∀ p ∈ s.d.podout, p.hart ≠ s.hid) (fun s => s))

/-! ## The host and the device -/

/-- R426, R428, R429, R430, R431, R432, R433, R438, R442, R447, R448: what the host and the fabric set-up do: accesses through BAR2 byte by byte at the homes,
which wait for a stack under repair, job starts in the order of R429, which wait for a record in such a stack, counters, doorbells, ports and the error log; in stage 0 only what R438 serves. The
model's choices: `Device.hostRead` holds what the host last read (log 13); a function-level reset has no effect on the device (log 29); the fabric is set up
only while no unit is live or saved (log 38). -/
def Obligations.HostEvents : Prop :=
  (∀ (s : State) (off v : Word) (size : BitVec 2),
    let base := s.d.bar2base.toNat + off.toNat
    let reached (a : Nat) : Prop :=
      base ≤ a ∧ a < base + 2 ^ size.toNat ∧ a < s.d.bar2base.toNat + 2 ^ s.d.bar2log ∧ a < 0x9000000000 ∧ (s.d.stage = 0 → a < 2 ^ 30)
    let waits : Prop := ∃ i, i < 2 ^ size.toNat ∧ off.toNat + i < 2 ^ s.d.bar2log ∧ underRepair s.d (base + i) = true
    (waits → ∀ w, exec (.hostBar2Access w off size v) s = .next s) ∧
    (¬ waits → ∃ r : Word, exec (.hostBar2Access 0 off size v) s = .next { s with d := { s.d with hostRead := r } } ∧
      ∀ i, i < 8 → (reached (base + i) → r.toNat / 256 ^ i % 256 = (Memory.get s.d.mem (base + i)).toNat) ∧
        (¬ reached (base + i) → r.toNat / 256 ^ i % 256 = 0)) ∧
    (¬ waits → ∃ t, exec (.hostBar2Access 1 off size v) s = .next t ∧
      t = { s with d := { s.d with mem := t.d.mem, poison := t.d.poison, ckpt := t.d.ckpt } } ∧
      (Memory.wf s.d.mem = true → ∀ a, (reached a → (Memory.get t.d.mem a).toNat = v.toNat / 256 ^ (a - base) % 256) ∧
        (¬ reached a → Memory.get t.d.mem a = Memory.get s.d.mem a)))) ∧
  (∀ (s : State) (v : Word) (size : BitVec 6) (i : BitVec 16) (h : BitVec 11) (x y z : BitVec 4) (p : BitVec 4) (up : BitVec 1) (e : BitVec 10) (b : BitVec 3),
    (v.toNat % 2 ^ s.d.bar2log = 0 → exec (.bar2baseWrite v) s = .next { s with d := { s.d with bar2base := v } }) ∧
    (v.toNat % 2 ^ s.d.bar2log ≠ 0 → exec (.bar2baseWrite v) s = .next s) ∧
    (30 ≤ size.toNat → size.toNat ≤ 40 → exec (.resizableBarSelect size) s = .next { s with d := { s.d with bar2log := size.toNat } }) ∧
    (size.toNat < 30 ∨ 40 < size.toNat → exec (.resizableBarSelect size) s = .next s) ∧
    exec .functionLevelReset s = .next s ∧
    (s.d.stage = 0 → ∀ w ∈ [Instr.hostCounterWrite i v, .doorbell h, .validWrite e, .ccountWrite b], exec w s = .next s) ∧
    (s.d.stage ≠ 0 → 0xF000 ≤ i.toNat → exec (.hostCounterWrite i v) s = .next { s with d := s.d.signal i.toNat v }) ∧
    (s.d.stage ≠ 0 → 0 < i.toNat → i.toNat < 0xF000 →
      exec (.hostCounterWrite i v) s = .next { s with d := logEvent s.d (BitVec.ofNat 64 (0xF000200000 + 8 * i.toNat)) 0xFFFF 5 2 }) ∧
    (i = 0 → exec (.hostCounterWrite i v) s = .next s) ∧
    (s.d.stage ≠ 0 → let u := raiseAt s h 1
      exec (.doorbell h) s = .next { u with d := { u.d with msix := if s.d.route[0].getLsbD 63 then u.d.msix ++ [256] else u.d.msix } }) ∧
    (s.liveHarts = [] → s.d.saved = [] → exec (.fabricSetUp x y z) s = .next (raiseSource { s with d := { s.d with inPod := true, pkg := z ++ y ++ x, gen := s.d.gen + 1 } } 4)) ∧
    (s.liveHarts ≠ [] ∨ s.d.saved ≠ [] → exec (.fabricSetUp x y z) s = .next s) ∧
    (p.toNat < 12 → s.d.ports.getLsbD p.toNat ≠ (up == 1) → ∃ q, exec (.portStateChange p up) s = .next (raiseSource { s with d := { s.d with ports := q } } 7) ∧
      ∀ r, r < 12 → q.getLsbD r = if r = p.toNat then up == 1 else s.d.ports.getLsbD r) ∧
    (12 ≤ p.toNat ∨ s.d.ports.getLsbD p.toNat = (up == 1) → exec (.portStateChange p up) s = .next s) ∧
    (∀ w, s.d.stage ≠ 0 → sfind s.d.log e.toNat = some w →
      exec (.validWrite e) s = .next { s with d := { s.d with log := sput s.d.log e.toNat (w.1, w.2 &&& ~~~1#64) } }) ∧
    (sfind s.d.log e.toNat = none → exec (.validWrite e) s = .next s) ∧
    (∀ hb : b.toNat < 5, s.d.stage ≠ 0 → exec (.ccountWrite b) s = .next { s with d := { s.d with ccount := s.d.ccount.set b.toNat 0 } }) ∧
    (5 ≤ b.toNat → exec (.ccountWrite b) s = .next s)) ∧
  (∀ (s : State) (j : BitVec 8),
    let r := jobReg s.d j
    let answers (n : BitVec 8) : Prop := exec (.go j) s = .next (withJob s j { r with status := n, starting := false })
    let badAddress : Prop := r.record.toNat % 64 ≠ 0 ∨ 0x9000000000 ≤ r.record.toNat ∨ 2 ^ 16 ≤ r.jobtl.toNat
    (r.live = true → answers 7) ∧
    (r.live = false → s.d.stage.toNat < 2 → answers 8) ∧
    (r.live = false → 2 ≤ s.d.stage.toNat → badAddress → answers 9) ∧
    (r.live = false → 2 ≤ s.d.stage.toNat → ¬ badAddress → underRepair s.d r.record.toNat = true →
      exec (.go j) s = .next (withJob s j { r with starting := true })) ∧
    (r.live = false → 2 ≤ s.d.stage.toNat → ¬ badAddress → underRepair s.d r.record.toNat = false → freeSlot s.d = none → answers 6) ∧
    (∀ slot, r.live = false → 2 ≤ s.d.stage.toNat → ¬ badAddress → underRepair s.d r.record.toNat = false → freeSlot s.d = some slot →
      let id := nextId s.d slot
      let n : Node :=
        { gen := id.extractLsb' 16 32, kind := .job, state := .running, parent := none, job := id, record := 0, asid := r.asid, ptroot := r.ptroot,
          timeline := r.jobtl, counter := 0, accepted := 0, limit := 0, status := 0, cancelled := false, gate := none, gateUnit := none,
          creator := 2048, queuedAt := s.d.cycle.toNat, aged := 0, nextGang := 0, gateLast := none, jobReg := some j, freedAt := 0,
          clock := Vector.replicate 16 0 }
      let d : Device := { s.d with nodes := sput s.d.nodes slot n }
      let root : BitVec 512 := BitVec.ofNat 512 (Memory.read s.d.mem r.record.toNat 64)
      let st := checkRecord d root id
      (st = 0 → ∃ t, exec (.go j) s = .next { s with d := (createNode t root id r.asid r.ptroot 2048 none none).2 } ∧
        t = { d with jobs := sput s.d.jobs j.toNat { r with starting := false, jobid := id.setWidth 64, status := 0, live := true } }) ∧
      (st ≠ 0 → exec (.go j) s = .next { s with d := { s.d with
        nodes := sput d.nodes slot { n with state := .freed, freedAt := s.d.cycle.toNat },
        jobs := sput s.d.jobs j.toNat { r with starting := false, jobid := id.setWidth 64, status := BitVec.ofNat 8 st } } }))) ∧
  (∀ (s : State) (h : BitVec 11) (n : Nat), ∀ m, m ∈ ((raiseAt s h n).hart h).ext ↔ m = n ∨ m ∈ (s.hart h).ext) ∧
  (∀ (s : State) (n : Fin 8),
    let r := s.d.route[n]
    let t := raiseSource s (n.val + 1)
    n.val + 1 ∈ (t.hart (r.setWidth 11)).ext ∧ t.d = { s.d with msix := if r.getLsbD 63 then s.d.msix ++ [256 + n.val] else s.d.msix }) ∧
  (∀ (d : Device) (a : Word) (core blk kind : Nat), core < 2 ^ 16 → blk < 16 → kind < 8 →
    let t := logEvent d a core blk kind
    let lost : Prop := ∃ e, sfind d.log (d.logHead.toNat % 1024) = some e ∧ e.2.getLsbD 0 = true
    t = { d with log := t.log, logHead := d.logHead + 1, logLost := t.logLost } ∧
    sfind t.log (d.logHead.toNat % 1024) = some (a, logWord core blk kind) ∧
    (lost → t.logLost = d.logLost + 1) ∧ (¬ lost → t.logLost = d.logLost))

/-- R244, R331, R435, R436, R437, R438, R440, R441, R442, R449, R450, R451: firmware load and verification, the stages, attestation, and checkpoints; a
frame in a stack under repair waits. The digests of
what firmware starts and of calibration tables are open, and so are the keys (log 9); how a signature is formed and checked is the family's (RFC 8017, log 30),
and so is SHA-256 (FIPS 180-4, log 44). The model's choices: `ARM` checks DLEN first, the counter rises by one, the length of a compressed frame
is an open constant's, every frame is streamed before it is written, the block's registers count as they stand, and of the way to the destination only the
own ports are looked at (log 39); LADDR and LLEN count as they stand when verification ends, LSTAT stands until then, and an entry offset of any alignment
is accepted (log 46). -/
def Obligations.FirmwareAndCheckpointEvents : Prop :=
  (∀ s : State,
    let d := s.d
    let rd (o n : Nat) : Nat := Memory.read d.mem (d.laddr.toNat + o) n
    let body := rd 0x008 8
    let badRange : Prop := d.laddr.toNat % 4096 ≠ 0 ∨ d.llen.toNat % 4096 ≠ 0 ∨ 0x10000000 < d.llen.toNat ∨ 0x40000000 ≤ d.laddr.toNat ∨
      0x40000000 < d.laddr.toNat + d.llen.toNat
    let badFormat : Prop := rd 0 4 ≠ 0x46574E58 ∨ rd 4 4 ≠ 1 ∨ rd 0x018 40 ≠ 0 ∨ rd 0x1C4 60 ≠ 0 ∨ body ≤ rd 0x010 8 ∨ d.llen.toNat < 0x200 + body + 384
    let st := verifyImage d
    let extended (i : Fin 8) (l : List (BitVec 256)) : Vector (BitVec 256) 8 :=
      d.meas.set i (l.foldl (fun m digest => sha256 (m.toNat + 2 ^ 256 * digest.toNat) 64) d.meas[i])
    let modulus := bigEndian d.mem (d.laddr.toNat + 0x040) 384
    let signature := bigEndian d.mem (d.laddr.toNat + 0x200 + body) 384
    (d.lbusy = true → exec .load s = .next s) ∧
    (d.lbusy = false → d.stage ≠ 0 → exec .load s = .next { s with d := { d with lstat := 5 } }) ∧
    (d.lbusy = false → d.stage = 0 → badRange → exec .load s = .next { s with d := { d with lstat := 4 } }) ∧
    (d.lbusy = false → d.stage = 0 → ¬ badRange → exec .load s = .next { s with d := { d with lbusy := true } }) ∧
    (badFormat → st = 2) ∧
    (¬ badFormat → st = 1 ∨ st = 3) ∧
    (¬ badFormat → sha256 (rd 0x040 388) 388 ≠ Config.keyDigest → st = 1) ∧
    (¬ badFormat → sha256 (rd 0x040 388) 388 = Config.keyDigest →
      (st = 3 ↔ signature < modulus ∧ signature ^ rd 0x1C0 4 % modulus = pkcs1 (digestNumber (sha256 (rd 0 (0x200 + body)) (0x200 + body))))) ∧
    (d.lbusy = false → exec .firmwareVerifyDone s = .next s) ∧
    (d.lbusy = true → st ≠ 3 → exec .firmwareVerifyDone s = .next { s with d := { d with lbusy := false, lstat := BitVec.ofNat 8 st } }) ∧
    (d.lbusy = true → st = 3 →
      let len := 0x200 + body + 384
      exec .firmwareVerifyDone s = .next { s with d := { d with lbusy := false, lstat := 3, stage := 1, meas := extended 1 [sha256 (rd 0 len) len] } }) ∧
    (d.stage = 1 → ∃ l, l ≠ [] ∧ exec .stage2Entry s = .next (raiseSource { s with free := s.free + 1 + 4 * l.length, d := { d with
      meas := extended 2 l, stage := 2, gen := d.gen + 1 } } 4)) ∧
    (d.stage ≠ 1 → exec .stage2Entry s = .next s) ∧
    (d.stage = 2 → ∃ l, exec .stage3Entry s = .next (raiseSource { s with free := s.free + 1 + 4 * l.length, d := { d with
      meas := extended 4 l, stage := 3, gen := d.gen + 1 } } 4)) ∧
    (d.stage ≠ 2 → exec .stage3Entry s = .next s) ∧
    (d.abusy = true → exec .req s = .next s) ∧
    (d.abusy = false → d.stage = 0 → exec .req s = .next { s with d := { d with astat := 2, adone := false } }) ∧
    (d.abusy = false → d.stage ≠ 0 → exec .req s = .next { s with d := { d with anonce := d.nonce, abusy := true, adone := false } }) ∧
    (d.abusy = false → exec .attestationReportReady s = .next s) ∧
    (d.abusy = true → ∃ r, exec .attestationReportReady s = .next { s with d := { d with report := r, abusy := false, adone := true, astat := 1 } } ∧
      r.extractLsb' 0 32 = 1#32 ∧ r.extractLsb' 32 32 = d.stage.setWidth 32 ∧ r.extractLsb' 64 16 = 1#16 ∧ r.extractLsb' 80 8 = d.rev ∧ r.extractLsb' 88 8 = 0#8 ∧
      r.extractLsb' 96 96 = d.serial ∧ r.extractLsb' 192 256 = d.anonce ∧ (∀ i : Fin 8, r.extractLsb' (448 + 256 * i.val) 256 = d.meas[i]) ∧
      r.extractLsb' 2496 64 = d.cycle ∧ r.extractLsb' 2560 3072 = BitVec.ofNat 3072 (reportSignature (r.extractLsb' 0 2560).toNat))) ∧
  (∀ b i : Nat, Config.identityExponent < 2 ^ 3072 → i < 384 → reportSignature b / 256 ^ i % 256 =
    pkcs1 (digestNumber (sha256 b 320)) ^ Config.identityExponent % Config.identityModulus / 256 ^ (383 - i) % 256) ∧
  (∀ s : State,
    let k := s.d.ckpt
    let job : BitVec 48 := k.job.setWidth 48
    let phase : BitVec 48 := k.phase.setWidth 48
    let set (k : Ckpt) : State := { s with d := { s.d with ckpt := k } }
    let named : Prop := k.job.toNat < 2 ^ 48 ∧ k.phase.toNat < 2 ^ 48 ∧
      ∃ j p, liveNode s.d job = some j ∧ liveNode s.d phase = some p ∧ j.kind = .job ∧ p.kind = .phase ∧ p.job = job
    let idle : Prop := k.armed = false ∧ k.stream = false
    (¬ idle ∨ s.d.stage = 0 → exec .arm s = .next s) ∧
    (idle → s.d.stage ≠ 0 → k.dlen.toNat < 2 ^ 30 * 576 + 2 ^ 20 * 576 → exec .arm s = .next (raiseSource (set { k with cstat := 3 }) 6)) ∧
    (idle → s.d.stage ≠ 0 → 2 ^ 30 * 576 + 2 ^ 20 * 576 ≤ k.dlen.toNat → ¬ named → exec .arm s = .next (raiseSource (set { k with cstat := 4 }) 6)) ∧
    (idle → s.d.stage ≠ 0 → 2 ^ 30 * 576 + 2 ^ 20 * 576 ≤ k.dlen.toNat → named → exec .arm s = .next (set { k with armed := true, cstat := 0 })) ∧
    (k.armed = false ∨ (liveNode s.d phase ≠ none ∧ liveNode s.d job ≠ none) ∨ (liveNode s.d phase = none ∧ jobHasUnit s job = true) →
      exec .checkpointCut s = .next s) ∧
    (k.armed = true → liveNode s.d phase ≠ none → liveNode s.d job = none → exec .checkpointCut s = .next (endCkpt s 5)) ∧
    (k.armed = true → liveNode s.d phase = none → jobHasUnit s job = false → exec .checkpointCut s = .next (set { k with
      armed := false, stream := true, streamed := [], sink := [], lens := [], bytes := 0, cutcyc := s.d.cycle })) ∧
    (∀ n : BitVec 28,
      (k.stream = false → exec (.frameStream n) s = .next s) ∧
      (k.stream = true → destinationReached s.d = false → exec (.frameStream n) s = .next (endCkpt s 2)) ∧
      (destinationReached s.d = true → 150994944 ≤ n.toNat → exec (.frameStream n) s = .next s) ∧
      (destinationReached s.d = true → underRepair s.d (4096 * n.toNat) = true → exec (.frameStream n) s = .next s) ∧
      (k.stream = true → destinationReached s.d = true → n.toNat < 150994944 → underRepair s.d (4096 * n.toNat) = false →
        let u : State := { s with d := streamFrame s.d n.toNat }
        let all : Prop := ∀ e ∈ u.d.mem, e.1 / 4096 ∈ u.d.ckpt.streamed
        (all → exec (.frameStream n) s = .next (endCkpt u 1)) ∧ (¬ all → exec (.frameStream n) s = .next u))) ∧
    (∀ st, ∃ t n, endCkpt s st = raiseSource t 6 ∧ t = { s with d := { s.d with ckpt := t.d.ckpt, ctrs := t.d.ctrs } } ∧ n = k.ctr.toNat ∧
      t.d.ckpt.armed = false ∧ t.d.ckpt.stream = false ∧ t.d.ckpt.cstat = BitVec.ofNat 8 st ∧
      t.d.ckpt.bytes = (if st = 1 then k.bytes + 576 * 2 ^ 20 else k.bytes) ∧
      (st ≠ 1 → t.d.ctrs = s.d.ctrs) ∧ (st = 1 → t.d.ckpt.donecyc = s.d.cycle) ∧
      (st = 1 → 0 < n → n < 2 ^ 16 → (s.d.ctr n).toNat + 1 < 2 ^ 64 → t.d.ctr n = s.d.ctr n + 1))) ∧
  (∀ (d : Device) (n : Nat), Memory.wf d.mem = true → Memory.wf d.ckpt.sink = true → Sparse.wf 0 d.ckpt.lens = true → d.ckpt.stream = true →
    n ∉ d.ckpt.streamed → (∀ a, a / 4096 = n → Memory.get d.ckpt.sink a = 0) →
    let u := streamFrame d n
    let len := sget u.ckpt.lens n 0
    u.mem = d.mem ∧ u.ckpt.bytes = d.ckpt.bytes + BitVec.ofNat 64 len ∧ len ≤ 4096 ∧
    (len = 0 ↔ ∀ a, a / 4096 = n → Memory.get d.mem a = 0) ∧ (compressed d n = false → len = 0 ∨ len = 4096) ∧
    (len = 0 ∨ len = 4096 → frameCopied u n) ∧ (∀ a, a / 4096 = n → len ≤ a % 4096 → Memory.get u.ckpt.sink a = 0) ∧
    ∀ pa k v, pa / 4096 = n → (homeWrite d pa k v).ckpt = u.ckpt)

/-- R237, R239, R319, R331, R333, R343, R432, R442, R443, R444, R445, R446, R447: what the device does by itself: lines that leave an L1, write-backs that a
home holds, errors, telemetry, power, blocks that leave and return, with the job starts that a stack's return lets go on, the trip and the reset. What telemetry measures is open (log 9). What a trip and a reset
leave, and that a trip keeps STAGE, is the model's choice (log 38). -/
def Obligations.DeviceEvents : Prop :=
  (∀ (s : State) (core : BitVec 8) (line : BitVec 52),
    let key := setKey s.d core.toNat (line.toNat * 128)
    let set := sget s.d.l1 key []
    (∀ l, lineOf set line.toNat = some l → l.locks = [] →
      ∃ t, exec (.l1Eviction core line) s = .next t ∧ t = { s with d := { s.d with l1 := t.d.l1, held := t.d.held, lclock := t.d.lclock } } ∧
        sget t.d.l1 key [] = set.filter (fun x => decide (x.tag ≠ line.toNat)) ∧
        (l.dirty = 0 → t.d.held = s.d.held ∧ t.d.lclock = s.d.lclock) ∧
        (l.dirty ≠ 0 → ∃ ck, t.d.held = s.d.held ++
          [{ layer := core.toNat / 16, line := line.toNat, dirty := l.dirty, data := l.data, poison := l.poison, clock := ck }])) ∧
    ((∀ l, lineOf set line.toNat = some l → l.locks ≠ []) → exec (.l1Eviction core line) s = .next s)) ∧
  (∀ (s : State) (n : Nat) (w : Held), s.d.held[n]? = some w →
    let rest := s.d.held.eraseIdx n
    let older : Prop := ∃ o ∈ rest, homeLayer s.d (o.line * 128) = homeLayer s.d (w.line * 128) ∧ covers w.clock o = true
    (older → exec (.homeHoldRelease n) s = .next s) ∧
    (¬ older → ∃ t, exec (.homeHoldRelease n) s = .next t ∧ t = { s with d := { s.d with
        held := rest, mem := t.d.mem, poison := t.d.poison, ckpt := t.d.ckpt, hclock := t.d.hclock } } ∧
      (Memory.wf s.d.mem = true →
        (∀ k, k < 128 → w.dirty.getLsbD (k / 32) = true → (Memory.get t.d.mem (w.line * 128 + k)).toNat = w.data.toNat / 256 ^ k % 256) ∧
        ∀ a, a / 128 ≠ w.line ∨ w.dirty.getLsbD (a % 128 / 32) = false → Memory.get t.d.mem a = Memory.get s.d.mem a))) ∧
  (∀ (s : State) (n : Nat), s.d.held.length ≤ n → exec (.homeHoldRelease n) s = .next s) ∧
  (∀ (s : State) (blk core : BitVec 8) (a : Word),
    let at' : Word := if blk = 0 then a ||| (1#64 <<< 63) else a
    let who : Nat := if blk = 2 ∨ blk = 3 then 0xFFFF else core.toNat
    (5 ≤ blk.toNat → exec (.correctedError blk core a) s = .next s ∧ exec (.uncorrectedError blk core a) s = .next s) ∧
    (∀ b : Fin 5, blk.toNat = b.val →
      let n := s.d.ccount[b].toNat
      let n' := min (n + 1) (2 ^ 32 - 1)
      let t : State := { s with d := logEvent { s.d with ccount := s.d.ccount.set b (BitVec.ofNat 32 n') } at' who b 0 }
      let reaches : Prop := s.d.cthresh[b].toNat = n' ∧ n' ≠ n
      (reaches → exec (.correctedError blk core a) s = .next (raiseSource t 2)) ∧
      (¬ reaches → exec (.correctedError blk core a) s = .next t) ∧
      (let u := damage s b core a
       exec (.uncorrectedError blk core a) s = .next (raiseSource { u with d := logEvent u.d at' who b 1 } 3))) ∧
    (0xC0000 ≤ a.toNat → damage s 0 core a = s) ∧
    (a.toNat < 0xC0000 → sfind ((damage s 0 core a).core core.toNat).spoison (a.toNat / 64) = some 0) ∧
    (∀ b, b = 2 ∨ b = 3 → a.toNat < 0x9000000000 → damage s b core a = { s with d := { s.d with poison := sput s.d.poison (a.toNat / 32) 0 } }) ∧
    (∀ hid : BitVec 11, hid = core ++ (a.setWidth 3 : BitVec 3) → (focus s hid).h.live = true → (focus s hid).h.halted = false → atWord (focus s hid) →
      damage s 4 core a = focus (enterTrap (focus s hid) Cause.access (BitVec.allOnes 64)) s.hid)) ∧
  (∀ (s t : State) (w : Insn), matrixWord w s = some (.next t) → t.h.live = true → t.h.halted = false → atWord t →
    hurtMatrix w s = enterTrap { t with h := { t.h with mx := s.h.mx, vdirty := s.h.vdirty } } Cause.access (BitVec.allOnes 64)) ∧
  (∀ (s : State) (b : BitVec 8), exec (.throttleAlert b) s = .next (raiseSource s 5) ∧ exec .tripNearWarning s = .next (raiseSource s 8)) ∧
  (∀ s : State, ∃ t, exec .telemetryUpdate s = .next t ∧ t = { s with free := t.free, d := { s.d with tele := t.d.tele, seq := s.d.seq + 1 } } ∧
    (Sparse.wf 0 s.d.tele = true →
      (∀ o ∈ 0x008 :: 0x300 :: ((List.range 16).map (fun n => 0x100 + 8 * n) ++ (List.range 12).map (fun n => 0x200 + 8 * n)),
        sget t.d.tele o 0 &&& 0xFFFF0000#64 = 0) ∧
      (let temp (o : Nat) : BitVec 16 := (sget t.d.tele o 0).extractLsb' 0 16
       (∃ e ∈ teleEntries s.d, e.2 = true ∧ temp 0x008 = temp e.1) ∧ ∀ e ∈ teleEntries s.d, e.2 = true → (temp e.1).toInt ≤ (temp 0x008).toInt) ∧
      (∀ n, n < 16 → s.d.layersOut.getLsbD n = true ∨ s.d.stage.toNat < 3 ∧ 8 ≤ n → sget t.d.tele (0x100 + 8 * n) 0 = 0) ∧
      (∀ n, n < 12 → s.d.stacksOut.getLsbD n = true → sget t.d.tele (0x200 + 8 * n) 0 = 0))) ∧
  (∀ s : State,
    let kept : State := { State.reset with turns := s.turns, free := s.free, d := { Device.reset with
      rev := s.d.rev, serial := s.d.serial, cert := s.d.cert, clen := s.d.clen } }
    exec .deviceReset s = .next kept ∧ exec .electricalTrip s = .next { kept with d := { kept.d with trip := true, stage := s.d.stage } }) ∧
  (∀ (s : State) (kind : BitVec 2) (n : BitVec 5), keysRise s.parked →
    let ls : List Nat := if kind = 0 ∧ n.toNat < 8 then [2 * n.toNat, 2 * n.toNat + 1] else if kind = 1 ∧ n.toNat < 16 then [n.toNat] else []
    let mayLeave : Prop := (∃ l ∈ ls, s.d.layersOut.getLsbD l = false) ∧ ∃ l, l < 16 ∧ l ∉ ls ∧ s.d.layersOut.getLsbD l = false
    let leaves : Prop := mayLeave ∧ ∀ i ∈ s.liveHarts, layerOf i ∉ ls
    (kind = 2 → 12 ≤ n.toNat → exec (.blockLeaveService kind n) s = .next s ∧ exec (.blockReturnService kind n) s = .next s) ∧
    (kind = 2 → n.toNat < 12 →
      (∃ m, exec (.blockLeaveService kind n) s = .next { s with d := { s.d with stacksOut := m } } ∧
        ∀ i, i < 12 → m.getLsbD i = (s.d.stacksOut.getLsbD i || decide (i = n.toNat))) ∧
      (∃ m, exec (.blockReturnService kind n) s = .next (goJobs { s with d := { s.d with stacksOut := m } }) ∧
        ∀ i, i < 12 → m.getLsbD i = (s.d.stacksOut.getLsbD i && decide (i ≠ n.toNat)))) ∧
    (kind ≠ 2 → ¬ mayLeave → exec (.blockLeaveService kind n) s = .next s) ∧
    (kind ≠ 2 → mayLeave → ¬ leaves → ∃ t, exec (.blockLeaveService kind n) s = .next t ∧ t.d = { s.d with leaving := t.d.leaving } ∧
      (∀ i, i < 16 → t.d.leaving.getLsbD i = (s.d.leaving.getLsbD i || decide (i ∈ ls))) ∧
      ∀ i ∈ s.liveHarts, layerOf i ∈ ls → (s.core (coreOf i)).lease = none → t.hart i = { s.hart i with ppend := true }) ∧
    (kind ≠ 2 → leaves → ∃ t, exec (.blockLeaveService kind n) s = .next t ∧ t.d.gen = s.d.gen + 1 ∧ t.d.mem = s.d.mem ∧
      (∀ i, i < 16 → t.d.layersOut.getLsbD i = (s.d.layersOut.getLsbD i || decide (i ∈ ls))) ∧
      (∀ e ∈ t.d.l1, e.1 / 128 / 16 ∉ ls ∨ 256 ≤ e.1 / 128)) ∧
    (kind ≠ 2 → (∀ l ∈ ls, s.d.layersOut.getLsbD l = false) → ∃ m, exec (.blockReturnService kind n) s = .next { s with d := { s.d with leaving := m } } ∧
      ∀ i, i < 16 → m.getLsbD i = (s.d.leaving.getLsbD i && decide (i ∉ ls))) ∧
    (kind ≠ 2 → (∃ l ∈ ls, s.d.layersOut.getLsbD l = true) → ∃ t, exec (.blockReturnService kind n) s = .next t ∧ t.d.gen = s.d.gen + 1 ∧
      t.d.mem = s.d.mem ∧ ∀ i, i < 16 → t.d.layersOut.getLsbD i = (s.d.layersOut.getLsbD i && decide (i ∉ ls)))) ∧
  (∀ (d : Device) (pa : Nat), (∃ l, l < 16 ∧ d.layersOut.getLsbD l = false) →
    ∃ k, k < 16 ∧ homeLayer d pa = (pa / 4096 % 384 / 24) ^^^ k ∧ d.layersOut.getLsbD (homeLayer d pa) = false ∧
      ∀ j, j < k → d.layersOut.getLsbD ((pa / 4096 % 384 / 24) ^^^ j) = true)

/-! ## Decoding, steps, reset and invariants -/

/-- R6, R50, R51: the words that the spec's chapters write out as examples of encodings decode to what they stand for; the words of an unassigned major and
a scalar word with C = 1 are refused. -/
def Obligations.DecodeSampleWords : Prop :=
  (∀ p ∈ ([(0x03000000, .addi 0 0 0), (0x61C0A50B, .amoAdd 6 10 20 11), (0x12146FFC, .bne 5 6 0xFFC), (0x0B192345, .lui 6 0x12345),
    (0x0D243C08, .lwu 9 3 8), (0x0E28E600, .sd 10 14 0), (0x19140102, .csrrd 5 0x102), (0x0F20920E, .fcvtif 8 9 1 0 0), (0x1B002010, .brvAny 2 16),
    (0x20146046, .setvl 5 6 0 0 0 0x11 2), (0xA7284400, .vfmadd 1 5 1 2 0), (0x30110481, .vldStr 0 2 8 9 0 0), (0x49118680, .fldstLd 0 1 12 13 0),
    (0x40201058, .fmatch 0 2 0 1 11), (0x46023050, .fdot 0 2 3 10), (0x2F02D401, .vtox 0 0 11 20), (0x2D4A2A06, .vcvt 0 9 8 0x15 0 0 1 2),
    (0x4A30CA03, .sliopDiv 0 6 3 5 0), (0x4D20D800, .sliredSum 0 4 3 12 0), (0x4E504000, .vtransExp 0 10 1 0), (0x32190102, .vldx 0 3 8 2 0 0 2),
    (0x39429B0B, .vamoIncb 0 4 20 6 1 2 0), (0x59002003, .swset 2 3), (0x5B000009, .shgoRows 0 0 1), (0x5C000701, .shstatMiss 0 28),
    (0x64C00209, .waittl 6 8 9), (0x6524058D, .barrive 1 0 22 13), (0x51414163, .mmaAccSp 0 2 10 11), (0x5320C000, .mmetaMeta 0 1 6),
    (0x62C8920C, .amo2Cas 6 9 8 12), (0x63CC6200, .ldacq 6 3 6 8), (0x68104042, .vselMaxClr 0 2 1 1), (0x6A140003, .ltid 5),
    (0x706DA000, .launch 27 26), (0x711461C1, .msendw 5 6 7), (0x72005187, .supvTlbinv 5 6), (0x73645000, .seamRead 3 1 5)] : List (Nat × Instr)),
    decodeTableWord 32 p.1 = some p.2) ∧
  (∀ w ∈ [0x00000000, 0xFFFFFFFF, 0x83000000, 0xE1C0A50B, 0x0F0000FF], decodeTableWord 32 w = none)

/-- R44 to R51 and every encoding table: decoding the word of a well-formed instruction gives that instruction back, with every operand at every value
that its encoding admits. -/
def Obligations.DecodeEncodeAgree : Prop := ∀ i : Instr, Laws.RoundTrip.Statement i

/-- R13, R41, R43, R52, R122, R155, R235, R254, R310, R409, R439, R445, R459, R460: a step runs the instruction that the word at the pc decodes to, from the
state that the fetch leaves, an element-wise word from where its convoy resumes; what a refused word, a failed fetch, a word fetched early, an interrupt, an
open matrix convoy, a region, a stopped hart, an event of the schedule and a trip do instead. The model's choices, clause by clause: the schedule, its turns
and where in a cycle a turn may stand are log 2's; from which element a word of a stopped convoy goes on (`runFrom`, `takeOwed`) is log 1's; which words close
an open convoy, that one which would close it waits while a busy swatch holds back a store of the window (R254), and that a vector memory word behind it has
its effect in the step in which the convoy closes (`runToClose`), are log 24's; that a word fetched early stands for the word at its address until it is
forgotten (`fetch`, `fetchEarly`) is log 45's reading of R460. -/
def Obligations.StepRunsDecodedWord : Prop :=
  (∀ s u w t, TurnStarts s u → atFetch u → fetch (noStop u) u.h.pc = .ok (w, t) →
    let q := runFrom w t
    let offered : Prop := ¬ (q.d.stage = 2 ∧ notOffered w q.h = true)
    (∀ i, decode w = .ok i → offered → t.h.mstage.isOpen = false → vectorSide w = false → step s = exec i q) ∧
    (∀ i v, decode w = .ok i → offered → exec i q = .next v → t.h.mstage.isOpen = false ∨ lastingWord w = false →
      elementWord w = false ∨ v.h.instret ≠ q.h.instret ∨ v.h.vstart.toNat ≤ q.h.vstart.toNat →
      let z := ranOn w t v
      let held : Prop := t.h.mstage.isOpen = true ∧ storesBlocked t = true ∧
        (z.h.mstage.isOpen = false ∨ z.h.mstage.stores.length < t.h.mstage.stores.length)
      (¬ held → step s = .next z) ∧ (held → t.h.lane = none → step s = .next (waitsFor t .swatch))) ∧
    (∀ i v, decode w = .ok i → offered → exec i q = .next v → t.h.mstage.isOpen = true → lastingWord w = true → t.h.lane = none →
      elementWord w = false ∨ v.h.instret ≠ q.h.instret ∨ v.h.vstart.toNat ≤ q.h.vstart.toNat →
      let z := ranOn w t v
      let held : Prop := storesBlocked t = true ∧ (z.h.mstage.isOpen = false ∨ z.h.mstage.stores.length < t.h.mstage.stores.length)
      (held → step s = .next (waitsFor t .swatch)) ∧
      (¬ held → (∀ x, z.h.wait = some x → step s = .next (waitsFor t x)) ∧
        (z.h.wait = none → z.h.mstage.isOpen = false → step s = .next z) ∧
        (z.h.wait = none → z.h.mstage.isOpen = true → match runToClose convoyReach z with
          | .closes o => step s = o
          | .undone c x => step s = .next (enterTrap (undoConvoy t) c x)
          | .waits => step s = .next (waitsFor t .convoy)
          | .stuck => step s = if storesBlocked t then .next (waitsFor t .swatch) else issueOne w (closeStage t)))) ∧
    ((∀ i, decode w = .ok i → ¬ offered) → t.h.mstage.isOpen = false → (elementWord w = true → q.h.vstart ≠ 0 ∨ q.h.owed = []) →
      step s = exec (.illegalInsn w) q)) ∧
  (∀ (w : Insn) (t : State), t.h.mstage.isOpen = false → t.h.owed = [] → t.h.resumed = false → runFrom w t = t) ∧
  (∀ s u c v, TurnStarts s u → atFetch u → fetch (noStop u) u.h.pc = .error (.trap c v) →
    let held : Prop := u.h.mstage.isOpen = true ∧ storesBlocked u = true
    (u.h.prv = false ∨ u.h.pc ≠ u.h.tbase → ¬ held → step s = exec (.fetchFault c v) (noStop u)) ∧
    (u.h.prv = false ∨ u.h.pc ≠ u.h.tbase → held → u.h.lane = none → step s = .next (waitsFor (noStop u) .swatch)) ∧
    (u.h.prv = true → u.h.pc = u.h.tbase → step s = .next (raiseSource { noStop u with
      h := { (noStop u).h with halted := true }, d := logEvent u.d u.h.tbase (coreOf u.hid) 4 3 } 3))) ∧
  (∀ (u : State) (va : Word) (e : EarlyWord) (l r : List EarlyWord), u.h.early = l ++ e :: r → (∀ x ∈ l, x.serves u.h va = false) → e.serves u.h va = true →
    fetch u va = .ok (e.word, u)) ∧
  (∀ u va w t, u.h.live = true → u.h.halted = false → fetchNow u va = .ok (w, t) →
    fetch (fetchEarly va u) va = .ok (w, fetchEarly va u) ∧ (fetchEarly va u).d = t.d) ∧
  (∀ u va pa leaf t, place u .fetch va 4 = .ok (.mem pa leaf, t) → pa % 128 + 4 ≤ 128 → (∀ e ∈ u.h.early, e.serves u.h va = false) →
    (∀ l, lineOf (setAt t.d (coreOf t.hid) pa) (pa / 128) = some l → l.valid = true → l.poison = [] →
      ∃ v, fetch u va = .ok (l.data.extractLsb' (8 * (pa % 128)) 32, v)) ∧
    (lineOf (setAt t.d (coreOf t.hid) pa) (pa / 128) = none → (setAt t.d (coreOf t.hid) pa).length < 8 → t.d.held = [] → t.d.poison = [] →
      ∃ v, fetch u va = .ok (BitVec.ofNat 32 (Memory.read t.d.mem pa 4), v))) ∧
  (∀ s u p, TurnStarts s u → running' u → mayTake u → firstPending u.h = some p → u.h.stop = none → atWord u → step s = .next (enterTrap u p.1 p.2)) ∧
  (∀ s u p, TurnStarts s u → running' u → mayTake u → firstPending u.h = some p → u.h.region = none → u.h.mstage.isOpen = true → u.h.wait ≠ some .wfi →
    step s = .next (enterTrap (undoConvoy u) p.1 p.2)) ∧
  (∀ s u r, TurnStarts s u → running' u → u.h.region = some r → (¬ mayTake u ∨ firstPending u.h = none) → step s = .next (laneStep runWord r u)) ∧
  (∀ s u, TurnStarts s u → u.h.live = true → u.h.cancelled = true → (∀ r, u.h.wait ≠ some (.remote true r)) →
    u.h.stop = none ∨ u.h.halted = true ∨ u.h.region ≠ none → step s = exec (.unitCancelStop u.hid) u) ∧
  (∀ s u, TurnStarts s u → u.h.live = false ∨ (u.h.cancelled = false ∧ u.h.halted = true) → step s = .next u) ∧
  (∀ s i dt ts, s.turns = .event i dt :: ts → s.d.trip = false ∨ i = .deviceReset →
    let u := beginTurn { freshMarks s with turns := ts } (eventRank i) (eventPort i) dt
    step s = if isEvent i then exec i u else .next u) ∧
  (∀ (s : State) (rank dt : Nat) (p : Nat × Nat),
    let u := beginTurn s (some rank) (some p) dt
    let late : Prop := rank < s.lastRank ∨ (p.1 = s.lastBank.1 ∧ p.2 < s.lastBank.2)
    u.lastRank = rank ∧ u.lastBank = p ∧ (dt = 0 → late → u.d.cycle = s.d.cycle + 1) ∧
    (dt ≠ 0 ∨ ¬ late → u.d.cycle = s.d.cycle + BitVec.ofNat 64 dt)) ∧
  (∀ (w : Insn), wordPort w = if 0x50 ≤ w.toNat / 2 ^ 24 % 2 ^ 7 ∧ w.toNat / 2 ^ 24 % 2 ^ 7 ≤ 0x55 then 0 else if vectorSide w = true then 1 else 18) ∧
  (∀ s h va dt ts, s.turns = .early h va dt :: ts → s.d.trip = false →
    let u := beginTurn { freshMarks s with turns := ts } none none dt
    step s = .next (focus (fetchEarly va (focus u h)) u.hid)) ∧
  (∀ s, s.d.trip = true → (∀ dt ts, s.turns ≠ .event .deviceReset dt :: ts) → step s = .fault .clockStopped)

/-- R15, R22, R29, R149, R150, R252, R256, R289, R292, R435, R437: what reset leaves: stage 0, no unit on any hart, every register that has a reset value at it,
no valid pattern, no swatch, no command, and memory with nothing listed. That a register without a reset value and a byte of memory read as zero is the
model's choice (log 8, log 3). -/
def Obligations.ResetState : Prop :=
  let s := State.reset
  let h := s.h
  s.d.stage = 0 ∧ s.d.trip = false ∧ s.liveHarts = [] ∧ (∀ hid, s.hart hid = h ∧ s.core (coreOf hid) = s.c) ∧
  h.status = 0x700 ∧ h.g = 0 ∧ h.vl = 0 ∧ h.vtype = 0 ∧ h.vstart = 0 ∧ h.vpr = 0 ∧ h.vdirty = 0 ∧ h.fcsr = 0 ∧ h.mshape = 0 ∧ h.smm = 0 ∧
  h.focc = Vector.replicate 16 0 ∧ h.x = Vector.replicate 64 0 ∧ h.epc = 0 ∧ h.cause = 0 ∧ h.tval = 0 ∧
  s.c.na = 8 ∧ (∀ i : Fin 16, s.c.chans[i].next = 1 ∧ s.c.chans[i].cmds = [] ∧ s.c.chans[i].stat = 0 ∧ s.c.chans[i].faultAddr = 0 ∧
    s.c.chans[i].miss = 0 ∧ s.c.chans[i].stg = Staging.empty) ∧
  (∀ n, (patAt s.c n).valid = false) ∧ s.c.sws = Vector.replicate 64 0 ∧
  s.d.mem = [] ∧ s.c.spad = [] ∧ s.d.meas[0] = Config.bootMeasure ∧ (∀ i : Fin 8, i ≠ 0 → s.d.meas[i] = 0) ∧ s.Safe

/-- R28, R35, R150: whatever a step does, x0 stays zero, the low bits of EPC and TBASE and the reserved bits of MSHAPE stay zero at every hart, and every memory
stays in its canonical form (the model's own, log 3). -/
def Obligations.StepKeepsSafe : Prop := ∀ s t : State, s.Safe → step s = .next t → t.Safe

/-- R22: a hart whose grant is 0 lane groups raises `ILLEGAL_INSN` on every vector, fibre, level-index and matrix instruction other than `SETVL` and `SETVLX`,
with the word in `TVAL`, and nothing else changes but what the entry changes. -/
def Obligations.NoGrantTraps : Prop :=
  ∀ (s : State) (i : Instr), i.wellFormed = true → needsGrant i → s.h.lane = none → s.h.g = 0 →
    Traps i s Cause.illegal ((encode i).setWidth 64)
end

