-- ==== Sys2Proof/Laws/Memory.lean ====
section
/-!
SUPPORT. Keyed lists and memories: what a read gives after a write, and that every write keeps the canonical form (log 3).
-/

namespace Sys2Proof.Laws

open Sys2Proof.Machine

set_option Elab.async false

/-! ## Keyed lists -/

/-- The value just listed is read back. -/
@[simp] theorem sget_sput_same {α : Type} (m : Sparse α) (k : Nat) (v d : α) : sget (sput m k v) k d = v := by
  induction m with
  | nil => simp [sput, sget]
  | cons e t ih =>
    obtain ⟨k', v'⟩ := e
    simp only [sput]
    split
    · simp [sget]
    · split
      · simp [sget]
      · rename_i h1 h2
        simp [sget, h1, h2, ih]

/-- A value listed at a key leaves every other key alone. -/
theorem sget_sput_other {α : Type} (m : Sparse α) (k j : Nat) (v d : α) (h : j ≠ k) : sget (sput m k v) j d = sget m j d := by
  induction m with
  | nil => simp [sput, sget, h]
  | cons e t ih =>
    obtain ⟨k', v'⟩ := e
    simp only [sput]
    split
    · rename_i h1
      subst h1
      simp [sget, h]
    · split
      · rename_i h1 h2
        simp only [sget, h, if_false]
        split
        · rename_i h3
          have h4 : j ≠ k' := by omega
          have h5 : j < k' := by omega
          simp [h4, h5]
        · rfl
      · simp only [sget, ih]

/-- The entry just listed is found. -/
@[simp] theorem sfind_sput_same {α : Type} (m : Sparse α) (k : Nat) (v : α) : sfind (sput m k v) k = some v := by
  induction m with
  | nil => simp [sput, sfind]
  | cons e t ih =>
    obtain ⟨k', v'⟩ := e
    simp only [sput]
    split
    · simp [sfind]
    · split
      · simp [sfind]
      · rename_i h1 h2
        simp [sfind, h1, h2, ih]

/-- An entry listed at a key leaves what is found at every other key. -/
theorem sfind_sput_other {α : Type} (m : Sparse α) (k j : Nat) (v : α) (h : j ≠ k) : sfind (sput m k v) j = sfind m j := by
  induction m with
  | nil => simp [sput, sfind, h]
  | cons e t ih =>
    obtain ⟨k', v'⟩ := e
    simp only [sput]
    split
    · rename_i h1
      subst h1
      simp [sfind, h]
    · split
      · rename_i h1 h2
        simp only [sfind, h, if_false]
        split
        · rename_i h3
          have h4 : j ≠ k' := by omega
          have h5 : j < k' := by omega
          simp [h4, h5]
        · rfl
      · simp only [sfind, ih]

/-- What is found is listed. -/
theorem mem_of_sfind {α : Type} (m : Sparse α) (k : Nat) (v : α) (h : sfind m k = some v) : (k, v) ∈ m := by
  induction m with
  | nil => simp [sfind] at h
  | cons e t ih =>
    obtain ⟨k', v'⟩ := e
    simp only [sfind] at h
    split at h
    · rename_i h1
      subst h1
      cases h
      simp
    · split at h
      · cases h
      · exact List.mem_cons_of_mem _ (ih h)

/-- After a listing, every entry is the new one or an old one. -/
theorem mem_sput {α : Type} (m : Sparse α) (k : Nat) (v : α) (e : Nat × α) (h : e ∈ sput m k v) : e = (k, v) ∨ e ∈ m := by
  induction m with
  | nil => simpa [sput] using h
  | cons f t ih =>
    obtain ⟨k', v'⟩ := f
    simp only [sput] at h
    split at h
    · rcases List.mem_cons.mp h with h | h
      · exact .inl h
      · exact .inr (List.mem_cons_of_mem _ h)
    · split at h
      · rcases List.mem_cons.mp h with h | h
        · exact .inl h
        · exact .inr h
      · rcases List.mem_cons.mp h with h | h
        · exact .inr (by simp [h])
        · rcases ih h with h | h
          · exact .inl h
          · exact .inr (List.mem_cons_of_mem _ h)

/-- After a removal, every entry is an old one. -/
theorem mem_sdel {α : Type} (m : Sparse α) (k : Nat) (e : Nat × α) (h : e ∈ sdel m k) : e ∈ m := by
  induction m with
  | nil => simp [sdel] at h
  | cons f t ih =>
    obtain ⟨k', v'⟩ := f
    simp only [sdel] at h
    split at h
    · exact List.mem_cons_of_mem _ h
    · split at h
      · exact h
      · rcases List.mem_cons.mp h with h | h
        · simp [h]
        · exact List.mem_cons_of_mem _ (ih h)

/-- Every key above a bound is above a lower one. -/
theorem sabove_le {α : Type} (m : Sparse α) (a b : Nat) (hab : a ≤ b) (h : sabove b m = true) : sabove a m = true := by
  induction m with
  | nil => rfl
  | cons e t ih =>
    obtain ⟨k', v'⟩ := e
    simp only [sabove, Bool.and_eq_true, decide_eq_true_eq] at h ⊢
    exact ⟨by omega, ih h.2⟩

/-- Nothing is listed at a key that every key is above. -/
theorem sget_of_sabove {α : Type} (m : Sparse α) (a k : Nat) (d : α) (hk : k ≤ a) (h : sabove a m = true) : sget m k d = d := by
  cases m with
  | nil => rfl
  | cons e t =>
    obtain ⟨k', v'⟩ := e
    simp only [sabove, Bool.and_eq_true, decide_eq_true_eq] at h
    simp [sget, show k ≠ k' by omega, show k < k' by omega]

theorem sabove_sput {α : Type} (m : Sparse α) (a k : Nat) (v : α) (hk : a < k) (h : sabove a m = true) : sabove a (sput m k v) = true := by
  induction m with
  | nil => simp [sput, sabove, hk]
  | cons e t ih =>
    obtain ⟨k', v'⟩ := e
    simp only [sabove, Bool.and_eq_true, decide_eq_true_eq] at h
    simp only [sput]
    split
    · simp [sabove, hk, h.2]
    · split
      · simp [sabove, hk, h.1, h.2]
      · simp [sabove, h.1, ih h.2]

theorem sabove_sdel {α : Type} (m : Sparse α) (a k : Nat) (h : sabove a m = true) : sabove a (sdel m k) = true := by
  induction m with
  | nil => rfl
  | cons e t ih =>
    obtain ⟨k', v'⟩ := e
    have h' := h
    simp only [sabove, Bool.and_eq_true, decide_eq_true_eq] at h
    simp only [sdel]
    split
    · exact h.2
    · split
      · exact h'
      · simp [sabove, h.1, ih h.2]

/-- Listing a value other than the default keeps the canonical form. -/
theorem wf_sput {α : Type} [DecidableEq α] (d : α) (m : Sparse α) (k : Nat) (v : α) (hv : v ≠ d) (h : Sparse.wf d m = true) :
    Sparse.wf d (sput m k v) = true := by
  induction m with
  | nil => simp [sput, Sparse.wf, sabove, hv]
  | cons e t ih =>
    obtain ⟨k', v'⟩ := e
    have h' := h
    simp only [Sparse.wf, Bool.and_eq_true, bne_iff_ne, ne_eq] at h
    simp only [sput]
    split
    · rename_i h1
      subst h1
      simp [Sparse.wf, hv, h.1.1, h.2]
    · split
      · rename_i h1 h2
        simp [Sparse.wf, sabove, hv, h2, sabove_le t k k' (by omega) h.1.1, h.1.1, h.1.2, h.2]
      · rename_i h1 h2
        simp [Sparse.wf, h.1.2, ih h.2, sabove_sput t k' k v (by omega) h.1.1]

/-- Removing an entry keeps the canonical form. -/
theorem wf_sdel {α : Type} [DecidableEq α] (d : α) (m : Sparse α) (k : Nat) (h : Sparse.wf d m = true) : Sparse.wf d (sdel m k) = true := by
  induction m with
  | nil => rfl
  | cons e t ih =>
    obtain ⟨k', v'⟩ := e
    have h' := h
    simp only [Sparse.wf, Bool.and_eq_true, bne_iff_ne, ne_eq] at h
    simp only [sdel]
    split
    · exact h.2
    · split
      · exact h'
      · simp [Sparse.wf, h.1.2, ih h.2, sabove_sdel t k' k h.1.1]

/-- Writing any value keeps the canonical form. -/
theorem wf_sset {α : Type} [DecidableEq α] (d : α) (m : Sparse α) (k : Nat) (v : α) (h : Sparse.wf d m = true) :
    Sparse.wf d (sset m k v d) = true := by
  unfold sset
  split
  · exact wf_sdel d m k h
  · exact wf_sput d m k v ‹_› h

/-- In canonical form, a removed key reads as the default. -/
theorem sget_sdel_same {α : Type} [DecidableEq α] (d : α) (m : Sparse α) (k : Nat) (h : Sparse.wf d m = true) : sget (sdel m k) k d = d := by
  induction m with
  | nil => rfl
  | cons e t ih =>
    obtain ⟨k', v'⟩ := e
    simp only [Sparse.wf, Bool.and_eq_true] at h
    simp only [sdel]
    split
    · rename_i h1
      subst h1
      exact sget_of_sabove t k k d (Nat.le_refl k) h.1.1
    · split
      · rename_i h1 h2
        simp [sget, h1, h2]
      · rename_i h1 h2
        simp [sget, h1, h2, ih h.2]

/-- In canonical form, removing a key leaves every other key alone. -/
theorem sget_sdel_other {α : Type} [DecidableEq α] (d : α) (m : Sparse α) (k j : Nat) (hj : j ≠ k) (h : Sparse.wf d m = true) :
    sget (sdel m k) j d = sget m j d := by
  induction m with
  | nil => rfl
  | cons e t ih =>
    obtain ⟨k', v'⟩ := e
    simp only [Sparse.wf, Bool.and_eq_true] at h
    simp only [sdel]
    split
    · rename_i h1
      subst h1
      simp only [sget, hj, if_false]
      split
      · exact sget_of_sabove t k j d (by omega) h.1.1
      · rfl
    · split
      · rfl
      · simp only [sget, ih h.2]

/-- In canonical form, a written value is read back and every other key reads as before. -/
theorem sget_sset {α : Type} [DecidableEq α] (d : α) (m : Sparse α) (k j : Nat) (v : α) (h : Sparse.wf d m = true) :
    sget (sset m k v d) j d = if j = k then v else sget m j d := by
  unfold sset
  split
  · rename_i hv
    split
    · rename_i hj
      subst hj
      rw [sget_sdel_same d m j h, hv]
    · exact sget_sdel_other d m k j ‹_› h
  · split
    · rename_i hj
      subst hj
      exact sget_sput_same m j v d
    · exact sget_sput_other m k j v d ‹_›

/-- Leaving entries out keeps the canonical form. -/
theorem wf_filter {α : Type} [DecidableEq α] (d : α) (m : Sparse α) (p : Nat × α → Bool) (h : Sparse.wf d m = true) :
    Sparse.wf d (m.filter p) = true := by
  have above : ∀ (a : Nat) (t : Sparse α), sabove a t = true → sabove a (t.filter p) = true := by
    intro a t
    induction t with
    | nil => intro _; rfl
    | cons e t ih =>
      obtain ⟨k', v'⟩ := e
      intro ha
      simp only [sabove, Bool.and_eq_true, decide_eq_true_eq] at ha
      simp only [List.filter_cons]
      split
      · simp [sabove, ha.1, ih ha.2]
      · exact ih ha.2
  induction m with
  | nil => rfl
  | cons e t ih =>
    obtain ⟨k', v'⟩ := e
    simp only [Sparse.wf, Bool.and_eq_true] at h
    simp only [List.filter_cons]
    split
    · simp only [Sparse.wf, Bool.and_eq_true]
      exact ⟨⟨above k' t h.1.1, h.1.2⟩, ih h.2⟩
    · exact ih h.2

/-! ## Memories -/

/-- A byte written keeps a memory canonical. -/
theorem wf_set (m : Memory) (a : Nat) (v : Byte) (h : Memory.wf m = true) : Memory.wf (m.set a v) = true := wf_sset 0 m a v h

/-- Bytes written keep a memory canonical. -/
theorem wf_write (m : Memory) (a n v : Nat) (h : Memory.wf m = true) : Memory.wf (m.write a n v) = true := by
  induction n generalizing m a v with
  | zero => exact h
  | succ n ih => exact ih _ _ _ (wf_set m a _ h)

/-- A byte written is read back and every other byte reads as before. -/
theorem get_set (m : Memory) (a b : Nat) (v : Byte) (h : Memory.wf m = true) : (m.set a v).get b = if b = a then v else m.get b :=
  sget_sset 0 m a b v h

/-- `n` bytes written little-endian (R6) are read back byte by byte, and every other byte reads as before. -/
theorem get_write (m : Memory) (a n v b : Nat) (h : Memory.wf m = true) :
    (m.write a n v).get b = if a ≤ b ∧ b < a + n then BitVec.ofNat 8 (v / 256 ^ (b - a)) else m.get b := by
  induction n generalizing m a v with
  | zero =>
    have hn : ¬ (a ≤ b ∧ b < a + 0) := by omega
    rw [if_neg hn]
    rfl
  | succ n ih =>
    rw [Memory.write, ih _ _ _ (wf_set m a _ h), get_set m a b _ h]
    by_cases h0 : b = a
    · subst h0
      rw [if_neg (by omega), if_pos rfl, if_pos (by omega)]
      simp
    · by_cases h1 : a ≤ b ∧ b < a + (n + 1)
      · have h2 : a + 1 ≤ b ∧ b < a + 1 + n := by omega
        obtain ⟨e, rfl⟩ : ∃ e, b = a + (e + 1) := ⟨b - a - 1, by omega⟩
        rw [if_pos h2, if_pos h1, show a + (e + 1) - (a + 1) = e by omega, show a + (e + 1) - a = e + 1 by omega,
          Nat.div_div_eq_div_mul, Nat.pow_succ, Nat.mul_comm]
      · have h2 : ¬ (a + 1 ≤ b ∧ b < a + 1 + n) := by omega
        rw [if_neg h2, if_neg h1, if_neg h0]

/-- A read depends only on the bytes it reads. -/
theorem read_congr (m p : Memory) (a n : Nat) (h : ∀ b, a ≤ b → b < a + n → m.get b = p.get b) : m.read a n = p.read a n := by
  induction n generalizing a with
  | zero => rfl
  | succ n ih =>
    rw [Memory.read, Memory.read, h a (by omega) (by omega), ih (a + 1) fun b h1 h2 => h b (by omega) (by omega)]

/-- Bytes elsewhere read as before a write. -/
theorem read_write_off (m : Memory) (a n v b k : Nat) (hm : Memory.wf m = true) (h : b + k ≤ a ∨ a + n ≤ b) :
    (m.write a n v).read b k = m.read b k := by
  refine read_congr _ _ _ _ fun c h1 h2 => ?_
  rw [get_write m a n v c hm, if_neg (by omega)]

/-- Bytes written are read back. -/
theorem read_write_same (m : Memory) (a n v : Nat) (hm : Memory.wf m = true) : (m.write a n v).read a n = v % 256 ^ n := by
  induction n generalizing m a v with
  | zero => simp [Memory.read, Nat.mod_one]
  | succ n ih =>
    have h := ih (m.set a (BitVec.ofNat 8 v)) (a + 1) (v / 256) (wf_set m a _ hm)
    rw [Memory.read, Memory.write, h, get_write _ _ _ _ _ (wf_set m a _ hm), if_neg (by omega), get_set m a a _ hm, if_pos rfl,
      Nat.pow_succ, Nat.mul_comm (256 ^ n) 256, Nat.mod_mul]
    simp

/-- A read of `n` bytes is below 256 ^ n. -/
theorem read_lt (m : Memory) (a n : Nat) : m.read a n < 256 ^ n := by
  induction n generalizing a with
  | zero => simp [Memory.read]
  | succ n ih =>
    have h1 := ih (a + 1)
    have h2 := (m.get a).isLt
    rw [Memory.read, Nat.pow_succ]
    omega

/-! ## The machine's memories keep their form -/

/-- The device's memories are canonical. -/
def DeviceFormed (d : Device) : Prop := Memory.wf d.mem = true ∧ Memory.wf d.ckpt.sink = true

theorem copyFrame_formed (m : Memory) (k n : Nat) (b : Nat → Byte) (h : Memory.wf m = true) : Memory.wf (copyFrame m k n b) = true := by
  unfold copyFrame
  induction List.range n generalizing m with
  | nil => exact h
  | cons e l ih => exact ih _ (wf_set m _ _ h)

theorem streamFrame_formed (d : Device) (k : Nat) (h : DeviceFormed d) : DeviceFormed (streamFrame d k) := by
  unfold streamFrame
  split
  · dsimp only
    generalize Memory.read d.mem (4096 * k) 4096 = v
    exact ⟨h.1, copyFrame_formed _ _ _ _ h.2⟩
  · exact h

theorem homeWrite_formed (d : Device) (pa n v : Nat) (h : DeviceFormed d) : DeviceFormed (homeWrite d pa n v) := by
  have g := streamFrame_formed d (pa / 4096) h
  exact ⟨wf_write _ _ _ _ g.1, g.2⟩

/-- A fold of updates that keep the form keeps it. -/
theorem foldl_formed {α : Type} (f : Device → α → Device) (hf : ∀ d a, DeviceFormed d → DeviceFormed (f d a)) (l : List α) (d : Device)
    (h : DeviceFormed d) : DeviceFormed (l.foldl f d) := by
  induction l generalizing d with
  | nil => exact h
  | cons a l ih => exact ih _ (hf d a h)

theorem applySector_formed (d : Device) (w : Held) (i : Nat) (h : DeviceFormed d) : DeviceFormed (applySector d w i) :=
  homeWrite_formed d (w.line * 128 + 32 * i) 32 _ h

theorem applyOne_formed (d : Device) (w : Held) (h : DeviceFormed d) : DeviceFormed (applyOne d w) := by
  have g := foldl_formed (fun d i => if w.dirty.getLsbD i then applySector d w i else d)
    (fun d i hd => by
      split
      · exact applySector_formed d w i hd
      · exact hd) (List.range 4) d h
  exact g

theorem applyHeld_formed (d : Device) (p : Held → Bool) (h : DeviceFormed d) : DeviceFormed (applyHeld d p) :=
  foldl_formed applyOne (fun d w hd => applyOne_formed d w hd) _ _ h

theorem request_formed (d : Device) (layer pa : Nat) (h : DeviceFormed d) : DeviceFormed (request d layer pa) :=
  applyHeld_formed d _ h

theorem homeLoad_formed (d : Device) (layer pa n : Nat) (h : DeviceFormed d) : DeviceFormed (homeLoad d layer pa n).2.2 :=
  request_formed d layer pa h

theorem homeStore_formed (d : Device) (layer pa n v : Nat) (h : DeviceFormed d) : DeviceFormed (homeStore d layer pa n v) :=
  homeWrite_formed _ _ _ _ (request_formed d layer pa h)

/-- A write-back changes only the layer clocks and what is held. -/
theorem writeBack_formed (d : Device) (q : Nat) (l : Line) (h : DeviceFormed d) : DeviceFormed (writeBack d q l) := by
  unfold writeBack
  split
  · exact h
  · exact h

theorem sendAway_formed (d : Device) (q pa : Nat) (h : DeviceFormed d) : DeviceFormed (sendAway d q pa) := by
  unfold sendAway
  dsimp only
  split
  · exact h
  · split
    · split
      · exact writeBack_formed d _ _ h
      · exact h
    · exact h

theorem fillFrom_formed (d : Device) (layer tag : Nat) (h : DeviceFormed d) : DeviceFormed (fillFrom d layer tag).2.2 :=
  request_formed d layer _ h

theorem obtain_formed (d : Device) (q pa : Nat) (ptr : Bool) (h : DeviceFormed d) : DeviceFormed (obtain d q pa ptr).2 := by
  have g := sendAway_formed d q pa h
  unfold obtain
  generalize sendAway d q pa = e at g
  dsimp only
  split
  · split
    · exact g
    · exact fillFrom_formed e _ _ g
  · split
    · exact g
    · rename_i v _
      cases v with
      | none => exact fillFrom_formed e _ _ g
      | some l => exact fillFrom_formed _ _ _ (show DeviceFormed _ from writeBack_formed e q l g)

theorem l1Load_formed (d : Device) (core pa n : Nat) (ptr : Bool) (h : DeviceFormed d) : DeviceFormed (l1Load d core pa n ptr).2.2 := by
  have g := obtain_formed d (domainCore d core pa) pa ptr h
  unfold l1Load
  dsimp only
  split
  · rename_i heq
    rw [heq] at g
    exact g
  · rename_i heq
    rw [heq] at g
    exact homeLoad_formed _ _ _ _ g

theorem l1Store_formed (d : Device) (core pa n v : Nat) (ptr : Bool) (h : DeviceFormed d) : DeviceFormed (l1Store d core pa n v ptr) := by
  have g := obtain_formed d (domainCore d core pa) pa ptr h
  unfold l1Store
  dsimp only
  split
  · rename_i heq
    rw [heq] at g
    exact g
  · rename_i heq
    rw [heq] at g
    exact homeStore_formed _ _ _ _ _ g

/-- A scratchpad write keeps the scratchpad canonical. -/
theorem spadWrite_formed (s : State) (off n v : Nat) (h : Memory.wf s.c.spad = true) : Memory.wf (spadWrite s off n v).c.spad = true :=
  wf_write s.c.spad off n v h

/-- Reset memory is canonical. -/
theorem reset_formed : State.reset.memoryFormed := by
  refine ⟨rfl, rfl, rfl, ?_⟩
  intro e he
  cases he

end Sys2Proof.Laws
end

