-- ==== Sys2Proof/Laws/State.lean ====
section
/-!
SUPPORT. What each named update of the state leaves in each field: one lemma per field and update, true by unfolding.
-/

namespace Sys2Proof.Laws

open Sys2Proof.Machine

@[simp] theorem done_hid (s : State) : (done s).hid = s.hid := rfl
@[simp] theorem done_parked (s : State) : (done s).parked = s.parked := rfl
@[simp] theorem done_c (s : State) : (done s).c = s.c := rfl
@[simp] theorem done_cores (s : State) : (done s).cores = s.cores := rfl
@[simp] theorem done_d (s : State) : (done s).d = s.d := rfl
@[simp] theorem done_turns (s : State) : (done s).turns = s.turns := rfl
@[simp] theorem done_free (s : State) : (done s).free = s.free := rfl
@[simp] theorem done_undo (s : State) : (done s).undo = s.undo := rfl
@[simp] theorem done_lastRank (s : State) : (done s).lastRank = s.lastRank := rfl
@[simp] theorem done_lastBank (s : State) : (done s).lastBank = s.lastBank := rfl
@[simp] theorem done_h_live (s : State) : (done s).h.live = s.h.live := rfl
@[simp] theorem done_h_pc (s : State) : (done s).h.pc = s.h.pc + 4 := rfl
@[simp] theorem done_h_x (s : State) : (done s).h.x = s.h.x := rfl
@[simp] theorem done_h_v (s : State) : (done s).h.v = s.h.v := rfl
@[simp] theorem done_h_k (s : State) : (done s).h.k = s.h.k := rfl
@[simp] theorem done_h_mx (s : State) : (done s).h.mx = s.h.mx := rfl
@[simp] theorem done_h_smm (s : State) : (done s).h.smm = s.h.smm := rfl
@[simp] theorem done_h_focc (s : State) : (done s).h.focc = s.h.focc := rfl
@[simp] theorem done_h_vl (s : State) : (done s).h.vl = s.h.vl := rfl
@[simp] theorem done_h_vtype (s : State) : (done s).h.vtype = s.h.vtype := rfl
@[simp] theorem done_h_vstart (s : State) : (done s).h.vstart = s.h.vstart := rfl
@[simp] theorem done_h_vpr (s : State) : (done s).h.vpr = s.h.vpr := rfl
@[simp] theorem done_h_vdirty (s : State) : (done s).h.vdirty = s.h.vdirty := rfl
@[simp] theorem done_h_fcsr (s : State) : (done s).h.fcsr = s.h.fcsr := rfl
@[simp] theorem done_h_mshape (s : State) : (done s).h.mshape = s.h.mshape := rfl
@[simp] theorem done_h_gmap (s : State) : (done s).h.gmap = s.h.gmap := rfl
@[simp] theorem done_h_lgmin (s : State) : (done s).h.lgmin = s.h.lgmin := rfl
@[simp] theorem done_h_lgmax (s : State) : (done s).h.lgmax = s.h.lgmax := rfl
@[simp] theorem done_h_ie (s : State) : (done s).h.ie = s.h.ie := rfl
@[simp] theorem done_h_pie (s : State) : (done s).h.pie = s.h.pie := rfl
@[simp] theorem done_h_pprv (s : State) : (done s).h.pprv = s.h.pprv := rfl
@[simp] theorem done_h_prv (s : State) : (done s).h.prv = s.h.prv := rfl
@[simp] theorem done_h_ten (s : State) : (done s).h.ten = s.h.ten := rfl
@[simp] theorem done_h_een (s : State) : (done s).h.een = s.h.een := rfl
@[simp] theorem done_h_pen (s : State) : (done s).h.pen = s.h.pen := rfl
@[simp] theorem done_h_tpend (s : State) : (done s).h.tpend = s.h.tpend := rfl
@[simp] theorem done_h_ppend (s : State) : (done s).h.ppend = s.h.ppend := rfl
@[simp] theorem done_h_ext (s : State) : (done s).h.ext = s.h.ext := rfl
@[simp] theorem done_h_epc (s : State) : (done s).h.epc = s.h.epc := rfl
@[simp] theorem done_h_cause (s : State) : (done s).h.cause = s.h.cause := rfl
@[simp] theorem done_h_tval (s : State) : (done s).h.tval = s.h.tval := rfl
@[simp] theorem done_h_tbase (s : State) : (done s).h.tbase = s.h.tbase := rfl
@[simp] theorem done_h_asid (s : State) : (done s).h.asid = s.h.asid := rfl
@[simp] theorem done_h_ptroot (s : State) : (done s).h.ptroot = s.h.ptroot := rfl
@[simp] theorem done_h_instret (s : State) : (done s).h.instret = s.h.instret + 1 := rfl
@[simp] theorem done_h_unit (s : State) : (done s).h.unit = s.h.unit := rfl
@[simp] theorem done_h_node (s : State) : (done s).h.node = s.h.node := rfl
@[simp] theorem done_h_gang (s : State) : (done s).h.gang = s.h.gang := rfl
@[simp] theorem done_h_timerInt (s : State) : (done s).h.timerInt = s.h.timerInt := rfl
@[simp] theorem done_h_timerAt (s : State) : (done s).h.timerAt = s.h.timerAt := rfl
@[simp] theorem done_h_carea (s : State) : (done s).h.carea = s.h.carea := rfl
@[simp] theorem done_h_jaddr (s : State) : (done s).h.jaddr = s.h.jaddr := rfl
@[simp] theorem done_h_jbits (s : State) : (done s).h.jbits = s.h.jbits := rfl
@[simp] theorem done_h_gs (s : State) : (done s).h.gs = s.h.gs := rfl
@[simp] theorem done_h_mbox (s : State) : (done s).h.mbox = s.h.mbox := rfl
@[simp] theorem done_h_vconvoy (s : State) : (done s).h.vconvoy = s.h.vconvoy := rfl
@[simp] theorem done_h_mstage (s : State) : (done s).h.mstage = s.h.mstage := rfl
@[simp] theorem done_h_wait (s : State) : (done s).h.wait = none := rfl
@[simp] theorem done_h_stop (s : State) : (done s).h.stop = s.h.stop := rfl
@[simp] theorem done_h_upTo (s : State) : (done s).h.upTo = s.h.upTo := rfl
@[simp] theorem done_h_halted (s : State) : (done s).h.halted = s.h.halted := rfl
@[simp] theorem done_h_cancelled (s : State) : (done s).h.cancelled = s.h.cancelled := rfl
@[simp] theorem done_h_region (s : State) : (done s).h.region = s.h.region := rfl
@[simp] theorem done_h_lane (s : State) : (done s).h.lane = s.h.lane := rfl
@[simp] theorem done_h_lockq (s : State) : (done s).h.lockq = s.h.lockq := rfl
@[simp] theorem done_h_remote (s : State) : (done s).h.remote = s.h.remote := rfl
@[simp] theorem done_h_placedAt (s : State) : (done s).h.placedAt = s.h.placedAt := rfl
@[simp] theorem done_h_csaved (s : State) : (done s).h.csaved = s.h.csaved := rfl
@[simp] theorem done_h_woken (s : State) : (done s).h.woken = s.h.woken := rfl
@[simp] theorem done_h_resumed (s : State) : (done s).h.resumed = s.h.resumed := rfl
@[simp] theorem done_h_owed (s : State) : (done s).h.owed = s.h.owed := rfl
@[simp] theorem done_h_early (s : State) : (done s).h.early = s.h.early := rfl

@[simp] theorem doneAt_hid (s : State) (p : Word) : (doneAt s p).hid = s.hid := rfl
@[simp] theorem doneAt_parked (s : State) (p : Word) : (doneAt s p).parked = s.parked := rfl
@[simp] theorem doneAt_c (s : State) (p : Word) : (doneAt s p).c = s.c := rfl
@[simp] theorem doneAt_cores (s : State) (p : Word) : (doneAt s p).cores = s.cores := rfl
@[simp] theorem doneAt_d (s : State) (p : Word) : (doneAt s p).d = s.d := rfl
@[simp] theorem doneAt_turns (s : State) (p : Word) : (doneAt s p).turns = s.turns := rfl
@[simp] theorem doneAt_free (s : State) (p : Word) : (doneAt s p).free = s.free := rfl
@[simp] theorem doneAt_undo (s : State) (p : Word) : (doneAt s p).undo = s.undo := rfl
@[simp] theorem doneAt_lastRank (s : State) (p : Word) : (doneAt s p).lastRank = s.lastRank := rfl
@[simp] theorem doneAt_lastBank (s : State) (p : Word) : (doneAt s p).lastBank = s.lastBank := rfl
@[simp] theorem doneAt_h_live (s : State) (p : Word) : (doneAt s p).h.live = s.h.live := rfl
@[simp] theorem doneAt_h_pc (s : State) (p : Word) : (doneAt s p).h.pc = p := rfl
@[simp] theorem doneAt_h_x (s : State) (p : Word) : (doneAt s p).h.x = s.h.x := rfl
@[simp] theorem doneAt_h_v (s : State) (p : Word) : (doneAt s p).h.v = s.h.v := rfl
@[simp] theorem doneAt_h_k (s : State) (p : Word) : (doneAt s p).h.k = s.h.k := rfl
@[simp] theorem doneAt_h_mx (s : State) (p : Word) : (doneAt s p).h.mx = s.h.mx := rfl
@[simp] theorem doneAt_h_smm (s : State) (p : Word) : (doneAt s p).h.smm = s.h.smm := rfl
@[simp] theorem doneAt_h_focc (s : State) (p : Word) : (doneAt s p).h.focc = s.h.focc := rfl
@[simp] theorem doneAt_h_vl (s : State) (p : Word) : (doneAt s p).h.vl = s.h.vl := rfl
@[simp] theorem doneAt_h_vtype (s : State) (p : Word) : (doneAt s p).h.vtype = s.h.vtype := rfl
@[simp] theorem doneAt_h_vstart (s : State) (p : Word) : (doneAt s p).h.vstart = s.h.vstart := rfl
@[simp] theorem doneAt_h_vpr (s : State) (p : Word) : (doneAt s p).h.vpr = s.h.vpr := rfl
@[simp] theorem doneAt_h_vdirty (s : State) (p : Word) : (doneAt s p).h.vdirty = s.h.vdirty := rfl
@[simp] theorem doneAt_h_fcsr (s : State) (p : Word) : (doneAt s p).h.fcsr = s.h.fcsr := rfl
@[simp] theorem doneAt_h_mshape (s : State) (p : Word) : (doneAt s p).h.mshape = s.h.mshape := rfl
@[simp] theorem doneAt_h_gmap (s : State) (p : Word) : (doneAt s p).h.gmap = s.h.gmap := rfl
@[simp] theorem doneAt_h_lgmin (s : State) (p : Word) : (doneAt s p).h.lgmin = s.h.lgmin := rfl
@[simp] theorem doneAt_h_lgmax (s : State) (p : Word) : (doneAt s p).h.lgmax = s.h.lgmax := rfl
@[simp] theorem doneAt_h_ie (s : State) (p : Word) : (doneAt s p).h.ie = s.h.ie := rfl
@[simp] theorem doneAt_h_pie (s : State) (p : Word) : (doneAt s p).h.pie = s.h.pie := rfl
@[simp] theorem doneAt_h_pprv (s : State) (p : Word) : (doneAt s p).h.pprv = s.h.pprv := rfl
@[simp] theorem doneAt_h_prv (s : State) (p : Word) : (doneAt s p).h.prv = s.h.prv := rfl
@[simp] theorem doneAt_h_ten (s : State) (p : Word) : (doneAt s p).h.ten = s.h.ten := rfl
@[simp] theorem doneAt_h_een (s : State) (p : Word) : (doneAt s p).h.een = s.h.een := rfl
@[simp] theorem doneAt_h_pen (s : State) (p : Word) : (doneAt s p).h.pen = s.h.pen := rfl
@[simp] theorem doneAt_h_tpend (s : State) (p : Word) : (doneAt s p).h.tpend = s.h.tpend := rfl
@[simp] theorem doneAt_h_ppend (s : State) (p : Word) : (doneAt s p).h.ppend = s.h.ppend := rfl
@[simp] theorem doneAt_h_ext (s : State) (p : Word) : (doneAt s p).h.ext = s.h.ext := rfl
@[simp] theorem doneAt_h_epc (s : State) (p : Word) : (doneAt s p).h.epc = s.h.epc := rfl
@[simp] theorem doneAt_h_cause (s : State) (p : Word) : (doneAt s p).h.cause = s.h.cause := rfl
@[simp] theorem doneAt_h_tval (s : State) (p : Word) : (doneAt s p).h.tval = s.h.tval := rfl
@[simp] theorem doneAt_h_tbase (s : State) (p : Word) : (doneAt s p).h.tbase = s.h.tbase := rfl
@[simp] theorem doneAt_h_asid (s : State) (p : Word) : (doneAt s p).h.asid = s.h.asid := rfl
@[simp] theorem doneAt_h_ptroot (s : State) (p : Word) : (doneAt s p).h.ptroot = s.h.ptroot := rfl
@[simp] theorem doneAt_h_instret (s : State) (p : Word) : (doneAt s p).h.instret = s.h.instret + 1 := rfl
@[simp] theorem doneAt_h_unit (s : State) (p : Word) : (doneAt s p).h.unit = s.h.unit := rfl
@[simp] theorem doneAt_h_node (s : State) (p : Word) : (doneAt s p).h.node = s.h.node := rfl
@[simp] theorem doneAt_h_gang (s : State) (p : Word) : (doneAt s p).h.gang = s.h.gang := rfl
@[simp] theorem doneAt_h_timerInt (s : State) (p : Word) : (doneAt s p).h.timerInt = s.h.timerInt := rfl
@[simp] theorem doneAt_h_timerAt (s : State) (p : Word) : (doneAt s p).h.timerAt = s.h.timerAt := rfl
@[simp] theorem doneAt_h_carea (s : State) (p : Word) : (doneAt s p).h.carea = s.h.carea := rfl
@[simp] theorem doneAt_h_jaddr (s : State) (p : Word) : (doneAt s p).h.jaddr = s.h.jaddr := rfl
@[simp] theorem doneAt_h_jbits (s : State) (p : Word) : (doneAt s p).h.jbits = s.h.jbits := rfl
@[simp] theorem doneAt_h_gs (s : State) (p : Word) : (doneAt s p).h.gs = s.h.gs := rfl
@[simp] theorem doneAt_h_mbox (s : State) (p : Word) : (doneAt s p).h.mbox = s.h.mbox := rfl
@[simp] theorem doneAt_h_vconvoy (s : State) (p : Word) : (doneAt s p).h.vconvoy = s.h.vconvoy := rfl
@[simp] theorem doneAt_h_mstage (s : State) (p : Word) : (doneAt s p).h.mstage = s.h.mstage := rfl
@[simp] theorem doneAt_h_wait (s : State) (p : Word) : (doneAt s p).h.wait = none := rfl
@[simp] theorem doneAt_h_stop (s : State) (p : Word) : (doneAt s p).h.stop = s.h.stop := rfl
@[simp] theorem doneAt_h_upTo (s : State) (p : Word) : (doneAt s p).h.upTo = s.h.upTo := rfl
@[simp] theorem doneAt_h_halted (s : State) (p : Word) : (doneAt s p).h.halted = s.h.halted := rfl
@[simp] theorem doneAt_h_cancelled (s : State) (p : Word) : (doneAt s p).h.cancelled = s.h.cancelled := rfl
@[simp] theorem doneAt_h_region (s : State) (p : Word) : (doneAt s p).h.region = s.h.region := rfl
@[simp] theorem doneAt_h_lane (s : State) (p : Word) : (doneAt s p).h.lane = s.h.lane := rfl
@[simp] theorem doneAt_h_lockq (s : State) (p : Word) : (doneAt s p).h.lockq = s.h.lockq := rfl
@[simp] theorem doneAt_h_remote (s : State) (p : Word) : (doneAt s p).h.remote = s.h.remote := rfl
@[simp] theorem doneAt_h_placedAt (s : State) (p : Word) : (doneAt s p).h.placedAt = s.h.placedAt := rfl
@[simp] theorem doneAt_h_csaved (s : State) (p : Word) : (doneAt s p).h.csaved = s.h.csaved := rfl
@[simp] theorem doneAt_h_woken (s : State) (p : Word) : (doneAt s p).h.woken = s.h.woken := rfl
@[simp] theorem doneAt_h_resumed (s : State) (p : Word) : (doneAt s p).h.resumed = s.h.resumed := rfl
@[simp] theorem doneAt_h_owed (s : State) (p : Word) : (doneAt s p).h.owed = s.h.owed := rfl
@[simp] theorem doneAt_h_early (s : State) (p : Word) : (doneAt s p).h.early = refetch s.h p := rfl

@[simp] theorem trapReturn_hid (s : State) : (trapReturn s).hid = s.hid := rfl
@[simp] theorem trapReturn_parked (s : State) : (trapReturn s).parked = s.parked := rfl
@[simp] theorem trapReturn_c (s : State) : (trapReturn s).c = s.c := rfl
@[simp] theorem trapReturn_cores (s : State) : (trapReturn s).cores = s.cores := rfl
@[simp] theorem trapReturn_d (s : State) : (trapReturn s).d = s.d := rfl
@[simp] theorem trapReturn_turns (s : State) : (trapReturn s).turns = s.turns := rfl
@[simp] theorem trapReturn_free (s : State) : (trapReturn s).free = s.free := rfl
@[simp] theorem trapReturn_undo (s : State) : (trapReturn s).undo = s.undo := rfl
@[simp] theorem trapReturn_lastRank (s : State) : (trapReturn s).lastRank = s.lastRank := rfl
@[simp] theorem trapReturn_lastBank (s : State) : (trapReturn s).lastBank = s.lastBank := rfl
@[simp] theorem trapReturn_h_live (s : State) : (trapReturn s).h.live = s.h.live := rfl
@[simp] theorem trapReturn_h_pc (s : State) : (trapReturn s).h.pc = s.h.epc := rfl
@[simp] theorem trapReturn_h_x (s : State) : (trapReturn s).h.x = s.h.x := rfl
@[simp] theorem trapReturn_h_v (s : State) : (trapReturn s).h.v = s.h.v := rfl
@[simp] theorem trapReturn_h_k (s : State) : (trapReturn s).h.k = s.h.k := rfl
@[simp] theorem trapReturn_h_mx (s : State) : (trapReturn s).h.mx = s.h.mx := rfl
@[simp] theorem trapReturn_h_smm (s : State) : (trapReturn s).h.smm = s.h.smm := rfl
@[simp] theorem trapReturn_h_focc (s : State) : (trapReturn s).h.focc = s.h.focc := rfl
@[simp] theorem trapReturn_h_vl (s : State) : (trapReturn s).h.vl = s.h.vl := rfl
@[simp] theorem trapReturn_h_vtype (s : State) : (trapReturn s).h.vtype = s.h.vtype := rfl
@[simp] theorem trapReturn_h_vstart (s : State) : (trapReturn s).h.vstart = s.h.vstart := rfl
@[simp] theorem trapReturn_h_vpr (s : State) : (trapReturn s).h.vpr = s.h.vpr := rfl
@[simp] theorem trapReturn_h_vdirty (s : State) : (trapReturn s).h.vdirty = s.h.vdirty := rfl
@[simp] theorem trapReturn_h_fcsr (s : State) : (trapReturn s).h.fcsr = s.h.fcsr := rfl
@[simp] theorem trapReturn_h_mshape (s : State) : (trapReturn s).h.mshape = s.h.mshape := rfl
@[simp] theorem trapReturn_h_gmap (s : State) : (trapReturn s).h.gmap = s.h.gmap := rfl
@[simp] theorem trapReturn_h_lgmin (s : State) : (trapReturn s).h.lgmin = s.h.lgmin := rfl
@[simp] theorem trapReturn_h_lgmax (s : State) : (trapReturn s).h.lgmax = s.h.lgmax := rfl
@[simp] theorem trapReturn_h_ie (s : State) : (trapReturn s).h.ie = s.h.pie := rfl
@[simp] theorem trapReturn_h_pie (s : State) : (trapReturn s).h.pie = false := rfl
@[simp] theorem trapReturn_h_pprv (s : State) : (trapReturn s).h.pprv = s.h.pprv := rfl
@[simp] theorem trapReturn_h_prv (s : State) : (trapReturn s).h.prv = s.h.pprv := rfl
@[simp] theorem trapReturn_h_ten (s : State) : (trapReturn s).h.ten = s.h.ten := rfl
@[simp] theorem trapReturn_h_een (s : State) : (trapReturn s).h.een = s.h.een := rfl
@[simp] theorem trapReturn_h_pen (s : State) : (trapReturn s).h.pen = s.h.pen := rfl
@[simp] theorem trapReturn_h_tpend (s : State) : (trapReturn s).h.tpend = s.h.tpend := rfl
@[simp] theorem trapReturn_h_ppend (s : State) : (trapReturn s).h.ppend = s.h.ppend := rfl
@[simp] theorem trapReturn_h_ext (s : State) : (trapReturn s).h.ext = s.h.ext := rfl
@[simp] theorem trapReturn_h_epc (s : State) : (trapReturn s).h.epc = s.h.epc := rfl
@[simp] theorem trapReturn_h_cause (s : State) : (trapReturn s).h.cause = s.h.cause := rfl
@[simp] theorem trapReturn_h_tval (s : State) : (trapReturn s).h.tval = s.h.tval := rfl
@[simp] theorem trapReturn_h_tbase (s : State) : (trapReturn s).h.tbase = s.h.tbase := rfl
@[simp] theorem trapReturn_h_asid (s : State) : (trapReturn s).h.asid = s.h.asid := rfl
@[simp] theorem trapReturn_h_ptroot (s : State) : (trapReturn s).h.ptroot = s.h.ptroot := rfl
@[simp] theorem trapReturn_h_instret (s : State) : (trapReturn s).h.instret = s.h.instret + 1 := rfl
@[simp] theorem trapReturn_h_unit (s : State) : (trapReturn s).h.unit = s.h.unit := rfl
@[simp] theorem trapReturn_h_node (s : State) : (trapReturn s).h.node = s.h.node := rfl
@[simp] theorem trapReturn_h_gang (s : State) : (trapReturn s).h.gang = s.h.gang := rfl
@[simp] theorem trapReturn_h_timerInt (s : State) : (trapReturn s).h.timerInt = s.h.timerInt := rfl
@[simp] theorem trapReturn_h_timerAt (s : State) : (trapReturn s).h.timerAt = s.h.timerAt := rfl
@[simp] theorem trapReturn_h_carea (s : State) : (trapReturn s).h.carea = s.h.carea := rfl
@[simp] theorem trapReturn_h_jaddr (s : State) : (trapReturn s).h.jaddr = s.h.jaddr := rfl
@[simp] theorem trapReturn_h_jbits (s : State) : (trapReturn s).h.jbits = s.h.jbits := rfl
@[simp] theorem trapReturn_h_gs (s : State) : (trapReturn s).h.gs = s.h.gs := rfl
@[simp] theorem trapReturn_h_mbox (s : State) : (trapReturn s).h.mbox = s.h.mbox := rfl
@[simp] theorem trapReturn_h_vconvoy (s : State) : (trapReturn s).h.vconvoy = s.h.vconvoy := rfl
@[simp] theorem trapReturn_h_mstage (s : State) : (trapReturn s).h.mstage = s.h.mstage := rfl
@[simp] theorem trapReturn_h_wait (s : State) : (trapReturn s).h.wait = none := rfl
@[simp] theorem trapReturn_h_stop (s : State) : (trapReturn s).h.stop = s.h.stop := rfl
@[simp] theorem trapReturn_h_upTo (s : State) : (trapReturn s).h.upTo = s.h.upTo := rfl
@[simp] theorem trapReturn_h_halted (s : State) : (trapReturn s).h.halted = s.h.halted := rfl
@[simp] theorem trapReturn_h_cancelled (s : State) : (trapReturn s).h.cancelled = s.h.cancelled := rfl
@[simp] theorem trapReturn_h_region (s : State) : (trapReturn s).h.region = s.h.region := rfl
@[simp] theorem trapReturn_h_lane (s : State) : (trapReturn s).h.lane = s.h.lane := rfl
@[simp] theorem trapReturn_h_lockq (s : State) : (trapReturn s).h.lockq = s.h.lockq := rfl
@[simp] theorem trapReturn_h_remote (s : State) : (trapReturn s).h.remote = s.h.remote := rfl
@[simp] theorem trapReturn_h_placedAt (s : State) : (trapReturn s).h.placedAt = s.h.placedAt := rfl
@[simp] theorem trapReturn_h_csaved (s : State) : (trapReturn s).h.csaved = false := rfl
@[simp] theorem trapReturn_h_woken (s : State) : (trapReturn s).h.woken = s.h.woken := rfl
@[simp] theorem trapReturn_h_resumed (s : State) : (trapReturn s).h.resumed = (s.h.vstart != 0) := rfl
@[simp] theorem trapReturn_h_owed (s : State) : (trapReturn s).h.owed = s.h.owed := rfl
@[simp] theorem trapReturn_h_early (s : State) : (trapReturn s).h.early = refetch s.h s.h.epc := rfl

@[simp] theorem flags_hid (s : State) (f : BitVec 14) : (s.flags f).hid = s.hid := rfl
@[simp] theorem flags_parked (s : State) (f : BitVec 14) : (s.flags f).parked = s.parked := rfl
@[simp] theorem flags_c (s : State) (f : BitVec 14) : (s.flags f).c = s.c := rfl
@[simp] theorem flags_cores (s : State) (f : BitVec 14) : (s.flags f).cores = s.cores := rfl
@[simp] theorem flags_d (s : State) (f : BitVec 14) : (s.flags f).d = s.d := rfl
@[simp] theorem flags_turns (s : State) (f : BitVec 14) : (s.flags f).turns = s.turns := rfl
@[simp] theorem flags_free (s : State) (f : BitVec 14) : (s.flags f).free = s.free := rfl
@[simp] theorem flags_undo (s : State) (f : BitVec 14) : (s.flags f).undo = s.undo := rfl
@[simp] theorem flags_lastRank (s : State) (f : BitVec 14) : (s.flags f).lastRank = s.lastRank := rfl
@[simp] theorem flags_lastBank (s : State) (f : BitVec 14) : (s.flags f).lastBank = s.lastBank := rfl
@[simp] theorem flags_h_live (s : State) (f : BitVec 14) : (s.flags f).h.live = s.h.live := rfl
@[simp] theorem flags_h_pc (s : State) (f : BitVec 14) : (s.flags f).h.pc = s.h.pc := rfl
@[simp] theorem flags_h_x (s : State) (f : BitVec 14) : (s.flags f).h.x = s.h.x := rfl
@[simp] theorem flags_h_v (s : State) (f : BitVec 14) : (s.flags f).h.v = s.h.v := rfl
@[simp] theorem flags_h_k (s : State) (f : BitVec 14) : (s.flags f).h.k = s.h.k := rfl
@[simp] theorem flags_h_mx (s : State) (f : BitVec 14) : (s.flags f).h.mx = s.h.mx := rfl
@[simp] theorem flags_h_smm (s : State) (f : BitVec 14) : (s.flags f).h.smm = s.h.smm := rfl
@[simp] theorem flags_h_focc (s : State) (f : BitVec 14) : (s.flags f).h.focc = s.h.focc := rfl
@[simp] theorem flags_h_vl (s : State) (f : BitVec 14) : (s.flags f).h.vl = s.h.vl := rfl
@[simp] theorem flags_h_vtype (s : State) (f : BitVec 14) : (s.flags f).h.vtype = s.h.vtype := rfl
@[simp] theorem flags_h_vstart (s : State) (f : BitVec 14) : (s.flags f).h.vstart = s.h.vstart := rfl
@[simp] theorem flags_h_vpr (s : State) (f : BitVec 14) : (s.flags f).h.vpr = s.h.vpr := rfl
@[simp] theorem flags_h_vdirty (s : State) (f : BitVec 14) : (s.flags f).h.vdirty = s.h.vdirty := rfl
@[simp] theorem flags_h_fcsr (s : State) (f : BitVec 14) : (s.flags f).h.fcsr = s.h.fcsr ||| f := rfl
@[simp] theorem flags_h_mshape (s : State) (f : BitVec 14) : (s.flags f).h.mshape = s.h.mshape := rfl
@[simp] theorem flags_h_gmap (s : State) (f : BitVec 14) : (s.flags f).h.gmap = s.h.gmap := rfl
@[simp] theorem flags_h_lgmin (s : State) (f : BitVec 14) : (s.flags f).h.lgmin = s.h.lgmin := rfl
@[simp] theorem flags_h_lgmax (s : State) (f : BitVec 14) : (s.flags f).h.lgmax = s.h.lgmax := rfl
@[simp] theorem flags_h_ie (s : State) (f : BitVec 14) : (s.flags f).h.ie = s.h.ie := rfl
@[simp] theorem flags_h_pie (s : State) (f : BitVec 14) : (s.flags f).h.pie = s.h.pie := rfl
@[simp] theorem flags_h_pprv (s : State) (f : BitVec 14) : (s.flags f).h.pprv = s.h.pprv := rfl
@[simp] theorem flags_h_prv (s : State) (f : BitVec 14) : (s.flags f).h.prv = s.h.prv := rfl
@[simp] theorem flags_h_ten (s : State) (f : BitVec 14) : (s.flags f).h.ten = s.h.ten := rfl
@[simp] theorem flags_h_een (s : State) (f : BitVec 14) : (s.flags f).h.een = s.h.een := rfl
@[simp] theorem flags_h_pen (s : State) (f : BitVec 14) : (s.flags f).h.pen = s.h.pen := rfl
@[simp] theorem flags_h_tpend (s : State) (f : BitVec 14) : (s.flags f).h.tpend = s.h.tpend := rfl
@[simp] theorem flags_h_ppend (s : State) (f : BitVec 14) : (s.flags f).h.ppend = s.h.ppend := rfl
@[simp] theorem flags_h_ext (s : State) (f : BitVec 14) : (s.flags f).h.ext = s.h.ext := rfl
@[simp] theorem flags_h_epc (s : State) (f : BitVec 14) : (s.flags f).h.epc = s.h.epc := rfl
@[simp] theorem flags_h_cause (s : State) (f : BitVec 14) : (s.flags f).h.cause = s.h.cause := rfl
@[simp] theorem flags_h_tval (s : State) (f : BitVec 14) : (s.flags f).h.tval = s.h.tval := rfl
@[simp] theorem flags_h_tbase (s : State) (f : BitVec 14) : (s.flags f).h.tbase = s.h.tbase := rfl
@[simp] theorem flags_h_asid (s : State) (f : BitVec 14) : (s.flags f).h.asid = s.h.asid := rfl
@[simp] theorem flags_h_ptroot (s : State) (f : BitVec 14) : (s.flags f).h.ptroot = s.h.ptroot := rfl
@[simp] theorem flags_h_instret (s : State) (f : BitVec 14) : (s.flags f).h.instret = s.h.instret := rfl
@[simp] theorem flags_h_unit (s : State) (f : BitVec 14) : (s.flags f).h.unit = s.h.unit := rfl
@[simp] theorem flags_h_node (s : State) (f : BitVec 14) : (s.flags f).h.node = s.h.node := rfl
@[simp] theorem flags_h_gang (s : State) (f : BitVec 14) : (s.flags f).h.gang = s.h.gang := rfl
@[simp] theorem flags_h_timerInt (s : State) (f : BitVec 14) : (s.flags f).h.timerInt = s.h.timerInt := rfl
@[simp] theorem flags_h_timerAt (s : State) (f : BitVec 14) : (s.flags f).h.timerAt = s.h.timerAt := rfl
@[simp] theorem flags_h_carea (s : State) (f : BitVec 14) : (s.flags f).h.carea = s.h.carea := rfl
@[simp] theorem flags_h_jaddr (s : State) (f : BitVec 14) : (s.flags f).h.jaddr = s.h.jaddr := rfl
@[simp] theorem flags_h_jbits (s : State) (f : BitVec 14) : (s.flags f).h.jbits = s.h.jbits := rfl
@[simp] theorem flags_h_gs (s : State) (f : BitVec 14) : (s.flags f).h.gs = s.h.gs := rfl
@[simp] theorem flags_h_mbox (s : State) (f : BitVec 14) : (s.flags f).h.mbox = s.h.mbox := rfl
@[simp] theorem flags_h_vconvoy (s : State) (f : BitVec 14) : (s.flags f).h.vconvoy = s.h.vconvoy := rfl
@[simp] theorem flags_h_mstage (s : State) (f : BitVec 14) : (s.flags f).h.mstage = s.h.mstage := rfl
@[simp] theorem flags_h_wait (s : State) (f : BitVec 14) : (s.flags f).h.wait = s.h.wait := rfl
@[simp] theorem flags_h_stop (s : State) (f : BitVec 14) : (s.flags f).h.stop = s.h.stop := rfl
@[simp] theorem flags_h_upTo (s : State) (f : BitVec 14) : (s.flags f).h.upTo = s.h.upTo := rfl
@[simp] theorem flags_h_halted (s : State) (f : BitVec 14) : (s.flags f).h.halted = s.h.halted := rfl
@[simp] theorem flags_h_cancelled (s : State) (f : BitVec 14) : (s.flags f).h.cancelled = s.h.cancelled := rfl
@[simp] theorem flags_h_region (s : State) (f : BitVec 14) : (s.flags f).h.region = s.h.region := rfl
@[simp] theorem flags_h_lane (s : State) (f : BitVec 14) : (s.flags f).h.lane = s.h.lane := rfl
@[simp] theorem flags_h_lockq (s : State) (f : BitVec 14) : (s.flags f).h.lockq = s.h.lockq := rfl
@[simp] theorem flags_h_remote (s : State) (f : BitVec 14) : (s.flags f).h.remote = s.h.remote := rfl
@[simp] theorem flags_h_placedAt (s : State) (f : BitVec 14) : (s.flags f).h.placedAt = s.h.placedAt := rfl
@[simp] theorem flags_h_csaved (s : State) (f : BitVec 14) : (s.flags f).h.csaved = s.h.csaved := rfl
@[simp] theorem flags_h_woken (s : State) (f : BitVec 14) : (s.flags f).h.woken = s.h.woken := rfl
@[simp] theorem flags_h_resumed (s : State) (f : BitVec 14) : (s.flags f).h.resumed = s.h.resumed := rfl
@[simp] theorem flags_h_owed (s : State) (f : BitVec 14) : (s.flags f).h.owed = s.h.owed := rfl
@[simp] theorem flags_h_early (s : State) (f : BitVec 14) : (s.flags f).h.early = s.h.early := rfl

end Sys2Proof.Laws
end

