-- ==== Sys2Proof/Laws/Ops.lean ====
section
/-!
SUPPORT. One lemma for each shared operation that says what it can do, for proofs to cite in place of its definition.
-/

namespace Sys2Proof.Laws

open Sys2Proof.Machine

set_option Elab.async false

/-! ## How a word ends -/

/-- A checked result completes the word, traps at it, or leaves it waiting. -/
theorem settle_cases {s t : State} {r : Except Stop State} (h : settle s r = .next t) :
    (∃ u, r = .ok u ∧ t = done u) ∨ (∃ c v, r = .error (.trap c v) ∧ t = trap s c v) ∨ ∃ w, r = .error (.wait w) ∧ t = await s w := by
  cases r with
  | ok u =>
    simp only [settle, Host.Outcome.next.injEq] at h
    exact .inl ⟨u, rfl, h.symm⟩
  | error e =>
    cases e with
    | trap c v =>
      simp only [settle, Host.Outcome.next.injEq] at h
      exact .inr (.inl ⟨c, v, rfl, h.symm⟩)
    | wait w =>
      simp only [settle, Host.Outcome.next.injEq] at h
      exact .inr (.inr ⟨w, rfl, h.symm⟩)

/-- Every checked result ends in a next state. -/
theorem settle_next (s : State) (r : Except Stop State) : ∃ t, settle s r = .next t := by
  cases r with
  | ok u => exact ⟨_, rfl⟩
  | error e => cases e <;> exact ⟨_, rfl⟩

/-- Outside a lane thread a trap is trap entry (R152). -/
theorem trap_out {s : State} (c : BitVec 6) (v : Word) (h : s.h.lane = none) : trap s c v = enterTrap s c v := by
  simp [trap, h]

/-- Outside a lane thread a wait is noted and nothing else changes (R159). -/
theorem await_out {s : State} (w : Wait) (h : s.h.lane = none) : await s w = { s with h := { s.h with wait := some w } } := by
  simp [await, h]

/-- Outside a lane thread `ILLEGAL_INSN` is trap entry with the word in `TVAL` (R52). -/
theorem illegal_out {s : State} (w : Insn) (h : s.h.lane = none) : illegal s w = enterTrap s Cause.illegal (w.setWidth 64) :=
  trap_out _ _ h

/-- A convoy that is not open stays as it is. -/
theorem closeStage_closed {s : State} (h : s.h.mstage.isOpen = false) : closeStage s = s := by
  simp [closeStage, h]

/-- With no open convoy there is nothing to undo. -/
theorem undoConvoy_closed {s : State} (h : s.h.mstage.isOpen = false) : undoConvoy s = s := by
  simp [undoConvoy, h]

/-! ## Registers -/

/-- Outside a lane thread an x register reads as R28 says. -/
theorem rx_out {s : State} (r : BitVec 6) (h : s.h.lane = none) : rx s r = if r = 0 then 0 else s.h.x[r.toNat] := by
  simp [rx, h]

/-- Outside a lane thread a write to x0 is discarded and any other write sets the register (R28). -/
theorem wx_out {s : State} (r : BitVec 6) (v : Word) (h : s.h.lane = none) :
    wx s r v = { s with h := { s.h with x := if r = 0 then s.h.x else s.h.x.set r.toNat v } } := by
  unfold wx
  rw [h]
  by_cases hr : r = 0
  · subst hr
    rfl
  · simp only [if_neg hr]

/-- A write of an x register changes nothing outside the hart. -/
theorem wx_outside (s : State) (r : BitVec 6) (v : Word) : wx s r v = { s with h := (wx s r v).h } := by
  unfold wx
  split
  · split <;> rfl
  · split <;> rfl

/-! ## Vector-side words -/

/-- With no grant a vector-side word is illegal (R22). -/
theorem vword_noGrant {w : Insn} {cv : BitVec 1} {m : Member} {bad : Bool} {body : State → VRes} {s : State} (h : s.h.g = 0) :
    vword w cv m bad body s = .next (illegal s w) := by
  simp [vword, h]

/-- A vector-side word that may not run is illegal (R51). -/
theorem vword_bad {w : Insn} {cv : BitVec 1} {m : Member} {body : State → VRes} {s : State} :
    vword w cv m true body s = .next (illegal s w) := by
  simp [vword]

/-- A vector-side word that may run and join comes to its body (R22, R51, R120). -/
theorem vword_run {w : Insn} {cv : BitVec 1} {m : Member} {body : State → VRes} {s : State} (hg : s.h.g ≠ 0)
    (hc : cv = 1 → convoyBad s.h.vconvoy m = false) : vword w cv m false body s = vsettle cv m (body s) := by
  unfold vword
  rw [if_neg (by simp [hg]), if_neg]
  rintro ⟨h1, h2⟩
  simp [hc h1] at h2

/-- A vector-side word always ends in a next state. -/
theorem vword_next (w : Insn) (cv : BitVec 1) (m : Member) (bad : Bool) (body : State → VRes) (s : State) :
    ∃ t, vword w cv m bad body s = .next t := by
  unfold vword
  split
  · exact ⟨_, rfl⟩
  · split
    · exact ⟨_, rfl⟩
    · cases body s with
      | ok t => exact ⟨_, rfl⟩
      | pause t => exact ⟨_, rfl⟩
      | stop t r => cases r <;> exact ⟨_, rfl⟩

/-- With no grant a matrix word is illegal (R22). -/
theorem mword_noGrant {w : Insn} {cv : BitVec 1} {r : MRole} {bad : Bool} {body : MStage → State → Except Stop State} {s : State}
    (h : s.h.g = 0) : mword w cv r bad body s = .next (illegal s w) := by
  simp [mword, h]

/-- With no grant an `MMETA` word is illegal (R22). -/
theorem mmeta_noGrant {w : Insn} {key : Nat} {cv : BitVec 1} {put : MStage → MStage} {s : State} (h : s.h.g = 0) :
    mmeta w key cv put s = .next (illegal s w) := by
  simp [mmeta, h]

/-! ## Addresses -/

/-- Noting a leaf leaves every memory as it is. -/
theorem noteLeaf_formed (d : Device) (e : Word) (size : Nat) (h : DeviceFormed d) : DeviceFormed (noteLeaf d e size) := by
  unfold noteLeaf
  dsimp only
  split
  · exact h
  · exact h

/-- A walk changes nothing but what the homes note of the reads (R171, R343), and keeps the device's memories canonical. -/
theorem walkFrom_formed (n : Nat) (d : Device) (layer va table : Nat) (h : DeviceFormed d) : DeviceFormed (walkFrom d layer va table n).2 := by
  induction n generalizing d table with
  | zero => exact h
  | succ n ih =>
    have g := homeLoad_formed d layer (table + 8 * (levelIndex va n).1) 8 h
    unfold walkFrom
    dsimp only
    split
    · exact h
    · split
      · exact g
      · split
        · exact g
        · split
          · split
            · exact noteLeaf_formed _ _ _ g
            · exact g
          · split
            · exact ih _ _ g
            · exact g

/-- See `walkFrom_formed`. -/
theorem walk_formed (d : Device) (layer : Nat) (root : Word) (va : Nat) (h : DeviceFormed d) : DeviceFormed (walk d layer root va).2 := by
  unfold walk
  dsimp only
  split
  · exact walkFrom_formed _ _ _ _ _ h
  · exact h

/-- A translation changes only the device and the count of free values, and keeps the device's memories canonical (R174). -/
theorem translate_frame (s : State) (layer : Nat) (asid : BitVec 14) (root : Word) (va : Nat) :
    (translate s layer asid root va).2 = { s with d := (translate s layer asid root va).2.d, free := (translate s layer asid root va).2.free } ∧
    (DeviceFormed s.d → DeviceFormed (translate s layer asid root va).2.d) := by
  have g := walk_formed s.d layer root va
  unfold Machine.translate
  dsimp only
  split
  · split
    · exact ⟨rfl, g⟩
    · cases hb : Config.freeBool s.free
      · simp only [State.draw, hb]
        exact ⟨rfl, g⟩
      · simp only [State.draw, hb]
        exact ⟨rfl, g⟩
  · split
    · exact ⟨rfl, g⟩
    · exact ⟨rfl, g⟩

/-- An access that has passed its checks is canonical and aligned, and changes only the device and the count of free values (R73, R155). -/
theorem placeUnder_ok {s t : State} {asid : BitVec 14} {root va : Word} {sup : Bool} {a : Acc} {n : Nat} {pl : Place}
    (h : placeUnder s asid root sup a va n = .ok (pl, t)) :
    canonical va = true ∧ va.toNat % n = 0 ∧ t = { s with d := t.d, free := t.free } ∧ (DeviceFormed s.d → DeviceFormed t.d) := by
  unfold placeUnder at h
  have g := translate_frame s (layerOf s.hid) asid root (bits va 55 0)
  split at h
  · cases h
  · rename_i h1
    split at h
    · cases h
    · rename_i h2
      refine ⟨by simpa using h1, by simpa using h2, ?_⟩
      split at h
      · split at h
        · cases h
        · cases h
          exact ⟨rfl, id⟩
      · split at h
        · cases h
        · cases h
        · cases h
        · rename_i e size t' heq
          rw [heq] at g
          have k : t = t' := by
            dsimp only at h
            split at h
            · cases h
            · split at h
              · cases h
              · split at h
                · split at h
                  · cases h; rfl
                  · cases h
                · split at h
                  · cases h; rfl
                  · cases h
          subst k
          exact g

/-- See `placeUnder_ok`. -/
theorem place_ok {s t : State} {a : Acc} {va : Word} {n : Nat} {pl : Place} (h : place s a va n = .ok (pl, t)) :
    canonical va = true ∧ va.toNat % n = 0 ∧ t = { s with d := t.d, free := t.free } ∧ (DeviceFormed s.d → DeviceFormed t.d) :=
  placeUnder_ok h

/-- A read changes only the device and the count of free values (R333). -/
theorem readPlace_ok {s t : State} {pl : Place} {va v : Word} {n side : Nat} (h : readPlace s pl va n side = .ok (v, t)) :
    t = { s with d := t.d, free := t.free } ∧ (DeviceFormed s.d → DeviceFormed t.d) := by
  unfold readPlace at h
  split at h
  · split at h
    · cases h
    · cases h
      exact ⟨rfl, id⟩
  · rename_i pa leaf
    have g := l1Load_formed s.d (coreOf s.hid) pa n (lineSide side leaf)
    dsimp only at h
    split at h
    · cases h
    · cases h
      exact ⟨rfl, g⟩
  · rename_i pa leaf
    have g := homeLoad_formed s.d (layerOf s.hid) pa n
    split at h
    · cases h
      exact ⟨rfl, id⟩
    · split at h
      · dsimp only at h
        split at h
        · cases h
        · cases h
          exact ⟨rfl, g⟩
      · cases h
        exact ⟨rfl, id⟩

/-- The stores that the hart's window holds change the value of a read and nothing else (R40, R41). -/
theorem readOwn_ok {s t : State} {pl : Place} {va v : Word} {n side : Nat} (h : readOwn s pl va n side = .ok (v, t)) :
    t = { s with d := t.d, free := t.free } ∧ (DeviceFormed s.d → DeviceFormed t.d) := by
  unfold readOwn at h
  cases hr : readPlace s pl va n side with
  | error e => simp [hr, Except.map] at h
  | ok r =>
    simp only [hr, Except.map, Except.ok.injEq, Prod.mk.injEq] at h
    obtain ⟨-, rfl⟩ := h
    exact readPlace_ok hr

/-- A load changes only the device and the count of free values (R73). -/
theorem load_ok {s t : State} {va v : Word} {n side : Nat} (h : load s va n side = .ok (v, t)) :
    t = { s with d := t.d, free := t.free } ∧ (DeviceFormed s.d → DeviceFormed t.d) := by
  unfold load at h
  split at h
  · cases h
  · rename_i pl u heq
    have g := place_ok heq
    have k := readOwn_ok h
    refine ⟨?_, fun f => k.2 (g.2.2.2 f)⟩
    rw [k.1, g.2.2.1]

/-- A fetch changes only the device and the count of free values (R155). -/
theorem fetchNow_ok {s t : State} {va : Word} {w : Insn} (h : fetchNow s va = .ok (w, t)) :
    t = { s with d := t.d, free := t.free } ∧ (DeviceFormed s.d → DeviceFormed t.d) := by
  unfold fetchNow at h
  split at h
  · cases h
  · rename_i pl u heq
    have g := place_ok heq
    split at h
    · cases h
    · rename_i v t' heq'
      have k := readPlace_ok heq'
      cases h
      refine ⟨?_, fun f => k.2 (g.2.2.2 f)⟩
      rw [k.1, g.2.2.1]

/-- A word fetched early changes nothing more when its turn comes (R460). -/
theorem fetch_ok {s t : State} {va : Word} {w : Insn} (h : fetch s va = .ok (w, t)) :
    t = { s with d := t.d, free := t.free } ∧ (DeviceFormed s.d → DeviceFormed t.d) := by
  unfold fetch at h
  split at h
  · cases h
    exact ⟨rfl, id⟩
  · exact fetchNow_ok h

/-- With no word fetched early a fetch is made now. -/
theorem fetch_now {s : State} (va : Word) (h : s.h.early = []) : fetch s va = fetchNow s va := by
  simp [fetch, h]

/-! ## Focus -/

/-- The hart that has the turn is in focus. -/
@[simp] theorem focus_self (s : State) : focus s s.hid = s := by simp [focus]

/-- Focus moves to the hart that is asked for. -/
@[simp] theorem focus_hid (s : State) (hid : BitVec 11) : (focus s hid).hid = hid := by
  unfold focus
  split
  · rename_i h
    exact h.symm
  · rfl

/-- The hart in focus after a move is the one on that slot. -/
theorem focus_h (s : State) (hid : BitVec 11) : (focus s hid).h = s.hart hid := by
  unfold focus
  split
  · rename_i h
    simp [State.hart, h]
  · rfl

/-- A move of the focus leaves the device, the schedule and the count of free values alone. -/
@[simp] theorem focus_d (s : State) (hid : BitVec 11) : (focus s hid).d = s.d := by
  unfold focus
  split <;> rfl

/-- See `focus_d`. -/
@[simp] theorem focus_turns (s : State) (hid : BitVec 11) : (focus s hid).turns = s.turns := by
  unfold focus
  split <;> rfl

/-- See `focus_d`. -/
@[simp] theorem focus_free (s : State) (hid : BitVec 11) : (focus s hid).free = s.free := by
  unfold focus
  split <;> rfl

/-- What is done at a hart in focus is done in place. -/
@[simp] theorem onHart_self (s : State) (f : State → State) (h : (f s).hid = s.hid) : onHart s s.hid f = f s := by
  simp only [onHart, focus_self]
  rw [← h]
  exact focus_self (f s)

/-- Moving the focus keeps a state safe. -/
theorem focus_safe (s : State) (hid : BitVec 11) (h : s.Safe) : (focus s hid).Safe := by
  obtain ⟨h1, h2, h3, h4, m1, m2, m3, m4⟩ := h
  have hh : (s.hart hid).formed := by
    unfold State.hart
    split
    · exact h1
    · cases hf : sfind s.parked hid.toNat with
      | none => exact ⟨by decide, by decide, by decide, by decide, by decide⟩
      | some x => exact h2 _ (mem_of_sfind _ _ _ hf)
  have hc : Memory.wf (s.core (coreOf hid)).spad = true := by
    unfold State.core
    split
    · exact m3
    · cases hf : sfind s.cores (coreOf hid) with
      | none => rfl
      | some x => exact m4 _ (mem_of_sfind _ _ _ hf)
  unfold focus
  split
  · exact ⟨h1, h2, h3, h4, m1, m2, m3, m4⟩
  · refine ⟨hh, ?_, h3, h4, m1, m2, hc, ?_⟩
    · intro e he
      rcases mem_sput _ _ _ _ (mem_sdel _ _ _ he) with rfl | he
      · exact h1
      · exact h2 e he
    · intro e he
      dsimp only at he
      split at he
      · exact m4 e he
      · rcases mem_sput _ _ _ _ (mem_sdel _ _ _ he) with rfl | he
        · exact m3
        · exact m4 e he

end Sys2Proof.Laws
end

