-- ==== Sys2Proof/Tests/Slice0.lean ====
section
/-!
SUPPORT. Tests: ill-formed terms are refused, words written out from the spec's encodings decode to their instructions, single steps give
the spec's values, and every statement's hypotheses are met by a concrete state.
-/

open Sys2Proof Sys2Proof.Machine Sys2Proof.Claims

namespace Sys2Proof.Tests

set_option Elab.async false

/-! ## Well-formedness: each check refuses its ill-formed term -/

/-- Format field 3 names no format (R75). -/
theorem test_wf_float : (Instr.fadd 1 2 3 2).wellFormed = true ∧ (Instr.fadd 1 2 3 3).wellFormed = false := by decide +kernel
/-- Rounding fields 5 and 6 are reserved (R79). -/
theorem test_wf_rounding : (Instr.fcvtif 1 2 7 0 0).wellFormed = true ∧ (Instr.fcvtif 1 2 5 0 0).wellFormed = false ∧
    (Instr.fcvtif 1 2 6 0 0).wellFormed = false := by decide +kernel
/-- Block lengths have codes 0 to 4 (R27). -/
theorem test_wf_block : (Instr.setvl 1 2 0 0 4 0x11 2).wellFormed = true ∧ (Instr.setvl 1 2 0 0 5 0x11 2).wellFormed = false := by decide +kernel
/-- Side 3 is reserved (R239). -/
theorem test_wf_side : (Instr.vld 0 1 2 0 2).wellFormed = true ∧ (Instr.vld 0 1 2 0 3).wellFormed = false := by decide +kernel
/-- Formats 0x1C and up are no conversion targets (R204). -/
theorem test_wf_convert : (Instr.vcvt 0 1 2 0x1B 0 0 0 0).wellFormed = true ∧ (Instr.vcvt 0 1 2 0x1C 0 0 0 0).wellFormed = false := by decide +kernel
/-- Quantisation takes narrow formats only (R207). -/
theorem test_wf_quant : (Instr.vquant 0 1 3 0x15 0 0).wellFormed = true ∧ (Instr.vquant 0 1 3 0x02 0 0).wellFormed = false := by decide +kernel
/-- FMATCH writes an even mask register and the next (R133). -/
theorem test_wf_even : (Instr.fmatch 0 2 0 1 11).wellFormed = true ∧ (Instr.fmatch 0 3 0 1 11).wellFormed = false := by decide +kernel
/-- Barriers and timelines have no pod scope (R295, R296). -/
theorem test_wf_scope : (Instr.waittl 6 8 9).wellFormed = true ∧ (Instr.waittl 7 8 9).wellFormed = false := by decide +kernel
/-- Ports 0 to 7 are vector ports, 16 to 27 fabric ports (R258). -/
theorem test_wf_port : (Instr.shportStat 7 1).wellFormed = true ∧ (Instr.shportStat 27 1).wellFormed = true ∧
    (Instr.shportStat 8 1).wellFormed = false ∧ (Instr.shportStat 28 1).wellFormed = false ∧ (Instr.shportDisc 7).wellFormed = true ∧
    (Instr.shportDisc 8).wellFormed = false ∧ (Instr.shstagePort 0 11).wellFormed = true ∧ (Instr.shstagePort 0 12).wellFormed = false := by
  decide +kernel
/-- An event is no word (the table gives it no encoding). -/
theorem test_wf_event : (Instr.doorbell 3).wellFormed = false ∧ Instr.halt.wellFormed = true := by decide +kernel

/-! ## Decoding: words written out from the encoding tables -/

/-- Words that chapter examples of R46 to R51 and the encoding tables write out. -/
theorem test_decode_integer : ∀ p ∈ ([
      (0x03000000, .addi 0 0 0),
      (0x0B192345, .lui 6 0x12345),
      (0x03186678, .addi 6 6 0x678),
      (0x01189340, .add 6 9 13)] : List (Nat × Instr)),
    decodeTableWord 32 p.1 = some p.2 := by decide +kernel

/-- Words that chapter examples of R46 to R51 and the encoding tables write out. -/
theorem test_decode_sync1 : ∀ p ∈ ([
      (0x61C0A50B, .amoAdd 6 10 20 11),
      (0x64C00209, .waittl 6 8 9),
      (0x6520059B, .binit 1 22 27),
      (0x6524058D, .barrive 1 0 22 13),
      (0x65280580, .bwait 1 22 0),
      (0x61412291, .amoAdd 2 18 10 17),
      (0x62C8920C, .amo2Cas 6 9 8 12),
      (0x60E80000, .fenceFull 7)] : List (Nat × Instr)),
    decodeTableWord 32 p.1 = some p.2 := by decide +kernel

/-- Words that chapter examples of R46 to R51 and the encoding tables write out. -/
theorem test_decode_sync2 : ∀ p ∈ ([
      (0x63CC6200, .ldacq 6 3 6 8),
      (0x63DC0185, .strel 6 3 6 5)] : List (Nat × Instr)),
    decodeTableWord 32 p.1 = some p.2 := by decide +kernel

/-- Words that chapter examples of R46 to R51 and the encoding tables write out. -/
theorem test_decode_control : ∀ p ∈ ([
      (0x12146FFC, .bne 5 6 0xFFC),
      (0x1A000005, .halt),
      (0x19140102, .csrrd 5 0x102),
      (0x1A000003, .rett),
      (0x18001000, .jalr 0 1 0),
      (0x1B002010, .brvAny 2 16)] : List (Nat × Instr)),
    decodeTableWord 32 p.1 = some p.2 := by decide +kernel

/-- Words that chapter examples of R46 to R51 and the encoding tables write out. -/
theorem test_decode_memory : ∀ p ∈ ([
      (0x0D243C08, .lwu 9 3 8),
      (0x0E28E600, .sd 10 14 0)] : List (Nat × Instr)),
    decodeTableWord 32 p.1 = some p.2 := by decide +kernel

/-- Words that chapter examples of R46 to R51 and the encoding tables write out. -/
theorem test_decode_float : ∀ p ∈ ([
      (0x0F20920E, .fcvtif 8 9 1 0 0)] : List (Nat × Instr)),
    decodeTableWord 32 p.1 = some p.2 := by decide +kernel

/-- Words that chapter examples of R46 to R51 and the encoding tables write out. -/
theorem test_decode_vector : ∀ p ∈ ([
      (0x20146046, .setvl 5 6 0 0 0 0x11 2),
      (0xA7284400, .vfmadd 1 5 1 2 0),
      (0x2F681400, .vbcast 0 13 20 0),
      (0x2F02D401, .vtox 0 0 11 20),
      (0x2D4A2A06, .vcvt 0 9 8 0x15 0 0 1 2),
      (0x2D48CA38, .vcvt 0 9 3 0x05 0 7 0 0)] : List (Nat × Instr)),
    decodeTableWord 32 p.1 = some p.2 := by decide +kernel

/-- Words that chapter examples of R46 to R51 and the encoding tables write out. -/
theorem test_decode_vectorMemory : ∀ p ∈ ([
      (0x30090000, .vld 0 1 8 0 0),
      (0x30110481, .vldStr 0 2 8 9 0 0),
      (0x32190102, .vldx 0 3 8 2 0 0 2),
      (0x34090480, .vldff 0 1 8 9 0 0),
      (0x39429B0B, .vamoIncb 0 4 20 6 1 2 0),
      (0x39412900, .vamoAdd 0 4 9 2 0 2 0)] : List (Nat × Instr)),
    decodeTableWord 32 p.1 = some p.2 := by decide +kernel

/-- Words that chapter examples of R46 to R51 and the encoding tables write out. -/
theorem test_decode_fibre : ∀ p ∈ ([
      (0x49118680, .fldstLd 0 1 12 13 0),
      (0x40201058, .fmatch 0 2 0 1 11),
      (0x44310600, .fcompact 0 3 1 3),
      (0x46023050, .fdot 0 2 3 10)] : List (Nat × Instr)),
    decodeTableWord 32 p.1 = some p.2 := by decide +kernel

/-- Words that chapter examples of R46 to R51 and the encoding tables write out. -/
theorem test_decode_levelIndex : ∀ p ∈ ([
      (0x4A30CA03, .sliopDiv 0 6 3 5 0),
      (0x4B188000, .slifnExp 0 3 2 0),
      (0x4D20D800, .sliredSum 0 4 3 12 0),
      (0x4E504000, .vtransExp 0 10 1 0)] : List (Nat × Instr)),
    decodeTableWord 32 p.1 = some p.2 := by decide +kernel

/-- Words that chapter examples of R46 to R51 and the encoding tables write out. -/
theorem test_decode_shuttle : ∀ p ∈ ([
      (0x58002500, .pset 2 20),
      (0x59002003, .swset 2 3),
      (0x5A002001, .shstageDst 0 2),
      (0x5A000585, .shstageBar 0 22),
      (0x5A003006, .shstageSw 0 3),
      (0x5B000009, .shgoRows 0 0 1),
      (0x5B100008, .shgoCopy 1 0 1),
      (0x5C000701, .shstatMiss 0 28)] : List (Nat × Instr)),
    decodeTableWord 32 p.1 = some p.2 := by decide +kernel

/-- Words that chapter examples of R46 to R51 and the encoding tables write out. -/
theorem test_decode_matrix : ∀ p ∈ ([
      (0x51004060, .mmaSet 0 0 2 3),
      (0x51414163, .mmaAccSp 0 2 10 11),
      (0x5320C000, .mmetaMeta 0 1 6),
      (0x54200000, .mtileZero 0 1),
      (0x5400A002, .mtileSt 0 0 5),
      (0x55008000, .mdrain 0 0 4 0)] : List (Nat × Instr)),
    decodeTableWord 32 p.1 = some p.2 := by decide +kernel

/-- Words that chapter examples of R46 to R51 and the encoding tables write out. -/
theorem test_decode_select : ∀ p ∈ ([
      (0x68104042, .vselMaxClr 0 2 1 1),
      (0x69188000, .vexitBefore 0 3 2 0),
      (0x6B680140, .vscanIdx 0 13 5),
      (0x6A003000, .ltsplit 3),
      (0x6A140003, .ltid 5)] : List (Nat × Instr)),
    decodeTableWord 32 p.1 = some p.2 := by decide +kernel

/-- Words that chapter examples of R46 to R51 and the encoding tables write out. -/
theorem test_decode_launch1 : ∀ p ∈ ([
      (0x706DA000, .launch 27 26),
      (0x70248001, .launchId 9 8),
      (0x70248004, .lwait 9 8),
      (0x711461C1, .msendw 5 6 7),
      (0x71240082, .mrecv 9 2),
      (0x712942D0, .mamoAdd 10 20 11),
      (0x72000001, .supvCsave),
      (0x72005187, .supvTlbinv 5 6)] : List (Nat × Instr)),
    decodeTableWord 32 p.1 = some p.2 := by decide +kernel

/-- Words that chapter examples of R46 to R51 and the encoding tables write out. -/
theorem test_decode_launch2 : ∀ p ∈ ([
      (0x73645000, .seamRead 3 1 5)] : List (Nat × Instr)),
    decodeTableWord 32 p.1 = some p.2 := by decide +kernel

/-- One word of each scalar major that the lists above leave out, field by field (R48, R66 to R86). -/
theorem test_decode_scalarFields : ∀ p ∈ ([
      (0#1 ++ 0x01#7 ++ 9#6 ++ 10#6 ++ 11#6 ++ 0x00#6, .add 9 10 11),
      (0#1 ++ 0x02#7 ++ 9#6 ++ 10#6 ++ 11#6 ++ 0x10#6, .mulw 9 10 11),
      (0#1 ++ 0x04#7 ++ 9#6 ++ 10#6 ++ 0x801#12, .addiw 9 10 0x801),
      (0#1 ++ 0x05#7 ++ 9#6 ++ 10#6 ++ 0x801#12, .andi 9 10 0x801),
      (0#1 ++ 0x06#7 ++ 9#6 ++ 10#6 ++ 0x801#12, .ori 9 10 0x801),
      (0#1 ++ 0x07#7 ++ 9#6 ++ 10#6 ++ 0x801#12, .xori 9 10 0x801),
      (0#1 ++ 0x08#7 ++ 9#6 ++ 10#6 ++ 4#3 ++ 0#4 ++ 17#5, .slliw 9 10 17),
      (0#1 ++ 0x09#7 ++ 9#6 ++ 10#6 ++ 0x801#12, .slti 9 10 0x801),
      (0#1 ++ 0x0A#7 ++ 9#6 ++ 10#6 ++ 0x801#12, .sltiu 9 10 0x801),
      (0#1 ++ 0x0C#7 ++ 9#6 ++ 0x20001#18, .auipc 9 0x20001),
      (0#1 ++ 0x10#7 ++ 9#6 ++ 10#6 ++ 11#6 ++ 2#2 ++ 8#4, .fnmadd 9 10 11 2)] : List (BitVec 32 × Instr)),
    decodeTableWord 32 p.1.toNat = some p.2 := by decide +kernel

/-- Branches and jumps, field by field (R48, R81, R82). -/
theorem test_decode_branchFields : ∀ p ∈ ([
      (0#1 ++ 0x11#7 ++ 9#6 ++ 10#6 ++ 0x801#12, .beq 9 10 0x801),
      (0#1 ++ 0x13#7 ++ 9#6 ++ 10#6 ++ 0x801#12, .blt 9 10 0x801),
      (0#1 ++ 0x14#7 ++ 9#6 ++ 10#6 ++ 0x801#12, .bge 9 10 0x801),
      (0#1 ++ 0x15#7 ++ 9#6 ++ 10#6 ++ 0x801#12, .bltu 9 10 0x801),
      (0#1 ++ 0x16#7 ++ 9#6 ++ 10#6 ++ 0x801#12, .bgeu 9 10 0x801),
      (0#1 ++ 0x17#7 ++ 9#6 ++ 0x20001#18, .jal 9 0x20001)] : List (BitVec 32 × Instr)),
    decodeTableWord 32 p.1.toNat = some p.2 := by decide +kernel

/-- One word of each vector major that the lists above leave out, C = 1 in every second one (R48, R98). -/
theorem test_decode_vectorFields : ∀ p ∈ ([
      (0#1 ++ 0x21#7 ++ 9#6 ++ 10#6 ++ 0#6 ++ 0#5 ++ 1#1, .setvlxKeep 9 10),
      (1#1 ++ 0x22#7 ++ 17#5 ++ 18#5 ++ 19#5 ++ 5#3 ++ 0x0D#6, .vmaxuVv 1 17 18 19 5),
      (0#1 ++ 0x23#7 ++ 17#5 ++ 18#5 ++ 40#6 ++ 5#3 ++ 0x10#5, .vmulVx 0 17 18 40 5),
      (1#1 ++ 0x24#7 ++ 17#5 ++ 18#5 ++ 40#6 ++ 5#3 ++ 0x07#5, .vsraVi 1 17 18 40 5),
      (0#1 ++ 0x25#7 ++ 17#5 ++ 18#5 ++ 19#5 ++ 5#3 ++ 0x06#6, .vfmaxVv 0 17 18 19 5),
      (1#1 ++ 0x26#7 ++ 17#5 ++ 18#5 ++ 40#6 ++ 5#3 ++ 0x06#5, .vfmaxVx 1 17 18 40 5),
      (0#1 ++ 0x28#7 ++ 18#5 ++ 20#5 ++ 19#5 ++ 5#3 ++ 0x02#6, .vwmaccsu 0 18 20 19 5),
      (1#1 ++ 0x29#7 ++ 0#2 ++ 3#3 ++ 18#5 ++ 19#5 ++ 5#3 ++ 0x05#6, .vsleu 1 3 18 19 5),
      (0#1 ++ 0x2A#7 ++ 0#2 ++ 3#3 ++ 0#2 ++ 6#3 ++ 0#8 ++ 0x05#6, .knot 0 3 6),
      (1#1 ++ 0x2B#7 ++ 17#5 ++ 18#5 ++ 19#5 ++ 5#3 ++ 0x06#6, .vredor 1 17 18 19 5),
      (0#1 ++ 0x2C#7 ++ 17#5 ++ 0#7 ++ 3#3 ++ 5#3 ++ 0x02#6, .vrank 0 17 3 5),
      (1#1 ++ 0x2E#7 ++ 17#5 ++ 19#5 ++ 0x15#5 ++ 5#3 ++ 7#3 ++ 4#3, .vdeq 1 17 19 0x15 5 7)] : List (BitVec 32 × Instr)),
    decodeTableWord 32 p.1.toNat = some p.2 := by decide +kernel

/-- Vector memory majors, field by field (R48, R115, R270 to R280). -/
theorem test_decode_vectorMemoryFields : ∀ p ∈ ([
      (1#1 ++ 0x31#7 ++ 17#5 ++ 40#6 ++ 41#6 ++ 5#3 ++ 2#2 ++ 1#2, .vstStr 1 17 40 41 5 2),
      (0#1 ++ 0x33#7 ++ 17#5 ++ 40#6 ++ 18#6 ++ 5#3 ++ 2#2 ++ 3#2, .vstx 0 17 40 18 5 2 3),
      (1#1 ++ 0x35#7 ++ 17#5 ++ 40#6 ++ 18#6 ++ 5#3 ++ 0#2 ++ 3#2, .vgathb 1 17 40 18 5 3),
      (0#1 ++ 0x36#7 ++ 17#5 ++ 40#6 ++ 18#6 ++ 5#3 ++ 2#2 ++ 3#2, .vscatbFadd 0 17 40 18 5 3),
      (1#1 ++ 0x37#7 ++ 17#5 ++ 0#3 ++ 6#3 ++ 0#6 ++ 5#3 ++ 0#4, .vlds 1 17 6 5),
      (0#1 ++ 0x38#7 ++ 17#5 ++ 40#6 ++ 41#6 ++ 5#3 ++ 0#3 ++ 1#1, .vspadSt 0 17 40 41 5),
      (1#1 ++ 0x3A#7 ++ 17#5 ++ 18#5 ++ 19#5 ++ 5#3 ++ 0x03#6, .vssubu 1 17 18 19 5)] : List (BitVec 32 × Instr)),
    decodeTableWord 32 p.1.toNat = some p.2 := by decide +kernel

/-- Fibre, level-index, matrix and port majors, field by field (R48, R125, R216, R306, R294). -/
theorem test_decode_otherFields : ∀ p ∈ ([
      (1#1 ++ 0x41#7 ++ 9#4 ++ 10#4 ++ 11#4 ++ 0#9 ++ 3#3, .fisectAdd 1 9 10 11),
      (0#1 ++ 0x42#7 ++ 9#4 ++ 10#4 ++ 11#4 ++ 0#9 ++ 3#3, .funionAdd 0 9 10 11),
      (1#1 ++ 0x43#7 ++ 9#4 ++ 10#4 ++ 0#12 ++ 0x9#4, .fmergeSortFirst 1 9 10),
      (0#1 ++ 0x45#7 ++ 9#4 ++ 0#1 ++ 40#6 ++ 41#6 ++ 0#6 ++ 1#1, .fwalkVals 0 9 40 41),
      (1#1 ++ 0x47#7 ++ 9#4 ++ 10#4 ++ 0#4 ++ 5#3 ++ 0#6 ++ 2#3, .fmapAbs 1 9 10 5),
      (0#1 ++ 0x48#7 ++ 9#4 ++ 0#8 ++ 5#3 ++ 18#5 ++ 0x2#4, .ffromdense 0 9 5 18),
      (1#1 ++ 0x4C#7 ++ 17#5 ++ 18#5 ++ 0x19#5 ++ 5#3 ++ 7#3 ++ 1#1 ++ 2#2, .slicvt 1 17 18 0x19 5 7 1 2),
      (0#1 ++ 0x4F#7 ++ 17#5 ++ 18#5 ++ 40#6 ++ 5#3 ++ 3#5, .slixDiv 0 17 18 40 5),
      (1#1 ++ 0x50#7 ++ 0#6 ++ 40#6 ++ 0#12, .mshape 1 40),
      (0#1 ++ 0x52#7 ++ 6#3 ++ 0x81#8 ++ 0x42#8 ++ 1#5, .mmagAcc 0 6 0x81 0x42),
      (0#1 ++ 0x5D#7 ++ 0#4 ++ 6#8 ++ 0#11 ++ 1#1, .shportDisc 6)] : List (BitVec 32 × Instr)),
    decodeTableWord 32 p.1.toNat = some p.2 := by decide +kernel

/-- What R51 makes illegal: an unassigned major, C = 1 outside the vector side, a reserved bit, a reserved function code, a reserved field value. -/
theorem test_decode_refused : ∀ w ∈ [0x00000000, 0xFFFFFFFF, 0x7F000000, 0x83000000, 0xE1C0A50B, 0x0100003F, 0x0F0000FF, 0x30090003, 0x59000047, 0x5B000006],
    decodeTableWord 32 w = none := by decide +kernel

/-! ## Single steps, with the spec's own values where it gives them -/

/-- Hart 0 with a unit in user mode whose x1, x2, ... hold the words of the list. -/
def unitWith (l : List Word) : State :=
  { State.reset with h := { Hart.reset with live := true, x := Vector.ofFn fun i => (0 :: l).getD i.val 0 } }

/-- The same with `g` lane groups, a type, a length, and v1, v2, ... as listed. -/
def vectorUnit (g : BitVec 16) (ty vl : BitVec 12) (l : List (BitVec 65536)) : State :=
  let s := unitWith []
  { s with h := { s.h with gmap := g, vtype := ty, vl := vl, v := Vector.ofFn fun i => (0 :: l).getD i.val 0 } }

/-- Codes packed as consecutive elements of `w` bits. -/
def packed (w : Nat) (l : List Nat) : BitVec 65536 := BitVec.ofNat 65536 (l.foldr (fun e n => e + n * 2 ^ w) 0)

/-- The state that a word leads to. -/
noncomputable def after (s : State) (i : Instr) : State :=
  match exec i s with
  | .next t => t
  | _ => s

/-- The same in supervisor mode. -/
def supervisor (s : State) : State := { s with h := { s.h with prv := true } }

/-- R66: addition wraps; a result for x0 is discarded (R28) and the pc goes on (R13). -/
theorem test_add : (after (unitWith [0xFFFFFFFFFFFFFFFF, 2]) (.add 3 1 2)).h.x[3] = 1 ∧
    (after (unitWith [5]) (.addi 0 1 7)).h.x[0] = 0 ∧ (after (unitWith [5]) (.addi 0 1 7)).h.pc = 4 := by decide +kernel
/-- R67: a zero divisor saturates toward the dividend's sign; the most negative value over -1 wraps to itself. -/
theorem test_div : (after (unitWith [-7, 0]) (.div 3 1 2)).h.x[3] = 0x8000000000000000 ∧
    (after (unitWith [0x8000000000000000, -1]) (.div 3 1 2)).h.x[3] = 0x8000000000000000 := by decide +kernel
/-- R66: the remainder has the dividend's sign; by zero it is the dividend. -/
theorem test_rem : (after (unitWith [-7, 2]) (.rem 3 1 2)).h.x[3] = -1 ∧ (after (unitWith [9, 0]) (.rem 3 1 2)).h.x[3] = 9 := by decide +kernel
/-- R68: a word form sign-extends from 32 bits. -/
theorem test_mulw : (after (unitWith [0x10000, 0x8000]) (.mulw 3 1 2)).h.x[3] = 0xFFFFFFFF80000000 := by decide +kernel
/-- R66: the signed-unsigned high product. -/
theorem test_hmulsu : (after (unitWith [-1, 0xFFFFFFFFFFFFFFFF]) (.hmulsu 3 1 2)).h.x[3] = 0xFFFFFFFFFFFFFFFF := by decide +kernel
/-- R70, R71: the immediates of LUI and SLTIU are sign-extended. -/
theorem test_immediates : (after (unitWith []) (.lui 6 0x20000)).h.x[6] = 0xFFFFFFFFE0000000 ∧
    (after (unitWith [5]) (.sltiu 6 1 0xFFF)).h.x[6] = 1 := by decide +kernel
/-- R6, R72: bytes are little-endian, and LB sign-extends. -/
theorem test_memory :
    let s := after (unitWith [0xFFFFFFFFFFF00000, 0x1122334455667788]) (.sd 2 1 8)
    (after s (.lb 3 1 8)).h.x[3] = 0xFFFFFFFFFFFFFF88 ∧ (after s (.lhu 3 1 14)).h.x[3] = 0x1122 ∧ (after s (.lw 3 1 10)).h.x[3] = 0 ∧
      (after s (.lw 3 1 10)).h.cause = Cause.misaligned := by decide +kernel
/-- R75, R76: 1.5 + 2.25 = 3.75; a third is inexact; one over zero is an infinity with DZ. -/
theorem test_float : (after (unitWith [0x3FC00000, 0x40100000]) (.fadd 3 1 2 0)).h.x[3] = 0x40700000 ∧
    (after (unitWith [0x3F800000, 0x40400000]) (.fdiv 3 1 2 0)).h.x[3] = 0x3EAAAAAB ∧
    (after (unitWith [0x3F800000, 0x40400000]) (.fdiv 3 1 2 0)).h.fcsr = Flag.nx ∧
    (after (unitWith [0x3F800000, 0]) (.fdiv 3 1 2 0)).h.x[3] = 0x7F800000 ∧ (after (unitWith [0x3F800000, 0]) (.fdiv 3 1 2 0)).h.fcsr = Flag.dz := by
  decide +kernel
/-- R79: 2.5 to an integer: to even by mode 0, up by mode 3; a NaN gives 0 with NV. -/
theorem test_fcvtif : (after (unitWith [0x40200000]) (.fcvtif 3 1 0 0 0)).h.x[3] = 2 ∧ (after (unitWith [0x40200000]) (.fcvtif 3 1 3 0 0)).h.x[3] = 3 ∧
    (after (unitWith [0x7FC00000]) (.fcvtif 3 1 0 0 0)).h.x[3] = 0 ∧ (after (unitWith [0x7FC00000]) (.fcvtif 3 1 0 0 0)).h.fcsr = Flag.nv := by
  decide +kernel
/-- R81, R82: an offset counts words and is signed; JALR to a misaligned target traps and links nothing. -/
theorem test_jumps : (after (unitWith []) (.beq 1 2 0xFFF)).h.pc = 0xFFFFFFFFFFFFFFFC ∧ (after (unitWith []) (.jal 5 3)).h.pc = 12 ∧
    (after (unitWith []) (.jal 5 3)).h.x[5] = 4 ∧ (after (unitWith []) (.jalr 5 0 2)).h.x[5] = 0 ∧ (after (unitWith []) (.jalr 5 0 2)).h.tval = 2 := by
  decide +kernel
/-- R152, R153: SVC enters supervisor mode with its code in TVAL; RETT in user mode is illegal. -/
theorem test_traps : (after (unitWith []) (.svc 0xABC)).h.prv = true ∧ (after (unitWith []) (.svc 0xABC)).h.cause = 0x0C ∧
    (after (unitWith []) (.svc 0xABC)).h.tval = 0xABC ∧ (after (unitWith []) .rett).h.tval = 0x1A000003 := by decide +kernel
/-- R34, R150: a reserved rounding mode is not stored; EPC[1:0] stay zero. -/
theorem test_csr : (after (unitWith [0x85]) (.csrwr 0 1 0x005)).h.fcsr = 0x80 ∧
    (after (supervisor (unitWith [0xFF])) (.csrwr 0 1 0x101)).h.epc = 0xFC ∧ (after (unitWith [0xFF]) (.csrwr 0 1 0x101)).h.cause = Cause.illegal := by
  decide +kernel
/-- R23, the example's steps 1 and 5: 2048 elements at e32 take 8 lane groups and give VL 1024; 300 with 2 groups give VL 256. -/
theorem test_setvl :
    let s (lo hi : BitVec 5) (n : Word) : State := let s := unitWith [n]; { s with h := { s.h with lgmin := lo, lgmax := hi } }
    (after (s 2 8 2048) (.setvl 5 1 0 0 0 0x11 2)).h.gmap = 0xFF ∧ (after (s 2 8 2048) (.setvl 5 1 0 0 0 0x11 2)).h.x[5] = 1024 ∧
    (let t : State := { s 2 4 300 with h := { (s 2 4 300).h with gmap := 3 }, c := { Core.reset with na := 2 } }
     (after t (.setvl 5 1 0 0 0 0x11 2)).h.vl = 256) := by decide +kernel
/-- R99: element 1 is masked off and kept, element 3 is tail and, by TZ, zeroed. -/
theorem test_vadd :
    let s := vectorUnit 1 0x412 3 [packed 32 [1, 2, 3, 4], packed 32 [10, 20, 30, 40], packed 32 [7, 7, 7, 7]]
    let t := after { s with h := { s.h with k := s.h.k.set 2 0b101 } } (.vaddVv 0 3 1 2 2)
    t.h.elem 32 3 0 = 11 ∧ t.h.elem 32 3 1 = 7 ∧ t.h.elem 32 3 2 = 33 ∧ t.h.elem 32 3 3 = 0 ∧ t.h.vdirty = 8 := by decide +kernel
/-- R111: the start value is combined too. -/
theorem test_vredsum : (after (vectorUnit 1 0x12 3 [packed 32 [1, 2, 3, 4], packed 32 [100]]) (.vredsum 0 3 1 2 0)).h.elem 32 3 0 = 106 := by decide +kernel
/-- R375: of equal maxima the lowest index is chosen. -/
theorem test_vsel :
    let t := after (vectorUnit 1 0x12 4 [packed 32 [3, 9, 9, 1]]) (.vselMax 0 2 1 0)
    t.h.elem 32 2 0 = 1 ∧ t.h.elem 32 2 1 = 9 := by decide +kernel
/-- R114: a count looks at the VL low bits. -/
theorem test_kcount :
    let s := vectorUnit 1 0x12 3 []
    (after { s with h := { s.h with k := s.h.k.set 1 0b1110 } } (.kcount 0 1 7 0)).h.x[7] = 2 := by decide +kernel
/-- R188, R189: the two worked dart8 conversions. -/
theorem test_dart : convertCode Fmts.fp32 Fmts.dart8 0 false 0x40400000 = (0x67, Flag.nx) ∧
    convertCode Fmts.fp32 Fmts.dart8 0 false 0x446BF000 = (0x18, Flag.nx) ∧ (convertCode Fmts.fp32 Fmts.dart8 1 false 0x446BF000).1 = 0x3F ∧
    (convertCode Fmts.fp32 Fmts.dart4 0 false 0x3DCCCCCD) = (4, Flag.nx) := by decide +kernel
/-- R192, R220: 2.0 has no exact level-index code. -/
theorem test_slicvt : convertCode Fmts.fp32 Fmts.sli32 0 false 0x40000000 = (0x0D8B90C0, Flag.nx) := by decide +kernel
/-- R219, the worked cases of SLIFN. -/
theorem test_slifn :
    let s (x : Nat) := vectorUnit 1 0x6E 1 [packed 32 [x]]
    (after (s 0x10000000) (.slifnExp 0 2 1 0)).h.elem 32 2 0 = 0x18000000 ∧ (after (s 0x10000000) (.slifnExp 0 2 1 0)).h.fcsr = Flag.lxup ∧
    (after (s 0x90000000) (.slifnExp 0 2 1 0)).h.elem 32 2 0 = 0x58000000 ∧
    (after (s 0x50000000) (.slifnLog 0 2 1 0)).h.elem 32 2 0 = 0x88000000 ∧ (after (s 0x18000000) (.slifnLog 0 2 1 0)).h.elem 32 2 0 = 0x10000000 := by
  decide +kernel
/-- R207, the worked block: its codes and its scale. -/
theorem test_vquant :
    let t := after (vectorUnit 1 0xC6 8 [packed 32 [0x3F000000, 0xBF800000, 0x40600000, 0x3E800000, 0, 0x40E00000, 0xC0E00000, 0x3FE00000]])
      (.vquant 0 2 1 0x0C 0 0)
    (List.range 8).map (t.h.elem 8 2) = [0x00, 0x0F, 0x04, 0x00, 0x00, 0x07, 0x09, 0x02] ∧ t.h.elem 16 3 0 = 0x3F80 ∧ t.h.fcsr = Flag.nx := by
  decide +kernel
/-- R212, R213: exact points of the transcendental words. -/
theorem test_vtrans : transCode .exp 0 = (0x3F800000, 0) ∧ transCode .rcp 0x40000000 = (0x3F000000, 0) ∧ transCode .log2 0x41000000 = (0x40400000, 0) := by
  decide +kernel
/-- R135, R136: an intersection keeps the shared coordinate, a union all of them. -/
theorem test_fibres :
    let s := vectorUnit 1 0x12 0 [0, packed 32 [1, 5, 9], packed 32 [10, 50, 90], packed 32 [5, 7], packed 32 [3, 4]]
    let s := { s with h := { s.h with focc := ((s.h.focc.set 1 3).set 2 2) } }
    pairsOf (after s (.fisectMul 0 3 1 2)).h 3 = [(5, 150)] ∧ pairsOf (after s (.funionAdd 0 3 1 2)).h 3 = [(1, 10), (5, 53), (7, 4), (9, 90)] := by
  decide +kernel
/-- R306, R309: a tile register zeroed and read back row by row. -/
theorem test_mtile :
    let s := vectorUnit 1 0x12 2 []
    let s := { s with h := { s.h with mx := s.h.mx.set 1 (BitVec.ofNat 131072 0x700000005), mshape := 0x10202 } }
    (after s (.mdrain 0 1 4 0)).h.elem 32 4 1 = 7 ∧ (after s (.mtileZero 0 1)).h.mx[1] = 0 ∧ (after s (.mtileZero 0 1)).h.vdirty.getLsbD 33 = true := by
  decide +kernel
/-- R242, the worked decode of a physical address: home layer 4. -/
theorem test_homeLayer : homeLayer Device.reset 0x84ACE9ABC = 4 := by decide +kernel
/-- R239, the worked case: P3 evicts V1, C1 to C5 evict V2 to V6, and C6 evicts C1. -/
theorem test_replacement :
    let line (p : Nat) (ptr : Bool) (d : Device) : Device := (obtain d 0 (p * 16384) ptr).2
    let tags (d : Device) : List Nat := (setAt d 0 0).map fun l => l.tag / 128
    let d0 := [(1, true), (2, true), (11, false), (12, false), (13, false), (14, false), (15, false), (16, false)].foldl (fun d l => line l.1 l.2 d) Device.reset
    let d1 := line 3 true d0
    let d2 := [21, 22, 23, 24, 25].foldl (fun d n => line n false d) d1
    let d3 := line 26 false d2
    (11 ∈ tags d0 ∧ 11 ∉ tags d1 ∧ 12 ∈ tags d1) ∧ (∀ n ∈ [1, 2, 3, 21, 22, 23, 24, 25], n ∈ tags d2) ∧ 21 ∉ tags d3 ∧ 22 ∈ tags d3 := by decide +kernel
/-- R171: the worked walk, in user mode: the address resolves, and a fetch there is refused. -/
theorem test_walk :
    let m := [(0x10000 + 8 * 2, 0x20001), (0x20000 + 8 * 0x8D1, 0x40001), (0x40000 + 8 * 0xB3, 0x60001), (0x60000 + 8 * 0x18, 0x84ACE0017)].foldl
      (fun m e => Memory.write m e.1 8 e.2) []
    let s := unitWith []
    let s := { s with h := { s.h with ptroot := 0x10000 }, d := { s.d with mem := m, stage := 3 } }
    (match place s .store 0x123456789ABC 4 with | .ok (.mem pa _, _) => pa == 0x84ACE9ABC | _ => false) = true ∧
      (match place s .fetch 0x123456789ABC 4 with | .error e => decide (e = .trap Cause.access 0x123456789ABC) | _ => false) = true := by
  decide +kernel
/-- R266: the last arrival ends the phase, restores REM and flips PHASE. -/
theorem test_barrier :
    let s := after (unitWith [0xFFFFFFFFFFF00040, 1]) (.binit 1 1 2)
    let t := after s (.barrive 1 5 1 0)
    objectAt s 0xFFFFFFFFFFF00040 = 0x0000000000100001 ∧ t.h.x[5] = 0 ∧ objectAt t 0xFFFFFFFFFFF00040 = 0x8000000000100001 := by decide +kernel
/-- R263, R295: a signal raises a counter, which a wait then passes. -/
theorem test_timeline :
    let s := after (unitWith [7, 3]) (.sigtl 1 1 2)
    s.d.ctr 7 = 3 ∧ (after s (.waittl 1 1 2)).h.pc = 8 ∧ (after (unitWith [7, 3]) (.waittl 1 1 2)).h.wait = some .timeline := by decide +kernel
/-- R358: an atomic in scratchpad returns the old value. -/
theorem test_amo :
    let s := after (unitWith [0xFFFFFFFFFFF00040, 40, 2]) (.sd 2 1 0)
    (after s (.amoAdd 2 5 1 3)).h.x[5] = 40 ∧ Memory.read (after s (.amoAdd 2 5 1 3)).c.spad 0x40 8 = 42 := by decide +kernel
/-- R289, R291: a staged slot stays staged; a command with no source is refused with -3. -/
theorem test_shuttle : (chan (after (unitWith []) (.shstageSrc 2 9)) 2).stg.src = some 9 ∧ (after (unitWith []) (.shgoCopy 2 5 0)).h.x[5] = -3 := by decide +kernel
/-- R399: a record of zeros is a bad record, status 1. -/
theorem test_launch : (after (unitWith [0xFFFFFFFFFFF00040]) (.launch 5 1)).h.x[5] = 1 := by decide +kernel
/-- R330: at level 6 (package) hart 0 sees two bands, its own number 0, healthy, with every part in service. -/
theorem test_seam :
    let s := unitWith []
    (after { s with d := { s.d with stage := 3 } } (.seamRead 6 0 5)).h.x[5] = 0x8000000000000002 := by decide +kernel
/-- R447: an error is logged at HEAD with its valid bit. -/
theorem test_log : sfind (after State.reset (.correctedError 1 9 0x40)).d.log 0 = some (0x40, 0x900000011) ∧
    (after State.reset (.correctedError 1 9 0x40)).d.logHead = 1 := by decide +kernel
/-- R435, R436: a load is accepted only in stage 0. -/
theorem test_load : (after { State.reset with d := { Device.reset with llen := 0x1000 } } .load).d.lbusy = true ∧
    (after { State.reset with d := { Device.reset with stage := 1 } } .load).d.lstat = 5 := by decide +kernel
/-- A step fetches, decodes and runs the word that is placed at the pc: ADDI x5, x0, 7. -/
theorem test_step : (match step (State.reset.withFetchWord 32 0x03140007) with | .next t => decide (t.h.x[5] = 7) | _ => false) = true := by
  decide +kernel

/-! ## Witnesses: concrete states and operands that meet the hypotheses of each statement -/

/-- The result is no stop. -/
def isOk {α : Type} : Except Stop α → Bool
  | .ok _ => true
  | .error _ => false
/-- The result is a trap. -/
def isTrap {α : Type} : Except Stop α → Bool
  | .error (.trap _ _) => true
  | _ => false
/-- The result is a wait for `w`. -/
def isWait {α : Type} (w : Wait) : Except Stop α → Bool
  | .error (.wait v) => decide (v = w)
  | _ => false

/-- A unit whose x1 names offset 0 of the scratchpad window. -/
def padUnit : State := unitWith [0xFFFFFFFFFFF00000]
/-- The same with row 0 of scratchpad poisoned. -/
def poisonedPad : State := { padUnit with c := { Core.reset with spoison := [(0, 0)] } }
/-- The same with a filling swatch over the first 64 bytes. -/
def fillingPad : State := { padUnit with c := { Core.reset with sws := (Vector.replicate 64 0).set 0 (2 ^ 48 + 64 * 2 ^ 20) } }

/-- A unit that sees the first GiB of memory at its own addresses, and whose x1, x2, ... hold the words of the list. -/
def mapped (l : List Word) : State := (unitWith l).withFetchWord 32 0
/-- The same with another level-2 entry for that GiB. -/
def mappedBy (e : Nat) (l : List Word) : State :=
  { mapped l with d := { (mapped l).d with mem := Memory.write (mapped l).d.mem 0x20000 8 e } }
/-- A stage that holds `n` stores of a byte at offset 8 of scratchpad while a convoy is open. -/
def heldStores (n : Nat) : MStage := { MStage.empty with isOpen := true, count := 1, stores := List.replicate n { va := 0xFFFFFFFFFFF00008, place := .spad 8, n := 1, v := 5 } }
/-- The state with another matrix stage. -/
def staged (s : State) (m : MStage) : State := { s with h := { s.h with mstage := m } }

theorem test_meets_IntegerRegisterWords : (unitWith [1, 2]).h.lane = none := by decide +kernel

theorem test_meets_ImmediateWords : (unitWith [1, 2]).h.lane = none := by decide +kernel

/-- A load and a store that go on, trap, wait for a stack under repair; a load at poison; a store at a swatch; a window that has room, and a full one. -/
theorem test_meets_ScalarMemoryWords :
    let load (s : State) (m : BitVec 9) : Except Stop (Word × State) := do
      let r ← place s .load (ea s 1 m) 4
      readPlace r.2 r.1 (ea s 1 m) 4 0
    let store (s : State) (m : BitVec 9) : Except Stop State := do
      let r ← place s .store (ea s 1 m) 4
      writePlace r.2 r.1 4 (reg s 2) 0
    let repair : State := { mapped [0x40000] with d := { (mapped [0x40000]).d with stacksOut := 0xFFF } }
    let device := staged (mappedBy 0x11F [0x40000]) (heldStores 1)
    let full := staged padUnit (heldStores 32)
    padUnit.h.lane = none ∧ isOk (load padUnit 0) = true ∧ isTrap (place padUnit .load (ea padUnit 1 2) 4) = true ∧
      isOk (place poisonedPad .load (ea poisonedPad 1 0) 4) = true ∧ isTrap (load poisonedPad 0) = true ∧ padUnit.h.mstage.stores = [] ∧
      isWait .memory (place repair .load (ea repair 1 0) 4) = true ∧ isWait .memory (place repair .store (ea repair 1 0) 4) = true ∧
      isOk (store padUnit 0) = true ∧ isTrap (place padUnit .store (ea padUnit 1 2) 4) = true ∧ padUnit.h.mstage.isOpen = false ∧
      device.h.mstage.isOpen = true ∧ (match place device .store (ea device 1 0) 4 with | .ok (.dev _ _, _) => true | _ => false) = true ∧
      isOk (store device 0) = true ∧
      (∀ n ∈ [31, 32], let s := staged padUnit (heldStores n)
        s.h.mstage.isOpen = true ∧ isOk (load s 8) = true ∧ (match place s .store (ea s 1 0) 4 with | .ok (.spad off, _) => !swBusy s.c off 4 | _ => false) = true) ∧
      (match place full .store (ea full 1 0) 4 with
       | .ok (pl, t) => decide (32 ≤ t.h.mstage.stores.length) && isOk (writePlace (closeStage t) pl 4 (reg full 2) 0)
       | _ => false) = true ∧
      isOk (place fillingPad .store (ea fillingPad 1 60) 4) = true ∧ isWait .swatch (store fillingPad 60) = true := by and_intros <;> decide +kernel

/-- Each entry of a table; each end of a walk, with each leaf; the other checks at the edges of their ranges. -/
theorem test_meets_AddressCheckOrder :
    let va (n : Nat) : Nat := (BitVec.ofNat 64 n).toNat
    let high (n : Nat) : Nat := va n / 2 ^ 55
    let d (e : Nat) : Device := { Device.reset with mem := Memory.write [] 0x10000 8 e }
    let r (d : Device) := homeLoad d 0 (0x10000 + 8 * tableIndex 0 3) 8
    let entry (d : Device) : Nat := (r d).1
    let walked (e : Nat) : Walk := (translate (mappedBy e []) 0 0 0x10000 0x40000).1
    let leaf (e : Nat) : Bool := decide (walked e = .leaf (BitVec.ofNat 64 e) (2 ^ 30))
    let s := mappedBy 0x1F []
    (r { d 0 with poison := [(0x10000 / 32, 0)] }).2.1 = true ∧ (r (d 0x1F)).2.1 = false ∧ [0, 0x1F, 0x20001].map (fun e => entry (d e)) = [0, 0x1F, 0x20001] ∧
      (isLeaf 0x1F ∧ goodLeaf 0x1F 2 ∧ ¬ goodLeaf 0x1F 3) ∧ (¬ isLeaf 0x20001 ∧ goodTable 0x20001 3 ∧ ¬ goodTable 0x20001 0) ∧
      (pageOf 0x8FFFFF0000 < 0x9000000000 ∧ 0x9000000000 ≤ pageOf 0x9000000000) ∧ (walk s.d 0 0x10000 0x40000).2.tlb = [] ∧
      (translate { s with d := { s.d with stacksOut := 0xFFF } } 0 0 0x10000 0x40000).1 = .waits ∧ underRepair s.d (0x10000 + 8 * tableIndex 0 3) = false ∧
      underRepair { s.d with stacksOut := 0xFFF } (0x10000 + 8 * tableIndex 0 3) = true ∧
      walked 0 = .invalid ∧ (translate { s with d := { s.d with poison := [(0x20000 / 32, 0)] } } 0 0 0x10000 0x40000).1 = .poisoned ∧
      (leaf 0x0F = true ∧ ¬ grants .load false 0x0F) ∧ (leaf 0x1F = true ∧ grants .load false 0x1F ∧ underRepair s.d 0x40000 = false) ∧
      underRepair { s.d with stacksOut := 0xFFF } 0x40000 = true ∧ leaf (0x9000000000 + 0x1F) = true ∧ leaf 0x11F = true ∧ leaf (0xF000000000 + 0x11F) = true ∧
      leaf (0x8000000000000 + 0x11F) = true ∧ leaf (0x9000000000 + 0x11F) = true ∧
      (∀ n ∈ [0x0080000000000000, 0xFF7FFFFFFFFFFFFF], high n ≠ 0 ∧ high n ≠ 511) ∧
      (∀ n ∈ [0x007FFFFFFFFFFFFF, 0xFF80000000000001], (high n = 0 ∨ high n = 511) ∧ va n % 2 ≠ 0) ∧
      (∀ n ∈ [0x007FFFFFFFFFFFF8, 0xFF80000000000000, 0xFFFFFFFFFFEFFFF8], (high n = 0 ∨ high n = 511) ∧ va n % 8 = 0 ∧ va n < 0xFFFFFFFFFFF00000) ∧
      (∀ n ∈ [0xFFFFFFFFFFF00000, 0xFFFFFFFFFFFBFFF8], 0xFFFFFFFFFFF00000 ≤ va n ∧ va n % 8 = 0 ∧ va n % 2 ^ 20 < 0xC0000) ∧
      (∀ n ∈ [0xFFFFFFFFFFFC0000, 0xFFFFFFFFFFFFFFF8], 0xFFFFFFFFFFF00000 ≤ va n ∧ va n % 8 = 0 ∧ 0xC0000 ≤ va n % 2 ^ 20) ∧
      Acc.load ≠ Acc.fetch := by simp only [isLeaf, goodLeaf, goodTable, grants]; and_intros <;> decide +kernel

/-- A translation that a cached entry covers. -/
theorem test_meets_AddressCheckOrder_cached :
    let s := mappedBy 0x1F []
    let c : TlbEntry := { asid := none, va := 0, size := 2 ^ 30, leaf := 0x0F }
    let t : State := { s with d := { s.d with tlb := [c] } }
    c ∈ (walk t.d 0 0x10000 0x40000).2.tlb ∧ (c.asid = none ∨ c.asid = some 0) ∧ c.va ≤ 0x40000 ∧ 0x40000 < c.va + c.size := by decide +kernel

theorem test_meets_ScratchpadStoreThenLoad : ∀ n ∈ [1, 2, 4, 8], ∀ a ∈ [0, 0xC0000 - n],
    let s := unitWith [BitVec.ofNat 64 (0xFFFFFFFFFFF00000 + a)]
    s.h.lane = none ∧ s.h.mstage.isOpen = false ∧ s.h.mstage.stores = [] ∧ Memory.wf s.c.spad = true ∧ 0xFFFFFFFFFFF00000 ≤ (ea s 1 0).toNat ∧
      (ea s 1 0).toNat % n = 0 ∧ (ea s 1 0).toNat % 2 ^ 20 < 0xC0000 ∧
      swBusy s.c ((ea s 1 0).toNat % 2 ^ 20) n = false ∧ spadPoisoned s.c ((ea s 1 0).toNat % 2 ^ 20) n = false := by decide +kernel

theorem test_meets_LineStoreThenLoad : 120 % 128 + 8 ≤ 128 ∧ 0 < 8 ∧ (obtain Device.reset (domainCore Device.reset 3 120) 120 false).1.isSome = true := by
  decide +kernel

theorem test_meets_FloatRoundedWords : (unitWith [1, 2]).h.lane = none ∧ isFormat 0 ∧ isFormat 2 := by simp only [isFormat]; decide +kernel

/-- A number, an infinity and a NaN; types of each width and sign; modes that may be written; two formats. -/
theorem test_meets_FloatCompareAndConvertWords :
    let one := floatVal 0 0x3F800000
    let nan := floatVal 0 0x7FC00000
    (unitWith [1, 2]).h.lane = none ∧ isFormat 0 ∧ isFormat 2 ∧ one.isNan = false ∧ nan.isNan = true ∧ one = .fin false 8388608 8388608 ∧
      floatVal 0 0xFF800000 = .inf true ∧ (4#3 ≠ 5 ∧ 4#3 ≠ 6) ∧ (7#3 ≠ 5 ∧ 7#3 ≠ 6) ∧ staticMode (unitWith []) 7 ≤ 4 ∧ 2#2 ≠ 0 := by
  simp only [isFormat]; decide +kernel

/-- Magnitudes that are exact, inexact, tiny and too large; codes below, at and above that of infinity; NaNs, infinities and numbers. -/
theorem test_meets_RoundingIsFaithful :
    let b := binOf Fmts.fp16
    fmtBin Fmts.fp16 = true ∧ fmtBin Fmts.e2m1 = true ∧ fmtBin Fmts.e4m3 = true ∧ 0 < 3 ∧ (4 : Mode) ≤ 4 ∧
      (binRound b 0 false 6 3).1 < topCode b ∧ (binRound b 0 false 6 3).2 = 0 ∧ (binRound b 0 false 1 3).2 = Flag.nx ∧
      (binRound b 0 false 1 (3 * 2 ^ 20)).2 = Flag.nx ||| Flag.uf ∧ topCode b ≤ (binRound b 0 false (2 ^ 20) 1).1 ∧
      (topCode b - 1 < 2 ^ (b.e + b.p) ∧ topCode b < 2 ^ (b.e + b.p) ∧ topCode b + 1 < 2 ^ (b.e + b.p)) ∧ Fmts.fp16 ≠ Fmts.e2m1 := by
  decide +kernel

theorem test_meets_BranchesAndJumps :
    let s := unitWith [5, 5, 6, 2]
    let t := vectorUnit 1 0x12 2 []
    let u : State := { t with h := { t.h with k := t.h.k.set 1 0b110 } }
    let v : State := { t with h := { t.h with k := t.h.k.set 1 0b011 } }
    s.h.lane = none ∧ reg s 1 = reg s 2 ∧ reg s 1 ≠ reg s 3 ∧ (reg s 1).toInt < (reg s 3).toInt ∧ ¬ (reg s 3).toInt < (reg s 1).toInt ∧
      (reg s 4 + (2#12).signExtend 64).toNat % 4 = 0 ∧ (reg s 4).toNat % 4 ≠ 0 ∧
      maskOnes t 1 = 0 ∧ maskOnes u 1 = 1 ∧ maskOnes u 1 ≠ u.h.vl.toNat ∧ maskOnes v 1 = v.h.vl.toNat := by decide +kernel

theorem test_meets_CsrWords :
    let s := vectorUnit 1 0x12 2 []
    s.h.lane = none ∧ csrRead s 0x008 = none ∧ s.h.prv = false ∧ 0x100 ≤ (0x100 : BitVec 10).toNat ∧ (csrRead s 0x101).isSome = true ∧
      csrRead s 0x005 = some 0 ∧ (0x0FF : BitVec 10).toNat < 0x100 ∧ csrRead (supervisor s) 0x106 = some 0 ∧ (supervisor s).h.prv = true ∧
      isOk (csrWrite s 0x005 4) = true ∧ (0x005 : BitVec 10) ≠ 0x021 ∧ (4 % 8 ≤ 4) ∧ ¬ (5 % 8 ≤ 4) ∧
      128 % 2 ^ 12 ≤ vlmax 32 s.h.g ∧ vlmax 32 s.h.g < 129 % 2 ^ 12 := by decide +kernel

theorem test_meets_LpartWrites :
    let s := supervisor (unitWith [9, 16])
    let t : State := { s with h := { s.h with gmap := 0x100 }, c := { s.c with lpstall := [(3, 10)] } }
    s.h.lane = none ∧ s.h.prv = true ∧ (∀ i, i < 16 → 8 ≤ i → (grantedMap s (coreOf s.hid)).getLsbD i = false) ∧
      (s.c.na.toNat ≤ 8 ∧ 8 < min 16 ((reg t 1).toNat % 32)) ∧ (grantedMap t (coreOf t.hid)).getLsbD 8 = true ∧ ((3 : BitVec 11), (10 : BitVec 5)) ∈ t.c.lpstall ∧
      (3 : BitVec 11) ≠ t.hid ∧
      [(9 : Word), 8 ||| 9, 8 &&& ~~~9, 8 &&& ~~~0, 31].map (fun v => min 16 (v.toNat % 32)) = [9, 9, 0, 8, 16] := by decide +kernel

/-- The registers of a hart in each mode; a moved group that is free and one that is granted; window words in stage 0 and after it. -/
theorem test_meets_RegisterWriteEvents :
    let s := vectorUnit 1 0x12 2 []
    let held : State := { supervisor s with h := { (supervisor s).h with gmap := 0x101 } }
    (focus s 0).h.prv = false ∧ (focus (supervisor s) 0).h.prv = true ∧ 128 % 2 ^ 12 ≤ vlmax 32 (focus s 0).h.g ∧
      lpartBlocked (focus (supervisor s) 0) (min 16 (16 % 32)) = false ∧ lpartBlocked (focus held 0) (min 16 (16 % 32)) = true ∧
      isOk (csrWrite (focus s 0) 0x005 3) = true ∧ (0xFFFFF8 : Word).toNat < 2 ^ 24 ∧ (0xFFFFF8 : Word).toNat % 8 = 0 ∧
      s.d.stage = 0 ∧ ({ s.d with stage := 1 } : Device).stage ≠ 0 ∧ (0x2FFF8 : Word).toNat < 0x30000 ∧ (0x100000 : Word).toNat / 2 ^ 16 = 0x10 ∧
      ¬ ((0x30000 : Word).toNat < 0x30000 ∨ (0x30000 : Word).toNat / 2 ^ 16 = 0x10) := by decide +kernel

/-- Windows that are closed, open, empty and full; a store that the window may hold; what a convoy has to resume at, and what it has not. -/
theorem test_meets_TrapEntry :
    let s := staged padUnit (heldStores 2)
    let p : PendingStore := { va := 0xFFFFFFFFFFF00008, place := .spad 8, n := 1, v := 5 }
    padUnit.h.mstage.isOpen = false ∧ s.h.mstage.isOpen = true ∧ padUnit.h.mstage.stores = [] ∧ s.h.mstage.stores = [p] ++ [p] ∧
      (∀ pa leaf, p.place ≠ .dev pa leaf) ∧ swBusy padUnit.c 8 1 = false ∧ padUnit.h.vstart = 0 ∧
      ({ padUnit.h with vstart := 3 } : Hart).vstart ≠ 0 := by
  and_intros <;> first | decide +kernel | exact fun _ _ => nofun

theorem test_meets_SystemWords :
    let s := unitWith [7]
    let t : State := { s with h := { s.h with tpend := true } }
    let w (x : Wait) : State := { s with h := { s.h with wait := some x } }
    let b := State.reset.withFetchWord 32 0x1B000000
    let isBrv (n : Nat) (i : Instr) : Bool := match fetch (State.reset.withFetchWord 32 n) (State.reset.withFetchWord 32 n).h.pc with
      | .ok (x, _) => decide (x = encode i)
      | .error _ => false
    s.h.lane = none ∧ reg s 0 = 0 ∧ reg s 1 ≠ 0 ∧ s.h.prv = false ∧ (supervisor s).h.prv = true ∧ interruptPending t ∧ ¬ interruptPending s ∧
      s.h.woken = false ∧ s.h.wait ≠ some .pause ∧ (w .pause).h.wait = some .pause ∧ (focus (w .wfi) 0).h.wait = some .wfi ∧
      (focus (w .pause) 0).h.wait = some .pause ∧ (focus s 0).h.wait = none ∧
      b.h.live = true ∧ b.h.halted = false ∧ b.h.region = none ∧
      isBrv 0x1B002010 (.brvAny 2 16) = true ∧ isBrv (encode (.brvNone 2 16)).toNat (.brvNone 2 16) = true ∧
      isBrv (encode (.brvAll 2 16)).toNat (.brvAll 2 16) = true := by simp only [interruptPending]; decide +kernel

/-- The last unit of a launch, and one of two. -/
theorem test_meets_SystemWords_halt :
    let n (k : Nat) : Node :=
      { gen := 0, kind := .launch, state := .running, parent := none, job := 1, record := 0, asid := 0, ptroot := 0, timeline := 0, counter := k, accepted := 0,
        limit := 2, status := 0, cancelled := false, gate := none, gateUnit := none, creator := 0, queuedAt := 0, aged := 0, nextGang := 1, gateLast := none,
        jobReg := none, freedAt := 0, clock := Vector.replicate 16 0 }
    let s (k : Nat) : State := { unitWith [] with d := { Device.reset with nodes := [(2, n k)] }, h := { (unitWith []).h with node := 2 } }
    ∀ k ∈ [1, 2], nodeAt (s k).d (s k).h.node = some (n k) ∧ (n k).live = true ∧ (s k).h.lane = none := by decide +kernel

/-- One lane group, VL 4. -/
def vec (ty : BitVec 12) : State := vectorUnit 1 ty 4 []
/-- A hart with a load of v9 before it that the next word may join. -/
def joining (s : State) : State := { s with h := { s.h with vconvoy := [s.h.member .memory [] [] [9] []] } }
/-- A hart that waits for `x` at the word `w`, which it fetches, and which runs. -/
noncomputable def waitsAt (s : State) (x : Wait) (w : Instr) : Bool :=
  let p := s.withFetchWord 32 (encode w).toNat
  let u : State := { p with h := { p.h with wait := some x } }
  w.wellFormed && match fetch u u.h.pc with
    | .ok (e, t) => decide (e = encode w) && match exec w t with
      | .next _ => true
      | _ => false
    | .error _ => false

theorem test_meets_VectorIntegerWords : let s := vec 0x12
    Ready s 0 (s.h.member .arith [1, 2] (gov 3) [4] []) ∧ Ready (joining s) 1 (s.h.member .arith [1, 2] (gov 0) [4] []) := by
  simp only [Ready]; decide +kernel

/-- The shift amounts meet at the element width. -/
theorem test_meets_VectorScalarIntegerWords : let s := vec 0x12
    Ready s 0 (s.h.member .arith [1] (gov 3) [4] []) ∧ Ready (joining s) 1 (s.h.member .arith [1] (gov 0) [4] []) ∧
      (31#6).toNat < s.h.ew ∧ s.h.ew ≤ (32#6).toNat ∧ s.h.lane = none := by simp only [Ready]; decide +kernel

theorem test_meets_VectorSaturatingWords : let s := vec 0x12
    Ready s 0 (s.h.member .arith [1, 2] (gov 3) [4] []) ∧ Ready (joining s) 1 (s.h.member .arith [1, 2, 4] (gov 0) [4] []) := by
  simp only [Ready]; decide +kernel

theorem test_meets_VectorFloatWords :
    (∀ ty ∈ [0x41, 0x4D, 0x46, 0x4B], isFloatType (vec (BitVec.ofNat 12 ty))) ∧ ¬ isFloatType (vec 0x12) ∧ (vec 0x12).h.lane = none ∧
      (let s := vec 0x46
       Ready s 0 (s.h.member .arith [1, 2] (gov 3) [4] []) ∧ Ready s 0 (s.h.member .arith [1] (gov 3) [4] []) ∧
         Ready (joining s) 1 (s.h.member .arith [1, 2, 4] (gov 0) [4] [])) := by simp only [Ready, isFloatType]; decide +kernel

theorem test_meets_VectorCompareWords :
    let s := vec 0x46
    isFloatType s ∧ ¬ isFloatType (vec 0x12) ∧ s.h.lane = none ∧ Ready s 0 (s.h.member .arith [1, 2] (gov 3) [] [3]) ∧
      Ready (joining s) 1 (s.h.member .arith [1, 2] (gov 0) [] [3]) := by simp only [Ready, isFloatType]; decide +kernel

/-- Each way to be refused, and the form that runs. -/
theorem test_meets_VectorWideningWords :
    let s := vec 0x41
    (3#5).toNat % 2 = 1 ∧ (vec 0x4B).h.ew = 64 ∧ (5#5).toNat / 2 = (4#5).toNat / 2 ∧ s.h.lane = none ∧ ¬ isFloatType (vec 0x12) ∧
      (4#5).toNat % 2 ≠ 1 ∧ s.h.ew ≠ 64 ∧ (6#5).toNat / 2 ≠ (4#5).toNat / 2 ∧ (8#5).toNat / 2 ≠ (4#5).toNat / 2 ∧ s.h.fmt = Fmts.fp16 ∧
      Ready s 0 (s.h.member .arithBoth [6, 8, 4, 4 + 1] (gov 3) [4, 4 + 1] []) ∧ s.h.vl.toNat ≤ vlmax s.h.ew s.h.g := by
  simp only [Ready, isFloatType]; decide +kernel

theorem test_meets_MaskWords : let s := vec 0x12
    Ready s 0 (s.h.member .arith [] [1, 2] [] [3]) ∧ Ready s 0 (s.h.member .arith [] [] [] [3]) ∧ Ready s 0 (s.h.member .arith [] [1] [] []) ∧
      Ready s 0 (s.h.member .arith [4] [] [] [3]) ∧ Ready (joining s) 1 (s.h.member .arith [] [3] [4] []) := by simp only [Ready]; decide +kernel

/-- The tree of 4 leaves, and of one leaf. -/
theorem test_meets_ReductionWords :
    let s := vec 0x46
    let one := vectorUnit 1 0x46 1 []
    Ready s 0 (s.h.member .select [1, 2] (gov 3) [4] []) ∧ isFloatType s ∧ ¬ isFloatType (vec 0x12) ∧ s.h.lane = none ∧
      s.h.vl.toNat ≤ vlmax s.h.ew s.h.g ∧ s.h.vl.toNat ≤ 2 ^ 2 ∧ (∀ m, m < 2 → 2 ^ m < s.h.vl.toNat) ∧ one.h.vl.toNat ≤ 2 ^ 0 ∧
      (∀ m, m < 0 → 2 ^ m < one.h.vl.toNat) ∧ s.h.vstart = 0 := by simp only [Ready, isFloatType]; decide +kernel

theorem test_meets_PermutesAndMoves : let s := vec 0x12
    Ready s 0 (s.h.member .fibre [1, 2] (gov 3) [4] []) ∧ Ready s 0 (s.h.member .fibre [] (2 :: gov 3) [4] []) ∧ Ready s 0 (s.h.member .fibre [1] [] [] []) ∧
      Ready s 0 (s.h.member .fibre [] (2 :: gov 3) [] []) ∧ (4 : BitVec 5) ≠ 1 ∧ (4 : BitVec 5) ≠ 2 ∧ s.h.lane = none := by
  simp only [Ready]; decide +kernel

/-- A request as it stands, a smaller one, a larger one that fits, one that waits; then the words that an event lets go on. -/
theorem test_meets_SetVectorLength :
    let s (g : BitVec 16) (lo hi : BitVec 5) (na : BitVec 5) : State :=
      let u := unitWith [256, 0x012]
      { u with h := { u.h with gmap := g, lgmin := lo, lgmax := hi }, c := { Core.reset with na := na } }
    let want (s : State) : Nat := max s.h.lgmin.toNat (min ((256 * 32 + 4095) / 4096) s.h.lgmax.toNat)
    let older (s : State) : Nat := s.h.g + spareFor s ((fifoOf s.c (onB s.hid)).takeWhile fun q => decide (q ≠ s.hid))
    let queued (s : State) : State := { s with c := { s.c with fifoA := [3] }, parked := [(3, { Hart.reset with lgmin := 2 })] }
    want (s 3 1 4 8) = (s 3 1 4 8).h.g ∧ want (s 7 1 4 8) < (s 7 1 4 8).h.g ∧
      (s 1 1 4 8).h.g < want (s 1 1 4 8) ∧ (s 1 1 4 8).h.lgmin.toNat ≤ older (s 1 1 4 8) ∧
      (s 1 4 4 2).h.g < want (s 1 4 4 2) ∧ older (s 1 4 4 2) < (s 1 4 4 2).h.lgmin.toNat ∧
      (older (s 1 1 4 4) = 4 ∧ older (queued (s 1 1 4 4)) = 2) ∧
      (reg (s 1 1 4 8) 2).toNat < 2 ^ 12 ∧ typeLegal ((reg (s 1 1 4 8) 2).setWidth 12) = true ∧ ¬ (reg (s 1 1 4 8) 1).toNat < 0 ∧
      typeLegal (0x013 : BitVec 12) = false ∧ typeLegal (0x04B : BitVec 12) = true ∧ (0x04B : BitVec 12).extractLsb' 2 5 = Fmts.fp64 ∧
      ({ Device.reset with stage := 2 } : Device).stage = 2 ∧ Device.reset.stage ≠ 2 ∧ (s 1 1 4 8).h.wait = none ∧
      waitsAt (unitWith [256]) .lgmin (.setvl 5 1 0 0 0 0x11 2) = true ∧ waitsAt (unitWith [256, 0x12]) .lgmin (.setvlx 5 1 2) = true ∧
      waitsAt (unitWith [256]) .lgmin (.setvlxKeep 5 1) = true ∧ (staged (vec 0x12) (heldStores 1)).h.mstage.isOpen = true := by decide +kernel

/-- A stall that may end, one that may not, and the stalled word. -/
theorem test_meets_SetVectorLength_stall :
    let s (g : BitVec 16) : State := { unitWith [9] with c := { Core.reset with lpstall := [(0, 9)] }, h := { (unitWith [9]).h with gmap := g } }
    let mine (u : State) (hid : BitVec 11) : Option (BitVec 11 × BitVec 5) := u.c.lpstall.find? fun e => decide (e.1 = hid)
    mine (focus State.reset 0) 0 = none ∧ mine (focus (s 0) 0) 0 = some (0, 9) ∧ mine (focus (s 0) 1) 1 = none ∧
      lpartBlocked (focus (s 0) 0) 9 = false ∧ lpartBlocked (focus (s 0x100) 0) 9 = true ∧ (focus (s 0) 0).h.wait ≠ some .lpart ∧
      waitsAt (supervisor (unitWith [9])) .lpart (.csrwr 5 1 0x021) = true ∧ waitsAt (supervisor (unitWith [9])) .lpart (.csrbs 5 1 0x021) = true ∧
      waitsAt (supervisor (unitWith [9])) .lpart (.csrbc 5 1 0x021) = true := by and_intros <;> decide +kernel

/-- Each way to be refused, and the form that runs. -/
theorem test_meets_ConversionWords :
    let s := vec 0x46
    ewBits 1 ≠ s.h.ew ∧ 0x1C ≤ (0x1C : BitVec 5).toNat ∧ (vec 0x72).h.fmt = Fmts.e8m7x2 ∧ s.h.fmt = 0x11 ∧ fmtSli 0x1B = true ∧ fmtSli s.h.fmt = false ∧
      fmtEW 0x10 ≠ s.h.ew ∧ vlmax (fmtEW 0x12) 1 < (129 : BitVec 12).toNat ∧ s.h.lane = none ∧
      (ewBits 2 = s.h.ew ∧ (0x10 : BitVec 5).toNat < 0x1C ∧ s.h.fmt ≠ Fmts.e8m7x2 ∧ 0x10 ≠ s.h.fmt ∧ (fmtSli 0x10 || fmtSli s.h.fmt) = false ∧
        (4 : BitVec 5) ≠ 1 ∧ s.h.vl.toNat ≤ vlmax (fmtEW 0x10) s.h.g ∧ Ready s 0 (s.h.member .arith [1] (gov 3) [4] [])) := by
  simp only [Ready]; decide +kernel

/-- The level-index words, their reductions, and the transcendental words. -/
theorem test_meets_ConversionWords_levelIndex :
    let s := vec 0x46
    let l := vec 0x6E
    (ewBits 2 = l.h.ew ∧ 0x11 ≠ l.h.fmt ∧ (fmtSli 0x11 || fmtSli l.h.fmt) = true ∧ l.h.vl.toNat ≤ vlmax (fmtEW 0x11) l.h.g ∧
        Ready l 0 (l.h.member .arithB [1] (gov 3) [4] [])) ∧
      isLevelIndex l ∧ ¬ isLevelIndex s ∧ Ready l 0 (l.h.member .select [1, 2] (gov 3) [4] []) ∧
      l.h.vl.toNat ≤ vlmax l.h.ew l.h.g ∧ l.h.vl.toNat ≤ 2 ^ 2 ∧ (∀ m, m < 2 → 2 ^ m < l.h.vl.toNat) ∧
      (s.h.fmt = Fmts.fp32 ∧ s.h.ew = 32 ∧ Ready s 0 (s.h.member .arithB [1] (gov 3) [4] [])) ∧ l.h.fmt ≠ Fmts.fp32 := by
  simp only [Ready, isLevelIndex]; decide +kernel

theorem test_meets_QuantisationWords :
    let s := vec 0xC6
    isQuantType s ∧ ¬ isQuantType (vec 0x46) ∧ ¬ isQuantType (vec 0x92) ∧ s.h.lane = none ∧ (2 : BitVec 5) ≠ 31 ∧ (1 : BitVec 5) ≠ 2 ∧ (1 : BitVec 5) ≠ 2 + 1 ∧
      Ready s 0 (s.h.member .arith [1] (gov 3) [2, 2 + 1] []) ∧ s.h.vstart = 0 ∧ s.h.vl.toNat ≤ vlmax s.h.ew s.h.g ∧ 0 * s.h.blk < s.h.vl.toNat ∧
      3 / s.h.blk = 0 ∧ Ready s 0 (s.h.member .arith [1, 1 + 1] (gov 3) [4] []) ∧ (4 : BitVec 5) ≠ 1 ∧ (4 : BitVec 5) ≠ 1 + 1 := by
  simp only [Ready, isQuantType]; decide +kernel

/-- Formats of each kind, and codes of each kind of value: what an integer format makes of a number below, in and above its range. -/
theorem test_meets_ConversionWords_codes :
    let fin (g : Fmt) (c : Nat) (ok : Int → Bool) : Bool := match codeVal g c with
      | .fin neg n d => decide (0 < d) && ok (if neg then -(((n : Nat) / d : Nat) : Int) else (n : Nat) / d)
      | _ => false
    fmtInt Fmts.int32 = true ∧ fmtInt 0x00 = true ∧ (fmtSli Fmts.fp32 = false ∧ fmtInt Fmts.fp32 = false ∧ fmtBin Fmts.fp32 = true) ∧ fmtDart Fmts.dart4 = true ∧
      fmtSli Fmts.sli32 = true ∧ codeVal Fmts.fp32 0x7FC00000 = .nan false ∧ codeVal Fmts.fp32 0xFF800000 = .inf true ∧
      fin Fmts.fp32 0xC47A0000 (fun z => decide (z < leastOf 0x00)) = true ∧ fin Fmts.fp32 0x447A0000 (fun z => decide (mostOf 0x00 < z)) = true ∧
      fin Fmts.fp32 0x40A00000 (fun z => z == 5) = true ∧ (match codeVal Fmts.fp32 0x80000000 with | .fin neg n d => neg && decide (n = 0 ∧ 0 < d) | _ => false) = true ∧
      codeVal Fmts.fp32 0x3F800000 = .fin false 8388608 8388608 ∧ (4 : Mode) ≤ 4 ∧
      sliVal (sliF Fmts.sli32) 5 = .nan ∧ sliVal (sliF Fmts.sli32) 0 = .zero false ∧ sliVal (sliF Fmts.sli32) 0x08000000 = .num false 0 := by
  and_intros <;> decide +kernel

/-- Dart magnitudes: at a body, above all, below all, between two neighbours nearer to each, and at a tie. -/
theorem test_meets_ConversionWords_dart :
    let f := Fmts.dart4
    (isBody f 6 ∧ (dartOf f 6).1 * 1 = 1 * (dartOf f 6).2) ∧ (∀ c, isBody f c → bodyBelow f c 100 1) ∧ (∀ c, isBody f c → bodyAbove f c 1 (10 ^ 6)) ∧
      (isBody f 7 ∧ ∀ n ∈ [2, 5], bodyBelow f 6 n 1 ∧ bodyAbove f 7 n 1) ∧ (bodyBelow f 6 13 4 ∧ bodyAbove f 7 13 4) ∧
      (∀ q, isBody f q → ((dartOf f q).1 * (dartOf f 6).2 ≤ (dartOf f 6).1 * (dartOf f q).2) ∨ (dartOf f 7).1 * (dartOf f q).2 ≤ (dartOf f q).1 * (dartOf f 7).2) := by
  simp only [isBody, bodyBelow, bodyAbove]
  have small : fmtBits Fmts.dart4 - 1 = 3 := rfl
  refine ⟨by decide +kernel, fun c h => ?_, fun c h => ?_, by decide +kernel, by decide +kernel, fun c h => ?_⟩ <;> rw [small] at h
  · exact (by decide +kernel : ∀ c, c < 2 ^ 3 → (dartOf Fmts.dart4 c).1 * 1 < 100 * (dartOf Fmts.dart4 c).2) c h.2
  · exact (by decide +kernel : ∀ c, c < 2 ^ 3 → 0 < c → 1 * (dartOf Fmts.dart4 c).2 < (dartOf Fmts.dart4 c).1 * 10 ^ 6) c h.2 h.1
  · exact (by decide +kernel : ∀ c, c < 2 ^ 3 → 0 < c → ((dartOf Fmts.dart4 c).1 * (dartOf Fmts.dart4 6).2 ≤ (dartOf Fmts.dart4 6).1 * (dartOf Fmts.dart4 c).2) ∨
      (dartOf Fmts.dart4 7).1 * (dartOf Fmts.dart4 c).2 ≤ (dartOf Fmts.dart4 c).1 * (dartOf Fmts.dart4 7).2) c h.2 h.1

/-- Level-index values inside the range, at its steps, and codes that have one name; operands of the transcendental functions of each kind. -/
theorem test_meets_ConversionWords_special :
    let fin (c : Nat) (ok : Bool → Nat → Nat → Bool) : Bool := match binVal bin32 c with
      | .fin neg n d => ok neg n d
      | _ => false
    (∀ n ∈ [11, 27], (-(sliTop n : Int) ≤ 0 ∧ (0 : Int) ≤ sliTop n) ∧ (2 ^ n + 5 < 2 ^ (n + 5) ∧ sliVal n (2 ^ n + 5) ≠ .nan ∧ (2 ^ n + 5) % 2 ^ (n + 4) ≠ 2 ^ (n + 3) + 2 ^ n) ∧
      ((0 : Int) ≤ 2 ^ n ∧ (2 ^ n : Int) < 6 * 2 ^ n)) ∧
      (0x7F800000 < 0x7FA00000 ∧ 0x7FA00000 < 0x7FC00000 ∧ 0x7FC00000 < 2 ^ 31) ∧
      fin 0x40000000 (fun neg n d => !neg && decide (0 < n ∧ n = 1 * 2 * d ∧ n = 2 ^ 1 * d)) = true ∧
      fin 0x40800000 (fun neg n d => !neg && decide (n = 4 ^ 1 * d)) = true ∧ fin 0x3E800000 (fun neg n d => !neg && decide (d = 2 ^ (1 + 1) * n ∧ d = 4 ^ 1 * n)) = true := by
  and_intros <;> decide +kernel

/-- A block with a NaN, one of numbers, one without a nonzero value; quotients below and above Qmax, of each kind of format. -/
theorem test_meets_QuantisationWords_rules :
    (∃ v ∈ [Val.nan false, .fin false 1 1], ∀ neg n d, v ≠ .fin neg n d) ∧ (∀ v ∈ [Val.fin true 7 2], ∃ neg n d, v = .fin neg n d ∧ 0 < d) ∧
      quantMax 0x00 = some 127 ∧ quantMax 0x01 = some 255 ∧ quantMax 0x15 = some 240 ∧ fmtInt 0x01 = true ∧ fmtSigned 0x01 = false ∧ fmtSigned 0x00 = true ∧
      fmtInt 0x15 = false ∧ (0 < 3 ∧ (4 : Mode) ≤ 4) ∧
      0 < (blockScale 0x00 [.fin true 7 2]).1 ∧ (qround 0x00 0 (.fin false 3 1) (.fin false 1 1)).1 = 3 ∧
      (qround 0x00 0 (.fin false 500 1) (.fin false 1 1)).1 = 127 := by
  refine ⟨⟨_, .head _, fun _ _ _ => nofun⟩, fun v h => ⟨_, _, _, List.mem_singleton.1 h, by decide⟩, ?_⟩
  and_intros <;> decide +kernel

/-- Elements `m` to `n - 1` of a word whose element `e` is done by `f`. -/
def elements (f : State → Nat → Except Stop State) (s : State) (m n : Nat) : Except Stop State := (List.range' m (n - m)).foldlM f s
/-- The same, then element `n`. -/
def elementAfter (f : State → Nat → Except Stop State) (s : State) (m n : Nat) : Except Stop State := do
  let t ← elements f s m n
  f t n
/-- The state, its x1 changed. -/
def at1 (s : State) (a : Word) : State := { s with h := { s.h with x := s.h.x.set 1 a } }
/-- The state, its VSTART changed. -/
def from' (s : State) (n : BitVec 11) : State := { s with h := { s.h with vstart := n } }
/-- A vector unit that sees the first GiB of memory at its own addresses. -/
def memVec (ty : BitVec 12) : State := at1 ((vec ty).withFetchWord 32 0) 0x40000
/-- The last eight bytes of scratchpad. -/
def lastPad : Word := 0xFFFFFFFFFFFBFFF8
/-- A pattern of four 32-bit elements in scratchpad (R61). -/
def row4 (f : Nat) : BitVec 512 :=
  BitVec.ofNat 512 (2 ^ 77 + f * 2 ^ 64 + 2 ^ 72 + 4 * 2 ^ 128 + 2 ^ 160 + 2 ^ 192 + 2 ^ 224 + 4 * 2 ^ 256)

/-- Loads and stores: no element, all elements, and element 2 past the end of scratchpad. -/
theorem test_meets_VectorLoadsAndStores :
    let s := at1 (vec 0x12) 0xFFFFFFFFFFF00000
    let t := at1 (vec 0x12) lastPad
    let ld (u : State) := loadElement 3 0 0 (unitStride (reg u 1))
    let st (u : State) := storeElement 3 0 0 (byteStride (reg u 1) 4)
    Ready s 0 (s.h.member .memory [] (gov 0) [3] []) ∧ Ready s 0 (s.h.member .memory [3] (gov 0) [] []) ∧
      (from' s 4).h.vl.toNat ≤ (from' s 4).h.vstart.toNat ∧ s.h.vstart.toNat < s.h.vl.toNat ∧
      isOk (elements (ld s) s 0 4) = true ∧ isTrap (elementAfter (ld t) t 0 2) = true ∧
      isOk (elements (st s) s 0 4) = true ∧ isTrap (elementAfter (st t) t 0 2) = true ∧ (31 : BitVec 6).toNat < 32 ∧ 32 ≤ (32 : BitVec 6).toNat ∧
      s.h.lane = none := by simp only [Ready]; decide +kernel

/-- The gather, and the box loads and stores. -/
theorem test_meets_VectorLoadsAndStores_gather :
    let g := memVec 0x12
    let b := vec 0x46
    let b : State := { b with c := { b.c with pats := [(5, { valid := true, record := row4 0x11 })] } }
    let b : State := { b with h := { b.h with x := b.h.x.set 2 5 } }
    (g.h.ew = 32 ∧ isOk (elements (gatherElement 3 0 (byIndex (reg g 1) 2 2)) (smmFrom (g.release 2)) 0 4) = true ∧
        isTrap (elementAfter (gatherElement 3 0 (byIndex lastPad 2 2)) g 0 0) = true) ∧
      ((vec 0x41).h.ew ≠ 32 ∧ (vec 0x41).h.ew ≠ 64) ∧ boxValid b 2 ∧ ¬ boxValid b 1 ∧ swatchBlocked b.c (boxSpan b.h (boxOf b 0 2)) = false ∧
      isOk (elements (boxLoad 3 0 (boxOf b 0 2)) b 0 4) = true ∧ isOk (elements (boxStore 3 0 (boxOf b 0 2)) b 0 4) = true ∧
      swatchCheck b.c (boxSpan b.h (boxOf b 0 2)) = none := by simp only [boxValid]; decide +kernel

/-- Mask loads and stores, and the loads that end at a first fault. -/
theorem test_meets_VectorLoadsAndStores_mask :
    let s := at1 (vec 0x12) 0xFFFFFFFFFFF00000
    let t := at1 (vectorUnit 1 0x12 65 []) lastPad
    let u := at1 (vec 0x12) lastPad
    let ff (u : State) (first : Nat) := firstFaultElement 3 0 0 (unitStride (reg u 1)) first
    Ready s 0 (s.h.member .memory [] [] [] [3]) ∧ isOk (loadBytes s (reg s 1) 0 1) = true ∧ isTrap (loadBytes t (reg t 1) 0 9) = true ∧
      Ready s 0 (s.h.member .memory [] [3] [] []) ∧
      isOk (do let r ← storePlaces s (reg s 1) 1; storeBytes r.2 r.1 5 0) = true ∧ isTrap (storePlaces t (reg t 1) 9) = true ∧
      isOk (elements (ff s 0) s 0 4) = true ∧ isOk (elements (ff u 0) u 0 2) = true ∧ (2 ≠ 0 ∧ isActive u 0 2) ∧
      (match softLoad u (unitStride (reg u 1) u 2) 4 0 with | .ok none => true | _ => false) = true ∧ isTrap (load (at1 u 2) (unitStride 2 (at1 u 2) 0) 4 0) = true ∧
      (((List.range s.h.vl.toNat).find? fun e => decide (isActive s 0 e)).getD 4 = 0) := by simp only [Ready, isActive]; decide +kernel

/-- A scatter that traps before it writes, one that completes, one that meets poison, one that resumes; a stream load that waits or reads. -/
theorem test_meets_ScatterAndStreamWords :
    let s := memVec 0x12
    let places (u : State) := scatterPlaces 4 (byIndex (reg u 1) 2 2 u) u [0, 1, 2, 3]
    let bad (op : Option Nat) (s : State) : Option (Option Word) := match places s with
      | .ok (ps, u) => some (ps.foldl (scatterElem op 3) { s := smmFrom (u.release 2), dead := [], bad := none, lines := [], n := 0 }).bad
      | .error _ => none
    let hurt : State := { s with d := { s.d with poison := [(0x40000 / 32, 0)] } }
    let again : State := { s with h := { s.h with jaddr := s.h.pc, jbits := 1 } }
    let p (v : VPort) : State := { vec 0x46 with c := { Core.reset with vports := (Vector.replicate 8 VPort.reset).set 7 v } }
    let full : VPort := { occ := some (2, 1), claim := none, read := false, buf := [1, 2, 3, 4] }
    32 ≤ (32 : BitVec 6).toNat ∧ (2 : BitVec 6).toNat < 32 ∧ s.h.ew = 32 ∧ (vec 0x41).h.ew ≠ 32 ∧ (vec 0x46).h.fmt = Fmts.fp32 ∧ s.h.lane = none ∧
      Ready s 0 (s.h.member .memory [3, 2] (gov 0) [] []) ∧ isTrap (places (at1 s lastPad)) = true ∧ bad none s = some none ∧
      bad (some 0) hurt = some (some 0x40000) ∧ again.h.jaddr = again.h.pc ∧ again.h.jaddr ≠ 0 ∧
      Ready (p full) 0 ((p full).h.member .memory [] (gov 0) [3] []) ∧ (p full).c.vports[7].occ = some (2, 1) ∧ (p full).c.vports[7].read = false ∧
      (p full).c.vports[7].claim = none ∧ (∀ e, e < 4 → e < full.buf.length) ∧ (p VPort.reset).c.vports[7].occ = none ∧
      (p { full with read := true }).c.vports[7].read = true ∧ (p { full with claim := some (1, 0) }).c.vports[7].claim = some (1, 0) ∧
      ((1 : BitVec 48), (0 : BitVec 32)) ≠ ((p full).h.node, (p full).h.unit) ∧ (findCmd (p full).c 2 1).isNone = true := by
  simp only [Ready]; and_intros <;> decide +kernel

/-- Words of 32 and 64 bits at their edges; the places an atomic reaches; a line it may not. -/
theorem test_meets_AtomicWords :
    let s := at1 (vec 0x12) 0xFFFFFFFFFFF00000
    let f : Nat → Option Nat := fun m => amoNew 0 64 m 1 0
    let el (u : State) := amoElement 0 true 6 2 0 (byIndex (reg u 1) 3 2)
    2 ^ 32 - 1 < 2 ^ 32 ∧ 2 ^ 64 - 1 < 2 ^ 64 ∧ ¬ atomicWidth false (vec 0x41) ∧ ¬ atomicWidth true (vec 0x4B) ∧ atomicWidth false (vec 0x4B) ∧
      atomicWidth true s ∧ Ready s 0 (s.h.member .memory [2, 3] (gov 0) [2] []) ∧ isOk (elements (el s) (smmFrom s) 0 4) = true ∧
      isTrap (elementAfter (el (at1 s 2)) (at1 s 2) 0 0) = true ∧
      isOk (atomic s (reg s 1) 8 6 f) = true ∧ isTrap (atomic s 4 8 6 f) = true ∧
      (∀ n ∈ [0xFFFFFFFFFFF00000, 0xFFFFFFFFFFFBFFF8],
        let va : Nat := (BitVec.ofNat 64 n).toNat
        0xFFFFFFFFFFF00000 ≤ va ∧ va % 8 = 0 ∧ va % 2 ^ 20 < 0xC0000 ∧ spadPoisoned s.c (va % 2 ^ 20) 8 = false ∧ swBusy s.c (va % 2 ^ 20) 8 = false) := by
  simp only [Ready, atomicWidth]; decide +kernel

/-- Lines that a release writes back and that it leaves; scopes of each kind; accesses that go on, trap and wait. -/
theorem test_meets_FencesAndSynchronisingWords :
    let s := padUnit
    let t : State := { s with h := { s.h with remote := 1 } }
    let x : Line := { tag := 0x800, data := 5, dirty := 1, ptr := false, locks := [], valid := true, poison := [], atom := 0 }
    let e : Nat × List Line := (setKey Device.reset 0 0x40000, [x])
    let d : Device := { Device.reset with l1 := [e] }
    (e ∈ d.l1 ∧ x ∈ e.2 ∧ e.1 / 128 ∈ domainCores d 0 ∧ releases d 0 (e.1 / 128) x = true ∧ x.dirty ≠ 0 ∧ x.dirty.getLsbD (5 / 32) = true) ∧
      (∀ e' ∈ d.l1, ∀ y ∈ e'.2, y.tag = x.tag → y = x) ∧ e.1 / 128 ∉ domainCores d 8 ∧ Memory.wf d.mem = true ∧
      layerInScope 6 (coreLayer 0) (homeLayer d (x.tag * 128)) = true ∧
      s.h.lane = none ∧ ¬ (7 = 7 ∧ s.h.remote ≠ 0) ∧ (7 = 7 ∧ t.h.remote ≠ 0) ∧ isOk (syncLoad s (reg s 1) 8 6) = true ∧ isTrap (syncLoad s 4 8 6) = true ∧
      isOk (syncStore s (reg s 1) 8 6 9) = true ∧ isTrap (syncStore s 4 8 6 9) = true ∧ isOk (syncStore t (reg t 1) 8 7 9) = true := by
  and_intros <;> decide +kernel

/-- A fibre unit: fibre 1 holds (1, 10), (5, 50), (9, 90), fibre 2 holds (5, 3), (7, 4). -/
def fibreUnit : State :=
  let s := vectorUnit 1 0x12 4 [0, packed 32 [1, 5, 9], packed 32 [10, 50, 90], packed 32 [5, 7], packed 32 [3, 4]]
  { s with h := { s.h with focc := ((s.h.focc.set 1 3).set 2 2) } }

theorem test_meets_FibreWalkingWords :
    let s := fibreUnit
    isFibreType s ∧ ¬ isFibreType (vec 0x4B) ∧ s.h.lane = none ∧ ((3 : BitVec 4) ≠ 1 ∧ (3 : BitVec 4) ≠ 2) ∧
      Ready s 0 { s.h.member .fibre (fibRegs [1, 2]) [] (fibRegs [3]) [] with vpr := true } ∧ s.h.vpr.getLsbD 63 = false ∧
      pairsOf s.h 1 = [(1, 10), (5, 50), (9, 90)] ∧ pairsOf s.h 2 = [(5, 3), (7, 4)] ∧ ascending [(1, 10), (5, 50), (9, 90)] ∧ ascending [(5, 3), (7, 4)] ∧
      sorted [(1, 10), (5, 50), (9, 90)] ∧ (pairsOf s.h 1).length + (pairsOf s.h 2).length ≤ vlmax 32 s.h.g ∧ (1 : BitVec 3).toNat % 2 = 1 ∧
      (2 : BitVec 3).toNat % 2 = 0 ∧ Ready s 0 { s.h.member .fibre (fibRegs [1, 2]) [] [] [2, 2 + 1] with vpr := true } := by
  simp only [Ready, isFibreType, ascending, sorted]; decide +kernel

theorem test_meets_FibreMappingWords :
    let s := fibreUnit
    isFibreType s ∧ ¬ isFibreType (vec 0x4B) ∧ s.h.lane = none ∧ (pairsOf s.h 1).length ≤ vlmax 32 s.h.g ∧
      Ready s 0 (s.h.member .fibre (fibRegs [1]) (gov 3) (fibRegs [3]) []) ∧ Ready s 0 (s.h.member .fibre [9] (gov 3) (fibRegs [3]) []) ∧
      ((9 : BitVec 5) ≠ 1#4 ++ 0#1 ∧ (9 : BitVec 5) ≠ 1#4 ++ 1#1) ∧ (2 : BitVec 5) = 1#4 ++ 0#1 ∧ s.h.vl.toNat ≤ vlmax 32 s.h.g ∧
      Ready s 0 (s.h.member .fibre (fibRegs [1]) [] [9] []) ∧ Ready s 0 (s.h.member .fibre [] [] [] []) ∧
      Ready s 0 { s.h.member .fibre (fibRegs [1, 2]) [] [] [] with vpr := true } ∧ s.h.vpr.getLsbD 63 = false := by
  simp only [Ready, isFibreType]; decide +kernel

/-- A fibre loaded and stored, an element of it past the end of scratchpad; a level of two segments, the second of two pairs. -/
theorem test_meets_FibreMemoryWords :
    let s := at1 fibreUnit 0xFFFFFFFFFFF00000
    let t := at1 fibreUnit lastPad
    let addr (u : State) (p : Nat) : Word := reg u 1 + BitVec.ofNat 64 (8 * p)
    let ld (u : State) (v : State) (p : Nat) : Except Stop State := (load v (addr u p) 8 0).map (·.2)
    let st (u : State) (v : State) (p : Nat) : Except Stop State := store v (addr u p) 8 7 0
    isFibreType s ∧ s.h.lane = none ∧ Ready s 0 (s.h.member .memory [] [] (fibRegs [3]) []) ∧ Ready s 0 (s.h.member .memory (fibRegs [3]) [] [] []) ∧
      isOk (elements (ld s) s 0 3) = true ∧ isTrap (elementAfter (ld t) t 0 1) = true ∧ isOk (elements (st s) s 0 3) = true ∧
      isTrap (elementAfter (st t) t 0 1) = true ∧ Ready s 0 { s.h.member .memory [] [] (fibRegs [3]) [] with vpr := true } ∧
      s.h.vpr.getLsbD 63 = false ∧ isTrap (loadWords s 4 0 4) = true := by simp only [Ready, isFibreType]; decide +kernel

/-- A level record with two parents: the second has two pairs; a parent out of range; a bad record; descending bounds. -/
theorem test_meets_FibreMemoryWords_walk :
    let w : Nat := 0xFFFFFFFFFFF00000
    let r : Nat := (w + 0x40) + 2 ^ 64 * (w + 0x80) + 2 ^ 128 * (w + 0xC0) + 2 ^ 192 * 3
    let s (lo hi : Nat) : State :=
      let m := Memory.write (Memory.write (Memory.write [] 0 32 r) 0x44 4 lo) 0x48 4 hi
      { at1 fibreUnit 0xFFFFFFFFFFF00000 with c := { Core.reset with spad := m } }
    let at4 (u : State) (k : Nat) : Except Stop (Word × State) := load u (BitVec.ofNat 64 (w + 0x40) + 4 * BitVec.ofNat 64 k) 4 2
    let rec' (u : State) : Nat := match loadWords u (reg u 1) 0 4 with | .ok (n, _) => n | .error _ => 0
    let bounds (u : State) : Option (Nat × Nat) := match at4 u 1, at4 u 2 with
      | .ok (a, _), .ok (b, _) => some (a.toNat, b.toNat)
      | _, _ => none
    rec' (s 0 2) = r ∧ r / 2 ^ 224 = 0 ∧ r / 2 ^ 192 % 2 ^ 32 ≤ 2 + 1 ∧ 1 + 1 < r / 2 ^ 192 % 2 ^ 32 ∧ (r + 2 ^ 224) / 2 ^ 224 ≠ 0 ∧
      bounds (s 0 2) = some (0, 2) ∧ bounds (s 3 2) = some (3, 2) ∧ 2 - 0 ≤ vlmax 32 (s 0 2).h.g ∧
      isOk ((List.range 2).foldlM (walkPair true 3 (BitVec.ofNat 64 (w + 0x80)) (BitVec.ofNat 64 (w + 0xC0)) 0) (s 0 2)) = true := by decide +kernel

/-- The best candidate and the lowest of equals; nothing to select. -/
theorem test_meets_SelectionWords :
    let s := vectorUnit 1 0x12 4 [packed 32 [3, 9, 9, 1]]
    let m := { s with h := { s.h with k := s.h.k.set 2 0b1111 } }
    isSelectType s ∧ ¬ isSelectType (vec 0x00) ∧ ¬ isSelectType (vec 0x72) ∧ s.h.lane = none ∧ Ready s 0 (s.h.member .select [1] (gov 0) [4] []) ∧
      Ready m 0 { m.h.member .select [1] (gov 2) [4] [2] with kx := maskSet [2] } ∧ candidate s 1 0 1 ∧ (∀ n, n < 4 → ¬ precedes s false 1 n 1) ∧ precedes s false 1 1 0 ∧
      (∀ e, e < 4 → ¬ candidate s 1 5 e) ∧ Ready s 0 (s.h.member .select [] (2 :: gov 3) [] [4]) ∧ Ready s 0 (s.h.member .select [1, 2] (gov 3) [4] []) ∧
      (vec 0x00).h.ew = 8 ∧ s.h.ew ≠ 8 ∧ Ready s 0 (s.h.member .select [] (gov 3) [4] []) ∧ s.h.vl.toNat ≤ vlmax s.h.ew s.h.g := by
  simp only [Ready, isSelectType, candidate, inRange, activeIn, precedes]; and_intros <;> decide +kernel

/-- A pattern of two by two codes in scratchpad (R61): format, layout, base and strides as given. -/
def square (f layout base s0 s1 : Nat) : Pat :=
  { valid := true, record := BitVec.ofNat 512 (base + f * 2 ^ 64 + 2 * 2 ^ 72 + layout * 2 ^ 75 + 2 ^ 77 + 2 * 2 ^ 128 + 2 * 2 ^ 160 + 2 ^ 192 + 2 ^ 224 +
      s0 * 2 ^ 256 + s1 * 2 ^ 288) }

/-- A matrix unit: A = ((1, 2), (3, -1)) bit by bit under pattern 2, B = ((5, 6), (7, 8)) under pattern 3, a tile pattern 5; M = N = K = 2. -/
def matrixUnit : State :=
  let s := vec 0x12
  let a := Memory.write (Memory.write [] 0 2 0x0201) 16 8 0x0202020202020303
  { s with h := { s.h with mshape := 0x20202 },
           c := { s.c with spad := Memory.write a 0x100 4 0x08070605,
                           pats := [(2, square 0 2 0 0 16), (3, square 0 0 0x100 1 2), (5, square 4 0 0x200 4 8)] } }

/-- R307: the product of the two matrices is ((19, 22), (8, 10)). -/
theorem test_mma : let t := after matrixUnit (.mmaSet 0 1 2 3)
    t.h.tile 1 0 0 = 19 ∧ t.h.tile 1 0 1 = 22 ∧ t.h.tile 1 1 0 = 8 ∧ t.h.tile 1 1 1 = 10 := by decide +kernel

/-- Multiplying words alone, in an open convoy, and stopped by a check or a swatch; a shape with K = 0. -/
theorem test_meets_MatrixWords :
    let s := matrixUnit
    let u (grp gather : Bool) : Mul := { x := 1, a := 2, b := 3, acc := true, sp := false, grp := grp, gather := gather }
    let filling : State := { s with c := { s.c with sws := (Vector.replicate 64 0).set 0 (2 ^ 48 + 64 * 2 ^ 20) } }
    let st : MStage := { MStage.empty with chain := some [8], isOpen := true, count := 1, idx := some 0 }
    let opened := staged s st
    let blocked := staged filling (heldStores 1)
    let flat : State := { s with h := { s.h with mshape := 0x00202 } }
    storesBlocked s = false ∧ storesBlocked opened = false ∧ storesBlocked blocked = true ∧ (blocked.h.g ≠ 0 ∧ blocked.h.lane = none ∧ blocked.h.mstage.chain ≠ some []) ∧
    (match groupPats s.c s.d.stage 0 (rowGroups (u false false) MStage.empty s.h) with
     | .ok bs => !((rowGroups (u false false) MStage.empty s.h).zip bs).isEmpty
     | .error _ => false) = true ∧
    isOk (mulBody 0 (u false false) MStage.empty s) = true ∧ isOk (matrixPat s.c 2 (fun r => patA r && offeredAt s.d.stage r)) = true ∧
      isOk (groupPats s.c s.d.stage 0 (rowGroups (u false false) MStage.empty s.h)) = true ∧
      (flat.h.sk = 0 ∧ isOk (mulBody 0 (u false false) MStage.empty flat) = true) ∧ isTrap (mulBody 0 (u true false) MStage.empty s) = true ∧
      isWait .swatch (mulBody 0 (u false false) MStage.empty filling) = true ∧ s.h.g ≠ 0 ∧ (vectorUnit 0 0x12 0 []).h.g = 0 ∧ s.h.lane = none ∧
      s.h.mstage.isOpen = false ∧ s.h.mstage.chain = none ∧ (staged s { MStage.empty with chain := some [] }).h.mstage.chain = some [] ∧
      opened.h.mstage.isOpen = true ∧ opened.h.mstage.chain = some [8] ∧ [8] ≠ [] ∧ 9 ∉ [8] ∧ 8 ∈ [8] ∧ isOk (mulBody 0 (u false true) st opened) = true ∧
      isTrap (mulBody 0 (u true true) st opened) = true ∧ isWait .swatch (mulBody 0 (u false true) st { filling with h := opened.h }) = true := by
  and_intros <;> decide +kernel

/-- Words that stand alone, and the tile words. -/
theorem test_meets_MatrixWords_tile :
    let s := matrixUnit
    let draining : State := { s with c := { s.c with sws := (Vector.replicate 64 0).set 0 (3 * 2 ^ 48 + 64 * 2 ^ 20 + 0x200) } }
    let bad (h : Hart) (row : Nat) : Prop := h.sn = 0 ∨ 64 < h.sn ∨ (0 < h.vl.toNat ∧ 4 * h.g ≤ row + (h.vl.toNat - 1) / h.sn)
    isOk (tileLoad 0 1 5 s) = true ∧ isTrap (tileLoad 0 1 2 s) = true ∧ isOk (tileStore 0 1 5 s) = true ∧
      isTrap (tileStore 0 1 2 s) = true ∧ isWait .swatch (tileStore 0 1 5 draining) = true ∧ isOk (tilePattern 0 5 (fun _ => none) draining) = true ∧
      swBusy draining.c (wrapAddr true (patBit (square 4 0 0x200 4 8).record (fun d => if d = 0 then 0 else if d = 1 then 0 else 0) 0).1) 4 = true ∧
      (0 < s.h.sm ∧ 0 < s.h.sn) ∧ Memory.wf s.c.spad = true ∧ (s.h.ew = 32 ∧ s.h.fmt = Fmts.int32) ∧ (vec 0x16).h.fmt ≠ Fmts.int32 ∧
      (s.h.g ≠ 0 ∧ s.h.lane = none) ∧ bad s.h 3 ∧ ¬ bad s.h 2 ∧ s.h.vl.toNat ≤ vlmax 32 s.h.g ∧ waitsAt s .swatch (.mmaSet 0 1 2 3) = true ∧
      waitsAt s .swatch (.mtileSt 0 1 5) = true := by and_intros <;> decide +kernel

/-- Codes of each kind of value in each kind of format; rows with and without structured sparsity; sums in range and beyond; a scale of each sign. -/
theorem test_meets_MatrixWords_chunks :
    let u (sp : Bool) : Mul := { x := 1, a := 2, b := 3, acc := true, sp := sp, grp := false, gather := false }
    let x : List (Nat × MVal) := [(0, .inf false)]
    codeVal 0x00 0xFF = .fin true 1 1 ∧ fmtInt 0x00 = true ∧ fmtMatrix 0x15 = true ∧ fmtDart 0x15 = false ∧ fmtDart Fmts.dart4 = true ∧
      (match codeVal Fmts.dart4 6 with | .fin neg n d => !neg && decide (n = d) | _ => false) = true ∧ codeVal Fmts.dart4 8 = .nan false ∧ fmtMatrix Fmts.dart4 = true ∧
      (u false).sp = false ∧ (u true).sp = true ∧ 1 < 8 / 4 ∧ 3 < 4 ∧ (2 ≤ 3 ∧ 0 < 2) ∧ ((0, MVal.inf false) ∈ x ∧ (0 : Nat) ≤ 0 ∧ (0 : Nat) < 1) ∧
      (MVal.inf false).mul ([MVal.fin 0].getD 0 (.fin 0)) = .nan ∧ (1 * 2 < 4 ∧ 4 ≤ (1 + 1) * 2) ∧ (0 < 3 ∧ (-3 : Int) ≠ 0) := by
  and_intros <;> decide +kernel

/-- A split with threads, without, resumed, too long, and one whose region cannot be fetched. -/
theorem test_meets_SplitRegionWords :
    let s (w : Nat) : State := { memVec 0x12 with d := { (memVec 0x12).d with mem := Memory.write (memVec 0x12).d.mem 0x30004 8 w } }
    let join : Nat := (encode .ltjoin).toNat
    let words (w : Nat) : Option (Option Nat) := match copyRegion (s w) ((s w).h.pc + 4) 256 with
      | .ok (l, _) => some (l.map (·.length))
      | .error _ => none
    let lost : State := { s 0 with h := { (s 0).h with pc := 0x3FFFFFFC } }
    words (2 ^ 32 * join) = some (some 2) ∧ words join = some (some 1) ∧ isTrap (copyRegion lost (lost.h.pc + 4) 256) = true ∧ (s 0).h.lane = none ∧
      32 ≤ (s 0).h.ew ∧ (vec 0x41).h.ew < 32 ∧ (s 0).h.g ≠ 0 ∧ (s 0).h.vpr.getLsbD 63 = false ∧ (2 ^ 63 : BitVec 64).getLsbD 63 = true ∧
      (s 0).h.vl.toNat ≤ 2048 ∧ inRange (s 0) 0 ∧ isActive (s 0) 0 0 ∧ ¬ isActive (s 0) 1 0 ∧ (31 : BitVec 6).toNat < 32 ∧ 32 ≤ (32 : BitVec 6).toNat := by
  simp only [inRange, isActive]; decide +kernel

/-- A region of 256 words without an `LTJOIN` overflows the lane buffer. -/
theorem test_meets_SplitRegionWords_long :
    (match copyRegion (memVec 0x12) 0x30004 256 with | .ok (none, _) => true | _ => false) = true := by decide +kernel

/-- Threads that have all arrived, and one that has not. -/
theorem test_meets_SplitRegionWords_join :
    let r : Region := { base := 0, words := [0, 0, 0], join := 2, yielded := [], last := [] }
    let s := vec 0x12
    let s : State := { s with h := { s.h with region := some r } }
    let t : State := { s with h := { s.h with k := s.h.k.set 1 0b1111 } }
    (focus t 0).h.region = some r ∧ (∀ e, e < 4 → r.join ≤ threadAt (focus t 0).h e) ∧ (focus t 0).h.vl.toNat = 4 ∧
      (0 < (focus s 0).h.vl.toNat ∧ threadAt (focus s 0).h 0 < r.join) ∧ (focus (vec 0x12) 0).h.region = none ∧
      ({ s with h := { s.h with lane := some (3, none) } } : State).h.lane = some (3, none) := by decide +kernel

/-- A thread of lane 3 whose e1 names offset 0 of the scratchpad window and whose e2 is 4. -/
def laneUnit : State :=
  let s := vectorUnit 1 0x12 4 [packed 32 [0, 0, 0, 0xFFF00000], packed 32 [1, 2, 3, 4]]
  { s with h := { s.h with lane := some (3, none) } }

/-- Outside a region `ADD` gives x1 a value, and no flag. -/
theorem add_out {s : State} (h : s.h.lane = none) : exec (.add 1 2 3) s = .next (wroteFlags s 0 1 (reg s 2 + reg s 3)) := by
  have z : s.h.fcsr ||| 0 = s.h.fcsr := BitVec.or_zero
  show execAdd 1 2 3 s = _
  simp only [execAdd, alu, put, done, Laws.rx_out _ h, Laws.wx_out _ _ h, wroteFlags, passed, regs, reg, BitVec.reduceEq, ite_false, z]

/-- Register words, accesses, branches and jumps of a thread: those that complete and those that trap. -/
theorem test_meets_SplitRegionWords_thread :
    let s := laneUnit
    let a := asScalar s 3 4 1 2
    let va := threadReg s 3 1
    (s.h.lane = some (3, none) ∧ 32 ≤ s.h.ew ∧ (4 : BitVec 6).toNat < 32 ∧ va = 0xFFFFFFFFFFF00000) ∧
      (∃ f v, exec (.add 1 2 3) a = .next (wroteFlags a f 1 v)) ∧
      s.h.mstage.stores = [] ∧ s.h.mstage.isOpen = false ∧ isOk (load s va 4 0) = true ∧ isTrap (place s .load (va + 2) 4) = true ∧
      isOk (store s va 4 7 0) = true ∧ isTrap (place s .store (va + 2) 4) = true ∧ threadReg s 3 1 ≠ threadReg s 3 2 ∧ threadReg s 3 1 = threadReg s 3 1 ∧
      va.toNat % 4 = 0 ∧ (va + 2).toNat % 4 ≠ 0 ∧ (3 < vlmax 32 s.h.g ∧ ((2 : BitVec 5), 3) ≠ (1, 3)) := by
  refine ⟨?_, ⟨0, _, add_out rfl⟩, ?_⟩ <;> and_intros <;> decide +kernel

/-- Words of a region that no thread may execute, that name a register of the hart, that move the thread, that leave the region and that trap; and the last
thread of it. -/
theorem test_meets_SplitRegionWords_word :
    let r : Region :=
      { base := 0x30000, words := [0x1A000005, encode (.add 40 1 2), encode (.add 4 1 2), encode (.jal 4 100), encode (.lw 4 1 2)], join := 5,
        yielded := [], last := [] }
    let s : State := { laneUnit with h := { laneUnit.h with lane := none, k := (laneUnit.h.k.set 0 0b1111).set 2 0b0111 } }
    let start (o : Nat) : State := { s with h := { s.h with pc := r.base + BitVec.ofNat 64 (4 + 4 * o), lane := some (3, none) } }
    let out (o : Nat) : Option (Word × Bool) := match runWord (r.words.getD o 0) (start o) with
      | .next u => some (u.h.pc, match u.h.lane with | some (_, some _) => true | _ => false)
      | _ => none
    notForThreads (r.words.getD 0 0) ∧ (r.words.getD 1 0).getLsbD 23 = true ∧ (r.words.getD 1 0).toNat / 2 ^ 24 = 1 ∧
      (laneMajor (r.words.getD 2 0) = true ∧ laneWrites (r.words.getD 2 0) = false ∧ out 2 = some (r.base + BitVec.ofNat 64 (4 + 4 * 3), false)) ∧
      (laneMajor (r.words.getD 3 0) = true ∧ laneWrites (r.words.getD 3 0) = false ∧ out 3 = some (r.base + BitVec.ofNat 64 (4 + 4 * 103), false)) ∧
      (laneMajor (r.words.getD 4 0) = true ∧ laneWrites (r.words.getD 4 0) = false ∧ (out 4).map (·.2) = some true) ∧
      (s.h.g ≠ 0 ∧ running s.h r.join = [3] ∧ r.held 3 = false ∧ threadAt s.h 3 = 1) ∧
      (match laneWord runWord r s 3 1 with | .trapped _ _ => true | .moved _ _ => false) = true ∧
      (match laneWord runWord r s 3 2 with
       | .trapped _ _ => false
       | .moved u _ => decide (u.h.k = s.h.k ∧ u.h.vl = s.h.vl ∧ u.h.vtype = s.h.vtype ∧ u.h.gmap = s.h.gmap)) = true ∧
      (match runWord (encode (.jalr 4 2 2)) (start 5) with
       | .next u => (match u.h.lane with | some (_, some (c, v)) => decide (c = Cause.misaligned ∧ 4 * (r.join + 1) ≤ (v - r.base - 4).toNat) | _ => false)
       | _ => false) = true := by
  simp only [notForThreads]; and_intros <;> decide +kernel

/-- A hart that waits for nothing, or in a `WFI`, may take an interrupt in user mode. -/
theorem mayTake_of {s : State} (h : s.h.live = true ∧ s.h.halted = false ∧ s.h.prv = false)
    (w : s.h.wait = none ∨ s.h.wait = some .wfi) : mayTake s := by
  refine ⟨h.1, h.2.1, .inl h.2.2, fun r => ?_⟩
  rcases w with w | w <;> rw [w] <;> nofun

/-- An interrupt at a word, in a `WFI`, in a region, in an open matrix convoy; none to take; a cancelled unit, and none; a timer that is due and one that is
not. -/
theorem test_meets_InterruptEntry :
    let s : State := { unitWith [] with h := { (unitWith []).h with tpend := true } }
    let r : Region := { base := 0, words := [], join := 1, yielded := [], last := [] }
    let w : State := { s with h := { s.h with wait := some .wfi } }
    let inRegion : State := { s with h := { s.h with region := some r } }
    let o : State := { s with undo := [(0, s.h)], h := { s.h with mstage := { MStage.empty with isOpen := true } } }
    let gone : State := { s with h := { s.h with cancelled := true } }
    let t (n : Nat) : State := { s with h := { s.h with timerAt := some n }, d := { s.d with cycle := 5 } }
    (mayTake (focus s 0) ∧ mayTake (focus w 0) ∧ mayTake (focus inRegion 0) ∧ mayTake (focus o 0)) ∧
      (focus s 0).h.cancelled = false ∧ firstPending (focus s 0).h = some (Cause.timer, 0) ∧ atWord (focus s 0) ∧
      (focus w 0).h.wait = some .wfi ∧ (focus w 0).h.region = none ∧ (focus w 0).h.mstage.isOpen = false ∧
      firstPending (focus w 0).h = some (Cause.timer, 0) ∧ (focus inRegion 0).h.region = some r ∧ (focus inRegion 0).h.wait ≠ some .wfi ∧
      firstPending (focus inRegion 0).h = some (Cause.timer, 0) ∧ (focus o 0).h.mstage.isOpen = true ∧ firstPending (focus o 0).h = some (Cause.timer, 0) ∧
      sfind (focus o 0).undo (focus o 0).hid.toNat = some s.h ∧ firstPending (focus (unitWith []) 0).h = none ∧ (focus (unitWith []) 0).h.cancelled = false ∧
      (focus State.reset 0).h.live = false ∧ ((focus gone 0).h.live = true ∧ (focus gone 0).h.halted = false ∧ (focus gone 0).h.cancelled = true) ∧
      (focus (t 5) 0).h.timerAt = some 5 ∧ 5 ≤ (focus (t 5) 0).d.cycle.toNat ∧ (focus (t 6) 0).h.timerAt = some 6 ∧ (focus (t 6) 0).d.cycle.toNat < 6 := by
  refine ⟨⟨mayTake_of ?_ (.inl ?_), mayTake_of ?_ (.inr ?_), mayTake_of ?_ (.inl ?_), mayTake_of ?_ (.inl ?_)⟩, ?_⟩
  all_goals simp only [firstPending, atWord]
  all_goals and_intros <;> decide +kernel

/-- The save area at an address that is mapped, and at one that is not; a grant that fits and one that waits. -/
theorem test_meets_ContextSaveAndRestore :
    let s0 := supervisor (unitWith [])
    let p := s0.withFetchWord 32 0
    let s (n : Nat) (na : BitVec 5) : State :=
      { p with h := { p.h with carea := 0x40000 }, c := { p.c with na := na }, d := { p.d with mem := Memory.write p.d.mem 0x40258 8 (n * 2 ^ 16) } }
    let a (t : State) : State := acquired t 6
    let wide (t : State) : State := { t with h := { t.h with gmap := 0x1F } }
    let lat (t : State) : Option Nat := match areaBits 64 (a t) t.h.carea 0x258 1 with
      | .ok (x, _) => some x.toNat
      | .error _ => none
    let waiting : State := { s 4 8 with h := { (s 4 8).h with wait := some (.crest 4) } }
    (unitWith []).h.prv = false ∧ p.h.prv = true ∧ p.h.lane = none ∧ lat (s 4 8) = some (4 * 2 ^ 16) ∧ 4 ≤ (s 4 8).h.g + (freeGroups (a (s 4 8)) 0 false).length ∧
      (s 4 8).h.g < 4 ∧ 4 ≤ (wide (s 4 8)).h.g ∧ (storeAll 0xFFFFFFFFFFF00000 fillingPad [(0, 0)]).2 = some (.wait .swatch) ∧
      (s 4 2).h.g + (freeGroups (a (s 4 2)) 0 false).length < 4 ∧ onB p.hid = false ∧
      isTrap (areaBits 64 (a s0) 0x40000000 0x258 1) = true ∧ (storeAll 0xFFFFFFFFFFF00000 s0 (fixedPart s0.h ++ dirtyPart s0.h)).2 = none ∧
      (match (storeAll 0x40000000 s0 [(0, 0)]).2 with | some (.trap _ _) => true | _ => false) = true ∧
      (focus waiting 0).h.wait = some (.crest 4) ∧ (focus waiting 0).h.prv = true ∧ (∀ n, n < 9 → (focus p 0).h.wait ≠ some (.crest n)) := by
  decide +kernel

/-- The whole area can be read back. -/
theorem test_meets_ContextSaveAndRestore_read :
    let w : Word := 0xFFFFFFFFFFF00000
    isOk (do
      let r ← areaBits 32768 (supervisor (unitWith [])) w 0 512
      let v ← areaRegs 65536 r.2 w 0x1000 8192 (64 * 1) (fun i => i == 3) (List.range 32)
      areaRegs 131072 v.2 w 0x41000 16384 (128 * 1) (fun i => i == 1) (List.range 8)) = true := by decide +kernel

/-- A copy that has been fired from channel 2. -/
def someCmd : Cmd :=
  { id := 1, kind := .copy, hart := 0, src := 0, dst := 0, idx := 0, sw := none, bar := none, port := none, rtn := (0, { header := 0, image := 0 }), asid := 0,
    ptroot := 0, prv := false, vl := 0, at' := .queued, landed := 0, expected := 0, snap := none, ahead := [], codes := [], part := [], scout := false, stale := false }

/-- Fields at their edges; commands that use a routine and that are suspended; a header that is good and one that is not; images that can be read and that
cannot: how many words an image has is open (log 15). -/
theorem test_meets_SupervisorWords :
    let s := supervisor (unitWith [0x1000, 0x1001, 0x4000, 2 ^ 56, 2 ^ 63 + 0x3FFF])
    let cmd (k : CmdKind) (st : CmdState) : Cmd := { someCmd with kind := k, at' := st, rtn := (3, someCmd.rtn.2), prv := true }
    let moved (n : Nat) : Cmd := { someCmd with dst := (square 4 0 0x200 4 8).record, landed := n, expected := 4 }
    let c (k : CmdKind) (st : CmdState) : Core := { Core.reset with chans := Core.reset.chans.set 2 { Chan.reset with cmds := [cmd k st] } }
    let p : State := { s.withFetchWord 32 0 with c := c .bodkin .flying }
    (reg s 1).toNat % 4096 = 0 ∧ (reg s 2).toNat % 4096 ≠ 0 ∧ (sectorOf (moved 1) 0 0 = sectorOf (moved 1) 3 0) ∧ (unitWith []).h.prv = false ∧ s.h.prv = true ∧ s.h.lane = none ∧
      (reg s 3).toNat / 2 ^ 14 % 2 ^ 49 ≠ 0 ∧ (reg s 5).toNat / 2 ^ 14 % 2 ^ 49 = 0 ∧ (reg s 4 + 2).toNat / 4096 = 2 ^ 44 ∧ (reg s 1).toNat / 4096 ≠ 2 ^ 44 ∧
      (findCmd (c .copy .suspended) 2 1).map (·.at') = some .suspended ∧ (cmd .bodkin .flying).rtn.1 = 3 ∧
      isTrap (loadRecord p 4 4) = true ∧ isOk (loadRecord p 0x40000 4) = true ∧ isOk (loadWords p 0x40020 0 0) = true ∧ isOk (loadWords p 0x40020 0 4) = true ∧
      isTrap (loadWords p 0x40000000 0 1) = true ∧ (moved 0).landed = 0 ∧ 0 < (moved 1).landed ∧ toBoundary (moved 1) = [(1, 0), (2, 0), (3, 0)] ∧ headerGood 0 = false ∧
      headerGood (BitVec.ofNat 256 (256 * 2 ^ 64)) = true := by
  and_intros <;> decide +kernel

/-- A window that holds a store through a translation that is to be dropped. -/
theorem test_meets_SupervisorWords_window :
    let e : TlbEntry := { asid := none, va := 0, size := 2 ^ 30, leaf := 0x1F }
    let p : PendingStore := { va := 0x40000, place := .mem 0x40000 0x1F, n := 1, v := 5 }
    let s0 := mapped [2 ^ 63, 1]
    let s : State := { s0 with h := { s0.h with mstage := { MStage.empty with isOpen := true, stores := [p] } }, d := { s0.d with tlb := [e] } }
    p ∈ s.h.mstage.stores ∧ e ∈ s.d.tlb ∧ (reg s 1).getLsbD 63 = true ∧ (e.asid = none ∨ e.asid = some s.h.asid) ∧ e.va ≤ p.va.toNat % 2 ^ 56 ∧
      p.va.toNat % 2 ^ 56 < e.va + e.size ∧ s0.h.mstage.stores = [] ∧ s0.parked = [] := by and_intros <;> decide +kernel

theorem test_meets_SeamWords :
    let s : State := { unitWith [] with d := { Device.reset with stage := 3 } }
    s.h.lane = none ∧ (s.d.stage = 3 ∧ s.d.layersOut = 0) ∧ (unitWith []).d.stage ≠ 3 ∧ s.d.inPod = false ∧ (0#2 ≠ 1#2) ∧ (6#3 ≠ 7#3) := by decide +kernel

/-- Ids of every kind; a counter that is there and one that is not; a value that is reached, and one that is not. -/
theorem test_meets_SynchronisationObjects :
    let s0 := unitWith [7, 3, 2, 0x10000]
    let s : State := { s0 with d := { s0.d with ctrs := [(7, 3)] } }
    s.h.lane = none ∧ reg s 0 = 0 ∧ reg s 1 ≠ 0 ∧ counterOf s s.h.node 7 = some 3 ∧ (counterOf s s.h.node (4#8 ++ 0#56)) = none ∧
      4 ≤ (4#8 ++ 0#56).toNat / 2 ^ 56 ∧ 2 ^ 16 ≤ (reg s 4).toNat ∧ (reg s 1).toNat < 2 ^ 16 ∧ ((3 : BitVec 3).toNat < 4 ∧ 4 ≤ (4 : BitVec 3).toNat) ∧ Sparse.wf 0 s.d.ctrs = true ∧
      (reg s 2).toNat ≤ (3#64).toNat ∧ (3#64).toNat < (4#64).toNat ∧ (1 : BitVec 16) ≠ 0 ∧ s.liveHarts = [0] ∧ s.hid = 0 ∧
      waitsAt s .timeline (.waittl 1 0 2) = true := by decide +kernel

/-- Another unit's counter, one that it waits for, one that passed before the unit ended, and the unit that ends. -/
theorem test_meets_SynchronisationObjects_unit :
    let id : Word := 3#8 ++ 0#24 ++ 4#32
    let s0 := unitWith [id, 9]
    let w (passed : Bool) : State := { s0 with h := { s0.h with wait := some (.unitCounter s0.h.node 4 9 passed) } }
    let gone (n : Word) : Hart := { Hart.reset with node := s0.h.node, unit := 4, gs := n }
    let other : State := { s0 with parked := [(1, { gone 5 with live := true })] }
    id ≠ 0 ∧ counterOf s0 s0.h.node id = none ∧ counterOf other other.h.node id = some 5 ∧ (5#64).toNat < (9#64).toNat ∧
      waitFor s0 id 9 = .unitCounter s0.h.node 4 9 false ∧ waitFor s0 7 9 = .timeline ∧ hasPassed (w true) ∧ ¬ hasPassed s0 ∧
      (w false).h.wait = some (.unitCounter (gone 9).node (gone 9).unit 9 false) ∧ (9 : Word).toNat ≤ (gone 9).gs.toNat ∧
      ¬ (9 : Word).toNat ≤ (gone 8).gs.toNat := by
  refine ⟨?_, ?_, ?_, ?_, ?_, ?_, ⟨_, _, _, rfl⟩, fun ⟨_, _, _, h⟩ => (nomatch h), ?_⟩ <;> and_intros <;> decide +kernel

/-- Offsets at their edges, objects of both kinds, both phases, a wait that has seen its phase. -/
theorem test_meets_SynchronisationObjects_barrier :
    let w : Nat := 0xFFFFFFFFFFF00000
    let off (n : Nat) : Nat := (BitVec.ofNat 64 (w + n)).toNat % 2 ^ 20
    let s := after (after (unitWith [0xFFFFFFFFFFF00040, 1, 0xFFFFFFFFFFF00080, 0]) (.binit 1 1 2)) (.binit 1 3 4)
    let x1 : Word := BitVec.ofNat 64 (w + 0x40)
    let x3 : Word := BitVec.ofNat 64 (w + 0x80)
    let seen : State := { s with h := { s.h with wait := some (.barrier 64 false true) } }
    let wait : Hart := { s.h with wait := some (.barrier 64 false false) }
    off 4 % 8 ≠ 0 ∧ (off 0xC0000 % 8 = 0 ∧ 0xC0000 ≤ off 0xC0000) ∧ (off 0xBFFF8 % 8 = 0 ∧ off 0xBFFF8 < 0xC0000) ∧ isObject x1 ∧ isObject x3 ∧
      spadPoisoned s.c 64 8 = false ∧ spadPoisoned poisonedPad.c 0 8 = true ∧ remOf (objectAt s x1) ≠ 0 ∧ remOf (objectAt s x3) = 0 ∧
      (objectAt s x1).getLsbD 63 = (reg s 4).getLsbD 0 ∧ (objectAt s x1).getLsbD 63 ≠ (reg s 2).getLsbD 0 ∧ s.h.lane = none ∧
      seen.h.wait = some (.barrier 64 false true) ∧ s.h.wait = none ∧ wait.wait = some (.barrier 64 false false) ∧ phaseAt s.c 64 = false ∧
      waitsAt s (.barrier 64 false false) (.bwait 1 1 4) = true := by simp only [isObject]; and_intros <;> decide +kernel

/-- A line that is free, locked by this hart, and beyond the quota; an address with no line; a swatch that is waited for. -/
theorem test_meets_SynchronisationObjects_lock :
    let s0 := (unitWith [0x40000]).withFetchWord 32 0
    let s (q : BitVec 32) : State := { s0 with h := { s0.h with lockq := q } }
    let l : Line := { tag := 0x800, data := 0, dirty := 0, ptr := false, locks := [0], valid := true, poison := [], atom := 0 }
    let mine : State := { s 1 with d := { (s 1).d with l1 := [(setKey s0.d 0 0x40000, [l])] } }
    let other : State := { mine with d := { mine.d with l1 := [(setKey s0.d 0 0x40000, [{ l with locks := [8] }])] } }
    let at0 (u : State) (va : Word) : Option Bool := match place u .load va 1 with
      | .ok (pl, t) => some (bytePoisoned t pl).1
      | .error _ => none
    let hurt : State := { s 1 with d := { (s 1).d with poison := [(0x40000 / 32, 0)] } }
    let repair : State := { s 1 with d := { (s 1).d with stacksOut := 0xFFF } }
    at0 (s 1) 0x40000 = some false ∧ at0 hurt 0x40000 = some true ∧ at0 padUnit 0xFFFFFFFFFFF00000 = some false ∧
      at0 poisonedPad 0xFFFFFFFFFFF00000 = some true ∧ isWait .memory (place repair .load 0x40000 1) = true ∧
      (match place (s 1) .load 0x40000 1 with | .ok (.mem pa _, _) => pa == 0x40000 | _ => false) = true ∧
      (match place padUnit .load 0xFFFFFFFFFFF00000 1 with | .ok (.spad _, _) => true | _ => false) = true ∧
      isTrap (place padUnit .load (2 ^ 55) 1) = true ∧ (lockLine (s 1) 0x40000 0x1F).isSome = true ∧ lockLine (s 0) 0x40000 0x1F = none ∧
      (unlockLine mine 0x40000).isSome = true ∧ unlockLine (s 1) 0x40000 = none ∧
      ((lineOf (setAt mine.d 0 0x40000) 0x800).map (·.locks)) = some [0] ∧ ((lineOf (setAt other.d 0 0x40000) 0x800).map (·.locks)) = some [8] ∧
      (lineOf (setAt (s 1).d 0 0x40000) 0x800).isNone = true ∧ (s 0).h.lockq.toNat ≤ lockedBy (s 0).d 0 ∧ lockedBy (s 1).d 0 < (s 1).h.lockq.toNat ∧
      (focus (s 1) 0).h.wait ≠ some .swatch ∧ (focus { s 1 with h := { (s 1).h with wait := some .swatch } } 0).h.wait = some .swatch := by
  and_intros <;> decide +kernel

/-- A pattern that is valid and of scratchpad, and one that is not; spans inside the scratchpad and outside; a swatch in each state. -/
theorem test_meets_PatternSwatchAndStagingWords :
    let s := padUnit
    let entry (p : Pat) : State := { s with c := { s.c with pats := [(2, p)] } }
    let span (b : Nat) : Option (Int × Int) := patSpan (square 4 0 b 4 8).record
    let sw (st : Nat) : Word := BitVec.ofNat 64 (st * 2 ^ 48)
    s.h.lane = none ∧ isOk (loadRecord s (reg s 1) 8) = true ∧ isTrap (loadRecord s 4 8) = true ∧ Sparse.wf { valid := false, record := 0 } s.c.pats = true ∧
      (patAt s.c 2).valid = false ∧ (patAt (entry (square 4 0 0 4 8)).c 2).valid = true ∧ PRec.space (patAt (entry (square 4 0 0 4 8)).c 2).record = true ∧
      [stateOf (sw 0), stateOf (sw 1), stateOf (sw 2), stateOf (sw 3)] = [0, 1, 2, 3] ∧ span 0xBFFF0 = some (0xBFFF0, 0xC0000) ∧
      max (0xBFFF0 : Int) 0 < min 0xC0000 0xC0000 ∧ span 0xC0000 = some (0xC0000, 0xC0010) ∧ min (0xC0010 : Int) 0xC0000 ≤ max 0xC0000 0 ∧
      (1 : BitVec 6) ≠ 0 ∧ waitsAt (entry (square 4 0 0 4 8)) .swatch (.swset 2 3) = true ∧ waitsAt s .swatch (.swsetClr 3) = true := by
  and_intros <;> decide +kernel

/-- A channel with a copy from pattern 2 to pattern 3, and each way a command is turned away. -/
theorem test_meets_ShuttleCommandWords :
    let g : Staging := { Staging.empty with src := some 2, dst := some 3 }
    let pats : Sparse Pat := [(2, square 4 0 0x100 4 8), (3, square 4 0 0x200 4 8)]
    let s (g : Staging) (w : Word) (cmds : List Cmd) : State :=
      { padUnit with c := { Core.reset with pats := pats, sws := Core.reset.sws.set 1 w, chans := Core.reset.chans.set 2 { Chan.reset with stg := g, cmds := cmds } } }
    let sw (st owner off : Nat) : Word := BitVec.ofNat 64 (st * 2 ^ 48 + owner * 2 ^ 40 + 16 * 2 ^ 20 + off)
    let cmd : Cmd := { someCmd with expected := 4 }
    let t := s g 0 []
    let src := (square 4 0 0x100 4 8).record
    let dst := (square 4 0 0x200 4 8).record
    waitingCount (chan (s g 0 (List.replicate 16 cmd)) 2) = 16 ∧ waitingCount (chan (s g 0 (List.replicate 15 cmd)) 2) < 16 ∧ t.h.lane = none ∧
      slotMissing .copy Staging.empty ∧ ¬ slotMissing .copy g ∧ (patAt t.c 2).valid = true ∧ (patAt t.c 9).valid = false ∧
      CmdKind.copy ≠ .stream ∧ sfind t.c.rtns 0 = none ∧ g.sw = none ∧ (7 : Nat) < 8 ∧ 8 ≤ 8 ∧ sfind { t.c with rtns := [(0, { header := 0, image := 0 })] }.rtns 0 ≠ none ∧
      lieWithin dst (sw 0 0 0x200) ∧ ¬ lieWithin dst (sw 0 0 0x100) ∧ lieWithin src (sw 0 0 0x100) ∧ ¬ lieWithin src (sw 0 0 0x200) ∧
      overlaps .copy (square 4 0 0x100 8 4).record src = true ∧ patSpan dst = some (0x200, 0x210) ∧ patSpan src = some (0x100, 0x110) ∧
      ownerOf (sw 0 1 0x200) ≠ t.hid.toNat % 8 ∧ ownerOf (sw 0 0 0x200) = t.hid.toNat % 8 ∧ swOff (sw 0 0 0x200) = 0x200 ∧ swLen (sw 0 0 0x200) = 16 ∧
      [stateOf (sw 0 0 0x200), stateOf (sw 1 0 0x200), stateOf (sw 2 0 0x100), stateOf (sw 3 0 0x100)] = [0, 1, 2, 3] ∧ PRec.space dst = true ∧
      overlaps .copy src dst = false ∧ patCount dst ≠ 0 ∧ waitsAt t .queue (.shgoCopy 2 5 0) = true := by
  have span (r : BitVec 512) (w : Word) (x y : Int) (h : patSpan r = some (x, y)) (p : PRec.space r = true) :
      lieWithin r w ↔ (swOff w : Int) ≤ x ∧ y ≤ (swOff w + swLen w : Nat) := by simp [lieWithin, h, p]
  simp only [slotMissing, span (square 4 0 0x200 4 8).record _ 0x200 0x210 (by decide +kernel) (by decide +kernel),
    span (square 4 0 0x100 4 8).record _ 0x100 0x110 (by decide +kernel) (by decide +kernel)]
  and_intros <;> decide +kernel

/-- The demands on the entries of a copy are met. -/
theorem test_meets_ShuttleCommandWords_demands :
    let g : Staging := { Staging.empty with src := some 2, dst := some 3 }
    let c : Core := { Core.reset with pats := [(2, square 4 0 0x100 4 8), (3, square 4 0 0x200 4 8)] }
    (∀ e ∈ demands .copy g, meets c e) ∧ ¬ meets Core.reset (2, fun _ => True) := by
  refine ⟨?_, ?_⟩
  · simp only [demands, List.mem_cons, reduceCtorEq, if_false, List.not_mem_nil, or_false, List.nil_append]
    rintro e (rfl | rfl)
    · exact ⟨by decide +kernel, fun h => h.elim, fun h => h.elim⟩
    · exact ⟨by decide +kernel, fun h => h.elim⟩
  · exact fun h => absurd h.1 (by decide +kernel)

/-- Commands that are there, complete, and not yet given; ports that are free, claimed and occupied. -/
theorem test_meets_ShuttleStatusWords :
    let s := unitWith [1, 2, 3]
    let v (occ : Option (Nat × Nat)) (cl : Option (BitVec 48 × BitVec 32)) : VPort := { occ := occ, claim := cl, read := false, buf := [] }
    let k : Chan := { Chan.reset with next := 3 }
    s.h.lane = none ∧ (7 : BitVec 8).toNat = (7 : Fin 8).val ∧ (27 : BitVec 8).toNat = 16 + (11 : Fin 12).val ∧ (v (some (2, 1)) none).occ = some (2, 1) ∧
      (v none none).occ = none ∧ (v (some (2, 1)) (some (3, 0))).claim ≠ none ∧ (findCmd s.c 2 1).isNone = true ∧
      (findCmd { Core.reset with chans := Core.reset.chans.set 2 { k with cmds := [someCmd] } } 2 1).isSome = true ∧ Core.reset.fports[11] = none ∧ (∀ x ∈ k.cmds, x.id ≠ 1) ∧ 1 ≤ 1 ∧ 1 < k.next ∧
      k.next ≤ (reg s 3).toNat := by decide +kernel

/-- A command that may start, one that waits, one with no element; one that lands, one that faults; a barrier for it. -/
theorem test_meets_ShuttleEvents :
    let cmd (st : CmdState) (base n : Nat) : Cmd :=
      { someCmd with src := (square 4 0 base 4 8).record, dst := (square 4 0 0x200 4 8).record, bar := some 0x40, at' := st, expected := n }
    let s (l : List Cmd) : State := { padUnit with c := { Core.reset with chans := Core.reset.chans.set 2 { Chan.reset with cmds := l } } }
    let a := focus (s [cmd .queued 0x100 4]) 0
    let f := focus (s [cmd .flying 0x100 4]) 0
    let bad := focus (s [cmd .flying 0xC0000 4]) 0
    oldestQueued (focus (s []) 0) 2 = none ∧ oldestQueued a 2 = some (cmd .queued 0x100 4) ∧ startable a (cmd .queued 0x100 4) ∧
      ¬ portOut a (cmd .queued 0x100 4) ∧ oldestQueued (focus (s [cmd .queued 0x100 0]) 0) 2 = some (cmd .queued 0x100 0) ∧
      (cmd .queued 0x100 0).expected = 0 ∧ (cmd .queued 0x100 0).scout = false ∧
      ¬ startable { a with d := { a.d with quiet := [0] } } (cmd .queued 0x100 4) ∧ inAction f 2 1 (cmd .flying 0x100 4) ∧
      (cmd .flying 0x100 4).landed ≠ (cmd .flying 0x100 4).expected ∧ (chan (focus (s []) 0) 2).cmds = [] ∧
      ((advanceMany (acceptAhead f 2 1 [2]) 2 1 3).bind fun u => ((chan u 2).cmds.find? fun x => x.id == 1).map (·.landed)) = some 4 ∧
      ((advanceMany (acceptAhead f 2 1 [2]) 2 1 1).bind fun u => ((chan u 2).cmds.find? fun x => x.id == 1).map (·.scout)) = some false ∧
      (advanceMany f 2 1 5).isNone = true ∧ (cmd .flying 0x100 4).snap = none ∧ (cmd .flying 0x100 4).ahead = [] ∧
      (match prepared f (cmd .flying 0x100 4) with | .ok (k, t) => k.snap.isNone && isOk (readAhead t k [0, 1, 2, 3]) | .error _ => false) = true ∧
      (match advance bad 2 1 with | .fault _ b => b == false | _ => false) = true ∧ (match advance f 2 1 with | .landed _ => true | _ => false) = true ∧
      ((chan (landPart bad 2 1) 2).cmds.find? fun x => x.id == 1).isSome = true ∧ (cmd .flying 0x100 4).kind ≠ .bodkin ∧
      (cmd .flying 0x100 4).kind ≠ .send ∧ (chan f 2).resetDue = false ∧ (cmd .flying 0x100 4).bar = some 0x40 ∧
      ((0x40 : BitVec 20).toNat % 8 = 0 ∧ (0x40 : BitVec 20).toNat < 0xC0000) ∧ spadPoisoned f.c 0x40 8 = false ∧ (cmd .flying 0x100 4).kind ≠ .rows := by
  simp only [startable, inAction, portOut]; and_intros <;> decide +kernel

/-- The other kinds: a routine, a send to a port in service and to one out of it; poison at the source; a channel due for a reset; a barrier that expects. -/
theorem test_meets_ShuttleEvents_kinds :
    let cmd (k : CmdKind) (port : Option (BitVec 8)) (sw : Option (BitVec 6)) : Cmd :=
      { someCmd with kind := k, src := (square 4 0 0 4 8).record, dst := (square 4 0 0x200 4 8).record, sw := sw, port := port, at' := .flying, expected := 4 }
    let core (k : Cmd) : Core := { poisonedPad.c with chans := Core.reset.chans.set 2 { Chan.reset with cmds := [k] } }
    let s (k : Cmd) : State := focus { poisonedPad with c := { core k with sws := Core.reset.sws.set 1 (3 * 2 ^ 48) } } 0
    let out (k : Cmd) : State := { s k with d := { (s k).d with ports := 0 } }
    let due : State := focus { padUnit with c := { Core.reset with chans := Core.reset.chans.set 2 { Chan.reset with resetDue := true } } } 0
    let waiting : Cmd := { cmd .send (some 11) none with at' := .queued }
    inAction (s (cmd .bodkin none none)) 2 1 (cmd .bodkin none none) ∧ (cmd .bodkin none none).kind = .bodkin ∧
      inAction (s (cmd .send (some 11) none)) 2 1 (cmd .send (some 11) none) ∧ (s (cmd .send (some 11) none)).d.ports.getLsbD 11 = true ∧
      (oldestQueued (out waiting) 2 = some waiting ∧ startable (out waiting) waiting ∧ portOut (out waiting) waiting) ∧
      (inAction (out (cmd .send (some 11) none)) 2 1 (cmd .send (some 11) none) ∧ portOut (out (cmd .send (some 11) none)) (cmd .send (some 11) none)) ∧
      (match advance (s (cmd .copy none none)) 2 1 with | .fault _ b => b | _ => false) = true ∧ (cmd .send none (some 1)).sw = some 1 ∧
      stateOf (s (cmd .send none none)).c.sws[1] = 3 ∧ stateOf padUnit.c.sws[1] ≠ 3 ∧ (chan due 2).resetDue = true ∧ (chan due 2).cmds = [] ∧
      expOf (barWord false 0 1 1) ≠ 0 := by simp only [inAction, startable, portOut]; and_intros <;> decide +kernel

/-- A routine whose scout pass is still to come, and one whose input has poison; routines that can start and that cannot. -/
theorem test_meets_ShuttleEvents_scout :
    let k (n : Nat) : Cmd :=
      { someCmd with kind := .bodkin, src := (square 4 0 0x100 4 8).record, dst := (square 4 0 0x200 4 8).record, at' := .flying, scout := true,
                     rtn := (0, { header := BitVec.ofNat 256 (256 * 2 ^ 64 + 8 * 2 ^ 96), image := n * 2 ^ 24 }) }
    let s (n : Nat) : State := focus { padUnit with c := { Core.reset with chans := Core.reset.chans.set 2 { Chan.reset with cmds := [k n] } } } 0
    let hurt : State := { s 3 with c := { (s 3).c with spoison := [(4, 0)] } }
    let l := (passReads (k 3)).map (·.2)
    inAction (s 3) 2 1 (k 3) ∧ ¬ portOut (s 3) (k 3) ∧ (k 3).scout = true ∧ (k 3).refused = false ∧ (k 0).refused = true ∧ inAction (s 0) 2 1 (k 0) ∧
      (passReads (k 3)).take 3 = [(true, 0), (true, 1), (false, 0)] ∧ headOf (k 3) 0 = [0, 1] ∧ 8 < chunkCount (k 3) + 8 ∧
      isOk (readInput (s 3) (k 3) l) = true ∧ inAction hurt 2 1 (k 3) ∧ (match readInput hurt (k 3) l with | .error _ => true | .ok _ => false) = true := by
  refine ⟨?_, ?_, rfl, ?_, ?_, ?_⟩
  · simp only [inAction]; decide +kernel
  · simp only [portOut]; decide +kernel
  · have e : bits (BitVec.ofNat 256 (256 * 2 ^ 64 + 8 * 2 ^ 96)) 63 0 = 0 := by decide +kernel
    have h : (4 ≤ 32 + 8 * Config.routineWords (BitVec.ofNat 256 (256 * 2 ^ 64 + 8 * 2 ^ 96))) := by omega
    simp only [Cmd.refused, Routine.starts, e, Nat.zero_add, decide_eq_true h]
    decide +kernel
  · have e : bits (BitVec.ofNat 256 (256 * 2 ^ 64 + 8 * 2 ^ 96)) 63 0 = 0 := by decide +kernel
    simp [Cmd.refused, Routine.starts, e]
  · simp only [inAction]; and_intros <;> decide +kernel

def launchRecord (more : Nat) : BitVec 512 := BitVec.ofNat 512 (0x30000 + 2 ^ 128 + 2 ^ 176 + 2 ^ 272 + 2 ^ 280 + more)

/-- A node of job 1 with generation 0. -/
def plainNode (k : NodeKind) (st : NodeState) (r : BitVec 512) : Node :=
  { gen := 0, kind := k, state := st, parent := if k = .job then none else some 1, job := 1, record := r, asid := 0, ptroot := 0, timeline := 0,
    counter := if k = .job then 1 else 0, accepted := 0, limit := 0, status := 0, cancelled := false, gate := none, gateUnit := none, creator := 0,
    queuedAt := 0, aged := 0, nextGang := 0, gateLast := none, jobReg := none, freedAt := 0, clock := Vector.replicate 16 0 }

/-- A device in stage 3 with a running job in slot 1, the nodes of the list, and no unit. -/
def jobWith (l : Sparse Node) : State :=
  { State.reset with d := { Device.reset with stage := 3, nodes := (1, plainNode .job .running 0) :: l } }

/-- The same with a unit of job 1 on hart 0 whose x1 names a launch record in scratchpad, and x2 the word pair after it. -/
def launcher (l : Sparse Node) (r : BitVec 512) (id : Nat) : State :=
  let s := unitWith [0xFFFFFFFFFFF00000, 0xFFFFFFFFFFF00040, 4, 1, 2]
  { s with d := (jobWith l).d, c := { s.c with spad := Memory.write (Memory.write [] 0 64 r.toNat) 64 16 id }, h := { s.h with node := 1 } }

/-- A table whose every slot is in use has no slot to give. -/
theorem firstUnused_full (x : Node) : ∀ n k, k + n = 65536 → firstUnused ((List.range' k n).map fun i => (i, x)) k = none
  | 0, k, h => by simp only [List.range'_zero, List.map_nil, firstUnused]; rw [if_neg (by omega)]
  | n + 1, k, h => by
    simp only [List.range'_succ, List.map_cons, firstUnused]
    rw [if_neg (by omega)]; exact firstUnused_full x n (k + 1) (by omega)

/-- No slot of a table of running nodes has been freed. -/
theorem oldestFreed_none (x : Node) (h : x.state ≠ .freed) (l : List Nat) : oldestFreed (l.map fun i => (i, x)) = none := by
  unfold oldestFreed
  induction l with
  | nil => rfl
  | cons a l ih => simpa [h] using ih

/-- A record for each refusal, and one that is accepted. -/
theorem test_meets_LaunchRecordChecks :
    let d := (jobWith []).d
    let r := launchRecord 0
    let timelineBad (r : BitVec 512) : Prop := Rec.timeline r ≠ 0 ∧ ¬ (0 < (Rec.timeline r).toNat ∧ (Rec.timeline r).toNat < 2 ^ 16)
    let spadBad (r : BitVec 512) : Prop := 0 < Rec.spad r ∧ (786432 < (Rec.gang r * Rec.spad r + 4095) / 4096 * 4096 ∨ coreCapacity (Rec.lgmin r) < Rec.gang r)
    let large (r : BitVec 512) : Prop := bestInstance d (Rec.seam r) * coreCapacity (Rec.lgmin r) < Rec.gang r
    badRecord 0 ∧ ¬ badRecord r ∧ parentOf r 1 = some 1 ∧ parentOf (launchRecord (5 * 2 ^ 448)) 1 = some 5 ∧ nodeAt d 5 = none ∧
      ¬ timelineBad r ∧ timelineBad (launchRecord (2 ^ 16 * 2 ^ 384)) ∧ ¬ spadBad r ∧ spadBad (launchRecord (786433 * 2 ^ 320)) ∧
      ¬ spadBad (launchRecord (786432 * 2 ^ 320)) ∧ large (launchRecord (2048 * 2 ^ 176 + 7 * 2 ^ 256)) ∧ ¬ large (launchRecord (2047 * 2 ^ 176 + 7 * 2 ^ 256)) ∧
      freeSlot d = some 2 ∧ d.stage = 3 ∧ d.layersOut = 0 ∧ tableFormed d ∧ (recKind r = .launch ∨ Rec.count r ≠ 0) ∧ nodeAt d 1 ≠ none ∧
      recKind (launchRecord (2 * 2 ^ 161)) = .phase := by
  simp only [badRecord, tableFormed, keysRise]; and_intros <;> decide +kernel

/-- A parent that is good, and a table without a free slot. -/
theorem test_meets_LaunchRecordChecks_slots :
    goodParent (jobWith []).d (launchRecord 0) 1 ∧ ¬ goodParent (jobWith []).d (launchRecord 0) 5 ∧
      freeSlot { Device.reset with nodes := (List.range' 1 65535).map fun i => (i, plainNode .job .running 0) } = none := by
  refine ⟨⟨1, plainNode .job .running 0, ?_⟩, ?_, ?_⟩
  · and_intros <;> decide +kernel
  · rintro ⟨p, n, h, h', -⟩
    have e : parentOf (launchRecord 0) 5 = some 5 := by decide +kernel
    obtain rfl : (5 : BitVec 48) = p := Option.some.inj (e.symm.trans h)
    have e' : nodeAt (jobWith []).d 5 = none := by decide +kernel
    exact absurd h' (by rw [e']; exact nofun)
  · simp only [freeSlot]
    rw [firstUnused_full _ _ _ rfl, oldestFreed_none _ (by decide +kernel)]
    rfl

/-- Records that are refused and accepted, gates that are there and are not, nodes in each state. -/
theorem test_meets_LaunchWords :
    let verdict (s : State) : Option (Nat × Option Word) :=
      match loadRecord s (reg s 1) 8 with
      | .ok (r, t) => match loadRecord t (reg s 2) 2 with
        | .ok (q, u) => some (checkRecord u.d (BitVec.ofNat 512 r) (((nodeAt u.d u.h.node).map (·.job)).getD 0), counterOf u s.h.node (BitVec.ofNat 64 q))
        | .error _ => none
      | .error _ => none
    let done' : Node := { plainNode .launch .complete 0 with status := 3 }
    let s (st : NodeState) : State := launcher [(2, plainNode .launch st 0)] 0 0
    verdict (launcher [] (launchRecord (7 * 2 ^ 256)) 0) = some (0, none) ∧ verdict (launcher [] (launchRecord (7 * 2 ^ 256)) 5) = some (0, some 0) ∧
      verdict (launcher [] 0 5) = some (1, some 0) ∧ (launcher [] 0 0).h.lane = none ∧ isTrap (loadRecord (launcher [] 0 0) (reg (launcher [] 0 0) 3) 8) = true ∧
      isTrap (loadRecord (launcher [] 0 0) (reg (launcher [] 0 0) 3) 2) = true ∧ nodeAt (launcher [] 0 0).d 2 = none ∧
      ((nodeAt (s .running).d 2).map Node.live) = some true ∧ ((nodeAt (launcher [(2, done')] 0 0).d 2).map Node.live) = some false ∧
      tableFormed (s .running).d ∧ below (s .running).d 1 2 4 = true ∧ waitsAt (s .running) .node (.lwait 1 5) = true := by
  simp only [tableFormed, keysRise]; and_intros <;> decide +kernel

/-- A launch that heads the order; count words that wait, that are none, 0 and more; gates below and at their value. -/
theorem test_meets_SchedulerEvents :
    let q (more : Nat) : State := jobWith [(2, plainNode .launch .queued (launchRecord more))]
    let nd (more : Nat) : Node := plainNode .launch .queued (launchRecord more)
    let g (more : Nat) : Node := { plainNode .launch .gated (launchRecord more) with gate := some (5, 1) }
    let o : Node := { nd (2 ^ 160) with ptroot := 0x10000 }
    let word (m : Memory) (out : BitVec 12) : State := { jobWith [] with d := { (jobWith []).d with mem := m, stacksOut := out } }
    let count (s : State) (n : Node) : Option (Option Nat) := (takeCount s n).map (·.1)
    liveNode (q 0).d 2 = some (nd 0) ∧ liveNode (q 0).d 3 = none ∧ reached (q 0) (2, nd 0) = true ∧ (nd 0).counter = 0 ∧
      count (q (2 ^ 160)) (nd (2 ^ 160)) = some none ∧ count (jobWith []) (nd 0) = some (some 1) ∧ Rec.cw (nd 0).record = false ∧
      count (word (wordTables [] false) 0) { o with record := launchRecord (2 ^ 160 + 0x40000 * 2 ^ 192) } = some (some 0) ∧
      count (word (wordTables [] false) 0xFFF) { o with record := launchRecord (2 ^ 160 + 0x40000 * 2 ^ 192) } = none ∧
      liveNode (jobWith [(2, g 0)]).d 2 = some (g 0) ∧ (g 0).gate = some (5, 1) ∧ gateValue (jobWith [(2, g 0)]) (g 0) 5 = 0 ∧
      ((0 : Word).toNat < (1 : Word).toNat ∧ (1 : Word).toNat ≤ (gateValue (jobWith []) { g 0 with gateLast := some 1 } 5).toNat) ∧
      ¬ bestInstance (jobWith []).d (Rec.seam (g 0).record) * coreCapacity (Rec.lgmin (g 0).record) < largestGang (jobWith []).d 2 (g 0) ∧
      (let x := g (2048 * 2 ^ 176 + 7 * 2 ^ 256 + 4096 * 2 ^ 128)
       bestInstance (jobWith []).d (Rec.seam x.record) * coreCapacity (Rec.lgmin x.record) < largestGang (jobWith []).d 2 x) ∧
      ((g 0).state ≠ .running ∧ (g 0).counter = 0 ∧ (g 0).nextGang = 0 ∧ (jobWith []).d.saved = []) := by
  and_intros <;> decide +kernel

/-- A placement with a lease and one without, on mapped stacks, and one of another gang; a core that holds a reservation, and a device that has none. -/
theorem test_meets_SchedulerEvents_place :
    let go (more : Nat) : Node := { plainNode .launch .queued (launchRecord more) with counter := 1, limit := 1, ptroot := 0x10000 }
    let held : Resv := { node := 2, gang := 0, inst := 0, since := 0 }
    let s (more : Nat) : State := { jobWith [] with d := { (jobWith [(2, go more)]).d with mem := wordTables [] false, resv := [held] } }
    let p : Placement := { node := 2, gang := 0, resv := 0xBF000, units := [{ slot := 3, sp := 0x40000, tbase := 0, timer := 5 }], lparts := [(0, 16)] }
    let lease : Nat := 4096 <<< 320
    liveNode (s lease).d p.node = some (go lease) ∧ liveNode (s 0).d p.node = some (go 0) ∧ mayPlace (s lease) (go lease) p ∧ mayPlace (s 0) (go 0) p ∧
      ¬ mayPlace (s 0) (go 0) { p with gang := 1 } ∧ keysRise (s 0).parked ∧ p.units.head? = some { slot := 3, sp := 0x40000, tbase := 0, timer := 5 } ∧
      (Rec.gang (go lease).record * Rec.spad (go lease).record + 4095) / 4096 * 4096 ≠ 0 ∧
      (Rec.gang (go 0).record * Rec.spad (go 0).record + 4095) / 4096 * 4096 = 0 ∧
      reserves (s 0).d held (go 0) ∧ (∀ r n, ¬ reserves (jobWith []).d r n) ∧ (s 0).d.resv ≠ [] ∧ firstStuck (jobWith []) = none := by
  intro go held s p lease
  have stack (more : Nat) (h : more = 0 ∨ more = lease) : ∀ u ∈ p.units, goodStack (s more) (go more) u.sp ∧ u.timer ≠ 0 := by
    intro u hu
    obtain rfl : u = { slot := 3, sp := 0x40000, tbase := 0, timer := 5 } := List.mem_singleton.1 hu
    have z : go 0 = { go 0 with ptroot := 0x10000 } := rfl
    rcases h with rfl | rfl <;>
      exact ⟨⟨by decide +kernel, ⟨0x1F, 2 ^ 30, by and_intros <;> decide +kernel⟩, ⟨0x1F, 2 ^ 30, by and_intros <;> decide +kernel⟩⟩, by decide⟩
  have place (more : Nat) (h : more = 0 ∨ more = lease) : mayPlace (s more) (go more) p := by
    have u := stack more h
    simp only [mayPlace]
    rcases h with rfl | rfl <;> (refine ⟨?_, ?_, ?_, ?_, ?_, ?_, u, ?_⟩ <;> and_intros <;> decide +kernel)
  refine ⟨?_, ?_, place _ (.inr rfl), place _ (.inl rfl), ?_, ?_, ?_, ?_, ?_, ?_, ?_, ?_, ?_⟩
  · decide +kernel
  · decide +kernel
  · rintro ⟨-, -, -, -, h, -⟩
    exact absurd h (by decide +kernel)
  · simp only [keysRise]; decide +kernel
  · decide +kernel
  · decide +kernel
  · decide +kernel
  · refine ⟨?_, ⟨?_, ?_, ?_, .inl ?_⟩, 0, ?_⟩ <;> and_intros <;> decide +kernel
  · rintro r n ⟨h, -⟩
    exact nomatch h
  · decide +kernel
  · decide +kernel

/-- A pre-empted gang that can return, and one that cannot; a reservation that chooses a gang; events at harts with and without a unit. -/
theorem test_meets_SchedulerEvents_preempt :
    let go : Node := { plainNode .launch .running (launchRecord 0) with counter := 1, limit := 1, nextGang := 1 }
    let h : Hart := { Hart.reset with live := true, node := 2, prv := true, cause := Cause.preempt }
    let s : State := { jobWith [(2, go)] with d := { (jobWith [(2, go)]).d with saved := [(0, h)] } }
    let p : Placement := { node := 2, gang := 0, resv := 0, units := [{ slot := 3, sp := 0, tbase := 0, timer := 5 }], lparts := [] }
    let t0 := updateResv (setLparts (leaveSlots s) p.lparts)
    let held : Resv := { node := 3, gang := 0, inst := 0, since := 0 }
    let full : Nat := 15 * 2 ^ 272 + 15 * 2 ^ 280
    let low : Node := { plainNode .launch .running (launchRecord full) with counter := 1, limit := 1, nextGang := 1 }
    let high : Node := { plainNode .launch .queued (launchRecord (full + 2 ^ 264)) with counter := 1, limit := 1 }
    let j := jobWith [(2, low), (3, high)]
    let r : State :=
      { j with h := { Hart.reset with live := true, node := 2, lgmin := 16 }, c := { Core.reset with na := 16 },
               d := { j.d with resv := [held], cycle := 2 ^ 20 } }
    let big : Node := { plainNode .launch .queued (launchRecord (8 * 2 ^ 176)) with counter := 9, limit := 9 }
    let size := min (Rec.gang high.record) (high.limit - held.gang * Rec.gang high.record)
    savedGang (leaveSlots s).d 2 = [(0, h)] ∧ inOrder t0.d 2 go = true ∧ reached t0 (2, go) = true ∧ slotsFit t0 (2, go) (p.units.map (·.slot)) = true ∧
      groupsFree t0 ([(0, h)].zip p.units) = true ∧ (p.gang = 0 ∧ h.gang = 0) ∧ [(0, h)][0]? = some (0, h) ∧ p.units[0]?.isSome = true ∧
      reserves (updateResv r).d held high ∧ held.since + 2 ^ 20 ≤ r.d.cycle.toNat ∧ ¬ size ≤ instanceRoom r high.record (fun _ => true) 0 ∧
      (distinct [0] = true ∧ distinct [0, 0] = false) ∧
      r.liveHarts.filter (preemptable r (held, high)) = [0] ∧ (firstStuck (jobWith [(2, big)])).map (·.1) = some 2 ∧
      instanceToReserve (jobWith [(2, big)]) (Rec.seam big.record) = some 0 ∧ gangOf r (r.hart 0) = [0] ∧ ([0].find? fun i => [0].all fun j => preemptBefore r j i) = some 0 ∧
      size ≤ instanceRoom (without r [0]) high.record (fun _ => true) 0 ∧ ¬ size ≤ instanceRoom (without r []) high.record (fun _ => true) 0 ∧
      clusterFree r 1 = true ∧ clusterFree r 0 = false ∧ r.d.fused.getLsbD 1 ≠ ((1 : BitVec 1) == 1) := by
  intro go h s p t0 held full low high j r big size
  refine ⟨?_, ?_, ?_, ?_, ?_, ?_, ?_, ?_, ⟨?_, ⟨?_, ?_, ?_, .inl ?_⟩, 0, ?_⟩, ?_⟩
  all_goals and_intros <;> decide +kernel

/-- A unit that is cancelled and one that is not; a remote atomic that holds one; a handler of a trap, of an interrupt, and of a hart that has halted. -/
theorem test_meets_SchedulerEvents_end :
    let c : Hart := { Hart.reset with live := true, cancelled := true }
    let w : Hart := { c with wait := some (.remote true none) }
    let u : Hart := { Hart.reset with live := true, prv := true, cause := 0x0F }
    let s (h : Hart) : State := focus { jobWith [] with h := h } 0
    ((s c).h.live = true ∧ (s c).h.cancelled = true ∧ ∀ r, (s c).h.wait ≠ some (.remote true r)) ∧ (s u).h.cancelled = false ∧
      (s w).h.wait = some (.remote true none) ∧ ((s u).h.live = true ∧ (s u).h.halted = false ∧ (s u).h.prv = true ∧ (s u).h.cause.toNat < 0x10) ∧
      0x10 ≤ (s { u with cause := Cause.preempt }).h.cause.toNat ∧ (s { u with halted := true }).h.halted = true ∧ (s Hart.reset).h.live = false := by
  refine ⟨⟨?_, ?_, fun r => nofun⟩, ?_⟩ <;> and_intros <;> decide +kernel

/-- A mailbox that is there and one that is not, a full one; the words of a receive with a message and without; a message on its way. -/
theorem test_meets_MessageWords :
    let id : Word := BitVec.ofNat 64 (2 * 2 ^ 32)
    let s0 := launcher [(2, plainNode .launch .running 0)] 0 0
    let m : Message := { sender := 7, pairs := [(1, 2)], pod := false }
    let s : State := { s0 with h := { s0.h with node := 2 } }
    let named (id : Word) : Prop := id.toNat / 2 ^ 32 % 2 ^ 16 ≠ 0 ∧ id.toNat / 2 ^ 48 % 2 ^ 4 = 0
    let other : Word := BitVec.ofNat 64 (3 * 2 ^ 32)
    let fl (n : Nat) : State := { s with d := { s.d with flight := List.replicate n (2, id, m) } }
    let two : State := { s with d := { s.d with flight := [(2, id, m), (2, id, { m with sender := 8 }), (2, id, m)] } }
    let full : State := { fl 6 with h := { s.h with mbox := List.replicate 10 m } }
    let got : State := { fibreUnit with h := { fibreUnit.h with mbox := [m] } }
    s.h.lane = none ∧ (s.h.g = 0 ∨ ¬ isFibreType s) ∧ ¬ (fibreUnit.h.g = 0 ∨ ¬ isFibreType fibreUnit) ∧ fibreUnit.h.mbox = [] ∧ got.h.mbox = m :: [] ∧
      ¬ (got.h.g = 0 ∨ ¬ isFibreType got) ∧ named id ∧ ¬ named 0 ∧ ¬ named (BitVec.ofNat 64 (2 ^ 48 + 2 ^ 32)) ∧ id.extractLsb' 52 12 = s.d.pkg ∧
      (holderOf s id).map (·.node) = some 2 ∧ hasMailbox id s.h ∧ ¬ hasMailbox other s.h ∧ s.liveHarts = [s.hid] ∧ s.d.saved = [] ∧
      (Claims.entriesOf s id s.h = 0 ∧ Claims.entriesOf (fl 15) id s.h < 16 ∧ 16 ≤ Claims.entriesOf full id full.h) ∧ s.d.flight[0]? = none ∧
      two.d.flight[2]? = some (2, id, m) ∧ (∃ e ∈ two.d.flight.take 2, e.1 = 2 ∧ e.2.1 = id ∧ e.2.2.sender = m.sender) ∧
      two.d.flight[1]? = some (2, id, { m with sender := 8 }) ∧ (∀ e ∈ two.d.flight.take 1, ¬ (e.1 = 2 ∧ e.2.1 = id ∧ e.2.2.sender = 8)) ∧
      s.hid ∈ s.liveHarts ∧ s.h.node = 2 ∧ ((3 : BitVec 48) ≠ s.h.node) ∧ m.pod = false ∧
      (({ m with pod := true } : Message).pod = true ∧ ({ got with h := { got.h with remote := 1 } } : State).h.remote ≠ 0) := by
  simp only [isFibreType, hasMailbox, Claims.entriesOf]; and_intros <;> decide +kernel

/-- No unit is live or saved, so none has a mailbox. -/
theorem test_meets_MessageWords_none : let s := jobWith []; let id : Word := BitVec.ofNat 64 (2 * 2 ^ 32)
    (∀ q, (s.hart q).live = true → ¬ hasMailbox id (s.hart q)) ∧ (∀ e ∈ s.d.saved, ¬ hasMailbox id e.2) := by
  intro s id
  have h (q : BitVec 11) : s.hart q = Hart.reset := by
    show (if q = 0 then Hart.reset else Hart.reset) = _
    split <;> rfl
  exact ⟨fun q e => absurd ((h q) ▸ e) (by decide +kernel), fun _ h => absurd h List.not_mem_nil⟩

/-- A package in a pod, toward one of its neighbours. -/
def podUnit : State := let s := launcher [(2, plainNode .launch .running 0)] 0 0
  { s with d := { s.d with inPod := true } }

/-- The neighbour in x is in reach while the port toward it is in service. -/
theorem podUnit_inReach : inReach podUnit 1 ∧ ¬ inReach { podUnit with d := { podUnit.d with ports := 0 } } 1 ∧ ¬ inReach (jobWith []) 1 := by
  refine ⟨⟨?_, 0, 0, ⟨?_, ?_, ?_, ?_⟩, ?_, ?_⟩, ?_, ?_⟩
  case refine_8 => rintro ⟨-, dim, neg, -, -, h⟩; exact absurd h (by simp)
  case refine_9 => rintro ⟨h, -⟩; exact nomatch h
  all_goals decide +kernel

/-- Another package that is in reach, and its answers. -/
theorem test_meets_MessageWords_away :
    let there : Word := BitVec.ofNat 64 (2 ^ 52 + 2 ^ 32)
    let s (w : Option Wait) (n : Nat) : State := { podUnit with h := { podUnit.h with wait := w, remote := n } }
    there.extractLsb' 52 12 = (1#12) ∧ there.extractLsb' 52 12 ≠ podUnit.d.pkg ∧ (∀ r, (s none 0).h.wait ≠ some (.mailbox (some r))) ∧
      (s (some (.mailbox (some false))) 0).h.wait = some (.mailbox (some false)) ∧ (s (some (.mailbox (some true))) 0).h.remote = 0 ∧
      (s (some (.mailbox (some true))) 1).h.remote ≠ 0 := by
  refine ⟨?_, ?_, fun r => nofun, ?_⟩ <;> and_intros <;> decide +kernel

/-- A send that waits, and the grant that lets it run; a receive that waits. -/
theorem test_meets_MessageWords_waits :
    let asked (s : State) : State := focus { s with h := { s.h with wait := some (.mailbox none) } } 0
    let u := asked ((launcher [] 0 0).withFetchWord 32 (encode (.msendw 5 6 7)).toNat)
    let v := asked (fibreUnit.withFetchWord 32 (encode (.msend 5 6 1)).toNat)
    let fetched (u : State) (i : Instr) (ok : State → Bool) : Bool := match fetch u u.h.pc with
      | .ok (w, t) => decide (w = encode i) && ok t
      | .error _ => false
    u.h.wait = some (.mailbox none) ∧ u.h.lane = none ∧ v.h.wait = some (.mailbox none) ∧ v.h.lane = none ∧ (focus padUnit 0).h.wait ≠ some (.mailbox none) ∧
      fetched u (.msendw 5 6 7) (fun _ => true) = true ∧
      fetched v (.msend 5 6 1) (fun t => t.h.g != 0 && t.h.ew == 32 && fmtFibre t.h.fmt) = true ∧
      waitsAt fibreUnit .message (.mrecv 1 2) = true := by and_intros <;> decide +kernel

/-- Counter ids of each kind, at home and away. -/
theorem test_meets_PodWords :
    let s := podUnit
    let formed (id : Word) : Prop := id.toNat < 2 ^ 44 ∧ id.toNat / 2 ^ 16 % 2 ^ 16 = 0
    let here : Word := 5
    let there : Word := BitVec.ofNat 64 (2 ^ 32 + 5)
    s.h.lane = none ∧ ¬ formed (BitVec.ofNat 64 (2 ^ 44)) ∧ ¬ formed 0x10000 ∧ formed 0 ∧ formed here ∧ formed there ∧ formed (BitVec.ofNat 64 (2 ^ 44 - 2 ^ 32)) ∧
      here.extractLsb' 32 12 = s.d.pkg ∧ there.extractLsb' 32 12 = (1#12) ∧ (1#12) ≠ s.d.pkg ∧ s.h.remote = 0 ∧ Sparse.wf 0 s.d.ctrs = true ∧
      (0 : Word).toNat ≤ (s.d.ctr 5).toNat ∧ (s.d.ctr 5).toNat < (1 : Word).toNat ∧ ({ s with h := { s.h with remote := 1 } } : State).h.remote ≠ 0 := by and_intros <;> decide +kernel

/-- An atomic at its home that completes, that is misaligned and that is refused there; a wait with no answer, an answer and an error. -/
theorem test_meets_PodWords_atomic :
    let s := mapped [0x40000, 0xFFFFFFFFFFF00000]
    let f (old : Nat) : Option Nat := amoNew 0 64 old 1 2
    let w (r : Option (Word × BitVec 8)) : State := { podUnit with h := { podUnit.h with wait := some (.remote true r), remote := 1 } }
    s.h.lane = none ∧ (reg s 1).toNat % 8 = 0 ∧ (reg s 1).extractLsb' 52 12 = s.d.pkg ∧
      (match place s .atomic 0x40000 8 with
       | .ok (.mem pa leaf, t) => isOk (atomicMem t 0x40000 pa 8 7 leaf f) &&
           isTrap (atomicMem { t with d := { t.d with poison := [(0x40000 / 32, 0)] } } 0x40000 pa 8 7 leaf f)
       | _ => false) = true ∧
      isWait .memory (place { s with d := { s.d with stacksOut := 0xFFF } } .atomic 0x40000 8) = true ∧
      isTrap (place (mappedBy 0 []) .atomic 0x40000 8) = true ∧ (0x40001 : Word).toNat % 8 ≠ 0 ∧ (2 ^ 52 : Word).extractLsb' 52 12 = (1#12) ∧
      (w none).h.wait = some (.remote true none) ∧ (w (some (3, 0))).h.wait = some (.remote true (some (3, 0))) ∧
      (w (some (3, 1))).h.wait = some (.remote true (some (3, 1))) ∧ (1 : BitVec 8) ≠ 0 ∧ podUnit.h.wait = none ∧ (w none).h.remote ≠ 0 := by
  and_intros <;> decide +kernel

/-- Operations that come in: atomics that act and that do not, messages whole and in pairs, for a mailbox with an entry, without one, and for none. -/
theorem test_meets_PodWords_arrivals :
    let n : Node := { plainNode .launch .running 0 with ptroot := 0x10000 }
    let b := mapped [0x40000]
    let s : State := { b with d := { b.d with inPod := true, nodes := [(2, n)], podin := [(0x200000000, 9, 1, 2)] }, h := { b.h with node := 2 } }
    let full : State := { s with h := { s.h with mbox := List.replicate 16 { sender := 1, pairs := [], pod := true } } }
    let id : Word := BitVec.ofNat 64 (2 * 2 ^ 32)
    let granted : State := { s with d := { s.d with podgrant := [(2, id, 9)] } }
    (jobWith []).d.inPod = false ∧ s.d.inPod = true ∧ (1 : BitVec 12) ≠ s.d.pkg ∧ (1 : BitVec 5).toNat < 16 ∧ rootOf s.d 0 = some 0x10000 ∧ rootOf s.d 1 = none ∧
      isOk (podAtomic true s 0 0x10000 false 1 0x40000 1 0) = true ∧ isTrap (podAtomic true s 0 0x10000 false 1 0xFFFFFFFFFFF00000 1 0) = true ∧
      (5 : Word).toNat % 2 ^ 16 ≠ 0 ∧ 21 < (22 : BitVec 5).toNat ∧ (holderOf s 0).isNone = true ∧ s.d.podgrant = [] ∧ granted.d.podgrant = [] ++ (2, id, 9) :: [] ∧
      ((holderOf s id).map fun r => decide (r.mbox = [])) = some true ∧ Claims.entriesOf s id s.h < 16 ∧ 16 ≤ Claims.entriesOf full id full.h ∧
      (s.d.podin.filter fun e => decide (e.1 = id ∧ e.2.1 = 9)) = s.d.podin := by
  simp only [Claims.entriesOf]; and_intros <;> decide +kernel

/-- An answer that comes back: to the one operation of a hart that waits, to an older one, to one that does not wait, and to none. -/
theorem test_meets_PodWords_answers :
    let o (h : BitVec 11) : Outgoing := { hart := h, op := 0, addr := 0, b := 0, b2 := 0, msg := none }
    let s (w : Option Wait) (l : List Outgoing) : State := focus { podUnit with h := { podUnit.h with wait := w, remote := 2 }, d := { podUnit.d with podout := l } } 0
    let w : Option Wait := some (.remote true none)
    (s w [o 0, o 0]).h.wait = some (.remote true none) ∧ (s w [o 0, o 0]).d.podout = [o 0] ++ o 0 :: [] ∧ (o 0).hart = (s w []).hid ∧
      (∀ p ∈ ([] : List Outgoing), p.hart ≠ (s w []).hid) ∧ (s w [o 0, o 0]).d.podout = [] ++ o 0 :: [o 0] ∧ (∃ p ∈ [o 0], p.hart = (s w []).hid) ∧
      (∀ k, (s none [o 0]).h.wait ≠ some (.remote k none)) ∧ (s none [o 0]).d.podout = [] ++ o 0 :: [] ∧
      (∀ p ∈ (s w [o 3]).d.podout, p.hart ≠ (s w [o 3]).hid) := by
  refine ⟨?_, ?_, ?_, ?_, ?_, ?_, fun k => nofun, ?_⟩ <;> and_intros <;> decide +kernel

/-- Register values at the edges of what they accept, in stage 0 and after it; accesses that reach memory, that pass its end and that wait. -/
theorem test_meets_HostEvents :
    let s (st : BitVec 3) : State := { State.reset with d := { Device.reset with stage := st, bar2base := 0x40000000 } }
    let log : State := { State.reset with d := { Device.reset with log := [(0, (5, 3))], stage := 1 } }
    let waits (s : State) : Prop := ∃ i, i < 2 ^ 3 ∧ (8 : Word).toNat + i < 2 ^ s.d.bar2log ∧ underRepair s.d (s.d.bar2base.toNat + (8 : Word).toNat + i) = true
    let reached (s : State) (a : Nat) : Prop := 0x40000008 ≤ a ∧ a < 0x40000008 + 2 ^ 3 ∧ a < s.d.bar2base.toNat + 2 ^ s.d.bar2log ∧ a < 0x9000000000 ∧
      (s.d.stage = 0 → a < 2 ^ 30)
    ¬ waits (s 2) ∧ waits { s 2 with d := { (s 2).d with stacksOut := 0xFFF } } ∧ reached (s 2) 0x40000008 ∧ ¬ reached (s 0) 0x40000008 ∧
      ¬ reached (s 2) 0x40000010 ∧ Memory.wf (s 2).d.mem = true ∧ (s 0).d.stage = 0 ∧ (s 2).d.stage ≠ 0 ∧ (s 2).d.bar2log = 30 ∧
      (0x40000000 : Word).toNat % 2 ^ 30 = 0 ∧ (0x40000008 : Word).toNat % 2 ^ 30 ≠ 0 ∧
      (30 ≤ (30 : BitVec 6).toNat ∧ (40 : BitVec 6).toNat ≤ 40 ∧ 40 < (41 : BitVec 6).toNat ∧ (29 : BitVec 6).toNat < 30) ∧
      (0xF000 ≤ (0xF000 : BitVec 16).toNat ∧ 0 < (0xEFFF : BitVec 16).toNat ∧ (0xEFFF : BitVec 16).toNat < 0xF000) ∧
      (s 2).liveHarts = [] ∧ (unitWith []).liveHarts ≠ [] ∧ (s 2).d.saved = [] ∧ ({ (s 2).d with saved := [(0, Hart.reset)] } : Device).saved ≠ [] ∧
      ((11 : BitVec 4).toNat < 12 ∧ log.d.ports.getLsbD 11 ≠ ((0 : BitVec 1) == 1) ∧ log.d.ports.getLsbD 11 = ((1 : BitVec 1) == 1)) ∧
      sfind log.d.log 0 = some (5, 3) ∧ sfind log.d.log 1 = none ∧ (4 : BitVec 3).toNat < 5 ∧ 5 ≤ (5 : BitVec 3).toNat := by
  and_intros <;> decide +kernel

/-- An entry of the log that is lost to the next, and a log that loses none. -/
theorem test_meets_HostEvents_log :
    let lost (d : Device) : Prop := ∃ e, sfind d.log (d.logHead.toNat % 1024) = some e ∧ e.2.getLsbD 0 = true
    lost { Device.reset with log := [(0, (5, 3))] } ∧ ¬ lost Device.reset := by
  refine ⟨⟨(5, 3), ?_⟩, fun ⟨e, h, _⟩ => absurd h (by rw [show sfind Device.reset.log _ = none from rfl]; exact nofun)⟩
  and_intros <;> decide +kernel

/-- Job starts that are refused for each reason, and one whose root record is accepted. -/
theorem test_meets_HostEvents_go :
    let s (st : BitVec 3) (r : JobReg) (m : Memory) : State := { State.reset with d := { Device.reset with stage := st, jobs := [(0, r)], mem := m } }
    let r : JobReg := { JobReg.reset with record := 0x1000 }
    let bad (r : JobReg) : Prop := r.record.toNat % 64 ≠ 0 ∨ 0x9000000000 ≤ r.record.toNat ∨ 2 ^ 16 ≤ r.jobtl.toNat
    let check (s : State) : Nat := checkRecord { s.d with nodes := [(1, { plainNode .job .running 0 with job := 1, counter := 0 })] }
      (BitVec.ofNat 512 (Memory.read s.d.mem 0x1000 64)) 1
    (jobReg (s 2 { r with live := true } []).d 0).live = true ∧ (jobReg (s 2 r []).d 0).live = false ∧ (s 1 r []).d.stage.toNat < 2 ∧
      2 ≤ (s 2 r []).d.stage.toNat ∧ bad { r with record := 0x1008 } ∧ bad { r with record := 0x9000000000 } ∧ bad { r with jobtl := 0x10000 } ∧
      ¬ bad { r with jobtl := 0xFFFF, record := 0x8FFFFFFFC0 } ∧ underRepair (s 2 r []).d r.record.toNat = false ∧
      underRepair { (s 2 r []).d with stacksOut := 0xFFF } r.record.toNat = true ∧ freeSlot (s 2 r []).d = some 1 ∧ nextId (s 2 r []).d 1 = 1 ∧ check (s 2 r []) = 1 ∧
      check (s 2 r (Memory.write [] 0x1000 64 (launchRecord 0).toNat)) = 0 := by
  and_intros <;> decide +kernel

/-- SHA-256 of the three bytes "abc", and of the empty string (FIPS 180-4). -/
theorem test_sha256 :
    digestNumber (sha256 0x636261 3) = 0xBA7816BF8F01CFEA414140DE5DAE2223B00361A396177A9CB410FF61F20015AD ∧
      digestNumber (sha256 0 0) = 0xE3B0C44298FC1C149AFBF4C8996FB92427AE41E4649B934CA495991B7852B855 := by decide +kernel

/-- Loads that are turned away and one that goes; an image of bad and one of good format; stages. -/
theorem test_meets_FirmwareAndCheckpointEvents :
    let d (l len : Nat) (st : BitVec 3) (b : Bool) : Device :=
      { Device.reset with laddr := BitVec.ofNat 64 l, llen := BitVec.ofNat 32 len, stage := st, lbusy := b }
    let badRange (d : Device) : Prop :=
      d.laddr.toNat % 4096 ≠ 0 ∨ d.llen.toNat % 4096 ≠ 0 ∨ 0x10000000 < d.llen.toNat ∨ 0x40000000 ≤ d.laddr.toNat ∨ 0x40000000 < d.laddr.toNat + d.llen.toNat
    let badFormat (d : Device) : Prop :=
      let rd (o n : Nat) : Nat := Memory.read d.mem (d.laddr.toNat + o) n
      rd 0 4 ≠ 0x46574E58 ∨ rd 4 4 ≠ 1 ∨ rd 0x018 40 ≠ 0 ∨ rd 0x1C4 60 ≠ 0 ∨ rd 0x008 8 ≤ rd 0x010 8 ∨ d.llen.toNat < 0x200 + rd 0x008 8 + 384
    let image : Device := { d 0 0x1000 0 true with mem := Memory.write (Memory.write [] 0 8 0x146574E58) 8 8 1 }
    badRange (d 0x800 0x1000 0 false) ∧ badRange (d 0 0x10001000 0 false) ∧ ¬ badRange (d 0x30000000 0x10000000 0 false) ∧ badRange (d 0x30001000 0x10000000 0 false) ∧
      badRange (d 0x40000000 0 0 false) ∧ badFormat (d 0 0x1000 0 true) ∧ ¬ badFormat image ∧ image.lbusy = true ∧ verifyImage (d 0 0x1000 0 true) ≠ 3 ∧
      (d 0 0 1 false).stage = 1 ∧ (d 0 0 2 false).stage = 2 ∧ (d 0 0 0 false).abusy = false ∧ (d 0 0 0 false).lbusy = false ∧ (d 0 0 0 false).stage = 0 ∧
      (383 : Nat) < 384 := by
  and_intros <;> decide +kernel

/-- Of two images of good format with different keys one is refused for its key, whatever the key digest is (log 9). That an image is accepted rests on that
digest, so it has no concrete witness. -/
theorem test_meets_FirmwareAndCheckpointEvents_key :
    let image (key : Nat) : Device := { Device.reset with
      llen := 0x1000, lbusy := true, mem := Memory.write (Memory.write (Memory.write [] 0 8 0x146574E58) 8 8 1) 0x40 1 key }
    ∃ k, k < 2 ∧ sha256 (Memory.read (image k).mem 0x40 388) 388 ≠ Config.keyDigest := by
  have h : sha256 0 388 ≠ sha256 1 388 := by decide +kernel
  have e (k : Nat) (hk : k < 2) : Memory.read (Memory.write (Memory.write (Memory.write [] 0 8 0x146574E58) 8 8 1) 0x40 1 k) 0x40 388 = k :=
    match k, hk with
    | 0, _ => by decide +kernel
    | 1, _ => by decide +kernel
  intro image
  by_cases z : sha256 0 388 = Config.keyDigest
  · exact ⟨1, by decide, fun y => h (z.trans ((congrArg (sha256 · 388) (e 1 (by decide))).symm.trans y).symm)⟩
  · exact ⟨0, by decide, fun y => z ((congrArg (sha256 · 388) (e 0 (by decide))).symm.trans y)⟩

/-- A checkpoint in each state: with a job and a phase, without, with a unit of the job; a destination in reach and out of it; a frame of the last number. -/
theorem test_meets_FirmwareAndCheckpointEvents_checkpoint :
    let ph (st : NodeState) : State := jobWith [(2, plainNode .phase st 0)]
    let k : Ckpt := { Ckpt.reset with job := 1, phase := 2, dlen := 618475290624000, ctr := 7, dst := BitVec.ofNat 64 (2 ^ 52) }
    let big := 2 ^ 30 * 576 + 2 ^ 20 * 576
    let c (k : Ckpt) (pod : Bool) : State := { ph .running with d := { (ph .running).d with ckpt := k, inPod := pod } }
    let u := (c { k with stream := true } true).d
    liveNode (ph .running).d 2 = some (plainNode .phase .running 0) ∧ liveNode (ph .running).d 1 = some (plainNode .job .running 0) ∧
      liveNode (ph .complete).d 2 = none ∧ jobHasUnit (ph .complete) 1 = false ∧ jobHasUnit (launcher [] 0 0) 1 = true ∧ liveNode (ph .running).d 3 = none ∧
      Ckpt.reset.dlen.toNat < big ∧ big ≤ k.dlen.toNat ∧ (k.armed = false ∧ k.stream = false) ∧ (ph .running).d.stage ≠ 0 ∧
      (k.job.toNat < 2 ^ 48 ∧ k.phase.toNat < 2 ^ 48) ∧ destinationReached (c k true).d = true ∧ destinationReached (c k false).d = false ∧
      underRepair u 0 = false ∧ underRepair { u with stacksOut := 0xFFF } 0 = true ∧ (150994943 : BitVec 28).toNat < 150994944 ∧ 150994944 ≤ (150994944 : BitVec 28).toNat ∧
      (∀ e ∈ (streamFrame u 0).mem, e.1 / 4096 ∈ (streamFrame u 0).ckpt.streamed) ∧ (1 ≠ 2) ∧ (0 < k.ctr.toNat ∧ k.ctr.toNat < 2 ^ 16) ∧
      ((c k true).d.ctr 7).toNat + 1 < 2 ^ 64 ∧ Memory.wf u.mem = true ∧ Memory.wf u.ckpt.sink = true ∧ Sparse.wf 0 u.ckpt.lens = true ∧
      u.ckpt.stream = true ∧ 0 ∉ u.ckpt.streamed ∧ (0x30 : Nat) / 4096 = 0 := by
  and_intros <;> decide +kernel

/-- Lines that may leave and are locked; held writes with and without an older one; counts at and below their threshold. -/
theorem test_meets_DeviceEvents :
    let l (k : List Nat) : Line := { tag := 0x800, data := 0, dirty := 5, ptr := false, locks := k, valid := true, poison := [], atom := 0 }
    let s (k : List Nat) : State := { State.reset with d := { Device.reset with l1 := [(setKey Device.reset 0 0x40000, [l k])] } }
    let w (c : Nat) : Held := { layer := 0, line := 2, dirty := 5, data := 5, poison := [], clock := (Vector.replicate 16 0).set 0 c }
    let held : Device := { Device.reset with held := [w 1, w 2] }
    lineOf (sget (s []).d.l1 (setKey (s []).d 0 (0x800 * 128)) []) 0x800 = some (l []) ∧ (l [3]).locks ≠ [] ∧ (l []).dirty ≠ 0 ∧ held.held[1]? = some (w 2) ∧
      held.held[2]? = none ∧ 2 ≤ held.held.length ∧ covers (w 2).clock (w 1) = true ∧ covers (w 1).clock (w 2) = false ∧
      homeLayer held ((w 1).line * 128) = homeLayer held ((w 2).line * 128) ∧ Memory.wf held.mem = true ∧ (w 1).dirty.getLsbD (64 / 32) = true ∧
      (w 1).dirty.getLsbD (32 / 32) = false ∧ (4 : BitVec 8).toNat = (4 : Fin 5).val ∧ 5 ≤ (5 : BitVec 8).toNat ∧
      (({ Device.reset with cthresh := Vector.replicate 5 1 } : Device).cthresh[0]).toNat = min ((0 : Nat) + 1) (2 ^ 32 - 1) ∧
      (0xBFFC0 : Word).toNat < 0xC0000 ∧ 0xC0000 ≤ (0xC0000 : Word).toNat ∧ (0x8FFFFFFFFF : Word).toNat < 0x9000000000 ∧
      (2 : BitVec 11) = (0 : BitVec 8) ++ ((2 : Word).setWidth 3 : BitVec 3) ∧
      ((focus (unitWith []) 0).h.live = true ∧ (focus (unitWith []) 0).h.halted = false) ∧ atWord (focus (unitWith []) 0) ∧ Sparse.wf 0 Device.reset.tele = true := by
  simp only [atWord]; and_intros <;> decide +kernel

/-- A matrix word that completes, at which an error of its data is found. -/
theorem test_meets_DeviceEvents_matrix :
    (match matrixWord (encode (.mmaSet 0 1 2 3)) matrixUnit with
     | some (.next t) => t.h.live && !t.h.halted && t.h.region.isNone && t.h.lane.isNone && t.h.wait.isNone
     | _ => false) = true := by decide +kernel

/-- Blocks that may leave, with a unit on them and without, blocks that may not, and blocks that return. -/
theorem test_meets_DeviceEvents_blocks :
    let s : State := { jobWith [] with d := { (jobWith []).d with layersOut := 4 } }
    let on : State := { unitWith [] with d := { (unitWith []).d with stage := 3 } }
    let mayLeave (s : State) (ls : List Nat) : Prop := (∃ l ∈ ls, s.d.layersOut.getLsbD l = false) ∧ ∃ l, l < 16 ∧ l ∉ ls ∧ s.d.layersOut.getLsbD l = false
    mayLeave s [3] ∧ ¬ mayLeave s [2] ∧ ¬ mayLeave s [] ∧ (∀ i ∈ s.liveHarts, layerOf i ∉ [3]) ∧ keysRise s.parked ∧
      mayLeave on [0] ∧ ¬ (∀ i ∈ on.liveHarts, layerOf i ∉ [0]) ∧ (∃ i ∈ on.liveHarts, layerOf i ∈ [0] ∧ (on.core (coreOf i)).lease = none) ∧
      (∀ l ∈ [3], s.d.layersOut.getLsbD l = false) ∧ (∃ l ∈ [2], s.d.layersOut.getLsbD l = true) ∧ ((2 : BitVec 2) = 2 ∧ (1 : BitVec 2) ≠ 2) ∧
      (11 : BitVec 5).toNat < 12 ∧ 12 ≤ (12 : BitVec 5).toNat ∧ (∃ l, l < 16 ∧ s.d.layersOut.getLsbD l = false) ∧ homeLayer s.d 0 = 0 ∧
      homeLayer { s.d with layersOut := 1 } 0 = 1 := by
  simp only [keysRise]; and_intros <;> decide +kernel

/-- Every word of the samples is of a well-formed instruction; no event is. -/
theorem test_meets_DecodeEncodeAgree : ∀ i ∈ [Instr.addi 0 0 0, .vldx 0 3 8 2 0 0 2, .mmaAccSp 0 2 10 11, .seamRead 3 1 5], i.wellFormed = true := by decide +kernel

/-- Turns from an empty schedule and from a schedule; fetches that answer and trap; a word that stage 2 does not offer; interrupts; a region; events. -/
theorem test_meets_StepRunsDecodedWord :
    let word (w : Nat) (t : List Turn) : State := { (unitWith [1]).withFetchWord 32 w with turns := t }
    let starts (s : State) : Option State := match exec (.timerExpiry s.hid) (beginTurn (freshMarks s) (some s.hid.toNat) (some (hartPort (freshMarks s))) 1) with | .next u => some u | _ => none
    let fetched (u : State) : Option Insn := match fetch (noStop u) u.h.pc with | .ok (w, _) => some w | .error _ => none
    let u := (starts (word 0x03000000 [])).getD State.reset
    let region : Region := { base := 0, words := [], join := 0, yielded := [], last := [] }
    let h (f : Hart → Hart) : State := { u with h := f u.h }
    let two : State := { u with d := { u.d with stage := 2 } }
    (word 0 []).d.trip = false ∧ (word 0 []).turns = [] ∧ (starts (word 0x03000000 [])).isSome = true ∧ running' u ∧ u.h.region = none ∧ firstPending u.h = none ∧
      fetched u = some 0x03000000 ∧ (match decode 0x03000000 with | .ok i => decide (i = .addi 0 0 0) | .error _ => false) = true ∧ u.h.mstage.isOpen = false ∧
      (elementWord 0x03000000 = false ∧ vectorSide 0x03000000 = false ∧ elementWord 0x30110481 = true ∧ vectorSide 0x30110481 = true) ∧
      (u.h.owed = [] ∧ u.h.resumed = false) ∧ ¬ (u.d.stage = 2 ∧ notOffered 0x0F000010 u.h = true) ∧ (two.d.stage = 2 ∧ notOffered 0x0F000010 two.h = true) ∧
      (match decode 0 with | .error _ => true | .ok _ => false) = true ∧
      isTrap (fetch (h fun h => { h with pc := 0x0080000000000000 }) 0x0080000000000000) = true ∧ u.h.prv = false ∧
      firstPending (h fun h => { h with tpend := true, ie := true, ten := true }).h = some (Cause.timer, 0) ∧
      u.h.stop = none ∧ atWord u ∧
      (h fun h => { h with region := some region }).h.region = some region ∧ (h fun h => { h with cancelled := true }).h.cancelled = true ∧
      (word 0 [.event (.doorbell 0) 1]).turns = .event (.doorbell 0) 1 :: [] ∧ (word 0 [.run 0 1]).turns = .run 0 1 :: [] ∧
      (word 0 [.early 0 8 1]).turns = .early 0 8 1 :: [] ∧ ({ Device.reset with trip := true } : Device).trip = true := by
  simp only [running', atWord]; and_intros <;> decide +kernel

/-- A turn whose hart may take an interrupt. -/
theorem test_meets_StepRunsDecodedWord_interrupt :
    mayTake { unitWith [1] with h := { (unitWith [1]).h with tpend := true, ie := true, ten := true } } :=
  mayTake_of (by and_intros <;> decide +kernel) (.inl rfl)

/-- An element-wise word, one that joins a convoy, and an open convoy of `MMETA` words that the word closes; a handler whose first word is not there. -/
theorem test_meets_StepRunsDecodedWord_convoys :
    let ran (s : State) (w : Insn) : Bool := match exec (.vaddVv 0 3 1 2 0) (runFrom w s) with
      | .next v => decide (v.h.instret ≠ (runFrom w s).h.instret)
      | _ => false
    let s := vec 0x12
    let opened := staged (vec 0x12) (heldStores 1)
    let first := supervisor { padUnit with h := { padUnit.h with pc := 0x0080000000000000, tbase := 0x0080000000000000 } }
    ran s (encode (.vaddVv 0 3 1 2 0)) = true ∧ ran opened (encode (.vaddVv 0 3 1 2 0)) = true ∧ opened.h.mstage.isOpen = true ∧
      grantMoved opened opened = false ∧ waitsForMatrix (encode .halt) = true ∧ isTrap (fetch first first.h.pc) = true ∧ first.h.pc = first.h.tbase ∧
      first.h.prv = true := by and_intros <;> decide +kernel

/-- A word that would close an open convoy while a busy swatch holds back a store of the window, one that it does not hold back; a convoy to resume. -/
theorem test_meets_StepRunsDecodedWord_held :
    let w := encode (.fenceRel 2)
    let opened (s : State) : State := staged s (heldStores 1)
    let closes (s : State) : Bool := match exec (.fenceRel 2) (runFrom w s) with
      | .next v => !(ranOn w s v).h.mstage.isOpen
      | _ => false
    let s := vec 0x12
    let owing : State := { s with h := { s.h with owed := [(s.h.pc, 2)], resumed := true } }
    storesBlocked (opened fillingPad) = true ∧ storesBlocked (opened padUnit) = false ∧ closes (opened fillingPad) = true ∧ closes (opened padUnit) = true ∧
      (opened padUnit).h.lane = none ∧ (runFrom (encode (.vaddVv 1 3 1 2 0)) owing).h.vstart = 2 ∧ s.h.owed = [] := by and_intros <;> decide +kernel

/-- Words placed one after another where the machine fetches next. -/
def placed (s : State) (l : List Instr) : State :=
  let t := s.withFetchWord 32 0
  { t with d := { t.d with mem := (l.zipIdx.foldl (fun m e => Memory.write m (wordPlace + 4 * e.2) 4 (encode e.1).toNat) t.d.mem) } }

/-- A vector store behind an open convoy: with a fence behind it the convoy closes in its step; with a word behind it that waits it does not. -/
theorem test_meets_StepRunsDecodedWord_lasting :
    let w : Instr := .vst 0 3 1 0 0
    let s (l : List Instr) : State := staged (placed (vectorUnit 1 0x12 4 []) (w :: l)) { heldStores 0 with first := 0x2FFFC }
    let at' (s : State) : State := { s with h := { s.h with x := s.h.x.set 1 0xFFFFFFFFFFF00000 } }
    let ran (s : State) : Option State := match exec w (runFrom (encode w) s) with
      | .next v => some (ranOn (encode w) s v)
      | _ => none
    let z := (ran (at' (s [.fenceRel 2]))).getD State.reset
    let closes : Bool := match runToClose convoyReach z with
      | .closes (.next u) => !u.h.mstage.isOpen && u.h.pc == 0x30008 && u.h.instret == z.h.instret + 2
      | _ => false
    lastingWord (encode w) = true ∧ (s []).h.mstage.isOpen = true ∧ (s []).h.lane = none ∧ (ran (at' (s []))).isSome = true ∧
      z.h.wait = none ∧ z.h.mstage.isOpen = true ∧ storesBlocked (at' (s [])) = false ∧ closes = true ∧
      (storesBlocked (staged fillingPad (heldStores 1)) = true ∧ (staged fillingPad (heldStores 1)).h.lane = none) := by
  and_intros <;> decide +kernel

/-- A word fetched early, the line that a fetch finds, and a fetch from the home. -/
theorem test_meets_StepRunsDecodedWord_early :
    let s := (unitWith []).withFetchWord 32 0x03000000
    let e : EarlyWord := { addr := 8, ptroot := s.h.ptroot, asid := s.h.asid, prv := s.h.prv, word := 7 }
    let l : Line := { tag := 0x30000 / 128, data := 5, dirty := 0, ptr := false, locks := [], valid := true, poison := [], atom := 0 }
    let c : State := { s with d := { s.d with l1 := [(setKey s.d (coreOf s.hid) 0x30000, [l])] } }
    e.serves s.h 8 = true ∧ e.serves s.h 12 = false ∧ s.h.early = [] ∧ isOk (fetchNow s 0x30000) = true ∧ (s.h.live = true ∧ s.h.halted = false) ∧
      (match place s .fetch 0x30000 4 with
       | .ok (.mem pa _, t) => pa == 0x30000 && (lineOf (setAt t.d 0 pa) (pa / 128)).isNone && t.d.held.isEmpty && t.d.poison.isEmpty &&
           decide ((setAt t.d 0 pa).length < 8)
       | _ => false) = true ∧ 0x30000 % 128 + 4 ≤ 128 ∧
      (match place c .fetch 0x30000 4 with
       | .ok (.mem pa _, t) => decide (lineOf (setAt t.d (coreOf t.hid) pa) (pa / 128) = some l)
       | _ => false) = true := by and_intros <;> decide +kernel

/-- A step from the reset state, which meets the invariant. -/
theorem test_meets_StepKeepsSafe : (match step State.reset with | .next _ => true | _ => false) = true ∧
    (match step ((unitWith [1]).withFetchWord 32 0x03000000) with | .next _ => true | _ => false) = true := by decide +kernel

/-- A vector word, and a message of a fibre, at a hart without lane groups. -/
theorem test_meets_NoGrantTraps : (∀ i ∈ [Instr.vfmadd 1 5 1 2 0, .fmatch 0 2 0 1 11, .mmaAccSp 0 2 10 11], i.wellFormed = true ∧
    (0x22 ≤ (encode i).toNat / 2 ^ 24 % 2 ^ 7 ∧ (encode i).toNat / 2 ^ 24 % 2 ^ 7 ≤ 0x55)) ∧ needsGrant (.mrecv 1 2) ∧ (Instr.mrecv 1 2).wellFormed = true ∧
    (unitWith [1]).h.lane = none ∧ (unitWith [1]).h.g = 0 := by
  refine ⟨?_, .inr (.inr (.inr (.inl ⟨_, _, rfl⟩))), ?_⟩
  · decide +kernel
  · and_intros <;> decide +kernel

end Sys2Proof.Tests
end

section
/-!
PROOFS. CSR words and scratchpad accesses: what each shared operation of theirs gives, once.
-/

namespace Sys2Proof.Laws

open Sys2Proof.Machine Sys2Proof.Claims

/-! ## Rules of the x registers in the statements' vocabulary -/

/-- Outside a lane thread a word reads its source as the statements say. -/
theorem rx_eq_reg {s : State} (a : BitVec 6) (h : s.h.lane = none) : rx s a = reg s a := rx_out a h

/-- Outside a lane thread a word that writes x[d] and completes does what `wrote` says. -/
theorem done_wx_eq_wrote {s : State} (d : BitVec 6) (v : Word) (h : s.h.lane = none) : done (wx s d v) = wrote s d v := by
  rw [wx_out d v h]
  rfl

/-! ## What a CSR read gives -/

/-- The set bits that the model counts are those that the statements list. -/
theorem popCount_eq_length {w : Nat} (b : BitVec w) (n : Nat) : popCount b n = ((List.range n).filter fun i => b.getLsbD i).length := by
  induction n with
  | zero => rfl
  | succ n ih =>
    rw [popCount, ih, List.range_succ, List.filter_append, List.length_append, Nat.add_comm]
    by_cases hb : b.getLsbD n <;> simp [hb]

/-- A count of bits is at most the number of bits looked at. -/
theorem popCount_le {w : Nat} (b : BitVec w) (n : Nat) : popCount b n ≤ n := by
  rw [popCount_eq_length]
  exact Nat.le_trans (List.length_filter_le _ _) (Nat.le_of_eq List.length_range)

/-- A field that is not wider than a register reads as its number. -/
theorem toNat_setWidth_word {w : Nat} (v : BitVec w) (h : w ≤ 64) : (v.setWidth 64).toNat = v.toNat := by
  rw [BitVec.toNat_setWidth]
  exact Nat.mod_eq_of_lt (Nat.lt_of_lt_of_le v.isLt (Nat.pow_le_pow_right (by decide) h))

/-- The number of `FOCC[i]` (R29). -/
theorem foccNumber_toNat (i : Fin 16) : (0x010 + BitVec.ofNat 10 i).toNat = 0x010 + i.val := by
  rw [BitVec.toNat_add, BitVec.toNat_ofNat, show (0x010 : BitVec 10).toNat = 0x010 from rfl]
  omega

/-- The index in `FOCC` that its number stands for. -/
theorem lay_foccNumber (i : Fin 16) : lay ((0x010 + BitVec.ofNat 10 i).toNat - 0x010) = i := by
  rw [foccNumber_toNat, Nat.add_sub_cancel_left]
  exact Fin.ext (Nat.mod_eq_of_lt i.isLt)

theorem csrRead_focc (s : State) (i : Fin 16) : csrRead s (0x010 + BitVec.ofNat 10 i) = some ((s.h.focc[i]).setWidth 64) := by
  have hn := foccNumber_toNat i
  unfold csrRead
  dsimp only
  split
  case h_24 =>
    rw [if_pos (by omega)]
    simp only [lay_foccNumber]
  all_goals omega

/-- `LAT` holds the grant, its size and the two demands at their fields (R23). -/
theorem latWord_toNat (h : Hart) : (latWord h).toNat =
    h.gmap.toNat * 2 ^ 32 + (groupsOf h.gmap).length * 2 ^ 16 + h.lgmax.toNat * 2 ^ 8 + h.lgmin.toNat := by
  have hg : (groupsOf h.gmap).length = h.g := (popCount_eq_length h.gmap 16).symm
  have hle : h.g ≤ 16 := popCount_le h.gmap 16
  have hm := h.gmap.isLt
  have h1 := h.lgmax.isLt
  have h2 := h.lgmin.isLt
  rw [latWord, hg, BitVec.toNat_ofNat]
  omega

/-- `SEAMLOC` holds the generation, the package and the hart's place at their fields (R328). -/
theorem seamloc_toNat (s : State) : (seamloc s).toNat =
    s.d.gen.toNat * 2 ^ 48 + s.d.pkg.toNat * 2 ^ 36 + (if fusedAt s.d (coreOf s.hid) then 2 ^ 16 else 0) +
      s.hid.toNat / 2 ^ 10 * 2 ^ 15 + s.hid.toNat / 2 ^ 8 * 2 ^ 12 + s.hid.toNat / 2 ^ 7 * 2 ^ 8 + s.hid.toNat / 2 ^ 5 % 4 * 2 ^ 6 +
        s.hid.toNat / 2 ^ 3 % 4 * 2 ^ 4 := by
  have hg := s.d.gen.isLt
  have hp := s.d.pkg.isLt
  have hi := s.hid.isLt
  simp only [seamloc, layerOf, bits, BitVec.toNat_ofNat, BitVec.extractLsb'_toNat, Nat.shiftRight_eq_div_pow]
  split <;> omega

/-- `STATUS` holds privilege, enables and pending interrupts at their bits, and no other bit (R149). -/
theorem status_getLsbD (h : Hart) (i : Nat) (hi : i < 64) : h.status.getLsbD i =
    (if i = 0 then h.ie else if i = 1 then h.pie else if i = 2 then h.pprv else if i = 3 then h.prv else
     if i = 8 then h.ten else if i = 9 then h.een else if i = 10 then h.pen else
     if i = 16 then h.tpend else if i = 17 then decide (h.ext ≠ []) else if i = 18 then h.ppend else false) := by
  have flag (x : Bool) (k : Nat) : (if x then 1#64 <<< k else 0).getLsbD i = (x && decide (i = k)) := by
    cases x
    · simp
    · rw [if_pos rfl, ← BitVec.twoPow_eq, BitVec.getLsbD_twoPow]
      by_cases hk : i = k
      · subst hk
        simp [hi]
      · simp [hk, Ne.symm hk]
  have he : (!h.ext.isEmpty) = decide (h.ext ≠ []) := by
    cases h.ext <;> rfl
  simp only [Hart.status, BitVec.getLsbD_or, flag, he]
  repeat' split
  all_goals simp_all

/-- The numbers that read are those of R29's table. -/
theorem csrRead_eq_none_iff (s : State) (n : BitVec 10) : csrRead s n = none ↔
    ¬ (n.toNat < 8 ∨ (0x010 ≤ n.toNat ∧ n.toNat < 0x022) ∨ (0x030 ≤ n.toNat ∧ n.toNat < 0x034) ∨ n.toNat = 0x040 ∨ n.toNat = 0x041 ∨
       (0x100 ≤ n.toNat ∧ n.toNat < 0x107)) := by
  unfold csrRead
  dsimp only
  split
  case h_24 =>
    split
    · simp only [reduceCtorEq, false_iff, Decidable.not_not]; omega
    · simp only [imp_false] at *
      simp only [true_iff]; omega
  all_goals simp only [reduceCtorEq, false_iff, Decidable.not_not]; omega

/-- A register that is narrower than a word reads as its number. -/
theorem csrRead_field {s : State} {n : BitVec 10} {w : Nat} (v : BitVec w) (hr : csrRead s n = some (v.setWidth 64)) (hw : w ≤ 64) :
    ∃ u, csrRead s n = some u ∧ u.toNat = v.toNat :=
  ⟨_, hr, toNat_setWidth_word v hw⟩

/-- The number of `SMM` bits that are set reads as itself (R36). -/
theorem smmCount_toNat (h : Hart) : (BitVec.ofNat 64 (popCount h.smm 2048)).toNat = ((List.range 2048).filter fun e => h.smm.getLsbD e).length := by
  rw [BitVec.toNat_ofNat, Nat.mod_eq_of_lt (Nat.lt_of_le_of_lt (popCount_le h.smm 2048) (by decide)), popCount_eq_length]

theorem readsCsr (s : State) : ReadsCsr s :=
  ⟨⟨csrRead_field s.h.vl rfl (by decide), csrRead_field s.h.vtype rfl (by decide), csrRead_field s.h.vstart rfl (by decide), ⟨s.h.vpr, rfl, rfl⟩,
     csrRead_field s.h.vdirty rfl (by decide), csrRead_field s.h.fcsr rfl (by decide), csrRead_field s.h.mshape rfl (by decide),
     ⟨_, rfl, smmCount_toNat s.h⟩, fun i => csrRead_field s.h.focc[i] (csrRead_focc s i) (by decide)⟩,
   ⟨⟨_, rfl, latWord_toNat s.h⟩, csrRead_field s.c.na rfl (by decide), csrRead_field s.hid rfl (by decide), csrRead_field s.h.unit rfl (by decide),
     csrRead_field s.h.node rfl (by decide), ⟨_, rfl, seamloc_toNat s⟩, ⟨s.d.cycle, rfl, rfl⟩, ⟨s.h.instret, rfl, rfl⟩⟩,
   ⟨s.h.status, rfl, status_getLsbD s.h⟩,
   ⟨⟨s.h.epc, rfl, rfl⟩, csrRead_field s.h.cause rfl (by decide), ⟨s.h.tval, rfl, rfl⟩, ⟨s.h.tbase, rfl, rfl⟩,
     csrRead_field s.h.asid rfl (by decide), ⟨s.h.ptroot, rfl, rfl⟩⟩,
   csrRead_eq_none_iff s⟩

/-! ## What a CSR write does -/

theorem writeLpart_lane {s t : State} {v : Word} (h : writeLpart s v = .ok t) : t.h.lane = s.h.lane := by
  unfold writeLpart at h
  extract_lets at h
  split at h
  · cases h
  · cases h; rfl

theorem writeFocc_lane (h : Hart) (i : Fin 16) (v : Word) : (writeFocc h i v).lane = h.lane := by
  unfold writeFocc
  dsimp only
  split <;> rfl

theorem csrWrite_lane {s t : State} {n : BitVec 10} {v : Word} (h : csrWrite s n v = .ok t) : t.h.lane = s.h.lane := by
  unfold csrWrite at h
  dsimp only at h
  split at h
  case h_3 => cases h; split <;> rfl
  case h_7 =>
    split at h
    · exact writeLpart_lane h
    · cases h; rfl
  case h_15 =>
    cases h
    split
    · exact writeFocc_lane _ _ _
    · rfl
  all_goals cases h; rfl

/-- Every write ends at once but one of `LPART` (R16). -/
theorem csrWrite_ok {s : State} {n : BitVec 10} (v : Word) (h : n ≠ 0x021) : ∃ t, csrWrite s n v = .ok t := by
  unfold csrWrite
  dsimp only
  split
  case h_7 heq => exact absurd (BitVec.eq_of_toNat_eq heq) h
  all_goals exact ⟨_, rfl⟩

theorem csrWrite_alwaysReadOnly (s : State) (v : Word) : ∀ n ∈ alwaysReadOnly, csrWrite s n v = .ok s := by
  simp only [alwaysReadOnly, List.forall_mem_cons, List.not_mem_nil, false_implies, implies_true, and_true]
  and_intros <;> rfl

theorem csrWrite_userReadOnly {s : State} (v : Word) (h : s.h.prv = false) : ∀ n ∈ userReadOnly, csrWrite s n v = .ok s := by
  have hdirty : csrWrite s 0x004 v = .ok (if s.h.prv then { s with h := { s.h with vdirty := s.h.vdirty &&& ~~~(v.setWidth 40) } } else s) := rfl
  have hpart : csrWrite s 0x021 v = if s.h.prv then writeLpart s v else .ok s := rfl
  simp only [userReadOnly, List.forall_mem_cons, List.not_mem_nil, false_implies, implies_true, and_true, hdirty, hpart, h, Bool.false_eq_true,
    if_false, true_and]
  and_intros <;> rfl

/-- In supervisor mode a write of `VDIRTY` clears the bits that are 1 in the value (R32). -/
theorem csrWrite_vdirty {s : State} (v : Word) (h : s.h.prv = true) :
    csrWrite s 0x004 v = .ok { s with h := { s.h with vdirty := s.h.vdirty &&& ~~~(v.setWidth 40) } } := by
  have hdirty : csrWrite s 0x004 v = .ok (if s.h.prv then { s with h := { s.h with vdirty := s.h.vdirty &&& ~~~(v.setWidth 40) } } else s) := rfl
  rw [hdirty, if_pos h]

/-- A write of `FOCC[i]` goes to its entry (R33). -/
theorem csrWrite_focc (s : State) (i : Fin 16) (v : Word) : csrWrite s (0x010 + BitVec.ofNat 10 i) v = .ok { s with h := writeFocc s.h i v } := by
  have hn := foccNumber_toNat i
  unfold csrWrite
  dsimp only
  split
  case h_15 => rw [if_pos (by omega), lay_foccNumber]
  all_goals omega

/-- An occupancy that fits is stored (R33). -/
theorem writeFocc_fits {h : Hart} (i : Fin 16) {v : Word} (hv : v.toNat % 2 ^ 12 ≤ vlmax 32 h.g) :
    writeFocc h i v = { h with focc := h.focc.set i (v.setWidth 12) i.isLt } := by
  have hn : bits v 11 0 = v.toNat % 2 ^ 12 := BitVec.extractLsb'_toNat ..
  have hw : BitVec.ofNat 12 (v.toNat % 2 ^ 12) = v.setWidth 12 := BitVec.eq_of_toNat_eq (by simp)
  rw [writeFocc, hn, hw, if_neg (Nat.not_lt.mpr hv)]

/-- An occupancy above the capacity stores the capacity and sets FOVF (R33). -/
theorem writeFocc_over {h : Hart} (i : Fin 16) {v : Word} (hv : vlmax 32 h.g < v.toNat % 2 ^ 12) :
    writeFocc h i v = { h with focc := h.focc.set i (BitVec.ofNat 12 (vlmax 32 h.g)) i.isLt, fcsr := h.fcsr ||| Flag.fovf } := by
  have hn : bits v 11 0 = v.toNat % 2 ^ 12 := BitVec.extractLsb'_toNat ..
  rw [writeFocc, hn, if_pos hv]

/-- Replacing the low bits of a word keeps the number above them. -/
theorem putBits_zero_toNat {n l : Nat} (w : BitVec n) (v : BitVec l) (h : l ≤ n) :
    (putBits w 0 v).toNat = 2 ^ l * (w.toNat / 2 ^ l) + v.toNat := by
  refine Nat.eq_of_testBit_eq fun i => ?_
  rw [Nat.testBit_two_pow_mul_add _ v.isLt, Nat.testBit_div_two_pow, BitVec.testBit_toNat, BitVec.testBit_toNat, BitVec.testBit_toNat, putBits]
  simp only [BitVec.shiftLeft_zero, BitVec.getLsbD_or, BitVec.getLsbD_and, BitVec.getLsbD_not, BitVec.getLsbD_setWidth, BitVec.getLsbD_allOnes]
  by_cases hi : i < l
  · simp [hi, Nat.lt_of_lt_of_le hi h]
  · rw [if_neg hi, Nat.sub_add_cancel (Nat.le_of_not_lt hi), BitVec.getLsbD_of_ge v i (Nat.le_of_not_lt hi)]
    by_cases hn : i < n
    · simp [hi, hn]
    · simp [hn, BitVec.getLsbD_of_ge w i (Nat.le_of_not_lt hn)]

/-- A write of `FCSR` takes the flags and a rounding mode of 0 to 4 (R34). -/
theorem writeFcsr_toNat (h : Hart) (v : Word) : (writeFcsr h v).fcsr.toNat / 8 = v.toNat / 8 % 2 ^ 11 ∧
    (writeFcsr h v).fcsr.toNat % 8 = if v.toNat % 8 ≤ 4 then v.toNat % 8 else h.fcsr.toNat % 8 := by
  have hm : bits v 2 0 = v.toNat % 8 := BitVec.extractLsb'_toNat ..
  have hn : (v.setWidth 14).toNat = v.toNat % 2 ^ 14 := BitVec.toNat_setWidth ..
  have hr : h.rm.toNat = h.fcsr.toNat % 8 := BitVec.extractLsb'_toNat ..
  have hp := putBits_zero_toNat (v.setWidth 14) h.rm (by decide)
  rw [writeFcsr, hm]
  by_cases hv : v.toNat % 8 ≤ 4
  · rw [if_pos hv, if_neg (by omega), hn]
    omega
  · rw [if_neg hv, if_pos (by omega), hp, hn, hr]
    omega

/-- A field of `n` bits at bit `k`, cut out in its place. -/
theorem toNat_and_field {w : Nat} (v : BitVec w) (n k : Nat) (h : k + n ≤ w) :
    (v &&& BitVec.ofNat w (2 ^ k * (2 ^ n - 1))).toNat = v.toNat / 2 ^ k % 2 ^ n * 2 ^ k := by
  refine Nat.eq_of_testBit_eq fun i => ?_
  rw [BitVec.toNat_and, BitVec.toNat_ofNat, Nat.testBit_and, Nat.testBit_mod_two_pow, Nat.testBit_two_pow_mul, Nat.testBit_two_pow_sub_one,
    Nat.testBit_mul_two_pow, Nat.testBit_mod_two_pow, Nat.testBit_div_two_pow]
  by_cases hk : k ≤ i
  · by_cases hn : i - k < n
    · simp [hk, hn, show i < w by omega]
    · simp [hk, hn]
  · simp [hk]

/-- A write of `MSHAPE` stores every bit but the two reserved ones (R88). -/
theorem mshapeMask_getLsbD (v : Word) {i : Nat} (hi : i < 44) :
    (v.setWidth 44 &&& 0xFFFFFFF7F7F#44).getLsbD i = (v.getLsbD i && i != 7 && i != 15) := by
  have hmask : ∀ j < 44, (0xFFFFFFF7F7F#44).getLsbD j = (j != 7 && j != 15) := by decide
  rw [BitVec.getLsbD_and, hmask i hi, BitVec.getLsbD_setWidth, decide_eq_true hi, Bool.true_and, Bool.and_assoc]

/-- Clearing the low bits of a word rounds it down. -/
theorem toNat_and_high (v : Word) (k : Nat) (h : k ≤ 64) :
    (v &&& BitVec.ofNat 64 (2 ^ k * (2 ^ (64 - k) - 1))).toNat = v.toNat / 2 ^ k * 2 ^ k := by
  have hsplit : 2 ^ 64 = 2 ^ (64 - k) * 2 ^ k := by rw [← Nat.pow_add, Nat.sub_add_cancel h]
  have hlt : v.toNat / 2 ^ k < 2 ^ (64 - k) := Nat.div_lt_of_lt_mul (by rw [Nat.mul_comm, ← hsplit]; exact v.isLt)
  rw [toNat_and_field v (64 - k) k (by omega), Nat.mod_eq_of_lt hlt]

/-! ## The CSR words -/

/-- The word `w` may not name the register: it is illegal (R87, R88). -/
theorem csrOp_refused {s : State} {n : BitVec 10} (w : Insn) (d : BitVec 6) (f : Option (Word → Word)) (hl : s.h.lane = none)
    (h : csrRead s n = none ∨ (s.h.prv = false ∧ 0x100 ≤ n.toNat)) :
    csrOp w d n f s = .next (enterTrap s Cause.illegal (w.setWidth 64)) := by
  rw [← illegal_out w hl, csrOp]
  cases hr : csrRead s n with
  | none => rfl
  | some old =>
    obtain ⟨hp, hn⟩ := h.resolve_left (by simp [hr])
    simp [hp, hn]

/-- The privilege check of a CSR word passes where the statements say so (R88). -/
theorem csr_privileged {s : State} {n : BitVec 10} (hp : s.h.prv = true ∨ n.toNat < 0x100) : ¬ ((!s.h.prv) = true ∧ 0x100 ≤ n.toNat) := by
  rintro ⟨h1, h2⟩
  rcases hp with hp | hp
  · simp [hp] at h1
  · omega

/-- A word that only reads puts the old value in x[d] (R87). -/
theorem csrOp_read {s : State} {n : BitVec 10} {old : Word} (w : Insn) (d : BitVec 6) (hl : s.h.lane = none) (hr : csrRead s n = some old)
    (hp : s.h.prv = true ∨ n.toNat < 0x100) : csrOp w d n none s = .next (wrote s d old) := by
  rw [← done_wx_eq_wrote d old hl, csrOp]
  simp only [hr]
  rw [if_neg (csr_privileged hp)]

/-- A word that writes puts the old value in x[d] and makes the write (R87). -/
theorem csrOp_write {s t : State} {n : BitVec 10} {old : Word} (w : Insn) (d : BitVec 6) {f : Word → Word} (hl : s.h.lane = none)
    (hr : csrRead s n = some old) (hp : s.h.prv = true ∨ n.toNat < 0x100) (ht : csrWrite s n (f old) = .ok t) :
    csrOp w d n (some f) s = .next (wrote t d old) := by
  rw [← done_wx_eq_wrote d old ((csrWrite_lane ht).trans hl), csrOp]
  simp only [hr]
  rw [if_neg (csr_privileged hp)]
  simp only [ht]

/-- A word whose meaning is a CSR write of `f old x[a]` writes as the statements say. -/
theorem csrWrites_of_csrOp {i : BitVec 6 → BitVec 6 → BitVec 10 → Instr} {f : Word → Word → Word}
    (h : ∀ s d a n, exec (i d a n) s = csrOp (encode (i d a n)) d n (some fun old => f old (rx s a)) s) : CsrWrites i f := by
  intro s d a n old hl hr hp
  refine ⟨fun t ht => ?_, csrWrite_ok _⟩
  rw [h]
  exact csrOp_write _ d hl hr hp (by rwa [rx_eq_reg a hl])

/-- `CSRRD` writes nothing (R87). -/
theorem exec_csrrd (s : State) (d : BitVec 6) (n : BitVec 10) : exec (.csrrd d n) s = csrOp (encode (.csrrd d n)) d n none s := rfl

/-- `CSRWR` writes x[a] (R87). -/
theorem exec_csrwr (s : State) (d a : BitVec 6) (n : BitVec 10) :
    exec (.csrwr d a n) s = csrOp (encode (.csrwr d a n)) d n (some fun _ => rx s a) s := rfl

/-- `CSRBS` sets the bits of x[a] (R87). -/
theorem exec_csrbs (s : State) (d a : BitVec 6) (n : BitVec 10) :
    exec (.csrbs d a n) s = csrOp (encode (.csrbs d a n)) d n (some fun old => old ||| rx s a) s := rfl

/-- `CSRBC` clears the bits of x[a] (R87). -/
theorem exec_csrbc (s : State) (d a : BitVec 6) (n : BitVec 10) :
    exec (.csrbc d a n) s = csrOp (encode (.csrbc d a n)) d n (some fun old => old &&& ~~~rx s a) s := rfl

/-! ## Poison of scratchpad rows -/

/-- The keys of a list rise. -/
def KeysRise {α : Type} (m : Sparse α) : Prop := m.Pairwise fun e f => e.1 < f.1

/-- Where keys rise, what is listed is found. -/
theorem sfind_of_mem {α : Type} {m : Sparse α} (hm : KeysRise m) {e : Nat × α} (he : e ∈ m) : sfind m e.1 = some e.2 := by
  induction m with
  | nil => cases he
  | cons f t ih =>
    obtain ⟨hf, ht⟩ := List.pairwise_cons.mp hm
    rcases List.mem_cons.mp he with rfl | he
    · simp [sfind]
    · have hlt := hf e he
      simp [sfind, Nat.ne_of_gt hlt, Nat.lt_asymm hlt, ih ht he]

/-- A list whose entries all stay is left as it is. -/
theorem filterMap_eq_self {α : Type} {f : α → Option α} {l : List α} (h : ∀ e ∈ l, f e = some e) : l.filterMap f = l := by
  induction l with
  | nil => rfl
  | cons e t ih => rw [List.filterMap_cons_some (h e List.mem_cons_self), ih fun g hg => h g (List.mem_cons_of_mem _ hg)]

/-- A write to rows without poison leaves the record of poison as it is (R236). -/
theorem poisonWrite_of_not_spadPoisoned {c : Core} {off n : Nat} (hn : 0 < n) (hr : KeysRise c.spoison) (hp : spadPoisoned c off n = false) :
    poisonWrite c.spoison off n = c.spoison := by
  refine filterMap_eq_self fun e he => if_neg fun htouch => ?_
  have hclean : ∀ i < (off + n - 1) / 64 - off / 64 + 1, sfind c.spoison (off / 64 + i) = none := by
    simpa [spadPoisoned] using hp
  have hrow := hclean (e.1 - off / 64) (by omega)
  rw [show off / 64 + (e.1 - off / 64) = e.1 by omega, sfind_of_mem hr he] at hrow
  cases hrow

/-! ## Barriers that a scratchpad write touches -/

/-- A waiting `BWAIT` notes another phase of its object and nothing else (R297). -/
theorem noteBarrier_cases (c : Core) (h : Hart) : noteBarrier c h = h ∨
    ∃ off p, h.wait = some (.barrier off p false) ∧ phaseAt c off ≠ p ∧ noteBarrier c h = { h with wait := some (.barrier off p true) } := by
  unfold noteBarrier
  split
  · rename_i off p hw
    by_cases hp : phaseAt c off = p
    · exact .inl (by simp [hp])
    · exact .inr ⟨off, p, hw, hp, by simp [hp]⟩
  · exact .inl rfl

/-- The state after `n` bytes of `v` have gone to the scratchpad at `off`, where no row is poisoned (R234, R297). -/
def stored (s : State) (off n v : Nat) : State :=
  let c : Core := { s.c with spad := Memory.write s.c.spad off n v }
  { s with c := c, parked := s.parked.map fun e => if e.1 / 8 = coreOf s.hid then (e.1, noteBarrier c e.2) else e }

/-- A word that completes with a scratchpad write ends the wait that the write noted (R13, R297). -/
theorem done_spadWrite {s : State} {off n : Nat} (v : Nat) (hp : poisonWrite s.c.spoison off n = s.c.spoison) :
    done (spadWrite s off n v) = passed (stored s off n v) := by
  rw [spadWrite, hp]
  rcases noteBarrier_cases { s.c with spad := Memory.write s.c.spad off n v } s.h with h | ⟨o, p, -, -, h⟩
  · simp only [noteBarriers, h]; rfl
  · simp only [noteBarriers, h]; rfl

/-! ## Words at the scratchpad -/

/-- A load or store in the scratchpad window has its place there (R73, R233). -/
theorem place_spad {s : State} {a : Acc} {va : Word} {n : Nat} (ha : a ≠ .fetch) (hw : 0xFFFFFFFFFFF00000 ≤ va.toNat) (hal : va.toNat % n = 0)
    (ho : va.toNat % 2 ^ 20 < 0xC0000) : place s a va n = .ok (.spad (va.toNat % 2 ^ 20), s) := by
  have hlt := va.isLt
  have hb : bits va 19 0 = va.toNat % 2 ^ 20 := BitVec.extractLsb'_toNat ..
  have ht : bits va 63 55 = 511 := by
    rw [bits, BitVec.extractLsb'_toNat, Nat.shiftRight_eq_div_pow]
    omega
  have hc : canonical va = true := by simp only [canonical, ht]; rfl
  have hwin : inWindow va = true := decide_eq_true hw
  rw [place, placeUnder, hc, hal, hwin, hb]
  simpa [ha] using ho

/-- With an empty window there is nothing that a store's bytes must be carried on to (R41). -/
theorem patchHeld_empty {s : State} (pl : Place) (n : Nat) (v : Word) (h : s.h.mstage.stores = []) : patchHeld s pl n v = s := by
  have : s.h.mstage = { s.h.mstage with stores := [] } := by rw [← h]
  rw [patchHeld, h, List.map_nil, ← this]

/-- A store word to scratchpad bytes that no swatch holds up (R72, R234). -/
theorem storeWord_spad {s : State} {n : Nat} {b a : BitVec 6} {m : BitVec 9} (hl : s.h.lane = none) (hc : s.h.mstage.isOpen = false)
    (hs : s.h.mstage.stores = []) (hw : 0xFFFFFFFFFFF00000 ≤ (ea s a m).toNat) (hal : (ea s a m).toNat % n = 0)
    (ho : (ea s a m).toNat % 2 ^ 20 < 0xC0000) (hsw : swBusy s.c ((ea s a m).toNat % 2 ^ 20) n = false) :
    storeWord n b a m s = .next (done (spadWrite s ((ea s a m).toNat % 2 ^ 20) n (reg s b).toNat)) := by
  have hpl := place_spad (s := s) (a := .store) (by decide) hw hal ho
  rw [storeWord, rx_eq_reg a hl, rx_eq_reg b hl, ← ea, scalarStore, hpl]
  simp only [hc, writePlace, patchHeld_empty _ _ _ hs, hsw, settle, Bool.false_eq_true, if_false]

/-- A load word of scratchpad bytes without poison, with an empty window (R72, R73). -/
theorem loadWord_spad {s : State} {n : Nat} {ext : Word → Word} {d a : BitVec 6} {m : BitVec 9} (hl : s.h.lane = none)
    (hs : s.h.mstage.stores = []) (hw : 0xFFFFFFFFFFF00000 ≤ (ea s a m).toNat) (hal : (ea s a m).toNat % n = 0)
    (ho : (ea s a m).toNat % 2 ^ 20 < 0xC0000) (hp : spadPoisoned s.c ((ea s a m).toNat % 2 ^ 20) n = false) :
    loadWord n ext d a m s = .next (wrote s d (ext (BitVec.ofNat 64 (Memory.read s.c.spad ((ea s a m).toNat % 2 ^ 20) n)))) := by
  have hpl := place_spad (s := s) (a := .load) (by decide) hw hal ho
  rw [loadWord, rx_eq_reg a hl, ← ea, load, hpl]
  simp only [readOwn, readPlace, hp, hs, forward, Except.map, List.foldl_nil, settle, Bool.false_eq_true, if_false, done_wx_eq_wrote d _ hl]

/-! ## A store is read back -/

/-- `StoredBack` of the states whose record of poison lists its rows by rising number. -/
def StoredBackRising (i j : BitVec 6 → BitVec 6 → BitVec 9 → Instr) (n : Nat) : Prop :=
  ∀ (s : State) (b a : BitVec 6) (m : BitVec 9), KeysRise s.c.spoison →
    s.h.lane = none → s.h.mstage.isOpen = false → s.h.mstage.stores = [] → Memory.wf s.c.spad = true →
    0xFFFFFFFFFFF00000 ≤ (ea s a m).toNat → (ea s a m).toNat % n = 0 → (ea s a m).toNat % 2 ^ 20 < 0xC0000 →
    swBusy s.c ((ea s a m).toNat % 2 ^ 20) n = false → spadPoisoned s.c ((ea s a m).toNat % 2 ^ 20) n = false →
    ∃ t, exec (i b a m) s = .next t ∧
      (∀ k, k < n → (Memory.get t.c.spad ((ea s a m).toNat % 2 ^ 20 + k)).toNat = (reg s b).toNat / 256 ^ k % 256) ∧
      (∀ k, (k < (ea s a m).toNat % 2 ^ 20 ∨ (ea s a m).toNat % 2 ^ 20 + n ≤ k) → Memory.get t.c.spad k = Memory.get s.c.spad k) ∧
      Memory.wf t.c.spad = true ∧
      t = { passed { s with c := { s.c with spad := t.c.spad } } with
        parked := s.parked.map fun e => if e.1 / 8 = coreOf s.hid then (e.1, noteBarrier t.c e.2) else e } ∧
      ∀ d : BitVec 6, exec (j d a m) t = .next (wrote t d (BitVec.ofNat 64 ((reg s b).toNat % 2 ^ (8 * n))))

/-- A store word and a zero-extending load word of as many bytes find each other at the scratchpad. -/
theorem storedBackRising_of_words {i j : BitVec 6 → BitVec 6 → BitVec 9 → Instr} {n : Nat} (hn : 0 < n)
    (hi : ∀ s b a m, exec (i b a m) s = storeWord n b a m s) (hj : ∀ s d a m, exec (j d a m) s = loadWord n id d a m s) :
    StoredBackRising i j n := by
  intro s b a m hr hl hc hs hwf hw hal ho hsw hp
  have hclean := poisonWrite_of_not_spadPoisoned hn hr hp
  refine ⟨passed (stored s ((ea s a m).toNat % 2 ^ 20) n (reg s b).toNat), ?_, fun k hk => ?_, fun k hk => ?_, wf_write _ _ _ _ hwf, rfl, fun d => ?_⟩
  · rw [hi, storeWord_spad hl hc hs hw hal ho hsw, done_spadWrite _ hclean]
  · refine (congrArg BitVec.toNat (get_write _ _ _ _ _ hwf)).trans ?_
    rw [if_pos (by omega), Nat.add_sub_cancel_left, BitVec.toNat_ofNat]
  · exact (get_write _ _ _ _ _ hwf).trans (if_neg (by omega))
  · rw [hj, loadWord_spad (s := passed (stored s ((ea s a m).toNat % 2 ^ 20) n (reg s b).toNat)) hl hs hw hal ho hp]
    have hread := read_write_same s.c.spad ((ea s a m).toNat % 2 ^ 20) n (reg s b).toNat hwf
    rw [show 256 ^ n = 2 ^ (8 * n) from (Nat.pow_mul 2 8 n).symm] at hread
    exact congrArg (fun v => Host.Outcome.next (wrote _ d (BitVec.ofNat 64 v))) hread

/-- What the statement of a scratchpad store and load says holds wherever the record of poison lists its rows by rising number. -/
theorem scratchpadStoreThenLoad_rising : StoredBackRising .sb .lbu 1 ∧ StoredBackRising .sh .lhu 2 ∧ StoredBackRising .sw .lwu 4 ∧
    StoredBackRising .sd .ld 8 :=
  ⟨storedBackRising_of_words (by decide) (fun _ _ _ _ => rfl) (fun _ _ _ _ => rfl),
   storedBackRising_of_words (by decide) (fun _ _ _ _ => rfl) (fun _ _ _ _ => rfl),
   storedBackRising_of_words (by decide) (fun _ _ _ _ => rfl) (fun _ _ _ _ => rfl),
   storedBackRising_of_words (by decide) (fun _ _ _ _ => rfl) (fun _ _ _ _ => rfl)⟩

end Sys2Proof.Laws
end

section
/-!
PROOFS. The statements on a scratchpad store and load, the CSR words and the sample words of the encodings.
-/

namespace Sys2Proof.Claims

open Sys2Proof.Machine Sys2Proof.Laws

/-- A hart with the base of the scratchpad window in x1 and a value in x2, on a core with a record of poison. -/
def padHart (poison : Sparse (BitVec 512)) : State :=
  { State.reset with
    h := { State.reset.h with x := (State.reset.h.x.set 1 0xFFFFFFFFFFF00000).set 2 0xABCD }
    c := { State.reset.c with spoison := poison } }

/-- With rows 1 and 2 poisoned, a byte stored in row 0 is read back. -/
theorem padHart_sb_lbu : ∃ t, exec (.sb 2 1 0) (padHart [(1, 0), (2, 0)]) = .next t ∧ exec (.lbu 3 1 0) t = .next (wrote t 3 0xCD) := by
  obtain ⟨hsb, -⟩ := scratchpadStoreThenLoad_rising
  obtain ⟨t, hexec, -, -, -, -, hload⟩ := hsb (padHart [(1, 0), (2, 0)]) 2 1 0 (by simp [KeysRise, padHart]) (by decide +kernel) (by decide +kernel)
    (by decide +kernel) (by decide +kernel) (by decide +kernel) (by decide +kernel) (by decide +kernel) (by decide +kernel) (by decide +kernel)
  exact ⟨t, hexec, hload 3⟩

/-- The record lists row 1 before row 0. `sput` would list them the other way, but the statement asks a canonical form of the scratchpad's bytes only,
not of this record. -/
def fallingPoison : State := padHart [(1, 0), (0, 0)]

/-- A byte stored at offset 0 is marked in the record of row 0, which the check for poison does not find behind row 1. -/
theorem sb_fallingPoison_marks :
    (match exec (.sb 0 1 0) fallingPoison with
     | .next t => t.c.spoison
     | _ => []) = [(1, 0), (0, 0xFF)] := by decide +kernel

/-- Refutes O5: the record of poison changes where it is not listed by rising rows, and the statement's frame lets nothing of the core but the bytes
change. The state is `fallingPoison`, the word `SB x0, 0(x1)`. With the missing hypothesis on the record it holds (`scratchpadStoreThenLoad_rising`). -/
theorem not_scratchpadStoreThenLoad : ¬ Obligations.ScratchpadStoreThenLoad := by
  unfold Obligations.ScratchpadStoreThenLoad
  rintro ⟨-, hsb, -⟩
  obtain ⟨t, hexec, -, -, -, hframe, -⟩ := hsb fallingPoison 0 1 0 (by decide +kernel) (by decide +kernel) (by decide +kernel) (by decide +kernel)
    (by decide +kernel) (by decide +kernel) (by decide +kernel) (by decide +kernel) (by decide +kernel)
  have hkept : t.c.spoison = fallingPoison.c.spoison := congrArg (fun u => u.c.spoison) hframe
  have hmarks := sb_fallingPoison_marks
  rw [hexec] at hmarks
  exact absurd (hkept.symm.trans hmarks) (by decide +kernel)

/-- Settles O11: the reads by the table of R29, the words by the rules of `csrOp`, and the writes register by register. -/
theorem csrWords : Obligations.CsrWords := by
  unfold Obligations.CsrWords
  refine ⟨readsCsr, ⟨?refused, ?read, ?wr, ?bs, ?bc⟩, fun s v => ⟨csrWrite_alwaysReadOnly s v, csrWrite_userReadOnly v, rfl, rfl,
    fun h => ⟨_, csrWrite_vdirty v h, rfl, ?vdirty⟩, ⟨_, rfl, rfl, writeFcsr_toNat s.h v⟩, ⟨_, rfl, rfl, fun _ => mshapeMask_getLsbD v⟩, rfl,
    fun i h => ?fits, fun i h => ?above, rfl, ⟨_, rfl, rfl, toNat_and_high v 2 (by decide)⟩, rfl, rfl,
    ⟨_, rfl, rfl, toNat_and_high v 6 (by decide)⟩, rfl, ⟨_, rfl, rfl, toNat_and_field v 36 16 (by decide)⟩⟩⟩
  case refused =>
    intro s d a n hl h
    simp only [Traps, List.forall_mem_cons, List.not_mem_nil, false_implies, implies_true, and_true, exec_csrrd, exec_csrwr, exec_csrbs, exec_csrbc,
      csrOp_refused _ d _ hl h]
  case read =>
    intro s d n old hl hr hp
    exact csrOp_read _ d hl hr hp
  case wr => exact csrWrites_of_csrOp exec_csrwr
  case bs => exact csrWrites_of_csrOp exec_csrbs
  case bc => exact csrWrites_of_csrOp exec_csrbc
  case vdirty =>
    intro i hi
    simp [hi]
  case fits => rw [csrWrite_focc, writeFocc_fits i h]
  case above => rw [csrWrite_focc, writeFocc_over i h]

/-- Settles O55: each word is one closed computation of the decoder. -/
theorem decodeSampleWords : Obligations.DecodeSampleWords := by
  unfold Obligations.DecodeSampleWords
  constructor
  · decide +kernel
  · decide +kernel

end Sys2Proof.Claims
end

section
/-!
PROOFS. The statement on the round trip of encoding and decoding.
-/

namespace Sys2Proof.Claims

open Sys2Proof.Laws

/-- Settles O56: the split over the rows of the opcode table, each row by its own round trip law. A word's law reads back the segments of the word that the
row's encoding has written; an event has no word and is not well-formed. -/
theorem decodeEncodeAgree : Obligations.DecodeEncodeAgree := by
  unfold Obligations.DecodeEncodeAgree
  intro i
  exact i.casesOn
    RoundTrip.add RoundTrip.sub RoundTrip.andR RoundTrip.orR RoundTrip.xorR RoundTrip.sll RoundTrip.srl RoundTrip.sra RoundTrip.slt RoundTrip.sltu
    RoundTrip.min RoundTrip.max RoundTrip.minu RoundTrip.maxu RoundTrip.andn RoundTrip.absd RoundTrip.mul RoundTrip.hmul RoundTrip.hmulu
    RoundTrip.hmulsu RoundTrip.div RoundTrip.divu RoundTrip.rem RoundTrip.remu RoundTrip.clz RoundTrip.ctz RoundTrip.popc RoundTrip.bswap
    RoundTrip.addw RoundTrip.subw RoundTrip.sllw RoundTrip.srlw RoundTrip.sraw RoundTrip.mulw RoundTrip.divw RoundTrip.divuw RoundTrip.remw
    RoundTrip.remuw RoundTrip.addi RoundTrip.addiw RoundTrip.andi RoundTrip.ori RoundTrip.xori RoundTrip.slti RoundTrip.sltiu RoundTrip.slli
    RoundTrip.srli RoundTrip.srai RoundTrip.slliw RoundTrip.srliw RoundTrip.sraiw RoundTrip.lui RoundTrip.auipc RoundTrip.lb RoundTrip.lh RoundTrip.lw
    RoundTrip.ld RoundTrip.lbu RoundTrip.lhu RoundTrip.lwu RoundTrip.sb RoundTrip.sh RoundTrip.sw RoundTrip.sd RoundTrip.fadd RoundTrip.fsub
    RoundTrip.fmul RoundTrip.fdiv RoundTrip.fsqrt RoundTrip.fmin RoundTrip.fmax RoundTrip.feq RoundTrip.flt RoundTrip.fle RoundTrip.fclass
    RoundTrip.fsgnj RoundTrip.fsgnjn RoundTrip.fsgnjx RoundTrip.fcvtif RoundTrip.fcvtfi RoundTrip.fcvtff RoundTrip.fmadd RoundTrip.fmsub
    RoundTrip.fnmadd RoundTrip.fnmsub RoundTrip.beq RoundTrip.bne RoundTrip.blt RoundTrip.bge RoundTrip.bltu RoundTrip.bgeu RoundTrip.jal
    RoundTrip.jalr RoundTrip.brvAny RoundTrip.brvNone RoundTrip.brvAll RoundTrip.brvResolve RoundTrip.csrrd RoundTrip.csrwr RoundTrip.csrbs
    RoundTrip.csrbc RoundTrip.svc RoundTrip.trap RoundTrip.breakC RoundTrip.rett RoundTrip.wfi RoundTrip.halt RoundTrip.pause RoundTrip.pauseExpiry
    RoundTrip.setvl RoundTrip.setvlx RoundTrip.setvlxKeep RoundTrip.setvlGrant RoundTrip.lpartWrite RoundTrip.lpartStallEnd RoundTrip.smmWrite
    RoundTrip.foccWrite RoundTrip.fcsrWrite RoundTrip.vdirtyWrite RoundTrip.registerWrite RoundTrip.convoyStart RoundTrip.vaddVv RoundTrip.vsubVv
    RoundTrip.vandVv RoundTrip.vorVv RoundTrip.vxorVv RoundTrip.vsllVv RoundTrip.vsrlVv RoundTrip.vsraVv RoundTrip.vminVv RoundTrip.vmaxVv
    RoundTrip.vminuVv RoundTrip.vmaxuVv RoundTrip.vmulVv RoundTrip.vhmulVv RoundTrip.vhmuluVv RoundTrip.vhmulsuVv RoundTrip.vdivVv RoundTrip.vdivuVv
    RoundTrip.vremVv RoundTrip.vremuVv RoundTrip.vclzVv RoundTrip.vctzVv RoundTrip.vpopcVv RoundTrip.vaddVx RoundTrip.vsubVx RoundTrip.vandVx
    RoundTrip.vorVx RoundTrip.vxorVx RoundTrip.vsllVx RoundTrip.vsrlVx RoundTrip.vsraVx RoundTrip.vminVx RoundTrip.vmaxVx RoundTrip.vminuVx
    RoundTrip.vmaxuVx RoundTrip.vmulVx RoundTrip.vhmulVx RoundTrip.vhmuluVx RoundTrip.vhmulsuVx RoundTrip.vdivVx RoundTrip.vdivuVx RoundTrip.vremVx
    RoundTrip.vremuVx RoundTrip.vclzVx RoundTrip.vctzVx RoundTrip.vpopcVx RoundTrip.vrsubVx RoundTrip.vaddVi RoundTrip.vandVi RoundTrip.vorVi
    RoundTrip.vxorVi RoundTrip.vsllVi RoundTrip.vsrlVi RoundTrip.vsraVi RoundTrip.vminVi RoundTrip.vmaxVi RoundTrip.vminuVi RoundTrip.vmaxuVi
    RoundTrip.vrsubVi RoundTrip.vsadd RoundTrip.vsaddu RoundTrip.vssub RoundTrip.vssubu RoundTrip.vsmul RoundTrip.vavg RoundTrip.vavgu
    RoundTrip.vfaddVv RoundTrip.vfsubVv RoundTrip.vfmulVv RoundTrip.vfdivVv RoundTrip.vfsqrtVv RoundTrip.vfminVv RoundTrip.vfmaxVv RoundTrip.vfsgnjVv
    RoundTrip.vfsgnjnVv RoundTrip.vfsgnjxVv RoundTrip.vfclassVv RoundTrip.vfrsubVv RoundTrip.vfrdivVv RoundTrip.vfaddVx RoundTrip.vfsubVx
    RoundTrip.vfmulVx RoundTrip.vfdivVx RoundTrip.vfsqrtVx RoundTrip.vfminVx RoundTrip.vfmaxVx RoundTrip.vfsgnjVx RoundTrip.vfsgnjnVx
    RoundTrip.vfsgnjxVx RoundTrip.vfclassVx RoundTrip.vfrsubVx RoundTrip.vfrdivVx RoundTrip.vfmadd RoundTrip.vfmsub RoundTrip.vfnmadd
    RoundTrip.vfnmsub RoundTrip.vmacc RoundTrip.vnmsac RoundTrip.vwmacc RoundTrip.vwmaccu RoundTrip.vwmaccsu RoundTrip.vfwmacc RoundTrip.vseq
    RoundTrip.vsne RoundTrip.vslt RoundTrip.vsltu RoundTrip.vsle RoundTrip.vsleu RoundTrip.vfeq RoundTrip.vfne RoundTrip.vflt RoundTrip.vfle
    RoundTrip.vford RoundTrip.kand RoundTrip.kor RoundTrip.kxor RoundTrip.kandn RoundTrip.korn RoundTrip.knot RoundTrip.kmov RoundTrip.kfromsmm
    RoundTrip.ktosmm RoundTrip.kfromv RoundTrip.ktov RoundTrip.vredsum RoundTrip.vredmin RoundTrip.vredmax RoundTrip.vredminu RoundTrip.vredmaxu
    RoundTrip.vredand RoundTrip.vredor RoundTrip.vredxor RoundTrip.vfredsum RoundTrip.vfredmin RoundTrip.vfredmax RoundTrip.vredo RoundTrip.vshuf
    RoundTrip.vpack RoundTrip.vrank RoundTrip.vramp RoundTrip.vrampS RoundTrip.vbcast RoundTrip.vtox RoundTrip.xtov RoundTrip.vshup RoundTrip.vshdn
    RoundTrip.kcount RoundTrip.klead RoundTrip.vld RoundTrip.vldStr RoundTrip.vldM RoundTrip.vst RoundTrip.vstStr RoundTrip.vstM RoundTrip.vcvt
    RoundTrip.slicvt RoundTrip.vquant RoundTrip.vdeq RoundTrip.sliopAdd RoundTrip.sliopSub RoundTrip.sliopMul RoundTrip.sliopDiv RoundTrip.slixAdd
    RoundTrip.slixSub RoundTrip.slixMul RoundTrip.slixDiv RoundTrip.slixRsub RoundTrip.slixRdiv RoundTrip.slifnExp RoundTrip.slifnLog
    RoundTrip.sliredSum RoundTrip.sliredMax RoundTrip.sliredMin RoundTrip.vtransExp RoundTrip.vtransExp2 RoundTrip.vtransLog RoundTrip.vtransLog2
    RoundTrip.vtransRcp RoundTrip.vtransRsqrt RoundTrip.vtransTanh RoundTrip.fmatch RoundTrip.fisectMul RoundTrip.fisectFirst RoundTrip.fisectSecond
    RoundTrip.fisectAdd RoundTrip.fisectMin RoundTrip.fisectMax RoundTrip.funionFirst RoundTrip.funionSecond RoundTrip.funionAdd RoundTrip.funionMin
    RoundTrip.funionMax RoundTrip.fmergeFirst RoundTrip.fmergeLast RoundTrip.fmergeAdd RoundTrip.fmergeMin RoundTrip.fmergeMax
    RoundTrip.fmergeSortFirst RoundTrip.fmergeSortLast RoundTrip.fmergeSortAdd RoundTrip.fmergeSortMin RoundTrip.fmergeSortMax RoundTrip.fcompact
    RoundTrip.fexpand RoundTrip.fwalkIdx RoundTrip.fwalkVals RoundTrip.fdot RoundTrip.fdotIsect RoundTrip.fmapMul RoundTrip.fmapAdd RoundTrip.fmapAbs
    RoundTrip.fmapNeg RoundTrip.fmapRelu RoundTrip.fmov RoundTrip.ftodense RoundTrip.ffromdense RoundTrip.foccr RoundTrip.foccw RoundTrip.fldstLd
    RoundTrip.fldstSt RoundTrip.vldx RoundTrip.vstx RoundTrip.vldff RoundTrip.vgathb RoundTrip.vscatbSt RoundTrip.vscatbAdd RoundTrip.vscatbFadd
    RoundTrip.vscatbMax RoundTrip.vlds RoundTrip.vspadLd RoundTrip.vspadSt RoundTrip.vamoAdd RoundTrip.vamoAnd RoundTrip.vamoOr RoundTrip.vamoXor
    RoundTrip.vamoSwap RoundTrip.vamoMin RoundTrip.vamoMax RoundTrip.vamoFadd32 RoundTrip.vamoUmin RoundTrip.vamoUmax RoundTrip.vamoIncb
    RoundTrip.vamoFmin32 RoundTrip.vamoFmax32 RoundTrip.vamoAdd32w RoundTrip.vamoFadd16x2 RoundTrip.vselMax RoundTrip.vselMin RoundTrip.vselMaxClr
    RoundTrip.vselMinClr RoundTrip.vexitBefore RoundTrip.vexitIncl RoundTrip.vexitOnly RoundTrip.vscanIdx RoundTrip.vscanAdd RoundTrip.vscanAddx
    RoundTrip.vscanMax RoundTrip.vscanMaxu RoundTrip.ltsplit RoundTrip.ltjoin RoundTrip.ltyield RoundTrip.ltid RoundTrip.splitRegionJoin
    RoundTrip.mshape RoundTrip.mmaSet RoundTrip.mmaAcc RoundTrip.mmaSetSp RoundTrip.mmaAccSp RoundTrip.mmaSetGrp RoundTrip.mmaAccGrp RoundTrip.mmagSet
    RoundTrip.mmagAcc RoundTrip.mmetaMeta RoundTrip.mmetaIdx RoundTrip.mmetaRows RoundTrip.mtileZero RoundTrip.mtileLd RoundTrip.mtileSt
    RoundTrip.mdrain RoundTrip.matrixConvoyStart RoundTrip.pset RoundTrip.swset RoundTrip.swsetClr RoundTrip.swsetResume RoundTrip.shstageSrc
    RoundTrip.shstageDst RoundTrip.shstageIdx RoundTrip.shstageSbase RoundTrip.shstageDbase RoundTrip.shstageBar RoundTrip.shstageSw
    RoundTrip.shstagePort RoundTrip.shstageRtn RoundTrip.shstageClr RoundTrip.shstageRstat RoundTrip.shgoCopy RoundTrip.shgoRows RoundTrip.shgoStream
    RoundTrip.shgoSend RoundTrip.shgoBodkin RoundTrip.shgoQueueRoom RoundTrip.shstatTl RoundTrip.shstatMiss RoundTrip.shstatErr RoundTrip.shstatAddr
    RoundTrip.shstatLanded RoundTrip.shstatNext RoundTrip.shstatSw RoundTrip.shstatPv RoundTrip.shportStat RoundTrip.shportDisc RoundTrip.waittl
    RoundTrip.sigtl RoundTrip.rdtl RoundTrip.trytl RoundTrip.waittlPass RoundTrip.binit RoundTrip.barrive RoundTrip.bwait RoundTrip.btry
    RoundTrip.bwaitPass RoundTrip.lock RoundTrip.unlock RoundTrip.swatchWaitEnd RoundTrip.fenceRel RoundTrip.fenceAcq RoundTrip.fenceFull
    RoundTrip.amoAdd RoundTrip.amoAnd RoundTrip.amoOr RoundTrip.amoXor RoundTrip.amoSwap RoundTrip.amoMin RoundTrip.amoMax RoundTrip.amoFadd32
    RoundTrip.amo2Umin RoundTrip.amo2Umax RoundTrip.amo2Cas RoundTrip.amo2Incb RoundTrip.amo2Fmin32 RoundTrip.amo2Fmax32 RoundTrip.amo2Add32w
    RoundTrip.amo2Fadd16x2 RoundTrip.ldacq RoundTrip.strel RoundTrip.launch RoundTrip.launchId RoundTrip.launchGate RoundTrip.launchGateId
    RoundTrip.lwait RoundTrip.ltry RoundTrip.lcancel RoundTrip.lwaitComplete RoundTrip.msend RoundTrip.msendw RoundTrip.mailboxEntryGrant
    RoundTrip.messageDelivery RoundTrip.mrecv RoundTrip.mtry RoundTrip.mrecvTake RoundTrip.msigtl RoundTrip.mwaittl RoundTrip.mtrytl RoundTrip.mamoAdd
    RoundTrip.mamoAnd RoundTrip.mamoOr RoundTrip.mamoXor RoundTrip.mamoSwap RoundTrip.mamoMin RoundTrip.mamoMax RoundTrip.mamoFadd32
    RoundTrip.mamo2Umin RoundTrip.mamo2Umax RoundTrip.mamo2Cas RoundTrip.mamo2Incb RoundTrip.mamo2Fmin32 RoundTrip.mamo2Fmax32 RoundTrip.mamo2Add32w
    RoundTrip.mamo2Fadd16x2 RoundTrip.remoteOperation RoundTrip.supvCarea RoundTrip.supvCsave RoundTrip.supvCrest RoundTrip.crestGrant
    RoundTrip.supvTack RoundTrip.supvTset RoundTrip.supvEack RoundTrip.supvPack RoundTrip.supvTlbinv RoundTrip.supvQuiesce RoundTrip.supvResume
    RoundTrip.supvReplay RoundTrip.supvRtn RoundTrip.supvSvch RoundTrip.seamRead RoundTrip.seamHealth RoundTrip.timerExpiry RoundTrip.interruptEntry
    RoundTrip.l1Eviction RoundTrip.homeHoldRelease RoundTrip.commandStart RoundTrip.landedCountRise RoundTrip.sourceReadDone RoundTrip.transferSuspend
    RoundTrip.transferPoison RoundTrip.bodkinFault RoundTrip.fabricSendArrival RoundTrip.launchDispatch RoundTrip.gateOpen RoundTrip.priorityAging
    RoundTrip.gangPlacement RoundTrip.reservationPreempt RoundTrip.gangRestore RoundTrip.unitCancelStop RoundTrip.channelReset
    RoundTrip.clusterModeChange RoundTrip.runtimeRetire RoundTrip.deviceReset RoundTrip.functionLevelReset RoundTrip.hostBar2Access
    RoundTrip.bar2baseWrite RoundTrip.go RoundTrip.hostCounterWrite RoundTrip.doorbell RoundTrip.load RoundTrip.firmwareVerifyDone
    RoundTrip.stage2Entry RoundTrip.stage3Entry RoundTrip.req RoundTrip.attestationReportReady RoundTrip.validWrite RoundTrip.ccountWrite
    RoundTrip.correctedError RoundTrip.uncorrectedError RoundTrip.telemetryUpdate RoundTrip.throttleAlert RoundTrip.tripNearWarning
    RoundTrip.electricalTrip RoundTrip.portStateChange RoundTrip.blockLeaveService RoundTrip.blockReturnService RoundTrip.arm RoundTrip.checkpointCut
    RoundTrip.frameStream RoundTrip.illegalInsn RoundTrip.fetchFault RoundTrip.wfiEarlyCompletion RoundTrip.remoteAcknowledgement
    RoundTrip.resizableBarSelect RoundTrip.fabricSetUp

end Sys2Proof.Claims
end
